-- ==== Sys2Proof/Word.lean ====
section
/-! DEFINITION. The word types of the Corod: bytes, 32-bit register words, 64-bit postmarks and addresses, and the
48-bit docket postmark (00 R10, R11; 02 R38; 04 R146). -/

namespace Sys2Proof

/-- A byte. -/
abbrev Byte := BitVec 8

/-- A 16-bit field. -/
abbrev W16 := BitVec 16

/-- A 32-bit word: every register of BAR0 (R723). -/
abbrev W32 := BitVec 32

/-- A 64-bit word: the postmark counter, addresses, host tags. -/
abbrev W64 := BitVec 64

/-- A docket postmark: bits [47:0] of the counter (R38). -/
abbrev Pm48 := BitVec 48

end Sys2Proof
end

