-- ==== Sys2Proof/Syntax.lean ====
section
/-! DEFINITION. The commands the Corod takes: one constructor of `Instr` per row of the opcode table, with the operands
that come from outside the block. -/

namespace Sys2Proof

/-- Who makes a register access: a PCIe function (0 the physical function, 1-15 the virtual functions) or a physical
joiner core (R163, R267). -/
inductive Requester where
  | fn (f : Fin 16)
  | core (c : Fin 34)
  deriving DecidableEq, Repr

/-- A ring entry as host memory holds it, but for its OPCODE byte, which the command's constructor gives (R59). -/
structure LetterIn where
  lflags : Byte
  chan : Byte
  sclass : Byte
  seq : W32
  slot : W16
  stream : W16
  deadline : W32
  tag : W64
  args : List Byte
  crc : W32
  deriving DecidableEq, Repr

/-- What the MRAM answers to a slot write (R136): the slot reads back as written, differs, takes longer than 50 µs, or a
read fails its ECC uncorrectably. -/
inductive MramResult where
  | written | mismatch | timeout | eccFail
  deriving DecidableEq, Repr

/-- The kinds of unit that tasks run on; Courier work holds no unit. -/
inductive UnitKind where
  | truss | scribe | sorter | plane | joiner | courier
  deriving DecidableEq, Repr

/-- The kinds of unit that rotating tests visit (R606). -/
inductive TestKind where
  | truss | scribe | joiner | beam | sorter | plane
  deriving DecidableEq, Repr

/-- An accumulator of an L0 tile, or a lane of its checksum row or column, numbered within the tile (R307); of an output block of
another MOP: an element, the sum of its sources, or their index-weighted sum (R309). -/
inductive Lane where
  | cell (i j : Nat)
  | row (j : Nat)
  | col (i : Nat)
  deriving DecidableEq, Repr

/-- What a fault adds to an accumulator or lane: a multiple of its least significant bit, a NaN or an infinite product. -/
inductive LaneKind where
  | sum (v : Int)
  | nan
  | inf (neg : Bool)
  deriving DecidableEq, Repr

/-- A fault that corrupts an accumulator or lane of a tile or block in a reduction step (R310, R311, R313). -/
structure LaneFault where
  tile : Nat
  lane : Lane
  step : Nat
  kind : LaneKind
  deriving DecidableEq, Repr

/-- A fault of the rounding stage: what it adds to the encoding of one output element of a tile or block (R309, R310). -/
structure RoundFault where
  tile : Nat
  elem : Nat
  delta : Int
  deriving DecidableEq, Repr

/-- Why a joiner task ends other than by ECALL (R330). -/
inductive JoinerCause where
  | exception (cause : Nat)
  | other
  deriving DecidableEq, Repr

/-- What the header ECC of a received CSI-2 packet found (R367). -/
inductive HeaderEcc where
  | good
  | corrected
  | bad
  deriving DecidableEq, Repr

/-- How a CSI-2 packet came in (R365, R367): its header ECC, whether the data lanes stay in high-speed mode after it, and, when a
deskew sequence came before it, whether that sequence completed. -/
structure PhyIn where
  header : HeaderEcc
  hsAfter : Bool
  deskew : Option Bool
  deriving DecidableEq, Repr

/-- A fault of a sweep (R433): bits that come out wrong in the record of a candidate, or in the summary when none is named, of the
primary set or of the mirror. -/
structure SweepFault where
  mirror : Bool
  cand : Option Nat
  pos : Fin 32
  mask : Byte
  deriving DecidableEq, Repr

/-- Which part of a row's result a Sorter fault strikes (R459): an accumulator, a count, or the special-value flags (NaN, +∞, −∞ in
bits 0 to 2) of the selected or of the left-out set, or a written entry's key and position. -/
inductive SortSpot where
  | acc (out : Bool) (mask : Nat)
  | count (out : Bool) (mask : W32)
  | special (out : Bool) (mask : BitVec 3)
  | entry (i : Nat) (key pos : W32)
  deriving DecidableEq, Repr

/-- A fault of a Sorter task: wrong bits in the result of a row. -/
structure SortFault where
  row : Nat
  spot : SortSpot
  deriving DecidableEq, Repr

/-- One operation of a Plane datapath as its residue checker sees it (R501): significands as integers, the operands that went in and
the result that came out. -/
inductive PlaneOp where
  /-- a multiply-add: a · b + c came out as r -/
  | mulAdd (a b c r : Int)
  /-- a division: n by d came out as a quotient and a remainder -/
  | divide (n d quot rem : Int)
  /-- a square root: of n came out as a root and a remainder -/
  | root (n r rem : Int)
  deriving DecidableEq, Repr

/-- A received CSI-2 long packet (R365, R367). -/
structure LongPacket where
  vc : Fin 16
  dt : BitVec 6
  crcOk : Bool
  payload : List Byte
  deriving DecidableEq, Repr

/-- The head of a collective, pair or resync message as it reaches this station (R507): the link it came on, its source, its
group, the docket PID of the message (R523), and COLL_SEQ. -/
structure FlitIn where
  link : Fin 6
  src : BitVec 12
  group : Fin 16
  pid : Fin 16
  collSeq : W16
  deriving DecidableEq, Repr

/-- What a CONTRIB flit tells of a collective (R526): operator code, formats, element count, and parameter words. -/
structure CollDesc where
  code : Nat
  fmts : List Nat
  count : Nat
  params : List Nat
  deriving DecidableEq, Repr

/-- What one station contributes to a collective (R527): its address, the docket of its DATA message, the bytes of its input
tensors one after another, and whether a flit of the message was retransmitted (R515). -/
structure CollPart where
  chip : BitVec 12
  docket : List Byte
  data : List Byte
  retried : Bool
  deriving DecidableEq, Repr

/-- What a HEARTBEAT flit carries (R545). -/
structure Heartbeat where
  epoch : W16
  safe : Fin 4
  world : W16
  jno : BitVec 48
  deriving DecidableEq, Repr

/-- What the VDD_CORE regulator answers when VSETTLE_PT has passed (R180, R182): whether it answered and its PEC held, READ_VOUT
in mV, STATUS_WORD, and whether that word shows a fault bit (R662). -/
structure RegulatorAnswer where
  answered : Bool
  pecOk : Bool
  fault : Bool
  vout : Nat
  status : W16
  deriving DecidableEq, Repr

/-- A fault that a block's own checker reports in this cycle (R624). -/
structure FaultIn where
  cls : Nat
  source : BitVec 12
  sclass : BitVec 4
  pid : BitVec 4
  notConsumed : Bool
  detail : W16
  deriving DecidableEq, Repr

/-- A CAN frame on the bus. -/
structure CanFrame where
  ident : BitVec 29
  ide : Bool
  fdf : Bool
  brs : Bool
  dlc : Fin 16
  data : List Byte
  deriving DecidableEq, Repr

/-- An SRAM array with its own scrubber (R227): a Beam bank, a Mortise buffer or a joiner local store, by physical
number. -/
inductive ScrubArray where
  | beam (b : Fin 34)
  | mortise (t : Fin 9)
  | store (c : Fin 34)
  deriving DecidableEq, Repr

/-- An instruction of the test access port (R667, R668). -/
inductive TapInstr where
  | bypass | sample | extest | idcode | debug
  deriving DecidableEq, Repr


/-- An upset of storage (R225, R226, R274, R595): of the 64-bit word of a number, or of a word of the pool line at an index, in one
bit or beyond correction; of the parity of an ownership or mapping entry; or of one bit of a page's configuration. -/
inductive Upset where
  | word (w : Nat) (hard : Bool)
  | line (i : Nat) (w : Fin 32) (hard : Bool)
  | entry (k : Nat)
  | config (page off : BitVec 12) (b : Fin 32)
  deriving DecidableEq, Repr

/-- The commands: one constructor per row of the opcode table. -/
inductive Instr where
  /-- PING (R70): Letter that returns REPRO_CLASS, free credits and the device state. -/
  | ping (ch : Fin 64) (l : LetterIn)
  /-- LOAD_PLAN (R205): Letter that stages a plan container, validates it pass by pass and loads it into a plan slot. -/
  | loadPlan (ch : Fin 64) (l : LetterIn) (data : List Byte)
  /-- UNLOAD_PLAN (R77): Letter that empties a plan slot of the issuing partition. -/
  | unloadPlan (ch : Fin 64) (l : LetterIn)
  /-- RUN_PLAN (R214): Letter that binds device tensors to a loaded plan and queues a run of it. -/
  | runPlan (ch : Fin 64) (l : LetterIn) (data : List Byte)
  /-- WRITE_TENSOR (R74): Letter that stages host data, optionally checks its CRC, and writes it into a device tensor. -/
  | writeTensor (ch : Fin 64) (l : LetterIn) (data : List Byte)
  /-- READ_TENSOR (R74): Letter that copies a range of a device tensor to host memory and returns its CRC-32C. -/
  | readTensor (ch : Fin 64) (l : LetterIn)
  /-- WORLD_UPDATE (R406): Latest-wins Letter that builds a world epoch in the back buffer from a host payload. -/
  | worldUpdate (ch : Fin 64) (l : LetterIn) (data : List Byte)
  /-- SWEEP (R426): Letter that sweeps candidate bus motions against a world epoch and writes records and a summary. -/
  | sweep (ch : Fin 64) (l : LetterIn)
  /-- SELECT (R452): Letter that runs top-k or threshold compaction over one row on a Sorter unit. -/
  | select (ch : Fin 64) (l : LetterIn)
  /-- SOLVE (R491): Letter that runs a QP, dense Cholesky or CG solve on a Plane unit. -/
  | solve (ch : Fin 64) (l : LetterIn)
  /-- SET_PARTITION (R262): PID 0 Letter that validates a configuration block and reconfigures or disables a partition. -/
  | setPartition (ch : Fin 64) (l : LetterIn) (data : List Byte)
  /-- PARTITION_INSTALL (R262): Once the partition has drained, the cache is written back, released resources are zeroed and the new tables are installed in one cycle. -/
  | partitionInstall (p : Fin 16)
  /-- QUERY_DAYBOOK (R115): Letter that writes Daybook entries for a sequence range of a channel. -/
  | queryDaybook (ch : Fin 64) (l : LetterIn)
  /-- READ_LEDGER (R700): PID 0 Letter that writes Ledger records of one class to host memory. -/
  | readLedger (ch : Fin 64) (l : LetterIn)
  /-- TIME_ALIGN (R170): PID 0 Letter that writes ADJ_PT into POSTMARK_ADJ, or defers the write while an alignment is active. -/
  | timeAlign (ch : Fin 64) (l : LetterIn)
  /-- TIME_ALIGN_DEFERRED_WRITE (R170): A deferred TIME_ALIGN writes POSTMARK_ADJ in the first cycle after ALIGN_ACTIVE clears. -/
  | timeAlignDeferredWrite
  /-- SEAL (R614): SAFETY_CMD that sets LOCK in every sealable page. -/
  | seal (ch : Fin 64) (l : LetterIn)
  /-- UNSEAL (R614): SAFETY_CMD that clears the LOCKs that SEAL set. -/
  | unseal (ch : Fin 64) (l : LetterIn)
  /-- SET_KEY (R614): SAFETY_CMD that commits a new lock key to MRAM. -/
  | setKey (ch : Fin 64) (l : LetterIn)
  /-- INJECT (R614): SAFETY_CMD that records a fault marked INJECTED and escalates it as a real fault. -/
  | inject (ch : Fin 64) (l : LetterIn)
  /-- ENTER_SAFE_A (R638): SAFETY_CMD that raises EXTERNAL with DETAIL 2. -/
  | enterSafeA (ch : Fin 64) (l : LetterIn)
  /-- LEAVE_SAFE_A (R632): SAFETY_CMD that returns the Corod to NORMAL when every cause's Leave condition is met. -/
  | leaveSafeA (ch : Fin 64) (l : LetterIn)
  /-- ROTATE (R607): SAFETY_CMD that makes a named unit the next to be tested, or returns a mapped-out unit (R709). -/
  | rotate (ch : Fin 64) (l : LetterIn)
  /-- SUSPECT_CLEAR (R614): SAFETY_CMD that empties a unit's suspect count. -/
  | suspectClear (ch : Fin 64) (l : LetterIn)
  /-- FENCE (R75): Letter that orders Letters of a channel or of a partition. -/
  | fence (ch : Fin 64) (l : LetterIn)
  /-- FENCE_COMPLETE (R75): A FENCE completes once every earlier Letter in its scope has finally replied. -/
  | fenceComplete (ch : Fin 64) (seq : W32)
  /-- UNLOAD_COMPLETE (R77): An UNLOAD_PLAN completes after every earlier RUN_PLAN of the slot has replied. -/
  | unloadComplete (ch : Fin 64) (seq : W32)
  /-- PLAN_REPLACE (R207): A validated plan replaces the plan in an occupied slot once earlier runs of the slot have replied. -/
  | planReplace (ch : Fin 64) (seq : W32)
  /-- CANCEL (R76): Letter that cancels a target Letter that has not yet started. -/
  | cancel (ch : Fin 64) (l : LetterIn)
  /-- DOORBELL_WRITE (R51): Host write of the Letter tail index: latched, counted, or ignored on overrun. -/
  | doorbellWrite (q : Requester) (ch : Fin 64) (v : W32) (be : BitVec 4)
  /-- LETTER_START (R107): An accepted Letter starts once its ACCEPTED version has committed. -/
  | letterStart (ch : Fin 64) (seq : W32)
  /-- REPLY_WRITE (R54): A final Reply is written to the Reply ring once its record has committed and the ring has room. -/
  | replyWrite (ch : Fin 64)
  /-- JOURNAL_WRITE (R106): The MRAM journal queue writes one Daybook version into its slot and commits it. -/
  | journalWrite (res : MramResult)
  /-- LEDGER_SLOT_WRITE (R692): The MRAM write path writes and commits one queued Ledger slot. -/
  | ledgerSlotWrite (res : MramResult)
  /-- LEDGER_PERIODIC_COMMIT (R691): Every 60 s, changed Ledger counters and histograms are queued for commit. -/
  | ledgerPeriodicCommit
  /-- LOOSE_DISPATCH (R354): A free unit takes the next Loose task by level and round-robin by PID. -/
  | looseDispatch (kind : UnitKind)
  /-- STRICT_RUN_START (R352): A Strict run starts at its anchor tick, or counts an anchor miss. -/
  | strictRunStart (ch : Fin 64) (seq : W32)
  /-- STRICT_OPERATOR_START (R353): A Strict operator starts exactly at run start plus OFFSET_PT. -/
  | strictOperatorStart (ch : Fin 64) (seq : W32) (op : Nat)
  /-- BUDGET_OVERRUN (R357): A task not complete when its budget ends is aborted and its outputs are published INVALID. -/
  | budgetOverrun (task : Nat)
  /-- WAIT_TIMEOUT (R358): A Loose task that reaches its wait limit in its pigeonhole is removed. -/
  | waitTimeout (task : Nat)
  /-- MAJOR_FRAME_START (R341): A major frame begins at each multiple of FRAME_PT. -/
  | majorFrameStart
  /-- TIMETABLE_SLOT_START (R342): A timetable WINDOW or REFRESH slot begins at its start tick. -/
  | timetableSlotStart (slot : Nat)
  /-- COMMIT (R343): Register GO that validates the timetable shadow word by word. -/
  | commitGo (q : Requester) (v : W32) (be : BitVec 4)
  /-- TIMETABLE_ACTIVATE (R344): A validated timetable takes effect at the next cycle boundary, and Strict plans that no longer fit become unfit. -/
  | timetableActivate
  /-- TT_DATA (R363): Access to the timetable shadow word at TT_INDEX, which auto-increments. -/
  | ttData (q : Requester) (w : Option W32)
  /-- OBS_DATA (R360): Access to the observable at OBS_INDEX, which auto-increments. -/
  | obsData (q : Requester) (w : Option W32)
  /-- LOAD_WINDOW_END (R362): At the end of each 25,000 pt load window, the LOAD observables are latched. -/
  | loadWindowEnd
  /-- MATMUL (R299): Truss operator: matrix product with exact accumulation and one rounding. -/
  | matmul (task : Nat)
  /-- BATCH_MATMUL (R299): Truss operator: batched matrix product. -/
  | batchMatmul (task : Nat)
  /-- CONV2D (R299): Truss operator: 2D convolution run as an implicit matrix product. -/
  | conv2d (task : Nat)
  /-- DWCONV2D (R299): Truss operator: depthwise 2D convolution. -/
  | dwconv2d (task : Nat)
  /-- RESHAPE (R319): Joiner built-in operator that reshapes a tensor. -/
  | reshape (task : Nat)
  /-- TRANSPOSE (R297): Truss operator that permutes dimensions. -/
  | transpose (task : Nat)
  /-- SLICE (R319): Joiner built-in slice operator. -/
  | slice (task : Nat)
  /-- CONCAT (R319): Joiner built-in operator that concatenates up to eight inputs. -/
  | concat (task : Nat)
  /-- PAD (R319): Joiner built-in pad operator. -/
  | pad (task : Nat)
  /-- GATHER (R319): Joiner built-in gather; an out-of-range index gives 0 and INVALID. -/
  | gather (task : Nat)
  /-- UNPACK_FRAME (R387): Joiner operator that turns a stored frame into a tensor and copies its postcard trailer. -/
  | unpackFrame (task : Nat)
  /-- ADD (R285): Truss elementwise exact add with one rounding. -/
  | add (task : Nat)
  /-- MUL (R217): Truss elementwise multiply with one rounding. -/
  | mul (task : Nat)
  /-- CONVERT (R217): Truss format conversion. -/
  | convert (task : Nat)
  /-- CLAMP (R297): Truss clamp to a low and a high bound. -/
  | clamp (task : Nat)
  /-- FINISH (R294): Truss Finish-table function evaluation. -/
  | finish (task : Nat)
  /-- SUM (R285): Truss exact long-sum reduction. -/
  | sum (task : Nat)
  /-- MAX_MIN (R292): Truss selection of the maximum or minimum by totalOrder, with its index. -/
  | maxMin (task : Nat)
  /-- MEAN (R285): Truss exact sum divided by count, rounded once. -/
  | mean (task : Nat)
  /-- NORMALIZE (R297): Truss normalisation with exact moments. -/
  | normalize (task : Nat)
  /-- SOFTMAX (R297): Truss softmax using the Finish exponent. -/
  | softmax (task : Nat)
  /-- TOPK (R452): Sorter operator that selects the first k items of each row. -/
  | topk (task : Nat)
  /-- SORT (R452): Sorter operator that orders a whole row. -/
  | sort (task : Nat)
  /-- COMPACT (R453): Sorter threshold compaction in index order. -/
  | compact (task : Nat)
  /-- SWEEP_OPERATOR (R426): Plan operator that sweeps candidates against the epoch stream. -/
  | sweepOperator (task : Nat)
  /-- WORLD_BUILD (R406): Joiner operator that builds and publishes a world epoch. -/
  | worldBuild (task : Nat)
  /-- QP_SOLVE (R491): Plane ADMM quadratic program solve. -/
  | qpSolve (task : Nat)
  /-- CHOLESKY (R497): Plane dense Cholesky solve. -/
  | cholesky (task : Nat)
  /-- CG (R498): Plane conjugate-gradient solve. -/
  | cg (task : Nat)
  /-- ALLREDUCE (R527): Courier collective: exact sum, MAX or MIN across the stations. -/
  | allreduce (task : Nat)
  /-- BROADCAST (R527): Courier collective that copies the root's tensor to every station. -/
  | broadcast (task : Nat)
  /-- MERGE_TOPK (R470): Courier and Sorter collective that merges the stations' top-k lists. -/
  | mergeTopk (task : Nat)
  /-- BARRIER (R527): Courier collective with no data. -/
  | barrier (task : Nat)
  /-- RANDOM_UNIFORM (R559): Truss counter-based uniform random fill. -/
  | randomUniform (task : Nat)
  /-- RANDOM_NORMAL (R559): Truss counter-based normal random fill. -/
  | randomNormal (task : Nat)
  /-- JOINER_CALL (R221): Plan operator that runs user-mode code on one joiner core or one locked pair. -/
  | joinerCall (task : Nat)
  /-- MACRO_OPERATION_COMPLETE (R304): A Truss macro-operation finishes and publishes its outputs after its tally and residue checks. -/
  | macroOperationComplete (task : Nat) (faults : List LaneFault) (rounds : List RoundFault)
  /-- SWEEP_COMPLETE (R436): A sweep ends, its records are compared and its outputs are published. -/
  | sweepComplete (task : Nat) (faults : List SweepFault)
  /-- SWEEP_EPOCH_WAIT_END (R428): A SWEEP waiting on EPOCH_SEL starts when that epoch is published, or ends at its deadline or wait limit. -/
  | sweepEpochWaitEnd (task : Nat)
  /-- SORTER_TASK_COMPLETE (R468): A Sorter task ends, and its mass and order checks decide its outputs. -/
  | sorterTaskComplete (task : Nat) (faults : List SortFault)
  /-- PLANE_SOLVE_COMPLETE (R499): A Plane solve terminates and writes x, y, the certificate and the status record. -/
  | planeSolveComplete (task : Nat) (ops : List PlaneOp)
  /-- ECALL (R330): A joiner task ends by ECALL, and its output dockets are built. -/
  | ecall (core : Fin 34)
  /-- JOINER_TRAP (R330): An exception ends a joiner task with INVALID outputs. -/
  | joinerTrap (core : Fin 34) (cause : JoinerCause)
  /-- TQ_PUSH (R331): Vendor instruction that queues a tile transfer descriptor. -/
  | tqPush (core : Fin 34) (rd : Fin 32) (rs1 : Fin 32) (rs2 : Fin 32)
  /-- TQ_POP (R332): Vendor instruction that waits for the oldest transfer of a queue, up to the wait limit. -/
  | tqPop (core : Fin 34) (rd : Fin 32) (rs1 : Fin 32)
  /-- TQ_LEN (R331): Vendor instruction that returns the outstanding transfer count of a queue. -/
  | tqLen (core : Fin 34) (rd : Fin 32) (rs1 : Fin 32)
  /-- DK_RD (R331): Vendor instruction that reads a docket word of a port. -/
  | dkRd (core : Fin 34) (rd : Fin 32) (rs1 : Fin 32) (w : Fin 4)
  /-- DK_INV (R364): Vendor instruction that marks an output port INVALID. -/
  | dkInv (core : Fin 34) (rs1 : Fin 32)
  /-- TILE_TRANSFER_COMPLETE (R332): A tile-queue transfer completes whole before the next transfer of its queue begins. -/
  | tileTransferComplete (core : Fin 34) (queue : Fin 4)
  /-- PAIR_MODE_CHANGE (R335): An idle joiner pair changes between split and locked mode in 64 cycles. -/
  | pairModeChange (pair : Fin 17)
  /-- BUILD_START (R412): A world build obtains the back buffer once no sweep holds it. -/
  | buildStart
  /-- EPOCH_PUBLISH (R410): After copying and indexing, the lattice writes the header and makes the back buffer newest. -/
  | epochPublish
  /-- LAT_EN_WRITE (R398): Register write that enables the World Lattice afresh, or clears it and discards builds. -/
  | latEnWrite (q : Requester) (v : W32) (be : BitVec 4)
  /-- FRAME_START (R373): A CSI-2 Frame Start stamps the frame postmark and chooses a free slot. -/
  | frameStart (port : Fin 8) (phy : PhyIn) (vc : Fin 16) (fnum : W16)
  /-- LONG_PACKET (R367): A received long packet is checked, filtered and written as an image line or a tag line. -/
  | longPacket (port : Fin 8) (phy : PhyIn) (pk : LongPacket)
  /-- UNKNOWN_PACKET (R366): An unsupported or unmatched packet is discarded and counted. -/
  | unknownPacket (port : Fin 8) (phy : PhyIn) (vc : Fin 16) (dt : BitVec 6)
  /-- FRAME_END (R378): Frame End checks structure, tag line, continuity, image CRC and frozen content, then injects the postcard. -/
  | frameEnd (port : Fin 8) (phy : PhyIn) (vc : Fin 16) (fnum : W16)
  /-- FRAME_PUBLISH (R384): A frame is published when its postcard write completes. -/
  | framePublish (port : Fin 8) (f : Fin 4) (slot : Nat)
  /-- F_ENABLE_WRITE (R370): Register write that enables a camera filter after checks, or disables it. -/
  | fEnableWrite (q : Requester) (port : Fin 8) (f : Fin 4) (v : W32) (be : BitVec 4)
  /-- FLIT_RECEIVE (R511): A received flit is checked, accepted, discarded as a duplicate or NAKed. -/
  | flitReceive (link : Fin 6) (bytes : List Byte)
  /-- LINK_REWIND (R513): On a NAK or 25 pt without ACK progress, the sender retransmits from the oldest unacknowledged flit. -/
  | linkRewind (link : Fin 6)
  /-- LINK_DOWN (R514): A link goes DOWN after 16 rewinds without progress or 25 pt without a good flit. -/
  | linkDown (link : Fin 6)
  /-- LINK_TRAINING (R517): A link attempts training at its scheduled time or every 50 ms while not UP. -/
  | linkTraining (link : Fin 6)
  /-- TRAINING_COMPLETE (R516): Training ends with the link UP or MISWIRE. -/
  | trainingComplete (link : Fin 6) (peer : BitVec 12) (trained : Bool) (standby : Bool)
  /-- CONTRIB (R526): A CONTRIB flit reaches the coordinator, which compares it with its own. -/
  | contrib (flit : FlitIn) (desc : CollDesc) (start : W64)
  /-- VOTE (R528): A VOTE flit is forwarded up the tree, or at the coordinator decides the collective. -/
  | vote (flit : FlitIn) (start : W64) (aligned : Bool)
  /-- DECIDE (R531): A DECIDE flit is flooded, and the station commits or aborts its staged outputs. -/
  | decide (flit : FlitIn) (commit : Bool) (detail : W32)
  /-- ABORT_REQ (R534): An ABORT_REQ is flooded and makes an undecided coordinator abort. -/
  | abortReq (flit : FlitIn) (station : BitVec 12)
  /-- COLLECTIVE_TIMEOUT (R532): A station with no DECIDE by start plus TIMEOUT_PT aborts the collective. -/
  | collectiveTimeout (g : Fin 16)
  /-- HEARTBEAT (R545): A pair HEARTBEAT flit is received from the peer. -/
  | heartbeat (flit : FlitIn) (hb : Heartbeat)
  /-- HEARTBEAT_SEND (R545): Every 1,000 pt a station sends a HEARTBEAT to its pair peer. -/
  | heartbeatSend
  /-- PEER_LOST (R546): Both pair links are DOWN, or no heartbeat has arrived for PEER_LOST_PT. -/
  | peerLost
  /-- PAIR_ROLE_WRITE (R715): PID 0 write of PAIR_ROLE, which promotes or sets the pair role. -/
  | pairRoleWrite (q : Requester) (v : W32) (be : BitVec 4) (forced : Bool)
  /-- PEER_MIRROR_ENTRY (R713): The standby stores a version and Reply sent by the primary in its peer mirror. -/
  | peerMirrorEntry (ch : Fin 64) (seq : W32) (entry : List Byte)
  /-- PEER_COPY_DONE (R714): The initial copy of peer mirror entries completes and PEER_READY is set. -/
  | peerCopyDone
  /-- DESYNC (R543): A DESYNC flit marks a group unsynced. -/
  | desync (flit : FlitIn)
  /-- RESYNC_GO (R544): Register GO at the coordinator that floods RESYNC for a group. -/
  | resyncGo (q : Requester) (v : W32) (be : BitVec 4)
  /-- RESYNC (R544): A RESYNC flit makes a member adopt COLL_SEQ and acknowledge, or set GROUP_MISMATCH. -/
  | resync (flit : FlitIn) (word : W32)
  /-- RESYNC_COMPLETE (R544): All acknowledgements are in, the coordinator floods the outcome and members set SYNCED. -/
  | resyncComplete (flit : FlitIn)
  /-- ALIGN_GO (R540): Register GO that starts postmark alignment in mode ALL or JOIN. -/
  | alignGo (q : Requester) (v : W32) (be : BitVec 4)
  /-- TIME_EXCHANGE (R539): A TIME flit exchange between neighbours measures offset and delay. -/
  | timeExchange (link : Fin 6) (t1 : W64) (t2 : W64) (t3 : W64) (t4 : W64) (behind : Int)
  /-- ALIGNMENT_COMPLETE (R541): A station finishes adjusting, sets ALIGNED and clears ALIGN_ACTIVE. -/
  | alignmentComplete
  /-- TIME_DRIFT_CHECK (R542): Every 25,000,000 pt the exchange is repeated and drift clears ALIGNED. -/
  | timeDriftCheck (link : Fin 6) (theta : Int)
  /-- POSTMARK_LO_READ (R161): Read of POSTMARK_LO that latches the requester's time shadows. -/
  | postmarkLoRead (q : Requester) (wide : Bool)
  /-- POSTMARK_ADJ_WRITE (R164): Write of a signed adjustment that replaces any pending one, or is refused during alignment. -/
  | postmarkAdjWrite (q : Requester) (v : W32) (be : BitVec 4)
  /-- POSTMARK_STEP (R165): A pending positive adjustment is applied whole at its tick. -/
  | postmarkStep
  /-- POSTMARK_SLEW_HOLD (R166): At the end of each run of 1,000 cycles of a slew, the counter holds for one cycle. -/
  | postmarkSlewHold
  /-- POSTMARK_COUNTER_START (R147): The postmark counter starts at tick 0 after power good and the power-epoch commit. -/
  | postmarkCounterStart
  /-- PM_CLK_LOSS (R149): A missing PM_CLK edge for 200 ns or a bad edge count in a 1 ms window declares loss. -/
  | pmClkLoss
  /-- FAST_DOMAIN_WAKE (R173): A stopped fast domain starts when work is pending for one of its units. -/
  | fastDomainWake (d : Fin 4)
  /-- FAST_DOMAIN_STOP (R174): A fast domain stops after FC_IDLE_PT idle ticks. -/
  | fastDomainStop (d : Fin 4)
  /-- STEP_REQ_WRITE (R179): Firmware write that requests a new clock step. -/
  | stepReqWrite (q : Requester) (v : W32) (be : BitVec 4)
  /-- VOLTAGE_SETTLE_END (R180): After VSETTLE_PT the regulator status is read, and the step proceeds or STEP_FAULT is set. -/
  | voltageSettleEnd (ans : RegulatorAnswer)
  /-- STEP_RELOCK_DONE (R181): The PLLs relock at the new frequency and the step comes into force. -/
  | stepRelockDone
  /-- THERMAL_EMERGENCY_EXIT (R188): After 25,000,000 pt at or below the exit temperature, the Corod returns to STEP_REQ. -/
  | thermalEmergencyExit
  /-- THERMAL_SAMPLE (R600): Every 250 pt the junction sensors are sampled, judged and added to the temperature histogram. -/
  | thermalSample (readings : List (BitVec 8)) (rails : List Nat)
  /-- CLOCK_MONITOR_WINDOW (R597): Each 250 pt window, fast clock counts are judged against PM_CLK. -/
  | clockMonitorWindow (counts : List (Option Nat))
  /-- VOLTAGE_WINDOW_FAULT (R598): A rail outside its window for 25 consecutive pt raises VOLT_WINDOW or VOLT_OVER_CORE. -/
  | voltageWindowFault (rail : Fin 9) (mv : Nat)
  /-- SCRUB_CYCLE (R227): In every 64th cycle the scrubber reads one SRAM word and corrects it. -/
  | scrubCycle (array : ScrubArray)
  /-- REFRESH (R234): With no Strict partition, the controller issues refresh and patrol reads at the MR4 rate. -/
  | refresh (mr4 : W16)
  /-- REFRESH_SLOT (R237): In a REFRESH slot, owed refreshes, pulled-in refreshes and patrol reads are issued. -/
  | refreshSlot (slot : Nat) (mr4 : W16)
  /-- REFRESH_OVERRUN (R238): A refresh is forced outside the slots when more than eight would be owed. -/
  | refreshOverrun (mr4 : W16) (delayed : List Nat)
  /-- CORR_RATE_WINDOW_END (R578): At the end of each window, corrected error counts above CORR_RATE_MAX raise ECC_CORR_RATE. -/
  | corrRateWindowEnd
  /-- BAR2_READ (R244): Host read through a BAR2 window, checked by the firewall. -/
  | bar2Read (f : Fin 16) (off : W64) (len : Nat)
  /-- BAR2_WRITE (R244): Host write through a BAR2 window, checked by the firewall. -/
  | bar2Write (f : Fin 16) (off : W64) (data : List Byte)
  /-- FAULT_REPORT (R624): A fault reaches the Safety Island, is logged, and gets its reaction by class. -/
  | faultReport (extra : List FaultIn)
  /-- PWR_KILL (R621): 12,500 pt after a reaction-B entry, PWR_KILL_N asserts. -/
  | pwrKill
  /-- SAFE_IN_N_LOW (R638): SAFE_IN_N low for 25 consecutive pt raises EXTERNAL with DETAIL 1. -/
  | safeInNLow
  /-- SAFE_HB_TOGGLE (R637): In NORMAL, SAFE_HB toggles every 12,500 pt if the island has requested it. -/
  | safeHbToggle (requested : Bool)
  /-- SAFETY_FRAME_BUILD (R643): A safety frame is built and queued on publication, on state change or on SF_REPEAT_PT expiry. -/
  | safetyFrameBuild (n : Fin 2)
  /-- CAN_FRAME_TRANSMIT (R640): A queued safety or diagnostic frame is transmitted, with retry. -/
  | canFrameTransmit (n : Fin 2) (acked : Bool)
  /-- CAN_FRAME_RECEIVE (R757): A received CAN frame is stored in the mailbox. -/
  | canFrameReceive (n : Fin 2) (frame : CanFrame)
  /-- BUS_OFF (R645): A controller goes bus-off and rejoins under ISO 11898-1. -/
  | busOff (n : Fin 2) (rejoined : Bool)
  /-- STREAM_GAP (R587): A watched stream has no valid publication for MAX_GAP_PT. -/
  | streamGap (w : Fin 16)
  /-- WDG_KICK (R593): Firmware watchdog kick, judged against window and challenge. -/
  | wdgKick (q : Requester) (v : W32) (be : BitVec 4)
  /-- WATCHDOG_EXPIRY (R593): No good kick by WDG_MAX_PT raises WATCHDOG. -/
  | watchdogExpiry
  /-- CONFIG_SIGNATURE_WALK (R595): Every 12,500 pt page signatures are recomputed and compared with the references. -/
  | configSignatureWalk
  /-- ROTATING_TEST_START (R606): The rotation controller starts the next test of a kind, or defers it. -/
  | rotatingTestStart (kind : TestKind)
  /-- SPARE_TAKEOVER (R607): A spare takes over a unit's logical identity at the unit's next boundary. -/
  | spareTakeover (kind : TestKind)
  /-- ROTATING_TEST_COMPLETE (R607): A rotating test ends: the unit becomes a spare on a pass or is mapped out on a failure. -/
  | rotatingTestComplete (kind : TestKind) (pass : Bool)
  /-- BEAM_COPY_COMPLETE (R608): A Beam bank copy completes and the spare answers at the logical address. -/
  | beamCopyComplete
  /-- TEST_SEGMENT (R609): A 2,500 pt test segment of a Sorter or Plane unit runs. -/
  | testSegment (kind : TestKind) (pass : Bool)
  /-- CHECKER_INJECTION (R610): Periodic in-service injection into the island comparator and the fault bus. -/
  | checkerInjection (bus detected : Bool)
  /-- DEFERRED_TEST_RETRY (R611): A deferred test is retried every 25,000 pt. -/
  | deferredTestRetry (kind : TestKind)
  /-- LATENT_OVERDUE (R611): A unit whose last passed test is older than 2 × ROT_PERIOD_S raises LATENT_OVERDUE. -/
  | latentOverdue (kind : TestKind) (unit : Nat)
  /-- POWER_GOOD (R673): MAIN_PG high for 5 ms after the always-on reset starts the start-up timeline. -/
  | powerGood (res : MramResult)
  /-- ALWAYS_ON_RESET_COMPLETE (R673): The always-on reset completes after VKEEP and SYS_RST_N are good. -/
  | alwaysOnResetComplete
  /-- DAYBOOK_SCAN (R110): Every Daybook cell is scanned for its newer committed slot. -/
  | daybookScan
  /-- LEDGER_SCAN (R693): Every Ledger cell is scanned at start-up. -/
  | ledgerScan
  /-- STARTUP_INJECTION (R603): The injection sequencer tests each checker group in order. -/
  | startupInjection (reports : List FaultIn) (failed : List (Nat × Nat))
  /-- BOOT_IMAGE_LOAD (R665): The valid QSPI slot with the greater SEQ is read into Beam bank 0 and checked. -/
  | bootImageLoad (slots : List (List Byte))
  /-- BOOT_LAYOUT_INSTALL (R763): The MRAM or default boot layout is installed for PID 0. -/
  | bootLayoutInstall
  /-- READY (R674): Firmware has started, the watchdog is armed, and the Corod begins reading rings. -/
  | ready
  /-- MAIN_POWER_LOSS (R683): MAIN_PG low for 25 pt or a VDD_AON window fault switches to VKEEP and flushes the journal and Ledger. -/
  | mainPowerLoss (vddAon : Bool)
  /-- SYS_RST_N_FALL (R687): A SYS_RST_N low of at least 25 pt starts the hold-up flush. -/
  | sysRstNFall
  /-- FLUSH_COMPLETE (R684): When the hold-up flush completes, the always-on domain resets itself. -/
  | flushComplete
  /-- BROWN_OUT (R685): VKEEP below the brown-out threshold resets the always-on domain at once. -/
  | brownOut (torn : Bool)
  /-- PERST_N (R655): PERST_N resets only the PCIe endpoint and clears channel ENABLE. -/
  | perstN
  /-- FLR (R656): A function-level reset clears the function's channels and stops its traffic. -/
  | flr (f : Fin 16)
  /-- HOST_LINK_LOSS (R680): Loss of the PCIe link stops requests; Replies are dropped while the work continues. -/
  | hostLinkLoss
  /-- CONFIGURATION_REQUEST (R675): A PCIe configuration request, answered with retry status before READY. -/
  | configurationRequest (f : Fin 16)
  /-- SMBUS_IDENTITY (R659): SMBus block read of the part identity. -/
  | smbusIdentity
  /-- SMBUS_STATE (R659): SMBus read of the boot stage and safety state. -/
  | smbusState
  /-- SMBUS_TJ (R659): SMBus read of the junction temperature. -/
  | smbusTj
  /-- SMBUS_POWER_EPOCH (R659): SMBus read of the current power epoch. -/
  | smbusPowerEpoch
  /-- SMBUS_LW_INDEX (R659): SMBus write selecting a last-words entry. -/
  | smbusLwIndex (v : Byte)
  /-- SMBUS_LW_DATA (R659): SMBus block read of the selected last-words entry. -/
  | smbusLwData
  /-- CH_CTRL_WRITE (R58): Write of CH_CTRL that enables a channel or stops further ring reads. -/
  | chCtrlWrite (q : Requester) (ch : Fin 64) (v : W32) (be : BitVec 4) (forced : Bool)
  /-- EVENT_WRITE (R729): W1C write that clears EVENT bits and may resend the page interrupt. -/
  | eventWrite (q : Requester) (page : BitVec 12) (v : W32) (be : BitVec 4)
  /-- EVENT_FORCE (R728): PID 0 write that sets EVENT bits as a hardware set would. -/
  | eventForce (q : Requester) (page : BitVec 12) (v : W32) (be : BitVec 4)
  /-- OWNER_PID_WRITE (R733): PID 0 write that changes an ownable page's owner and clears its interrupt controls. -/
  | ownerPidWrite (q : Requester) (page : BitVec 12) (v : W32) (be : BitVec 4)
  /-- WATCH_WRITE (R750): Write to an Age Monitor watch that restarts its gap. -/
  | watchWrite (q : Requester) (w : Fin 16) (second : Bool) (v : W32) (be : BitVec 4)
  /-- BAR2_BASE_WRITE (R243): Write of a function's BAR2 window base. -/
  | bar2BaseWrite (q : Requester) (f : Fin 16) (hi : Bool) (v : W32) (be : BitVec 4)
  /-- DB_MIRROR_BASE_WRITE (R769): Write of the Daybook mirror base, refused outside a PID 0 region or after READY. -/
  | dbMirrorBaseWrite (q : Requester) (hi : Bool) (v : W32) (be : BitVec 4)
  /-- DIR_DATA (R748): Read of a directory entry that advances DIR_INDEX. -/
  | dirData (q : Requester)
  /-- FT_DATA (R296): Read of a Finish table word that advances FT_INDEX. -/
  | ftData (q : Requester) (t : Fin 9)
  /-- FLOG_DATA (R575): Read of a fault log word that advances FLOG_INDEX. -/
  | flogData (q : Requester)
  /-- LW_DATA (R138): Read of a last-words word that advances LW_WORD. -/
  | lwData (q : Requester)
  /-- RX_DATA (R757): Read of a CAN mailbox word that advances RX_INDEX. -/
  | rxData (q : Requester) (n : Fin 2)
  /-- LAST_EVENT_PM_LO (R734): Read of a LO half that latches the requester's HI shadow. -/
  | lastEventPmLo (q : Requester) (page : BitVec 12) (off : BitVec 12) (wide : Bool)
  /-- REGISTER_WRITE (R735): Write to a register with no row of its own, under its field kind, lock and reserved-access rules. -/
  | registerWrite (q : Requester) (off : BitVec 24) (v : W64) (be : BitVec 8) (forced : Bool)
  /-- POSTMARK_TICK (R146): On each PM_CLK rising edge the postmark counter advances by one and the new value reaches every block over the time tree. -/
  | postmarkTick (upsets : List Upset)
  /-- HOST_LINK_UP (R655): The PCIe link to the host comes up after PERST_N or a link-down, and the endpoint state and channel ENABLE bits are reset as R655 gives. -/
  | hostLinkUp
  /-- SAFE_IN_N_HIGH (R632): SAFE_IN_N returns high, which meets the Leave condition of EXTERNAL with DETAIL 1 for a later LEAVE_SAFE_A. -/
  | safeInNHigh
  /-- UNDEFINED_OPCODE_LETTER (R82): A ring entry whose OPCODE is undefined is read and rejected BAD_OPCODE, or earlier at the CRC, RING_SLOT or CHANNEL check, and gets its one Reply. -/
  | undefinedOpcodeLetter (ch : Fin 64) (opcode : Byte) (l : LetterIn)
  /-- STAGING_COMPLETE (R528): A station finishes forming and staging a collective's result and sends its own VOTE up the group tree. -/
  | stagingComplete (g : Fin 16) (parts : List CollPart)
  /-- TQ_POP_WAIT_LIMIT (R332): A TQ.POP that has waited WAIT_LIMIT_PT returns 3 and increments WAIT_TIMEOUT_COUNT, with the transfer still queued. -/
  | tqPopWaitLimit (core : Fin 34)
  /-- LPDDR5X_INITIALISED (R674): LPDDR5X initialisation and training completes between 40 ms and 100 ms after power good, setting the channels' TRAINED state. -/
  | lpddr5xInitialised (margins : List (Byte × Byte))
  /-- TAP_INSTRUCTION (R668): An IEEE 1149.1 instruction is loaded at the test access port, and EXTEST, BYPASS, IDCODE or a private instruction takes effect under R667 and R668. -/
  | tapInstruction (ir : TapInstr)
  /-- SMBUS_UNDEFINED_COMMAND (R660): An SMBus transaction with an undefined command code is answered with NACK. -/
  | smbusUndefinedCommand (code : Byte)
  deriving DecidableEq, Repr

end Sys2Proof
end

