-- ==== Sys2Proof/Config.lean ====
section
/-! DEFINITION. What the spec leaves open: free values, one opaque constant each. Nothing in Lean can evaluate them, so a
statement proved of the model holds whatever they are (log entries 10 to 16). -/

namespace Sys2Proof.Config

/-- A Finish table word, by the arithmetic revision loaded (FINISH_REV) and the word index (R296): the spec fixes the
tables by REPRO_CLASS and does not print them. -/
opaque finishTableWord : Nat → Nat → W32

/-- Which word of the Finish tables holds a bound, coefficient, end value or segment count of R294, by revision, function, segment
and number of the value: the spec does not print the tables' layout. -/
opaque finishPlace : Nat → Nat → Nat → Nat → Nat

/-- The upper half of the pad value of a 64-bit element, by the pad value word (05, PAD): the parameter has 32 bits. -/
opaque padHigh : Nat → Nat

/-- What SOFTMAX gives an element of a group whose exact sum is zero, by Finish revision, output format and the element's encoding
(05, SOFTMAX): no quotient exists. -/
opaque zeroSum : Nat → Nat → Nat → Nat

/-- The byte of a joiner core's routine ROM at an offset, by the firmware arithmetic revision of REPRO_CLASS (R319). -/
opaque routineRom : Nat → Nat → Byte

/-- The refresh-rate multiple that an MR4 refresh-rate field stands for, as the exponent of 1, 2 or 4 (06, Refresh): the spec
gives no encoding. -/
opaque mr4Exp : Nat → Nat

/-- The order in which fast ties stand (R461, R463): the rank of the item at a position, by REPRO_CLASS, the plan, the partitioning
and the row. -/
opaque fastTieRank : List Nat → Nat → Nat

/-- The bytes in which a page's tables enter its CONFIG_SIGNATURE (R594, R761), by page and table content: the spec names the
tables and gives no byte layout. -/
opaque tableBytes : Nat → List Nat → List Byte

/-- The heading rate of R419 where COS of the steering angle is 0, by the speed, the steering angle's size and L1: no quotient
exists. -/
opaque steepRate : Int → Nat → Nat → Int

/-- A value the spec leaves unstated, by the number of the draw. -/
opaque freeValue : Nat → Nat

end Sys2Proof.Config
end

