-- ==== Sys2Proof/Machine/Bits.lean ====
section
/-! DEFINITION. Byte order, cyclic comparison, the CRCs of the spec, and sorted association lists (the one form in which
the model keeps sparse data). -/

namespace Sys2Proof.Machine

/-- The `n` low bytes of a number, least significant first (R11). -/
def leBytes : Nat → Nat → List Byte
  | 0, _ => []
  | n + 1, v => BitVec.ofNat 8 v :: leBytes n (v / 256)

/-- The number whose little-endian bytes these are (R11). -/
def leNat : List Byte → Nat
  | [] => 0
  | b :: bs => b.toNat + 256 * leNat bs

/-- `n` bytes of a list from position `i`, zero past its end. -/
def bytesAt (bs : List Byte) (i n : Nat) : List Byte :=
  let got := (bs.drop i).take n
  got ++ List.replicate (n - got.length) 0

/-- The `n`-byte little-endian number at byte `i` of a list. -/
def leAt (bs : List Byte) (i n : Nat) : Nat := leNat (bytesAt bs i n)

/-- Bits [hi:lo] of a number. -/
def bits (v hi lo : Nat) : Nat := v / 2 ^ lo % 2 ^ (hi + 1 - lo)

/-- One bit of a number. -/
def bit (v i : Nat) : Bool := v / 2 ^ i % 2 == 1

/-- A number with bits [hi:lo] replaced. -/
def setBits (v hi lo x : Nat) : Nat :=
  v - bits v hi lo * 2 ^ lo + x % 2 ^ (hi + 1 - lo) * 2 ^ lo

/-- A Bool as a bit. -/
def b2n (b : Bool) : Nat := if b then 1 else 0

/-- The signed value of the low `w` bits. -/
def toSigned (w v : Nat) : Int :=
  let m := v % 2 ^ w
  if m < 2 ^ (w - 1) then (m : Int) else (m : Int) - (2 ^ w : Nat)

/-- The two's complement bits of an integer in `w` bits. -/
def ofSigned (w : Nat) (i : Int) : Nat := (i % (2 ^ w : Nat)).toNat

/-- An integer clamped to a range. -/
def clampInt (lo hi i : Int) : Int := if i < lo then lo else if hi < i then hi else i

/-- Ceiling division. -/
def ceilDiv (a b : Nat) : Nat := (a + b - 1) / b

/-- Smallest multiple of `m` at or above `a`. -/
def roundUp (a m : Nat) : Nat := ceilDiv a m * m

/-- Cyclic distance a − b modulo 2^w (R31, R50). -/
def cyc (w a b : Nat) : Nat := (a + (2 ^ w - b % 2 ^ w)) % 2 ^ w

/-- The half-range rule of R157 (R42, R104): a is later than b. -/
def later (w a b : Nat) : Bool := 0 < cyc w a b && cyc w a b < 2 ^ (w - 1)

/-- Shift one bit through a reflected CRC register. -/
def crcStepR (poly c : Nat) : Nat := if c % 2 == 1 then (c / 2) ^^^ poly else c / 2

/-- One byte through the reflected CRC-32C register: polynomial 0x1EDC_6F41 bit-reversed (R80). -/
def crc32cByte (c : Nat) (b : Byte) : Nat :=
  let s := crcStepR 0x82F63B78
  s (s (s (s (s (s (s (s (c ^^^ b.toNat))))))))

/-- CRC-32C of a byte string (R80). -/
def crc32c (bs : List Byte) : Nat := bs.foldl crc32cByte 0xFFFFFFFF ^^^ 0xFFFFFFFF

/-- One bit, most significant first, through an unreflected CRC register of width `w`. -/
def crcStepL (w poly c : Nat) (b : Bool) : Nat :=
  let top := c / 2 ^ (w - 1) % 2 == 1
  let c' := c * 2 % 2 ^ w
  if top != b then c' ^^^ poly else c'

/-- One byte, most significant bit first, through an unreflected CRC register. -/
def crcByteL (w poly c : Nat) (b : Byte) : Nat :=
  let s := crcStepL w poly
  let n := b.toNat
  s (s (s (s (s (s (s (s c (bit n 7)) (bit n 6)) (bit n 5)) (bit n 4)) (bit n 3)) (bit n 2)) (bit n 1)) (bit n 0)

/-- CRC-12 of a docket: polynomial 0x80F, initial 0xFFF, unreflected, no final XOR (R39). -/
def crc12 (bs : List Byte) : Nat := bs.foldl (crcByteL 12 0x80F) 0xFFF

/-! ### Sorted association lists

Sparse data by number. Keys rise strictly and no entry holds the value its key reads as when it is not listed, so equal
maps are equal lists. -/

/-- The entry of a key, if it is listed. -/
def mapFind {α : Type} : List (Nat × α) → Nat → Option α
  | [], _ => none
  | (k, v) :: m, x => if k = x then some v else mapFind m x

/-- The value of a key, `d` when it is not listed. -/
def mapGet {α : Type} (d : α) (m : List (Nat × α)) (x : Nat) : α := (mapFind m x).getD d

/-- Remove a key. -/
def mapDel {α : Type} : List (Nat × α) → Nat → List (Nat × α)
  | [], _ => []
  | (k, v) :: m, x => if k = x then mapDel m x else (k, v) :: mapDel m x

/-- List a key with a value, in its place. -/
def mapIns {α : Type} : List (Nat × α) → Nat → α → List (Nat × α)
  | [], x, y => [(x, y)]
  | (k, v) :: m, x, y => if k = x then (x, y) :: m else if x < k then (x, y) :: (k, v) :: m else (k, v) :: mapIns m x y

/-- Give a key a value; the value it reads as unlisted removes its entry. -/
def mapPut {α : Type} [DecidableEq α] (d : α) (m : List (Nat × α)) (x : Nat) (y : α) : List (Nat × α) :=
  if y = d then mapDel m x else mapIns m x y

/-- The canonical form of a map whose unlisted keys read as `d`: keys rise strictly and no entry holds `d`. -/
abbrev mapWf {α : Type} (d : α) (m : List (Nat × α)) : Prop := (m.Pairwise fun a b => a.1 < b.1) ∧ ∀ e ∈ m, e.2 ≠ d

/-- The listed entries of consecutive values from a key on: those that are not the default. -/
def mapEntries {α : Type} [DecidableEq α] (d : α) : Nat → List α → List (Nat × α)
  | _, [] => []
  | x, y :: ys => if y = d then mapEntries d (x + 1) ys else (x, y) :: mapEntries d (x + 1) ys

/-- Write consecutive values from a key on. -/
def mapPutAll {α : Type} [DecidableEq α] (d : α) (m : List (Nat × α)) (x : Nat) (ys : List α) : List (Nat × α) :=
  let z := x + ys.length
  m.takeWhile (fun e => e.1 < x) ++ mapEntries d x ys ++ m.dropWhile fun e => e.1 < z

/-- Read `n` consecutive values from a key on, in a map that lists no key below it. -/
def mapWalk {α : Type} (d : α) : List (Nat × α) → Nat → Nat → List α
  | _, _, 0 => []
  | [], x, n + 1 => d :: mapWalk d [] (x + 1) n
  | (k, v) :: m, x, n + 1 => if k = x then v :: mapWalk d m (x + 1) n else d :: mapWalk d ((k, v) :: m) (x + 1) n

/-- Read `n` consecutive values from a key on. -/
def mapRange {α : Type} (d : α) (m : List (Nat × α)) (x n : Nat) : List α :=
  mapWalk d (m.dropWhile fun e => e.1 < x) x n

/-- Replace element `i` of a list, if it has one. -/
def listSet {α : Type} (l : List α) (i : Nat) (v : α) : List α := l.set i v

/-- First element satisfying a test, with its position. -/
def findIdxFrom {α : Type} (p : α → Bool) : Nat → List α → Option (Nat × α)
  | _, [] => none
  | i, a :: l => if p a then some (i, a) else findIdxFrom p (i + 1) l

end Sys2Proof.Machine
end

