-- ==== Sys2Proof/Machine/RegTable.lean ====
section
/-! DEFINITION. The register tables of BAR0: every field of every page, its bits, kind, reset value and reserved values
(19 R723-R760 and the register tables of chapters 04 to 13 and 19), and a name for each field. -/

namespace Sys2Proof.Machine

/-- The field kinds of R735. `align` is an alignment bit of R760, `window` the timetable shadow window TT_DATA (R363),
`owner` the OWNER_PID field (R733, R759), `safetyRw` a safety-forced field with RW access (R736). -/
inductive FKind where
  | control | safetyRw | status | event | force | counter | go | action | fixed | align | window | owner
  deriving DecidableEq, Repr

/-- Which written values a control field takes; every other value is reserved for it (R741). -/
inductive Allowed where
  | any
  | range (lo hi : Nat)
  | notRange (lo hi : Nat)
  | oneOf (vs : List Nat)
  | pow2 (lo hi : Nat)
  deriving DecidableEq, Repr

/-- Whether a value is not reserved (R741). -/
def Allowed.ok : Allowed → Nat → Bool
  | .any, _ => true
  | .range lo hi, v => lo ≤ v && v ≤ hi
  | .notRange lo hi, v => !(lo ≤ v && v ≤ hi)
  | .oneOf vs, v => vs.contains v
  | .pow2 lo hi, v => lo ≤ v && v ≤ hi && v &&& (v - 1) == 0

/-- One row of a register table: a field, or an array of `n` equal fields `stride` bytes apart. `reset` takes the
page's instance and the array index. -/
structure RegRow where
  name : String
  off : Nat
  n : Nat
  stride : Nat
  hi : Nat
  lo : Nat
  kind : FKind
  reset : Nat → Nat → Nat
  allowed : Allowed
  pid0 : Bool

/-- The block registers of `count` pages from page index `first`. -/
structure RegBlock where
  first : Nat
  count : Nat
  rows : List RegRow

/-- Reset ROLE of a unit: active below the active count of R19, else spare (R704, no unit mapped out). -/
def roleReset (active u : Nat) : Nat := if u < active then 0 else 1

/-- Reset LOGICAL of a unit (R704, no unit mapped out). -/
def logicalReset (active none u : Nat) : Nat := if u < active then u else none

/-- The common page header (R726). -/
def headerRows : List RegRow := [
  ⟨"PAGE_INDEX", 0x000, 1, 0x0, 11, 0, .fixed, fun _ _ => 0, .any, false⟩,
  ⟨"BLOCK", 0x000, 1, 0x0, 19, 12, .fixed, fun _ _ => 0, .any, false⟩,
  ⟨"INSTANCE", 0x000, 1, 0x0, 27, 20, .fixed, fun _ _ => 0, .any, false⟩,
  ⟨"FORMAT", 0x000, 1, 0x0, 31, 28, .fixed, fun _ _ => 1, .any, false⟩,
  ⟨"OWNABLE", 0x004, 1, 0x0, 0, 0, .fixed, fun _ _ => 0, .any, false⟩,
  ⟨"SEALABLE", 0x004, 1, 0x0, 1, 1, .fixed, fun _ _ => 0, .any, false⟩,
  ⟨"TABLES", 0x004, 1, 0x0, 2, 2, .fixed, fun _ _ => 0, .any, false⟩,
  ⟨"LAST_OFFSET", 0x004, 1, 0x0, 27, 16, .fixed, fun _ _ => 0, .any, false⟩,
  ⟨"EVT_IRQ_EN", 0x008, 1, 0x0, 0, 0, .control, fun _ _ => 0, .any, false⟩,
  ⟨"EVT_VEC", 0x008, 1, 0x0, 3, 1, .control, fun _ _ => 0, .any, false⟩,
  ⟨"EVT_MEI_EN", 0x008, 1, 0x0, 4, 4, .control, fun _ _ => 0, .any, false⟩,
  ⟨"PENDING", 0x00C, 1, 0x0, 0, 0, .status, fun _ _ => 0, .any, false⟩,
  ⟨"EVENT", 0x010, 1, 0x0, 31, 0, .event, fun _ _ => 0, .any, false⟩,
  ⟨"EVENT_EN", 0x014, 1, 0x0, 31, 0, .control, fun _ _ => 0, .any, false⟩,
  ⟨"EVENT_FORCE", 0x018, 1, 0x0, 31, 0, .force, fun _ _ => 0, .any, true⟩,
  ⟨"EVENT_COUNT", 0x01C, 1, 0x0, 31, 0, .counter, fun _ _ => 0, .any, false⟩,
  ⟨"ERR_CORR_COUNT", 0x020, 1, 0x0, 31, 0, .counter, fun _ _ => 0, .any, false⟩,
  ⟨"ERR_UNCORR_COUNT", 0x024, 1, 0x0, 31, 0, .counter, fun _ _ => 0, .any, false⟩,
  ⟨"RSVD_WRITE_COUNT", 0x028, 1, 0x0, 31, 0, .counter, fun _ _ => 0, .any, false⟩,
  ⟨"LOCK", 0x02C, 1, 0x0, 0, 0, .status, fun _ _ => 0, .any, false⟩,
  ⟨"OWNER_PID", 0x030, 1, 0x0, 3, 0, .owner, fun _ _ => 0, .any, true⟩,
  ⟨"CONFIG_SIGNATURE", 0x034, 1, 0x0, 31, 0, .status, fun _ _ => 0, .any, false⟩,
  ⟨"LAST_EVENT_PM_LO", 0x038, 1, 0x0, 31, 0, .status, fun _ _ => 0, .any, false⟩,
  ⟨"LAST_EVENT_PM_HI", 0x03C, 1, 0x0, 31, 0, .status, fun _ _ => 0, .any, false⟩]

/-- Block registers: 19, page directory (R748). -/
def directoryRows : List RegRow := [
  ⟨"PAGE_COUNT", 0x040, 1, 0x0, 12, 0, .status, fun _ _ => 103, .any, false⟩,
  ⟨"DIR_INDEX", 0x044, 1, 0x0, 11, 0, .counter, fun _ _ => 0, .any, false⟩,
  ⟨"DIR_DATA", 0x048, 1, 0x0, 31, 0, .status, fun _ _ => 0, .any, false⟩,
  ⟨"LAST_RSVD_OFFSET", 0x04C, 1, 0x0, 23, 0, .status, fun _ _ => 0, .any, false⟩]

/-- Block registers: 19, identity page (R2). -/
def identRows : List RegRow := [
  ⟨"PART", 0x040, 1, 0x0, 15, 0, .fixed, fun _ _ => 0x4816, .any, false⟩,
  ⟨"GRADE", 0x040, 1, 0x0, 23, 16, .fixed, fun _ _ => 0, .any, false⟩,
  ⟨"STEPPING", 0x040, 1, 0x0, 31, 24, .fixed, fun _ _ => 0xB1, .any, false⟩,
  ⟨"REPRO_CLASS", 0x044, 1, 0x0, 15, 0, .status, fun _ _ => 0, .any, false⟩,
  ⟨"DIE_ID_LO", 0x048, 1, 0x0, 31, 0, .fixed, fun _ _ => 0, .any, false⟩,
  ⟨"DIE_ID_HI", 0x04C, 1, 0x0, 31, 0, .fixed, fun _ _ => 0, .any, false⟩,
  ⟨"FW_SEQ", 0x050, 1, 0x0, 31, 0, .status, fun _ _ => 0, .any, false⟩,
  ⟨"BOOT_SLOT", 0x054, 1, 0x0, 0, 0, .status, fun _ _ => 0, .any, false⟩,
  ⟨"BOOT_STAGE", 0x054, 1, 0x0, 4, 1, .status, fun _ _ => 0, .any, false⟩,
  ⟨"READY", 0x054, 1, 0x0, 5, 5, .status, fun _ _ => 0, .any, false⟩]

/-- Block registers: 19, power page. -/
def powerRows : List RegRow := [
  ⟨"STEP_REQ", 0x040, 1, 0x0, 2, 0, .control, fun _ _ => 4, .any, false⟩,
  ⟨"STEP_CUR", 0x040, 1, 0x0, 6, 4, .status, fun _ _ => 4, .any, false⟩,
  ⟨"STEP_PENDING", 0x040, 1, 0x0, 8, 8, .status, fun _ _ => 0, .any, false⟩,
  ⟨"EMERG_ACTIVE", 0x040, 1, 0x0, 9, 9, .status, fun _ _ => 0, .any, false⟩,
  ⟨"DOMAIN_RUN", 0x044, 1, 0x0, 3, 0, .status, fun _ _ => 0, .any, false⟩,
  ⟨"VSETTLE_PT", 0x048, 1, 0x0, 14, 0, .control, fun _ _ => 1250, .range 250 25000, false⟩,
  ⟨"VCORE_CMD_MV", 0x04C, 1, 0x0, 9, 0, .status, fun _ _ => 750, .any, false⟩,
  ⟨"VCORE_READ_MV", 0x04C, 1, 0x0, 25, 16, .status, fun _ _ => 0, .any, false⟩,
  ⟨"PMB_STATUS_WORD", 0x050, 1, 0x0, 15, 0, .status, fun _ _ => 0, .any, false⟩,
  ⟨"VOFFSET_MV", 0x054, 1, 0x0, 7, 0, .fixed, fun _ _ => 0, .any, false⟩,
  ⟨"FC_IDLE_PT", 0x060, 4, 0x4, 23, 0, .control, fun _ _ => 2500, .any, false⟩,
  ⟨"WAKE_COUNT", 0x070, 4, 0x4, 31, 0, .counter, fun _ _ => 0, .any, false⟩,
  ⟨"STEP_CHANGE_COUNT", 0x080, 1, 0x0, 31, 0, .counter, fun _ _ => 0, .any, false⟩,
  ⟨"PMB_ERR_COUNT", 0x084, 1, 0x0, 31, 0, .counter, fun _ _ => 0, .any, false⟩]

/-- Block registers: 04, R172. -/
def postmarkRows : List RegRow := [
  ⟨"POSTMARK_LO", 0x040, 1, 0x0, 31, 0, .status, fun _ _ => 0, .any, false⟩,
  ⟨"POSTMARK_HI", 0x044, 1, 0x0, 31, 0, .status, fun _ _ => 0, .any, false⟩,
  ⟨"TIME_SEC", 0x048, 1, 0x0, 31, 0, .status, fun _ _ => 0, .any, false⟩,
  ⟨"TIME_TICK", 0x04C, 1, 0x0, 24, 0, .status, fun _ _ => 0, .any, false⟩,
  ⟨"EPOCH", 0x050, 1, 0x0, 15, 0, .status, fun _ _ => 0, .any, false⟩,
  ⟨"NOT_WALL", 0x050, 1, 0x0, 16, 16, .fixed, fun _ _ => 1, .any, false⟩,
  ⟨"POSTMARK_ADJ", 0x054, 1, 0x0, 31, 0, .control, fun _ _ => 0, .any, false⟩,
  ⟨"SLEWING", 0x058, 1, 0x0, 0, 0, .status, fun _ _ => 0, .any, false⟩,
  ⟨"STEP_PENDING", 0x058, 1, 0x0, 1, 1, .status, fun _ _ => 0, .any, false⟩,
  ⟨"ALIGN_ACTIVE", 0x058, 1, 0x0, 2, 2, .status, fun _ _ => 0, .any, false⟩,
  ⟨"EPOCH_UNKNOWN", 0x058, 1, 0x0, 3, 3, .status, fun _ _ => 0, .any, false⟩,
  ⟨"ADJ_COUNT", 0x05C, 1, 0x0, 31, 0, .counter, fun _ _ => 0, .any, false⟩,
  ⟨"ADJ_REFUSED_COUNT", 0x060, 1, 0x0, 31, 0, .counter, fun _ _ => 0, .any, false⟩,
  ⟨"SLEW_HOLD_COUNT", 0x064, 1, 0x0, 31, 0, .counter, fun _ _ => 0, .any, false⟩]

/-- Block registers: 19, Safety Island page. -/
def safetyRows : List RegRow := [
  ⟨"SAFE_STATE", 0x040, 1, 0x0, 1, 0, .status, fun _ _ => 0, .any, false⟩,
  ⟨"NVM_FAULT", 0x040, 1, 0x0, 2, 2, .status, fun _ _ => 0, .any, false⟩,
  ⟨"A_CAUSES", 0x044, 1, 0x0, 31, 0, .status, fun _ _ => 0, .any, false⟩,
  ⟨"NVM_FAIL_COUNT", 0x048, 1, 0x0, 31, 0, .status, fun _ _ => 0, .any, false⟩,
  ⟨"FLOG_INDEX", 0x04C, 1, 0x0, 7, 0, .counter, fun _ _ => 0, .any, false⟩,
  ⟨"FLOG_DATA", 0x050, 1, 0x0, 31, 0, .status, fun _ _ => 0, .any, false⟩,
  ⟨"FLOG_HEAD", 0x054, 1, 0x0, 5, 0, .status, fun _ _ => 0, .any, false⟩,
  ⟨"FLOG_LOST", 0x058, 1, 0x0, 31, 0, .counter, fun _ _ => 0, .any, false⟩,
  ⟨"CORR_RATE_MAX", 0x05C, 1, 0x0, 7, 0, .control, fun _ _ => 16, .range 1 255, false⟩,
  ⟨"SUSPECT_LIMIT", 0x060, 1, 0x0, 3, 0, .control, fun _ _ => 3, .range 1 15, false⟩,
  ⟨"ROT_PERIOD_S", 0x064, 1, 0x0, 15, 0, .control, fun _ _ => 900, .range 60 65535, false⟩,
  ⟨"WDG_KICK", 0x068, 1, 0x0, 15, 0, .action, fun _ _ => 0, .any, false⟩,
  ⟨"WDG_CHALLENGE", 0x06C, 1, 0x0, 15, 0, .status, fun _ _ => 0, .any, false⟩,
  ⟨"WDG_MIN_PT", 0x070, 1, 0x0, 21, 0, .control, fun _ _ => 250, .range 25 2500000, false⟩,
  ⟨"WDG_MAX_PT", 0x074, 1, 0x0, 21, 0, .control, fun _ _ => 25000, .range 25 2500000, false⟩,
  ⟨"ROT_PASS_COUNT", 0x078, 1, 0x0, 31, 0, .counter, fun _ _ => 0, .any, false⟩,
  ⟨"ROT_DEFER_COUNT", 0x07C, 1, 0x0, 31, 0, .counter, fun _ _ => 0, .any, false⟩,
  ⟨"KEY_FAIL_COUNT", 0x080, 1, 0x0, 31, 0, .status, fun _ _ => 0, .any, false⟩,
  ⟨"DIAG_SUPPRESSED", 0x084, 1, 0x0, 31, 0, .counter, fun _ _ => 0, .any, false⟩,
  ⟨"CLASS_COUNT", 0x100, 32, 0x4, 31, 0, .counter, fun _ _ => 0, .any, false⟩]

/-- Block registers: 19, Age Monitor page. -/
def ageRows : List RegRow := [
  ⟨"GAP_ACTIVE", 0x040, 1, 0x0, 15, 0, .status, fun _ _ => 0, .any, false⟩,
  ⟨"W_PID", 0x080, 16, 0x8, 3, 0, .control, fun _ _ => 0, .any, false⟩,
  ⟨"W_STREAM", 0x080, 16, 0x8, 15, 4, .control, fun _ _ => 0, .any, false⟩,
  ⟨"MAX_GAP_PT", 0x084, 16, 0x8, 24, 0, .control, fun _ _ => 0, .notRange 1 249, false⟩,
  ⟨"GAP_COUNT", 0x100, 16, 0x4, 31, 0, .counter, fun _ _ => 0, .any, false⟩]

/-- Block registers: 19, Daybook page. -/
def daybookRows : List RegRow := [
  ⟨"DAYBOOK_VOLATILE", 0x040, 1, 0x0, 0, 0, .status, fun _ _ => 0, .any, false⟩,
  ⟨"NVM_FAULT", 0x040, 1, 0x0, 1, 1, .status, fun _ _ => 0, .any, false⟩,
  ⟨"SCAN_DONE", 0x040, 1, 0x0, 2, 2, .status, fun _ _ => 0, .any, false⟩,
  ⟨"DB_MIRROR_ALIGN", 0x044, 1, 0x0, 11, 0, .align, fun _ _ => 0, .any, false⟩,
  ⟨"DB_MIRROR_BASE_LO", 0x044, 1, 0x0, 31, 12, .control, fun _ _ => 0, .any, false⟩,
  ⟨"DB_MIRROR_BASE_HI", 0x048, 1, 0x0, 31, 0, .control, fun _ _ => 0, .any, false⟩,
  ⟨"JNO_NEXT_LO", 0x04C, 1, 0x0, 31, 0, .status, fun _ _ => 0, .any, false⟩,
  ⟨"JNO_NEXT_HI", 0x050, 1, 0x0, 15, 0, .status, fun _ _ => 0, .any, false⟩,
  ⟨"JQ_DEPTH", 0x054, 1, 0x0, 8, 0, .status, fun _ _ => 0, .any, false⟩,
  ⟨"DB_DISCARD_COUNT", 0x058, 1, 0x0, 31, 0, .counter, fun _ _ => 0, .any, false⟩,
  ⟨"DUP_COUNT", 0x05C, 1, 0x0, 31, 0, .counter, fun _ _ => 0, .any, false⟩,
  ⟨"INFLIGHT_ACK_COUNT", 0x060, 1, 0x0, 31, 0, .counter, fun _ _ => 0, .any, false⟩,
  ⟨"STALE_COUNT", 0x064, 1, 0x0, 31, 0, .counter, fun _ _ => 0, .any, false⟩,
  ⟨"SUPERSEDE_COUNT", 0x068, 1, 0x0, 31, 0, .counter, fun _ _ => 0, .any, false⟩,
  ⟨"LW_WORD", 0x06C, 1, 0x0, 5, 0, .counter, fun _ _ => 0, .any, false⟩,
  ⟨"LW_DATA", 0x070, 1, 0x0, 31, 0, .status, fun _ _ => 0, .any, false⟩,
  ⟨"PAIR_ROLE", 0x080, 1, 0x0, 1, 0, .safetyRw, fun _ _ => 0, .range 0 2, false⟩,
  ⟨"AUTO_PROMOTE", 0x080, 1, 0x0, 2, 2, .control, fun _ _ => 0, .any, false⟩,
  ⟨"PEER_READY", 0x080, 1, 0x0, 3, 3, .status, fun _ _ => 0, .any, false⟩,
  ⟨"PEER_CHANNEL_MASK_LO", 0x084, 1, 0x0, 31, 0, .control, fun _ _ => 0, .any, false⟩,
  ⟨"PEER_CHANNEL_MASK_HI", 0x088, 1, 0x0, 31, 0, .control, fun _ _ => 0, .any, false⟩,
  ⟨"PEER_MIRROR_ALIGN", 0x08C, 1, 0x0, 11, 0, .align, fun _ _ => 0, .any, false⟩,
  ⟨"PEER_MIRROR_BASE_LO", 0x08C, 1, 0x0, 31, 12, .control, fun _ _ => 0, .any, false⟩,
  ⟨"PEER_MIRROR_BASE_HI", 0x090, 1, 0x0, 31, 0, .control, fun _ _ => 0, .any, false⟩]

/-- Block registers: 19, Ledger page. -/
def ledgerRows : List RegRow := [
  ⟨"LEDGER_VOLATILE", 0x040, 1, 0x0, 0, 0, .status, fun _ _ => 0, .any, false⟩,
  ⟨"SCAN_DONE", 0x040, 1, 0x0, 1, 1, .status, fun _ _ => 0, .any, false⟩,
  ⟨"LQ_DEPTH", 0x044, 1, 0x0, 8, 0, .status, fun _ _ => 0, .any, false⟩,
  ⟨"LNO_NEXT_LO", 0x048, 1, 0x0, 31, 0, .status, fun _ _ => 0, .any, false⟩,
  ⟨"LNO_NEXT_HI", 0x04C, 1, 0x0, 15, 0, .status, fun _ _ => 0, .any, false⟩,
  ⟨"LEDGER_LOST_COUNT", 0x050, 1, 0x0, 31, 0, .counter, fun _ _ => 0, .any, false⟩,
  ⟨"LEDGER_DISCARD_COUNT", 0x054, 1, 0x0, 31, 0, .counter, fun _ _ => 0, .any, false⟩,
  ⟨"LAST_COMMIT_PM_LO", 0x058, 1, 0x0, 31, 0, .status, fun _ _ => 0, .any, false⟩,
  ⟨"LAST_COMMIT_PM_HI", 0x05C, 1, 0x0, 31, 0, .status, fun _ _ => 0, .any, false⟩,
  ⟨"POWERED_MS_LO", 0x060, 1, 0x0, 31, 0, .status, fun _ _ => 0, .any, false⟩,
  ⟨"POWERED_MS_HI", 0x064, 1, 0x0, 31, 0, .status, fun _ _ => 0, .any, false⟩]

/-- Block registers: 19, channel block fields (R48); one row array of 16 blocks a page. -/
def chanRows : List RegRow := [
  ⟨"LRING_ALIGN", 0x040, 16, 0x40, 11, 0, .align, fun _ _ => 0, .any, false⟩,
  ⟨"LRING_BASE_LO", 0x040, 16, 0x40, 31, 12, .control, fun _ _ => 0, .any, false⟩,
  ⟨"LRING_BASE_HI", 0x044, 16, 0x40, 31, 0, .control, fun _ _ => 0, .any, false⟩,
  ⟨"LRING_SIZE", 0x048, 16, 0x40, 12, 0, .control, fun _ _ => 16, .pow2 16 4096, false⟩,
  ⟨"DOORBELL", 0x04C, 16, 0x40, 15, 0, .control, fun _ _ => 0, .any, false⟩,
  ⟨"LRING_HEAD", 0x050, 16, 0x40, 15, 0, .status, fun _ _ => 0, .any, false⟩,
  ⟨"RRING_ALIGN", 0x054, 16, 0x40, 11, 0, .align, fun _ _ => 0, .any, false⟩,
  ⟨"RRING_BASE_LO", 0x054, 16, 0x40, 31, 12, .control, fun _ _ => 0, .any, false⟩,
  ⟨"RRING_BASE_HI", 0x058, 16, 0x40, 31, 0, .control, fun _ _ => 0, .any, false⟩,
  ⟨"RRING_SIZE", 0x05C, 16, 0x40, 13, 0, .control, fun _ _ => 32, .pow2 32 8192, false⟩,
  ⟨"RRING_HEAD", 0x060, 16, 0x40, 15, 0, .control, fun _ _ => 0, .any, false⟩,
  ⟨"RRING_TAIL", 0x064, 16, 0x40, 15, 0, .status, fun _ _ => 0, .any, false⟩,
  ⟨"ENABLE", 0x068, 16, 0x40, 0, 0, .safetyRw, fun _ _ => 0, .any, false⟩,
  ⟨"MSIX_VEC", 0x068, 16, 0x40, 15, 8, .control, fun _ _ => 0, .range 0 7, false⟩,
  ⟨"STATE", 0x06C, 16, 0x40, 1, 0, .status, fun _ _ => 0, .any, false⟩,
  ⟨"PID", 0x06C, 16, 0x40, 7, 4, .status, fun _ _ => 0, .any, false⟩,
  ⟨"CREDIT", 0x070, 16, 0x40, 9, 0, .control, fun _ _ => 16, .range 0 512, false⟩,
  ⟨"IN_FLIGHT", 0x074, 16, 0x40, 9, 0, .status, fun _ _ => 0, .any, false⟩,
  ⟨"DOORBELL_COUNT", 0x078, 16, 0x40, 31, 0, .counter, fun _ _ => 0, .any, false⟩,
  ⟨"BUSY_COUNT", 0x07C, 16, 0x40, 31, 0, .counter, fun _ _ => 0, .any, false⟩]

/-- Block registers: 19, page 0x008, device-wide fields. -/
def devRows : List RegRow := [
  ⟨"DEV_IN_FLIGHT", 0x800, 1, 0x0, 9, 0, .status, fun _ _ => 0, .any, false⟩,
  ⟨"LOOSE_IN_FLIGHT", 0x804, 1, 0x0, 9, 0, .status, fun _ _ => 0, .any, false⟩,
  ⟨"STRICT_RESERVE", 0x808, 1, 0x0, 8, 0, .status, fun _ _ => 0, .any, false⟩,
  ⟨"BAR2_ALIGN", 0x840, 16, 0x8, 15, 0, .align, fun _ _ => 0, .any, false⟩,
  ⟨"BAR2_BASE_LO", 0x840, 16, 0x8, 31, 16, .control, fun _ _ => 0, .any, false⟩,
  ⟨"BAR2_BASE_HI", 0x844, 16, 0x8, 7, 0, .control, fun _ _ => 0, .any, false⟩]

/-- Block registers: 07, R312. -/
def trussRows : List RegRow := [
  ⟨"ROLE", 0x040, 1, 0x0, 1, 0, .status, fun i _ => roleReset 8 i, .any, true⟩,
  ⟨"LOGICAL", 0x040, 1, 0x0, 7, 4, .status, fun i _ => logicalReset 8 15 i, .any, true⟩,
  ⟨"MOP_COUNT", 0x044, 1, 0x0, 31, 0, .counter, fun _ _ => 0, .any, true⟩,
  ⟨"TALLY_MISMATCH_COUNT", 0x048, 1, 0x0, 31, 0, .counter, fun _ _ => 0, .any, true⟩,
  ⟨"RESIDUE_ERR_COUNT", 0x04C, 1, 0x0, 31, 0, .counter, fun _ _ => 0, .any, true⟩,
  ⟨"HINT_IGNORED_COUNT", 0x050, 1, 0x0, 31, 0, .counter, fun _ _ => 0, .any, true⟩,
  ⟨"NAN_TO_INT_COUNT", 0x054, 1, 0x0, 31, 0, .counter, fun _ _ => 0, .any, true⟩,
  ⟨"CACHE_MISS_COUNT", 0x058, 1, 0x0, 31, 0, .counter, fun _ _ => 0, .any, true⟩,
  ⟨"BUSY_CYCLES", 0x05C, 1, 0x0, 31, 0, .counter, fun _ _ => 0, .any, true⟩,
  ⟨"ARITH_REV", 0x060, 1, 0x0, 7, 0, .status, fun _ _ => 0x02, .any, true⟩,
  ⟨"FINISH_REV", 0x060, 1, 0x0, 15, 8, .status, fun _ _ => 0, .any, true⟩,
  ⟨"FT_INDEX", 0x064, 1, 0x0, 13, 0, .counter, fun _ _ => 0, .any, true⟩,
  ⟨"FT_DATA", 0x068, 1, 0x0, 31, 0, .status, fun _ _ => 0, .any, true⟩]

/-- Block registers: 10, R439. -/
def scribeRows : List RegRow := [
  ⟨"ROLE", 0x040, 1, 0x0, 1, 0, .status, fun i _ => roleReset 16 i, .any, true⟩,
  ⟨"LOGICAL", 0x040, 1, 0x0, 7, 4, .status, fun i _ => logicalReset 16 15 i, .any, true⟩,
  ⟨"SWEEP_COUNT", 0x044, 1, 0x0, 31, 0, .counter, fun _ _ => 0, .any, true⟩,
  ⟨"CAND_COUNT_DONE", 0x048, 1, 0x0, 31, 0, .counter, fun _ _ => 0, .any, true⟩,
  ⟨"SWEEP_MISMATCH_COUNT", 0x04C, 1, 0x0, 31, 0, .counter, fun _ _ => 0, .any, true⟩,
  ⟨"LIMITED_COUNT", 0x050, 1, 0x0, 31, 0, .counter, fun _ _ => 0, .any, true⟩,
  ⟨"BUSY_CYCLES", 0x054, 1, 0x0, 31, 0, .counter, fun _ _ => 0, .any, true⟩]

/-- Block registers: 11, R473. -/
def sorterRows : List RegRow := [
  ⟨"BUSY", 0x040, 1, 0x0, 0, 0, .status, fun _ _ => 0, .any, true⟩,
  ⟨"STRICT_HELD", 0x040, 1, 0x0, 1, 1, .status, fun _ _ => 0, .any, true⟩,
  ⟨"TASK_COUNT", 0x044, 1, 0x0, 31, 0, .counter, fun _ _ => 0, .any, true⟩,
  ⟨"KEYS_SCANNED", 0x048, 1, 0x0, 31, 0, .counter, fun _ _ => 0, .any, true⟩,
  ⟨"MERGE_ENTRIES", 0x04C, 1, 0x0, 31, 0, .counter, fun _ _ => 0, .any, true⟩,
  ⟨"MASS_CHECK_COUNT", 0x050, 1, 0x0, 31, 0, .counter, fun _ _ => 0, .any, true⟩,
  ⟨"ORDER_CHECK_COUNT", 0x054, 1, 0x0, 31, 0, .counter, fun _ _ => 0, .any, true⟩,
  ⟨"BUSY_CYCLES", 0x058, 1, 0x0, 31, 0, .counter, fun _ _ => 0, .any, true⟩,
  ⟨"PORT_WAIT_CYCLES", 0x05C, 1, 0x0, 31, 0, .counter, fun _ _ => 0, .any, true⟩]

/-- Block registers: 12, R502. -/
def planeRows : List RegRow := [
  ⟨"BUSY", 0x040, 1, 0x0, 0, 0, .status, fun _ _ => 0, .any, true⟩,
  ⟨"STRICT_HELD", 0x040, 1, 0x0, 1, 1, .status, fun _ _ => 0, .any, true⟩,
  ⟨"TASK_COUNT", 0x044, 1, 0x0, 31, 0, .counter, fun _ _ => 0, .any, true⟩,
  ⟨"ITER_COUNT", 0x048, 1, 0x0, 31, 0, .counter, fun _ _ => 0, .any, true⟩,
  ⟨"CONVERGED_COUNT", 0x04C, 1, 0x0, 31, 0, .counter, fun _ _ => 0, .any, true⟩,
  ⟨"CAPPED_COUNT", 0x050, 1, 0x0, 31, 0, .counter, fun _ _ => 0, .any, true⟩,
  ⟨"DEADLINE_COUNT", 0x054, 1, 0x0, 31, 0, .counter, fun _ _ => 0, .any, true⟩,
  ⟨"INFEASIBLE_COUNT", 0x058, 1, 0x0, 31, 0, .counter, fun _ _ => 0, .any, true⟩,
  ⟨"INPUT_FAULT_COUNT", 0x05C, 1, 0x0, 31, 0, .counter, fun _ _ => 0, .any, true⟩,
  ⟨"RESIDUE_ERR_COUNT", 0x060, 1, 0x0, 31, 0, .counter, fun _ _ => 0, .any, true⟩,
  ⟨"BUSY_CYCLES", 0x064, 1, 0x0, 31, 0, .counter, fun _ _ => 0, .any, true⟩]

/-- Block registers: 08, R337. -/
def joinerRows : List RegRow := [
  ⟨"ROLE", 0x040, 1, 0x0, 1, 0, .status, fun i _ => roleReset 16 i, .any, true⟩,
  ⟨"LOGICAL", 0x040, 1, 0x0, 7, 4, .status, fun i _ => logicalReset 16 15 i, .any, true⟩,
  ⟨"MODE", 0x040, 1, 0x0, 8, 8, .status, fun _ _ => 1, .any, true⟩,
  ⟨"TASK_COUNT", 0x044, 1, 0x0, 31, 0, .counter, fun _ _ => 0, .any, true⟩,
  ⟨"LOCK_MISMATCH_COUNT", 0x048, 1, 0x0, 31, 0, .counter, fun _ _ => 0, .any, true⟩,
  ⟨"TRAP_COUNT", 0x04C, 1, 0x0, 31, 0, .counter, fun _ _ => 0, .any, true⟩,
  ⟨"BUSY_CYCLES", 0x050, 1, 0x0, 31, 0, .counter, fun _ _ => 0, .any, true⟩]

/-- Block registers: 08, R360 to R363. -/
def schedRows : List RegRow := [
  ⟨"TT_INDEX", 0x040, 1, 0x0, 11, 0, .counter, fun _ _ => 0, .any, false⟩,
  ⟨"TT_DATA", 0x044, 1, 0x0, 31, 0, .window, fun _ _ => 0, .any, false⟩,
  ⟨"COMMIT", 0x048, 1, 0x0, 0, 0, .go, fun _ _ => 0, .any, false⟩,
  ⟨"TT_ACTIVE", 0x04C, 1, 0x0, 0, 0, .status, fun _ _ => 0, .any, false⟩,
  ⟨"FRAME_NOW", 0x04C, 1, 0x0, 4, 1, .status, fun _ _ => 0, .any, false⟩,
  ⟨"TT_ERR", 0x050, 1, 0x0, 15, 0, .status, fun _ _ => 0xFFFF, .any, false⟩,
  ⟨"CYCLE_COUNT", 0x054, 1, 0x0, 31, 0, .counter, fun _ _ => 0, .any, false⟩,
  ⟨"WAIT_LIMIT_PT", 0x080, 16, 0x4, 31, 0, .control, fun _ _ => 250000, .range 250 4294967295, false⟩,
  ⟨"LOOSE_BUDGET_PT", 0x0C0, 16, 0x4, 31, 0, .control, fun _ _ => 2500000, .range 250 4294967295, false⟩,
  ⟨"CH_PRIO", 0x100, 8, 0x4, 31, 0, .control, fun _ _ => 0x88888888, .any, false⟩,
  ⟨"OBS_INDEX", 0x140, 1, 0x0, 13, 0, .counter, fun _ _ => 0, .any, false⟩,
  ⟨"OBS_DATA", 0x144, 1, 0x0, 31, 0, .counter, fun _ _ => 0, .any, false⟩,
  ⟨"OBS_WINDOW_PM_LO", 0x148, 1, 0x0, 31, 0, .status, fun _ _ => 0, .any, false⟩,
  ⟨"OBS_WINDOW_PM_HI", 0x14C, 1, 0x0, 31, 0, .status, fun _ _ => 0, .any, false⟩]

/-- Block registers: 19, partition pages (R262). -/
def partRows : List RegRow := [
  ⟨"REGIME", 0x040, 1, 0x0, 1, 0, .status, fun _ _ => 0, .any, false⟩,
  ⟨"MAX_SCLASS", 0x040, 1, 0x0, 7, 4, .status, fun _ _ => 0, .any, false⟩,
  ⟨"BEAM_BANKS", 0x044, 1, 0x0, 31, 0, .status, fun _ _ => 0, .any, true⟩,
  ⟨"CACHE_BANKS", 0x048, 1, 0x0, 31, 0, .status, fun _ _ => 0, .any, true⟩,
  ⟨"CACHE_WAYS", 0x04C, 1, 0x0, 15, 0, .status, fun _ _ => 0, .any, true⟩,
  ⟨"DRAM_REGIONS_LO", 0x050, 1, 0x0, 31, 0, .status, fun _ _ => 0, .any, true⟩,
  ⟨"DRAM_REGIONS_HI", 0x054, 1, 0x0, 31, 0, .status, fun _ _ => 0, .any, true⟩,
  ⟨"VF_MASK", 0x058, 1, 0x0, 14, 0, .status, fun _ _ => 0, .any, true⟩,
  ⟨"MORTISE_KIB", 0x05C, 1, 0x0, 13, 0, .status, fun _ _ => 0, .any, true⟩,
  ⟨"AGE_LIMIT_PT", 0x060, 1, 0x0, 31, 0, .status, fun _ _ => 3000000, .any, false⟩,
  ⟨"TENSOR_COUNT", 0x064, 1, 0x0, 12, 0, .status, fun _ _ => 0, .any, false⟩,
  ⟨"FW_WRITE_BLOCKED", 0x080, 1, 0x0, 31, 0, .counter, fun _ _ => 0, .any, false⟩,
  ⟨"FW_READ_BLOCKED", 0x084, 1, 0x0, 31, 0, .counter, fun _ _ => 0, .any, false⟩,
  ⟨"AGED_COUNT", 0x088, 1, 0x0, 31, 0, .counter, fun _ _ => 0, .any, false⟩,
  ⟨"TAG_RETRY_COUNT", 0x08C, 1, 0x0, 31, 0, .counter, fun _ _ => 0, .any, false⟩,
  ⟨"TAG_THERMAL_COUNT", 0x090, 1, 0x0, 31, 0, .counter, fun _ _ => 0, .any, false⟩,
  ⟨"TAG_LOOSE_COUNT", 0x094, 1, 0x0, 31, 0, .counter, fun _ _ => 0, .any, false⟩]

/-- Block registers: 09, R394. -/
def intakeRows : List RegRow := [
  ⟨"ENABLE", 0x040, 1, 0x0, 0, 0, .control, fun _ _ => 0, .any, true⟩,
  ⟨"LANES", 0x040, 1, 0x0, 2, 1, .control, fun _ _ => 0, .range 0 2, true⟩,
  ⟨"HS_ACTIVE", 0x044, 1, 0x0, 0, 0, .status, fun _ _ => 0, .any, true⟩,
  ⟨"DESKEW_DONE", 0x044, 1, 0x0, 1, 1, .status, fun _ _ => 0, .any, true⟩,
  ⟨"HDR_ECC_CORR", 0x048, 1, 0x0, 31, 0, .counter, fun _ _ => 0, .any, true⟩,
  ⟨"HDR_ECC_UNCORR", 0x04C, 1, 0x0, 31, 0, .counter, fun _ _ => 0, .any, true⟩,
  ⟨"PKT_CRC_ERR", 0x050, 1, 0x0, 31, 0, .counter, fun _ _ => 0, .any, true⟩,
  ⟨"UNKNOWN_PKT_COUNT", 0x054, 1, 0x0, 31, 0, .counter, fun _ _ => 0, .any, true⟩,
  ⟨"POSTCARD_FAIL_COUNT", 0x058, 1, 0x0, 31, 0, .counter, fun _ _ => 0, .any, true⟩,
  ⟨"FIFO_HIGH_WATER", 0x05C, 1, 0x0, 31, 0, .counter, fun _ _ => 0, .any, true⟩,
  ⟨"F_ENABLE", 0x080, 4, 0x40, 0, 0, .control, fun _ _ => 0, .any, true⟩,
  ⟨"VC", 0x080, 4, 0x40, 4, 1, .control, fun _ _ => 0, .any, true⟩,
  ⟨"DT", 0x080, 4, 0x40, 10, 5, .control, fun _ _ => 0x2A, .oneOf [0x1E, 0x24, 0x2A, 0x2B, 0x2C, 0x2E], true⟩,
  ⟨"PID", 0x080, 4, 0x40, 14, 11, .control, fun _ _ => 0, .any, true⟩,
  ⟨"STREAM", 0x080, 4, 0x40, 26, 15, .control, fun _ _ => 0, .any, true⟩,
  ⟨"SCLASS", 0x080, 4, 0x40, 30, 27, .control, fun _ _ => 0, .range 0 4, true⟩,
  ⟨"SENSOR_CHECK", 0x080, 4, 0x40, 31, 31, .control, fun _ _ => 1, .any, true⟩,
  ⟨"WIDTH", 0x084, 4, 0x40, 13, 0, .control, fun _ _ => 0, .range 1 8192, true⟩,
  ⟨"HEIGHT", 0x084, 4, 0x40, 29, 16, .control, fun _ _ => 0, .range 1 8192, true⟩,
  ⟨"FROZEN_LIMIT", 0x088, 4, 0x40, 3, 0, .control, fun _ _ => 3, .any, true⟩,
  ⟨"BUF_SLOTS", 0x088, 4, 0x40, 7, 4, .control, fun _ _ => 3, .range 3 8, true⟩,
  ⟨"BUF_ALIGN", 0x090, 4, 0x40, 11, 0, .align, fun _ _ => 0, .any, true⟩,
  ⟨"BUF_BASE_LO", 0x090, 4, 0x40, 31, 12, .control, fun _ _ => 0, .any, true⟩,
  ⟨"BUF_BASE_HI", 0x094, 4, 0x40, 31, 0, .control, fun _ _ => 0, .any, true⟩,
  ⟨"FRAMES_PUBLISHED", 0x098, 4, 0x40, 31, 0, .counter, fun _ _ => 0, .any, true⟩,
  ⟨"SUPERSEDED", 0x09C, 4, 0x40, 31, 0, .counter, fun _ _ => 0, .any, true⟩,
  ⟨"DISCARD_STRUCT", 0x0A0, 4, 0x40, 31, 0, .counter, fun _ _ => 0, .any, true⟩,
  ⟨"DISCARD_SENSOR", 0x0A4, 4, 0x40, 31, 0, .counter, fun _ _ => 0, .any, true⟩,
  ⟨"REPEATED", 0x0A8, 4, 0x40, 31, 0, .counter, fun _ _ => 0, .any, true⟩,
  ⟨"GAP_FRAMES", 0x0AC, 4, 0x40, 31, 0, .counter, fun _ _ => 0, .any, true⟩,
  ⟨"FROZEN_DISCARD", 0x0B0, 4, 0x40, 31, 0, .counter, fun _ _ => 0, .any, true⟩,
  ⟨"NO_SLOT", 0x0B4, 4, 0x40, 31, 0, .counter, fun _ _ => 0, .any, true⟩,
  ⟨"PRE_READY_DISCARD", 0x0B8, 4, 0x40, 31, 0, .counter, fun _ _ => 0, .any, true⟩,
  ⟨"OVERFLOW", 0x0BC, 4, 0x40, 31, 0, .counter, fun _ _ => 0, .any, true⟩]

/-- Block registers: 13, R547, link pages. -/
def linkRows : List RegRow := [
  ⟨"LINK_EN", 0x040, 1, 0x0, 0, 0, .control, fun _ _ => 1, .any, true⟩,
  ⟨"STATE", 0x040, 1, 0x0, 2, 1, .status, fun _ _ => 0, .any, true⟩,
  ⟨"NEIGHBOUR", 0x040, 1, 0x0, 14, 3, .status, fun _ _ => 0, .any, true⟩,
  ⟨"FLITS_TX", 0x044, 1, 0x0, 31, 0, .counter, fun _ _ => 0, .any, true⟩,
  ⟨"FLITS_RX", 0x048, 1, 0x0, 31, 0, .counter, fun _ _ => 0, .any, true⟩,
  ⟨"CRC_ERR", 0x04C, 1, 0x0, 31, 0, .counter, fun _ _ => 0, .any, true⟩,
  ⟨"RETRY_COUNT", 0x050, 1, 0x0, 31, 0, .counter, fun _ _ => 0, .any, true⟩,
  ⟨"DUP_FLIT", 0x054, 1, 0x0, 31, 0, .counter, fun _ _ => 0, .any, true⟩,
  ⟨"BAD_FLIT", 0x058, 1, 0x0, 31, 0, .counter, fun _ _ => 0, .any, true⟩,
  ⟨"DOWN_COUNT", 0x05C, 1, 0x0, 31, 0, .counter, fun _ _ => 0, .any, true⟩,
  ⟨"DELAY_64", 0x060, 1, 0x0, 15, 0, .status, fun _ _ => 0, .any, true⟩]

/-- Block registers: 13, R547, collectives page. -/
def collRows : List RegRow := [
  ⟨"CHIP_ADDR", 0x040, 1, 0x0, 11, 0, .status, fun _ _ => 0, .any, true⟩,
  ⟨"TOPO", 0x044, 1, 0x0, 1, 0, .status, fun _ _ => 0, .any, true⟩,
  ⟨"DX_M1", 0x044, 1, 0x0, 7, 4, .status, fun _ _ => 0, .any, true⟩,
  ⟨"DY_M1", 0x044, 1, 0x0, 11, 8, .status, fun _ _ => 0, .any, true⟩,
  ⟨"DZ_M1", 0x044, 1, 0x0, 15, 12, .status, fun _ _ => 0, .any, true⟩,
  ⟨"GROUP_OF_PID_LO", 0x048, 1, 0x0, 31, 0, .control, fun _ _ => 0, .any, true⟩,
  ⟨"GROUP_OF_PID_HI", 0x04C, 1, 0x0, 31, 0, .control, fun _ _ => 0, .any, true⟩,
  ⟨"GROUP_BOX", 0x080, 16, 0x4, 23, 0, .control, fun _ _ => 0, .any, true⟩,
  ⟨"GROUP_PID", 0x080, 16, 0x4, 27, 24, .control, fun _ _ => 0, .any, true⟩,
  ⟨"GROUP_ENABLE", 0x080, 16, 0x4, 28, 28, .control, fun _ _ => 0, .any, true⟩,
  ⟨"TIMEOUT_PT", 0x0C0, 16, 0x4, 31, 0, .control, fun _ _ => 5000, .range 1000 2500000, true⟩,
  ⟨"SYNCED", 0x100, 1, 0x0, 15, 0, .status, fun _ _ => 0, .any, true⟩,
  ⟨"RESYNC_GROUP", 0x104, 1, 0x0, 3, 0, .control, fun _ _ => 0, .any, true⟩,
  ⟨"RESYNC_GO", 0x104, 1, 0x0, 4, 4, .go, fun _ _ => 0, .any, true⟩,
  ⟨"ALIGN_GO", 0x108, 1, 0x0, 0, 0, .go, fun _ _ => 0, .any, true⟩,
  ⟨"ALIGN_MODE", 0x108, 1, 0x0, 1, 1, .control, fun _ _ => 0, .any, true⟩,
  ⟨"ALIGNED", 0x108, 1, 0x0, 2, 2, .status, fun _ _ => 0, .any, true⟩,
  ⟨"ALIGN_OFFSET_64", 0x10C, 1, 0x0, 31, 0, .status, fun _ _ => 0, .any, true⟩,
  ⟨"COLL_COMMIT_COUNT", 0x110, 1, 0x0, 31, 0, .counter, fun _ _ => 0, .any, true⟩,
  ⟨"COLL_ABORT_COUNT", 0x114, 1, 0x0, 31, 0, .counter, fun _ _ => 0, .any, true⟩,
  ⟨"STATION_LOST_COUNT", 0x118, 1, 0x0, 31, 0, .counter, fun _ _ => 0, .any, true⟩,
  ⟨"COLL_MISMATCH_COUNT", 0x11C, 1, 0x0, 31, 0, .counter, fun _ _ => 0, .any, true⟩,
  ⟨"TIME_DRIFT_COUNT", 0x120, 1, 0x0, 31, 0, .counter, fun _ _ => 0, .any, true⟩,
  ⟨"PEER_HB_MISS", 0x124, 1, 0x0, 31, 0, .counter, fun _ _ => 0, .any, true⟩,
  ⟨"PEER_LOST_PT", 0x130, 1, 0x0, 31, 0, .control, fun _ _ => 125000, .range 2500 2500000, true⟩]

/-- Block registers: 19, LPDDR5X controller page. -/
def dramRows : List RegRow := [
  ⟨"RATE", 0x040, 1, 0x0, 1, 0, .fixed, fun _ _ => 0, .any, false⟩,
  ⟨"CAPACITY", 0x040, 1, 0x0, 5, 4, .fixed, fun _ _ => 3, .any, false⟩,
  ⟨"REFRESH_DERATE_MAX", 0x044, 1, 0x0, 2, 0, .control, fun _ _ => 4, .oneOf [1, 2, 4], false⟩,
  ⟨"REFRESH_UNIT_PT", 0x044, 1, 0x0, 13, 8, .control, fun _ _ => 10, .range 4 32, false⟩,
  ⟨"MR4_RATE", 0x048, 1, 0x0, 15, 0, .status, fun _ _ => 0, .any, false⟩,
  ⟨"REFRESH_OVERRUN_COUNT", 0x04C, 1, 0x0, 31, 0, .counter, fun _ _ => 0, .any, false⟩,
  ⟨"OWED_MAX", 0x050, 1, 0x0, 3, 0, .status, fun _ _ => 0, .any, false⟩]

/-- Block registers: 19, LPDDR5X regions page. -/
def regionRows : List RegRow := [
  ⟨"REGION_BASE", 0x100, 64, 0x8, 15, 0, .control, fun _ _ => 0, .any, true⟩,
  ⟨"REGION_SIZE", 0x104, 64, 0x8, 15, 0, .control, fun _ _ => 0, .any, true⟩,
  ⟨"REGION_OWNER", 0x104, 64, 0x8, 27, 24, .status, fun _ _ => 0, .any, true⟩,
  ⟨"OWNED", 0x104, 64, 0x8, 28, 28, .status, fun _ _ => 0, .any, true⟩]

/-- Block registers: 19, LPDDR5X per-channel counters. -/
def dramCntRows : List RegRow := [
  ⟨"CORR", 0x040, 4, 0x20, 31, 0, .counter, fun _ _ => 0, .any, false⟩,
  ⟨"UNCORR", 0x044, 4, 0x20, 31, 0, .counter, fun _ _ => 0, .any, false⟩,
  ⟨"POISON_READ_COUNT", 0x048, 4, 0x20, 31, 0, .counter, fun _ _ => 0, .any, false⟩,
  ⟨"PATROL_CORR", 0x04C, 4, 0x20, 31, 0, .counter, fun _ _ => 0, .any, false⟩,
  ⟨"REFRESH_ISSUED", 0x050, 4, 0x20, 31, 0, .counter, fun _ _ => 0, .any, false⟩,
  ⟨"PULLED_IN", 0x054, 4, 0x20, 31, 0, .counter, fun _ _ => 0, .any, false⟩]

/-- Block registers: 19, LPDDR5X PHY page. -/
def phyRows : List RegRow := [
  ⟨"TRAINED", 0x040, 4, 0x4, 0, 0, .status, fun _ _ => 0, .any, false⟩,
  ⟨"READ_MARGIN", 0x040, 4, 0x4, 15, 8, .status, fun _ _ => 0, .any, false⟩,
  ⟨"WRITE_MARGIN", 0x040, 4, 0x4, 23, 16, .status, fun _ _ => 0, .any, false⟩,
  ⟨"RETRAIN_COUNT", 0x050, 1, 0x0, 31, 0, .counter, fun _ _ => 0, .any, false⟩]

/-- Block registers: 19, Beam store page. -/
def beamRows : List RegRow := [
  ⟨"ROLE", 0x040, 34, 0x4, 1, 0, .status, fun _ i => roleReset 32 i, .any, false⟩,
  ⟨"LOGICAL", 0x040, 34, 0x4, 7, 2, .status, fun _ i => logicalReset 32 0x3F i, .any, false⟩,
  ⟨"POOL", 0x040, 34, 0x4, 8, 8, .status, fun _ _ => 0, .any, false⟩,
  ⟨"POISON_READ_COUNT", 0x0D0, 1, 0x0, 31, 0, .counter, fun _ _ => 0, .any, false⟩,
  ⟨"POOL_HIT_COUNT", 0x0D4, 1, 0x0, 31, 0, .counter, fun _ _ => 0, .any, false⟩,
  ⟨"POOL_MISS_COUNT", 0x0D8, 1, 0x0, 31, 0, .counter, fun _ _ => 0, .any, false⟩,
  ⟨"POOL_WRITEBACK_COUNT", 0x0DC, 1, 0x0, 31, 0, .counter, fun _ _ => 0, .any, false⟩,
  ⟨"SCRUB_CORR_COUNT", 0x0E0, 1, 0x0, 31, 0, .counter, fun _ _ => 0, .any, false⟩,
  ⟨"SCRUB_PASS_COUNT", 0x0E4, 1, 0x0, 31, 0, .counter, fun _ _ => 0, .any, false⟩,
  ⟨"COPY_SRC", 0x0E8, 1, 0x0, 5, 0, .status, fun _ _ => 0x3F, .any, false⟩,
  ⟨"COPY_DST", 0x0E8, 1, 0x0, 13, 8, .status, fun _ _ => 0x3F, .any, false⟩]

/-- Block registers: 19, CAN FD pages. -/
def canRows : List RegRow := [
  ⟨"CAN_EN", 0x040, 1, 0x0, 0, 0, .control, fun _ _ => 0, .any, false⟩,
  ⟨"LISTEN_ONLY", 0x040, 1, 0x0, 1, 1, .status, fun _ _ => 1, .any, false⟩,
  ⟨"SF_EN", 0x040, 1, 0x0, 2, 2, .control, fun _ _ => 0, .any, false⟩,
  ⟨"ID29", 0x040, 1, 0x0, 3, 3, .control, fun _ _ => 0, .any, false⟩,
  ⟨"ROLE", 0x040, 1, 0x0, 5, 4, .status, fun _ _ => 0, .any, false⟩,
  ⟨"BUS_OFF", 0x040, 1, 0x0, 6, 6, .status, fun _ _ => 0, .any, false⟩,
  ⟨"SF_CAN_ID", 0x044, 1, 0x0, 28, 0, .control, fun _ _ => 0, .any, false⟩,
  ⟨"DIAG_CAN_ID", 0x048, 1, 0x0, 28, 0, .control, fun _ _ => 0, .any, false⟩,
  ⟨"DATA_ID", 0x04C, 1, 0x0, 15, 0, .control, fun _ _ => 0, .any, false⟩,
  ⟨"SF_PID", 0x050, 1, 0x0, 3, 0, .control, fun _ _ => 0, .any, false⟩,
  ⟨"SF_STREAM", 0x050, 1, 0x0, 15, 4, .control, fun _ _ => 0, .any, false⟩,
  ⟨"SF_REPEAT_PT", 0x054, 1, 0x0, 16, 0, .control, fun _ _ => 25000, .range 2500 125000, false⟩,
  ⟨"NOM_TIMING", 0x058, 1, 0x0, 26, 0, .control, fun _ _ => 0x01F3EFC0, .any, false⟩,
  ⟨"DATA_TIMING", 0x05C, 1, 0x0, 25, 0, .control, fun _ _ => 0x0230CD40, .any, false⟩,
  ⟨"TEC", 0x060, 1, 0x0, 7, 0, .status, fun _ _ => 0, .any, false⟩,
  ⟨"REC", 0x060, 1, 0x0, 15, 8, .status, fun _ _ => 0, .any, false⟩,
  ⟨"SF_ALIVE", 0x060, 1, 0x0, 23, 16, .status, fun _ _ => 0, .any, false⟩,
  ⟨"DIAG_ALIVE", 0x060, 1, 0x0, 31, 24, .status, fun _ _ => 0, .any, false⟩,
  ⟨"SF_TX_COUNT", 0x064, 1, 0x0, 31, 0, .counter, fun _ _ => 0, .any, false⟩,
  ⟨"DIAG_TX_COUNT", 0x068, 1, 0x0, 31, 0, .counter, fun _ _ => 0, .any, false⟩,
  ⟨"RX_COUNT", 0x06C, 1, 0x0, 31, 0, .counter, fun _ _ => 0, .any, false⟩,
  ⟨"CAN_BUSOFF_COUNT", 0x070, 1, 0x0, 31, 0, .counter, fun _ _ => 0, .any, false⟩,
  ⟨"TX_RETRY_COUNT", 0x074, 1, 0x0, 31, 0, .counter, fun _ _ => 0, .any, false⟩,
  ⟨"RX_INDEX", 0x080, 1, 0x0, 7, 0, .counter, fun _ _ => 0, .any, false⟩,
  ⟨"RX_DATA", 0x084, 1, 0x0, 31, 0, .status, fun _ _ => 0, .any, false⟩]

/-- Block registers: 10, R438. -/
def latticeRows : List RegRow := [
  ⟨"LAT_EN", 0x040, 1, 0x0, 0, 0, .control, fun _ _ => 0, .any, true⟩,
  ⟨"LAT_PID", 0x040, 1, 0x0, 4, 1, .control, fun _ _ => 0, .any, true⟩,
  ⟨"FEED_EN", 0x040, 1, 0x0, 5, 5, .control, fun _ _ => 0, .any, true⟩,
  ⟨"FEED_PID", 0x040, 1, 0x0, 9, 6, .control, fun _ _ => 0, .any, true⟩,
  ⟨"SCLASS", 0x040, 1, 0x0, 13, 10, .control, fun _ _ => 0, .range 0 4, true⟩,
  ⟨"STREAM", 0x040, 1, 0x0, 25, 14, .control, fun _ _ => 0, .any, true⟩,
  ⟨"EPOCH_BASE", 0x044, 1, 0x0, 31, 0, .control, fun _ _ => 0, .any, true⟩,
  ⟨"NEWEST_EPOCH", 0x048, 1, 0x0, 15, 0, .status, fun _ _ => 0, .any, true⟩,
  ⟨"NEWEST_BUF", 0x048, 1, 0x0, 16, 16, .status, fun _ _ => 0, .any, true⟩,
  ⟨"BACK_HELD", 0x048, 1, 0x0, 17, 17, .status, fun _ _ => 0, .any, true⟩,
  ⟨"BUILDING", 0x048, 1, 0x0, 18, 18, .status, fun _ _ => 0, .any, true⟩,
  ⟨"PUBLISHED", 0x048, 1, 0x0, 19, 19, .status, fun _ _ => 0, .any, true⟩,
  ⟨"PUBLISH_COUNT", 0x04C, 1, 0x0, 31, 0, .counter, fun _ _ => 0, .any, true⟩,
  ⟨"BUILD_INVALID_COUNT", 0x050, 1, 0x0, 31, 0, .counter, fun _ _ => 0, .any, true⟩,
  ⟨"CROWDED_COUNT", 0x054, 1, 0x0, 31, 0, .counter, fun _ _ => 0, .any, true⟩,
  ⟨"BUILD_WAIT_COUNT", 0x058, 1, 0x0, 31, 0, .counter, fun _ _ => 0, .any, true⟩]

/-- Block registers: 19, thermal and voltage monitor page. -/
def monRows : List RegRow := [
  ⟨"TJ_NOW", 0x040, 1, 0x0, 7, 0, .status, fun _ _ => 0, .any, false⟩,
  ⟨"TJ_PEAK", 0x040, 1, 0x0, 15, 8, .status, fun _ _ => 0, .any, false⟩,
  ⟨"EMERG_ACTIVE", 0x040, 1, 0x0, 16, 16, .status, fun _ _ => 0, .any, false⟩,
  ⟨"THERM_EMERG_TJ", 0x044, 1, 0x0, 7, 0, .control, fun _ _ => 125, .range 95 130, true⟩,
  ⟨"THERM_EMERG_COUNT", 0x048, 1, 0x0, 31, 0, .counter, fun _ _ => 0, .any, false⟩,
  ⟨"THERM_SENSOR_COUNT", 0x04C, 1, 0x0, 31, 0, .counter, fun _ _ => 0, .any, false⟩,
  ⟨"SENSOR_TJ", 0x050, 12, 0x4, 7, 0, .status, fun _ _ => 0, .any, false⟩,
  ⟨"RAIL_MV", 0x080, 9, 0x4, 15, 0, .status, fun _ _ => 0, .any, false⟩,
  ⟨"VOLT_FAULT_COUNT", 0x0C0, 9, 0x4, 31, 0, .counter, fun _ _ => 0, .any, false⟩]

/-- Every block of the table *Page allocation* (R748) with its registers. -/
def regBlocks : List RegBlock := [
  ⟨0x000, 1, directoryRows⟩,
  ⟨0x001, 1, identRows⟩,
  ⟨0x002, 1, powerRows⟩,
  ⟨0x003, 1, postmarkRows⟩,
  ⟨0x004, 1, safetyRows⟩,
  ⟨0x005, 1, ageRows⟩,
  ⟨0x006, 1, daybookRows⟩,
  ⟨0x007, 1, ledgerRows⟩,
  ⟨0x008, 4, chanRows⟩,
  ⟨0x008, 1, devRows⟩,
  ⟨0x010, 9, trussRows⟩,
  ⟨0x020, 18, scribeRows⟩,
  ⟨0x038, 4, sorterRows⟩,
  ⟨0x03C, 2, planeRows⟩,
  ⟨0x040, 17, joinerRows⟩,
  ⟨0x058, 1, schedRows⟩,
  ⟨0x060, 16, partRows⟩,
  ⟨0x070, 8, intakeRows⟩,
  ⟨0x078, 6, linkRows⟩,
  ⟨0x07E, 1, collRows⟩,
  ⟨0x080, 1, dramRows⟩,
  ⟨0x081, 1, regionRows⟩,
  ⟨0x082, 1, dramCntRows⟩,
  ⟨0x083, 1, phyRows⟩,
  ⟨0x084, 1, beamRows⟩,
  ⟨0x088, 2, canRows⟩,
  ⟨0x090, 1, latticeRows⟩,
  ⟨0x0A0, 1, monRows⟩]

/-- A named field: its page, offset and bits. -/
structure Fld where
  page : Nat
  off : Nat
  hi : Nat
  lo : Nat
  deriving DecidableEq, Repr

/-- PAGE_INDEX, bits [11:0] at 0x000 of page p. -/
def Fd.hdr_PAGE_INDEX (page : Nat) : Fld := ⟨page, 0x000, 11, 0⟩
/-- BLOCK, bits [19:12] at 0x000 of page p. -/
def Fd.hdr_BLOCK (page : Nat) : Fld := ⟨page, 0x000, 19, 12⟩
/-- INSTANCE, bits [27:20] at 0x000 of page p. -/
def Fd.hdr_INSTANCE (page : Nat) : Fld := ⟨page, 0x000, 27, 20⟩
/-- FORMAT, bits [31:28] at 0x000 of page p. -/
def Fd.hdr_FORMAT (page : Nat) : Fld := ⟨page, 0x000, 31, 28⟩
/-- OWNABLE, bits [0:0] at 0x004 of page p. -/
def Fd.hdr_OWNABLE (page : Nat) : Fld := ⟨page, 0x004, 0, 0⟩
/-- SEALABLE, bits [1:1] at 0x004 of page p. -/
def Fd.hdr_SEALABLE (page : Nat) : Fld := ⟨page, 0x004, 1, 1⟩
/-- TABLES, bits [2:2] at 0x004 of page p. -/
def Fd.hdr_TABLES (page : Nat) : Fld := ⟨page, 0x004, 2, 2⟩
/-- LAST_OFFSET, bits [27:16] at 0x004 of page p. -/
def Fd.hdr_LAST_OFFSET (page : Nat) : Fld := ⟨page, 0x004, 27, 16⟩
/-- EVT_IRQ_EN, bits [0:0] at 0x008 of page p. -/
def Fd.hdr_EVT_IRQ_EN (page : Nat) : Fld := ⟨page, 0x008, 0, 0⟩
/-- EVT_VEC, bits [3:1] at 0x008 of page p. -/
def Fd.hdr_EVT_VEC (page : Nat) : Fld := ⟨page, 0x008, 3, 1⟩
/-- EVT_MEI_EN, bits [4:4] at 0x008 of page p. -/
def Fd.hdr_EVT_MEI_EN (page : Nat) : Fld := ⟨page, 0x008, 4, 4⟩
/-- PENDING, bits [0:0] at 0x00C of page p. -/
def Fd.hdr_PENDING (page : Nat) : Fld := ⟨page, 0x00C, 0, 0⟩
/-- EVENT, bits [31:0] at 0x010 of page p. -/
def Fd.hdr_EVENT (page : Nat) : Fld := ⟨page, 0x010, 31, 0⟩
/-- EVENT_EN, bits [31:0] at 0x014 of page p. -/
def Fd.hdr_EVENT_EN (page : Nat) : Fld := ⟨page, 0x014, 31, 0⟩
/-- EVENT_FORCE, bits [31:0] at 0x018 of page p. -/
def Fd.hdr_EVENT_FORCE (page : Nat) : Fld := ⟨page, 0x018, 31, 0⟩
/-- EVENT_COUNT, bits [31:0] at 0x01C of page p. -/
def Fd.hdr_EVENT_COUNT (page : Nat) : Fld := ⟨page, 0x01C, 31, 0⟩
/-- ERR_CORR_COUNT, bits [31:0] at 0x020 of page p. -/
def Fd.hdr_ERR_CORR_COUNT (page : Nat) : Fld := ⟨page, 0x020, 31, 0⟩
/-- ERR_UNCORR_COUNT, bits [31:0] at 0x024 of page p. -/
def Fd.hdr_ERR_UNCORR_COUNT (page : Nat) : Fld := ⟨page, 0x024, 31, 0⟩
/-- RSVD_WRITE_COUNT, bits [31:0] at 0x028 of page p. -/
def Fd.hdr_RSVD_WRITE_COUNT (page : Nat) : Fld := ⟨page, 0x028, 31, 0⟩
/-- LOCK, bits [0:0] at 0x02C of page p. -/
def Fd.hdr_LOCK (page : Nat) : Fld := ⟨page, 0x02C, 0, 0⟩
/-- OWNER_PID, bits [3:0] at 0x030 of page p. -/
def Fd.hdr_OWNER_PID (page : Nat) : Fld := ⟨page, 0x030, 3, 0⟩
/-- CONFIG_SIGNATURE, bits [31:0] at 0x034 of page p. -/
def Fd.hdr_CONFIG_SIGNATURE (page : Nat) : Fld := ⟨page, 0x034, 31, 0⟩
/-- LAST_EVENT_PM_LO, bits [31:0] at 0x038 of page p. -/
def Fd.hdr_LAST_EVENT_PM_LO (page : Nat) : Fld := ⟨page, 0x038, 31, 0⟩
/-- LAST_EVENT_PM_HI, bits [31:0] at 0x03C of page p. -/
def Fd.hdr_LAST_EVENT_PM_HI (page : Nat) : Fld := ⟨page, 0x03C, 31, 0⟩
/-- PAGE_COUNT, bits [12:0] at 0x040 of page 0x000. -/
def Fd.directory_PAGE_COUNT : Fld := ⟨0x000, 0x040, 12, 0⟩
/-- DIR_INDEX, bits [11:0] at 0x044 of page 0x000. -/
def Fd.directory_DIR_INDEX : Fld := ⟨0x000, 0x044, 11, 0⟩
/-- DIR_DATA, bits [31:0] at 0x048 of page 0x000. -/
def Fd.directory_DIR_DATA : Fld := ⟨0x000, 0x048, 31, 0⟩
/-- LAST_RSVD_OFFSET, bits [23:0] at 0x04C of page 0x000. -/
def Fd.directory_LAST_RSVD_OFFSET : Fld := ⟨0x000, 0x04C, 23, 0⟩
/-- PART, bits [15:0] at 0x040 of page 0x001. -/
def Fd.ident_PART : Fld := ⟨0x001, 0x040, 15, 0⟩
/-- GRADE, bits [23:16] at 0x040 of page 0x001. -/
def Fd.ident_GRADE : Fld := ⟨0x001, 0x040, 23, 16⟩
/-- STEPPING, bits [31:24] at 0x040 of page 0x001. -/
def Fd.ident_STEPPING : Fld := ⟨0x001, 0x040, 31, 24⟩
/-- REPRO_CLASS, bits [15:0] at 0x044 of page 0x001. -/
def Fd.ident_REPRO_CLASS : Fld := ⟨0x001, 0x044, 15, 0⟩
/-- DIE_ID_LO, bits [31:0] at 0x048 of page 0x001. -/
def Fd.ident_DIE_ID_LO : Fld := ⟨0x001, 0x048, 31, 0⟩
/-- DIE_ID_HI, bits [31:0] at 0x04C of page 0x001. -/
def Fd.ident_DIE_ID_HI : Fld := ⟨0x001, 0x04C, 31, 0⟩
/-- FW_SEQ, bits [31:0] at 0x050 of page 0x001. -/
def Fd.ident_FW_SEQ : Fld := ⟨0x001, 0x050, 31, 0⟩
/-- BOOT_SLOT, bits [0:0] at 0x054 of page 0x001. -/
def Fd.ident_BOOT_SLOT : Fld := ⟨0x001, 0x054, 0, 0⟩
/-- BOOT_STAGE, bits [4:1] at 0x054 of page 0x001. -/
def Fd.ident_BOOT_STAGE : Fld := ⟨0x001, 0x054, 4, 1⟩
/-- READY, bits [5:5] at 0x054 of page 0x001. -/
def Fd.ident_READY : Fld := ⟨0x001, 0x054, 5, 5⟩
/-- STEP_REQ, bits [2:0] at 0x040 of page 0x002. -/
def Fd.power_STEP_REQ : Fld := ⟨0x002, 0x040, 2, 0⟩
/-- STEP_CUR, bits [6:4] at 0x040 of page 0x002. -/
def Fd.power_STEP_CUR : Fld := ⟨0x002, 0x040, 6, 4⟩
/-- STEP_PENDING, bits [8:8] at 0x040 of page 0x002. -/
def Fd.power_STEP_PENDING : Fld := ⟨0x002, 0x040, 8, 8⟩
/-- EMERG_ACTIVE, bits [9:9] at 0x040 of page 0x002. -/
def Fd.power_EMERG_ACTIVE : Fld := ⟨0x002, 0x040, 9, 9⟩
/-- DOMAIN_RUN, bits [3:0] at 0x044 of page 0x002. -/
def Fd.power_DOMAIN_RUN : Fld := ⟨0x002, 0x044, 3, 0⟩
/-- VSETTLE_PT, bits [14:0] at 0x048 of page 0x002. -/
def Fd.power_VSETTLE_PT : Fld := ⟨0x002, 0x048, 14, 0⟩
/-- VCORE_CMD_MV, bits [9:0] at 0x04C of page 0x002. -/
def Fd.power_VCORE_CMD_MV : Fld := ⟨0x002, 0x04C, 9, 0⟩
/-- VCORE_READ_MV, bits [25:16] at 0x04C of page 0x002. -/
def Fd.power_VCORE_READ_MV : Fld := ⟨0x002, 0x04C, 25, 16⟩
/-- PMB_STATUS_WORD, bits [15:0] at 0x050 of page 0x002. -/
def Fd.power_PMB_STATUS_WORD : Fld := ⟨0x002, 0x050, 15, 0⟩
/-- VOFFSET_MV, bits [7:0] at 0x054 of page 0x002. -/
def Fd.power_VOFFSET_MV : Fld := ⟨0x002, 0x054, 7, 0⟩
/-- FC_IDLE_PT, bits [23:0] at 0x060 of page 0x002. -/
def Fd.power_FC_IDLE_PT (i : Nat) : Fld := ⟨0x002, 0x060 + 0x4 * i, 23, 0⟩
/-- WAKE_COUNT, bits [31:0] at 0x070 of page 0x002. -/
def Fd.power_WAKE_COUNT (i : Nat) : Fld := ⟨0x002, 0x070 + 0x4 * i, 31, 0⟩
/-- STEP_CHANGE_COUNT, bits [31:0] at 0x080 of page 0x002. -/
def Fd.power_STEP_CHANGE_COUNT : Fld := ⟨0x002, 0x080, 31, 0⟩
/-- PMB_ERR_COUNT, bits [31:0] at 0x084 of page 0x002. -/
def Fd.power_PMB_ERR_COUNT : Fld := ⟨0x002, 0x084, 31, 0⟩
/-- POSTMARK_LO, bits [31:0] at 0x040 of page 0x003. -/
def Fd.postmark_POSTMARK_LO : Fld := ⟨0x003, 0x040, 31, 0⟩
/-- POSTMARK_HI, bits [31:0] at 0x044 of page 0x003. -/
def Fd.postmark_POSTMARK_HI : Fld := ⟨0x003, 0x044, 31, 0⟩
/-- TIME_SEC, bits [31:0] at 0x048 of page 0x003. -/
def Fd.postmark_TIME_SEC : Fld := ⟨0x003, 0x048, 31, 0⟩
/-- TIME_TICK, bits [24:0] at 0x04C of page 0x003. -/
def Fd.postmark_TIME_TICK : Fld := ⟨0x003, 0x04C, 24, 0⟩
/-- EPOCH, bits [15:0] at 0x050 of page 0x003. -/
def Fd.postmark_EPOCH : Fld := ⟨0x003, 0x050, 15, 0⟩
/-- NOT_WALL, bits [16:16] at 0x050 of page 0x003. -/
def Fd.postmark_NOT_WALL : Fld := ⟨0x003, 0x050, 16, 16⟩
/-- POSTMARK_ADJ, bits [31:0] at 0x054 of page 0x003. -/
def Fd.postmark_POSTMARK_ADJ : Fld := ⟨0x003, 0x054, 31, 0⟩
/-- SLEWING, bits [0:0] at 0x058 of page 0x003. -/
def Fd.postmark_SLEWING : Fld := ⟨0x003, 0x058, 0, 0⟩
/-- STEP_PENDING, bits [1:1] at 0x058 of page 0x003. -/
def Fd.postmark_STEP_PENDING : Fld := ⟨0x003, 0x058, 1, 1⟩
/-- ALIGN_ACTIVE, bits [2:2] at 0x058 of page 0x003. -/
def Fd.postmark_ALIGN_ACTIVE : Fld := ⟨0x003, 0x058, 2, 2⟩
/-- EPOCH_UNKNOWN, bits [3:3] at 0x058 of page 0x003. -/
def Fd.postmark_EPOCH_UNKNOWN : Fld := ⟨0x003, 0x058, 3, 3⟩
/-- ADJ_COUNT, bits [31:0] at 0x05C of page 0x003. -/
def Fd.postmark_ADJ_COUNT : Fld := ⟨0x003, 0x05C, 31, 0⟩
/-- ADJ_REFUSED_COUNT, bits [31:0] at 0x060 of page 0x003. -/
def Fd.postmark_ADJ_REFUSED_COUNT : Fld := ⟨0x003, 0x060, 31, 0⟩
/-- SLEW_HOLD_COUNT, bits [31:0] at 0x064 of page 0x003. -/
def Fd.postmark_SLEW_HOLD_COUNT : Fld := ⟨0x003, 0x064, 31, 0⟩
/-- SAFE_STATE, bits [1:0] at 0x040 of page 0x004. -/
def Fd.safety_SAFE_STATE : Fld := ⟨0x004, 0x040, 1, 0⟩
/-- NVM_FAULT, bits [2:2] at 0x040 of page 0x004. -/
def Fd.safety_NVM_FAULT : Fld := ⟨0x004, 0x040, 2, 2⟩
/-- A_CAUSES, bits [31:0] at 0x044 of page 0x004. -/
def Fd.safety_A_CAUSES : Fld := ⟨0x004, 0x044, 31, 0⟩
/-- NVM_FAIL_COUNT, bits [31:0] at 0x048 of page 0x004. -/
def Fd.safety_NVM_FAIL_COUNT : Fld := ⟨0x004, 0x048, 31, 0⟩
/-- FLOG_INDEX, bits [7:0] at 0x04C of page 0x004. -/
def Fd.safety_FLOG_INDEX : Fld := ⟨0x004, 0x04C, 7, 0⟩
/-- FLOG_DATA, bits [31:0] at 0x050 of page 0x004. -/
def Fd.safety_FLOG_DATA : Fld := ⟨0x004, 0x050, 31, 0⟩
/-- FLOG_HEAD, bits [5:0] at 0x054 of page 0x004. -/
def Fd.safety_FLOG_HEAD : Fld := ⟨0x004, 0x054, 5, 0⟩
/-- FLOG_LOST, bits [31:0] at 0x058 of page 0x004. -/
def Fd.safety_FLOG_LOST : Fld := ⟨0x004, 0x058, 31, 0⟩
/-- CORR_RATE_MAX, bits [7:0] at 0x05C of page 0x004. -/
def Fd.safety_CORR_RATE_MAX : Fld := ⟨0x004, 0x05C, 7, 0⟩
/-- SUSPECT_LIMIT, bits [3:0] at 0x060 of page 0x004. -/
def Fd.safety_SUSPECT_LIMIT : Fld := ⟨0x004, 0x060, 3, 0⟩
/-- ROT_PERIOD_S, bits [15:0] at 0x064 of page 0x004. -/
def Fd.safety_ROT_PERIOD_S : Fld := ⟨0x004, 0x064, 15, 0⟩
/-- WDG_KICK, bits [15:0] at 0x068 of page 0x004. -/
def Fd.safety_WDG_KICK : Fld := ⟨0x004, 0x068, 15, 0⟩
/-- WDG_CHALLENGE, bits [15:0] at 0x06C of page 0x004. -/
def Fd.safety_WDG_CHALLENGE : Fld := ⟨0x004, 0x06C, 15, 0⟩
/-- WDG_MIN_PT, bits [21:0] at 0x070 of page 0x004. -/
def Fd.safety_WDG_MIN_PT : Fld := ⟨0x004, 0x070, 21, 0⟩
/-- WDG_MAX_PT, bits [21:0] at 0x074 of page 0x004. -/
def Fd.safety_WDG_MAX_PT : Fld := ⟨0x004, 0x074, 21, 0⟩
/-- ROT_PASS_COUNT, bits [31:0] at 0x078 of page 0x004. -/
def Fd.safety_ROT_PASS_COUNT : Fld := ⟨0x004, 0x078, 31, 0⟩
/-- ROT_DEFER_COUNT, bits [31:0] at 0x07C of page 0x004. -/
def Fd.safety_ROT_DEFER_COUNT : Fld := ⟨0x004, 0x07C, 31, 0⟩
/-- KEY_FAIL_COUNT, bits [31:0] at 0x080 of page 0x004. -/
def Fd.safety_KEY_FAIL_COUNT : Fld := ⟨0x004, 0x080, 31, 0⟩
/-- DIAG_SUPPRESSED, bits [31:0] at 0x084 of page 0x004. -/
def Fd.safety_DIAG_SUPPRESSED : Fld := ⟨0x004, 0x084, 31, 0⟩
/-- CLASS_COUNT, bits [31:0] at 0x100 of page 0x004. -/
def Fd.safety_CLASS_COUNT (i : Nat) : Fld := ⟨0x004, 0x100 + 0x4 * i, 31, 0⟩
/-- GAP_ACTIVE, bits [15:0] at 0x040 of page 0x005. -/
def Fd.age_GAP_ACTIVE : Fld := ⟨0x005, 0x040, 15, 0⟩
/-- W_PID, bits [3:0] at 0x080 of page 0x005. -/
def Fd.age_W_PID (i : Nat) : Fld := ⟨0x005, 0x080 + 0x8 * i, 3, 0⟩
/-- W_STREAM, bits [15:4] at 0x080 of page 0x005. -/
def Fd.age_W_STREAM (i : Nat) : Fld := ⟨0x005, 0x080 + 0x8 * i, 15, 4⟩
/-- MAX_GAP_PT, bits [24:0] at 0x084 of page 0x005. -/
def Fd.age_MAX_GAP_PT (i : Nat) : Fld := ⟨0x005, 0x084 + 0x8 * i, 24, 0⟩
/-- GAP_COUNT, bits [31:0] at 0x100 of page 0x005. -/
def Fd.age_GAP_COUNT (i : Nat) : Fld := ⟨0x005, 0x100 + 0x4 * i, 31, 0⟩
/-- DAYBOOK_VOLATILE, bits [0:0] at 0x040 of page 0x006. -/
def Fd.daybook_DAYBOOK_VOLATILE : Fld := ⟨0x006, 0x040, 0, 0⟩
/-- NVM_FAULT, bits [1:1] at 0x040 of page 0x006. -/
def Fd.daybook_NVM_FAULT : Fld := ⟨0x006, 0x040, 1, 1⟩
/-- SCAN_DONE, bits [2:2] at 0x040 of page 0x006. -/
def Fd.daybook_SCAN_DONE : Fld := ⟨0x006, 0x040, 2, 2⟩
/-- DB_MIRROR_BASE_LO, bits [31:12] at 0x044 of page 0x006. -/
def Fd.daybook_DB_MIRROR_BASE_LO : Fld := ⟨0x006, 0x044, 31, 12⟩
/-- DB_MIRROR_BASE_HI, bits [31:0] at 0x048 of page 0x006. -/
def Fd.daybook_DB_MIRROR_BASE_HI : Fld := ⟨0x006, 0x048, 31, 0⟩
/-- JNO_NEXT_LO, bits [31:0] at 0x04C of page 0x006. -/
def Fd.daybook_JNO_NEXT_LO : Fld := ⟨0x006, 0x04C, 31, 0⟩
/-- JNO_NEXT_HI, bits [15:0] at 0x050 of page 0x006. -/
def Fd.daybook_JNO_NEXT_HI : Fld := ⟨0x006, 0x050, 15, 0⟩
/-- JQ_DEPTH, bits [8:0] at 0x054 of page 0x006. -/
def Fd.daybook_JQ_DEPTH : Fld := ⟨0x006, 0x054, 8, 0⟩
/-- DB_DISCARD_COUNT, bits [31:0] at 0x058 of page 0x006. -/
def Fd.daybook_DB_DISCARD_COUNT : Fld := ⟨0x006, 0x058, 31, 0⟩
/-- DUP_COUNT, bits [31:0] at 0x05C of page 0x006. -/
def Fd.daybook_DUP_COUNT : Fld := ⟨0x006, 0x05C, 31, 0⟩
/-- INFLIGHT_ACK_COUNT, bits [31:0] at 0x060 of page 0x006. -/
def Fd.daybook_INFLIGHT_ACK_COUNT : Fld := ⟨0x006, 0x060, 31, 0⟩
/-- STALE_COUNT, bits [31:0] at 0x064 of page 0x006. -/
def Fd.daybook_STALE_COUNT : Fld := ⟨0x006, 0x064, 31, 0⟩
/-- SUPERSEDE_COUNT, bits [31:0] at 0x068 of page 0x006. -/
def Fd.daybook_SUPERSEDE_COUNT : Fld := ⟨0x006, 0x068, 31, 0⟩
/-- LW_WORD, bits [5:0] at 0x06C of page 0x006. -/
def Fd.daybook_LW_WORD : Fld := ⟨0x006, 0x06C, 5, 0⟩
/-- LW_DATA, bits [31:0] at 0x070 of page 0x006. -/
def Fd.daybook_LW_DATA : Fld := ⟨0x006, 0x070, 31, 0⟩
/-- PAIR_ROLE, bits [1:0] at 0x080 of page 0x006. -/
def Fd.daybook_PAIR_ROLE : Fld := ⟨0x006, 0x080, 1, 0⟩
/-- AUTO_PROMOTE, bits [2:2] at 0x080 of page 0x006. -/
def Fd.daybook_AUTO_PROMOTE : Fld := ⟨0x006, 0x080, 2, 2⟩
/-- PEER_READY, bits [3:3] at 0x080 of page 0x006. -/
def Fd.daybook_PEER_READY : Fld := ⟨0x006, 0x080, 3, 3⟩
/-- PEER_CHANNEL_MASK_LO, bits [31:0] at 0x084 of page 0x006. -/
def Fd.daybook_PEER_CHANNEL_MASK_LO : Fld := ⟨0x006, 0x084, 31, 0⟩
/-- PEER_CHANNEL_MASK_HI, bits [31:0] at 0x088 of page 0x006. -/
def Fd.daybook_PEER_CHANNEL_MASK_HI : Fld := ⟨0x006, 0x088, 31, 0⟩
/-- PEER_MIRROR_BASE_LO, bits [31:12] at 0x08C of page 0x006. -/
def Fd.daybook_PEER_MIRROR_BASE_LO : Fld := ⟨0x006, 0x08C, 31, 12⟩
/-- PEER_MIRROR_BASE_HI, bits [31:0] at 0x090 of page 0x006. -/
def Fd.daybook_PEER_MIRROR_BASE_HI : Fld := ⟨0x006, 0x090, 31, 0⟩
/-- LEDGER_VOLATILE, bits [0:0] at 0x040 of page 0x007. -/
def Fd.ledger_LEDGER_VOLATILE : Fld := ⟨0x007, 0x040, 0, 0⟩
/-- SCAN_DONE, bits [1:1] at 0x040 of page 0x007. -/
def Fd.ledger_SCAN_DONE : Fld := ⟨0x007, 0x040, 1, 1⟩
/-- LQ_DEPTH, bits [8:0] at 0x044 of page 0x007. -/
def Fd.ledger_LQ_DEPTH : Fld := ⟨0x007, 0x044, 8, 0⟩
/-- LNO_NEXT_LO, bits [31:0] at 0x048 of page 0x007. -/
def Fd.ledger_LNO_NEXT_LO : Fld := ⟨0x007, 0x048, 31, 0⟩
/-- LNO_NEXT_HI, bits [15:0] at 0x04C of page 0x007. -/
def Fd.ledger_LNO_NEXT_HI : Fld := ⟨0x007, 0x04C, 15, 0⟩
/-- LEDGER_LOST_COUNT, bits [31:0] at 0x050 of page 0x007. -/
def Fd.ledger_LEDGER_LOST_COUNT : Fld := ⟨0x007, 0x050, 31, 0⟩
/-- LEDGER_DISCARD_COUNT, bits [31:0] at 0x054 of page 0x007. -/
def Fd.ledger_LEDGER_DISCARD_COUNT : Fld := ⟨0x007, 0x054, 31, 0⟩
/-- LAST_COMMIT_PM_LO, bits [31:0] at 0x058 of page 0x007. -/
def Fd.ledger_LAST_COMMIT_PM_LO : Fld := ⟨0x007, 0x058, 31, 0⟩
/-- LAST_COMMIT_PM_HI, bits [31:0] at 0x05C of page 0x007. -/
def Fd.ledger_LAST_COMMIT_PM_HI : Fld := ⟨0x007, 0x05C, 31, 0⟩
/-- POWERED_MS_LO, bits [31:0] at 0x060 of page 0x007. -/
def Fd.ledger_POWERED_MS_LO : Fld := ⟨0x007, 0x060, 31, 0⟩
/-- POWERED_MS_HI, bits [31:0] at 0x064 of page 0x007. -/
def Fd.ledger_POWERED_MS_HI : Fld := ⟨0x007, 0x064, 31, 0⟩
/-- LRING_BASE_LO, bits [31:12] at 0x040 of page 0x008 + u. -/
def Fd.chan_LRING_BASE_LO (ch : Nat) : Fld := ⟨0x008 + ch / 16, 0x040 + 0x40 * (ch % 16), 31, 12⟩
/-- LRING_BASE_HI, bits [31:0] at 0x044 of page 0x008 + u. -/
def Fd.chan_LRING_BASE_HI (ch : Nat) : Fld := ⟨0x008 + ch / 16, 0x044 + 0x40 * (ch % 16), 31, 0⟩
/-- LRING_SIZE, bits [12:0] at 0x048 of page 0x008 + u. -/
def Fd.chan_LRING_SIZE (ch : Nat) : Fld := ⟨0x008 + ch / 16, 0x048 + 0x40 * (ch % 16), 12, 0⟩
/-- DOORBELL, bits [15:0] at 0x04C of page 0x008 + u. -/
def Fd.chan_DOORBELL (ch : Nat) : Fld := ⟨0x008 + ch / 16, 0x04C + 0x40 * (ch % 16), 15, 0⟩
/-- LRING_HEAD, bits [15:0] at 0x050 of page 0x008 + u. -/
def Fd.chan_LRING_HEAD (ch : Nat) : Fld := ⟨0x008 + ch / 16, 0x050 + 0x40 * (ch % 16), 15, 0⟩
/-- RRING_BASE_LO, bits [31:12] at 0x054 of page 0x008 + u. -/
def Fd.chan_RRING_BASE_LO (ch : Nat) : Fld := ⟨0x008 + ch / 16, 0x054 + 0x40 * (ch % 16), 31, 12⟩
/-- RRING_BASE_HI, bits [31:0] at 0x058 of page 0x008 + u. -/
def Fd.chan_RRING_BASE_HI (ch : Nat) : Fld := ⟨0x008 + ch / 16, 0x058 + 0x40 * (ch % 16), 31, 0⟩
/-- RRING_SIZE, bits [13:0] at 0x05C of page 0x008 + u. -/
def Fd.chan_RRING_SIZE (ch : Nat) : Fld := ⟨0x008 + ch / 16, 0x05C + 0x40 * (ch % 16), 13, 0⟩
/-- RRING_HEAD, bits [15:0] at 0x060 of page 0x008 + u. -/
def Fd.chan_RRING_HEAD (ch : Nat) : Fld := ⟨0x008 + ch / 16, 0x060 + 0x40 * (ch % 16), 15, 0⟩
/-- RRING_TAIL, bits [15:0] at 0x064 of page 0x008 + u. -/
def Fd.chan_RRING_TAIL (ch : Nat) : Fld := ⟨0x008 + ch / 16, 0x064 + 0x40 * (ch % 16), 15, 0⟩
/-- ENABLE, bits [0:0] at 0x068 of page 0x008 + u. -/
def Fd.chan_ENABLE (ch : Nat) : Fld := ⟨0x008 + ch / 16, 0x068 + 0x40 * (ch % 16), 0, 0⟩
/-- MSIX_VEC, bits [15:8] at 0x068 of page 0x008 + u. -/
def Fd.chan_MSIX_VEC (ch : Nat) : Fld := ⟨0x008 + ch / 16, 0x068 + 0x40 * (ch % 16), 15, 8⟩
/-- STATE, bits [1:0] at 0x06C of page 0x008 + u. -/
def Fd.chan_STATE (ch : Nat) : Fld := ⟨0x008 + ch / 16, 0x06C + 0x40 * (ch % 16), 1, 0⟩
/-- PID, bits [7:4] at 0x06C of page 0x008 + u. -/
def Fd.chan_PID (ch : Nat) : Fld := ⟨0x008 + ch / 16, 0x06C + 0x40 * (ch % 16), 7, 4⟩
/-- CREDIT, bits [9:0] at 0x070 of page 0x008 + u. -/
def Fd.chan_CREDIT (ch : Nat) : Fld := ⟨0x008 + ch / 16, 0x070 + 0x40 * (ch % 16), 9, 0⟩
/-- IN_FLIGHT, bits [9:0] at 0x074 of page 0x008 + u. -/
def Fd.chan_IN_FLIGHT (ch : Nat) : Fld := ⟨0x008 + ch / 16, 0x074 + 0x40 * (ch % 16), 9, 0⟩
/-- DOORBELL_COUNT, bits [31:0] at 0x078 of page 0x008 + u. -/
def Fd.chan_DOORBELL_COUNT (ch : Nat) : Fld := ⟨0x008 + ch / 16, 0x078 + 0x40 * (ch % 16), 31, 0⟩
/-- BUSY_COUNT, bits [31:0] at 0x07C of page 0x008 + u. -/
def Fd.chan_BUSY_COUNT (ch : Nat) : Fld := ⟨0x008 + ch / 16, 0x07C + 0x40 * (ch % 16), 31, 0⟩
/-- DEV_IN_FLIGHT, bits [9:0] at 0x800 of page 0x008. -/
def Fd.dev_DEV_IN_FLIGHT : Fld := ⟨0x008, 0x800, 9, 0⟩
/-- LOOSE_IN_FLIGHT, bits [9:0] at 0x804 of page 0x008. -/
def Fd.dev_LOOSE_IN_FLIGHT : Fld := ⟨0x008, 0x804, 9, 0⟩
/-- STRICT_RESERVE, bits [8:0] at 0x808 of page 0x008. -/
def Fd.dev_STRICT_RESERVE : Fld := ⟨0x008, 0x808, 8, 0⟩
/-- BAR2_BASE_LO, bits [31:16] at 0x840 of page 0x008. -/
def Fd.dev_BAR2_BASE_LO (i : Nat) : Fld := ⟨0x008, 0x840 + 0x8 * i, 31, 16⟩
/-- BAR2_BASE_HI, bits [7:0] at 0x844 of page 0x008. -/
def Fd.dev_BAR2_BASE_HI (i : Nat) : Fld := ⟨0x008, 0x844 + 0x8 * i, 7, 0⟩
/-- ROLE, bits [1:0] at 0x040 of page 0x010 + u. -/
def Fd.truss_ROLE (u : Nat) : Fld := ⟨0x010 + u, 0x040, 1, 0⟩
/-- LOGICAL, bits [7:4] at 0x040 of page 0x010 + u. -/
def Fd.truss_LOGICAL (u : Nat) : Fld := ⟨0x010 + u, 0x040, 7, 4⟩
/-- MOP_COUNT, bits [31:0] at 0x044 of page 0x010 + u. -/
def Fd.truss_MOP_COUNT (u : Nat) : Fld := ⟨0x010 + u, 0x044, 31, 0⟩
/-- TALLY_MISMATCH_COUNT, bits [31:0] at 0x048 of page 0x010 + u. -/
def Fd.truss_TALLY_MISMATCH_COUNT (u : Nat) : Fld := ⟨0x010 + u, 0x048, 31, 0⟩
/-- RESIDUE_ERR_COUNT, bits [31:0] at 0x04C of page 0x010 + u. -/
def Fd.truss_RESIDUE_ERR_COUNT (u : Nat) : Fld := ⟨0x010 + u, 0x04C, 31, 0⟩
/-- HINT_IGNORED_COUNT, bits [31:0] at 0x050 of page 0x010 + u. -/
def Fd.truss_HINT_IGNORED_COUNT (u : Nat) : Fld := ⟨0x010 + u, 0x050, 31, 0⟩
/-- NAN_TO_INT_COUNT, bits [31:0] at 0x054 of page 0x010 + u. -/
def Fd.truss_NAN_TO_INT_COUNT (u : Nat) : Fld := ⟨0x010 + u, 0x054, 31, 0⟩
/-- CACHE_MISS_COUNT, bits [31:0] at 0x058 of page 0x010 + u. -/
def Fd.truss_CACHE_MISS_COUNT (u : Nat) : Fld := ⟨0x010 + u, 0x058, 31, 0⟩
/-- BUSY_CYCLES, bits [31:0] at 0x05C of page 0x010 + u. -/
def Fd.truss_BUSY_CYCLES (u : Nat) : Fld := ⟨0x010 + u, 0x05C, 31, 0⟩
/-- ARITH_REV, bits [7:0] at 0x060 of page 0x010 + u. -/
def Fd.truss_ARITH_REV (u : Nat) : Fld := ⟨0x010 + u, 0x060, 7, 0⟩
/-- FINISH_REV, bits [15:8] at 0x060 of page 0x010 + u. -/
def Fd.truss_FINISH_REV (u : Nat) : Fld := ⟨0x010 + u, 0x060, 15, 8⟩
/-- FT_INDEX, bits [13:0] at 0x064 of page 0x010 + u. -/
def Fd.truss_FT_INDEX (u : Nat) : Fld := ⟨0x010 + u, 0x064, 13, 0⟩
/-- FT_DATA, bits [31:0] at 0x068 of page 0x010 + u. -/
def Fd.truss_FT_DATA (u : Nat) : Fld := ⟨0x010 + u, 0x068, 31, 0⟩
/-- ROLE, bits [1:0] at 0x040 of page 0x020 + u. -/
def Fd.scribe_ROLE (u : Nat) : Fld := ⟨0x020 + u, 0x040, 1, 0⟩
/-- LOGICAL, bits [7:4] at 0x040 of page 0x020 + u. -/
def Fd.scribe_LOGICAL (u : Nat) : Fld := ⟨0x020 + u, 0x040, 7, 4⟩
/-- SWEEP_COUNT, bits [31:0] at 0x044 of page 0x020 + u. -/
def Fd.scribe_SWEEP_COUNT (u : Nat) : Fld := ⟨0x020 + u, 0x044, 31, 0⟩
/-- CAND_COUNT_DONE, bits [31:0] at 0x048 of page 0x020 + u. -/
def Fd.scribe_CAND_COUNT_DONE (u : Nat) : Fld := ⟨0x020 + u, 0x048, 31, 0⟩
/-- SWEEP_MISMATCH_COUNT, bits [31:0] at 0x04C of page 0x020 + u. -/
def Fd.scribe_SWEEP_MISMATCH_COUNT (u : Nat) : Fld := ⟨0x020 + u, 0x04C, 31, 0⟩
/-- LIMITED_COUNT, bits [31:0] at 0x050 of page 0x020 + u. -/
def Fd.scribe_LIMITED_COUNT (u : Nat) : Fld := ⟨0x020 + u, 0x050, 31, 0⟩
/-- BUSY_CYCLES, bits [31:0] at 0x054 of page 0x020 + u. -/
def Fd.scribe_BUSY_CYCLES (u : Nat) : Fld := ⟨0x020 + u, 0x054, 31, 0⟩
/-- BUSY, bits [0:0] at 0x040 of page 0x038 + u. -/
def Fd.sorter_BUSY (u : Nat) : Fld := ⟨0x038 + u, 0x040, 0, 0⟩
/-- STRICT_HELD, bits [1:1] at 0x040 of page 0x038 + u. -/
def Fd.sorter_STRICT_HELD (u : Nat) : Fld := ⟨0x038 + u, 0x040, 1, 1⟩
/-- TASK_COUNT, bits [31:0] at 0x044 of page 0x038 + u. -/
def Fd.sorter_TASK_COUNT (u : Nat) : Fld := ⟨0x038 + u, 0x044, 31, 0⟩
/-- KEYS_SCANNED, bits [31:0] at 0x048 of page 0x038 + u. -/
def Fd.sorter_KEYS_SCANNED (u : Nat) : Fld := ⟨0x038 + u, 0x048, 31, 0⟩
/-- MERGE_ENTRIES, bits [31:0] at 0x04C of page 0x038 + u. -/
def Fd.sorter_MERGE_ENTRIES (u : Nat) : Fld := ⟨0x038 + u, 0x04C, 31, 0⟩
/-- MASS_CHECK_COUNT, bits [31:0] at 0x050 of page 0x038 + u. -/
def Fd.sorter_MASS_CHECK_COUNT (u : Nat) : Fld := ⟨0x038 + u, 0x050, 31, 0⟩
/-- ORDER_CHECK_COUNT, bits [31:0] at 0x054 of page 0x038 + u. -/
def Fd.sorter_ORDER_CHECK_COUNT (u : Nat) : Fld := ⟨0x038 + u, 0x054, 31, 0⟩
/-- BUSY_CYCLES, bits [31:0] at 0x058 of page 0x038 + u. -/
def Fd.sorter_BUSY_CYCLES (u : Nat) : Fld := ⟨0x038 + u, 0x058, 31, 0⟩
/-- PORT_WAIT_CYCLES, bits [31:0] at 0x05C of page 0x038 + u. -/
def Fd.sorter_PORT_WAIT_CYCLES (u : Nat) : Fld := ⟨0x038 + u, 0x05C, 31, 0⟩
/-- BUSY, bits [0:0] at 0x040 of page 0x03C + u. -/
def Fd.plane_BUSY (u : Nat) : Fld := ⟨0x03C + u, 0x040, 0, 0⟩
/-- STRICT_HELD, bits [1:1] at 0x040 of page 0x03C + u. -/
def Fd.plane_STRICT_HELD (u : Nat) : Fld := ⟨0x03C + u, 0x040, 1, 1⟩
/-- TASK_COUNT, bits [31:0] at 0x044 of page 0x03C + u. -/
def Fd.plane_TASK_COUNT (u : Nat) : Fld := ⟨0x03C + u, 0x044, 31, 0⟩
/-- ITER_COUNT, bits [31:0] at 0x048 of page 0x03C + u. -/
def Fd.plane_ITER_COUNT (u : Nat) : Fld := ⟨0x03C + u, 0x048, 31, 0⟩
/-- CONVERGED_COUNT, bits [31:0] at 0x04C of page 0x03C + u. -/
def Fd.plane_CONVERGED_COUNT (u : Nat) : Fld := ⟨0x03C + u, 0x04C, 31, 0⟩
/-- CAPPED_COUNT, bits [31:0] at 0x050 of page 0x03C + u. -/
def Fd.plane_CAPPED_COUNT (u : Nat) : Fld := ⟨0x03C + u, 0x050, 31, 0⟩
/-- DEADLINE_COUNT, bits [31:0] at 0x054 of page 0x03C + u. -/
def Fd.plane_DEADLINE_COUNT (u : Nat) : Fld := ⟨0x03C + u, 0x054, 31, 0⟩
/-- INFEASIBLE_COUNT, bits [31:0] at 0x058 of page 0x03C + u. -/
def Fd.plane_INFEASIBLE_COUNT (u : Nat) : Fld := ⟨0x03C + u, 0x058, 31, 0⟩
/-- INPUT_FAULT_COUNT, bits [31:0] at 0x05C of page 0x03C + u. -/
def Fd.plane_INPUT_FAULT_COUNT (u : Nat) : Fld := ⟨0x03C + u, 0x05C, 31, 0⟩
/-- RESIDUE_ERR_COUNT, bits [31:0] at 0x060 of page 0x03C + u. -/
def Fd.plane_RESIDUE_ERR_COUNT (u : Nat) : Fld := ⟨0x03C + u, 0x060, 31, 0⟩
/-- BUSY_CYCLES, bits [31:0] at 0x064 of page 0x03C + u. -/
def Fd.plane_BUSY_CYCLES (u : Nat) : Fld := ⟨0x03C + u, 0x064, 31, 0⟩
/-- ROLE, bits [1:0] at 0x040 of page 0x040 + u. -/
def Fd.joiner_ROLE (u : Nat) : Fld := ⟨0x040 + u, 0x040, 1, 0⟩
/-- LOGICAL, bits [7:4] at 0x040 of page 0x040 + u. -/
def Fd.joiner_LOGICAL (u : Nat) : Fld := ⟨0x040 + u, 0x040, 7, 4⟩
/-- MODE, bits [8:8] at 0x040 of page 0x040 + u. -/
def Fd.joiner_MODE (u : Nat) : Fld := ⟨0x040 + u, 0x040, 8, 8⟩
/-- TASK_COUNT, bits [31:0] at 0x044 of page 0x040 + u. -/
def Fd.joiner_TASK_COUNT (u : Nat) : Fld := ⟨0x040 + u, 0x044, 31, 0⟩
/-- LOCK_MISMATCH_COUNT, bits [31:0] at 0x048 of page 0x040 + u. -/
def Fd.joiner_LOCK_MISMATCH_COUNT (u : Nat) : Fld := ⟨0x040 + u, 0x048, 31, 0⟩
/-- TRAP_COUNT, bits [31:0] at 0x04C of page 0x040 + u. -/
def Fd.joiner_TRAP_COUNT (u : Nat) : Fld := ⟨0x040 + u, 0x04C, 31, 0⟩
/-- BUSY_CYCLES, bits [31:0] at 0x050 of page 0x040 + u. -/
def Fd.joiner_BUSY_CYCLES (u : Nat) : Fld := ⟨0x040 + u, 0x050, 31, 0⟩
/-- TT_INDEX, bits [11:0] at 0x040 of page 0x058. -/
def Fd.sched_TT_INDEX : Fld := ⟨0x058, 0x040, 11, 0⟩
/-- TT_DATA, bits [31:0] at 0x044 of page 0x058. -/
def Fd.sched_TT_DATA : Fld := ⟨0x058, 0x044, 31, 0⟩
/-- COMMIT, bits [0:0] at 0x048 of page 0x058. -/
def Fd.sched_COMMIT : Fld := ⟨0x058, 0x048, 0, 0⟩
/-- TT_ACTIVE, bits [0:0] at 0x04C of page 0x058. -/
def Fd.sched_TT_ACTIVE : Fld := ⟨0x058, 0x04C, 0, 0⟩
/-- FRAME_NOW, bits [4:1] at 0x04C of page 0x058. -/
def Fd.sched_FRAME_NOW : Fld := ⟨0x058, 0x04C, 4, 1⟩
/-- TT_ERR, bits [15:0] at 0x050 of page 0x058. -/
def Fd.sched_TT_ERR : Fld := ⟨0x058, 0x050, 15, 0⟩
/-- CYCLE_COUNT, bits [31:0] at 0x054 of page 0x058. -/
def Fd.sched_CYCLE_COUNT : Fld := ⟨0x058, 0x054, 31, 0⟩
/-- WAIT_LIMIT_PT, bits [31:0] at 0x080 of page 0x058. -/
def Fd.sched_WAIT_LIMIT_PT (i : Nat) : Fld := ⟨0x058, 0x080 + 0x4 * i, 31, 0⟩
/-- LOOSE_BUDGET_PT, bits [31:0] at 0x0C0 of page 0x058. -/
def Fd.sched_LOOSE_BUDGET_PT (i : Nat) : Fld := ⟨0x058, 0x0C0 + 0x4 * i, 31, 0⟩
/-- CH_PRIO, bits [31:0] at 0x100 of page 0x058. -/
def Fd.sched_CH_PRIO (i : Nat) : Fld := ⟨0x058, 0x100 + 0x4 * i, 31, 0⟩
/-- OBS_INDEX, bits [13:0] at 0x140 of page 0x058. -/
def Fd.sched_OBS_INDEX : Fld := ⟨0x058, 0x140, 13, 0⟩
/-- OBS_DATA, bits [31:0] at 0x144 of page 0x058. -/
def Fd.sched_OBS_DATA : Fld := ⟨0x058, 0x144, 31, 0⟩
/-- OBS_WINDOW_PM_LO, bits [31:0] at 0x148 of page 0x058. -/
def Fd.sched_OBS_WINDOW_PM_LO : Fld := ⟨0x058, 0x148, 31, 0⟩
/-- OBS_WINDOW_PM_HI, bits [31:0] at 0x14C of page 0x058. -/
def Fd.sched_OBS_WINDOW_PM_HI : Fld := ⟨0x058, 0x14C, 31, 0⟩
/-- REGIME, bits [1:0] at 0x040 of page 0x060 + u. -/
def Fd.part_REGIME (u : Nat) : Fld := ⟨0x060 + u, 0x040, 1, 0⟩
/-- MAX_SCLASS, bits [7:4] at 0x040 of page 0x060 + u. -/
def Fd.part_MAX_SCLASS (u : Nat) : Fld := ⟨0x060 + u, 0x040, 7, 4⟩
/-- BEAM_BANKS, bits [31:0] at 0x044 of page 0x060 + u. -/
def Fd.part_BEAM_BANKS (u : Nat) : Fld := ⟨0x060 + u, 0x044, 31, 0⟩
/-- CACHE_BANKS, bits [31:0] at 0x048 of page 0x060 + u. -/
def Fd.part_CACHE_BANKS (u : Nat) : Fld := ⟨0x060 + u, 0x048, 31, 0⟩
/-- CACHE_WAYS, bits [15:0] at 0x04C of page 0x060 + u. -/
def Fd.part_CACHE_WAYS (u : Nat) : Fld := ⟨0x060 + u, 0x04C, 15, 0⟩
/-- DRAM_REGIONS_LO, bits [31:0] at 0x050 of page 0x060 + u. -/
def Fd.part_DRAM_REGIONS_LO (u : Nat) : Fld := ⟨0x060 + u, 0x050, 31, 0⟩
/-- DRAM_REGIONS_HI, bits [31:0] at 0x054 of page 0x060 + u. -/
def Fd.part_DRAM_REGIONS_HI (u : Nat) : Fld := ⟨0x060 + u, 0x054, 31, 0⟩
/-- VF_MASK, bits [14:0] at 0x058 of page 0x060 + u. -/
def Fd.part_VF_MASK (u : Nat) : Fld := ⟨0x060 + u, 0x058, 14, 0⟩
/-- MORTISE_KIB, bits [13:0] at 0x05C of page 0x060 + u. -/
def Fd.part_MORTISE_KIB (u : Nat) : Fld := ⟨0x060 + u, 0x05C, 13, 0⟩
/-- AGE_LIMIT_PT, bits [31:0] at 0x060 of page 0x060 + u. -/
def Fd.part_AGE_LIMIT_PT (u : Nat) : Fld := ⟨0x060 + u, 0x060, 31, 0⟩
/-- TENSOR_COUNT, bits [12:0] at 0x064 of page 0x060 + u. -/
def Fd.part_TENSOR_COUNT (u : Nat) : Fld := ⟨0x060 + u, 0x064, 12, 0⟩
/-- FW_WRITE_BLOCKED, bits [31:0] at 0x080 of page 0x060 + u. -/
def Fd.part_FW_WRITE_BLOCKED (u : Nat) : Fld := ⟨0x060 + u, 0x080, 31, 0⟩
/-- FW_READ_BLOCKED, bits [31:0] at 0x084 of page 0x060 + u. -/
def Fd.part_FW_READ_BLOCKED (u : Nat) : Fld := ⟨0x060 + u, 0x084, 31, 0⟩
/-- AGED_COUNT, bits [31:0] at 0x088 of page 0x060 + u. -/
def Fd.part_AGED_COUNT (u : Nat) : Fld := ⟨0x060 + u, 0x088, 31, 0⟩
/-- TAG_RETRY_COUNT, bits [31:0] at 0x08C of page 0x060 + u. -/
def Fd.part_TAG_RETRY_COUNT (u : Nat) : Fld := ⟨0x060 + u, 0x08C, 31, 0⟩
/-- TAG_THERMAL_COUNT, bits [31:0] at 0x090 of page 0x060 + u. -/
def Fd.part_TAG_THERMAL_COUNT (u : Nat) : Fld := ⟨0x060 + u, 0x090, 31, 0⟩
/-- TAG_LOOSE_COUNT, bits [31:0] at 0x094 of page 0x060 + u. -/
def Fd.part_TAG_LOOSE_COUNT (u : Nat) : Fld := ⟨0x060 + u, 0x094, 31, 0⟩
/-- ENABLE, bits [0:0] at 0x040 of page 0x070 + u. -/
def Fd.intake_ENABLE (u : Nat) : Fld := ⟨0x070 + u, 0x040, 0, 0⟩
/-- LANES, bits [2:1] at 0x040 of page 0x070 + u. -/
def Fd.intake_LANES (u : Nat) : Fld := ⟨0x070 + u, 0x040, 2, 1⟩
/-- HS_ACTIVE, bits [0:0] at 0x044 of page 0x070 + u. -/
def Fd.intake_HS_ACTIVE (u : Nat) : Fld := ⟨0x070 + u, 0x044, 0, 0⟩
/-- DESKEW_DONE, bits [1:1] at 0x044 of page 0x070 + u. -/
def Fd.intake_DESKEW_DONE (u : Nat) : Fld := ⟨0x070 + u, 0x044, 1, 1⟩
/-- HDR_ECC_CORR, bits [31:0] at 0x048 of page 0x070 + u. -/
def Fd.intake_HDR_ECC_CORR (u : Nat) : Fld := ⟨0x070 + u, 0x048, 31, 0⟩
/-- HDR_ECC_UNCORR, bits [31:0] at 0x04C of page 0x070 + u. -/
def Fd.intake_HDR_ECC_UNCORR (u : Nat) : Fld := ⟨0x070 + u, 0x04C, 31, 0⟩
/-- PKT_CRC_ERR, bits [31:0] at 0x050 of page 0x070 + u. -/
def Fd.intake_PKT_CRC_ERR (u : Nat) : Fld := ⟨0x070 + u, 0x050, 31, 0⟩
/-- UNKNOWN_PKT_COUNT, bits [31:0] at 0x054 of page 0x070 + u. -/
def Fd.intake_UNKNOWN_PKT_COUNT (u : Nat) : Fld := ⟨0x070 + u, 0x054, 31, 0⟩
/-- POSTCARD_FAIL_COUNT, bits [31:0] at 0x058 of page 0x070 + u. -/
def Fd.intake_POSTCARD_FAIL_COUNT (u : Nat) : Fld := ⟨0x070 + u, 0x058, 31, 0⟩
/-- FIFO_HIGH_WATER, bits [31:0] at 0x05C of page 0x070 + u. -/
def Fd.intake_FIFO_HIGH_WATER (u : Nat) : Fld := ⟨0x070 + u, 0x05C, 31, 0⟩
/-- F_ENABLE, bits [0:0] at 0x080 of page 0x070 + u. -/
def Fd.intake_F_ENABLE (u : Nat) (i : Nat) : Fld := ⟨0x070 + u, 0x080 + 0x40 * i, 0, 0⟩
/-- VC, bits [4:1] at 0x080 of page 0x070 + u. -/
def Fd.intake_VC (u : Nat) (i : Nat) : Fld := ⟨0x070 + u, 0x080 + 0x40 * i, 4, 1⟩
/-- DT, bits [10:5] at 0x080 of page 0x070 + u. -/
def Fd.intake_DT (u : Nat) (i : Nat) : Fld := ⟨0x070 + u, 0x080 + 0x40 * i, 10, 5⟩
/-- PID, bits [14:11] at 0x080 of page 0x070 + u. -/
def Fd.intake_PID (u : Nat) (i : Nat) : Fld := ⟨0x070 + u, 0x080 + 0x40 * i, 14, 11⟩
/-- STREAM, bits [26:15] at 0x080 of page 0x070 + u. -/
def Fd.intake_STREAM (u : Nat) (i : Nat) : Fld := ⟨0x070 + u, 0x080 + 0x40 * i, 26, 15⟩
/-- SCLASS, bits [30:27] at 0x080 of page 0x070 + u. -/
def Fd.intake_SCLASS (u : Nat) (i : Nat) : Fld := ⟨0x070 + u, 0x080 + 0x40 * i, 30, 27⟩
/-- SENSOR_CHECK, bits [31:31] at 0x080 of page 0x070 + u. -/
def Fd.intake_SENSOR_CHECK (u : Nat) (i : Nat) : Fld := ⟨0x070 + u, 0x080 + 0x40 * i, 31, 31⟩
/-- WIDTH, bits [13:0] at 0x084 of page 0x070 + u. -/
def Fd.intake_WIDTH (u : Nat) (i : Nat) : Fld := ⟨0x070 + u, 0x084 + 0x40 * i, 13, 0⟩
/-- HEIGHT, bits [29:16] at 0x084 of page 0x070 + u. -/
def Fd.intake_HEIGHT (u : Nat) (i : Nat) : Fld := ⟨0x070 + u, 0x084 + 0x40 * i, 29, 16⟩
/-- FROZEN_LIMIT, bits [3:0] at 0x088 of page 0x070 + u. -/
def Fd.intake_FROZEN_LIMIT (u : Nat) (i : Nat) : Fld := ⟨0x070 + u, 0x088 + 0x40 * i, 3, 0⟩
/-- BUF_SLOTS, bits [7:4] at 0x088 of page 0x070 + u. -/
def Fd.intake_BUF_SLOTS (u : Nat) (i : Nat) : Fld := ⟨0x070 + u, 0x088 + 0x40 * i, 7, 4⟩
/-- BUF_BASE_LO, bits [31:12] at 0x090 of page 0x070 + u. -/
def Fd.intake_BUF_BASE_LO (u : Nat) (i : Nat) : Fld := ⟨0x070 + u, 0x090 + 0x40 * i, 31, 12⟩
/-- BUF_BASE_HI, bits [31:0] at 0x094 of page 0x070 + u. -/
def Fd.intake_BUF_BASE_HI (u : Nat) (i : Nat) : Fld := ⟨0x070 + u, 0x094 + 0x40 * i, 31, 0⟩
/-- FRAMES_PUBLISHED, bits [31:0] at 0x098 of page 0x070 + u. -/
def Fd.intake_FRAMES_PUBLISHED (u : Nat) (i : Nat) : Fld := ⟨0x070 + u, 0x098 + 0x40 * i, 31, 0⟩
/-- SUPERSEDED, bits [31:0] at 0x09C of page 0x070 + u. -/
def Fd.intake_SUPERSEDED (u : Nat) (i : Nat) : Fld := ⟨0x070 + u, 0x09C + 0x40 * i, 31, 0⟩
/-- DISCARD_STRUCT, bits [31:0] at 0x0A0 of page 0x070 + u. -/
def Fd.intake_DISCARD_STRUCT (u : Nat) (i : Nat) : Fld := ⟨0x070 + u, 0x0A0 + 0x40 * i, 31, 0⟩
/-- DISCARD_SENSOR, bits [31:0] at 0x0A4 of page 0x070 + u. -/
def Fd.intake_DISCARD_SENSOR (u : Nat) (i : Nat) : Fld := ⟨0x070 + u, 0x0A4 + 0x40 * i, 31, 0⟩
/-- REPEATED, bits [31:0] at 0x0A8 of page 0x070 + u. -/
def Fd.intake_REPEATED (u : Nat) (i : Nat) : Fld := ⟨0x070 + u, 0x0A8 + 0x40 * i, 31, 0⟩
/-- GAP_FRAMES, bits [31:0] at 0x0AC of page 0x070 + u. -/
def Fd.intake_GAP_FRAMES (u : Nat) (i : Nat) : Fld := ⟨0x070 + u, 0x0AC + 0x40 * i, 31, 0⟩
/-- FROZEN_DISCARD, bits [31:0] at 0x0B0 of page 0x070 + u. -/
def Fd.intake_FROZEN_DISCARD (u : Nat) (i : Nat) : Fld := ⟨0x070 + u, 0x0B0 + 0x40 * i, 31, 0⟩
/-- NO_SLOT, bits [31:0] at 0x0B4 of page 0x070 + u. -/
def Fd.intake_NO_SLOT (u : Nat) (i : Nat) : Fld := ⟨0x070 + u, 0x0B4 + 0x40 * i, 31, 0⟩
/-- PRE_READY_DISCARD, bits [31:0] at 0x0B8 of page 0x070 + u. -/
def Fd.intake_PRE_READY_DISCARD (u : Nat) (i : Nat) : Fld := ⟨0x070 + u, 0x0B8 + 0x40 * i, 31, 0⟩
/-- OVERFLOW, bits [31:0] at 0x0BC of page 0x070 + u. -/
def Fd.intake_OVERFLOW (u : Nat) (i : Nat) : Fld := ⟨0x070 + u, 0x0BC + 0x40 * i, 31, 0⟩
/-- LINK_EN, bits [0:0] at 0x040 of page 0x078 + u. -/
def Fd.link_LINK_EN (u : Nat) : Fld := ⟨0x078 + u, 0x040, 0, 0⟩
/-- STATE, bits [2:1] at 0x040 of page 0x078 + u. -/
def Fd.link_STATE (u : Nat) : Fld := ⟨0x078 + u, 0x040, 2, 1⟩
/-- NEIGHBOUR, bits [14:3] at 0x040 of page 0x078 + u. -/
def Fd.link_NEIGHBOUR (u : Nat) : Fld := ⟨0x078 + u, 0x040, 14, 3⟩
/-- FLITS_TX, bits [31:0] at 0x044 of page 0x078 + u. -/
def Fd.link_FLITS_TX (u : Nat) : Fld := ⟨0x078 + u, 0x044, 31, 0⟩
/-- FLITS_RX, bits [31:0] at 0x048 of page 0x078 + u. -/
def Fd.link_FLITS_RX (u : Nat) : Fld := ⟨0x078 + u, 0x048, 31, 0⟩
/-- CRC_ERR, bits [31:0] at 0x04C of page 0x078 + u. -/
def Fd.link_CRC_ERR (u : Nat) : Fld := ⟨0x078 + u, 0x04C, 31, 0⟩
/-- RETRY_COUNT, bits [31:0] at 0x050 of page 0x078 + u. -/
def Fd.link_RETRY_COUNT (u : Nat) : Fld := ⟨0x078 + u, 0x050, 31, 0⟩
/-- DUP_FLIT, bits [31:0] at 0x054 of page 0x078 + u. -/
def Fd.link_DUP_FLIT (u : Nat) : Fld := ⟨0x078 + u, 0x054, 31, 0⟩
/-- BAD_FLIT, bits [31:0] at 0x058 of page 0x078 + u. -/
def Fd.link_BAD_FLIT (u : Nat) : Fld := ⟨0x078 + u, 0x058, 31, 0⟩
/-- DOWN_COUNT, bits [31:0] at 0x05C of page 0x078 + u. -/
def Fd.link_DOWN_COUNT (u : Nat) : Fld := ⟨0x078 + u, 0x05C, 31, 0⟩
/-- DELAY_64, bits [15:0] at 0x060 of page 0x078 + u. -/
def Fd.link_DELAY_64 (u : Nat) : Fld := ⟨0x078 + u, 0x060, 15, 0⟩
/-- CHIP_ADDR, bits [11:0] at 0x040 of page 0x07E. -/
def Fd.coll_CHIP_ADDR : Fld := ⟨0x07E, 0x040, 11, 0⟩
/-- TOPO, bits [1:0] at 0x044 of page 0x07E. -/
def Fd.coll_TOPO : Fld := ⟨0x07E, 0x044, 1, 0⟩
/-- DX_M1, bits [7:4] at 0x044 of page 0x07E. -/
def Fd.coll_DX_M1 : Fld := ⟨0x07E, 0x044, 7, 4⟩
/-- DY_M1, bits [11:8] at 0x044 of page 0x07E. -/
def Fd.coll_DY_M1 : Fld := ⟨0x07E, 0x044, 11, 8⟩
/-- DZ_M1, bits [15:12] at 0x044 of page 0x07E. -/
def Fd.coll_DZ_M1 : Fld := ⟨0x07E, 0x044, 15, 12⟩
/-- GROUP_OF_PID_LO, bits [31:0] at 0x048 of page 0x07E. -/
def Fd.coll_GROUP_OF_PID_LO : Fld := ⟨0x07E, 0x048, 31, 0⟩
/-- GROUP_OF_PID_HI, bits [31:0] at 0x04C of page 0x07E. -/
def Fd.coll_GROUP_OF_PID_HI : Fld := ⟨0x07E, 0x04C, 31, 0⟩
/-- GROUP_BOX, bits [23:0] at 0x080 of page 0x07E. -/
def Fd.coll_GROUP_BOX (i : Nat) : Fld := ⟨0x07E, 0x080 + 0x4 * i, 23, 0⟩
/-- GROUP_PID, bits [27:24] at 0x080 of page 0x07E. -/
def Fd.coll_GROUP_PID (i : Nat) : Fld := ⟨0x07E, 0x080 + 0x4 * i, 27, 24⟩
/-- GROUP_ENABLE, bits [28:28] at 0x080 of page 0x07E. -/
def Fd.coll_GROUP_ENABLE (i : Nat) : Fld := ⟨0x07E, 0x080 + 0x4 * i, 28, 28⟩
/-- TIMEOUT_PT, bits [31:0] at 0x0C0 of page 0x07E. -/
def Fd.coll_TIMEOUT_PT (i : Nat) : Fld := ⟨0x07E, 0x0C0 + 0x4 * i, 31, 0⟩
/-- SYNCED, bits [15:0] at 0x100 of page 0x07E. -/
def Fd.coll_SYNCED : Fld := ⟨0x07E, 0x100, 15, 0⟩
/-- RESYNC_GROUP, bits [3:0] at 0x104 of page 0x07E. -/
def Fd.coll_RESYNC_GROUP : Fld := ⟨0x07E, 0x104, 3, 0⟩
/-- RESYNC_GO, bits [4:4] at 0x104 of page 0x07E. -/
def Fd.coll_RESYNC_GO : Fld := ⟨0x07E, 0x104, 4, 4⟩
/-- ALIGN_GO, bits [0:0] at 0x108 of page 0x07E. -/
def Fd.coll_ALIGN_GO : Fld := ⟨0x07E, 0x108, 0, 0⟩
/-- ALIGN_MODE, bits [1:1] at 0x108 of page 0x07E. -/
def Fd.coll_ALIGN_MODE : Fld := ⟨0x07E, 0x108, 1, 1⟩
/-- ALIGNED, bits [2:2] at 0x108 of page 0x07E. -/
def Fd.coll_ALIGNED : Fld := ⟨0x07E, 0x108, 2, 2⟩
/-- ALIGN_OFFSET_64, bits [31:0] at 0x10C of page 0x07E. -/
def Fd.coll_ALIGN_OFFSET_64 : Fld := ⟨0x07E, 0x10C, 31, 0⟩
/-- COLL_COMMIT_COUNT, bits [31:0] at 0x110 of page 0x07E. -/
def Fd.coll_COLL_COMMIT_COUNT : Fld := ⟨0x07E, 0x110, 31, 0⟩
/-- COLL_ABORT_COUNT, bits [31:0] at 0x114 of page 0x07E. -/
def Fd.coll_COLL_ABORT_COUNT : Fld := ⟨0x07E, 0x114, 31, 0⟩
/-- STATION_LOST_COUNT, bits [31:0] at 0x118 of page 0x07E. -/
def Fd.coll_STATION_LOST_COUNT : Fld := ⟨0x07E, 0x118, 31, 0⟩
/-- COLL_MISMATCH_COUNT, bits [31:0] at 0x11C of page 0x07E. -/
def Fd.coll_COLL_MISMATCH_COUNT : Fld := ⟨0x07E, 0x11C, 31, 0⟩
/-- TIME_DRIFT_COUNT, bits [31:0] at 0x120 of page 0x07E. -/
def Fd.coll_TIME_DRIFT_COUNT : Fld := ⟨0x07E, 0x120, 31, 0⟩
/-- PEER_HB_MISS, bits [31:0] at 0x124 of page 0x07E. -/
def Fd.coll_PEER_HB_MISS : Fld := ⟨0x07E, 0x124, 31, 0⟩
/-- PEER_LOST_PT, bits [31:0] at 0x130 of page 0x07E. -/
def Fd.coll_PEER_LOST_PT : Fld := ⟨0x07E, 0x130, 31, 0⟩
/-- RATE, bits [1:0] at 0x040 of page 0x080. -/
def Fd.dram_RATE : Fld := ⟨0x080, 0x040, 1, 0⟩
/-- CAPACITY, bits [5:4] at 0x040 of page 0x080. -/
def Fd.dram_CAPACITY : Fld := ⟨0x080, 0x040, 5, 4⟩
/-- REFRESH_DERATE_MAX, bits [2:0] at 0x044 of page 0x080. -/
def Fd.dram_REFRESH_DERATE_MAX : Fld := ⟨0x080, 0x044, 2, 0⟩
/-- REFRESH_UNIT_PT, bits [13:8] at 0x044 of page 0x080. -/
def Fd.dram_REFRESH_UNIT_PT : Fld := ⟨0x080, 0x044, 13, 8⟩
/-- MR4_RATE, bits [15:0] at 0x048 of page 0x080. -/
def Fd.dram_MR4_RATE : Fld := ⟨0x080, 0x048, 15, 0⟩
/-- REFRESH_OVERRUN_COUNT, bits [31:0] at 0x04C of page 0x080. -/
def Fd.dram_REFRESH_OVERRUN_COUNT : Fld := ⟨0x080, 0x04C, 31, 0⟩
/-- OWED_MAX, bits [3:0] at 0x050 of page 0x080. -/
def Fd.dram_OWED_MAX : Fld := ⟨0x080, 0x050, 3, 0⟩
/-- REGION_BASE, bits [15:0] at 0x100 of page 0x081. -/
def Fd.region_REGION_BASE (i : Nat) : Fld := ⟨0x081, 0x100 + 0x8 * i, 15, 0⟩
/-- REGION_SIZE, bits [15:0] at 0x104 of page 0x081. -/
def Fd.region_REGION_SIZE (i : Nat) : Fld := ⟨0x081, 0x104 + 0x8 * i, 15, 0⟩
/-- REGION_OWNER, bits [27:24] at 0x104 of page 0x081. -/
def Fd.region_REGION_OWNER (i : Nat) : Fld := ⟨0x081, 0x104 + 0x8 * i, 27, 24⟩
/-- OWNED, bits [28:28] at 0x104 of page 0x081. -/
def Fd.region_OWNED (i : Nat) : Fld := ⟨0x081, 0x104 + 0x8 * i, 28, 28⟩
/-- CORR, bits [31:0] at 0x040 of page 0x082. -/
def Fd.dramCnt_CORR (i : Nat) : Fld := ⟨0x082, 0x040 + 0x20 * i, 31, 0⟩
/-- UNCORR, bits [31:0] at 0x044 of page 0x082. -/
def Fd.dramCnt_UNCORR (i : Nat) : Fld := ⟨0x082, 0x044 + 0x20 * i, 31, 0⟩
/-- POISON_READ_COUNT, bits [31:0] at 0x048 of page 0x082. -/
def Fd.dramCnt_POISON_READ_COUNT (i : Nat) : Fld := ⟨0x082, 0x048 + 0x20 * i, 31, 0⟩
/-- PATROL_CORR, bits [31:0] at 0x04C of page 0x082. -/
def Fd.dramCnt_PATROL_CORR (i : Nat) : Fld := ⟨0x082, 0x04C + 0x20 * i, 31, 0⟩
/-- REFRESH_ISSUED, bits [31:0] at 0x050 of page 0x082. -/
def Fd.dramCnt_REFRESH_ISSUED (i : Nat) : Fld := ⟨0x082, 0x050 + 0x20 * i, 31, 0⟩
/-- PULLED_IN, bits [31:0] at 0x054 of page 0x082. -/
def Fd.dramCnt_PULLED_IN (i : Nat) : Fld := ⟨0x082, 0x054 + 0x20 * i, 31, 0⟩
/-- TRAINED, bits [0:0] at 0x040 of page 0x083. -/
def Fd.phy_TRAINED (i : Nat) : Fld := ⟨0x083, 0x040 + 0x4 * i, 0, 0⟩
/-- READ_MARGIN, bits [15:8] at 0x040 of page 0x083. -/
def Fd.phy_READ_MARGIN (i : Nat) : Fld := ⟨0x083, 0x040 + 0x4 * i, 15, 8⟩
/-- WRITE_MARGIN, bits [23:16] at 0x040 of page 0x083. -/
def Fd.phy_WRITE_MARGIN (i : Nat) : Fld := ⟨0x083, 0x040 + 0x4 * i, 23, 16⟩
/-- RETRAIN_COUNT, bits [31:0] at 0x050 of page 0x083. -/
def Fd.phy_RETRAIN_COUNT : Fld := ⟨0x083, 0x050, 31, 0⟩
/-- ROLE, bits [1:0] at 0x040 of page 0x084. -/
def Fd.beam_ROLE (i : Nat) : Fld := ⟨0x084, 0x040 + 0x4 * i, 1, 0⟩
/-- LOGICAL, bits [7:2] at 0x040 of page 0x084. -/
def Fd.beam_LOGICAL (i : Nat) : Fld := ⟨0x084, 0x040 + 0x4 * i, 7, 2⟩
/-- POOL, bits [8:8] at 0x040 of page 0x084. -/
def Fd.beam_POOL (i : Nat) : Fld := ⟨0x084, 0x040 + 0x4 * i, 8, 8⟩
/-- POISON_READ_COUNT, bits [31:0] at 0x0D0 of page 0x084. -/
def Fd.beam_POISON_READ_COUNT : Fld := ⟨0x084, 0x0D0, 31, 0⟩
/-- POOL_HIT_COUNT, bits [31:0] at 0x0D4 of page 0x084. -/
def Fd.beam_POOL_HIT_COUNT : Fld := ⟨0x084, 0x0D4, 31, 0⟩
/-- POOL_MISS_COUNT, bits [31:0] at 0x0D8 of page 0x084. -/
def Fd.beam_POOL_MISS_COUNT : Fld := ⟨0x084, 0x0D8, 31, 0⟩
/-- POOL_WRITEBACK_COUNT, bits [31:0] at 0x0DC of page 0x084. -/
def Fd.beam_POOL_WRITEBACK_COUNT : Fld := ⟨0x084, 0x0DC, 31, 0⟩
/-- SCRUB_CORR_COUNT, bits [31:0] at 0x0E0 of page 0x084. -/
def Fd.beam_SCRUB_CORR_COUNT : Fld := ⟨0x084, 0x0E0, 31, 0⟩
/-- SCRUB_PASS_COUNT, bits [31:0] at 0x0E4 of page 0x084. -/
def Fd.beam_SCRUB_PASS_COUNT : Fld := ⟨0x084, 0x0E4, 31, 0⟩
/-- COPY_SRC, bits [5:0] at 0x0E8 of page 0x084. -/
def Fd.beam_COPY_SRC : Fld := ⟨0x084, 0x0E8, 5, 0⟩
/-- COPY_DST, bits [13:8] at 0x0E8 of page 0x084. -/
def Fd.beam_COPY_DST : Fld := ⟨0x084, 0x0E8, 13, 8⟩
/-- CAN_EN, bits [0:0] at 0x040 of page 0x088 + u. -/
def Fd.can_CAN_EN (u : Nat) : Fld := ⟨0x088 + u, 0x040, 0, 0⟩
/-- LISTEN_ONLY, bits [1:1] at 0x040 of page 0x088 + u. -/
def Fd.can_LISTEN_ONLY (u : Nat) : Fld := ⟨0x088 + u, 0x040, 1, 1⟩
/-- SF_EN, bits [2:2] at 0x040 of page 0x088 + u. -/
def Fd.can_SF_EN (u : Nat) : Fld := ⟨0x088 + u, 0x040, 2, 2⟩
/-- ID29, bits [3:3] at 0x040 of page 0x088 + u. -/
def Fd.can_ID29 (u : Nat) : Fld := ⟨0x088 + u, 0x040, 3, 3⟩
/-- ROLE, bits [5:4] at 0x040 of page 0x088 + u. -/
def Fd.can_ROLE (u : Nat) : Fld := ⟨0x088 + u, 0x040, 5, 4⟩
/-- BUS_OFF, bits [6:6] at 0x040 of page 0x088 + u. -/
def Fd.can_BUS_OFF (u : Nat) : Fld := ⟨0x088 + u, 0x040, 6, 6⟩
/-- SF_CAN_ID, bits [28:0] at 0x044 of page 0x088 + u. -/
def Fd.can_SF_CAN_ID (u : Nat) : Fld := ⟨0x088 + u, 0x044, 28, 0⟩
/-- DIAG_CAN_ID, bits [28:0] at 0x048 of page 0x088 + u. -/
def Fd.can_DIAG_CAN_ID (u : Nat) : Fld := ⟨0x088 + u, 0x048, 28, 0⟩
/-- DATA_ID, bits [15:0] at 0x04C of page 0x088 + u. -/
def Fd.can_DATA_ID (u : Nat) : Fld := ⟨0x088 + u, 0x04C, 15, 0⟩
/-- SF_PID, bits [3:0] at 0x050 of page 0x088 + u. -/
def Fd.can_SF_PID (u : Nat) : Fld := ⟨0x088 + u, 0x050, 3, 0⟩
/-- SF_STREAM, bits [15:4] at 0x050 of page 0x088 + u. -/
def Fd.can_SF_STREAM (u : Nat) : Fld := ⟨0x088 + u, 0x050, 15, 4⟩
/-- SF_REPEAT_PT, bits [16:0] at 0x054 of page 0x088 + u. -/
def Fd.can_SF_REPEAT_PT (u : Nat) : Fld := ⟨0x088 + u, 0x054, 16, 0⟩
/-- NOM_TIMING, bits [26:0] at 0x058 of page 0x088 + u. -/
def Fd.can_NOM_TIMING (u : Nat) : Fld := ⟨0x088 + u, 0x058, 26, 0⟩
/-- DATA_TIMING, bits [25:0] at 0x05C of page 0x088 + u. -/
def Fd.can_DATA_TIMING (u : Nat) : Fld := ⟨0x088 + u, 0x05C, 25, 0⟩
/-- TEC, bits [7:0] at 0x060 of page 0x088 + u. -/
def Fd.can_TEC (u : Nat) : Fld := ⟨0x088 + u, 0x060, 7, 0⟩
/-- REC, bits [15:8] at 0x060 of page 0x088 + u. -/
def Fd.can_REC (u : Nat) : Fld := ⟨0x088 + u, 0x060, 15, 8⟩
/-- SF_ALIVE, bits [23:16] at 0x060 of page 0x088 + u. -/
def Fd.can_SF_ALIVE (u : Nat) : Fld := ⟨0x088 + u, 0x060, 23, 16⟩
/-- DIAG_ALIVE, bits [31:24] at 0x060 of page 0x088 + u. -/
def Fd.can_DIAG_ALIVE (u : Nat) : Fld := ⟨0x088 + u, 0x060, 31, 24⟩
/-- SF_TX_COUNT, bits [31:0] at 0x064 of page 0x088 + u. -/
def Fd.can_SF_TX_COUNT (u : Nat) : Fld := ⟨0x088 + u, 0x064, 31, 0⟩
/-- DIAG_TX_COUNT, bits [31:0] at 0x068 of page 0x088 + u. -/
def Fd.can_DIAG_TX_COUNT (u : Nat) : Fld := ⟨0x088 + u, 0x068, 31, 0⟩
/-- RX_COUNT, bits [31:0] at 0x06C of page 0x088 + u. -/
def Fd.can_RX_COUNT (u : Nat) : Fld := ⟨0x088 + u, 0x06C, 31, 0⟩
/-- CAN_BUSOFF_COUNT, bits [31:0] at 0x070 of page 0x088 + u. -/
def Fd.can_CAN_BUSOFF_COUNT (u : Nat) : Fld := ⟨0x088 + u, 0x070, 31, 0⟩
/-- TX_RETRY_COUNT, bits [31:0] at 0x074 of page 0x088 + u. -/
def Fd.can_TX_RETRY_COUNT (u : Nat) : Fld := ⟨0x088 + u, 0x074, 31, 0⟩
/-- RX_INDEX, bits [7:0] at 0x080 of page 0x088 + u. -/
def Fd.can_RX_INDEX (u : Nat) : Fld := ⟨0x088 + u, 0x080, 7, 0⟩
/-- RX_DATA, bits [31:0] at 0x084 of page 0x088 + u. -/
def Fd.can_RX_DATA (u : Nat) : Fld := ⟨0x088 + u, 0x084, 31, 0⟩
/-- LAT_EN, bits [0:0] at 0x040 of page 0x090. -/
def Fd.lattice_LAT_EN : Fld := ⟨0x090, 0x040, 0, 0⟩
/-- LAT_PID, bits [4:1] at 0x040 of page 0x090. -/
def Fd.lattice_LAT_PID : Fld := ⟨0x090, 0x040, 4, 1⟩
/-- FEED_EN, bits [5:5] at 0x040 of page 0x090. -/
def Fd.lattice_FEED_EN : Fld := ⟨0x090, 0x040, 5, 5⟩
/-- FEED_PID, bits [9:6] at 0x040 of page 0x090. -/
def Fd.lattice_FEED_PID : Fld := ⟨0x090, 0x040, 9, 6⟩
/-- SCLASS, bits [13:10] at 0x040 of page 0x090. -/
def Fd.lattice_SCLASS : Fld := ⟨0x090, 0x040, 13, 10⟩
/-- STREAM, bits [25:14] at 0x040 of page 0x090. -/
def Fd.lattice_STREAM : Fld := ⟨0x090, 0x040, 25, 14⟩
/-- EPOCH_BASE, bits [31:0] at 0x044 of page 0x090. -/
def Fd.lattice_EPOCH_BASE : Fld := ⟨0x090, 0x044, 31, 0⟩
/-- NEWEST_EPOCH, bits [15:0] at 0x048 of page 0x090. -/
def Fd.lattice_NEWEST_EPOCH : Fld := ⟨0x090, 0x048, 15, 0⟩
/-- NEWEST_BUF, bits [16:16] at 0x048 of page 0x090. -/
def Fd.lattice_NEWEST_BUF : Fld := ⟨0x090, 0x048, 16, 16⟩
/-- BACK_HELD, bits [17:17] at 0x048 of page 0x090. -/
def Fd.lattice_BACK_HELD : Fld := ⟨0x090, 0x048, 17, 17⟩
/-- BUILDING, bits [18:18] at 0x048 of page 0x090. -/
def Fd.lattice_BUILDING : Fld := ⟨0x090, 0x048, 18, 18⟩
/-- PUBLISHED, bits [19:19] at 0x048 of page 0x090. -/
def Fd.lattice_PUBLISHED : Fld := ⟨0x090, 0x048, 19, 19⟩
/-- PUBLISH_COUNT, bits [31:0] at 0x04C of page 0x090. -/
def Fd.lattice_PUBLISH_COUNT : Fld := ⟨0x090, 0x04C, 31, 0⟩
/-- BUILD_INVALID_COUNT, bits [31:0] at 0x050 of page 0x090. -/
def Fd.lattice_BUILD_INVALID_COUNT : Fld := ⟨0x090, 0x050, 31, 0⟩
/-- CROWDED_COUNT, bits [31:0] at 0x054 of page 0x090. -/
def Fd.lattice_CROWDED_COUNT : Fld := ⟨0x090, 0x054, 31, 0⟩
/-- BUILD_WAIT_COUNT, bits [31:0] at 0x058 of page 0x090. -/
def Fd.lattice_BUILD_WAIT_COUNT : Fld := ⟨0x090, 0x058, 31, 0⟩
/-- TJ_NOW, bits [7:0] at 0x040 of page 0x0A0. -/
def Fd.mon_TJ_NOW : Fld := ⟨0x0A0, 0x040, 7, 0⟩
/-- TJ_PEAK, bits [15:8] at 0x040 of page 0x0A0. -/
def Fd.mon_TJ_PEAK : Fld := ⟨0x0A0, 0x040, 15, 8⟩
/-- EMERG_ACTIVE, bits [16:16] at 0x040 of page 0x0A0. -/
def Fd.mon_EMERG_ACTIVE : Fld := ⟨0x0A0, 0x040, 16, 16⟩
/-- THERM_EMERG_TJ, bits [7:0] at 0x044 of page 0x0A0. -/
def Fd.mon_THERM_EMERG_TJ : Fld := ⟨0x0A0, 0x044, 7, 0⟩
/-- THERM_EMERG_COUNT, bits [31:0] at 0x048 of page 0x0A0. -/
def Fd.mon_THERM_EMERG_COUNT : Fld := ⟨0x0A0, 0x048, 31, 0⟩
/-- THERM_SENSOR_COUNT, bits [31:0] at 0x04C of page 0x0A0. -/
def Fd.mon_THERM_SENSOR_COUNT : Fld := ⟨0x0A0, 0x04C, 31, 0⟩
/-- SENSOR_TJ, bits [7:0] at 0x050 of page 0x0A0. -/
def Fd.mon_SENSOR_TJ (i : Nat) : Fld := ⟨0x0A0, 0x050 + 0x4 * i, 7, 0⟩
/-- RAIL_MV, bits [15:0] at 0x080 of page 0x0A0. -/
def Fd.mon_RAIL_MV (i : Nat) : Fld := ⟨0x0A0, 0x080 + 0x4 * i, 15, 0⟩
/-- VOLT_FAULT_COUNT, bits [31:0] at 0x0C0 of page 0x0A0. -/
def Fd.mon_VOLT_FAULT_COUNT (i : Nat) : Fld := ⟨0x0A0, 0x0C0 + 0x4 * i, 31, 0⟩

end Sys2Proof.Machine
end

