-- ==== Sys2Proof/Machine/Types.lean ====
section
/-! DEFINITION. The kinds of record that State holds, chapter by chapter: plain data only. -/

namespace Sys2Proof.Machine

/-! ### 02: dockets, Letters and Replies -/

/-- The 128-bit docket of every internal transfer (R38). -/
structure Docket where
  pid : BitVec 4
  stream : BitVec 12
  epoch : W16
  seq : BitVec 24
  postmark : Pm48
  sclass : BitVec 4
  flags : Byte
  check : BitVec 12
  deriving DecidableEq, Repr

/-- A tensor entry of a partition (R257). -/
structure TensorEnt where
  id : Nat
  size : Nat
  addr : Nat
  deriving DecidableEq, Repr

/-- Where an accepted Letter stands: waiting to start, started, or finished with its Reply queued (R103, R125). -/
inductive LPhase where
  | accepted | started | finished
  deriving DecidableEq, Repr

/-- One binding entry of a RUN_PLAN (R211). -/
structure Binding where
  index : Nat
  tensor : Nat
  offset : Nat
  deriving DecidableEq, Repr

/-- How far one operator of a run has come (R62, R203, R592). `skipped` was recorded as not started. -/
inductive OpSt where
  | idle | waiting | running | done | skipped
  deriving DecidableEq, Repr

/-- A started RUN_PLAN (R203, R589-R592). -/
structure RunSt where
  start : Nat
  ops : List OpSt
  starts : List Nat
  written : Nat
  flowFail : Bool
  stop : Bool
  flowSlot : Option Nat
  deriving DecidableEq, Repr

/-- The final outcome a Letter carries to its Reply (R64). -/
structure Result where
  status : Nat
  detail : Nat
  docket : Option Docket
  result : List Byte
  deriving DecidableEq, Repr

/-- An accepted Letter until its final Reply is written (R86, R103). `ord` is its place in acceptance order; `cell` its
Daybook cell, none while DAYBOOK_VOLATILE (R139); `commit` the newest committed state code of its record; `jno` the journal number
of its ACCEPTED version (R339). -/
structure Letter where
  ch : Nat
  op : Nat
  l : LetterIn
  data : List Byte
  pid : Nat
  ord : Nat
  phase : LPhase
  acceptPm : Nat
  startPm : Nat
  finishPm : Nat
  cell : Option Nat
  commit : Nat
  jno : Nat
  binds : List Binding
  run : Option RunSt
  res : Result
  deriving DecidableEq, Repr

/-- The dedupe window state of one sequence (R120), unlisted NONE: IN_FLIGHT; FINISHED, with its Reply in the mirror; FINISHED
by the peer's entry, with its Reply in the peer mirror (R716, R717). -/
inductive WinSt where
  | inFlight | finished | peer
  deriving DecidableEq, Repr

/-- A copied uncredited Letter held before step 4 of admission (R89). -/
structure Held where
  op : Nat
  l : LetterIn
  deriving DecidableEq, Repr

/-- What the Corod keeps of a channel beside its registers: the dedupe window (R118) and the held Letter (R89). -/
structure Chan where
  high : Option Nat
  win : List (Nat × WinSt)
  held : Option Held
  deriving DecidableEq, Repr

/-- A Reply waiting inside the device (R98, R107). `waits` tells that the Reply has a record whose version must commit
first; `final` that it ends its Letter's flight; `credited` that its Letter counts in IN_FLIGHT. -/
structure PendReply where
  ch : Nat
  op : Nat
  seq : Nat
  tag : Nat
  rflags : Nat
  res : Result
  waits : Bool
  final : Bool
  credited : Bool
  strict : Bool
  irq : Bool
  deriving DecidableEq, Repr

/-! ### 03: the Daybook -/

/-- A version of a Daybook record but for its JNO, CRC and COMMIT, which it takes when it is written (R103-R106). -/
structure Version where
  state : Nat
  ch : Nat
  op : Nat
  status : Nat
  seq : Nat
  tag : Nat
  pid : Nat
  sclass : Nat
  stream : Nat
  epoch : Nat
  acceptPm : Nat
  startPm : Nat
  finishPm : Nat
  detail : Nat
  cell : Nat
  strict : Bool
  deriving DecidableEq, Repr

/-- A last-words entry (R138). -/
structure LastWord where
  event : Nat
  epoch : Nat
  addr : Nat
  pm : Nat
  jno : Nat
  deriving DecidableEq, Repr

/-- The Daybook (03): the journal queue and the versions waiting for it (R106, R109), the next journal number, the cell
last given, the volatile records of the mirror (R139), and the last words (R138). `firstJno` is the first journal number of
the present power epoch. -/
structure DaybookSt where
  queue : List Version
  waiting : List Version
  jno : Nat
  firstJno : Nat
  lastCell : Option Nat
  volatileRecs : List (Nat × Nat)
  lastWords : List LastWord
  deriving DecidableEq, Repr

/-! ### 04: time and power -/

/-- One requester's time shadows (R161-R163). -/
structure TimeShadow where
  hi : W32
  sec : W32
  tick : W32
  epoch : W16
  deriving DecidableEq, Repr

/-- Time (04): the postmark counter (R146), its value before the last PM_CLK edge (R341), whether it has started (R147), the power epoch in force (R153), the cycles of
the present slew run (R166), a write delayed past a second roll-over (R168), the time shadows by requester, the HI shadows by
requester and register (R734), and PM_CLK lost (R149). -/
structure TimeSt where
  counter : W64
  prev : W64
  running : Bool
  epoch : W16
  slewRun : Nat
  delayed : Bool
  shadows : List (Nat × TimeShadow)
  hiShadows : List (Nat × W32)
  clkLost : Bool
  deriving DecidableEq, Repr

/-- Where a step change stands (R180-R184): nothing under way; the raised voltage settling before the relock; waiting for
the boundary of R184, or for the next wake (R194); the PLLs relocking; the lowered voltage settling after the relock. -/
inductive StepPhase where
  | idle | raising | ready | relock | lowering
  deriving DecidableEq, Repr

/-- Power (04): idle ticks of each fast domain (R174); the step machine, its target, the voltages before and after, the
postmark its wait ends, the voltage kept since a lowering that the regulator did not confirm (R178, R182); the thermal emergency: active, its forced step, its condition ended, the window of R191, and the
postmark since which the temperature has stayed at or below the exit temperature (R188); consecutive samples above 135 °C
(R601), whether TJ_PEAK holds a sample, the consecutive samples in which each sensor pair differed (R600), and when the last relock
ended (R597). -/
structure PowerSt where
  idle : List Nat
  phase : StepPhase
  target : Nat
  oldMv : Nat
  newMv : Nat
  waitEnd : Nat
  heldMv : Option Nat
  emerg : Bool
  forced : Nat
  emergOver : Bool
  window : Bool
  coolSince : Option Nat
  hotSamples : Nat
  peakSet : Bool
  pairSamples : List Nat
  relockEnd : Nat
  deriving DecidableEq, Repr

/-! ### 05: plans -/

/-- An INTERNAL tensor of a run: its content, its docket, and whether it is derived from a camera frame (R46). -/
structure Inner where
  data : List Byte
  docket : Docket
  derived : Bool
  deriving DecidableEq, Repr

/-- A loaded plan (R205-R210): its container, its CRC, its owner, whether it is unfit, the flow slot it holds (R590), the units
LOAD_PLAN fixed for each operator (R349), and its INTERNAL tensors in the present run. -/
structure PlanSt where
  words : List W32
  crc : Nat
  owner : Nat
  unfit : Bool
  flowSlot : Option Nat
  units : List (List Nat)
  inner : List (Nat × Inner)
  deriving DecidableEq, Repr

/-- Where a published frame stands (R372): port times four plus filter, its slot, the slot's address and size, and the
filter's WIDTH, HEIGHT and data type. -/
structure FrameRef where
  filter : Nat
  slot : Nat
  address : Nat
  size : Nat
  width : Nat
  height : Nat
  dt : Nat
  deriving DecidableEq, Repr

/-- An item published on a stream (R201): its bytes, its docket, the postmark of publication, and whether it is derived from a
camera frame (R46); a camera frame's bytes stand in its slot. -/
structure StreamPub where
  data : List Byte
  docket : Docket
  pm : Nat
  frame : Option FrameRef
  derived : Bool
  deriving DecidableEq, Repr

/-- The newest item of a stream (R201), and beside it the newest of those published before its tick, which a Strict operator
that starts in that tick reads (R353). -/
structure StreamItem extends StreamPub where
  before : Option StreamPub
  deriving DecidableEq, Repr

/-! ### 06: memory and partitions -/

/-- The state of a stored 64-bit word whose check bits are not clean: one bit is wrong (R226); the word cannot be trusted (R228), or,
in LPDDR5X, its check bits are those of another device address (R232); poison (R229). -/
inductive EccSt where
  | corr | uncorr | poison
  deriving DecidableEq, Repr

/-- The tables of a partition beside its page (R257): tensors, stream classes (stream, latest-wins), and the change under
way (R262): the Letter that carries it and its block. -/
structure PartSt where
  tensors : List TensorEnt
  streams : List (Nat × Bool)
  pending : Option (Nat × Nat)
  deriving DecidableEq, Repr

/-- A BAR2 access that waits for LPDDR5X (R244, R248): its function, its offset, its length, and the data of a write. -/
structure HostAccess where
  fn : Nat
  off : Nat
  len : Nat
  data : Option (List Byte)
  deriving DecidableEq, Repr

/-- A line of the Beam cache (R250-R253, R767): `poison` and `ecc` by word of the line. The cache is a list, most recently used
first. -/
structure CacheLine where
  set : Nat
  way : Nat
  pid : Nat
  addr : Nat
  data : List Byte
  poison : List Nat
  ecc : List (Nat × EccSt)
  dirty : Bool
  deriving DecidableEq, Repr

/-! ### 08: tasks, joiner cores and the scheduler -/

/-- A task (R338): one operator of a run, or one direct SWEEP, SELECT or SOLVE Letter. `ins` and `inData` are the dockets
and contents of its inputs as read at its start (R201), `flags` docket flag bits set by events during it, `outs` the
contents its engine has formed, `fins` those of the input dockets that are derived from camera frames (R46), `hold` the lattice buffer a sweep holds, `epochSel` the epoch a sweep waits for, `frames` the camera frames it holds (R373), `stage` the pieces of the Beam
store, as address and size, in which a macro-operation stages its L2 tiles (R301). -/
structure Task where
  id : Nat
  ch : Nat
  seq : Nat
  pid : Nat
  op : Nat
  code : Nat
  kind : UnitKind
  level : Nat
  sclass : Nat
  strict : Bool
  enter : Nat
  disp : Option Nat
  budgetEnd : Nat
  units : List Nat
  ins : List Docket
  fins : List Docket
  inData : List (List Byte)
  flags : Nat
  outs : List (List Byte)
  computed : Bool
  res : Result
  hold : Option Nat
  epochSel : Option Nat
  frames : List FrameRef
  stage : List (Nat × Nat)
  deriving DecidableEq, Repr

/-- A tile-queue transfer (R331, R332): source, destination, row bytes, rows, strides, and its outcome once done. -/
structure Tile where
  src : Nat
  dst : Nat
  rowBytes : Nat
  rows : Nat
  srcStride : Nat
  dstStride : Nat
  done : Option Nat
  deriving DecidableEq, Repr

/-- A joiner core (R316-R333): its task, registers, pc, CSRs, tile queues, a TQ.POP that waits (queue, destination
register, postmark it began), the output ports DK.INV has marked, the address an LR has reserved, and the window addresses of
the task's ports that lie in no device memory (port, address), the docket bits of its twelve ports, the words of those ports'
windows that hold poisoned data (port, word; R332), and whether it runs in machine mode (R317). Its local store lies in device
memory, its routine ROM in `Config.routineRom`. -/
structure CoreSt where
  task : Option Nat
  x : List W64
  f : List W64
  pc : W64
  csr : List (Nat × W64)
  tq : List (List Tile)
  pop : Option (Nat × Nat × Nat)
  inv : List Nat
  resv : Option Nat
  ports : List (Nat × Nat)
  dks : List Nat
  pois : List (Nat × Nat)
  machine : Bool
  deriving DecidableEq, Repr

/-- The scheduler (08): the timetable shadow by word, the active timetable and one validated but not yet in effect, with
the tick of its validation (R344), the
postmark the present major frame began, the tasks, the next task number, the PID served next at each level (R354), the observables by index (R360), and the unit-pt of the present load window. -/
structure SchedSt where
  shadow : List (Nat × W32)
  active : List W32
  valid : Option (List W32 × Nat)
  frameStart : Nat
  tasks : List Task
  nextId : Nat
  rr : List (Nat × Nat)
  obs : List (Nat × W32)
  load : List (Nat × Nat)
  deriving DecidableEq, Repr

/-- LPDDR5X refresh (R234-R238): the owed count, negative when pulled in; the postmark up to which it is accounted and the
remainder in pt times the MR4 multiple; the next word of the patrol scrub; and the postmark up to which a REFRESH slot's commands
already fill it (R237). -/
structure RefreshSt where
  owed : Int
  last : Nat
  acc : Nat
  patrol : Nat
  busyTo : Nat
  deriving DecidableEq, Repr

/-! ### 09: camera intake -/

/-- A frame being received, or received and waiting for its postcard (R373-R384): the Frame Start's number and postmark, its
slot, the image lines so far, the CRC register over them, the tag lines seen and the first bytes of the last, whether its structure
is broken or a write of it was blocked, and whether it is discarded already. -/
structure FrameSt where
  fnum : Nat
  pm : Nat
  slot : Nat
  lines : Nat
  crc : Nat
  tags : Nat
  tag : List Byte
  broken : Bool
  dead : Bool
  deriving DecidableEq, Repr

/-- What the packets now arriving at a filter belong to: no frame; a frame that began with the last Frame Start; or one that is
discarded already (R392, R393, R375). -/
inductive Arrival where
  | idle
  | frame
  | dropped
  deriving DecidableEq, Repr

/-- What waits in a port's line FIFO for a filter (R375, R386): a Frame Start with its number and its postmark, an image line, a tag
line, a packet that breaks the frame's structure (R378), the Frame End with its number. -/
inductive FifoItem where
  | start (filter fnum pm : Nat)
  | line (filter : Nat) (payload : List Byte)
  | tag (filter : Nat) (payload : List Byte)
  | broken (filter : Nat)
  | stop (filter fnum : Nat)
  deriving DecidableEq, Repr

/-- A filter (R369-R386): the frame being written, the one whose postcard is due, REF, FROZEN_RUN and the IMAGE_CRC of the
last frame published, the newest slot and whether an operator took it, the order in which each slot was last published, the
frames published since F_ENABLE, and what the packets now arriving belong to. -/
structure FilterSt where
  cur : Option FrameSt
  due : Option FrameSt
  ref : Option Nat
  frozenRun : Nat
  lastCrc : Option Nat
  newest : Option Nat
  taken : Bool
  order : List Nat
  count : Nat
  arr : Arrival
  deriving DecidableEq, Repr

/-! ### 10: the World Lattice -/

/-- Where a world build comes from: a WORLD_UPDATE Letter, or a WORLD_BUILD task. -/
inductive BuildSrc where
  | letter (ch seq : Nat)
  | task (id : Nat)
  deriving DecidableEq, Repr

/-- The World Lattice (R398-R413): builds that wait for the back buffer, in order of request; the build that owns it; epochs
published since LAT_EN was set; and the docket of the newest. -/
structure LatticeSt where
  queue : List BuildSrc
  active : Option BuildSrc
  seq : Nat
  newest : Option Docket
  deriving DecidableEq, Repr

/-! ### 13: Courier -/

/-- What a CTRL flit says (R507, R526-R545). -/
inductive CtrlBody where
  | contrib (desc : CollDesc) (start : Nat)
  | vote (start : Nat) (aligned : Bool)
  | decide (commit : Bool) (detail : Nat)
  | abortReq (station : Nat)
  | heartbeat (epoch safe world jno : Nat)
  | desync
  | resync (word : Nat)
  | resyncAck
  | resyncDone
  deriving DecidableEq, Repr

/-- A CTRL message: where it comes from and goes to, its group and COLL_SEQ, and what it says. -/
structure CtrlMsg where
  src : Nat
  dst : Nat
  group : Nat
  collSeq : Nat
  body : CtrlBody
  deriving DecidableEq, Repr

/-- The sequence state toward one neighbour (R509-R514): the next SEQ sent, the replay buffer, messages that wait for room in
it, E, the E for which a NAK has been sent, rewinds in a row without progress, and the postmark of the last progress. -/
structure BundleSt where
  nextSeq : Nat
  buf : List (Nat × CtrlMsg)
  wait : List CtrlMsg
  expect : Nat
  nakFor : Option Nat
  rewinds : Nat
  progress : Nat
  deriving DecidableEq, Repr

/-- A collective under way at this station (R524-R533): its task, COLL_SEQ, what its CONTRIB says, its start postmark, the
votes of its children, whether its result is staged and its own vote sent, and the stations that ABORT_REQ flits named. -/
structure CollSt where
  task : Nat
  seq : Nat
  desc : CollDesc
  start : Nat
  votes : List (Nat × Nat × Bool)
  staged : Bool
  voted : Bool
  aborts : List Nat
  deriving DecidableEq, Repr

/-- A group (R524, R543, R544): the next COLL_SEQ, the collectives under way, messages of collectives this station has not
started yet (COLL_SEQ, source, content), and whether a resynchronisation is under way. -/
structure GroupSt where
  nextSeq : Nat
  active : List CollSt
  early : List (Nat × Nat × CtrlBody)
  resync : Bool
  deriving DecidableEq, Repr

/-- Postmark alignment (R539-R542): by link, exchanges counted, and the sums of twice the offset and twice the delay in 1/64 pt;
whether the adjustment has been made; the residual hop offset it leaves; and the postmark of the last drift check. -/
structure AlignSt where
  sums : List (Nat × Int × Int)
  measured : Bool
  residual : Int
  lastCheck : Nat
  deriving DecidableEq, Repr

/-- The Courier (13): by link the postmark of the last good flit and the earliest next training, by bundle its sequence state,
the groups, and the alignment. -/
structure CourierSt where
  lastGood : List Nat
  nextTrain : List Nat
  bundles : List BundleSt
  groups : List GroupSt
  align : AlignSt
  deriving DecidableEq, Repr

/-! ### 15, 16: faults -/

/-- A fault on its way to, or in, the Safety Island (R575). `flags` are the LFLAGS. `sev` settles the reaction where it does not
follow from the class and SCLASS alone: 0 by class, 1 D, 2 A, 3 log only (R605, R624). `also` is the page of a second unit
that the fault counts against, 0 for none (R579). -/
structure FaultRec where
  cls : Nat
  sclass : Nat
  pid : Nat
  flags : Nat
  source : Nat
  detail : Nat
  pm : Nat
  sev : Nat
  also : Nat
  deriving DecidableEq, Repr

/-- A sweep summary as published (R425, R642): its 32 bytes, its docket, the postmark of publication, and its age limit. -/
structure Summary where
  data : List Byte
  docket : Docket
  release : Nat
  limit : Nat
  deriving DecidableEq, Repr

/-- The Safety Island (15, 16): faults on the fault bus (R574), the fault log by entry (R575), the page of each checked unit
with the postmarks of its counted faults (R579), the corrected errors of each source in the present window (R578), the
watchdog, with the window in force (R593, R749), each watch's last good publication or latest expiry (R587), the configuration
bits that upsets have changed, by register offset × 32 + bit, with the value each upset gave (R595), and what the Leave conditions of R624 need: last postmark of a class's condition, good
kicks since WATCHDOG, a clean walk since CONFIG_SIG, watches with an open gap cause, units with an open LATENT_OVERDUE
cause; the PWR_KILL_N due time (R621), the B class, the last diagnostic frame of each class and source (R644), the last
half-period of SAFE_HB (R637), the flow slots in use (R590), the newest summary of each stream
(R642), and when the next signature walk, comparator injection, fault bus injection, end of an ECC_CORR_RATE window, thermal sample
and clock monitor window are due (R595, R610, R578, R600, R597). -/
structure SafetySt where
  bus : List FaultRec
  log : List (Nat × FaultRec)
  logCount : Nat
  suspect : List (Nat × List Nat)
  corr : List (Nat × Nat)
  wdgArmed : Bool
  wdgLast : Nat
  wdgMin : Nat
  wdgMax : Nat
  watchLast : List Nat
  watchSclass : List (Nat × Nat)
  flips : List (Nat × Bool)
  condLast : List (Nat × Nat)
  goodKicks : Nat
  walkClean : Bool
  gapOpen : List Nat
  latentOpen : List Nat
  killDue : Option Nat
  bClass : Nat
  diagLast : List (Nat × Nat)
  flow : List (Option Nat)
  nonInjected : Nat
  hbLast : Nat
  summaries : List (Nat × Summary)
  nextWalk : Nat
  nextInject : Nat
  nextBus : Nat
  corrNext : Nat
  sampleNext : Nat
  clockNext : Nat
  deriving DecidableEq, Repr

/-- A diagnostic frame in a controller's queue (R644), but for ALIVE and CRC, which it takes when its transmission begins. -/
structure DiagFrame where
  cls : Nat
  bytes : List Byte
  deriving DecidableEq, Repr

/-- A safety frame as built (R641, R643), but for ALIVE and CRC, which it takes when its transmission begins. -/
structure SafetyFrame where
  bytes : List Byte
  deriving DecidableEq, Repr

/-- A CAN FD controller (16, 19): whether an event of R643 calls for a safety frame, its pending one, when the last was built, its diagnostic queue, the frame
that has begun transmission (whether a safety frame, its bytes), and its mailbox, newest first. -/
structure CanSt where
  due : Bool
  safety : Option SafetyFrame
  lastBuilt : Nat
  diag : List DiagFrame
  bus : Option (Bool × List Byte)
  mailbox : List CanFrame
  deriving DecidableEq, Repr

/-! ### 17: pins, power and start-up -/

/-- What the fuses fix (R1, R178, R703): the grade (0 -AB, 1 -IB), the die number, the VDD_CORE offset in mV below
nominal, and the units mapped out by the fuse map, by kind. -/
structure FuseSt where
  grade : Nat
  die : W64
  voffset : Nat
  mapped : List (Nat × Nat)
  deriving DecidableEq, Repr

/-- One slot of the power epoch in the MRAM configuration area (R153): the value as a triplicated word, and whether the slot is
committed. -/
structure EpochSlot where
  copies : List W16
  committed : Bool
  deriving DecidableEq, Repr

/-- The MRAM configuration area: the two slots of the power epoch (R153), the lock key
(R614), MAPPED_OUT by kind (R703), the regulator address (R661), the topology (R518), the pair fields (R711), the mirror base
(R769), the LPDDR5X rate and capacity codes (19), the QSPI mode (R664), and the boot layout (R763): region bases and sizes and
PID 0's configuration block. -/
structure NvmSt where
  epochs : List EpochSlot
  key : W16
  mapped : List (Nat × Nat)
  regAddr : Nat
  topo : W16
  pairRole : Nat
  autoPromote : Bool
  mirrorBase : Nat
  rate : Nat
  capacity : Nat
  qspi : Nat
  layout : Option (List (Nat × Nat) × List Byte)
  deriving DecidableEq, Repr

/-- The pins as they stand (16 R636, 17 R638, R652, R655): inputs MAIN_PG, SYS_RST_N, PERST_N, SAFE_IN_N, the sampled straps,
the PCIe link, and the outputs SAFE_N, SAFE_HB, PWR_KILL_N. -/
structure PinSt where
  mainPg : Bool
  sysRstN : Bool
  perstN : Bool
  safeInN : Bool
  caddr : BitVec 12
  smb : BitVec 2
  linkUp : Bool
  safeN : Bool
  safeHb : Bool
  pwrKillN : Bool
  deriving DecidableEq, Repr

/-- How far start-up has come (R673, R674): always-on reset complete, power good, Daybook and Ledger scanned, injection
run, boot slot loaded and its image arithmetic revision, LPDDR5X initialised, boot layout installed, READY, boot failed,
hold-up, and whether the CS4 voltage of R663 has been commanded. -/
structure BootSt where
  aon : Bool
  powerGood : Bool
  scanned : Bool
  ledgerScanned : Bool
  injected : Bool
  image : Option Nat
  fwArith : Nat
  dram : Bool
  layout : Bool
  ready : Bool
  failed : Bool
  holdup : Bool
  vcore : Bool
  deriving DecidableEq, Repr

/-! ### 18: the Ledger and sparing -/

/-- A queued Ledger slot (R690-R692): its class, its index, and whether it is an event record. -/
structure LedgerVer where
  cls : Nat
  idx : Nat
  data : List Nat
  event : Bool
  deriving DecidableEq, Repr

/-- The Ledger (18): the always-on values V0-V4 of each record (key class × 256 + index), the last committed values, the
queue, commits that wait for room, the next Ledger number, the count of events written to each ring class, the pt
remainders of the residency counters, and the powered ms of earlier epochs. -/
structure LedgerSt where
  vals : List (Nat × List Nat)
  committed : List (Nat × List Nat)
  queue : List LedgerVer
  waiting : List LedgerVer
  lno : Nat
  rings : List (Nat × Nat)
  ptAcc : List (Nat × Nat)
  baseMs : Nat
  nextPeriodic : Nat
  deriving DecidableEq, Repr

/-- A running rotating test (R606-R612): the unit, the spare standing in, the segments done, whether it is a ROTATE of a unit in
MAPPED_OUT (R709), the postmark it began, and when its latest segment ends (R609). -/
structure TestSt where
  unit : Nat
  spare : Option Nat
  segments : Nat
  returning : Bool
  start : Nat
  segEnd : Nat
  deriving DecidableEq, Repr

/-- Sparing (15, 18): the test under way of each kind, takeovers waiting for a boundary (kind, unit, spare, cause), tests
asked for by ROTATE (kind, unit), when the next test of each kind is due, deferred kinds with the postmark of the retry,
LATENT_OVERDUE raises of a unit since its last pass (key kind × 64 + unit), the Beam banks that raised ECC_CORR_RATE in the
last window (R707), and the bank copy under way (bank, spare, reason; R608). -/
structure SpareSt where
  tests : List (Nat × TestSt)
  takeovers : List (Nat × Nat × Nat × Nat)
  asked : List (Nat × Nat)
  nextTest : List Nat
  deferred : List (Nat × Nat)
  lateRaised : List (Nat × Nat)
  rateRaised : List Nat
  copyFor : Option (Nat × Nat × Nat)
  deriving DecidableEq, Repr

/-- The pair (18 R711-R720, 13 R545-R546): peer entries stream to the standby; the postmark of the latest heartbeat, none
before the first; the peer's power epoch; PEER_LOST; the postmark from which the absence of heartbeats counts; when the next
heartbeat is due; and the peer entries stored (channel, sequence), newest arrival last. -/
structure PairSt where
  streaming : Bool
  lastHb : Option Nat
  peerEpoch : Option Nat
  lost : Bool
  since : Nat
  nextSend : Nat
  entries : List (Nat × Nat)
  deriving DecidableEq, Repr

/-! ### What the Corod sends out -/

/-- A message the Corod has sent. -/
inductive Out where
  /-- An MSI-X message of a function (R69, R729). -/
  | msix (fn vec : Nat)
  /-- A VDD_CORE command over PMBus, in mV (R178). -/
  | pmbus (mv : Nat)
  /-- A Courier flit on a link. -/
  | flit (link : Nat) (bytes : List Byte)
  /-- A numbered CTRL flit on a link: its SEQ, the ACK it carries, and its message. -/
  | ctrl (link seq ack : Nat) (msg : CtrlMsg)
  /-- A mirror entry of a masked channel to the standby (R713): channel, sequence, 128 bytes. -/
  | mirror (ch seq : Nat) (bytes : List Byte)
  /-- A CAN frame on a controller. -/
  | can (n ident : Nat) (bytes : List Byte)
  /-- A completion of a host read: its data, and whether it is poisoned (R272). -/
  | pcie (fn : Nat) (poisoned : Bool) (bytes : List Byte)
  /-- A PCIe configuration request answered with configuration retry status (R675). -/
  | retryStatus (fn : Nat)
  /-- What the test access port shifts out (R667). -/
  | tdo (v : Nat)
  /-- An SMBus answer; an empty list is a NACK. -/
  | smbus (bytes : List Byte)
  deriving DecidableEq, Repr

end Sys2Proof.Machine
end

