-- ==== Sys2Proof/Machine/State.lean ====
section
/-! DEFINITION. The state of the Corod as plain data, the reasons a command can stop, and the state after reset. -/

namespace Sys2Proof.Machine

/-- Why a command faults. No command of this model ends in a fault: every error the spec describes is a next state. -/
inductive Fault where
  /-- Raised by no command; kept because a machine names its faults. Safe. -/
  | none
  deriving DecidableEq, Repr

/-- Why a command is refused. -/
inductive Refusal where
  /-- Raised by an arm of `exec` whose meaning is not written yet. Safe. -/
  | notModelled (mnemonic : String)
  deriving DecidableEq, Repr

structure State where
  pending : List Instr
  regs : List (Nat × W32)
  mem : List Host.Cell
  ecc : List (Nat × EccSt)
  host : List Host.Cell
  time : TimeSt
  power : PowerSt
  chans : List Chan
  letters : List Letter
  replies : List PendReply
  daybook : DaybookSt
  plans : List (Nat × PlanSt)
  parts : List PartSt
  cache : List CacheLine
  scrub : List (Nat × Nat)
  refresh : RefreshSt
  bar2 : List HostAccess
  parity : List Nat
  streams : List (Nat × StreamItem)
  streamSeq : List (Nat × Nat)
  tensorDk : List (Nat × (Docket × Bool))
  filters : List FilterSt
  fifos : List (List FifoItem)
  lattice : LatticeSt
  sched : SchedSt
  cores : List CoreSt
  courier : CourierSt
  safety : SafetySt
  can : List CanSt
  fuses : FuseSt
  nvm : NvmSt
  pins : PinSt
  boot : BootSt
  ledger : LedgerSt
  spare : SpareSt
  pair : PairSt
  lwIndex : Nat
  tapIr : TapInstr
  lostFns : List Nat
  outbox : List Out
  completion : List Byte
  round : List Nat
  firstRound : Bool
  ord : Nat
  freeCount : Nat
  deriving DecidableEq, Repr

/-- A joiner core that holds no task, in machine mode (R317); its registers hold 0, which the spec leaves open (log entry 5). -/
def CoreSt.reset : CoreSt :=
  ⟨none, List.replicate 32 0, List.replicate 32 0, 0, [], [[], [], [], []], none, [], none, [], [], [], true⟩

/-- A bundle after its sequence state has been reset (R514). -/
def BundleSt.reset : BundleSt := ⟨0, [], [], 0, none, 0, 0⟩

/-- A group that has started no collective. -/
def GroupSt.reset : GroupSt := ⟨0, [], [], false⟩

/-- The Corod right after the always-on reset: every register at the value its table gives, every RAM and journal as R604
and R113 give them, and what the fuses and the MRAM configuration area hold (log entry 3). -/
def State.reset : State :=
  { pending := [], regs := [], mem := [], ecc := [], host := []
    time := ⟨0, 0, false, 0, 0, false, [], [], false⟩
    power := ⟨[0, 0, 0, 0], .idle, 4, 750, 750, 0, none, false, 0, false, false, none, 0, false, [0, 0, 0, 0, 0, 0], 0⟩
    chans := List.replicate 64 ⟨none, [], none⟩
    letters := [], replies := []
    daybook := ⟨[], [], 0, 0, none, [], []⟩
    plans := []
    parts := List.replicate 16 ⟨[], [], none⟩
    cache := [], scrub := []
    refresh := ⟨0, 0, 0, 0, 0⟩
    bar2 := [], parity := []
    streams := [], streamSeq := [], tensorDk := []
    filters := List.replicate 32 ⟨none, none, none, 0, none, none, false, List.replicate 8 0, 0, .idle⟩
    fifos := List.replicate 8 []
    lattice := ⟨[], none, 0, none⟩
    sched := ⟨[], [], none, 0, [], 0, [], [], []⟩
    cores := List.replicate 34 CoreSt.reset
    courier := ⟨List.replicate 6 0, (List.range 6).map fun n => 2450000 + 250000 * n, List.replicate 6 BundleSt.reset,
      List.replicate 16 GroupSt.reset, ⟨List.replicate 6 (0, 0, 0), false, 0, 0⟩⟩
    safety := ⟨[], [], 0, [], [], false, 0, 250, 25000, List.replicate 16 0, [], [], [], 0, false, [], [], none, 0, [],
      List.replicate 32 none, 0, 0, [], 0, 0, 0, 25000000, 250, 250⟩
    can := [⟨false, none, 0, [], none, []⟩, ⟨false, none, 0, [], none, []⟩]
    fuses := ⟨0, 0, 0, []⟩
    nvm := ⟨[⟨[0, 0, 0], true⟩, ⟨[0, 0, 0], false⟩], 0, [], 0x40, 0, 0, false, 0, 0, 0, 0, none⟩
    pins := ⟨false, false, false, true, 0, 0, false, false, false, true⟩
    boot := ⟨false, false, false, false, false, none, 0, false, false, false, false, false, false⟩
    ledger := ⟨[], [], [], [], 0, [], [], 0, 1500000000⟩
    spare := ⟨[], [], [], List.replicate 6 0, [], [], [], none⟩
    pair := ⟨false, none, none, false, 0, 0, []⟩
    lwIndex := 0, tapIr := .idcode, lostFns := [], outbox := [], completion := [], round := [], firstRound := true
    ord := 0, freeCount := 0 }

end Sys2Proof.Machine
end

