-- ==== Sys2Proof/Machine/Regs.lean ====
section
/-! DEFINITION. The register file: reading and writing fields, setting EVENT bits, reporting faults, and who a requester
is (19 R723-R744, 06 R267-R268, 15 R574). -/

namespace Sys2Proof.Machine

/-! ### Pages -/

/-- The blocks that hold a page, each with the page's instance. -/
def blocksOf (page : Nat) : List (RegBlock × Nat) :=
  (regBlocks.filter fun b => b.first ≤ page && page < b.first + b.count).map fun b => (b, page - b.first)

/-- Whether the directory lists a page (R748). -/
def pagePresent (page : Nat) : Bool := regBlocks.any fun b => b.first ≤ page && page < b.first + b.count

/-- The first page index of a page's block (R726). -/
def blockFirst (page : Nat) : Nat :=
  if 0x080 ≤ page && page ≤ 0x083 then 0x080 else ((blocksOf page).map fun b => b.1.first).headD 0

/-- OWNABLE (R733): page 0x0A0 alone. -/
def ownable (page : Nat) : Bool := page == 0x0A0

/-- SEALABLE (R745): every page but the directory, identity, host interface, Daybook and Ledger pages. -/
def sealable (page : Nat) : Bool := !([0x000, 0x001, 0x006, 0x007, 0x008, 0x009, 0x00A, 0x00B].contains page)

/-- TABLES (R761). -/
def hasTables (page : Nat) : Bool :=
  [0x004, 0x008, 0x009, 0x00A, 0x00B, 0x010, 0x058, 0x081].contains page || (0x060 ≤ page && page < 0x070)

/-- OWNER_PID at reset (R748): partition page 0x060 + p is p's, every other PID 0's. -/
def ownerReset (page : Nat) : Nat := if 0x060 ≤ page && page < 0x070 then page - 0x060 else 0

/-- Whether a row holds the word at an offset, and at which array index. -/
def rowIndex (r : RegRow) (off : Nat) : Option Nat :=
  if r.n ≤ 1 then if off = r.off then some 0 else none
  else if r.off ≤ off && (off - r.off) % r.stride == 0 && (off - r.off) / r.stride < r.n then
    some ((off - r.off) / r.stride)
  else none

/-- The fields of the word at a page's offset, each with its page instance and array index. Offsets below 0x040 are the
common header (R726). -/
def rowsAt (page off : Nat) : List (RegRow × Nat × Nat) :=
  if off < 0x040 then headerRows.filterMap fun r => (rowIndex r off).map fun i => (r, 0, i)
  else (blocksOf page).flatMap fun b => b.1.rows.filterMap fun r => (rowIndex r off).map fun i => (r, b.2, i)

/-- The offset of a row's last word. -/
def rowLast (r : RegRow) : Nat := r.off + r.stride * (r.n - 1)

/-- LAST_OFFSET (R726): the offset of the highest block register. -/
def lastOffset (page : Nat) : Nat :=
  (blocksOf page).foldl (fun a b => b.1.rows.foldl (fun a r => max a (rowLast r)) a) 0

/-- The header words a page fixes (R726). -/
def headerWord (page off : Nat) : Option Nat :=
  if off = 0x000 then
    some (page + blockFirst page % 256 * 2 ^ 12 + (page - blockFirst page) * 2 ^ 20 + 2 ^ 28)
  else if off = 0x004 then
    some (b2n (ownable page) + b2n (sealable page) * 2 + b2n (hasTables page) * 4 + lastOffset page * 2 ^ 16)
  else if off = 0x030 then some (ownerReset page)
  else none

/-- The reset value of a register word: the value its table gives (19). -/
def regReset (page off : Nat) : Nat :=
  if pagePresent page then
    match headerWord page off with
    | some v => v
    | none => (rowsAt page off).foldl (fun a r => a + r.1.reset r.2.1 r.2.2 * 2 ^ r.1.lo) 0
  else 0

/-! ### Words and fields -/

/-- The key of a register word. -/
def regKey (page off : Nat) : Nat := page * 4096 + off

/-- The value a register word holds. -/
def regGet (s : State) (page off : Nat) : Nat :=
  (mapGet (BitVec.ofNat 32 (regReset page off)) s.regs (regKey page off)).toNat

/-- Give a register word a value. -/
def regPut (s : State) (page off v : Nat) : State :=
  { s with regs := mapPut (BitVec.ofNat 32 (regReset page off)) s.regs (regKey page off) (BitVec.ofNat 32 v) }

/-- The value of a field. -/
def fget (s : State) (f : Fld) : Nat := bits (regGet s f.page f.off) f.hi f.lo

/-- Give a field a value. -/
def fput (s : State) (f : Fld) (v : Nat) : State :=
  regPut s f.page f.off (setBits (regGet s f.page f.off) f.hi f.lo v)

/-- Add to a counter field, modulo its width (R737). -/
def fadd (s : State) (f : Fld) (k : Nat) : State := fput s f (fget s f + k)

/-- Give each of several fields a value, in order. -/
def fputs (s : State) (l : List (Fld × Nat)) : State := l.foldl (fun s p => fput s p.1 p.2) s

/-- A 64-bit value held as a LO and a HI register. -/
def fget64 (s : State) (lo hi : Fld) : Nat :=
  fget s lo * 2 ^ lo.lo + fget s hi * 2 ^ 32

/-- The postmark counter (R146). -/
def now (s : State) : Nat := s.time.counter.toNat

/-- The low 48 bits of the postmark, as dockets and records hold it (R38). -/
def now48 (s : State) : Nat := now s % 2 ^ 48

/-! ### Functions, partitions and requesters -/

/-- REGIME of a partition: 0 off, 1 Strict, 2 Loose (R245). -/
def regimeOf (s : State) (p : Nat) : Nat := fget s (Fd.part_REGIME p)

/-- Whether a partition is enabled. -/
def enabledPid (s : State) (p : Nat) : Bool := regimeOf s p != 0

/-- Whether a partition is Strict. -/
def strictPid (s : State) (p : Nat) : Bool := regimeOf s p == 1

/-- Whether any Strict partition is enabled. -/
def anyStrict (s : State) : Bool := (List.range 16).any (strictPid s)

/-- The lowest set bit of a number below a bound. -/
def lowestBit (v n : Nat) : Option Nat := (List.range n).find? (bit v)

/-- The owning function of a partition (R729, R766): the physical function for PID 0 and for an empty VF_MASK, else the
lowest-numbered virtual function of its VF_MASK. -/
def ownerFn (s : State) (p : Nat) : Nat :=
  if p = 0 then 0
  else match lowestBit (fget s (Fd.part_VF_MASK p)) 15 with
    | some v => v + 1
    | none => 0

/-! The entries that carry parity (R274), by number: owners of logical banks from 0, of DRAM regions from 32, of functions from 96,
of channels from 128, and OWNER_PID of pages from 2^12. `State.parity` lists those whose parity is wrong. -/

/-- Whether an entry has a parity error. -/
def badEntry (s : State) (k : Nat) : Bool := s.parity.contains k

/-- The page whose configuration an entry belongs to (R731; log entry 215). -/
def entryPage (k : Nat) : Nat :=
  if k < 32 then 0x084 else if k < 96 then 0x081 else if k < 128 then 0x008 else if k < 2 ^ 12 then 0x008 + (k - 128) / 16
  else k - 2 ^ 12

/-- The partition that a virtual function belongs to (R267): the physical function is PID 0's. A mapping with a parity error blocks
the function (R274). -/
def pidOfFn (s : State) (f : Nat) : Option Nat :=
  if f = 0 then some 0
  else if badEntry s (96 + f) then none
  else (List.range 16).find? fun p => enabledPid s p && bit (fget s (Fd.part_VF_MASK p)) (f - 1)

/-- The task of a number. -/
def taskOf (s : State) (id : Nat) : Option Task := s.sched.tasks.find? fun t => t.id == id

/-- Change every task. -/
def mapTasks (s : State) (f : Task → Task) : State :=
  { s with sched := { s.sched with tasks := s.sched.tasks.map f } }

/-- The logical pair a physical core serves, 0xF for none (R318). -/
def logicalPair (s : State) (c : Nat) : Nat := fget s (Fd.joiner_LOGICAL (c / 2))

/-- The PID of a joiner core: its task's, or PID 0 on logical pair 0, where firmware runs (R267, R318). -/
def pidOfCore (s : State) (c : Nat) : Option Nat :=
  match (s.cores[c]?).bind (·.task) with
  | some id => (taskOf s id).map (·.pid)
  | none => if logicalPair s c = 0 then some 0 else none

/-- The PID of a requester (R267); none for a virtual function that no partition names. -/
def pidOf (s : State) : Requester → Option Nat
  | .fn f => pidOfFn s f
  | .core c => pidOfCore s c

/-- The SCLASS a requester's report carries (R270): a task's; 0xF for firmware and for PCIe accesses, which carry no docket
(log entry 20). -/
def sclassOf (s : State) : Requester → Nat
  | .fn _ => 0xF
  | .core c => match ((s.cores[c]?).bind (·.task)).bind (taskOf s) with
    | some t => t.sclass
    | none => 0xF

/-- A number for each requester, for its shadows (R163). -/
def reqNo : Requester → Nat
  | .fn f => f
  | .core c => 16 + c

/-! ### Messages, events and faults -/

/-- Send a message. -/
def send (s : State) (m : Out) : State := { s with outbox := s.outbox ++ [m] }

/-- Send an MSI-X message of a function; after a loss its traffic is dropped (R680). -/
def sendMsix (s : State) (fn vec : Nat) : State :=
  if s.lostFns.contains fn || !s.pins.linkUp then s else send s (.msix fn vec)

/-- EVENT AND EVENT_EN of a page (R726). -/
def pendingBits (s : State) (page : Nat) : Nat := fget s (Fd.hdr_EVENT page) &&& fget s (Fd.hdr_EVENT_EN page)

/-- The page interrupt by MSI-X, when enabled (R729). -/
def pageIrq (s : State) (page : Nat) : State :=
  if fget s (Fd.hdr_EVT_IRQ_EN page) = 1 then
    sendMsix s (ownerFn s (fget s (Fd.hdr_OWNER_PID page))) (fget s (Fd.hdr_EVT_VEC page))
  else s

/-- Set one EVENT bit: EVENT_COUNT rises whether or not it was set, LAST_EVENT_PM takes the postmark (R727), and the page
interrupt is sent when EVENT AND EVENT_EN turns non-zero (R729). -/
def setEvent (s : State) (page b : Nat) : State :=
  let before := pendingBits s page
  let s := fput s (Fd.hdr_EVENT page) (fget s (Fd.hdr_EVENT page) ||| 2 ^ b)
  let s := fadd s (Fd.hdr_EVENT_COUNT page) 1
  let s := fput s (Fd.hdr_LAST_EVENT_PM_LO page) (now s % 2 ^ 32)
  let s := fput s (Fd.hdr_LAST_EVENT_PM_HI page) (now s / 2 ^ 32)
  if before = 0 && pendingBits s page != 0 then pageIrq s page else s

/-- A refused write sets BAD_VALUE (R741). -/
def badValue (s : State) (page : Nat) : State := setEvent s page 0

/-- Count a write under R742: RSVD_WRITE_COUNT, RSVD_WRITE, and LAST_RSVD_OFFSET of the directory page. -/
def countRsvd (s : State) (page off : Nat) (counted : Nat) : State :=
  let s := fadd s (Fd.hdr_RSVD_WRITE_COUNT counted) 1
  let s := setEvent s counted 1
  fput s Fd.directory_LAST_RSVD_OFFSET (page * 4096 + off)

/-- A corrected error of a block's storage (R731). -/
def errCorr (s : State) (page : Nat) : State := setEvent (fadd s (Fd.hdr_ERR_CORR_COUNT page) 1) page 2

/-- An uncorrectable error of a block's storage, or a docket check failure at its inputs (R731). -/
def errUncorr (s : State) (page : Nat) : State := setEvent (fadd s (Fd.hdr_ERR_UNCORR_COUNT page) 1) page 3

/-- Put a fault on the fault bus (R574). -/
def raiseWith (s : State) (cls source sclass pid flags detail : Nat) : State :=
  { s with safety := { s.safety with bus := s.safety.bus ++
      [⟨cls, sclass, pid, flags, source, detail % 2 ^ 16, now s, 0, 0⟩] } }

/-- Put a fault whose reaction is settled, or that counts against a second unit, on the fault bus (R574). -/
def raiseAs (s : State) (cls source sclass pid flags detail sev also : Nat) : State :=
  { s with safety := { s.safety with bus := s.safety.bus ++
      [⟨cls, sclass, pid, flags, source, detail % 2 ^ 16, now s, sev, also⟩] } }

/-- Put a fault with no LFLAGS on the fault bus (R574). -/
def raise (s : State) (cls source sclass pid detail : Nat) : State := raiseWith s cls source sclass pid 0 detail

/-! ### The firewall on register accesses -/

/-- The channel whose register block holds an offset of a host interface page (R48). -/
def channelAt (page off : Nat) : Option Nat :=
  if 0x008 ≤ page && page ≤ 0x00B && 0x040 ≤ off && off < 0x440 then
    some ((page - 0x008) * 16 + (off - 0x040) / 0x40)
  else none

/-- The function whose BAR2_BASE register an offset is part of (R243). -/
def bar2FnAt (page off : Nat) : Option Nat :=
  if page = 0x008 && 0x840 ≤ off && off < 0x8C0 then some ((off - 0x840) / 8) else none

/-- The entry that an access of a partition to a register word is checked against (R268, R274). -/
def regEntry (page off : Nat) : Nat :=
  match channelAt page off with
  | some ch => 128 + ch
  | none => match bar2FnAt page off with
    | some f => 96 + f
    | none => 2 ^ 12 + page

/-- Whether the firewall lets a PID reach a register word (R268, R274, R744). -/
def regPermitted (s : State) (pid page off : Nat) : Bool :=
  if pid = 0 then true
  else if !pagePresent page || badEntry s (regEntry page off) then false
  else match channelAt page off with
    | some ch => fget s (Fd.chan_PID ch) == pid
    | none => match bar2FnAt page off with
      | some f => f != 0 && bit (fget s (Fd.part_VF_MASK pid)) (f - 1)
      | none =>
        fget s (Fd.hdr_OWNER_PID page) == pid && !((rowsAt page off).any fun r => r.1.pid0)

/-- Count the parity errors that a blocked access met, each in the page it belongs to (R274, R731). -/
def noteParity (s : State) (ks : List Nat) : State := (ks.filter (badEntry s)).foldl (fun s k => errUncorr s (entryPage k)) s

/-- The entries that a requester's access to a register word is checked against. -/
def regEntries (s : State) (q : Requester) (page off : Nat) : List Nat :=
  match q, pidOf s q with
  | .fn f, none => [96 + f.val]
  | _, some 0 => []
  | _, _ => [regEntry page off]

/-- A blocked access (R270, R271): the count and the FIREWALL event of the requester's partition page, and the report. A
requester with no PID has no partition page (log entry 20). -/
def blockedAccess (s : State) (pid : Option Nat) (sclass : Nat) (write : Bool) : State :=
  match pid with
  | some p =>
    let s := fadd s (if write then Fd.part_FW_WRITE_BLOCKED p else Fd.part_FW_READ_BLOCKED p) 1
    let s := setEvent s (0x060 + p) 8
    raise s 0x0B (0x060 + p) sclass p 0
  | none => raise s 0x0B 0x008 sclass 0xF 0

end Sys2Proof.Machine
end

