-- ==== Sys2Proof/Machine/Docket.lean ====
section
/-! DEFINITION. Dockets (02 R38-R46): their 16 bytes, their CHECK, and how an output's docket is built. -/

namespace Sys2Proof.Machine

/-- The docket's fields but CHECK as bits [115:0] (R38). -/
def Docket.body (d : Docket) : Nat :=
  d.pid.toNat + d.stream.toNat * 2 ^ 4 + d.epoch.toNat * 2 ^ 16 + d.seq.toNat * 2 ^ 32 + d.postmark.toNat * 2 ^ 56 +
    d.sclass.toNat * 2 ^ 104 + d.flags.toNat * 2 ^ 108

/-- The CHECK of a docket's fields (R39). -/
def Docket.checkOf (d : Docket) : Nat := crc12 (leBytes 16 d.body)

/-- The 16 bytes of a docket (R38, R11). -/
def Docket.bytes (d : Docket) : List Byte := leBytes 16 (d.body + d.check.toNat * 2 ^ 116)

/-- The docket that 16 bytes hold. -/
def docketOf (bs : List Byte) : Docket :=
  let v := leNat bs
  ⟨BitVec.ofNat 4 v, BitVec.ofNat 12 (v / 2 ^ 4), BitVec.ofNat 16 (v / 2 ^ 16), BitVec.ofNat 24 (v / 2 ^ 32),
    BitVec.ofNat 48 (v / 2 ^ 56), BitVec.ofNat 4 (v / 2 ^ 104), BitVec.ofNat 8 (v / 2 ^ 108),
    BitVec.ofNat 12 (v / 2 ^ 116)⟩

/-- Whether a docket passes its check: CHECK, a defined SCLASS, and FLAGS bit 7 clear (R40). -/
def Docket.ok (d : Docket) : Bool :=
  d.check.toNat == d.checkOf && d.sclass.toNat ≤ 4 && !bit d.flags.toNat 7

/-- INVALID (docket flags, 02). -/
def flagInvalid : Nat := 1

/-- POISON. -/
def flagPoison : Nat := 2

/-- AGED. -/
def flagAged : Nat := 4

/-- T_RETRY. -/
def flagRetry : Nat := 8

/-- T_THERMAL. -/
def flagThermal : Nat := 16

/-- T_LOOSE. -/
def flagLoose : Nat := 32

/-- A docket from its fields, with FLAGS bit 6 set, bit 7 clear, and CHECK computed (R46). -/
def mkDocket (pid stream epoch seq pm sclass flags : Nat) : Docket :=
  let d : Docket := ⟨BitVec.ofNat 4 pid, BitVec.ofNat 12 stream, BitVec.ofNat 16 epoch, BitVec.ofNat 24 seq,
    BitVec.ofNat 48 pm, BitVec.ofNat 4 sclass, BitVec.ofNat 8 (flags % 64 + 64), 0⟩
  { d with check := BitVec.ofNat 12 d.checkOf }

/-- The same docket with more flags set. -/
def Docket.addFlags (d : Docket) (f : Nat) : Docket :=
  mkDocket d.pid.toNat d.stream.toNat d.epoch.toNat d.seq.toNat d.postmark.toNat d.sclass.toNat (d.flags.toNat ||| f)

/-- Whether 48-bit postmark `a` is older than `b` (R157). -/
def olderPm (a b : Nat) : Bool := later 48 b a

/-- The input docket with the oldest POSTMARK, the first in plan order on a tie (R46). -/
def oldestDocket : List Docket → Option Docket
  | [] => none
  | d :: ds => some (ds.foldl (fun a b => if olderPm b.postmark.toNat a.postmark.toNat then b else a) d)

/-- The OR of the inputs' flags (R46). -/
def orFlags (ds : List Docket) : Nat := ds.foldl (fun a d => a ||| d.flags.toNat % 64) 0

/-- A free value, and the state with the draw counted (log entry 2). -/
def draw (s : State) : State × Nat := ({ s with freeCount := s.freeCount + 1 }, Config.freeValue s.freeCount)

/-- The key of a partition's stream. -/
def streamKey (pid stream : Nat) : Nat := pid * 4096 + stream

/-- The next SEQ of an output stream: 0 for its first output, then one more each (R46). -/
def takeSeq (s : State) (pid stream : Nat) : State × Nat :=
  let k := streamKey pid stream
  let n := mapGet 0 s.streamSeq k
  ({ s with streamSeq := mapPut 0 s.streamSeq k ((n + 1) % 2 ^ 24) }, n)

end Sys2Proof.Machine
end

