-- ==== Sys2Proof/Machine/Num.lean ====
section
/-! DEFINITION. Element formats, exact values and the single rounding (05 element formats, 07 R281-R296, 05 R217). -/

namespace Sys2Proof.Machine

/-! ### Formats -/

/-- A floating-point format: exponent bits, fraction bits, bias; E4M3 has no infinity (R290, R292). -/
structure FloatFmt where
  ebits : Nat
  mbits : Nat
  bias : Nat
  e4m3 : Bool
  deriving DecidableEq, Repr

/-- An integer format: width and whether it is signed. -/
structure IntFmt where
  width : Nat
  signed : Bool
  deriving DecidableEq, Repr

/-- An element format (05, element formats). -/
inductive ElemFmt where
  | int (f : IntFmt)
  | float (f : FloatFmt)
  | record
  deriving DecidableEq, Repr

/-- FP32. -/
def fp32 : FloatFmt := ⟨8, 23, 127, false⟩

/-- The format of a code; none for a reserved code. -/
def elemFmt : Nat → Option ElemFmt
  | 0x01 => some (.int ⟨4, true⟩)
  | 0x02 => some (.int ⟨8, true⟩)
  | 0x03 => some (.int ⟨8, false⟩)
  | 0x04 => some (.int ⟨16, true⟩)
  | 0x05 => some (.int ⟨16, false⟩)
  | 0x06 => some (.int ⟨32, true⟩)
  | 0x07 => some (.int ⟨32, false⟩)
  | 0x08 => some (.float ⟨4, 3, 7, true⟩)
  | 0x09 => some (.float ⟨5, 2, 15, false⟩)
  | 0x0A => some (.float ⟨5, 10, 15, false⟩)
  | 0x0B => some (.float ⟨8, 7, 127, false⟩)
  | 0x0C => some (.float fp32)
  | 0x0D => some (.float ⟨11, 52, 1023, false⟩)
  | 0x0E => some .record
  | _ => none

/-- Bits of an element. -/
def fmtBits (code : Nat) : Nat :=
  match elemFmt code with
  | some (.int f) => f.width
  | some (.float f) => 1 + f.ebits + f.mbits
  | _ => 8

/-- Whether a format is numeric: every format but RECORD. -/
def fmtNumeric (code : Nat) : Bool := 1 ≤ code && code ≤ 0x0D

/-- Whether a format is floating-point. -/
def fmtFloat (code : Nat) : Bool := 8 ≤ code && code ≤ 0x0D

/-- The elements of a tensor's bytes, as raw bits (R198). -/
def elems (code count : Nat) (data : List Byte) : List Nat :=
  if code = 1 then (List.range count).map fun i =>
    let b := leAt data (i / 2) 1
    if i % 2 = 0 then b % 16 else b / 16
  else (List.range count).map fun i => leAt data (i * (fmtBits code / 8)) (fmtBits code / 8)

/-- Pair up nibbles, the lower-indexed element in bits [3:0]. -/
def packNibbles : List Nat → List Byte
  | [] => []
  | [a] => leBytes 1 (a % 16)
  | a :: b :: l => leBytes 1 (a % 16 + b % 16 * 16) ++ packNibbles l

/-- The bytes of a tensor's elements. -/
def packElems (code : Nat) (l : List Nat) : List Byte :=
  if code = 1 then packNibbles l else l.flatMap fun v => leBytes (fmtBits code / 8) v

/-! ### Exact values -/

/-- An exact value: NaN, an infinity, or a signed magnitude `n / d` whose zero keeps its sign. -/
inductive Xv where
  | nan
  | inf (neg : Bool)
  | fin (neg : Bool) (n d : Nat)
  deriving DecidableEq, Repr

/-- Positive zero. -/
def Xv.zero : Xv := .fin false 0 1

/-- One. -/
def Xv.one : Xv := .fin false 1 1

/-- An integer. -/
def Xv.ofInt (i : Int) : Xv := .fin (i < 0) i.natAbs 1

/-- Whether a value is a negative zero. -/
def Xv.isNegZero : Xv → Bool
  | .fin true 0 _ => true
  | _ => false

/-- Whether a value is NaN. -/
def Xv.isNan : Xv → Bool
  | .nan => true
  | _ => false

/-- Negation. -/
def Xv.neg : Xv → Xv
  | .nan => .nan
  | .inf s => .inf (!s)
  | .fin s n d => .fin (!s) n d

/-- The exact product, with the sign rule of R283 and the special cases of R287. -/
def Xv.mul : Xv → Xv → Xv
  | .nan, _ => .nan
  | _, .nan => .nan
  | .inf a, .inf b => .inf (a != b)
  | .inf a, .fin b n _ => if n = 0 then .nan else .inf (a != b)
  | .fin a n _, .inf b => if n = 0 then .nan else .inf (a != b)
  | .fin a n d, .fin b m e => .fin (a != b) (n * m) (d * e)

/-- The product of two elements: two integers have no −0, so that a zero product of theirs is +0 (R283). -/
def mulElems (f g : Nat) (x y : Xv) : Xv :=
  match x.mul y with
  | .fin s n d => .fin (s && (n != 0 || fmtFloat f || fmtFloat g)) n d
  | v => v

/-- A signed fraction. -/
abbrev Frac := Int × Nat

/-- Sum of two fractions over a common denominator. -/
def fracAdd (a b : Frac) : Frac :=
  if a.2 = b.2 then (a.1 + b.1, a.2)
  else
    let l := Nat.lcm a.2 b.2
    (a.1 * (l / a.2 : Nat) + b.1 * (l / b.2 : Nat), l)

/-- A finite magnitude as a fraction. -/
def signed (neg : Bool) (n : Nat) : Int := if neg then -(n : Int) else n

/-- The running exact sum: the finite part, NaN and infinity terms seen, and whether every term so far is −0. -/
structure Acc where
  sum : Frac
  nan : Bool
  pinf : Bool
  ninf : Bool
  allNegZero : Bool
  deriving DecidableEq, Repr

/-- Add one term (R281, R288). -/
def Acc.add (a : Acc) (x : Xv) : Acc :=
  match x with
  | .nan => { a with nan := true, allNegZero := false }
  | .inf s => { a with pinf := a.pinf || !s, ninf := a.ninf || s, allNegZero := false }
  | .fin s n d => { a with sum := fracAdd a.sum (signed s n, d), allNegZero := a.allNegZero && x.isNegZero }

/-- The exact sum of terms (R281, R283, R288). -/
def exactSum (l : List Xv) : Xv :=
  let a := l.foldl Acc.add ⟨(0, 1), false, false, false, !l.isEmpty⟩
  if a.nan || (a.pinf && a.ninf) then .nan
  else if a.pinf then .inf false
  else if a.ninf then .inf true
  else if a.sum.1 = 0 then .fin a.allNegZero 0 1
  else .fin (a.sum.1 < 0) a.sum.1.natAbs a.sum.2

/-- Exact quotient by a count (R285). -/
def Xv.divNat (x : Xv) (k : Nat) : Xv :=
  match x with
  | .fin s n d => .fin s n (d * k)
  | v => v

/-- Exact quotient of two values; a finite value over zero and the indeterminate cases give none. -/
def Xv.div : Xv → Xv → Option Xv
  | .nan, _ => some .nan
  | _, .nan => some .nan
  | .inf _, .inf _ => some .nan
  | .inf a, .fin b _ _ => some (.inf (a != b))
  | .fin a _ _, .inf b => some (.fin (a != b) 0 1)
  | .fin a n d, .fin b m e => if m = 0 then none else some (.fin (a != b) (n * e) (d * m))

/-- Numeric comparison: whether `a` is below `b`; false with a NaN. -/
def Xv.lt : Xv → Xv → Bool
  | .nan, _ => false
  | _, .nan => false
  | .inf a, .inf b => a && !b
  | .inf a, _ => a
  | _, .inf b => !b
  | .fin a n d, .fin b m e => signed a n * (e : Int) < signed b m * (d : Int)

/-! ### Decoding and rounding -/

/-- The exact value of a floating-point encoding (R286, R292). -/
def floatValue (f : FloatFmt) (v : Nat) : Xv :=
  let neg := bit v (f.ebits + f.mbits)
  let e := bits v (f.ebits + f.mbits - 1) f.mbits
  let m := v % 2 ^ f.mbits
  let top := 2 ^ f.ebits - 1
  if f.e4m3 && e == top && m == 2 ^ f.mbits - 1 then .nan
  else if !f.e4m3 && e == top then if m = 0 then .inf neg else .nan
  else
    let sig := if e = 0 then m else m + 2 ^ f.mbits
    let ex : Int := (if e = 0 then 1 else e : Nat) - (f.bias : Int) - (f.mbits : Int)
    if 0 ≤ ex then .fin neg (sig * 2 ^ ex.toNat) 1 else .fin neg sig (2 ^ (-ex).toNat)

/-- The exact value of an element. -/
def elemValue (code v : Nat) : Xv :=
  match elemFmt code with
  | some (.int f) => .ofInt (if f.signed then toSigned f.width v else (v % 2 ^ f.width : Nat))
  | some (.float f) => floatValue f v
  | _ => .ofInt (v % 256 : Nat)

/-- Round n / d to the nearest integer, ties to even. -/
def roundEven (n d : Nat) : Nat :=
  let q := n / d
  let r := n % d
  if 2 * r < d then q else if d < 2 * r then q + 1 else q + q % 2

/-- Floor of log2 of n / d, for n and d positive. -/
def log2Frac (n d : Nat) : Int :=
  let e : Int := (Nat.log2 n : Int) - (Nat.log2 d : Int)
  let le : Bool := if 0 ≤ e then d * 2 ^ e.toNat ≤ n else d ≤ n * 2 ^ (-e).toNat
  if le then e else e - 1

/-- The canonical NaN of a format (R289). -/
def canonNan (f : FloatFmt) : Nat :=
  if f.e4m3 then 0x7F else (2 ^ f.ebits - 1) * 2 ^ f.mbits + 2 ^ (f.mbits - 1)

/-- The encoding above which a magnitude is out of range: infinity, or the NaN of E4M3. -/
def overBits (f : FloatFmt) : Nat := if f.e4m3 then 0x7F else (2 ^ f.ebits - 1) * 2 ^ f.mbits

/-- What an out-of-range magnitude becomes (R290). -/
def overflowBits (f : FloatFmt) : Nat := if f.e4m3 then 0x7E else overBits f

/-- The magnitude bits of n / d rounded to nearest even, with gradual underflow (R282, R286, R290). -/
def roundMag (f : FloatFmt) (n d : Nat) : Nat :=
  if n = 0 then 0
  else
    let emin : Int := 1 - (f.bias : Int)
    let e := max (log2Frac n d) emin
    let q := e - (f.mbits : Int)
    let m := if 0 ≤ q then roundEven n (d * 2 ^ q.toNat) else roundEven (n * 2 ^ (-q).toNat) d
    let b := (e - emin).toNat * 2 ^ f.mbits + m
    if overBits f ≤ b then overflowBits f else b

/-- Round an exact value to a floating-point format (R282, R289, R290). -/
def roundFloat (f : FloatFmt) (x : Xv) : Nat :=
  let sign := 2 ^ (f.ebits + f.mbits)
  match x with
  | .nan => canonNan f
  | .inf s => b2n s * sign + overflowBits f
  | .fin s n d => b2n s * sign + roundMag f n d

/-- Round an exact value to an integer format and saturate (R217, R291). -/
def roundInt (f : IntFmt) (x : Xv) : Nat :=
  let lo : Int := if f.signed then -(2 ^ (f.width - 1) : Nat) else 0
  let hi : Int := if f.signed then (2 ^ (f.width - 1) : Nat) - 1 else (2 ^ f.width : Nat) - 1
  match x with
  | .nan => 0
  | .inf s => ofSigned f.width (if s then lo else hi)
  | .fin s n d => ofSigned f.width (clampInt lo hi (signed s (roundEven n d)))

/-- Round an exact value to an element format (R217). -/
def roundTo (code : Nat) (x : Xv) : Nat :=
  match elemFmt code with
  | some (.int f) => roundInt f x
  | some (.float f) => roundFloat f x
  | _ => 0

/-- Whether rounding a value to a format counts in NAN_TO_INT_COUNT (R291). -/
def nanToInt (code : Nat) (x : Xv) : Bool := x.isNan && fmtNumeric code && !fmtFloat code

/-- The place of an encoding in totalOrder: negative encodings descend (05, MAX and MIN). -/
def totalKey (code v : Nat) : Int :=
  match elemFmt code with
  | some (.float f) =>
    let w := f.ebits + f.mbits
    let m : Int := (v % 2 ^ w : Nat)
    if bit v w then -m - 1 else m
  | some (.int f) => if f.signed then toSigned f.width v else (v % 2 ^ f.width : Nat)
  | _ => (v % 256 : Nat)

/-! ### Finish functions -/

/-- A word of the Finish tables as the engines' shared SRAM holds them: 0 until a revision is loaded (R296, R312). -/
def tableWord (rev i : Nat) : W32 := if rev = 0 then 0 else Config.finishTableWord rev i

/-- A value of a Finish function in the tables, by segment and number: 0 to 3 coefficients, 4 lower bound, 5 LOW and HIGH, 6 the
number of segments (R294, R296). -/
def finishWord (rev fn k j : Nat) : Nat := (tableWord rev (Config.finishPlace rev fn k j % 2 ^ 14)).toNat

/-- Number of segments of a Finish function, 1 to 128 (R294). -/
def finishCount (rev fn : Nat) : Nat := finishWord rev fn 0 6 % 128 + 1

/-- The FP32 lower bound of a segment; that of segment `n` is the upper bound b_n (R294). -/
def finishBound (rev fn k : Nat) : Nat := finishWord rev fn k 4

/-- A coefficient of a segment as an exact value (R294). -/
def finishC (rev fn k j : Nat) : Xv := floatValue fp32 (finishWord rev fn k j)

/-- LOW and HIGH (R294). -/
def finishEnd (rev fn : Nat) (high : Bool) : Xv := floatValue fp32 (finishWord rev fn (b2n high) 5)

/-- The value of a Finish function at an FP32 encoding, formed exactly (R293, R294). -/
def finishValue (rev fn x : Nat) : Xv :=
  let v := floatValue fp32 x
  let n := finishCount rev fn
  if v.isNan then .nan
  else if totalKey 0x0C x < totalKey 0x0C (finishBound rev fn 0) then finishEnd rev fn false
  else if !v.lt (floatValue fp32 (finishBound rev fn n)) then finishEnd rev fn true
  else
    let k := ((List.range n).filter fun k => !v.lt (floatValue fp32 (finishBound rev fn k))).getLast?.getD 0
    let t := exactSum [v, (floatValue fp32 (finishBound rev fn k)).neg]
    let c := finishC rev fn k
    exactSum [c 0, t.mul (exactSum [c 1, t.mul (exactSum [c 2, t.mul (c 3)])])]

/-- A result with a Finish function applied to it, if the operator names one: the argument is the result rounded to FP32
(R293). -/
def withFinish (rev fn : Nat) (x : Xv) : Xv := if fn = 0 then x else finishValue rev fn (roundFloat fp32 x)

/-! ### Shapes -/

/-- Number of elements of a shape. -/
def volume (dims : List Nat) : Nat := dims.foldl (· * ·) 1

/-- The coordinates of element `i` of a shape, row-major. -/
def coords : List Nat → Nat → List Nat
  | [], _ => []
  | d :: ds, i => i / volume ds % d :: coords ds (i % volume ds)

/-- The element at coordinates of a shape, row-major. -/
def flatIndex : List Nat → List Nat → Nat
  | d :: ds, c :: cs => (c % d) * volume ds + flatIndex ds cs
  | _, _ => 0

/-- Coordinates clipped to a shape whose unit extents are broadcast (05, ADD). -/
def broadcastCoords : List Nat → List Nat → List Nat
  | d :: ds, c :: cs => (if d = 1 then 0 else c) :: broadcastCoords ds cs
  | _, _ => []

/-- Bytes of a tensor, rounded up to 64 (R198). -/
def tensorSize (code : Nat) (dims : List Nat) : Nat := roundUp (ceilDiv (volume dims * fmtBits code) 8) 64

end Sys2Proof.Machine
end

