-- ==== Sys2Proof/Machine/RegAccess.lean ====
section
/-! DEFINITION. What a register read returns (19 R734, R740, R743 and the fields each chapter computes) and the rules of a
register write by field kind (19 R735-R746, R758-R762). -/

namespace Sys2Proof.Machine

/-! ### Fields computed from the rest of the state -/

/-- The 16 bytes of a fault log entry (R575). -/
def faultBytes (f : FaultRec) : List Byte :=
  leBytes 1 f.cls ++ leBytes 1 f.sclass ++ leBytes 1 f.pid ++ leBytes 1 f.flags ++ leBytes 2 f.source ++
    leBytes 2 f.detail ++ leBytes 8 f.pm

/-- The 32 bytes of a last-words entry (R138). -/
def lastWordBytes (e : LastWord) : List Byte :=
  leBytes 2 e.event ++ leBytes 2 e.epoch ++ leBytes 4 e.addr ++ leBytes 8 e.pm ++ leBytes 8 e.jno ++ leBytes 8 0

/-- The 32 bytes of last-words entry `e`, zero when there is none (R138). -/
def lastWordAt (s : State) (e : Nat) : List Byte :=
  match s.daybook.lastWords[e]? with
  | some w => lastWordBytes w
  | none => leBytes 32 0

/-- The 72 bytes of a mailbox frame (R757). -/
def mailboxBytes (f : CanFrame) : List Byte :=
  leBytes 4 f.ident.toNat ++
    leBytes 4 (f.dlc + b2n f.ide * 2 ^ 4 + b2n f.fdf * 2 ^ 5 + b2n f.brs * 2 ^ 6) ++ bytesAt f.data 0 64

/-- Word `i` of a controller's mailbox (R757). -/
def mailboxWord (s : State) (n i : Nat) : Nat :=
  match ((s.can[n]?).bind fun c => c.mailbox[i / 18]?) with
  | some f => leAt (mailboxBytes f) (4 * (i % 18)) 4
  | none => 0

/-- Whether the journal queue counts as full (R109). -/
def journalFull (s : State) : Bool := 256 ≤ s.daybook.queue.length || !s.daybook.waiting.isEmpty

/-- JQ_DEPTH (R109). -/
def jqDepth (s : State) : Nat := if journalFull s then 256 else s.daybook.queue.length

/-- LQ_DEPTH: slots queued in the Ledger queue (R692). -/
def lqDepth (s : State) : Nat := min 256 s.ledger.queue.length

/-- Powered ms now (R698). -/
def poweredMs (s : State) : Nat := s.ledger.baseMs + now s / 25000

/-- Occupancy of a channel's Letter ring (R50). -/
def lringOcc (s : State) (ch : Nat) : Nat := cyc 16 (fget s (Fd.chan_DOORBELL ch)) (fget s (Fd.chan_LRING_HEAD ch))

/-- Occupancy of a channel's Reply ring (R50). -/
def rringOcc (s : State) (ch : Nat) : Nat := cyc 16 (fget s (Fd.chan_RRING_TAIL ch)) (fget s (Fd.chan_RRING_HEAD ch))

/-- Whether a channel's Reply ring is full (R55). -/
def rringFull (s : State) (ch : Nat) : Bool := fget s (Fd.chan_RRING_SIZE ch) ≤ rringOcc s ch

/-- Whether reading a channel's ring is paused: R55, R89 or R109. -/
def chanPaused (s : State) (ch : Nat) : Bool :=
  rringFull s ch || ((s.chans[ch]?).bind (·.held)).isSome || journalFull s

/-- STATE of a channel: 0 disabled, 1 enabled, 2 draining, 3 paused (19). -/
def chanState (s : State) (ch : Nat) : Nat :=
  if fget s (Fd.chan_ENABLE ch) = 1 then if chanPaused s ch then 3 else 1
  else if 0 < fget s (Fd.chan_IN_FLIGHT ch) then 2 else 0

/-- STRICT_RESERVE: the smaller of 256 and the CREDIT of the enabled channels of Strict partitions (R131). -/
def strictReserve (s : State) : Nat :=
  min 256 (((List.range 64).filter fun c => fget s (Fd.chan_ENABLE c) == 1 && strictPid s (fget s (Fd.chan_PID c))).foldl
    (fun a c => a + fget s (Fd.chan_CREDIT c)) 0)

/-- A directory entry (R748). -/
def dirEntry (s : State) (page : Nat) : Nat :=
  if pagePresent page then
    1 + fget s (Fd.hdr_OWNER_PID page) * 2 + blockFirst page % 256 * 2 ^ 5 + (page - blockFirst page) * 2 ^ 13 +
      b2n (ownable page) * 2 ^ 21 + b2n (sealable page) * 2 ^ 22
  else 0

/-- Tasks that wait in a pigeonhole (R360). -/
def depthOf (s : State) (h : Nat) : Nat :=
  (s.sched.tasks.filter fun t => t.disp.isNone && t.pid * 16 + t.level == h).length

/-- Tasks that wait in a partition's pigeonholes (R360). -/
def depthOfPid (s : State) (p : Nat) : Nat :=
  (s.sched.tasks.filter fun t => t.disp.isNone && t.pid == p).length

/-- Whether an observable index is a DEPTH entry (R360). -/
def obsIsDepth (i : Nat) : Bool := if i < 0x2000 then i % 32 == 0 else i < 0x2100 && i % 16 == 0

/-- Whether an observable index is reserved and reads 0 (R360). -/
def obsReserved (i : Nat) : Bool :=
  if i < 0x2000 then 4 ≤ i % 32 && i % 32 < 16 else 0x2100 ≤ i || 10 ≤ i % 16

/-- The observable at an index (R360). -/
def obsGet (s : State) (i : Nat) : Nat :=
  if obsIsDepth i then if i < 0x2000 then depthOf s (i / 32) else depthOfPid s ((i - 0x2000) / 16)
  else if obsReserved i then 0
  else (mapGet (0 : W32) s.sched.obs i).toNat

/-- A word of the active timetable. -/
def ttWord (tt : List W32) (i : Nat) : Nat := ((tt[i]?).map (·.toNat)).getD 0

/-- SLOT_COUNT of a timetable. -/
def ttCount (tt : List W32) : Nat := bits (ttWord tt 1) 9 0

/-- Whether slot `k` of a timetable is a WINDOW. -/
def ttIsWindow (tt : List W32) (k : Nat) : Bool := bits (ttWord tt (4 + 5 * k)) 5 4 == 0

/-- The logical units of a kind that slot `k` names, as a mask (08, timetable slot). -/
def ttUnits (tt : List W32) (k : Nat) : UnitKind → Nat
  | .truss => bits (ttWord tt (4 + 5 * k + 3)) 7 0
  | .scribe => bits (ttWord tt (4 + 5 * k + 3)) 23 8
  | .sorter => bits (ttWord tt (4 + 5 * k + 3)) 27 24
  | .plane => bits (ttWord tt (4 + 5 * k + 3)) 29 28
  | .joiner => bits (ttWord tt (4 + 5 * k + 4)) 15 0
  | .courier => 0

/-- Whether a logical unit is Strict-held (R340): named in a WINDOW of the active timetable. Logical pair 0 never is. -/
def strictHeld (s : State) (k : UnitKind) (u : Nat) : Bool :=
  !(k == .joiner && u == 0) &&
    (List.range (ttCount s.sched.active)).any fun i =>
      ttIsWindow s.sched.active i && bit (ttUnits s.sched.active i k) u

/-- Whether a task runs on a unit of a kind, by physical number. -/
def unitBusy (s : State) (k : UnitKind) (u : Nat) : Bool :=
  s.sched.tasks.any fun t => t.kind == k && t.disp.isSome && t.units.contains u

/-- The configuration bits of a word as a mask (R594): RW fields that are neither counters nor GO fields, and every OWNER_PID
(R274). The data windows
TT_DATA and OBS_DATA hold no configuration of their own (log entry 21). -/
def configMask (page off : Nat) : Nat :=
  (rowsAt page off).foldl (fun a r =>
    if r.1.kind == .control || r.1.kind == .safetyRw || r.1.kind == .owner then
      a + (2 ^ (r.1.hi + 1 - r.1.lo) - 1) * 2 ^ r.1.lo
    else a) 0

/-- The bytes of a page's configuration fields, in ascending offset order (R594). -/
def configBytes (s : State) (page : Nat) : List Byte :=
  (List.range (lastOffset page / 4 + 1)).flatMap fun i =>
    let m := configMask page (4 * i)
    if m = 0 then [] else leBytes 4 (regGet s page (4 * i) &&& m)

/-- The content of the tables a page's signature covers (R761). -/
def tableContent (s : State) (page : Nat) : List Nat :=
  if page = 0x004 then s.safety.flow.map fun o => (o.map (· + 1)).getD 0
  else if 0x008 ≤ page && page ≤ 0x00B then (List.range 16).map fun i => fget s (Fd.chan_PID ((page - 0x008) * 16 + i))
  else if page = 0x010 then
    let rev := fget s (Fd.truss_FINISH_REV 0)
    rev :: (List.range (2 ^ 14)).map fun i => (tableWord rev i).toNat
  else if page = 0x058 then s.sched.active.map (·.toNat)
  else if 0x060 ≤ page && page < 0x070 then
    let p := page - 0x060
    [fget s (Fd.part_BEAM_BANKS p), fget s (Fd.part_CACHE_BANKS p), fget s (Fd.part_DRAM_REGIONS_LO p),
      fget s (Fd.part_DRAM_REGIONS_HI p), fget s (Fd.part_VF_MASK p)] ++
      (match s.parts[p]? with
        | some t => t.tensors.flatMap (fun e => [e.id, e.size, e.addr]) ++ t.streams.flatMap (fun e => [e.1, b2n e.2])
        | none => [])
  else if page = 0x081 then
    (List.range 64).flatMap fun r =>
      [fget s (Fd.region_REGION_BASE r), fget s (Fd.region_REGION_SIZE r), fget s (Fd.region_REGION_OWNER r)]
  else []

/-- A page's signature over its present content (R594). -/
def signature (s : State) (page : Nat) : Nat :=
  crc32c (configBytes s page ++ if hasTables page then Config.tableBytes page (tableContent s page) else [])

/-- Turn one bit of a register word over. -/
def turnBit (s : State) (page off b : Nat) : State := regPut s page off (regGet s page off ^^^ 2 ^ b)

/-- The registers as the Corod's own paths left them: the configuration bits that upsets changed, turned back. -/
def healed (s : State) : State :=
  s.safety.flips.foldl (fun s e =>
    let page := e.1 / 32 / 4096
    let off := e.1 / 32 % 4096
    if bit (regGet s page off) (e.1 % 32) == e.2 then turnBit s page off (e.1 % 32) else s) s

/-- A write stores bits of a configuration word: what upsets had changed in them is gone, and the reference follows (R595). -/
def unflip (s : State) (page off mask : Nat) : State :=
  { s with safety := { s.safety with
      flips := s.safety.flips.filter fun e => !(e.1 / 32 == page * 4096 + off && bit mask (e.1 % 32)) } }

/-- CONFIG_SIGNATURE: the reference signature; 0 until READY (R732). The reference follows every change of the Corod's own
paths in the same cycle (R595), so it is the signature of the content without what upsets have changed. -/
def referenceSig (s : State) (page : Nat) : Nat := if s.boot.ready then signature (healed s) page else 0

/-- The physical bank that serves a logical Beam bank (R240). -/
def physBank (s : State) (b : Nat) : Option Nat :=
  (List.range 34).find? fun i => fget s (Fd.beam_LOGICAL i) == b

/-- POOL of a physical bank: its logical bank is in CACHE_BANKS (19). -/
def poolBit (s : State) (i : Nat) : Nat :=
  let b := fget s (Fd.beam_LOGICAL i)
  if b = 0x3F then 0 else b2n (bit (fget s (Fd.part_CACHE_BANKS 0)) b)

/-- The signed amount still to apply in POSTMARK_ADJ (R164). -/
def adjLeft (s : State) : Int := toSigned 32 (fget s Fd.postmark_POSTMARK_ADJ)

/-- The shadow a requester holds of a HI register (R734). -/
def hiShadow (s : State) (q : Requester) (page off : Nat) : Nat :=
  (mapGet (0 : W32) s.time.hiShadows (reqNo q * 2 ^ 24 + regKey page off)).toNat

/-- A requester's time shadows (R162). -/
def timeShadow (s : State) (q : Requester) : TimeShadow :=
  mapGet ⟨0, 0, 0, 0⟩ s.time.shadows (reqNo q)

/-- BUSY and STRICT_HELD of a Sorter or Plane unit. -/
def busyHeld (s : State) (k : UnitKind) (u : Nat) : Nat := b2n (unitBusy s k u) + b2n (strictHeld s k u) * 2

/-- The back buffer of the World Lattice (R399). -/
def backBuf (s : State) : Nat :=
  if bit (regGet s 0x090 0x048) 19 then 1 - bits (regGet s 0x090 0x048) 16 16 else 0

/-- Whether a sweep holds the back buffer (R412). -/
def backHeld (s : State) : Bool := s.sched.tasks.any fun t => t.hold == some (backBuf s)

/-- The word of the World Lattice page that holds BACK_HELD and BUILDING. -/
def latticeWord (s : State) : Nat :=
  setBits (setBits (regGet s 0x090 0x048) 17 17 (b2n (backHeld s))) 18 18 (b2n s.lattice.active.isSome)

/-- The fields a page computes from the rest of the state. -/
def liveBlock (s : State) (q : Requester) (page off : Nat) : Option Nat :=
  if page = 0x000 then if off = 0x048 then some (dirEntry s (fget s Fd.directory_DIR_INDEX)) else none
  else if page = 0x003 then
    match off with
    | 0x040 => some (now s % 2 ^ 32)
    | 0x044 => some (timeShadow s q).hi.toNat
    | 0x048 => some (timeShadow s q).sec.toNat
    | 0x04C => some (timeShadow s q).tick.toNat
    | 0x050 => some ((timeShadow s q).epoch.toNat + 2 ^ 16)
    | 0x058 => some (setBits (setBits (regGet s page off) 0 0 (b2n (adjLeft s < 0))) 1 1 (b2n (0 < adjLeft s)))
    | _ => none
  else if page = 0x004 then
    if off = 0x050 then
      some (match mapFind s.safety.log (fget s Fd.safety_FLOG_INDEX / 4) with
        | some f => leAt (faultBytes f) (4 * (fget s Fd.safety_FLOG_INDEX % 4)) 4
        | none => 0)
    else none
  else if page = 0x006 then
    match off with
    | 0x04C => some (s.daybook.jno % 2 ^ 32)
    | 0x050 => some (s.daybook.jno / 2 ^ 32 % 2 ^ 16)
    | 0x054 => some (jqDepth s)
    | 0x070 =>
      some (leAt (lastWordAt s (fget s Fd.daybook_LW_WORD / 8)) (4 * (fget s Fd.daybook_LW_WORD % 8)) 4)
    | _ => none
  else if page = 0x007 then
    match off with
    | 0x044 => some (lqDepth s)
    | 0x048 => some (s.ledger.lno % 2 ^ 32)
    | 0x04C => some (s.ledger.lno / 2 ^ 32 % 2 ^ 16)
    | 0x05C => some (hiShadow s q page off)
    | 0x060 => some (poweredMs s % 2 ^ 32)
    | 0x064 => some (hiShadow s q page off)
    | _ => none
  else if 0x008 ≤ page && page ≤ 0x00B then
    match channelAt page off with
    | some ch =>
      if (off - 0x040) % 0x40 = 0x2C then some (chanState s ch + fget s (Fd.chan_PID ch) * 16) else none
    | none => if page = 0x008 && off = 0x808 then some (strictReserve s) else none
  else if 0x010 ≤ page && page ≤ 0x018 then
    if off = 0x068 then
      some (tableWord (fget s (Fd.truss_FINISH_REV (page - 0x010))) (fget s (Fd.truss_FT_INDEX (page - 0x010)))).toNat
    else none
  else if 0x038 ≤ page && page ≤ 0x03B then if off = 0x040 then some (busyHeld s .sorter (page - 0x038)) else none
  else if 0x03C ≤ page && page ≤ 0x03D then if off = 0x040 then some (busyHeld s .plane (page - 0x03C)) else none
  else if page = 0x058 then
    match off with
    | 0x044 => some (mapGet (0 : W32) s.sched.shadow (fget s Fd.sched_TT_INDEX)).toNat
    | 0x144 => some (obsGet s (fget s Fd.sched_OBS_INDEX))
    | _ => none
  else if page = 0x084 then
    if 0x040 ≤ off && off < 0x0C8 then some (setBits (regGet s page off) 8 8 (poolBit s ((off - 0x040) / 4))) else none
  else if page = 0x090 then if off = 0x048 then some (latticeWord s) else none
  else if 0x088 ≤ page && page ≤ 0x089 then
    if off = 0x084 then some (mailboxWord s (page - 0x088) (fget s (Fd.can_RX_INDEX (page - 0x088))))
    else if (off = 0x044 || off = 0x048) && fget s (Fd.can_ID29 (page - 0x088)) = 0 then some (regGet s page off % 2 ^ 11)
    else none
  else none

/-- What a read of a register word returns (R740, R743). -/
def regRead (s : State) (q : Requester) (page off : Nat) : Nat :=
  if !pagePresent page then 0
  else if off < 0x040 then
    match off with
    | 0x00C => b2n (pendingBits s page != 0)
    | 0x018 => 0
    | 0x034 => referenceSig s page
    | 0x03C => hiShadow s q page off
    | _ => regGet s page off
  else match liveBlock s q page off with
    | some v => v
    | none => regGet s page off

/-! ### Writes -/

/-- The EVENT bits a page defines (19, common and block EVENT bits); every other bit is reserved. -/
def eventMask (page : Nat) : Nat :=
  0x1F +
    (if page = 0x002 then 0x300
    else if page = 0x004 then 0xF00
    else if page = 0x005 then 0x300
    else if page = 0x006 then 0x700
    else if page = 0x007 then 0x300
    else if 0x008 ≤ page && page ≤ 0x00B then 0xFFFF00
    else if 0x010 ≤ page && page ≤ 0x018 then 0xF00
    else if 0x020 ≤ page && page ≤ 0x031 then 0x300
    else if 0x038 ≤ page && page ≤ 0x03B then 0x700
    else if 0x03C ≤ page && page ≤ 0x03D then 0x300
    else if 0x040 ≤ page && page ≤ 0x050 then 0x300
    else if page = 0x058 then 0x100
    else if 0x060 ≤ page && page ≤ 0x06F then 0x300
    else if 0x070 ≤ page && page ≤ 0x077 then 0x1FF00
    else if 0x078 ≤ page && page ≤ 0x07D then 0x300
    else if page = 0x07E then 0x1F00
    else if 0x088 ≤ page && page ≤ 0x089 then 0x700
    else if page = 0x090 then 0x300
    else if page = 0x0A0 then 0x700
    else 0)

/-- The byte-enable mask of a 32-bit write (R724). -/
def beMask (be : BitVec 4) : Nat :=
  b2n (be.getLsbD 0) * 0xFF + b2n (be.getLsbD 1) * 0xFF00 + b2n (be.getLsbD 2) * 0xFF0000 + b2n (be.getLsbD 3) * 0xFF000000

/-- The bits of a field as a mask. -/
def fieldMask (r : RegRow) : Nat := (2 ^ (r.hi + 1 - r.lo) - 1) * 2 ^ r.lo

/-- What a chapter adds to a write of a field: whether it refuses a change of it (R762), and whether the value is reserved
in the present state (R741). -/
abbrev DenyRule := RegRow → Nat → Nat → Bool

/-- The state, whether BAD_VALUE is due and whether the write counts under R742. -/
structure WriteAcc where
  s : State
  bad : Bool
  counted : Bool

/-- Write one field under its kind (R735, R740-R742, R746, R762). `cur` is the word as it reads, `new` the merged word,
`mask` the enabled bits. -/
def writeField (deny : DenyRule) (page off cur new mask : Nat) (a : WriteAcc) (r : RegRow × Nat × Nat) : WriteAcc :=
  let row := r.1
  let old := bits cur row.hi row.lo
  let v := bits new row.hi row.lo
  let put (w : Nat) : State := regPut a.s page off (setBits (regGet a.s page off) row.hi row.lo w)
  let hit := bits mask row.hi row.lo
  if hit = 0 then a
  else match row.kind with
    | .control | .safetyRw | .owner =>
      if row.kind == .owner && !ownable page then { a with counted := a.counted || v != old }
      else if fget a.s (Fd.hdr_LOCK page) = 1 && sealable page then { a with counted := a.counted || v != old }
      else if !row.allowed.ok v then { a with bad := true }
      else if v != old && deny row r.2.2 v then { a with bad := true }
      else { a with s := unflip (put v) page off (mask &&& fieldMask row) }
    | .status | .fixed => { a with counted := a.counted || v != old }
    | .counter => if deny row r.2.2 v then a else { a with s := put v }
    | .event =>
      let ones := bits new 31 0 &&& mask
      { a with
        s := put (old &&& (0xFFFFFFFF ^^^ ones))
        counted := a.counted || (ones &&& (0xFFFFFFFF ^^^ eventMask page)) != 0 }
    | .force =>
      let ones := bits new 31 0 &&& mask
      { a with
        s := (List.range 32).foldl (fun s b => if bit (ones &&& eventMask page) b then setEvent s page b else s) a.s
        counted := a.counted || (ones &&& (0xFFFFFFFF ^^^ eventMask page)) != 0 }
    | .go => if v = 1 && old = 0 then { a with s := put 1 } else a
    | .action | .align | .window => a

/-- The bits of a word that no row holds: reserved bits (R740). -/
def reservedMask (rows : List (RegRow × Nat × Nat)) : Nat :=
  0xFFFFFFFF - rows.foldl (fun a r => a ||| fieldMask r.1) 0

/-- A permitted 32-bit write to a present page (R735-R747). -/
def writeWord (deny : DenyRule) (s : State) (q : Requester) (page off : Nat) (v : W32) (be : BitVec 4) : State :=
  let rows := rowsAt page off
  let mask := beMask be
  if rows.isEmpty then countRsvd s page off page
  else
    let cur := regRead s q page off
    let raw := v.toNat
    let merged := (cur &&& (0xFFFFFFFF ^^^ mask)) ||| (raw &&& mask)
    let new := if off = 0x010 || off = 0x018 then raw &&& mask else merged
    let a := rows.foldl (writeField deny page off cur new mask)
      ⟨s, false, (raw &&& mask &&& reservedMask rows) != 0⟩
    let s := if a.bad then badValue a.s page else a.s
    let s := if a.counted then countRsvd s page off page else s
    if (off = 0x010 || off = 0x014) && pendingBits s page != 0 then pageIrq s page else s

/-- A 32-bit register write: presence (R743), the firewall (R268), then the field kinds. -/
def regWrite (deny : DenyRule) (s : State) (q : Requester) (page off : Nat) (v : W32) (be : BitVec 4) : State :=
  match pidOf s q with
  | none => blockedAccess (noteParity s (regEntries s q page off)) none (sclassOf s q) true
  | some p =>
    if !regPermitted s p page off then blockedAccess (noteParity s (regEntries s q page off)) (some p) (sclassOf s q) true
    else if !pagePresent page then countRsvd s page off 0
    else writeWord deny s q page off v be

/-- Whether a requester's register write passes the firewall onto a present page. -/
def writeReaches (s : State) (q : Requester) (page off : Nat) : Bool :=
  match pidOf s q with
  | none => false
  | some p => regPermitted s p page off && pagePresent page

/-- A rule that refuses nothing. -/
def denyNone : DenyRule := fun _ _ _ => false

/-- A write in a cycle in which hardware updates a safety-forced field of the word (R735, R736, R742, R753): the hardware value stands
in the field, the rest of the word is written, and a write that differs from it counts. -/
def forcedWrite (deny : DenyRule) (s : State) (q : Requester) (page off : Nat) (f : Fld) (v : W32) (be : BitVec 4) : State :=
  let stands := fget s f
  let t := regWrite deny s q page off (BitVec.ofNat 32 (setBits v.toNat f.hi f.lo stands)) be
  let once := fget t (Fd.hdr_RSVD_WRITE_COUNT page) == fget s (Fd.hdr_RSVD_WRITE_COUNT page)
  if writeReaches s q page off && bits (beMask be) f.hi f.lo != 0 && bits v.toNat f.hi f.lo != stands && once then
    countRsvd t page off page
  else t

/-- Return a completion to a reader: the words read, or the poisoned completion of a blocked read (R271, R272). -/
def complete (s : State) (bs : List Byte) : State := { s with completion := bs }

/-- A poisoned completion to a function: EP set and every byte 0xFF (R272, R768). -/
def poisonCompletion (s : State) (f n : Nat) : State :=
  send (complete s (List.replicate n 0xFF)) (.pcie f true (List.replicate n 0xFF))

/-- The completion of a blocked read of `n` bytes: poisoned to a PCIe function (R271, R272). -/
def blockedCompletion (s : State) (q : Requester) (n : Nat) : State :=
  match q with
  | .fn f => poisonCompletion s f n
  | .core _ => complete s (List.replicate n 0xFF)

/-- A register read that the firewall judges: what it returns, and the state after (R271). The side effect of the read, if
any, follows only when it passes. -/
def regReadThen (s : State) (q : Requester) (page off : Nat) (n : Nat) (k : State → State) : State :=
  match pidOf s q with
  | none => blockedCompletion (blockedAccess (noteParity s (regEntries s q page off)) none (sclassOf s q) false) q (4 * n)
  | some p =>
    if !regPermitted s p page off then
      blockedCompletion (blockedAccess (noteParity s (regEntries s q page off)) (some p) (sclassOf s q) false) q (4 * n)
    else k s

end Sys2Proof.Machine
end

