-- ==== Sys2Proof/Machine/LedgerOps.lean ====
section
/-! DEFINITION. Accumulating into the Ledger and queueing its records (18 R689-R698). -/

namespace Sys2Proof.Machine

/-- How many indices a record class has; 0 for a reserved class (R696). -/
def ledgerCount : Nat → Nat
  | 0x01 => 3
  | 0x02 => 8
  | 0x03 => 2
  | 0x04 => 82
  | 0x05 => 6
  | 0x06 => 7
  | 0x07 => 32
  | 0x08 => 4
  | 0x09 => 256
  | 0x0A => 85
  | 0x0B => 3
  | 0x0C => 32
  | _ => 0

/-- The ring classes (R701). -/
def ledgerRing (cls : Nat) : Bool := cls == 0x07 || cls == 0x09 || cls == 0x0C

/-- The base cell of a class: the classes lie one after another, in ascending order (R689 leaves it to the header; log entry
30). -/
def ledgerBase (cls : Nat) : Nat := (List.range cls).foldl (fun a c => a + ledgerCount c) 0

/-- The key of a record. -/
def ledgerKey (cls idx : Nat) : Nat := cls * 256 + idx

/-- V0-V4 of a record that nothing has written. -/
def ledgerZero : List Nat := [0, 0, 0, 0, 0]

/-- The always-on values of a record. -/
def ledgerVals (s : State) (cls idx : Nat) : List Nat := mapGet ledgerZero s.ledger.vals (ledgerKey cls idx)

/-- Give a record its values. -/
def ledgerSet (s : State) (cls idx : Nat) (v : List Nat) : State :=
  { s with ledger := { s.ledger with vals := mapPut ledgerZero s.ledger.vals (ledgerKey cls idx) v } }

/-- Add to a u64 counter, which saturates at 2^64 − 1 (R694). -/
def ledgerAdd (s : State) (cls idx word k : Nat) : State :=
  let v := ledgerVals s cls idx
  ledgerSet s cls idx (v.set word (min (2 ^ 64 - 1) (v.getD word 0 + k)))

/-- Add postmark ticks to a residency counter, held in whole ms with the remainder carried (R697). -/
def ledgerAddPt (s : State) (cls idx word pt : Nat) : State :=
  let key := ledgerKey cls idx * 8 + word
  let total := mapGet 0 s.ledger.ptAcc key + pt
  let s := { s with ledger := { s.ledger with ptAcc := mapPut 0 s.ledger.ptAcc key (total % 25000) } }
  if total / 25000 = 0 then s else ledgerAdd s cls idx word (total / 25000)

/-- Queue a record for commit; with the queue full a record that is no event waits (R692). -/
def ledgerQueue (s : State) (cls idx : Nat) : State :=
  let v : LedgerVer := ⟨cls, idx, ledgerVals s cls idx, false⟩
  if fget s Fd.ledger_LEDGER_VOLATILE = 1 then s
  else if 256 ≤ s.ledger.queue.length then
    { s with ledger := { s.ledger with waiting := s.ledger.waiting ++ [v] } }
  else { s with ledger := { s.ledger with queue := s.ledger.queue ++ [v] } }

/-- Record an event in a ring class: the next index of the ring takes it and its slot is queued; an event that finds the
queue full is dropped and counted (R692). While the Ledger is volatile only the always-on values take it (R695). -/
def ledgerEvent (s : State) (cls : Nat) (data : List Nat) : State :=
  let vol := fget s Fd.ledger_LEDGER_VOLATILE = 1
  if !vol && 256 ≤ s.ledger.queue.length then setEvent (fadd s Fd.ledger_LEDGER_LOST_COUNT 1) 0x007 9
  else
    let n := mapGet 0 s.ledger.rings cls
    let idx := n % ledgerCount cls
    let s := ledgerSet s cls idx data
    let s := { s with ledger := { s.ledger with rings := mapPut 0 s.ledger.rings cls (n + 1) } }
    if vol then s
    else { s with ledger := { s.ledger with queue := s.ledger.queue ++ [⟨cls, idx, data, true⟩] } }

/-- The LIFE counters (R696): index and word. -/
def lifeAdd (s : State) (idx word : Nat) : State := ledgerAdd s 0x01 idx word 1

/-- The five DATA words of bytes given at their slot offsets from 0x10. -/
def dataWords (bs : List Byte) : List Nat := (List.range 5).map fun i => leAt bs (8 * i) 8

/-- A Daybook or Ledger memory failure (R137): the sticky NVM_FAULT and its copy, NVM_FAIL_COUNT, an event in the
last-words buffer, and the fault, reported from the page of the area that failed. -/
def nvmFail (s : State) (addr jno : Nat) : State :=
  let s := fput s Fd.safety_NVM_FAULT 1
  let s := fput s Fd.daybook_NVM_FAULT 1
  let s := fadd s Fd.safety_NVM_FAIL_COUNT 1
  let s := setEvent s 0x004 11
  let s := lifeAdd s 1 2
  let w : LastWord := ⟨0x1C, s.time.epoch.toNat, addr % 2 ^ 32, now s, jno⟩
  let s := { s with daybook := { s.daybook with lastWords := (w :: s.daybook.lastWords).take 8 } }
  raise s 0x1C (if 0x30200000 ≤ addr then 0x007 else 0x006) 0xF 0xF 0

end Sys2Proof.Machine
end

