-- ==== Sys2Proof/Machine/Mem.lean ====
section
/-! DEFINITION. Device memory (06): the address map, bytes, the error state of stored words, and host memory. -/

namespace Sys2Proof.Machine

/-- The regions of the device address map (R239). -/
inductive MapRange where
  | beam (bank : Nat)
  | mortise (t : Nat)
  | store (core : Nat)
  | mram
  | dram (channel : Nat)
  | spare (bank : Nat)
  | none
  deriving DecidableEq, Repr

/-- Bytes a Beam bank holds. -/
def bankBytes : Nat := 0x300000

/-- Where LPDDR5X begins (R239). -/
def dramBase : Nat := 0x100000000

/-- Usable LPDDR5X capacity: seven-eighths of the installed one (R231). -/
def dramBytes (s : State) : Nat := 4 * 2 ^ 30 * 2 ^ fget s Fd.dram_CAPACITY / 8 * 7

/-- The LPDDR5X channel of an address (R764). -/
def dramChannel (a : Nat) : Nat := (a - dramBase) / 256 % 4

/-- Where the model keeps the words of a physical Beam bank that has no device address (R240): above the 40-bit space, which no
access reaches. -/
def spareBase : Nat := 2 ^ 41

/-- Which range of R239 an address lies in. -/
def rangeOf (s : State) (a : Nat) : MapRange :=
  if a < 0x6000000 then .beam (a / bankBytes)
  else if 0x10000000 ≤ a && a < 0x14800000 then .mortise ((a - 0x10000000) / 0x800000)
  else if 0x20000000 ≤ a && a < 0x20880000 then .store ((a - 0x20000000) / 0x40000)
  else if 0x30000000 ≤ a && a < 0x30400000 then .mram
  else if dramBase ≤ a && a < dramBase + dramBytes s then .dram (dramChannel a)
  else if spareBase ≤ a && a < spareBase + 34 * bankBytes then .spare ((a - spareBase) / bankBytes)
  else .none

/-- The page of the block that owns a range's storage. -/
def rangePage : MapRange → Nat
  | .beam _ => 0x084
  | .mortise t => 0x010 + t
  | .store c => 0x040 + c / 2
  | .mram => 0x006
  | .dram _ => 0x082
  | .spare _ => 0x084
  | .none => 0x084

/-- The Ledger ECC source of a range (R696): physical Beam bank, Mortise, local store, LPDDR5X channel, MRAM. -/
def eccSource (s : State) : MapRange → Nat
  | .beam b => (physBank s b).getD 0
  | .mortise t => 34 + t
  | .store c => 43 + c
  | .dram c => 77 + c
  | .mram => 81
  | .spare b => b
  | .none => 81

/-- The canonical form of a memory: addresses rise strictly, and no entry holds the 0 that an unlisted address reads as. -/
abbrev Memory.wf (m : List Host.Cell) : Prop := mapWf (0 : Byte) m

/-- One byte of device memory; a byte nothing has written reads 0 (R604, R113; log entry 4). -/
def memByte (s : State) (a : Nat) : Byte := mapGet 0 s.mem a

/-- Consecutive bytes of device memory. -/
def memBytes (s : State) (a n : Nat) : List Byte := mapRange 0 s.mem a n

/-- Store bytes, with no regard to check bits. -/
def memPut (s : State) (a : Nat) (bs : List Byte) : State := { s with mem := mapPutAll 0 s.mem a bs }

/-- The error state of the 64-bit word an address lies in (R226-R229). -/
def eccAt (s : State) (a : Nat) : Option EccSt := mapFind s.ecc (a / 8)

/-- Clear or set the error state of a word. -/
def eccSet (s : State) (w : Nat) (e : Option EccSt) : State :=
  match e with
  | some x => { s with ecc := mapIns s.ecc w x }
  | none => { s with ecc := mapDel s.ecc w }

/-- Count a corrected read (R226, R233): the block's page, the Ledger, and the window of R578. -/
def countCorr (s : State) (r : MapRange) : State :=
  let src := eccSource s r
  let s := errCorr s (rangePage r)
  let s := match r with
    | .dram c => fadd s (Fd.dramCnt_CORR c) 1
    | _ => s
  let s := ledgerAdd s 0x04 src 0 1
  { s with safety := { s.safety with corr := mapPut 0 s.safety.corr src (mapGet 0 s.safety.corr src + 1) } }

/-- Count and report an uncorrectable read (R228, R233). -/
def countUncorr (s : State) (r : MapRange) (sclass pid : Nat) : State :=
  let src := eccSource s r
  let s := errUncorr s (rangePage r)
  let s := match r with
    | .dram c => fadd s (Fd.dramCnt_UNCORR c) 1
    | _ => s
  let s := ledgerAdd s 0x04 src 1 1
  raise s 0x01 (rangePage r) sclass pid 0

/-- Count a read of poisoned data (R229). -/
def countPoison (s : State) (r : MapRange) : State :=
  let s := match r with
    | .beam _ => fadd s Fd.beam_POISON_READ_COUNT 1
    | .dram c => fadd s (Fd.dramCnt_POISON_READ_COUNT c) 1
    | _ => s
  ledgerAdd s 0x04 (eccSource s r) 2 1

/-- Read one stored word's error state as a read does: counted and reported, and whether the data is poisoned (R226, R228,
R229). -/
def readWord (sclass pid : Nat) (a : State × Bool) (w : Nat) : State × Bool :=
  let s := a.1
  let r := rangeOf s (w * 8)
  match mapFind s.ecc w with
  | some .corr => (countCorr s r, a.2)
  | some .uncorr => (countUncorr s r sclass pid, true)
  | some .poison => (countPoison s r, true)
  | none => a

/-- The marked words a byte range covers, in ascending order. -/
def markedWords (s : State) (a n : Nat) : List Nat :=
  (s.ecc.filter fun e => a / 8 ≤ e.1 && e.1 < (a + n + 7) / 8).map (·.1)

/-- Read a byte range straight from storage: the bytes, whether any word is poisoned, and the counts (R225-R229). -/
def readRaw (s : State) (a n sclass pid : Nat) : State × List Byte × Bool :=
  let p := (markedWords s a n).foldl (readWord sclass pid) (s, false)
  (p.1, memBytes p.1 a n, p.2)

/-- Store into one word whose stored content is marked: a whole-word write replaces it; a partial write over content that
cannot be trusted is counted as a read is and leaves the word poisoned (R765). -/
def mergeWord (a n sclass pid : Nat) (s : State) (w : Nat) : State :=
  if a ≤ w * 8 && w * 8 + 8 ≤ a + n then eccSet s w none
  else
    let p := readWord sclass pid (s, false) w
    if p.2 then eccSet p.1 w (some .poison) else eccSet p.1 w none

/-- Store a byte range straight into storage (R765). -/
def writeRaw (s : State) (a : Nat) (bs : List Byte) (sclass pid : Nat) : State :=
  let s := (markedWords s a bs.length).foldl (mergeWord a bs.length sclass pid) s
  memPut s a bs

/-- Store poisoned data over a byte range (R229): every word it covers reads poisoned. -/
def writePoison (s : State) (a n : Nat) : State :=
  (List.range ((a + n + 7) / 8 - a / 8)).foldl (fun s i => eccSet s (a / 8 + i) (some .poison)) s

/-- Zero a byte range with valid check bits (R263). -/
def zeroRange (s : State) (a n : Nat) : State :=
  { s with
    mem := s.mem.filter fun c => !(a ≤ c.1 && c.1 < a + n)
    ecc := s.ecc.filter fun e => !(a ≤ e.1 * 8 && e.1 * 8 < a + n) }

/-! ### Refresh owed -/

/-- The refresh-rate multiple that MR4 reports: the greatest of the four channels', which refresh together (06, Refresh;
R235). -/
def mr4Mult (v : Nat) : Nat := (List.range 4).foldl (fun a c => max a (2 ^ (Config.mr4Exp (bits v (4 * c + 3) (4 * c)) % 3))) 1

/-- Account the refreshes owed up to now: one every 97 pt, times the multiple that the latest MR4 report gave (06, Refresh). -/
def accrue (s : State) : State :=
  let acc := s.refresh.acc + (now s - s.refresh.last) * mr4Mult (fget s Fd.dram_MR4_RATE)
  let s := { s with refresh := { s.refresh with
    owed := s.refresh.owed + (acc / 97 : Nat), last := now s, acc := acc % 97 } }
  fput s Fd.dram_OWED_MAX (max (fget s Fd.dram_OWED_MAX) (min 15 s.refresh.owed.toNat))

/-- LPDDR5X leaves self-refresh: every refresh owed during it is discharged (R345). -/
def leaveSelfRefresh (s : State) : State :=
  { s with refresh := { s.refresh with owed := min s.refresh.owed 0, last := now s, acc := 0 } }

/-- Write to host memory (R53, R54). -/
def hostPut (s : State) (a : Nat) (bs : List Byte) : State := { s with host := mapPutAll 0 s.host a bs }

/-- Bytes of host memory as the Corod has written them. -/
def hostBytes (s : State) (a n : Nat) : List Byte := mapRange 0 s.host a n

end Sys2Proof.Machine
end

