-- ==== Sys2Proof/Machine/Memory.lean ====
section
/-! DEFINITION. The Beam cache, the firewall on memory, and scrubbing (06 R225-R278, R764-R768). -/

namespace Sys2Proof.Machine

/-! ### The Beam cache -/

/-- Number of set bits below `n`. -/
def popcount (v n : Nat) : Nat := ((List.range n).filter (bit v)).length

/-- CACHE_BANKS: the pool (R250). -/
def poolBanks (s : State) : Nat := fget s (Fd.part_CACHE_BANKS 0)

/-- Sets of the pool: pool bytes / 4,096 (R250). -/
def poolSets (s : State) : Nat := popcount (poolBanks s) 32 * bankBytes / 4096

/-- The set of a line address (R250). -/
def setOf (s : State) (line : Nat) : Nat := if poolSets s = 0 then 0 else line / 256 % poolSets s

/-- The error state of storage words of a line as a fill judges them (R767). -/
def fillWords (s : State) (line sclass pid : Nat) : State × List Nat :=
  (markedWords s line 256).foldl (fun a w =>
    let r := rangeOf a.1 (w * 8)
    match mapFind a.1.ecc w with
    | some .corr => (countCorr a.1 r, a.2)
    | some .uncorr => (countUncorr a.1 r sclass pid, a.2 ++ [w % 32])
    | some .poison => (countPoison a.1 r, a.2 ++ [w % 32])
    | none => a) (s, [])

/-- The logical bank of the pool that holds a line: the lines lie in set order, the ways of a set together, over the pool's banks in
ascending order (log entry 216). -/
def lineBank (s : State) (l : CacheLine) : Nat :=
  (((List.range 32).filter (bit (poolBanks s)))[(l.set * 16 + l.way) * 256 / bankBytes]?).getD 0

/-- Read words `lo` up to `hi` of a line as a read of the pool does: each corrected, uncorrectable or poisoned word is counted, and
whether the data is poisoned (R225-R229, R253, R767). -/
def lineWords (s : State) (l : CacheLine) (lo hi sclass : Nat) : State × Bool :=
  let r := MapRange.beam (lineBank s l)
  ((List.range (hi - lo)).map (lo + ·)).foldl (fun (a : State × Bool) w =>
    if l.poison.contains w then (countPoison a.1 r, true)
    else match mapFind l.ecc w with
      | some .corr => (countCorr a.1 r, a.2)
      | some .uncorr => (countUncorr a.1 r sclass l.pid, true)
      | some .poison => (countPoison a.1 r, true)
      | none => a) (s, false)

/-- The words of a line that cannot be trusted. -/
def CacheLine.bad (l : CacheLine) : List Nat := l.poison ++ (l.ecc.filter fun e => e.2 != .corr).map (·.1)

/-- Write a dirty line back to LPDDR5X, its poisoned words as poisoned (R252, R253, R767). -/
def writeBack (s : State) (l : CacheLine) : State :=
  if l.dirty then
    let bad := l.bad
    let s := fadd s Fd.beam_POOL_WRITEBACK_COUNT 1
    let s := (markedWords s l.addr 256).foldl (fun s w => eccSet s w none) s
    let s := memPut s l.addr l.data
    bad.foldl (fun s w => eccSet s (l.addr / 8 + w) (some .poison)) s
  else s

/-- Write back and drop every line that satisfies a test (R255). -/
def flushLines (s : State) (p : CacheLine → Bool) : State :=
  let s := (s.cache.filter p).foldl writeBack s
  { s with cache := s.cache.filter fun l => !p l }

/-- The way that a fill of a partition takes in a set (R251, R252): the lowest of its ways that is empty, else the one
least recently used. -/
def victimWay (s : State) (pid set : Nat) : Option Nat :=
  let ways := (List.range 16).filter (bit (fget s (Fd.part_CACHE_WAYS pid)))
  let held := (s.cache.filter fun l => l.set == set && ways.contains l.way).map (·.way)
  match ways.find? fun w => !held.contains w with
  | some w => some w
  | none => held.getLast?

/-- Fill a line for a partition (R252, R767); the line is most recently used. -/
def fillLine (s : State) (pid line sclass : Nat) : State :=
  match victimWay s pid (setOf s line) with
  | none => s
  | some w =>
    let s := flushLines s fun l => l.set == setOf s line && l.way == w
    let f := fillWords s line sclass pid
    let s := fadd f.1 Fd.beam_POOL_MISS_COUNT 1
    { s with cache := ⟨setOf s line, w, pid, line, memBytes s line 256, f.2, [], false⟩ :: s.cache }

/-- Find a partition's line (R251). -/
def findLine (s : State) (pid line : Nat) : Option CacheLine := s.cache.find? fun l => l.pid == pid && l.addr == line

/-- Bring a partition's line to the front of the pool, filling it on a miss. An uncorrectable error in a clean line is a
miss and counts as corrected (R253). -/
def touchLine (s : State) (pid line sclass : Nat) : State :=
  match findLine s pid line with
  | some l =>
    if !l.dirty && l.ecc.any (fun e => e.2 == .uncorr) then
      let s := countCorr s (.beam (lineBank s l))
      fillLine { s with cache := s.cache.filter fun x => !(x.pid == pid && x.addr == line) } pid line sclass
    else
      let s := fadd s Fd.beam_POOL_HIT_COUNT 1
      { s with cache := l :: s.cache.filter fun x => !(x.pid == pid && x.addr == line) }
  | none => fillLine s pid line sclass

/-- Replace the line at the front of the pool. -/
def setFront (s : State) (l : CacheLine) : State := { s with cache := l :: s.cache.tail }

/-- Read part of a line through the pool (R252, R253, R767): bytes, and whether a word of them is poisoned. -/
def cacheRead (s : State) (pid a n sclass : Nat) : State × List Byte × Bool :=
  let line := a / 256 * 256
  let s := touchLine s pid line sclass
  match findLine s pid line with
  | some l =>
    let r := lineWords s l (a % 256 / 8) ((a % 256 + n + 7) / 8) sclass
    (r.1, bytesAt l.data (a % 256) n, r.2)
  | none => (s, memBytes s a n, false)

/-- Replace bytes of a line. -/
def spliceBytes (old : List Byte) (i : Nat) (bs : List Byte) : List Byte :=
  old.take i ++ bs ++ old.drop (i + bs.length)

/-- Write part of a line through the pool (R252); a partial write of a word that cannot be trusted leaves it poisoned
(R765). -/
def cacheWrite (s : State) (pid a : Nat) (bs : List Byte) (sclass : Nat) : State :=
  let line := a / 256 * 256
  let s := touchLine s pid line sclass
  match findLine s pid line with
  | some l =>
    let i := a % 256
    let whole := fun w => i ≤ w * 8 && w * 8 + 8 ≤ i + bs.length
    let part := fun w => !whole w && i < w * 8 + 8 && w * 8 < i + bs.length
    let parts := (List.range 32).filter part
    let s := parts.foldl (fun s w => (lineWords s l w (w + 1) sclass).1) s
    let made := parts.filter l.bad.contains
    setFront s { l with
      data := spliceBytes l.data i bs
      poison := (l.poison.filter fun w => !whole w && !part w) ++ made
      ecc := l.ecc.filter fun e => !whole e.1 && !part e.1
      dirty := true }
  | none => s

/-! ### The firewall on memory -/

/-- The DRAM region an address lies in (06, R242). -/
def regionAt (s : State) (a : Nat) : Option Nat :=
  (List.range 64).find? fun r =>
    let base := dramBase + fget s (Fd.region_REGION_BASE r) * 0x200000
    base ≤ a && a < base + fget s (Fd.region_REGION_SIZE r) * 0x200000

/-- Whether a PID may address one byte (R268, R241). -/
def bytePermitted (s : State) (pid a : Nat) : Bool :=
  match rangeOf s a with
  | .beam b => !badEntry s b && !bit (poolBanks s) b && bit (fget s (Fd.part_BEAM_BANKS pid)) b
  | .mortise _ => pid == 0
  | .store _ => pid == 0
  | .mram => pid == 0
  | .dram _ => match regionAt s a with
    | some r => !badEntry s (32 + r) && fget s (Fd.region_OWNED r) == 1 && fget s (Fd.region_REGION_OWNER r) == pid
    | none => false
  | .spare _ => false
  | .none => false

/-- Where a byte range enters each piece of 256 KiB: every range of R239 and every owner ends at such a boundary. -/
def pieceStarts (a n : Nat) : List Nat :=
  (List.range ((a + n - 1) / 2 ^ 18 + 1 - a / 2 ^ 18)).map fun i => max a ((a / 2 ^ 18 + i) * 2 ^ 18)

/-- Whether a PID may address a byte range (R268). -/
def rangePermitted (s : State) (pid a n : Nat) : Bool :=
  n != 0 && a + n ≤ 2 ^ 40 && (pieceStarts a n).all (bytePermitted s pid)

/-- The ownership entries that an access to a byte range is checked against (R274). -/
def rangeEntries (s : State) (a n : Nat) : List Nat :=
  ((pieceStarts a n).filterMap fun x =>
    match rangeOf s x with
    | .beam b => some b
    | .dram _ => (regionAt s x).map (32 + ·)
    | _ => none).eraseDups

/-- How an access ended. -/
inductive Access where
  | ok | poisoned | blocked
  deriving DecidableEq, Repr

/-- Whether a PID's accesses to an address pass through the pool (R246, R251, R254). -/
def pooled (s : State) (pid a : Nat) : Bool :=
  dramBase ≤ a && regimeOf s pid == 2 && fget s (Fd.part_CACHE_WAYS pid) != 0 && poolBanks s != 0

/-- Where a byte range enters each line. -/
def lineParts (a n : Nat) : List (Nat × Nat) :=
  (List.range ((a + n + 255) / 256 - a / 256)).map fun i =>
    let lo := max a ((a / 256 + i) * 256)
    (lo, min (a + n) ((a / 256 + i + 1) * 256) - lo)

/-- A read of device memory by a PID (R267-R271, R254): blocked, or the bytes and whether they are poisoned. -/
def devRead (s : State) (pid a n sclass : Nat) : State × List Byte × Access :=
  if n = 0 then (s, [], .ok)
  else if !rangePermitted s pid a n then
    (blockedAccess (noteParity s (rangeEntries s a n)) (some pid) sclass false, List.replicate n 0, .blocked)
  else if pooled s pid a then
    let r := (lineParts a n).foldl (fun (x : State × List Byte × Bool) p =>
      let y := cacheRead x.1 pid p.1 p.2 sclass
      (y.1, x.2.1 ++ y.2.1, x.2.2 || y.2.2)) (s, [], false)
    (r.1, r.2.1, if r.2.2 then .poisoned else .ok)
  else
    let r := readRaw s a n sclass pid
    (r.1, r.2.1, if r.2.2 then .poisoned else .ok)

/-- The part of a write that falls in one line. -/
def writeLines (s : State) (pid sclass : Nat) : List (Nat × Nat) → List Byte → State
  | [], _ => s
  | (a, n) :: ps, bs => writeLines (cacheWrite s pid a (bs.take n) sclass) pid sclass ps (bs.drop n)

/-- A write of device memory by a PID (R267-R270, R254). -/
def devWrite (s : State) (pid a : Nat) (bs : List Byte) (sclass : Nat) : State × Access :=
  if bs.isEmpty then (s, .ok)
  else if !rangePermitted s pid a bs.length then
    (blockedAccess (noteParity s (rangeEntries s a bs.length)) (some pid) sclass true, .blocked)
  else if pooled s pid a then (writeLines s pid sclass (lineParts a bs.length) bs, .ok)
  else (writeRaw s a bs sclass pid, .ok)

/-- The Corod's own write into PID 0's region (R101, R254). -/
def ownWrite (s : State) (a : Nat) (bs : List Byte) : State :=
  if pooled s 0 a then writeLines s 0 0xF (lineParts a bs.length) bs else writeRaw s a bs 0xF 0

/-- The Corod's own read of PID 0's region (R770). -/
def ownRead (s : State) (a n : Nat) : State × List Byte × Bool :=
  if pooled s 0 a then
    (lineParts a n).foldl (fun (x : State × List Byte × Bool) p =>
      let y := cacheRead x.1 0 p.1 p.2 0xF
      (y.1, x.2.1 ++ y.2.1, x.2.2 || y.2.2)) (s, [], false)
  else readRaw s a n 0xF 0

/-- Device memory as a partition's read shows it, without the counts of a read: a line held for the partition answers for its
addresses (R252, R254). -/
def viewFor (s : State) (pid a n : Nat) : List Byte :=
  (lineParts a n).flatMap fun p =>
    match findLine s pid (p.1 / 256 * 256) with
    | some l => bytesAt l.data (p.1 % 256) p.2
    | none => memBytes s p.1 p.2

/-- PID 0's region as a read shows it. -/
def ownView (s : State) (a n : Nat) : List Byte := viewFor s 0 a n

/-! ### Scrubbing -/

/-- The words an SRAM array holds (R225). -/
def scrubWords : ScrubArray → Nat
  | .beam _ => 393216
  | .mortise _ => 1048576
  | .store _ => 32768

/-- The number the model keeps an array's scrub position by: its Ledger ECC source (R696). -/
def scrubKey : ScrubArray → Nat
  | .beam b => b
  | .mortise t => 34 + t
  | .store c => 43 + c

/-- The device address at which an array's content stands; a physical bank without a logical one keeps its words where no access
reaches (R240). -/
def scrubBase (s : State) : ScrubArray → Nat
  | .beam b =>
    if fget s (Fd.beam_LOGICAL b) = 0x3F then spareBase + b * bankBytes else fget s (Fd.beam_LOGICAL b) * bankBytes
  | .mortise t => 0x10000000 + t * 0x800000
  | .store c => 0x20000000 + c * 0x40000

/-- Count a word that the scrubber has corrected (R227, R696). -/
def countScrub (s : State) (arr : ScrubArray) : State :=
  let s := ledgerAdd s 0x04 (scrubKey arr) 4 1
  match arr with
  | .beam _ => fadd s Fd.beam_SCRUB_CORR_COUNT 1
  | _ => s

/-- Scrub one word (R227): a correctable error is written back corrected and counted; an uncorrectable one is reported as a
read reports it (R228). -/
def scrubWord (s : State) (arr : ScrubArray) (w : Nat) : State :=
  let r := rangeOf s (w * 8)
  match mapFind s.ecc w with
  | some .corr => countScrub (eccSet (countCorr s r) w none) arr
  | some .uncorr => countUncorr s r 0xF 0xF
  | _ => s

/-- The pool line, and the word of it, that stands at word `pos` of a logical bank of the pool (R250; log entry 216). -/
def poolWordAt (s : State) (b pos : Nat) : Option (CacheLine × Nat) :=
  let n := popcount (poolBanks s) b * (bankBytes / 256) + pos / 32
  (s.cache.find? fun l => l.set * 16 + l.way == n).map fun l => (l, pos % 32)

/-- Scrub one word of a pool bank (R227, R250). -/
def scrubPool (s : State) (arr : ScrubArray) (b pos : Nat) : State :=
  match poolWordAt s b pos with
  | some (l, w) =>
    match mapFind l.ecc w with
    | some .corr =>
      let s := countScrub (countCorr s (.beam b)) arr
      { s with cache := s.cache.map fun x => if x == l then { x with ecc := mapDel x.ecc w } else x }
    | some .uncorr => countUncorr s (.beam b) 0xF 0xF
    | _ => s
  | none => s

/-- The logical pool bank that a scrubbed array serves. -/
def scrubbedPool (s : State) : ScrubArray → Option Nat
  | .beam b =>
    let l := fget s (Fd.beam_LOGICAL b)
    if l != 0x3F && bit (poolBanks s) l then some l else none
  | _ => none

/-- SCRUB_CYCLE (R227): the reserved cycle of one array; the next word in ascending address order. -/
def execScrubCycle (array : ScrubArray) (s : State) : Host.Outcome State Fault Refusal :=
  let pos := mapGet 0 s.scrub (scrubKey array)
  let t := match scrubbedPool s array with
    | some b => scrubPool s array b pos
    | none => scrubWord s array (scrubBase s array / 8 + pos)
  let last := pos + 1 == scrubWords array
  let t := { t with scrub := mapPut 0 t.scrub (scrubKey array) (if last then 0 else pos + 1) }
  match array with
  | .beam _ => .next (if last then fadd t Fd.beam_SCRUB_PASS_COUNT 1 else t)
  | _ => .next t

/-! ### Corrected-error rate -/

/-- The page that reports a Ledger ECC source. -/
def sourcePage (src : Nat) : Nat :=
  if src < 34 then 0x084 else if src < 43 then 0x010 + (src - 34) else if src < 77 then 0x040 + (src - 43) / 2
  else if src < 81 then 0x082 else 0x006

end Sys2Proof.Machine
end

