-- ==== Sys2Proof/Machine/Daybook.lean ====
section
/-! DEFINITION. The Daybook (03): records, the journal queue, the two-slot commit, the mirror, the dedupe window and
QUERY_DAYBOOK; and the Replies that a Letter gets (02 R64-R69). -/

namespace Sys2Proof.Machine

/-! ### Replies -/

/-- The 64 bytes of a Reply (R64), but for its CRC. -/
def replyBody (status rflags ch op seq tag detail epoch pm : Nat) (dk : Option Docket) (result : List Byte) :
    List Byte :=
  leBytes 1 status ++ leBytes 1 rflags ++ leBytes 1 ch ++ leBytes 1 op ++ leBytes 4 seq ++ leBytes 8 tag ++
    leBytes 4 detail ++ leBytes 2 epoch ++ leBytes 2 0 ++ leBytes 8 pm ++
    (match dk with
      | some d => d.bytes
      | none => leBytes 16 0) ++ bytesAt result 0 12

/-- A Reply with its CRC (R64, R80). -/
def replyBytes (status rflags ch op seq tag detail epoch pm : Nat) (dk : Option Docket) (result : List Byte) :
    List Byte :=
  let b := replyBody status rflags ch op seq tag detail epoch pm dk result
  b ++ leBytes 4 (crc32c b)

/-- RFLAGS DUPLICATE, IN_FLIGHT, FINAL, NOT_WALL and PHASE (R64). -/
def rfDuplicate : Nat := 1

/-- RFLAGS IN_FLIGHT. -/
def rfInFlight : Nat := 2

/-- RFLAGS FINAL. -/
def rfFinal : Nat := 4

/-- RFLAGS NOT_WALL. -/
def rfNotWall : Nat := 8

/-- RFLAGS PHASE. -/
def rfPhase : Nat := 128

/-- The outcome of a Letter that carries nothing but a status. -/
def Result.plain (status detail : Nat) : Result := ⟨status, detail, none, []⟩

/-! ### Records -/

/-- The 64 bytes of a record slot (03, Daybook record slot), with its CRC and COMMIT. -/
def slotBytes (v : Version) (jno : Nat) : List Byte :=
  let b := leBytes 1 v.state ++ leBytes 1 v.ch ++ leBytes 1 v.op ++ leBytes 1 v.status ++ leBytes 4 v.seq ++
    leBytes 8 v.tag ++ leBytes 1 v.pid ++ leBytes 1 v.sclass ++ leBytes 2 v.stream ++ leBytes 2 v.epoch ++ leBytes 2 0 ++
    leBytes 6 v.acceptPm ++ leBytes 6 v.startPm ++ leBytes 6 v.finishPm ++ leBytes 6 jno ++ leBytes 4 v.detail ++
    leBytes 4 0
  b ++ leBytes 4 (crc32c b) ++ leBytes 4 (2 ^ 32 - 1 - jno % 2 ^ 32)

/-- Address of a cell's slot (03, storage). -/
def slotAddr (cell k : Nat) : Nat := 0x30001000 + cell * 128 + k * 64

/-- Number of cells. -/
def cellCount : Nat := 16352

/-- Whether a slot's CRC matches (R105). -/
def slotValid (b : List Byte) : Bool := leAt b 0x38 4 == crc32c (bytesAt b 0 0x38)

/-- Whether a slot is valid and its COMMIT mark stands (R105). -/
def slotCommitted (b : List Byte) : Bool := slotValid b && leAt b 0x3C 4 == 2 ^ 32 - 1 - leAt b 0x2A 4

/-- Whether a slot is blank (R113). -/
def slotBlank (b : List Byte) : Bool := b.all (· == 0)

/-- JNO of a slot. -/
def slotJno (b : List Byte) : Nat := leAt b 0x2A 6

/-- Who a slot's record is of: POWER_EPOCH, CHANNEL, SEQUENCE (R111). -/
def slotOwner (b : List Byte) : Nat × Nat × Nat := (leAt b 0x14 2, leAt b 0x01 1, leAt b 0x04 4)

/-- A slot's content. -/
def slotAt (s : State) (cell k : Nat) : List Byte := memBytes s (slotAddr cell k) 64

/-- Whether slot `a` is newer than slot `b` (R104). -/
def slotNewer (a b : List Byte) : Bool := later 48 (slotJno a) (slotJno b)

/-- The slot of a cell that a version goes into (R105, two-slot commit): not the one that holds the newest committed version
of this Letter; for a first version one that is not valid, else the one with the older journal number. -/
def targetSlot (s : State) (v : Version) : Nat :=
  let a := slotAt s v.cell 0
  let b := slotAt s v.cell 1
  let mine := fun x => slotCommitted x && slotOwner x == (v.epoch, v.ch, v.seq)
  if mine a && mine b then if slotNewer a b then 1 else 0
  else if mine a then 1
  else if mine b then 0
  else if !slotValid a then 0
  else if !slotValid b then 1
  else if slotNewer a b then 1 else 0

/-! ### The mirror -/

/-- The mirror entry of a sequence from a base (R101). -/
def entryAddr (base ch seq : Nat) : Nat := base + ch * 0x80000 + seq % 4096 * 0x80

/-- DB_MIRROR_BASE (R769). -/
def mirrorBase (s : State) : Nat := fget64 s Fd.daybook_DB_MIRROR_BASE_LO Fd.daybook_DB_MIRROR_BASE_HI

/-- The mirror entry of a sequence (R101). -/
def mirrorAddr (s : State) (ch seq : Nat) : Nat := entryAddr (mirrorBase s) ch seq

/-- PEER_MIRROR_BASE (R713). -/
def peerBase (s : State) : Nat := fget64 s Fd.daybook_PEER_MIRROR_BASE_LO Fd.daybook_PEER_MIRROR_BASE_HI

/-- Whether a channel is in PEER_CHANNEL_MASK. -/
def peerMasked (s : State) (ch : Nat) : Bool :=
  bit (fget s Fd.daybook_PEER_CHANNEL_MASK_LO + fget s Fd.daybook_PEER_CHANNEL_MASK_HI * 2 ^ 32) ch

/-- Send a mirror entry to the standby (R713, R714). -/
def sendEntry (s : State) (ch seq : Nat) : State :=
  if fget s Fd.daybook_PAIR_ROLE = 1 && s.pair.streaming && peerMasked s ch then
    send s (.mirror ch seq (ownView s (mirrorAddr s ch seq) 128))
  else s

/-- Write the Reply half of a mirror entry (R101). -/
def mirrorReply (s : State) (ch seq : Nat) (bs : List Byte) : State := ownWrite s (mirrorAddr s ch seq + 64) bs

/-- The Reply half as a queued Reply has it (R101): PHASE, POWER_EPOCH, POSTMARK and CRC are not final, and the spec gives
them no value. -/
def queuedHalf (s : State) (p : PendReply) : State :=
  let d := draw s
  let b := replyBody p.res.status (p.rflags + d.2 % 2 * rfPhase) p.ch p.op p.seq p.tag p.res.detail (d.2 / 2)
    (d.2 / 2 ^ 17) p.res.docket p.res.result
  mirrorReply d.1 p.ch p.seq (b ++ leBytes 4 (d.2 / 2 ^ 81))

/-! ### The journal queue -/

/-- Whether the Daybook is volatile (R139). -/
def dbVolatile (s : State) : Bool := fget s Fd.daybook_DAYBOOK_VOLATILE == 1

/-- What follows a version's commit: the mirror record (R101), the Letter's committed state, the Replies that waited for it
(R107), and the peer's copy (R713). -/
def commitVersion (s : State) (v : Version) : State :=
  let jno := s.daybook.jno
  let s := { s with daybook := { s.daybook with jno := (jno + 1) % 2 ^ 48 } }
  let s := ownWrite s (mirrorAddr s v.ch v.seq) (slotBytes v jno)
  let s := { s with
    letters := s.letters.map fun l =>
      if l.ch == v.ch && l.l.seq.toNat == v.seq then 
        { l with commit := max l.commit v.state, jno := if v.state = 1 then jno else l.jno } else l
    replies := s.replies.map fun r => if 3 ≤ v.state && r.ch == v.ch && r.seq == v.seq then { r with waits := false } else r }
  if 3 ≤ v.state then sendEntry s v.ch v.seq else s

/-- Insert a version: Strict ones go ahead of Loose ones (R109). -/
def insertVersion (q : List Version) (v : Version) : List Version :=
  if v.strict then (q.filter fun x => x.strict) ++ [v] ++ q.filter fun x => !x.strict else q ++ [v]

/-- Whether a waiting version is the STARTED one of the Letter whose FINISHED version is now queued (R108). -/
def replacedBy (v x : Version) : Bool := v.state == 3 && x.state == 2 && x.ch == v.ch && x.seq == v.seq

/-- Queue a version (R106, R108, R109); while the Daybook is volatile it commits to the mirror at once (R139). -/
def queueVersion (s : State) (v : Version) : State :=
  if dbVolatile s then commitVersion s v
  else if s.daybook.queue.any (replacedBy v) then
    let q := s.daybook.queue.map fun x => if replacedBy v x then v else x
    { s with daybook := { s.daybook with queue := q } }
  else if s.daybook.waiting.any (replacedBy v) then
    let q := s.daybook.waiting.map fun x => if replacedBy v x then v else x
    { s with daybook := { s.daybook with waiting := q } }
  else if journalFull s then { s with daybook := { s.daybook with waiting := s.daybook.waiting ++ [v] } }
  else { s with daybook := { s.daybook with queue := insertVersion s.daybook.queue v } }

/-- Take the version at the front off the queue; the oldest that waits moves in (R109). -/
def popVersion (s : State) : State :=
  let q := s.daybook.queue.tail
  match s.daybook.waiting with
  | [] => { s with daybook := { s.daybook with queue := q } }
  | w :: ws => { s with daybook := { s.daybook with queue := insertVersion q w, waiting := ws } }

/-- Remember that a Letter was recorded while DAYBOOK_VOLATILE was set (R139): its mirror entry shows VOLATILE. A later Letter
of the same mirror entry ends that. A Letter with a version in MRAM from before the failure is not one of them, whatever its later
versions commit to: the model's choice (log entry 199). -/
def noteVolatile (s : State) (ch seq : Nat) : State :=
  let same := fun (e : Nat × Nat) => e.1 == ch && e.2 % 4096 == seq % 4096
  let kept := s.daybook.volatileRecs.filter fun e => !same e
  let recs := if dbVolatile s then (ch, seq) :: kept else kept
  { s with daybook := { s.daybook with volatileRecs := recs } }

/-- Commit a version to the mirror alone (R139): a Letter's first version makes it a Letter that is not in MRAM. -/
def commitVolatile (s : State) (v : Version) : State :=
  let s := commitVersion s v
  if v.state = 1 || v.state = 4 then noteVolatile s v.ch v.seq else s

/-- A Daybook memory failure (R137, R139): NVM_FAULT and what comes with it, DAYBOOK_VOLATILE, and every version still queued
commits to the mirror. -/
def daybookFail (s : State) (addr jno : Nat) : State :=
  let s := nvmFail s addr jno
  let s := if dbVolatile s then s else setEvent (fput s Fd.daybook_DAYBOOK_VOLATILE 1) 0x006 8
  let all := s.daybook.queue ++ s.daybook.waiting
  let s := { s with daybook := { s.daybook with queue := [], waiting := [] } }
  all.foldl commitVolatile s

/-- Store a whole slot with check bits of its own. -/
def slotPut (s : State) (addr : Nat) (bs : List Byte) : State :=
  memPut ((markedWords s addr 64).foldl (fun s w => eccSet s w none) s) addr bs

/-- The content of a slot whose write failed or was torn: the spec gives no byte of it, but that the next scan discards it (R113,
R145), so it is neither valid nor blank. Every such content is possible (log entry 152). -/
def tornBytes (d : Nat) : List Byte :=
  let head := leBytes 56 d
  let crc := (crc32c head + 1 + d / 2 ^ 448 % (2 ^ 32 - 1)) % 2 ^ 32
  let b := head ++ leBytes 4 crc ++ leBytes 4 (d / 2 ^ 512)
  if slotBlank b then leBytes 63 0 ++ [1] else b

/-- What the MRAM holds after a failed slot write (R136, R145): a read-back that differs or a write that did not complete leaves
a slot that is discarded; an uncorrectable read leaves the word uncorrectable. -/
def failedSlot (s : State) (addr : Nat) (bs : List Byte) : MramResult → State
  | .eccFail => eccSet (slotPut s addr bs) (addr / 8) (some .uncorr)
  | _ =>
    let d := draw s
    slotPut d.1 addr (tornBytes d.2)

/-- The MRAM words of an address range that fail their ECC uncorrectably. -/
def badWords (s : State) (lo hi : Nat) : List Nat :=
  (s.ecc.filter fun e => lo ≤ 8 * e.1 && 8 * e.1 < hi && e.2 == .uncorr).map fun e => 8 * e.1

/-- A slot as a reader of the MRAM sees it: one that cannot be read, or that holds a poisoned word, is not valid. -/
def scanSlot (s : State) (addr : Nat) : List Byte :=
  if s.ecc.any fun e => addr ≤ 8 * e.1 && 8 * e.1 < addr + 64 && e.2 != .corr then List.replicate 64 1 else memBytes s addr 64

/-- The Corod reads the Daybook's cells through the corrector (R225, R226, R228): each marked word counts, and each slot with an
uncorrectable word is a memory failure (R136). -/
def readDaybook (s : State) : State :=
  let bad := badWords s 0x30000000 0x30200000
  let r := (markedWords s 0x30000000 0x200000).foldl (readWord 0xF 0) (s, false)
  bad.foldl (fun t a => daybookFail t (a / 64 * 64) 0) r.1

/-- Whether a Safety Island event record waits in the Ledger queue: it is written first (R692). -/
def islandFirst (s : State) : Bool := !s.boot.holdup && s.ledger.queue.any fun v => v.cls == 0x07 && v.event

/-- JOURNAL_WRITE (R104-R107, R136, R137, R139): the version at the front of the queue goes into its slot and commits. -/
def execJournalWrite (res : MramResult) (s : State) : Host.Outcome State Fault Refusal :=
  match s.daybook.queue with
  | [] => .next s
  | v :: _ =>
    if !s.boot.scanned || dbVolatile s || islandFirst s then .next s
    else
      let jno := s.daybook.jno
      let addr := slotAddr v.cell (targetSlot s v)
      match res with
      | .written => .next (commitVersion (popVersion (slotPut s addr (slotBytes v jno))) v)
      | r => .next (daybookFail (failedSlot s addr (slotBytes v jno) r) addr jno)

/-! ### Versions of a Letter -/

/-- The version of an accepted Letter's record in its present state (03). -/
def versionOf (s : State) (l : Letter) (state : Nat) : Version :=
  { state := state, ch := l.ch, op := l.op
    status := if state = 3 then l.res.status else 0
    seq := l.l.seq.toNat, tag := l.l.tag.toNat, pid := l.pid, sclass := l.l.sclass.toNat, stream := l.l.stream.toNat
    epoch := s.time.epoch.toNat, acceptPm := l.acceptPm % 2 ^ 48, startPm := l.startPm % 2 ^ 48
    finishPm := if state = 3 then l.finishPm % 2 ^ 48 else 0
    detail := if state = 3 then l.res.detail else 0
    cell := l.cell.getD 0, strict := strictPid s l.pid }

/-- Whether a cell's Letter was accepted in this power epoch and is not yet FINISHED (R102). -/
def cellHeld (s : State) (c : Nat) : Bool := s.letters.any fun l => l.cell == some c && l.commit < 3

/-- The first cell from `c` on, in ring order, that R102 does not skip. -/
def freeCellFrom (s : State) : Nat → Nat → Nat
  | 0, c => c
  | n + 1, c => if cellHeld s c then freeCellFrom s n ((c + 1) % cellCount) else c

/-- The next cell (R102); none while the Daybook is volatile (R139). -/
def takeCell (s : State) : State × Option Nat :=
  if dbVolatile s then (s, none)
  else
    let first := match s.daybook.lastCell with
      | some c => (c + 1) % cellCount
      | none => 0
    let c := freeCellFrom s (s.letters.length + 1) first
    ({ s with daybook := { s.daybook with lastCell := some c } }, some c)

/-! ### The dedupe window -/

/-- How step 4 of R82 classifies a sequence (R120). -/
inductive WinClass where
  | fresh | inFlight | finished (peer : Bool) | stale
  deriving DecidableEq, Repr

/-- The channel's window record. -/
def chanOf (s : State) (ch : Nat) : Chan := s.chans.getD ch ⟨none, [], none⟩

/-- Replace a channel's window record. -/
def setChan (s : State) (ch : Nat) (c : Chan) : State := { s with chans := s.chans.set ch c }

/-- Window classification (R120). -/
def classify (s : State) (ch seq : Nat) : WinClass :=
  let c := chanOf s ch
  match c.high with
  | none => .fresh
  | some h =>
    let d := cyc 32 seq h
    if 1 ≤ d && d < 2 ^ 31 then .fresh
    else if 2 ^ 31 ≤ d && d ≤ 2 ^ 32 - 4096 then .stale
    else match mapFind c.win seq with
      | none => .fresh
      | some .inFlight => .inFlight
      | some .finished => .finished false
      | some .peer => .finished true

/-- Whether a sequence lies in the window below `high` (R120). -/
def inWindow (high seq : Nat) : Bool := cyc 32 high seq < 4096

/-- A sequence enters the window (R121). -/
def enterWindow (s : State) (ch seq : Nat) (st : WinSt) : State :=
  let c := chanOf s ch
  let high := match c.high with
    | none => seq
    | some h => if 1 ≤ cyc 32 seq h && cyc 32 seq h < 2 ^ 31 then seq else h
  setChan s ch { c with high := some high, win := (mapIns c.win seq st).filter fun e => inWindow high e.1 }

/-- The state of a sequence that the window still holds. -/
def markWindow (s : State) (ch seq : Nat) (st : WinSt) : State :=
  let c := chanOf s ch
  match mapFind c.win seq with
  | some _ => setChan s ch { c with win := mapIns c.win seq st }
  | none => s

/-! ### Finishing a Letter -/

/-- Whether a Letter's opcode is credited (R88). -/
def creditedOp (op : Nat) : Bool := !(op == 0x01 || op == 0x0C || op == 0x11)

/-- Whether the host can be reached for a channel (R680, R766). -/
def hostGone (s : State) (pid : Nat) : Bool := !s.pins.linkUp || s.lostFns.contains (ownerFn s pid)

/-- Queue a final Reply: its mirror half is written (R101) and its sequence is FINISHED (R125). -/
def queueReply (s : State) (p : PendReply) : State :=
  let s := queuedHalf s p
  let s := markWindow s p.ch p.seq .finished
  { s with replies := s.replies ++ [p] }

/-- The accepted Letter of a channel and sequence. -/
def letterOf (s : State) (ch seq : Nat) : Option Letter := s.letters.find? fun l => l.ch == ch && l.l.seq.toNat == seq

/-- Change an accepted Letter. -/
def updLetter (s : State) (ch seq : Nat) (f : Letter → Letter) : State :=
  { s with letters := s.letters.map fun l => if l.ch == ch && l.l.seq.toNat == seq then f l else l }

/-- Finish an accepted Letter (R103, R107, R125): its outcome, its FINISHED version, and its final Reply, which waits for that
version's commit. -/
def finishLetter (s : State) (ch seq : Nat) (r : Result) : State :=
  match letterOf s ch seq with
  | none => s
  | some l =>
    if l.phase == .finished then s
    else
      let f := now s
      let s := updLetter s ch seq fun l => { l with phase := .finished, finishPm := f, res := r }
      let l := { l with phase := .finished, finishPm := f, res := r }
      let p : PendReply := ⟨ch, l.op, seq, l.l.tag.toNat, rfFinal + rfNotWall, r, true, true, creditedOp l.op,
        strictPid s l.pid, bit l.l.lflags.toNat 0⟩
      queueVersion (queueReply s p) (versionOf s l 3)

/-- A credited Letter leaves IN_FLIGHT and the device-wide counts (R86, R87, R131). -/
def freeCredit (s : State) (ch : Nat) (strict : Bool) : State :=
  let s := fput s (Fd.chan_IN_FLIGHT ch) (fget s (Fd.chan_IN_FLIGHT ch) - 1)
  let s := fput s Fd.dev_DEV_IN_FLIGHT (fget s Fd.dev_DEV_IN_FLIGHT - 1)
  if strict then s else fput s Fd.dev_LOOSE_IN_FLIGHT (fget s Fd.dev_LOOSE_IN_FLIGHT - 1)

/-- Take a Letter whose final Reply has been written or dropped out of flight (R86). -/
def leaveFlight (s : State) (p : PendReply) : State :=
  let s := { s with letters := s.letters.filter fun l => !(l.ch == p.ch && l.l.seq.toNat == p.seq) }
  if p.credited then freeCredit s p.ch p.strict else s

/-! ### QUERY_DAYBOOK -/

/-- What a cell holds (R110-R113): the slot that tells of its Letter, whether that slot is a certain state, the state of a
newer uncommitted slot of the Letter, and the JNO that orders it. -/
structure CellRec where
  bytes : List Byte
  certain : Bool
  pendingState : Nat
  uncertain : Bool
  jno : Nat
  discarded : Nat
  deriving DecidableEq, Repr

/-- Whether a slot counts in DB_DISCARD_COUNT for itself (R113). -/
def slotDiscarded (b : List Byte) : Nat := b2n (!slotValid b && !slotBlank b)

/-- The record in a cell, from its two slots (R110-R113). -/
def cellRecord (a b : List Byte) : Option CellRec :=
  let one := fun (n : List Byte) (disc : Nat) =>
    if slotCommitted n then some (CellRec.mk n true 0 false (slotJno n) disc)
    else some (CellRec.mk n false (leAt n 0 1) true (slotJno n) disc)
  if slotValid a && slotValid b then
    let n := if slotNewer a b then a else b
    let o := if slotNewer a b then b else a
    if slotOwner n != slotOwner o then one n 1
    else if slotCommitted n then one n 0
    else if slotCommitted o then some ⟨o, true, leAt n 0 1, true, slotJno o, 0⟩
    else one n 0
  else if slotValid a then one a (slotDiscarded b)
  else if slotValid b then one b (slotDiscarded a)
  else none

/-- Cells in which some byte is listed; every other cell is blank. -/
def usedCells (s : State) : List Nat :=
  s.mem.foldl (fun (acc : List Nat) c =>
    if 0x30001000 ≤ c.1 && c.1 < 0x30200000 then
      let k := (c.1 - 0x30001000) / 128
      if acc.head? == some k then acc else k :: acc
    else acc) []

/-- Whether a journal number was given in the present power epoch. -/
def presentJno (s : State) (j : Nat) : Bool :=
  cyc 48 j s.daybook.firstJno < cyc 48 s.daybook.jno s.daybook.firstJno

/-- One entry that QUERY_DAYBOOK can return: its journal number, sequence, and 64 bytes. -/
structure QueryEntry where
  jno : Nat
  seq : Nat
  uncertain : Bool
  bytes : List Byte
  deriving DecidableEq, Repr

/-- QFLAGS (R117). -/
def qflags (uncertain volatile earlier : Bool) (pendingState : Nat) : Nat :=
  b2n uncertain + b2n volatile * 2 + b2n earlier * 4 + (if uncertain then pendingState % 16 * 16 else 0)

/-- Whether a record is of the named channel and partition and in the range asked for (R115). -/
def queryMatch (ch pid start count : Nat) (b : List Byte) : Bool :=
  leAt b 0x01 1 == ch && leAt b 0x10 1 == pid && cyc 32 (leAt b 0x04 4) start < count

/-- The entries that come from the mirror: Letters of the present power epoch (R116). -/
def mirrorEntries (s : State) (ch pid start count : Nat) : List QueryEntry :=
  (List.range count).filterMap fun i =>
    let seq := (start + i) % 2 ^ 32
    let b := ownView s (mirrorAddr s ch seq) 64
    if leAt b 0 1 != 0 && leAt b 0x04 4 == seq && queryMatch ch pid start count b && presentJno s (slotJno b) then
      some ⟨slotJno b, seq, false,
        bytesAt b 0 0x3C ++ leBytes 4 (qflags false (s.daybook.volatileRecs.contains (ch, seq)) false 0)⟩
    else none

/-- The entries that come from MRAM cells (R113, R116, R117): a slot that cannot be read is not valid. -/
def cellEntries (s : State) (ch pid start count : Nat) (have_ : List Nat) : List QueryEntry :=
  (usedCells s).filterMap fun c =>
    match cellRecord (scanSlot s (slotAddr c 0)) (scanSlot s (slotAddr c 1)) with
    | some r =>
      let earlier := !presentJno s r.jno
      let seq := leAt r.bytes 0x04 4
      if queryMatch ch pid start count r.bytes && (earlier || !have_.contains seq) then
        let head := if r.certain then bytesAt r.bytes 0 0x3C else leBytes 1 0 ++ bytesAt r.bytes 1 0x3B
        some ⟨r.jno, seq, r.uncertain, head ++ leBytes 4 (qflags r.uncertain false earlier r.pendingState)⟩
      else none
    | none => none

/-- Whether the Daybook records a Letter of a partition as ended (R142): its certain state is FINISHED or REJECTED (log entry
198). -/
def recordedEnd (s : State) (ch pid seq : Nat) : Bool :=
  let m := mirrorEntries s ch pid seq 1
  (m ++ cellEntries s ch pid seq 1 (m.map (·.seq))).any fun e => leAt e.bytes 0 1 == 3 || leAt e.bytes 0 1 == 4

/-- Insert an entry in ascending journal order (R104, R115). -/
def insertEntry (next : Nat) (e : QueryEntry) : List QueryEntry → List QueryEntry
  | [] => [e]
  | x :: xs =>
    if cyc 48 e.jno (next + 2 ^ 47) < cyc 48 x.jno (next + 2 ^ 47) then e :: x :: xs else x :: insertEntry next e xs

/-- Everything QUERY_DAYBOOK matches, in ascending journal order (R115). -/
def queryAll (s : State) (ch pid start count : Nat) : List QueryEntry :=
  let m := mirrorEntries s ch pid start count
  let all := m ++ cellEntries s ch pid start count (m.map (·.seq))
  all.foldl (fun acc e => insertEntry s.daybook.jno e acc) []

/-- What QUERY_DAYBOOK writes and answers (R115): the entries with the newest journal numbers, at most COUNT. It reads every cell;
one that cannot be read is a memory failure (R136). -/
def queryDaybook (s : State) (ch pid start count dst : Nat) : State × Result :=
  let s := readDaybook s
  let all := queryAll s ch pid start count
  let left := all.length - count
  let out := all.drop left
  let unc := (out.filter fun e => e.uncertain).length
  (hostPut s dst (out.flatMap fun e => e.bytes),
    ⟨0, 0, none, leBytes 2 out.length ++ leBytes 2 unc ++ leBytes 2 left⟩)

end Sys2Proof.Machine
end

