-- ==== Sys2Proof/Machine/Ledger.lean ====
section
/-! DEFINITION. The Ledger in MRAM (18 R689-R702): slots, the two-slot commit, the order of the MRAM write path, the periodic
commit, and the records that READ_LEDGER returns. -/

namespace Sys2Proof.Machine

/-! ### Slots -/

/-- Address of a slot of a record's cell (R689). -/
def ledgerAddr (cls idx k : Nat) : Nat := 0x30201000 + (ledgerBase cls + idx) * 128 + k * 64

/-- The 64 bytes of a Ledger slot (R689). -/
def ledgerBytes (cls idx epoch lno : Nat) (data : List Nat) : List Byte :=
  let b := leBytes 1 cls ++ leBytes 1 1 ++ leBytes 2 idx ++ leBytes 2 epoch ++ leBytes 6 lno ++ leBytes 4 0 ++
    (List.range 5).flatMap fun i => leBytes 8 (data.getD i 0)
  b ++ leBytes 4 (crc32c b) ++ leBytes 4 (2 ^ 32 - 1 - lno % 2 ^ 32)

/-- LNO of a slot. -/
def slotLno (b : List Byte) : Nat := leAt b 0x06 6

/-- Whether a Ledger slot is committed (R690, R105). -/
def ledgerCommitted (b : List Byte) : Bool := slotValid b && leAt b 0x3C 4 == 2 ^ 32 - 1 - slotLno b % 2 ^ 32

/-- Whether slot `a` has a newer Ledger number than slot `b` (R690, R104). -/
def lnoNewer (a b : List Byte) : Bool := later 48 (slotLno a) (slotLno b)

/-- The content of a slot of a record's cell, as a read of the MRAM sees it (R693). -/
def ledgerSlot (s : State) (cls idx k : Nat) : List Byte := scanSlot s (ledgerAddr cls idx k)

/-- The slot that holds a record's newest committed version (R690). -/
def ledgerNewest (s : State) (cls idx : Nat) : Option Nat :=
  let a := ledgerSlot s cls idx 0
  let b := ledgerSlot s cls idx 1
  if ledgerCommitted a && (!ledgerCommitted b || lnoNewer a b) then some 0
  else if ledgerCommitted b then some 1
  else none

/-- The slot a new version goes into (R690): never the newest committed one; with none, one that is not valid, else the
older. -/
def ledgerTarget (s : State) (cls idx : Nat) : Nat :=
  match ledgerNewest s cls idx with
  | some 0 => 1
  | some _ => 0
  | none =>
    let a := ledgerSlot s cls idx 0
    let b := ledgerSlot s cls idx 1
    if !slotValid a then 0 else if !slotValid b then 1 else if lnoNewer a b then 1 else 0

/-! ### The write path -/

/-- The Ledger slot that the MRAM write path serves next (R692, R683), with the queue without it; none when it is a Daybook
version's turn. -/
def ledgerNext (s : State) : Option (LedgerVer × List LedgerVer) :=
  match s.ledger.queue.find? fun v => islandFirst s && v.cls == 0x07 && v.event with
  | some v => some (v, s.ledger.queue.erase v)
  | none =>
    if !s.daybook.queue.isEmpty && !dbVolatile s then none
    else match s.ledger.queue with
      | v :: q => some (v, q)
      | [] => none

/-- Put a queue in place; a commit that waits moves into the room (R692). -/
def setLedgerQueue (s : State) (q : List LedgerVer) : State :=
  match s.ledger.waiting with
  | w :: ws =>
    if q.length < 256 then { s with ledger := { s.ledger with queue := q ++ [w], waiting := ws } }
    else { s with ledger := { s.ledger with queue := q } }
  | [] => { s with ledger := { s.ledger with queue := q } }

/-- Commit a Ledger version (R690). -/
def commitLedger (s : State) (v : LedgerVer) : State :=
  let lno := s.ledger.lno
  let s := slotPut s (ledgerAddr v.cls v.idx (ledgerTarget s v.cls v.idx)) (ledgerBytes v.cls v.idx s.time.epoch.toNat lno v.data)
  { s with ledger := { s.ledger with
      lno := (lno + 1) % 2 ^ 48
      committed := mapPut ledgerZero s.ledger.committed (ledgerKey v.cls v.idx) v.data } }

/-- A Ledger memory failure (R695, R137): from here the Ledger lives in the always-on values alone. -/
def ledgerFail (s : State) (addr lno : Nat) : State :=
  let s := nvmFail s addr lno
  let s := if fget s Fd.ledger_LEDGER_VOLATILE = 1 then s else setEvent (fput s Fd.ledger_LEDGER_VOLATILE 1) 0x007 8
  { s with ledger := { s.ledger with queue := [], waiting := [] } }

/-! ### PID 0's own accesses to the MRAM -/

/-- The uncorrectable words of the MRAM that an access covers. -/
def mramBad (s : State) (a n : Nat) : List Nat :=
  (markedWords s a n).filter fun w => mapFind s.ecc w == some .uncorr && rangeOf s (w * 8) == .mram

/-- A read of the MRAM that fails its ECC is a failure of the memory that the word belongs to (R136, R695). -/
def mramFail (s : State) (w : Nat) : State :=
  if w * 8 < 0x30200000 then daybookFail s (w * 8 / 64 * 64) 0
  else if w * 8 < 0x30300000 then ledgerFail s (w * 8 / 64 * 64) 0 else s

/-- A read of device memory by a PID, the MRAM included (R136, R268, R695). -/
def pidRead (s : State) (pid a n sclass : Nat) : State × List Byte × Access :=
  let r := devRead s pid a n sclass
  if r.2.2 = .blocked then r else ((mramBad s a n).foldl mramFail r.1, r.2)

/-- A write of device memory by a PID, the MRAM included: a word written in part is read for the merge (R136, R765). -/
def pidWrite (s : State) (pid a : Nat) (bs : List Byte) (sclass : Nat) : State × Access :=
  let r := devWrite s pid a bs sclass
  let part := fun w => !(a ≤ w * 8 && w * 8 + 8 ≤ a + bs.length)
  if r.2 = .blocked then r else (((mramBad s a bs.length).filter part).foldl mramFail r.1, r.2)

/-- LEDGER_SLOT_WRITE (R690, R692, R695): the MRAM write path writes and commits one queued Ledger slot. -/
def execLedgerSlotWrite (res : MramResult) (s : State) : Host.Outcome State Fault Refusal :=
  if s.boot.ledgerScanned && fget s Fd.ledger_LEDGER_VOLATILE = 0 then
    match ledgerNext s with
    | none => .next s
    | some (v, q) =>
      let addr := ledgerAddr v.cls v.idx (ledgerTarget s v.cls v.idx)
      match res with
      | .written => .next (commitLedger (setLedgerQueue s q) v)
      | r => .next (ledgerFail (failedSlot s addr (ledgerBytes v.cls v.idx s.time.epoch.toNat s.ledger.lno v.data) r) addr
          s.ledger.lno)
  else .next s

/-! ### Commits -/

/-- A record's always-on values, with powered ms of LIFE as it stands (R696, R698). -/
def ledgerLive (s : State) (cls idx : Nat) : List Nat :=
  let v := ledgerVals s cls idx
  if cls = 0x01 && idx = 0 then v.set 3 (poweredMs s) else v

/-- Whether a record's values are ahead of its newest committed version (R700). -/
def ledgerAhead (s : State) (cls idx : Nat) : Bool :=
  mapGet ledgerZero s.ledger.committed (ledgerKey cls idx) != ledgerLive s cls idx

/-- Queue every record whose values changed since its last commit (R691). -/
def commitChanged (s : State) : State :=
  let s := ledgerSet s 0x01 0 (ledgerLive s 0x01 0)
  let keys := ((s.ledger.vals.map (·.1)).filter fun k => !ledgerRing (k / 256) && ledgerAhead s (k / 256) (k % 256))
  keys.foldl (fun s k => ledgerQueue s (k / 256) (k % 256)) s

/-- LEDGER_PERIODIC_COMMIT (R691): every 1,500,000,000 pt. -/
def execLedgerPeriodicCommit (s : State) : Host.Outcome State Fault Refusal :=
  if s.boot.ledgerScanned && !s.boot.holdup && s.time.running && s.ledger.nextPeriodic ≤ now s then
    let t : State := { s with ledger := { s.ledger with nextPeriodic := s.ledger.nextPeriodic + 1500000000 } }
    if fget t Fd.ledger_LEDGER_VOLATILE = 1 then .next t
    else
      let t := fput (fput t Fd.ledger_LAST_COMMIT_PM_LO (now s)) Fd.ledger_LAST_COMMIT_PM_HI (now s / 2 ^ 32)
      .next (commitChanged t)
  else .next s

/-! ### READ_LEDGER -/

/-- The index of a record that READ_LEDGER names (R701): in a ring class 0 is the newest event; none for an event that has
not been. -/
def ledgerIndex (s : State) (cls i : Nat) : Option Nat :=
  if ledgerRing cls then
    let n := mapGet 0 s.ledger.rings cls
    if i < n then some ((n - 1 - i) % ledgerCount cls) else none
  else some i

/-- Whether an index has never been written (R700). -/
def ledgerEmpty (s : State) (cls idx : Nat) : Bool :=
  (ledgerNewest s cls idx).isNone && ledgerLive s cls idx == ledgerZero

/-- READ_LEDGER reads a record's cell through the corrector (R226, R228); an uncorrectable word is a failure of the Ledger memory
(R695, R136), after which the always-on values answer alone. -/
def readCell (s : State) (cls i : Nat) : State :=
  match ledgerIndex s cls i with
  | some k =>
    if fget s Fd.ledger_LEDGER_VOLATILE = 1 then s
    else
      let a := ledgerAddr cls k 0
      (mramBad s a 128).foldl mramFail (readRaw s a 128 0xF 0).1
  | none => s

/-- One record as READ_LEDGER returns it (R700). With no committed slot the spec does not give the bytes beside DATA and
RFLAGS: they are free. -/
def ledgerRecord (s : State) (cls i : Nat) : State × List Byte :=
  let vol := b2n (fget s Fd.ledger_LEDGER_VOLATILE == 1) * 2
  let idx := ledgerIndex s cls i
  let base : State × List Byte :=
    match idx.bind fun k => (ledgerNewest s cls k).map fun n => ledgerSlot s cls k n with
    | some b => (s, b)
    | none => let d := draw s; (d.1, leBytes 64 d.2)
  let data := match idx with
    | some k => ledgerLive s cls k
    | none => ledgerZero
  let flags := match idx with
    | some k => b2n (ledgerAhead s cls k) + vol + b2n (ledgerEmpty s cls k) * 4
    | none => vol + 4
  (base.1, base.2.take 16 ++ ((List.range 5).flatMap fun j => leBytes 8 (data.getD j 0)) ++ (base.2.drop 0x38).take 4 ++
    leBytes 4 flags)

/-- The records of READ_LEDGER, in ascending index order (R700). -/
def ledgerRecords (s : State) (cls start count : Nat) : State × List Byte :=
  (List.range count).foldl (fun (a : State × List Byte) i =>
    let r := ledgerRecord (readCell a.1 cls (start + i)) cls (start + i)
    (r.1, a.2 ++ r.2)) (s, [])

end Sys2Proof.Machine
end

