-- ==== Sys2Proof/Machine/Fpu.lean ====
section
/-! DEFINITION. The floating-point operations of a joiner core (08 R316, R320): the F and D extensions, with every rounding mode,
denormal operands and results, the canonical NaN and the exception flags of the RISC-V standard (log entry 40). -/

namespace Sys2Proof.Machine

/-- FP64. -/
def fp64 : FloatFmt := ⟨11, 52, 1023, false⟩

/-- Bits of a format. -/
def FloatFmt.width (f : FloatFmt) : Nat := 1 + f.ebits + f.mbits

/-- Whether an encoding is a NaN. -/
def fNan (f : FloatFmt) (v : Nat) : Bool := (floatValue f v).isNan

/-- Whether an encoding is a signalling NaN. -/
def fSnan (f : FloatFmt) (v : Nat) : Bool := fNan f v && !bit v (f.mbits - 1)

/-- The sign of an encoding. -/
def fSign (f : FloatFmt) (v : Nat) : Bool := bit v (f.ebits + f.mbits)

/-- A result and the exception flags it raises: NV 16, DZ 8, OF 4, UF 2, NX 1. -/
abbrev FRes := Nat × Nat

/-- Whether a magnitude with quotient `q`, remainder `r` over `d` rounds up under a mode: 0 nearest even, 1 toward zero, 2 down,
3 up, 4 nearest, ties away. -/
def roundsUp (rm : Nat) (neg : Bool) (q r d : Nat) : Bool :=
  match rm with
  | 0 => d < 2 * r || (2 * r == d && q % 2 == 1)
  | 1 => false
  | 2 => neg && r != 0
  | 3 => !neg && r != 0
  | _ => d ≤ 2 * r

/-- A magnitude n / d cut at the exponent `q` of its last place: quotient, remainder and divisor. -/
def cutAt (n d : Nat) (q : Int) : Nat × Nat × Nat :=
  let nn := if 0 ≤ q then n else n * 2 ^ (-q).toNat
  let dd := if 0 ≤ q then d * 2 ^ q.toNat else d
  (nn / dd, nn % dd, dd)

/-- Whether a magnitude is tiny after rounding. -/
def tinyAfter (f : FloatFmt) (rm : Nat) (neg : Bool) (n d : Nat) : Bool :=
  let emin : Int := 1 - (f.bias : Int)
  let e := log2Frac n d
  if emin ≤ e then false
  else
    let c := cutAt n d (e - (f.mbits : Int))
    let m := c.1 + if roundsUp rm neg c.1 c.2.1 c.2.2 then 1 else 0
    !(e == emin - 1 && m == 2 ^ (f.mbits + 1))

/-- Round a value under a mode, with its flags. -/
def roundRm (f : FloatFmt) (rm : Nat) (x : Xv) : FRes :=
  let sign := 2 ^ (f.ebits + f.mbits)
  match x with
  | .nan => (canonNan f, 0)
  | .inf s => (b2n s * sign + overBits f, 0)
  | .fin s n d =>
    if n = 0 then (b2n s * sign, 0)
    else
      let emin : Int := 1 - (f.bias : Int)
      let e := max (log2Frac n d) emin
      let c := cutAt n d (e - (f.mbits : Int))
      let m := c.1 + if roundsUp rm s c.1 c.2.1 c.2.2 then 1 else 0
      let b := (e - emin).toNat * 2 ^ f.mbits + m
      if overBits f ≤ b then
        let toInf := rm == 0 || rm == 4 || (rm == 2 && s) || (rm == 3 && !s)
        (b2n s * sign + if toInf then overBits f else overBits f - 1, 5)
      else
        let nx := c.2.1 != 0
        (b2n s * sign + b, if nx then if tinyAfter f rm s n d then 3 else 1 else 0)

/-- Add flags to a result. -/
def FRes.also (r : FRes) (fl : Nat) : FRes := (r.1, r.2 ||| fl)

/-- NV when an operand is a signalling NaN. -/
def snanFlag (f : FloatFmt) (vs : List Nat) : Nat := if vs.any (fSnan f) then 16 else 0

/-- The sum of two values, where a zero sum of opposite signs is −0 only when rounding down. -/
def xvAdd (rm : Nat) (a b : Xv) : Xv :=
  match a, b with
  | .fin s _ _, .fin t _ _ => match exactSum [a, b] with
    | .fin _ 0 _ => .fin (if s == t then s else rm == 2) 0 1
    | v => v
  | _, _ => exactSum [a, b]

/-- Invalid: a NaN that no NaN operand explains. -/
def freshNan (ins : List Xv) (r : Xv) : Nat := if r.isNan && !(ins.any (·.isNan)) then 16 else 0

/-- FADD and FSUB. -/
def fAdd (f : FloatFmt) (rm a b : Nat) (sub : Bool) : FRes :=
  let x := floatValue f a
  let y := if sub then (floatValue f b).neg else floatValue f b
  let r := xvAdd rm x y
  (roundRm f rm r).also (snanFlag f [a, b] ||| freshNan [x, y] r)

/-- FMUL. -/
def fMul (f : FloatFmt) (rm a b : Nat) : FRes :=
  let x := floatValue f a
  let y := floatValue f b
  let r := x.mul y
  (roundRm f rm r).also (snanFlag f [a, b] ||| freshNan [x, y] r)

/-- FDIV. -/
def fDiv (f : FloatFmt) (rm a b : Nat) : FRes :=
  let x := floatValue f a
  let y := floatValue f b
  match x.div y with
  | some r => (roundRm f rm r).also (snanFlag f [a, b] ||| freshNan [x, y] r)
  | none =>
    let zero : Bool := match x with
      | .fin _ 0 _ => true
      | _ => false
    if zero then (canonNan f, 16) else (roundRm f rm (.inf (fSign f a != fSign f b)) |>.also 8)

/-- The floor square root of n / d scaled by 4^k, with a sticky half unit when it is inexact. -/
def sqrtXv (n d k : Nat) : Xv :=
  let v := n * d * 4 ^ k
  let top := Nat.log2 v / 2 + 1
  let r := (List.range top).foldl (fun r i => let q := r + 2 ^ (top - 1 - i); if q * q ≤ v then q else r) 0
  .fin false (2 * r + if r * r = v then 0 else 1) (2 * d * 2 ^ k)

/-- FSQRT: the root to more places than the format keeps, and a sticky unit below them. -/
def fSqrt (f : FloatFmt) (rm a : Nat) : FRes :=
  match floatValue f a with
  | .nan => (canonNan f, snanFlag f [a])
  | .inf s => if s then (canonNan f, 16) else (overBits f, 0)
  | .fin s n d => if n = 0 then (a, 0) else if s then (canonNan f, 16) else roundRm f rm (sqrtXv n d (f.mbits + f.ebits + f.bias))

/-- The fused multiply-adds: the product and the addend may each be negated. -/
def fMadd (f : FloatFmt) (rm a b c : Nat) (negP negC : Bool) : FRes :=
  let x := floatValue f a
  let y := floatValue f b
  let z := if negC then (floatValue f c).neg else floatValue f c
  let p := x.mul y
  let p := if negP then p.neg else p
  let r := xvAdd rm p z
  let bad := p.isNan && !x.isNan && !y.isNan
  (roundRm f rm r).also (snanFlag f [a, b, c] ||| (if bad then 16 else 0) ||| freshNan [p, z] r)

/-- FMIN and FMAX. -/
def fMinMax (f : FloatFmt) (a b : Nat) (isMax : Bool) : FRes :=
  let fl := snanFlag f [a, b]
  if fNan f a && fNan f b then (canonNan f, fl)
  else if fNan f a then (b, fl)
  else if fNan f b then (a, fl)
  else
    let x := floatValue f a
    let y := floatValue f b
    let below : Bool := x.lt y || (!y.lt x && fSign f a && !fSign f b)
    ((if below != isMax then a else b), fl)

/-- FLE, FLT, FEQ by funct3 0, 1, 2. -/
def fCmp (f : FloatFmt) (a b f3 : Nat) : FRes :=
  let x := floatValue f a
  let y := floatValue f b
  if x.isNan || y.isNan then (0, if f3 = 2 then snanFlag f [a, b] else 16)
  else
    let eq := !x.lt y && !y.lt x
    (b2n (match f3 with
      | 0 => x.lt y || eq
      | 1 => x.lt y
      | _ => eq), 0)

/-- FCLASS. -/
def fClass (f : FloatFmt) (a : Nat) : Nat :=
  let s := fSign f a
  let e := bits a (f.ebits + f.mbits - 1) f.mbits
  let m := a % 2 ^ f.mbits
  if fNan f a then if fSnan f a then 2 ^ 8 else 2 ^ 9
  else if e = 2 ^ f.ebits - 1 then if s then 1 else 2 ^ 7
  else if e = 0 then if m = 0 then if s then 2 ^ 3 else 2 ^ 4 else if s then 2 ^ 2 else 2 ^ 5
  else if s then 2 ^ 1 else 2 ^ 6

/-- FSGNJ, FSGNJN, FSGNJX by funct3. -/
def fSgnj (f : FloatFmt) (a b f3 : Nat) : Nat :=
  let s := match f3 with
    | 0 => fSign f b
    | 1 => !fSign f b
    | _ => fSign f a != fSign f b
  a % 2 ^ (f.width - 1) + b2n s * 2 ^ (f.width - 1)

/-- Round a value to an integer under a mode, and whether it was inexact. -/
def toInteger (rm : Nat) (s : Bool) (n d : Nat) : Int × Bool :=
  let q := n / d
  let r := n % d
  let m := q + if roundsUp rm s q r d then 1 else 0
  (signed s m, r != 0)

/-- FCVT to an integer of a width, signed or not: the 64 result bits; a 32-bit result is sign-extended. -/
def fToInt (f : FloatFmt) (rm a width : Nat) (sgn : Bool) : FRes :=
  let lo : Int := if sgn then -(2 ^ (width - 1) : Nat) else 0
  let hi : Int := if sgn then (2 ^ (width - 1) : Nat) - 1 else (2 ^ width : Nat) - 1
  let out := fun (i : Int) => ofSigned 64 (toSigned width (ofSigned width i))
  match floatValue f a with
  | .nan => (out hi, 16)
  | .inf s => (out (if s then lo else hi), 16)
  | .fin s n d =>
    let r := toInteger rm s n d
    if r.1 < lo then (out lo, 16) else if hi < r.1 then (out hi, 16) else (out r.1, b2n r.2)

/-- FCVT from an integer. -/
def fOfInt (f : FloatFmt) (rm : Nat) (i : Int) : FRes := roundRm f rm (.ofInt i)

/-- FCVT between the formats. -/
def fConv (src dst : FloatFmt) (rm a : Nat) : FRes := (roundRm dst rm (floatValue src a)).also (snanFlag src [a])

end Sys2Proof.Machine
end

