-- ==== Sys2Proof/Machine/Gen.lean ====
section
/-! DEFINITION. The counter-based generator gen_block (10 R418; 14 R558-R560). -/

namespace Sys2Proof.Machine

/-- A left rotation of a 32-bit word. -/
def rotl (x : BitVec 32) (n : Nat) : BitVec 32 := x.rotateLeft n

/-- The four words of a block under way, and the key words of the round. -/
structure GenSt where
  x0 : BitVec 32
  x1 : BitVec 32
  x2 : BitVec 32
  x3 : BitVec 32
  k0 : BitVec 32
  k1 : BitVec 32
  deriving DecidableEq, Repr

/-- One round (R418). -/
def genRound (g : GenSt) : GenSt :=
  let x0 := g.x0 + g.x1
  let x3 := rotl (g.x3 ^^^ x0) 16
  let x2 := g.x2 + x3
  let x1 := rotl (g.x1 ^^^ x2) 12
  let x0 := x0 + x1
  let x3 := rotl (x3 ^^^ x0) 8
  let x2 := x2 + x3
  let x1 := rotl (x1 ^^^ x2) 7
  ⟨x0 ^^^ g.k0, x1, x2 ^^^ g.k1, x3, g.k0 + 0x9E3779B9, g.k1 + 0xBB67AE85⟩

/-- Ten rounds. -/
def genRounds : Nat → GenSt → GenSt
  | 0, g => g
  | n + 1, g => genRounds n (genRound g)

/-- gen_block (R418): the four words of a block. -/
def genBlock (key c0 c1 c2 c3 : Nat) : List Nat :=
  let w := fun (n : Nat) => BitVec.ofNat 32 n
  let g := genRounds 10 ⟨w c0, w c1, w c2, w c3, w key, w (key / 2 ^ 32)⟩
  [(g.x0 + w c0).toNat, (g.x1 + w c1).toNat, (g.x2 + w c2).toNat, (g.x3 + w c3).toNat]

end Sys2Proof.Machine
end

