-- ==== Sys2Proof/Machine/Riscv.lean ====
section
/-! DEFINITION. The instruction encodings of a joiner core (08 R316, R326, R331): RV64IMAFDC with its control and status register
instructions, and the vendor instructions. The spec names the standard extensions; their encodings are those of the RISC-V
standard (log entry 40). -/

namespace Sys2Proof.Machine

/-! ### Fields -/

/-- Major opcode of a 32-bit instruction. -/
def rvOp (w : Nat) : Nat := w % 128

/-- rd. -/
def rvRd (w : Nat) : Nat := bits w 11 7

/-- funct3. -/
def rvF3 (w : Nat) : Nat := bits w 14 12

/-- rs1. -/
def rvRs1 (w : Nat) : Nat := bits w 19 15

/-- rs2. -/
def rvRs2 (w : Nat) : Nat := bits w 24 20

/-- funct7. -/
def rvF7 (w : Nat) : Nat := bits w 31 25

/-- Immediate of an I-type instruction. -/
def rvImmI (w : Nat) : Int := toSigned 12 (bits w 31 20)

/-- Immediate of an S-type instruction. -/
def rvImmS (w : Nat) : Int := toSigned 12 (rvF7 w * 32 + rvRd w)

/-- Immediate of a B-type instruction. -/
def rvImmB (w : Nat) : Int :=
  toSigned 13 (bits w 31 31 * 2 ^ 12 + bits w 7 7 * 2 ^ 11 + bits w 30 25 * 2 ^ 5 + bits w 11 8 * 2)

/-- Immediate of a U-type instruction. -/
def rvImmU (w : Nat) : Int := toSigned 32 (bits w 31 12 * 2 ^ 12)

/-- Immediate of a J-type instruction. -/
def rvImmJ (w : Nat) : Int :=
  toSigned 21 (bits w 31 31 * 2 ^ 20 + bits w 19 12 * 2 ^ 12 + bits w 20 20 * 2 ^ 11 + bits w 30 21 * 2)

/-! ### Encoders for the expansion of compressed instructions -/

/-- An R-type word. -/
def mkR (f7 rs2 rs1 f3 rd op : Nat) : Nat := f7 * 2 ^ 25 + rs2 * 2 ^ 20 + rs1 * 2 ^ 15 + f3 * 2 ^ 12 + rd * 2 ^ 7 + op

/-- An I-type word. -/
def mkI (imm : Int) (rs1 f3 rd op : Nat) : Nat :=
  ofSigned 12 imm * 2 ^ 20 + rs1 * 2 ^ 15 + f3 * 2 ^ 12 + rd * 2 ^ 7 + op

/-- An S-type word. -/
def mkS (imm : Int) (rs2 rs1 f3 op : Nat) : Nat :=
  let v := ofSigned 12 imm
  v / 32 * 2 ^ 25 + rs2 * 2 ^ 20 + rs1 * 2 ^ 15 + f3 * 2 ^ 12 + v % 32 * 2 ^ 7 + op

/-- A B-type word. -/
def mkB (imm : Int) (rs2 rs1 f3 : Nat) : Nat :=
  let v := ofSigned 13 imm
  bits v 12 12 * 2 ^ 31 + bits v 10 5 * 2 ^ 25 + rs2 * 2 ^ 20 + rs1 * 2 ^ 15 + f3 * 2 ^ 12 + bits v 4 1 * 2 ^ 8 +
    bits v 11 11 * 2 ^ 7 + 0x63

/-- A J-type word. -/
def mkJ (imm : Int) (rd : Nat) : Nat :=
  let v := ofSigned 21 imm
  bits v 20 20 * 2 ^ 31 + bits v 10 1 * 2 ^ 21 + bits v 11 11 * 2 ^ 20 + bits v 19 12 * 2 ^ 12 + rd * 2 ^ 7 + 0x6F

/-- The jump offset of C.J. -/
def cJImm (c : Nat) : Int :=
  toSigned 12 (bits c 12 12 * 2 ^ 11 + bits c 11 11 * 2 ^ 4 + bits c 10 9 * 2 ^ 8 + bits c 8 8 * 2 ^ 10 +
    bits c 7 7 * 2 ^ 6 + bits c 6 6 * 2 ^ 7 + bits c 5 3 * 2 + bits c 2 2 * 2 ^ 5)

/-- The branch offset of C.BEQZ. -/
def cBImm (c : Nat) : Int :=
  toSigned 9 (bits c 12 12 * 2 ^ 8 + bits c 11 10 * 2 ^ 3 + bits c 6 5 * 2 ^ 6 + bits c 4 3 * 2 + bits c 2 2 * 2 ^ 5)

/-- The six-bit immediate of CI forms. -/
def cImm6 (c : Nat) : Nat := bits c 12 12 * 32 + bits c 6 2

/-- Quadrant 0 of the compressed instructions. -/
def expand0 (c : Nat) : Option Nat :=
  let rd := bits c 4 2 + 8
  let rs := bits c 9 7 + 8
  let offD := bits c 12 10 * 8 + bits c 6 5 * 64
  let offW := bits c 12 10 * 8 + bits c 6 6 * 4 + bits c 5 5 * 64
  match bits c 15 13 with
  | 0 =>
    let imm := bits c 12 11 * 16 + bits c 10 7 * 64 + bits c 6 6 * 4 + bits c 5 5 * 8
    if imm = 0 then none else some (mkI imm 2 0 rd 0x13)
  | 1 => some (mkI offD rs 3 rd 0x07)
  | 2 => some (mkI offW rs 2 rd 0x03)
  | 3 => some (mkI offD rs 3 rd 0x03)
  | 5 => some (mkS offD rd rs 3 0x27)
  | 6 => some (mkS offW rd rs 2 0x23)
  | 7 => some (mkS offD rd rs 3 0x23)
  | _ => none

/-- The register-register group of quadrant 1. -/
def expandAlu (c : Nat) : Option Nat :=
  let rd := bits c 9 7 + 8
  let rs2 := bits c 4 2 + 8
  match bits c 11 10 with
  | 0 => some (mkI (cImm6 c : Nat) rd 5 rd 0x13)
  | 1 => some (mkI ((cImm6 c + 0x400 : Nat) : Int) rd 5 rd 0x13)
  | 2 => some (mkI (toSigned 6 (cImm6 c)) rd 7 rd 0x13)
  | _ =>
    if bit c 12 then
      match bits c 6 5 with
      | 0 => some (mkR 0x20 rs2 rd 0 rd 0x3B)
      | 1 => some (mkR 0 rs2 rd 0 rd 0x3B)
      | _ => none
    else
      match bits c 6 5 with
      | 0 => some (mkR 0x20 rs2 rd 0 rd 0x33)
      | 1 => some (mkR 0 rs2 rd 4 rd 0x33)
      | 2 => some (mkR 0 rs2 rd 6 rd 0x33)
      | _ => some (mkR 0 rs2 rd 7 rd 0x33)

/-- Quadrant 1 of the compressed instructions. -/
def expand1 (c : Nat) : Option Nat :=
  let rd := bits c 11 7
  let imm := toSigned 6 (cImm6 c)
  match bits c 15 13 with
  | 0 => some (mkI imm rd 0 rd 0x13)
  | 1 => if rd = 0 then none else some (mkI imm rd 0 rd 0x1B)
  | 2 => some (mkI imm 0 0 rd 0x13)
  | 3 =>
    if rd = 2 then
      let v := toSigned 10 (bits c 12 12 * 512 + bits c 6 6 * 16 + bits c 5 5 * 64 + bits c 4 3 * 128 + bits c 2 2 * 32)
      if v = 0 then none else some (mkI v 2 0 2 0x13)
    else if imm = 0 then none
    else some (ofSigned 20 imm * 2 ^ 12 + rd * 2 ^ 7 + 0x37)
  | 4 => expandAlu c
  | 5 => some (mkJ (cJImm c) 0)
  | 6 => some (mkB (cBImm c) 0 (bits c 9 7 + 8) 0)
  | _ => some (mkB (cBImm c) 0 (bits c 9 7 + 8) 1)

/-- Quadrant 2 of the compressed instructions. -/
def expand2 (c : Nat) : Option Nat :=
  let rd := bits c 11 7
  let rs2 := bits c 6 2
  let ldD := bits c 12 12 * 32 + bits c 6 5 * 8 + bits c 4 2 * 64
  let ldW := bits c 12 12 * 32 + bits c 6 4 * 4 + bits c 3 2 * 64
  let stD := bits c 12 10 * 8 + bits c 9 7 * 64
  let stW := bits c 12 9 * 4 + bits c 8 7 * 64
  match bits c 15 13 with
  | 0 => some (mkI (cImm6 c : Nat) rd 1 rd 0x13)
  | 1 => some (mkI ldD 2 3 rd 0x07)
  | 2 => if rd = 0 then none else some (mkI ldW 2 2 rd 0x03)
  | 3 => if rd = 0 then none else some (mkI ldD 2 3 rd 0x03)
  | 4 =>
    if bit c 12 then
      if rd = 0 && rs2 = 0 then some 0x00100073
      else if rs2 = 0 then some (mkI 0 rd 0 1 0x67)
      else some (mkR 0 rs2 rd 0 rd 0x33)
    else if rs2 = 0 then if rd = 0 then none else some (mkI 0 rd 0 0 0x67)
    else some (mkR 0 rs2 0 0 rd 0x33)
  | 5 => some (mkS stD rs2 2 3 0x27)
  | 6 => some (mkS stW rs2 2 2 0x23)
  | _ => some (mkS stD rs2 2 3 0x23)

/-- The 32-bit instruction a compressed one stands for; none for an undefined encoding. -/
def expandC (c : Nat) : Option Nat :=
  match c % 4 with
  | 0 => expand0 c
  | 1 => expand1 c
  | 2 => expand2 c
  | _ => none

/-! ### Defined encodings -/

/-- Whether a rounding mode field is defined. -/
def rmOk (rm : Nat) : Bool := rm ≤ 4 || rm == 7

/-- Whether an OP-FP encoding is defined. -/
def opFpOk (w : Nat) : Bool :=
  let f7 := rvF7 w
  let f3 := rvF3 w
  let rs2 := rvRs2 w
  let f5 := f7 / 4
  if 2 ≤ f7 % 4 then false
  else if f5 ≤ 3 then rmOk f3
  else match f5 with
    | 0x0B => rs2 == 0 && rmOk f3
    | 0x04 => f3 ≤ 2
    | 0x05 => f3 ≤ 1
    | 0x08 => rs2 == 1 - f7 % 4 && rmOk f3
    | 0x14 => f3 ≤ 2
    | 0x18 => rs2 ≤ 3 && rmOk f3
    | 0x1A => rs2 ≤ 3 && rmOk f3
    | 0x1C => rs2 == 0 && f3 ≤ 1
    | 0x1E => rs2 == 0 && f3 == 0
    | _ => false

/-- Whether an AMO encoding is defined. -/
def amoOk (w : Nat) : Bool :=
  (rvF3 w == 2 || rvF3 w == 3) &&
    ([0, 1, 3, 4, 8, 0xC, 0x10, 0x14, 0x18, 0x1C].contains (rvF7 w / 4) || (rvF7 w / 4 == 2 && rvRs2 w == 0))

/-- Whether a vendor encoding is defined (R331). -/
def vendorOk (w : Nat) : Bool :=
  if rvOp w = 0x0B then rvF7 w == 0 && (rvF3 w == 0 || ((rvF3 w == 1 || rvF3 w == 2) && rvRs2 w == 0))
  else (rvF3 w == 0 && rvF7 w ≤ 3 && rvRs2 w == 0) || (rvF3 w == 1 && rvF7 w == 0 && rvRs2 w == 0 && rvRd w == 0)

/-- Whether a 32-bit encoding is defined. -/
def rvDefined (w : Nat) : Bool :=
  let f3 := rvF3 w
  let f7 := rvF7 w
  match rvOp w with
  | 0x03 => f3 ≤ 6
  | 0x07 => f3 == 2 || f3 == 3
  | 0x0B => vendorOk w
  | 0x0F => f3 == 0
  | 0x13 => if f3 = 1 then f7 / 2 == 0 else if f3 = 5 then f7 / 2 == 0 || f7 / 2 == 0x10 else true
  | 0x17 => true
  | 0x1B => f3 == 0 || (f3 == 1 && f7 == 0) || (f3 == 5 && (f7 == 0 || f7 == 0x20))
  | 0x23 => f3 ≤ 3
  | 0x27 => f3 == 2 || f3 == 3
  | 0x2B => vendorOk w
  | 0x2F => amoOk w
  | 0x33 => f7 == 0 || f7 == 1 || (f7 == 0x20 && (f3 == 0 || f3 == 5))
  | 0x37 => true
  | 0x3B => (f7 == 0 && (f3 == 0 || f3 == 1 || f3 == 5)) || (f7 == 0x20 && (f3 == 0 || f3 == 5)) ||
      (f7 == 1 && (f3 == 0 || 4 ≤ f3))
  | 0x43 => f7 % 4 ≤ 1 && rmOk f3
  | 0x47 => f7 % 4 ≤ 1 && rmOk f3
  | 0x4B => f7 % 4 ≤ 1 && rmOk f3
  | 0x4F => f7 % 4 ≤ 1 && rmOk f3
  | 0x53 => opFpOk w
  | 0x63 => f3 != 2 && f3 != 3
  | 0x67 => f3 == 0
  | 0x6F => true
  | 0x73 => if f3 = 0 then w == 0x73 || w == 0x00100073 || w == 0x30200073 || w == 0x10500073 else f3 != 4
  | _ => false

/-- A control and status register that user mode may access (R322). -/
def userCsr (a : Nat) : Bool := [1, 2, 3, 0xC00, 0xC01, 0xC02].contains a

/-- Whether an instruction may stand in JOINER_CODE (R326): defined, no machine-mode instruction, MRET or WFI, and only
user-mode control and status registers. -/
def rvLoadable (w : Nat) : Bool :=
  rvDefined w && w != 0x30200073 && w != 0x10500073 &&
    (rvOp w != 0x73 || rvF3 w == 0 || userCsr (bits w 31 20))

/-- The first parcel that fails R326 in code of `n` 16-bit parcels read by `rd`, from parcel `i` on. -/
def codeFault (rd : Nat → Nat) (n : Nat) : Nat → Nat → Option Nat
  | 0, _ => none
  | fuel + 1, i =>
    if n ≤ i then none
    else
      let p := rd i
      if p % 4 = 3 then
        let w := p + rd (i + 1) * 2 ^ 16
        if p % 32 = 31 || n ≤ i + 1 || !rvLoadable w then some i else codeFault rd n fuel (i + 2)
      else match expandC p with
        | some w => if rvLoadable w then codeFault rd n fuel (i + 1) else some i
        | none => some i

end Sys2Proof.Machine
end

