-- ==== Sys2Proof/Machine/Plans.lean ====
section
/-! DEFINITION. The plan container as words, its header, sections, tensors, streams and operators (05 R195-R203), and the shapes
and parameters that passes 3 to 6 of R205 check. -/

namespace Sys2Proof.Machine

/-! ### Reading a container -/

/-- Word `i` of a container. -/
def pw (p : List W32) (i : Nat) : Nat := ((p[i]?).map (·.toNat)).getD 0

/-- The words of a container's bytes. -/
def wordsOf : List Byte → List W32
  | a :: b :: c :: d :: l => BitVec.ofNat 32 (leNat [a, b, c, d]) :: wordsOf l
  | _ => []

/-- The bytes of a container's words. -/
def bytesOfWords (p : List W32) : List Byte := p.flatMap fun w => leBytes 4 w.toNat

/-- SECTION_COUNT. -/
def secCount (p : List W32) : Nat := bits (pw p 3) 3 0

/-- STRICT. -/
def planStrict (p : List W32) : Bool := bit (pw p 3) 4

/-- TENSOR_COUNT. -/
def tensorCount (p : List W32) : Nat := bits (pw p 5) 11 0

/-- STREAM_COUNT. -/
def streamCount (p : List W32) : Nat := bits (pw p 5) 23 16

/-- OPERATOR_COUNT. -/
def operatorCount (p : List W32) : Nat := bits (pw p 6) 11 0

/-- The table entry of a section of a kind. -/
def secEntry (p : List W32) (kind : Nat) : Option Nat :=
  (List.range (secCount p)).find? fun e => bits (pw p (16 + 4 * e)) 7 0 == kind

/-- OFFSET of a section; 0 when absent. -/
def secOff (p : List W32) (kind : Nat) : Nat :=
  match secEntry p kind with
  | some e => pw p (16 + 4 * e + 1)
  | none => 0

/-- WORDS of a section; 0 when absent. -/
def secLen (p : List W32) (kind : Nat) : Nat :=
  match secEntry p kind with
  | some e => pw p (16 + 4 * e + 2)
  | none => 0

/-- A tensor descriptor (R197). `word` is its first container word. -/
structure TensorDesc where
  word : Nat
  fmt : Nat
  rank : Nat
  kind : Nat
  dims : List Nat
  link : Nat
  deriving DecidableEq, Repr

/-- Tensor `i` of a plan. -/
def tensorDesc (p : List W32) (i : Nat) : TensorDesc :=
  let w := secOff p 0x01 + 8 * i
  let r := bits (pw p w) 10 8
  ⟨w, bits (pw p w) 7 0, r, bits (pw p w) 14 12, (List.range r).map fun d => pw p (w + 1 + d), pw p (w + 7)⟩

/-- The size of a tensor in bytes (R198). -/
def TensorDesc.size (t : TensorDesc) : Nat := tensorSize t.fmt t.dims

/-- A stream entry (R199). -/
structure StreamDesc where
  word : Nat
  stream : Nat
  sclass : Nat
  output : Bool
  tensor : Nat
  ageLimit : Nat
  deriving DecidableEq, Repr

/-- Stream entry `i` of a plan. -/
def streamDesc (p : List W32) (i : Nat) : StreamDesc :=
  let w := secOff p 0x02 + 4 * i
  ⟨w, bits (pw p w) 11 0, bits (pw p w) 15 12, bit (pw p w) 16, bits (pw p (w + 1)) 11 0, pw p (w + 2)⟩

/-- Every stream entry. -/
def planStreams (p : List W32) : List StreamDesc := (List.range (streamCount p)).map (streamDesc p)

/-- An operator entry (R202). -/
structure OpDesc where
  word : Nat
  code : Nat
  ins : List Nat
  outs : List Nat
  params : List Nat
  pi : Bool
  tieFast : Bool
  smallest : Bool
  finishFn : Nat
  codeStart : Nat
  codeWords : Nat
  deriving DecidableEq, Repr

/-- Length in words of the operator entry at a word. -/
def opLen (p : List W32) (w : Nat) : Nat :=
  4 + bits (pw p w) 19 16 + bits (pw p w) 23 20 + bits (pw p w) 31 24

/-- The first words of `n` operator entries from a word on. -/
def opStarts (p : List W32) : Nat → Nat → List Nat
  | 0, _ => []
  | n + 1, w => w :: opStarts p n (w + opLen p w)

/-- The operator entry at a word. -/
def opAt (p : List W32) (w : Nat) : OpDesc :=
  let ni := bits (pw p w) 19 16
  let no := bits (pw p w) 23 20
  ⟨w, bits (pw p w) 11 0, (List.range ni).map fun i => bits (pw p (w + 4 + i)) 15 0,
    (List.range no).map fun i => bits (pw p (w + 4 + ni + i)) 15 0,
    (List.range (bits (pw p w) 31 24)).map fun i => pw p (w + 4 + ni + no + i),
    bit (pw p (w + 1)) 0, bit (pw p (w + 1)) 1, bit (pw p (w + 1)) 2, bits (pw p (w + 1)) 15 8,
    bits (pw p (w + 2)) 23 0, bits (pw p (w + 3)) 23 0⟩

/-- Every operator entry, in plan order. -/
def planOps (p : List W32) : List OpDesc := (opStarts p (operatorCount p) (secOff p 0x03)).map (opAt p)

/-- Parameter word `i` of an operator. -/
def OpDesc.param (o : OpDesc) (i : Nat) : Nat := o.params.getD i 0

/-- The container word of input `i`. -/
def OpDesc.inWord (o : OpDesc) (i : Nat) : Nat := o.word + 4 + i

/-- The container word of output `i`. -/
def OpDesc.outWord (o : OpDesc) (i : Nat) : Nat := o.word + 4 + o.ins.length + i

/-- The container word of parameter `i`. -/
def OpDesc.parWord (o : OpDesc) (i : Nat) : Nat := o.word + 4 + o.ins.length + o.outs.length + i

/-! ### The catalogue -/

/-- The engine of an operator code; none for an undefined code. Courier operators run on no unit of a pigeonhole kind. -/
inductive Engine where
  | truss | joiner | sorter | scribe | plane | courier
  deriving DecidableEq, Repr

/-- The engine of a code (05, operator catalogue). -/
def engineOf (code : Nat) : Option Engine :=
  if [0x010, 0x011, 0x012, 0x013, 0x021, 0x030, 0x031, 0x032, 0x033, 0x034, 0x040, 0x041, 0x042, 0x043, 0x044,
    0x090, 0x091].contains code then some .truss
  else if [0x020, 0x022, 0x023, 0x024, 0x025, 0x026, 0x061, 0x0A0].contains code then some .joiner
  else if [0x050, 0x051, 0x052].contains code then some .sorter
  else if code = 0x060 then some .scribe
  else if [0x070, 0x071, 0x072].contains code then some .plane
  else if [0x080, 0x081, 0x082, 0x083].contains code then some .courier
  else none

/-- The least and greatest number of inputs. -/
def inRange (code : Nat) : Nat × Nat :=
  if [0x010, 0x011, 0x012, 0x013].contains code then (2, 3)
  else if [0x025, 0x030, 0x031].contains code then (2, 2)
  else if code = 0x023 then (1, 8)
  else if code = 0x043 then (3, 3)
  else if [0x050, 0x051, 0x052].contains code then (1, 2)
  else if code = 0x060 then (1, 2)
  else if code = 0x061 then (1, 2)
  else if code = 0x082 then (3, 4)
  else if [0x083, 0x090, 0x091].contains code then (0, 0)
  else if code = 0x0A0 then (0, 8)
  else (1, 1)

/-- The least and greatest number of outputs. -/
def outRange (code : Nat) : Nat × Nat :=
  if code = 0x041 then (1, 2)
  else if [0x050, 0x051, 0x052].contains code then (3, 4)
  else if code = 0x060 then (1, 2)
  else if [0x070, 0x071, 0x072].contains code then (2, 3)
  else if code = 0x082 then (3, 4)
  else if code = 0x083 then (0, 0)
  else if code = 0x0A0 then (0, 4)
  else (1, 1)

/-- PARAM_WORDS of an operator; the Truss operators keep their parameters in the macro-instruction (07), and a JOINER_CALL
takes as many as it names. -/
def paramOk (code n : Nat) : Bool :=
  if code = 0x0A0 then n ≤ 64
  else if [0x050, 0x051, 0x052, 0x060, 0x070, 0x071, 0x072, 0x082].contains code then n == 4
  else if [0x080, 0x081].contains code then n == 1
  else if code = 0x022 then 2 ≤ n
  else if [0x024, 0x026, 0x061].contains code then n == 1
  else if [0x020, 0x023, 0x025, 0x083].contains code then n == 0
  else true

/-- Whether TIE_FAST and SMALLEST may be set: the selection family, but COMPACT takes no TIE_FAST. -/
def tieOk (o : OpDesc) : Bool :=
  let fam := [0x050, 0x051, 0x052, 0x082].contains o.code
  (!o.tieFast || (fam && o.code != 0x052)) && (!o.smallest || fam)

/-- Whether PI may be set (R218). -/
def piOk (o : OpDesc) : Bool :=
  !o.pi || !([0x050, 0x051, 0x082].contains o.code && o.tieFast)

/-- Whether FINISH_FN is permitted (R220, R295): on the dense and pointwise families, NORMALIZE and SOFTMAX; FINISH needs one. -/
def finishOk (o : OpDesc) : Bool :=
  if o.code = 0x034 then 1 ≤ o.finishFn && o.finishFn ≤ 12
  else if o.finishFn = 0 then true
  else o.finishFn ≤ 12 &&
    [0x010, 0x011, 0x012, 0x013, 0x030, 0x031, 0x032, 0x033, 0x043, 0x044].contains o.code

/-- Input formats of MATMUL and its kin. -/
def denseFmt (f : Nat) : Bool := [0x01, 0x02, 0x08, 0x09, 0x0A, 0x0B].contains f

/-- Output formats of MATMUL and its kin. -/
def denseOut (f : Nat) : Bool := [0x0C, 0x0B, 0x0A, 0x02, 0x01].contains f

/-- FP16, BF16 and FP32. -/
def float3 (f : Nat) : Bool := [0x0A, 0x0B, 0x0C].contains f

/-- Formats of the Sorter's keys and values (R442). -/
def sorterFmt (f : Nat) : Bool := [0x04, 0x05, 0x06, 0x07, 0x0A, 0x0B, 0x0C].contains f

/-- Whether input `i` of an operator may have a format. -/
def inFmtOk (code i f : Nat) : Bool :=
  if [0x010, 0x011, 0x012, 0x013].contains code then if i = 2 then f == 0x0C else denseFmt f
  else if [0x021, 0x024].contains code then fmtNumeric f
  else if code = 0x025 then i == 0 || f == 0x06
  else if [0x030, 0x031, 0x032, 0x033, 0x040, 0x041, 0x042, 0x080].contains code then fmtNumeric f
  else if [0x034, 0x043, 0x044].contains code then float3 f
  else if [0x050, 0x051, 0x052].contains code then sorterFmt f || (i == 0 && f == 0x0E)
  else if code = 0x061 then if i = 1 then f == 0x02 else f == 0x0E
  else if code = 0x060 then f == 0x0E
  else if [0x070, 0x071, 0x072].contains code then f == 0x0E
  else if code = 0x082 then if i = 1 then f == 0x07 else if i = 2 then f == 0x0E else sorterFmt f
  else true

/-- Whether output `i` of an operator may have a format. -/
def outFmtOk (code i f : Nat) : Bool :=
  if [0x010, 0x011, 0x012, 0x013].contains code then denseOut f
  else if [0x030, 0x031, 0x032, 0x033, 0x040, 0x042, 0x080].contains code then fmtNumeric f
  else if code = 0x041 then if i = 1 then f == 0x06 else fmtNumeric f
  else if [0x034, 0x043, 0x044].contains code then fmtNumeric f
  else if [0x050, 0x051, 0x052, 0x082].contains code then
    if i = 1 then f == 0x07 else if i = 2 then f == 0x0E else sorterFmt f
  else if [0x060, 0x061].contains code then f == 0x0E
  else if [0x070, 0x071, 0x072].contains code then if i = 1 then f == 0x0E else f == 0x0C
  else if code = 0x090 then float3 f || f == 0x07
  else if code = 0x091 then float3 f
  else true

/-! ### Operator shapes -/

/-- The extents of a dense matrix operand, with its last two dimensions swapped when it is stored transposed. -/
def matDims (t : Bool) (dims : List Nat) : List Nat :=
  let b := dims.take (dims.length - 2)
  let m := dims.getD (dims.length - 2) 1
  let n := dims.getD (dims.length - 1) 1
  if t then b ++ [n, m] else b ++ [m, n]

/-- The result of broadcasting two shapes of equal rank on unit extents; none when they do not match. -/
def broadcastDims : List Nat → List Nat → Option (List Nat)
  | [], [] => some []
  | a :: as, b :: bs =>
    match broadcastDims as bs with
    | some l => if a = b then some (a :: l) else if a = 1 then some (b :: l) else if b = 1 then some (a :: l) else none
    | none => none
  | _, _ => none

/-- The shape left when the dimensions of an axis mask are reduced, with unit extents in their place. -/
def reduceDims (mask : Nat) (dims : List Nat) : List Nat :=
  (List.range dims.length).map fun d => if bit mask d then 1 else dims.getD d 1

/-- Whether an output shape is the reduced one: the reduced dimensions kept as 1, or left out (log entry 41). -/
def reducedOk (mask : Nat) (dims out : List Nat) : Bool :=
  out == reduceDims mask dims ||
    out == ((List.range dims.length).filter fun d => !bit mask d).map (fun d => dims.getD d 1) ||
    (volume (reduceDims mask dims) == 1 && volume out == 1)

/-- The output extent of a convolution along one dimension. -/
def convOut (n k stride dil pad0 pad1 : Nat) : Nat :=
  let span := dil * (k - 1) + 1
  if n + pad0 + pad1 < span then 0 else (n + pad0 + pad1 - span) / stride + 1

/-! ### The macro-instruction -/

/-- A macro-instruction (R297). -/
structure Macro where
  mop : Nat
  subop : Nat
  ta : Bool
  tb : Bool
  dw : Bool
  ins : List Nat
  outs : List Nat
  l2 : Nat
  p0 : Nat
  p1 : Nat
  p2 : Nat
  hints : List Nat
  deriving DecidableEq, Repr

/-- The macro-instruction at a container word. -/
def macroAt (p : List W32) (w : Nat) : Macro :=
  let lo := fun i => bits (pw p (w + i)) 15 0
  let hi := fun i => bits (pw p (w + i)) 31 16
  ⟨bits (pw p w) 7 0, bits (pw p w) 15 8, bit (pw p w) 22, bit (pw p w) 23, bit (pw p w) 24,
    [lo 1, hi 1, lo 2, hi 2], [lo 3, hi 3], lo 4, pw p (w + 5), pw p (w + 6), pw p (w + 7),
    [bits (pw p w) 17 16, bits (pw p w) 19 18, bits (pw p w) 21 20]⟩

/-- Where an operator's code stands: the first word of its section plus CODE_START. -/
def codeWord (p : List W32) (o : OpDesc) : Nat :=
  secOff p (if engineOf o.code == some .truss then 0x04 else 0x05) + o.codeStart

/-- The macro-instruction of a Truss operator. -/
def macroOf (p : List W32) (o : OpDesc) : Macro := macroAt p (codeWord p o)

/-- Greatest SUBOP of a MOP. -/
def subopMax (mop : Nat) : Nat :=
  match mop with
  | 0x03 => 1
  | 0x04 => 1
  | 0x06 => 3
  | 0x0A => 1
  | _ => 0

/-- Fail at a word unless a condition holds. -/
def chk (c : Bool) (w : Nat) : Option Nat := if c then none else some w

/-- The first failure of a list. -/
def firstSome : List (Option Nat) → Option Nat
  | [] => none
  | some w :: _ => some w
  | none :: l => firstSome l

/-- Whether a convolution's P0 is in range (07, macro-opcodes). -/
def convParamOk (v : Nat) : Bool :=
  let one8 := fun h l => 1 ≤ bits v h l && bits v h l ≤ 8
  one8 3 0 && one8 7 4 && one8 11 8 && one8 15 12 &&
    bits v 19 16 ≤ 14 && bits v 23 20 ≤ 14 && bits v 27 24 ≤ 14 && bits v 31 28 ≤ 14

/-- The parameter words of a macro-instruction in range (R298). -/
def macroParams (m : Macro) (w : Nat) : Option Nat :=
  let none2 := [chk (m.p1 == 0) (w + 6), chk (m.p2 == 0) (w + 7)]
  match m.mop with
  | 0x02 => firstSome (chk (convParamOk m.p0) (w + 5) :: none2)
  | 0x04 => if m.subop = 1 then chk (m.p2 == 0) (w + 7)
      else firstSome (chk (m.p0 == 0) (w + 5) :: none2)
  | 0x06 => firstSome (chk (m.p0 < 64) (w + 5) :: none2)
  | 0x07 => firstSome [chk (m.p0 < 64) (w + 5), chk (m.p2 == 0) (w + 7)]
  | 0x08 => firstSome (chk (m.p0 < 64) (w + 5) :: none2)
  | 0x09 => firstSome (chk (m.p0 < 2 ^ 18) (w + 5) :: none2)
  | 0x0A => chk (m.p2 < 4096) (w + 7)
  | _ => firstSome (chk (m.p0 == 0) (w + 5) :: none2)

/-- Pass 5 over one macro-instruction (R298). -/
def macroFault (p : List W32) (w : Nat) : Option Nat :=
  let m := macroAt p w
  firstSome [
    chk (1 ≤ m.mop && m.mop ≤ 0x0A && m.subop ≤ subopMax m.mop && m.hints.all (· != 3) && bits (pw p w) 31 25 == 0) w,
    chk (bits (pw p (w + 4)) 31 16 == 0) (w + 4), macroParams m w]

/-- The operator codes and SUBOP that a MOP serves (07, macro-opcodes). -/
def mopServes (m : Macro) (code : Nat) : Bool :=
  match m.mop with
  | 0x01 => code == 0x010 || code == 0x011
  | 0x02 => (code == 0x012 && !m.dw) || (code == 0x013 && m.dw)
  | 0x03 => (code == 0x030 && m.subop == 0) || (code == 0x031 && m.subop == 1)
  | 0x04 => (code == 0x032 && m.subop == 0) || (code == 0x033 && m.subop == 1)
  | 0x05 => code == 0x034
  | 0x06 => (code == 0x040 && m.subop == 0) || (code == 0x042 && m.subop == 1) || (code == 0x041 && 2 ≤ m.subop)
  | 0x07 => code == 0x043
  | 0x08 => code == 0x044
  | 0x09 => code == 0x021
  | 0x0A => (code == 0x090 && m.subop == 0) || (code == 0x091 && m.subop == 1)
  | _ => false

/-- Extents of a plan tensor. -/
def dimsOf (p : List W32) (i : Nat) : List Nat := (tensorDesc p i).dims

/-- The shape rule of MM (R299), with the batch limit of BATCH_MATMUL. -/
def mmShapes (p : List W32) (m : Macro) (code : Nat) : Bool :=
  let a := matDims m.ta (dimsOf p (m.ins.getD 0 0))
  let b := matDims m.tb (dimsOf p (m.ins.getD 1 0))
  let c := dimsOf p (m.outs.getD 0 0)
  let r := a.length
  let batch := a.take (r - 2)
  2 ≤ r && b.length == r && c.length == r && b.take (r - 2) == batch && c.take (r - 2) == batch &&
    (if code = 0x010 then r == 2 else 3 ≤ r && volume batch ≤ 2 ^ 16) &&
    a.getD (r - 1) 0 == b.getD (r - 2) 1 && c.getD (r - 2) 0 == a.getD (r - 2) 1 &&
    c.getD (r - 1) 0 == b.getD (r - 1) 1 &&
    (m.ins.getD 2 0xFFFF == 0xFFFF || volume (dimsOf p (m.ins.getD 2 0)) == b.getD (r - 1) 1)

/-- The shape rule of CONV (R299). -/
def convShapes (p : List W32) (m : Macro) : Bool :=
  let x := dimsOf p (m.ins.getD 0 0)
  let w := dimsOf p (m.ins.getD 1 0)
  let y := dimsOf p (m.outs.getD 0 0)
  let f := if m.dw then x.getD 3 0 else w.getD 3 0
  let ho := convOut (x.getD 1 0) (w.getD 0 1) (bits m.p0 3 0) (bits m.p0 11 8) (bits m.p0 19 16) (bits m.p0 23 20)
  let wo := convOut (x.getD 2 0) (w.getD 1 1) (bits m.p0 7 4) (bits m.p0 15 12) (bits m.p0 27 24) (bits m.p0 31 28)
  x.length == 4 && w.length == (if m.dw then 3 else 4) && w.getD 2 0 == x.getD 3 1 &&
    w.getD 0 16 ≤ 15 && w.getD 1 16 ≤ 15 && 0 < ho && 0 < wo && y == [x.getD 0 0, ho, wo, f] &&
    (m.ins.getD 2 0xFFFF == 0xFFFF || volume (dimsOf p (m.ins.getD 2 0)) == f)

/-- Whether a TRANSPOSE permutation names each source dimension once, and the shape it gives. -/
def permOf (v rank : Nat) : List Nat := (List.range rank).map fun d => bits v (3 * d + 2) (3 * d)

/-- The extent of the dimensions that a mask reduces. -/
def maskedVolume (mask : Nat) (dims : List Nat) : Nat :=
  volume (((List.range dims.length).filter (bit mask)).map fun d => dims.getD d 1)

/-- The shape rule of a macro-instruction. -/
def macroShapes (p : List W32) (m : Macro) (code : Nat) : Bool :=
  let x := dimsOf p (m.ins.getD 0 0)
  let y := dimsOf p (m.outs.getD 0 0)
  match m.mop with
  | 0x01 => mmShapes p m code
  | 0x02 => convShapes p m
  | 0x03 => broadcastDims x (dimsOf p (m.ins.getD 1 0)) == some y
  | 0x06 => reducedOk m.p0 x y && (m.outs.getD 1 0xFFFF == 0xFFFF || reducedOk m.p0 x (dimsOf p (m.outs.getD 1 0)))
  | 0x07 =>
    let axis := maskedVolume m.p0 x
    x == y && axis ≤ 2 ^ 20 && volume (dimsOf p (m.ins.getD 1 0)) == axis && volume (dimsOf p (m.ins.getD 2 0)) == axis
  | 0x08 => x == y && maskedVolume m.p0 x ≤ 2 ^ 20
  | 0x09 =>
    let q := permOf m.p0 x.length
    (List.range x.length).all (q.contains ·) && y == q.map fun d => x.getD d 0
  | 0x0A => true
  | _ => x == y

/-- Inputs that a MOP requires: its scale and its fourth index are never required (R282, R298). -/
def macroNeeds (mop : Nat) : Nat :=
  match mop with
  | 0x01 => 2
  | 0x02 => 2
  | 0x03 => 2
  | 0x07 => 3
  | 0x0A => 0
  | _ => 1

/-- Input indices that a MOP gives a meaning to: IN0 up to this one. -/
def macroUses (mop : Nat) : Nat := if mop = 0x01 ∨ mop = 0x02 then 3 else macroNeeds mop

/-- Whether a list of distinct indices names every output of an operator: OUT0, and OUT1 where the operator has two outputs. -/
def macroOuts (m : Macro) (o : OpDesc) : Bool :=
  m.outs.all (fun i => i == 0xFFFF || o.outs.contains i) && m.outs.getD 0 0xFFFF != 0xFFFF &&
    (o.outs.length < 2 || (m.outs.getD 1 0xFFFF != 0xFFFF && m.outs.getD 1 0 != m.outs.getD 0 0))

/-- Pass 6 over a Truss operator's macro-instruction (R298): `freeBeam` bytes remain to the partition. An index may be any of the
operator's own, in any order; a required one may not be 0xFFFF. TRANSPOSE moves elements without rounding, so its formats
are one. -/
def macroCheck (p : List W32) (o : OpDesc) (freeBeam : Nat) : Option Nat :=
  let w := codeWord p o
  let m := macroOf p o
  let own := fun k => m.ins.getD k 0xFFFF == 0xFFFF || o.ins.contains (m.ins.getD k 0xFFFF)
  let given := fun k => macroNeeds m.mop ≤ k || m.ins.getD k 0xFFFF != 0xFFFF
  firstSome [
    chk (mopServes m o.code) w,
    chk ((!m.ta && !m.tb) || m.mop == 0x01) w,
    chk (!m.dw || m.mop == 0x02) w,
    chk (own 0 && own 1 && given 0 && given 1) (w + 1),
    chk (own 2 && own 3 && given 2) (w + 2),
    chk (macroOuts m o) (w + 3),
    chk (macroShapes p m o.code && (m.mop != 0x09 ||
      (tensorDesc p (m.ins.getD 0 0)).fmt == (tensorDesc p (m.outs.getD 0 0)).fmt)) (w + 3),
    chk (m.l2 * 1024 ≤ freeBeam) (w + 4)]

/-! ### Sorter, Scribe, Plane, joiner and Courier operators -/

/-- Bytes of a key type (R442); 0 for a reserved one. -/
def keyBytes (t : Nat) : Nat := if [1, 2, 5, 6].contains t then 2 else if [3, 4, 7].contains t then 4 else 0

/-- The key type of a plan tensor format (R442); 0 when it is none. -/
def keyTypeOf (f : Nat) : Nat :=
  match f with
  | 0x04 => 1
  | 0x05 => 2
  | 0x06 => 3
  | 0x07 => 4
  | 0x0A => 5
  | 0x0B => 6
  | 0x0C => 7
  | _ => 0

/-- The plan tensor format of a key type. -/
def fmtOfKeyType (t : Nat) : Nat := [0, 0x04, 0x05, 0x06, 0x07, 0x0A, 0x0B, 0x0C].getD t 0

/-- What the Sorter reads of an operator: key type, key offset, item stride, row length, number of rows, k, values' key type
(0 none). -/
structure SortShape where
  keyType : Nat
  keyOff : Nat
  stride : Nat
  rowLen : Nat
  rows : Nat
  k : Nat
  valType : Nat
  deriving DecidableEq, Repr

/-- The Sorter's view of TOPK, SORT and COMPACT (R445-R447). -/
def sortShape (p : List W32) (o : OpDesc) : SortShape :=
  let t := tensorDesc p (o.ins.getD 0 0)
  let rec_ := t.fmt == 0x0E
  let kt := if rec_ then bits (o.param 2) 3 0 else keyTypeOf t.fmt
  let inner := if rec_ then t.dims.take (t.dims.length - 1) else t.dims
  let len := inner.getD (inner.length - 1) 1
  { keyType := kt
    keyOff := if rec_ then bits (o.param 2) 13 8 else 0
    stride := if rec_ then bits (o.param 2) 22 16 else keyBytes kt
    rowLen := len, rows := volume (inner.take (inner.length - 1))
    k := if o.code = 0x051 then len else o.param 0
    valType := match o.ins[1]? with
      | some v => keyTypeOf (tensorDesc p v).fmt
      | none => 0 }

/-- Pass 6 over TOPK, SORT and COMPACT (R445-R447). A K out of its range is the failing field: no shape is judged against it
(log entry 104). -/
def sorterCheck (p : List W32) (o : OpDesc) : Option Nat :=
  let t := tensorDesc p (o.ins.getD 0 0)
  let sh := sortShape p o
  let rec_ := t.fmt == 0x0E
  let ks := keyBytes sh.keyType
  let inner := if rec_ then t.dims.take (t.dims.length - 1) else t.dims
  let outer := inner.take (inner.length - 1)
  let out := fun i => tensorDesc p (o.outs.getD i 0)
  let kBad := !(if o.code = 0x051 then o.param 0 == 0 else 1 ≤ o.param 0 && o.param 0 ≤ sh.rowLen)
  firstSome [
    chk (!rec_ || (2 ≤ t.rank && t.dims.getD (t.rank - 1) 0 == sh.stride)) (o.inWord 0),
    chk (o.ins.length < 2 || dimsOf p (o.ins.getD 1 0) == inner) (o.inWord 1),
    chk ((kBad || (out 0).dims == outer ++ [sh.k]) && keyTypeOf (out 0).fmt == sh.keyType) (o.outWord 0),
    chk (kBad || (out 1).dims == outer ++ [sh.k]) (o.outWord 1),
    chk ((out 2).dims == outer ++ [256]) (o.outWord 2),
    chk (o.outs.length < 4 || (sh.valType != 0 && (kBad || (out 3).dims == outer ++ [sh.k]) &&
      keyTypeOf (out 3).fmt == sh.valType)) (o.outWord 3),
    chk (!kBad) (o.parWord 0),
    chk (if o.code = 0x052 then ks == 4 || o.param 1 < 2 ^ 16 else o.param 1 == 0) (o.parWord 1),
    chk (if rec_ then ks != 0 && sh.keyOff % ks == 0 && 2 ≤ sh.stride && sh.stride ≤ 64 && sh.stride % ks == 0 &&
        sh.keyOff + ks ≤ sh.stride && bits (o.param 2) 7 4 == 0 && bits (o.param 2) 15 14 == 0 &&
        bits (o.param 2) 31 23 == 0
      else o.param 2 == 0) (o.parWord 2),
    chk (sh.rowLen - 1 + o.param 3 < 2 ^ 32) (o.parWord 3)]

/-- Pass 6 over MERGE_TOPK (R445, R447). -/
def mergeCheck (p : List W32) (o : OpDesc) : Option Nat :=
  let t := tensorDesc p (o.ins.getD 0 0)
  let len := t.dims.getD (t.rank - 1) 1
  let outer := t.dims.take (t.rank - 1)
  let k := o.param 0
  let kBad := !(1 ≤ k && k ≤ len)
  firstSome [
    chk (dimsOf p (o.ins.getD 1 0) == t.dims) (o.inWord 1),
    chk (dimsOf p (o.ins.getD 2 0) == outer ++ [256]) (o.inWord 2),
    chk (o.ins.length < 4 || dimsOf p (o.ins.getD 3 0) == t.dims) (o.inWord 3),
    chk ((kBad || dimsOf p (o.outs.getD 0 0) == outer ++ [k]) && (tensorDesc p (o.outs.getD 0 0)).fmt == t.fmt) (o.outWord 0),
    chk (kBad || dimsOf p (o.outs.getD 1 0) == outer ++ [k]) (o.outWord 1),
    chk (dimsOf p (o.outs.getD 2 0) == outer ++ [256]) (o.outWord 2),
    chk (o.outs.length == o.ins.length &&
      (o.outs.length < 4 || kBad || dimsOf p (o.outs.getD 3 0) == outer ++ [k])) (o.outWord 3),
    chk (!kBad) (o.parWord 0), chk (o.param 1 == 0) (o.parWord 1), chk (o.param 2 == 0) (o.parWord 2),
    chk (o.param 3 == 0) (o.parWord 3)]

/-- BODY_COUNT of a plan. -/
def bodyCount (p : List W32) : Nat := if secLen p 0x08 = 0 then 0 else bits (pw p (secOff p 0x08)) 4 0

/-- SOURCE of a SWEEP operator. -/
def sweepGen (o : OpDesc) : Bool := bit (o.param 0) 7

/-- Pass 6 over SWEEP (R426). -/
def sweepCheck (p : List W32) (o : OpDesc) : Option Nat :=
  let n := o.param 1
  let nBad := !(1 ≤ n && n ≤ 2 ^ 20)
  firstSome [
    chk (o.ins.length == if sweepGen o then 1 else 2) o.word,
    chk (sweepGen o || nBad || dimsOf p (o.ins.getD 0 0) == [n, 40]) (o.inWord 0),
    chk ((tensorDesc p (o.ins.getLast?.getD 0)).kind == 5) (o.inWord (o.ins.length - 1)),
    chk (nBad || dimsOf p (o.outs.getD 0 0) == [n, 16]) (o.outWord 0),
    chk (o.outs.length < 2 || dimsOf p (o.outs.getD 1 0) == [32]) (o.outWord 1),
    chk (1 ≤ bits (o.param 0) 6 0 && bits (o.param 0) 6 0 ≤ 64 && bits (o.param 0) 15 8 < bodyCount p &&
      bits (o.param 0) 31 28 == 0) (o.parWord 0),
    chk (!nBad) (o.parWord 1)]

/-- Whether N, M and ITER_CAP are within the problem limits (R477, problem limits). -/
def planeLimits (kind n m cap : Nat) : Bool × Bool × Bool :=
  match kind with
  | 0 => (1 ≤ cap && cap ≤ 1048576, 1 ≤ n && n ≤ 1024, m ≤ 2048)
  | 1 => (cap == 0, 1 ≤ n && n ≤ 2048, m == 0)
  | _ => (1 ≤ cap && cap ≤ 1048576, 1 ≤ n && n ≤ 65536, m == 0)

/-- Pass 6 over the Plane operators (R476). -/
def planeCheck (p : List W32) (o : OpDesc) : Option Nat :=
  let l := planeLimits (o.code - 0x070) (o.param 2) (o.param 3) (o.param 0)
  firstSome [
    chk (!l.2.1 || !l.2.2 || dimsOf p (o.outs.getD 0 0) == [o.param 2 + o.param 3]) (o.outWord 0),
    chk (dimsOf p (o.outs.getD 1 0) == [64]) (o.outWord 1),
    chk (o.outs.length < 3 || !l.2.1 || !l.2.2 || dimsOf p (o.outs.getD 2 0) == [max (o.param 2) (o.param 3)]) (o.outWord 2),
    chk l.1 (o.parWord 0), chk l.2.1 (o.parWord 2), chk l.2.2 (o.parWord 3)]

/-- The concatenation axis of CONCAT: the first dimension in which the output differs from the first input (log entry 42). -/
def concatAxis (x y : List Nat) : Nat :=
  ((List.range x.length).find? fun d => x.getD d 0 != y.getD d 0).getD 0

/-- Pass 6 over the built-in joiner operators. -/
def joinerCheck (p : List W32) (ops : List OpDesc) (o : OpDesc) : Option Nat :=
  let x := tensorDesc p (o.ins.getD 0 0)
  let y := tensorDesc p (o.outs.getD 0 0)
  match o.code with
  | 0x020 => chk (y.fmt == x.fmt && volume y.dims == volume x.dims) (o.outWord 0)
  | 0x022 => firstSome [chk (y.fmt == x.fmt && y.rank == x.rank) (o.outWord 0),
      chk (o.params.length == 2 * x.rank) o.word,
      firstSome ((List.range x.rank).map fun d => chk (o.param d < x.dims.getD d 0) (o.parWord d)),
      firstSome ((List.range x.rank).map fun d =>
        chk (o.param (x.rank + d) != 0 &&
          o.param d + (y.dims.getD d 1 - 1) * o.param (x.rank + d) < x.dims.getD d 0) (o.parWord (x.rank + d)))]
  | 0x023 =>
    let a := concatAxis x.dims y.dims
    let same := fun (i : Nat) => (tensorDesc p i).fmt == x.fmt && (tensorDesc p i).rank == x.rank &&
      ((List.range x.rank).all fun d => d == a || (dimsOf p i).getD d 0 == x.dims.getD d 0)
    firstSome (((List.range o.ins.length).map fun k => chk (same (o.ins.getD k 0)) (o.inWord k)) ++
      [chk (y.fmt == x.fmt && y.rank == x.rank &&
        (y.dims.getD a 0 == (o.ins.map fun i => (dimsOf p i).getD a 0).foldl (· + ·) 0) &&
        ((List.range x.rank).all fun d => d == a || y.dims.getD d 0 == x.dims.getD d 0)) (o.outWord 0)])
  | 0x024 => chk (y.fmt == x.fmt && y.rank == x.rank &&
      (List.range x.rank).all fun d => x.dims.getD d 0 ≤ y.dims.getD d 0) (o.outWord 0)
  | 0x025 => chk (y.fmt == x.fmt && y.dims == dimsOf p (o.ins.getD 1 0) ++ x.dims.drop 1) (o.outWord 0)
  | 0x026 => firstSome [
      chk (x.kind == 5) (o.inWord 0),
      chk (y.kind == 0 && (ops.all fun r => !r.ins.contains (o.outs.getD 0 0) || engineOf r.code == some .truss))
        (o.outWord 0),
      chk (o.param 0 == 0) (o.parWord 0)]
  | 0x061 =>
    let f := tensorDesc p (o.ins.getD 1 0)
    firstSome [
      chk (y.kind == 5) (o.outWord 0),
      chk (1 ≤ o.param 0 && o.param 0 ≤ 3) (o.parWord 0),
      chk (o.ins.length == if bit (o.param 0) 0 then 2 else 1) o.word,
      chk (o.ins.length < 2 || (f.fmt == 0x02 && f.dims == [2, 1024, 1024])) (o.inWord 1)]
  | _ => none

/-- Pass 6 over the Courier operators (R525). -/
def courierCheck (p : List W32) (o : OpDesc) : Option Nat :=
  let small := firstSome ((List.range o.ins.length).map fun k => chk (volume (dimsOf p (o.ins.getD k 0)) ≤ 2 ^ 22) (o.inWord k))
  let x := tensorDesc p (o.ins.getD 0 0)
  let y := tensorDesc p (o.outs.getD 0 0)
  match o.code with
  | 0x080 => firstSome [small, chk (y.dims == x.dims) (o.outWord 0), chk (o.param 0 ≤ 2) (o.parWord 0)]
  | 0x081 => firstSome [small, chk (y.dims == x.dims && y.fmt == x.fmt) (o.outWord 0), chk (o.param 0 < 4096) (o.parWord 0)]
  | 0x082 => firstSome [small, mergeCheck p o]
  | _ => none

/-- Whether an INTERNAL input has been written by an earlier operator (R205 pass 6). -/
def writtenBefore (ops : List OpDesc) (k t : Nat) : Bool := (ops.take k).any fun o => o.outs.contains t

/-- Whether tensor `t`, entry `i` of an operator's inputs, has a format the catalogue gives it: that of its place in the
entry, or of every place of a Truss operator's macro-instruction that names it (R297, R298). -/
def inputFmt (p : List W32) (o : OpDesc) (i t : Nat) : Bool :=
  let f := (tensorDesc p t).fmt
  if engineOf o.code == some .truss then
    let m := macroOf p o
    (List.range (macroUses m.mop)).all fun r => m.ins.getD r 0xFFFF != t || inFmtOk o.code r f
  else inFmtOk o.code i f

/-- The same for an output. -/
def outputFmt (p : List W32) (o : OpDesc) (i t : Nat) : Bool :=
  let f := (tensorDesc p t).fmt
  if engineOf o.code == some .truss then
    let m := macroOf p o
    (List.range o.outs.length).all fun r => m.outs.getD r 0xFFFF != t || outFmtOk o.code r f
  else outFmtOk o.code i f

/-- The rules on one operator's tensors: indices, INTERNAL tensors read after they are written, and no input stream tensor as
an output (R205 pass 6, R223). -/
def tensorUse (p : List W32) (ops : List OpDesc) (k : Nat) (o : OpDesc) : Option Nat :=
  let n := tensorCount p
  let isInput := fun t => (tensorDesc p t).kind == 5 && !(streamDesc p (tensorDesc p t).link).output
  firstSome (
    ((List.range o.ins.length).map fun i =>
      let t := o.ins.getD i 0
      let d := tensorDesc p t
      chk (t < n && (d.kind != 0 || writtenBefore ops k t) && inputFmt p o i t) (o.inWord i)) ++
    ((List.range o.outs.length).map fun i =>
      let t := o.outs.getD i 0
      let d := tensorDesc p t
      chk (t < n && d.kind != 4 && d.kind != 1 && !isInput t && outputFmt p o i t) (o.outWord i)))

/-- Formats that must agree between inputs of a dense operator (R280). -/
def equalFmts (p : List W32) (o : OpDesc) : Option Nat :=
  if [0x010, 0x011, 0x012, 0x013].contains o.code then
    let m := macroOf p o
    chk ((tensorDesc p (m.ins.getD 0 0)).fmt == (tensorDesc p (m.ins.getD 1 0)).fmt) (o.inWord 1)
  else none

/-- CODE_START and CODE_WORDS of an operator (R205 pass 6, R297, R326). -/
def codeCheck (p : List W32) (o : OpDesc) : Option Nat :=
  match engineOf o.code with
  | some .truss => firstSome [chk (o.codeWords == 8) (o.word + 3),
      chk (o.codeStart + 8 ≤ secLen p 0x04) (o.word + 2)]
  | some .joiner =>
    if o.code = 0x0A0 then firstSome [
      chk (1 ≤ o.codeWords && o.codeWords ≤ 16384) (o.word + 3),
      chk (o.codeStart + o.codeWords ≤ secLen p 0x05) (o.word + 2)]
    else firstSome [chk (o.codeStart == 0) (o.word + 2), chk (o.codeWords == 0) (o.word + 3)]
  | _ => firstSome [chk (o.codeStart == 0) (o.word + 2), chk (o.codeWords == 0) (o.word + 3)]

/-- Pass 6 over one operator. -/
def opCheck (p : List W32) (ops : List OpDesc) (freeBeam k : Nat) (o : OpDesc) : Option Nat :=
  let ir := inRange o.code
  let or_ := outRange o.code
  firstSome [
    chk (ir.1 ≤ o.ins.length && o.ins.length ≤ ir.2 && or_.1 ≤ o.outs.length && o.outs.length ≤ or_.2 &&
      paramOk o.code o.params.length) o.word,
    chk (piOk o && tieOk o && finishOk o) (o.word + 1),
    codeCheck p o, tensorUse p ops k o, equalFmts p o,
    match engineOf o.code with
    | some .truss => macroCheck p o freeBeam
    | some .joiner => joinerCheck p ops o
    | some .sorter => sorterCheck p o
    | some .scribe => sweepCheck p o
    | some .plane => planeCheck p o
    | some .courier => courierCheck p o
    | none => some o.word]

/-- Pass 6 (R205). -/
def pass6 (p : List W32) (freeBeam : Nat) : Option Nat :=
  let ops := planOps p
  firstSome ((List.range ops.length).map fun k =>
    match ops[k]? with
    | some o => opCheck p ops freeBeam k o
    | none => none)

/-! ### Passes 1 to 5 -/

/-- Passes 1 and 2 (R205): MAGIC, FORMAT, LENGTH, CRC. -/
def pass12 (p : List W32) (len : Nat) : Option Nat :=
  firstSome [chk (pw p 0 == 0x5A43504C) 0, chk (pw p 1 == 2) 1, chk (pw p 2 == len) 2,
    chk (pw p 15 == crc32c (bytesOfWords (p.set 15 0))) 15]

/-- Pass 3 (R205): words 3 to 14. -/
def pass3 (p : List W32) (repro : Nat) : Option Nat :=
  firstSome ([
    chk (2 ≤ secCount p && secCount p ≤ 8 && bits (pw p 3) 31 5 == 0) 3,
    chk (bits (pw p 4) 31 17 == 0 && (!bit (pw p 4) 16 || bits (pw p 4) 15 0 == repro)) 4,
    chk (1 ≤ tensorCount p && bits (pw p 5) 15 12 == 0 && bits (pw p 5) 31 24 == 0) 5,
    chk (1 ≤ operatorCount p && bits (pw p 6) 31 12 == 0) 6] ++
    (List.range 7).map fun i => chk (pw p (8 + i) == 0) (8 + i))

/-- One section table entry and R196. `floor` is the first word it may begin at. -/
def entryCheck (p : List W32) (total e floor : Nat) : Option Nat :=
  let w := 16 + 4 * e
  let kind := bits (pw p w) 7 0
  let off := pw p (w + 1)
  let len := pw p (w + 2)
  firstSome [
    chk (1 ≤ kind && kind ≤ 8 && bits (pw p w) 31 8 == 0) w,
    chk (floor ≤ off && off + len ≤ total && secEntry p kind == some e &&
      (List.range (off - floor)).all fun i => pw p (floor + i) == 0) (w + 1),
    chk (1 ≤ len) (w + 2), chk (pw p (w + 3) == 0) (w + 3)]

/-- The section table from an entry on (R205 pass 4, R196). -/
def entriesCheck (p : List W32) (total : Nat) : Nat → Nat → Nat → Option Nat
  | 0, _, _ => none
  | n + 1, e, floor =>
    match entryCheck p total e floor with
    | some w => some w
    | none => entriesCheck p total n (e + 1) (pw p (16 + 4 * e + 1) + pw p (16 + 4 * e + 2))

/-- Pass 4: the section table, and the sections that must be there (an absent one is reported at word 3, which holds
SECTION_COUNT; log entry 43). -/
def pass4 (p : List W32) (total : Nat) : Option Nat :=
  firstSome [
    entriesCheck p total (secCount p) 0 (16 + 4 * secCount p),
    chk (secLen p 0x01 != 0 && secLen p 0x03 != 0 && (streamCount p == 0 || secLen p 0x02 != 0) &&
      (!planStrict p || secLen p 0x07 != 0)) 3]

/-- One tensor descriptor (R197, R198). -/
def descCheck (p : List W32) (i : Nat) : Option Nat :=
  let t := tensorDesc p i
  let w := t.word
  firstSome ([
    chk ((elemFmt t.fmt).isSome && 1 ≤ t.rank && t.rank ≤ 6 && t.kind ≤ 5 && !bit (pw p w) 11 &&
      bits (pw p w) 31 15 == 0) w] ++
    ((List.range 6).map fun d =>
      let v := pw p (w + 1 + d)
      chk (if d < t.rank then 1 ≤ v && v ≤ 2 ^ 24 else v == 0) (w + 1 + d)) ++
    [chk (t.size ≤ 2 ^ 32 - 64) (w + 1),
    chk (match t.kind with
      | 4 => t.link + ceilDiv (ceilDiv (volume t.dims * fmtBits t.fmt) 8) 4 ≤ secLen p 0x06
      | 5 => t.link < streamCount p
      | _ => t.link == 0) (w + 7)])

/-- Whether tensor `t` is the one STREAM tensor whose LINK names entry `i` (R200). -/
def streamNames (p : List W32) (i t : Nat) : Bool :=
  ((List.range (tensorCount p)).filter fun k => (tensorDesc p k).kind == 5 && (tensorDesc p k).link == i) == [t]

/-- One stream entry (R199, R200). -/
def streamCheck (p : List W32) (i : Nat) : Option Nat :=
  let e := streamDesc p i
  firstSome [
    chk (1 ≤ e.stream && e.sclass ≤ 4 && bits (pw p e.word) 31 17 == 0 &&
      ((planStreams p).filter fun x => x.stream == e.stream).length == 1) e.word,
    chk (e.tensor < tensorCount p && streamNames p i e.tensor && bits (pw p (e.word + 1)) 31 12 == 0) (e.word + 1),
    chk (e.output || e.ageLimit == 0) (e.word + 2), chk (pw p (e.word + 3) == 0) (e.word + 3)]

/-- One operator entry's words (R202). `stop` is the first word after the section. -/
def opWords (p : List W32) (stop w : Nat) : Option Nat :=
  let o := opAt p w
  firstSome ([
    chk (bits (pw p w) 15 12 == 0 && o.ins.length ≤ 8 && o.outs.length ≤ 4 && o.params.length ≤ 64 &&
      (engineOf o.code).isSome && w + opLen p w ≤ stop) w,
    chk (bits (pw p (w + 1)) 7 3 == 0 && bits (pw p (w + 1)) 31 16 == 0) (w + 1),
    chk (bits (pw p (w + 2)) 31 24 == 0) (w + 2), chk (bits (pw p (w + 3)) 31 24 == 0) (w + 3)] ++
    (List.range (o.ins.length + o.outs.length)).map fun i => chk (bits (pw p (w + 4 + i)) 31 16 == 0) (w + 4 + i))

/-- The operator entries of the OPERATORS section, entry after entry (R202). -/
def opsCheck (p : List W32) (stop : Nat) : Nat → Nat → Option Nat
  | 0, w => chk (w == stop) w
  | n + 1, w =>
    match opWords p stop w with
    | some x => some x
    | none => opsCheck p stop n (w + opLen p w)

/-- Primitive `k` of a body (R414). `w` is the body's first word. -/
def primCheck (p : List W32) (w count : Nat) (artic : Bool) (k : Nat) : Option Nat :=
  let q := w + 16 + 4 * k
  let s16 := fun i hi => toSigned 16 (if hi then bits (pw p (q + i)) 31 16 else bits (pw p (q + i)) 15 0)
  if count ≤ k then firstSome ((List.range 4).map fun i => chk (pw p (q + i) == 0) (q + i))
  else
    let cap := bit (pw p q) 0
    let dx := s16 2 false - s16 1 false
    let dy := s16 2 true - s16 1 true
    firstSome [
      chk (bits (pw p q) 3 2 != 3 && bits (pw p q) 31 6 == 0 && (artic || !bit (pw p q) 1)) q,
      chk (if cap then dx * dx + dy * dy < 1025 * 1025 else pw p (q + 2) == 0) (q + 2),
      chk (pw p (q + 3) ≤ 1331) (q + 3)]

/-- How many primitives of a body satisfy a test of their word 0. -/
def primsWith (p : List W32) (w count : Nat) (f : Nat → Bool) : Nat :=
  ((List.range count).filter fun k => f (pw p (w + 16 + 4 * k))).length

/-- One body model (08 kind, R414). -/
def bodyCheck (p : List W32) (w : Nat) : Option Nat :=
  let count := bits (pw p w) 6 0
  let artic := bit (pw p w) 7
  let lo := fun i => bits (pw p (w + i)) 15 0
  let hi := fun i => bits (pw p (w + i)) 31 16
  firstSome ([
    chk (1 ≤ count && count ≤ 72 && bits (pw p w) 31 8 == 0 &&
      primsWith p w count (fun v => bits v 3 2 == 0 && !bit v 1) ≤ 32 &&
      primsWith p w count (fun v => bits v 3 2 == 0 && bit v 1) ≤ 32 &&
      primsWith p w count (fun v => bits v 3 2 != 0) ≤ 8) w,
    chk (1024 ≤ lo 1) (w + 1),
    chk (hi 2 == 0 && (!artic || 1024 ≤ lo 2)) (w + 2),
    chk (lo 3 ≤ 8192 && hi 3 ≤ 10923) (w + 3),
    chk (500 ≤ hi 4 && hi 4 ≤ 3750) (w + 4),
    chk (toSigned 16 (lo 5) ≤ toSigned 16 (hi 5)) (w + 5),
    chk (toSigned 16 (lo 6) ≤ toSigned 16 (hi 6)) (w + 6),
    chk (hi 8 == 0) (w + 8)] ++
    ((List.range 7).map fun i => chk (pw p (w + 9 + i) == 0) (w + 9 + i)) ++
    (List.range 72).map (primCheck p w count artic))

/-- The BODIES section (R414). -/
def bodiesCheck (p : List W32) (off len : Nat) : Option Nat :=
  let n := bits (pw p off) 4 0
  firstSome (chk (1 ≤ n && n ≤ 16 && bits (pw p off) 31 5 == 0 && len == 1 + 304 * n) off ::
    (List.range n).map fun q => bodyCheck p (off + 1 + 304 * q))

/-- The range of UNITS of an operator's engine (R347). -/
def unitsOk (code u : Nat) : Bool :=
  match engineOf code with
  | some .truss => 1 ≤ u && u ≤ 8
  | some .scribe => 1 ≤ u && u ≤ 16
  | some .sorter => 1 ≤ u && u ≤ 4
  | some .plane => u == 1
  | some .joiner => u == 1
  | _ => u == 0

/-- The TIMETABLE section (R347). -/
def timetableCheck (p : List W32) (off len e : Nat) : Option Nat :=
  let ops := planOps p
  firstSome ([
    chk (len == 2 + 4 * operatorCount p) (16 + 4 * e + 2),
    chk (pw p off < 16) off, chk (pw p (off + 1) < 2 ^ 18) (off + 1)] ++
    (List.range (operatorCount p)).flatMap fun k =>
      let w := off + 2 + 4 * k
      [chk (pw p w == k) w, chk (pw p (w + 1) < 2 ^ 22) (w + 1),
        chk (1 ≤ pw p (w + 2) && pw p (w + 2) < 2 ^ 22) (w + 2),
        chk (unitsOk ((ops.getD k ⟨0, 0, [], [], [], false, false, false, 0, 0, 0⟩).code) (pw p (w + 3))) (w + 3)])

/-- The code of every operator of an engine, checked where its section stands (R298, R326). -/
def codeFaults (p : List W32) (kind : Nat) : Option Nat :=
  firstSome ((planOps p).map fun o =>
    if kind = 0x04 && engineOf o.code == some .truss && o.codeStart + 8 ≤ secLen p 0x04 then
      macroFault p (codeWord p o)
    else if kind = 0x05 && o.code = 0x0A0 && o.codeStart + o.codeWords ≤ secLen p 0x05 then
      let w := codeWord p o
      let parcel := fun i => if i % 2 = 0 then bits (pw p (w + i / 2)) 15 0 else bits (pw p (w + i / 2)) 31 16
      (codeFault parcel (2 * o.codeWords) (2 * o.codeWords) 0).map fun i => w + i / 2
    else none)

/-- One section (R205 pass 5). -/
def sectionCheck (p : List W32) (e : Nat) : Option Nat :=
  let off := pw p (16 + 4 * e + 1)
  let len := pw p (16 + 4 * e + 2)
  let lw := 16 + 4 * e + 2
  match bits (pw p (16 + 4 * e)) 7 0 with
  | 0x01 => firstSome (chk (len == 8 * tensorCount p) lw :: (List.range (tensorCount p)).map (descCheck p))
  | 0x02 => firstSome (chk (len == 4 * streamCount p) lw :: (List.range (streamCount p)).map (streamCheck p))
  | 0x03 => opsCheck p (off + len) (operatorCount p) off
  | 0x07 => timetableCheck p off len e
  | 0x08 => bodiesCheck p off len
  | k => codeFaults p k

/-- Whether every section that the tensors and operators call for is there (R195, section kinds). -/
def sectionsHeld (p : List W32) : Bool :=
  let needs := fun kind (f : OpDesc → Bool) => secLen p kind != 0 || !(planOps p).any f
  needs 0x04 (fun o => engineOf o.code == some .truss) && needs 0x05 (fun o => engineOf o.code == some .joiner) &&
    needs 0x08 (fun o => o.code == 0x060) &&
    (secLen p 0x06 != 0 || !(List.range (tensorCount p)).any fun i => (tensorDesc p i).kind == 4)

/-- Pass 5 (R205): the sections; then, since only now the entries are known to be sound, the sections that they call for
(reported at word 3, as an absent section of pass 4 is; log entry 43). -/
def pass5 (p : List W32) : Option Nat :=
  firstSome ((List.range (secCount p)).map (sectionCheck p) ++ [chk (sectionsHeld p) 3])

/-! ### What a plan depends on -/

/-- Whether operator `b`, later in plan order, depends on operator `a` (R203). -/
def dependsOn (a b : OpDesc) : Bool :=
  a.outs.any (fun t => b.ins.contains t || b.outs.contains t) || a.ins.any fun t => b.outs.contains t

/-- Whether a plan has an output stream of a class other than QM (R79, R589). -/
def planSafety (p : List W32) : Bool := (planStreams p).any fun e => e.output && e.sclass != 0

/-- The greatest class of a plan's output streams. -/
def planClass (p : List W32) : Nat := ((planStreams p).filter (·.output)).foldl (fun a e => max a e.sclass) 0

/-- The data of a CONSTANT tensor. -/
def constData (p : List W32) (t : TensorDesc) : List Byte :=
  bytesAt (bytesOfWords ((p.drop (secOff p 0x06 + t.link)).take (ceilDiv t.size 4))) 0 (ceilDiv (volume t.dims * fmtBits t.fmt) 8)

end Sys2Proof.Machine
end

