-- ==== Sys2Proof/Machine/Time.lean ====
section
/-! DEFINITION. Postmark time (04 R146-R172): the counter, its adjustments, consistent reading, and loss of PM_CLK. -/

namespace Sys2Proof.Machine

/-- Whether the next tick is a second roll-over (R168). -/
def rollNext (s : State) : Bool := (now s + 1) % 25000000 == 0

/-- Put a signed adjustment into POSTMARK_ADJ: it replaces what is left of an earlier one (R164), its slew counts afresh
(R166, R169), and it is delayed past a second roll-over at the next tick (R168). -/
def setAdj (s : State) (v : Nat) : State :=
  let s := fput s Fd.postmark_POSTMARK_ADJ v
  { s with time := { s.time with slewRun := 0, delayed := v % 2 ^ 32 != 0 && rollNext s } }

/-- Advance the counter (R146). -/
def advance (s : State) (n : Nat) : State :=
  { s with time := { s.time with counter := s.time.counter + BitVec.ofNat 64 n, prev := s.time.counter } }

/-- Whether a positive adjustment is applied at the next PM_CLK edge (R165, R168). -/
def stepDue (s : State) : Bool := s.time.running && 0 < adjLeft s && !s.time.delayed

/-- Whether a slew holds the counter at the next PM_CLK edge (R166). -/
def holdDue (s : State) : Bool :=
  s.time.running && adjLeft s < 0 && !s.time.delayed && s.time.slewRun + 1 == 1000

/-- A positive adjustment applied whole: the counter advances by n + 1 (R165). -/
def applyStep (s : State) : State :=
  let n := (adjLeft s).toNat
  fadd (fput (advance s (n + 1)) Fd.postmark_POSTMARK_ADJ 0) Fd.postmark_ADJ_COUNT 1

/-- The last cycle of a run of 1,000: the counter holds and the remaining adjustment rises by one (R166). -/
def applyHold (s : State) : State :=
  let left := adjLeft s + 1
  let s := fput s Fd.postmark_POSTMARK_ADJ (ofSigned 32 left)
  let s := fadd s Fd.postmark_SLEW_HOLD_COUNT 1
  let s := { s with time := { s.time with slewRun := 0, prev := s.time.counter } }
  if left = 0 then fadd s Fd.postmark_ADJ_COUNT 1 else s

/-- A PM_CLK edge that neither applies a step nor holds: the counter advances by one, a delay ends at the roll-over
(R168), and a slew counts a cycle. -/
def applyPlain (s : State) : State :=
  let slewing := adjLeft s < 0 && !s.time.delayed
  let s := advance s 1
  { s with time := { s.time with
      slewRun := if slewing then s.time.slewRun + 1 else s.time.slewRun
      delayed := false } }

/-- One PM_CLK rising edge (R146, R165, R166). -/
def pmEdge (s : State) : State :=
  if !s.time.running || s.time.clkLost then s
  else if stepDue s then applyStep s
  else if holdDue s then applyHold s
  else applyPlain s

/-- POSTMARK_COUNTER_START (R147, R674): tick 0, once power is good and the new power epoch is committed; start-up goes on to
stage 1. -/
def execPostmarkCounterStart (s : State) : Host.Outcome State Fault Refusal :=
  if s.boot.powerGood && !s.boot.holdup && !s.time.running && !s.time.clkLost then
    .next (fput { s with time := { s.time with running := true, counter := 0, prev := 0 } } Fd.ident_BOOT_STAGE 1)
  else .next s

/-- PM_CLK_LOSS (R149, R678): the loss is recorded, and the counter gets no further edge. -/
def execPmClkLoss (s : State) : Host.Outcome State Fault Refusal :=
  if s.boot.aon && !s.time.clkLost then
    .next (raise { s with time := { s.time with clkLost := true } } 0x15 0x003 0xF 0xF 0)
  else .next s

/-- POSTMARK_ADJ_WRITE (R164, R169, R170): during an alignment the write is refused and counted. -/
def execPostmarkAdjWrite (q : Requester) (v : W32) (be : BitVec 4) (s : State) : Host.Outcome State Fault Refusal :=
  if writeReaches s q 0x003 0x054 && fget s (Fd.hdr_LOCK 0x003) == 0 && be != 0 then
    if fget s Fd.postmark_ALIGN_ACTIVE = 1 then .next (fadd s Fd.postmark_ADJ_REFUSED_COUNT 1)
    else
      let t := regWrite denyNone s q 0x003 0x054 v be
      .next (setAdj t (fget t Fd.postmark_POSTMARK_ADJ))
  else .next (regWrite denyNone s q 0x003 0x054 v be)

/-- The time shadows that a POSTMARK_LO read latches (R160, R161). -/
def shadowNow (s : State) : TimeShadow :=
  ⟨BitVec.ofNat 32 (now s / 2 ^ 32), BitVec.ofNat 32 (now s / 25000000), BitVec.ofNat 32 (now s % 25000000),
    s.time.epoch⟩

/-- Latch a requester's time shadows (R161, R163). -/
def latchTime (s : State) (q : Requester) : State :=
  { s with time := { s.time with shadows := mapPut ⟨0, 0, 0, 0⟩ s.time.shadows (reqNo q) (shadowNow s) } }

/-- POSTMARK_LO_READ (R161, R724): the low word of the counter, with the high word after it in a 64-bit read; the
requester's shadows take the same instant. -/
def execPostmarkLoRead (q : Requester) (wide : Bool) (s : State) : Host.Outcome State Fault Refusal :=
  .next (regReadThen s q 0x003 0x040 (if wide then 2 else 1) fun s =>
    let s := latchTime s q
    complete s (leBytes 4 (regRead s q 0x003 0x040) ++ if wide then leBytes 4 (regRead s q 0x003 0x044) else []))

/-- The LO registers of LO-HI pairs whose read latches the HI shadow (R734), by page and offset. -/
def pairLo (page off : Nat) : Bool := off == 0x038 || (page == 0x007 && (off == 0x058 || off == 0x060))

/-- The value the HI half of a pair holds when its LO half is read. -/
def pairHiNow (s : State) (page off : Nat) : Nat :=
  if page = 0x007 && off = 0x060 then poweredMs s / 2 ^ 32 else regGet s page (off + 4)

/-- LAST_EVENT_PM_LO and the other LO halves of R734: the read latches the requester's HI shadow. -/
def execLastEventPmLo (q : Requester) (page : BitVec 12) (off : BitVec 12) (wide : Bool) (s : State) :
    Host.Outcome State Fault Refusal :=
  let p := page.toNat
  let o := off.toNat
  if pagePresent p && pairLo p o then
    .next (regReadThen s q p o (if wide then 2 else 1) fun s =>
      let lo := regRead s q p o
      let hi := BitVec.ofNat 32 (pairHiNow s p o)
      let s := { s with time := { s.time with
        hiShadows := mapPut 0 s.time.hiShadows (reqNo q * 2 ^ 24 + regKey p (o + 4)) hi } }
      complete s (leBytes 4 lo ++ if wide then leBytes 4 (regRead s q p (o + 4)) else []))
  else .next s

end Sys2Proof.Machine
end

