-- ==== Sys2Proof/Machine/Power.lean ====
section
/-! DEFINITION. Fast clocks on demand, clock steps, the thermal emergency, and the clock, voltage and thermal monitors
(04 R173-R194, 15 R597-R601, 17 R661-R663, R672). -/

namespace Sys2Proof.Machine

/-! ### Fast domains -/

/-- The fast domain of a kind of unit: 0 Truss, 1 Scribe/Sorter/Plane, 2 joiner (19, power page). -/
def domainOf : UnitKind → Nat
  | .truss => 0
  | .joiner => 2
  | .courier => 3
  | _ => 1

/-- Whether a fast domain runs. -/
def domainRuns (s : State) (d : Nat) : Bool := bit (fget s Fd.power_DOMAIN_RUN) d

/-- The fast domain of the units that a rotating test visits, by kind of test (R606). -/
def testDomain (k : Nat) : Nat := [0, 1, 2, 3, 1, 1].getD k 3

/-- Whether the fabric domain has a tensor transfer or a world build to do: a Letter accepted and not finished, or a build
that waits or runs (R173; log entry 203). -/
def fabricWork (s : State) : Bool :=
  (s.letters.any fun l => (l.op == 0x05 || l.op == 0x06 || l.op == 0x07) && l.phase != .finished) ||
    !s.lattice.queue.isEmpty || s.lattice.active.isSome

/-- Whether a unit of a domain has work (R173): a task waiting or running, a rotating test, a transfer or a build. -/
def domainWork (s : State) (d : Nat) : Bool :=
  (s.sched.tasks.any fun t => domainOf t.kind == d) || (s.spare.tests.any fun t => testDomain t.1 == d) ||
    (d == 3 && fabricWork s)

/-- Whether something holds a domain running (R173, R175, R672). -/
def domainHeld (s : State) (d : Nat) : Bool :=
  anyStrict s || domainWork s d ||
    (d == 3 && (fget s Fd.power_DOMAIN_RUN % 8 != 0 ||
      ((List.range 6).any fun n => fget s (Fd.link_STATE n) == 1 || fget s (Fd.link_STATE n) == 2) ||
      (List.range 8).any fun n => fget s (Fd.intake_ENABLE n) == 1))

/-- One tick of each domain's idle count (R174). -/
def idleTick (s : State) : State :=
  { s with power := { s.power with
      idle := (List.range 4).map fun d =>
        if domainHeld s d || !domainRuns s d then 0 else s.power.idle.getD d 0 + 1 } }

/-- Start one domain: it runs and its wake is counted. -/
def startDomain (s : State) (d : Nat) : State :=
  if domainRuns s d then s
  else
    let s := fput s Fd.power_DOMAIN_RUN (fget s Fd.power_DOMAIN_RUN + 2 ^ d)
    fadd s (Fd.power_WAKE_COUNT d) 1

/-! ### Clock steps -/

/-- Nominal VDD_CORE of a step in mV (R177). -/
def nominalMv (step : Nat) : Nat := [850, 810, 780, 750, 720, 690, 660, 650].getD step 650

/-- The commanded VDD_CORE of a step: nominal plus the fused offset, clamped (R178). -/
def stepMv (s : State) (step : Nat) : Nat := min 850 (max 650 (nominalMv step - s.fuses.voffset))

/-- Cycles of the Truss, Scribe and fabric clocks in one pt at a step (R177): 40 ns times the frequency. -/
def cyclesPerPt (step : Nat) : Nat := [50, 44, 40, 36, 30, 24, 16, 8].getD step 8

/-- The voltage of the step in force: the one kept since a lowering that was not confirmed, or the step's own (R178, R182). -/
def curMv (s : State) : Nat := s.power.heldMv.getD (stepMv s (fget s Fd.power_STEP_CUR))

/-- Command a VDD_CORE voltage over PMBus (R178). -/
def commandMv (s : State) (mv : Nat) : State := send (fput s Fd.power_VCORE_CMD_MV mv) (.pmbus mv)

/-- Let the step machine wait VSETTLE_PT from now. -/
def settleFrom (s : State) (ph : StepPhase) : State :=
  { s with power := { s.power with phase := ph, waitEnd := now s + fget s Fd.power_VSETTLE_PT } }

/-- Set T_THERMAL in every running task: the emergency window covers part of its run (R191). -/
def markThermal (s : State) : State :=
  mapTasks s fun t => if t.disp.isSome then { t with flags := t.flags ||| 16 } else t

/-- Begin the relock at the step machine's target (R181). -/
def beginRelock (s : State) : State := accrue { s with power := { s.power with phase := .relock } }

/-- Begin the frequency change if nothing makes it wait: with a Strict partition enabled it waits for a major-frame boundary
(R184), and with the fast clocks stopped for the next wake (R194). -/
def relockIfFree (s : State) : State :=
  if anyStrict s || fget s Fd.power_DOMAIN_RUN = 0 then { s with power := { s.power with phase := .ready } }
  else beginRelock s

/-- Aim the step machine at a step (R180): a higher frequency raises the voltage first, a lower one changes frequency
first. With the fast clocks stopped the new voltage is commanded at once (R194). -/
def beginStep (s : State) (target : Nat) : State :=
  let cur := fget s Fd.power_STEP_CUR
  let s := { s with power := { s.power with target := target, oldMv := curMv s, newMv := stepMv s target } }
  if target < cur then settleFrom (commandMv s (stepMv s target)) .raising
  else relockIfFree (if fget s Fd.power_DOMAIN_RUN = 0 then commandMv s (stepMv s target) else s)

/-- The end of a thermal emergency: the forced step is no longer in force (R188, R191). -/
def endEmergency (s : State) : State :=
  let s := fput (fput s Fd.power_EMERG_ACTIVE 0) Fd.mon_EMERG_ACTIVE 0
  { s with power := { s.power with emerg := false, emergOver := false, window := false, coolSince := none } }

/-- After a change has ended: go on to a request stored meanwhile, or clear STEP_PENDING (R179, R185); a forced step that
STEP_REQ names is returned to at once (R188). STEP_PENDING of a step to a lower frequency stays 1 until its voltage has
settled, as R182 clears it only then (the model's choice, log entry 200). -/
def nextRequest (s : State) : State :=
  let s := { s with power := { s.power with phase := .idle } }
  if s.power.emerg && !s.power.emergOver then s
  else if fget s Fd.power_STEP_REQ = fget s Fd.power_STEP_CUR then
    let s := fput s Fd.power_STEP_PENDING 0
    if s.power.emerg then endEmergency s else s
  else beginStep s (fget s Fd.power_STEP_REQ)

/-- Act on a STEP_REQ value just stored (R179, R185, R188, R189). A relock under way is not disturbed, but a write that names
the forced step still in force ends the emergency. A lowered voltage that still settles is waited for, unless the fast clocks
are stopped (R194). -/
def requestStep (s : State) : State :=
  let req := fget s Fd.power_STEP_REQ
  let cur := fget s Fd.power_STEP_CUR
  let s := fput s Fd.power_STEP_PENDING (b2n (req != cur || s.power.phase == .relock || s.power.phase == .lowering))
  if s.power.emerg && !s.power.emergOver then fput s Fd.power_STEP_PENDING (b2n (req != cur))
  else if s.power.phase == .relock then
    if s.power.emerg && cur == s.power.forced && req == cur then endEmergency s else s
  else if s.power.phase == .lowering && (fget s Fd.power_DOMAIN_RUN != 0 || req == cur) then s
  else if req = cur then
    let s := if s.power.phase == .idle then s else commandMv s (curMv s)
    let s := { s with power := { s.power with phase := .idle } }
    if s.power.emerg then endEmergency s else s
  else beginStep s req

/-- A change of a partition's regime has left no Strict partition: a frequency change that waited for a major frame takes place
(R183). -/
def relockFreed (s : State) : State :=
  if s.power.phase == .ready && !anyStrict s then relockIfFree s else s

/-- STEP_REQ_WRITE (R179, R185, R189, R193, R194). -/
def execStepReqWrite (q : Requester) (v : W32) (be : BitVec 4) (s : State) : Host.Outcome State Fault Refusal :=
  let t := regWrite denyNone s q 0x002 0x040 v be
  if writeReaches s q 0x002 0x040 && fget s (Fd.hdr_LOCK 0x002) == 0 && be.getLsbD 0 then .next (requestStep t)
  else .next t

/-- Whether the regulator's answer confirms the commanded voltage (R662). -/
def confirmed (s : State) (a : RegulatorAnswer) : Bool :=
  let cmd := fget s Fd.power_VCORE_CMD_MV
  a.answered && a.pecOk && !a.fault && a.vout ≤ cmd + 15 && cmd ≤ a.vout + 15

/-- Take in the regulator's answer: VCORE_READ_MV and PMB_STATUS_WORD, or the PMBus error (19). -/
def noteRegulator (s : State) (a : RegulatorAnswer) : State :=
  if a.answered && a.pecOk then
    fput (fput s Fd.power_VCORE_READ_MV a.vout) Fd.power_PMB_STATUS_WORD a.status.toNat
  else setEvent (fadd s Fd.power_PMB_ERR_COUNT 1) 0x002 9

/-- VOLTAGE_SETTLE_END (R180, R182): after VSETTLE_PT the regulator is read; the step proceeds or STEP_FAULT is set. -/
def execVoltageSettleEnd (ans : RegulatorAnswer) (s : State) : Host.Outcome State Fault Refusal :=
  if s.power.waitEnd ≤ now s && (s.power.phase == .raising || s.power.phase == .lowering) then
    let t := noteRegulator s ans
    if s.power.phase == .raising then
      if confirmed s ans then .next (relockIfFree { t with power := { t.power with heldMv := none } })
      else
        let t := commandMv t (stepMv t (fget t Fd.power_STEP_CUR))
        let t := fput (setEvent t 0x002 8) Fd.power_STEP_PENDING 0
        .next { t with power := { t.power with phase := .idle, heldMv := none } }
    else if confirmed s ans then .next (nextRequest { t with power := { t.power with heldMv := none } })
    else
      let t := setEvent (commandMv t s.power.oldMv) 0x002 8
      .next (nextRequest { t with power := { t.power with heldMv := some s.power.oldMv } })
  else .next s

/-- The new step is in force (R181): STEP_CUR, the count, and for a lower frequency the lower voltage commanded (R180); the
voltage to fall back to is that of the step before (R182). A return from the forced step ends the emergency (R188), whatever
STEP_REQ says by then. A relock turned back to the forced step leaves the raised voltage, which is lowered again. -/
def stepInForce (s : State) : State :=
  let was := fget s Fd.power_STEP_CUR
  let target := s.power.target
  let old := curMv s
  let s := fput s Fd.power_STEP_CUR target
  let s := fadd s Fd.power_STEP_CHANGE_COUNT 1
  let s := if s.power.emerg && s.power.emergOver && target != s.power.forced then endEmergency s else s
  if was < target || (was == target && stepMv s target < fget s Fd.power_VCORE_CMD_MV) then
    let s := { s with power := { s.power with oldMv := old, newMv := stepMv s target } }
    settleFrom (commandMv s (stepMv s target)) .lowering
  else nextRequest s

/-- STEP_RELOCK_DONE (R181, R345). -/
def execStepRelockDone (s : State) : Host.Outcome State Fault Refusal :=
  if s.power.phase == .relock then
    .next (stepInForce (leaveSelfRefresh { s with power := { s.power with relockEnd := now s } }))
  else .next s

/-- FAST_DOMAIN_WAKE (R173, R194): a stopped domain with work starts, the fabric with it, and a settled step takes effect.
The Loose tasks that waited for it carry T_LOOSE (R563). -/
def execFastDomainWake (d : Fin 4) (s : State) : Host.Outcome State Fault Refusal :=
  if s.boot.powerGood && !s.boot.holdup && !domainRuns s d && domainHeld s d then
    let stopped := fget s Fd.power_DOMAIN_RUN = 0
    let t := mapTasks (startDomain (startDomain s d) 3) fun k =>
      if k.disp.isNone && !k.strict && domainOf k.kind == d.val then { k with flags := k.flags ||| 32 } else k
    .next (if stopped && s.power.phase == .ready && !anyStrict s then beginRelock t else t)
  else .next s

/-- FAST_DOMAIN_STOP (R174-R176). -/
def execFastDomainStop (d : Fin 4) (s : State) : Host.Outcome State Fault Refusal :=
  if domainRuns s d && !domainHeld s d && fget s (Fd.power_FC_IDLE_PT d) != 0 &&
      fget s (Fd.power_FC_IDLE_PT d) ≤ s.power.idle.getD d 0 then
    .next (fput s Fd.power_DOMAIN_RUN (fget s Fd.power_DOMAIN_RUN - 2 ^ d.val))
  else .next s

/-! ### Thermal monitor -/

/-- The junction temperature of a register byte, in °C. -/
def celsius (v : Nat) : Int := toSigned 8 v

/-- THERM_EMERG_TJ in °C: an unsigned field of 95 to 130. -/
def emergTj (s : State) : Int := fget s Fd.mon_THERM_EMERG_TJ

/-- Enter a thermal emergency step (R187, R190, R191): the forced step is CS5 or the slower step in force; its window opens
at the entry relock, or at once when there is none. A relock under way goes to the forced step instead. -/
def enterEmergency (s : State) : State :=
  let cur := fget s Fd.power_STEP_CUR
  let forced := max 5 cur
  let s := fput (fput s Fd.power_EMERG_ACTIVE 1) Fd.mon_EMERG_ACTIVE 1
  let s := setEvent (fadd s Fd.mon_THERM_EMERG_COUNT 1) 0x0A0 8
  let s := lifeAdd s 1 0
  let s := markThermal s
  let s := fput s Fd.power_STEP_PENDING (b2n (fget s Fd.power_STEP_REQ != forced))
  let s := { s with power := { s.power with emerg := true, forced := forced, emergOver := false, window := true
                                            coolSince := none, target := forced } }
  if forced = cur && s.power.phase != .relock then
    if s.power.phase == .idle then s
    else { commandMv s (curMv s) with power := { s.power with phase := .idle } }
  else beginRelock s

/-- The highest of the junction readings (R600). -/
def hottest (l : List (BitVec 8)) : Int := l.foldl (fun a v => max a (celsius v.toNat)) (-128)

/-- Store the sensor readings and TJ_NOW, TJ_PEAK. -/
def storeTemps (s : State) (l : List (BitVec 8)) : State :=
  let s := (List.range 12).foldl (fun s i => fput s (Fd.mon_SENSOR_TJ i) (((l[i]?).map (·.toNat)).getD 0)) s
  let tj := hottest l
  let peak := if s.power.peakSet then max tj (celsius (fget s Fd.mon_TJ_PEAK)) else tj
  let s := fput (fput s Fd.mon_TJ_NOW (ofSigned 8 tj)) Fd.mon_TJ_PEAK (ofSigned 8 peak)
  { s with power := { s.power with peakSet := true } }

/-- Judge each sensor pair: more than 8 °C apart on four consecutive samples raises THERM_SENSOR (R600). -/
def judgePairs (s : State) (l : List (BitVec 8)) : State :=
  (List.range 6).foldl (fun s i =>
    let a := celsius (((l[2 * i]?).map (·.toNat)).getD 0)
    let b := celsius (((l[2 * i + 1]?).map (·.toNat)).getD 0)
    let n := if 8 < a - b || 8 < b - a then s.power.pairSamples.getD i 0 + 1 else 0
    let s := { s with power := { s.power with pairSamples := s.power.pairSamples.set i n } }
    let s := if 4 ≤ n then
      { s with safety := { s.safety with condLast := mapPut 0 s.safety.condLast 0x18 (now s) } } else s
    if n = 4 then
      raise (setEvent (fadd s Fd.mon_THERM_SENSOR_COUNT 1) 0x0A0 10) 0x18 0x0A0 0xF 0xF 0
    else s) s

/-- The temperature bin of R697. -/
def tempBin (tj : Int) : Nat :=
  if tj < -45 then 0 else if 145 ≤ tj then 39 else ((tj + 50) / 5).toNat

/-- The residency counters that each sample adds 250 pt to (R697, R696, R186): the temperature bin, the step in force, all fast
clocks stopped, and a thermal emergency step. Time with all fast clocks stopped counts to its own word alone, emergency time to
its word and to its step (the model's choice, log entry 201). -/
def addResidency (s : State) (tj : Int) : State :=
  let b := tempBin tj
  let s := ledgerAddPt s 0x02 (b / 5) (b % 5) 250
  let st := fget s Fd.power_STEP_CUR
  let s := if fget s Fd.power_DOMAIN_RUN = 0 then ledgerAddPt s 0x03 1 3 250
    else if st < 5 then ledgerAddPt s 0x03 0 st 250 else ledgerAddPt s 0x03 1 (st - 5) 250
  if s.power.emerg then ledgerAddPt s 0x03 1 4 250 else s

/-- Track the exit condition of the emergency: at or below THERM_EMERG_TJ − 10 °C (R188). -/
def trackCool (s : State) (tj : Int) : State :=
  { s with power := { s.power with
      coolSince := if tj ≤ emergTj s - 10 then some (s.power.coolSince.getD (now s)) else none } }

/-- Take a sample of the twelve junction sensors and the rails (R600, R601, R187, R188, R697). -/
def takeSample (s : State) (readings : List (BitVec 8)) (rails : List Nat) : State :=
  let tj := hottest readings
  let t := judgePairs (storeTemps s readings) readings
  let t := (List.range 9).foldl (fun t k => fput t (Fd.mon_RAIL_MV k) (rails.getD k 0)) t
  let t := addResidency t tj
  let hot := if 135 < tj then t.power.hotSamples + 1 else 0
  let t := { t with power := { t.power with hotSamples := hot } }
  let t := if hot = 2 then raise t 0x19 0x0A0 0xF 0xF 0 else t
  let t := trackCool t tj
  if emergTj s ≤ tj && (!s.power.emerg || s.power.emergOver) then enterEmergency t else t

/-- THERMAL_SAMPLE (R600): every 250 pt; twelve readings, and the rail voltages the monitor page shows. -/
def execThermalSample (readings : List (BitVec 8)) (rails : List Nat) (s : State) : Host.Outcome State Fault Refusal :=
  if readings.length = 12 && rails.length = 9 && s.boot.powerGood && (s.safety.sampleNext ≤ now s || s.time.clkLost) then
    .next (takeSample { s with safety := { s.safety with sampleNext := s.safety.sampleNext + 250 } } readings rails)
  else .next s

/-- THERMAL_EMERGENCY_EXIT (R188): the condition ends and the Corod returns to STEP_REQ. -/
def execThermalEmergencyExit (s : State) : Host.Outcome State Fault Refusal :=
  match s.power.coolSince with
  | some since =>
    if s.power.emerg && !s.power.emergOver && since + 25000000 ≤ now s then
      let t := { s with power := { s.power with emergOver := true } }
      if fget t Fd.power_STEP_REQ = fget t Fd.power_STEP_CUR && t.power.phase != .relock then .next (endEmergency t)
      else if t.power.phase == .relock || t.power.phase == .lowering then .next t
      else .next (beginStep (fput t Fd.power_STEP_PENDING 1) (fget t Fd.power_STEP_REQ))
    else .next s
  | none => .next s

/-! ### Clock and voltage monitors -/

/-- The count expected of a fast domain in a window of 250 pt, in hundredths of a cycle (R597, R177). -/
def expectedCount (s : State) (d : Nat) : Nat :=
  cyclesPerPt (fget s Fd.power_STEP_CUR) * 250 * if d = 2 then 128 else 100

/-- Whether a count lies outside ±1% of the expected value; a lost PLL lock counts as outside. -/
def clockBad (s : State) (d : Nat) : Option Nat → Bool
  | none => true
  | some n =>
    let e := expectedCount s d
    100 * (100 * n) > 101 * e || 100 * (100 * n) < 99 * e

/-- Judge each running domain's count (R597). -/
def judgeClocks (s : State) (counts : List (Option Nat)) : State :=
  (List.range 4).foldl (fun t d =>
    if domainRuns s d && clockBad s d ((counts[d]?).getD (some (expectedCount s d / 100))) then
      raise { t with safety := { t.safety with condLast := mapPut 0 t.safety.condLast 0x14 (now t) } } 0x14 0x002 0xF 0xF 0
    else t) s

/-- Whether the window that ends at a postmark overlaps a relock (R597). -/
def windowRelocked (s : State) (ends : Nat) : Bool := s.power.phase == .relock || ends < s.power.relockEnd + 250

/-- CLOCK_MONITOR_WINDOW (R597): a window of 250 pt ends and is judged; one that overlaps a relock is not. -/
def execClockMonitorWindow (counts : List (Option Nat)) (s : State) : Host.Outcome State Fault Refusal :=
  let ends := s.safety.clockNext
  if ends ≤ now s then
    let t : State := { s with safety := { s.safety with clockNext := ends + 250 } }
    .next (if windowRelocked s ends then t else judgeClocks t counts)
  else .next s

/-- The nominal voltage of a rail in mV; VDD_CORE has none of its own (17, rails). -/
def railNominal (k : Nat) : Nat := [0, 800, 800, 3300, 1800, 900, 1200, 1050, 500].getD k 0

/-- Whether a rail stands outside its monitor window (R598). -/
def railOut (s : State) (k mv : Nat) : Bool :=
  if k = 0 then
    let cmd := fget s Fd.power_VCORE_CMD_MV
    let moving := s.power.phase != .idle
    let lo := if moving then min cmd (min s.power.oldMv s.power.newMv) else cmd
    let hi := if moving then max cmd (max s.power.oldMv s.power.newMv) else cmd
    mv + 60 < lo || hi + 60 < mv
  else 100 * mv < 92 * railNominal k || 108 * railNominal k < 100 * mv

end Sys2Proof.Machine
end

