-- ==== Sys2Proof/Machine/Partition.lean ====
section
/-! DEFINITION. Partitions (06 R256-R266): the configuration block and its checks, pass 7 of a plan (05 R205, 08 R348), the
installation of a partition's tables. -/

namespace Sys2Proof.Machine

/-! ### What a partition holds -/

/-- Its logical Beam banks outside the pool. -/
def beamMask (s : State) (p : Nat) : Nat :=
  let b := fget s (Fd.part_BEAM_BANKS p)
  b - (b &&& poolBanks s)

/-- Its DRAM regions as a mask. -/
def regionMask (s : State) (p : Nat) : Nat :=
  fget s (Fd.part_DRAM_REGIONS_LO p) + fget s (Fd.part_DRAM_REGIONS_HI p) * 2 ^ 32

/-- Its tensor entries. -/
def tensorsOf (s : State) (p : Nat) : List TensorEnt := ((s.parts[p]?).map (·.tensors)).getD []

/-- A tensor entry by its identifier. -/
def tensorEnt (s : State) (p id : Nat) : Option TensorEnt := (tensorsOf s p).find? fun t => t.id == id

/-- Whether a stream of a partition is a camera frame stream: that of an enabled intake filter. -/
def cameraStream (s : State) (p stream : Nat) : Bool :=
  (List.range 8).any fun u => (List.range 4).any fun i =>
    fget s (Fd.intake_F_ENABLE u i) == 1 && fget s (Fd.intake_PID u i) == p && fget s (Fd.intake_STREAM u i) == stream

/-- The class of a stream: latest-wins or every-one (R126). Camera frame streams are always latest-wins. -/
def latestWins (s : State) (p stream : Nat) : Bool :=
  stream != 0 && (cameraStream s p stream || (((s.parts[p]?).map (·.streams)).getD []).any fun e => e.1 == stream && e.2)

/-- Banks the World Lattice occupies (R398). -/
def latticeMask (s : State) : Nat :=
  if fget s Fd.lattice_LAT_EN = 1 then
    let b := fget s Fd.lattice_EPOCH_BASE / bankBytes
    15 * 2 ^ b
  else 0

/-- Beam bytes of a partition that no tensor entry and no lattice buffer takes. -/
def freeBeam (s : State) (p : Nat) : Nat :=
  let m := beamMask s p
  let lat := if fget s Fd.lattice_LAT_PID = p then popcount (m &&& latticeMask s) 32 else 0
  let used := ((tensorsOf s p).filter fun t => t.addr < 0x6000000).foldl (fun a t => a + t.size) 0
  (popcount m 32 - lat) * bankBytes - used

/-- LPDDR5X bytes of a partition that no tensor entry takes. -/
def freeDram (s : State) (p : Nat) : Nat :=
  let all := ((List.range 64).filter (bit (regionMask s p))).foldl
    (fun a r => a + fget s (Fd.region_REGION_SIZE r) * 0x200000) 0
  let used := ((tensorsOf s p).filter fun t => dramBase ≤ t.addr).foldl (fun a t => a + t.size) 0
  all - used

/-! ### Pass 7 -/

/-- Bytes of the work area (12, work area), by kind, N, M and b; a plan operator reserves for the greatest b, 127, since its
problem is not known at load (log entry 46). -/
def planeWork (kind n m b : Nat) : Nat :=
  match kind with
  | 0 => 4 * (n * (b + 1) + 8 * (n + m))
  | 1 => 4 * (n * (n + 1) / 2 + 4 * n)
  | _ => 24 * n

/-- Scratch bytes an operator needs in the Beam when it can have them: the spill of a Sorter row (R466), the Plane work area
(R479), the Courier staging area with every member's lists for a merge (R525), the L2 staging area of a macro-operation (R301). -/
def opScratch (p : List W32) (o : OpDesc) (units stations : Nat) : Nat :=
  match engineOf o.code with
  | some .sorter =>
    let sh := sortShape p o
    let piece := min 65536 (64 * ceilDiv sh.rowLen (64 * max 1 units))
    if sh.rowLen ≤ piece then 0
    else
      let full := sh.rowLen / piece
      16 * (full * min sh.k piece + min sh.k (sh.rowLen % piece))
  | some .plane => planeWork (o.code - 0x070) (o.param 2) (o.param 3) 127
  | some .courier =>
    let bytes := fun (l : List Nat) => (l.map fun t => (tensorDesc p t).size).foldl (· + ·) 0
    bytes o.outs + if o.code = 0x082 then stations * bytes o.ins else 0
  | some .truss => (macroOf p o).l2 * 1024
  | _ => 0

/-- Whether INTERNAL tensor `i` is alive while operator `k` runs: written by then, and still to be read or written. -/
def aliveAt (ops : List OpDesc) (i k : Nat) : Bool :=
  ((ops.take (k + 1)).any fun o => o.outs.contains i) && (ops.drop k).any fun o => o.outs.contains i || o.ins.contains i

/-- Bytes of the INTERNAL tensors alive while operator `k` runs, with the trailers of UNPACK_FRAME (R389; log entry 154). -/
def innerBytes (p : List W32) (ops : List OpDesc) (k : Nat) : Nat :=
  (List.range (tensorCount p)).foldl (fun a i =>
    let d := tensorDesc p i
    if d.kind = 0 && aliveAt ops i k then
      a + d.size + 256 * b2n (ops.any fun o => o.code == 0x026 && o.outs.contains i)
    else a) 0

/-- The frame length, frames in a cycle, and cycle length of a timetable. -/
def ttFrame (tt : List W32) : Nat := bits (ttWord tt 0) 17 0

/-- Frames in a cycle. -/
def ttFrames (tt : List W32) : Nat := bits (ttWord tt 0) 21 18 + 1

/-- Cycle length in pt. -/
def ttCycle (tt : List W32) : Nat := ttFrame tt * ttFrames tt

/-- PID of a slot. -/
def ttPid (tt : List W32) (k : Nat) : Nat := bits (ttWord tt (4 + 5 * k)) 11 8

/-- Where a slot begins in the cycle. -/
def ttStart (tt : List W32) (k : Nat) : Nat :=
  bits (ttWord tt (4 + 5 * k)) 3 0 * ttFrame tt + bits (ttWord tt (4 + 5 * k + 1)) 17 0

/-- LENGTH_PT of a slot. -/
def ttLen (tt : List W32) (k : Nat) : Nat := bits (ttWord tt (4 + 5 * k + 2)) 17 0

/-- Whether slot `k` locks logical pair `u` (08, timetable slot). -/
def ttLocked (tt : List W32) (k u : Nat) : Bool := bit (ttWord tt (4 + 5 * k + 4)) (16 + u)

/-- The unit kind of an engine; Courier operators hold no unit. -/
def kindOf : Engine → Option UnitKind
  | .truss => some .truss
  | .joiner => some .joiner
  | .sorter => some .sorter
  | .scribe => some .scribe
  | .plane => some .plane
  | .courier => none

/-- Number of logical units of a kind (R19). -/
def unitCount : UnitKind → Nat
  | .truss => 8
  | .scribe => 16
  | .sorter => 4
  | .plane => 2
  | .joiner => 16
  | .courier => 0

/-- The windows that grant a unit to a partition, as start and length in the cycle; a joiner pair in the mode that R334 requires:
locked, or split. -/
def grants (tt : List W32) (pid : Nat) (kind : UnitKind) (u : Nat) (locked : Bool) : List (Nat × Nat) :=
  ((List.range (ttCount tt)).filter fun k =>
    ttIsWindow tt k && ttPid tt k == pid && bit (ttUnits tt k kind) u && (kind != .joiner || ttLocked tt k u == locked)).map
      fun k => (ttStart tt k, ttLen tt k)

/-- The windows of a partition, as start and length in the cycle. -/
def windowsOf (tt : List W32) (pid : Nat) : List (Nat × Nat) :=
  ((List.range (ttCount tt)).filter fun k => ttIsWindow tt k && ttPid tt k == pid).map fun k => (ttStart tt k, ttLen tt k)

/-- How far past position `t` of the cycle a window that holds it reaches; 0 when none does. -/
def reach (cycle : Nat) (ws : List (Nat × Nat)) (t : Nat) : Nat :=
  ws.foldl (fun a w =>
    let d := (t + cycle - w.1 % cycle) % cycle
    if d < w.2 then max a (w.2 - d) else a) 0

/-- Whether windows cover `len` ticks from a position of the cycle on. -/
def covered (cycle : Nat) (ws : List (Nat × Nat)) : Nat → Nat → Nat → Bool
  | 0, _, len => len == 0
  | fuel + 1, t, len =>
    if len = 0 then true
    else
      let r := reach cycle ws (t % cycle)
      if r = 0 then false else covered cycle ws fuel (t + r) (len - r)

/-- Whether two intervals of the cycle share a tick. -/
def overlap (cycle a la b lb : Nat) : Bool :=
  la != 0 && lb != 0 && ((b + cycle - a % cycle) % cycle < la || (a + cycle - b % cycle) % cycle < lb)

/-- A unit held by an operator over an interval of the cycle. -/
structure Hold where
  kind : UnitKind
  unit : Nat
  start : Nat
  len : Nat
  deriving DecidableEq, Repr

/-- The class of an operator: the greatest class of its output streams, else its plan's (R47; log entry 45). -/
def opClass (p : List W32) (o : OpDesc) : Nat :=
  let w := (o.outs.filter fun t => (tensorDesc p t).kind == 5).map fun t => (streamDesc p (tensorDesc p t).link).sclass
  if w.isEmpty then planClass p else w.foldl max 0

/-- First word of an operator's plan timetable entry (R347). -/
def ptEntry (p : List W32) (k : Nat) : Nat := secOff p 0x07 + 2 + 4 * k

/-- OFFSET_PT, BUDGET_PT and UNITS of an operator. -/
def ptOffset (p : List W32) (k : Nat) : Nat := pw p (ptEntry p k + 1)

/-- BUDGET_PT. -/
def ptBudget (p : List W32) (k : Nat) : Nat := pw p (ptEntry p k + 2)

/-- UNITS. -/
def ptUnits (p : List W32) (k : Nat) : Nat := pw p (ptEntry p k + 3)

/-- The anchor's position in the cycle. -/
def anchorPos (p : List W32) (tt : List W32) : Nat :=
  pw p (secOff p 0x07) * ttFrame tt + pw p (secOff p 0x07 + 1)

/-- The units granted to an operator over its interval and free of the holds so far, lowest first (R348, R349). -/
def unitsFor (p tt : List W32) (pid k : Nat) (o : OpDesc) (kind : UnitKind) (holds : List Hold) : List Nat :=
  let start := (anchorPos p tt + ptOffset p k) % max 1 (ttCycle tt)
  let len := ptBudget p k
  let locked := kind == .joiner && opClass p o != 0
  (List.range (unitCount kind)).filter fun u =>
    covered (ttCycle tt) (grants tt pid kind u locked) (2 * ttCount tt + 2) start len &&
      !(holds.any fun h => h.kind == kind && h.unit == u && overlap (ttCycle tt) start len h.start h.len)

/-- The units of every operator from `k` on; none when some operator cannot have its units, or a Courier operator's interval
leaves the partition's windows (R348). A plan loaded before keeps the units `fixed` for it, one list for each operator, when
they are still granted and free (R349; log entry 205). -/
def assignUnits (p tt : List W32) (pid : Nat) (fixed : List (List Nat)) : List OpDesc → Nat → List Hold → Option (List (List Nat))
  | [], _, _ => some []
  | o :: os, k, holds =>
    match (engineOf o.code).bind kindOf with
    | none =>
      let start := (anchorPos p tt + ptOffset p k) % max 1 (ttCycle tt)
      if covered (ttCycle tt) (windowsOf tt pid) (2 * ttCount tt + 2) start (ptBudget p k) then
        (assignUnits p tt pid fixed os (k + 1) holds).map fun l => [] :: l
      else none
    | some kind =>
      let free := unitsFor p tt pid k o kind holds
      let us := match fixed[k]? with
        | some us => us.filter (free.contains ·)
        | none => free.take (ptUnits p k)
      if us.length < ptUnits p k then none
      else
        let start := (anchorPos p tt + ptOffset p k) % max 1 (ttCycle tt)
        let hs := us.map fun u => ⟨kind, u, start, ptBudget p k⟩
        (assignUnits p tt pid fixed os (k + 1) (hs ++ holds)).map fun l => us :: l

/-- The units that the loaded Strict plans of a partition hold, but for the plan of one slot. -/
def planHolds (s : State) (pid slot : Nat) (tt : List W32) : List Hold :=
  s.plans.flatMap fun e =>
    let q := e.2
    if q.owner == pid && e.1 != slot && !q.unfit && planStrict q.words then
      (List.range q.units.length).flatMap fun k =>
        match ((planOps q.words)[k]?).bind fun o => (engineOf o.code).bind kindOf with
        | some kind => (q.units.getD k []).map fun u =>
            ⟨kind, u, (anchorPos q.words tt + ptOffset q.words k) % max 1 (ttCycle tt), ptBudget q.words k⟩
        | none => []
    else []

/-- Whether every operator is placed after those it depends on, and the plan ends before the cycle does (R348). -/
def offsetsOk (p tt : List W32) : Bool :=
  let ops := planOps p
  let n := ops.length
  ((List.range n).all fun b => (List.range b).all fun a =>
    match ops[a]?, ops[b]? with
    | some x, some y => !dependsOn x y || ptOffset p a + ptBudget p a ≤ ptOffset p b
    | _, _ => true) &&
    (List.range n).all fun k => ptOffset p k + ptBudget p k + 250 ≤ ttCycle tt

/-- The collective group of a partition, when it is enabled and carries the PID (R521). -/
def groupOf (s : State) (pid : Nat) : Option Nat :=
  let w := fget s Fd.coll_GROUP_OF_PID_LO + fget s Fd.coll_GROUP_OF_PID_HI * 2 ^ 32
  let g := bits w (4 * pid + 3) (4 * pid)
  if fget s (Fd.coll_GROUP_ENABLE g) = 1 && fget s (Fd.coll_GROUP_PID g) = pid then some g else none

/-- The number of stations in the box of a partition's group (R520). -/
def groupSize (s : State) (pid : Nat) : Nat :=
  match groupOf s pid with
  | some g =>
    let b := fget s (Fd.coll_GROUP_BOX g)
    ((List.range 3).map fun k => bits b (8 * k + 7) (8 * k + 4) + 1 - bits b (8 * k + 3) (8 * k)).foldl (· * ·) 1
  | none => 0

/-- Loaded Strict plans that hold a flow slot (R590). -/
def strictFlowPlans (s : State) (slot : Nat) : Nat :=
  (s.plans.filter fun e => e.1 != slot && planStrict e.2.words && planSafety e.2.words).length

/-- Whether the plan's peak need fits the memory the partition has left (R205 pass 7, R466, R479; log entry 154): at each
operator its scratch and the INTERNAL tensors alive then. A Strict plan's scratch, and the staging area of a
macro-operation in any plan, lie in the Beam store. -/
def memoryFits (s : State) (pid : Nat) (p : List W32) : Bool :=
  let ops := planOps p
  let strict := planStrict p
  let fb := freeBeam s pid
  ((List.range ops.length).all fun k =>
    match ops[k]? with
    | some o =>
      let scratch := opScratch p o (if strict then ptUnits p k else 1) (groupSize s pid)
      (!(strict || engineOf o.code == some .truss) || scratch ≤ fb) &&
        innerBytes p ops k + scratch ≤ fb + freeDram s pid
    | none => true) &&
    (!(ops.any fun o => engineOf o.code == some .truss) || 256 ≤ fget s (Fd.part_MORTISE_KIB pid))

/-- Pass 7 against a timetable (R205, R348, R434, R521, R590): the failing word, or the units of each operator. `fixed` holds the
units of a plan that is loaded already; none are fixed at a load. -/
def pass7 (s : State) (pid slot : Nat) (p tt : List W32) (fixed : List (List Nat)) : Nat ⊕ List (List Nat) :=
  let ops := planOps p
  let strict := planStrict p
  let courierOk := !(ops.any fun o => engineOf o.code == some .courier) || (groupOf s pid).isSome
  let flowOk := !(strict && planSafety p) || strictFlowPlans s slot < 16
  if regimeOf s pid != (if strict then 1 else 2) || !memoryFits s pid p || !courierOk || !flowOk then .inl 3
  else if !strict then .inr (ops.map fun _ => [])
  else
    let entry := match secEntry p 0x07 with
      | some e => 16 + 4 * e
      | none => 3
    let bad := (List.range ops.length).find? fun k =>
      match ops[k]? with
      | some o => o.code == 0x060 && opClass p o != 0 && ptUnits p k < 2
      | none => false
    match bad with
    | some k => .inl (ptEntry p k + 3)
    | none =>
      if tt.isEmpty || !(pw p (secOff p 0x07) < ttFrames tt && pw p (secOff p 0x07 + 1) < ttFrame tt) || !offsetsOk p tt then
        .inl entry
      else match assignUnits p tt pid fixed ops 0 (planHolds s pid slot tt) with
        | some us => .inr us
        | none => .inl entry

/-- Mark every plan of a partition that no longer passes pass 7 unfit (R210); with `strictOnly` its Strict plans alone (R344). -/
def refit (s : State) (pid : Nat) (strictOnly : Bool) : State :=
  { s with plans := s.plans.map fun e =>
    if e.2.owner == pid && (!strictOnly || planStrict e.2.words) then
      match pass7 s pid e.1 e.2.words s.sched.active e.2.units with
      | .inl _ => (e.1, { e.2 with unfit := true })
      | .inr _ => e
    else e }

/-! ### The configuration block -/

/-- Enabled partitions but one. -/
def otherPids (s : State) (pid : Nat) : List Nat := (List.range 16).filter fun q => q != pid && enabledPid s q

/-- What a field of every other enabled partition holds, joined. -/
def heldBy (s : State) (pid : Nat) (f : Nat → Nat) : Nat := (otherPids s pid).foldl (fun a q => a ||| f q) 0

/-- The offset of the first non-zero byte in a range of a block. -/
def nonZeroAt (b : List Byte) (lo n : Nat) : Option Nat :=
  ((List.range n).find? fun i => leAt b (lo + i) 1 != 0).map (lo + ·)

/-- The new region table of a check: where a range of LPDDR5X lies. -/
def inRegions (s : State) (mask a : Nat) : Bool :=
  match regionAt s a with
  | some r => bit mask r
  | none => false

/-- Whether a tensor range lies in the banks and regions a block names (R261). -/
def tensorPlaced (s : State) (banks regions a n : Nat) : Bool :=
  let ps := pieceStarts a n
  if a + n ≤ 0x6000000 then ps.all fun x => bit banks (x / bankBytes)
  else dramBase ≤ a && a + n ≤ 2 ^ 40 && ps.all (inRegions s regions)

/-- The faults of the tensor entries, in ascending offset (R258, R261). -/
def tensorFaults (s : State) (pid banks regions : Nat) (b : List Byte) (base : Nat) : Nat → List TensorEnt → Nat → Option Nat
  | 0, _, _ => none
  | n + 1, done, t =>
    let o := base + 16 * t
    let id := leAt b o 4
    let size := leAt b (o + 4) 4
    let addr := leAt b (o + 8) 8
    if bits id 31 28 != pid || bits id 27 16 != 0 || done.any (fun e => e.id % 2 ^ 16 == id % 2 ^ 16) then some o
    else if size < 64 || size % 64 != 0 then some (o + 4)
    else if addr % 64 != 0 || !tensorPlaced s banks regions addr size ||
        done.any (fun e => e.addr < addr + size && addr < e.addr + e.size) then some (o + 8)
    else tensorFaults s pid banks regions b base n (⟨id, size, addr⟩ :: done) (t + 1)

/-- The faults of the stream class entries (R258). -/
def streamFaults (b : List Byte) : Nat → List Nat → Nat → Option Nat
  | 0, _, _ => none
  | n + 1, done, k =>
    let o := 0x40 + 4 * k
    let w := leAt b o 4
    let st := bits w 11 0
    if st = 0 || done.contains st then some o
    else if bits w 31 13 != 0 then if bits w 15 13 != 0 then some (o + 1) else nonZeroAt b (o + 2) 2
    else streamFaults b n (st :: done) (k + 1)

/-- Whether a region mask still names a region that holds the mirror area (R769). -/
def mirrorHeld (s : State) (base regions : Nat) : Bool :=
  (List.range 64).any fun r =>
    let a := dramBase + fget s (Fd.region_REGION_BASE r) * 0x200000
    bit regions r && a ≤ base && base + 0x2000000 ≤ a + fget s (Fd.region_REGION_SIZE r) * 0x200000

/-- The first fault of a configuration block, as a byte offset (R257-R261, R265, R769). `mirror` is the base of the mirror
area. -/
def blockFault (s : State) (pid regime mirror : Nat) (b : List Byte) : Option Nat :=
  let off := regime = 0
  let at_ := fun (c : Bool) (o : Nat) => if c then none else some o
  let beam := leAt b 0x08 4
  let cache := leAt b 0x0C 4
  let ways := leAt b 0x10 2
  let mort := leAt b 0x14 4
  let dram := leAt b 0x18 8
  let vf := leAt b 0x28 2
  let cls := leAt b 0x2A 1
  let tc := leAt b 0x24 2
  let sc := leAt b 0x26 2
  let poolNow := if pid = 0 then cache else poolBanks s
  let beamHeld := heldBy s pid (fun q => fget s (Fd.part_BEAM_BANKS q))
  let zero := fun (v o : Nat) => if off then at_ (v == 0) o else none
  firstSome [
    at_ (leAt b 0x00 4 == 0x5A435043) 0x00, at_ (leAt b 0x04 2 == 1) 0x04, at_ (leAt b 0x06 1 == pid) 0x06,
    at_ (leAt b 0x07 1 == regime) 0x07,
    zero beam 0x08, at_ (beam &&& beamHeld == 0 && (pid == 0 || beam &&& poolNow == 0)) 0x08,
    at_ (if pid = 0 then cache &&& beamHeld == 0 else cache == 0) 0x0C,
    at_ (regime == 2 || ways == 0) 0x10, nonZeroAt b 0x12 2,
    at_ (if off then mort == 0 else 256 ≤ mort && mort ≤ 8192 && mort % 256 == 0) 0x14,
    zero dram 0x18,
    at_ (dram &&& heldBy s pid (regionMask s) == 0 && (pid != 0 || mirrorHeld s mirror dram)) 0x18,
    zero (leAt b 0x20 4) 0x20,
    at_ (tc ≤ 4096 && (!off || tc == 0)) 0x24, at_ (sc ≤ 256 && (!off || sc == 0)) 0x26,
    zero vf 0x28, at_ (vf % 2 ^ 15 &&& heldBy s pid (fun q => fget s (Fd.part_VF_MASK q)) == 0) 0x28,
    at_ (vf < 2 ^ 15) 0x29,
    at_ (if off then cls == 0 else if regime = 2 then cls ≤ 2 else cls ≤ 4) 0x2A,
    nonZeroAt b 0x2B 17,
    at_ (leAt b 0x3C 4 == crc32c (bytesAt b 0 0x3C ++ [0, 0, 0, 0] ++ b.drop 0x40)) 0x3C,
    streamFaults b sc [] 0,
    tensorFaults s pid (beam - (beam &&& poolNow)) dram b (0x40 + 4 * sc) tc [] 0]

/-- CONFIG_LENGTH that a block's counts call for (R257). -/
def blockLength (b : List Byte) : Nat := 64 + 4 * leAt b 0x26 2 + 16 * leAt b 0x24 2

/-! ### Installation -/

/-- The tensor entries of a block. -/
def blockTensors (b : List Byte) : List TensorEnt :=
  (List.range (leAt b 0x24 2)).map fun t =>
    let o := 0x40 + 4 * leAt b 0x26 2 + 16 * t
    ⟨leAt b o 4, leAt b (o + 4) 4, leAt b (o + 8) 8⟩

/-- The stream classes of a block. -/
def blockStreams (b : List Byte) : List (Nat × Bool) :=
  (List.range (leAt b 0x26 2)).map fun k =>
    let w := leAt b (0x40 + 4 * k) 4
    (bits w 11 0, bit w 12)

/-- Zero the logical banks of a mask (R263). -/
def zeroBanks (s : State) (mask : Nat) : State :=
  ((List.range 32).filter (bit mask)).foldl (fun s b => zeroRange s (b * bankBytes) bankBytes) s

/-- Zero the regions of a mask (R263). -/
def zeroRegions (s : State) (mask : Nat) : State :=
  ((List.range 64).filter (bit mask)).foldl (fun s r =>
    zeroRange s (dramBase + fget s (Fd.region_REGION_BASE r) * 0x200000) (fget s (Fd.region_REGION_SIZE r) * 0x200000)) s

/-- Bits of `a` that are not in `b`. -/
def minus (a b : Nat) : Nat := a - (a &&& b)

/-- The docket of a tensor: that of its last write; none when nothing has written it since its entry was installed (log
entry 44). -/
def tensorDocket (s : State) (id : Nat) : Option Docket := (mapFind s.tensorDk id).map (·.1)

/-- Put an item on a stream (R201); the one it replaces stays readable for the rest of the tick, or else the one before it
(R353). -/
def putItem (s : State) (key : Nat) (p : StreamPub) : State :=
  let before := (mapFind s.streams key).bind fun e => if e.pm = p.pm then e.before else some e.toStreamPub
  { s with streams := mapIns s.streams key { p with before := before } }

/-- Give the regions of a mask to a partition, or to no one. -/
def ownRegions (s : State) (mask : Nat) (owner : Option Nat) : State :=
  ((List.range 64).filter (bit mask)).foldl (fun s r =>
    match owner with
    | some p => fput (fput s (Fd.region_REGION_OWNER r) p) (Fd.region_OWNED r) 1
    | none => fput (fput s (Fd.region_REGION_OWNER r) 0) (Fd.region_OWNED r) 0) s

/-- Put a block's fields into the partition page (R262, 19). -/
def putPage (s : State) (p : Nat) (b : List Byte) : State :=
  let age := leAt b 0x20 4
  fputs s [(Fd.part_REGIME p, leAt b 0x07 1), (Fd.part_MAX_SCLASS p, leAt b 0x2A 1), (Fd.part_BEAM_BANKS p, leAt b 0x08 4),
    (Fd.part_CACHE_BANKS p, leAt b 0x0C 4), (Fd.part_CACHE_WAYS p, leAt b 0x10 2),
    (Fd.part_DRAM_REGIONS_LO p, leAt b 0x18 4), (Fd.part_DRAM_REGIONS_HI p, leAt b 0x1C 4),
    (Fd.part_VF_MASK p, leAt b 0x28 2), (Fd.part_MORTISE_KIB p, leAt b 0x14 4),
    (Fd.part_AGE_LIMIT_PT p, if age = 0 then 3000000 else age), (Fd.part_TENSOR_COUNT p, leAt b 0x24 2)]

/-- Move a channel to a new owner (R144, R260): its window is emptied; one that returns to PID 0 has ENABLE cleared. -/
def moveChannel (s : State) (ch pid : Nat) : State :=
  let s := fput s (Fd.chan_PID ch) pid
  let s := if pid = 0 then fput s (Fd.chan_ENABLE ch) 0 else s
  setChan s ch { chanOf s ch with high := none, win := [] }

/-- The channel moves of an installation (R260). -/
def moveChannels (s : State) (p mask : Nat) : State :=
  (List.range 64).foldl (fun s ch =>
    let owner := fget s (Fd.chan_PID ch)
    if bit mask ch && owner = 0 && p != 0 then moveChannel s ch p
    else if !bit mask ch && owner = p && p != 0 then moveChannel s ch 0
    else s) s

/-- Channels that an installation moves. -/
def movedChannels (s : State) (p mask : Nat) : List Nat :=
  (List.range 64).filter fun ch =>
    let owner := fget s (Fd.chan_PID ch)
    p != 0 && ((bit mask ch && owner == 0) || (!bit mask ch && owner == p))

/-- Give a partition's tables to it in one cycle (R262 steps 3 to 5, R255, R263, R265). -/
def installBlock (s : State) (p mask : Nat) (b : List Byte) : State :=
  let oldBeam := fget s (Fd.part_BEAM_BANKS p)
  let oldCache := fget s (Fd.part_CACHE_BANKS p)
  let oldDram := regionMask s p
  let newBeam := leAt b 0x08 4
  let newCache := leAt b 0x0C 4
  let newDram := leAt b 0x18 8
  let s := if p = 0 && newCache != oldCache then flushLines s fun _ => true
    else flushLines s fun l => l.pid == p
  let s := zeroBanks s (minus oldBeam newBeam ||| (if p = 0 then minus oldCache newCache else 0))
  let s := zeroRegions s (minus oldDram newDram)
  let s := ownRegions s (minus oldDram newDram) none
  let s := ownRegions s newDram (some p)
  let s := putPage s p b
  let kept := blockTensors b
  let old := tensorsOf s p
  let part := (s.parts.getD p ⟨[], [], none⟩)
  let s := { s with
    parts := s.parts.set p { part with tensors := kept, streams := blockStreams b, pending := none }
    tensorDk := (s.tensorDk.filter fun e => e.1 / 2 ^ 28 != p || kept.any fun t => t.id == e.1 && old.contains t) }
  let s := moveChannels s p mask
  let s := { s with parity := s.parity.filter fun k => 2 ^ 12 ≤ k }
  let s := relockFreed (refit s p false)
  if regimeOf s p = 1 then (List.range 4).foldl startDomain s else s

/-- Whether every Letter and task of a partition has ended, but for the SET_PARTITION itself: a Letter held on one of its channels
(R89) and a rejected Letter whose Reply has not been written have not finally replied (R262). -/
def drained (s : State) (p ch seq : Nat) : Bool :=
  (s.letters.all fun l => l.pid != p || (l.ch == ch && l.l.seq.toNat == seq)) &&
    (s.sched.tasks.all fun t => t.pid != p) &&
    (s.replies.all fun r => !r.final || fget s (Fd.chan_PID r.ch) != p) &&
    (List.range s.chans.length).all fun c =>
      fget s (Fd.chan_PID c) != p || hostGone s p || ((s.chans[c]?).bind (·.held)).isNone

/-- Whether another Strict partition is enabled. -/
def otherStrict (s : State) (p : Nat) : Bool := (List.range 16).any fun q => q != p && strictPid s q

end Sys2Proof.Machine
end

