-- ==== Sys2Proof/Machine/Run.lean ====
section
/-! DEFINITION. Running work: the ports a task reads and writes, the dockets of its outputs, publication, and the progress of
a run (02 R38-R47, R61-R63, R79; 05 R201-R217; 08 R338, R339, R356-R361; 14 R561-R565; 15 R584-R592). -/

namespace Sys2Proof.Machine

/-! ### Letters and their arguments -/

/-- An argument of a Letter, by its Letter offset (R70). -/
def arg (l : LetterIn) (off n : Nat) : Nat := leAt l.args (off - 0x18) n

/-- The plan loaded in a slot. -/
def planAt (s : State) (slot : Nat) : Option PlanSt := mapFind s.plans slot

/-- The plan slot a Letter names. -/
def slotArg (l : Letter) : Nat :=
  if l.op = 0x02 then arg l.l 0x24 2 else arg l.l 0x18 2

/-- The plan a RUN_PLAN runs. -/
def planOf (s : State) (l : Letter) : Option PlanSt := planAt s (slotArg l)

/-- Change the plan of a slot. -/
def updPlan (s : State) (slot : Nat) (f : PlanSt → PlanSt) : State :=
  { s with plans := s.plans.map fun e => if e.1 == slot then (e.1, f e.2) else e }

/-- Whether a Letter is safety-class (R79). -/
def safetyLetter (s : State) (op slot sclass : Nat) : Bool :=
  sclass != 0 || (op == 0x04 && match planAt s slot with
    | some p => planSafety p.words
    | none => false)

/-- Whether an accepted Letter's deadline has passed (R61; log entry 50). -/
def pastDeadline (s : State) (l : Letter) : Bool := l.l.deadline != 0 && l.acceptPm + l.l.deadline.toNat < now s

/-- Which outcome of a run a Reply shows when several meet: the greatest rank (log entry 51). -/
def statusRank (r : Result) : Nat :=
  match r.status with
  | 0x41 => 7
  | 0x30 => 6
  | 0x31 => 6
  | 0x21 => if r.detail = 0 then 3 else 5
  | 0x40 => 4
  | 0x42 => 2
  | 0x22 => 1
  | _ => 0

/-- Note an outcome of a Letter's work. -/
def noteStatus (s : State) (ch seq status detail : Nat) : State :=
  updLetter s ch seq fun l =>
    if statusRank l.res < statusRank ⟨status, detail, none, []⟩ then
      { l with res := { l.res with status := status, detail := detail } }
    else l

/-! ### Strict DRAM slots (R245, R248) -/

/-- The position in the timetable's cycle. -/
def cyclePos (s : State) : Nat := now s % max 1 (ttCycle s.sched.active)

/-- Whether slot `k` of a timetable is a Strict DRAM slot: a WINDOW that declares DRAM use (08, timetable slot). -/
def dramSlot (tt : List W32) (k : Nat) : Bool := ttIsWindow tt k && bit (ttWord tt (4 + 5 * k + 3)) 30

/-- Whether Loose LPDDR5X traffic is held back now: in a Strict DRAM slot, or later than 4 pt before the start of one (R248). -/
def dramHeld (s : State) : Bool :=
  let tt := s.sched.active
  let c := max 1 (ttCycle tt)
  (List.range (ttCount tt)).any fun k => dramSlot tt k && (cyclePos s + 3 + c - ttStart tt k % c) % c < ttLen tt k + 3

/-- Whether LPDDR5X time of a partition has come between a tick and now: a window of its own that declares DRAM use holds one of
those ticks (R245). -/
def dramGranted (s : State) (pid since : Nat) : Bool :=
  let tt := s.sched.active
  let c := max 1 (ttCycle tt)
  (List.range (ttCount tt)).any fun k => dramSlot tt k && ttPid tt k == pid &&
    overlap c (ttStart tt k) (ttLen tt k) (since % c) (min c (now s + 1 - since))

/-- Whether a partition's access to an address may reach LPDDR5X now (R245, R248). -/
def dramFree (s : State) (pid a : Nat) : Bool :=
  a < dramBase || (if strictPid s pid then dramGranted s pid (now s) else !dramHeld s)

/-! ### Units -/

/-- The page of a unit, by physical number; a joiner unit is a core. -/
def unitPage (kind : UnitKind) (u : Nat) : Nat :=
  match kind with
  | .truss => 0x010 + u
  | .scribe => 0x020 + u
  | .sorter => 0x038 + u
  | .plane => 0x03C + u
  | .joiner => 0x040 + u / 2
  | .courier => 0x07E

/-- The page of a task's first unit. -/
def taskPage (t : Task) : Nat := unitPage t.kind (t.units.headD 0)

/-- The physical unit that serves a logical unit (R18, R318); none when it is unserved (R708). -/
def physUnit (s : State) (kind : UnitKind) (u : Nat) : Option Nat :=
  match kind with
  | .truss => (List.range 9).find? fun i => fget s (Fd.truss_ROLE i) == 0 && fget s (Fd.truss_LOGICAL i) == u
  | .scribe => (List.range 18).find? fun i => fget s (Fd.scribe_ROLE i) == 0 && fget s (Fd.scribe_LOGICAL i) == u
  | .joiner => (List.range 17).find? fun i => fget s (Fd.joiner_ROLE i) == 0 && fget s (Fd.joiner_LOGICAL i) == u
  | .sorter => if s.nvm.mapped.contains (4, u) || s.fuses.mapped.contains (4, u) then none else some u
  | .plane => if s.nvm.mapped.contains (5, u) || s.fuses.mapped.contains (5, u) then none else some u
  | .courier => some u

/-- Whether a task of the class given runs on a locked pair (R334). -/
def needsLock (t : Task) : Bool := t.sclass != 0

/-- The cores of a physical pair that a task takes: both of a locked pair, one free core of a split one (R333, R334). -/
def pairCores (s : State) (t : Task) (j : Nat) : List Nat :=
  let free := [2 * j, 2 * j + 1].filter fun c => !unitBusy s .joiner c
  if fget s (Fd.joiner_MODE j) = 1 then if needsLock t && free.length == 2 then free else []
  else if needsLock t then [] else free.take 1

/-- Whether a segment of its own test runs on a Sorter or Plane unit (R609). -/
def segmentRuns (s : State) (kind : UnitKind) (i : Nat) : Bool :=
  let runs := fun k => (mapFind s.spare.tests k).any fun t => t.unit == i && now s < t.segEnd
  match kind with
  | .sorter => runs 4
  | .plane => runs 5
  | _ => false

/-- The free logical units of a kind that no WINDOW names, lowest first, as physical numbers (R340, R354, R609). -/
def freeUnits (s : State) (kind : UnitKind) : List Nat :=
  ((List.range (unitCount kind)).filter fun u => !strictHeld s kind u).filterMap fun u =>
    (physUnit s kind u).bind fun i => if unitBusy s kind i || segmentRuns s kind i then none else some i

/-! ### Observables -/

/-- The wait bin of a wait in pt (R361). -/
def waitBin (w : Nat) : Nat :=
  if w < 25 then 0 else min 15 (Nat.log2 (w / 25) + 1)

/-- Set an observable. -/
def obsPut (s : State) (i v : Nat) : State :=
  { s with sched := { s.sched with obs := mapPut 0 s.sched.obs i (BitVec.ofNat 32 v) } }

/-- Add one to an observable (R362). -/
def obsInc (s : State) (i : Nat) : State := obsPut s i ((mapGet (0 : W32) s.sched.obs i).toNat + 1)

/-- The pigeonhole of a task (R338). -/
def holeOf (t : Task) : Nat := t.pid * 16 + t.level

/-- The index of a partition's observable (R360). -/
def pidObs (p k : Nat) : Nat := 0x2000 + 16 * p + k

/-! ### Tasks entering -/

/-- CH_PRIO of a channel (R338). -/
def chanLevel (s : State) (ch : Nat) : Nat := bits (fget s (Fd.sched_CH_PRIO (ch / 8))) (4 * (ch % 8) + 3) (4 * (ch % 8))

/-- A task that has just entered its pigeonhole. -/
def newTask (s : State) (ch seq pid op code level sclass : Nat) (kind : UnitKind) (strict : Bool) : Task :=
  { id := s.sched.nextId, ch := ch, seq := seq, pid := pid, op := op, code := code, kind := kind, level := level
    sclass := sclass, strict := strict, enter := now s, disp := none, budgetEnd := 0, units := [], ins := [], fins := [], inData := []
    flags := 0, outs := [], computed := false, res := Result.plain 0 0, hold := none, epochSel := none, frames := [], stage := [] }

/-- The journal number of the Letter a task works for (R339). -/
def taskJno (s : State) (t : Task) : Nat := ((letterOf s t.ch t.seq).map (·.jno)).getD 0

/-- Whether task `t`, entering now, stands before task `x` of its pigeonhole: both entered in this tick, and its Letter has the
earlier journal number, or the same one and it the earlier place in plan order (R339). -/
def entersBefore (s : State) (t x : Task) : Bool :=
  x.enter == t.enter && holeOf x == holeOf t && x.disp.isNone &&
    (taskJno s t < taskJno s x || (taskJno s t == taskJno s x && t.op < x.op))

/-- Put a task before the first that it stands before. -/
def insertTask (s : State) (t : Task) : List Task → List Task
  | [] => [t]
  | x :: xs => if entersBefore s t x then t :: x :: xs else x :: insertTask s t xs

/-- Put a task into its pigeonhole (R338, R339); DEPTH_MAX follows. -/
def enterTask (s : State) (t : Task) : State :=
  let s := { s with sched := { s.sched with tasks := insertTask s t s.sched.tasks, nextId := s.sched.nextId + 1 } }
  let i := 32 * holeOf t + 1
  obsPut s i (max (mapGet (0 : W32) s.sched.obs i).toNat (depthOf s (holeOf t)))

/-- The kind of unit an operator's task runs on. -/
def taskKind (code : Nat) : UnitKind := ((engineOf code).bind kindOf).getD .courier

/-- Change the run of a Letter. -/
def updRun (s : State) (ch seq : Nat) (f : RunSt → RunSt) : State :=
  updLetter s ch seq fun l => { l with run := l.run.map f }

/-- Whether an operator of a run may start: every earlier operator it depends on has ended (R203). -/
def opReady (ops : List OpDesc) (r : RunSt) (k : Nat) : Bool :=
  match ops[k]? with
  | some o => r.ops.getD k .idle == .idle && (List.range k).all fun a =>
      match ops[a]? with
      | some x => !dependsOn x o || r.ops.getD a .idle == .done || r.ops.getD a .idle == .skipped
      | none => true
  | none => false

/-- Enter the tasks of every operator that is ready, in plan order (R338, R339). -/
def enterReady (s : State) (ch seq : Nat) : State :=
  match letterOf s ch seq with
  | none => s
  | some l =>
    match l.run, planOf s l with
    | some _, some p =>
      let ops := planOps p.words
      (List.range ops.length).foldl (fun s k =>
        match (letterOf s ch seq).bind (·.run), ops[k]? with
        | some r, some o =>
          if opReady ops r k then
            let s := updRun s ch seq fun r => { r with ops := r.ops.set k .waiting }
            enterTask s (newTask s ch seq l.pid k o.code (chanLevel s ch) (opClass p.words o) (taskKind o.code)
              (planStrict p.words))
          else s
        | _, _ => s) s
    | _, _ => s

/-! ### Ports -/

/-- Where a task's input or output lies. `address` of a device tensor is where the transfer begins; `placed` is a device tensor
whose bytes its engines have written already (R306). -/
inductive PortRef where
  | const (data : List Byte)
  | inner (slot tensor size : Nat)
  | dev (id address size : Nat)
  | stream (n size sclass age : Nat)
  | placed (id : Nat)
  deriving DecidableEq, Repr

/-- Whether a port is a stream. -/
def PortRef.isStream : PortRef → Bool
  | .stream _ _ _ _ => true
  | _ => false

/-- The size of a port in bytes. -/
def PortRef.size : PortRef → Nat
  | .const d => d.length
  | .inner _ _ n => n
  | .dev _ _ n => n
  | .stream _ n _ _ => n
  | .placed _ => 0

/-- The port of a plan tensor in a run. -/
def tensorPort (s : State) (l : Letter) (p : PlanSt) (i : Nat) : PortRef :=
  let d := tensorDesc p.words i
  match d.kind with
  | 0 => .inner (slotArg l) i d.size
  | 4 => .const (constData p.words d)
  | 5 =>
    let e := streamDesc p.words d.link
    .stream e.stream d.size e.sclass e.ageLimit
  | _ =>
    match l.binds.find? fun b => b.index == i with
    | some b => .dev b.tensor (((tensorEnt s l.pid b.tensor).map (·.addr)).getD 0 + b.offset) d.size
    | none => .const []

/-- A device tensor as a port of a direct Letter. -/
def devPort (s : State) (pid id : Nat) : PortRef :=
  match tensorEnt s pid id with
  | some e => .dev id e.addr e.size
  | none => .const []

/-- The bytes of body model `q` of a plan (R414). -/
def bodyPort (p : List W32) (q : Nat) : PortRef :=
  .const (bytesOfWords ((p.drop (secOff p 0x08 + 1 + 304 * q)).take 304))

/-- The size of a world epoch (R403). -/
def epochBytes : Nat := 4722688

/-- The input ports of a direct SWEEP (R426, R427): the candidates, the epoch, and the body model as the Letter was accepted
with it (log entry 101). -/
def sweepPorts (s : State) (t : Task) (l : Letter) : List PortRef :=
  (if arg l.l 0x1D 1 = 0 then [devPort s t.pid (arg l.l 0x20 4)] else []) ++
    [.stream (fget s Fd.lattice_STREAM) epochBytes 0 0, .const l.data]

/-- The input ports of a task: those of its operator, a sweep's body model last, or the tensors that a direct
SWEEP, SELECT or SOLVE names (R70). -/
def inPorts (s : State) (t : Task) : List PortRef :=
  match letterOf s t.ch t.seq with
  | none => []
  | some l =>
    match l.op with
    | 0x08 => sweepPorts s t l
    | 0x09 => [devPort s t.pid (arg l.l 0x18 4)]
    | 0x0A => [devPort s t.pid (arg l.l 0x18 4)]
    | _ => match planOf s l with
      | some p => match (planOps p.words)[t.op]? with
        | some o => o.ins.map (tensorPort s l p) ++
            if o.code = 0x060 then [bodyPort p.words (bits (o.param 0) 15 8)] else []
        | none => []
      | none => []

/-- The output ports of a task. -/
def outPorts (s : State) (t : Task) : List PortRef :=
  match letterOf s t.ch t.seq with
  | none => []
  | some l =>
    match l.op with
    | 0x08 => [devPort s t.pid (arg l.l 0x24 4)]
    | 0x09 => [devPort s t.pid (arg l.l 0x1C 4)]
    | 0x0A => [devPort s t.pid (arg l.l 0x1C 4)]
    | _ => match planOf s l with
      | some p => match (planOps p.words)[t.op]? with
        | some o => o.outs.map (tensorPort s l p)
        | none => []
      | none => []

/-- What a task has read of a port: its docket, if it has one; its bytes; the flags the read adds; and whether it is a camera
frame or derived from one (R46). -/
structure PortRead where
  dk : Option Docket
  data : List Byte
  flags : Nat
  derived : Bool
  deriving DecidableEq, Repr

/-- The item of a stream that an operator starting now reads: the newest (R201); a Strict operator reads no item of its start
tick (R353). -/
def readItem (s : State) (strict : Bool) (key : Nat) : Option StreamPub :=
  (mapFind s.streams key).bind fun e => if strict && e.pm == now s then e.before else some e.toStreamPub

/-- The docket that stands at a port, and whether the port is derived from a camera frame (R46; log entry 202). -/
def standing (s : State) (t : Task) : PortRef → Option (Docket × Bool)
  | .const _ => none
  | .inner slot i _ => ((planAt s slot).bind fun p => mapFind p.inner i).map fun e => (e.docket, e.derived)
  | .dev id _ _ => mapFind s.tensorDk id
  | .stream n _ _ _ => (readItem s t.strict (streamKey t.pid n)).map fun e => (e.docket, e.derived)
  | .placed _ => none

/-- The bytes of a device range as a task reads them, and the flags the read adds (R254, R563). A Truss task's accesses through the
pool are those of its tile walker (R305): they have been made by now, and their effects are not counted twice. -/
def readRange (s : State) (t : Task) (a n : Nat) : State × List Byte × Nat :=
  let r := devRead s t.pid a n t.sclass
  let walked := t.kind == .truss && pooled s t.pid a && r.2.2 != .blocked
  (if walked then s else r.1, r.2.1, (if r.2.2 = .ok then 0 else flagInvalid ||| flagPoison) ||| if pooled s t.pid a then flagLoose else 0)

/-- Read a port for a task (R201, R43, R44, R353). -/
def readPort (s : State) (t : Task) (port : PortRef) : State × PortRead :=
  let dk := (standing s t port).map (·.1)
  let derived := ((standing s t port).map (·.2)).getD false
  match port with
  | .const d => (s, ⟨none, d, 0, false⟩)
  | .inner slot i n =>
    match (planAt s slot).bind fun p => mapFind p.inner i with
    | some e => (s, ⟨dk, bytesAt e.data 0 n, 0, derived⟩)
    | none => (s, ⟨none, List.replicate n 0, flagInvalid, false⟩)
  | .dev _ a n =>
    let r := readRange s t a n
    (r.1, ⟨dk, r.2.1, r.2.2, derived⟩)
  | .stream n size _ _ =>
    match readItem s t.strict (streamKey t.pid n) with
    | some e =>
      match e.frame with
      | some f =>
        let r := readRange s t f.address f.size
        (r.1, ⟨dk, r.2.1, r.2.2, derived⟩)
      | none => (s, ⟨dk, bytesAt e.data 0 size, 0, derived⟩)
    | none => (s, ⟨none, List.replicate size 0, flagInvalid, false⟩)
  | .placed _ => (s, ⟨none, [], 0, false⟩)

/-- The DOCKET event of a unit's page, where the page defines one. -/
def docketEvent (s : State) (t : Task) : State :=
  match t.kind with
  | .truss => setEvent s (taskPage t) 10
  | .sorter => setEvent s (taskPage t) 10
  | .plane => setEvent s (taskPage t) 9
  | .scribe => setEvent s (taskPage t) 9
  | _ => s

/-- A docket check failure at a task's input (R40, R41). -/
def docketFail (s : State) (t : Task) : State :=
  raise (docketEvent (errUncorr s (taskPage t)) t) 0x03 (taskPage t) t.sclass t.pid 0

/-- The FLAGS bits of a task whose inputs carry INVALID or POISON: its outputs are INVALID (R45). -/
def inputFlags (f : Nat) : Nat := if f &&& (flagPoison ||| flagInvalid) != 0 then f ||| flagInvalid else f

/-- Take one port's reading into a task: its docket is checked (R40), a foreign PID reads as poisoned (R44). -/
def takeRead (a : State × Task) (r : PortRead) : State × Task :=
  let t := a.2
  match r.dk with
  | none => (a.1, { t with inData := t.inData ++ [r.data], flags := t.flags ||| r.flags })
  | some d =>
    let bad := !d.ok
    let s := if bad then noteStatus (docketFail a.1 t) t.ch t.seq 0x40 0 else a.1
    let f := r.flags ||| d.flags.toNat % 64 ||| (if bad then flagInvalid else 0) |||
      (if d.pid.toNat != t.pid then flagInvalid ||| flagPoison else 0)
    (s, { t with
      ins := t.ins ++ [d], fins := t.fins ++ (if r.derived then [d] else []), inData := t.inData ++ [r.data]
      flags := inputFlags (t.flags ||| f) })

/-- The camera frames that a task's ports name now (R201, R373). -/
def framesOf (s : State) (t : Task) : List FrameRef :=
  (inPorts s t).filterMap fun p => match p with
    | .stream n _ _ _ => (readItem s t.strict (streamKey t.pid n)).bind (·.frame)
    | _ => none

/-- The newest slot of a filter has been taken by an operator (R385). -/
def noteTaken (s : State) (fs : List FrameRef) : State :=
  { s with filters := s.filters.mapIdx fun i f =>
      if fs.any fun r => r.filter == i && f.newest == some r.slot then { f with taken := true } else f }

/-- Read a task's inputs at its start (R201). Poison on any of them makes its Letter UNCORRECTABLE. -/
def loadTask (s : State) (t : Task) : State × Task :=
  let r := (inPorts s t).foldl (fun (a : State × Task) p =>
    let x := readPort a.1 t p
    takeRead (x.1, a.2) x.2) (noteTaken s (framesOf s t), { t with frames := framesOf s t })
  let s := if r.2.flags &&& flagPoison != 0 then noteStatus r.1 t.ch t.seq 0x40 0 else r.1
  (s, { r.2 with flags := inputFlags r.2.flags })

/-! ### Publication -/

/-- Whether an output of a class carries INVALID because of safe state A or B (R79, R620). -/
def safeInvalid (s : State) (sclass : Nat) : Bool := fget s Fd.safety_SAFE_STATE != 0 && sclass != 0

/-- Whether a Letter is safety-class while safe state A or B stands: its outputs carry INVALID and it replies SAFE_STATE
(R79). -/
def safeLetter (s : State) (l : Letter) : Bool :=
  safetyLetter s l.op (slotArg l) (bits l.l.sclass.toNat 3 0) && fget s Fd.safety_SAFE_STATE != 0

/-- The same of the Letter a task works for. -/
def safeTask (s : State) (t : Task) : Bool := (letterOf s t.ch t.seq).any (safeLetter s)

/-- The limit an output's age is judged against (R585). -/
def ageLimit (s : State) (pid streamLimit : Nat) : Nat :=
  if streamLimit != 0 then streamLimit
  else
    let p := fget s (Fd.part_AGE_LIMIT_PT pid)
    if p = 0 then 3000000 else p

/-- Whether an output's age exceeds its limit (R31, R158, R586). -/
def tooOld (s : State) (pm limit : Nat) : Bool :=
  let age := cyc 48 (now s) pm
  2 ^ 47 ≤ age || limit < age

/-- Count an output published with timing flags (R564). -/
def countTags (s : State) (pid flags : Nat) : State :=
  let s := if flags &&& flagRetry != 0 then fadd s (Fd.part_TAG_RETRY_COUNT pid) 1 else s
  let s := if flags &&& flagThermal != 0 then fadd s (Fd.part_TAG_THERMAL_COUNT pid) 1 else s
  if flags &&& flagLoose != 0 then fadd s (Fd.part_TAG_LOOSE_COUNT pid) 1 else s

/-- A publication on a stream restarts the gap of each watch of it when its INVALID is clear (R587, R588), and gives
the watch the stream's class. -/
def noteWatch (s : State) (pid stream sclass flags : Nat) : State :=
  (List.range 16).foldl (fun s w =>
    if fget s (Fd.age_W_PID w) = pid && fget s (Fd.age_W_STREAM w) = stream && fget s (Fd.age_MAX_GAP_PT w) != 0 then
      let s := { s with safety := { s.safety with watchSclass := mapIns s.safety.watchSclass w sclass } }
      if flags &&& flagInvalid = 0 then
        let s := fput s Fd.age_GAP_ACTIVE (minus (fget s Fd.age_GAP_ACTIVE) (2 ^ w))
        { s with safety := { s.safety with
          watchLast := s.safety.watchLast.set w (now s), gapOpen := s.safety.gapOpen.filter (· != w) } }
      else s
    else s) s

/-- Put an item on a stream (R201). -/
def putStream (s : State) (pid stream : Nat) (data : List Byte) (d : Docket) (derived : Bool) : State :=
  let s := putItem s (streamKey pid stream) ⟨data, d, now s, none, derived⟩
  noteWatch s pid stream d.sclass.toNat d.flags.toNat

/-- The stream, class and age limit of an output: those of its stream entry; else the Letter's STREAM and the task's class
(R46; log entry 45). An age is judged on plan output streams and on outputs of direct Letters (R584). -/
structure OutKind where
  stream : Nat
  sclass : Nat
  judged : Bool
  limit : Nat

/-- What kind of output a port is for a task. -/
def outKind (s : State) (t : Task) : PortRef → OutKind
  | .stream n _ c a => ⟨n, c, true, a⟩
  | _ =>
    match letterOf s t.ch t.seq with
    | some l => ⟨bits l.l.stream.toNat 11 0, t.sclass, l.op != 0x04, 0⟩
    | none => ⟨0, t.sclass, false, 0⟩

/-- The dockets of a task's inputs, each with whether it is derived from a camera frame: as read at its start; of a task that
never started, as they stand (log entry 53). -/
def inDockets (s : State) (t : Task) : List Docket × List Docket :=
  if t.disp.isSome then (t.ins, t.fins)
  else
    let ds := (inPorts s t).filterMap (standing s t)
    (ds.map (·.1), (ds.filter (·.2)).map (·.1))

/-- POSTMARK and EPOCH of a task's outputs: POSTMARK of its oldest input; EPOCH of its oldest frame input, or of the oldest
input where none is derived from a frame (log entry 202). With no input docket the spec states none, and they are free (R46;
log entry 52). -/
def originOf (s : State) (t : Task) : State × Nat × Nat :=
  let ds := inDockets s t
  match oldestDocket ds.1 with
  | some d => (s, d.postmark.toNat, ((oldestDocket ds.2).getD d).epoch.toNat)
  | none =>
    let a := draw s
    let b := draw a.1
    (b.1, a.2, b.2)

/-- Write an output's bytes where its port lies, with its docket; a blocked write is reported and changes no byte. -/
def storePort (s : State) (pid : Nat) (port : PortRef) (data : List Byte) (d : Docket) (derived : Bool) : State × Bool :=
  match port with
  | .const _ => (s, false)
  | .inner slot i _ => (updPlan s slot fun p => { p with inner := mapIns p.inner i ⟨data, d, derived⟩ }, false)
  | .dev id a n =>
    let w := devWrite s pid a (data.take n) d.sclass.toNat
    if w.2 = .ok then ({ w.1 with tensorDk := mapIns w.1.tensorDk id (d, derived) }, false) else (w.1, true)
  | .stream n size _ _ => (putStream s pid n (bytesAt data 0 size) d derived, false)
  | .placed id => ({ s with tensorDk := mapIns s.tensorDk id (d, derived) }, false)

/-- Publish one output of a task (R46, R79, R584-R586, R564, R620): `epoch` the world epoch read, `flags` its FLAGS bits so
far. The Reply takes the docket of the output published last, INTERNAL ones included, as that of its primary output (R64; the
model's choice, log entry 190); RUN_PLAN's outputs written counts every output published, INTERNAL ones and INVALID ones of
cut tasks included (R70; the model's choice, log entry 191). -/
def publishOut (s : State) (t : Task) (port : PortRef) (epoch : Option Nat) (data : List Byte) (flags : Nat) : State :=
  let k := outKind s t port
  let o := originOf s t
  let q := takeSeq o.1 t.pid k.stream
  let s := q.1
  let safe := safeInvalid s k.sclass || safeTask s t
  let old := k.judged && tooOld s o.2.1 (ageLimit s t.pid k.limit)
  let f := flags ||| (if safe then flagInvalid else 0) ||| (if old then flagInvalid ||| flagAged else 0)
  let d := mkDocket t.pid k.stream (epoch.getD o.2.2) q.2 o.2.1 k.sclass f
  let w := storePort s t.pid port data d (!(inDockets s t).2.isEmpty)
  let s := w.1
  let s := if w.2 then noteStatus s t.ch t.seq 0x40 0 else s
  let s := if k.judged && !port.isStream then noteWatch s t.pid k.stream k.sclass f else s
  let s := if safe then noteStatus s t.ch t.seq 0x42 0 else s
  let s := if old then
      let s := setEvent (fadd s (Fd.part_AGED_COUNT t.pid) 1) (0x060 + t.pid) 9
      let s := raise (setEvent s 0x005 8) 0x0C 0x005 k.sclass t.pid 0
      noteStatus s t.ch t.seq 0x22 0
    else s
  let s := countTags s t.pid f
  updLetter s t.ch t.seq fun l =>
    { l with res := { l.res with docket := some d }, run := l.run.map fun r => { r with written := r.written + 1 } }

/-- The summary that a sweep publishes as output `i` (R425, R426): the last 32 bytes of a direct SWEEP's tensor, or a plan's
second output when it is a stream. The controllers that watch its stream are due a safety frame (R642, R643). -/
def noteSummary (s : State) (t : Task) (i : Nat) (port : PortRef) (data : List Byte) : State :=
  match letterOf s t.ch t.seq with
  | some l =>
    let k := outKind s t port
    let direct := l.op == 0x08 && i == 0
    match l.res.docket with
    | some d =>
      if t.code = 0x060 && (direct || (i == 1 && port.isStream)) then
        let sum : Summary := ⟨if direct then data.drop (data.length - 32) else bytesAt data 0 32, d, now48 s,
          ageLimit s t.pid k.limit⟩
        let s := { s with safety := { s.safety with summaries := mapIns s.safety.summaries (streamKey t.pid k.stream) sum } }
        { s with can := s.can.mapIdx fun n c =>
            if fget s (Fd.can_SF_PID n) == t.pid && fget s (Fd.can_SF_STREAM n) == k.stream then { c with due := true } else c }
      else s
    | none => s
  | none => s

/-- Publish a task's outputs at the ports given, in port order, each with further flags of its own. -/
def publishPorts (s : State) (t : Task) (ps : List PortRef) (epoch : Option Nat) (own : List Nat) : State :=
  (List.range ps.length).foldl (fun s i =>
    match ps[i]? with
    | some p => noteSummary (publishOut s t p epoch (t.outs.getD i []) (t.flags ||| own.getD i 0)) t i p (t.outs.getD i [])
    | none => s) s

/-- Publish a task's outputs. -/
def publishAll (s : State) (t : Task) (epoch : Option Nat) (own : List Nat) : State := publishPorts s t (outPorts s t) epoch own

/-- A core without its task: back in machine mode, and its machine-mode control and status registers as they stand (R317,
R322). -/
def CoreSt.fresh (k : CoreSt) : CoreSt := { CoreSt.reset with csr := k.csr.filter fun e => 0x300 ≤ e.1 && e.1 < 0xC00 }

/-- Take a task off its units. -/
def dropTask (s : State) (id : Nat) : State :=
  { s with
    sched := { s.sched with tasks := s.sched.tasks.filter fun t => t.id != id }
    cores := s.cores.map fun c => if c.task == some id then c.fresh else c }

/-- Whether a task occupies a joiner pair. -/
def onPair (t : Task) : Bool := t.kind == .joiner && t.disp.isSome

/-- A task has ended on its pair (R337). -/
def countEnd (s : State) (t : Task) : State :=
  if onPair t then fadd s (Fd.joiner_TASK_COUNT (t.units.headD 0 / 2)) 1 else s

/-- Count an ending of a joiner task other than by ECALL (R337, 19). -/
def countTrap (s : State) (t : Task) : State :=
  if onPair t then
    let j := t.units.headD 0 / 2
    setEvent (fadd s (Fd.joiner_TRAP_COUNT j) 1) (0x040 + j) 9
  else s

/-! ### The progress of a run -/

/-- Operators of a run completed. -/
def doneCount (r : RunSt) : Nat := (r.ops.filter fun o => o == .done).length

/-- Give up the operators of a run that have not started (R62, R357). -/
def stopRun (s : State) (ch seq : Nat) : State :=
  let s := updRun s ch seq fun r =>
    { r with stop := true, ops := r.ops.map fun o => if o == .idle || o == .waiting then .skipped else o }
  { s with sched := { s.sched with tasks := s.sched.tasks.filter fun t => !(t.ch == ch && t.seq == seq && t.disp.isNone) } }

/-- Free the flow slot of a Loose safety-class run (R590). -/
def freeFlow (s : State) (k : Option Nat) : State :=
  match k with
  | some i => { s with safety := { s.safety with flow := s.safety.flow.set i none } }
  | none => s

/-- Whether every operator of a run has completed once or is recorded as not started (R592). -/
def flowComplete (p : PlanSt) (r : RunSt) : Bool :=
  r.ops.length == operatorCount p.words && r.ops.all fun o => o == .done || o == .skipped

/-- The final outcome of a run: the status noted, DETAIL of a DEADLINE, RESULT outputs written (R62, R70, R79, R357). -/
def runResult (l : Letter) (r : RunSt) : Result :=
  { l.res with
    detail := if l.res.status = 0x21 then doneCount r + l.res.detail else if l.res.status = 0x30 then l.res.detail else 0
    result := leBytes 4 r.written }

/-- Finish a run whose operators have all ended (R62, R79, R592). -/
def finishRun (s : State) (l : Letter) (r : RunSt) (p : PlanSt) : State :=
  let ch := l.ch
  let seq := l.l.seq.toNat
  let safety := planSafety p.words
  let s := if safeLetter s l then noteStatus s ch seq 0x42 0 else s
  let res := runResult ((letterOf s ch seq).getD l) r
  let bad := safety && !flowComplete p r
  let s := if bad then raise s 0x0F 0x058 (planClass p.words) l.pid 0 else s
  let s := freeFlow s r.flowSlot
  finishLetter s ch seq (if bad then { res with status := 0x40, detail := 0 } else res)

/-- After an operator has ended: the deadline at the operator boundary (R62), the operators that have become ready, and
the end of the run. -/
def advanceRun (s : State) (ch seq : Nat) : State :=
  match letterOf s ch seq with
  | none => s
  | some l =>
    match l.run, planOf s l with
    | some r, some p =>
      let left := r.ops.any fun o => o == .idle || o == .waiting
      let s := if left && !r.stop && pastDeadline s l then stopRun (noteStatus s ch seq 0x21 0) ch seq
        else if r.stop then stopRun s ch seq else enterReady s ch seq
      match letterOf s ch seq with
      | some l' => match l'.run with
        | some r' => if r'.ops.all fun o => o == .done || o == .skipped then finishRun s l' r' p else s
        | none => s
      | none => s
    | _, _ => s

/-- A task has completed: it leaves its units, and its run goes on. -/
def completeTask (s : State) (t : Task) : State :=
  let s := obsInc (dropTask (countEnd s t) t.id) (pidObs t.pid 3)
  let s := updRun s t.ch t.seq fun r => { r with ops := r.ops.set t.op .done }
  advanceRun s t.ch t.seq

/-- A direct SWEEP, SELECT or SOLVE has completed: its Letter finishes with the RESULT given (R70, R79). -/
def completeDirect (s : State) (t : Task) (result : List Byte) : State :=
  let s := obsInc (dropTask s t.id) (pidObs t.pid 3)
  match letterOf s t.ch t.seq with
  | some l =>
    let s := if safeLetter s l then noteStatus s t.ch t.seq 0x42 0 else s
    finishLetter s t.ch t.seq { ((letterOf s t.ch t.seq).getD l).res with result := result }
  | none => s

/-- A task of either kind has completed. -/
def completeAny (s : State) (t : Task) (result : List Byte) : State :=
  match letterOf s t.ch t.seq with
  | some l => if l.run.isSome then completeTask s t else completeDirect s t result
  | none => dropTask s t.id

/-- Free bytes: content the spec does not state. -/
def freeBytes (s : State) (n : Nat) : State × List Byte :=
  let d := draw s
  (d.1, leBytes n d.2)

/-- The number of the next world epoch (R411). -/
def nextWorldEpoch (s : State) : Nat := if s.lattice.seq = 0 then 0 else (fget s Fd.lattice_NEWEST_EPOCH + 1) % 2 ^ 16

/-- The output of a WORLD_BUILD that does not complete: an INVALID item on the epoch stream with the docket of R411, whose
content is not stated. No buffer becomes the newest (R357, R410; log entry 162). -/
def publishCutEpoch (s : State) (t : Task) : State :=
  let o := originOf s t
  let b := freeBytes o.1 epochBytes
  let s := b.1
  let pid := fget s Fd.lattice_LAT_PID
  let stream := fget s Fd.lattice_STREAM
  let epoch := nextWorldEpoch s
  let d := mkDocket pid stream epoch s.lattice.seq o.2.1 (fget s Fd.lattice_SCLASS) (t.flags ||| flagInvalid)
  let s := fput s Fd.lattice_NEWEST_EPOCH epoch
  let s : State := { s with lattice := { s.lattice with seq := s.lattice.seq + 1, newest := some d } }
  let s := countTags (putStream s pid stream b.2 d false) pid t.flags
  updLetter s t.ch t.seq fun l =>
    { l with res := { l.res with docket := some d }, run := l.run.map fun r => { r with written := r.written + 1 } }

/-- The world epoch that a sweep's outputs name (R46): that of its epoch input, the last input that has a docket. -/
def cutEpoch (s : State) (t : Task) : Option Nat :=
  if t.code = 0x060 then (inDockets s t).1.getLast?.map (·.epoch.toNat) else none

/-- Publish the outputs of a task that does not complete with INVALID; their content is not stated (R357; log entry 53). -/
def publishCut (s : State) (t : Task) : State :=
  if t.code = 0x061 then publishCutEpoch s t
  else
    let epoch := cutEpoch s t
    let ps := outPorts s t
    (List.range ps.length).foldl (fun s i =>
      match ps[i]? with
      | some p =>
        let b := freeBytes s p.size
        noteSummary (publishOut b.1 t p epoch b.2 (t.flags ||| flagInvalid)) t i p b.2
      | none => s) s

/-- Cut a task short (R357, R358): outputs INVALID, later operators not started, the Letter replies DEADLINE with the bit
given; a run goes to its end, a direct Letter ends here. -/
def cutTask (s : State) (t : Task) (mark : Nat) : State :=
  let s := publishCut s t
  let s := dropTask (countTrap (countEnd s t) t) t.id
  match letterOf s t.ch t.seq with
  | some l =>
    if l.run.isSome then
      let s := noteStatus s t.ch t.seq 0x21 mark
      let s := updRun s t.ch t.seq fun r => { r with ops := r.ops.set t.op .skipped, stop := true }
      advanceRun s t.ch t.seq
    else finishLetter s t.ch t.seq { l.res with status := 0x21, detail := mark }
  | none => s

/-- A task met an undefined instruction or trapped (R209, R330): its Letter replies INSTR_FAULT and later operators are
not started (R561). -/
def instrFault (s : State) (t : Task) : State :=
  let s := if t.kind == .truss then setEvent s (taskPage t) 11 else s
  let s := raise s 0x12 (taskPage t) t.sclass t.pid 0
  let s := noteStatus s t.ch t.seq 0x41 0
  updRun s t.ch t.seq fun r => { r with stop := true }

/-! ### Starting tasks -/

/-- The first task of a Letter is dispatched: the Letter has started (R76, R103). -/
def markStarted (s : State) (ch seq : Nat) : State :=
  match letterOf s ch seq with
  | some l =>
    if l.phase == .accepted then
      let s := updLetter s ch seq fun l => { l with phase := .started, startPm := now s }
      queueVersion s (versionOf s { l with phase := .started, startPm := now s } 2)
    else s
  | none => s

/-- Count a dispatch (R360, R361). -/
def countDispatch (s : State) (t : Task) : State :=
  obsInc (obsInc s (32 * holeOf t + 2)) (32 * holeOf t + 16 + waitBin (now s - t.enter))

/-- Replace a task. -/
def putTask (s : State) (t : Task) : State :=
  { s with sched := { s.sched with tasks := s.sched.tasks.map fun x => if x.id == t.id then t else x } }

/-- Whether a list of ports has one in LPDDR5X. -/
def portsInDram (l : List PortRef) : Bool :=
  l.any fun q => match q with
    | .dev _ a _ => dramBase ≤ a
    | _ => false

/-- Whether a task may write its outputs and end now (R245, R248): a Loose task's writes wait while a Strict DRAM slot holds Loose
traffic back; a Strict task has had LPDDR5X time for its inputs, and has it now for its outputs. -/
def dramReady (s : State) (t : Task) : Bool :=
  let out := portsInDram (outPorts s t)
  if t.strict then
    (!portsInDram (inPorts s t) || dramGranted s t.pid (t.disp.getD 0)) && (!out || dramGranted s t.pid (now s))
  else !out || !dramHeld s

/-- T_LOOSE of a Loose task at its dispatch (R563): set when its inputs wait for a Strict DRAM slot to end (R248). Whether it met
another wait for a bank port or LPDDR5X, or an access while refresh ran, is a matter of timing that the model does not hold: a
free bit (log entry 54). -/
def looseTag (s : State) (t : Task) : State × Nat :=
  if t.strict then (s, 0)
  else if dramHeld s && portsInDram (inPorts s t) then (s, flagLoose)
  else
    let d := draw s
    (d.1, if d.2 % 2 = 1 then flagLoose else 0)

/-- Take the task's buffer of the World Lattice: a sweep reads the newest epoch and holds its buffer (R412). -/
def withHold (s : State) (t : Task) : Task :=
  if t.code = 0x060 && fget s Fd.lattice_PUBLISHED = 1 then { t with hold := some (fget s Fd.lattice_NEWEST_BUF) } else t

end Sys2Proof.Machine
end

