-- ==== Sys2Proof/Machine/Intake.lean ====
section
/-! DEFINITION. Camera intake (09 R365-R397): packets, frame slots, the Frame End checks, postcards and publication. -/

namespace Sys2Proof.Machine

/-- A filter's state that nothing has used. -/
def FilterSt.empty : FilterSt := ⟨none, none, none, 0, none, none, false, List.replicate 8 0, 0, .idle⟩

/-- The number of a filter: port times four plus filter. -/
def filterNo (port f : Nat) : Nat := port * 4 + f

/-- The state of a filter. -/
def filterAt (s : State) (i : Nat) : FilterSt := s.filters.getD i FilterSt.empty

/-- Replace the state of a filter. -/
def setFilter (s : State) (i : Nat) (f : FilterSt) : State := { s with filters := s.filters.set i f }

/-- Data types that an intake supports as image lines (R365). -/
def imageType (dt : Nat) : Bool := [0x2A, 0x2B, 0x2C, 0x2E, 0x1E, 0x24].contains dt

/-- The line payload in bits (R372). -/
def lineBits (width dt : Nat) : Nat :=
  width * (match dt with
    | 0x2A => 8
    | 0x2B => 10
    | 0x2C => 12
    | 0x24 => 24
    | _ => 16)

/-- Lb of a filter (R372). -/
def lineBytes (s : State) (i : Nat) : Nat := lineBits (fget s (Fd.intake_WIDTH (i / 4) (i % 4))) (fget s (Fd.intake_DT (i / 4) (i % 4))) / 8

/-- S of a filter (R372). -/
def slotSize (s : State) (i : Nat) : Nat :=
  roundUp (fget s (Fd.intake_HEIGHT (i / 4) (i % 4)) * lineBytes s i) 4096 + 4096

/-- BUF_BASE of a filter. -/
def bufBase (s : State) (i : Nat) : Nat :=
  fget s (Fd.intake_BUF_BASE_LO (i / 4) (i % 4)) * 2 ^ 12 + fget s (Fd.intake_BUF_BASE_HI (i / 4) (i % 4)) * 2 ^ 32

/-- The address of a slot (R372). -/
def slotBase (s : State) (i k : Nat) : Nat := bufBase s i + k * slotSize s i

/-- Whether a filter is enabled on a port that receives. -/
def filterOn (s : State) (port f : Nat) : Bool :=
  fget s (Fd.intake_ENABLE port) == 1 && fget s (Fd.intake_F_ENABLE port f) == 1

/-- The enabled filters of a port on a virtual channel. -/
def filtersOfVc (s : State) (port vc : Nat) : List Nat :=
  (List.range 4).filter fun f => filterOn s port f && fget s (Fd.intake_VC port f) == vc

/-! ### Discards -/

/-- Report a discard: its counter, the filter's STRUCT or SENSOR event, and the fault with the filter's class (R381). -/
def discard (s : State) (i : Nat) (count : Fld) (struct_ : Bool) : State :=
  let port := i / 4
  let f := i % 4
  let s := setEvent (fadd s count 1) (0x070 + port) ((if struct_ then 8 else 12) + f)
  raise s 0x0A (0x070 + port) (fget s (Fd.intake_SCLASS port f)) (fget s (Fd.intake_PID port f)) 0

/-- A discard under step 1 (R378, R395). -/
def discardStruct (s : State) (i : Nat) : State := discard s i (Fd.intake_DISCARD_STRUCT (i / 4) (i % 4)) true

/-- A discard under steps 2 to 4 (R378, R379). -/
def discardSensor (s : State) (i : Nat) : State := discard s i (Fd.intake_DISCARD_SENSOR (i / 4) (i % 4)) false

/-! ### The slots -/

/-- Whether a stored frame lies in a slot. -/
def inSlot (s : State) (i k : Nat) (r : FrameRef) : Bool :=
  decide (r.address < slotBase s i k + slotSize s i) && decide (slotBase s i k < r.address + r.size)

/-- Whether a slot is held by an operator (R373). -/
def slotHeld (s : State) (i k : Nat) : Bool := s.sched.tasks.any fun t => t.frames.any (inSlot s i k)

/-- Whether a slot holds the newest published frame of a stream (R373). -/
def slotNewest (s : State) (i k : Nat) : Bool := s.streams.any fun e => e.2.frame.any (inSlot s i k)

/-- The free slots of a filter (R373). -/
def freeSlots (s : State) (i : Nat) : List Nat :=
  let f := filterAt s i
  (List.range (fget s (Fd.intake_BUF_SLOTS (i / 4) (i % 4)))).filter fun k =>
    !slotNewest s i k && !slotHeld s i k && (f.cur.map (·.slot)) != some k && (f.due.map (·.slot)) != some k

/-- The free slot published longest ago, the lowest index on a tie (R373). -/
def chooseSlot (s : State) (i : Nat) : Option Nat :=
  let o := fun k => (filterAt s i).order.getD k 0
  match freeSlots s i with
  | [] => none
  | k :: ks => some (ks.foldl (fun b x => if o x < o b then x else b) k)

/-! ### What leaves the line FIFO -/

/-- The frame that a filter begins: the slot it writes. -/
def newFrame (fnum pm slot : Nat) (dead : Bool) : FrameSt := ⟨fnum, pm, slot, 0, 0xFFFFFFFF, 0, [], false, dead⟩

/-- A Frame Start at one filter (R373, R395): a frame still in progress is discarded under step 1; the new one takes a free slot, or
is discarded without one. -/
def startFrame (s : State) (i fnum pm : Nat) : State :=
  let s := if (filterAt s i).cur.any fun c => !c.dead then discardStruct s i else s
  let s := setFilter s i { filterAt s i with cur := none }
  match chooseSlot s i with
  | none => setFilter (discard s i (Fd.intake_NO_SLOT (i / 4) (i % 4)) true) i
      { filterAt s i with cur := some (newFrame fnum pm 8 true) }
  | some k => setFilter s i { filterAt s i with cur := some (newFrame fnum pm k false) }

/-- Mark the structure of a filter's frame broken. -/
def breakFrame (s : State) (i : Nat) : State :=
  let f := filterAt s i
  setFilter s i { f with cur := f.cur.map fun c => { c with broken := true } }

/-- An image line at a filter (R372, R374, R378): it is written at its place in the slot; a line too many or of another length
breaks the frame, as a blocked write does. -/
def takeLine (payload : List Byte) (s : State) (i : Nat) : State :=
  match (filterAt s i).cur with
  | none => s
  | some c =>
    if c.dead then s
    else if payload.length != lineBytes s i || fget s (Fd.intake_HEIGHT (i / 4) (i % 4)) ≤ c.lines then
      setFilter s i { filterAt s i with cur := some { c with lines := c.lines + 1, broken := true } }
    else
      let pid := fget s (Fd.intake_PID (i / 4) (i % 4))
      let w := devWrite s pid (slotBase s i c.slot + c.lines * lineBytes s i) payload (fget s (Fd.intake_SCLASS (i / 4) (i % 4)))
      let c := { c with lines := c.lines + 1, crc := payload.foldl crc32cByte c.crc, broken := c.broken || w.2 != .ok }
      setFilter w.1 i { filterAt w.1 i with cur := some c }

/-- A tag line at a filter (R378). -/
def takeTag (payload : List Byte) (s : State) (i : Nat) : State :=
  let f := filterAt s i
  setFilter s i { f with cur := f.cur.map fun c => { c with tags := c.tags + 1, tag := bytesAt payload 0 16 } }

/-! ### Frame End -/

/-- Whether a frame's structure holds (R378 step 1). -/
def structOk (s : State) (i : Nat) (c : FrameSt) (fnum : Nat) : Bool :=
  !c.broken && c.fnum == fnum && c.lines == fget s (Fd.intake_HEIGHT (i / 4) (i % 4))

/-- Whether the tag line is right (R378 step 2). -/
def tagOk (c : FrameSt) : Bool :=
  c.tags == 1 && leAt c.tag 0 1 == 0x5A && leAt c.tag 1 1 == 0x54 && leAt c.tag 10 2 == 0 &&
    leAt c.tag 12 4 == crc32c (bytesAt c.tag 0 12)

/-- How far FRAME_COUNT has risen from REF (R379); 1 when there is none. -/
def countStep (ref : Option Nat) (count : Nat) : Nat :=
  match ref with
  | some r => cyc 32 count r
  | none => 1

/-- FROZEN_RUN after a frame (R380). -/
def frozenNow (f : FilterSt) (crc : Nat) : Nat := if f.lastCrc = some crc then f.frozenRun + 1 else 0

/-- Whether a frame is discarded as frozen (R380). -/
def frozenBad (s : State) (i run : Nat) : Bool :=
  fget s (Fd.intake_FROZEN_LIMIT (i / 4) (i % 4)) != 0 && fget s (Fd.intake_FROZEN_LIMIT (i / 4) (i % 4)) ≤ run

/-- The frame has passed every check: its trailer is written (R372) and its postcard is due (R382). A blocked write discards it
(R374). -/
def passFrame (s : State) (i : Nat) (c : FrameSt) : State :=
  let port := i / 4
  let f := i % 4
  let check := fget s (Fd.intake_SENSOR_CHECK port f) = 1
  let head := if check then c.tag else List.replicate 16 0
  let w := devWrite s (fget s (Fd.intake_PID port f)) (slotBase s i c.slot + slotSize s i - 4096)
    (bytesAt head 0 4096) (fget s (Fd.intake_SCLASS port f))
  if w.2 = .ok then setFilter w.1 i { filterAt w.1 i with due := some c } else discardStruct w.1 i

/-- Steps 3 to 6 of R378, with SENSOR_CHECK set. -/
def checkFrame (s : State) (i : Nat) (c : FrameSt) : State :=
  let count := leAt c.tag 2 4
  let crc := leAt c.tag 6 4
  let d := countStep (filterAt s i).ref count
  let s := setFilter s i { filterAt s i with ref := some count }
  if d = 0 then fadd s (Fd.intake_REPEATED (i / 4) (i % 4)) 1
  else if 2 ^ 31 ≤ d then discardSensor s i
  else
    let s := if 2 ≤ d then fadd s (Fd.intake_GAP_FRAMES (i / 4) (i % 4)) (d - 1) else s
    if crc != c.crc ^^^ 0xFFFFFFFF then discardSensor s i
    else
      let run := frozenNow (filterAt s i) crc
      let s := setFilter s i { filterAt s i with frozenRun := run }
      if frozenBad s i run then discard s i (Fd.intake_FROZEN_DISCARD (i / 4) (i % 4)) false
      else passFrame s i c

/-- A Frame End at one filter (R378): a frame discarded before ends without a further count. -/
def endFrame (s : State) (i fnum : Nat) : State :=
  match (filterAt s i).cur with
  | none => s
  | some c =>
    let s := setFilter s i { filterAt s i with cur := none }
    if c.dead then s
    else if !structOk s i c fnum then discardStruct s i
    else if fget s (Fd.intake_SENSOR_CHECK (i / 4) (i % 4)) = 0 then passFrame s i c
    else if !tagOk c then discardSensor s i
    else checkFrame s i c

/-! ### The line FIFO -/

/-- A port's line FIFO, oldest first. -/
def fifoAt (s : State) (port : Nat) : List FifoItem := s.fifos.getD port []

/-- Replace a port's line FIFO. -/
def setFifo (s : State) (port : Nat) (l : List FifoItem) : State := { s with fifos := s.fifos.set port l }

/-- The filter an item is for. -/
def FifoItem.filter : FifoItem → Nat
  | .start i _ _ | .line i _ | .tag i _ | .broken i | .stop i _ => i

/-- The bytes that an item takes in the line FIFO: a packet's payload. -/
def FifoItem.room : FifoItem → Nat
  | .line _ b | .tag _ b => b.length
  | _ => 0

/-- The bytes in a port's line FIFO, the 256 of each postcard on its way among them (R375, R382). -/
def fifoFill (s : State) (port : Nat) : Nat :=
  (fifoAt s port).foldl (fun n x => n + x.room) 0 +
    256 * ((List.range 4).filter fun f => (filterAt s (filterNo port f)).due.isSome).length

/-- Whether a port injects a postcard (R386). -/
def injecting (s : State) (port : Nat) : Bool := (List.range 4).any fun f => (filterAt s (filterNo port f)).due.isSome

/-- Whether a filter's slot can be written now: no Strict partition's DRAM slot holds it off (R248). -/
def slotFree (s : State) (i slot : Nat) : Bool :=
  dramFree s (fget s (Fd.intake_PID (i / 4) (i % 4))) (slotBase s i slot + slotSize s i - 1)

/-- Whether an item must wait at the head of the line FIFO: a Frame Start while a postcard is being injected (R386), a write while
its memory is held (R248). -/
def itemWaits (s : State) (port : Nat) : FifoItem → Bool
  | .start _ _ _ => injecting s port
  | .line i _ | .stop i _ => (filterAt s i).cur.any fun c => !c.dead && !slotFree s i c.slot
  | _ => false

/-- What an item does as it leaves the line FIFO. -/
def takeItem (s : State) : FifoItem → State
  | .start i fnum pm => startFrame s i fnum pm
  | .line i b => takeLine b s i
  | .tag i b => takeTag b s i
  | .broken i => breakFrame s i
  | .stop i fnum => endFrame s i fnum

/-- Let at most `n` items leave a port's line FIFO, in order, up to one that must wait. -/
def drainFifo (port : Nat) : Nat → State → State
  | 0, s => s
  | n + 1, s =>
    match fifoAt s port with
    | [] => s
    | x :: xs => if itemWaits s port x then s else drainFifo port n (takeItem (setFifo s port xs) x)

/-- Let what can leave a port's line FIFO. -/
def drainPort (s : State) (port : Nat) : State := drainFifo port (fifoAt s port).length s

/-- Let what can leave the line FIFOs of all ports. -/
def drainPorts (s : State) : State := (List.range 8).foldl drainPort s

/-- FIFO_HIGH_WATER keeps the peak fill, in 64-byte units (R394). -/
def notePeak (s : State) (port : Nat) : State :=
  fput s (Fd.intake_FIFO_HIGH_WATER port) (max (fget s (Fd.intake_FIFO_HIGH_WATER port)) (ceilDiv (fifoFill s port) 64))

/-- The items of a filter's arriving frame leave the line FIFO: those from its last Frame Start on, or all of them when that frame
is the one being written. -/
def dropArriving (i : Nat) (l : List FifoItem) : List FifoItem :=
  let n := (l.reverse.findIdx? fun x => x.filter == i && (match x with | .start _ _ _ => true | _ => false)).getD l.length
  let k := l.length - 1 - n
  l.take k ++ (l.drop k).filter fun x => x.filter != i

/-- Whether a filter's last Frame Start still waits in the line FIFO. -/
def startQueued (i : Nat) (l : List FifoItem) : Bool :=
  l.any fun x => x.filter == i && (match x with | .start _ _ _ => true | _ => false)

/-- Discard the frame arriving at a filter, because its data would overflow the line FIFO (R375). -/
def overflow (s : State) (port i : Nat) : State :=
  let queued := startQueued i (fifoAt s port)
  let f := filterAt s i
  let s := setFilter s i { f with arr := .dropped, cur := if queued then f.cur else f.cur.map fun c => { c with dead := true } }
  discard (setFifo s port (dropArriving i (fifoAt s port))) i (Fd.intake_OVERFLOW (i / 4) (i % 4)) true

/-- A packet of a filter's frame enters the line FIFO (R375). -/
def pushItem (port : Nat) (s : State) (x : FifoItem) : State :=
  if (filterAt s x.filter).arr != .frame then s
  else if 65536 < fifoFill s port + x.room then overflow s port x.filter
  else drainPort (notePeak (setFifo s port (fifoAt s port ++ [x])) port) port

/-! ### Packets -/

/-- A discarded packet (R366, R369). -/
def countUnknown (s : State) (port : Nat) : State := fadd s (Fd.intake_UNKNOWN_PKT_COUNT port) 1

/-- The state of the lanes around a packet (R365, R394). -/
def takePhy (s : State) (port : Nat) (x : PhyIn) : State :=
  let s := match x.deskew with
    | some d => fput s (Fd.intake_DESKEW_DONE port) (b2n d)
    | none => s
  fput s (Fd.intake_HS_ACTIVE port) (b2n x.hsAfter)

/-- A packet's header (R367): corrected, or discarded with the structure of every frame then arriving broken (R378 step 1). `k` is
what the packet does when its header is good. -/
def takeHeader (s : State) (port : Nat) (x : PhyIn) (k : State → State) : Host.Outcome State Fault Refusal :=
  if fget s (Fd.intake_ENABLE port) = 0 then .next s
  else
    let s := takePhy s port x
    match x.header with
    | .good => .next (k s)
    | .corrected => .next (k (fadd s (Fd.intake_HDR_ECC_CORR port) 1))
    | .bad => .next (((List.range 4).map fun f => FifoItem.broken (filterNo port f)).foldl (pushItem port)
        (fadd s (Fd.intake_HDR_ECC_UNCORR port) 1))

/-- A Frame Start arrives at a filter (R28, R392): before READY its frame is discarded at once. -/
def arriveStart (port fnum : Nat) (s : State) (i : Nat) : State :=
  if !s.boot.ready then
    fadd (setFilter s i { filterAt s i with arr := .dropped }) (Fd.intake_PRE_READY_DISCARD (i / 4) (i % 4)) 1
  else pushItem port (setFilter s i { filterAt s i with arr := .frame }) (.start i fnum (now s))

/-- A Frame Start on a virtual channel (R369): one that no enabled filter matches is an unmatched packet. -/
def frameStart (s : State) (port vc fnum : Nat) : State :=
  if (filtersOfVc s port vc).isEmpty then countUnknown s port
  else ((filtersOfVc s port vc).map (filterNo port)).foldl (arriveStart port fnum) s

/-- FRAME_START (R373, R28, R386, R392, R395). -/
def execFrameStart (port : Fin 8) (phy : PhyIn) (vc : Fin 16) (fnum : W16) (s : State) : Host.Outcome State Fault Refusal :=
  takeHeader s port phy fun s => frameStart s port vc fnum.toNat

/-- The filters a long packet belongs to: by data type, or for embedded data those of its virtual channel with a frame that has not
ended (R369). -/
def packetFilters (s : State) (port : Nat) (vc dt : Nat) : List Nat :=
  let fs := filtersOfVc s port vc
  if dt = 0x12 then fs.filter fun f => (filterAt s (filterNo port f)).arr != .idle
  else fs.filter fun f => fget s (Fd.intake_DT port f) == dt

/-- What a long packet puts into a filter's frame: its line or tag line, and the break that a failed CRC is (R378 step 1). -/
def packetItems (pk : LongPacket) (i : Nat) : List FifoItem :=
  (if pk.crcOk then [] else [FifoItem.broken i]) ++ [if pk.dt = 0x12 then .tag i pk.payload else .line i pk.payload]

/-- A long packet with a good header (R366, R367, R369). -/
def longPacket (s : State) (port : Nat) (pk : LongPacket) : State :=
  let fs := ((packetFilters s port pk.vc pk.dt.toNat).map (filterNo port))
  let s := if pk.crcOk then s else fadd s (Fd.intake_PKT_CRC_ERR port) 1
  if fs.isEmpty then countUnknown s port else (fs.flatMap (packetItems pk)).foldl (pushItem port) s

/-- LONG_PACKET (R366, R367, R369, R374, R375): header ECC, CRC-16, the filter, and the line or tag line. -/
def execLongPacket (port : Fin 8) (phy : PhyIn) (pk : LongPacket) (s : State) : Host.Outcome State Fault Refusal :=
  takeHeader s port phy fun s => longPacket s port pk

/-- Data types of short packets that are accepted and ignored: Line Start and Line End (R365; the codes are CSI-2's, log entry
220). -/
def lineMark (dt : Nat) : Bool := dt == 2 || dt == 3

/-- UNKNOWN_PACKET (R366, R369): a packet of an unsupported data type, or one that no enabled filter matches. -/
def execUnknownPacket (port : Fin 8) (phy : PhyIn) (vc : Fin 16) (dt : BitVec 6) (s : State) : Host.Outcome State Fault Refusal :=
  takeHeader s port phy fun s =>
    if (packetFilters s port vc dt.toNat).isEmpty && !lineMark dt.toNat then countUnknown s port else s

/-- A Frame End arrives at a filter (R378): one that no Frame Start precedes is a discard under step 1, unless the frame was
discarded before. -/
def arriveEnd (port fnum : Nat) (s : State) (i : Nat) : State :=
  let f := filterAt s i
  match f.arr with
  | .frame =>
    let s := pushItem port s (.stop i fnum)
    setFilter s i { filterAt s i with arr := .idle }
  | .dropped => setFilter s i { f with arr := .idle }
  | .idle => discardStruct s i

/-- A Frame End on a virtual channel (R369). -/
def frameEnd (s : State) (port vc fnum : Nat) : State :=
  if (filtersOfVc s port vc).isEmpty then countUnknown s port
  else ((filtersOfVc s port vc).map (filterNo port)).foldl (arriveEnd port fnum) s

/-- FRAME_END (R378-R381). -/
def execFrameEnd (port : Fin 8) (phy : PhyIn) (vc : Fin 16) (fnum : W16) (s : State) : Host.Outcome State Fault Refusal :=
  takeHeader s port phy fun s => frameEnd s port vc fnum.toNat

/-! ### Postcards and publication -/

/-- A frame's postcard (R383): 64 words, each the CRC-32C of 16 bytes. -/
def postcard (port filter epoch pm : Nat) : List Byte :=
  (List.range 64).flatMap fun i =>
    leBytes 4 (crc32c (leBytes 1 port ++ leBytes 1 filter ++ leBytes 2 epoch ++ leBytes 6 pm ++ leBytes 1 i ++ leBytes 5 0))

/-- Publish a frame (R384, R385). -/
def publishFrame (s : State) (i : Nat) (c : FrameSt) : State :=
  let port := i / 4
  let fl := i % 4
  let f := filterAt s i
  let pid := fget s (Fd.intake_PID port fl)
  let stream := fget s (Fd.intake_STREAM port fl)
  let d := mkDocket pid stream f.count f.count c.pm (fget s (Fd.intake_SCLASS port fl)) 0
  let s := fadd s (Fd.intake_FRAMES_PUBLISHED port fl) 1
  let s := if f.newest.isSome && !f.taken then fadd s (Fd.intake_SUPERSEDED port fl) 1 else s
  let r : FrameRef := ⟨i, c.slot, slotBase s i c.slot, slotSize s i, fget s (Fd.intake_WIDTH port fl),
    fget s (Fd.intake_HEIGHT port fl), fget s (Fd.intake_DT port fl)⟩
  let top := f.order.foldl max 0
  let s := setFilter s i { f with
    due := none, newest := some c.slot, taken := false, order := f.order.set c.slot (top + 1), lastCrc := some (c.crc ^^^ 0xFFFFFFFF), count := f.count + 1 }
  let s := putItem s (streamKey pid stream) ⟨[], d, now s, some r, true⟩
  noteWatch s pid stream d.sclass.toNat d.flags.toNat

/-- FRAME_PUBLISH (R382-R384): the postcard is written and the frame published, once its memory is not held (R248); what waited
behind the postcard goes on (R386). -/
def execFramePublish (port : Fin 8) (f : Fin 4) (slot : Nat) (s : State) : Host.Outcome State Fault Refusal :=
  let i := filterNo port f
  match (filterAt s i).due with
  | none => .next s
  | some c =>
    if c.slot != slot || !slotFree s i slot then .next s
    else
      let pc := postcard port f ((filterAt s i).count % 2 ^ 16) (c.pm % 2 ^ 48)
      let w := devWrite s (fget s (Fd.intake_PID port f)) (slotBase s i slot + slotSize s i - 4096 + 0x40) pc
        (fget s (Fd.intake_SCLASS port f))
      .next (drainPort (if w.2 = .ok then publishFrame w.1 i c
        else discardStruct (setFilter w.1 i { filterAt w.1 i with due := none }) i) port)

/-! ### Enabling a filter -/

/-- Whether a range lies within one DRAM region owned by a PID (R370). -/
def inOneRegion (s : State) (pid a n : Nat) : Bool :=
  match regionAt s a with
  | some r => fget s (Fd.region_OWNED r) == 1 && fget s (Fd.region_REGION_OWNER r) == pid &&
      a + n ≤ dramBase + (fget s (Fd.region_REGION_BASE r) + fget s (Fd.region_REGION_SIZE r)) * 0x200000
  | none => false

/-- Whether a filter may be enabled as its fields stand (R370, R372, R397). -/
def enableOk (s : State) (port f : Nat) : Bool :=
  let i := filterNo port f
  let pid := fget s (Fd.intake_PID port f)
  let stream := fget s (Fd.intake_STREAM port f)
  let dt := fget s (Fd.intake_DT port f)
  let w := fget s (Fd.intake_WIDTH port f)
  let h := fget s (Fd.intake_HEIGHT port f)
  regimeOf s pid == 2 && fget s (Fd.intake_SCLASS port f) ≤ fget s (Fd.part_MAX_SCLASS pid) && 1 ≤ stream &&
    ((List.range 32).all fun k => k == i || fget s (Fd.intake_F_ENABLE (k / 4) (k % 4)) == 0 ||
      fget s (Fd.intake_PID (k / 4) (k % 4)) != pid || fget s (Fd.intake_STREAM (k / 4) (k % 4)) != stream) &&
    ((List.range 4).all fun k => k == f || fget s (Fd.intake_F_ENABLE port k) == 0 ||
      fget s (Fd.intake_VC port k) != fget s (Fd.intake_VC port f) || fget s (Fd.intake_DT port k) != dt) &&
    imageType dt && 1 ≤ w && w ≤ 8192 && 1 ≤ h && h ≤ 8192 && lineBits w dt % 8 == 0 && lineBytes s i ≤ 16384 &&
    (List.range (fget s (Fd.intake_BUF_SLOTS port f))).all fun k => inOneRegion s pid (slotBase s i k) (slotSize s i)

/-- What a write of a filter register refuses (R370, R371): another field while F_ENABLE is 1, and an F_ENABLE that may not
be set. `next` is the state as the write would leave it. -/
def filterDeny (before next : State) (port f : Nat) : DenyRule := fun row _ v =>
  if row.name == "F_ENABLE" then v == 1 && !enableOk next port f
  else fget before (Fd.intake_F_ENABLE port f) == 1

/-- The frame that a filter receives is discarded without a count (R393). -/
def dropFrame (s : State) (i : Nat) : State :=
  let s := setFifo s (i / 4) ((fifoAt s (i / 4)).filter fun x => x.filter != i)
  setFilter s i { filterAt s i with cur := none, arr := .dropped }

/-- F_ENABLE_WRITE (R370, R371, R379, R393, R397): a filter that is enabled has no REF, counts its frames from 0 and takes its first
frame at the next Frame Start; one that is disabled discards the frame being received. -/
def execFEnableWrite (q : Requester) (port : Fin 8) (f : Fin 4) (v : W32) (be : BitVec 4) (s : State) :
    Host.Outcome State Fault Refusal :=
  let off := 0x080 + 0x40 * f.val
  let i := filterNo port f
  let was := fget s (Fd.intake_F_ENABLE port f)
  let t := regWrite (filterDeny s (regWrite denyNone s q (0x070 + port) off v be) port f) s q (0x070 + port) off v be
  let is := fget t (Fd.intake_F_ENABLE port f)
  if was = 0 && is = 1 then .next (setFilter (dropFrame t i) i { filterAt (dropFrame t i) i with ref := none, count := 0 })
  else if was = 1 && is = 0 then .next (dropFrame t i)
  else .next t

/-- A SET_PARTITION that takes away a region holding an enabled filter's slots clears its F_ENABLE first (R376). -/
def dropFilters (s : State) (pid newRegions : Nat) : State :=
  (List.range 32).foldl (fun s i =>
    let port := i / 4
    let f := i % 4
    let lost := (List.range (fget s (Fd.intake_BUF_SLOTS port f))).any fun k =>
      match regionAt s (slotBase s i k) with
      | some r => !bit newRegions r
      | none => true
    if fget s (Fd.intake_F_ENABLE port f) = 1 && fget s (Fd.intake_PID port f) = pid && lost then
      dropFrame (badValue (fput s (Fd.intake_F_ENABLE port f) 0) (0x070 + port)) i
    else s) s

end Sys2Proof.Machine
end

