-- ==== Sys2Proof/Machine/Walk.lean ====
section
/-! DEFINITION. The tile walker of the Truss engines (07 R297-R306): the shape of a dense operator, tile sizes and loop orders,
the L0 tiles and how they are dealt, the panels each engine reads, and the staging area. -/

namespace Sys2Proof.Machine

/-! ### The operator of a task -/

/-- The plan and the operator of a task of a run. -/
def opOf (s : State) (t : Task) : Option (PlanSt × OpDesc) :=
  match letterOf s t.ch t.seq with
  | some l => if l.op = 0x04 then (planOf s l).bind fun p => ((planOps p.words)[t.op]?).map fun o => (p, o) else none
  | none => none

/-- The descriptor of the tensor that INk of a macro-instruction names. -/
def roleDesc (p : List W32) (m : Macro) (k : Nat) : TensorDesc := tensorDesc p (m.ins.getD k 0)

/-- Whether a macro-instruction names no tensor as INk (R297). -/
def noRole (m : Macro) (k : Nat) : Bool := m.ins.getD k 0xFFFF == 0xFFFF

/-- Whether a MOP is carried out as a matrix product: MM and CONV. -/
def denseMop (m : Macro) : Bool := m.mop == 0x01 || m.mop == 0x02

/-! ### Dense operators as matrix products -/

/-- A dense operator as the walker sees it (R299): batches, M, N and K. -/
structure Dense where
  batch : Nat
  m : Nat
  n : Nat
  k : Nat
  deriving DecidableEq, Repr

/-- The matrix product of MM; the implicit one of CONV (R299). -/
def denseOf (p : List W32) (m : Macro) : Dense :=
  let x := (roleDesc p m 0).dims
  let w := (roleDesc p m 1).dims
  let y := dimsOf p (m.outs.getD 0 0)
  if m.mop = 0x01 then
    let a := matDims m.ta x
    let b := matDims m.tb w
    ⟨volume (a.take (a.length - 2)), a.getD (a.length - 2) 1, b.getD (b.length - 1) 1, a.getD (a.length - 1) 1⟩
  else
    ⟨1, y.getD 0 1 * y.getD 1 1 * y.getD 2 1, y.getD 3 1,
      w.getD 0 1 * w.getD 1 1 * if m.dw then 1 else w.getD 2 1⟩

/-- The element of A that row `i` of a batch takes at reduction index `k` for column `j`; none where padding reads as 0. Only a
depthwise convolution looks at the column, whose own channel it reads (R299). -/
def aElem (p : List W32) (m : Macro) (batch i k j : Nat) : Option Nat :=
  let x := (roleDesc p m 0).dims
  if m.mop = 0x01 then
    let d := matDims m.ta x
    let rows := d.getD (d.length - 2) 1
    let cols := d.getD (d.length - 1) 1
    some (batch * (rows * cols) + if m.ta then k * rows + i else i * cols + k)
  else
    let w := (roleDesc p m 1).dims
    let g := coords (dimsOf p (m.outs.getD 0 0)) (i * (dimsOf p (m.outs.getD 0 0)).getD 3 1)
    let c := w.getD 2 1
    let q := if m.dw then k else k / c
    let ch := if m.dw then j else k % c
    let kw := w.getD 1 1
    let h : Int := (g.getD 1 0 * bits m.p0 3 0 + q / kw * bits m.p0 11 8 : Nat) - (bits m.p0 19 16 : Int)
    let v : Int := (g.getD 2 0 * bits m.p0 7 4 + q % kw * bits m.p0 15 12 : Nat) - (bits m.p0 27 24 : Int)
    let hh := x.getD 1 0
    let ww := x.getD 2 0
    if 0 ≤ h && h < hh && 0 ≤ v && v < ww then some (((g.getD 0 0 * hh + h.toNat) * ww + v.toNat) * x.getD 3 0 + ch) else none

/-- The element of B that column `j` of a batch takes at reduction index `k` (R299). -/
def bElem (p : List W32) (m : Macro) (batch k j : Nat) : Nat :=
  let w := (roleDesc p m 1).dims
  if m.mop = 0x01 then
    let d := matDims m.tb w
    let rows := d.getD (d.length - 2) 1
    let cols := d.getD (d.length - 1) 1
    batch * (rows * cols) + if m.tb then j * rows + k else k * cols + j
  else k * (if m.dw then w.getD 2 1 else w.getD 3 1) + j

/-! ### Tile sizes and loop orders (R300) -/

/-- A tile of one level (R300): M, N and K extents. `e2` counts input bytes in halves and `h2` is twice H. -/
def tileLevel (m n k e2 mu nu h2 kq : Nat) : Nat × Nat × Nat :=
  if (mu + nu) * k * e2 ≤ h2 then
    let c := h2 / (k * e2)
    let nt := nu * min (ceilDiv n nu) ((c - mu) / nu)
    let mt := mu * min (ceilDiv m mu) ((c - nt) / mu)
    (min mt m, min nt n, k)
  else (mu, nu, kq * (h2 / ((mu + nu) * e2 * kq)))

/-- The tiles of the three levels, and whether L2 tiles are staged. -/
structure Tiles where
  m0 : Nat
  n0 : Nat
  m1 : Nat
  n1 : Nat
  k1 : Nat
  m2 : Nat
  n2 : Nat
  staged : Bool
  deriving DecidableEq, Repr

/-- The tile sizes (R300): `e2` input bytes in halves, `mortise` and `l2` the bytes of both. -/
def tilesOf (d : Dense) (e2 mortise l2 : Nat) (useL2 : Bool) : Tiles :=
  let m0 := min d.m 128
  let n0 := min d.n 512
  let t1 := tileLevel d.m d.n d.k e2 m0 n0 mortise 64
  let t2 := tileLevel d.m d.n d.k e2 t1.1 t1.2.1 l2 t1.2.2
  let use := useL2 && l2 != 0 && t2.2.2 != 0
  ⟨m0, n0, t1.1, t1.2.1, t1.2.2, if use then t2.1 else d.m, if use then t2.2.1 else d.n, use⟩

/-- Whether a level's hint is ignored (R300, R302). -/
def hintIgnored (mx nx mt nt hint : Nat) : Bool := hint != 0 && !(2 ≤ ceilDiv mx mt && 2 ≤ ceilDiv nx nt)

/-- The loop order of a level (R300, R302): whether it is MN, m outermost. A hint is honoured where it is not ignored; else the
order that fetches fewer elements. -/
def orderMn (mx nx k mt nt hint : Nat) : Bool :=
  if hint != 0 && !hintIgnored mx nx mt nt hint then hint == 1
  else mx * k + ceilDiv mx mt * k * nx ≤ k * nx + ceilDiv nx nt * mx * k

/-! ### L0 tiles (R303) -/

/-- Pieces of a length, as first index and extent. -/
def pieces (lo len step : Nat) : List (Nat × Nat) :=
  (List.range (ceilDiv len step)).map fun i => (lo + i * step, min step (len - i * step))

/-- The tiles of a level inside an enclosing one, as rows and columns, in loop order. -/
def tileGrid (mn : Bool) (rows cols : Nat × Nat) (mt nt : Nat) : List ((Nat × Nat) × (Nat × Nat)) :=
  let r := pieces rows.1 rows.2 mt
  let c := pieces cols.1 cols.2 nt
  if mn then r.flatMap fun x => c.map fun y => (x, y) else c.flatMap fun y => r.map fun x => (x, y)

/-- An L0 tile: its batch, rows and columns as first index and extent, and the number of the L1 tile it lies in. -/
structure L0Tile where
  batch : Nat
  rows : Nat × Nat
  cols : Nat × Nat
  panel : Nat
  deriving DecidableEq, Repr

/-- The L0 tiles of a dense macro-operation in their order: batch outermost, then order2, order1 and order0 (R303). -/
def denseTiles (d : Dense) (t : Tiles) (hints : List Nat) : List L0Tile :=
  let o2 := orderMn d.m d.n d.k t.m2 t.n2 (hints.getD 2 0)
  let o1 := orderMn t.m2 t.n2 d.k t.m1 t.n1 (hints.getD 1 0)
  let o0 := orderMn t.m1 t.n1 d.k t.m0 t.n0 (hints.getD 0 0)
  let l1 := (List.range d.batch).flatMap fun b =>
    (tileGrid o2 (0, d.m) (0, d.n) t.m2 t.n2).flatMap fun x => (tileGrid o1 x.1 x.2 t.m1 t.n1).map fun y => (b, y)
  (List.range l1.length).flatMap fun i =>
    match l1[i]? with
    | some (b, y) => (tileGrid o0 y.1 y.2 t.m0 t.n0).map fun z => ⟨b, z.1, z.2, i⟩
    | none => []

/-- Rows and columns of an output as other macro-operations cut it: the last dimension across, the others down (log entry
209). -/
def blockShape (dims : List Nat) : Nat × Nat :=
  let n := dims.getD (dims.length - 1) 1
  (volume dims / max 1 n, n)

/-- The 128 × 512 blocks of another macro-operation's output, in their fixed order (R304; log entry 209). -/
def blockTiles (dims : List Nat) : List L0Tile :=
  let b := blockShape dims
  let l := tileGrid true (0, b.1) (0, b.2) 128 512
  (List.range l.length).filterMap fun i => (l[i]?).map fun x => ⟨0, x.1, x.2, i⟩

/-- Whether the walker stages L2 tiles (R301). -/
def usesL2 (s : State) (t : Task) (mac : Macro) : Bool :=
  mac.l2 != 0 && (t.strict || fget s (Fd.part_CACHE_WAYS t.pid) == 0) &&
    (inPorts s t).any fun q => match q with
      | .dev _ a _ => dramBase ≤ a
      | _ => false

/-- Input bytes per element, in halves. -/
def inputHalves (p : List W32) (m : Macro) : Nat := fmtBits (roleDesc p m 0).fmt / 4

/-- The tiles the walker chooses for a task's dense macro-operation (R300, R301). -/
def taskTiles (s : State) (t : Task) (p : List W32) (m : Macro) : Tiles :=
  tilesOf (denseOf p m) (inputHalves p m) (fget s (Fd.part_MORTISE_KIB t.pid) * 1024) (m.l2 * 1024) (usesL2 s t m)

/-- The L0 tiles, or the output blocks, of a task's macro-operation. -/
def walkTiles (s : State) (t : Task) (p : List W32) (m : Macro) : List L0Tile :=
  if denseMop m then denseTiles (denseOf p m) (taskTiles s t p m) m.hints
  else blockTiles (dimsOf p (m.outs.getD 0 0))

/-- The engine that takes tile `i` of `total`: contiguous blocks of ceil(T0 / E), the first to the engine granted first (R303). -/
def engineAt (units : List Nat) (total i : Nat) : Nat := units.getD (i / max 1 (ceilDiv total units.length)) (units.headD 0)

/-- The tiles of the `e`-th engine granted. -/
def engineTiles (l : List L0Tile) (units : List Nat) (e : Nat) : List L0Tile :=
  let b := ceilDiv l.length units.length
  (l.drop (e * b)).take b

/-- Levels of a macro-operation whose hint is ignored (R300-R302). -/
def hintsIgnored (s : State) (p : List W32) (t : Task) (m : Macro) : Nat :=
  if denseMop m then
    let d := denseOf p m
    let x := taskTiles s t p m
    b2n (x.staged && hintIgnored d.m d.n x.m2 x.n2 (m.hints.getD 2 0)) + b2n (hintIgnored x.m2 x.n2 x.m1 x.n1 (m.hints.getD 1 0)) +
      b2n (hintIgnored x.m1 x.n1 x.m0 x.n0 (m.hints.getD 0 0))
  else 0

/-! ### Panels -/

/-- The elements of the group that one reduced output stands for: their places in the input, in ascending order. -/
def groupOfOut (mask : Nat) (dims : List Nat) (g : Nat) : List Nat :=
  let red := reduceDims mask dims
  (List.range (volume dims)).filter fun i =>
    flatIndex red ((List.range dims.length).map fun d => if bit mask d then 0 else (coords dims i).getD d 0) == g

/-- The group and the place in it of input element `i`. -/
def placeOf (mask : Nat) (dims : List Nat) (i : Nat) : Nat × Nat :=
  let c := coords dims i
  let red := reduceDims mask dims
  let axis := ((List.range dims.length).filter (bit mask))
  (flatIndex red ((List.range dims.length).map fun d => if bit mask d then 0 else c.getD d 0),
    flatIndex (axis.map fun d => dims.getD d 1) (axis.map fun d => c.getD d 0))

/-- The elements of input `k` that output element `i` of a macro-operation other than MM and CONV is formed from. -/
def blockElems (p : List W32) (m : Macro) (k i : Nat) : List Nat :=
  let x := (roleDesc p m k).dims
  let y := dimsOf p (m.outs.getD 0 0)
  match m.mop with
  | 0x03 => [flatIndex x (broadcastCoords x (coords y i))]
  | 0x06 => groupOfOut m.p0 x i
  | 0x07 => if k = 0 then groupOfOut m.p0 x (placeOf m.p0 x i).1 else [(placeOf m.p0 y i).2]
  | 0x08 => groupOfOut m.p0 x (placeOf m.p0 x i).1
  | 0x09 =>
    let q := permOf m.p0 x.length
    [flatIndex x ((List.range x.length).map fun d => (coords y i).getD ((q.idxOf? d).getD 0) 0)]
  | _ => [i]

/-- The elements of input `k` in the panel of an engine's L0 tiles, over the reduction indices from `lo` for `len`. -/
def panelElems (p : List W32) (m : Macro) (tiles : List L0Tile) (lo len k : Nat) : List Nat :=
  let ks := (List.range len).map (lo + ·)
  let rows := fun (t : L0Tile) => (List.range t.rows.2).map (t.rows.1 + ·)
  let cols := fun (t : L0Tile) => (List.range t.cols.2).map (t.cols.1 + ·)
  if denseMop m then
    match k with
    | 0 => tiles.flatMap fun t => (rows t).flatMap fun i => ks.flatMap fun e =>
        if m.dw then (cols t).filterMap fun j => aElem p m t.batch i e j else (aElem p m t.batch i e 0).toList
    | 1 => tiles.flatMap fun t => ks.flatMap fun e => (cols t).map fun j => bElem p m t.batch e j
    | _ => tiles.flatMap cols
  else
    let n := (blockShape (dimsOf p (m.outs.getD 0 0))).2
    tiles.flatMap fun t => (rows t).flatMap fun i => (cols t).flatMap fun j => blockElems p m k (i * n + j)

/-- The pool lines that elements of a tensor at an address lie in, in ascending order. -/
def elemLines (fmt base size : Nat) (es : List Nat) : List Nat :=
  (lineParts base size).map (·.1 / 256 * 256) |>.filter fun l => es.any fun e =>
    let a := base + e * fmtBits fmt / 8
    let z := base + (e * fmtBits fmt + fmtBits fmt + 7) / 8
    l < z && a < l + 256

/-- Consecutive tiles of one L1 tile, as groups. -/
def panelGroups : List L0Tile → List (List L0Tile)
  | [] => []
  | t :: ts =>
    match panelGroups ts with
    | (x :: xs) :: gs => if x.panel = t.panel then (t :: x :: xs) :: gs else [t] :: (x :: xs) :: gs
    | gs => [t] :: gs

/-- The reads of one engine, each a set of elements of one input of the macro-instruction: the panels its own tiles need, each once
while the tiles of its L1 tile last; where an L1 tile holds part of K, K streams through in chunks (R300, R303). -/
def engineReads (s : State) (t : Task) (p : List W32) (m : Macro) (tiles : List L0Tile) : List (Nat × List Nat) :=
  let d := denseOf p m
  let k1 := (taskTiles s t p m).k1
  let ks := if denseMop m then pieces 0 d.k (max 1 k1) else [(0, 0)]
  (panelGroups tiles).flatMap fun g => ks.flatMap fun c =>
    ((List.range (macroUses m.mop)).filter fun k => !noRole m k).map fun k => (k, panelElems p m g c.1 c.2 k)

/-- Where a macro-instruction's input lies in device memory, and its format. -/
def rolePlace (s : State) (t : Task) (p : List W32) (o : OpDesc) (m : Macro) (k : Nat) : Option (Nat × Nat × Nat) :=
  match ((inPorts s t)[(o.ins.idxOf? (m.ins.getD k 0)).getD 0]?) with
  | some (.dev _ a n) => some (a, n, (roleDesc p m k).fmt)
  | _ => none

/-- An engine's reads of operands that pass through the pool (R254, R305): one lookup for each line of a panel (log entry 208). -/
def poolReads (s : State) (t : Task) (p : List W32) (o : OpDesc) (m : Macro) (reads : List (Nat × List Nat)) : State :=
  reads.foldl (fun s r =>
    match rolePlace s t p o m r.1 with
    | some (a, n, f) =>
      if pooled s t.pid a && rangePermitted s t.pid a n then
        (elemLines f a n r.2).foldl (fun s l =>
          let lo := max a l
          (cacheRead s t.pid lo (min (a + n) (l + 256) - lo) t.sclass).1) s
      else s
    | none => s) s

/-- Do an engine's accesses through the pool, and count its misses in its own page (R306). -/
def countMisses (s : State) (u : Nat) (f : State → State) : State :=
  let r := f s
  fadd r (Fd.truss_CACHE_MISS_COUNT u) (cyc 32 (fget r Fd.beam_POOL_MISS_COUNT) (fget s Fd.beam_POOL_MISS_COUNT))

/-! ### The staging area (R301) -/

/-- The 1 KiB pieces of the Beam store in a partition's own banks that no tensor entry, no lattice buffer and no task's
staging area takes, as addresses in ascending order. -/
def freePieces (s : State) (pid : Nat) : List Nat :=
  let m := beamMask s pid
  let lat := latticeMask s
  let taken := (tensorsOf s pid).map (fun e => (e.addr, e.size)) ++ s.sched.tasks.flatMap (·.stage)
  ((List.range 32).filter fun b => bit m b && !bit lat b).flatMap fun b =>
    ((List.range (bankBytes / 1024)).map fun i => b * bankBytes + i * 1024).filter fun a =>
      !taken.any fun x => a < x.1 + x.2 && x.1 < a + 1024

/-- Give a task an area of `n` KiB: its partition's free Beam pieces, the lowest first. What its engine leaves there is not stated
(log entry 210). -/
def takeArea (s : State) (t : Task) (n : Nat) : State × Task :=
  let ps := (freePieces s t.pid).take n
  let r := ps.foldl (fun s a => let d := draw s; writeRaw d.1 a (leBytes 1024 d.2) t.sclass t.pid) s
  (r, { t with stage := ps.map fun a => (a, 1024) })

/-- The area that a Sorter, Plane or Courier task spills, works or stages in, when its partition's free Beam bytes hold it (R466,
R479, R525); one in LPDDR5X has no stated place (log entry 210). -/
def takeScratch (s : State) (t : Task) : State × Task :=
  match opOf s t with
  | some (p, o) =>
    let n := ceilDiv (opScratch p.words o t.units.length (groupSize s t.pid)) 1024
    if t.kind == .truss || n = 0 || (freePieces s t.pid).length < n then (s, t) else takeArea s t n
  | none => (s, t)

/-! ### What a Truss task does at its dispatch and at its end -/

/-- Whether some port of a task lies where its accesses pass through the pool. -/
def usesPool (s : State) (t : Task) : Bool :=
  (inPorts s t ++ outPorts s t).any fun q => match q with
    | .dev _ a _ => pooled s t.pid a
    | _ => false

/-- What the walker does when a Truss task is dispatched: the L2 staging area where it uses one; its engines' panel reads through
the pool, each engine's misses in its page; T_LOOSE for a task with an access through the pool (R301-R306). -/
def walkIn (s : State) (t : Task) : State × Task :=
  if t.kind != .truss then (s, t)
  else
    match opOf s t with
    | none => (s, t)
    | some (p, o) =>
      let m := macroOf p.words o
      let r := if denseMop m && (taskTiles s t p.words m).staged then takeArea s t m.l2 else (s, t)
      let t := { r.2 with flags := r.2.flags ||| if usesPool s t then flagLoose else 0 }
      let tiles := walkTiles s t p.words m
      let w := (List.range t.units.length).foldl (fun s e =>
        countMisses s (t.units.getD e 0) fun s => poolReads s t p.words o m (engineReads s t p.words m (engineTiles tiles t.units e))) r.1
      (w, t)

/-- The bytes of an output that a tile's rows cover, as offset and length in the tensor. -/
def tileSpans (p : List W32) (m : Macro) (out : TensorDesc) (t : L0Tile) : List (Nat × Nat) :=
  let d := denseOf p m
  let w := if denseMop m then d.n else (blockShape out.dims).2
  let h := if denseMop m then d.m else 0
  (List.range t.rows.2).map fun i =>
    let e := (t.batch * h + t.rows.1 + i) * w + t.cols.1
    let lo := e * fmtBits out.fmt / 8
    (lo, ((e + t.cols.2) * fmtBits out.fmt + 7) / 8 - lo)

/-- Write one output of a Truss task through the pool as its engines do, each its own tiles, its misses in its own page
(R306). -/
def poolWrite (s : State) (t : Task) (p : List W32) (m : Macro) (out : TensorDesc) (a : Nat) (data : List Byte) : State :=
  let tiles := walkTiles s t p m
  (List.range t.units.length).foldl (fun s e =>
    countMisses s (t.units.getD e 0) fun s =>
      (engineTiles tiles t.units e).foldl (fun s x => (tileSpans p m out x).foldl (fun s q =>
        (writeLines s t.pid t.sclass (lineParts (a + q.1) q.2) (bytesAt data q.1 q.2))) s) s) s

/-- The end of a Truss task's writes: outputs in the pool are written by its engines, and their ports then need no further write
(R306). -/
def walkOut (s : State) (t : Task) : State × List PortRef :=
  let ports := outPorts s t
  match opOf s t with
  | none => (s, ports)
  | some (p, o) =>
    let m := macroOf p.words o
    (List.range ports.length).foldl (fun (a : State × List PortRef) i =>
      match (ports[i]? : Option PortRef) with
      | some (PortRef.dev id x n) =>
        if pooled a.1 t.pid x && rangePermitted a.1 t.pid x n then
          let d := tensorDesc p.words (o.outs.getD i 0)
          (poolWrite a.1 t p.words m d x (bytesAt (t.outs.getD i []) 0 n), a.2 ++ [.placed id])
        else (a.1, a.2 ++ [.dev id x n])
      | some q => (a.1, a.2 ++ [q])
      | none => a) (s, [])

end Sys2Proof.Machine
end

