-- ==== Sys2Proof/Machine/Entry.lean ====
section
/-! DEFINITION. How a task enters its units: a joiner core's registers and local store, the prologue of a joiner task
(08 R327-R329), and dispatch (05 R201, 07 R301-R306, 08 R353-R356). -/

namespace Sys2Proof.Machine

/-! ### A joiner core and its local store -/

/-- A core's state. -/
def coreAt (s : State) (c : Nat) : CoreSt := s.cores.getD c CoreSt.reset

/-- Replace a core's state. -/
def setCore (s : State) (c : Nat) (k : CoreSt) : State := { s with cores := s.cores.set c k }

/-- An integer register; x0 reads 0. -/
def CoreSt.rx (k : CoreSt) (i : Nat) : W64 := if i = 0 then 0 else k.x.getD i 0

/-- Write an integer register; a write of x0 is discarded. -/
def CoreSt.wx (k : CoreSt) (i : Nat) (v : W64) : CoreSt := if i = 0 then k else { k with x := k.x.set i v }

/-- Where a core's local address lies in the device address map (R239, R324). -/
def storeAddr (c a : Nat) : Nat := 0x20000000 + c * 0x40000 + a

/-- The base of the device window (R324). -/
def windowBase : Nat := 2 ^ 40

/-- Write a local store: both cores of a locked pair (R333). -/
def localWrite (s : State) (t : Task) (a : Nat) (bs : List Byte) : State :=
  t.units.foldl (fun s c => writeRaw s (storeAddr c a) bs t.sclass t.pid) s

/-! ### The prologue -/

/-- Whether a port lies in device memory, and where. -/
def portAddress (s : State) (t : Task) : PortRef → Option Nat
  | .dev _ a _ => some a
  | .stream n _ _ _ => ((readItem s t.strict (streamKey t.pid n)).bind (·.frame)).map (·.address)
  | _ => none

/-- The docket of an input port as the task read it. -/
def portDocket (s : State) (t : Task) (p : PortRef) : Option Docket := (standing s t p).map (·.1)

/-- One port of a call block as it is being written: the state, the block so far, windows and dockets. -/
structure CallAcc where
  s : State
  bytes : List Byte
  ports : List (Nat × Nat)
  dks : List Nat

/-- Add a port record (R328). A port that lies in no device memory gets a window at a free address (log entry 63); a port
without a docket shows free bits (log entry 68). -/
def addPort (t : Task) (isOut : Bool) (base : Nat) (a : CallAcc) (x : Nat × PortRef × Nat) : CallAcc :=
  let i := base + x.1
  let s := a.s
  let place := portAddress s t x.2.1
  let u := draw s
  let address := windowBase + match place with
    | some p => p
    | none => u.2 % 2 ^ 34 * 64
  let s := if place.isSome then s else u.1
  let dk := if isOut then none else portDocket s t x.2.1
  let v := draw s
  let bits_ := match dk with
    | some d => leNat d.bytes
    | none => v.2 % 2 ^ 128
  { s := if dk.isSome then s else v.1
    bytes := a.bytes ++ leBytes 8 address ++ leBytes 4 x.2.1.size ++ leBytes 4 x.2.2 ++ leBytes 16 bits_
    ports := if place.isSome then a.ports else a.ports ++ [(i, address)]
    dks := a.dks ++ [bits_] }

/-- Number the ports of a list. -/
def numbered (l : List (PortRef × Nat)) : List (Nat × PortRef × Nat) :=
  (List.range l.length).filterMap fun i => (l[i]?).map fun p => (i, p.1, p.2)

/-- Pad a call block to the record of a port. -/
def CallAcc.pad (a : CallAcc) (n : Nat) : CallAcc :=
  { a with bytes := bytesAt a.bytes 0 (32 * n), dks := a.dks ++ List.replicate (n - a.dks.length) 0 }

/-- The buffers that a task's outputs form in: a port in device memory has none of its own, another begins free. -/
def outBuffers (s : State) (t : Task) : State × List (List Byte) :=
  (outPorts s t).foldl (fun (a : State × List (List Byte)) p =>
    if (portAddress a.1 t p).isSome then (a.1, a.2 ++ [[]])
    else let b := freeBytes a.1 p.size; (b.1, a.2 ++ [b.2])) (s, [])

/-- The code of a joiner task: that of its JOINER_CALL; a built-in operator's routine stands in the ROM (R319, R327). -/
def callCode (p : List W32) (o : OpDesc) : List Byte :=
  if o.code = 0x0A0 then bytesOfWords ((p.drop (codeWord p o)).take o.codeWords) else []

/-- The prologue of a joiner task (R327-R329): code and zeros in the code area, the call block, cleared areas, and the registers at
entry. A JOINER_CALL runs in user mode and forms its outputs in its ports; a built-in operator's routine runs in machine mode
(R317). -/
def prologue (s : State) (t : Task) (p : PlanSt) (o : OpDesc) : State :=
  let fmts := fun (l : List Nat) => l.map fun i => (tensorDesc p.words i).fmt
  let a := (numbered ((inPorts s t).zip (fmts o.ins))).foldl (addPort t false 0) ⟨s, [], [], []⟩
  let a := (numbered ((outPorts s t).zip (fmts o.outs))).foldl (addPort t true 8) (a.pad 8)
  let a := a.pad 12
  let call := o.code == 0x0A0
  let block := bytesAt a.bytes 0 0x200 ++ o.params.flatMap fun w => leBytes 4 w
  let s := t.units.foldl (fun s c => zeroRange s (storeAddr c 0) 0x40000) a.s
  let s := localWrite (localWrite s t 0 (callCode p.words o)) t 0x10000 block
  let s := t.units.foldl (fun s c =>
    let k : CoreSt := { (coreAt s c).fresh with task := some t.id, ports := a.ports, dks := a.dks, machine := !call }
    let k := ((k.wx 10 0x10000).wx 11 (BitVec.ofNat 64 o.ins.length)).wx 12 (BitVec.ofNat 64 o.outs.length)
    setCore s c (k.wx 2 0x20000)) s
  if call then
    let b := outBuffers s t
    putTask b.1 { t with outs := b.2, computed := true }
  else s

/-! ### Dispatch -/

/-- Dispatch a task on units (R201, R353, R356): its Letter starts, its inputs are read, its budget begins; a Truss task's
operands come as the tile walker brings them, and a joiner task begins with its prologue. -/
def startTask (s : State) (t : Task) (units : List Nat) (budgetEnd : Nat) : State :=
  let s := countDispatch s t
  let s := markStarted s t.ch t.seq
  let g := looseTag s t
  let s := g.1
  let emerg := if s.power.window then flagThermal else 0
  let t := { withHold s t with disp := some (now s), units := units, budgetEnd := budgetEnd, flags := t.flags ||| g.2 ||| emerg }
  let s := updRun s t.ch t.seq fun r => { r with ops := r.ops.set t.op .running, starts := r.starts.set t.op (now s) }
  let a := takeScratch s t
  let w := walkIn (putTask a.1 a.2) a.2
  let r := loadTask w.1 w.2
  let s := putTask r.1 r.2
  if t.kind == .joiner then
    match opOf s r.2 with
    | some (p, o) => prologue s r.2 p o
    | none => s
  else s

end Sys2Proof.Machine
end

