-- ==== Sys2Proof/Machine/Sched.lean ====
section
/-! DEFINITION. The Pigeonhole scheduler (08 R338-R363): what holds a Letter's start back, dispatch, runs, budgets and wait
limits, the device timetable, and the observables. -/

namespace Sys2Proof.Machine

/-! ### What holds a start back -/

/-- Whether an accepted FENCE holds a Letter back (R75): one accepted earlier, not finished, whose scope takes it in. -/
def fenced (s : State) (l : Letter) : Bool :=
  s.letters.any fun f => f.op == 0x10 && f.phase != .finished && f.ord < l.ord &&
    (f.ch == l.ch || (arg f.l 0x18 1 == 1 && f.pid == l.pid))

/-- What a Letter names, each with whether it changes it (R93): tensors by identifier, plan slots from 2^33, the world epoch
at 2^34. -/
def namedBy (s : State) (l : Letter) : List (Nat × Bool) :=
  match l.op with
  | 0x02 => [(2 ^ 33 + slotArg l, true)]
  | 0x03 => [(2 ^ 33 + slotArg l, true)]
  | 0x04 => (2 ^ 33 + slotArg l, false) :: l.binds.map fun b =>
      (b.tensor, match planOf s l with
        | some p => (tensorDesc p.words b.index).kind != 1
        | none => true)
  | 0x05 => [(arg l.l 0x18 4, true)]
  | 0x06 => [(arg l.l 0x18 4, false)]
  | 0x07 => [(2 ^ 34, true)]
  | 0x08 => [(arg l.l 0x24 4, true), (2 ^ 34, false), (2 ^ 33 + arg l.l 0x1F 1, false)] ++ if arg l.l 0x1D 1 = 0 then [(arg l.l 0x20 4, false)] else []
  | 0x09 => [(arg l.l 0x18 4, false), (arg l.l 0x1C 4, true)]
  | 0x0A => [(arg l.l 0x18 4, false), (arg l.l 0x1C 4, true)]
  | _ => []

/-- Whether a SWEEP waits for a newer epoch (R428). -/
def epochWaits (s : State) (l : Letter) : Bool :=
  l.op == 0x08 && arg l.l 0x30 2 != 0xFFFF && l.phase == .accepted &&
    (fget s Fd.lattice_PUBLISHED = 0 || later 16 (arg l.l 0x30 2) (fget s Fd.lattice_NEWEST_EPOCH))

/-- Whether an earlier Letter of the channel that names the same tensor, slot or epoch has yet to take effect (R93; log entry
55). -/
def ordered (s : State) (l : Letter) : Bool :=
  s.letters.any fun e => e.ch == l.ch && e.ord < l.ord && e.phase != .finished &&
    ((namedBy s e).any fun x => (namedBy s l).any fun y =>
      x.1 == y.1 && (x.2 || y.2) && !(x.1 == 2 ^ 34 && epochWaits s e))

/-- The device range a WRITE_TENSOR writes. -/
def writeRange (s : State) (l : Letter) : Nat × Nat :=
  (((tensorEnt s l.pid (arg l.l 0x18 4)).map (·.addr)).getD 0 + arg l.l 0x28 8, arg l.l 0x30 4)

/-- The device ranges a RUN_PLAN binds. -/
def boundRanges (s : State) (l : Letter) : List (Nat × Nat) :=
  match planOf s l with
  | some p => l.binds.map fun b =>
      (((tensorEnt s l.pid b.tensor).map (·.addr)).getD 0 + b.offset, (tensorDesc p.words b.index).size)
  | none => []

/-- Whether two ranges share a byte. -/
def touches (a b : Nat × Nat) : Bool := a.1 < b.1 + b.2 && b.1 < a.1 + a.2

/-- Whether R215 holds a RUN_PLAN back: it touches a range that an accepted WRITE_TENSOR has not finished. A write that itself
must wait for this run does not. -/
def writePending (s : State) (l : Letter) : Bool :=
  s.letters.any fun w => w.op == 0x05 && w.pid == l.pid && w.phase != .finished &&
    (w.ord < l.ord || (w.ch != l.ch && !fenced s w)) && (boundRanges s l).any (touches (writeRange s w))

/-- Whether R215 holds a WRITE_TENSOR back: its range is bound by a started run that has not finally replied. -/
def runTouches (s : State) (w : Letter) : Bool :=
  s.letters.any fun r => r.op == 0x04 && r.pid == w.pid && r.run.isSome && (boundRanges s r).any (touches (writeRange s w))

/-- Whether an earlier RUN_PLAN of the slot has not finally replied (R214). -/
def slotBusy (s : State) (l : Letter) : Bool :=
  s.letters.any fun e => e.op == 0x04 && slotArg e == slotArg l && e.ord < l.ord

/-- Whether nothing holds a Letter's start back (R75, R93, R107, R109, R215): its ACCEPTED version is committed. -/
def mayStart (s : State) (l : Letter) : Bool :=
  l.phase == .accepted && l.run.isNone && 1 ≤ l.commit && !fenced s l && !ordered s l &&
    (if l.op = 0x04 then !writePending s l else if l.op = 0x05 then !runTouches s l else true)

/-! ### Beginning a run -/

/-- The CRC of a container (R208). -/
def containerCrc (p : List W32) : Nat := crc32c (bytesOfWords (p.set 15 0))

/-- The first free flow slot (R590). -/
def freeFlowSlot (s : State) : Option Nat := (List.range 32).find? fun i => (s.safety.flow.getD i none).isNone

/-- Begin a run (R208, R214, R590): a container whose CRC has changed aborts it before any operator starts. -/
def beginRun (s : State) (l : Letter) (p : PlanSt) : State :=
  let ch := l.ch
  let seq := l.l.seq.toNat
  if containerCrc p.words != p.crc then
    finishLetter (raise s 0x12 0x058 (planClass p.words) l.pid 0) ch seq (Result.plain 0x41 0)
  else
    let n := operatorCount p.words
    let own := if planSafety p.words && !planStrict p.words then freeFlowSlot s else none
    let s := match own with
      | some i => { s with safety := { s.safety with flow := s.safety.flow.set i (some (slotArg l)) } }
      | none => s
    let s := updPlan s (slotArg l) fun p => { p with inner := [] }
    let s := updLetter s ch seq fun l =>
      { l with run := some ⟨now s, List.replicate n .idle, List.replicate n 0, 0, false, false, own⟩ }
    advanceRun s ch seq

/-- The physical units of logical ones (R349); a joiner pair gives its cores (R333). -/
def strictUnits (s : State) (t : Task) (logical : List Nat) : List Nat :=
  logical.flatMap fun u =>
    match physUnit s t.kind u with
    | some i => if t.kind == .joiner then if needsLock t then [2 * i, 2 * i + 1] else [2 * i] else [i]
    | none => []

/-- A Strict operator one of whose fixed units is unserved is not started (R708): its outputs are published INVALID at its start
tick, and its Letter replies UNCORRECTABLE. -/
def skipUnserved (s : State) (t : Task) : State :=
  let s := noteStatus (publishCut s t) t.ch t.seq 0x40 0
  let s := updRun (dropTask s t.id) t.ch t.seq fun r => { r with ops := r.ops.set t.op .skipped }
  advanceRun s t.ch t.seq

/-- Whether slot `k` of the active timetable holds the present tick (R342). -/
def slotOpen (s : State) (k : Nat) : Bool :=
  let c := ttCycle s.sched.active
  k < ttCount s.sched.active && (cyclePos s + c - ttStart s.sched.active k % max 1 c) % max 1 c < ttLen s.sched.active k

/-- The mode the open windows give a logical pair (R335): locked or split; none when no open window names it. -/
def windowMode (s : State) (u : Nat) : Option Nat :=
  ((List.range (ttCount s.sched.active)).find? fun k =>
    ttIsWindow s.sched.active k && slotOpen s k && bit (ttUnits s.sched.active k .joiner) u).map fun k =>
      b2n (ttLocked s.sched.active k u)

/-- Whether both cores of a physical pair are idle. -/
def pairIdle (s : State) (j : Nat) : Bool := !unitBusy s .joiner (2 * j) && !unitBusy s .joiner (2 * j + 1)

/-- The idle pairs of a Strict joiner task take the mode that the timetable gives them (R335). -/
def setModes (s : State) (t : Task) (logical : List Nat) : State :=
  if t.kind == .joiner then
    logical.foldl (fun s u =>
      match physUnit s .joiner u, windowMode s u with
      | some j, some m => if pairIdle s j then fput s (Fd.joiner_MODE j) m else s
      | _, _ => s) s
  else s

/-- Whether each pair of a joiner task is in the mode that its class calls for (R334). -/
def modesFit (s : State) (t : Task) (logical : List Nat) : Bool :=
  t.kind != .joiner || logical.all fun u => (physUnit s .joiner u).all fun j => fget s (Fd.joiner_MODE j) == b2n (needsLock t)

/-- Start a Strict operator on the units LOAD_PLAN fixed for it (R349, R708). An operator whose pair is not in the mode R334 calls for
has no unit that may serve it, and is not started either (log entry 211). -/
def startStrict (s : State) (t : Task) (logical : List Nat) (stop : Nat) : State :=
  let s := setModes s t logical
  if (logical.all fun u => (physUnit s t.kind u).isSome) && modesFit s t logical then startTask s t (strictUnits s t logical) stop
  else skipUnserved s t

/-- STRICT_OPERATOR_START (R353, R591, R708): exactly at run start + OFFSET_PT. In a safety-class run an operator that starts before
those it depends on have completed raises FLOW and its outputs are INVALID; in another run it does not start. Once the
deadline has passed, neither this operator nor a later one starts (R62). -/
def execStrictOperatorStart (ch : Fin 64) (seq : W32) (op : Nat) (s : State) : Host.Outcome State Fault Refusal :=
  match letterOf s ch seq.toNat with
  | none => .next s
  | some l =>
    match l.run, planOf s l with
    | some r, some p =>
      let st := r.ops.getD op .done
      if planStrict p.words && (st == .idle || st == .waiting) && now s == r.start + ptOffset p.words op then
        if pastDeadline s l then .next (advanceRun s ch seq.toNat) else
        let stop := r.start + ptOffset p.words op + ptBudget p.words op
        match s.sched.tasks.find? fun t => t.ch == ch.val && t.seq == seq.toNat && t.op == op && t.disp.isNone with
        | some t => .next (startStrict s t (p.units.getD op []) stop)
        | none =>
          match (planOps p.words)[op]? with
          | some o =>
            if planSafety p.words then
              let t := newTask s ch seq.toNat l.pid op o.code (chanLevel s ch) (opClass p.words o) (taskKind o.code) true
              let t := { t with flags := flagInvalid }
              let s := enterTask (raise s 0x0F 0x058 t.sclass l.pid 0) t
              .next (startStrict s t (p.units.getD op []) stop)
            else .next s
          | none => .next s
      else .next s
    | _, _ => .next s

/-! ### Loose dispatch -/

/-- A number for each unit kind. -/
def kindNo : UnitKind → Nat
  | .truss => 0
  | .scribe => 1
  | .sorter => 2
  | .plane => 3
  | .joiner => 4
  | .courier => 5

/-- Whether a task waits for a Loose dispatch of its kind. -/
def looseWaits (kind : UnitKind) (t : Task) : Bool := !t.strict && t.disp.isNone && t.kind == kind && t.epochSel.isNone

/-- The Loose task that is next for a kind (R354): the highest level, then round-robin by PID from the one after the PID
served last, then the first in the pigeonhole. -/
def nextLoose (s : State) (kind : UnitKind) : Option Task :=
  let ts := s.sched.tasks.filter (looseWaits kind)
  match (List.range 16).find? fun lv => ts.any fun t => t.level == lv with
  | none => none
  | some lv =>
    let last := mapGet 0 s.sched.rr lv
    match ((List.range 16).map fun i => (last + i) % 16).find? fun p => ts.any fun t => t.level == lv && t.pid == p with
    | some p => ts.find? fun t => t.level == lv && t.pid == p
    | none => none

/-- The units a Loose task gets (R355, R434): none when it cannot be granted. -/
def looseUnits (s : State) (t : Task) : Option (List Nat) :=
  match t.kind with
  | .courier => some []
  | .joiner =>
    let pairs := ((List.range 16).filter fun u => u != 0 && !strictHeld s .joiner u).filterMap (physUnit s .joiner)
    (pairs.map (pairCores s t)).find? fun c => !c.isEmpty
  | .truss => let u := freeUnits s .truss; if u.isEmpty then none else some (u.take 8)
  | .scribe =>
    let u := freeUnits s .scribe
    if u.length < (if t.sclass = 0 then 1 else 2) then none else some (u.take 16)
  | k => (freeUnits s k).head?.map fun u => [u]

/-- How a direct SWEEP's EPOCH_SEL stands against the newest epoch (R428, R429): readable now, older, or newer. -/
inductive EpochTest where
  | read | older | newer | absent
  deriving DecidableEq, Repr

/-- Judge the epoch a task reads. -/
def epochTest (s : State) (t : Task) : EpochTest :=
  match letterOf s t.ch t.seq with
  | some l =>
    if l.op = 0x08 then
      let sel := arg l.l 0x30 2
      if fget s Fd.lattice_LAT_EN = 0 || fget s Fd.lattice_PUBLISHED = 0 then .absent
      else if sel = 0xFFFF || sel = fget s Fd.lattice_NEWEST_EPOCH then .read
      else if later 16 sel (fget s Fd.lattice_NEWEST_EPOCH) then .newer else .older
    else .read
  | none => .read

/-- What a passed deadline does to a task at its start (R62, R63, R494): later operators of a run are not started; a direct
Letter writes nothing. -/
def missDeadline (s : State) (t : Task) (l : Letter) : State :=
  if l.run.isSome then advanceRun s t.ch t.seq
  else finishLetter (dropTask s t.id) t.ch t.seq (Result.plain 0x21 (if l.op = 0x0A then 1 else 0))

/-- LOOSE_DISPATCH (R354, R355, R356, R62, R63, R428). -/
def execLooseDispatch (kind : UnitKind) (s : State) : Host.Outcome State Fault Refusal :=
  match nextLoose s kind with
  | none => .next s
  | some t =>
    match looseUnits s t, letterOf s t.ch t.seq with
    | some us, some l =>
      if !domainRuns s (domainOf kind) || s.boot.holdup then .next s
      else if pastDeadline s l then .next (missDeadline s t l)
      else match epochTest s t with
        | .newer => .next (putTask s { t with epochSel := some (arg l.l 0x30 2) })
        | .older => .next (finishLetter (dropTask s t.id) t.ch t.seq (Result.plain 0x20 0))
        | .absent => .next (finishLetter (dropTask s t.id) t.ch t.seq (Result.plain 0x14 0))
        | .read =>
          let s := { s with sched := { s.sched with
            rr := mapPut 0 s.sched.rr t.level ((t.pid + 1) % 16) } }
          .next (startTask s t us (now s + fget s (Fd.sched_LOOSE_BUDGET_PT t.pid)))
    | _, _ => .next s

/-! ### Budgets and wait limits -/

/-- BUDGET_OVERRUN (R356, R357, R359): the tick at which the budget ends is over, so that a completion in it comes first. -/
def execBudgetOverrun (task : Nat) (s : State) : Host.Outcome State Fault Refusal :=
  match taskOf s task with
  | some t =>
    if t.disp.isSome && t.budgetEnd < now s then
      let s := obsInc s (pidObs t.pid 1)
      .next (cutTask (raise s 0x0E 0x058 t.sclass t.pid 0) t (2 ^ 31))
    else .next s
  | none => .next s

/-- WAIT_TIMEOUT (R358, R359): a Loose task removed from its pigeonhole once the tick in which its wait limit ends is over, so
that a dispatch in it comes first. R357 applies, but the count is WAIT_TIMEOUT_COUNT. -/
def execWaitTimeout (task : Nat) (s : State) : Host.Outcome State Fault Refusal :=
  match taskOf s task with
  | some t =>
    if t.disp.isNone && !t.strict && t.epochSel.isNone && t.enter + fget s (Fd.sched_WAIT_LIMIT_PT t.pid) < now s then
      let s := obsInc (obsInc s (32 * holeOf t + 3)) (pidObs t.pid 2)
      .next (cutTask (raise s 0x0E 0x058 t.sclass t.pid 0) t (2 ^ 30))
    else .next s
  | none => .next s

/-- SWEEP_EPOCH_WAIT_END (R428): the epoch awaited has been published, or the deadline or the wait limit has passed. -/
def execSweepEpochWaitEnd (task : Nat) (s : State) : Host.Outcome State Fault Refusal :=
  match taskOf s task with
  | some t =>
    match t.epochSel, letterOf s t.ch t.seq with
    | some sel, some l =>
      if fget s Fd.lattice_PUBLISHED = 1 && !later 16 sel (fget s Fd.lattice_NEWEST_EPOCH) then
        .next (putTask s { t with epochSel := none })
      else if pastDeadline s l then .next (finishLetter (dropTask s t.id) t.ch t.seq (Result.plain 0x21 0))
      else if l.l.deadline = 0 && l.acceptPm + fget s (Fd.sched_WAIT_LIMIT_PT t.pid) < now s then
        let s := obsInc (obsInc s (32 * holeOf t + 3)) (pidObs t.pid 2)
        .next (finishLetter (dropTask s t.id) t.ch t.seq (Result.plain 0x21 (2 ^ 30)))
      else .next s
    | _, _ => .next s
  | none => .next s

/-! ### The device timetable -/

/-- A slot of a timetable under validation. -/
structure TtSlot where
  frame : Nat
  refresh : Bool
  start : Nat
  at_ : Nat
  len : Nat
  w3 : Nat
  w4 : Nat
  deriving DecidableEq, Repr

/-- Slot `k` of a timetable. -/
def ttSlot (tt : List W32) (k : Nat) : TtSlot :=
  ⟨bits (ttWord tt (4 + 5 * k)) 3 0, !ttIsWindow tt k, bits (ttWord tt (4 + 5 * k + 1)) 17 0, ttStart tt k, ttLen tt k,
    ttWord tt (4 + 5 * k + 3), ttWord tt (4 + 5 * k + 4)⟩

/-- Whether two slots share a tick of the cycle. -/
def slotsMeet (cycle : Nat) (a b : TtSlot) : Bool := overlap cycle a.at_ a.len b.at_ b.len

/-- Faults of word 0 and word 1 of the header, and of words 2 and 3 (R343). -/
def headerFaults (s : State) (tt : List W32) : List (Option Nat) :=
  let f := ttFrame tt
  let refreshes := (List.range (ttCount tt)).filter fun k => !ttIsWindow tt k
  let windows := (List.range (ttCount tt)).filter fun k => ttIsWindow tt k
  let same := f == ttFrame s.sched.active && ttFrames tt == ttFrames s.sched.active
  [chk (1000 ≤ f && f ≤ 250000 && bits (ttWord tt 0) 31 22 == 0 && (!anyStrict s || s.sched.active.isEmpty || same)) 0,
    chk (ttCount tt ≤ 512 && bits (ttWord tt 1) 31 10 == 0 && (windows.isEmpty || !refreshes.isEmpty) &&
      (List.range 16).all fun p => !strictPid s p || windows.any fun k => ttPid tt k == p) 1,
    chk (ttWord tt 2 == 0) 2, chk (ttWord tt 3 == 0) 3]

/-- The interval from the start of the previous REFRESH slot, across the end of the cycle (R236). -/
def refreshInterval (tt : List W32) (k : Nat) : Nat :=
  let rs := (List.range (ttCount tt)).filter fun i => !ttIsWindow tt i
  let before := rs.filter fun i => i < k
  let prev := match before.getLast? with
    | some i => i
    | none => rs.getLast?.getD k
  let d := (ttStart tt k + ttCycle tt - ttStart tt prev) % max 1 (ttCycle tt)
  if d = 0 then ttCycle tt else d

/-- Faults of the five words of slot `k` (R236, R343). -/
def slotFaults (s : State) (tt : List W32) (k : Nat) : List (Option Nat) :=
  let b := 4 + 5 * k
  let t := ttSlot tt k
  let w0 := ttWord tt b
  let prev := ttSlot tt (k - 1)
  let earlier := (List.range k).map (ttSlot tt)
  let cyc_ := ttCycle tt
  let hasWindow := (List.range (ttCount tt)).any fun i => ttIsWindow tt i
  let dram := fun (x : TtSlot) => x.refresh || bit x.w3 30
  let i := refreshInterval tt k
  let derate := fget s Fd.dram_REFRESH_DERATE_MAX
  [chk (t.frame < ttFrames tt && bits w0 5 4 ≤ 1 && bits w0 7 6 == 0 && bits w0 31 12 == 0 &&
      (if t.refresh then bits w0 11 8 == 0 else bits w0 11 8 != 0) && (k == 0 || prev.frame ≤ t.frame)) b,
    chk (t.start < ttFrame tt && bits (ttWord tt (b + 1)) 31 18 == 0 &&
      (k == 0 || prev.frame < t.frame || prev.start ≤ t.start) &&
      !(earlier.any fun e => (t.refresh && dram e || e.refresh && dram t) && slotsMeet cyc_ e t) &&
      (!t.refresh || !hasWindow || i ≤ 776 / derate)) (b + 1),
    chk (1 ≤ t.len && t.len ≤ ttFrame tt && bits (ttWord tt (b + 2)) 31 18 == 0 &&
      (!t.refresh || !hasWindow || fget s Fd.dram_REFRESH_UNIT_PT * ceilDiv (i * derate) 97 ≤ t.len)) (b + 2),
    chk (if t.refresh then t.w3 == 0 else !bit t.w3 31 &&
      !(earlier.any fun e => !e.refresh && e.w3 % 2 ^ 30 &&& t.w3 % 2 ^ 30 != 0 && slotsMeet cyc_ e t)) (b + 3),
    chk (if t.refresh then t.w4 == 0 else !bit t.w4 0 && !bit t.w4 16 &&
      !(earlier.any fun e => !e.refresh && e.w4 % 2 ^ 16 &&& t.w4 % 2 ^ 16 != 0 && slotsMeet cyc_ e t)) (b + 4)]

/-- The first word of a timetable that breaks a rule of R343. -/
def ttFault (s : State) (tt : List W32) : Option Nat :=
  let head := headerFaults s tt
  match firstSome (head.take 2) with
  | some w => some w
  | none => firstSome (head ++ (List.range (ttCount tt)).flatMap (slotFaults s tt))

/-- The timetable in the shadow: as many words as its SLOT_COUNT calls for. -/
def shadowTable (s : State) : List W32 :=
  let w1 := (mapGet (0 : W32) s.sched.shadow 1).toNat
  mapRange 0 s.sched.shadow 0 (4 + 5 * bits w1 9 0)

/-- Validate the shadow (R343): COMMIT clears, and TT_ERR tells the outcome; a valid timetable takes effect no earlier than the
next tick (R344). -/
def validate (s : State) : State :=
  let tt := shadowTable s
  let s := fput s Fd.sched_COMMIT 0
  match ttFault s tt with
  | some w => setEvent (fput s Fd.sched_TT_ERR w) 0x058 8
  | none => { fput s Fd.sched_TT_ERR 0xFFFF with sched := { s.sched with valid := some (tt, now s) } }

/-- COMMIT (R343, R363): the write sets the GO bit, and a validation of the shadow begins. It ends at the next PM_CLK edge (log
entry 56); a COMMIT set after that in the same tick begins a new one. -/
def execCommitGo (q : Requester) (v : W32) (be : BitVec 4) (s : State) : Host.Outcome State Fault Refusal :=
  .next (regWrite denyNone s q 0x058 0x048 v be)

/-- The validation under way ends (R343, R344). -/
def endValidation (s : State) : State := if fget s Fd.sched_COMMIT = 1 then validate s else s

/-- Return a Loose task to its pigeonhole, as it was before its dispatch: its units are free, and it will read its inputs again
when it is dispatched (R340; log entry 206). A world build it asked for is withdrawn with it. -/
def returnTask (s : State) (t : Task) : State :=
  let s := putTask s { t with
    disp := none, units := [], ins := [], fins := [], inData := [], flags := 0, outs := [], computed := false, hold := none
    frames := [], stage := [] }
  let gone := fun (b : BuildSrc) => b == .task t.id
  let s : State := { s with
    cores := s.cores.map fun c => if c.task == some t.id then c.fresh else c
    lattice := { s.lattice with
      queue := s.lattice.queue.filter fun b => !gone b
      active := s.lattice.active.bind fun b => if gone b then none else some b } }
  updRun s t.ch t.seq fun r => { r with ops := r.ops.set t.op .waiting }

/-- Whether a task runs on a unit that the active timetable holds (R340). -/
def onHeldUnit (s : State) (t : Task) : Bool :=
  !t.strict && t.disp.isSome && (List.range (unitCount t.kind)).any fun u =>
    strictHeld s t.kind u && ((physUnit s t.kind u).any fun i =>
      if t.kind == .joiner then t.units.any fun c => c / 2 == i else t.units.contains i)

/-- TIMETABLE_ACTIVATE (R344, R340): at the first tick after validation that is a multiple of the new cycle; Strict plans that no
longer pass pass 7 become unfit, and Loose tasks leave the units that the new timetable holds. -/
def execTimetableActivate (s : State) : Host.Outcome State Fault Refusal :=
  match s.sched.valid with
  | none => .next s
  | some (tt, valid) =>
    if now s % max 1 (ttCycle tt) = 0 && valid < now s then
      let s : State := { s with sched := { s.sched with active := tt, valid := none, frameStart := now s } }
      let s := fput (fput s Fd.sched_TT_ACTIVE 1) Fd.sched_FRAME_NOW 0
      let s := (List.range 16).foldl (fun s p => refit s p true) s
      .next ((s.sched.tasks.filter (onHeldUnit s)).foldl returnTask s)
    else .next s

/-- Whether a WINDOW slot, wrapped ones included, holds one of the ticks 0 to 399 of the frame that begins at a position
(R184, R345). -/
def frameTaken (tt : List W32) (pos : Nat) : Bool :=
  (List.range (ttCount tt)).any fun k => ttIsWindow tt k && overlap (ttCycle tt) (ttStart tt k) (ttLen tt k) pos 400

/-- Whether a major frame begins now: at a multiple of FRAME_PT, or at the first tick after one that was stepped over
(R341). -/
def frameDue (s : State) : Bool :=
  let f := ttFrame s.sched.active
  !s.sched.active.isEmpty && f != 0 && (now s % f == 0 || s.sched.frameStart / f < now s / f)

/-- Whether this very tick begins a major frame: a multiple of FRAME_PT, or the first tick after one that was stepped over
(R341). -/
def frameBegins (s : State) : Bool :=
  let f := ttFrame s.sched.active
  f != 0 && (now s % f == 0 || s.time.prev.toNat / f < now s / f)

/-- MAJOR_FRAME_START (R341, R184): the frame's index, the cycle count, and a clock step that waits for such a frame, which
takes place only at the frame's first tick. -/
def execMajorFrameStart (s : State) : Host.Outcome State Fault Refusal :=
  if frameDue s then
    let f := ttFrame s.sched.active
    let idx := now s / f % ttFrames s.sched.active
    let s : State := { s with sched := { s.sched with frameStart := now s } }
    let s := fput s Fd.sched_FRAME_NOW idx
    let s := if idx = 0 then fadd s Fd.sched_CYCLE_COUNT 1 else s
    .next (if s.power.phase == .ready && anyStrict s && frameBegins s && !frameTaken s.sched.active (idx * f) then
      beginRelock s else s)
  else .next s

/-- TIMETABLE_SLOT_START (R341, R342, R335): a WINDOW begins; its idle joiner pairs take the mode it gives them. A REFRESH
slot's commands are REFRESH_SLOT. -/
def execTimetableSlotStart (slot : Nat) (s : State) : Host.Outcome State Fault Refusal :=
  if slotOpen s slot && ttIsWindow s.sched.active slot then
    .next ((List.range 17).foldl (fun s j =>
      let u := fget s (Fd.joiner_LOGICAL j)
      if fget s (Fd.joiner_ROLE j) = 0 && bit (ttUnits s.sched.active slot .joiner) u && pairIdle s j then
        fput s (Fd.joiner_MODE j) (b2n (ttLocked s.sched.active slot u))
      else s) s)
  else .next s

/-- PAIR_MODE_CHANGE (R335): an idle pair takes the mode of its open window, or, in the Loose regime, the one the next
joiner task needs. Logical pair 0 stays locked (R318). -/
def execPairModeChange (pair : Fin 17) (s : State) : Host.Outcome State Fault Refusal :=
  let u := fget s (Fd.joiner_LOGICAL pair)
  if pairIdle s pair && fget s (Fd.joiner_ROLE pair) = 0 && u != 0 then
    if strictHeld s .joiner u then
      match windowMode s u with
      | some m => .next (fput s (Fd.joiner_MODE pair) m)
      | none => .next s
    else match nextLoose s .joiner with
      | some t => .next (fput s (Fd.joiner_MODE pair) (b2n (needsLock t)))
      | none => .next s
  else .next s

/-! ### Data windows -/

/-- Add one to an index field, modulo its width (R737). -/
def stepIndex (s : State) (f : Fld) : State := fadd s f 1

/-- TT_DATA (R363, R740): a read returns the shadow word and advances TT_INDEX; a write stores it and advances, but while
COMMIT is 1 it is ignored and sets BAD_VALUE. A locked page ignores it as any control field. -/
def execTtData (q : Requester) (w : Option W32) (s : State) : Host.Outcome State Fault Refusal :=
  match w with
  | none => .next (regReadThen s q 0x058 0x044 1 fun s =>
      stepIndex (complete s (leBytes 4 (regRead s q 0x058 0x044))) Fd.sched_TT_INDEX)
  | some v =>
    if !writeReaches s q 0x058 0x044 then .next (regWrite denyNone s q 0x058 0x044 v 15)
    else if fget s (Fd.hdr_LOCK 0x058) = 1 then
      .next (if v.toNat = regRead s q 0x058 0x044 then s else countRsvd s 0x058 0x044 0x058)
    else if fget s Fd.sched_COMMIT = 1 then .next (badValue s 0x058)
    else
      let i := fget s Fd.sched_TT_INDEX
      let s := { s with sched := { s.sched with shadow := mapPut 0 s.sched.shadow i v } }
      .next (stepIndex s Fd.sched_TT_INDEX)

/-- OBS_DATA (R360, R362): each access advances OBS_INDEX; a write sets the counter, but a DEPTH entry ignores it. -/
def execObsData (q : Requester) (w : Option W32) (s : State) : Host.Outcome State Fault Refusal :=
  match w with
  | none => .next (regReadThen s q 0x058 0x144 1 fun s =>
      stepIndex (complete s (leBytes 4 (regRead s q 0x058 0x144))) Fd.sched_OBS_INDEX)
  | some v =>
    if !writeReaches s q 0x058 0x144 then .next (regWrite denyNone s q 0x058 0x144 v 15)
    else
      let i := fget s Fd.sched_OBS_INDEX
      let s := if obsIsDepth i || obsReserved i then s else obsPut s i v.toNat
      .next (stepIndex s Fd.sched_OBS_INDEX)

/-- Unit-pt of one tick of every running task (R360): the key is the partition times eight plus the unit kind. -/
def countLoad (s : State) : State :=
  s.sched.tasks.foldl (fun s t =>
    if t.disp.isSome && t.kind != .courier then
      let k := t.pid * 8 + kindNo t.kind
      { s with sched := { s.sched with load := mapPut 0 s.sched.load k (mapGet 0 s.sched.load k + t.units.length) } }
    else s) s

/-- The start of the last latched load window. -/
def obsWindow (s : State) : Nat := fget64 s Fd.sched_OBS_WINDOW_PM_LO Fd.sched_OBS_WINDOW_PM_HI

/-- LOAD_WINDOW_END (R362). -/
def execLoadWindowEnd (s : State) : Host.Outcome State Fault Refusal :=
  let w := now s / 25000
  if s.time.running && 1 ≤ w && (obsWindow s < (w - 1) * 25000 || now s % 25000 = 0) then
    let start := (w - 1) * 25000
    let s := (List.range 16).foldl (fun s p => (List.range 5).foldl (fun s k =>
      obsPut s (pidObs p (4 + k)) (mapGet 0 s.sched.load (p * 8 + k))) s) s
    let s := fput (fput s Fd.sched_OBS_WINDOW_PM_LO (start % 2 ^ 32)) Fd.sched_OBS_WINDOW_PM_HI (start / 2 ^ 32)
    .next { s with sched := { s.sched with load := [] } }
  else .next s

end Sys2Proof.Machine
end

