-- ==== Sys2Proof/Machine/Truss.lean ====
section
/-! DEFINITION. The Truss operators and the completion of a macro-operation (05 R217-R221, 07 R279-R311, 14 R558-R560). -/

namespace Sys2Proof.Machine

/-! ### Tensors as values -/

/-- A tensor of a task as its operator sees it: format, extents and raw elements. -/
structure TVal where
  fmt : Nat
  dims : List Nat
  raw : List Nat

/-- The exact value of an element. -/
def TVal.get (x : TVal) (i : Nat) : Xv := elemValue x.fmt (x.raw.getD i 0)

/-- Every element's exact value. -/
def TVal.vals (x : TVal) : List Xv := x.raw.map (elemValue x.fmt)

/-- The tensor that input `k` of an operator read. -/
def inVal (p : List W32) (o : OpDesc) (t : Task) (k : Nat) : TVal :=
  let d := tensorDesc p (o.ins.getD k 0)
  ⟨d.fmt, d.dims, elems d.fmt (volume d.dims) (t.inData.getD k [])⟩

/-- The tensor that INk of an operator's macro-instruction names (R297, R298). -/
def macVal (p : List W32) (o : OpDesc) (t : Task) (k : Nat) : TVal :=
  inVal p o t ((o.ins.idxOf? ((macroOf p o).ins.getD k 0)).getD 0)

/-- The format and extents of output `k`. -/
def outDesc (p : List W32) (o : OpDesc) (k : Nat) : TensorDesc := tensorDesc p (o.outs.getD k 0)

/-- The values of an output before rounding, rounded once to its format and packed (R217, R289-R291), padded to its size. -/
def packVals (d : TensorDesc) (xs : List Xv) : List Byte := bytesAt (packElems d.fmt (xs.map (roundTo d.fmt))) 0 d.size

/-- Raw elements packed. -/
def packRaw (d : TensorDesc) (xs : List Nat) : List Byte := bytesAt (packElems d.fmt xs) 0 d.size

/-- The output elements of an L0 tile or an output block, as flat indices. -/
def tileElems (p : List W32) (m : Macro) (x : L0Tile) : List Nat :=
  let w := if denseMop m then (denseOf p m).n else (blockShape (dimsOf p (m.outs.getD 0 0))).2
  let h := if denseMop m then (denseOf p m).m else 0
  (List.range x.rows.2).flatMap fun i => (List.range x.cols.2).map fun j => (x.batch * h + x.rows.1 + i) * w + x.cols.1 + j

/-- The NaN values that the `e`-th engine of a task converts to an integer format (R291, R303). -/
def nanShare (s : State) (t : Task) (p : List W32) (o : OpDesc) (d : TensorDesc) (xs : List Xv) (e : Nat) : Nat :=
  let m := macroOf p o
  (((engineTiles (walkTiles s t p m) t.units e).flatMap (tileElems p m)).filter fun i => nanToInt d.fmt (xs.getD i .zero)).length

/-- Count conversions of NaN to an integer format, each on the engine that made it (R291). -/
def countNan (s : State) (t : Task) (p : List W32) (o : OpDesc) (d : TensorDesc) (xs : List Xv) : State :=
  (List.range t.units.length).foldl (fun a e =>
    fadd a (Fd.truss_NAN_TO_INT_COUNT (t.units.getD e 0)) (nanShare s t p o d xs e)) s

/-! ### Shared form of an operator -/

/-- What an operator computes: from the state, its plan, its entry and the task, the contents of its outputs. -/
abbrev OpRule := State → List W32 → OpDesc → Task → State × List (List Byte)

/-- Form a running task's outputs: the task runs an operator of the code, and has not formed them yet. -/
def formOuts (code : Nat) (rule : OpRule) (task : Nat) (s : State) : Host.Outcome State Fault Refusal :=
  match taskOf s task with
  | some t =>
    if t.disp.isSome && !t.computed && t.code == code then
      match opOf s t with
      | some (p, o) =>
        let r := rule s p.words o t
        .next (putTask r.1 { t with outs := r.2, computed := true })
      | none => .next s
    else .next s
  | none => .next s

/-- An operator with one output whose values round to the output's format. -/
def valueRule (f : State → List W32 → OpDesc → Task → List Xv) : OpRule := fun s p o t =>
  let xs := f s p o t
  let d := outDesc p o 0
  (countNan s t p o d xs, [packVals d xs])

/-- FINISH_REV of the task's engine (R296). -/
def finishRev (s : State) (t : Task) : Nat := fget s (Fd.truss_FINISH_REV (t.units.headD 0))

/-- The operator's Finish function on a result (R293). -/
def fused (s : State) (o : OpDesc) (t : Task) (x : Xv) : Xv := withFinish (finishRev s t) o.finishFn x

/-! ### Faults in accumulators and lanes -/

/-- The weight of an accumulator's least significant bit, as its denominator (R281, R285). -/
def lsbDen (fmt : Nat) : Nat :=
  match fmt with
  | 0x08 => 2 ^ 18
  | 0x09 => 2 ^ 32
  | 0x0A => 2 ^ 48
  | 0x0B => 2 ^ 266
  | 0x0C => 2 ^ 149
  | _ => 1

/-- What a fault adds to an accumulator or lane: a multiple of its least significant bit, or a NaN or infinite product. -/
def laneTerm (den : Nat) (f : LaneFault) : Xv :=
  match f.kind with
  | .sum v => .fin (v < 0) v.natAbs den
  | .nan => .nan
  | .inf neg => .inf neg

/-- What faults add to one lane of a tile before a reduction step. -/
def laneTerms (fs : List LaneFault) (den tile : Nat) (l : Lane) (step : Nat) : List Xv :=
  (fs.filter fun f => f.tile == tile && f.lane == l && f.step < step).map (laneTerm den)

/-- What faults add to the accumulator of an output element in a number of steps, wherever its tile lies. -/
def cellTerms (fs : List LaneFault) (den steps : Nat) (tiles : List L0Tile) (batch i j : Nat) : List Xv :=
  (fs.filter fun f => f.step < steps &&
    match tiles[f.tile]?, f.lane with
    | some x, .cell a b => x.batch == batch && x.rows.1 + a == i && x.cols.1 + b == j && a < x.rows.2 && b < x.cols.2
    | _, _ => false).map (laneTerm den)

/-! ### Dense -/

/-- The per-channel scale of channel `f`: exactly 1 when IN2 is 0xFFFF (R282). -/
def scaleOf (p : List W32) (o : OpDesc) (t : Task) (f : Nat) : Xv :=
  if noRole (macroOf p o) 2 then .one else (macVal p o t 2).get f

/-- The element of A at a batch, row, reduction index and column; padding reads as 0 (R299). -/
def denseA (p : List W32) (o : OpDesc) (t : Task) (q i k j : Nat) : Xv :=
  match aElem p (macroOf p o) q i k j with
  | some e => (macVal p o t 0).get e
  | none => .zero

/-- The element of B at a batch, reduction index and column (R299). -/
def denseB (p : List W32) (o : OpDesc) (t : Task) (q k j : Nat) : Xv := (macVal p o t 1).get (bElem p (macroOf p o) q k j)

/-- One product of a dense macro-operation, held exactly (R281, R283). -/
def denseProduct (p : List W32) (o : OpDesc) (t : Task) (q i k j : Nat) : Xv :=
  mulElems (macVal p o t 0).fmt (macVal p o t 1).fmt (denseA p o t q i k j) (denseB p o t q k j)

/-- MM and CONV (R281, R282, R299): each output the exact sum of products times the channel's scale. -/
def denseVals (fs : List LaneFault) (s : State) (p : List W32) (o : OpDesc) (t : Task) : List Xv :=
  let m := macroOf p o
  let d := denseOf p m
  let tiles := walkTiles s t p m
  (List.range d.batch).flatMap fun q => (List.range d.m).flatMap fun i => (List.range d.n).map fun j =>
    let sum := exactSum ((List.range d.k).map (denseProduct p o t q i · j) ++ cellTerms fs (lsbDen (macVal p o t 0).fmt) d.k tiles q i j)
    fused s o t (sum.mul (scaleOf p o t j))

/-- MATMUL (R299). -/
def execMatmul (task : Nat) (s : State) : Host.Outcome State Fault Refusal := formOuts 0x010 (valueRule (denseVals [])) task s

/-- BATCH_MATMUL (R299). -/
def execBatchMatmul (task : Nat) (s : State) : Host.Outcome State Fault Refusal := formOuts 0x011 (valueRule (denseVals [])) task s

/-- CONV2D (R299). -/
def execConv2d (task : Nat) (s : State) : Host.Outcome State Fault Refusal := formOuts 0x012 (valueRule (denseVals [])) task s

/-- DWCONV2D (R299). -/
def execDwconv2d (task : Nat) (s : State) : Host.Outcome State Fault Refusal := formOuts 0x013 (valueRule (denseVals [])) task s

/-! ### Pointwise -/

/-- The two elements that element `i` of a broadcast operation combines (05, ADD). -/
def pairAt (p : List W32) (o : OpDesc) (t : Task) (i : Nat) : Xv × Xv :=
  let x := macVal p o t 0
  let y := macVal p o t 1
  let c := coords (outDesc p o 0).dims i
  (x.get (flatIndex x.dims (broadcastCoords x.dims c)), y.get (flatIndex y.dims (broadcastCoords y.dims c)))

/-- Apply a function to two broadcast operands, element by element of the output (05, ADD). -/
def pairVals (f : Nat → Xv → Xv → Xv) (s : State) (p : List W32) (o : OpDesc) (t : Task) : List Xv :=
  (List.range (volume (outDesc p o 0).dims)).map fun i => fused s o t (f i (pairAt p o t i).1 (pairAt p o t i).2)

/-- What faults add to the accumulator of element `i` of an output that is cut into blocks. -/
def blockTerms (fs : List LaneFault) (s : State) (p : List W32) (o : OpDesc) (t : Task) (i : Nat) : List Xv :=
  let w := (blockShape (dimsOf p ((macroOf p o).outs.getD 0 0))).2
  cellTerms fs (lsbDen (macVal p o t 0).fmt) 1 (walkTiles s t p (macroOf p o)) 0 (i / w) (i % w)

/-- The exact sums of ADD. -/
def addVals (fs : List LaneFault) (s : State) (p : List W32) (o : OpDesc) (t : Task) : List Xv :=
  pairVals (fun i a b => exactSum (a :: b :: blockTerms fs s p o t i)) s p o t

/-- The exact products of MUL; two integers have no −0 (R283). -/
def mulVals (s : State) (p : List W32) (o : OpDesc) (t : Task) : List Xv :=
  pairVals (fun _ a b => mulElems (macVal p o t 0).fmt (macVal p o t 1).fmt a b) s p o t

/-- ADD (R285): the exact sum, rounded once. -/
def execAdd (task : Nat) (s : State) : Host.Outcome State Fault Refusal :=
  formOuts 0x030 (valueRule (addVals [])) task s

/-- MUL (R217): the exact product, rounded once. -/
def execMul (task : Nat) (s : State) : Host.Outcome State Fault Refusal := formOuts 0x031 (valueRule mulVals) task s

/-- CONVERT (R217): each element rounded to the output format. -/
def execConvert (task : Nat) (s : State) : Host.Outcome State Fault Refusal :=
  formOuts 0x032 (valueRule fun s p o t => (macVal p o t 0).vals.map (fused s o t)) task s

/-- A clamp bound, in the output's numeric type (07, CVT). -/
def clampBound (fmt w : Nat) : Xv := if fmtFloat fmt then floatValue fp32 w else .ofInt (toSigned 32 w)

/-- CLAMP (R297). -/
def execClamp (task : Nat) (s : State) : Host.Outcome State Fault Refusal :=
  formOuts 0x033 (valueRule fun s p o t =>
    let m := macroOf p o
    let lo := clampBound (outDesc p o 0).fmt m.p0
    let hi := clampBound (outDesc p o 0).fmt m.p1
    (macVal p o t 0).vals.map fun x => fused s o t (if x.lt lo then lo else if hi.lt x then hi else x)) task s

/-- FINISH (R293, R294): the entry's Finish function of each element. -/
def execFinish (task : Nat) (s : State) : Host.Outcome State Fault Refusal :=
  formOuts 0x034 (valueRule fun s p o t => (macVal p o t 0).vals.map (fused s o t)) task s

/-! ### Reductions -/

/-- The values of each group of a reduction. -/
def groups (mask : Nat) (x : TVal) : List (List Xv) :=
  (List.range (volume (reduceDims mask x.dims))).map fun g => (groupOfOut mask x.dims g).map x.get

/-- The exact partials of a reduction: the sum of each group (R285). -/
def partials (fs : List LaneFault) (s : State) (p : List W32) (o : OpDesc) (t : Task) : List Xv :=
  let gs := groups (macroOf p o).p0 (macVal p o t 0)
  (List.range gs.length).map fun i => exactSum (gs.getD i [] ++ blockTerms fs s p o t i)

/-- SUM (R285): the exact sum of each group, rounded once. -/
def execSum (task : Nat) (s : State) : Host.Outcome State Fault Refusal := formOuts 0x040 (valueRule (partials [])) task s

/-- MEAN (R285): the exact sum of each group over its count. -/
def meanVals (fs : List LaneFault) (s : State) (p : List W32) (o : OpDesc) (t : Task) : List Xv :=
  (partials fs s p o t).map fun v => v.divNat (maskedVolume (macroOf p o).p0 (macVal p o t 0).dims)

/-- MEAN (R285): the exact sum over the count, rounded once. -/
def execMean (task : Nat) (s : State) : Host.Outcome State Fault Refusal := formOuts 0x042 (valueRule (meanVals [])) task s

/-- The element of a group that totalOrder selects, the lowest index on ties: its place in the group (07). -/
def pickOf (isMin : Bool) (keys : List Int) : Nat :=
  (List.range keys.length).foldl (fun b i =>
    let k := keys.getD i 0
    let best := keys.getD b 0
    if (if isMin then k < best else best < k) then i else b) 0

/-- MAX, MIN (R292): the selected element converted to the output format, and its place in the group as INT32; OUT0 and OUT1 tell
which output is which. -/
def maxMinRule : OpRule := fun s p o t =>
  let m := macroOf p o
  let x := macVal p o t 0
  let picks := (List.range (volume (reduceDims m.p0 x.dims))).map fun g =>
    let idx := groupOfOut m.p0 x.dims g
    let k := pickOf (m.subop == 3) (idx.map fun i => totalKey x.fmt (x.raw.getD i 0))
    (x.get (idx.getD k 0), k)
  let vals := picks.map (·.1)
  let d := tensorDesc p (m.outs.getD 0 0)
  (countNan s t p o d vals, o.outs.map fun i =>
    if i == m.outs.getD 0 0 then packVals d vals else packRaw (tensorDesc p i) (picks.map (·.2)))

/-- MAX_MIN (R292). -/
def execMaxMin (task : Nat) (s : State) : Host.Outcome State Fault Refusal := formOuts 0x041 maxMinRule task s

/-- NORMALIZE (R297): (x − mean) · RECIP_SQRT(variance + epsilon) · gamma + beta, from exact moments, rounded once (log entry
57). -/
def normVals (s : State) (p : List W32) (o : OpDesc) (t : Task) : List Xv :=
  let m := macroOf p o
  let x := macVal p o t 0
  let gamma := macVal p o t 1
  let beta := macVal p o t 2
  let stats := (groups m.p0 x).map fun g =>
    let mean := (exactSum g).divNat g.length
    let var := (exactSum (g.map fun v => let e := exactSum [v, mean.neg]; e.mul e)).divNat g.length
    (mean, finishValue (finishRev s t) 8 (roundFloat fp32 (exactSum [var, floatValue fp32 m.p1])))
  (List.range (volume x.dims)).map fun i =>
    let q := placeOf m.p0 x.dims i
    let st := stats.getD q.1 (.zero, .zero)
    let y := ((exactSum [x.get i, st.1.neg]).mul st.2).mul (gamma.get q.2)
    fused s o t (exactSum [y, beta.get q.2])

/-- NORMALIZE (R297). -/
def execNormalize (task : Nat) (s : State) : Host.Outcome State Fault Refusal := formOuts 0x043 (valueRule normVals) task s

/-- SOFTMAX (R297): EXP of each element over the exact sum of its group, rounded once. A sum of zero has no quotient: its elements
take a free value of the output's format, one for each revision, format and element's encoding (log entry 57). -/
def softmaxRule : OpRule := fun s p o t =>
  let m := macroOf p o
  let x := macVal p o t 0
  let e := x.vals.map fun v => finishValue (finishRev s t) 7 (roundFloat fp32 v)
  let sums := (List.range (volume (reduceDims m.p0 x.dims))).map fun g =>
    exactSum ((groupOfOut m.p0 x.dims g).map fun i => e.getD i .zero)
  let d := outDesc p o 0
  let ys := (List.range (volume x.dims)).map fun i =>
    ((e.getD i .zero).div (sums.getD (placeOf m.p0 x.dims i).1 .zero)).map (fused s o t)
  let raw := (List.range ys.length).map fun i =>
    match ys.getD i none with
    | some v => roundTo d.fmt v
    | none => Config.zeroSum (finishRev s t) d.fmt (x.raw.getD i 0) % 2 ^ fmtBits d.fmt
  (countNan s t p o d (ys.map (·.getD .zero)), [packRaw d raw])

/-- SOFTMAX (R297). -/
def execSoftmax (task : Nat) (s : State) : Host.Outcome State Fault Refusal := formOuts 0x044 softmaxRule task s

/-! ### Layout and random numbers -/

/-- The source of element `i` of a TRANSPOSE: output dimension d is source dimension field d of P0 (R297). -/
def transposeFrom (p : List W32) (o : OpDesc) (t : Task) (i : Nat) : Nat :=
  let x := macVal p o t 0
  let q := permOf (macroOf p o).p0 x.dims.length
  let c := coords (outDesc p o 0).dims i
  flatIndex x.dims ((List.range x.dims.length).map fun k => c.getD ((q.idxOf? k).getD 0) 0)

/-- An element's bits with what faults add to it. -/
def faultyBits (w v : Nat) (l : List Xv) : Nat :=
  l.foldl (fun v x => match x with
    | .fin s n _ => ofSigned w (signed s n + (v : Int))
    | _ => v) v

/-- The elements of a TRANSPOSE as they arrive. -/
def transposeRaw (fs : List LaneFault) (s : State) (p : List W32) (o : OpDesc) (t : Task) : List Nat :=
  let d := outDesc p o 0
  (List.range (volume d.dims)).map fun i =>
    faultyBits (fmtBits d.fmt) ((macVal p o t 0).raw.getD (transposeFrom p o t i) 0) (blockTerms fs s p o t i)

/-- TRANSPOSE (R297): elements are moved unchanged. -/
def transposeRule (fs : List LaneFault) : OpRule := fun s p o t => (s, [packRaw (outDesc p o 0) (transposeRaw fs s p o t)])

/-- TRANSPOSE (R297). -/
def execTranspose (task : Nat) (s : State) : Host.Outcome State Fault Refusal := formOuts 0x021 (transposeRule []) task s

/-- Word for element `e` of RAND (R558). -/
def randWord (m : Macro) (e : Nat) : Nat :=
  (genBlock (m.p1 * 2 ^ 32 + m.p0) (e / 4 % 2 ^ 32) (0x100 + m.subop) (m.p2 % 4096) 0).getD (e % 4) 0

/-- p = (2k + 1) × 2^−24 (R559). -/
def randP (u : Nat) : Xv := .fin false (2 * (u / 2 ^ 9) + 1) (2 ^ 24)

/-- RANDOM_UNIFORM (R558, R559). -/
def execRandomUniform (task : Nat) (s : State) : Host.Outcome State Fault Refusal :=
  formOuts 0x090 (fun s p o _ =>
    let d := outDesc p o 0
    let us := (List.range (volume d.dims)).map (randWord (macroOf p o))
    (s, [packRaw d (if d.fmt = 0x07 then us else us.map fun u => roundTo d.fmt (randP u))])) task s

/-- RANDOM_NORMAL (R558, R559): INV_NORMAL_CDF at p. -/
def execRandomNormal (task : Nat) (s : State) : Host.Outcome State Fault Refusal :=
  formOuts 0x091 (valueRule fun s p o t =>
    (List.range (volume (outDesc p o 0).dims)).map fun e =>
      finishValue (finishRev s t) 11 (roundFloat fp32 (randP (randWord (macroOf p o) e)))) task s

/-! ### The tally check -/

/-- A sum as a data cell or a checksum lane holds it: exact, with the counts of NaN, +∞ and −∞ products (R308). -/
structure Tally where
  sum : Frac
  nan : Nat
  pinf : Nat
  ninf : Nat
  deriving DecidableEq, Repr

/-- Nothing. -/
def Tally.zero : Tally := ⟨(0, 1), 0, 0, 0⟩

/-- Two sums together. -/
def Tally.plus (a b : Tally) : Tally := ⟨fracAdd a.sum b.sum, a.nan + b.nan, a.pinf + b.pinf, a.ninf + b.ninf⟩

/-- One term. -/
def Tally.one (x : Xv) : Tally :=
  match x with
  | .nan => { Tally.zero with nan := 1 }
  | .inf false => { Tally.zero with pinf := 1 }
  | .inf true => { Tally.zero with ninf := 1 }
  | .fin s n d => { Tally.zero with sum := (signed s n, d) }

/-- The sum of sums. -/
def Tally.total (l : List Tally) : Tally := l.foldl Tally.plus Tally.zero

/-- The sum of terms. -/
def Tally.of (l : List Xv) : Tally := Tally.total (l.map Tally.one)

/-- The comparison of R307: of the exact sums, or of the counts where a NaN or infinite product is present (R308). -/
def Tally.agrees (a b : Tally) : Bool :=
  if a.nan + a.pinf + a.ninf + b.nan + b.pinf + b.ninf = 0 then a.sum.1 * (b.sum.2 : Int) == b.sum.1 * (a.sum.2 : Int)
  else a.nan == b.nan && a.pinf == b.pinf && a.ninf == b.ninf

/-- The finite part of a value as a fraction. -/
def Xv.frac : Xv → Frac
  | .fin s n d => (signed s n, d)
  | _ => (0, 1)

/-- The exact inner sum that a checksum lane forms of one operand (R307). -/
def innerSum (l : List Xv) : Frac := l.foldl (fun a x => fracAdd a x.frac) (0, 1)

/-- A checksum lane: the sum over the steps of inner sum times element, and the counts of its products. -/
def laneTally (steps : List (List Xv × Xv)) (products : List Xv) : Tally :=
  let sum := steps.foldl (fun a x => let f := innerSum x.1; fracAdd a (f.1 * x.2.frac.1, f.2 * x.2.frac.2)) (0, 1)
  { Tally.of products with sum := sum }

/-- The tile with the number given: data cell P[i][j], checksum row R[j] and checksum column Q[i] after `e` reduction steps, each with
what faults have added to it (R307, R313). Rows and columns are numbered within the tile. A depthwise convolution's columns each
take their own channel, and its checksum column sums the products themselves (log entry 213). -/
structure TileSums where
  cell : Nat → Nat → Tally
  row : Nat → Tally
  col : Nat → Tally

/-- The sums of an L0 tile after `e` steps. -/
def tileSums (fs : List LaneFault) (p : List W32) (o : OpDesc) (t : Task) (n : Nat) (x : L0Tile) (e : Nat) : TileSums :=
  let den := lsbDen (macVal p o t 0).fmt
  let ks := List.range e
  let is := (List.range x.rows.2).map (x.rows.1 + ·)
  let js := (List.range x.cols.2).map (x.cols.1 + ·)
  let bad := fun l => Tally.of (laneTerms fs den n l e)
  { cell := fun i j => (Tally.of (ks.map (denseProduct p o t x.batch (x.rows.1 + i) · (x.cols.1 + j)))).plus (bad (.cell i j))
    row := fun j => (laneTally (ks.map fun k => (is.map (denseA p o t x.batch · k (x.cols.1 + j)), denseB p o t x.batch k (x.cols.1 + j)))
      (ks.flatMap fun k => is.map (denseProduct p o t x.batch · k (x.cols.1 + j)))).plus (bad (.row j))
    col := fun i =>
      let products := ks.flatMap fun k => js.map (denseProduct p o t x.batch (x.rows.1 + i) k)
      (if (macroOf p o).dw then Tally.of products
        else laneTally (ks.map fun k => (js.map (denseB p o t x.batch k), denseA p o t x.batch (x.rows.1 + i) k 0)) products).plus
          (bad (.col i)) }

/-- The three identities of R307 at one comparison. -/
def identitiesHold (v : TileSums) (m n : Nat) : Bool :=
  let is := List.range m
  let js := List.range n
  js.all (fun j => (Tally.total (is.map fun i => v.cell i j)).agrees (v.row j)) &&
    is.all (fun i => (Tally.total (js.map fun j => v.cell i j)).agrees (v.col i)) &&
    (Tally.total (is.map v.col)).agrees (Tally.total (js.map v.row))

/-- The steps after which an L0 tile compares: every 4,096, and the end of the tile (R307). -/
def comparisons (k : Nat) : List Nat := (List.range (k / 4096)).map (fun i => (i + 1) * 4096) ++ [k]

/-- The tally of an output block of another MOP (R309): what the block holds against what it comes from, as pairs of exact
sums. The source sums of a block are its lanes .row 0 and .col 0. -/
def blockSums (fs : List LaneFault) (s : State) (p : List W32) (o : OpDesc) (t : Task) (n : Nat) (x : L0Tile) :
    List (Tally × Tally) :=
  let m := macroOf p o
  let es := tileElems p m x
  let bad := fun l => Tally.of (laneTerms fs (lsbDen (macVal p o t 0).fmt) n l 1)
  match m.mop with
  | 0x03 =>
    let cells := es.map fun e => Tally.of ((pairAt p o t e).1 :: (pairAt p o t e).2 :: blockTerms fs s p o t e)
    [(Tally.total cells, ((Tally.of (es.map fun e => (pairAt p o t e).1)).plus (Tally.of (es.map fun e => (pairAt p o t e).2))).plus
      (bad (.row 0)))]
  | 0x06 =>
    let group := fun e => (groupOfOut m.p0 (macVal p o t 0).dims e).map (macVal p o t 0).get
    let cells := es.map fun e => Tally.of (group e ++ blockTerms fs s p o t e)
    [(Tally.total cells, (Tally.of (es.flatMap group)).plus (bad (.row 0)))]
  | 0x09 =>
    let got := es.map fun e => (transposeRaw fs s p o t).getD e 0
    let src := es.map fun e => (macVal p o t 0).raw.getD (transposeFrom p o t e) 0
    let plain := fun (l : List Nat) => Tally.of (l.map fun v => Xv.ofInt (v : Nat))
    let weighed := fun (l : List Nat) => Tally.of ((List.range l.length).map fun i => Xv.ofInt (i * l.getD i 0 : Nat))
    [(plain got, (plain src).plus (bad (.row 0))), (weighed got, (weighed src).plus (bad (.col 0)))]
  | _ => []

/-- Whether a macro-operation's MOP carries a tally (R309): MM, CONV, EWISE ADD, RED SUM and MEAN, XPOSE. -/
def hasTally (m : Macro) : Bool := denseMop m || (m.mop == 0x03 && m.subop == 0) || (m.mop == 0x06 && m.subop ≤ 1) || m.mop == 0x09

/-- Whether tile or block `n` of a macro-operation fails its tally (R307-R309). -/
def tallyFails (fs : List LaneFault) (s : State) (p : List W32) (o : OpDesc) (t : Task) (n : Nat) : Bool :=
  let m := macroOf p o
  match (walkTiles s t p m)[n]? with
  | some x =>
    if denseMop m then (comparisons (denseOf p m).k).any fun e => !identitiesHold (tileSums fs p o t n x e) x.rows.2 x.cols.2
    else hasTally m && (blockSums fs s p o t n x).any fun q => !q.1.agrees q.2
  | none => false

/-! ### The residue check -/

/-- The mod-3 residue of a rounded result (R309; log entry 213). -/
def residue3 (v : Nat) : Nat := v % 3

/-- A fault of the rounding stage: the encoding that leaves it. -/
def roundLeaves (f : RoundFault) (w v : Nat) : Nat := ofSigned w ((v : Int) + f.delta)

/-- Whether tile or block `n` fails its residue check: a result leaves the rounding stage with another residue than it entered
with. -/
def residueFails (rs : List RoundFault) (p : List W32) (o : OpDesc) (t : Task) (n : Nat) (x : L0Tile) : Bool :=
  let d := tensorDesc p ((macroOf p o).outs.getD 0 0)
  let w := fmtBits d.fmt
  let raw := elems d.fmt (volume d.dims) (t.outs.getD ((o.outs.idxOf? ((macroOf p o).outs.getD 0 0)).getD 0) [])
  (tileElems p (macroOf p o) x).any fun e =>
    rs.any fun f => f.tile == n && f.elem == e && residue3 (roundLeaves f w (raw.getD e 0)) != residue3 (raw.getD e 0)

/-! ### Completion -/

/-- The outputs of a macro-operation whose accumulators have met faults: what its arithmetic then forms. -/
def faultyOuts (fs : List LaneFault) (s : State) (p : List W32) (o : OpDesc) (t : Task) : List (List Byte) :=
  let m := macroOf p o
  if fs.isEmpty then t.outs
  else if denseMop m then (valueRule (denseVals fs) s p o t).2
  else if m.mop == 0x03 && m.subop == 0 then (valueRule (addVals fs) s p o t).2
  else if m.mop == 0x06 && m.subop == 0 then (valueRule (partials fs) s p o t).2
  else if m.mop == 0x06 && m.subop == 1 then (valueRule (meanVals fs) s p o t).2
  else if m.mop == 0x09 then (transposeRule fs s p o t).2
  else t.outs

/-- An output after the faults of the rounding stage. -/
def roundedOuts (rs : List RoundFault) (p : List W32) (o : OpDesc) (outs : List (List Byte)) : List (List Byte) :=
  if rs.isEmpty then outs
  else
    let i := (macroOf p o).outs.getD 0 0
    let d := tensorDesc p i
    let k := (o.outs.idxOf? i).getD 0
    let raw := elems d.fmt (volume d.dims) (outs.getD k [])
    outs.set k (packRaw d ((List.range raw.length).map fun e =>
      (rs.filter fun f => f.elem == e).foldl (fun v f => roundLeaves f (fmtBits d.fmt) v) (raw.getD e 0)))

/-- Which engines of a task have a tile or block that fails a check. -/
def failingUnits (s : State) (t : Task) (p : List W32) (o : OpDesc) (bad : Nat → L0Tile → Bool) : List Nat :=
  let tiles := walkTiles s t p (macroOf p o)
  t.units.filter fun u => (List.range tiles.length).any fun n =>
    engineAt t.units tiles.length n == u && (tiles[n]?).any (bad n)

/-- A mismatch an engine reports (R310): its counter, its EVENT bit, the fault, and the Letter UNCORRECTABLE. -/
def engineMismatch (s : State) (t : Task) (u : Nat) (count : Fld) (ev cls : Nat) : State :=
  let s := setEvent (fadd s count 1) (0x010 + u) ev
  noteStatus (raise s cls (0x010 + u) t.sclass t.pid 0) t.ch t.seq 0x40 0

/-- The checks of a macro-operation on each of its engines (R307-R310): the state after the reports, whether some check failed, and
the outputs as they leave. -/
def checkEngines (s : State) (t : Task) (p : List W32) (o : OpDesc) (fs : List LaneFault) (rs : List RoundFault) : State × Task :=
  let tally := failingUnits s t p o fun n _ => tallyFails fs s p o t n
  let outs := faultyOuts fs s p o t
  let round := failingUnits s t p o (residueFails rs p o { t with outs := outs })
  let s := tally.foldl (fun s u => engineMismatch s t u (Fd.truss_TALLY_MISMATCH_COUNT u) 8 0x04) s
  let s := round.foldl (fun s u => engineMismatch s t u (Fd.truss_RESIDUE_ERR_COUNT u) 9 0x05) s
  (s, { t with
    outs := roundedOuts rs p o outs
    flags := t.flags ||| if tally.isEmpty && round.isEmpty then 0 else flagInvalid })

/-- Reduction steps of a tile, in cycles: ceil(K / s), s the rate of the input format (R279, R304). -/
def tileCycles (fmt k : Nat) : Nat := if fmt = 0x01 then ceilDiv k 2 else if fmt = 0x0A || fmt = 0x0B then 4 * k else k

/-- The counters of a completed macro-operation: MOP_COUNT and, for a dense one, BUSY_CYCLES of each engine that took a tile of it;
HINT_IGNORED_COUNT of the engine granted first (R302, R304, R312; log entries 180 and 214). -/
def countMop (s : State) (t : Task) (p : List W32) (o : OpDesc) : State :=
  let m := macroOf p o
  let tiles := walkTiles s t p m
  let s := fadd s (Fd.truss_HINT_IGNORED_COUNT (t.units.headD 0)) (hintsIgnored s p t m)
  (List.range t.units.length).foldl (fun s e =>
    let u := t.units.getD e 0
    let n := (engineTiles tiles t.units e).length
    if n = 0 then s
    else
      let s := fadd s (Fd.truss_MOP_COUNT u) 1
      if denseMop m then fadd s (Fd.truss_BUSY_CYCLES u) (n * tileCycles (roleDesc p m 0).fmt (denseOf p m).k) else s) s

/-- The filter whose stream a docket is of (R390). -/
def filterOfDocket (s : State) (d : Docket) : Option Nat :=
  (List.range 32).find? fun i => fget s (Fd.intake_PID (i / 4) (i % 4)) == d.pid.toNat &&
    fget s (Fd.intake_STREAM (i / 4) (i % 4)) == d.stream.toNat

/-- The inputs of an operator that an UNPACK_FRAME of the plan writes, each with its filter, docket and whether its trailer is
the postcard that the docket calls for (R390). -/
def trailers (s : State) (p : PlanSt) (o : OpDesc) : List (Option Nat × Docket × Bool) :=
  (o.ins.filter fun i => (planOps p.words).any fun w => w.code == 0x026 && w.outs.contains i).filterMap fun i =>
    (mapFind p.inner i).map fun e =>
      let f := filterOfDocket s e.2
      let want := f.map fun n => postcard (n / 4) (n % 4) e.2.epoch.toNat e.2.postmark.toNat
      (f, e.2, want == some (bytesAt e.1 (tensorDesc p.words i).size 256))

/-- A postcard mismatch (R391). A docket of no filter's stream matches no postcard; its report names the engine. -/
def postcardFail (t : Task) (s : State) (x : Option Nat × Docket × Bool) : State :=
  let cls := x.2.1.sclass.toNat
  let s := match x.1 with
    | some n => raise (setEvent (fadd s (Fd.intake_POSTCARD_FAIL_COUNT (n / 4)) 1) (0x070 + n / 4) 16) 0x09 (0x070 + n / 4) cls t.pid 0
    | none => raise s 0x09 (taskPage t) cls t.pid 0
  noteStatus s t.ch t.seq 0x40 0

/-- The postcard checks of a macro-operation (R390, R391): the failures. -/
def badTrailers (s : State) (t : Task) : List (Option Nat × Docket × Bool) :=
  match opOf s t with
  | some (p, o) => (trailers s p o).filter fun x => !x.2.2
  | none => []

/-- The end of a task that an undefined case aborts: outputs INVALID, the Letter INSTR_FAULT (R209, R388). -/
def abortTask (s : State) (t : Task) : State := completeTask (publishCut (instrFault (countTrap s t) t) t) t

/-- Whether a task's macro-instruction is undefined, or does not serve its operator (R209, R297). -/
def undefinedMacro (p : List W32) (o : OpDesc) : Bool :=
  (macroFault p (codeWord p o)).isSome || !mopServes (macroOf p o) o.code

/-- MACRO_OPERATION_COMPLETE (R304, R306, R310, R390): the macro-operation's outputs are written and published, INVALID without
POISON after a tally or residue mismatch. An undefined macro-instruction aborts the task (R209). Outputs wait for LPDDR5X time
(R245, R248). -/
def execMacroOperationComplete (task : Nat) (faults : List LaneFault) (rounds : List RoundFault) (s : State) :
    Host.Outcome State Fault Refusal :=
  match taskOf s task with
  | some t =>
    if t.kind == .truss && t.disp.isSome then
      match opOf s t with
      | some (p, o) =>
        if undefinedMacro p.words o then .next (abortTask s t)
        else if t.computed && dramReady s t then
          let s := countMop s t p.words o
          let r := checkEngines s t p.words o faults rounds
          let cards := badTrailers r.1 t
          let s := cards.foldl (postcardFail t) r.1
          let t := { r.2 with flags := r.2.flags ||| if cards.isEmpty then 0 else flagInvalid }
          let w := walkOut (putTask s t) t
          .next (completeTask (publishPorts w.1 t w.2 none []) t)
        else .next s
      | none => .next s
    else .next s
  | none => .next s

end Sys2Proof.Machine
end

