-- ==== Sys2Proof/Machine/Sorter.lean ====
section
/-! DEFINITION. The Sorter (11 R442-R469): ordinals, top-k, sorting, compaction, the mass record, and the end of a Sorter task. -/

namespace Sys2Proof.Machine

/-! ### Keys -/

/-- Bits of a key type. -/
def keyWidth (kt : Nat) : Nat := 8 * keyBytes kt

/-- The ordinal of a key (R443). -/
def ordOf (kt v : Nat) : Nat :=
  let w := keyWidth kt
  let v := v % 2 ^ w
  if kt = 2 || kt = 4 then v
  else if kt = 1 || kt = 3 then v ^^^ 2 ^ (w - 1)
  else if bit v (w - 1) then 2 ^ w - 1 - v
  else v + 2 ^ (w - 1)

/-- An item of a row: key bits, position, and value bits. -/
structure Item where
  key : Nat
  pos : Nat
  val : Nat
  deriving DecidableEq, Repr

/-- What a row is asked for: key type, value type (0 none), how many, direction, fast ties with what their order is known by
(R463), threshold compaction, and the index base. -/
structure SortAsk where
  keyType : Nat
  valType : Nat
  k : Nat
  smallest : Bool
  fast : Option (List Nat)
  threshold : Option Nat
  base : Nat
  deriving DecidableEq, Repr

/-- Whether item `a` ranks before item `b` (R452): by key, then by index, or in the fast mode in an order the spec does not fix
(R461; log entry 15). -/
def ranksBefore (q : SortAsk) (a b : Item) : Bool :=
  let x := ordOf q.keyType a.key
  let y := ordOf q.keyType b.key
  if x = y then
    match q.fast with
    | some n =>
      let f := Config.fastTieRank n a.pos
      let g := Config.fastTieRank n b.pos
      f < g || (f == g && a.pos < b.pos)
    | none => a.pos < b.pos
  else if q.smallest then x < y else y < x

/-- Insert an item in ranking order. -/
def insertItem (before : Item → Item → Bool) (x : Item) : List Item → List Item
  | [] => [x]
  | y :: ys => if before x y then x :: y :: ys else y :: insertItem before x ys

/-- Items in ranking order. -/
def rankItems (q : SortAsk) (l : List Item) : List Item := l.foldr (insertItem (ranksBefore q)) []

/-- Whether compaction keeps an item (R453). -/
def keeps (q : SortAsk) (t : Nat) (x : Item) : Bool :=
  let a := ordOf q.keyType x.key
  let b := ordOf q.keyType t
  if q.smallest then a ≤ b else b ≤ a

/-- The items written, those selected, and those left out (R452-R454). -/
def selectItems (q : SortAsk) (row : List Item) : List Item × List Item × List Item :=
  match q.threshold with
  | some t =>
    let kept := row.filter (keeps q t)
    (kept.take q.k, kept, row.filter fun x => !keeps q t x)
  | none =>
    let r := rankItems q row
    (r.take q.k, r.take q.k, r.drop q.k)

/-! ### The mass record -/

/-- The accumulator's least-significant-bit weight: 2 to the minus this (R457, R285). -/
def accShift (kt : Nat) : Nat := if kt = 5 then 48 else if kt = 6 then 266 else if kt = 7 then 149 else 0

/-- The finite sum of values in the accumulator (R457). -/
def accOf (kt : Nat) (xs : List Xv) : Int :=
  xs.foldl (fun a x => match x with
    | .fin s n d => a + signed s (n * 2 ^ accShift kt / d)
    | _ => a) 0

/-- A set of terms as the mass record keeps it: count, accumulator, NaN, +∞ and −∞ seen, and the rounded sum. -/
structure MassSet where
  count : Nat
  acc : Int
  nan : Bool
  pinf : Bool
  ninf : Bool
  sum : Nat
  deriving DecidableEq, Repr

/-- Whether a value is an infinity of a sign. -/
def isInf (neg : Bool) : Xv → Bool
  | .inf s => s == neg
  | _ => false

/-- SEL_SUM and OUT_SUM (R458): s64 for integers, FP64 for floating-point types. -/
def sumBits (kt : Nat) (x : Xv) : Nat :=
  if 5 ≤ kt then roundFloat fp64 x
  else match x with
    | .fin s n d => ofSigned 64 (signed s (n / d))
    | _ => 0

/-- The set of a list of terms (R455-R458). -/
def massSet (kt : Nat) (xs : List Xv) : MassSet :=
  ⟨xs.length, accOf kt xs, xs.any (·.isNan), xs.any (isInf false), xs.any (isInf true), sumBits kt (exactSum xs)⟩

/-- The 256 bytes of a mass record (R455). -/
def massBytes (kt : Nat) (overflow : Bool) (sel out : MassSet) : List Byte :=
  let fl := b2n overflow + b2n sel.nan * 2 + b2n sel.pinf * 4 + b2n sel.ninf * 8 + b2n out.nan * 16 + b2n out.pinf * 32 +
    b2n out.ninf * 64
  leBytes 4 sel.count ++ leBytes 4 out.count ++ leBytes 1 (b2n (5 ≤ kt)) ++ leBytes 1 fl ++ leBytes 1 kt ++ leBytes 5 0 ++
    leBytes 8 sel.sum ++ leBytes 8 out.sum ++ leBytes 80 (ofSigned 640 sel.acc) ++ leBytes 80 (ofSigned 640 out.acc) ++
    leBytes 64 0

/-- The type of the summed field (R456). -/
def sumType (q : SortAsk) : Nat := if q.valType = 0 then q.keyType else q.valType

/-- The summed field of an item. -/
def sumField (q : SortAsk) (x : Item) : Xv :=
  elemValue (fmtOfKeyType (sumType q)) (if q.valType = 0 then x.key else x.val)

/-- What a row gives: the entries written and its mass record. -/
structure SortedRow where
  items : List Item
  sel : MassSet
  out : MassSet
  overflow : Bool
  deriving DecidableEq, Repr

/-- What is asked of a row whose fast ties may also depend on the row (R461). -/
def SortAsk.forRow (q : SortAsk) (row : List Item) : SortAsk :=
  { q with fast := q.fast.map fun k => k ++ row.flatMap fun x => [x.key, x.val] }

/-- One row (R452-R458). -/
def sortRow (q : SortAsk) (row : List Item) : SortedRow :=
  let r := selectItems (q.forRow row) row
  ⟨r.1, massSet (sumType q) (r.2.1.map (sumField q)), massSet (sumType q) (r.2.2.map (sumField q)),
    q.threshold.isSome && q.k < r.2.1.length⟩

/-- The mass record of a row. -/
def SortedRow.mass (q : SortAsk) (r : SortedRow) : List Byte := massBytes (sumType q) r.overflow r.sel r.out

/-- Indices of a row's output positions, with R448 beyond the items written. -/
def rowIndices (q : SortAsk) (r : SortedRow) : List Nat :=
  (List.range q.k).map fun i => match r.items[i]? with
    | some x => (q.base + x.pos) % 2 ^ 32
    | none => 0xFFFFFFFF

/-- Keys of a row's output positions. -/
def rowKeys (q : SortAsk) (r : SortedRow) : List Nat := (List.range q.k).map fun i => ((r.items[i]?).map (·.key)).getD 0

/-- Values of a row's output positions. -/
def rowVals (q : SortAsk) (r : SortedRow) : List Nat := (List.range q.k).map fun i => ((r.items[i]?).map (·.val)).getD 0

/-! ### Plan operators -/

/-- Row `r` of an operator's inputs. -/
def opRow (sh : SortShape) (keys vals : List Byte) (r : Nat) : List Item :=
  (List.range sh.rowLen).map fun i =>
    let n := r * sh.rowLen + i
    ⟨leAt keys (n * sh.stride + sh.keyOff) (keyBytes sh.keyType), i,
      if sh.valType = 0 then 0 else leAt vals (n * keyBytes sh.valType) (keyBytes sh.valType)⟩

/-- What an operator asks of each row (R445, R463). -/
def opAsk (s : State) (p : PlanSt) (o : OpDesc) (t : Task) (sh : SortShape) : SortAsk :=
  { keyType := sh.keyType, valType := sh.valType, k := sh.k, smallest := o.smallest
    fast := if o.tieFast then some [fget s Fd.ident_REPRO_CLASS, p.crc, t.op, t.units.length] else none
    threshold := if o.code = 0x052 then some (o.param 1) else none, base := o.param 3 }

/-- The rows of an operator's inputs. -/
def opRows (p : PlanSt) (o : OpDesc) (t : Task) : List (List Item) :=
  let sh := sortShape p.words o
  (List.range sh.rows).map (opRow sh (t.inData.getD 0 []) (t.inData.getD 1 []))

/-- The outputs of an operator from its rows (R447). -/
def sortOuts (p : List W32) (o : OpDesc) (q : SortAsk) (rows : List SortedRow) : List (List Byte) :=
  let keys := packRaw (outDesc p o 0) (rows.flatMap (rowKeys q))
  let idx := packRaw (outDesc p o 1) (rows.flatMap (rowIndices q))
  let mass := bytesAt (rows.flatMap (SortedRow.mass q)) 0 (outDesc p o 2).size
  [keys, idx, mass] ++ if o.outs.length < 4 then [] else [packRaw (outDesc p o 3) (rows.flatMap (rowVals q))]

/-- Form the outputs of a TOPK, SORT or COMPACT. -/
def sortTask (code task : Nat) (s : State) : Host.Outcome State Fault Refusal :=
  match taskOf s task with
  | some t =>
    if t.disp.isSome && !t.computed && t.code == code then
      match opOf s t with
      | some (p, o) =>
        let q := opAsk s p o t (sortShape p.words o)
        .next (putTask s { t with outs := sortOuts p.words o q ((opRows p o t).map (sortRow q)), computed := true })
      | none => .next s
    else .next s
  | none => .next s

/-- TOPK (R452). -/
def execTopk (task : Nat) (s : State) : Host.Outcome State Fault Refusal := sortTask 0x050 task s

/-- SORT (R452). -/
def execSort (task : Nat) (s : State) : Host.Outcome State Fault Refusal := sortTask 0x051 task s

/-- COMPACT (R453, R454). -/
def execCompact (task : Nat) (s : State) : Host.Outcome State Fault Refusal := sortTask 0x052 task s

/-! ### SELECT -/

/-- What a SELECT Letter asks (R449, R70): its header and arguments. -/
def selectAsk (s : State) (l : Letter) (h : List Byte) : SortAsk :=
  let mode := arg l.l 0x25 1
  { keyType := arg l.l 0x24 1, valType := leAt h 6 1, k := min (arg l.l 0x20 4) (leAt h 0 4), smallest := bit mode 0
    fast := if bit mode 1 then some [fget s Fd.ident_REPRO_CLASS] else none, threshold := if bit mode 2 then some (arg l.l 0x28 4) else none
    base := leAt h 8 4 }

/-- The items of a SELECT Letter's key tensor (R449). -/
def selectRow (q : SortAsk) (b : List Byte) : List Item :=
  let stride := leAt b 4 1
  (List.range (min 65536 (leAt b 0 4))).map fun i =>
    let o := 64 + i * stride
    ⟨leAt b (o + leAt b 5 1) (keyBytes q.keyType), i, if q.valType = 0 then 0 else leAt b (o + leAt b 7 1) (keyBytes q.valType)⟩

/-- The output of a SELECT Letter (R450). -/
def selectBytes (q : SortAsk) (r : SortedRow) : List Byte :=
  r.mass q ++ ((rowIndices q r).zip (rowKeys q r)).flatMap fun e => leBytes 4 e.1 ++ leBytes 4 e.2

/-! ### The end of a Sorter task -/

/-- Piece length (R464). -/
def pieceLen (len units : Nat) : Nat := min 65536 (64 * ceilDiv len (64 * max 1 units))

/-- Lengths of the pieces of a row. -/
def sortPieces (len units : Nat) : List Nat :=
  let p := max 1 (pieceLen len units)
  (List.range (ceilDiv len p)).map fun i => min p (len - i * p)

/-- Items that unit `u` scans of a row (R464). -/
def scannedBy (len units u : Nat) : Nat :=
  let ps := sortPieces len units
  let block := ceilDiv ps.length (max 1 units)
  (((ps.drop (u * block)).take block)).foldl (· + ·) 0

/-- Sums of consecutive groups of `w`, each at most `k` (R465). -/
def mergePass (w k : Nat) : Nat → List Nat → List Nat
  | 0, _ => []
  | _ + 1, [] => []
  | n + 1, l => min k ((l.take w).foldl (· + ·) 0) :: mergePass w k n (l.drop w)

/-- Entries that the merge passes read (R465): every list of every pass. -/
def mergeReads (w k : Nat) : Nat → List Nat → Nat
  | 0, _ => 0
  | n + 1, l => if l.length ≤ 1 then 0 else l.foldl (· + ·) 0 + mergeReads w k n (mergePass w k l.length l)

/-- The work of a Sorter task (R464-R468): the row length and number of rows, k, fast ties, compaction, the bytes that one item is
read with and one entry written with. -/
structure SortWork where
  rowLen : Nat
  rows : Nat
  k : Nat
  fast : Bool
  compact : Bool
  scanBytes : Nat
  outBytes : Nat
  deriving DecidableEq, Repr

/-- The work of a plan operator. -/
def opWork (p : PlanSt) (o : OpDesc) : SortWork :=
  let sh := sortShape p.words o
  let kb := keyBytes sh.keyType
  let vb := if sh.valType = 0 then 0 else keyBytes sh.valType
  { rowLen := sh.rowLen, rows := sh.rows, k := sh.k, fast := o.tieFast, compact := o.code == 0x052
    scanBytes := if (tensorDesc p.words (o.ins.getD 0 0)).fmt = 0x0E then sh.stride else kb + vb
    outBytes := 4 + kb + if o.outs.length < 4 then 0 else vb }

/-- The work of a SELECT Letter. -/
def selectWork (l : Letter) (b : List Byte) : SortWork :=
  let n := min 65536 (leAt b 0 4)
  ⟨n, 1, min n (arg l.l 0x20 4), bit (arg l.l 0x25 1) 1, bit (arg l.l 0x25 1) 2, leAt b 4 1, 8⟩

/-- The least n with w^n at or above x. -/
def ceilLog (w x : Nat) : Nat := ((List.range 33).find? fun n => x ≤ w ^ n).getD 33

/-- The scan cycles of a piece (R467). -/
def scanCycles (w : SortWork) (len : Nat) : Nat :=
  let r := min (if w.k ≤ 256 then 16 else if w.k ≤ 4096 then 4 else if w.fast then 8 else 4) (64 / max 1 w.scanBytes)
  ceilDiv len (max 1 r) + if w.k ≤ 4096 then 0 else len * ceilLog (if w.fast then 16 else 8) (ceilDiv len 4096)

/-- The scan cycles of the unit that takes longest over a row (R464, R468). -/
def rowScan (w : SortWork) (units : Nat) : Nat :=
  let ps := (sortPieces w.rowLen units).map (scanCycles w)
  let block := ceilDiv ps.length (max 1 units)
  ((List.range (max 1 units)).map fun u => ((ps.drop (u * block)).take block).foldl (· + ·) 0).foldl max 0

/-- The list entries that the merge passes of a row read (R465). -/
def rowMerge (w : SortWork) (units : Nat) : Nat :=
  let lists := (sortPieces w.rowLen units).map (min w.k)
  if w.compact then 0 else mergeReads (if w.fast then 16 else 8) w.k lists.length lists

/-- T of R468, from the number of entries written in each row. -/
def sortCycles (w : SortWork) (units : Nat) (written : List Nat) : Nat :=
  320 + (written.map fun e => rowScan w units + rowMerge w units + ceilDiv (e * w.outBytes) 64).foldl (· + ·) 0

/-- Count a Sorter task on its units (R468, R473). -/
def countSort (s : State) (t : Task) (w : SortWork) (written : List Nat) : State :=
  let n := t.units.length
  let s := (List.range n).foldl (fun s i =>
    let u := t.units.getD i 0
    let s := fadd s (Fd.sorter_TASK_COUNT u) 1
    let s := fadd s (Fd.sorter_BUSY_CYCLES u) (sortCycles w n written)
    fadd s (Fd.sorter_KEYS_SCANNED u) (w.rows * scannedBy w.rowLen n i)) s
  fadd s (Fd.sorter_MERGE_ENTRIES (t.units.headD 0)) (w.rows * rowMerge w n)

/-- What a Sorter task works on: what is asked, its rows, its work. -/
structure SortJob where
  ask : SortAsk
  rows : List (List Item)
  work : SortWork

/-- The job of a Sorter task: of a SELECT Letter, or of a plan operator. -/
def sortJob (s : State) (t : Task) (l : Letter) : SortJob :=
  if l.op = 0x09 then
    let b := t.inData.getD 0 []
    let q := selectAsk s l b
    ⟨q, [selectRow q b], selectWork l b⟩
  else match opOf s t with
    | some (p, o) => ⟨opAsk s p o t (sortShape p.words o), opRows p o t, opWork p o⟩
    | none => ⟨⟨0, 0, 0, false, none, none, 0⟩, [], ⟨0, 0, 0, false, false, 0, 0⟩⟩

/-- A set of terms with wrong bits. -/
def MassSet.hit (m : MassSet) : SortSpot → MassSet
  | .acc _ mask => { m with acc := toSigned 640 (ofSigned 640 m.acc ^^^ mask % 2 ^ 640) }
  | .count _ mask => { m with count := m.count ^^^ mask.toNat }
  | .special _ mask => { m with nan := m.nan != mask.getLsbD 0, pinf := m.pinf != mask.getLsbD 1, ninf := m.ninf != mask.getLsbD 2 }
  | .entry _ _ _ => m

/-- A row's result with wrong bits. -/
def SortedRow.hit (r : SortedRow) (x : SortSpot) : SortedRow :=
  match x with
  | .entry i key pos => { r with items := r.items.modify i fun e => { e with key := e.key ^^^ key.toNat, pos := e.pos ^^^ pos.toNat } }
  | .acc out _ | .count out _ | .special out _ => if out then { r with out := r.out.hit x } else { r with sel := r.sel.hit x }

/-- The result of row `n` as the unit gives it, with the faults that strike it. -/
def faultyRow (q : SortAsk) (faults : List SortFault) (n : Nat) (row : List Item) : SortedRow :=
  ((faults.filter fun f => f.row == n).map (·.spot)).foldl SortedRow.hit (sortRow q row)

/-- Whether the sums, the special-value flags and the counts of a row agree with its independent total (R459). -/
def massAgrees (q : SortAsk) (row : List Item) (r : SortedRow) : Bool :=
  let total := massSet (sumType q) (row.map (sumField q))
  r.sel.acc + r.out.acc == total.acc && (r.sel.nan || r.out.nan) == total.nan && (r.sel.pinf || r.out.pinf) == total.pinf &&
    (r.sel.ninf || r.out.ninf) == total.ninf && r.sel.count + r.out.count == row.length

/-- Whether each written entry ranks after the one before it, or for compaction has a higher index (R459). -/
def orderHolds (q : SortAsk) (row : List Item) (items : List Item) : Bool :=
  (items.zip (items.drop 1)).all fun e =>
    if q.threshold.isSome then decide (e.1.pos < e.2.pos) else ranksBefore (q.forRow row) e.1 e.2

/-- A failed check of a Sorter task (R460). -/
def sortFail (s : State) (t : Task) (count : Fld) (ev : Nat) : State :=
  let s := setEvent (fadd s count 1) (taskPage t) ev
  noteStatus (raise s 0x08 (taskPage t) t.sclass t.pid 0) t.ch t.seq 0x40 0

/-- The checks at the end of a row (R459, R460). -/
def checkRow (q : SortAsk) (t : Task) (s : State) (x : List Item × SortedRow) : State :=
  let u := t.units.headD 0
  let s := if massAgrees q x.1 x.2 then s else sortFail s t (Fd.sorter_MASS_CHECK_COUNT u) 8
  if orderHolds q x.1 x.2.items then s else sortFail s t (Fd.sorter_ORDER_CHECK_COUNT u) 9

/-- The outputs of a Sorter task from its rows. -/
def sortedOuts (s : State) (t : Task) (q : SortAsk) (rs : List SortedRow) : List (List Byte) :=
  match opOf s t with
  | some (p, o) => sortOuts p.words o q rs
  | none => (rs.map (selectBytes q))

/-- The RESULT of a SELECT (R70): how many items were selected and left out. -/
def selectResult (r : SortedRow) : List Byte := leBytes 4 r.sel.count ++ leBytes 4 r.out.count

/-- SORTER_TASK_COMPLETE (R459, R460, R468). -/
def execSorterTaskComplete (task : Nat) (faults : List SortFault) (s : State) : Host.Outcome State Fault Refusal :=
  match taskOf s task with
  | some t =>
    match letterOf s t.ch t.seq with
    | some l =>
      if t.kind == .sorter && t.disp.isSome && (t.computed || l.op == 0x09) && dramReady s t then
        let j := sortJob s t l
        let rs := j.rows.mapIdx (faultyRow j.ask faults)
        let ok := (j.rows.zip rs).all fun x => massAgrees j.ask x.1 x.2 && orderHolds j.ask x.1 x.2.items
        let s := (j.rows.zip rs).foldl (checkRow j.ask t) (countSort s t j.work (rs.map (·.items.length)))
        let t := { t with outs := sortedOuts s t j.ask rs, flags := t.flags ||| if ok then 0 else flagInvalid }
        .next (completeAny (publishAll s t none []) t (if l.op = 0x09 then rs.flatMap selectResult else []))
      else .next s
    | none => .next s
  | none => .next s

end Sys2Proof.Machine
end

