-- ==== Sys2Proof/Machine/Courier.lean ====
section
/-! DEFINITION. Courier links and collectives (13 R504-R544): addresses and groups, the flit and its retry, training, the
two-phase collectives, resynchronisation, and postmark alignment. -/

namespace Sys2Proof.Machine

/-! ### Addresses and topology -/

/-- CHIP_ADDR (R518). -/
def chipAddr (s : State) : Nat := fget s Fd.coll_CHIP_ADDR

/-- A chip address's coordinate on an axis (R518): 0 x, 1 y, 2 z. -/
def axisOf (a k : Nat) : Nat := bits a (4 * k + 3) (4 * k)

/-- The extent of an axis (R518). -/
def extent (s : State) (k : Nat) : Nat :=
  [fget s Fd.coll_DX_M1, fget s Fd.coll_DY_M1, fget s Fd.coll_DZ_M1].getD k 0 + 1

/-- The axes a topology uses (R518). -/
def topoAxes (s : State) : Nat := [1, 1, 2, 3].getD (fget s Fd.coll_TOPO) 1

/-- The links a topology uses (R518). -/
def usedLinks (s : State) : List Nat := List.range (2 * topoAxes s)

/-- The neighbour a link's direction predicts (R518). -/
def neighbourOf (s : State) (n : Nat) : Nat :=
  let a := chipAddr s
  let k := n / 2
  let d := extent s k
  let c := axisOf a k
  setBits a (4 * k + 3) (4 * k) ((if n % 2 = 0 then c + 1 else c + d - 1) % d)

/-- Whether a link is UP. -/
def linkUp (s : State) (n : Nat) : Bool := fget s (Fd.link_STATE n) == 2

/-- The link to a neighbour (R519): the lower-indexed UP link that reaches it. -/
def linkTo (s : State) (a : Nat) : Option Nat := (usedLinks s).find? fun n => linkUp s n && neighbourOf s n == a

/-- The bundle a link belongs to (R510): on an axis of extent 2 both links reach the same neighbour. -/
def bundleOf (s : State) (n : Nat) : Nat := if extent s (n / 2) = 2 then n / 2 * 2 else n

/-- The link toward a station on the path of R519: dimension order, the shorter way round, + on an even tie. -/
def pathLink (s : State) (dst : Nat) : Option Nat :=
  let a := chipAddr s
  ((List.range 3).find? fun k => axisOf a k != axisOf dst k).bind fun k =>
    let d := extent s k
    let up := (axisOf dst k + d - axisOf a k) % d
    let n := if 2 * up ≤ d then 2 * k else 2 * k + 1
    linkTo s (neighbourOf s n)

/-! ### Groups -/

/-- A corner coordinate of a group's box (R520): the six four-bit fields in the order X0, X1, Y0, Y1, Z0, Z1 (log entry 72). -/
def boxOf (s : State) (g i : Nat) : Nat := bits (fget s (Fd.coll_GROUP_BOX g)) (4 * i + 3) (4 * i)

/-- Whether a station lies in a group's box (R520). -/
def inBox (s : State) (g a : Nat) : Bool :=
  (List.range 3).all fun k => boxOf s g (2 * k) ≤ axisOf a k && axisOf a k ≤ boxOf s g (2 * k + 1)

/-- The members of a group in ascending address order (R520). -/
def members (s : State) (g : Nat) : List Nat := (List.range 4096).filter (inBox s g)

/-- The coordinator of a group (R520). -/
def coordinator (s : State) (g : Nat) : Nat := boxOf s g 0 + boxOf s g 2 * 16 + boxOf s g 4 * 256

/-- Whether this station coordinates a group. -/
def coordinates (s : State) (g : Nat) : Bool := chipAddr s == coordinator s g

/-- The parent of a station in a group's tree (R522). -/
def parentOf (s : State) (g a : Nat) : Nat :=
  if boxOf s g 4 < axisOf a 2 then a - 256
  else if boxOf s g 2 < axisOf a 1 then a - 16
  else a - 1

/-- This station's children in a group's tree (R522): of the stations one step up each axis, those whose parent it is. -/
def children (s : State) (g : Nat) : List Nat :=
  let a := chipAddr s
  ((List.range 3).map fun k => a + 16 ^ k).filter fun b =>
    inBox s g b && b < 4096 && b != coordinator s g && parentOf s g b == a

/-- The neighbours of this station in a group's tree. -/
def treePeers (s : State) (g : Nat) : List Nat :=
  (if coordinates s g then [] else [parentOf s g (chipAddr s)]) ++ children s g

/-- Whether every tree link of a group at this station is UP (R537). -/
def treeUp (s : State) (g : Nat) : Bool := (treePeers s g).all fun a => (linkTo s a).isSome

/-- The neighbours of this station in a group (R530): members that an UP link reaches, each once. -/
def groupPeers (s : State) (g : Nat) : List Nat :=
  (((usedLinks s).filter (linkUp s)).map (neighbourOf s)).eraseDups.filter fun a => inBox s g a && a != chipAddr s

/-- Whether a flit of a group is delivered (R523): the word is enabled, names the message's PID, and this station is a
member. -/
def delivered (s : State) (f : FlitIn) : Bool :=
  fget s (Fd.coll_GROUP_ENABLE f.group) == 1 && fget s (Fd.coll_GROUP_PID f.group) == f.pid.val &&
    inBox s f.group (chipAddr s)

/-- A flit that R523 drops is counted. -/
def dropFlit (s : State) : State := fadd s Fd.coll_COLL_MISMATCH_COUNT 1

/-- A group's record. -/
def groupSt (s : State) (g : Nat) : GroupSt := s.courier.groups.getD g GroupSt.reset

/-- Change a group's record. -/
def updGroup (s : State) (g : Nat) (f : GroupSt → GroupSt) : State :=
  { s with courier := { s.courier with groups := s.courier.groups.set g (f (groupSt s g)) } }

/-! ### Sending -/

/-- A bundle's sequence state. -/
def bundleSt (s : State) (b : Nat) : BundleSt := s.courier.bundles.getD b BundleSt.reset

/-- Replace a bundle's sequence state. -/
def setBundle (s : State) (b : Nat) (x : BundleSt) : State :=
  { s with courier := { s.courier with bundles := s.courier.bundles.set b x } }

/-- The link a bundle's flits travel on: its lower-indexed UP link (R510). -/
def activeLink (s : State) (b : Nat) : Option Nat := (List.range 6).find? fun n => linkUp s n && bundleOf s n == b

/-- The ACK that a flit on a link carries: the last SEQ accepted from the other end (R507, R509). -/
def ackNow (s : State) (n : Nat) : Nat := ((bundleSt s (bundleOf s n)).expect + 0xFFFF) % 2 ^ 16

/-- Transmit a numbered flit (R507, R509). -/
def transmit (s : State) (n seq : Nat) (m : CtrlMsg) : State :=
  send (fadd s (Fd.link_FLITS_TX n) 1) (.ctrl n seq (ackNow s n) m)

/-- Number a message and send it; with 512 flits outstanding it waits (R512). -/
def pushMsg (s : State) (b n : Nat) (m : CtrlMsg) : State :=
  let x := bundleSt s b
  if 512 ≤ x.buf.length then setBundle s b { x with wait := x.wait ++ [m] }
  else
    let x' := { x with
      nextSeq := (x.nextSeq + 1) % 2 ^ 16
      buf := x.buf ++ [(x.nextSeq, m)]
      progress := if x.buf.isEmpty then now s else x.progress }
    transmit (setBundle s b x') n x.nextSeq m

/-- Send a message to a neighbour; the Corod never reroutes around a DOWN link (R519). -/
def sendTo (s : State) (a group collSeq : Nat) (body : CtrlBody) : State :=
  match linkTo s a with
  | some n => pushMsg s (bundleOf s n) n ⟨chipAddr s, a, group, collSeq, body⟩
  | none => s

/-- Forward a message of another station toward the coordinator, along the tree (R526). -/
def forwardUp (s : State) (g src collSeq : Nat) (body : CtrlBody) : State :=
  match linkTo s (parentOf s g (chipAddr s)) with
  | some n => pushMsg s (bundleOf s n) n ⟨src, coordinator s g, g, collSeq, body⟩
  | none => s

/-- Flood a message to the neighbours in the group except one (R530). -/
def flood (s : State) (g collSeq : Nat) (body : CtrlBody) (except : Option Nat) : State :=
  ((groupPeers s g).filter fun a => some a != except).foldl (fun s a => sendTo s a g collSeq body) s

/-! ### Ending a collective -/

/-- Whether a group is synced (R543, R544). -/
def synced (s : State) (g : Nat) : Bool := bit (fget s Fd.coll_SYNCED) g

/-- Write a group's SYNCED bit. -/
def setSynced (s : State) (g : Nat) (b : Bool) : State :=
  fput s Fd.coll_SYNCED (minus (fget s Fd.coll_SYNCED) (2 ^ g) + b2n b * 2 ^ g)

/-- Abort an operator (R531): nothing is written, later operators are not started, and the Letter replies STATION_LOST. -/
def abortOperator (s : State) (t : Task) (detail : Nat) : State :=
  let s := dropTask s t.id
  let s := noteStatus s t.ch t.seq 0x30 detail
  let s := updRun s t.ch t.seq fun r => { r with ops := r.ops.set t.op .skipped, stop := true }
  advanceRun s t.ch t.seq

/-- Count an abort (R537 and the counters after it): `lost` when an ABORT_REQ or a time-out caused it. -/
def countAbort (s : State) (lost : Bool) : State :=
  let s := setEvent (fadd s Fd.coll_COLL_ABORT_COUNT 1) 0x07E 8
  if lost then fadd s Fd.coll_STATION_LOST_COUNT 1 else s

/-- A decision takes effect at this station (R531). -/
def applyDecision (s : State) (g : Nat) (c : CollSt) (commit lost : Bool) (detail : Nat) : State :=
  let s := updGroup s g fun x => { x with active := x.active.filter fun a => a.seq != c.seq }
  let s := if commit then fadd s Fd.coll_COLL_COMMIT_COUNT 1 else countAbort s lost
  match taskOf s c.task with
  | some t => if commit then completeAny (publishAll s t none []) t [] else abortOperator s t detail
  | none => s

/-- The coordinator decides (R529, R530): the decision is flooded and takes effect. -/
def decideColl (s : State) (g : Nat) (c : CollSt) (commit lost : Bool) (detail : Nat) : State :=
  applyDecision (flood s g c.seq (.decide commit detail) none) g c commit lost detail

/-- DETAIL of a decision with no ABORT_REQ behind it (R533). -/
def noStation : Nat := 0xFFF

/-! ### Voting -/

/-- The votes of a station's subtree are in (R528). -/
def votesIn (s : State) (g : Nat) (c : CollSt) : Bool :=
  c.staged && (children s g).all fun a => c.votes.any fun v => v.1 == a

/-- The earliest start postmark of the subtree (R528). -/
def earliest (c : CollSt) : Nat := c.votes.foldl (fun a v => min a v.2.1) c.start

/-- The ALIGNED bit of the subtree (R528). -/
def allAligned (s : State) (c : CollSt) : Bool := fget s Fd.coll_ALIGNED == 1 && c.votes.all fun v => v.2.2

/-- Replace a collective of a group. -/
def putColl (s : State) (g : Nat) (c : CollSt) : State :=
  updGroup s g fun x => { x with active := x.active.map fun a => if a.seq == c.seq then c else a }

/-- Once the subtree has voted: the coordinator decides (R529), another station sends its VOTE to its parent (R528). -/
def tryVote (s : State) (g : Nat) (c : CollSt) : State :=
  if votesIn s g c && !c.voted then
    if coordinates s g then
      let ok := allAligned s c && now s + 500 ≤ earliest c + fget s (Fd.coll_TIMEOUT_PT g)
      decideColl s g c ok false (if ok then 0 else noStation + if allAligned s c then 0 else 2 ^ 17)
    else
      let s := putColl s g { c with voted := true }
      sendTo s (parentOf s g (chipAddr s)) g c.seq (.vote (earliest c) (allAligned s c))
  else s

/-- A CONTRIB compared with the coordinator's own (R526). -/
def judgeContrib (s : State) (g : Nat) (c : CollSt) (d : CollDesc) : State :=
  if d = c.desc then s
  else decideColl (fadd s Fd.coll_COLL_MISMATCH_COUNT 1) g c false false (noStation + 2 ^ 16)

/-- An ABORT_REQ at a station with the collective under way (R534): the coordinator decides ABORT. -/
def judgeAbort (s : State) (g : Nat) (c : CollSt) (station : Nat) : State :=
  let s := putColl s g { c with aborts := station :: c.aborts }
  if coordinates s g then decideColl s g c false true station else s

/-- A message of a collective that this station has under way. -/
def judgeMsg (s : State) (g src : Nat) (c : CollSt) : CtrlBody → State
  | .contrib d _ => judgeContrib s g c d
  | .vote p a => tryVote (putColl s g { c with votes := c.votes ++ [(src, p, a)] }) g { c with votes := c.votes ++ [(src, p, a)] }
  | .decide commit detail => applyDecision s g c commit (detail % 4096 != noStation || bit detail 18) detail
  | .abortReq st => judgeAbort s g c st
  | _ => s

/-- The collective of a COLL_SEQ that is under way in a group. -/
def collAt (s : State) (g seq : Nat) : Option CollSt := (groupSt s g).active.find? fun c => c.seq == seq

/-- Whether a COLL_SEQ is of a collective this station has yet to start. -/
def collAhead (s : State) (g seq : Nat) : Bool := cyc 16 seq (groupSt s g).nextSeq < 2 ^ 15

/-- Keep a message of a collective not yet started. -/
def keepEarly (s : State) (g seq src : Nat) (b : CtrlBody) : State :=
  updGroup s g fun x => { x with early := x.early ++ [(seq, src, b)] }

/-- Deliver a message of a collective: to the one under way, or kept until this station starts it; one of a collective that
has ended is ignored (R532, R535). -/
def deliverMsg (s : State) (g seq src : Nat) (b : CtrlBody) : State :=
  match collAt s g seq with
  | some c => judgeMsg s g src c b
  | none => if collAhead s g seq then keepEarly s g seq src b else s

/-! ### Starting a collective -/

/-- What a station's CONTRIB says of an operator (R526). -/
def collDesc (p : List W32) (o : OpDesc) : CollDesc :=
  ⟨o.code, (o.ins ++ o.outs).map fun t => (tensorDesc p t).fmt, volume (dimsOf p (o.ins.getD 0 0)), o.params⟩

/-- Start a collective (R524, R526, R543): it takes the group's next COLL_SEQ; on an unsynced group it aborts at once; else the
CONTRIB goes to the coordinator, and what has arrived early is judged. -/
def startColl (s : State) (g : Nat) (t : Task) (p : List W32) (o : OpDesc) : State :=
  let seq := (groupSt s g).nextSeq
  let c : CollSt := ⟨t.id, seq, collDesc p o, t.disp.getD (now s), [], false, false, []⟩
  let early := (groupSt s g).early.filter fun e => e.1 == seq
  let s := updGroup s g fun x =>
    { x with nextSeq := (seq + 1) % 2 ^ 16, active := x.active ++ [c], early := x.early.filter fun e => e.1 != seq }
  if !synced s g then applyDecision s g c false false noStation
  else
    let s := if coordinates s g then s
      else forwardUp s g (chipAddr s) seq (.contrib c.desc c.start)
    early.foldl (fun s e => deliverMsg s g seq e.2.1 e.2.2) s

/-- A dispatched Courier task of a code starts its collective; without a group it cannot (log entry 74). -/
def courierTask (code task : Nat) (s : State) : Host.Outcome State Fault Refusal :=
  match taskOf s task with
  | some t =>
    if t.disp.isSome && !t.computed && t.code == code && !(s.courier.groups.any fun x => x.active.any fun c => c.task == task) then
      match opOf s t, groupOf s t.pid with
      | some (p, o), some g => .next (startColl s g t p.words o)
      | some _, none => .next (abortOperator (countAbort s false) t noStation)
      | none, _ => .next s
    else .next s
  | none => .next s

/-- ALLREDUCE (R524, R526, R527). -/
def execAllreduce (task : Nat) (s : State) : Host.Outcome State Fault Refusal := courierTask 0x080 task s

/-- BROADCAST (R524, R526, R527). -/
def execBroadcast (task : Nat) (s : State) : Host.Outcome State Fault Refusal := courierTask 0x081 task s

/-- MERGE_TOPK (R470, R524, R526, R527). -/
def execMergeTopk (task : Nat) (s : State) : Host.Outcome State Fault Refusal := courierTask 0x082 task s

/-- BARRIER (R524, R526, R527). -/
def execBarrier (task : Nat) (s : State) : Host.Outcome State Fault Refusal := courierTask 0x083 task s

/-! ### Staging -/

/-- The ordinal of an element of a numeric format (R443), for MAX and MIN. -/
def fmtOrdinal (f v : Nat) : Nat :=
  let w := fmtBits f
  match elemFmt f with
  | some (.int i) => if i.signed then v ^^^ 2 ^ (w - 1) else v
  | _ => if bit v (w - 1) then 2 ^ w - 1 - v else v + 2 ^ (w - 1)

/-- The element an ALLREDUCE gives at one position (R525, R527): the exact sum, or the MAX or MIN. -/
def reduceElem (f how : Nat) (vs : List Nat) : Xv :=
  if how = 0 then exactSum (vs.map (elemValue f))
  else
    let best := vs.tail.foldl (fun a v =>
      if how = 1 then if fmtOrdinal f a < fmtOrdinal f v then v else a
      else if fmtOrdinal f v < fmtOrdinal f a then v else a) (vs.headD 0)
    elemValue f best

/-- The output of an ALLREDUCE from every station's tensor, in address order. -/
def reduceOut (p : List W32) (o : OpDesc) (xs : List (List Byte)) : List Byte :=
  let d := tensorDesc p (o.ins.getD 0 0)
  let n := volume d.dims
  let cols := xs.map (elems d.fmt n)
  packVals (outDesc p o 0) ((List.range n).map fun i => reduceElem d.fmt (bits (o.param 0) 1 0) (cols.map fun c => c.getD i 0))

/-- One station's lists: keys, indices, mass record and values (R470). -/
structure StationList where
  items : List Item
  idx : List Nat
  mass : List Byte
  deriving DecidableEq, Repr

/-- The lists a station contributes to one row (R470): as many entries as its mass record says were selected. `base` numbers
them in address order. -/
def stationList (kt vt len row base : Nat) (keys idx mass vals : List Byte) : StationList :=
  let m := bytesAt (mass.drop (256 * row)) 0 256
  let n := min len (leAt m 0 4)
  let kb := keyBytes kt
  let vb := keyBytes vt
  ⟨(List.range n).map fun i =>
      ⟨leAt keys ((row * len + i) * kb) kb, base + i, if vt = 0 then 0 else leAt vals ((row * len + i) * vb) vb⟩,
    (List.range n).map fun i => leAt idx ((row * len + i) * 4) 4, m⟩

/-- Round a mass accumulator (R458). -/
def accSum (kt : Nat) (acc : Int) (nan pinf ninf : Bool) : Nat :=
  sumBits kt (if nan || (pinf && ninf) then .nan else if pinf then .inf false else if ninf then .inf true
    else .fin (acc < 0) acc.natAbs (2 ^ accShift kt))

/-- OUT_ACC, OUT_COUNT and the OUT bits of MFLAGS of the merge (R471): every station's, and the entries the merge drops. -/
def mergedOut (kt : Nat) (ms : List (List Byte)) (dropped : List Xv) : MassSet :=
  let d := massSet kt dropped
  let fl := ms.foldl (fun a m => a ||| leAt m 9 1) 0
  let acc := ms.foldl (fun a m => a + toSigned 640 (leAt m 112 80)) d.acc
  let nan := d.nan || bit fl 4
  let pinf := d.pinf || bit fl 5
  let ninf := d.ninf || bit fl 6
  ⟨ms.foldl (fun a m => a + leAt m 4 4) d.count, acc, nan, pinf, ninf, accSum kt acc nan pinf ninf⟩

/-- What a merge gives for one row: items in order, their indices, and the mass record (R470, R471). -/
def mergeRow (q : SortAsk) (ls : List StationList) : List (Item × Nat) × List Byte :=
  let all := ls.flatMap fun l => l.items.zip l.idx
  let order := rankItems (q.forRow (all.map (·.1))) (all.map (·.1))
  let idxOf := fun (x : Item) => ((all.find? fun e => e.1.pos == x.pos).map (·.2)).getD 0
  let kept := order.take q.k
  let kt := sumType q
  let sel := massSet kt (kept.map (sumField q))
  let out := mergedOut kt (ls.map (·.mass)) ((order.drop q.k).map (sumField q))
  let capped := ls.any fun l => bit (leAt l.mass 9 1) 0
  (kept.map fun x => (x, idxOf x), massBytes kt capped sel out)

/-- The outputs of a MERGE_TOPK from every station's input tensors, in address order. -/
def mergeOuts (p : List W32) (o : OpDesc) (fast : Option (List Nat)) (xs : List (List Byte)) : List (List Byte) :=
  let kd := tensorDesc p (o.ins.getD 0 0)
  let len := kd.dims.getD (kd.rank - 1) 1
  let rows := volume (kd.dims.take (kd.rank - 1))
  let sizes := o.ins.map fun t => (tensorDesc p t).size
  let start := fun (i : Nat) => (sizes.take i).foldl (· + ·) 0
  let part := fun (x : List Byte) (i : Nat) => bytesAt x (start i) (sizes.getD i 0)
  let kt := keyTypeOf kd.fmt
  let vt := if o.ins.length < 4 then 0 else keyTypeOf (tensorDesc p (o.ins.getD 3 0)).fmt
  let q : SortAsk := ⟨kt, vt, o.param 0, o.smallest, fast, none, 0⟩
  let rs := (List.range rows).map fun r =>
    mergeRow q (xs.mapIdx fun i x => stationList kt vt len r (i * len) (part x 0) (part x 1) (part x 2) (part x 3))
  let cell := fun (f : Item × Nat → Nat) (none_ : Nat) => rs.flatMap fun r =>
    (List.range q.k).map fun i => ((r.1[i]?).map f).getD none_
  [packRaw (outDesc p o 0) (cell (·.1.key) 0), packRaw (outDesc p o 1) (cell (·.2) 0xFFFFFFFF),
    bytesAt (rs.flatMap (·.2)) 0 (outDesc p o 2).size] ++
    if o.outs.length < 4 then [] else [packRaw (outDesc p o 3) (cell (·.1.val) 0)]

/-- The stations whose data a station needs beside its own (R527). -/
def neededFrom (s : State) (g : Nat) (o : OpDesc) : List Nat :=
  let others := (members s g).filter (· != chipAddr s)
  if o.code = 0x083 then [] else if o.code = 0x081 then others.filter (· == o.param 0 % 4096) else others

/-- A contribution in its place among the members. -/
def withOwn (own : Nat) (data : List Byte) (parts : List CollPart) : List (List Byte) :=
  (parts.filter fun x => x.chip.toNat < own).map (·.data) ++ [data] ++ (parts.filter fun x => own < x.chip.toNat).map (·.data)

/-- What the order of fast ties in a merge is known by (R463): REPRO_CLASS, the plan, the operator, and every station's address. -/
def mergeTies (s : State) (crc g : Nat) (o : OpDesc) (t : Task) : Option (List Nat) :=
  if o.tieFast then some ([fget s Fd.ident_REPRO_CLASS, crc, t.op] ++ members s g) else none

/-- The staged outputs (R527). -/
def stagedOuts (s : State) (p : List W32) (fast : Option (List Nat)) (o : OpDesc) (t : Task) (parts : List CollPart) : List (List Byte) :=
  let xs := withOwn (chipAddr s) t.inData.flatten parts
  if o.code = 0x080 then [reduceOut p o xs]
  else if o.code = 0x081 then [if o.param 0 % 4096 = chipAddr s then t.inData.getD 0 [] else (parts.map (·.data)).headD []]
  else if o.code = 0x082 then mergeOuts p o fast xs
  else []

/-- Take the dockets of the contributions in as inputs (R40, R46, R515; log entry 75). -/
def takeParts (s : State) (t : Task) (parts : List CollPart) : State × Task :=
  let r := parts.foldl (fun (a : State × Task) x => takeRead a ⟨some (docketOf x.docket), [], 0, false⟩) (s, t)
  let f := r.2.flags ||| if parts.any (·.retried) then flagRetry else 0
  (if f &&& flagPoison != 0 then noteStatus r.1 t.ch t.seq 0x40 0 else r.1, { r.2 with flags := f })

/-- The first collective of a group whose result this station has not staged. -/
def unstaged (s : State) (g : Nat) : Option CollSt := (groupSt s g).active.find? fun c => !c.staged

/-- STAGING_COMPLETE (R527, R528): with every needed contribution in, the result is staged and the station votes. -/
def execStagingComplete (g : Fin 16) (parts : List CollPart) (s : State) : Host.Outcome State Fault Refusal :=
  match unstaged s g with
  | some c =>
    match taskOf s c.task with
    | some t =>
      match opOf s t with
      | some (p, o) =>
        if (parts.map fun x => x.chip.toNat) == neededFrom s g o &&
            parts.all fun x => x.docket.length == 16 && x.data.length == t.inData.flatten.length then
          let outs := stagedOuts s p.words (mergeTies s p.crc g o t) o t parts
          let r := takeParts s t parts
          let s := putTask r.1 { r.2 with outs := outs, computed := true }
          let c := { c with staged := true }
          .next (tryVote (putColl s g c) g c)
        else .next s
      | none => .next s
    | none => .next s
  | none => .next s

/-! ### Messages of a collective -/

/-- The neighbour a flit came from. -/
def flitFrom (s : State) (f : FlitIn) : Nat := neighbourOf s f.link

/-- CONTRIB (R523, R526): the coordinator compares it; another station passes it up the tree. -/
def execContrib (flit : FlitIn) (desc : CollDesc) (start : W64) (s : State) : Host.Outcome State Fault Refusal :=
  let g := flit.group.val
  let seq := flit.collSeq.toNat
  if !linkUp s flit.link then .next s
  else if !delivered s flit then .next (dropFlit s)
  else if coordinates s g then .next (deliverMsg s g seq flit.src.toNat (.contrib desc start.toNat))
  else .next (forwardUp s g flit.src.toNat seq (.contrib desc start.toNat))

/-- VOTE (R528, R529): a child's vote; once the subtree has voted it is passed on, or the coordinator decides. -/
def execVote (flit : FlitIn) (start : W64) (aligned : Bool) (s : State) : Host.Outcome State Fault Refusal :=
  if !linkUp s flit.link then .next s
  else if !delivered s flit then .next (dropFlit s)
  else .next (deliverMsg s flit.group flit.collSeq.toNat flit.src.toNat (.vote start.toNat aligned))

/-- Whether a collective's decision has not reached this station: under way, or not started and no decision kept. -/
def undecided (s : State) (g seq : Nat) : Bool :=
  (collAt s g seq).isSome || (collAhead s g seq && !((groupSt s g).early.any fun e => e.1 == seq && match e.2.2 with
    | .decide _ _ => true
    | _ => false))

/-- DECIDE (R530-R532): the first time it is forwarded and takes effect; a late one is ignored. -/
def execDecide (flit : FlitIn) (commit : Bool) (detail : W32) (s : State) : Host.Outcome State Fault Refusal :=
  let g := flit.group.val
  let seq := flit.collSeq.toNat
  if !linkUp s flit.link then .next s
  else if !delivered s flit then .next (dropFlit s)
  else if undecided s g seq then
    let s := flood s g seq (.decide commit detail.toNat) (some (flitFrom s flit))
    .next (deliverMsg s g seq flit.src.toNat (.decide commit detail.toNat))
  else .next s

/-- Whether an ABORT_REQ naming a station has passed here before (R530, R534). -/
def abortSeen (s : State) (g seq station : Nat) : Bool :=
  (match collAt s g seq with
    | some c => c.aborts.contains station
    | none => false) ||
    (groupSt s g).early.any fun e => e.1 == seq && e.2.2 == .abortReq station

/-- ABORT_REQ (R534, R535): flooded like a DECIDE; an undecided coordinator decides ABORT. -/
def execAbortReq (flit : FlitIn) (station : BitVec 12) (s : State) : Host.Outcome State Fault Refusal :=
  let g := flit.group.val
  let seq := flit.collSeq.toNat
  if !linkUp s flit.link then .next s
  else if !delivered s flit then .next (dropFlit s)
  else if undecided s g seq && !abortSeen s g seq station.toNat then
    let s := flood s g seq (.abortReq station.toNat) (some (flitFrom s flit))
    .next (deliverMsg s g seq flit.src.toNat (.abortReq station.toNat))
  else .next s

/-- COLLECTIVE_TIMEOUT (R532, R533): the oldest collective of the group that has passed its time-out aborts; in the tick of the
time-out itself a DECIDE still takes effect. -/
def execCollectiveTimeout (g : Fin 16) (s : State) : Host.Outcome State Fault Refusal :=
  match (groupSt s g).active.find? fun c => c.start + fget s (Fd.coll_TIMEOUT_PT g) < now s with
  | some c => .next (applyDecision s g c false true (noStation + 2 ^ 18))
  | none => .next s

/-! ### The link -/

/-- CRC-32 of a flit (R508). -/
def crc32Byte (c : Nat) (b : Byte) : Nat :=
  let f := crcStepR 0xEDB88320
  f (f (f (f (f (f (f (f (c ^^^ b.toNat))))))))

/-- CRC-32 of a byte string (R508). -/
def crc32 (bs : List Byte) : Nat := bs.foldl crc32Byte 0xFFFFFFFF ^^^ 0xFFFFFFFF

/-- A flit's 256 bytes from its first 252 (R507). -/
def sealFlit (b : List Byte) : List Byte := bytesAt b 0 252 ++ leBytes 4 (crc32 (bytesAt b 0 252))

/-- An IDLE flit with NAK set and the current ACK (R507, R509, R511). -/
def nakFlit (s : State) (n : Nat) : List Byte :=
  sealFlit (leBytes 1 0xA5 ++ leBytes 1 0x10 ++ leBytes 2 0 ++
    leBytes 2 (ackNow s n) ++ leBytes 2 (neighbourOf s n) ++ leBytes 2 (chipAddr s))

/-- Send NAK once for the present E (R511). -/
def nakOnce (s : State) (n : Nat) : State :=
  let b := bundleOf s n
  let x := bundleSt s b
  if x.nakFor = some x.expect then s
  else
    let s := setBundle s b { x with nakFor := some x.expect }
    let k := (activeLink s b).getD n
    send (fadd s (Fd.link_FLITS_TX k) 1) (.flit k (nakFlit s k))

/-- Rewind a bundle on a link (R513): every buffered flit again, from the oldest. -/
def rewind (s : State) (b n : Nat) : State :=
  let x := bundleSt s b
  let s := setBundle s b { x with rewinds := x.rewinds + 1, progress := now s }
  let s := fadd s (Fd.link_RETRY_COUNT n) 1
  let s := ledgerAdd s 0x05 n 0 1
  x.buf.foldl (fun s e => transmit s n e.1 e.2) s

/-- Messages that waited for room move into the replay buffer (R512). -/
def drainWait : Nat → State → Nat → Nat → State
  | 0, s, _, _ => s
  | k + 1, s, b, n =>
    let x := bundleSt s b
    match x.wait with
    | [] => s
    | m :: ms =>
      if 512 ≤ x.buf.length then s else drainWait k (pushMsg (setBundle s b { x with wait := ms }) b n m) b n

/-- Act on the ACK of a flit (R512): every buffered flit up to it is free. -/
def useAck (s : State) (n ack : Nat) : State :=
  let b := bundleOf s n
  let x := bundleSt s b
  let kept := x.buf.filter fun e => !(cyc 16 ack e.1 < 2 ^ 15)
  if kept.length = x.buf.length then s
  else
    let s := setBundle s b { x with buf := kept, rewinds := 0, progress := now s }
    drainWait x.wait.length s b n

/-- Act on the NAK of a flit (R513). -/
def useNak (s : State) (n : Nat) (nak : Bool) : State :=
  let b := bundleOf s n
  if nak then rewind s b ((activeLink s b).getD n) else s

/-- FLIT_RECEIVE (R511): the receiver rules. -/
def execFlitReceive (link : Fin 6) (bytes : List Byte) (s : State) : Host.Outcome State Fault Refusal :=
  let n := link.val
  let st := fget s (Fd.link_STATE n)
  if bytes.length = 256 && (st == 1 || st == 2) then
    let s := fadd s (Fd.link_FLITS_RX n) 1
    if leAt bytes 252 4 != crc32 (bytesAt bytes 0 252) then
      .next (nakOnce (ledgerAdd (fadd s (Fd.link_CRC_ERR n) 1) 0x05 n 1 1) n)
    else
      let s : State := { s with courier := { s.courier with lastGood := s.courier.lastGood.set n (now s) } }
      let typ := bits (leAt bytes 1 1) 3 0
      if leAt bytes 0 1 != 0xA5 || 5 ≤ typ then .next (nakOnce (fadd s (Fd.link_BAD_FLIT n) 1) n)
      else
        let ack := leAt bytes 4 2
        let nak := bit (leAt bytes 1 1) 4
        if typ = 0 || typ = 4 then .next (useNak (useAck s n ack) n nak)
        else
          let x := bundleSt s (bundleOf s n)
          let seq := leAt bytes 2 2
          if seq = x.expect then
            let s := setBundle s (bundleOf s n) { x with expect := (x.expect + 1) % 2 ^ 16 }
            .next (useNak (useAck s n ack) n nak)
          else if cyc 16 x.expect seq < 2 ^ 15 then .next (fadd s (Fd.link_DUP_FLIT n) 1)
          else .next (nakOnce s n)
  else .next s

/-- LINK_REWIND (R513): 25 pt with flits outstanding and no ACK progress. -/
def execLinkRewind (link : Fin 6) (s : State) : Host.Outcome State Fault Refusal :=
  let b := bundleOf s link
  let x := bundleSt s b
  if activeLink s b = some link.val && !x.buf.isEmpty && x.progress + 25 ≤ now s then .next (rewind s b link) else .next s

/-- A tree link has gone DOWN (R534): every collective under way in a group that used it is aborted, or its coordinator is
asked to. -/
def treeLost (s : State) (a : Nat) : State :=
  (List.range 16).foldl (fun s g =>
    if fget s (Fd.coll_GROUP_ENABLE g) = 1 && (treePeers s g).contains a then
      (groupSt s g).active.foldl (fun s c =>
        if coordinates s g then judgeAbort s g c a
        else flood (putColl s g { c with aborts := a :: c.aborts }) g c.seq (.abortReq a) none) s
    else s) s

/-- LINK_DOWN (R514, R510, R534): 16 rewinds without progress, or 25 pt without a good flit. -/
def execLinkDown (link : Fin 6) (s : State) : Host.Outcome State Fault Refusal :=
  let n := link.val
  let b := bundleOf s n
  let a := neighbourOf s n
  if linkUp s n && ((16 ≤ (bundleSt s b).rewinds && activeLink s b == some n) ||
      s.courier.lastGood.getD n 0 + 25 ≤ now s) then
    let was := activeLink s b
    let s := fput s (Fd.link_STATE n) 0
    let s := fadd s (Fd.link_DOWN_COUNT n) 1
    let s := setEvent (ledgerAdd s 0x05 n 2 1) (0x078 + n) 8
    match activeLink s b with
    | some k =>
      if was = some n then
        let s := setBundle s b { bundleSt s b with rewinds := 0 }
        .next (rewind s b k)
      else .next s
    | none => .next (treeLost (setBundle s b BundleSt.reset) a)
  else .next s

/-! ### Training -/

/-- LINK_TRAINING (R517): the first at 100 ms + 10 ms × n after power good, then every 50 ms while not UP. -/
def execLinkTraining (link : Fin 6) (s : State) : Host.Outcome State Fault Refusal :=
  let n := link.val
  let st := fget s (Fd.link_STATE n)
  if s.time.running && fget s (Fd.link_LINK_EN n) = 1 && (st == 0 || st == 3) && (usedLinks s).contains n &&
      s.courier.nextTrain.getD n 0 ≤ now s && !s.boot.holdup then
    let s := fput s (Fd.link_STATE n) 1
    .next { s with courier := { s.courier with nextTrain := s.courier.nextTrain.set n (now s + 1250000) } }
  else .next s

/-- Flood DESYNC in every group that contains this station and another (R543). -/
def floodDesync (s : State) (other : Nat) : State :=
  (List.range 16).foldl (fun s g =>
    if fget s (Fd.coll_GROUP_ENABLE g) = 1 && inBox s g (chipAddr s) && inBox s g other then
      flood (setSynced s g false) g 0 .desync none
    else s) s

/-- The initial copy to a standby (R714): the mirror entries of masked channels for the present power epoch, then the stream. -/
def startStream (s : State) : State :=
  if fget s Fd.daybook_PAIR_ROLE = 1 then
    let s : State := { s with pair := { s.pair with streaming := true } }
    (List.range 64).foldl (fun s ch =>
      (chanOf s ch).win.foldl (fun s e => if e.2 == .finished then sendEntry s ch e.1 else s) s) s
  else s

/-- TRAINING_COMPLETE (R516, R543, R714): the link is UP when the neighbour's address is the one predicted, else MISWIRE; an
attempt that fails leaves it DOWN. -/
def execTrainingComplete (link : Fin 6) (peer : BitVec 12) (trained standby : Bool) (s : State) :
    Host.Outcome State Fault Refusal :=
  let n := link.val
  if fget s (Fd.link_STATE n) = 1 then
    if !trained then .next (fput s (Fd.link_STATE n) 0)
    else
      let s := fput s (Fd.link_NEIGHBOUR n) peer.toNat
      if peer.toNat = neighbourOf s n then
        let alone := (activeLink s (bundleOf s n)).isNone
        let s := fput s (Fd.link_STATE n) 2
        let s : State := { s with courier := { s.courier with lastGood := s.courier.lastGood.set n (now s) } }
        let s := floodDesync s peer.toNat
        .next (if fget s Fd.coll_TOPO = 0 && alone && standby then startStream s else s)
      else .next (setEvent (ledgerAdd (fput s (Fd.link_STATE n) 3) 0x05 n 3 1) (0x078 + n) 9)
  else .next s

/-! ### Dropout and rejoin -/

/-- DESYNC (R543): the group is unsynced and the event set; it is forwarded while the group was synced (log entry 74). -/
def execDesync (flit : FlitIn) (s : State) : Host.Outcome State Fault Refusal :=
  let g := flit.group.val
  if !linkUp s flit.link then .next s
  else if !delivered s flit then .next (dropFlit s)
  else
    let s := if synced s g then flood s g 0 .desync (some (flitFrom s flit)) else s
    .next (setEvent (setSynced s g false) 0x07E 12)

/-- The group word as RESYNC carries it (R544). -/
def groupWord (s : State) (g : Nat) : Nat := bits (regGet s 0x07E (0x080 + 4 * g)) 28 0

/-- RESYNC_GO (R544, R738): at the coordinator RESYNC is flooded; elsewhere the operation ends at once. -/
def execResyncGo (q : Requester) (v : W32) (be : BitVec 4) (s : State) : Host.Outcome State Fault Refusal :=
  let was := fget s Fd.coll_RESYNC_GO
  let t := regWrite denyNone s q 0x07E 0x104 v be
  if was = 0 && fget t Fd.coll_RESYNC_GO = 1 then
    let g := fget t Fd.coll_RESYNC_GROUP
    if fget t (Fd.coll_GROUP_ENABLE g) = 1 && coordinates t g then
      .next (flood (updGroup t g fun x => { x with resync := true }) g (groupSt t g).nextSeq (.resync (groupWord t g)) none)
    else .next (fput t Fd.coll_RESYNC_GO 0)
  else .next t

/-- RESYNC (R544): a member whose word matches adopts COLL_SEQ and acknowledges up the tree; another sets GROUP_MISMATCH and
stays unsynced. -/
def execResync (flit : FlitIn) (word : W32) (s : State) : Host.Outcome State Fault Refusal :=
  let g := flit.group.val
  let seq := flit.collSeq.toNat
  if !linkUp s flit.link || coordinates s g then .next s
  else if !delivered s flit then .next (dropFlit s)
  else if groupWord s g = bits word.toNat 28 0 then
    if (groupSt s g).resync && (groupSt s g).nextSeq == seq then .next s
    else
      let s := flood s g seq (.resync word.toNat) (some (flitFrom s flit))
      let s := updGroup s g fun x => { x with nextSeq := seq, resync := true }
      .next (sendTo s (parentOf s g (chipAddr s)) g seq .resyncAck)
  else .next (setEvent (setSynced s g false) 0x07E 11)

/-- RESYNC_COMPLETE (R544): every acknowledgement is in; the coordinator floods the outcome, each member sets its SYNCED
bit. -/
def execResyncComplete (flit : FlitIn) (s : State) : Host.Outcome State Fault Refusal :=
  let g := flit.group.val
  if (groupSt s g).resync then
    let except := if coordinates s g then none else some (flitFrom s flit)
    let s := flood s g (groupSt s g).nextSeq .resyncDone except
    let s := setSynced (updGroup s g fun x => { x with resync := false }) g true
    .next (if coordinates s g && fget s Fd.coll_RESYNC_GROUP == g then fput s Fd.coll_RESYNC_GO 0 else s)
  else .next s

/-! ### Postmark alignment -/

/-- Change the alignment's record. -/
def updAlign (s : State) (f : AlignSt → AlignSt) : State := { s with courier := { s.courier with align := f s.courier.align } }

/-- Begin to measure (R541). -/
def beginAlign (s : State) : State :=
  updAlign (fput s Fd.postmark_ALIGN_ACTIVE 1) fun a => { a with sums := List.replicate 6 (0, 0, 0), measured := false }

/-- ALIGN_GO (R540, R738): mode ALL at station 0x000, mode JOIN at any station; elsewhere the operation ends at once. -/
def execAlignGo (q : Requester) (v : W32) (be : BitVec 4) (s : State) : Host.Outcome State Fault Refusal :=
  let was := fget s Fd.coll_ALIGN_GO
  let t := regWrite denyNone s q 0x07E 0x108 v be
  if was = 0 && fget t Fd.coll_ALIGN_GO = 1 then
    if fget t Fd.coll_ALIGN_MODE = 1 || chipAddr t = 0 then .next (beginAlign t)
    else .next (fput t Fd.coll_ALIGN_GO 0)
  else .next t

/-- A value divided and rounded to the nearest whole; the spec does not say which way an exact half goes (log entry 76). -/
def roundDiv (s : State) (v : Int) (d : Nat) : State × Int :=
  let q := v / (d : Int)
  let r := v % (d : Int)
  if 2 * r < d then (s, q)
  else if (d : Int) < 2 * r then (s, q + 1)
  else
    let f := draw s
    (f.1, q + (f.2 % 2 : Nat))

/-- The adjustment that follows from a station's offset behind the reference, in 1/64 pt (R540): never negative in mode ALL. -/
def alignAdj (s : State) (behind : Int) : State × Int :=
  let r := roundDiv s behind 64
  (r.1, if fget s Fd.coll_ALIGN_MODE = 1 then r.2 else max 0 r.2)

/-- Whether a link is the one this station measures its own offset on (R540): toward 0x000 in mode ALL. -/
def measuresOn (s : State) (n : Nat) : Bool :=
  fget s Fd.coll_ALIGN_MODE == 1 || chipAddr s == 0 || pathLink s 0 == some n

/-- The 64th exchange on a link (R539, R540): DELAY_64, and on the measuring link the adjustment; `behind` is the neighbour's
own offset behind the reference, in 1/64 pt. -/
def finishHop (s : State) (n : Nat) (theta2 delay2 behind : Int) : State :=
  let d := roundDiv s delay2 128
  let s := fput d.1 (Fd.link_DELAY_64 n) (ofSigned 16 d.2)
  if measuresOn s n then
    let h := roundDiv s theta2 128
    let own := behind + h.2
    let a := alignAdj h.1 own
    let peer := if fget s Fd.coll_ALIGN_MODE = 1 then (a.1, 0) else alignAdj a.1 behind
    let s := fput peer.1 Fd.coll_ALIGN_OFFSET_64 (ofSigned 32 own)
    let s := setAdj s (ofSigned 32 a.2)
    updAlign s fun x => { x with measured := true, residual := h.2 - 64 * a.2 + 64 * peer.2 }
  else s

/-- TIME_EXCHANGE (R539-R541): one exchange of four postmarks in 1/64 pt; each hop averages 64. -/
def execTimeExchange (link : Fin 6) (t1 t2 t3 t4 : W64) (behind : Int) (s : State) : Host.Outcome State Fault Refusal :=
  let n := link.val
  if linkUp s n then
    let s := if fget s Fd.postmark_ALIGN_ACTIVE = 1 then s else beginAlign s
    let x : Int := (t2.toNat : Int) - t1.toNat
    let y : Int := (t4.toNat : Int) - t3.toNat
    let old := s.courier.align.sums.getD n (0, 0, 0)
    let sum := (old.1 + 1, old.2.1 + (x - y), old.2.2 + (x + y))
    if sum.1 = 64 then
      let s := updAlign s fun a => { a with sums := a.sums.set n (0, 0, 0) }
      .next (finishHop s n sum.2.1 sum.2.2 behind)
    else .next (updAlign s fun a => { a with sums := a.sums.set n sum })
  else .next s

/-- ALIGNMENT_COMPLETE (R541): the adjustment has been applied; ALIGNED is set and ALIGN_ACTIVE clears. -/
def execAlignmentComplete (s : State) : Host.Outcome State Fault Refusal :=
  if fget s Fd.postmark_ALIGN_ACTIVE = 1 && s.courier.align.measured && adjLeft s = 0 then
    let s := fputs s [(Fd.coll_ALIGNED, 1), (Fd.postmark_ALIGN_ACTIVE, 0), (Fd.coll_ALIGN_GO, 0)]
    .next (updAlign s fun a => { a with lastCheck := now s })
  else .next s

/-- TIME_DRIFT_CHECK (R542): `theta` is the repeated exchange's offset in 1/64 pt. -/
def execTimeDriftCheck (link : Fin 6) (theta : Int) (s : State) : Host.Outcome State Fault Refusal :=
  let a := s.courier.align
  if fget s Fd.coll_ALIGNED = 1 && pathLink s 0 = some link.val && a.lastCheck + 25000000 ≤ now s then
    let s := updAlign s fun a => { a with lastCheck := now s }
    let d := theta - a.residual
    if 64 < d || d < -64 then
      .next (fadd (setEvent (fput s Fd.coll_ALIGNED 0) 0x07E 10) Fd.coll_TIME_DRIFT_COUNT 1)
    else .next s
  else .next s

end Sys2Proof.Machine
end

