-- ==== Sys2Proof/Machine/Spare.lean ====
section
/-! DEFINITION. Sparing and rotating self-tests (15 R578-R580, R606-R613, 18 R699-R710). -/

namespace Sys2Proof.Machine

/-! ### Kinds and roles -/

/-- A kind of tested unit as ROTATE numbers it (R614). -/
def testNo : TestKind → Nat
  | .truss => 0
  | .scribe => 1
  | .joiner => 2
  | .beam => 3
  | .sorter => 4
  | .plane => 5

/-- Physical units of a kind (R19). -/
def physCount (k : Nat) : Nat := [9, 18, 17, 34, 4, 2].getD k 0

/-- The page of a unit. -/
def testPage (k u : Nat) : Nat := [0x010 + u, 0x020 + u, 0x040 + u, 0x084, 0x038 + u, 0x03C + u].getD k 0

/-- The ROLE field of a unit; Sorter and Plane units have none. -/
def roleFld (k u : Nat) : Option Fld :=
  match k with
  | 0 => some (Fd.truss_ROLE u)
  | 1 => some (Fd.scribe_ROLE u)
  | 2 => some (Fd.joiner_ROLE u)
  | 3 => some (Fd.beam_ROLE u)
  | _ => none

/-- The LOGICAL field of a unit. -/
def logicalFld (k u : Nat) : Fld :=
  match k with
  | 0 => Fd.truss_LOGICAL u
  | 1 => Fd.scribe_LOGICAL u
  | 2 => Fd.joiner_LOGICAL u
  | _ => Fd.beam_LOGICAL u

/-- The value of LOGICAL that means none. -/
def noLogical (k : Nat) : Nat := if k = 3 then 0x3F else 0xF

/-- ROLE of a unit: 0 active, 1 spare, 2 mapped out, 3 under self-test. A Sorter or Plane unit is active unless it is mapped
out. -/
def roleOf (s : State) (k u : Nat) : Nat :=
  match roleFld k u with
  | some f => fget s f
  | none => if s.nvm.mapped.contains (k, u) || s.fuses.mapped.contains (k, u) then 2 else 0

/-- Give a unit its ROLE and LOGICAL. Logical pair 0 is locked at all times (R318). -/
def setRole (s : State) (k u role logical : Nat) : State :=
  match roleFld k u with
  | some f =>
    let s := fput (fput s f role) (logicalFld k u) logical
    if k = 2 && role = 0 && logical = 0 then fput s (Fd.joiner_MODE u) 1 else s
  | none => s

/-- Whether a takeover that waits has reserved a spare. -/
def reserved (s : State) (k u : Nat) : Bool :=
  s.spare.takeovers.any (fun x => x.1 == k && x.2.2.1 == u) ||
    (k == 3 && match s.spare.copyFor with
      | some c => c.2.1 == u
      | none => false)

/-- The lowest-numbered free spare of a kind (R607, R705). -/
def freeSpare (s : State) (k : Nat) : Option Nat :=
  (List.range (physCount k)).find? fun u => k < 4 && roleOf s k u == 1 && !reserved s k u

/-- Whether a unit is busy: a task runs on it, on either core of a joiner pair. A Beam bank has no boundary to wait for. -/
def unitInUse (s : State) (k u : Nat) : Bool :=
  match k with
  | 0 => unitBusy s .truss u
  | 1 => unitBusy s .scribe u
  | 2 => !pairIdle s u
  | 4 => unitBusy s .sorter u
  | 5 => unitBusy s .plane u
  | _ => false

/-! ### Ledger records -/

/-- Commit the SPARE_MAP record of a kind (R691, R696, R706). -/
def writeSpareMap (s : State) (k : Nat) : State :=
  if k < 4 then
    let bytes := (List.range (physCount k)).map fun u =>
      let r := roleOf s k u
      let l := fget s (logicalFld k u)
      BitVec.ofNat 8 (r * 64 + if r = 0 then l % 64 else 0x3F)
    ledgerQueue (ledgerSet s 0x08 k (dataWords bytes)) 0x08 k
  else s

/-- Record a SPARE_EVENT (R696, R706, R709). -/
def spareEvent (s : State) (k u logical reason replacedBy : Nat) : State :=
  ledgerEvent s 0x09 (dataWords (leBytes 1 k ++ leBytes 1 u ++ leBytes 1 logical ++ leBytes 1 reason ++ leBytes 2 replacedBy ++
    leBytes 2 s.time.epoch.toNat ++ leBytes 8 (now s) ++ leBytes 8 (poweredMs s)))

/-- The index of a unit's SELFTEST record (R696). -/
def selftestIdx (k u : Nat) : Nat := [1, 10, 28, 45, 79, 83].getD k 1 + u

/-- Add to a 32-bit half of a SELFTEST word: passes, fails, deferrals. -/
def selftestAdd (s : State) (k u word amount : Nat) : State :=
  let i := selftestIdx k u
  let v := ledgerVals s 0x0A i
  ledgerSet s 0x0A i (v.set word (v.getD word 0 + amount))

/-- A unit has passed its test (R607, R696, R699). -/
def notePass (s : State) (k u : Nat) : State :=
  let s := selftestAdd s k u 0 1
  let i := selftestIdx k u
  let v := ledgerVals s 0x0A i
  let v := ((v.set 1 (v.getD 1 0 % 2 ^ 32 + s.time.epoch.toNat * 2 ^ 32)).set 2 (now s)).set 3 (poweredMs s)
  let s := ledgerQueue (ledgerSet s 0x0A i v) 0x0A i
  let s := fadd s Fd.safety_ROT_PASS_COUNT 1
  { s with
    safety := { s.safety with latentOpen := s.safety.latentOpen.filter (· != k * 64 + u) }
    spare := { s.spare with lateRaised := mapDel s.spare.lateRaised (k * 64 + u) } }

/-- A unit has failed its test (R696). -/
def noteFail (s : State) (k u : Nat) : State :=
  let i := selftestIdx k u
  ledgerQueue (selftestAdd s k u 0 (2 ^ 32)) 0x0A i

/-- Powered ms since a unit's last passed test (R699). -/
def testAge (s : State) (k u : Nat) : Nat := poweredMs s - (ledgerVals s 0x0A (selftestIdx k u)).getD 3 0

/-! ### Mapping out -/

/-- A unit enters MAPPED_OUT (R703, R706): its ROLE, the MRAM set, the SPARE_EVENT and SPARE_MAP, and LIFE map-outs. -/
def mapOut (s : State) (k u logical reason : Nat) (by_ : Option Nat) : State :=
  let s := setRole s k u 2 (noLogical k)
  let s : State := { s with nvm := { s.nvm with mapped := s.nvm.mapped ++ [(k, u)] } }
  let s := spareEvent s k u logical reason (by_.getD 0xFF)
  lifeAdd (writeSpareMap s k) 2 0

/-- LOGICAL as the Ledger writes it: 0x3F for none. -/
def ledgerLogical (s : State) (k u : Nat) : Nat :=
  if 4 ≤ k then u else if roleOf s k u = 0 then fget s (logicalFld k u) else 0x3F

/-- A unit takes a ROLE, and the SPARE_MAP of its kind is committed (R691, R696; log entry 223). -/
def changeRole (s : State) (k u role logical : Nat) : State := writeSpareMap (setRole s k u role logical) k

/-- Begin a test on a unit that is out of service (R606, R607). -/
def beginTest (s : State) (k u : Nat) (spare : Option Nat) (returning : Bool) : State :=
  let s := changeRole s k u 3 (noLogical k)
  { s with spare := { s.spare with tests := mapIns s.spare.tests k ⟨u, spare, 0, returning, now s, 0⟩ } }

/-- A spare takes a unit's logical identity (R607, R18). -/
def swapIn (s : State) (k u spare : Nat) : State :=
  let l := fget s (logicalFld k u)
  setRole (setRole s k spare 0 l) k u 1 (noLogical k)

/-- The reason a takeover waits: a rotating test, a SUSPECT map-out, or a returned unit that serves an unserved logical unit. -/
def takeover (s : State) (k u spare reason : Nat) : State :=
  if reason = 5 then changeRole s k spare 0 u
  else
    let l := fget s (logicalFld k u)
    let s := swapIn s k u spare
    if reason = 2 then beginTest s k u (some spare) false else mapOut s k u l reason (some spare)

/-- Ask for a takeover at a unit's next boundary. -/
def askTakeover (s : State) (k u spare reason : Nat) : State :=
  { s with spare := { s.spare with takeovers := s.spare.takeovers ++ [(k, u, spare, reason)] } }

/-- Defer the test of a kind (R611). -/
def deferTest (s : State) (k u : Nat) : State :=
  let s := fadd s Fd.safety_ROT_DEFER_COUNT 1
  let i := selftestIdx k u
  let v := ledgerVals s 0x0A i
  let s := ledgerSet s 0x0A i (v.set 1 (v.getD 1 0 + 1))
  { s with spare := { s.spare with deferred := mapIns s.spare.deferred k (now s + 25000) } }

/-- A SUSPECT unit's takeover (R580, R616): a free spare, or the one that a rotating test had reserved, whose test defers. A unit out of
service needs none. -/
def suspectTakeover (s : State) (k u : Nat) : State :=
  if 3 ≤ k || roleOf s k u != 0 || s.spare.takeovers.any (fun x => x.1 == k && x.2.1 == u && x.2.2.2 == 3) then s
  else
    let own := fun (x : Nat × Nat × Nat × Nat) => x.1 == k && x.2.1 == u && x.2.2.2 == 2
    let s := if s.spare.takeovers.any own then
        deferTest { s with spare := { s.spare with takeovers := s.spare.takeovers.filter fun x => !own x } } k u
      else s
    match freeSpare s k with
    | some f => askTakeover s k u f 3
    | none =>
      match s.spare.takeovers.find? fun x => x.1 == k && x.2.2.2 == 2 with
      | some x =>
        let s : State := { s with spare := { s.spare with takeovers := s.spare.takeovers.filter fun y => !(y == x) } }
        askTakeover (deferTest s k x.2.1) k u x.2.2.1 3
      | none => s

/-- SPARE_TAKEOVER (R607, R580, R709): the first takeover of the kind whose unit has reached a boundary. -/
def execSpareTakeover (kind : TestKind) (s : State) : Host.Outcome State Fault Refusal :=
  let k := testNo kind
  match s.spare.takeovers.find? fun x => x.1 == k && (x.2.2.2 == 5 || !unitInUse s k x.2.1) with
  | some (_, u, f, r) =>
    let s : State := { s with spare := { s.spare with takeovers := s.spare.takeovers.filter fun y => !(y == (k, u, f, r)) } }
    .next (takeover s k u f r)
  | none => .next s

/-! ### Beam banks -/

/-- Begin a bank copy (R608). -/
def beginCopy (s : State) (b dst reason : Nat) : State :=
  let s := fput (fput s Fd.beam_COPY_SRC b) Fd.beam_COPY_DST dst
  { s with spare := { s.spare with copyFor := some (b, dst, reason) } }

/-- Map a Beam bank out under R707: the copy starts on a free spare; a rotating copy that holds the last one is given up. -/
def beamMapOut (s : State) (b : Nat) : State :=
  match s.spare.copyFor with
  | none => match freeSpare s 3 with
    | some d => beginCopy s b d 4
    | none => s
  | some c =>
    match freeSpare s 3 with
    | some d => askTakeover s 3 b d 4
    | none => if c.2.2 = 2 then beginCopy s b c.2.1 4 else s

/-- The next bank copy that waits. -/
def nextCopy (s : State) : State :=
  match s.spare.takeovers.find? fun x => x.1 == 3 && x.2.2.2 == 4 with
  | some (k, u, f, r) =>
    let s : State := { s with spare := { s.spare with takeovers := s.spare.takeovers.filter fun y => !(y == (k, u, f, r)) } }
    beginCopy s u f r
  | none => s

/-- BEAM_COPY_COMPLETE (R608, R707): the spare answers at the logical address; the bank is tested or mapped out. -/
def execBeamCopyComplete (s : State) : Host.Outcome State Fault Refusal :=
  match s.spare.copyFor with
  | some (b, d, r) =>
    let s := fput (fput s Fd.beam_COPY_SRC 0x3F) Fd.beam_COPY_DST 0x3F
    let s : State := { s with spare := { s.spare with copyFor := none } }
    .next (nextCopy (takeover s 3 b d r))
  | none => .next s

/-- Whether a postmark that something waits for has come; with PM_CLK lost the counter stands, and nothing waits. -/
def reached (s : State) (pt : Nat) : Bool := pt ≤ now s || s.time.clkLost

/-- The corrected errors of a window are judged (R578, R707): each source whose corrected errors in the window exceed CORR_RATE_MAX raises
ECC_CORR_RATE once; a Beam bank that raises it in two consecutive windows is mapped out when a spare is free. -/
def judgeRates (s : State) : State :=
  let hot := s.safety.corr.filter fun e => fget s Fd.safety_CORR_RATE_MAX < e.2 && e.1 != 81
  let t := hot.foldl (fun t e => ledgerAdd (raise t 0x02 (sourcePage e.1) 0xF 0xF e.2) 0x04 e.1 3 1) s
  let banks := (hot.filter fun e => e.1 < 34).map (·.1)
  let again := banks.filter fun b => s.spare.rateRaised.contains b
  let t : State := { t with
    safety := { t.safety with corr := [] }
    spare := { t.spare with rateRaised := banks } }
  again.foldl beamMapOut t

/-- CORR_RATE_WINDOW_END (R578): a window of 25,000,000 pt ends. -/
def execCorrRateWindowEnd (s : State) : Host.Outcome State Fault Refusal :=
  if reached s s.safety.corrNext then
    .next (judgeRates { s with safety := { s.safety with corrNext := s.safety.corrNext + 25000000 } })
  else .next s

/-! ### Rotating tests -/

/-- The step between tests of a kind in pt (R606). -/
def rotStep (s : State) (k : Nat) : Nat := fget s Fd.safety_ROT_PERIOD_S * 25000000 / physCount k

/-- The unit whose last passed test is oldest among those not mapped out (R606), the lowest-numbered on a tie. -/
def oldestUnit (s : State) (k : Nat) : Option Nat :=
  ((List.range (physCount k)).filter fun u => roleOf s k u < 2).foldl (fun a u =>
    match a with
    | some b => if testAge s k b < testAge s k u then some u else a
    | none => some u) none

/-- Ticks until the next WINDOW slot that names a unit begins, none when no window names it (R609). -/
def nextWindow (s : State) (k : UnitKind) (u : Nat) : Option Nat :=
  let tt := s.sched.active
  let c := max 1 (ttCycle tt)
  ((List.range (ttCount tt)).filter fun i => ttIsWindow tt i && bit (ttUnits tt i k) u).foldl (fun a i =>
    let d := (ttStart tt i % c + c - cyclePos s % c) % c
    match a with
    | some b => some (min b d)
    | none => some d) none

/-- The kind of unit of a Sorter or Plane test. -/
def segmentKind (k : Nat) : UnitKind := if k = 4 then .sorter else .plane

/-- Whether a segment fits now (R609): the unit is idle, no window that names it is open, and the segment ends 25 pt before
the next one. -/
def segmentFits (s : State) (k u : Nat) : Bool :=
  !unitInUse s k u &&
    !((List.range (ttCount s.sched.active)).any fun i => ttIsWindow s.sched.active i && slotOpen s i &&
      bit (ttUnits s.sched.active i (segmentKind k)) u) &&
    match nextWindow s (segmentKind k) u with
    | some d => 2525 ≤ d
    | none => true

/-- Whether a unit is in MAPPED_OUT but not fuse-mapped (R709). -/
def returnable (s : State) (k u : Nat) : Bool := s.nvm.mapped.contains (k, u) && !s.fuses.mapped.contains (k, u)

/-- Start the test of a unit, or defer it (R606-R609, R611, R709). -/
def startTest (s : State) (k u : Nat) : State :=
  let go : State := { s with spare := { s.spare with
    asked := s.spare.asked.filter fun x => !(x == (k, u)), deferred := mapDel s.spare.deferred k } }
  if returnable s k u then beginTest go k u none true
  else if 4 ≤ k then if segmentFits s k u then beginTest go k u none false else deferTest s k u
  else if roleOf s k u = 1 then if reserved s k u then deferTest s k u else beginTest go k u none false
  else match freeSpare s k with
    | some f =>
      if k = 3 then if s.spare.copyFor.isNone then beginCopy go u f 2 else deferTest s k u
      else askTakeover go k u f 2
    | none => deferTest s k u

/-- The unit to test next: one that ROTATE named, else the oldest (R606, R607). -/
def chooseUnit (s : State) (k : Nat) : Option Nat :=
  match s.spare.asked.find? fun x => x.1 == k with
  | some x => some x.2
  | none => oldestUnit s k

/-- Whether a test of a kind is under way or has claimed its spare. -/
def testing (s : State) (k : Nat) : Bool :=
  (mapFind s.spare.tests k).isSome || s.spare.takeovers.any (fun x => x.1 == k && x.2.2.2 == 2) ||
    (k == 3 && match s.spare.copyFor with
      | some c => c.2.2 == 2
      | none => false)

/-- ROTATING_TEST_START (R606, R613): the next test of a kind is due, or ROTATE has asked for one. -/
def execRotatingTestStart (kind : TestKind) (s : State) : Host.Outcome State Fault Refusal :=
  let k := testNo kind
  let due := s.spare.nextTest.getD k 0 ≤ now s
  if s.boot.ready && !s.boot.holdup && !testing s k && (due || ((mapFind s.spare.deferred k).isNone && s.spare.asked.any fun x => x.1 == k)) then
    let s : State := if due then
        { s with spare := { s.spare with nextTest := s.spare.nextTest.set k (now s + rotStep s k) } }
      else s
    match chooseUnit s k with
    | some u => .next (startTest s k u)
    | none => .next s
  else .next s

/-- DEFERRED_TEST_RETRY (R611): every 25,000 pt. -/
def execDeferredTestRetry (kind : TestKind) (s : State) : Host.Outcome State Fault Refusal :=
  let k := testNo kind
  match mapFind s.spare.deferred k with
  | some at_ =>
    if at_ ≤ now s && !testing s k then
      match chooseUnit s k with
      | some u => .next (startTest s k u)
      | none => .next s
    else .next s
  | none => .next s

/-- The first logical unit of a kind that no physical unit serves (R708, R709). -/
def unserved (s : State) (k : Nat) : Option Nat :=
  (List.range ([8, 16, 16, 32].getD k 0)).find? fun l =>
    !((List.range (physCount k)).any fun u => roleOf s k u == 0 && fget s (logicalFld k u) == l) &&
      !(s.spare.takeovers.any fun x => x.1 == k && x.2.2.2 == 5 && x.2.1 == l)

/-- A unit that ROTATE returns has passed (R709): it leaves MAPPED_OUT, and serves an unserved logical unit or becomes a spare. -/
def returnUnit (s : State) (k u : Nat) : State :=
  let s : State := { s with nvm := { s.nvm with mapped := s.nvm.mapped.filter fun x => !(x == (k, u)) } }
  let s := setRole s k u 1 (noLogical k)
  let l := if k < 4 then unserved s k else none
  let s := match l with
    | some l => askTakeover s k l u 5
    | none => s
  let s := spareEvent s k u (if 4 ≤ k then u else l.getD 0x3F) 5 0xFF
  lifeAdd (writeSpareMap s k) 2 1

/-- Least length of a test in pt (15, rotating test lengths); a Sorter or Plane test is counted in segments. -/
def testLength (k : Nat) : Nat := [750000, 200000, 300000, 150000].getD k 0

/-- Segments of a test (15, rotating test lengths). -/
def testSegments (k : Nat) : Nat := if k = 4 then 20 else if k = 5 then 16 else 0

/-- A test has failed (R612, R709): a returning unit stays out; another is mapped out and raises TEST_FAIL, which is A when no
spare holds the unit's logical identity (R624). -/
def failTest (s : State) (k : Nat) (t : TestSt) : State :=
  let s := noteFail s k t.unit
  if t.returning then changeRole s k t.unit 2 (noLogical k)
  else
    let l := match t.spare with
      | some f => ledgerLogical s k f
      | none => if 4 ≤ k then t.unit else 0x3F
    let s := mapOut s k t.unit l 2 t.spare
    raiseAs s 0x1E (testPage k t.unit) 0xF 0xF 0 0 (if 4 ≤ k then 2 else 1) 0

/-- End a test (R607, R612, R709). -/
def endTest (s : State) (k : Nat) (t : TestSt) (pass : Bool) : State :=
  let s : State := { s with spare := { s.spare with tests := mapDel s.spare.tests k } }
  if pass then
    let s := notePass s k t.unit
    if t.returning then returnUnit s k t.unit else changeRole s k t.unit 1 (noLogical k)
  else failTest s k t

/-- ROTATING_TEST_COMPLETE (R607, R608, R612, R709). -/
def execRotatingTestComplete (kind : TestKind) (pass : Bool) (s : State) : Host.Outcome State Fault Refusal :=
  let k := testNo kind
  match mapFind s.spare.tests k with
  | some t =>
    if t.start + testLength k ≤ now s && testSegments k ≤ t.segments && t.segEnd ≤ now s then .next (endTest s k t pass)
    else .next s
  | none => .next s

/-- TEST_SEGMENT (R609): one segment of 2,500 pt of a Sorter or Plane test begins; one that is to fail ends the test. -/
def execTestSegment (kind : TestKind) (pass : Bool) (s : State) : Host.Outcome State Fault Refusal :=
  let k := testNo kind
  match mapFind s.spare.tests k with
  | some t =>
    if 4 ≤ k && t.segments < testSegments k && t.segEnd ≤ now s && segmentFits s k t.unit then
      if pass then
        .next { s with spare := { s.spare with
          tests := mapIns s.spare.tests k { t with segments := t.segments + 1, segEnd := now s + 2500 } } }
      else .next (endTest s k t false)
    else .next s
  | none => .next s

/-- LATENT_OVERDUE (R611, R624): once for each 2 × ROT_PERIOD_S that a unit's last passed test is older; on -AB reaction A
beyond 8 × ROT_PERIOD_S. -/
def execLatentOverdue (kind : TestKind) (unit : Nat) (s : State) : Host.Outcome State Fault Refusal :=
  let k := testNo kind
  let key := k * 64 + unit
  let ms := fget s Fd.safety_ROT_PERIOD_S * 1000
  let age := testAge s k unit
  let n := mapGet 0 s.spare.lateRaised key
  if s.boot.ready && unit < physCount k && roleOf s k unit != 2 && 2 * ms * (n + 1) < age && 0 < ms then
    let hard := s.fuses.grade == 0 && 8 * ms < age
    let s : State := { s with spare := { s.spare with lateRaised := mapIns s.spare.lateRaised key (n + 1) } }
    let s : State := if hard then
        { s with safety := { s.safety with latentOpen := key :: s.safety.latentOpen.filter (· != key) } }
      else s
    .next (raiseAs s 0x1F (testPage k unit) 0xF 0xF 0 0 (if hard then 2 else 1) 0)
  else .next s

end Sys2Proof.Machine
end

