-- ==== Sys2Proof/Machine/Island.lean ====
section
/-! DEFINITION. The Safety Island (15 R574-R595, R610, R614; 16 R619-R639): the fault log, the reaction to each class, the safe
states, the watchdog, the stream watches, the signature walk, and the effects of the SAFETY_CMD commands. -/

namespace Sys2Proof.Machine

/-! ### Reactions -/

/-- LFLAGS INJECTED (R575). -/
def lfInjected : Nat := 1

/-- LFLAGS NOT_CONSUMED (R575). -/
def lfNotConsumed : Nat := 2

/-- LFLAGS PERSISTENT (R575). -/
def lfPersistent : Nat := 4

/-- The reaction codes: log only, D, A, B (16, reaction codes). -/
inductive Reaction where
  | log | diag | safeA | safeB
  deriving DecidableEq, Repr

/-- Whether an SCLASS is one that turns A/S into A (R624, R625). -/
def severeClass (c : Nat) : Bool := c == 3 || c == 4

/-- The reaction of a class, with the SCLASS of the entry (R624, R625). -/
def classReaction (cls sclass : Nat) : Reaction :=
  if [0x0A, 0x0C].contains cls then .log
  else if [0x0B, 0x0D, 0x0F, 0x12].contains cls then if severeClass sclass then .safeA else .diag
  else if [0x10, 0x11, 0x14, 0x16, 0x18, 0x1A, 0x1E, 0x20].contains cls then .safeA
  else if [0x15, 0x17, 0x19, 0x1B].contains cls then .safeB
  else .diag

/-- The reaction to an entry (R605, R624). -/
def reactionOf (f : FaultRec) : Reaction :=
  match f.sev with
  | 0 => classReaction f.cls f.sclass
  | 1 => .diag
  | 2 => .safeA
  | _ => .log

/-- The number a diagnostic frame gives a reaction (16, diagnostic frame). -/
def reactionCode : Reaction → Nat
  | .log => 0
  | .diag => 1
  | .safeA => 2
  | .safeB => 3

/-- Whether a reaction enters a safe state. -/
def Reaction.entersSafe (r : Reaction) : Bool := r == .safeA || r == .safeB

/-! ### The log -/

/-- Insert a fault in the order of R576: ascending CLASS, then SOURCE; first come first among equals. -/
def insFault : List FaultRec → FaultRec → List FaultRec
  | [], f => [f]
  | x :: xs, f => if f.cls < x.cls || (f.cls == x.cls && f.source < x.source) then f :: x :: xs else x :: insFault xs f

/-- Sort the faults of one cycle (R576). -/
def sortFaults (l : List FaultRec) : List FaultRec := l.foldl insFault []

/-- Write an entry into the fault log (R575): FLOG_HEAD, FLOG_LOST, CLASS_COUNT, FAULT. -/
def logFault (s : State) (f : FaultRec) : State :=
  let idx := fget s Fd.safety_FLOG_HEAD
  let full := 64 ≤ s.safety.logCount
  let s : State := { s with safety := { s.safety with
    log := mapIns s.safety.log idx f
    logCount := s.safety.logCount + 1
    nonInjected := if f.flags &&& lfInjected = 0 then s.safety.nonInjected + 1 else s.safety.nonInjected } }
  let s := fput s Fd.safety_FLOG_HEAD (idx + 1)
  let s := if full then fadd s Fd.safety_FLOG_LOST 1 else s
  let s := fadd s (Fd.safety_CLASS_COUNT (f.cls - 1)) 1
  setEvent s 0x004 8

/-! ### What an entry counts against -/

/-- The unit that a page belongs to, for the counts of R579: kind as ROTATE numbers it, physical unit. -/
def suspectUnit (page : Nat) : Option (Nat × Nat) :=
  if 0x010 ≤ page && page ≤ 0x018 then some (0, page - 0x010)
  else if 0x020 ≤ page && page ≤ 0x031 then some (1, page - 0x020)
  else if 0x040 ≤ page && page ≤ 0x050 then some (2, page - 0x040)
  else if 0x038 ≤ page && page ≤ 0x03B then some (4, page - 0x038)
  else if 0x03C ≤ page && page ≤ 0x03D then some (5, page - 0x03C)
  else none

/-- Whether a class counts against its unit (R579). -/
def suspectClass (cls : Nat) : Bool := [0x04, 0x05, 0x06, 0x07, 0x08].contains cls

/-- Count a fault against a unit over the sliding window (R579); at SUSPECT_LIMIT it raises SUSPECT, and a free spare is to
take over (R580). -/
def countSuspect (s : State) (page : Nat) : State :=
  match suspectUnit page with
  | none => s
  | some (k, u) =>
    let kept := (mapGet [] s.safety.suspect page).filter fun t => now s < t + 25000000
    let hits := kept ++ [now s]
    let s : State := { s with safety := { s.safety with suspect := mapIns s.safety.suspect page hits } }
    if hits.length = fget s Fd.safety_SUSPECT_LIMIT then
      suspectTakeover (raiseWith s 0x1D page 0xF 0xF lfPersistent 0) k u
    else s

/-- The comparators that a MISMATCH record counts, by the page that reports (R696). -/
def comparatorOf (page : Nat) : Option Nat :=
  if 0x040 ≤ page && page ≤ 0x050 then some 0
  else if 0x020 ≤ page && page ≤ 0x031 then some 1
  else if page = 0x004 then some 2
  else none

/-- What the Ledger counts of an entry (R583, R696): MISMATCH, and LIFE WATCHDOG faults. -/
def countLedger (s : State) (f : FaultRec) : State :=
  let mism := fun i => ledgerAdd s 0x0B i (if f.flags &&& lfNotConsumed = 0 then 0 else 1) 1
  if f.cls = 0x07 then mism 0
  else if f.cls = 0x06 then mism 1
  else if f.cls = 0x1B then mism 2
  else if f.cls = 0x1A then match comparatorOf f.source with
    | some i => ledgerAdd s 0x0B i 2 1
    | none => s
  else if f.cls = 0x10 then lifeAdd s 1 4
  else s

/-- The Leave condition of an entry's class begins afresh (R624). -/
def restartLeave (s : State) (f : FaultRec) : State :=
  if f.cls = 0x10 then { s with safety := { s.safety with goodKicks := 0 } }
  else if f.cls = 0x11 then { s with safety := { s.safety with walkClean := false } }
  else if [0x14, 0x16, 0x18].contains f.cls then
    { s with safety := { s.safety with condLast := mapIns s.safety.condLast f.cls (now s) } }
  else s

/-- Record one fault (R574-R583). Start-up injections count against nothing (R605). -/
def recordFault (s : State) (f : FaultRec) : State :=
  let f := { f with pm := now s }
  let s := logFault s f
  if f.sev = 3 then s
  else
    let s := restartLeave (countLedger s f) f
    if suspectClass f.cls then
      let s := countSuspect s f.source
      if f.also = 0 then s else countSuspect s f.also
    else s

/-! ### Diagnostic frames -/

/-- The 64 bytes of a diagnostic frame but for ALIVE and CRC (16, diagnostic frame). -/
def diagBytes (s : State) (n : Nat) (f : FaultRec) (r : Reaction) : List Byte :=
  leBytes 1 0x52 ++ leBytes 1 0 ++ leBytes 1 (fget s Fd.safety_SAFE_STATE) ++ leBytes 1 (fget s (Fd.can_ROLE n)) ++
    faultBytes f ++ leBytes 1 (reactionCode r) ++
    leBytes 1 (fget s Fd.safety_NVM_FAULT + 2 * fget s Fd.daybook_DAYBOOK_VOLATILE) ++
    leBytes 2 (fget s Fd.safety_NVM_FAIL_COUNT) ++ leBytes 2 s.time.epoch.toNat ++
    leBytes 2 (fget s Fd.safety_DIAG_SUPPRESSED) ++ leBytes 36 0

/-- Classes that R644 never holds back. -/
def diagExempt (cls : Nat) : Bool := [0x1C, 0x1B, 0x15, 0x17, 0x19].contains cls

/-- Whether a controller takes diagnostic frames: SF_EN (R640); before READY, when no host can set it, frames queue on both
controllers (R676). -/
def canQueues (s : State) (n : Nat) : Bool := fget s (Fd.can_SF_EN n) == 1 || !s.boot.ready

/-- Queue a diagnostic frame on a controller (R644): whether it was queued. -/
def queueDiag (s : State) (n : Nat) (f : FaultRec) (r : Reaction) : State × Bool :=
  match s.can[n]? with
  | none => (s, true)
  | some c =>
    let full := 16 ≤ c.diag.length
    if full && !diagExempt f.cls then (s, false)
    else
      let q := (if full then c.diag.tail else c.diag) ++ [⟨f.cls, diagBytes s n f r⟩]
      ({ s with can := s.can.set n { c with diag := q } }, true)

/-- Send notice of an entry (R644). -/
def diagnose (s : State) (f : FaultRec) (r : Reaction) : State :=
  let key := f.cls * 2 ^ 16 + f.source
  let held := match mapFind s.safety.diagLast key with
    | some t => now s < t + 25000
    | none => false
  if held && !diagExempt f.cls then fadd s Fd.safety_DIAG_SUPPRESSED 1
  else
    let on := (List.range 2).filter (canQueues s)
    let a := on.foldl (fun (a : State × Bool × Bool) n =>
      let q := queueDiag a.1 n f r
      (q.1, a.2.1 || q.2, a.2.2 || !q.2)) (s, false, false)
    let s := if a.2.1 then
        { a.1 with safety := { a.1.safety with diagLast := mapIns a.1.safety.diagLast key (now s) } }
      else a.1
    if a.2.2 then fadd s Fd.safety_DIAG_SUPPRESSED 1 else s

/-! ### Entering a safe state -/

/-- A safety frame is due on both controllers (R643). -/
def canDue (s : State) : State := { s with can := s.can.map fun c => { c with due := true } }

/-- Record a SAFE_EVENT (R622, R691, R696). -/
def safeEvent (s : State) (state : Nat) (f : FaultRec) : State :=
  ledgerEvent s 0x07 (dataWords (leBytes 1 state ++ leBytes 1 f.cls ++ leBytes 2 f.source ++ leBytes 2 f.detail ++
    leBytes 2 s.time.epoch.toNat ++ leBytes 8 (now s) ++ leBytes 8 (fget s Fd.safety_A_CAUSES) ++ leBytes 8 (poweredMs s)))

/-- Count an entry for the class that caused it (R627, R696). -/
def countEntry (s : State) (cls : Nat) : State := ledgerAdd s 0x06 ((cls - 1) / 5) ((cls - 1) % 5) 1

/-- The pins and events common to every entry from NORMAL (R620, R628). -/
def leaveNormal (s : State) : State :=
  if fget s Fd.safety_SAFE_STATE = 0 then
    let s := setEvent s 0x004 9
    { s with pins := { s.pins with safeN := false, safeHb := false } }
  else s

/-- Enter safe state A (R620, R627, R628). -/
def enterSafeA (s : State) (f : FaultRec) : State :=
  let s := fput (leaveNormal s) Fd.safety_SAFE_STATE 1
  canDue (safeEvent (countEntry s f.cls) 1 f)

/-- Write the last-words event of an entry to safe state B (R622, R138). -/
def lastWordsB (s : State) (cls : Nat) : State :=
  let w : LastWord := ⟨cls, s.time.epoch.toNat, 0, now s, 0⟩
  { s with daybook := { s.daybook with lastWords := (w :: s.daybook.lastWords).take 8 } }

/-- Enter safe state B (R621, R622, R627, R631): PWR_KILL_N is due 12,500 pt on. -/
def enterSafeB (s : State) (f : FaultRec) : State :=
  let s := setEvent (fput (leaveNormal s) Fd.safety_SAFE_STATE 2) 0x004 10
  let s : State := { s with safety := { s.safety with bClass := f.cls, killDue := some (now s + 12500) } }
  let s := countEntry s f.cls
  canDue (if f.cls = 0x1B then s else lastWordsB (safeEvent s 2 f) f.cls)

/-- Set a class's bit of A_CAUSES (R626). -/
def addCause (s : State) (f : FaultRec) : State :=
  fput s Fd.safety_A_CAUSES (fget s Fd.safety_A_CAUSES ||| 2 ^ (f.cls - 1))

/-- React to the faults of one cycle, in the order they were logged (R624-R631). The entry's cause is the first, so the lowest
class, among those that reach the state entered. -/
def react (s : State) (l : List FaultRec) : State :=
  let s := (l.filter fun f => (reactionOf f).entersSafe).foldl addCause s
  let s :=
    match l.find? fun f => reactionOf f == .safeB with
    | some f => if fget s Fd.safety_SAFE_STATE = 2 then s else enterSafeB s f
    | none => match l.find? fun f => reactionOf f == .safeA with
      | some f => if fget s Fd.safety_SAFE_STATE = 0 then enterSafeA s f else s
      | none => s
  l.foldl (fun s f => if reactionOf f == .log then s else diagnose s f (reactionOf f)) s

/-- Log the faults of one cycle and react (R574-R576, R624). -/
def recordAll (s : State) (l : List FaultRec) : State :=
  let q := (sortFaults l).map fun f => { f with pm := now s }
  react (q.foldl recordFault s) q

/-- A fault as a block's checker reports it. -/
def faultOf (f : FaultIn) : FaultRec :=
  ⟨f.cls, f.sclass.toNat, f.pid.toNat, if f.notConsumed then lfNotConsumed else 0, f.source.toNat, f.detail.toNat, 0, 0, 0⟩

/-- Whether a class is defined (R576, fault classes). -/
def classDefined (c : Nat) : Bool := 1 ≤ c && c ≤ 0x20

/-- FAULT_REPORT (R574-R583, R624-R631): the faults on the fault bus, and those that blocks' checkers report in this cycle, are
recorded and get their reactions. -/
def execFaultReport (extra : List FaultIn) (s : State) : Host.Outcome State Fault Refusal :=
  if s.boot.aon && !s.boot.holdup then
    let l := s.safety.bus ++ (extra.filter fun f => classDefined f.cls).map faultOf
    .next (recordAll { s with safety := { s.safety with bus := [] } } l)
  else .next s

/-- PWR_KILL (R621): PWR_KILL_N asserts 12,500 pt after the entry. -/
def execPwrKill (s : State) : Host.Outcome State Fault Refusal :=
  match s.safety.killDue with
  | some t =>
    if !s.boot.holdup && (t ≤ now s || s.time.clkLost) then
      .next { s with pins := { s.pins with pwrKillN := false }, safety := { s.safety with killDue := none } }
    else .next s
  | none => .next s

/-! ### SAFE_IN_N and SAFE_HB -/

/-- SAFE_IN_N_LOW (R638, R636): the pin has been low for 25 pt; before READY it is sampled without effect. -/
def execSafeInNLow (s : State) : Host.Outcome State Fault Refusal :=
  let t : State := { s with pins := { s.pins with safeInN := false } }
  if s.boot.ready && s.pins.safeInN then .next (raise t 0x20 0x004 0xF 0xF 1) else .next t

/-- SAFE_IN_N_HIGH (R632). -/
def execSafeInNHigh (s : State) : Host.Outcome State Fault Refusal :=
  .next { s with pins := { s.pins with safeInN := true } }

/-- SAFE_HB_TOGGLE (R637): a half-period of 12,500 pt ±1% ends in NORMAL; the pin toggles when the supervision loop has asked for
it. -/
def execSafeHbToggle (requested : Bool) (s : State) : Host.Outcome State Fault Refusal :=
  if s.boot.ready && fget s Fd.safety_SAFE_STATE = 0 && s.safety.hbLast + 12375 ≤ now s then
    .next { s with
      pins := { s.pins with safeHb := if requested then !s.pins.safeHb else s.pins.safeHb }
      safety := { s.safety with hbLast := now s } }
  else .next s

/-! ### Leaving safe state A -/

/-- Whether 25,000,000 pt have passed without a class's condition (R624). -/
def quiet (s : State) (cls : Nat) : Bool := mapGet 0 s.safety.condLast cls + 25000000 ≤ now s

/-- The Leave condition of a class (R624). -/
def leaveOk (s : State) (cls : Nat) : Bool :=
  if [0x0B, 0x0F, 0x12].contains cls then true
  else if cls = 0x0D then s.safety.gapOpen.isEmpty
  else if cls = 0x10 then 2 ≤ s.safety.goodKicks
  else if cls = 0x11 then s.safety.walkClean
  else if [0x14, 0x16, 0x18].contains cls then quiet s cls
  else if cls = 0x1F then s.safety.latentOpen.isEmpty
  else if cls = 0x20 then s.pins.safeInN
  else false

/-- The classes in A_CAUSES. -/
def causes (s : State) : List Nat := ((List.range 32).filter (bit (fget s Fd.safety_A_CAUSES))).map (· + 1)

/-- Whether LEAVE_SAFE_A may leave (R632, R634, R635). -/
def mayLeave (s : State) : Bool :=
  fget s Fd.safety_SAFE_STATE == 1 && s.pins.safeInN && (causes s).all (leaveOk s) &&
    !s.safety.bus.any fun f => (reactionOf f).entersSafe

/-- LEAVE_SAFE_A (R632-R635): the state after, and RESULT: 0 left, 1 refused. In NORMAL there is nothing to leave. -/
def leaveSafe (s : State) : State × Nat :=
  if fget s Fd.safety_SAFE_STATE = 0 then
    (s, if s.safety.bus.any fun f => (reactionOf f).entersSafe then 1 else 0)
  else if mayLeave s then
    let s := fputs s [(Fd.safety_SAFE_STATE, 0), (Fd.safety_A_CAUSES, 0)]
    let s : State := { s with
      pins := { s.pins with safeN := s.boot.ready, safeHb := false }
      safety := { s.safety with hbLast := now s } }
    (canDue s, 0)
  else (s, 1)

/-! ### Stream watches -/

/-- STREAM_GAP (R587, R588): MAX_GAP_PT has passed without a valid publication on the watched stream. -/
def execStreamGap (w : Fin 16) (s : State) : Host.Outcome State Fault Refusal :=
  let gap := fget s (Fd.age_MAX_GAP_PT w)
  let last := s.safety.watchLast.getD w 0
  if s.boot.ready && gap != 0 && last + gap < now s then
    let c := (mapFind s.safety.watchSclass w).getD 0xF
    let t := fadd (fput s Fd.age_GAP_ACTIVE (fget s Fd.age_GAP_ACTIVE ||| 2 ^ w.val)) (Fd.age_GAP_COUNT w) 1
    let t := setEvent t 0x005 9
    let t : State := { t with safety := { t.safety with
      watchLast := t.safety.watchLast.set w (last + gap)
      gapOpen := if severeClass c then w.val :: t.safety.gapOpen.filter (· != w.val) else t.safety.gapOpen } }
    .next (raise t 0x0D 0x005 c (fget s (Fd.age_W_PID w)) 0)
  else .next s

/-! ### The firmware watchdog -/

/-- Open a watchdog window now, with the bounds in force (R593, R749), and draw the next challenge: the 16-bit value of R418's
generator, whose seed and counter the spec does not give here, is free. -/
def openWindow (s : State) : State :=
  let d := draw s
  let s := fput d.1 Fd.safety_WDG_CHALLENGE d.2
  { s with safety := { s.safety with
      wdgArmed := true, wdgLast := now s
      wdgMin := fget s Fd.safety_WDG_MIN_PT, wdgMax := fget s Fd.safety_WDG_MAX_PT } }

/-- Judge a kick (R593, R618): early, late or wrong raises WATCHDOG and leaves the window as it is. -/
def kick (s : State) (v : Nat) : State :=
  let dt := now s - s.safety.wdgLast
  let right := v % 2 ^ 16 == 0xFFFF - fget s Fd.safety_WDG_CHALLENGE
  if s.safety.wdgMin ≤ dt && dt ≤ s.safety.wdgMax && right then
    openWindow { s with safety := { s.safety with goodKicks := s.safety.goodKicks + 1 } }
  else raise s 0x10 0x004 0xF 0xF 0

/-- WDG_KICK (R593): an action write; a write that enables no byte of the field does nothing. -/
def execWdgKick (q : Requester) (v : W32) (be : BitVec 4) (s : State) : Host.Outcome State Fault Refusal :=
  let t := regWrite denyNone s q 0x004 0x068 v be
  if writeReaches s q 0x004 0x068 && bits (beMask be) 15 0 != 0 && s.safety.wdgArmed then
    .next (kick t (v.toNat &&& beMask be))
  else .next t

/-- WATCHDOG_EXPIRY (R593, R618): no good kick by WDG_MAX_PT; the next window is counted from here. -/
def execWatchdogExpiry (s : State) : Host.Outcome State Fault Refusal :=
  if s.safety.wdgArmed && s.safety.wdgLast + s.safety.wdgMax < now s then
    .next (raise { s with safety := { s.safety with wdgLast := now s } } 0x10 0x004 0xF 0xF 0)
  else .next s

/-! ### Configuration signatures and checker injection -/

/-- The pages whose signature differs from its reference (R595): only an upset makes them differ. -/
def signatureDiffs (s : State) : List Nat :=
  ((s.safety.flips.map fun e => e.1 / 32 / 4096).eraseDups).filter fun p => signature (healed s) p != signature s p

/-- CONFIG_SIGNATURE_WALK (R595, R617): every page's signature is recomputed; each difference raises CONFIG_SIG. -/
def execConfigSignatureWalk (s : State) : Host.Outcome State Fault Refusal :=
  if s.boot.ready && s.safety.nextWalk ≤ now s then
    let l := signatureDiffs s
    let t : State := { s with safety := { s.safety with nextWalk := s.safety.nextWalk + 12500, walkClean := l.isEmpty } }
    .next (l.foldl (fun t p => raise t 0x11 0x004 0xF 0xF p) t)
  else .next s

/-- When the next injection into the comparator or the fault bus is due (R610). -/
def injectionDue (s : State) (bus : Bool) : Nat := if bus then s.safety.nextBus else s.safety.nextInject

/-- The next injection is due 250,000 pt later for the comparator, 25,000,000 pt for the fault bus (R610). -/
def scheduleInjection (s : State) (bus : Bool) : State :=
  { s with safety := { s.safety with
      nextBus := if bus then s.safety.nextBus + 25000000 else s.safety.nextBus
      nextInject := if bus then s.safety.nextInject else s.safety.nextInject + 250000 } }

/-- CHECKER_INJECTION (R610, R612): the comparator or the fault bus is injected; an injection that is not detected is a CHECKER
fault. -/
def execCheckerInjection (bus detected : Bool) (s : State) : Host.Outcome State Fault Refusal :=
  if s.boot.ready && injectionDue s bus ≤ now s then
    let t := scheduleInjection s bus
    .next (if detected then t else raise t 0x1A 0x004 0xF 0xF 0)
  else .next s

/-! ### Effects of SAFETY_CMD (R614) -/

/-- Every page present (R748). -/
def allPages : List Nat := regBlocks.flatMap fun b => (List.range b.count).map fun i => b.first + i

/-- The pages that SEAL locks (R614, R745). -/
def sealPages : List Nat := (allPages.eraseDups).filter sealable

/-- SEAL and UNSEAL (R614): set or clear LOCK in every sealable page. -/
def setLocks (s : State) (v : Nat) : State := sealPages.foldl (fun s p => fput s (Fd.hdr_LOCK p) v) s

/-- INJECT (R614, R615): the entry is recorded at once with INJECTED set and gets its class's reaction. -/
def injectFault (s : State) (cls source : Nat) : State :=
  recordAll s [⟨cls, 0xF, 0xF, lfInjected, source, 0, 0, 0, 0⟩]

/-- Units of a kind as ROTATE and SUSPECT_CLEAR name them; none for a reserved kind (R614). -/
def unitExists (k u : Nat) : Bool := k ≤ 5 && u < physCount k

/-- SUSPECT_CLEAR (R614): empty a unit's count. -/
def clearSuspect (s : State) (k u : Nat) : State :=
  { s with safety := { s.safety with suspect := s.safety.suspect.filter fun e => suspectUnit e.1 != some (k, u) } }

/-- Whether a unit's own test has begun, or waits only for its boundary or its copy (R613). -/
def testPending (s : State) (k u : Nat) : Bool :=
  s.spare.takeovers.any (fun x => x.1 == k && x.2.1 == u && x.2.2.2 == 2) ||
    (k == 3 && match s.spare.copyFor with
      | some c => c.1 == u && c.2.2 == 2
      | none => false)

/-- ROTATE (R614, R607-R613, R709, R722): the state after, and RESULT: 0 started, 1 deferred. -/
def rotateUnit (s : State) (k u : Nat) : State × Nat :=
  if s.fuses.mapped.contains (k, u) then (s, 1)
  else if testPending s k u then (s, 0)
  else
    match mapFind s.spare.tests k with
    | some t => if t.unit = u then (s, 0) else ({ s with spare := { s.spare with asked := s.spare.asked ++ [(k, u)] } }, 1)
    | none =>
      let s : State := { s with spare := { s.spare with asked := (k, u) :: s.spare.asked } }
      if testing s k then (s, 1)
      else
        let t := startTest s k u
        (t, if t.spare.asked.contains (k, u) then 1 else 0)

end Sys2Proof.Machine
end

