-- ==== Sys2Proof/Machine/Can.lean ====
section
/-! DEFINITION. The CAN FD controllers (16 R640-R645, 17 R657, R676, 19 R756, R757): safety and diagnostic frames, and the
mailbox. -/

namespace Sys2Proof.Machine

/-- A controller's record. -/
def canOf (s : State) (n : Nat) : CanSt := s.can.getD n ⟨false, none, 0, [], none, []⟩

/-- Replace a controller's record. -/
def setCan (s : State) (n : Nat) (c : CanSt) : State := { s with can := s.can.set n c }

/-! ### Safety frames -/

/-- CRC-16 of a frame (R641): polynomial 0x1021, initial 0xFFFF, unreflected. -/
def crc16 (bs : List Byte) : Nat := bs.foldl (crcByteL 16 0x1021) 0xFFFF

/-- LAST_CLASS (16, safety frame). -/
def lastClass (s : State) : Nat :=
  if fget s Fd.safety_SAFE_STATE = 2 then s.safety.bClass else (causes s).headD 0

/-- The newest summary of the stream that a controller's page names (R642). -/
def summaryFor (s : State) (n : Nat) : Option Summary :=
  mapFind s.safety.summaries (streamKey (fget s (Fd.can_SF_PID n)) (fget s (Fd.can_SF_STREAM n)))

/-- AGE_PT of a summary at frame build (R31, R641). -/
def summaryAge (s : State) (x : Summary) : Nat := min 0xFFFFFFFF (cyc 48 (now s) x.docket.postmark.toNat)

/-- RESULT_VALID (R642). -/
def resultValid (s : State) (x : Summary) : Bool :=
  fget s Fd.safety_SAFE_STATE == 0 && x.docket.flags.toNat &&& flagInvalid == 0 && summaryAge s x ≤ x.limit

/-- Bytes 0x04 and 0x08-0x27 of a safety frame, without LAST_CLASS and POWER_EPOCH (16, safety frame). With no summary the
result fields are 0 and LIMIT_PT is the partition's limit. -/
def summaryPart (s : State) (n : Nat) : Nat × List Byte :=
  match summaryFor s n with
  | none => (0, leBytes 28 0 ++ leBytes 4 (ageLimit s (fget s (Fd.can_SF_PID n)) 0))
  | some x =>
    (b2n (resultValid s x) + x.docket.flags.toNat % 64 * 2,
      leBytes 6 x.release ++ leBytes 4 (summaryAge s x) ++ bytesAt x.data 0x0C 2 ++ bytesAt x.data 0 4 ++
        bytesAt x.data 4 8 ++ bytesAt x.data 0x18 4 ++ leBytes 4 x.limit)

/-- A safety frame but for ALIVE and CRC (16, safety frame). -/
def safetyBytes (s : State) (n : Nat) : List Byte :=
  let p := summaryPart s n
  leBytes 1 0x51 ++ leBytes 1 0 ++ leBytes 1 (fget s Fd.safety_SAFE_STATE) ++ leBytes 1 (fget s (Fd.can_ROLE n)) ++
    leBytes 1 p.1 ++ leBytes 1 (lastClass s) ++ leBytes 2 s.time.epoch.toNat ++ p.2 ++
    leBytes 2 s.safety.nonInjected ++ leBytes 22 0

/-- Whether an event of R643 calls for a safety frame on a controller now. -/
def frameWanted (s : State) (n : Nat) : Bool :=
  (canOf s n).due || (canOf s n).lastBuilt + fget s (Fd.can_SF_REPEAT_PT n) ≤ now s

/-- SAFETY_FRAME_BUILD (R643): a frame is built and queued; it replaces one that has not begun transmission. -/
def execSafetyFrameBuild (n : Fin 2) (s : State) : Host.Outcome State Fault Refusal :=
  if s.boot.powerGood && !s.boot.holdup && canQueues s n && frameWanted s n then
    .next (setCan s n { canOf s n with due := false, lastBuilt := now s, safety := some ⟨safetyBytes s n⟩ })
  else .next s

/-! ### Transmission -/

/-- Whether a controller transmits (R640, R676). -/
def canSends (s : State) (n : Nat) : Bool :=
  s.boot.ready && !s.boot.holdup && fget s (Fd.can_CAN_EN n) == 1 && fget s (Fd.can_LISTEN_ONLY n) == 0 &&
    fget s (Fd.can_BUS_OFF n) == 0

/-- A frame with its ALIVE and CRC (R641). -/
def sealFrame (s : State) (n alive : Nat) (b : List Byte) : List Byte :=
  let b := b.take 1 ++ leBytes 1 alive ++ bytesAt (b.drop 2) 0 0x3C
  b ++ leBytes 2 (crc16 (leBytes 2 (fget s (Fd.can_DATA_ID n)) ++ b))

/-- Begin the next transmission (R640-R643): the frame already begun, else the safety frame, else the oldest diagnostic frame.
ALIVE rises for each frame that begins. -/
def beginFrame (s : State) (n : Nat) : State × Option (Bool × List Byte) :=
  let c := canOf s n
  match c.bus with
  | some f => (s, some f)
  | none =>
    if fget s (Fd.can_SF_EN n) = 0 then (s, none)
    else match c.safety with
      | some f =>
        let alive := fget s (Fd.can_SF_ALIVE n) + 1
        let b := sealFrame s n alive f.bytes
        (setCan (fput s (Fd.can_SF_ALIVE n) alive) n { c with safety := none, bus := some (true, b) }, some (true, b))
      | none => match c.diag with
        | [] => (s, none)
        | f :: fs =>
          let alive := fget s (Fd.can_DIAG_ALIVE n) + 1
          let b := sealFrame s n alive f.bytes
          (setCan (fput s (Fd.can_DIAG_ALIVE n) alive) n { c with diag := fs, bus := some (false, b) }, some (false, b))

/-- The identifier of a frame (R640). -/
def frameIdent (s : State) (n : Nat) (safety : Bool) : Nat :=
  let v := if safety then fget s (Fd.can_SF_CAN_ID n) else fget s (Fd.can_DIAG_CAN_ID n)
  if fget s (Fd.can_ID29 n) = 1 then v else v % 2 ^ 11

/-- The error counters after traffic: ISO 11898-1 gives their values, the spec does not (log entry 90). -/
def errorCounters (s : State) (n : Nat) : State :=
  let d := draw s
  fput (fput d.1 (Fd.can_TEC n) d.2) (Fd.can_REC n) (d.2 / 256)

/-- CAN_FRAME_TRANSMIT (R640, R643, R645): the controller sends its next frame; one that fails is retried. -/
def execCanFrameTransmit (n : Fin 2) (acked : Bool) (s : State) : Host.Outcome State Fault Refusal :=
  if canSends s n then
    match beginFrame s n with
    | (t, some (safety, b)) =>
      if acked then
        let t := send t (.can n (frameIdent s n safety) b)
        let t := fadd t (if safety then Fd.can_SF_TX_COUNT n else Fd.can_DIAG_TX_COUNT n) 1
        .next (errorCounters (setCan t n { canOf t n with bus := none }) n)
      else .next (errorCounters (setEvent (fadd t (Fd.can_TX_RETRY_COUNT n) 1) (0x088 + n) 10) n)
    | (_, none) => .next s
  else .next s

/-! ### Reception -/

/-- Data bytes of a DLC: classic frames hold at most 8 (ISO 11898-1). -/
def dlcBytes (fdf : Bool) (dlc : Nat) : Nat :=
  if fdf then [0, 1, 2, 3, 4, 5, 6, 7, 8, 12, 16, 20, 24, 32, 48, 64].getD dlc 0 else min 8 dlc

/-- Whether a controller receives: before READY it only listens (R676); from READY it needs CAN_EN. -/
def canListens (s : State) (n : Nat) : Bool :=
  s.boot.powerGood && !s.boot.holdup && fget s (Fd.can_BUS_OFF n) == 0 &&
    (!s.boot.ready || fget s (Fd.can_CAN_EN n) == 1)

/-- CAN_FRAME_RECEIVE (R757): a frame that passes the ISO 11898-1 checks enters the mailbox. -/
def execCanFrameReceive (n : Fin 2) (frame : CanFrame) (s : State) : Host.Outcome State Fault Refusal :=
  if canListens s n then
    let f : CanFrame := { frame with
      ident := if frame.ide then frame.ident else BitVec.ofNat 29 (frame.ident.toNat % 2 ^ 11)
      data := frame.data.take (dlcBytes frame.fdf frame.dlc) }
    let t := setCan s n { canOf s n with mailbox := (f :: (canOf s n).mailbox).take 8 }
    .next (errorCounters (setEvent (fadd t (Fd.can_RX_COUNT n) 1) (0x088 + n) 9) n)
  else .next s

/-- BUS_OFF (R645): a controller goes bus-off, or has rejoined. -/
def execBusOff (n : Fin 2) (rejoined : Bool) (s : State) : Host.Outcome State Fault Refusal :=
  if rejoined then
    if fget s (Fd.can_BUS_OFF n) = 1 then .next (errorCounters (fput s (Fd.can_BUS_OFF n) 0) n) else .next s
  else if canSends s n then
    let t := fadd (fput s (Fd.can_BUS_OFF n) 1) (Fd.can_CAN_BUSOFF_COUNT n) 1
    .next (errorCounters (lifeAdd (setEvent t (0x088 + n) 8) 1 3) n)
  else .next s

end Sys2Proof.Machine
end

