-- ==== Sys2Proof/Machine/Dram.lean ====
section
/-! DEFINITION. What the LPDDR5X controller takes from outside the Corod's tasks: host accesses through BAR2, which wait for
Strict DRAM slots, and refresh (06 R234-R238, R243, R244, R248, R272, R768). -/

namespace Sys2Proof.Machine

/-! ### BAR2 -/

/-- BAR2_BASE of a function (R243). -/
def bar2Base (s : State) (f : Nat) : Nat :=
  fget s (Fd.dev_BAR2_BASE_LO f) * 2 ^ 16 + fget s (Fd.dev_BAR2_BASE_HI f) * 2 ^ 32

/-- Whether a function's traffic is dropped: its link is down, or it has not come back after a loss (R680). -/
def fnGone (s : State) (f : Nat) : Bool := !s.pins.linkUp || s.lostFns.contains f

/-- A BAR2 read (R244, R268, R272, R768): blocked, or poisoned in a word it covers, it completes poisoned. -/
def bar2Read (s : State) (f off len : Nat) : State :=
  match pidOfFn s f with
  | none => poisonCompletion (blockedAccess (noteParity s [96 + f]) none 0xF false) f len
  | some p =>
    let r := pidRead s p (bar2Base s f + off) len 0xF
    match r.2.2 with
    | .ok => send (complete r.1 r.2.1) (.pcie f false r.2.1)
    | _ => poisonCompletion r.1 f len

/-- A BAR2 write (R244, R268, R272): a blocked write is dropped. -/
def bar2Write (s : State) (f off : Nat) (data : List Byte) : State :=
  match pidOfFn s f with
  | none => blockedAccess (noteParity s [96 + f]) none 0xF true
  | some p => (pidWrite s p (bar2Base s f + off) data 0xF).1

/-- Do a BAR2 access. -/
def bar2Access (s : State) (x : HostAccess) : State :=
  match x.data with
  | some bs => bar2Write s x.fn x.off bs
  | none => bar2Read s x.fn x.off x.len

/-- Whether a BAR2 access must wait for LPDDR5X (R245, R248). -/
def bar2Waits (s : State) (x : HostAccess) : Bool :=
  match pidOfFn s x.fn with
  | some p => !dramFree s p (bar2Base s x.fn + x.off + x.len - 1)
  | none => false

/-- Take the accesses that wait, in order, up to the first that must go on waiting (R248). -/
def drainList : List HostAccess → State → State
  | [], s => { s with bar2 := [] }
  | x :: xs, s =>
    if fnGone s x.fn then drainList xs s
    else if bar2Waits s x then { s with bar2 := x :: xs }
    else drainList xs (bar2Access s x)

/-- Host accesses that waited for LPDDR5X go on when it is free (R248). -/
def drainBar2 (s : State) : State := drainList s.bar2 s

/-- A BAR2 access arrives: it is done at once, or waits behind those that wait already (R244, R248; log entry 217). -/
def bar2Arrive (s : State) (x : HostAccess) : State :=
  if fnGone s x.fn then s
  else if s.bar2.isEmpty && !bar2Waits s x then bar2Access s x
  else { s with bar2 := s.bar2 ++ [x] }

/-- BAR2_READ (R244). -/
def execBar2Read (f : Fin 16) (off : W64) (len : Nat) (s : State) : Host.Outcome State Fault Refusal :=
  .next (bar2Arrive s ⟨f, off.toNat, len, none⟩)

/-- BAR2_WRITE (R244). -/
def execBar2Write (f : Fin 16) (off : W64) (data : List Byte) (s : State) : Host.Outcome State Fault Refusal :=
  .next (bar2Arrive s ⟨f, off.toNat, data.length, some data⟩)

/-! ### Refresh -/

/-- Take an MR4 report: what is owed up to now counts at the rate reported before (06, Refresh). -/
def takeMr4 (s : State) (mr4 : W16) : State := fput (accrue s) Fd.dram_MR4_RATE mr4.toNat

/-- Issue one refresh on all four channels. -/
def issueRefresh (s : State) : State :=
  let early : Bool := s.refresh.owed ≤ 0
  let s := (List.range 4).foldl (fun s c =>
    let s := fadd s (Fd.dramCnt_REFRESH_ISSUED c) 1
    if early then fadd s (Fd.dramCnt_PULLED_IN c) 1 else s) s
  { s with refresh := { s.refresh with owed := s.refresh.owed - 1 } }

/-- One patrol-scrub read on each channel, in ascending address order: a correctable word is corrected and counted, an
uncorrectable one reported. -/
def patrolRead (s : State) : State :=
  let w := s.refresh.patrol
  let base := dramBase / 8
  let next := if w + 1 = dramBytes s / 8 then 0 else w + 1
  let s : State := { s with refresh := { s.refresh with patrol := next } }
  let a := (base + w) * 8
  match mapFind s.ecc (base + w) with
  | some .corr => fadd (eccSet (countCorr s (rangeOf s a)) (base + w) none) (Fd.dramCnt_PATROL_CORR (dramChannel a)) 1
  | some .uncorr => countUncorr s (rangeOf s a) 0xF 0xF
  | _ => s

/-- Repeat an operation. -/
def iter {α : Type} (f : α → α) : Nat → α → α
  | 0, a => a
  | n + 1, a => iter f n (f a)

/-- REFRESH (R234): with no Strict partition, a refresh and a patrol read at the rate MR4 reports: as many refreshes as leave no more
than eight owed, at least one, and none more than eight ahead of the demand. -/
def execRefresh (mr4 : W16) (s : State) : Host.Outcome State Fault Refusal :=
  if s.boot.dram && !anyStrict s then
    let t := takeMr4 s mr4
    .next (patrolRead (if -8 < t.refresh.owed then iter issueRefresh (max 1 (t.refresh.owed - 8).toNat) t else t))
  else .next s

/-- The ticks that a slot of the timetable has passed (R342). -/
def slotElapsed (s : State) (k : Nat) : Nat :=
  let c := max 1 (ttCycle s.sched.active)
  (cyclePos s + c - ttStart s.sched.active k % c) % c

/-- The whole units of REFRESH_UNIT_PT that remain in an open REFRESH slot after what already fills it (R236, R237). -/
def slotUnits (s : State) (k : Nat) : Nat :=
  (now s + ttLen s.sched.active k - slotElapsed s k - max (now s) s.refresh.busyTo) / fget s Fd.dram_REFRESH_UNIT_PT

/-- REFRESH_SLOT (R235, R237): in an open REFRESH slot of the active timetable, first every refresh owed, then refreshes pulled in
up to eight ahead, then patrol reads in the whole units that remain; no command runs past the end of the slot. -/
def execRefreshSlot (slot : Nat) (mr4 : W16) (s : State) : Host.Outcome State Fault Refusal :=
  if s.boot.dram && anyStrict s && slotOpen s slot && !ttIsWindow s.sched.active slot then
    let t := takeMr4 s mr4
    let units := slotUnits t slot
    let issue := min units (t.refresh.owed + 8).toNat
    let t := iter patrolRead (units - issue) (iter issueRefresh issue t)
    .next { t with refresh := { t.refresh with
      busyTo := max (now t) t.refresh.busyTo + units * fget t Fd.dram_REFRESH_UNIT_PT } }
  else .next s

/-- Whether the REFRESH slots of the active timetable meet a refresh rate: the conditions of R236 at that multiple. -/
def slotsKeepUp (s : State) (mult : Nat) : Bool :=
  let tt := s.sched.active
  ((List.range (ttCount tt)).filter fun k => !ttIsWindow tt k).all fun k =>
    let i := refreshInterval tt k
    i ≤ 776 / mult && fget s Fd.dram_REFRESH_UNIT_PT * ceilDiv (i * mult) 97 ≤ ttLen tt k

/-- Whether a REFRESH slot is open. -/
def inRefreshSlot (s : State) : Bool :=
  (List.range (ttCount s.sched.active)).any fun k => slotOpen s k && !ttIsWindow s.sched.active k

/-- REFRESH_OVERRUN (R238): a refresh issued outside the slots, because MR4 reports a rate that they cannot meet and more than eight
would be owed; the running tasks of LPDDR5X that it delays carry T_THERMAL (R562). -/
def execRefreshOverrun (mr4 : W16) (delayed : List Nat) (s : State) : Host.Outcome State Fault Refusal :=
  let t := takeMr4 s mr4
  if s.boot.dram && anyStrict s && 8 < t.refresh.owed && !slotsKeepUp s (mr4Mult mr4.toNat) && !inRefreshSlot s then
    let t := issueRefresh t
    let t := fadd t Fd.dram_REFRESH_OVERRUN_COUNT 1
    let t := lifeAdd t 1 1
    let t := mapTasks t fun k =>
      if delayed.contains k.id && k.disp.isSome && (portsInDram (inPorts s k) || portsInDram (outPorts s k)) then
        { k with flags := k.flags ||| flagThermal } else k
    .next (raise t 0x13 0x080 0xF 0xF 0)
  else .next s

end Sys2Proof.Machine
end

