-- ==== Sys2Proof/Machine/JCore.lean ====
section
/-! DEFINITION. A joiner core (08 R316-R332): its address space, its registers, its two modes, and one instruction of
RV64IMAFDC. -/

namespace Sys2Proof.Machine

/-! ### Registers -/

/-- A floating-point register's bits in a format; a single that is not boxed reads as the canonical NaN. -/
def CoreSt.rf (k : CoreSt) (dbl : Bool) (i : Nat) : Nat :=
  let v := (k.f.getD i 0).toNat
  if dbl then v else if v / 2 ^ 32 = 2 ^ 32 - 1 then v % 2 ^ 32 else canonNan fp32

/-- Write a floating-point register, a single boxed. -/
def CoreSt.wf (k : CoreSt) (dbl : Bool) (i v : Nat) : CoreSt :=
  { k with f := k.f.set i (BitVec.ofNat 64 (if dbl then v else v % 2 ^ 32 + (2 ^ 32 - 1) * 2 ^ 32)) }

/-- A control and status register as stored. -/
def CoreSt.rc (k : CoreSt) (a : Nat) : Nat := (mapGet (0 : W64) k.csr a).toNat

/-- Store a control and status register. -/
def CoreSt.wc (k : CoreSt) (a v : Nat) : CoreSt := { k with csr := mapPut 0 k.csr a (BitVec.ofNat 64 v) }

/-- fcsr: frm in bits [7:5], fflags in [4:0]; stored at 0x003. -/
def CoreSt.fcsr (k : CoreSt) : Nat := k.rc 3

/-- Raise exception flags. -/
def CoreSt.flag (k : CoreSt) (fl : Nat) : CoreSt := k.wc 3 (k.fcsr ||| fl)

/-! ### Memory -/

/-- How an access of a core ended: bytes, an exception, or a wait for LPDDR5X (R245, R248). -/
inductive CoreAccess where
  | ok (s : State) (data : List Byte)
  | trap (s : State) (cause : Nat)
  | wait

/-- The task a core runs. -/
def taskOn (s : State) (c : Nat) : Option Task := (coreAt s c).task.bind (taskOf s)

/-- The port of a task whose window holds an address range, with the offset in it: ports that lie in no device memory have
windows of their own (log entry 63). -/
def portAt (k : CoreSt) (size : Nat → Nat) (a n : Nat) : Option (Nat × Nat) :=
  (k.ports.find? fun p => p.2 ≤ a && a + n ≤ p.2 + size p.1).map fun p => (p.1, a - p.2)

/-- The sizes of a task's ports: inputs 0 to 7, outputs 8 to 11 (R328, R331). -/
def portSize (s : State) (t : Task) (i : Nat) : Nat :=
  (if i < 8 then ((inPorts s t)[i]?).map (·.size) else ((outPorts s t)[i - 8]?).map (·.size)).getD 0

/-- The words of a port's window that hold poisoned data, among those a range covers (R332). -/
def poisonedWords (k : CoreSt) (i o n : Nat) : List Nat :=
  (k.pois.filter fun e => e.1 == i && o / 8 ≤ e.2 && e.2 < (o + n + 7) / 8).map (·.2)

/-- A load from the device window (R325, R273): blocked or poisoned is cause 5. -/
def windowLoad (s : State) (c : Nat) (t : Task) (a n : Nat) : CoreAccess :=
  match portAt (coreAt s c) (portSize s t) a n with
  | some (i, o) =>
    if !(poisonedWords (coreAt s c) i o n).isEmpty then .trap s 5
    else .ok s (bytesAt (if i < 8 then t.inData.getD i [] else t.outs.getD (i - 8) []) o n)
  | none =>
    if !dramFree s t.pid (a - windowBase) then .wait
    else
      let r := pidRead s t.pid (a - windowBase) n t.sclass
      if r.2.2 = .ok then .ok r.1 r.2.1 else .trap r.1 5

/-- Whether a core's local address range lies in the routine ROM, which user mode does not see (R319, R324). -/
def inRom (k : CoreSt) (a n : Nat) : Bool := k.machine && 0x100000 ≤ a && a + n ≤ 0x110000

/-- Bytes of the routine ROM (R319). -/
def romBytes (s : State) (a n : Nat) : List Byte := (List.range n).map fun i => Config.routineRom s.boot.fwArith (a - 0x100000 + i)

/-- A load (R324, R325). -/
def coreLoad (s : State) (c : Nat) (t : Task) (a n : Nat) : CoreAccess :=
  if a + n ≤ 0x40000 then
    let r := readRaw s (storeAddr c a) n t.sclass t.pid
    if r.2.2 then .trap r.1 5 else .ok r.1 r.2.1
  else if inRom (coreAt s c) a n then .ok s (romBytes s a n)
  else if windowBase ≤ a && a + n ≤ 2 * windowBase then
    if a % n != 0 then .trap s 4 else windowLoad s c t a n
  else .trap s 5

/-- The words of a port's window that hold poison after a store of good data: a word it covers whole holds good data again
(R765). -/
def cleanPois (k : CoreSt) (i o n : Nat) : CoreSt :=
  { k with pois := k.pois.filter fun e => !(e.1 == i && o ≤ e.2 * 8 && e.2 * 8 + 8 ≤ o + n) }

/-- A store to the device window (R325, R273): blocked is cause 7. A store to an input's window is blocked. -/
def windowStore (s : State) (c : Nat) (t : Task) (a : Nat) (bs : List Byte) : CoreAccess :=
  match portAt (coreAt s c) (portSize s t) a bs.length with
  | some (i, o) =>
    if i < 8 then .trap s 7
    else
      let s := t.units.foldl (fun s u => setCore s u (cleanPois (coreAt s u) i o bs.length)) s
      .ok (putTask s { t with outs := t.outs.set (i - 8) (spliceBytes (t.outs.getD (i - 8) []) o bs) }) []
  | none =>
    if !dramFree s t.pid (a - windowBase) then .wait
    else
      let r := pidWrite s t.pid (a - windowBase) bs t.sclass
      if r.2 = .ok then .ok r.1 [] else .trap r.1 7

/-- A store (R324, R325): the stack and buffer areas, or the device window; machine mode reaches the whole local store. -/
def coreStore (s : State) (c : Nat) (t : Task) (a : Nat) (bs : List Byte) : CoreAccess :=
  if ((coreAt s c).machine || 0x11000 ≤ a) && a + bs.length ≤ 0x40000 then .ok (localWrite s t a bs) []
  else if windowBase ≤ a && a + bs.length ≤ 2 * windowBase then
    if a % bs.length != 0 then .trap s 6 else windowStore s c t a bs
  else .trap s 7

/-- The instruction at the pc (R324): its word, expanded, and its length; an undefined encoding; or an access fault. The fetch passes
through the corrector (R225); a word that cannot be trusted faults (log entry 207). -/
inductive Fetched where
  | ok (s : State) (w len : Nat)
  | undefined (s : State)
  | fault (s : State)

/-- Read `n` bytes of code: the code area, in machine mode the whole local store and the ROM (R324). -/
def codeBytes (s : State) (c : Nat) (t : Task) (pc n : Nat) : State × List Byte × Bool :=
  if pc + n ≤ (if (coreAt s c).machine then 0x40000 else 0x10000) then readRaw s (storeAddr c pc) n t.sclass t.pid
  else if inRom (coreAt s c) pc n then (s, romBytes s pc n, false)
  else (s, List.replicate n 0, true)

/-- The length of the instruction at the pc: its first parcel tells. -/
def parcelLength (s : State) (c pc : Nat) : Nat :=
  let p := if 0x100000 ≤ pc then romBytes s pc 2 else memBytes s (storeAddr c pc) 2
  if leNat p % 4 = 3 then 4 else 2

/-- Fetch (R316, R324). -/
def fetchAt (s : State) (c : Nat) (t : Task) (pc : Nat) : Fetched :=
  let n := parcelLength s c pc
  let r := codeBytes s c t pc n
  if r.2.2 then .fault r.1
  else
    let w := leNat r.2.1
    if n = 4 then if w % 32 = 31 || !rvDefined w then .undefined r.1 else .ok r.1 w 4
    else match expandC w with
      | some w => .ok r.1 w 2
      | none => .undefined r.1

/-! ### Arithmetic -/

/-- The integer operations of OP and OP-IMM, by funct3; `alt` is SUB or SRA. -/
def aluOp (f3 : Nat) (alt : Bool) (a b : W64) : W64 :=
  match f3 with
  | 0 => if alt then a - b else a + b
  | 1 => a <<< (b.toNat % 64)
  | 2 => if a.slt b then 1 else 0
  | 3 => if a.ult b then 1 else 0
  | 4 => a ^^^ b
  | 5 => if alt then a.sshiftRight (b.toNat % 64) else a >>> (b.toNat % 64)
  | 6 => a ||| b
  | _ => a &&& b

/-- Sign-extend the low 32 bits. -/
def sext32 (a : W64) : W64 := (a.truncate 32).signExtend 64

/-- The word forms. -/
def aluW (f3 : Nat) (alt : Bool) (a b : W64) : W64 :=
  let x := a.truncate 32
  let n := b.toNat % 32
  let r : W32 := match f3 with
    | 0 => if alt then x - b.truncate 32 else x + b.truncate 32
    | 1 => x <<< n
    | _ => if alt then x.sshiftRight n else x >>> n
  r.signExtend 64

/-- The multiplications and divisions of a width, on integers: division by zero gives all ones and the dividend, and the most
negative number over −1 gives itself and 0. -/
def mulDiv (w f3 : Nat) (a b : Nat) : Nat :=
  let sa := toSigned w a
  let sb := toSigned w b
  let ua := a % 2 ^ w
  let ub := b % 2 ^ w
  match f3 with
  | 0 => ofSigned w (sa * sb)
  | 1 => ofSigned w (sa * sb / (2 ^ w : Nat))
  | 2 => ofSigned w (sa * (ub : Int) / (2 ^ w : Nat))
  | 3 => ua * ub / 2 ^ w
  | 4 => if ub = 0 then 2 ^ w - 1 else ofSigned w (sa.tdiv sb)
  | 5 => if ub = 0 then 2 ^ w - 1 else ua / ub
  | 6 => if ub = 0 then ua else ofSigned w (sa.tmod sb)
  | _ => if ub = 0 then ua else ua % ub

/-- The branch conditions by funct3. -/
def branchTaken (f3 : Nat) (a b : W64) : Bool :=
  match f3 with
  | 0 => a == b
  | 1 => a != b
  | 4 => a.slt b
  | 5 => !a.slt b
  | 6 => a.ult b
  | _ => !a.ult b

/-- The atomic operations by funct5, on values of a width. -/
def amoOp (w f5 : Nat) (m v : Nat) : Nat :=
  let sm := toSigned w m
  let sv := toSigned w v
  let um := m % 2 ^ w
  let uv := v % 2 ^ w
  match f5 with
  | 0x00 => (um + uv) % 2 ^ w
  | 0x01 => uv
  | 0x04 => um ^^^ uv
  | 0x08 => um ||| uv
  | 0x0C => um &&& uv
  | 0x10 => if sm ≤ sv then um else uv
  | 0x14 => if sm ≤ sv then uv else um
  | 0x18 => min um uv
  | _ => max um uv

/-! ### One instruction -/

/-- How an instruction of a core ends: the core goes on; a vendor instruction or an ECALL stands at the pc; an exception is raised,
which ends the task (R330); or its access waits for LPDDR5X. -/
inductive CoreRun where
  | go (s : State)
  | vendor (s : State) (w : Nat)
  | ecall (s : State)
  | exc (cause : Nat) (s : State)
  | wait

/-- Count an instruction retired: since task entry, and in all (R322). -/
def CoreSt.counted (k : CoreSt) : CoreSt := (k.wc 0xC02 (k.rc 0xC02 + 1)).wc 0xB02 (k.rc 0xB02 + 1)

/-- Retire an instruction: the core's registers, the pc and the counts of instructions retired; the second core of a locked pair
follows (R333). -/
def retire (s : State) (t : Task) (k : CoreSt) (pc : Nat) : State :=
  let k := { k with pc := BitVec.ofNat 64 pc }.counted
  t.units.foldl (fun s c => setCore s c { k with tq := (coreAt s c).tq }) s

/-- What follows an access of a core. -/
def CoreAccess.andThen (r : CoreAccess) (f : State → List Byte → CoreRun) : CoreRun :=
  match r with
  | .ok s bs => f s bs
  | .trap s e => .exc e s
  | .wait => .wait

/-- The rounding mode of an instruction; none when it is reserved (R320). -/
def rmOf (k : CoreSt) (rm : Nat) : Option Nat :=
  let m := if rm = 7 then bits k.fcsr 7 5 else rm
  if m ≤ 4 then some m else none

/-- The OP-FP group. `dbl` is the format of the instruction. -/
def opFp (k : CoreSt) (w rm : Nat) : CoreSt :=
  let dbl := rvF7 w % 4 == 1
  let f := if dbl then fp64 else fp32
  let rd := rvRd w
  let f3 := rvF3 w
  let a := k.rf dbl (rvRs1 w)
  let b := k.rf dbl (rvRs2 w)
  let putF := fun (r : FRes) => (k.wf dbl rd r.1).flag r.2
  let putX := fun (r : FRes) => (k.wx rd (BitVec.ofNat 64 r.1)).flag r.2
  let x := (k.rx (rvRs1 w)).toNat
  match rvF7 w / 4 with
  | 0x00 => putF (fAdd f rm a b false)
  | 0x01 => putF (fAdd f rm a b true)
  | 0x02 => putF (fMul f rm a b)
  | 0x03 => putF (fDiv f rm a b)
  | 0x0B => putF (fSqrt f rm a)
  | 0x04 => putF (fSgnj f a b f3, 0)
  | 0x05 => putF (fMinMax f a b (f3 == 1))
  | 0x08 => putF (fConv (if dbl then fp32 else fp64) f rm (k.rf (!dbl) (rvRs1 w)))
  | 0x14 => putX (fCmp f a b f3)
  | 0x18 => putX (fToInt f rm a (if rvRs2 w < 2 then 32 else 64) (rvRs2 w % 2 == 0))
  | 0x1A =>
    let i : Int := match rvRs2 w with
      | 0 => toSigned 32 x
      | 1 => (x % 2 ^ 32 : Nat)
      | 2 => toSigned 64 x
      | _ => (x : Nat)
    putF (fOfInt f rm i)
  | 0x1C =>
    if f3 = 1 then putX (fClass f a, 0)
    else
      let raw := (k.f.getD (rvRs1 w) 0).toNat
      putX (if dbl then raw else ofSigned 64 (toSigned 32 raw), 0)
  | _ => putF (if dbl then x else x % 2 ^ 32, 0)

/-- The fused multiply-adds. -/
def opMadd (k : CoreSt) (w rm : Nat) (negP negC : Bool) : CoreSt :=
  let dbl := rvF7 w % 4 == 1
  let f := if dbl then fp64 else fp32
  let r := fMadd f rm (k.rf dbl (rvRs1 w)) (k.rf dbl (rvRs2 w)) (k.rf dbl (bits w 31 27)) negP negC
  (k.wf dbl (rvRd w) r.1).flag r.2

/-- The machine-mode control and status registers (R322). -/
def machineCsr (a : Nat) : Bool :=
  [0x300, 0x301, 0x304, 0x305, 0x340, 0x341, 0x342, 0x343, 0x344, 0xB00, 0xB02, 0xF11, 0xF12, 0xF13, 0xF14, 0xFC0, 0xFC1].contains a

/-- Whether a page holds the machine external interrupt of logical pair 0 pending (R730). -/
def meiPending (s : State) (page : Nat) : Bool :=
  fget s (Fd.hdr_OWNER_PID page) == 0 && fget s (Fd.hdr_EVT_MEI_EN page) == 1 && pendingBits s page != 0

/-- MEIP of a core: the interrupt is raised only on logical pair 0 (R323). -/
def meip (s : State) (c : Nat) : Bool := logicalPair s c == 0 && (List.range 4096).any fun p => pagePresent p && meiPending s p

/-- misa: MXL 2; extensions A, C, D, F, I, M, U and X (R322). -/
def misaValue : Nat := 2 ^ 63 + 2 ^ 0 + 2 ^ 2 + 2 ^ 3 + 2 ^ 5 + 2 ^ 8 + 2 ^ 12 + 2 ^ 20 + 2 ^ 23

/-- What a read of a control and status register gives (R322). The cycle counts are a matter of timing: free (log entry 64). -/
def csrRead (s : State) (c : Nat) (t : Task) (k : CoreSt) (a : Nat) : State × Nat :=
  match a with
  | 1 => (s, bits k.fcsr 4 0)
  | 2 => (s, bits k.fcsr 7 5)
  | 3 => (s, k.fcsr)
  | 0xC00 => let d := draw s; (d.1, d.2 % 2 ^ 64)
  | 0xB00 => let d := draw s; (d.1, d.2 % 2 ^ 64)
  | 0xC01 => (s, now s)
  | 0x301 => (s, misaValue)
  | 0x344 => (s, b2n (meip s c) * 2 ^ 11)
  | 0xF11 => (s, 0)
  | 0xF12 => (s, 0)
  | 0xF13 => (s, 0xB1)
  | 0xF14 => (s, logicalPair s c * 2 + c % 2)
  | 0xFC0 => (s, t.pid)
  | 0xFC1 => (s, t.sclass)
  | _ => (s, k.rc a)

/-- The fields of mstatus: MIE, MPIE, MPP and FS; MPP holds a mode that exists (R322; log entry 218). -/
def mstatusOf (v : Nat) : Nat := (v &&& 0x6088) + if bits v 12 11 = 3 then 0x1800 else 0

/-- A write of a control and status register (R322). MEIP follows the interrupt alone, and the cycle count is not held. -/
def csrWrite (k : CoreSt) (a v : Nat) : CoreSt :=
  match a with
  | 1 => k.wc 3 (setBits k.fcsr 4 0 (v % 32))
  | 2 => k.wc 3 (setBits k.fcsr 7 5 (v % 8))
  | 3 => k.wc 3 (v % 256)
  | 0x300 => k.wc 0x300 (mstatusOf v)
  | 0x304 => k.wc 0x304 (v &&& 2 ^ 11)
  | 0x305 => k.wc 0x305 (v / 4 * 4)
  | 0x341 => k.wc 0x341 (v / 2 * 2)
  | 0x301 => k
  | 0x344 => k
  | 0xB00 => k
  | _ => k.wc a v

/-- A control and status register instruction: none is an illegal instruction, as is a register of machine mode in user mode and a
write of one that is read-only (R322). -/
def csrOp (s : State) (c : Nat) (t : Task) (k : CoreSt) (w : Nat) : Option (State × CoreSt) :=
  let a := bits w 31 20
  let f3 := rvF3 w
  let src := if 4 ≤ f3 then rvRs1 w else (k.rx (rvRs1 w)).toNat
  let writes := f3 % 4 == 1 || rvRs1 w != 0
  if !(userCsr a || (k.machine && machineCsr a)) || (writes && 0xC00 ≤ a) then none
  else
    let r := csrRead s c t k a
    let v := match f3 % 4 with
      | 1 => src
      | 2 => r.2 ||| src
      | _ => r.2 - (r.2 &&& src)
    let k := if writes then csrWrite k a v else k
    some (r.1, k.wx (rvRd w) (BitVec.ofNat 64 r.2))

/-- MRET: the core goes back to the mode and the place the trap left (R316, R322). -/
def mret (s : State) (t : Task) (k : CoreSt) : State :=
  let st := k.rc 0x300
  let k' := k.wc 0x300 (setBits (setBits (setBits st 3 3 (bits st 7 7)) 7 7 1) 12 11 0)
  retire s t { k' with machine := bits st 12 11 == 3 } (k.rc 0x341)

/-- Take the machine external interrupt on a core (R322, R323). -/
def takeInterrupt (k : CoreSt) : CoreSt :=
  let st := k.rc 0x300
  let k' := k.wc 0x300 (setBits (setBits (setBits st 7 7 (bits st 3 3)) 3 3 0) 12 11 (if k.machine then 3 else 0))
  { ((k'.wc 0x341 k.pc.toNat).wc 0x342 (2 ^ 63 + 11)).wc 0x343 0 with machine := true, pc := BitVec.ofNat 64 (k.rc 0x305) }

/-- Whether a core takes the machine external interrupt now: it is enabled, and pending (R322, R323). -/
def takesMei (s : State) (c : Nat) : Bool :=
  let k := coreAt s c
  (!k.machine || bit (k.rc 0x300) 3) && bit (k.rc 0x304) 11 && meip s c

/-- The cores that take the machine external interrupt take it. -/
def takeMei (s : State) : State :=
  (List.range 34).foldl (fun s c => if takesMei s c then setCore s c (takeInterrupt (coreAt s c)) else s) s

/-- A load into a register: bytes, sign extension. -/
def loadValue (f3 : Nat) (bs : List Byte) : W64 :=
  let n := 2 ^ (f3 % 4)
  let v := leNat bs
  BitVec.ofNat 64 (if f3 < 4 then ofSigned 64 (toSigned (8 * n) v) else v)

/-- LR, SC and the AMOs (R321): only on the local store; elsewhere cause 7. -/
def coreAmo (s : State) (c : Nat) (t : Task) (k : CoreSt) (w next : Nat) : CoreRun :=
  let a := (k.rx (rvRs1 w)).toNat
  let n := if rvF3 w = 2 then 4 else 8
  let f5 := rvF7 w / 4
  let rd := rvRd w
  let ext := fun (v : Nat) => (BitVec.ofNat 64 (ofSigned 64 (toSigned (8 * n) v)) : W64)
  if !(a + n ≤ 0x40000) then .exc 7 s
  else if f5 = 2 then
    (coreLoad s c t a n).andThen fun s bs => .go (retire s t ({ k with resv := some a }.wx rd (ext (leNat bs))) next)
  else if f5 = 3 then
    if k.resv == some a then
      (coreStore s c t a (leBytes n (k.rx (rvRs2 w)).toNat)).andThen fun s _ =>
        .go (retire s t ({ k with resv := none }.wx rd 0) next)
    else .go (retire s t ({ k with resv := none }.wx rd 1) next)
  else
    match coreLoad s c t a n with
    | .ok s bs =>
      (coreStore s c t a (leBytes n (amoOp (8 * n) f5 (leNat bs) (k.rx (rvRs2 w)).toNat))).andThen fun s _ =>
        .go (retire s t (k.wx rd (ext (leNat bs))) next)
    | .trap s _ => .exc 7 s
    | .wait => .wait

/-- A load instruction. -/
def coreLoadOp (s : State) (c : Nat) (t : Task) (k : CoreSt) (w next : Nat) : CoreRun :=
  let a := (k.rx (rvRs1 w) + BitVec.ofInt 64 (rvImmI w)).toNat
  let n := 2 ^ (rvF3 w % 4)
  (coreLoad s c t a n).andThen fun s bs =>
    .go (retire s t (if rvOp w = 0x07 then k.wf (rvF3 w == 3) (rvRd w) (leNat bs)
      else k.wx (rvRd w) (loadValue (rvF3 w) bs)) next)

/-- A store instruction. -/
def coreStoreOp (s : State) (c : Nat) (t : Task) (k : CoreSt) (w next : Nat) : CoreRun :=
  let a := (k.rx (rvRs1 w) + BitVec.ofInt 64 (rvImmS w)).toNat
  let n := 2 ^ (rvF3 w % 4)
  let v := if rvOp w = 0x27 then (k.f.getD (rvRs2 w) 0).toNat else (k.rx (rvRs2 w)).toNat
  (coreStore s c t a (leBytes n v)).andThen fun s _ => .go (retire s t { k with pois := (coreAt s c).pois } next)

/-- The floating-point computations; a reserved rounding mode is an illegal instruction. -/
def coreFp (s : State) (t : Task) (k : CoreSt) (w next : Nat) : CoreRun :=
  let f5 := rvF7 w / 4
  let needsRm := rvOp w != 0x53 || f5 ≤ 3 || [0x08, 0x0B, 0x18, 0x1A].contains f5
  match (if needsRm then rmOf k (rvF3 w) else some 0) with
  | none => .exc 2 s
  | some rm =>
    let k := match rvOp w with
      | 0x43 => opMadd k w rm false false
      | 0x47 => opMadd k w rm false true
      | 0x4B => opMadd k w rm true false
      | 0x4F => opMadd k w rm true true
      | _ => opFp k w rm
    .go (retire s t k next)

/-- The SYSTEM group (R316, R322, R326, R330): MRET, WFI, which may end at once, and the machine-mode registers are illegal in user
mode. -/
def coreSystem (s : State) (c : Nat) (t : Task) (k : CoreSt) (w next : Nat) : CoreRun :=
  if rvF3 w = 0 then
    if w = 0x73 then .ecall s
    else if w = 0x00100073 then .exc 3 s
    else if !k.machine then .exc 2 s
    else if w = 0x30200073 then .go (mret s t k) else .go (retire s t k next)
  else match csrOp s c t k w with
    | some r => .go (retire r.1 t r.2 next)
    | none => .exc 2 s

/-- A vendor instruction stands at the pc. The descriptor of a TQ.PUSH must lie in the local store, 32-byte aligned; the spec
gives no effect for another, and it is taken as an access fault of its load (log entry 66). A DK.INV of no output port of the
operator is illegal (R364). -/
def coreVendor (s : State) (t : Task) (k : CoreSt) (w : Nat) : CoreRun :=
  let a := (k.rx (rvRs1 w)).toNat
  if rvOp w = 0x0B && rvF3 w == 0 then
    if !(a + 32 ≤ 0x40000) then .exc 5 s else if a % 32 != 0 then .exc 4 s else .vendor s w
  else if rvOp w = 0x2B && rvF3 w == 1 then
    if 8 ≤ a && a < 8 + min 4 (outPorts s t).length then .vendor s w else .exc 2 s
  else .vendor s w

/-- One instruction of a core (R316, R320-R326). -/
def rvStep (s : State) (c : Nat) (t : Task) : CoreRun :=
  let k := coreAt s c
  let pc := k.pc.toNat
  match fetchAt s c t pc with
  | .fault s => .exc 1 s
  | .undefined s => .exc 2 s
  | .ok s w len =>
    let next := pc + len
    let rd := rvRd w
    let a := k.rx (rvRs1 w)
    let b := k.rx (rvRs2 w)
    let imm : W64 := BitVec.ofInt 64 (rvImmI w)
    let put := fun (v : W64) => CoreRun.go (retire s t (k.wx rd v) next)
    let alt := bit w 30
    match rvOp w with
    | 0x03 => coreLoadOp s c t k w next
    | 0x07 => coreLoadOp s c t k w next
    | 0x0B => coreVendor s t k w
    | 0x2B => coreVendor s t k w
    | 0x0F => .go (retire s t k next)
    | 0x13 => put (aluOp (rvF3 w) (alt && rvF3 w == 5) a imm)
    | 0x17 => put (k.pc + BitVec.ofInt 64 (rvImmU w))
    | 0x1B => put (aluW (rvF3 w) (alt && rvF3 w == 5) a imm)
    | 0x23 => coreStoreOp s c t k w next
    | 0x27 => coreStoreOp s c t k w next
    | 0x2F => coreAmo s c t k w next
    | 0x33 => put (if rvF7 w = 1 then BitVec.ofNat 64 (mulDiv 64 (rvF3 w) a.toNat b.toNat) else aluOp (rvF3 w) alt a b)
    | 0x37 => put (BitVec.ofInt 64 (rvImmU w))
    | 0x3B => put (if rvF7 w = 1 then sext32 (BitVec.ofNat 64 (mulDiv 32 (rvF3 w) a.toNat b.toNat)) else aluW (rvF3 w) alt a b)
    | 0x63 => .go (retire s t k (if branchTaken (rvF3 w) a b then (k.pc + BitVec.ofInt 64 (rvImmB w)).toNat else next))
    | 0x67 => .go (retire s t (k.wx rd (BitVec.ofNat 64 next)) ((a + imm).toNat / 2 * 2))
    | 0x6F => .go (retire s t (k.wx rd (BitVec.ofNat 64 next)) (k.pc + BitVec.ofInt 64 (rvImmJ w)).toNat)
    | 0x73 => coreSystem s c t k w next
    | _ => coreFp s t k w next

/-- Run a core until a vendor instruction, an ECALL or an exception stands at its pc, or `n` instructions have retired. -/
def runCore : Nat → State → Nat → Nat → State
  | 0, s, _, _ => s
  | n + 1, s, c, id =>
    match taskOf s id with
    | none => s
    | some t => match rvStep s c t with
      | .go s' => runCore n s' c id
      | _ => s

end Sys2Proof.Machine
end

