-- ==== Sys2Proof/Machine/Lattice.lean ====
section
/-! DEFINITION. The World Lattice (10 R398-R413): enabling it, world builds, indexing and publication. -/

namespace Sys2Proof.Machine

/-! ### Exact geometry -/

/-- A point in the plane. -/
abbrev Pt := Int × Int

/-- Cross product of b − a and c − a. -/
def cross (a b c : Pt) : Int := (b.1 - a.1) * (c.2 - a.2) - (b.2 - a.2) * (c.1 - a.1)

/-- Dot product of b − a and c − a. -/
def dot (a b c : Pt) : Int := (b.1 - a.1) * (c.1 - a.1) + (b.2 - a.2) * (c.2 - a.2)

/-- Squared distance. -/
def dist2 (a b : Pt) : Int := dot a b b

/-- Whether two segments cross, by exact orientation signs. -/
def segsCross (a b c d : Pt) : Bool :=
  let o1 := (cross a b c).sign
  let o2 := (cross a b d).sign
  let o3 := (cross c d a).sign
  let o4 := (cross c d b).sign
  o1 * o2 < 0 && o3 * o4 < 0

/-- Whether a point is within `r` of a segment. -/
def pointWithin (r : Int) (p a b : Pt) : Bool :=
  let t := dot a b p
  let l := dist2 a b
  if t ≤ 0 then dist2 p a ≤ r * r
  else if l ≤ t then dist2 p b ≤ r * r
  else cross a b p * cross a b p ≤ r * r * l

/-- Whether two segments come within `r` of each other. -/
def segsWithin (r : Int) (a b c d : Pt) : Bool :=
  segsCross a b c d || pointWithin r a c d || pointWithin r b c d || pointWithin r c a b || pointWithin r d a b

/-- Whether a point lies in a triangle, its border included. -/
def inTriangle (p a b c : Pt) : Bool :=
  let x := (cross a b p).sign
  let y := (cross b c p).sign
  let z := (cross c a p).sign
  cross a b c != 0 && !((x < 0 || y < 0 || z < 0) && (0 < x || 0 < y || 0 < z))

/-- Whether an axis-parallel square comes within `r` of the convex hull of four points: they share a point, or an edge of one
comes within `r` of a segment of the other. -/
def squareNear (r x0 y0 side : Int) (a b c d : Pt) : Bool :=
  let q := [((x0, y0) : Pt), (x0 + side, y0), (x0 + side, y0 + side), (x0, y0 + side)]
  let edges := [(q.getD 0 (0, 0), q.getD 1 (0, 0)), (q.getD 1 (0, 0), q.getD 2 (0, 0)), (q.getD 2 (0, 0), q.getD 3 (0, 0)),
    (q.getD 3 (0, 0), q.getD 0 (0, 0))]
  let segs := [(a, b), (a, c), (a, d), (b, c), (b, d), (c, d)]
  ([a, b, c, d].any fun p => x0 ≤ p.1 && p.1 ≤ x0 + side && y0 ≤ p.2 && p.2 ≤ y0 + side) ||
    (q.any fun p => inTriangle p a b c || inTriangle p a b d || inTriangle p a c d || inTriangle p b c d) ||
    edges.any fun e => segs.any fun g => segsWithin r e.1 e.2 g.1 g.2

/-! ### Object records -/

/-- A capsule of a slice (R404): its end points in mm and its effective radius (R405). -/
structure Capsule where
  a : Pt
  b : Pt
  r : Int
  deriving DecidableEq, Repr

/-- Capsule `m` of slice `k` of an object record. -/
def capsuleAt (o : List Byte) (k m : Nat) : Capsule :=
  let w := 0x40 + 24 * (4 * k + m)
  let s32 := fun i => toSigned 32 (leAt o (w + i) 4)
  ⟨(s32 0, s32 4), (s32 8, s32 12), ((leAt o (w + 16) 2 + leAt o (w + 18) 2 : Nat) : Int)⟩

/-- Object record `o` of a table. -/
def objectAt (table : List Byte) (o : Nat) : List Byte := (table.drop (2048 * o)).take 2048

/-- CAPS of an object. -/
def capsOf (o : List Byte) : Nat := leAt o 6 1

/-- The capsules of an object, slice by slice. -/
def shapesOf (o : List Byte) : List (List Capsule) :=
  (List.range 16).map fun k => (List.range (capsOf o)).map (capsuleAt o k)

/-- Whether an object of these capsules qualifies for the list of a bin and slice (R409). -/
def qualifies (shapes : List (List Capsule)) (b k : Nat) : Bool :=
  let x0 : Int := ((32 * (b % 32) : Nat) - 512 : Int) * 50
  let y0 : Int := ((32 * (b / 32) : Nat) - 512 : Int) * 50
  ((shapes.getD k []).zip (shapes.getD (min 15 (k + 1)) [])).any fun p =>
    squareNear (3072 + max p.1.r p.2.r) x0 y0 1600 p.1.a p.1.b p.2.a p.2.b

/-- An object as the index sees it: its number, its PRIORITY and its capsules. -/
structure IndexObj where
  num : Nat
  prio : Nat
  shapes : List (List Capsule)

/-- Insert an object in ascending (PRIORITY, number) order; objects come in ascending number. -/
def insertObj (o : IndexObj) : List IndexObj → List IndexObj
  | [] => [o]
  | x :: xs => if o.prio < x.prio then o :: x :: xs else x :: insertObj o xs

/-- The objects of a table in the order of every list (R409). -/
def indexObjects (table : List Byte) (count : Nat) : List IndexObj :=
  (List.range count).foldl (fun l i =>
    let o := objectAt table i
    insertObj ⟨i, leAt o 5 1, shapesOf o⟩ l) []

/-- The lists of every bin and slice, untruncated, bin by bin. -/
def allLists (table : List Byte) (count : Nat) : List (List Nat) :=
  let objs := indexObjects table count
  (List.range 16384).map fun i => (objs.filter fun o => qualifies o.shapes (i / 16) (i % 16)).map (·.num)

/-- The bytes of one list: up to 16 object numbers, padded with 0xFFFF. -/
def listBytes (l : List Nat) : List Byte :=
  (List.range 16).flatMap fun i => leBytes 2 (l.getD i 0xFFFF)

/-- CROWDED_MAP: bit 16b + k is set when that list is truncated. -/
def crowdedMap (lists : List (List Nat)) : List Byte :=
  (List.range 2048).map fun i => BitVec.ofNat 8 ((List.range 8).foldl (fun a j =>
    a + b2n (16 < (lists.getD (8 * i + j) []).length) * 2 ^ j) 0)

/-! ### Validation of a build -/

/-- The offset of the first non-zero byte in a range, as a fault. -/
def zeroRun (b : List Byte) (lo n : Nat) : Option Nat :=
  ((List.range n).find? fun i => leAt b (lo + i) 1 != 0).map (lo + ·)

/-- The first fault of an object record, by its own offsets (R407). -/
def objectFault (b : List Byte) : Option Nat :=
  let caps := leAt b 6 1
  firstSome ([chk (leAt b 4 1 ≤ 5) 4, chk (caps ≤ 4) 6, zeroRun b 7 57] ++
    ((List.range 64).flatMap fun i =>
      let w := 0x40 + 24 * i
      if i % 4 < caps then
        ((List.range 4).map fun j => chk ((toSigned 32 (leAt b (w + 4 * j) 4)).natAbs ≤ 1000000) (w + 4 * j)) ++
          [zeroRun b (w + 20) 4]
      else [zeroRun b w 24]) ++ [zeroRun b 0x640 448])

/-- The first fault of `n` consecutive object records, the first of which begins at an offset. -/
def objectFaults : Nat → List Byte → Nat → Option Nat
  | 0, _, _ => none
  | n + 1, b, o =>
    match objectFault (b.take 2048) with
    | some f => some (o + f)
    | none => objectFaults n (b.drop 2048) (o + 2048)

/-- The first fault of a build's header and objects (R407): `objs` is where object records begin, `sizeOk` whether the size
supplied fits OBJ_COUNT, `fresh` that there is no newest epoch to copy from. -/
def buildFault (b : List Byte) (parts objs : Nat) (sizeOk fresh : Bool) : Option Nat :=
  let n := leAt b 6 2
  match firstSome [chk (leAt b 0 4 == 0x5A435755) 0, chk (leAt b 4 1 == parts && (!fresh || parts == 3)) 4, zeroRun b 5 1,
    chk (n ≤ 1024 && (bit parts 1 || n == 0) && sizeOk) 6, zeroRun b 0x0F 1, zeroRun b 0x16 2, zeroRun b 0x18 40] with
  | some o => some o
  | none => objectFaults n (b.drop objs) objs

/-! ### Enabling -/

/-- Whether LAT_EN may be set as the fields stand (R398). -/
def latticeOk (s : State) : Bool :=
  let p := fget s Fd.lattice_LAT_PID
  let base := fget s Fd.lattice_EPOCH_BASE
  let k := base / bankBytes
  enabledPid s p && base % bankBytes == 0 && k + 4 ≤ 32 && ((List.range 4).all fun i => bit (beamMask s p) (k + i)) &&
    ((tensorsOf s p).all fun t => t.addr + t.size ≤ base || base + 4 * bankBytes ≤ t.addr) &&
    1 ≤ fget s Fd.lattice_STREAM && fget s Fd.lattice_SCLASS ≤ fget s (Fd.part_MAX_SCLASS p)

/-- The lattice starts afresh (R398, R399). -/
def latticeStart (s : State) : State :=
  let s := fputs s [(Fd.lattice_NEWEST_EPOCH, 0), (Fd.lattice_NEWEST_BUF, 0), (Fd.lattice_PUBLISHED, 0)]
  { s with lattice := ⟨[], none, 0, none⟩ }

/-- Discard one build (R400): a Letter replies NOT_READY; an operator publishes nothing and completes. -/
def dropBuild (s : State) : BuildSrc → State
  | .letter ch seq => finishLetter s ch seq (Result.plain 0x14 0)
  | .task id => match taskOf s id with
    | some t => completeTask s t
    | none => s

/-- LAT_EN clears (R398, R400): every build is discarded and no epoch is read again. -/
def latticeStop (s : State) : State :=
  let gone := s.lattice.active.toList ++ s.lattice.queue
  let key := streamKey (fget s Fd.lattice_LAT_PID) (fget s Fd.lattice_STREAM)
  let s := fput s Fd.lattice_PUBLISHED 0
  let s := { s with lattice := ⟨[], none, 0, none⟩, streams := mapDel s.streams key }
  gone.foldl dropBuild s

/-- What a write of the lattice page refuses (R398): another field while LAT_EN is 1, and a LAT_EN that may not be set. -/
def latticeDeny (before next : State) : DenyRule := fun row _ v =>
  if row.name == "LAT_EN" then v == 1 && !latticeOk next else fget before Fd.lattice_LAT_EN == 1

/-- LAT_EN_WRITE (R398, R400). -/
def execLatEnWrite (q : Requester) (v : W32) (be : BitVec 4) (s : State) : Host.Outcome State Fault Refusal :=
  let was := fget s Fd.lattice_LAT_EN
  let t := regWrite (latticeDeny s (regWrite denyNone s q 0x090 0x040 v be)) s q 0x090 0x040 v be
  let is := fget t Fd.lattice_LAT_EN
  .next (if was = 0 && is = 1 then latticeStart t else if was = 1 && is = 0 then latticeStop t else t)

/-- A SET_PARTITION that takes a lattice bank from LAT_PID clears LAT_EN first (R400). -/
def dropLattice (s : State) (pid newBanks : Nat) : State :=
  let k := fget s Fd.lattice_EPOCH_BASE / bankBytes
  if fget s Fd.lattice_LAT_EN = 1 && fget s Fd.lattice_LAT_PID = pid && !((List.range 4).all fun i => bit newBanks (k + i)) then
    latticeStop (badValue (fput s Fd.lattice_LAT_EN 0) 0x090)
  else s

/-! ### Builds -/

/-- The address of a lattice buffer (R399). -/
def bufAddr (s : State) (b : Nat) : Nat := fget s Fd.lattice_EPOCH_BASE + b * 0x600000

/-- A build asks for the back buffer (R412). -/
def requestBuild (s : State) (src : BuildSrc) : State :=
  let waits := backHeld s || s.lattice.active.isSome || !s.lattice.queue.isEmpty
  let s := if waits then fadd s Fd.lattice_BUILD_WAIT_COUNT 1 else s
  { s with lattice := { s.lattice with queue := s.lattice.queue ++ [src] } }

/-- Whether a build that waits is still wanted: its Letter has not been cancelled or superseded, its task not cut. -/
def buildLive (s : State) : BuildSrc → Bool
  | .letter ch seq => (letterOf s ch seq).any fun l => l.phase == .accepted
  | .task id => (taskOf s id).isSome

/-- WORLD_BUILD (R406, R412): the operator's task asks for the back buffer; with LAT_EN clear the build is discarded
(R400). -/
def execWorldBuild (task : Nat) (s : State) : Host.Outcome State Fault Refusal :=
  match taskOf s task with
  | some t =>
    if t.disp.isSome && !t.computed && t.code == 0x061 then
      if fget s Fd.lattice_LAT_EN = 0 then .next (completeTask s t)
      else .next (requestBuild (putTask s { t with computed := true }) (.task task))
    else .next s
  | none => .next s

/-- Whether there is no newest epoch. -/
def noEpoch (s : State) : Bool := fget s Fd.lattice_PUBLISHED == 0

/-- PARTS of a Letter. -/
def partsArg (l : Letter) : Nat := arg l.l 0x18 1

/-- The first fault of a WORLD_UPDATE payload (R407). -/
def updateFault (s : State) (l : Letter) : Option Nat :=
  let parts := partsArg l
  let n := leAt l.data 6 2
  let objs := 64 + b2n (bit parts 0) * 0x200000
  buildFault l.data parts objs (arg l.l 0x28 4 == objs + b2n (bit parts 1) * 2048 * n) (noEpoch s)

/-- PARTS of a WORLD_BUILD task. -/
def taskParts (s : State) (t : Task) : Nat :=
  match letterOf s t.ch t.seq with
  | some l => match planOf s l with
    | some p => (((planOps p.words)[t.op]?).map fun o => bits (o.param 0) 1 0).getD 0
    | none => 0
  | none => 0

/-- BUILD_START (R412): the first build asked for obtains the back buffer. A WORLD_UPDATE starts, or fails its validation and
replies BAD_FIELD (R407; log entry 58). -/
def execBuildStart (s : State) : Host.Outcome State Fault Refusal :=
  if fget s Fd.lattice_LAT_EN = 1 && s.lattice.active.isNone && !backHeld s then
    match s.lattice.queue with
    | [] => .next s
    | src :: rest =>
      let s := { s with lattice := { s.lattice with queue := rest } }
      if !buildLive s src then .next s
      else match src with
        | .letter ch seq =>
          match letterOf s ch seq with
          | some l => match updateFault s l with
            | some o => .next (finishLetter s ch seq (Result.plain 0x12 (0x20000000 + o)))
            | none => .next (markStarted { s with lattice := { s.lattice with active := some src } } ch seq)
          | none => .next s
        | .task _ => .next { s with lattice := { s.lattice with active := some src } }
  else .next s

/-! ### Publication -/

/-- What a build supplies: header and object bytes, field bytes, PARTS, the postmark of its source, flags and validity. -/
structure BuildIn where
  head : List Byte
  objects : List Byte
  field : List Byte
  parts : Nat
  src : Nat
  flags : Nat
  valid : Bool

/-- The earlier of two 48-bit postmarks (R157). -/
def earlierPm (a b : Nat) : Nat := if olderPm b a then b else a

/-- SRC_PM or the acceptance postmark (R408). -/
def updateSource (l : Letter) : Nat :=
  let p := leAt l.data 0x10 8
  if p != 0 && olderPm p (l.acceptPm % 2 ^ 48) then p else l.acceptPm % 2 ^ 48

/-- What a WORLD_UPDATE supplies (R406). -/
def updateIn (l : Letter) : BuildIn :=
  let parts := partsArg l
  let objs := 64 + b2n (bit parts 0) * 0x200000
  ⟨l.data.take 64, l.data.drop objs, (l.data.drop 64).take 0x200000, parts, updateSource l, 0, true⟩

/-- What a WORLD_BUILD supplies (R406, R408). -/
def taskIn (s : State) (t : Task) (pm : Nat) : BuildIn :=
  let b := t.inData.getD 0 []
  let parts := taskParts s t
  let n := leAt b 6 2
  let ok := (buildFault b parts 64 (64 + 2048 * n ≤ b.length) (noEpoch s)).isNone
  ⟨b.take 64, b.drop 64, t.inData.getD 1 [], parts, pm, t.flags, ok⟩

/-- Copy a range between the lattice buffers; words that read poisoned or uncorrectable are stored poisoned (R408, R229). The
flag tells whether any did. -/
def copyPart (s : State) (src dst n sclass pid : Nat) : State × Bool :=
  let bad := (markedWords s src n).filter fun w => match mapFind s.ecc w with
    | some .corr => false
    | _ => true
  let r := readRaw s src n sclass pid
  let s := writeRaw r.1 dst r.2.1 sclass pid
  (bad.foldl (fun s w => eccSet s (w + dst / 8 - src / 8) (some .poison)) s, !bad.isEmpty)

/-- The epoch header (R403), but for its CRC. -/
def epochHeader (epoch eflags pm fieldPm tracksPm count : Nat) (head : List Byte) (publish : Nat) (crowded : List Byte) :
    List Byte :=
  leBytes 4 0x5A435745 ++ leBytes 2 epoch ++ leBytes 2 eflags ++ leBytes 8 pm ++ leBytes 8 fieldPm ++ leBytes 8 tracksPm ++
    leBytes 2 count ++ bytesAt head 0x0E 1 ++ leBytes 1 0 ++ bytesAt head 8 6 ++ leBytes 6 0 ++ leBytes 8 publish ++
    leBytes 200 0 ++ crowded ++ leBytes 1788 0

/-- Write the back buffer and make it newest (R407-R411): the docket it is published with, and whether it is past the age limit
given, which is judged for a WORLD_UPDATE and for a plan's output stream (R584, R585). -/
def publishEpoch (s : State) (b : BuildIn) (limit : Option Nat) (safeOwner : Bool) (owner : Nat) : State × Docket × Bool :=
  let pid := fget s Fd.lattice_LAT_PID
  let cls := fget s Fd.lattice_SCLASS
  let stream := fget s Fd.lattice_STREAM
  let fresh := noEpoch s
  let old := bufAddr s (fget s Fd.lattice_NEWEST_BUF)
  let dst := bufAddr s (backBuf s)
  let oldHead := memBytes s old 64
  let hasField := bit b.parts 0
  let hasTracks := bit b.parts 1
  let n := if hasTracks then min 1024 (leAt b.head 6 2) else if fresh then 0 else leAt oldHead 0x20 2
  let c1 := if hasField then (writeRaw s (dst + 0x1000) (bytesAt b.field 0 0x200000) cls pid, false)
    else if fresh then (s, false) else copyPart s (old + 0x1000) (dst + 0x1000) 0x200000 cls pid
  let c2 := if hasTracks then (writeRaw c1.1 (dst + 0x201000) (bytesAt (b.objects.take (2048 * n)) 0 0x200000) cls pid, false)
    else if fresh then (c1.1, false) else copyPart c1.1 (old + 0x201000) (dst + 0x201000) 0x200000 cls pid
  let s := c2.1
  let lists := if b.valid then allLists (memBytes s (dst + 0x201000) 0x200000) n else List.replicate 16384 []
  let crowdedN := (lists.filter fun l => 16 < l.length).length
  let s := writeRaw s (dst + 0x401000) (lists.flatMap listBytes) cls pid
  let fieldPm := if hasField || fresh then b.src else leAt oldHead 0x10 8
  let tracksPm := if hasTracks || fresh then b.src else leAt oldHead 0x18 8
  let pm := earlierPm (earlierPm fieldPm tracksPm) b.src
  let copied := (!hasField || !hasTracks) && !fresh
  let inherited := if copied then (s.lattice.newest.map fun d => d.flags.toNat % 64).getD 0 else 0
  let poison := c1.2 || c2.2 || bit b.flags 1
  let safe := safeInvalid s cls || safeOwner
  let aged := limit.any fun n => tooOld s pm (ageLimit s owner n)
  let f := b.flags ||| inherited ||| (if poison then 3 else 0) ||| (if b.valid then 0 else flagInvalid) |||
    (if safe then flagInvalid else 0) ||| (if aged then flagInvalid ||| flagAged else 0)
  let epoch := nextWorldEpoch s
  let eflags := b2n (!hasField) + b2n (!hasTracks) * 2 + b2n (crowdedN != 0) * 4 + b2n (!b.valid || poison) * 8
  let count := if b.valid then n else leAt b.head 6 2
  let h := epochHeader epoch eflags pm fieldPm tracksPm count b.head (now s) (crowdedMap lists)
  let s := writeRaw s dst (h ++ leBytes 4 (crc32c h)) cls pid
  let d := mkDocket pid stream epoch s.lattice.seq pm cls f
  let s := if crowdedN = 0 then s else (List.range crowdedN).foldl (fun s _ => setEvent s 0x090 9)
    (fadd s Fd.lattice_CROWDED_COUNT crowdedN)
  let s := if b.valid then s else setEvent (fadd s Fd.lattice_BUILD_INVALID_COUNT 1) 0x090 8
  let back := backBuf s
  let s := fputs s [(Fd.lattice_NEWEST_EPOCH, epoch), (Fd.lattice_NEWEST_BUF, back), (Fd.lattice_PUBLISHED, 1)]
  let s := fadd s Fd.lattice_PUBLISH_COUNT 1
  let s : State := { s with lattice := { s.lattice with active := none, seq := s.lattice.seq + 1, newest := some d } }
  let s := putItem s (streamKey pid stream) ⟨[], d, now s, some ⟨32, back, dst, epochBytes, 0, 0, 0⟩, false⟩
  let s := countTags s pid f
  (noteWatch s pid stream cls d.flags.toNat, d, aged)

/-- What a published epoch means for its Letter (R45, R79, R586): its partition, whether it is past its age limit, its docket. -/
def noteEpoch (s : State) (ch seq pid : Nat) (aged : Bool) (d : Docket) : State :=
  let s := if aged then
      noteStatus (raise (setEvent (setEvent (fadd s (Fd.part_AGED_COUNT pid) 1) (0x060 + pid) 9) 0x005 8)
        0x0C 0x005 (fget s Fd.lattice_SCLASS) pid 0) ch seq 0x22 0
    else s
  if bit d.flags.toNat 1 then noteStatus s ch seq 0x40 0 else s

/-- The age limit of a WORLD_BUILD's stream entry (R585), when its output is a plan output stream (R584). -/
def buildLimit (s : State) (t : Task) : Option Nat :=
  match outPorts s t with
  | .stream _ _ _ a :: _ => some a
  | _ => none

/-- EPOCH_PUBLISH (R407-R411): the build that owns the back buffer is copied, indexed and published; its Letter replies with
the epoch, or its operator completes. -/
def execEpochPublish (s : State) : Host.Outcome State Fault Refusal :=
  match s.lattice.active with
  | none => .next s
  | some (.letter ch seq) =>
    match letterOf s ch seq with
    | none => .next { s with lattice := { s.lattice with active := none } }
    | some l =>
      let r := publishEpoch s (updateIn l) (some 0) (safeLetter s l) l.pid
      let s := noteEpoch r.1 ch seq l.pid r.2.2 r.2.1
      let s := if safeLetter s l then noteStatus s ch seq 0x42 0 else s
      .next (finishLetter s ch seq { ((letterOf s ch seq).getD l).res with
        docket := some r.2.1, result := leBytes 2 r.2.1.epoch.toNat })
  | some (.task id) =>
    match taskOf s id with
    | none => .next { s with lattice := { s.lattice with active := none } }
    | some t =>
      let o := originOf s t
      let r := publishEpoch o.1 (taskIn o.1 t o.2.1) (buildLimit s t) (safeTask s t) t.pid
      let s := noteEpoch r.1 t.ch t.seq t.pid r.2.2 r.2.1
      let s := updLetter s t.ch t.seq fun l =>
        { l with res := { l.res with docket := some r.2.1 }, run := l.run.map fun x => { x with written := x.written + 1 } }
      .next (completeTask s t)

end Sys2Proof.Machine
end

