-- ==== Sys2Proof/Machine/Pair.lean ====
section
/-! DEFINITION. The bus pair (13 R545, R546, 18 R711-R718): heartbeats, PEER_LOST, the standby's copy of the primary's entries,
and promotion. -/

namespace Sys2Proof.Machine

/-- Whether the topology is the pair (R518). -/
def isPair (s : State) : Bool := fget s Fd.coll_TOPO == 0

/-- Whether both pair links are DOWN (R546): neither is UP. -/
def pairDown (s : State) : Bool := !linkUp s 0 && !linkUp s 1

/-- Set the pair role; ROLE in both CAN FD pages follows (R711). -/
def setPairRole (s : State) (r : Nat) : State :=
  fputs s [(Fd.daybook_PAIR_ROLE, r), (Fd.can_ROLE 0, r), (Fd.can_ROLE 1, r)]

/-- Clear PEER_READY (R714). -/
def clearReady (s : State) : State :=
  if fget s Fd.daybook_PEER_READY = 1 then setEvent (fput s Fd.daybook_PEER_READY 0) 0x006 10 else s

/-! ### Promotion -/

/-- The newest of a channel's peer sequences under R120. -/
def newestPeer (l : List Nat) : Option Nat :=
  l.foldl (fun a q => match a with
    | some h => if later 32 q h then some q else some h
    | none => some q) none

/-- The deduplication window that a channel takes at promotion (R716). -/
def peerWindow (s : State) (ch : Nat) : Chan :=
  let seqs := (s.pair.entries.filter fun e => e.1 == ch).map (·.2)
  let high := newestPeer seqs
  { chanOf s ch with
    high := high
    win := match high with
      | some h => (seqs.filter (inWindow h)).foldl (fun w q => mapIns w q .peer) []
      | none => [] }

/-- Promote a standby (R716). -/
def promote (s : State) : State :=
  let s := setPairRole s 1
  let s : State := { s with chans := (List.range 64).map fun ch => if peerMasked s ch then peerWindow s ch else chanOf s ch }
  lifeAdd (canDue (setEvent s 0x006 9)) 2 2

/-- Whether a standby promotes itself when its peer is lost or unsafe (R715). -/
def selfPromotes (s : State) : Bool :=
  fget s Fd.daybook_PAIR_ROLE == 2 && fget s Fd.daybook_AUTO_PROMOTE == 1 && fget s Fd.daybook_PEER_READY == 1

/-! ### Heartbeats -/

/-- The latest Daybook journal number, 0 before the first (R545). -/
def latestJno (s : State) : Nat := if s.daybook.jno = 0 then 0 else s.daybook.jno - 1

/-- HEARTBEAT_SEND (R545): every 1,000 pt. -/
def execHeartbeatSend (s : State) : Host.Outcome State Fault Refusal :=
  if isPair s && s.time.running && !s.boot.holdup && !pairDown s && s.pair.nextSend ≤ now s then
    let body : CtrlBody := .heartbeat s.time.epoch.toNat (fget s Fd.safety_SAFE_STATE) (fget s Fd.lattice_NEWEST_EPOCH)
      (latestJno s)
    let t : State := { s with pair := { s.pair with nextSend := now s + 1000 } }
    .next (sendTo t (neighbourOf t 0) 0 0 body)
  else .next s

/-- Take in a heartbeat: a gap of more than 1,500 pt counts (R545), a new peer epoch ends PEER_READY (R714). -/
def noteHeartbeat (s : State) (epoch : Nat) : State :=
  let missed : Bool := match s.pair.lastHb with
    | some t => t + 1500 < now s
    | none => false
  let fresh : Bool := match s.pair.peerEpoch with
    | some e => e != epoch
    | none => false
  let s := if missed then fadd s Fd.coll_PEER_HB_MISS 1 else s
  let s := if fresh then clearReady { s with pair := { s.pair with entries := [] } } else s
  { s with pair := { s.pair with lastHb := some (now s), peerEpoch := some epoch, lost := false } }

/-- HEARTBEAT (R545, R714, R715). -/
def execHeartbeat (flit : FlitIn) (hb : Heartbeat) (s : State) : Host.Outcome State Fault Refusal :=
  if isPair s && linkUp s flit.link && flit.src.toNat == neighbourOf s flit.link then
    let t := noteHeartbeat s hb.epoch.toNat
    .next (if hb.safe.val != 0 && selfPromotes t then promote t else t)
  else .next s

/-- Whether PEER_LOST is due (R546). -/
def peerGone (s : State) : Bool :=
  pairDown s || s.pair.lastHb.getD s.pair.since + fget s Fd.coll_PEER_LOST_PT ≤ now s

/-- PEER_LOST (R546, R714, R715): the standby promotes itself if it may, and PEER_READY is cleared. -/
def execPeerLost (s : State) : Host.Outcome State Fault Refusal :=
  if isPair s && s.boot.ready && fget s Fd.daybook_PAIR_ROLE != 0 && !s.pair.lost && peerGone s then
    let t := lifeAdd (setEvent s 0x07E 9) 2 3
    let t : State := { t with pair := { t.pair with lost := true, streaming := false } }
    .next (clearReady (if selfPromotes s then promote t else t))
  else .next s

/-! ### The standby's copy -/

/-- PEER_MIRROR_ENTRY (R713): a version and its Reply are stored at the offset that R101 gives. -/
def execPeerMirrorEntry (ch : Fin 64) (seq : W32) (entry : List Byte) (s : State) : Host.Outcome State Fault Refusal :=
  if isPair s && fget s Fd.daybook_PAIR_ROLE = 2 && !pairDown s then
    let q := seq.toNat
    let t := ownWrite s (entryAddr (peerBase s) ch q) (bytesAt entry 0 128)
    let kept := t.pair.entries.filter fun e => !(e.1 == ch.val && e.2 % 4096 == q % 4096)
    .next { t with pair := { t.pair with entries := kept ++ [(ch.val, q)] } }
  else .next s

/-- PEER_COPY_DONE (R714): the initial copy is complete. -/
def execPeerCopyDone (s : State) : Host.Outcome State Fault Refusal :=
  if isPair s && fget s Fd.daybook_PAIR_ROLE = 2 && !pairDown s then .next (fput s Fd.daybook_PEER_READY 1) else .next s

/-- PAIR_ROLE_WRITE (R711, R715, R718, R735): ROLE of the CAN FD pages follows; a standby that firmware makes primary is promoted. A
write in the cycle of a promotion, `forced`, finds the hardware value standing. -/
def execPairRoleWrite (q : Requester) (v : W32) (be : BitVec 4) (forced : Bool) (s : State) :
    Host.Outcome State Fault Refusal :=
  let old := fget s Fd.daybook_PAIR_ROLE
  let t := if forced then forcedWrite denyNone s q 0x006 0x080 Fd.daybook_PAIR_ROLE v be
    else regWrite denyNone s q 0x006 0x080 v be
  let r := fget t Fd.daybook_PAIR_ROLE
  if r = old then .next t
  else if old = 2 && r = 1 then .next (promote t)
  else .next (setPairRole t r)

end Sys2Proof.Machine
end

