-- ==== Sys2Proof/Machine/RegWrite.lean ====
section
/-! DEFINITION. Register writes and reads with rows of their own in the opcode table (02 R51, R57, R58; 19 R727-R734, R743-R758),
the write of any other register, and the PM_CLK tick. -/

namespace Sys2Proof.Machine

/-! ### What writes are refused -/

/-- Whether the 32 MiB mirror area from an address lies within one DRAM region owned by PID 0 (R769). -/
def mirrorFits (s : State) (base : Nat) : Bool :=
  dramBase ≤ base && (List.range 64).any fun r =>
    let lo := dramBase + fget s (Fd.region_REGION_BASE r) * 0x200000
    fget s (Fd.region_OWNED r) == 1 && fget s (Fd.region_REGION_OWNER r) == 0 && lo ≤ base &&
      base + 0x2000000 ≤ lo + fget s (Fd.region_REGION_SIZE r) * 0x200000

/-- Channel blocks and device-wide fields: R57, R712, R752. -/
def hostDeny (s : State) (ch : Nat) (name : String) (v : Nat) : Bool :=
  if ["LRING_BASE_LO", "LRING_BASE_HI", "LRING_SIZE", "RRING_BASE_LO", "RRING_BASE_HI", "RRING_SIZE"].contains name then
    fget s (Fd.chan_ENABLE ch) == 1
  else if name == "RRING_HEAD" then fget s (Fd.chan_RRING_SIZE ch) < cyc 16 (fget s (Fd.chan_RRING_TAIL ch)) v
  else if name == "ENABLE" then v == 1 && fget s Fd.daybook_PAIR_ROLE == 2 && peerMasked s ch
  else false

/-- The Daybook page: R751, R769. -/
def daybookDeny (s : State) (name : String) (v : Nat) : Bool :=
  if name == "DB_MIRROR_BASE_LO" then
    s.boot.ready || !mirrorFits s (v * 2 ^ 12 + fget s Fd.daybook_DB_MIRROR_BASE_HI * 2 ^ 32)
  else if name == "DB_MIRROR_BASE_HI" then
    s.boot.ready || !mirrorFits s (fget s Fd.daybook_DB_MIRROR_BASE_LO * 2 ^ 12 + v * 2 ^ 32)
  else if ["PEER_CHANNEL_MASK_LO", "PEER_CHANNEL_MASK_HI", "PEER_MIRROR_BASE_LO", "PEER_MIRROR_BASE_HI"].contains name then
    fget s Fd.daybook_PEER_READY == 1
  else false

/-- Whether a region of a base and size, in 2 MiB units, is reserved (R755): beyond the usable capacity, or overlapping another
region that is not empty. -/
def regionBad (s : State) (r base size : Nat) : Bool :=
  size != 0 && (dramBytes s < (base + size) * 0x200000 || (List.range 64).any fun k =>
    let b := fget s (Fd.region_REGION_BASE k)
    let n := fget s (Fd.region_REGION_SIZE k)
    k != r && n != 0 && b < base + size && base < b + n)

/-- The region page: R242, R755. -/
def regionDeny (s : State) (r : Nat) (name : String) (v : Nat) : Bool :=
  if name == "REGION_BASE" then
    fget s (Fd.region_OWNED r) == 1 || regionBad s r v (fget s (Fd.region_REGION_SIZE r))
  else if name == "REGION_SIZE" then
    fget s (Fd.region_OWNED r) == 1 || regionBad s r (fget s (Fd.region_REGION_BASE r)) v
  else false

/-- The Safety Island page: a window whose WDG_MIN_PT is not below WDG_MAX_PT is reserved (R749). -/
def safetyDeny (s : State) (name : String) (v : Nat) : Bool :=
  if name == "WDG_MIN_PT" then fget s Fd.safety_WDG_MAX_PT ≤ v
  else if name == "WDG_MAX_PT" then v ≤ fget s Fd.safety_WDG_MIN_PT
  else false

/-- What the pages' own rules refuse (R762). -/
def pageDeny (s : State) (page : Nat) : DenyRule := fun row i v =>
  if page = 0x004 then safetyDeny s row.name v
  else if page = 0x006 then daybookDeny s row.name v
  else if 0x008 ≤ page && page ≤ 0x00B then hostDeny s ((page - 0x008) * 16 + i) row.name v
  else if 0x070 ≤ page && page ≤ 0x077 then row.name == "FIFO_HIGH_WATER" && v < ceilDiv (fifoFill s (page - 0x070)) 64
  else if page = 0x07E then
    ["GROUP_BOX", "GROUP_PID"].contains row.name && fget s (Fd.coll_GROUP_ENABLE i) == 1
  else if page = 0x080 then ["REFRESH_DERATE_MAX", "REFRESH_UNIT_PT"].contains row.name && anyStrict s
  else if page = 0x081 then regionDeny s i row.name v
  else if page = 0x088 || page = 0x089 then
    ["NOM_TIMING", "DATA_TIMING"].contains row.name && fget s (Fd.can_CAN_EN (page - 0x088)) == 1
  else false

/-- An identifier register of a CAN FD page whose ID29 is clear: bits [28:11] are reserved (19, CAN FD page). -/
def shortIdent (s : State) (page off : Nat) : Bool :=
  (page == 0x088 || page == 0x089) && (off == 0x044 || off == 0x048) && fget s (Fd.can_ID29 (page - 0x088)) == 0

/-- A register write with no effect of its own beyond the fields (R735-R762). -/
def plainWrite (s : State) (q : Requester) (page off : Nat) (v : W32) (be : BitVec 4) : State :=
  if shortIdent s page off then
    let extra := v.toNat &&& beMask be &&& 0x1FFFF800
    let t := regWrite (pageDeny s page) s q page off (BitVec.ofNat 32 (minus v.toNat 0x1FFFF800)) be
    if writeReaches s q page off && extra != 0 && v.toNat &&& beMask be &&& 0xE0000000 = 0 then countRsvd t page off page else t
  else regWrite (pageDeny s page) s q page off v be

/-! ### Channels -/

/-- The page of a channel's block. -/
def chanPage (ch : Nat) : Nat := 0x008 + ch / 16

/-- The offset of a register of a channel's block (R48). -/
def chanOff (ch reg : Nat) : Nat := 0x040 + 0x40 * (ch % 16) + reg

/-- DOORBELL_WRITE (R51, R53, R99, R133): latched and counted; one that would overrun the Letter ring is ignored and sets
DOORBELL_OVERRUN. -/
def doorbellWrite (s : State) (q : Requester) (ch : Nat) (v : W32) (be : BitVec 4) : State :=
  let page := chanPage ch
  let off := chanOff ch 0x0C
  let old := fget s (Fd.chan_DOORBELL ch)
  let t := plainWrite s q page off v be
  if writeReaches s q page off && bits (beMask be) 15 0 != 0 then
    let t := fadd t (Fd.chan_DOORBELL_COUNT ch) 1
    if fget t (Fd.chan_LRING_SIZE ch) < lringOcc t ch then
      setEvent (fput t (Fd.chan_DOORBELL ch) old) page (8 + ch % 16)
    else t
  else t

/-- DOORBELL_WRITE (R51). -/
def execDoorbellWrite (q : Requester) (ch : Fin 64) (v : W32) (be : BitVec 4) (s : State) : Host.Outcome State Fault Refusal :=
  .next (doorbellWrite s q ch v be)

/-- A write of CH_CTRL (R58, R712, R680, R753): a channel enabled over a working link gives its owning function its traffic back. In a
cycle in which hardware clears ENABLE, `forced`, the cleared value stands. -/
def chCtrlWrite (s : State) (q : Requester) (ch : Nat) (v : W32) (be : BitVec 4) (forced : Bool) : State :=
  let was := fget s (Fd.chan_ENABLE ch)
  let t := if forced then
      forcedWrite (pageDeny s (chanPage ch)) s q (chanPage ch) (chanOff ch 0x28) (Fd.chan_ENABLE ch) v be
    else plainWrite s q (chanPage ch) (chanOff ch 0x28) v be
  if was = 0 && fget t (Fd.chan_ENABLE ch) = 1 && t.pins.linkUp then
    let f := ownerFn t (fget t (Fd.chan_PID ch))
    { t with lostFns := t.lostFns.filter (· != f) }
  else t

/-- CH_CTRL_WRITE (R58). -/
def execChCtrlWrite (q : Requester) (ch : Fin 64) (v : W32) (be : BitVec 4) (forced : Bool) (s : State) :
    Host.Outcome State Fault Refusal :=
  .next (chCtrlWrite s q ch v be forced)

/-! ### The page header -/

/-- EVENT_WRITE (R727, R729): the bits written 1 clear; the interrupt is sent again while enabled bits remain. -/
def execEventWrite (q : Requester) (page : BitVec 12) (v : W32) (be : BitVec 4) (s : State) : Host.Outcome State Fault Refusal :=
  .next (regWrite denyNone s q page.toNat 0x010 v be)

/-- EVENT_FORCE (R728): PID 0 sets bits as a hardware set would; nothing is reported. -/
def execEventForce (q : Requester) (page : BitVec 12) (v : W32) (be : BitVec 4) (s : State) : Host.Outcome State Fault Refusal :=
  .next (regWrite denyNone s q page.toNat 0x018 v be)

/-- A write that takes OWNER_PID of a page: the entry is written with its parity (R274). -/
def ownerStore (s : State) (q : Requester) (page : Nat) (v : W32) (be : BitVec 4) : State :=
  let t := regWrite denyNone s q page 0x030 v be
  if writeReaches s q page 0x030 && ownable page && be.getLsbD 0 && fget s (Fd.hdr_LOCK page) == 0 then
    { t with parity := t.parity.filter (· != 2 ^ 12 + page) }
  else t

/-- A write of OWNER_PID (R733): a change clears the interrupt controls and EVENT_EN and sets OWNER_CHANGE. -/
def ownerWrite (s : State) (q : Requester) (page : Nat) (v : W32) (be : BitVec 4) : State :=
  let was := fget s (Fd.hdr_OWNER_PID page)
  let t := ownerStore s q page v be
  if fget t (Fd.hdr_OWNER_PID page) = was then t
  else setEvent (regPut (regPut t page 0x008 0) page 0x014 0) page 4

/-- OWNER_PID_WRITE (R733). -/
def execOwnerPidWrite (q : Requester) (page : BitVec 12) (v : W32) (be : BitVec 4) (s : State) :
    Host.Outcome State Fault Refusal :=
  .next (ownerWrite s q page.toNat v be)

/-! ### The Age Monitor's watches -/

/-- The SCLASS of what a stream last published, if anything. -/
def streamClass (s : State) (pid stream : Nat) : Option Nat :=
  (mapFind s.streams (streamKey pid stream)).map fun e => e.docket.sclass.toNat

/-- A watch's gap begins now (R750). -/
def restartWatch (s : State) (w : Nat) : State :=
  let s := fput s Fd.age_GAP_ACTIVE (minus (fget s Fd.age_GAP_ACTIVE) (2 ^ w))
  let c := streamClass s (fget s (Fd.age_W_PID w)) (fget s (Fd.age_W_STREAM w))
  { s with safety := { s.safety with
      watchLast := s.safety.watchLast.set w (now s)
      watchSclass := match c with
        | some c => mapIns s.safety.watchSclass w c
        | none => mapDel s.safety.watchSclass w } }

/-- A write of a watch word (R750). -/
def watchWrite (s : State) (q : Requester) (w : Nat) (second : Bool) (v : W32) (be : BitVec 4) : State :=
  let off := 0x080 + 8 * w + if second then 4 else 0
  let t := plainWrite s q 0x005 off v be
  if writeReaches s q 0x005 off && fget s (Fd.hdr_LOCK 0x005) = 0 && be != 0 then restartWatch t w else t

/-- WATCH_WRITE (R750). -/
def execWatchWrite (q : Requester) (w : Fin 16) (second : Bool) (v : W32) (be : BitVec 4) (s : State) :
    Host.Outcome State Fault Refusal :=
  .next (watchWrite s q w second v be)

/-! ### Base addresses -/

/-- BAR2_BASE_WRITE (R243, R268). -/
def execBar2BaseWrite (q : Requester) (f : Fin 16) (hi : Bool) (v : W32) (be : BitVec 4) (s : State) :
    Host.Outcome State Fault Refusal :=
  .next (plainWrite s q 0x008 (0x840 + 8 * f.val + if hi then 4 else 0) v be)

/-- DB_MIRROR_BASE_WRITE (R751, R769). -/
def execDbMirrorBaseWrite (q : Requester) (hi : Bool) (v : W32) (be : BitVec 4) (s : State) :
    Host.Outcome State Fault Refusal :=
  .next (plainWrite s q 0x006 (if hi then 0x048 else 0x044) v be)

/-! ### Data windows -/

/-- A read through a data window: the word at its index, and the index advances, modulo `m` when it is not 0. -/
def windowRead (s : State) (q : Requester) (page off : Nat) (idx : Fld) (m : Nat) : State :=
  regReadThen s q page off 1 fun s =>
    let s := complete s (leBytes 4 (regRead s q page off))
    fput s idx (if m = 0 then fget s idx + 1 else (fget s idx + 1) % m)

/-- DIR_DATA (R748). -/
def execDirData (q : Requester) (s : State) : Host.Outcome State Fault Refusal :=
  .next (windowRead s q 0x000 0x048 Fd.directory_DIR_INDEX 0)

/-- FT_DATA (R296). -/
def execFtData (q : Requester) (t : Fin 9) (s : State) : Host.Outcome State Fault Refusal :=
  .next (windowRead s q (0x010 + t) 0x068 (Fd.truss_FT_INDEX t) 0)

/-- FLOG_DATA (R575). -/
def execFlogData (q : Requester) (s : State) : Host.Outcome State Fault Refusal :=
  .next (windowRead s q 0x004 0x050 Fd.safety_FLOG_INDEX 0)

/-- LW_DATA (R138). -/
def execLwData (q : Requester) (s : State) : Host.Outcome State Fault Refusal :=
  .next (windowRead s q 0x006 0x070 Fd.daybook_LW_WORD 0)

/-- RX_DATA (R757). -/
def execRxData (q : Requester) (n : Fin 2) (s : State) : Host.Outcome State Fault Refusal :=
  .next (windowRead s q (0x088 + n) 0x084 (Fd.can_RX_INDEX n) 144)

/-! ### Every register -/

/-- The state a command leaves; a command that stops leaves the one it began from. -/
def leaves (s : State) : Host.Outcome State Fault Refusal → State
  | .next t => t
  | _ => s

/-- The word that a partial write leaves in a data window. -/
def mergeWord32 (cur : Nat) (v : W32) (be : BitVec 4) : W32 :=
  BitVec.ofNat 32 ((cur &&& (0xFFFFFFFF ^^^ beMask be)) ||| (v.toNat &&& beMask be))

/-- Which port's filter word an intake offset is: every word of a filter block but its counters (R371). -/
def filterWord (off : Nat) : Option (Fin 4) :=
  if 0x080 ≤ off && off < 0x180 && (off - 0x080) % 0x40 < 0x18 then
    some ⟨(off - 0x080) / 0x40 % 4, Nat.mod_lt _ (by decide)⟩
  else none

/-- A write to an intake page (R370, R371, R393). -/
def intakeWrite (s : State) (q : Requester) (port : Fin 8) (off : Nat) (v : W32) (be : BitVec 4) : State :=
  match filterWord off with
  | some f =>
    if (off - 0x080) % 0x40 = 0 then leaves s (execFEnableWrite q port f v be s)
    else regWrite (filterDeny s s port f) s q (0x070 + port) off v be
  | none => plainWrite s q (0x070 + port) off v be

/-- A 32-bit register write with whatever follows it; `forced` tells that hardware updates a safety-forced field of the word in the
same cycle (R735). -/
def writeAny (s : State) (q : Requester) (page off : Nat) (v : W32) (be : BitVec 4) (forced : Bool) : State :=
  if off = 0x030 then ownerWrite s q page v be
  else if off < 0x040 then regWrite denyNone s q page off v be
  else if page = 0x002 && off = 0x040 then leaves s (execStepReqWrite q v be s)
  else if page = 0x003 && off = 0x054 then leaves s (execPostmarkAdjWrite q v be s)
  else if page = 0x004 && off = 0x068 then leaves s (execWdgKick q v be s)
  else if page = 0x005 && 0x080 ≤ off && off < 0x100 then watchWrite s q ((off - 0x080) / 8) (off % 8 == 4) v be
  else if page = 0x006 && off = 0x080 then leaves s (execPairRoleWrite q v be forced s)
  else if page = 0x058 && off = 0x048 then leaves s (execCommitGo q v be s)
  else if page = 0x058 && off = 0x044 then
    leaves s (execTtData q (some (mergeWord32 (regRead s q page off) v be)) s)
  else if page = 0x058 && off = 0x144 then
    leaves s (execObsData q (some (mergeWord32 (regRead s q page off) v be)) s)
  else if page = 0x07E && off = 0x104 then leaves s (execResyncGo q v be s)
  else if page = 0x07E && off = 0x108 then leaves s (execAlignGo q v be s)
  else if page = 0x090 && off = 0x040 then leaves s (execLatEnWrite q v be s)
  else if page = 0x090 && off = 0x044 then regWrite (latticeDeny s s) s q page off v be
  else if 0x070 ≤ page && page < 0x078 then
    intakeWrite s q ⟨(page - 0x070) % 8, Nat.mod_lt _ (by decide)⟩ off v be
  else match channelAt page off with
    | some ch =>
      if off % 0x40 = 0x0C then doorbellWrite s q ch v be
      else if off % 0x40 = 0x28 then chCtrlWrite s q ch v be forced
      else plainWrite s q page off v be
    | none => plainWrite s q page off v be

/-- REGISTER_WRITE (R723, R724, R735): a 64-bit access is two 32-bit accesses, the lower address first; a half is an access only when it
enables a byte. -/
def execRegisterWrite (q : Requester) (off : BitVec 24) (v : W64) (be : BitVec 8) (forced : Bool) (s : State) :
    Host.Outcome State Fault Refusal :=
  let a := off.toNat / 4 * 4
  let lo := be.extractLsb' 0 4
  let hi := be.extractLsb' 4 4
  let t := if lo = 0 && hi != 0 then s else writeAny s q (a / 4096) (a % 4096) (v.extractLsb' 0 32) lo forced
  let b := (a + 4) % 2 ^ 24
  .next (if hi = 0 then t else writeAny t q (b / 4096) (b % 4096) (v.extractLsb' 32 32) hi forced)

/-! ### Upsets -/

/-- What an upset leaves of a stored word: one bit wrong, or more than the code corrects. A second single bit in a word of SECDED is
beyond correction (R226, R228); the LPDDR5X code corrects more (R230-R232), and poisoned stays poisoned. -/
def struck (old : Option EccSt) (hard dram : Bool) : EccSt :=
  match old with
  | some .poison => .poison
  | some .uncorr => .uncorr
  | some .corr => if hard || !dram then .uncorr else .corr
  | none => if hard then .uncorr else .corr

/-- Whether an ownership or mapping entry exists (R274). -/
def entryExists (k : Nat) : Bool := k < 112 || (128 ≤ k && k < 192) || (2 ^ 12 ≤ k && pagePresent (k - 2 ^ 12))

/-- Note that an upset turned a configuration bit; a second one turns it back. -/
def noteFlip (s : State) (key : Nat) (v : Bool) : State :=
  { s with safety := { s.safety with
      flips := if (mapFind s.safety.flips key).isSome then mapDel s.safety.flips key else mapIns s.safety.flips key v } }

/-- An upset of storage (log entry 225). -/
def strike (s : State) : Upset → State
  | .word w hard =>
    match rangeOf s (w * 8) with
    | .none => s
    | .dram _ => eccSet s w (some (struck (mapFind s.ecc w) hard true))
    | _ => eccSet s w (some (struck (mapFind s.ecc w) hard false))
  | .line i w hard =>
    match s.cache[i]? with
    | some l => { s with cache := s.cache.set i { l with ecc := mapIns l.ecc w.val (struck (mapFind l.ecc w.val) hard false) } }
    | none => s
  | .entry k => if entryExists k && !badEntry s k then { s with parity := s.parity ++ [k] } else s
  | .config page off b =>
    let o := off.toNat / 4 * 4
    if pagePresent page.toNat && bit (configMask page.toNat o) b then
      let t := turnBit s page.toNat o b
      noteFlip t ((page.toNat * 4096 + o) * 32 + b) (bit (regGet t page.toNat o) b)
    else s

/-! ### The PM_CLK tick -/

/-- One pt of link UP time in the Ledger (R696). -/
def countLinks (s : State) : State :=
  (List.range 6).foldl (fun s n => if linkUp s n then ledgerAddPt s 0x05 n 4 1 else s) s

/-- The CS4 voltage is commanded at +40 ms after power good, which is 38 ms after tick 0 (R663, R147); VDD_CORE is at its
power-up value of 0.75 V before. -/
def bootVoltage (s : State) : State :=
  if s.boot.powerGood && !s.boot.holdup && !s.boot.vcore && s.power.phase == .idle && 950000 ≤ now s then
    let mv := stepMv s 4
    let s : State := { s with
      boot := { s.boot with vcore := true }
      power := { s.power with oldMv := 750, newMv := mv } }
    settleFrom (commandMv s mv) .lowering
  else s

/-- What follows PM_CLK edges: the idle counts (R174), the load window (R360), link time (R696), the start-up voltage (R663), the
end of a timetable's validation (R344), host accesses and camera data that waited for LPDDR5X (R248), and the interrupt of logical
pair 0 (R323). -/
def countEdge (s : State) : State := takeMei (drainPorts (drainBar2 (endValidation (bootVoltage (countLinks (countLoad (idleTick s)))))))

/-- POSTMARK_TICK (R146, R165, R166): one PM_CLK rising edge, with what counts edges; `upsets` have struck storage since the edge
before. -/
def execPostmarkTick (upsets : List Upset) (s : State) : Host.Outcome State Fault Refusal :=
  if s.time.running && !s.time.clkLost then .next (countEdge (pmEdge (upsets.foldl strike s))) else .next s

/-- POSTMARK_STEP (R165): the edge at which a pending positive adjustment is applied; with none due, nothing happens. -/
def execPostmarkStep (s : State) : Host.Outcome State Fault Refusal :=
  if stepDue s && !s.time.clkLost then .next (countEdge (applyStep s)) else .next s

/-- POSTMARK_SLEW_HOLD (R166): the edge at which a slew holds the counter; with none due, nothing happens. -/
def execPostmarkSlewHold (s : State) : Host.Outcome State Fault Refusal :=
  if holdDue s && !s.time.clkLost then .next (countEdge (applyHold s)) else .next s

end Sys2Proof.Machine
end

