-- ==== Sys2Proof/Machine/Boot.lean ====
section
/-! DEFINITION. Power, start-up, hold-up, the host link, SMBus and boundary scan (17 R649-R688; 03 R110-R114, 06 R763, 15
R603-R605, 18 R693, R698, R703-R705). -/

namespace Sys2Proof.Machine

/-! ### Reset and power good -/

/-- Whether an address lies in MRAM (R239). -/
def inMram (a : Nat) : Bool := 0x30000000 ≤ a && a < 0x30400000

/-- The reset of the always-on domain (R684, R685): nothing is resumed but what MRAM, the fuses and the pins hold. -/
def aonReset (s : State) : State :=
  { State.reset with
    pending := s.pending
    mem := s.mem.filter fun c => inMram c.1
    ecc := s.ecc.filter fun e => inMram (8 * e.1)
    host := s.host
    fuses := s.fuses
    nvm := s.nvm
    pins := { State.reset.pins with
      mainPg := s.pins.mainPg, sysRstN := s.pins.sysRstN, perstN := s.pins.perstN, safeInN := s.pins.safeInN
      caddr := s.pins.caddr, smb := s.pins.smb }
    tapIr := s.tapIr
    outbox := s.outbox
    freeCount := s.freeCount }

/-- ALWAYS_ON_RESET_COMPLETE (R673): VKEEP has reached 2.75 V and SYS_RST_N is high. -/
def execAlwaysOnResetComplete (s : State) : Host.Outcome State Fault Refusal :=
  if !s.boot.aon then
    .next { s with boot := { s.boot with aon := true }, pins := { s.pins with sysRstN := true } }
  else .next s

/-- The value of a triplicated word: the one that two of its copies hold (R153). -/
def voted (l : List W16) : Option W16 :=
  match l with
  | [a, b, c] => if a = b ∨ a = c then some a else if b = c then some b else none
  | _ => none

/-- The power epoch after another (R154). -/
def epochAfter (e : W16) : W16 := if e.toNat < 0xFFFE then e + 1 else 0

/-- The slot of the power epoch that was committed last, and the value it holds: none when no committed slot can be read, or
when one of two cannot (R153, R155; log entry 204). -/
def epochRead (s : State) : Option (Nat × W16) :=
  let slot := fun k => s.nvm.epochs.getD k ⟨[], false⟩
  let a := voted (slot 0).copies
  let b := voted (slot 1).copies
  match (slot 0).committed, (slot 1).committed with
  | true, true => match a, b with
    | some x, some y => some (if y = epochAfter x then (1, y) else (0, x))
    | _, _ => none
  | true, false => a.map fun x => (0, x)
  | false, true => b.map fun y => (1, y)
  | false, false => none

/-- Write one slot of the power epoch. -/
def setEpochSlot (s : State) (k : Nat) (e : EpochSlot) : State :=
  { s with nvm := { s.nvm with epochs := s.nvm.epochs.set k e } }

/-- Read, increment and commit the power epoch (R153-R155): the slot not committed last takes the new value three times. A read
or a commit that the MRAM fails leaves that slot uncommitted, and is a Daybook memory failure. -/
def commitEpoch (s : State) (res : MramResult) : State :=
  match epochRead s, res with
  | some (k, x), .written =>
    let e := epochAfter x
    { setEpochSlot s (1 - k) ⟨[e, e, e], true⟩ with time := { s.time with epoch := e } }
  | r, _ =>
    let s := match r, res with
      | _, .eccFail => s
      | some (k, _), _ => setEpochSlot s (1 - k) { s.nvm.epochs.getD (1 - k) ⟨[], false⟩ with committed := false }
      | none, _ => s
    daybookFail (fput { s with time := { s.time with epoch := 0xFFFF } } Fd.postmark_EPOCH_UNKNOWN 1) 0 0

/-- Active units of the kinds that have spares (R19). -/
def activeCount (k : Nat) : Nat := [8, 16, 16, 32].getD k 0

/-- The canonical assignment of a kind's units (R704). -/
def assignKind (s : State) (k : Nat) : State :=
  let out := fun u => s.nvm.mapped.contains (k, u) || s.fuses.mapped.contains (k, u)
  ((List.range (physCount k)).foldl (fun (a : State × Nat) u =>
    if out u then (setRole a.1 k u 2 (noLogical k), a.2)
    else if a.2 < activeCount k then (setRole a.1 k u 0 a.2, a.2 + 1)
    else (setRole a.1 k u 1 (noLogical k), a.2)) (s, 0)).1

/-- What the fuses and the MRAM configuration area give the registers (19, resets 'fuse' and 'config'; R518, R711, R769). -/
def loadConfig (s : State) : State :=
  let ib := s.fuses.grade = 1
  let s := fputs s [
    (Fd.ident_GRADE, s.fuses.grade), (Fd.ident_DIE_ID_LO, s.fuses.die.toNat % 2 ^ 32),
    (Fd.ident_DIE_ID_HI, s.fuses.die.toNat / 2 ^ 32), (Fd.power_VOFFSET_MV, (256 - s.fuses.voffset) % 256),
    (Fd.safety_ROT_PERIOD_S, if ib then 3600 else 900), (Fd.dram_REFRESH_DERATE_MAX, if ib then 2 else 4),
    (Fd.dram_RATE, s.nvm.rate), (Fd.dram_CAPACITY, s.nvm.capacity),
    (Fd.coll_CHIP_ADDR, s.pins.caddr.toNat), (Fd.coll_TOPO, bits s.nvm.topo.toNat 1 0),
    (Fd.coll_DX_M1, bits s.nvm.topo.toNat 7 4), (Fd.coll_DY_M1, bits s.nvm.topo.toNat 11 8),
    (Fd.coll_DZ_M1, bits s.nvm.topo.toNat 15 12), (Fd.daybook_AUTO_PROMOTE, b2n s.nvm.autoPromote),
    (Fd.daybook_DB_MIRROR_BASE_LO, s.nvm.mirrorBase / 2 ^ 12), (Fd.daybook_DB_MIRROR_BASE_HI, s.nvm.mirrorBase / 2 ^ 32)]
  setPairRole s s.nvm.pairRole

/-- POWER_GOOD (R673, R652, R153-R155, R703, R704): time 0 of the start-up timeline; `res` tells how the MRAM answered the read
and the commit of the power epoch. -/
def execPowerGood (res : MramResult) (s : State) : Host.Outcome State Fault Refusal :=
  if s.boot.aon && !s.boot.powerGood && s.pins.sysRstN then
    let t : State := { s with boot := { s.boot with powerGood := true }, pins := { s.pins with mainPg := true } }
    .next ((List.range 4).foldl assignKind (loadConfig (commitEpoch t res)))
  else .next s

/-! ### The scans -/

/-- The newest number of a series under the half-range rule (R104). -/
def newestNo (l : List Nat) : Option Nat :=
  l.foldl (fun a n => match a with
    | some m => if later 48 n m then some n else some m
    | none => some n) none

/-- The valid slots of the Daybook, as cell and journal number. -/
def validSlots (s : State) : List (Nat × Nat) :=
  (usedCells s).flatMap fun c =>
    ([0, 1].map fun k => scanSlot s (slotAddr c k)).filterMap fun b =>
      if slotValid b then some (c, slotJno b) else none

/-- Slots that the scan discards (R111, R113). -/
def discardedSlots (s : State) : Nat :=
  (usedCells s).foldl (fun n c =>
    let a := scanSlot s (slotAddr c 0)
    let b := scanSlot s (slotAddr c 1)
    n + slotDiscarded a + slotDiscarded b + b2n (slotValid a && slotValid b && slotOwner a != slotOwner b)) 0

/-- Start-up goes on to error injection once both scans are done (R674). -/
def scansDone (s : State) : State :=
  if s.boot.scanned && s.boot.ledgerScanned then fput s Fd.ident_BOOT_STAGE 2 else s

/-- DAYBOOK_SCAN (R110-R113, R102, R104): the newest record, the counts, and any uncorrectable read, which is a memory failure
(R136). -/
def execDaybookScan (s : State) : Host.Outcome State Fault Refusal :=
  if s.boot.powerGood && !s.boot.scanned && !s.boot.holdup then
    let l := validSlots s
    let top := newestNo (l.map (·.2))
    let next := match top with
      | some n => (n + 1) % 2 ^ 48
      | none => 0
    let cell := top.bind fun n => (l.find? fun e => e.2 == n).map (·.1)
    let t := fadd s Fd.daybook_DB_DISCARD_COUNT (discardedSlots s)
    let t : State := { t with
      boot := { t.boot with scanned := true }
      daybook := { t.daybook with jno := next, firstJno := next, lastCell := cell } }
    let t := readDaybook t
    .next (scansDone (fput t Fd.daybook_SCAN_DONE 1))
  else .next s

/-- The slots of a Ledger record's cell as the scan sees them. -/
def ledgerSeen (s : State) (cls idx : Nat) : List (List Byte) := [0, 1].map fun k => scanSlot s (ledgerAddr cls idx k)

/-- The newer committed slot of a Ledger cell (R693). -/
def ledgerTaken (s : State) (cls idx : Nat) : Option (List Byte) :=
  ((ledgerSeen s cls idx).filter ledgerCommitted).foldl (fun a b => match a with
    | some x => if lnoNewer b x then some b else some x
    | none => some b) none

/-- Every record the Ledger has a cell for. -/
def ledgerKeys : List (Nat × Nat) := (List.range 13).flatMap fun c => (List.range (ledgerCount c)).map fun i => (c, i)

/-- The events a ring class has seen, from its newest (R701). -/
def ringCount (s : State) (cls : Nat) : Nat :=
  let n := ledgerCount cls
  let seen := (List.range n).filterMap fun i => (ledgerTaken s cls i).map fun b => (i, slotLno b)
  match newestNo (seen.map (·.2)) with
  | some top => ((seen.find? fun e => e.2 == top).map fun e => e.1 + 1 + if seen.length = n then n else 0).getD 0
  | none => 0

/-- Put what the scan found of a record under what has accumulated since power good. -/
def takeRecord (s : State) (cls idx : Nat) : State :=
  match ledgerTaken s cls idx with
  | some b =>
    let v := dataWords (b.drop 0x10)
    let now_ := if ledgerRing cls then ledgerZero else ledgerVals s cls idx
    let sum := (v.zip now_).map fun p => min (2 ^ 64 - 1) (p.1 + p.2)
    let s := ledgerSet s cls idx sum
    { s with ledger := { s.ledger with committed := mapPut ledgerZero s.ledger.committed (ledgerKey cls idx) v } }
  | none => if ledgerRing cls then ledgerSet s cls idx ledgerZero else s

/-- Whether the Ledger holds the power-loss record of the previous power epoch (R698). -/
def cleanEnd (s : State) : Bool :=
  let prev := if s.time.epoch.toNat = 0 then 0xFFFE else s.time.epoch.toNat - 1
  s.time.epoch != 0xFFFF && (List.range 32).any fun i => match ledgerTaken s 0x0C i with
    | some b => leAt b 0x16 2 == prev
    | none => false

/-- Queue again what waited for the scan: an event takes the next index of its ring. -/
def requeue (s : State) (v : LedgerVer) : State :=
  if v.event then ledgerEvent s v.cls v.data else ledgerQueue s v.cls v.idx

/-- The SPARE_MAP of the canonical assignment, committed where it differs from the one the scan found (R704). -/
def renewSpareMap (s : State) (k : Nat) : State :=
  let t := writeSpareMap s k
  if ledgerVals t 0x08 k == mapGet ledgerZero s.ledger.committed (ledgerKey 0x08 k) then s else t

/-- LEDGER_SCAN (R693, R695, R698, R704): the newer committed slot of each cell, the counts, and the new spare map where it
differs. -/
def execLedgerScan (s : State) : Host.Outcome State Fault Refusal :=
  if s.boot.powerGood && !s.boot.ledgerScanned && !s.boot.holdup then
    let lnos := ledgerKeys.filterMap fun k => (ledgerTaken s k.1 k.2).map slotLno
    let lost := ledgerKeys.foldl (fun n k => (ledgerSeen s k.1 k.2).foldl (fun n b => n + slotDiscarded b) n) 0
    let waiting := s.ledger.queue ++ s.ledger.waiting
    let rings := [0x07, 0x09, 0x0C].foldl (fun m c => mapPut 0 m c (ringCount s c)) []
    let t := ledgerKeys.foldl (fun t k => takeRecord t k.1 k.2) s
    let t : State := { t with
      boot := { t.boot with ledgerScanned := true }
      ledger := { t.ledger with
        lno := match newestNo lnos with
          | some n => (n + 1) % 2 ^ 48
          | none => 0
        queue := [], waiting := [], rings := rings
        baseMs := (ledgerVals t 0x01 0).getD 3 0 } }
    let t := lifeAdd (lifeAdd t 0 0) 0 (if cleanEnd s then 1 else 2)
    let t := waiting.foldl requeue t
    let t := (List.range 4).foldl renewSpareMap t
    let t := fputs t [(Fd.ledger_SCAN_DONE, 1), (Fd.ledger_LEDGER_DISCARD_COUNT, fget t Fd.ledger_LEDGER_DISCARD_COUNT + lost)]
    let t := (badWords s 0x30200000 0x30300000).foldl (fun t a => ledgerFail t a 0) t
    .next (scansDone t)
  else .next s

/-! ### Start-up injection -/

/-- The unit that a failed test of groups 6 to 9 names, by kind and physical number (R603). -/
def groupUnit (g u : Nat) : Option (Nat × Nat) :=
  if g = 6 && u < 9 then some (0, u)
  else if g = 7 && u < 18 then some (1, u)
  else if g = 8 && u < 17 then some (2, u)
  else if g = 9 && u < 4 then some (4, u)
  else if g = 9 && u < 6 then some (5, u - 4)
  else none

/-- Map out a unit that failed a start-up test; the lowest free spare takes its logical identity at once (R605, R705,
R706). -/
def startMapOut (s : State) (k u : Nat) : State × Bool :=
  if roleOf s k u = 2 then (s, true)
  else if roleOf s k u = 1 then (mapOut s k u 0x3F 1 none, true)
  else match freeSpare s k with
    | some f =>
      let l := fget s (logicalFld k u)
      (mapOut (swapIn s k u f) k u l 1 (some f), true)
    | none => (mapOut s k u (ledgerLogical s k u) 1 none, false)

/-- A failed start-up test (R605, R624): TEST_FAIL with the group and unit, and the map-out or the CHECKER fault. -/
def failStart (s : State) (e : Nat × Nat) : State :=
  let detail := e.1 * 256 + e.2
  match groupUnit e.1 e.2 with
  | some (k, u) =>
    let r := startMapOut s k u
    raiseAs r.1 0x1E (testPage k u) 0xF 0xF 0 detail (if r.2 then 1 else 2) 0
  | none => raise (raiseAs s 0x1E 0x004 0xF 0xF 0 detail 2 0) 0x1A 0x004 0xF 0xF 0

/-- The start-up record of the Ledger (R605, R696). -/
def startRecord (s : State) (failed : List Nat) : State :=
  let pass := ((List.range 13).filter fun g => !failed.contains (g + 1)).foldl (fun a g => a + 2 ^ g) 0
  let v := ledgerVals s 0x0A 0
  let w := v.getD 1 0
  let starts := w % 2 ^ 32 + 1
  let bad := w / 2 ^ 32 + b2n (!failed.isEmpty)
  let s := ledgerSet s 0x0A 0 ((v.set 0 (pass + (2 ^ 13 - 1 - pass) * 2 ^ 16 + s.time.epoch.toNat * 2 ^ 32)).set 1
    (starts % 2 ^ 32 + bad % 2 ^ 32 * 2 ^ 32))
  ledgerQueue s 0x0A 0

/-- Every SRAM holds zeros after group 4 (R604). -/
def zeroSrams (s : State) : State :=
  { s with
    mem := s.mem.filter fun c => 0x30000000 ≤ c.1
    ecc := s.ecc.filter fun e => 0x30000000 ≤ 8 * e.1
    cache := [] }

/-- STARTUP_INJECTION (R603-R605): the groups run in order; `reports` are the injected faults that the checkers report,
`failed` the tests that fail, as group and unit. -/
def execStartupInjection (reports : List FaultIn) (failed : List (Nat × Nat)) (s : State) :
    Host.Outcome State Fault Refusal :=
  if s.boot.scanned && s.boot.ledgerScanned && !s.boot.injected && !s.boot.holdup && fget s Fd.safety_SAFE_STATE != 2 then
    let inj := (reports.filter fun f => classDefined f.cls).map fun f => { faultOf f with flags := lfInjected, sev := 3 }
    let bad := failed.filter fun e => 1 ≤ e.1 && e.1 ≤ 13
    let t := recordAll (zeroSrams s) inj
    let t := startRecord (bad.foldl failStart t) (bad.map (·.1))
    .next { t with boot := { t.boot with injected := true } }
  else .next s

/-! ### The boot image and the boot layout -/

/-- Whether a slot of the flash is valid (R665): both of its CRCs match. -/
def imageValid (b : List Byte) : Bool :=
  leAt b 0x3C 4 == crc32c (bytesAt b 0 0x3C) && leAt b 0x10 4 == crc32c (bytesAt b 0x40 (leAt b 0x0C 4))

/-- The slot that boots (R665): the valid one with the greater SEQ, slot A on a tie. -/
def bootSlot (a b : List Byte) : Option Nat :=
  if imageValid a && (!imageValid b || leAt b 0x08 4 ≤ leAt a 0x08 4) then some 0
  else if imageValid b then some 1
  else none

/-- BOOT_IMAGE_LOAD (R665, R666): the image goes to logical Beam bank 0; with no valid slot start-up ends at BOOT_FAIL. -/
def execBootImageLoad (slots : List (List Byte)) (s : State) : Host.Outcome State Fault Refusal :=
  if s.boot.injected && s.boot.image.isNone && !s.boot.failed && !s.boot.holdup && fget s Fd.safety_SAFE_STATE != 2 then
    match bootSlot (slots.getD 0 []) (slots.getD 1 []) with
    | some n =>
      let b := slots.getD n []
      let t := memPut s 0 (bytesAt b 0x40 (leAt b 0x0C 4))
      let t := fputs t [(Fd.ident_FW_SEQ, leAt b 0x08 4), (Fd.ident_BOOT_SLOT, n)]
      .next { t with boot := { t.boot with image := some n, fwArith := leAt b 0x04 1 } }
    | none => .next (fput { s with boot := { s.boot with failed := true } } Fd.ident_BOOT_STAGE 0xE)
  else .next s

/-- The block of the default boot layout (R763, R257). -/
def defaultBlock : List Byte :=
  leBytes 4 0x5A435043 ++ leBytes 2 1 ++ leBytes 1 0 ++ leBytes 1 2 ++ leBytes 4 0xFFFFFFFF ++ leBytes 4 0 ++ leBytes 4 0 ++
    leBytes 4 8192 ++ leBytes 8 1 ++ leBytes 32 0

/-- Put region bases and sizes in place. -/
def putRegions (s : State) (l : List (Nat × Nat)) : State :=
  (List.range 64).foldl (fun s r =>
    let e := l.getD r (0, 0)
    fputs s [(Fd.region_REGION_BASE r, e.1), (Fd.region_REGION_SIZE r, e.2)]) s

/-- The layout of the MRAM configuration area, when it is valid (R763): regions, block. -/
def validLayout (s : State) : Option (List (Nat × Nat) × List Byte) :=
  match s.nvm.layout with
  | some (rs, b) =>
    let t := putRegions s rs
    if b.length = blockLength b && (blockFault t 0 2 (mirrorBase t) b).isNone &&
        bit (minus (leAt b 0x08 4) (leAt b 0x0C 4)) 0 then some (rs, b)
    else none
  | none => none

/-- Install the boot layout (R763, R769). -/
def installLayout (s : State) : State :=
  match validLayout s with
  | some (rs, b) => installBlock (putRegions s rs) 0 0 b
  | none =>
    let s := putRegions s [(0, 32)]
    installBlock (fputs s [(Fd.daybook_DB_MIRROR_BASE_LO, 0), (Fd.daybook_DB_MIRROR_BASE_HI, 1)]) 0 0 defaultBlock

/-- BOOT_LAYOUT_INSTALL (R763, R769, R296, R674): the layout is installed, then firmware starts and loads the Finish
tables. -/
def execBootLayoutInstall (s : State) : Host.Outcome State Fault Refusal :=
  if s.boot.image.isSome && !s.boot.layout && !s.boot.holdup && fget s Fd.safety_SAFE_STATE != 2 then
    let t := installLayout s
    let t := (List.range 9).foldl (fun t u => fput t (Fd.truss_FINISH_REV u) 3) t
    .next (fput { t with boot := { t.boot with layout := true } } Fd.ident_BOOT_STAGE 3)
  else .next s

/-- LPDDR5X_INITIALISED (R674, 19 PHY): from 40 ms after power good. -/
def execLpddr5xInitialised (margins : List (Byte × Byte)) (s : State) : Host.Outcome State Fault Refusal :=
  if s.boot.powerGood && !s.boot.dram && !s.boot.holdup && 950000 ≤ now s then
    let t := (List.range 4).foldl (fun t c =>
      let m := margins.getD c (0, 0)
      fputs t [(Fd.phy_TRAINED c, 1), (Fd.phy_READ_MARGIN c, m.1.toNat), (Fd.phy_WRITE_MARGIN c, m.2.toNat)]) s
    .next { t with boot := { t.boot with dram := true }, refresh := { t.refresh with last := now s } }
  else .next s

/-! ### READY -/

/-- REPRO_CLASS (R554, R555). -/
def reproClass (s : State) : Nat :=
  fget s (Fd.truss_ARITH_REV 0) % 16 + fget s (Fd.truss_FINISH_REV 0) % 16 * 16 + s.boot.fwArith % 64 * 2 ^ 10

/-- What start-up waits for before READY (R639, R666, R674, R678). -/
def mayReady (s : State) : Bool :=
  s.boot.layout && s.boot.dram && !s.boot.ready && !s.boot.holdup && s.time.running && !s.time.clkLost &&
    fget s Fd.safety_SAFE_STATE != 2

/-- READY (R674, R554, R593, R595, R606, R610, R636, R638, R676, R543): the Corod begins to read rings. -/
def becomeReady (s : State) : State :=
  let s := fputs s [(Fd.ident_REPRO_CLASS, reproClass s), (Fd.ident_BOOT_STAGE, 4), (Fd.ident_READY, 1),
    (Fd.can_LISTEN_ONLY 0, 0), (Fd.can_LISTEN_ONLY 1, 0)]
  let s : State := { s with
    boot := { s.boot with ready := true }
    pins := { s.pins with safeN := fget s Fd.safety_SAFE_STATE == 0 }
    safety := { s.safety with
      nextWalk := now s + 12500, nextInject := now s + 250000, nextBus := now s + 25000000, flips := [], hbLast := now s }
    spare := { s.spare with nextTest := (List.range 6).map fun k => now s + rotStep s k }
    pair := { s.pair with since := now s }
    round := [], firstRound := true }
  let s := lifeAdd (floodDesync (openWindow s) (chipAddr s)) 0 4
  if s.pins.safeInN then s else raise s 0x20 0x004 0xF 0xF 1

/-- READY (R674). -/
def execReady (s : State) : Host.Outcome State Fault Refusal :=
  if mayReady s then .next (becomeReady s) else .next s

/-! ### Power loss and hold-up -/

/-- The pages of the always-on domain, whose registers hold through hold-up. -/
def aonPage (page : Nat) : Bool := [0x001, 0x002, 0x003, 0x004, 0x005, 0x006, 0x007, 0x0A0].contains page

/-- Everything but the always-on domain in reset, the pins in the hold-up column (R683). -/
def holdReset (s : State) : State :=
  let z := State.reset
  let s : State := { s with
    regs := s.regs.filter fun e => aonPage (e.1 / 4096)
    mem := s.mem.filter fun c => inMram c.1
    ecc := s.ecc.filter fun e => inMram (8 * e.1)
    power := { z.power with peakSet := s.power.peakSet }
    chans := z.chans, letters := [], replies := [], plans := [], parts := z.parts, cache := [], streams := []
    streamSeq := [], tensorDk := [], filters := z.filters, fifos := z.fifos, bar2 := [], parity := [], lattice := z.lattice, sched := z.sched, cores := z.cores
    courier := z.courier, can := z.can
    pins := { s.pins with linkUp := false, safeN := false, safeHb := false }
    boot := { s.boot with holdup := true, ready := false, dram := false }
    round := [], firstRound := true }
  fputs s [(Fd.ident_BOOT_STAGE, 0xF), (Fd.ident_READY, 0), (Fd.power_DOMAIN_RUN, 0)]

/-- The power-loss record (R696, R698). -/
def powerEvent (s : State) (cause slots : Nat) : List Nat :=
  dataWords (leBytes 2 cause ++ leBytes 2 (s.daybook.queue.length + s.daybook.waiting.length) ++ leBytes 2 slots ++
    leBytes 2 s.time.epoch.toNat ++ leBytes 8 (now s) ++ leBytes 8 (poweredMs s))

/-- Queue the Ledger's part of the flush (R683, R691, R698): what is pending and changed, at most 256 slots, the power-loss
record last. Before the Ledger scan there is nothing to flush. -/
def queueFlush (s : State) (cause : Nat) : State :=
  if !s.boot.ledgerScanned || fget s Fd.ledger_LEDGER_VOLATILE = 1 then
    { s with ledger := { s.ledger with queue := [], waiting := [] } }
  else
    let s := commitChanged s
    let q := (s.ledger.queue ++ s.ledger.waiting).take 255
    let v := powerEvent s cause (q.length + 1)
    let n := mapGet 0 s.ledger.rings 0x0C
    let s := ledgerSet s 0x0C (n % 32) v
    { s with ledger := { s.ledger with
        rings := mapPut 0 s.ledger.rings 0x0C (n + 1)
        queue := q ++ [⟨0x0C, n % 32, v, true⟩], waiting := [] } }

/-- Main power loss (R682, R683): the flush is queued and the rest is held in reset. -/
def enterHoldup (s : State) (cause : Nat) : State := holdReset (queueFlush s cause)

/-- MAIN_POWER_LOSS (R682, R683). -/
def execMainPowerLoss (vddAon : Bool) (s : State) : Host.Outcome State Fault Refusal :=
  if s.boot.powerGood && !s.boot.holdup then
    let t : State := { s with pins := { s.pins with mainPg := vddAon && s.pins.mainPg } }
    .next (enterHoldup t (if vddAon then 2 else 1))
  else .next s

/-- A rail's window fault (R598, R599): the counts, the classes and what their Leave conditions need. -/
def railFault (s : State) (rail : Fin 9) (mv : Nat) : State :=
  let t := if railOut s rail mv then
      let t := setEvent (fadd s (Fd.mon_VOLT_FAULT_COUNT rail) 1) 0x0A0 9
      let t := { t with safety := { t.safety with condLast := mapPut 0 t.safety.condLast 0x16 (now t) } }
      raise t 0x16 0x0A0 0xF 0xF 0
    else s
  if rail.val == 0 && 900 < mv then raise (fadd t (Fd.mon_VOLT_FAULT_COUNT rail) 1) 0x17 0x0A0 0xF 0xF 0 else t

/-- VOLTAGE_WINDOW_FAULT (R598, R599, R682): a rail has stood at a voltage outside its window for 25 consecutive pt; for VDD_AON that is a
main power loss too. -/
def execVoltageWindowFault (rail : Fin 9) (mv : Nat) (s : State) : Host.Outcome State Fault Refusal :=
  if s.boot.aon then
    let t := railFault s rail mv
    .next (if rail.val == 2 && railOut s rail mv && s.boot.powerGood && !s.boot.holdup then enterHoldup t 2 else t)
  else .next s

/-- SYS_RST_N_FALL (R682, R687): as a main power loss; before power good the always-on domain is reset at once. -/
def execSysRstNFall (s : State) : Host.Outcome State Fault Refusal :=
  let t : State := { s with pins := { s.pins with sysRstN := false } }
  if s.boot.holdup then .next t
  else if s.boot.powerGood then .next (enterHoldup t 3)
  else .next (aonReset t)

/-- Whether nothing is left to flush (R683). -/
def flushed (s : State) : Bool := s.daybook.queue.isEmpty && s.daybook.waiting.isEmpty && s.ledger.queue.isEmpty

/-- FLUSH_COMPLETE (R684): the always-on domain resets itself. -/
def execFlushComplete (s : State) : Host.Outcome State Fault Refusal :=
  if s.boot.holdup && flushed s then .next (aonReset s) else .next s

/-- A slot write that the reset tears: its content is not given, and the scan discards it unless it is valid (R685, R113). -/
def tearSlot (s : State) : State :=
  match s.daybook.queue, ledgerNext s with
  | v :: _, none => failedSlot s (slotAddr v.cell (targetSlot s v)) [] .mismatch
  | _, some (v, _) => failedSlot s (ledgerAddr v.cls v.idx (ledgerTarget s v.cls v.idx)) [] .mismatch
  | [], none => s

/-- BROWN_OUT (R685): the always-on domain resets at once, whatever stage the flush has reached. -/
def execBrownOut (torn : Bool) (s : State) : Host.Outcome State Fault Refusal :=
  let open_ := s.boot.scanned && s.boot.ledgerScanned && !dbVolatile s && fget s Fd.ledger_LEDGER_VOLATILE == 0
  .next (aonReset (if torn && open_ then tearSlot s else s))

/-! ### The host link -/

/-- Clear ENABLE of every channel that a test picks. -/
def clearEnables (s : State) (p : Nat → Bool) : State :=
  ((List.range 64).filter p).foldl (fun s c => fput s (Fd.chan_ENABLE c) 0) s

/-- The PCIe link is gone: the traffic of every function stops (R679, R680). -/
def dropLink (s : State) : State :=
  { s with pins := { s.pins with linkUp := false }, lostFns := List.range 16 }

/-- PERST_N (R655): only the endpoint is reset. -/
def execPerstN (s : State) : Host.Outcome State Fault Refusal :=
  let t := clearEnables (dropLink s) fun _ => true
  .next { t with pins := { t.pins with perstN := false } }

/-- HOST_LINK_LOSS (R679, R680): surprise-down or DL_Down. -/
def execHostLinkLoss (s : State) : Host.Outcome State Fault Refusal :=
  if s.pins.linkUp then .next (dropLink s) else .next s

/-- HOST_LINK_UP (R655): the link trains after PERST_N or a link-down, with the endpoint reset. -/
def execHostLinkUp (s : State) : Host.Outcome State Fault Refusal :=
  if s.boot.powerGood && !s.boot.holdup && !s.pins.linkUp then
    let t := clearEnables s fun _ => true
    .next { t with pins := { t.pins with perstN := true, linkUp := true }, lostFns := [] }
  else .next s

/-- FLR (R656, R679, R680): the function's channels are disabled and its traffic stops. -/
def execFlr (f : Fin 16) (s : State) : Host.Outcome State Fault Refusal :=
  if s.pins.linkUp then
    let t := clearEnables s fun c => ownerFn s (fget s (Fd.chan_PID c)) == f.val
    .next { t with lostFns := if s.lostFns.contains f.val then s.lostFns else f.val :: s.lostFns }
  else .next s

/-- CONFIGURATION_REQUEST (R675): retry status until READY, then a normal completion, whose content the spec does not give. -/
def execConfigurationRequest (f : Fin 16) (s : State) : Host.Outcome State Fault Refusal :=
  if s.pins.linkUp then
    if s.boot.ready then
      let d := draw s
      .next (send d.1 (.pcie f false (leBytes 4 d.2)))
    else .next (send s (.retryStatus f))
  else .next s

/-! ### SMBus -/

/-- Whether the SMBus target answers: from 2 ms after power good, during hold-up as well (R659). -/
def smbusUp (s : State) : Bool := s.boot.powerGood && (s.time.running || s.time.clkLost)

/-- Answer an SMBus transaction. -/
def smbusAnswer (s : State) (bs : List Byte) : State := if smbusUp s then send s (.smbus bs) else s

/-- SMBUS_IDENTITY (R659). -/
def execSmbusIdentity (s : State) : Host.Outcome State Fault Refusal :=
  .next (smbusAnswer s (leBytes 2 0x4816 ++ leBytes 1 s.fuses.grade ++ leBytes 1 0xB1 ++
    leBytes 2 (fget s Fd.ident_REPRO_CLASS) ++ leBytes 2 0))

/-- The SMBus STATE word (R659). -/
def smbusWord (s : State) : Nat :=
  fget s Fd.ident_BOOT_STAGE + fget s Fd.safety_SAFE_STATE * 2 ^ 4 + b2n s.boot.ready * 2 ^ 6 +
    fget s Fd.safety_NVM_FAULT * 2 ^ 7 + fget s Fd.daybook_DAYBOOK_VOLATILE * 2 ^ 8

/-- SMBUS_STATE (R659). -/
def execSmbusState (s : State) : Host.Outcome State Fault Refusal := .next (smbusAnswer s (leBytes 2 (smbusWord s)))

/-- SMBUS_TJ (R659): the junction temperature as s16. -/
def execSmbusTj (s : State) : Host.Outcome State Fault Refusal :=
  .next (smbusAnswer s (leBytes 2 (ofSigned 16 (celsius (fget s Fd.mon_TJ_NOW)))))

/-- SMBUS_POWER_EPOCH (R659). -/
def execSmbusPowerEpoch (s : State) : Host.Outcome State Fault Refusal :=
  .next (smbusAnswer s (leBytes 2 s.time.epoch.toNat))

/-- SMBUS_LW_INDEX (R659, R660): above 7 it is answered with NACK. -/
def execSmbusLwIndex (v : Byte) (s : State) : Host.Outcome State Fault Refusal :=
  if 7 < v.toNat then .next (smbusAnswer s [])
  else .next (if smbusUp s then { s with lwIndex := v.toNat } else s)

/-- SMBUS_LW_DATA (R659, R138). -/
def execSmbusLwData (s : State) : Host.Outcome State Fault Refusal :=
  .next (smbusAnswer s (lastWordAt s s.lwIndex))

/-- SMBUS_UNDEFINED_COMMAND (R660): NACK. -/
def execSmbusUndefinedCommand (code : Byte) (s : State) : Host.Outcome State Fault Refusal :=
  if 1 ≤ code.toNat && code.toNat ≤ 6 then .next s else .next (smbusAnswer s [])

/-- Whether SMB_ALERT_N is low (R660). -/
def smbAlert (s : State) : Bool := fget s Fd.safety_SAFE_STATE != 0 || fget s Fd.ident_BOOT_STAGE == 0xE

/-! ### Boundary scan -/

/-- The IDCODE (R667). -/
def idcode : Nat := 0x14816565

/-- What a loaded instruction acts as (R668): EXTEST takes effect only while SYS_RST_N is low, and a locked private instruction
acts as BYPASS. -/
def tapActs (s : State) (ir : TapInstr) : TapInstr :=
  match ir with
  | .extest => if s.pins.sysRstN then .bypass else .extest
  | .debug => if s.fuses.grade = 0 || anyStrict s then .bypass else .debug
  | i => i

/-- TAP_INSTRUCTION (R667, R668): the instruction register is loaded; IDCODE gives the identification. -/
def execTapInstruction (ir : TapInstr) (s : State) : Host.Outcome State Fault Refusal :=
  let t : State := { s with tapIr := ir }
  .next (if tapActs s ir == .idcode then send t (.tdo idcode) else t)

end Sys2Proof.Machine
end

