-- ==== Sys2Proof/Machine/Joiner.lean ====
section
/-! DEFINITION. The joiner operators (05 R217-R221, 08 R316-R336, 09 R387-R389): the built-in ones, JOINER_CALL, the vendor
instructions, tile transfers, and the ends of a joiner task. -/

namespace Sys2Proof.Machine

/-! ### Built-in operators -/

/-- RESHAPE: the elements in order. -/
def reshapeRule : OpRule := fun s p o t => (s, [packRaw (outDesc p o 0) (inVal p o t 0).raw])

/-- RESHAPE (R319). -/
def execReshape (task : Nat) (s : State) : Host.Outcome State Fault Refusal := formOuts 0x020 reshapeRule task s

/-- SLICE: start and step of each dimension, the starts first (log entry 67). -/
def sliceRule : OpRule := fun s p o t =>
  let x := inVal p o t 0
  let d := outDesc p o 0
  let r := x.dims.length
  (s, [packRaw d ((List.range (volume d.dims)).map fun i =>
    let c := coords d.dims i
    x.raw.getD (flatIndex x.dims ((List.range r).map fun k => o.param k + c.getD k 0 * o.param (r + k))) 0)])

/-- SLICE (R319). -/
def execSlice (task : Nat) (s : State) : Host.Outcome State Fault Refusal := formOuts 0x022 sliceRule task s

/-- The input of a concatenation that holds a position along the axis, and the position in it. -/
def concatPart : List Nat → Nat → Nat → Nat × Nat
  | [], k, _ => (k, 0)
  | n :: ns, k, x => if x < n then (k, x) else concatPart ns (k + 1) (x - n)

/-- CONCAT along the axis whose extent differs (log entry 42). -/
def concatRule : OpRule := fun s p o t =>
  let d := outDesc p o 0
  let xs := (List.range o.ins.length).map (inVal p o t)
  let a := concatAxis ((xs.map (·.dims)).getD 0 []) d.dims
  (s, [packRaw d ((List.range (volume d.dims)).map fun i =>
    let c := coords d.dims i
    let q := concatPart (xs.map fun x => x.dims.getD a 0) 0 (c.getD a 0)
    match xs[q.1]? with
    | some x => x.raw.getD (flatIndex x.dims (c.set a q.2)) 0
    | none => 0)])

/-- CONCAT (R319). -/
def execConcat (task : Nat) (s : State) : Host.Outcome State Fault Refusal := formOuts 0x023 concatRule task s

/-- PAD: the input stands at the origin of the output, and the pad value word fills the rest; the upper half of a 64-bit element
is not stated, and free (log entry 67). -/
def padRule : OpRule := fun s p o t =>
  let x := inVal p o t 0
  let d := outDesc p o 0
  let pad := o.param 0 + Config.padHigh (o.param 0) % 2 ^ 32 * 2 ^ 32
  (s, [packRaw d ((List.range (volume d.dims)).map fun i =>
    let c := coords d.dims i
    if (List.range x.dims.length).all fun k => c.getD k 0 < x.dims.getD k 0 then x.raw.getD (flatIndex x.dims c) 0
    else pad % 2 ^ fmtBits d.fmt)])

/-- PAD (R319). -/
def execPad (task : Nat) (s : State) : Host.Outcome State Fault Refusal := formOuts 0x024 padRule task s

/-- GATHER along the first dimension (log entry 67): an index out of range gives 0 and INVALID. -/
def gatherVals (p : List W32) (o : OpDesc) (t : Task) : List Byte × Bool :=
  let x := inVal p o t 0
  let idx := inVal p o t 1
  let d := outDesc p o 0
  let row := volume (x.dims.drop 1)
  let pos := idx.raw.map (toSigned 32)
  let bad := fun (k : Int) => k < 0 || (x.dims.getD 0 0 : Int) ≤ k
  (packRaw d ((List.range (volume d.dims)).map fun i =>
    let k := pos.getD (i / row) 0
    if bad k then 0 else x.raw.getD (k.toNat * row + i % row) 0), pos.any bad)

/-- GATHER (R319). -/
def execGather (task : Nat) (s : State) : Host.Outcome State Fault Refusal :=
  match taskOf s task with
  | some t =>
    if t.disp.isSome && !t.computed && t.code == 0x025 then
      match opOf s t with
      | some (p, o) =>
        let r := gatherVals p.words o t
        .next (putTask s { t with outs := [r.1], computed := true, flags := t.flags ||| if r.2 then flagInvalid else 0 })
      | none => .next s
    else .next s
  | none => .next s

/-! ### UNPACK_FRAME -/

/-- The shape of an unpacked frame (R387). -/
def unpackDims (r : FrameRef) : List Nat :=
  if r.dt = 0x1E then [r.height, r.width, 2] else if r.dt = 0x24 then [r.height, r.width, 3] else [r.height, r.width]

/-- The value of an unpacked element: line `y`, pixel `x`, channel `c` (R387). `line` is the line's bytes. -/
def unpackElem (dt : Nat) (line : List Byte) (x c : Nat) : Nat :=
  let b := fun i => leAt line i 1
  match dt with
  | 0x2A => b x
  | 0x2B => b (x / 4 * 5 + x % 4) * 4 + bits (b (x / 4 * 5 + 4)) (2 * (x % 4) + 1) (2 * (x % 4))
  | 0x2C =>
    let n := b (x / 2 * 3 + 2)
    b (x / 2 * 3 + x % 2) * 16 + if x % 2 = 0 then n % 16 else n / 16
  | 0x2E => leAt line (2 * x) 2
  | 0x1E => if c = 0 then b (2 * x + 1) else b (2 * x)
  | _ => b (3 * x + 2 - c)

/-- Bytes of a received line of a frame. -/
def frameLine (r : FrameRef) : Nat := lineBits r.width r.dt / 8

/-- The elements of an unpacked frame, in order. -/
def unpackElems (r : FrameRef) (data : List Byte) : List Nat :=
  let ch := (unpackDims r).getD 2 1
  (List.range r.height).flatMap fun y =>
    let line := (data.drop (y * frameLine r)).take (frameLine r)
    (List.range r.width).flatMap fun x => (List.range ch).map fun c => unpackElem r.dt line x c

/-- UNPACK_FRAME (R387-R389): the tensor, and the slot's postcard after its rounded size. A shape that differs from the filter's
ends the task. -/
def execUnpackFrame (task : Nat) (s : State) : Host.Outcome State Fault Refusal :=
  match taskOf s task with
  | some t =>
    if t.disp.isSome && !t.computed && t.code == 0x026 then
      match opOf s t with
      | some (p, o) =>
        match t.frames with
        | r :: _ =>
          let d := outDesc p.words o 0
          if d.dims != unpackDims r then .next (abortTask s t)
          else
            let data := t.inData.getD 0 []
            let out := packRaw d (unpackElems r data) ++ bytesAt data (r.size - 4096 + 0x40) 256
            .next (putTask s { t with outs := [out], computed := true })
        | [] => .next (abortTask s t)
      | none => .next s
    else .next s
  | none => .next s

/-! ### JOINER_CALL -/

/-- Instructions that one JOINER_CALL command runs at most; a later one goes on (log entry 69). -/
def callFuel : Nat := 4096

/-- JOINER_CALL (R221, R317): after its prologue the core runs until a vendor instruction, an ECALL, an exception or an access that
must wait stands at its pc. -/
def execJoinerCall (task : Nat) (s : State) : Host.Outcome State Fault Refusal :=
  match taskOf s task with
  | some t =>
    if t.disp.isSome && t.code == 0x0A0 && t.computed then
      let c := t.units.headD 0
      .next (if (coreAt s c).pop.isSome then s else runCore callFuel s c task)
    else .next s
  | none => .next s

/-! ### The ends of a joiner task -/

/-- The task whose first core is the one named, running on it. -/
def headTask (s : State) (c : Nat) : Option Task :=
  (taskOn s c).bind fun t => if t.units.headD 0 == c && t.disp.isSome && t.kind == .joiner then some t else none

/-- The flags of each output of a JOINER_CALL that ends by ECALL: a0 other than 0 marks all, DK.INV its port (R330); poisoned words in
an output's window poison it (R332). -/
def callFlags (k : CoreSt) (n : Nat) : List Nat :=
  (List.range n).map fun i =>
    (if k.rx 10 != 0 || k.inv.contains (8 + i) then flagInvalid else 0) |||
      if k.pois.any (fun e => e.1 == 8 + i) then flagInvalid ||| flagPoison else 0

/-- ECALL (R330): a JOINER_CALL whose core stands at an ECALL, or a built-in routine at its end. Outputs wait for LPDDR5X time (R245,
R248). -/
def execEcall (core : Fin 34) (s : State) : Host.Outcome State Fault Refusal :=
  match headTask s core with
  | some t =>
    if !t.computed || t.code == 0x061 || !dramReady s t then .next s
    else if t.code = 0x0A0 then
      match rvStep s core t with
      | .ecall s' =>
        let k := coreAt s core
        if k.pop.isSome then .next s
        else .next (completeTask (publishAll s' t none (callFlags k (outPorts s t).length)) t)
      | _ => .next s
    else .next (completeTask (publishAll s t none []) t)
  | none => .next s

/-- End a joiner task with every output INVALID (R330). -/
def endInvalid (s : State) (t : Task) : State :=
  let t := { t with flags := t.flags ||| flagInvalid }
  completeTask (if t.computed then publishAll s t none [] else publishCut s t) t

/-- A locked-pair mismatch (R336): counted, reported, and the Letter UNCORRECTABLE. -/
def lockMismatch (s : State) (t : Task) (c : Nat) : State :=
  let s := setEvent (fadd s (Fd.joiner_LOCK_MISMATCH_COUNT (c / 2)) 1) (0x040 + c / 2) 8
  noteStatus (raise s 0x07 (0x040 + c / 2) t.sclass t.pid 0) t.ch t.seq 0x40 0

/-- JOINER_TRAP (R330, R336): the exception that stands at the core's pc, or a mismatch of a locked pair. -/
def execJoinerTrap (core : Fin 34) (cause : JoinerCause) (s : State) : Host.Outcome State Fault Refusal :=
  match headTask s core with
  | some t =>
    match cause with
    | .exception n =>
      if t.code = 0x0A0 && t.computed && (coreAt s core).pop.isNone then
        match rvStep s core t with
        | .exc e s' =>
          if e = n then
            let s := countTrap s' t
            let s := if e = 5 || e = 7 then noteStatus s t.ch t.seq 0x40 0 else instrFault s t
            .next (endInvalid s ((taskOf s t.id).getD t))
          else .next s
        | _ => .next s
      else .next s
    | .other =>
      if t.units.length = 2 then .next (endInvalid (lockMismatch (countTrap s t) t core) t) else .next s
  | none => .next s

/-! ### Vendor instructions -/

/-- The task of a core that stands at a vendor instruction of the word given, and the state once it has been fetched. -/
def atVendor (s : State) (c w : Nat) : Option (State × Task) :=
  (headTask s c).bind fun t =>
    if t.code == 0x0A0 && t.computed && (coreAt s c).pop.isNone then
      match rvStep s c t with
      | .vendor s' v => if v == w then some (s', t) else none
      | _ => none
    else none

/-- The word of a vendor instruction (R331). -/
def vendorWord (op f3 f7 rd rs1 rs2 : Nat) : Nat := mkR f7 rs2 rs1 f3 rd op

/-- Retire a vendor instruction that writes a register. -/
def vendorRetire (s : State) (t : Task) (c rd : Nat) (v : Nat) : State :=
  let k := coreAt s c
  retire s t (k.wx rd (BitVec.ofNat 64 v)) (k.pc.toNat + 4)

/-- A tile queue of a core. -/
def queueAt (s : State) (c q : Nat) : List Tile := (coreAt s c).tq.getD q []

/-- Replace a tile queue on each core of a task. -/
def setQueue (s : State) (t : Task) (q : Nat) (l : List Tile) : State :=
  t.units.foldl (fun s c => setCore s c { coreAt s c with tq := (coreAt s c).tq.set q l }) s

/-- The descriptor at a local address (R331). -/
def tileAt (b : List Byte) : Tile :=
  ⟨leAt b 0 8, leAt b 8 8, leAt b 16 4, leAt b 20 4, leAt b 24 4, leAt b 28 4, none⟩

/-- TQ.PUSH (R331). A poisoned descriptor raises the load access fault, as a load of it does. -/
def execTqPush (core : Fin 34) (rd rs1 rs2 : Fin 32) (s : State) : Host.Outcome State Fault Refusal :=
  match atVendor s core (vendorWord 0x0B 0 0 rd rs1 rs2) with
  | some (s, t) =>
    let k := coreAt s core
    let q := (k.rx rs2).toNat % 4
    let r := readRaw s (storeAddr core (k.rx rs1).toNat) 32 t.sclass t.pid
    if r.2.2 then .next (endInvalid (noteStatus (countTrap r.1 t) t.ch t.seq 0x40 0) t)
    else if 16 ≤ (queueAt s core q).length then .next (vendorRetire r.1 t core rd 1)
    else .next (vendorRetire (setQueue r.1 t q (queueAt s core q ++ [tileAt r.2.1])) t core rd 0)
  | none => .next s

/-- Take the oldest transfer of a queue off it, with its outcome. -/
def popTile (s : State) (t : Task) (c q rd v : Nat) : State :=
  vendorRetire (setQueue s t q (queueAt s c q).tail) t c rd v

/-- TQ.POP (R331, R332): the oldest transfer's outcome, 4 for an empty queue, or a wait. -/
def execTqPop (core : Fin 34) (rd rs1 : Fin 32) (s : State) : Host.Outcome State Fault Refusal :=
  match atVendor s core (vendorWord 0x0B 1 0 rd rs1 0) with
  | some (s, t) =>
    let q := ((coreAt s core).rx rs1).toNat % 4
    match queueAt s core q with
    | [] => .next (vendorRetire s t core rd 4)
    | x :: _ => match x.done with
      | some v => .next (popTile s t core q rd v)
      | none => .next (t.units.foldl (fun s c => setCore s c { coreAt s c with pop := some (q, rd, now s) }) s)
  | none => .next s

/-- TQ.LEN (R331): outstanding transfers: every one pushed and not yet popped (log entry 212). -/
def execTqLen (core : Fin 34) (rd rs1 : Fin 32) (s : State) : Host.Outcome State Fault Refusal :=
  match atVendor s core (vendorWord 0x0B 2 0 rd rs1 0) with
  | some (s, t) => .next (vendorRetire s t core rd (queueAt s core (((coreAt s core).rx rs1).toNat % 4)).length)
  | none => .next s

/-- DK.RD (R331): docket bits of a port; a port above 11 has none, and its bits are free (log entry 68). -/
def execDkRd (core : Fin 34) (rd rs1 : Fin 32) (w : Fin 4) (s : State) : Host.Outcome State Fault Refusal :=
  match atVendor s core (vendorWord 0x2B 0 w rd rs1 0) with
  | some (s, t) =>
    let k := coreAt s core
    let i := (k.rx rs1).toNat
    if i < 12 then .next (vendorRetire s t core rd (bits (k.dks.getD i 0) (32 * w + 31) (32 * w)))
    else let d := draw s; .next (vendorRetire d.1 t core rd (d.2 % 2 ^ 32))
  | none => .next s

/-- DK.INV (R331): marks an output port that the operator has; any other is an illegal instruction (R364). -/
def execDkInv (core : Fin 34) (rs1 : Fin 32) (s : State) : Host.Outcome State Fault Refusal :=
  match atVendor s core (vendorWord 0x2B 1 0 0 rs1 0) with
  | some (s, t) =>
    let k := coreAt s core
    let i := (k.rx rs1).toNat
    .next (retire s t { k with inv := i :: k.inv.filter (· != i) } (k.pc.toNat + 4))
  | none => .next s

/-! ### Tile transfers -/

/-- Whether an address range lies in the buffer area (R324). -/
def inBuffer (a n : Nat) : Bool := 0x20000 ≤ a && a + n ≤ 0x40000

/-- Whether the stored word an address lies in reads poisoned or uncorrectable, in the pool or in storage. -/
def badWord (s : State) (pid a : Nat) : Bool :=
  let stored := match eccAt s a with
    | some .corr => false
    | some _ => true
    | none => false
  if pooled s pid a then
    match findLine s pid (a / 256 * 256) with
    | some l => l.poison.contains (a % 256 / 8) || l.ecc.any fun e => e.1 == a % 256 / 8 && e.2 == .uncorr
    | none => stored
  else stored

/-- Mark the stored word an address lies in as poisoned, in the pool or in storage. -/
def poisonWord (s : State) (pid a : Nat) : State :=
  match (if pooled s pid a then findLine s pid (a / 256 * 256) else none) with
  | some l =>
    let w := a % 256 / 8
    { s with cache := s.cache.map fun x =>
      if x == l then { x with poison := w :: x.poison.filter (· != w), dirty := true } else x }
  | none => eccSet s (a / 8) (some .poison)

/-- Where a row's bytes lie: the device address for the buffer area of a core, or for the device window. -/
def rowPlace (c a : Nat) : Nat := if a < windowBase then storeAddr c a else a - windowBase

/-- Read a row of a transfer (R331, R332): bytes, the positions of poisoned words, and whether it is blocked. -/
def rowRead (s : State) (c : Nat) (t : Task) (a n : Nat) : State × List Byte × List Nat × Bool :=
  let pid := if a < windowBase then 0 else t.pid
  let marks := fun (s : State) => (List.range n).filter fun i => badWord s pid (rowPlace c a + i)
  if inBuffer a n then
    let r := readRaw s (storeAddr c a) n t.sclass t.pid
    (r.1, r.2.1, marks s, false)
  else if windowBase ≤ a then
    match portAt (coreAt s c) (portSize s t) a n with
    | some (i, o) =>
      let bad := poisonedWords (coreAt s c) i o n
      (s, bytesAt (if i < 8 then t.inData.getD i [] else t.outs.getD (i - 8) []) o n,
        (List.range n).filter fun x => bad.contains ((o + x) / 8), false)
    | none =>
      let r := pidRead s t.pid (a - windowBase) n t.sclass
      (r.1, r.2.1, if r.2.2 = .poisoned then marks r.1 else [], r.2.2 == .blocked)
  else (s, [], [], true)

/-- Mark words of a port's window as poisoned (R332). -/
def markPois (k : CoreSt) (i o : Nat) (bad : List Nat) : CoreSt :=
  { k with pois := k.pois ++ ((bad.map fun x => (i, (o + x) / 8)).eraseDups.filter fun e => !k.pois.contains e) }

/-- Write a row of a transfer; whether it is blocked. Poisoned words are stored as poisoned, in a port's own window too (R332). -/
def rowWrite (s : State) (c : Nat) (t : Task) (a : Nat) (bs : List Byte) (bad : List Nat) : State × Bool :=
  if inBuffer a bs.length then
    let s := localWrite s t a bs
    (t.units.foldl (fun s u => bad.foldl (fun s i => poisonWord s 0 (storeAddr u (a + i))) s) s, false)
  else if windowBase ≤ a then
    match windowStore s c t a bs with
    | .ok s _ =>
      (match portAt (coreAt s c) (portSize s t) a bs.length with
        | some (i, o) => t.units.foldl (fun s u => setCore s u (markPois (coreAt s u) i o bad)) s
        | none => bad.foldl (fun s i => poisonWord s t.pid (a - windowBase + i)) s, false)
    | .trap s _ => (s, true)
    | .wait => (s, true)
  else (s, true)

/-- Whether a transfer must wait for LPDDR5X (R245, R248). -/
def tileWaits (s : State) (t : Task) (x : Tile) : Bool :=
  (List.range x.rows).any fun r => [x.src + r * x.srcStride, x.dst + r * x.dstStride].any fun a =>
    windowBase ≤ a && !dramFree s t.pid (a + x.rowBytes - windowBase)

/-- Whether some row of a transfer would be blocked: outside the buffer area and not permitted to the task. -/
def rowsBlocked (s : State) (c : Nat) (t : Task) (base stride n rows : Nat) (write : Bool) : Bool :=
  (List.range rows).any fun r =>
    let a := base + r * stride
    if inBuffer a n then false
    else if windowBase ≤ a then
      match portAt (coreAt s c) (portSize s t) a n with
      | some (i, _) => write && i < 8
      | none => !rangePermitted s t.pid (a - windowBase) n
    else true

/-- Perform a transfer whole (R332): 0 done, 1 poisoned data stored, 2 blocked. One of its two addresses lies in the buffer area;
another descriptor moves nothing and is taken as blocked (log entry 66). -/
def moveTile (s : State) (c : Nat) (t : Task) (x : Tile) : State × Nat :=
  let rb := rowsBlocked s c t x.src x.srcStride x.rowBytes x.rows false
  let wb := rowsBlocked s c t x.dst x.dstStride x.rowBytes x.rows true
  if !inBuffer x.src 1 && !inBuffer x.dst 1 then (s, 2)
  else if rb || wb then (blockedAccess s (some t.pid) t.sclass (!rb), 2)
  else
    let r := (List.range x.rows).foldl (fun (a : State × Nat) i =>
      let t := (taskOf a.1 t.id).getD t
      let g := rowRead a.1 c t (x.src + i * x.srcStride) x.rowBytes
      let w := rowWrite g.1 c t (x.dst + i * x.dstStride) g.2.1 g.2.2.1
      (w.1, if g.2.2.1.isEmpty then a.2 else 1)) (s, 0)
    r

/-- Mark the first transfer of a queue that is not done. -/
def markDone (v : Nat) : List Tile → List Tile
  | [] => []
  | x :: xs => if x.done.isNone then { x with done := some v } :: xs else x :: markDone v xs

/-- A TQ.POP that waits for its queue's oldest transfer, now done, ends. -/
def endPop (s : State) (t : Task) (c : Nat) : State :=
  let k := coreAt s c
  match k.pop with
  | some (q, rd, _) =>
    match (queueAt s c q).head?.bind (·.done) with
    | some v =>
      let s := t.units.foldl (fun s u => setCore s u { coreAt s u with pop := none }) s
      popTile s t c q rd v
    | none => s
  | none => s

/-- TILE_TRANSFER_COMPLETE (R332): the first transfer of the queue that is not done. -/
def execTileTransferComplete (core : Fin 34) (queue : Fin 4) (s : State) : Host.Outcome State Fault Refusal :=
  match headTask s core with
  | some t =>
    match (queueAt s core queue).find? fun x => x.done.isNone with
    | some x =>
      if tileWaits s t x then .next s else
      let r := moveTile s core t x
      let t := (taskOf r.1 t.id).getD t
      let s := setQueue r.1 t queue (markDone r.2 (queueAt r.1 core queue))
      .next (endPop s t core)
    | none => .next s
  | none => .next s

/-- TQ_POP_WAIT_LIMIT (R332): a TQ.POP that has waited WAIT_LIMIT_PT returns 3; the transfer stays queued. -/
def execTqPopWaitLimit (core : Fin 34) (s : State) : Host.Outcome State Fault Refusal :=
  match headTask s core with
  | some t =>
    match (coreAt s core).pop with
    | some (_, rd, began) =>
      if began + fget s (Fd.sched_WAIT_LIMIT_PT t.pid) ≤ now s then
        let s := t.units.foldl (fun s u => setCore s u { coreAt s u with pop := none }) s
        .next (vendorRetire (obsInc s (32 * holeOf t + 3)) t core rd 3)
      else .next s
    | none => .next s
  | none => .next s

end Sys2Proof.Machine
end

