-- ==== Sys2Proof/Machine/Plane.lean ====
section
/-! DEFINITION. The Plane solver (12 R475-R503): the problem tensor, the arithmetic, quadratic programs by ADMM, dense Cholesky,
conjugate gradient, and the end of a solve. -/

namespace Sys2Proof.Machine

/-! ### Arithmetic (R484-R486) -/

/-- FP32 addition. -/
def add32 (a b : Nat) : Nat := (fAdd fp32 0 a b false).1

/-- FP32 subtraction. -/
def sub32 (a b : Nat) : Nat := (fAdd fp32 0 a b true).1

/-- FP32 multiplication. -/
def mul32 (a b : Nat) : Nat := (fMul fp32 0 a b).1

/-- FP32 division. -/
def div32 (a b : Nat) : Nat := (fDiv fp32 0 a b).1

/-- FP32 square root. -/
def sqrt32 (a : Nat) : Nat := (fSqrt fp32 0 a).1

/-- FP32 negation. -/
def neg32 (a : Nat) : Nat := a ^^^ 2 ^ 31

/-- FP64 addition. -/
def add64 (a b : Nat) : Nat := (fAdd fp64 0 a b false).1

/-- FP64 subtraction. -/
def sub64 (a b : Nat) : Nat := (fAdd fp64 0 a b true).1

/-- FP64 multiplication. -/
def mul64 (a b : Nat) : Nat := (fMul fp64 0 a b).1

/-- FP64 division. -/
def div64 (a b : Nat) : Nat := (fDiv fp64 0 a b).1

/-- FP64 negation. -/
def neg64 (a : Nat) : Nat := a ^^^ 2 ^ 63

/-- FP64 magnitude. -/
def abs64 (a : Nat) : Nat := a % 2 ^ 63

/-- An FP32 value in FP64. -/
def wide (a : Nat) : Nat := (fConv fp32 fp64 0 a).1

/-- An FP64 value rounded once to FP32. -/
def narrow (a : Nat) : Nat := (fConv fp64 fp32 0 a).1

/-- FP64 comparison: below. -/
def lt64 (a b : Nat) : Bool := (floatValue fp64 a).lt (floatValue fp64 b)

/-- FP64 comparison: at or below. -/
def le64 (a b : Nat) : Bool := (fCmp fp64 a b 0).1 == 1

/-- +∞ in FP64. -/
def inf64 : Nat := overBits fp64

/-- Whether an FP32 value is not finite. -/
def notFinite (a : Nat) : Bool := bits a 30 23 == 255

/-- One FP32 in FP32. -/
def one32 : Nat := 0x3F800000

/-- Add the product of two FP32 values, exact in FP64, to an FP64 sum, or subtract it (R485). -/
def mac64 (neg : Bool) (acc : Nat) (x : Nat × Nat) : Nat :=
  (fAdd fp64 0 acc (mul64 (wide x.1) (wide x.2)) neg).1

/-- A sum of products from a leading term, in FP64 (R485). -/
def sumFrom (lead : Nat) (neg : Bool) (ps : List (Nat × Nat)) : Nat := ps.foldl (mac64 neg) lead

/-- An inner product of FP32 vectors (R485). -/
def dot32 (x y : List Nat) : Nat := narrow (sumFrom 0 false (x.zip y))

/-- The greatest magnitude of FP64 values; NaN when there is one among them (R486). -/
def norm64 (l : List Nat) : Nat :=
  l.foldl (fun a v => if fNan fp64 a then a else if fNan fp64 v then v else if lt64 a (abs64 v) then abs64 v else a) 0

/-- The ∞-norm of an FP32 vector, in FP64. -/
def norm32 (l : List Nat) : Nat := norm64 (l.map wide)

/-- A sparse row: stored entries, by rising column. -/
abbrev SpRow := List (Nat × Nat)

/-- A row times a vector, in FP64 (R485, R486). -/
def rowDot (r : SpRow) (x : List Nat) : Nat := sumFrom 0 false (r.map fun e => (e.2, x.getD e.1 0))

/-- A matrix times a vector, in FP64. -/
def matVec (m : List SpRow) (x : List Nat) : List Nat := m.map fun r => rowDot r x

/-- A matrix times a vector, each element rounded once to FP32. -/
def matVec32 (m : List SpRow) (x : List Nat) : List Nat := (matVec m x).map narrow

/-- A matrix times an FP64 vector: each product and each addition rounds in FP64 (R486). -/
def matVecWide (m : List SpRow) (x : List Nat) : List Nat :=
  m.map fun r => r.foldl (fun a e => add64 a (mul64 (wide e.2) (x.getD e.1 0))) 0

/-- The entry of a row at a column. -/
def rowAt (r : SpRow) (j : Nat) : Option Nat := (r.find? fun e => e.1 == j).map (·.2)

/-- The transpose of a matrix with `n` columns. -/
def transposeRows (n : Nat) (m : List SpRow) : List SpRow :=
  (List.range n).map fun j => (List.range m.length).filterMap fun i => (rowAt (m.getD i []) j).map fun v => (i, v)

/-- The whole of a symmetric matrix from its lower triangle. -/
def symRows (n : Nat) (low : List SpRow) : List SpRow :=
  let up := transposeRows n low
  (List.range n).map fun i => (low.getD i []) ++ (up.getD i []).filter fun e => i < e.1

/-! ### The problem tensor (R480-R483) -/

/-- A problem header (R480). -/
structure Problem where
  kind : Nat
  store : Nat
  warm : Nat
  bwP : Nat
  n : Nat
  m : Nat
  nnzP : Nat
  nnzA : Nat
  wa : Nat
  offs : List Nat
  sets : List Nat
  deriving DecidableEq, Repr

/-- The header of a problem tensor. -/
def problemOf (b : List Byte) : Problem :=
  ⟨leAt b 4 1, leAt b 5 1, leAt b 6 1, leAt b 7 1, leAt b 8 4, leAt b 12 4, leAt b 16 4, leAt b 20 4, leAt b 24 1,
    (List.range 7).map fun i => leAt b (0x20 + 4 * i) 4, (List.range 7).map fun i => leAt b (0x40 + 4 * i) 4⟩

/-- The offset of section `i`: P, q, A, l, u, X0, Y0. -/
def Problem.off (p : Problem) (i : Nat) : Nat := p.offs.getD i 0

/-- A setting: RHO, SIGMA, ALPHA, EPS_ABS, EPS_REL, EPS_PINF, EPS_DINF. -/
def Problem.set (p : Problem) (i : Nat) : Nat := p.sets.getD i 0

/-- The size of a section; none when it is absent (12, sections). -/
def Problem.size (p : Problem) (i : Nat) : Option Nat :=
  let hasA := p.kind == 0 && 0 < p.m
  match i with
  | 0 => some (match p.store with
      | 0 => 4 * (p.n * (p.bwP + 1))
      | 1 => 4 * (p.n + 1) + 8 * p.nnzP
      | _ => 4 * (p.n * p.n))
  | 1 => some (4 * p.n)
  | 2 => if hasA then some (if p.store = 0 then roundUp (2 * p.m) 4 + 4 * (p.m * p.wa) else 4 * (p.m + 1) + 8 * p.nnzA) else none
  | 3 => if hasA then some (4 * p.m) else none
  | 4 => if hasA then some (4 * p.m) else none
  | 5 => if bit p.warm 0 then some (4 * p.n) else none
  | _ => if bit p.warm 1 then some (4 * p.m) else none

/-- Whether an FP32 setting lies in a range; the bounds are values rounded to FP32. -/
def settingIn (v lo hi : Xv) (openLo openHi : Bool) : Bool :=
  !v.isNan && (if openLo then lo.lt v else !v.lt lo) && (if openHi then v.lt hi else !hi.lt v)

/-- Whether a problem's setting is in its range, or 0 where it is not used (12, problem limits). -/
def settingOk (p : Problem) (i : Nat) : Bool :=
  let w := p.set i
  let v := floatValue fp32 w
  let r := fun (n d : Nat) => floatValue fp32 (roundFloat fp32 (.fin false n d))
  if p.kind = 1 || (p.kind == 2 && i != 3 && i != 4) then w == 0
  else match i with
    | 0 => settingIn v (r 1 1000000) (r 1000000 1) false false
    | 1 => settingIn v (r 1 1000000000) (r 1 1) false false
    | 2 => settingIn v .zero (r 2 1) true true
    | 3 => !notFinite w && !v.lt .zero
    | 4 => !notFinite w && !v.lt .zero
    | _ => !notFinite w && Xv.zero.lt v

/-- Whether a section stands where it may: present with a multiple of 4 past the header, within the tensor, and apart from those
before it; or absent with offset 0. -/
def sectionOk (p : Problem) (len i : Nat) : Bool :=
  match p.size i with
  | none => p.off i == 0
  | some n => p.off i % 4 == 0 && 128 ≤ p.off i && p.off i + n ≤ len &&
      (List.range i).all fun j => match p.size j with
        | some k => p.off i + n ≤ p.off j || p.off j + k ≤ p.off i || n == 0 || k == 0
        | none => true

/-- The first faulty byte of a problem header (R480, R481). -/
def headerFaultAt (b : List Byte) (len : Nat) : Option Nat :=
  let p := problemOf b
  let sparse := p.store == 1
  let hasA := p.kind == 0 && 0 < p.m
  let zero := fun lo n => ((List.range n).find? fun i => leAt b (lo + i) 1 != 0).map (lo + ·)
  firstSome ([
    chk (leAt b 0 4 == 0x5A435051) 0, chk (p.kind ≤ 2) 4, chk (if p.kind = 1 then p.store == 2 else p.store ≤ 1) 5,
    chk (p.warm ≤ 3 && (p.kind == 0 || p.warm ≤ 1)) 6, chk (if p.store = 0 then p.bwP ≤ 127 else p.bwP == 0) 7,
    chk (1 ≤ p.n && p.n ≤ (match p.kind with
      | 0 => 1024
      | 1 => 2048
      | _ => 65536)) 8,
    chk (if p.kind = 0 then p.m ≤ 2048 else p.m == 0) 12,
    chk (if sparse then p.kind == 0 || p.nnzP ≤ 2 ^ 20 else p.nnzP == 0) 16,
    chk ((sparse && p.kind == 0) || p.nnzA == 0) 20,
    chk (if p.store = 0 && hasA then 1 ≤ p.wa && p.wa ≤ 128 else p.wa == 0) 24, zero 25 7] ++
    ((List.range 7).map fun i => chk (sectionOk p len i) (0x20 + 4 * i)) ++ [zero 0x3C 4] ++
    ((List.range 7).map fun i => chk (settingOk p i) (0x40 + 4 * i)) ++ [zero 0x5C 36])

/-- The first header fault of a whole problem tensor (R480). -/
def headerFault (b : List Byte) : Option Nat := headerFaultAt b b.length

/-- A CSR section: the entries of each row with the byte offsets of their columns. -/
def csrRows (b : List Byte) (off rows nnz : Nat) : List (List (Nat × Nat × Nat)) :=
  (List.range rows).map fun i =>
    let lo := min nnz (leAt b (off + 4 * i) 4)
    let hi := min nnz (leAt b (off + 4 * (i + 1)) 4)
    (List.range (hi - lo)).map fun k =>
      let c := off + 4 * (rows + 1) + 4 * (lo + k)
      (leAt b c 4, leAt b (c + 4 * nnz) 4, c)

/-- The stored lower triangle of P (R480). -/
def lowerP (b : List Byte) (p : Problem) : List SpRow :=
  (List.range p.n).map fun i =>
    match p.store with
    | 0 => (List.range (p.bwP + 1)).reverse.filterMap fun d =>
        if d ≤ i then some (i - d, leAt b (p.off 0 + 4 * (i * (p.bwP + 1) + d)) 4) else none
    | 1 => ((csrRows b (p.off 0) p.n p.nnzP).getD i []).map fun e => (e.1, e.2.1)
    | _ => (List.range (i + 1)).map fun j => (j, leAt b (p.off 0 + 4 * (i * p.n + j)) 4)

/-- Where the values of a banded A begin. -/
def bandA (p : Problem) : Nat := p.off 2 + roundUp (2 * p.m) 4

/-- The stored entries of A (R480). -/
def rowsA (b : List Byte) (p : Problem) : List SpRow :=
  if p.kind != 0 || p.m == 0 then []
  else if p.store = 0 then (List.range p.m).map fun i => (List.range p.wa).map fun k =>
    (leAt b (p.off 2 + 2 * i) 2 + k, leAt b (bandA p + 4 * (i * p.wa + k)) 4)
  else (csrRows b (p.off 2) p.m p.nnzA).map fun r => r.map fun e => (e.1, e.2.1)

/-- An FP32 section. -/
def vecAt (b : List Byte) (off n : Nat) : List Nat := (List.range n).map fun i => leAt b (off + 4 * i) 4

/-- The half-bandwidth b of K (R483). -/
def bandOf (low a : List SpRow) : Nat :=
  let p := (List.range low.length).foldl (fun m i => (low.getD i []).foldl (fun m e => max m (i - e.1)) m) 0
  a.foldl (fun m r => match r with
    | [] => m
    | e :: _ => max m ((r.foldl (fun x y => max x y.1) e.1) - (r.foldl (fun x y => min x y.1) e.1))) p

/-- The faults of a CSR section's row pointers: not from 0, falling, or not ending at the count. -/
def ptrFaults (b : List Byte) (off rows nnz : Nat) : List (Option Nat) :=
  chk (leAt b off 4 == 0) off ::
    ((List.range rows).map fun i => chk (leAt b (off + 4 * i) 4 ≤ leAt b (off + 4 * (i + 1)) 4) (off + 4 * (i + 1))) ++
    [chk (leAt b (off + 4 * rows) 4 == nnz) (off + 4 * rows)]

/-- The faults of a CSR section's columns: `top` bounds the columns of row `i`, `span` the distance between its highest and
lowest. -/
def colFaults (rows : List (List (Nat × Nat × Nat))) (top : Nat → Nat) (span : Nat → Nat → Nat → Bool) : List (Option Nat) :=
  (List.range rows.length).flatMap fun i =>
    let r := rows.getD i []
    (List.range r.length).map fun k =>
      let e := r.getD k (0, 0, 0)
      let before := if k = 0 then none else (r[k - 1]?).map (·.1)
      chk (e.1 < top i && (before.all fun c => c < e.1) && !span i ((r.headD (0, 0, 0)).1) e.1) e.2.2

/-- Values that must be finite, as faults at their offsets. -/
def finiteFaults (b : List Byte) (off n : Nat) : List (Option Nat) :=
  (List.range n).map fun i => chk (!notFinite (leAt b (off + 4 * i) 4)) (off + 4 * i)

/-- The faults of P (R482). -/
def faultsP (b : List Byte) (p : Problem) : List (Option Nat) :=
  match p.store with
  | 0 => (List.range (p.n * (p.bwP + 1))).map fun i =>
      chk (i / (p.bwP + 1) < i % (p.bwP + 1) || !notFinite (leAt b (p.off 0 + 4 * i) 4)) (p.off 0 + 4 * i)
  | 1 => ptrFaults b (p.off 0) p.n p.nnzP ++
      colFaults (csrRows b (p.off 0) p.n p.nnzP) (fun i => min p.n (i + 1)) (fun i _ c => p.kind == 0 && c + 127 < i) ++
      finiteFaults b (p.off 0 + 4 * (p.n + 1) + 4 * p.nnzP) p.nnzP
  | _ => (List.range (p.n * p.n)).map fun i =>
      chk (i / p.n < i % p.n || !notFinite (leAt b (p.off 0 + 4 * i) 4)) (p.off 0 + 4 * i)

/-- The faults of A (R482). -/
def faultsA (b : List Byte) (p : Problem) : List (Option Nat) :=
  if p.kind != 0 || p.m == 0 then []
  else if p.store = 0 then
    ((List.range p.m).map fun i => chk (leAt b (p.off 2 + 2 * i) 2 + p.wa ≤ p.n) (p.off 2 + 2 * i)) ++
      finiteFaults b (bandA p) (p.m * p.wa)
  else ptrFaults b (p.off 2) p.m p.nnzA ++
    colFaults (csrRows b (p.off 2) p.m p.nnzA) (fun _ => p.n) (fun _ lo c => lo + 127 < c) ++
    finiteFaults b (p.off 2 + 4 * (p.m + 1) + 4 * p.nnzA) p.nnzA

/-- The faults of the bounds (R482); l_i above u_i is at l_i (log entry 71). -/
def faultsBounds (b : List Byte) (p : Problem) : List (Option Nat) :=
  if p.kind != 0 || p.m == 0 then []
  else (List.range p.m).flatMap fun i =>
    let l := leAt b (p.off 3 + 4 * i) 4
    let u := leAt b (p.off 4 + 4 * i) 4
    [chk (!fNan fp32 l && l != 0x7F800000 && !(floatValue fp32 u).lt (floatValue fp32 l)) (p.off 3 + 4 * i),
      chk (!fNan fp32 u && u != 0xFF800000) (p.off 4 + 4 * i)]

/-- The least of the offsets of a list of faults. -/
def leastFault (l : List (Option Nat)) : Option Nat :=
  l.foldl (fun a f => match a, f with
    | some x, some y => some (min x y)
    | none, y => y
    | x, none => x) none

/-- The first input fault of a problem (R482): the least byte offset of a faulty element. -/
def inputFault (b : List Byte) : Option Nat :=
  let p := problemOf b
  leastFault (faultsP b p ++ finiteFaults b (p.off 1) p.n ++ faultsA b p ++ faultsBounds b p ++
    (if bit p.warm 0 then finiteFaults b (p.off 5) p.n else []) ++ if bit p.warm 1 then finiteFaults b (p.off 6) p.m else [])

/-! ### Factorisation (R487, R488) -/

/-- The lower triangle of K by row, zero outside what is stored; each entry is formed from its leading term (R485). -/
def kEntry (low a : List SpRow) (rho : List Nat) (sigma i j : Nat) : Nat :=
  let lead := wide ((rowAt (low.getD i []) j).getD 0)
  let lead := if i = j then add64 lead (wide sigma) else lead
  narrow ((List.range a.length).foldl (fun s m =>
    match rowAt (a.getD m []) i, rowAt (a.getD m []) j with
    | some x, some y => mac64 false s (mul32 (rho.getD m 0) x, y)
    | _, _ => s) lead)

/-- The lower triangle of the matrix to factor, dense by row. -/
def kRows (low a : List SpRow) (rho : List Nat) (sigma : Nat) : List (List Nat) :=
  (List.range low.length).map fun i => (List.range (i + 1)).map (kEntry low a rho sigma i)

/-- The entries of row `i` of L before the diagonal, given the rows above it. -/
def lRow (ls : List (List Nat)) (k : List Nat) (i : Nat) : List Nat :=
  (List.range i).foldl (fun row j =>
    let lj := ls.getD j []
    let s := narrow (sumFrom (wide (k.getD j 0)) true (row.zip (lj.take j)))
    row ++ [div32 s (lj.getD j 0)]) []

/-- Factor, row by row: the rows of L, or the column whose pivot fails with the row's entries before it (R487, R488). -/
def factor : List (List Nat) → List (List Nat) → List (List Nat) ⊕ (Nat × List Nat × List (List Nat))
  | [], ls => .inl ls
  | k :: ks, ls =>
    let i := ls.length
    let row := lRow ls k i
    let d := narrow (sumFrom (wide (k.getD i 0)) true (row.zip row))
    if (fCmp fp32 0 d 1).1 == 1 then factor ks (ls ++ [row ++ [sqrt32 d]]) else .inr (i, row, ls)

/-- fwd_solve (R487). -/
def fwdSolve (ls : List (List Nat)) (r : List Nat) : List Nat :=
  (List.range ls.length).foldl (fun w i =>
    let li := ls.getD i []
    w ++ [div32 (narrow (sumFrom (wide (r.getD i 0)) true ((li.take i).zip w))) (li.getD i 0)]) []

/-- back_solve (R487): x_i from the elements above it, in ascending index order. -/
def backSolve (ls : List (List Nat)) (r : List Nat) : List Nat :=
  let n := ls.length
  (List.range n).foldl (fun x q =>
    let i := n - 1 - q
    let col := (List.range q).map fun t => (ls.getD (i + 1 + t) []).getD i 0
    div32 (narrow (sumFrom (wide (r.getD i 0)) true (col.zip x))) ((ls.getD i []).getD i 0) :: x) []

/-- A vector over its ∞-norm, in FP32. -/
def unitVec (v : List Nat) : List Nat :=
  let n := narrow (norm32 v)
  v.map fun x => div32 x n

/-- The curvature certificate of a failed pivot (R488). -/
def curvature (n j : Nat) (row : List Nat) (ls : List (List Nat)) : List Nat :=
  unitVec (backSolve ls (row.map neg32) ++ [one32] ++ List.replicate (n - 1 - j) 0)

/-! ### The result of a solve -/

/-- What a solve ends with (12, status record): the state, the kind and elements of its certificate, iterations completed, the
iterate reported, its residuals in FP32, the objective, the pivot, the fault offset, and x and y. -/
structure Solved where
  state : Nat
  cert : Nat
  certVec : List Nat
  iters : Nat
  best : Nat
  res : List Nat
  objective : Nat
  pivot : Nat
  fault : Nat
  x : List Nat
  y : List Nat
  deriving DecidableEq, Repr

/-- The 64 bytes of a status record. -/
def Solved.record (r : Solved) : List Byte :=
  leBytes 1 r.state ++ leBytes 1 r.cert ++ leBytes 2 0 ++ leBytes 4 r.iters ++ leBytes 4 r.best ++
    ((List.range 4).flatMap fun i => leBytes 4 (r.res.getD i 0)) ++ leBytes 4 r.objective ++ leBytes 4 r.pivot ++
    leBytes 4 r.fault ++ leBytes 24 0

/-- FP32 elements as bytes, padded with zeros to a count. -/
def vecBytes (n : Nat) (v : List Nat) : List Byte := bytesAt (v.flatMap fun x => leBytes 4 x) 0 (4 * n)

/-- A scaled residual (R489, R486). -/
def scaled (r e : Nat) : Nat :=
  if abs64 e = 0 then if abs64 r = 0 then 0 else inf64
  else
    let s := div64 r e
    if fNan fp64 s then inf64 else s

/-- The greater of FP64 values; NaN when there is one. -/
def max64 (a b : Nat) : Nat := norm64 [a, b]

/-- An iterate: x, z, y and its residuals r_p, r_d, s_p, s_d. -/
structure Iterate where
  k : Nat
  x : List Nat
  z : List Nat
  y : List Nat
  res : List Nat
  deriving DecidableEq, Repr

/-- Whether an iterate has converged (R490). -/
def Iterate.converged (t : Iterate) : Bool := le64 (t.res.getD 2 inf64) (wide one32) && le64 (t.res.getD 3 inf64) (wide one32)

/-- The merit of an iterate (R489). -/
def Iterate.merit (t : Iterate) : Nat := max64 (t.res.getD 2 inf64) (t.res.getD 3 inf64)

/-- The better of the best iterate so far and a later one (R493). -/
def betterIterate (best t : Iterate) : Iterate := if lt64 t.merit best.merit then t else best

/-- A result that reports an iterate. -/
def report (state cert : Nat) (cv : List Nat) (iters : Nat) (t : Iterate) (obj : List Nat → Nat) : Solved :=
  ⟨state, cert, cv, iters, t.k, t.res.map narrow, obj t.x, 0xFFFFFFFF, 0, t.x, t.y⟩

/-! ### Quadratic programs (R489-R493) -/

/-- A QP as its unit holds it. -/
structure Qp where
  p : List SpRow
  a : List SpRow
  at_ : List SpRow
  q : List Nat
  l : List Nat
  u : List Nat
  rho : List Nat
  sigma : Nat
  alpha : Nat
  om : Nat
  epsAbs : Nat
  epsRel : Nat
  epsPinf : Nat
  epsDinf : Nat

/-- Elementwise operation. -/
def zip32 (f : Nat → Nat → Nat) (x y : List Nat) : List Nat := List.zipWith f x y

/-- Clip a vector to bounds. -/
def clip32 (v l u : List Nat) : List Nat :=
  (List.range v.length).map fun i =>
    let x := v.getD i 0
    let lo := l.getD i 0
    let hi := u.getD i 0
    if (fCmp fp32 x lo 1).1 == 1 then lo else if (fCmp fp32 hi x 1).1 == 1 then hi else x

/-- The residuals of a QP iterate (R489). -/
def qpRes (g : Qp) (x z y : List Nat) : List Nat :=
  let ax := matVec g.a x
  let px := matVec g.p x
  let aty := matVec g.at_ y
  let rp := norm64 (zip32 sub64 ax (z.map wide))
  let rd := norm64 (zip32 add64 (zip32 add64 px (g.q.map wide)) aty)
  let ep := add64 (wide g.epsAbs) (mul64 (wide g.epsRel) (max64 (norm64 ax) (norm32 z)))
  let ed := add64 (wide g.epsAbs) (mul64 (wide g.epsRel) (max64 (max64 (norm64 px) (norm64 aty)) (norm32 g.q)))
  [rp, rd, scaled rp ep, scaled rd ed]

/-- A QP iterate with its residuals. -/
def qpIterate (g : Qp) (k : Nat) (x z y : List Nat) : Iterate := ⟨k, x, z, y, qpRes g x z y⟩

/-- One ADMM iteration (12). -/
def qpStep (g : Qp) (ls : List (List Nat)) (t : Iterate) : Iterate :=
  let w := zip32 sub32 (zip32 mul32 g.rho t.z) t.y
  let r := zip32 add32 (zip32 sub32 (t.x.map (mul32 g.sigma)) g.q) (matVec32 g.at_ w)
  let xt := backSolve ls (fwdSolve ls r)
  let zt := matVec32 g.a xt
  let xn := zip32 add32 (xt.map (mul32 g.alpha)) (t.x.map (mul32 g.om))
  let zh := zip32 add32 (zt.map (mul32 g.alpha)) (t.z.map (mul32 g.om))
  let zn := clip32 (zip32 add32 zh (zip32 div32 t.y g.rho)) g.l g.u
  let yn := zip32 add32 t.y (zip32 mul32 g.rho (zip32 sub32 zh zn))
  qpIterate g (t.k + 1) xn zn yn

/-- The difference of two FP32 vectors, in FP64. -/
def delta64 (x y : List Nat) : List Nat := zip32 (fun a b => sub64 (wide a) (wide b)) x y

/-- One term of the support function of PRIMAL_INFEASIBLE (R490). -/
def supportTerm (u l d : Nat) : Nat :=
  let pos := if lt64 0 d then d else 0
  let neg := if lt64 d 0 then d else 0
  let term := fun (bound factor : Nat) => if abs64 factor = 0 then 0 else mul64 (wide bound) factor
  add64 (term u pos) (term l neg)

/-- PRIMAL_INFEASIBLE (R490). -/
def primalTest (g : Qp) (dy : List Nat) : Bool :=
  let n := norm64 dy
  let bound := mul64 (wide g.epsPinf) n
  let terms := (List.range dy.length).map fun i => supportTerm (g.u.getD i 0) (g.l.getD i 0) (dy.getD i 0)
  lt64 0 n && le64 (norm64 (matVecWide g.at_ dy)) bound && !terms.contains inf64 &&
    le64 (terms.foldl add64 0) (neg64 bound)

/-- DUAL_INFEASIBLE (R490). -/
def dualTest (g : Qp) (dx : List Nat) : Bool :=
  let n := norm64 dx
  let bound := mul64 (wide g.epsDinf) n
  let ad := matVecWide g.a dx
  let qd := (g.q.zip dx).foldl (fun s e => add64 s (mul64 (wide e.1) e.2)) 0
  lt64 0 n && le64 (norm64 (matVecWide g.p dx)) bound && le64 qd (neg64 bound) &&
    (List.range ad.length).all fun i =>
      (notFinite (g.u.getD i 0) || le64 (ad.getD i 0) bound) &&
        (notFinite (g.l.getD i 0) || le64 (neg64 bound) (ad.getD i 0))

/-- A difference over its ∞-norm, rounded for reporting (log entry 71). -/
def certOf (d : List Nat) : List Nat :=
  let n := norm64 d
  d.map fun v => narrow (div64 v n)

/-- ½ xᵀPx + qᵀx in FP32 (R484, R485). -/
def objectiveOf (g : Qp) (x : List Nat) : Nat :=
  add32 (mul32 0x3F000000 (dot32 x (matVec32 g.p x))) (dot32 g.q x)

/-- The ADMM loop from iterate `t` (R491): `stop` is the iterate at which DEADLINE holds. -/
def qpLoop (g : Qp) (ls : List (List Nat)) (cap : Nat) (stop : Option Nat) : Nat → Iterate → Iterate → Solved
  | 0, _, best => report 2 0 [] cap best (objectiveOf g)
  | fuel + 1, t, best =>
    let t' := qpStep g ls t
    let best := betterIterate best t'
    let dy := delta64 t'.y t.y
    let dx := delta64 t'.x t.x
    if t'.converged then report 1 0 [] t'.k t' (objectiveOf g)
    else if primalTest g dy then report 4 1 (certOf dy) t'.k t' (objectiveOf g)
    else if dualTest g dx then report 5 2 (certOf dx) t'.k t' (objectiveOf g)
    else if t'.k = cap then report 2 0 [] t'.k best (objectiveOf g)
    else if stop.any fun n => n ≤ t'.k then report 3 0 [] t'.k best (objectiveOf g)
    else qpLoop g ls cap stop fuel t' best

/-- Solve a QP (12). -/
def solveQp (b : List Byte) (p : Problem) (cap : Nat) (stop : Option Nat) : Solved :=
  let low := lowerP b p
  let a := rowsA b p
  let l := if p.m = 0 then [] else vecAt b (p.off 3) p.m
  let u := if p.m = 0 then [] else vecAt b (p.off 4) p.m
  let rho := (List.range p.m).map fun i =>
    if (fCmp fp32 (l.getD i 0) (u.getD i 0) 2).1 == 1 then mul32 (p.set 0) 0x447A0000 else p.set 0
  let g : Qp := { p := symRows p.n low, a := a, at_ := transposeRows p.n a, q := vecAt b (p.off 1) p.n, l := l, u := u, rho := rho
                  sigma := p.set 1, alpha := p.set 2, om := sub32 one32 (p.set 2), epsAbs := p.set 3, epsRel := p.set 4
                  epsPinf := p.set 5, epsDinf := p.set 6 }
  match factor (kRows low a rho g.sigma) [] with
  | .inr (j, row, ls) =>
    ⟨5, 3, curvature p.n j row ls, 0, 0, [0, 0, 0, 0], 0, j, 0, List.replicate p.n 0, List.replicate p.m 0⟩
  | .inl ls =>
    let x := if bit p.warm 0 then vecAt b (p.off 5) p.n else List.replicate p.n 0
    let y := if bit p.warm 1 then vecAt b (p.off 6) p.m else List.replicate p.m 0
    let t := qpIterate g 0 x (clip32 (matVec32 a x) l u) y
    if t.converged then report 1 0 [] 0 t (objectiveOf g)
    else if stop == some 0 then report 3 0 [] 0 t (objectiveOf g)
    else qpLoop g ls cap stop cap t t

/-! ### Dense Cholesky and conjugate gradient (R497, R498) -/

/-- Solve Px = b by dense Cholesky (R497). -/
def solveDense (b : List Byte) (p : Problem) : Solved :=
  let low := lowerP b p
  let rhs := vecAt b (p.off 1) p.n
  match factor (low.map fun r => r.map (·.2)) [] with
  | .inr (j, row, ls) => ⟨5, 3, curvature p.n j row ls, 0, 0, [0, 0, 0, 0], 0, j, 0, List.replicate p.n 0, []⟩
  | .inl ls =>
    let x := backSolve ls (fwdSolve ls rhs)
    let r := norm64 (zip32 sub64 (rhs.map wide) (matVec (symRows p.n low) x))
    ⟨1, 0, [], 0, 0, [narrow r, 0, 0, 0], 0, 0xFFFFFFFF, 0, x, []⟩

/-- The state of a CG solve: the iterate, r, p and r·r. -/
structure CgSt where
  t : Iterate
  r : List Nat
  p : List Nat
  rr : Nat

/-- A CG iterate with its residuals (R498). -/
def cgIterate (ep k : Nat) (x r : List Nat) : Iterate :=
  let rp := norm32 r
  ⟨k, x, [], [], [rp, 0, scaled rp ep, 0]⟩

/-- The CG loop (R498, R491). -/
def cgLoop (m : List SpRow) (ep cap : Nat) (stop : Option Nat) : Nat → CgSt → Iterate → Solved
  | 0, _, best => report 2 0 [] cap best fun _ => 0
  | fuel + 1, g, best =>
    let s := matVec32 m g.p
    let c := dot32 g.p s
    if (fCmp fp32 0 c 1).1 != 1 then report 5 3 (unitVec g.p) g.t.k g.t fun _ => 0
    else
      let a := div32 g.rr c
      let x := zip32 add32 g.t.x (g.p.map (mul32 a))
      let r := zip32 sub32 g.r (s.map (mul32 a))
      let rn := dot32 r r
      let beta := div32 rn g.rr
      let t := cgIterate ep (g.t.k + 1) x r
      let best := betterIterate best t
      if t.converged then report 1 0 [] t.k t fun _ => 0
      else if t.k = cap then report 2 0 [] t.k best fun _ => 0
      else if stop.any fun n => n ≤ t.k then report 3 0 [] t.k best fun _ => 0
      else cgLoop m ep cap stop fuel ⟨t, r, zip32 add32 r (g.p.map (mul32 beta)), rn⟩ best

/-- Solve Px = b by conjugate gradient (R498). -/
def solveCg (b : List Byte) (p : Problem) (cap : Nat) (stop : Option Nat) : Solved :=
  let m := symRows p.n (lowerP b p)
  let rhs := vecAt b (p.off 1) p.n
  let x := if bit p.warm 0 then vecAt b (p.off 5) p.n else List.replicate p.n 0
  let r := zip32 sub32 rhs (matVec32 m x)
  let ep := add64 (wide (p.set 3)) (mul64 (wide (p.set 4)) (norm32 rhs))
  let t := cgIterate ep 0 x r
  if t.converged then report 1 0 [] 0 t fun _ => 0
  else if stop == some 0 then report 3 0 [] 0 t fun _ => 0
  else cgLoop m ep cap stop cap ⟨t, r, r, dot32 r r⟩ t

/-- A solve that met an input fault. -/
def faulted (o : Nat) : Solved := ⟨0, 0, [], 0, 0, [0, 0, 0, 0], 0, 0xFFFFFFFF, o, [], []⟩

/-- Solve a problem. -/
def solve (b : List Byte) (cap : Nat) (stop : Option Nat) : Solved :=
  let p := problemOf b
  match p.kind with
  | 0 => solveQp b p cap stop
  | 1 => solveDense b p
  | _ => solveCg b p cap stop

/-! ### Timing of the deadline (R492, R500) -/

/-- Stored entries of A and the most in one row; stored nonzeros of P in both triangles. -/
def planeCounts (b : List Byte) (p : Problem) : Nat × Nat × Nat :=
  let a := rowsA b p
  let low := lowerP b p
  let full := (symRows p.n low).foldl (fun n r => n + (r.filter fun e => e.2 % 2 ^ 31 != 0).length) 0
  (a.foldl (fun n r => n + r.length) 0, a.foldl (fun n r => max n r.length) 0, full)

/-- Setup, iteration and finish cycles (R500); a dense Cholesky solve has no iteration, and all but its finish is setup. -/
def planeCycles (b : List Byte) : Nat × Nat × Nat :=
  let p := problemOf b
  let c := planeCounts b p
  let k := bandOf (lowerP b p) (rowsA b p)
  let nm := p.n + p.m
  let out := 64 + 4 * (nm + max p.n p.m)
  let finish := 128 + ceilDiv (out + planeWork p.kind p.n p.m k) 64
  let load := 512 + ceilDiv b.length 64
  match p.kind with
  | 0 => (load + ceilDiv (c.1 * c.2.1 + p.n * (k + 1) * (k + 2) / 2) 16 + ceilDiv (2 * c.1 + c.2.2 + 4 * nm) 16,
      64 + ceilDiv (4 * p.n * (k + 1) + 4 * c.1 + 2 * c.2.2 + 16 * nm) 16, finish)
  | 1 => (load + ceilDiv (p.n * (p.n + 1) * (p.n + 2)) 96 + ceilDiv (p.n * (p.n + 1) + p.n ^ 2) 16, 0, finish)
  | _ => (load + ceilDiv (c.2.2 + 2 * p.n) 16, 64 + ceilDiv (c.2.2 + 5 * p.n) 16, finish)

/-- The cycles a solve that ended with a status record took (R500); none where the spec gives no count: an input fault, or a
curvature failure in the factorisation, which ends the setup at its column. -/
def solveCycles (b rec_ : List Byte) : Option Nat :=
  let c := planeCycles b
  if leAt rec_ 0 1 = 0 || leAt rec_ 0x20 4 != 0xFFFFFFFF then none else some (c.1 + leAt rec_ 4 4 * c.2.1 + c.2.2)

/-- The iterate at which DEADLINE first holds with no waits (R492): `due` is the stated deadline. -/
def deadlineAt (f start stop cap : Nat) (due : Option Nat) (cyc : Nat × Nat × Nat) : Option Nat :=
  (List.range (cap + 1)).find? fun k =>
    let used := cyc.1 + k * cyc.2.1
    (due.any fun d => d ≤ start + used / f) || (stop - start) * f < used + cyc.2.1 + cyc.2.2

/-- The iterate at which a task's solve meets its deadline (R492). A Strict task takes exactly the cycles of R500. A Loose one also
waits for ports: it meets its deadline only if the deadline has come by now, at an iterate that is free up to the one it would
reach without waits (log entry 70). -/
def stopIterate (s : State) (t : Task) (b : List Byte) (cap : Nat) (due : Option Nat) : State × Option Nat :=
  let f := cyclesPerPt (fget s Fd.power_STEP_CUR)
  let start := t.disp.getD 0
  let c := planeCycles b
  let at_ := deadlineAt f start t.budgetEnd cap due c
  if t.strict then (s, at_)
  else if (due.any fun d => d ≤ now s) || (t.budgetEnd - now s) * f < c.2.1 + c.2.2 then
    let d := draw s
    (d.1, some (d.2 % (at_.getD cap + 1)))
  else (s, none)

/-! ### Tasks -/

/-- The first faulty byte of a problem, header first; a plan operator's N, M and kind must be the header's (log entry 71). -/
def problemFault (b : List Byte) (kind : Nat) (nm : Option (Nat × Nat)) : Option Nat :=
  let p := problemOf b
  match firstSome [headerFault b, chk (p.kind == kind) 4, chk (nm.all fun x => x.1 == p.n) 8, chk (nm.all fun x => x.2 == p.m) 12] with
  | some o => some o
  | none => inputFault b

/-- A task's solve. -/
def runSolve (s : State) (t : Task) (b : List Byte) (cap : Nat) (due : Option Nat) (kind : Nat) (nm : Option (Nat × Nat)) :
    State × Solved :=
  match problemFault b kind nm with
  | some o => (s, faulted o)
  | none =>
    let r := if kind = 1 then (s, none) else stopIterate s t b cap due
    (r.1, solve b cap r.2)

/-- Form the outputs of a plan operator (R476, R482, R499). -/
def planeTask (code task : Nat) (s : State) : Host.Outcome State Fault Refusal :=
  match taskOf s task with
  | some t =>
    if t.disp.isSome && !t.computed && t.code == code then
      match opOf s t with
      | some (_, o) =>
        let n := o.param 2
        let m := o.param 3
        let due := if o.param 1 = 0 then none else some (t.disp.getD 0 + o.param 1)
        let r := runSolve s t (t.inData.getD 0 []) (o.param 0) due (code - 0x070) (some (n, m))
        let v := r.2
        let bad := v.state == 0
        let free := freeBytes r.1 (4 * (n + m))
        let xy := if bad then free.2 else vecBytes n v.x ++ vecBytes m v.y
        let outs := [xy, v.record] ++ if o.outs.length < 3 then [] else [vecBytes (max n m) v.certVec]
        .next (putTask (if bad then free.1 else r.1)
          { t with outs := outs, computed := true, flags := t.flags ||| if bad then flagInvalid else 0 })
      | none => .next s
    else .next s
  | none => .next s

/-- QP_SOLVE (R491). -/
def execQpSolve (task : Nat) (s : State) : Host.Outcome State Fault Refusal := planeTask 0x070 task s

/-- CHOLESKY (R497). -/
def execCholesky (task : Nat) (s : State) : Host.Outcome State Fault Refusal := planeTask 0x071 task s

/-- CG (R498). -/
def execCg (task : Nat) (s : State) : Host.Outcome State Fault Refusal := planeTask 0x072 task s

/-- The output of a SOLVE Letter (R478, R499): record, x, y, certificate, and the work area, zero at the Reply. -/
def solveBytes (b : List Byte) (v : Solved) : List Byte :=
  let p := problemOf b
  let k := bandOf (lowerP b p) (rowsA b p)
  v.record ++ vecBytes p.n v.x ++ vecBytes p.m v.y ++ vecBytes (max p.n p.m) v.certVec ++
    List.replicate (planeWork p.kind p.n p.m k) 0

/-- The status of a solve in its Reply (R495). -/
def solveStatus (s : State) (t : Task) (state : Nat) : State :=
  let put := fun (st d : Nat) => updLetter s t.ch t.seq fun l =>
    if statusRank l.res = 0 then { l with res := { l.res with status := st, detail := d } } else l
  match state with
  | 2 => put 0x23 0
  | 3 => noteStatus s t.ch t.seq 0x21 0
  | 4 => put 0x24 0
  | 5 => put 0x24 1
  | _ => s

/-- BUSY_CYCLES at the end of a solve (R500, R502): the cycles it took, or free ones where the spec gives no count (log entry 180). -/
def countBusy (s : State) (t : Task) (rec_ : List Byte) : State :=
  let d := match solveCycles (t.inData.getD 0 []) rec_ with
    | some n => (s, n)
    | none => draw s
  fadd d.1 (Fd.plane_BUSY_CYCLES (t.units.headD 0)) d.2

/-- Count the end of a solve (R502). -/
def countSolve (s : State) (t : Task) (rec_ : List Byte) : State :=
  let u := t.units.headD 0
  let s := fadd s (Fd.plane_TASK_COUNT u) 1
  let s := fadd s (Fd.plane_ITER_COUNT u) (leAt rec_ 4 4)
  let s := countBusy s t rec_
  match leAt rec_ 0 1 with
  | 0 => fadd s (Fd.plane_INPUT_FAULT_COUNT u) 1
  | 1 => fadd s (Fd.plane_CONVERGED_COUNT u) 1
  | 2 => fadd s (Fd.plane_CAPPED_COUNT u) 1
  | 3 => fadd s (Fd.plane_DEADLINE_COUNT u) 1
  | _ => fadd s (Fd.plane_INFEASIBLE_COUNT u) 1

/-- Whether the mod-3 residues of an operation agree (R501). -/
def PlaneOp.agrees : PlaneOp → Bool
  | .mulAdd a b c r => (a % 3 * (b % 3) + c % 3) % 3 == r % 3
  | .divide n d quot rem => (d % 3 * (quot % 3) + rem % 3) % 3 == n % 3
  | .root n r rem => (r % 3 * (r % 3) + rem % 3) % 3 == n % 3

/-- A residue mismatch (R501). -/
def planeResidue (s : State) (t : Task) : State :=
  let s := setEvent (fadd s (Fd.plane_RESIDUE_ERR_COUNT (t.units.headD 0)) 1) (taskPage t) 8
  noteStatus (raise s 0x05 (taskPage t) t.sclass t.pid 0) t.ch t.seq 0x40 0

/-- Count a solve that ended with a status record, and check the residues of its operations; a problem with an input fault is not
solved (R482, R501, R502). -/
def endSolve (s : State) (t : Task) (rec_ : List Byte) (ops : List PlaneOp) : State × Task :=
  let s := countSolve s t rec_
  if leAt rec_ 0 1 = 0 || ops.all PlaneOp.agrees then (s, t) else (planeResidue s t, { t with flags := t.flags ||| flagInvalid })

/-- The solve of a SOLVE Letter. -/
def directSolve (s : State) (t : Task) (l : Letter) : State × Solved :=
  let due := if l.l.deadline = 0 then none else some (l.acceptPm + l.l.deadline.toNat)
  runSolve s t (t.inData.getD 0 []) (arg l.l 0x24 4) due (arg l.l 0x20 1) none

/-- The end of a SOLVE Letter (R478, R482, R495, R499). An input fault writes nothing. -/
def endDirect (s : State) (t : Task) (l : Letter) (ops : List PlaneOp) : State :=
  let r := directSolve s t l
  let v := r.2
  let e := endSolve r.1 t v.record ops
  if v.state = 0 then finishLetter (dropTask e.1 t.id) t.ch t.seq (Result.plain 0x12 (0x08000000 + v.fault))
  else
    let t := { e.2 with outs := [solveBytes (t.inData.getD 0 []) v] }
    completeDirect (publishAll (solveStatus e.1 t v.state) t none []) t (bytesAt v.record 4 4 ++ bytesAt v.record 12 8)

/-- PLANE_SOLVE_COMPLETE (R495, R499, R501, R502). Outputs wait for LPDDR5X time (R245, R248). -/
def execPlaneSolveComplete (task : Nat) (ops : List PlaneOp) (s : State) : Host.Outcome State Fault Refusal :=
  match taskOf s task with
  | some t =>
    match letterOf s t.ch t.seq with
    | some l =>
      if t.kind == .plane && t.disp.isSome && (t.computed || l.op == 0x0A) && dramReady s t then
        if l.op = 0x0A then .next (endDirect s t l ops)
        else
          let e := endSolve s t (t.outs.getD 1 []) ops
          .next (completeTask (publishAll e.1 e.2 none []) e.2)
      else .next s
    | none => .next s
  | none => .next s

end Sys2Proof.Machine
end

