-- ==== Sys2Proof/Machine/Letters.lean ====
section
/-! DEFINITION. Reading the rings and admitting Letters (02 R53-R100, 03 R118-R135): the round, the ten steps of R82, what
each opcode checks, credits, supersede, and the records of what was decided. -/

namespace Sys2Proof.Machine

/-! ### The round -/

/-- Uncredited Letters in flight on a channel (R89). -/
def uncredited (s : State) (ch : Nat) : Nat := (s.letters.filter fun l => l.ch == ch && !creditedOp l.op).length

/-- The SET_PARTITION Letters that have been accepted and not finished: the partition each names and its CHANNEL_MASK. -/
def changing (s : State) : List (Nat × Nat) :=
  (s.letters.filter fun l => l.op == 0x0B && l.phase != .finished).map fun l => (arg l.l 0x18 1, arg l.l 0x20 8)

/-- Whether a channel is no longer read because its partition is being changed, or because it moves to the partition (R262
step 1, R144; log entry 102). -/
def stopped (s : State) (ch : Nat) : Bool :=
  (changing s).any fun c => fget s (Fd.chan_PID ch) == c.1 || (movedChannels s c.1 c.2).contains ch

/-- Whether the Corod can take an entry of a channel now: a held Letter once one of its four has completed (R89), or the next entry
of an enabled channel (R53, R58); not while the Reply ring is full (R55) or the host is gone (R680). A held Letter has been read
already: it is judged although its channel is read no further (R262). -/
def mayRead (s : State) (ch : Nat) : Bool :=
  !rringFull s ch && !hostGone s (fget s (Fd.chan_PID ch)) &&
    match (chanOf s ch).held with
    | some _ => uncredited s ch < 4
    | none => !stopped s ch && fget s (Fd.chan_ENABLE ch) == 1 && 0 < lringOcc s ch

/-- Channel order of a round from the second on (R132). -/
def roundOrder (s : State) : List Nat :=
  let strict := fun ch => strictPid s (fget s (Fd.chan_PID ch))
  (List.range 64).filter strict ++ (List.range 64).filter fun ch => !strict ch

/-- What is left of the present round (R132, R134): the channels after the one read last. -/
def roundRest (s : State) : List Nat :=
  let order := if s.firstRound then List.range 64 else roundOrder s
  match s.round with
  | [] => order
  | c :: _ => ((order.dropWhile (· != c)).drop 1).filter fun x => !s.round.contains x

/-- Whether rings are read at all (R109, R133, R135, R621). -/
def ringsOpen (s : State) : Bool := s.boot.ready && s.boot.scanned && s.pins.pwrKillN && !journalFull s

/-- The channel whose ring is read next (R132): none while no ring may be read. -/
def nextRead (s : State) : Option Nat :=
  if ringsOpen s then
    match (roundRest s).find? (mayRead s) with
    | some c => some c
    | none => (roundOrder s).find? (mayRead s)
  else none

/-- Note that a channel has had its turn. A round that ends while no ring has a Letter to read, the first included, stays open at
the channel read last until the next read: the model's choice (log entry 197). -/
def takeTurn (s : State) (ch : Nat) : State :=
  if (roundRest s).contains ch then { s with round := ch :: s.round } else { s with round := [ch], firstRound := false }

/-! ### Step 6: fields -/

/-- Whether an opcode is defined (R70). -/
def opDefined (op : Nat) : Bool := 1 ≤ op && op ≤ 0x11

/-- The first 124 bytes of a Letter (R59). -/
def letterBody (op : Nat) (l : LetterIn) : List Byte :=
  leBytes 1 op ++ leBytes 1 l.lflags.toNat ++ leBytes 1 l.chan.toNat ++ leBytes 1 l.sclass.toNat ++
    leBytes 4 l.seq.toNat ++ leBytes 2 l.slot.toNat ++ leBytes 2 l.stream.toNat ++ leBytes 4 l.deadline.toNat ++
    leBytes 8 l.tag.toNat ++ bytesAt l.args 0 100

/-- The fields of an opcode's argument block: offset and size (R70). -/
def argFields (op : Nat) : List (Nat × Nat) :=
  match op with
  | 0x02 => [(0x18, 8), (0x20, 4), (0x24, 2)]
  | 0x03 => [(0x18, 2)]
  | 0x04 => [(0x18, 2), (0x1A, 2), (0x20, 8)]
  | 0x05 => [(0x18, 4), (0x1C, 4), (0x20, 8), (0x28, 8), (0x30, 4)]
  | 0x06 => [(0x18, 4), (0x20, 8), (0x28, 8), (0x30, 4)]
  | 0x07 => [(0x18, 1), (0x1C, 4), (0x20, 8), (0x28, 4)]
  | 0x08 => [(0x18, 4), (0x1C, 1), (0x1D, 1), (0x1E, 2), (0x20, 4), (0x24, 4), (0x28, 8), (0x30, 2)]
  | 0x09 => [(0x18, 4), (0x1C, 4), (0x20, 4), (0x24, 1), (0x25, 1), (0x28, 4)]
  | 0x0A => [(0x18, 4), (0x1C, 4), (0x20, 1), (0x24, 4)]
  | 0x0B => [(0x18, 1), (0x19, 1), (0x20, 8), (0x28, 8), (0x30, 4)]
  | 0x0C => [(0x18, 1), (0x1C, 4), (0x20, 2), (0x28, 8)]
  | 0x0D => [(0x18, 2), (0x1C, 4), (0x20, 4), (0x28, 8)]
  | 0x0E => [(0x18, 4)]
  | 0x0F => [(0x18, 1), (0x1A, 2), (0x1C, 4)]
  | 0x10 => [(0x18, 1)]
  | 0x11 => [(0x18, 1), (0x1C, 4)]
  | _ => []

/-- Whether an opcode takes DATA_CRC (R73). -/
def takesCrc (op : Nat) : Bool := op == 0x05 || op == 0x07

/-- Whether an opcode takes a deadline (R61). -/
def takesDeadline (op : Nat) : Bool := op == 0x04 || op == 0x08 || op == 0x09 || op == 0x0A

/-- The first unused byte of the argument block that is not zero (R59). -/
def unusedFault (op : Nat) (l : LetterIn) : Option Nat :=
  let fs := argFields op
  (List.range 100).map (0x18 + ·) |>.find? fun o => arg l o 1 != 0 && !(fs.any fun f => f.1 ≤ o && o < f.1 + f.2)

/-- The faults common to all Letters (R59, R61, R73): reserved bits and bytes, SCLASS, the deadline, a reserved DATA_CRC, which is
reported at the field's offset whichever of its bytes is not zero (the model's choice, log entry 195). -/
def headFaults (op : Nat) (l : LetterIn) : List (Option Nat) :=
  [chk (l.lflags.toNat < 4 && (takesCrc op || !bit l.lflags.toNat 1)) 0x01, chk (l.chan.toNat < 64) 0x02,
    chk (l.sclass.toNat ≤ 4) 0x03, chk (l.stream.toNat < 4096) 0x0B, chk (takesDeadline op || l.deadline == 0) 0x0C,
    chk (!takesCrc op || bit l.lflags.toNat 1 || arg l 0x1C 4 == 0) 0x1C, unusedFault op l]

/-- Whether a TENSOR_ID is one of the issuing partition (R74). -/
def ownTensor (pid id : Nat) : Bool := id / 2 ^ 28 == pid

/-- Whether a tensor of the issuing partition is missing or smaller than a size; a foreign one is judged at step 7. -/
def tensorShort (s : State) (pid id need : Nat) : Bool :=
  ownTensor pid id && match tensorEnt s pid id with
    | some e => e.size < need
    | none => true

/-- LOAD_PLAN (R204). -/
def loadFault (l : LetterIn) : Option Nat :=
  let n := arg l 0x20 4
  firstSome [chk (arg l 0x18 8 % 64 == 0) 0x18, chk (n % 4 == 0 && 128 ≤ n && n ≤ 2 ^ 24) 0x20, chk (arg l 0x24 2 ≤ 255) 0x24]

/-- WRITE_TENSOR and READ_TENSOR (R74). -/
def transferFault (s : State) (pid : Nat) (l : LetterIn) : Option Nat :=
  let id := arg l 0x18 4
  if !ownTensor pid id then none
  else match tensorEnt s pid id with
    | none => some 0x18
    | some e =>
      let o := arg l 0x28 8
      let n := arg l 0x30 4
      firstSome [chk (o < e.size) 0x28, chk (1 ≤ n && o + n ≤ e.size) 0x30]

/-! ### Plan slots at admission -/

/-- Whether a LOAD_PLAN of a slot is in flight (R77): until its final Reply is queued (the model's choice, log entry 194). -/
def slotLoading (s : State) (slot : Nat) : Bool :=
  s.letters.any fun l => l.op == 0x02 && slotArg l == slot && l.phase != .finished

/-- Whether an UNLOAD_PLAN of a slot has been accepted that has not finished, and no LOAD_PLAN in flight after it (R77). A later
LOAD_PLAN that ends without loading leaves the slot counting as empty again (the model's choice, log entry 193). -/
def slotUnloading (s : State) (slot : Nat) : Bool :=
  s.letters.any fun u => u.op == 0x03 && slotArg u == slot && u.phase != .finished &&
    !(s.letters.any fun l => l.op == 0x02 && slotArg l == slot && l.phase != .finished && u.ord < l.ord)

/-- Whether a slot is empty (R77). -/
def slotEmpty (s : State) (slot : Nat) : Bool :=
  ((planAt s slot).isNone && !slotLoading s slot) || slotUnloading s slot

/-- Whether another partition owns a slot (R206). -/
def slotForeign (s : State) (pid slot : Nat) : Bool := (planAt s slot).any fun p => p.owner != pid

/-! ### RUN_PLAN -/

/-- Whether a plan tensor is bound at run time (R197). -/
def boundKind (k : Nat) : Bool := 1 ≤ k && k ≤ 3

/-- A range that a binding entry takes: where it begins, its size, and whether its plan tensor is BOUND_IN. -/
structure BindRange where
  lo : Nat
  size : Nat
  input : Bool

/-- Whether a range overlaps an earlier one and R212 forbids it. -/
def bindClash (rs : List BindRange) (r : BindRange) : Bool :=
  rs.any fun x => x.lo < r.lo + r.size && r.lo < x.lo + x.size && !(x.input && r.input)

/-- The first fault of a binding table from entry `k` on (R211, R212): the offset in the table with 2^31 added, or 0x1A for a bound
tensor with no entry. -/
def bindScan (s : State) (pid : Nat) (p : List W32) (b : List Byte) : Nat → Nat → List Nat → List BindRange → Option Nat
  | 0, _, seen, _ =>
    if (List.range (tensorCount p)).all fun i => !boundKind (tensorDesc p i).kind || seen.contains i then none else some 0x1A
  | n + 1, k, seen, rs =>
    let o := 16 * k
    let i := leAt b o 2
    let id := leAt b (o + 4) 4
    let off := leAt b (o + 8) 8
    let d := tensorDesc p i
    if tensorCount p ≤ i || !boundKind d.kind || seen.contains i then some (2 ^ 31 + o)
    else if leAt b (o + 2) 2 != 0 then some (2 ^ 31 + o + 2)
    else if !ownTensor pid id then
      if off % 64 != 0 then some (2 ^ 31 + o + 8) else bindScan s pid p b n (k + 1) (i :: seen) rs
    else match tensorEnt s pid id with
      | none => some (2 ^ 31 + o + 4)
      | some e =>
        let r : BindRange := ⟨e.addr + off, d.size, d.kind == 1⟩
        if e.size < d.size then some (2 ^ 31 + o + 4)
        else if off % 64 != 0 || e.size < off + d.size then some (2 ^ 31 + o + 8)
        else if bindClash rs r then some (2 ^ 31 + o + 4)
        else bindScan s pid p b n (k + 1) (i :: seen) (r :: rs)

/-- The bindings of a RUN_PLAN (R211). -/
def bindList (l : LetterIn) (data : List Byte) : List Binding :=
  (List.range (arg l 0x1A 2)).map fun k => ⟨leAt data (16 * k) 2, leAt data (16 * k + 4) 4, leAt data (16 * k + 8) 8⟩

/-- RUN_PLAN (R70, R77, R211, R212). -/
def runFault (s : State) (pid : Nat) (l : LetterIn) (data : List Byte) : Option Nat :=
  let slot := arg l 0x18 2
  let n := arg l 0x1A 2
  if 255 < slot || slotEmpty s slot then some 0x18
  else if 512 < n then some 0x1A
  else match planAt s slot with
    | some p => if p.owner == pid then bindScan s pid p.words data n 0 [] [] else none
    | none => none

/-! ### SWEEP, SELECT, SOLVE -/

/-- SWEEP (R426, R427). -/
def sweepFault (s : State) (pid : Nat) (l : LetterIn) : Option Nat :=
  let n := arg l 0x18 4
  let slot := arg l 0x1F 1
  let absent := match planAt s slot with
    | some p => bodyCount p.words ≤ arg l 0x1E 1
    | none => false
  firstSome [chk (1 ≤ n && n ≤ 2 ^ 20) 0x18, chk (1 ≤ arg l 0x1C 1 && arg l 0x1C 1 ≤ 64) 0x1C, chk (arg l 0x1D 1 ≤ 1) 0x1D,
    chk (!slotEmpty s slot && !absent) 0x1E, chk (arg l 0x1D 1 == 1 || !tensorShort s pid (arg l 0x20 4) (40 * n)) 0x20,
    chk (!tensorShort s pid (arg l 0x24 4) (16 * n + 32)) 0x24]

/-- The selection header's faults (R449), as header offsets. -/
def selectHeaderFault (h : List Byte) (kt : Nat) : Option Nat :=
  let ks := keyBytes kt
  let stride := leAt h 4 1
  let ko := leAt h 5 1
  let vt := leAt h 6 1
  let vo := leAt h 7 1
  let vs := keyBytes vt
  firstSome [chk (1 ≤ leAt h 0 4 && leAt h 0 4 ≤ 65536) 0,
    chk (2 ≤ stride && stride ≤ 64 && stride % ks == 0 && (vs == 0 || stride % vs == 0)) 4,
    chk (ko % ks == 0 && ko + ks ≤ stride) 5, chk (vt ≤ 7) 6,
    chk (if vt = 0 then vo == 0 else vo % vs == 0 && vo + vs ≤ stride) 7,
    ((List.range 52).map (12 + ·)).find? fun o => leAt h o 1 != 0]

/-- SELECT (R451), in its table's order. A foreign key tensor is not read: it is judged at step 7. A missing key tensor is judged
after KEY_TYPE and MODE, before what its header fixes (the model's choice, log entry 196). -/
def selectFault (s : State) (pid : Nat) (l : LetterIn) : Option Nat :=
  let kt := arg l 0x24 1
  let mode := arg l 0x25 1
  let k := arg l 0x20 4
  let thr := arg l 0x28 4
  let key := arg l 0x18 4
  let early := firstSome [chk (keyBytes kt != 0) 0x24, chk (mode < 8 && !(bit mode 1 && bit mode 2)) 0x25]
  let late := fun (rowLen : Nat) => firstSome [chk (1 ≤ k && k ≤ rowLen) 0x20,
    chk (if bit mode 2 then thr < 2 ^ (8 * keyBytes kt) else thr == 0) 0x28,
    chk (!tensorShort s pid (arg l 0x1C 4) (256 + 8 * min k rowLen)) 0x1C]
  if early.isSome then early
  else if !ownTensor pid key then late (2 ^ 32)
  else match tensorEnt s pid key with
    | none => some 0x18
    | some e =>
      let h := viewFor s pid e.addr 64
      match selectHeaderFault h kt with
      | some o => some (0x10000000 + o)
      | none => if e.size < 64 + leAt h 0 4 * leAt h 4 1 then some 0x10000000 else late (leAt h 0 4)

/-- SOLVE (R477, R478, R481): the least offset of its faults. The work area of a QP takes b from the problem as it stands. -/
def solveFault (s : State) (pid : Nat) (l : LetterIn) : Option Nat :=
  let kind := arg l 0x20 1
  let cap := arg l 0x24 4
  let prob := arg l 0x18 4
  let common := [chk (kind ≤ 2) 0x20, chk (if kind = 1 then cap == 0 else 1 ≤ cap && cap ≤ 1048576) 0x24]
  if !ownTensor pid prob then leastFault common
  else match tensorEnt s pid prob with
    | none => some 0x18
    | some e =>
      let h := viewFor s pid e.addr (min e.size 128)
      match headerFaultAt h e.size with
      | some o => leastFault (common ++ [chk (leAt h 4 1 == kind) 0x20, some (0x08000000 + o)])
      | none =>
        let q := problemOf h
        let b := viewFor s pid e.addr e.size
        let work := planeWork q.kind q.n q.m (if q.kind = 0 then bandOf (lowerP b q) (rowsA b q) else 0)
        leastFault (common ++ [chk (q.kind == kind) 0x20,
          chk (!tensorShort s pid (arg l 0x1C 4) (64 + 4 * (q.n + q.m + max q.n q.m) + work)) 0x1C])

/-! ### SET_PARTITION, READ_LEDGER, SAFETY_CMD -/

/-- Whether the active timetable has a WINDOW of a partition (R346). -/
def hasWindow (s : State) (p : Nat) : Bool :=
  (List.range (ttCount s.sched.active)).any fun k => ttIsWindow s.sched.active k && ttPid s.sched.active k == p

/-- Whether a CHANNEL_MASK is allowed (R260): no channel of another enabled partition but PID 0, not the one that carries the
Letter, and none at all for PID 0 or REGIME 0. -/
def maskOk (s : State) (ch p regime mask : Nat) : Bool :=
  if p = 0 || regime = 0 then mask == 0
  else (List.range 64).all fun c =>
    let owner := fget s (Fd.chan_PID c)
    !bit mask c || (c != ch && (owner == 0 || owner == p || !enabledPid s owner))

/-- SET_PARTITION (R256-R261, R346, R769), against the tables in force. -/
def partitionFault (s : State) (ch : Nat) (l : LetterIn) (data : List Byte) : Option Nat :=
  let p := arg l 0x18 1
  let regime := arg l 0x19 1
  firstSome [chk (p ≤ 15) 0x18,
    chk (regime ≤ 2 && (p != 0 || regime == 2) && (regime != 1 || hasWindow s p)) 0x19,
    chk (maskOk s ch p regime (arg l 0x20 8)) 0x20, chk (arg l 0x28 8 % 64 == 0) 0x28,
    chk (arg l 0x30 4 == blockLength data) 0x30, (blockFault s p regime (mirrorBase s) data).map (0x40000000 + ·)]

/-- READ_LEDGER (R702). -/
def ledgerFault (l : LetterIn) : Option Nat :=
  let n := ledgerCount (arg l 0x18 2)
  let start := arg l 0x1C 4
  firstSome [chk (n != 0) 0x18, chk (start < n) 0x1C, chk (1 ≤ arg l 0x20 4 && start + arg l 0x20 4 ≤ n) 0x20,
    chk (arg l 0x28 8 % 64 == 0) 0x28]

/-- Whether a SAFETY_CMD's ARG is allowed (R614): bits not listed are reserved; a class that maps to safe state B needs
CONFIRM. -/
def safetyArgOk (cmd a : Nat) : Bool :=
  match cmd with
  | 0x03 => a < 2 ^ 16
  | 0x04 =>
    let cls := bits a 7 0
    bits a 30 20 == 0 && classDefined cls && (bit a 31 || classReaction cls 0xF != .safeB)
  | 0x07 => a < 2 ^ 16 && unitExists (bits a 7 0) (bits a 15 8)
  | 0x08 => a < 2 ^ 16 && unitExists (bits a 7 0) (bits a 15 8)
  | _ => a == 0

/-- SAFETY_CMD (R614). -/
def safetyFault (l : LetterIn) : Option Nat :=
  let cmd := arg l 0x18 1
  firstSome [chk (1 ≤ cmd && cmd ≤ 8) 0x18, chk (safetyArgOk cmd (arg l 0x1C 4)) 0x1C]

/-- What an opcode itself checks at step 6. -/
def opFault (s : State) (op ch pid : Nat) (l : LetterIn) (data : List Byte) : Option Nat :=
  match op with
  | 0x02 => loadFault l
  | 0x03 => chk (arg l 0x18 2 ≤ 255) 0x18
  | 0x04 => runFault s pid l data
  | 0x05 => transferFault s pid l
  | 0x06 => transferFault s pid l
  | 0x07 => firstSome [chk (arg l 0x18 1 < 4) 0x18, chk (64 ≤ arg l 0x28 4) 0x28]
  | 0x08 => sweepFault s pid l
  | 0x09 => selectFault s pid l
  | 0x0A => solveFault s pid l
  | 0x0B => partitionFault s ch l data
  | 0x0C => firstSome [chk (arg l 0x18 1 < 64) 0x18, chk (1 ≤ arg l 0x20 2 && arg l 0x20 2 ≤ 4096) 0x20]
  | 0x0D => ledgerFault l
  | 0x0F => safetyFault l
  | 0x10 => chk (arg l 0x18 1 ≤ 1) 0x18
  | 0x11 => chk (arg l 0x18 1 < 64) 0x18
  | _ => none

/-- Step 6 of R82: the lowest offending offset. -/
def fieldFault (s : State) (op ch pid : Nat) (l : LetterIn) (data : List Byte) : Option Nat :=
  leastFault (opFault s op ch pid l data :: headFaults op l)

/-! ### Step 7: permission -/

/-- Whether a plan names the World Lattice's stream in an operator of a code (R401). -/
def planUses (s : State) (p : List W32) (code : Nat) : Bool :=
  let st := fget s Fd.lattice_STREAM
  (planOps p).any fun o => o.code == code && (o.ins ++ o.outs).any fun t =>
    (tensorDesc p t).kind == 5 && (streamDesc p (tensorDesc p t).link).stream == st

/-- Whether a partition may build epochs (R401). -/
def mayBuild (s : State) (pid : Nat) : Bool :=
  fget s Fd.lattice_LAT_PID == pid || (fget s Fd.lattice_FEED_EN == 1 && fget s Fd.lattice_FEED_PID == pid)

/-- Whether a partition may sweep (R401). -/
def maySweep (s : State) (pid : Nat) : Bool := fget s Fd.lattice_LAT_PID == pid

/-- What a RUN_PLAN may not do (R206, R213, R247, R401). -/
def runForbidden (s : State) (pid : Nat) (l : LetterIn) (data : List Byte) : Bool :=
  match planAt s (arg l 0x18 2) with
  | some p => p.owner != pid || ((bindList l data).any fun b => !ownTensor pid b.tensor) ||
      ((planStreams p.words).any fun e => fget s (Fd.part_MAX_SCLASS pid) < e.sclass) ||
      (planUses s p.words 0x061 && !mayBuild s pid) || (planUses s p.words 0x060 && !maySweep s pid)
  | none => false

/-- What an opcode itself checks at step 7. -/
def opForbidden (s : State) (op pid : Nat) (l : LetterIn) (data : List Byte) : Bool :=
  match op with
  | 0x02 => slotForeign s pid (arg l 0x24 2)
  | 0x03 => slotForeign s pid (arg l 0x18 2)
  | 0x04 => runForbidden s pid l data
  | 0x05 => !ownTensor pid (arg l 0x18 4)
  | 0x06 => !ownTensor pid (arg l 0x18 4)
  | 0x07 => !mayBuild s pid
  | 0x08 => strictPid s pid || !maySweep s pid || slotForeign s pid (arg l 0x1F 1) || !ownTensor pid (arg l 0x24 4) ||
      (arg l 0x1D 1 == 0 && !ownTensor pid (arg l 0x20 4))
  | 0x09 => strictPid s pid || !ownTensor pid (arg l 0x18 4) || !ownTensor pid (arg l 0x1C 4)
  | 0x0A => strictPid s pid || !ownTensor pid (arg l 0x18 4) || !ownTensor pid (arg l 0x1C 4)
  | 0x0C => fget s (Fd.chan_PID (arg l 0x18 1)) != pid
  | 0x11 => fget s (Fd.chan_PID (arg l 0x18 1)) != pid
  | _ => false

/-- Whether an opcode is PID 0's alone (R71). -/
def pid0Op (op : Nat) : Bool := op == 0x0B || op == 0x0D || op == 0x0E || op == 0x0F

/-- Step 7 of R82 (R71, R72, R247). -/
def forbidden (s : State) (op pid : Nat) (l : LetterIn) (data : List Byte) : Bool :=
  (pid0Op op && pid != 0) || fget s (Fd.part_MAX_SCLASS pid) < bits l.sclass.toNat 3 0 || opForbidden s op pid l data

/-! ### Step 8: readiness -/

/-- A RUN_PLAN that is not ready (R77, R210, R216, R401): DETAIL. -/
def runNotReady (s : State) (pid : Nat) (l : LetterIn) : Option Nat :=
  let slot := arg l 0x18 2
  match planAt s slot with
  | some p =>
    let uses := planUses s p.words 0x060 || planUses s p.words 0x061
    if slotLoading s slot || p.unfit || (uses && fget s Fd.lattice_LAT_EN == 0) then some 0
    else ((planStreams p.words).find? fun e => !e.output && (mapFind s.streams (streamKey pid e.stream)).isNone).map (·.tensor)
  | none => some 0

/-- Whether a slot holds a plan that is neither still loading nor unfit (R77, R82 step 8, R210). -/
def slotReady (s : State) (slot : Nat) : Bool := !slotLoading s slot && (planAt s slot).any fun p => !p.unfit

/-- Step 8 of R82: DETAIL of NOT_READY. -/
def notReady (s : State) (op pid : Nat) (l : LetterIn) : Option Nat :=
  if !enabledPid s pid then some 0
  else match op with
    | 0x04 => runNotReady s pid l
    | 0x07 => chk (fget s Fd.lattice_LAT_EN == 1) 0
    | 0x08 => chk (fget s Fd.lattice_LAT_EN == 1 && fget s Fd.lattice_PUBLISHED == 1 && slotReady s (arg l 0x1F 1)) 0
    | _ => none

/-! ### Replies of admission -/

/-- A Reply that answers an entry without a record (R83, R124). -/
def answer (s : State) (ch op : Nat) (l : LetterIn) (rflags : Nat) (r : Result) : State :=
  let p : PendReply := ⟨ch, op, l.seq.toNat, l.tag.toNat, rflags + rfNotWall, r, false, false, false,
    strictPid s (fget s (Fd.chan_PID ch)), bit l.lflags.toNat 0⟩
  { s with replies := s.replies ++ [p] }

/-- Refuse an entry at step 1, 2, 3, 8 or 9 (R83). -/
def refuse (s : State) (ch op : Nat) (l : LetterIn) (status detail : Nat) : State :=
  answer s ch op l rfFinal (Result.plain status detail)

/-- Reissue the recorded Reply of a finished Letter (R122, R717, R770): what the mirror's half holds. -/
def reissue (s : State) (ch op : Nat) (l : LetterIn) (peer : Bool) : State :=
  let s := fadd s Fd.daybook_DUP_COUNT 1
  let base := if peer then peerBase s else mirrorBase s
  let r := ownRead s (entryAddr base ch l.seq.toNat + 64) 64
  let b := r.2.1
  if r.2.2 then answer r.1 ch op l (rfDuplicate + rfFinal) (Result.plain 0x40 0)
  else
    let p : PendReply := ⟨leAt b 2 1, leAt b 3 1, leAt b 4 4, leAt b 8 8, bits (leAt b 1 1) 6 1 * 2 + rfDuplicate,
      ⟨leAt b 0 1, leAt b 0x10 4, some (docketOf (bytesAt b 0x20 16)), bytesAt b 0x30 12⟩, false, false, false,
      strictPid s (fget s (Fd.chan_PID ch)), bit l.lflags.toNat 0⟩
    { r.1 with replies := r.1.replies ++ [{ p with ch := ch }] }

/-- The version of a Letter rejected at step 5, 6 or 7 (R103). -/
def rejectedVersion (s : State) (ch op pid : Nat) (l : LetterIn) (status detail : Nat) (cell : Option Nat) : Version :=
  { state := 4, ch := ch, op := op, status := status, seq := l.seq.toNat, tag := l.tag.toNat, pid := pid
    sclass := l.sclass.toNat, stream := l.stream.toNat, epoch := s.time.epoch.toNat, acceptPm := now48 s, startPm := 0
    finishPm := now48 s, detail := detail, cell := cell.getD 0, strict := strictPid s pid }

/-- Reject a Letter at step 5, 6 or 7 (R84, R102, R103, R107): it enters the window with its outcome, which is recorded. -/
def reject (s : State) (ch op pid : Nat) (l : LetterIn) (status detail : Nat) : State :=
  let c := takeCell s
  let s := noteVolatile (enterWindow c.1 ch l.seq.toNat .finished) ch l.seq.toNat
  let p : PendReply := ⟨ch, op, l.seq.toNat, l.tag.toNat, rfFinal + rfNotWall, Result.plain status detail, true, true, false,
    strictPid s pid, bit l.lflags.toNat 0⟩
  queueVersion (queueReply s p) (rejectedVersion s ch op pid l status detail c.2)

/-! ### Step 9: credits and supersede -/

/-- Whether a Letter is latest-wins (R126). -/
def latestLetter (s : State) (op pid stream : Nat) : Bool := op == 0x07 || latestWins s pid stream

/-- The Letters that the acceptance of a latest-wins Letter supersedes (R126, R127, R143). -/
def victims (s : State) (op pid stream : Nat) : List Letter :=
  if latestLetter s op pid stream then
    s.letters.filter fun x => x.pid == pid && bits x.l.stream.toNat 11 0 == stream && x.phase == .accepted &&
      (x.op == 0x07) == (op == 0x07)
  else []

/-- Why a credited Letter finds no credit, were some Letters gone (R87, R100, R128, R131): 0 the channel, 1 the device. -/
def creditLack (s : State) (ch pid : Nat) (gone : List Letter) : Option Nat :=
  let g := gone.filter fun x => creditedOp x.op
  let here := (g.filter fun x => x.ch == ch).length
  if fget s (Fd.chan_CREDIT ch) ≤ fget s (Fd.chan_IN_FLIGHT ch) - here then some 0
  else if 512 ≤ fget s Fd.dev_DEV_IN_FLIGHT - g.length then some 1
  else if !strictPid s pid && 512 - strictReserve s ≤ fget s Fd.dev_LOOSE_IN_FLIGHT - g.length then some 1
  else none

/-- Withdraw what a Letter that has not started has put in place (R76, R78): its waiting tasks and its flow slot. -/
def withdraw (s : State) (l : Letter) : State :=
  let seq := l.l.seq.toNat
  let s := { s with sched := { s.sched with tasks := s.sched.tasks.filter fun t => !(t.ch == l.ch && t.seq == seq) } }
  let s := freeFlow s (l.run.bind (·.flowSlot))
  updLetter s l.ch seq fun x => { x with run := none }

/-- Supersede a Letter (R127): it replies SUPERSEDED and its credit is free at once (log entry 103). -/
def supersede (s : State) (l : Letter) : State :=
  let seq := l.l.seq.toNat
  let s := finishLetter (withdraw s l) l.ch seq (Result.plain 0x20 0)
  let s := { s with replies := s.replies.map fun r => if r.ch == l.ch && r.seq == seq && r.final then { r with credited := false } else r }
  let s := fadd s Fd.daybook_SUPERSEDE_COUNT 1
  if creditedOp l.op then freeCredit s l.ch (strictPid s l.pid) else s

/-! ### Step 10: acceptance -/

/-- Count an accepted credited Letter (R86, R87, R131). -/
def takeCredit (s : State) (ch : Nat) (strict : Bool) : State :=
  let s := fadd s (Fd.chan_IN_FLIGHT ch) 1
  let s := fadd s Fd.dev_DEV_IN_FLIGHT 1
  if strict then s else fadd s Fd.dev_LOOSE_IN_FLIGHT 1

/-- The body model a SWEEP names, as it stands at acceptance (R427; log entry 101). -/
def sweepBody (s : State) (l : LetterIn) : List Byte :=
  match planAt s (arg l 0x1F 1) with
  | some p => bytesOfWords ((p.words.drop (secOff p.words 0x08 + 1 + 304 * arg l 0x1E 1)).take 304)
  | none => []

/-- What the device keeps of a Letter's host data. -/
def keptData (s : State) (op : Nat) (l : LetterIn) (data : List Byte) : List Byte :=
  match op with
  | 0x02 => data
  | 0x05 => data
  | 0x07 => data
  | 0x08 => sweepBody s l
  | 0x0B => data
  | _ => []

/-- The accepted Letter. -/
def acceptedLetter (s : State) (ch op pid : Nat) (l : LetterIn) (data : List Byte) (cell : Option Nat) : Letter :=
  { ch := ch, op := op, l := l, data := keptData s op l data, pid := pid, ord := s.ord, phase := .accepted
    acceptPm := now s, startPm := 0, finishPm := 0, cell := cell, commit := 0, jno := 0
    binds := if op = 0x04 then bindList l data else [], run := none, res := Result.plain 0 0 }

/-- Accept a Letter (R84, R86, R102, R103): it enters the window IN_FLIGHT and its ACCEPTED version is queued. -/
def accept (s : State) (ch op pid : Nat) (l : LetterIn) (data : List Byte) : State :=
  let c := takeCell s
  let x := acceptedLetter s ch op pid l data c.2
  let s : State := { c.1 with letters := c.1.letters ++ [x], ord := c.1.ord + 1 }
  let s := if creditedOp op then takeCredit s ch (strictPid s pid) else s
  let s := noteVolatile (enterWindow s ch l.seq.toNat .inFlight) ch l.seq.toNat
  queueVersion s (versionOf s x 1)

/-- Steps 9 and 10 of R82 (R87, R88, R126-R131). -/
def creditStep (s : State) (ch op pid : Nat) (l : LetterIn) (data : List Byte) : State :=
  let v := victims s op pid (bits l.stream.toNat 11 0)
  let lack := if creditedOp op then creditLack s ch pid [] else none
  let after := if creditedOp op then creditLack s ch pid v else none
  match lack, after with
  | some d, some _ => refuse (fadd s (Fd.chan_BUSY_COUNT ch) 1) ch op l 0x10 d
  | _, _ => accept (v.foldl supersede s) ch op pid l data

/-! ### The key of SAFETY_CMD (R614) -/

/-- Whether a SAFETY_CMD is refused for its key: a wrong one, or eight failures in this power epoch. -/
def keyRefused (s : State) (op : Nat) (l : LetterIn) : Bool :=
  op == 0x0F && (arg l 0x1A 2 != s.nvm.key.toNat || 8 ≤ fget s Fd.safety_KEY_FAIL_COUNT)

/-- Count a wrong key (R614, R696). -/
def countKey (s : State) (l : LetterIn) : State :=
  if arg l 0x1A 2 != s.nvm.key.toNat then lifeAdd (fadd s Fd.safety_KEY_FAIL_COUNT 1) 2 4 else s

/-! ### The steps of R82 -/

/-- What admission reads of a Letter's own tensors: the 64 bytes of a SELECT's key header, a SOLVE's header, and a QP's whole problem
for its band. -/
def headerExtent (s : State) (op pid : Nat) (l : LetterIn) : Option (Nat × Nat) :=
  let t := arg l 0x18 4
  if !ownTensor pid t then none
  else match op, tensorEnt s pid t with
    | 0x09, some e => some (e.addr, 64)
    | 0x0A, some e =>
      let h := viewFor s pid e.addr (min e.size 128)
      some (e.addr, if (headerFaultAt h e.size).isNone && (problemOf h).kind = 0 then e.size else min e.size 128)
    | _, _ => none

/-- Those reads pass through the corrector and the pool like any other (R225-R229, R254). -/
def headerRead (s : State) (op pid : Nat) (l : LetterIn) : State :=
  match headerExtent s op pid l with
  | some (a, n) => (devRead s pid a n (bits l.sclass.toNat 3 0)).1
  | none => s

/-- Steps 5 to 10 of R82. -/
def judgeFresh (s : State) (ch op pid : Nat) (l : LetterIn) (data : List Byte) : State :=
  let s := headerRead s op pid l
  if !opDefined op then reject s ch op pid l 0x11 0
  else match fieldFault s op ch pid l data with
    | some o => reject s ch op pid l 0x12 o
    | none =>
      if forbidden s op pid l data then reject s ch op pid l 0x15 0
      else if keyRefused s op l then reject (countKey s l) ch op pid l 0x15 0
      else match notReady s op pid l with
        | some d => refuse s ch op l 0x14 d
        | none => creditStep s ch op pid l data

/-- Step 4 of R82 on (R120, R124). -/
def judgeWindow (s : State) (ch op : Nat) (l : LetterIn) (data : List Byte) : State :=
  match classify s ch l.seq.toNat with
  | .inFlight => answer (fadd s Fd.daybook_INFLIGHT_ACK_COUNT 1) ch op l rfInFlight (Result.plain 0 0)
  | .finished peer => reissue s ch op l peer
  | .stale => refuse (fadd s Fd.daybook_STALE_COUNT 1) ch op l 0x13 0
  | .fresh => judgeFresh s ch op (fget s (Fd.chan_PID ch)) l data

/-- The first failing of steps 1 to 3 of R82: DETAIL. `index` is the ring index of the entry. -/
def frontFault (ch op index : Nat) (l : LetterIn) : Option Nat :=
  firstSome [chk (l.crc.toNat == crc32c (letterBody op l)) 0x7C, chk (l.slot.toNat == index) 0x08,
    chk (bits l.chan.toNat 5 0 == ch) 0x02]

/-- Read the next entry of a ring and judge it (R53, R82, R89). -/
def readEntry (s : State) (ch op : Nat) (l : LetterIn) (data : List Byte) : State :=
  let index := fget s (Fd.chan_LRING_HEAD ch)
  let s := fput s (Fd.chan_LRING_HEAD ch) ((index + 1) % 2 ^ 16)
  match frontFault ch op index l with
  | some d => refuse s ch op l 0x12 d
  | none =>
    if opDefined op && !creditedOp op && 4 ≤ uncredited s ch then setChan s ch { chanOf s ch with held := some ⟨op, l⟩ }
    else judgeWindow s ch op l data

/-- The Corod takes an entry of a channel's ring in the channel's turn (R53, R82, R132); a held Letter is judged from step 4
(R89). It does nothing when the channel is not the one read next, or when another Letter is held there. -/
def letterRead (s : State) (op ch : Nat) (l : LetterIn) (data : List Byte) : State :=
  if nextRead s = some ch then
    let t := takeTurn s ch
    match (chanOf s ch).held with
    | some h =>
      if h = ⟨op, l⟩ then judgeWindow (setChan t ch { chanOf t ch with held := none }) ch op l data else s
    | none => readEntry t ch op l data
  else s

/-! ### One meaning for each Letter -/

/-- PING (R70, R88). -/
def execPing (ch : Fin 64) (l : LetterIn) (s : State) : Host.Outcome State Fault Refusal := .next (letterRead s 0x01 ch l [])

/-- LOAD_PLAN (R204, R206, R681): `data` is what host memory holds at SRC_ADDR. -/
def execLoadPlan (ch : Fin 64) (l : LetterIn) (data : List Byte) (s : State) : Host.Outcome State Fault Refusal :=
  .next (letterRead s 0x02 ch l (bytesAt data 0 (arg l 0x20 4)))

/-- UNLOAD_PLAN (R77). -/
def execUnloadPlan (ch : Fin 64) (l : LetterIn) (s : State) : Host.Outcome State Fault Refusal :=
  .next (letterRead s 0x03 ch l [])

/-- RUN_PLAN (R211-R216): `data` is what host memory holds at BIND_ADDR. -/
def execRunPlan (ch : Fin 64) (l : LetterIn) (data : List Byte) (s : State) : Host.Outcome State Fault Refusal :=
  .next (letterRead s 0x04 ch l data)

/-- WRITE_TENSOR (R73, R74): `data` is what host memory holds at SRC_ADDR. -/
def execWriteTensor (ch : Fin 64) (l : LetterIn) (data : List Byte) (s : State) : Host.Outcome State Fault Refusal :=
  .next (letterRead s 0x05 ch l (bytesAt data 0 (arg l 0x30 4)))

/-- READ_TENSOR (R74). -/
def execReadTensor (ch : Fin 64) (l : LetterIn) (s : State) : Host.Outcome State Fault Refusal :=
  .next (letterRead s 0x06 ch l [])

/-- WORLD_UPDATE (R126, R401, R407): `data` is what host memory holds at SRC_ADDR. -/
def execWorldUpdate (ch : Fin 64) (l : LetterIn) (data : List Byte) (s : State) : Host.Outcome State Fault Refusal :=
  .next (letterRead s 0x07 ch l (bytesAt data 0 (arg l 0x28 4)))

/-- SWEEP (R401, R426-R429). -/
def execSweep (ch : Fin 64) (l : LetterIn) (s : State) : Host.Outcome State Fault Refusal := .next (letterRead s 0x08 ch l [])

/-- SELECT (R350, R451). -/
def execSelect (ch : Fin 64) (l : LetterIn) (s : State) : Host.Outcome State Fault Refusal := .next (letterRead s 0x09 ch l [])

/-- SOLVE (R350, R477, R481). -/
def execSolve (ch : Fin 64) (l : LetterIn) (s : State) : Host.Outcome State Fault Refusal := .next (letterRead s 0x0A ch l [])

/-- SET_PARTITION (R71, R256-R262, R346): `data` is what host memory holds at CONFIG_ADDR. -/
def execSetPartition (ch : Fin 64) (l : LetterIn) (data : List Byte) (s : State) : Host.Outcome State Fault Refusal :=
  .next (letterRead s 0x0B ch l (bytesAt data 0 (blockLength data)))

/-- QUERY_DAYBOOK (R72, R88). -/
def execQueryDaybook (ch : Fin 64) (l : LetterIn) (s : State) : Host.Outcome State Fault Refusal :=
  .next (letterRead s 0x0C ch l [])

/-- READ_LEDGER (R71, R702). -/
def execReadLedger (ch : Fin 64) (l : LetterIn) (s : State) : Host.Outcome State Fault Refusal :=
  .next (letterRead s 0x0D ch l [])

/-- TIME_ALIGN (R71, R170). -/
def execTimeAlign (ch : Fin 64) (l : LetterIn) (s : State) : Host.Outcome State Fault Refusal :=
  .next (letterRead s 0x0E ch l [])

/-- A SAFETY_CMD Letter whose COMMAND byte is `cmd`, or a reserved one, which R614 rejects. -/
def safetyRead (s : State) (cmd ch : Nat) (l : LetterIn) : State :=
  let c := arg l 0x18 1
  if c = cmd || c = 0 || 8 < c then letterRead s 0x0F ch l [] else s

/-- SEAL (R614). -/
def execSeal (ch : Fin 64) (l : LetterIn) (s : State) : Host.Outcome State Fault Refusal := .next (safetyRead s 0x01 ch l)

/-- UNSEAL (R614). -/
def execUnseal (ch : Fin 64) (l : LetterIn) (s : State) : Host.Outcome State Fault Refusal := .next (safetyRead s 0x02 ch l)

/-- SET_KEY (R614). -/
def execSetKey (ch : Fin 64) (l : LetterIn) (s : State) : Host.Outcome State Fault Refusal := .next (safetyRead s 0x03 ch l)

/-- INJECT (R614). -/
def execInject (ch : Fin 64) (l : LetterIn) (s : State) : Host.Outcome State Fault Refusal := .next (safetyRead s 0x04 ch l)

/-- ENTER_SAFE_A (R614, R638). -/
def execEnterSafeA (ch : Fin 64) (l : LetterIn) (s : State) : Host.Outcome State Fault Refusal := .next (safetyRead s 0x05 ch l)

/-- LEAVE_SAFE_A (R614, R632). -/
def execLeaveSafeA (ch : Fin 64) (l : LetterIn) (s : State) : Host.Outcome State Fault Refusal := .next (safetyRead s 0x06 ch l)

/-- ROTATE (R607, R614, R709). -/
def execRotate (ch : Fin 64) (l : LetterIn) (s : State) : Host.Outcome State Fault Refusal := .next (safetyRead s 0x07 ch l)

/-- SUSPECT_CLEAR (R614). -/
def execSuspectClear (ch : Fin 64) (l : LetterIn) (s : State) : Host.Outcome State Fault Refusal := .next (safetyRead s 0x08 ch l)

/-- FENCE (R75). -/
def execFence (ch : Fin 64) (l : LetterIn) (s : State) : Host.Outcome State Fault Refusal := .next (letterRead s 0x10 ch l [])

/-- CANCEL (R72, R76, R88). -/
def execCancel (ch : Fin 64) (l : LetterIn) (s : State) : Host.Outcome State Fault Refusal := .next (letterRead s 0x11 ch l [])

/-- An entry whose OPCODE is undefined (R70, R82 step 5). -/
def execUndefinedOpcodeLetter (ch : Fin 64) (opcode : Byte) (l : LetterIn) (s : State) : Host.Outcome State Fault Refusal :=
  .next (if opDefined opcode.toNat then s else letterRead s opcode.toNat ch l [])

end Sys2Proof.Machine
end

