-- ==== Sys2Proof/Machine/LetterStart.lean ====
section
/-! DEFINITION. What accepted Letters do once they start (02 R70-R79, 03 R107, 05 R204-R224, 06 R262, 08 R351, R352), the
Letters that end later, and the writing of Replies (02 R54-R69, R98). -/

namespace Sys2Proof.Machine

/-! ### Outcomes -/

/-- A safety-class Letter's outcome in safe state A or B (R79). -/
def safeResult (s : State) (l : Letter) (r : Result) : Result :=
  if safetyLetter s l.op 0 (bits l.l.sclass.toNat 3 0) && fget s Fd.safety_SAFE_STATE != 0 && (r.status == 0 || r.status == 0x22) then
    { r with status := 0x42 }
  else r

/-- Finish a Letter that holds no unit, with R79 applied. -/
def finishSafe (s : State) (l : Letter) (r : Result) : State := finishLetter s l.ch l.l.seq.toNat (safeResult s l r)

/-- OK with a RESULT. -/
def okResult (bs : List Byte) : Result := ⟨0, 0, none, bs⟩

/-- An accepted Letter has begun: its STARTED version is queued (R103). -/
def begin_ (s : State) (l : Letter) : State := markStarted s l.ch l.l.seq.toNat

/-- Whether an unstarted Letter's work already waits somewhere: its tasks in a pigeonhole, or its build at the lattice. -/
def underWay (s : State) (l : Letter) : Bool :=
  (s.sched.tasks.any fun t => t.ch == l.ch && t.seq == l.l.seq.toNat) ||
    s.lattice.queue.contains (.letter l.ch l.l.seq.toNat) || s.lattice.active == some (.letter l.ch l.l.seq.toNat)

/-- Opcodes whose Letter moves data between host memory and the device (R681). -/
def movesData (op : Nat) : Bool := op == 2 || op == 5 || op == 6 || op == 7 || op == 0x0C || op == 0x0D

/-! ### Plans -/

/-- Whether an earlier Letter of the same slot has not finally replied (R77, R207, R224). -/
def slotWaits (s : State) (l : Letter) : Bool :=
  s.letters.any fun e => (e.op == 2 || e.op == 3 || e.op == 4) && slotArg e == slotArg l && e.ord < l.ord

/-- The first failing pass of R205 for the container of a LOAD_PLAN. -/
def planFault (s : State) (l : Letter) : Option Nat :=
  let p := wordsOf l.data
  let n := arg l.l 0x20 4
  pass12 p n <|> pass3 p (fget s Fd.ident_REPRO_CLASS) <|> pass4 p (n / 4) <|> pass5 p <|> pass6 p (freeBeam s l.pid) <|>
    match pass7 s l.pid (slotArg l) p s.sched.active [] with
    | .inl w => some w
    | .inr _ => none

/-- The units pass 7 fixes, and whether the plan has become unfit since its validation (R210). -/
def planUnits (s : State) (l : Letter) : List (List Nat) × Bool :=
  match pass7 s l.pid (slotArg l) (wordsOf l.data) s.sched.active [] with
  | .inl _ => ([], true)
  | .inr us => (us, false)

/-- The counters of a plan's output streams begin at 0 (R46). -/
def bindStreams (s : State) (pid : Nat) (p : List W32) : State :=
  (planStreams p).foldl (fun s e =>
    if e.output then { s with streamSeq := mapDel s.streamSeq (streamKey pid e.stream) } else s) s

/-- Empty a plan slot and free the flow slot its plan holds (R590). -/
def emptySlot (s : State) (slot : Nat) : State :=
  let s := freeFlow s ((planAt s slot).bind (·.flowSlot))
  { s with plans := mapDel s.plans slot }

/-- Put a validated plan into its slot with the flow slot given (R206-R208, R349, R590). -/
def putPlan (s : State) (l : Letter) (flow : Option Nat) : State :=
  let p := wordsOf l.data
  let slot := slotArg l
  let u := planUnits s l
  let s := match flow with
    | some i => { s with safety := { s.safety with flow := s.safety.flow.set i (some slot) } }
    | none => s
  let s := { s with plans := mapIns s.plans slot ⟨p, pw p 15, l.pid, u.2, flow, u.1, []⟩ }
  finishSafe (bindStreams s l.pid p) l (okResult (leBytes 2 slot ++ leBytes 2 0 ++ leBytes 4 (pw p 15)))

/-- Install a validated plan (R206, R207, R590): it waits while a Strict safety-class plan finds no flow slot. -/
def installPlan (s : State) (l : Letter) : State :=
  let p := wordsOf l.data
  if slotForeign s l.pid (slotArg l) then finishLetter s l.ch l.l.seq.toNat (Result.plain 0x15 0)
  else
    let t := emptySlot s (slotArg l)
    if planStrict p && planSafety p then
      match freeFlowSlot t with
      | some i => putPlan t l (some i)
      | none => s
    else putPlan t l none

/-- LOAD_PLAN (R205-R207). -/
def startLoad (s : State) (l : Letter) : State :=
  let s := begin_ s l
  match planFault s l with
  | some w => finishLetter s l.ch l.l.seq.toNat (Result.plain 0x16 w)
  | none => if slotWaits s l then s else installPlan s l

/-- The end of an UNLOAD_PLAN (R77). -/
def unload (s : State) (l : Letter) : State := finishSafe (emptySlot s (slotArg l)) l (okResult [])

/-- UNLOAD_PLAN (R77). -/
def startUnload (s : State) (l : Letter) : State :=
  let s := begin_ s l
  if slotWaits s l then s else unload s l

/-- Whether a plan holds a Courier operator and a tree link of its partition's group is not UP (R537). -/
def linkBlocks (s : State) (pid : Nat) (p : List W32) : Bool :=
  ((planOps p).any fun o => engineOf o.code == some .courier) && match groupOf s pid with
    | some g => !treeUp s g
    | none => false

/-- Start a run, or refuse it for a link (R208, R214, R537). -/
def startRun (s : State) (l : Letter) (p : PlanSt) : State :=
  if linkBlocks s l.pid p.words then finishLetter s l.ch l.l.seq.toNat (Result.plain 0x31 0) else beginRun s l p

/-- A Loose RUN_PLAN (R214, R590); a Strict one starts at its anchor tick (R352). -/
def startLooseRun (s : State) (l : Letter) : State :=
  match planOf s l with
  | some p =>
    if planStrict p.words || slotBusy s l || (planSafety p.words && (freeFlowSlot s).isNone) then s else startRun s l p
  | none => s

/-! ### Tensor transfers -/

/-- Whether a window of the active timetable that belongs to a Strict partition holds the present tick; one that declares DRAM
for an LPDDR5X address (R245, R342). -/
def windowNow (s : State) (pid : Nat) (dram : Bool) : Bool :=
  let tt := s.sched.active
  (List.range (ttCount tt)).any fun k =>
    ttIsWindow tt k && ttPid tt k == pid && (!dram || bit (ttWord tt (4 + 5 * k + 3)) 30) &&
      (cyclePos s + ttCycle tt - ttStart tt k % max 1 (ttCycle tt)) % max 1 (ttCycle tt) < ttLen tt k

/-- Whether an operator interval of the loaded plans of a partition covers the present tick (R351). -/
def operatorNow (s : State) (pid : Nat) : Bool :=
  let tt := s.sched.active
  s.plans.any fun e =>
    e.2.owner == pid && !e.2.unfit && planStrict e.2.words &&
      (List.range (operatorCount e.2.words)).any fun k =>
        (cyclePos s + ttCycle tt - (anchorPos e.2.words tt + ptOffset e.2.words k) % max 1 (ttCycle tt)) % max 1 (ttCycle tt) <
          ptBudget e.2.words k

/-- Whether a tensor transfer of a partition may use the memory at an address now (R245, R248, R351): a Strict partition's inside its
windows, any other's outside the Strict DRAM slots and the 4 pt before them. -/
def portFree (s : State) (pid a : Nat) : Bool :=
  if strictPid s pid then windowNow s pid (decide (dramBase ≤ a)) && !operatorNow s pid else dramFree s pid a

/-- Whether a Letter's DATA_CRC is set and does not match its payload (R73). -/
def crcWrong (l : Letter) : Bool := bit l.l.lflags.toNat 1 && crc32c l.data != arg l.l 0x1C 4

/-- Where a transfer lies in the device: the tensor's base and an offset. -/
def transferAddr (s : State) (l : Letter) : Nat :=
  ((tensorEnt s l.pid (arg l.l 0x18 4)).map (·.addr)).getD 0 + arg l.l 0x28 8

/-- The docket WRITE_TENSOR gives its tensor (R46, R79, R563, R564). With no input docket the spec gives EPOCH no value: it is
free. -/
def writeDocket (s : State) (l : Letter) (addr : Nat) (blocked : Bool) : State × Docket :=
  let stream := bits l.l.stream.toNat 11 0
  let c := bits l.l.sclass.toNat 3 0
  let e := draw s
  let q := takeSeq e.1 l.pid stream
  let f := (if pooled s l.pid addr then flagLoose else 0) ||| (if s.power.window then flagThermal else 0) |||
    (if blocked || safeInvalid s c then flagInvalid else 0)
  (q.1, mkDocket l.pid stream e.2 q.2 (l.acceptPm % 2 ^ 48) c f)

/-- The write of a WRITE_TENSOR, its docket and its outcome (R46, R70, R74). -/
def writeTensor (s : State) (l : Letter) : State :=
  let a := transferAddr s l
  let id := arg l.l 0x18 4
  let w := devWrite s l.pid a l.data (bits l.l.sclass.toNat 3 0)
  let blocked := w.2 != .ok
  let d := writeDocket w.1 l a blocked
  let s : State := { d.1 with tensorDk := mapIns d.1.tensorDk id (d.2, false) }
  let s := countTags s l.pid d.2.flags.toNat
  finishSafe s l ⟨if blocked then 0x40 else 0, 0, some d.2, []⟩

/-- WRITE_TENSOR (R73, R74, R351). -/
def startWrite (s : State) (l : Letter) : State :=
  if !portFree s l.pid (transferAddr s l) then s
  else
    let s := begin_ s l
    if crcWrong l then finishLetter s l.ch l.l.seq.toNat (Result.plain 0x12 0x1C) else writeTensor s l

/-- The host interface verifies the docket of a tensor that it hands to the host (R40, R41): on a check failure the docket in the
Reply carries INVALID, ERR_UNCORR_COUNT of the channel's page rises, and a docket fault is reported. -/
def checkDocket (s : State) (l : Letter) (dk : Option Docket) : State × Option Docket :=
  match dk with
  | some d =>
    if d.ok then (s, some d)
    else
      let page := 0x008 + l.ch / 16
      (raise (errUncorr s page) 0x03 page (bits l.l.sclass.toNat 3 0) l.pid 0, some (d.addFlags flagInvalid))
  | none => (s, none)

/-- READ_TENSOR (R40, R70, R74, R351): the bytes go to host memory as read. -/
def startRead (s : State) (l : Letter) : State :=
  if !portFree s l.pid (transferAddr s l) then s
  else
    let s := begin_ s l
    let r := devRead s l.pid (transferAddr s l) (arg l.l 0x30 4) (bits l.l.sclass.toNat 3 0)
    let c := checkDocket r.1 l (tensorDocket r.1 (arg l.l 0x18 4))
    let sound := r.2.2 == .ok && (tensorDocket r.1 (arg l.l 0x18 4)).all Docket.ok
    finishSafe (hostPut c.1 (arg l.l 0x20 8) r.2.1) l ⟨if sound then 0 else 0x40, 0, c.2, leBytes 4 (crc32c r.2.1)⟩

/-! ### Work on units -/

/-- WORLD_UPDATE (R73, R400, R412): the build asks for the back buffer. -/
def startUpdate (s : State) (l : Letter) : State :=
  if fget s Fd.lattice_LAT_EN = 0 then finishLetter (begin_ s l) l.ch l.l.seq.toNat (Result.plain 0x14 0)
  else if crcWrong l then finishLetter (begin_ s l) l.ch l.l.seq.toNat (Result.plain 0x12 0x1C)
  else requestBuild s (.letter l.ch l.l.seq.toNat)

/-- A direct SWEEP, SELECT or SOLVE: its one task enters its pigeonhole (R338, R350). -/
def startDirect (s : State) (l : Letter) (code : Nat) (kind : UnitKind) : State :=
  enterTask s (newTask s l.ch l.l.seq.toNat l.pid 0 code (chanLevel s l.ch) (bits l.l.sclass.toNat 3 0) kind false)

/-! ### Control Letters -/

/-- The RESULT of PING (R70). While CREDIT has been lowered below IN_FLIGHT no channel credit is free: the model's choice (log entry
192). -/
def pingResult (s : State) (ch : Nat) : List Byte :=
  leBytes 2 (fget s Fd.ident_REPRO_CLASS) ++ leBytes 2 (512 - fget s Fd.dev_DEV_IN_FLIGHT) ++
    leBytes 2 (fget s (Fd.chan_CREDIT ch) - fget s (Fd.chan_IN_FLIGHT ch)) ++ leBytes 1 (fget s Fd.safety_SAFE_STATE)

/-- PING (R70). -/
def startPing (s : State) (l : Letter) : State := finishSafe (begin_ s l) l (okResult (pingResult s l.ch))

/-- SET_PARTITION (R262 steps 1 and 2): its partition drains. SET_PARTITIONs take effect one at a time. -/
def startSetPartition (s : State) (l : Letter) : State :=
  let p := arg l.l 0x18 1
  if s.letters.any fun e => e.op == 0x0B && e.ord < l.ord && e.phase != .finished then s
  else
    let s := begin_ s l
    { s with parts := s.parts.set p { s.parts.getD p ⟨[], [], none⟩ with pending := some (l.ch, l.l.seq.toNat) } }

/-- QUERY_DAYBOOK (R115). -/
def startQuery (s : State) (l : Letter) : State :=
  let s := begin_ s l
  let r := queryDaybook s (arg l.l 0x18 1) l.pid (arg l.l 0x1C 4) (arg l.l 0x20 2) (arg l.l 0x28 8)
  finishSafe r.1 l r.2

/-- READ_LEDGER (R700). -/
def startLedger (s : State) (l : Letter) : State :=
  let s := begin_ s l
  let r := ledgerRecords s (arg l.l 0x18 2) (arg l.l 0x1C 4) (arg l.l 0x20 4)
  finishSafe (hostPut r.1 (arg l.l 0x28 8) r.2) l (okResult (leBytes 4 (arg l.l 0x20 4)))

/-- TIME_ALIGN writes POSTMARK_ADJ and reports the postmark (R70, R170). -/
def alignNow (s : State) (l : Letter) : State :=
  finishSafe (setAdj s (arg l.l 0x18 4)) l (okResult (leBytes 8 (now s)))

/-- TIME_ALIGN (R170): while an alignment is active it waits. -/
def startAlign (s : State) (l : Letter) : State :=
  let s := begin_ s l
  if fget s Fd.postmark_ALIGN_ACTIVE = 1 then s else alignNow s l

/-- The effect and RESULT of a SAFETY_CMD (R614). -/
def safetyCommand (s : State) (cmd a : Nat) : State × List Byte :=
  match cmd with
  | 0x01 => (setLocks s 1, leBytes 2 sealPages.length)
  | 0x02 => (setLocks s 0, leBytes 2 sealPages.length)
  | 0x03 => ({ s with nvm := { s.nvm with key := BitVec.ofNat 16 a } }, [])
  | 0x04 => (injectFault s (bits a 7 0) (bits a 19 8), leBytes 1 (fget s Fd.safety_FLOG_HEAD))
  | 0x05 => (raise s 0x20 0x004 0xF 0xF 2, [])
  | 0x06 => let r := leaveSafe s; (r.1, leBytes 1 r.2)
  | 0x07 => let r := rotateUnit s (bits a 7 0) (bits a 15 8); (r.1, leBytes 1 r.2)
  | 0x08 => (clearSuspect s (bits a 7 0) (bits a 15 8), [])
  | _ => (s, [])

/-- SAFETY_CMD (R614). -/
def startSafety (s : State) (l : Letter) : State :=
  let r := safetyCommand (begin_ s l) (arg l.l 0x18 1) (arg l.l 0x1C 4)
  finishSafe r.1 l (okResult r.2)

/-- Whether a FENCE still waits for an earlier Letter of its scope (R75). -/
def fenceWaits (s : State) (l : Letter) : Bool :=
  s.letters.any fun e => e.ord < l.ord && (e.ch == l.ch || (arg l.l 0x18 1 == 1 && e.pid == l.pid))

/-- FENCE (R75). -/
def startFence (s : State) (l : Letter) : State :=
  let s := begin_ s l
  if fenceWaits s l then s else finishSafe s l (okResult [])

/-- What CANCEL finds (R70, R76, R142): the state, and OUTCOME. A Letter that has left flight is already finished while the window
or the Daybook records its end, a rejection included (the model's choice, log entry 198). -/
def cancelTarget (s : State) (pid ch seq : Nat) : State × Nat :=
  match letterOf s ch seq with
  | some t =>
    match t.phase with
    | .finished => (s, 1)
    | .started => (s, 3)
    | .accepted => (finishLetter (withdraw s t) ch seq (Result.plain 0x50 0), 0)
  | none => (s, if (mapFind (chanOf s ch).win seq).isSome || recordedEnd s ch pid seq then 1 else 2)

/-- CANCEL (R76, R97). -/
def startCancel (s : State) (l : Letter) : State :=
  let r := cancelTarget (begin_ s l) l.pid (arg l.l 0x18 1) (arg l.l 0x1C 4)
  finishSafe r.1 l (okResult (leBytes 1 r.2))

/-! ### LETTER_START -/

/-- What an opcode does when its Letter starts (R70). -/
def startOp (s : State) (l : Letter) : State :=
  match l.op with
  | 0x01 => startPing s l
  | 0x02 => startLoad s l
  | 0x03 => startUnload s l
  | 0x04 => startLooseRun s l
  | 0x05 => startWrite s l
  | 0x06 => startRead s l
  | 0x07 => startUpdate s l
  | 0x08 => startDirect s l 0x060 .scribe
  | 0x09 => startDirect s l 0x050 .sorter
  | 0x0A => startDirect s l (0x070 + arg l.l 0x20 1) .plane
  | 0x0B => startSetPartition s l
  | 0x0C => startQuery s l
  | 0x0D => startLedger s l
  | 0x0E => startAlign s l
  | 0x0F => startSafety s l
  | 0x10 => startFence s l
  | 0x11 => startCancel s l
  | _ => s

/-- LETTER_START (R107, R681): an accepted Letter starts once its ACCEPTED version is committed and nothing holds it back; one
whose host transfer cannot be made ends UNCORRECTABLE. -/
def execLetterStart (ch : Fin 64) (seq : W32) (s : State) : Host.Outcome State Fault Refusal :=
  match letterOf s ch seq.toNat with
  | none => .next s
  | some l =>
    if mayStart s l && !underWay s l && !s.boot.holdup then
      if movesData l.op && hostGone s l.pid then
        .next (finishLetter (begin_ s l) ch seq.toNat (Result.plain 0x40 0xE10))
      else .next (startOp s l)
    else .next s

/-! ### Letters that end later -/

/-- A started Letter of an opcode. -/
def startedOf (s : State) (ch seq op : Nat) : Option Letter :=
  (letterOf s ch seq).filter fun l => l.op == op && l.phase == .started

/-- FENCE_COMPLETE (R75). -/
def execFenceComplete (ch : Fin 64) (seq : W32) (s : State) : Host.Outcome State Fault Refusal :=
  match startedOf s ch seq.toNat 0x10 with
  | some l => .next (if fenceWaits s l then s else finishSafe s l (okResult []))
  | none => .next s

/-- UNLOAD_COMPLETE (R77). -/
def execUnloadComplete (ch : Fin 64) (seq : W32) (s : State) : Host.Outcome State Fault Refusal :=
  match startedOf s ch seq.toNat 0x03 with
  | some l => .next (if slotWaits s l then s else unload s l)
  | none => .next s

/-- PLAN_REPLACE (R207). -/
def execPlanReplace (ch : Fin 64) (seq : W32) (s : State) : Host.Outcome State Fault Refusal :=
  match startedOf s ch seq.toNat 0x02 with
  | some l => .next (if slotWaits s l then s else installPlan s l)
  | none => .next s

/-- TIME_ALIGN_DEFERRED_WRITE (R170): every TIME_ALIGN that waited writes, in acceptance order. -/
def execTimeAlignDeferredWrite (s : State) : Host.Outcome State Fault Refusal :=
  if fget s Fd.postmark_ALIGN_ACTIVE = 0 then
    .next ((s.letters.filter fun l => l.op == 0x0E && l.phase == .started).foldl alignNow s)
  else .next s

/-- STRICT_RUN_START (R352, R537): at the anchor tick, at least 250 pt after acceptance; a previous run not yet finally
replied is an anchor miss. -/
def execStrictRunStart (ch : Fin 64) (seq : W32) (s : State) : Host.Outcome State Fault Refusal :=
  match letterOf s ch seq.toNat with
  | none => .next s
  | some l =>
    match planOf s l with
    | some p =>
      if l.op = 0x04 && planStrict p.words && !s.sched.active.isEmpty && l.phase == .accepted && l.run.isNone &&
          cyclePos s == anchorPos p.words s.sched.active && l.acceptPm + 250 ≤ now s then
        if slotBusy s l then .next (obsInc s (pidObs l.pid 9))
        else if mayStart s l then .next (startRun s l p) else .next s
      else .next s
    | none => .next s

/-! ### PARTITION_INSTALL -/

/-- The installation of a drained partition (R144, R255, R262): its block is judged again against the tables now in force. -/
def installPartition (s : State) (p : Nat) (l : Letter) : State :=
  match partitionFault s l.ch l.l l.data with
  | some o =>
    let s := { s with parts := s.parts.set p { s.parts.getD p ⟨[], [], none⟩ with pending := none } }
    finishLetter s l.ch l.l.seq.toNat (Result.plain 0x12 o)
  | none =>
    let s := dropLattice s p (leAt l.data 0x08 4)
    let s := dropFilters s p (leAt l.data 0x18 8)
    finishSafe (installBlock s p (arg l.l 0x20 8) l.data) l (okResult [])

/-- Whether everything that an installation waits for has happened (R144, R262): the partition is drained, its channels and
those that move have nothing in flight, and with another Strict partition a major frame begins. -/
def mayInstall (s : State) (p : Nat) (l : Letter) : Bool :=
  drained s p l.ch l.l.seq.toNat && (s.cores.all fun c => match c.task with
    | some id => (taskOf s id).all fun t => t.pid != p
    | none => true) &&
    ((movedChannels s p (arg l.l 0x20 8)).all fun c => fget s (Fd.chan_IN_FLIGHT c) == 0) &&
    (!otherStrict s p || s.sched.frameStart == now s)

/-- PARTITION_INSTALL (R262). -/
def execPartitionInstall (p : Fin 16) (s : State) : Host.Outcome State Fault Refusal :=
  match (s.parts.getD p ⟨[], [], none⟩).pending with
  | some (ch, seq) =>
    match letterOf s ch seq with
    | some l => .next (if mayInstall s p l then installPartition s p l else s)
    | none => .next s
  | none => .next s

/-! ### REPLY_WRITE -/

/-- The Reply of a channel that is written next: Replies leave in the order in which they were queued (R92), and the first of them
waits for its version's commit (R107). -/
def nextReply (s : State) (ch : Nat) : Option PendReply := (s.replies.find? fun r => r.ch == ch).filter fun r => !r.waits

/-- Take a Reply out of the device. -/
def takeReply (s : State) (p : PendReply) : State := { s with replies := s.replies.erase p }

/-- Drop a Reply that cannot be written (R680). -/
def dropReply (s : State) (p : PendReply) : State := if p.final then leaveFlight (takeReply s p) p else takeReply s p

/-- PHASE of the entry at a tail (R67). -/
def phaseOf (tail size : Nat) : Nat := if tail / size % 2 = 0 then rfPhase else 0

/-- The 64 bytes of a Reply as written now (R64, R67). -/
def replyNow (s : State) (p : PendReply) : List Byte :=
  replyBytes p.res.status (p.rflags + phaseOf (fget s (Fd.chan_RRING_TAIL p.ch)) (fget s (Fd.chan_RRING_SIZE p.ch))) p.ch p.op
    p.seq p.tag p.res.detail s.time.epoch.toNat (now s) p.res.docket p.res.result

/-- Address of a Reply ring entry (R50). -/
def replyAddr (s : State) (ch : Nat) : Nat :=
  fget s (Fd.chan_RRING_BASE_LO ch) * 2 ^ 12 + fget s (Fd.chan_RRING_BASE_HI ch) * 2 ^ 32 +
    fget s (Fd.chan_RRING_TAIL ch) % fget s (Fd.chan_RRING_SIZE ch) * 64

/-- Write a Reply (R54, R69, R86, R98, R101). -/
def writeReply (s : State) (p : PendReply) : State :=
  let bs := replyNow s p
  let s := hostPut (takeReply s p) (replyAddr s p.ch) bs
  let s := if p.final then mirrorReply s p.ch p.seq bs else s
  let s := fput s (Fd.chan_RRING_TAIL p.ch) ((fget s (Fd.chan_RRING_TAIL p.ch) + 1) % 2 ^ 16)
  let s := if p.irq then sendMsix s (ownerFn s (fget s (Fd.chan_PID p.ch))) (fget s (Fd.chan_MSIX_VEC p.ch)) else s
  if p.final then leaveFlight s p else s

/-- REPLY_WRITE (R54, R680): the next Reply of a channel is written once the ring has room, or dropped when the host is
gone. -/
def execReplyWrite (ch : Fin 64) (s : State) : Host.Outcome State Fault Refusal :=
  match nextReply s ch with
  | some p =>
    if s.boot.holdup then .next s
    else if hostGone s (fget s (Fd.chan_PID ch)) then .next (dropReply s p)
    else .next (if rringFull s ch then s else writeReply s p)
  | none => .next s

end Sys2Proof.Machine
end

