-- ==== Sys2Proof/Machine/Scribe.lean ====
section
/-! DEFINITION. The Scribe engines (10 R414-R441): candidates, kinematic integration, queries at a pose, records, the summary,
and the end of a sweep. -/

namespace Sys2Proof.Machine

/-! ### The sine table -/

/-- π in units of 2^−80. -/
def piFix : Nat := 3797952473636338580787993

/-- One term of the sine series and the running sum, in units of 2^−80. -/
def sinStep (x2 : Nat) (a : Int × Nat) (k : Nat) : Int × Nat :=
  let term : Nat := a.2 * x2 / 2 ^ 80 / ((2 * k + 2) * (2 * k + 3))
  (if k % 2 = 0 then a.1 - (term : Int) else a.1 + (term : Int), term)

/-- T[i] = round(16384 · sin(π i / 8192)) (R419). -/
def sinTable (i : Nat) : Int :=
  let x := piFix * i / 8192
  let sum := ((List.range 16).foldl (sinStep (x * x / 2 ^ 80)) ((x : Int), x)).1
  (16384 * sum + (2 ^ 79 : Nat)) / (2 ^ 80 : Nat)

/-- SIN of an angle from 0 to 2^31. -/
def sinPos (t : Nat) : Int :=
  let i := bits t 29 18
  match t / 2 ^ 30 with
  | 0 => sinTable i
  | 1 => sinTable (4096 - i)
  | 2 => -sinTable i
  | _ => -sinTable (4096 - i)

/-- The signed value of a 32-bit binary angle. -/
def angle (t : Int) : Int := toSigned 32 (ofSigned 32 t)

/-- SIN (R419). -/
def sinOf (t : Int) : Int :=
  let a := angle t
  if a < 0 then -sinPos a.natAbs else sinPos a.natAbs

/-- COS (R419): the sum is taken modulo 2^32 and SIN takes it as signed (log entry 60). -/
def cosOf (t : Int) : Int := sinOf ((angle t).natAbs + 2 ^ 30 : Nat)

/-- rnd (R419). -/
def rnd (x : Int) (n : Nat) : Int := x.sign * ((x.natAbs + 2 ^ (n - 1)) / 2 ^ n : Nat)

/-- RAD (R419). -/
def radConst : Int := 683565276

/-! ### Bodies and candidates -/

/-- A body model's word. -/
def bodyWord (b : List Byte) (i : Nat) : Nat := leAt b (4 * i) 4

/-- The low half of a body word. -/
def bodyLo (b : List Byte) (i : Nat) : Nat := bits (bodyWord b i) 15 0

/-- The high half of a body word. -/
def bodyHi (b : List Byte) (i : Nat) : Nat := bits (bodyWord b i) 31 16

/-- ARTICULATED. -/
def bodyArtic (b : List Byte) : Bool := bit (bodyWord b 0) 7

/-- A signed low half. -/
def bodyLoS (b : List Byte) (i : Nat) : Int := toSigned 16 (bodyLo b i)

/-- A signed high half. -/
def bodyHiS (b : List Byte) (i : Nat) : Int := toSigned 16 (bodyHi b i)

/-- A candidate (R416): six starting values, six steering-rate knots, six acceleration knots. -/
structure Candidate where
  x0 : Int
  y0 : Int
  psi0 : Int
  v0 : Int
  del0 : Int
  phi0 : Int
  sr : List Int
  ac : List Int
  deriving DecidableEq, Repr

/-- Candidate `i` of a tensor (R416). -/
def candAt (data : List Byte) (i : Nat) : Candidate :=
  let b := (data.drop (40 * i)).take 40
  let h := fun k => toSigned 16 (leAt b (2 * k) 2)
  ⟨h 0, h 1, h 2, h 3, h 4, h 5, (List.range 6).map fun j => h (6 + j), (List.range 6).map fun j => h (12 + j)⟩

/-- A generated knot (R417). -/
def genKnot (lo hi : Int) (w : Nat) : Int := lo + ((w * ((hi - lo).toNat + 1) / 2 ^ 32 : Nat) : Int)

/-- Candidate `i` of the generator (R417). -/
def candGen (seed stream i : Nat) (body epoch : List Byte) : Candidate :=
  let h := fun k => toSigned 16 (leAt epoch (0x24 + 2 * k) 2)
  let ws := (List.range 3).flatMap fun b => genBlock seed i b stream 0
  let zero := List.replicate 6 (0 : Int)
  let sr := (List.range 6).map fun j => genKnot (bodyLoS body 5) (bodyHiS body 5) (ws.getD j 0)
  let ac := (List.range 6).map fun j => genKnot (bodyLoS body 6) (bodyHiS body 6) (ws.getD (6 + j) 0)
  ⟨0, 0, 0, h 0, h 1, h 2, if i = 0 then zero else sr, if i = 0 then zero else ac⟩

/-! ### The mirror sweep (R432): `m` is whether a step runs on negated values -/

/-- A value as a sweep runs on it: negated in the mirror. -/
def mirrored (m : Bool) (x : Int) : Int := if m then -x else x

/-- A point as a sweep runs on it: its y negated in the mirror. -/
def mirrorPt (m : Bool) (p : Pt) : Pt := (p.1, mirrored m p.2)

/-- A candidate as a sweep runs on it: Y0, PSI0, DEL0, PHI0 and every SR knot negated in the mirror. -/
def Candidate.seen (m : Bool) (c : Candidate) : Candidate :=
  { c with y0 := mirrored m c.y0, psi0 := mirrored m c.psi0, del0 := mirrored m c.del0, phi0 := mirrored m c.phi0
           sr := c.sr.map (mirrored m) }

/-- A capsule as a sweep runs on it. -/
def Capsule.seen (m : Bool) (c : Capsule) : Capsule := { c with a := mirrorPt m c.a, b := mirrorPt m c.b }

/-! ### Kinematic integration -/

/-- The integrator's state, and whether a clamp has changed a value (R419). -/
structure Kin where
  x : Int
  y : Int
  psi : Int
  del : Int
  phi : Int
  v : Int
  limited : Bool
  deriving DecidableEq, Repr

/-- DT (R419). -/
def sweepDt (body : List Byte) (samples : Nat) : Nat := bodyHi body 4 * 2 ^ 20 / (1000 * (8 * samples))

/-- The state before the first substep (R419). -/
def kinStart (c : Candidate) : Kin :=
  ⟨c.x0 * 64, c.y0 * 64, angle (c.psi0 * 65536), c.del0 * 65536, c.phi0 * 65536, c.v0 * 64, false⟩

/-- A knot value interpolated at substep `n` of `total` (R419). -/
def knotAt (k : List Int) (total n : Nat) : Int :=
  let at_ := fun j => j * total / 5
  let j := ((List.range 5).filter fun j => at_ j ≤ n).getLast?.getD 0
  let a := k.getD j 0
  a + ((k.getD (j + 1) 0 - a) * ((n - at_ j : Nat) : Int)).tdiv ((at_ (j + 1) - at_ j : Nat) : Int)

/-- The heading rate (R419). With COS(del) = 0 the quotient is not stated: it is a free value of the operands, odd in the steering
angle as R432 has it (log entry 61). -/
def headingRate (body : List Byte) (k : Kin) : Int :=
  let c := cosOf k.del
  if c = 0 then k.del.sign * Config.steepRate k.v k.del.natAbs (bodyLo body 1)
  else (k.v * sinOf k.del * radConst).tdiv ((bodyLo body 1 : Int) * c * 64)

/-- The articulation rate (R419). -/
def articRate (body : List Byte) (k : Kin) (w : Int) : Int :=
  if bodyArtic body then
    -((k.v * sinOf k.phi * radConst).tdiv ((bodyLo body 2 : Int) * 2 ^ 20)) - w -
      (w * bodyHiS body 1 * cosOf k.phi).tdiv ((bodyLo body 2 : Int) * 2 ^ 14)
  else 0

/-- One substep (R419). -/
def kinStep (body : List Byte) (c : Candidate) (total dt : Nat) (k : Kin) (n : Nat) : Kin :=
  let rd := knotAt c.sr total n * 65536
  let a := knotAt c.ac total n * 64
  let w := headingRate body k
  let pd := articRate body k w
  let d : Int := dt
  let phiMax : Int := bodyHi body 3 * 65536
  let delMax : Int := bodyLo body 3 * 65536
  let phi := k.phi + rnd (pd * d) 20
  let del := k.del + rnd (rd * d) 20
  let v := k.v + rnd (a * d) 20
  let phi' := clampInt (-phiMax) phiMax phi
  let del' := clampInt (-delMax) delMax del
  let v' := clampInt 0 (bodyLo body 4 * 64) v
  ⟨k.x + rnd (k.v * cosOf k.psi * d) 34, k.y + rnd (k.v * sinOf k.psi * d) 34, angle (k.psi + rnd (w * d) 20), del', phi', v',
    k.limited || phi' != phi || del' != del || v' != v⟩

/-- The states at the samples (R419), in order, and whether LIMITED is set. -/
def samplesOf (body : List Byte) (c : Candidate) (samples : Nat) : List Kin × Bool :=
  let total := 8 * samples
  let dt := sweepDt body samples
  let r := (List.range total).foldl (fun (a : List Kin × Kin) n =>
    let k := kinStep body c total dt a.2 n
    (if (n + 1) % 8 = 0 then a.1 ++ [k] else a.1, k)) ([], kinStart c)
  (r.1, r.2.limited)

/-! ### Queries -/

/-- A section frame: origin and heading. -/
structure Frame where
  o : Pt
  psi : Int

/-- A point of a section in the world, in 2^−16 m (R420). -/
def Frame.map (f : Frame) (x y : Int) : Pt :=
  let c := cosOf f.psi
  let n := sinOf f.psi
  (f.o.1 + rnd (x * c - y * n) 8, f.o.2 + rnd (x * n + y * c) 8)

/-- The frame of a section (R420). -/
def frameOf (body : List Byte) (k : Kin) (trailer : Bool) : Frame :=
  if trailer then
    let lh := bodyHiS body 1
    let l2 : Int := bodyLo body 2
    let h : Pt := (k.x - rnd (lh * cosOf k.psi) 8, k.y - rnd (lh * sinOf k.psi) 8)
    let psi2 := angle (k.psi + k.phi)
    ⟨(h.1 - rnd (l2 * cosOf psi2) 8, h.2 - rnd (l2 * sinOf psi2) 8), psi2⟩
  else ⟨(k.x, k.y), k.psi⟩

/-- A primitive of a body (R414, R415). -/
structure Prim where
  capsule : Bool
  trailer : Bool
  zone : Nat
  bands : Nat
  a : Pt
  b : Pt
  rad : Nat

/-- Primitive `p` of a body, as a sweep runs on it: AY and BY negated in the mirror. -/
def primAt (body : List Byte) (m : Bool) (p : Nat) : Prim :=
  let w := bodyWord body (16 + 4 * p)
  ⟨bit w 0, bit w 1, bits w 3 2, bits w 5 4, mirrorPt m (bodyLoS body (17 + 4 * p), bodyHiS body (17 + 4 * p)),
    mirrorPt m (bodyLoS body (18 + 4 * p), bodyHiS body (18 + 4 * p)), bodyLo body (19 + 4 * p)⟩

/-- The floor square root, one binary digit at a time. -/
def isqrt (n : Nat) : Nat :=
  let top := Nat.log2 n / 2 + 1
  (List.range top).foldl (fun r i => let q := r + 2 ^ (top - 1 - i); if q * q ≤ n then q else r) 0

/-- The capsule length of a primitive; 0 for a disc (R414, R415). -/
def Prim.len (p : Prim) : Nat := if p.capsule then isqrt (dist2 p.a p.b).toNat else 0

/-- The field cell of a coordinate (R421). -/
def cellOf (v : Int) : Int := v * 20 / 65536 + 512

/-- The value of one band at a point: OUTSIDE_CM out of the field or unknown (R421, R404). -/
def bandValue (epoch : List Byte) (band : Nat) (p : Pt) : Int :=
  let i := cellOf p.1
  let j := cellOf p.2
  let outside := toSigned 8 (leAt epoch 0x22 1)
  if 0 ≤ i && i < 1024 && 0 ≤ j && j < 1024 then
    let v := toSigned 8 (leAt epoch (0x1000 + band * 0x100000 + j.toNat * 1024 + i.toNat) 1)
    if v = -128 then outside else v
  else outside

/-- Whether a point lies in the field. -/
def inField (p : Pt) : Bool :=
  let i := cellOf p.1
  let j := cellOf p.2
  0 ≤ i && i < 1024 && 0 ≤ j && j < 1024

/-- The least of a list of integers. -/
def leastInt : List Int → Option Int
  | [] => none
  | x :: xs => some (xs.foldl min x)

/-- The points a static query takes (R421). -/
def staticPoints (p : Prim) (a b : Pt) : List Pt :=
  if p.capsule then (List.range 5).map fun (m : Nat) =>
    (a.1 + ((b.1 - a.1) * (m : Int)).tdiv 4, a.2 + ((b.2 - a.2) * (m : Int)).tdiv 4)
  else [a]

/-- The static term of a query (R421): the mirror negates py again before each cell (R432). -/
def staticTerm (epoch : List Byte) (m : Bool) (p : Prim) (a b : Pt) : Option Int :=
  let bands := (List.range 2).filter (bit p.bands)
  let vs := (staticPoints p a b).flatMap fun q => bands.map fun n => bandValue epoch n (mirrorPt m q)
  (leastInt vs).map fun v => v - (ceilDiv (p.rad * 100) 1024 : Nat) - (ceilDiv (p.len * 100) 8192 : Nat)

/-- The distance from a point to a segment, floored (R422). -/
def pointDist (p a b : Pt) : Nat :=
  let t := dot a b p
  let l := dist2 a b
  if t ≤ 0 then isqrt (dist2 p a).toNat
  else if l ≤ t then isqrt (dist2 p b).toNat
  else isqrt ((cross a b p * cross a b p) / l).toNat

/-- The distance in mm between two segments (R422). -/
def segDist (a b c d : Pt) : Nat :=
  if segsCross a b c d then 0
  else min (min (pointDist a c d) (pointDist b c d)) (min (pointDist c a b) (pointDist d a b))

/-- A capsule between slices `k` and `k + 1` (R422). -/
def capsuleNow (o : List Byte) (neg : Bool) (t k m : Nat) : Capsule :=
  let c := (capsuleAt o k m).seen neg
  if k = 15 then c
  else
    let d := (capsuleAt o (k + 1) m).seen neg
    let f : Int := (t - k * 2 ^ 18 : Nat)
    let mix := fun (x y : Int) => x + ((y - x) * f).tdiv (2 ^ 18)
    ⟨(mix c.a.1 d.a.1, mix c.a.2 d.a.2), (mix c.b.1 d.b.1, mix c.b.2 d.b.2), mix c.r d.r⟩

/-- The bin of the exact midpoint of two points; none outside the field (R422; log entry 62). -/
def binOf (a b : Pt) : Option Nat :=
  let i := (a.1 + b.1) * 20 / 131072 + 512
  let j := (a.2 + b.2) * 20 / 131072 + 512
  if 0 ≤ i && i < 1024 && 0 ≤ j && j < 1024 then some (32 * (j.toNat / 32) + i.toNat / 32) else none

/-- The slice of a time (R422). -/
def sliceOf (t : Nat) : Nat := min (t / 2 ^ 18) 15

/-- The objects of the list a query uses. -/
def listedObjects (epoch : List Byte) (bin k : Nat) : List Nat :=
  ((List.range 16).map fun i => leAt epoch (0x401000 + (16 * bin + k) * 32 + 2 * i) 2).filter (· < 1024)

/-- A point in mm (R422). -/
def toMm (p : Pt) : Pt := (rnd (p.1 * 1000) 16, rnd (p.2 * 1000) 16)

/-- One object's term: the least over its capsules (R422, R405). -/
def objectTerm (epoch : List Byte) (neg : Bool) (p : Prim) (a b : Pt) (t o : Nat) : Option Int :=
  let rec_ := (epoch.drop (0x201000 + 2048 * o)).take 2048
  let k := sliceOf t
  let rmm := ceilDiv (p.rad * 1000) 1024
  leastInt ((List.range (min 4 (capsOf rec_))).map fun m =>
    let c := capsuleNow rec_ neg t k m
    ((segDist (toMm a) (toMm b) c.a c.b : Int) - (rmm : Int) - c.r) / 10)

/-- A term of a query, with what orders ties: its primitive, and its source, 0 static, 1 + the object number (R423). -/
structure Term where
  value : Int
  prim : Nat
  src : Nat
  deriving DecidableEq, Repr

/-- Whether one term comes before another (R423). -/
def Term.before (x y : Term) : Bool :=
  x.value < y.value || (x.value == y.value && (x.prim < y.prim || (x.prim == y.prim && x.src < y.src)))

/-- The first of a list of terms. -/
def firstTerm : List Term → Option Term
  | [] => none
  | x :: xs => some (xs.foldl (fun a y => if y.before a then y else a) x)

/-- What one query gives: its terms, OUT_OF_FIELD and CROWDED. -/
structure Query where
  terms : List Term
  out : Bool
  crowded : Bool

/-- One query: primitive `i` at a sample (R420-R422). -/
def queryPrim (epoch body : List Byte) (m : Bool) (k : Kin) (t i : Nat) : Query :=
  let p := primAt body m i
  let f := frameOf body k p.trailer
  let a := f.map p.a.1 p.a.2
  let b := if p.capsule then f.map p.b.1 p.b.2 else a
  let st := ((staticTerm epoch m p a b).map fun v => Term.mk v i 0).toList
  let out := p.bands != 0 && (staticPoints p a b).any fun q => !inField (mirrorPt m q)
  match binOf (mirrorPt m a) (mirrorPt m b) with
  | none => ⟨st, out, false⟩
  | some bin =>
    let dyn := (listedObjects epoch bin (sliceOf t)).filterMap fun o =>
      (objectTerm epoch m p a b t o).map fun v => Term.mk v i (1 + o)
    let n := 16 * bin + sliceOf t
    ⟨st ++ dyn, out, bit (leAt epoch (0x100 + n / 8) 1) (n % 8)⟩

/-- What one sample gives (R423): the clearance, the term it comes from, the least door term, and the flags. -/
structure Sample where
  clear : Int
  term : Option Term
  door : Int
  out : Bool
  crowded : Bool
  deriving DecidableEq, Repr

/-- One sample (R423). -/
def sampleOf (epoch body : List Byte) (m : Bool) (k : Kin) (t : Nat) : Sample :=
  let n := bits (bodyWord body 0) 6 0
  let qs := (List.range n).map fun i => ((primAt body m i).zone, queryPrim epoch body m k t i)
  let main := firstTerm ((qs.filter fun q => q.1 != 2).flatMap fun q => q.2.terms)
  let door := firstTerm ((qs.filter fun q => q.1 == 2).flatMap fun q => q.2.terms)
  ⟨min 127 ((main.map (·.value)).getD 127), main, min 127 ((door.map (·.value)).getD 127), qs.any fun q => q.2.out,
    qs.any fun q => q.2.crowded⟩

/-! ### Records -/

/-- A sweep record (R424). -/
structure SweepRec where
  minClear : Int
  doorMin : Int
  first : Nat
  rflags : Nat
  contactMs : Nat
  contactObj : Nat
  minSample : Nat
  cost : Nat
  deriving DecidableEq, Repr

/-- The 16 bytes of a record (R424). -/
def SweepRec.bytes (r : SweepRec) : List Byte :=
  leBytes 2 (ofSigned 16 r.minClear) ++ leBytes 2 (ofSigned 16 r.doorMin) ++ leBytes 1 r.first ++ leBytes 1 r.rflags ++
    leBytes 2 r.contactMs ++ leBytes 2 r.contactObj ++ leBytes 2 r.minSample ++ leBytes 4 r.cost

/-- The record of a candidate (R424, R441), from the primary sweep or from the mirror (R432). -/
def sweepRecord (epoch body : List Byte) (m : Bool) (c : Candidate) (samples : Nat) : SweepRec :=
  let c := c.seen m
  let ks := samplesOf body c samples
  let dt := sweepDt body samples
  let time := fun i => (i + 1) * 8 * dt
  let ss := (List.range ks.1.length).map fun i => sampleOf epoch body m (ks.1.getD i (kinStart c)) (time i)
  let least := (leastInt (ss.map (·.clear))).getD 127
  let door := (leastInt (ss.map (·.door))).getD 127
  let first := (findIdxFrom (fun (x : Sample) => x.clear ≤ 0) 0 ss)
  let lowest := ((findIdxFrom (fun (x : Sample) => x.clear == least) 0 ss).map (·.1)).getD 0
  let cost := (ss.foldl (fun a x => a + ((bodyLo body 7 : Int) - x.clear).toNat) 0) * bodyHi body 7 +
    ((c.sr ++ c.ac).foldl (fun a v => a + v.natAbs) 0) * bodyLo body 8
  { minClear := least, doorMin := door, first := (first.map (·.1)).getD 0xFF
    rflags := b2n first.isSome + b2n (ss.any (·.out)) * 2 + b2n (ss.any (·.crowded)) * 4 + b2n ks.2 * 8
    contactMs := (first.map fun f => time f.1 * 1000 / 2 ^ 20).getD 0xFFFF
    contactObj := match first.bind (·.2.term) with
      | some t => if t.src = 0 then 0xFFFE else t.src - 1
      | none => 0xFFFF
    minSample := lowest, cost := min (2 ^ 32 - 1) cost }

/-- Whether record `a` is better than `b`, with ties to the lower index (R425). -/
def betterRec (a b : SweepRec) : Bool := b.minClear < a.minClear || (a.minClear == b.minClear && a.cost < b.cost)

/-- Whether record `a` is worse than `b` (R425). -/
def worseRec (a b : SweepRec) : Bool := a.minClear < b.minClear || (a.minClear == b.minClear && a.first < b.first)

/-- The index of the first record that a test prefers to every earlier choice. -/
def pickRec (before : SweepRec → SweepRec → Bool) (rs : List SweepRec) : Nat × Option SweepRec :=
  let r := rs.foldl (fun (a : Nat × Nat × Option SweepRec) x =>
    match a.2.2 with
    | none => (a.1 + 1, a.1, some x)
    | some b => if before x b then (a.1 + 1, a.1, some x) else (a.1 + 1, a.2)) (0, 0, none)
  (r.2.1, r.2.2)

/-- The 32-byte summary (R425). -/
def sweepSummary (epoch : List Byte) (rs : List SweepRec) : List Byte :=
  let best := pickRec betterRec rs
  let worst := pickRec worseRec rs
  let clear := fun (r : Option SweepRec) => ofSigned 16 ((r.map (·.minClear)).getD 0)
  leBytes 2 (clear best.2) ++ leBytes 2 (clear worst.2) ++ leBytes 4 best.1 ++ leBytes 4 worst.1 ++ bytesAt epoch 4 2 ++
    leBytes 2 0 ++ bytesAt epoch 8 8 ++ leBytes 2 ((worst.2.map (·.contactMs)).getD 0) ++
    leBytes 2 ((worst.2.map (·.contactObj)).getD 0) ++ leBytes 4 0

/-- The record that 16 bytes hold (R424). -/
def recOf (b : List Byte) : SweepRec :=
  ⟨toSigned 16 (leAt b 0 2), toSigned 16 (leAt b 2 2), leAt b 4 1, leAt b 5 1, leAt b 6 2, leAt b 8 2, leAt b 10 2, leAt b 12 4⟩

/-- Record `i` of a sweep's record bytes. -/
def recAt (recs : List Byte) (i : Nat) : List Byte := (recs.drop (16 * i)).take 16

/-! ### Tasks -/

/-- What a sweep is asked for (R426, R70). -/
structure SweepArgs where
  count : Nat
  samples : Nat
  generated : Bool
  stream : Nat
  seed : Nat

/-- The arguments of a SWEEP Letter. -/
def letterSweep (l : Letter) : SweepArgs :=
  ⟨arg l.l 0x18 4, arg l.l 0x1C 1, arg l.l 0x1D 1 == 1, bits l.l.stream.toNat 11 0, arg l.l 0x28 8⟩

/-- The arguments of a SWEEP operator (R426). -/
def opSweep (o : OpDesc) : SweepArgs :=
  ⟨o.param 1, bits (o.param 0) 6 0, bit (o.param 0) 7, bits (o.param 0) 27 16, o.param 2 + o.param 3 * 2 ^ 32⟩

/-- The arguments of a sweep's task. -/
def sweepArgs (s : State) (t : Task) (l : Letter) : SweepArgs :=
  if l.op = 0x08 then letterSweep l
  else match opOf s t with
    | some (_, o) => opSweep o
    | none => ⟨0, 0, true, 0, 0⟩

/-- The epoch that a sweep's task read. -/
def sweptEpoch (g : SweepArgs) (t : Task) : List Byte := t.inData.getD (if g.generated then 0 else 1) []

/-- The body that a sweep's task read. -/
def sweptBody (g : SweepArgs) (t : Task) : List Byte := t.inData.getD (if g.generated then 1 else 2) []

/-- The records of the primary sweep, or of the mirror, from what the task read. -/
def sweepRecords (g : SweepArgs) (t : Task) (m : Bool) : List Byte :=
  (List.range g.count).flatMap fun i =>
    let c := if g.generated then candGen g.seed g.stream i (sweptBody g t) (sweptEpoch g t) else candAt (t.inData.getD 0 []) i
    (sweepRecord (sweptEpoch g t) (sweptBody g t) m c g.samples).bytes

/-- The summary of a sweep's record bytes (R425). -/
def summaryOf (g : SweepArgs) (t : Task) (recs : List Byte) : List Byte :=
  sweepSummary (sweptEpoch g t) ((List.range g.count).map fun i => recOf (recAt recs i))

/-- SWEEP_OPERATOR (R416-R426): the records, and the summary where the operator names it. -/
def execSweepOperator (task : Nat) (s : State) : Host.Outcome State Fault Refusal :=
  formOuts 0x060 (fun s _ o t =>
    let g := opSweep o
    let recs := sweepRecords g t false
    (s, [recs] ++ if o.outs.length < 2 then [] else [summaryOf g t recs])) task s

/-! ### The end of a sweep -/

/-- Wrong bits in a list of bytes. -/
def flipByte (b : List Byte) (i : Nat) (mask : Byte) : List Byte := b.set i (b.getD i 0 ^^^ mask)

/-- The records of a set as they come out, with the faults of that set. -/
def faultyRecs (m : Bool) (faults : List SweepFault) (recs : List Byte) : List Byte :=
  faults.foldl (fun b f =>
    match f.cand with
    | some i => if f.mirror == m then flipByte b (16 * i + f.pos.val % 16) f.mask else b
    | none => b) recs

/-- The summary of a set as it comes out, with the faults of that set. -/
def faultySum (m : Bool) (faults : List SweepFault) (b : List Byte) : List Byte :=
  faults.foldl (fun b f => if f.cand.isNone && f.mirror == m then flipByte b f.pos f.mask else b) b

/-- Records and summary that a set gives. -/
def setGives (g : SweepArgs) (t : Task) (m : Bool) (faults : List SweepFault) : List Byte × List Byte :=
  let recs := faultyRecs m faults (sweepRecords g t m)
  (recs, faultySum m faults (summaryOf g t recs))

/-- The engine sets of a sweep: how many engines the primary set has (R431). -/
def sweepSets (t : Task) : Nat := if t.sclass = 0 then t.units.length else t.units.length / 2

/-- n of R436, the largest block of candidates (R435). -/
def sweepBlock (t : Task) (g : SweepArgs) : Nat := ceilDiv g.count (max 1 (sweepSets t))

/-- The Scribe cycles of a sweep (R436). -/
def sweepCycles (t : Task) (g : SweepArgs) : Nat :=
  352 + sweepBlock t g * max (ceilDiv (g.samples * bits (bodyWord (sweptBody g t) 0) 6 0) 4) (4 * g.samples) + 7500

/-- The records of a block that carry LIMITED. -/
def limitedIn (recs : List Byte) (lo n : Nat) : Nat :=
  ((List.range n).filter fun i => bit (leAt recs (16 * (lo + i) + 5) 1) 3).length

/-- Count a sweep on its engines: sweeps, candidates and limited candidates of each engine's block, and cycles (R435, R436, R439,
R441). -/
def countSweep (s : State) (t : Task) (g : SweepArgs) (recs : List Byte) : State :=
  let e := max 1 (sweepSets t)
  let block := sweepBlock t g
  (List.range (if t.sclass = 0 then e else 2 * e)).foldl (fun s i =>
    let u := t.units.getD i 0
    let lo := (i % e) * block
    let n := min block (g.count - lo)
    let s := fadd s (Fd.scribe_SWEEP_COUNT u) 1
    let s := fadd s (Fd.scribe_CAND_COUNT_DONE u) n
    let s := fadd s (Fd.scribe_LIMITED_COUNT u) (limitedIn recs lo n)
    fadd s (Fd.scribe_BUSY_CYCLES u) (sweepCycles t g)) s

/-- Bytes with their zero bits blanked: RFLAGS [7:4] of each record (R424, R583). -/
def usedRecs (b : List Byte) : List Byte := b.mapIdx fun i x => if i % 16 = 5 then x &&& 0x0F else x

/-- A summary without the bytes that are always 0 (R425, R583). -/
def usedSum (b : List Byte) : List Byte := b.mapIdx fun i x => if i = 0x0E || i = 0x0F || 0x1C ≤ i then 0 else x

/-- What the comparator of an engine pair compares (R433): the pair's records, and at the first pair the summary. -/
def compared (t : Task) (g : SweepArgs) (pair : Nat) (r : List Byte × List Byte) : List Byte × List Byte :=
  ((r.1.drop (16 * (pair * sweepBlock t g))).take (16 * sweepBlock t g), if pair = 0 then r.2 else [])

/-- The engine pairs whose records or summaries differ (R433, R440), each with whether the difference lies only in bits that are
always 0 (R583). -/
def sweepDiffers (t : Task) (g : SweepArgs) (p m : List Byte × List Byte) : List (Nat × Bool) :=
  (List.range (sweepSets t)).filterMap fun k =>
    let a := compared t g k p
    let b := compared t g k m
    if a == b then none else some (k, usedRecs a.1 == usedRecs b.1 && usedSum a.2 == usedSum b.2)

/-- A mismatch between a primary engine and its mirror (R433, R440, R583). -/
def sweepMismatch (t : Task) (s : State) (d : Nat × Bool) : State :=
  let g := sweepSets t
  let a := t.units.getD d.1 0
  let b := t.units.getD (d.1 + g) 0
  let s := setEvent (fadd s (Fd.scribe_SWEEP_MISMATCH_COUNT a) 1) (0x020 + a) 8
  let s := setEvent (fadd s (Fd.scribe_SWEEP_MISMATCH_COUNT b) 1) (0x020 + b) 8
  noteStatus (raiseAs s 0x06 (0x020 + a) t.sclass t.pid (if d.2 then 2 else 0) 0 0 (0x020 + b)) t.ch t.seq 0x40 0

/-- The outputs of a sweep from its primary set (R426): a Letter's one tensor holds the records and then the summary; an operator
has the summary when it names it. -/
def sweepOuts (t : Task) (direct : Bool) (r : List Byte × List Byte) : List (List Byte) :=
  if direct then [r.1 ++ r.2] else [r.1] ++ if t.outs.length < 2 then [] else [r.2]

/-- SWEEP_COMPLETE (R425, R431-R436): the primary set's records and summary become the outputs; those of a sweep that is not QM are
compared with the mirror's. -/
def execSweepComplete (task : Nat) (faults : List SweepFault) (s : State) : Host.Outcome State Fault Refusal :=
  match taskOf s task with
  | some t =>
    match letterOf s t.ch t.seq with
    | some l =>
      if t.kind == .scribe && t.disp.isSome && (t.computed || l.op == 0x08) && dramReady s t then
        let g := sweepArgs s t l
        let p := setGives g t false faults
        let bad := if t.sclass = 0 then [] else sweepDiffers t g p (setGives g t true faults)
        let s := bad.foldl (sweepMismatch t) (countSweep s t g p.1)
        let t := { t with outs := sweepOuts t (l.op == 0x08) p, flags := t.flags ||| if bad.isEmpty then 0 else flagInvalid }
        let s := publishAll s t (some (leAt (sweptEpoch g t) 4 2)) []
        .next (completeAny s t (p.2.take 12))
      else .next s
    | none => .next s
  | none => .next s

end Sys2Proof.Machine
end

