-- ==== Sys2Proof/Machine/Dispatch.lean ====
section
/-! DEFINITION. The dispatch: one arm per command, each a direct call of its meaning. -/

namespace Sys2Proof.Machine

/-- The effect of a command on everything but the queue. -/
def exec (i : Instr) (s : State) : Host.Outcome State Fault Refusal :=
  match i with
  | .ping ch l => Sys2Proof.Machine.execPing ch l s
  | .loadPlan ch l data => Sys2Proof.Machine.execLoadPlan ch l data s
  | .unloadPlan ch l => Sys2Proof.Machine.execUnloadPlan ch l s
  | .runPlan ch l data => Sys2Proof.Machine.execRunPlan ch l data s
  | .writeTensor ch l data => Sys2Proof.Machine.execWriteTensor ch l data s
  | .readTensor ch l => Sys2Proof.Machine.execReadTensor ch l s
  | .worldUpdate ch l data => Sys2Proof.Machine.execWorldUpdate ch l data s
  | .sweep ch l => Sys2Proof.Machine.execSweep ch l s
  | .select ch l => Sys2Proof.Machine.execSelect ch l s
  | .solve ch l => Sys2Proof.Machine.execSolve ch l s
  | .setPartition ch l data => Sys2Proof.Machine.execSetPartition ch l data s
  | .partitionInstall p => Sys2Proof.Machine.execPartitionInstall p s
  | .queryDaybook ch l => Sys2Proof.Machine.execQueryDaybook ch l s
  | .readLedger ch l => Sys2Proof.Machine.execReadLedger ch l s
  | .timeAlign ch l => Sys2Proof.Machine.execTimeAlign ch l s
  | .timeAlignDeferredWrite => Sys2Proof.Machine.execTimeAlignDeferredWrite s
  | .seal ch l => Sys2Proof.Machine.execSeal ch l s
  | .unseal ch l => Sys2Proof.Machine.execUnseal ch l s
  | .setKey ch l => Sys2Proof.Machine.execSetKey ch l s
  | .inject ch l => Sys2Proof.Machine.execInject ch l s
  | .enterSafeA ch l => Sys2Proof.Machine.execEnterSafeA ch l s
  | .leaveSafeA ch l => Sys2Proof.Machine.execLeaveSafeA ch l s
  | .rotate ch l => Sys2Proof.Machine.execRotate ch l s
  | .suspectClear ch l => Sys2Proof.Machine.execSuspectClear ch l s
  | .fence ch l => Sys2Proof.Machine.execFence ch l s
  | .fenceComplete ch seq => Sys2Proof.Machine.execFenceComplete ch seq s
  | .unloadComplete ch seq => Sys2Proof.Machine.execUnloadComplete ch seq s
  | .planReplace ch seq => Sys2Proof.Machine.execPlanReplace ch seq s
  | .cancel ch l => Sys2Proof.Machine.execCancel ch l s
  | .doorbellWrite q ch v be => Sys2Proof.Machine.execDoorbellWrite q ch v be s
  | .letterStart ch seq => Sys2Proof.Machine.execLetterStart ch seq s
  | .replyWrite ch => Sys2Proof.Machine.execReplyWrite ch s
  | .journalWrite res => Sys2Proof.Machine.execJournalWrite res s
  | .ledgerSlotWrite res => Sys2Proof.Machine.execLedgerSlotWrite res s
  | .ledgerPeriodicCommit => Sys2Proof.Machine.execLedgerPeriodicCommit s
  | .looseDispatch kind => Sys2Proof.Machine.execLooseDispatch kind s
  | .strictRunStart ch seq => Sys2Proof.Machine.execStrictRunStart ch seq s
  | .strictOperatorStart ch seq op => Sys2Proof.Machine.execStrictOperatorStart ch seq op s
  | .budgetOverrun task => Sys2Proof.Machine.execBudgetOverrun task s
  | .waitTimeout task => Sys2Proof.Machine.execWaitTimeout task s
  | .majorFrameStart => Sys2Proof.Machine.execMajorFrameStart s
  | .timetableSlotStart slot => Sys2Proof.Machine.execTimetableSlotStart slot s
  | .commitGo q v be => Sys2Proof.Machine.execCommitGo q v be s
  | .timetableActivate => Sys2Proof.Machine.execTimetableActivate s
  | .ttData q w => Sys2Proof.Machine.execTtData q w s
  | .obsData q w => Sys2Proof.Machine.execObsData q w s
  | .loadWindowEnd => Sys2Proof.Machine.execLoadWindowEnd s
  | .matmul task => Sys2Proof.Machine.execMatmul task s
  | .batchMatmul task => Sys2Proof.Machine.execBatchMatmul task s
  | .conv2d task => Sys2Proof.Machine.execConv2d task s
  | .dwconv2d task => Sys2Proof.Machine.execDwconv2d task s
  | .reshape task => Sys2Proof.Machine.execReshape task s
  | .transpose task => Sys2Proof.Machine.execTranspose task s
  | .slice task => Sys2Proof.Machine.execSlice task s
  | .concat task => Sys2Proof.Machine.execConcat task s
  | .pad task => Sys2Proof.Machine.execPad task s
  | .gather task => Sys2Proof.Machine.execGather task s
  | .unpackFrame task => Sys2Proof.Machine.execUnpackFrame task s
  | .add task => Sys2Proof.Machine.execAdd task s
  | .mul task => Sys2Proof.Machine.execMul task s
  | .convert task => Sys2Proof.Machine.execConvert task s
  | .clamp task => Sys2Proof.Machine.execClamp task s
  | .finish task => Sys2Proof.Machine.execFinish task s
  | .sum task => Sys2Proof.Machine.execSum task s
  | .maxMin task => Sys2Proof.Machine.execMaxMin task s
  | .mean task => Sys2Proof.Machine.execMean task s
  | .normalize task => Sys2Proof.Machine.execNormalize task s
  | .softmax task => Sys2Proof.Machine.execSoftmax task s
  | .topk task => Sys2Proof.Machine.execTopk task s
  | .sort task => Sys2Proof.Machine.execSort task s
  | .compact task => Sys2Proof.Machine.execCompact task s
  | .sweepOperator task => Sys2Proof.Machine.execSweepOperator task s
  | .worldBuild task => Sys2Proof.Machine.execWorldBuild task s
  | .qpSolve task => Sys2Proof.Machine.execQpSolve task s
  | .cholesky task => Sys2Proof.Machine.execCholesky task s
  | .cg task => Sys2Proof.Machine.execCg task s
  | .allreduce task => Sys2Proof.Machine.execAllreduce task s
  | .broadcast task => Sys2Proof.Machine.execBroadcast task s
  | .mergeTopk task => Sys2Proof.Machine.execMergeTopk task s
  | .barrier task => Sys2Proof.Machine.execBarrier task s
  | .randomUniform task => Sys2Proof.Machine.execRandomUniform task s
  | .randomNormal task => Sys2Proof.Machine.execRandomNormal task s
  | .joinerCall task => Sys2Proof.Machine.execJoinerCall task s
  | .macroOperationComplete task faults rounds => Sys2Proof.Machine.execMacroOperationComplete task faults rounds s
  | .sweepComplete task faults => Sys2Proof.Machine.execSweepComplete task faults s
  | .sweepEpochWaitEnd task => Sys2Proof.Machine.execSweepEpochWaitEnd task s
  | .sorterTaskComplete task faults => Sys2Proof.Machine.execSorterTaskComplete task faults s
  | .planeSolveComplete task ops => Sys2Proof.Machine.execPlaneSolveComplete task ops s
  | .ecall core => Sys2Proof.Machine.execEcall core s
  | .joinerTrap core cause => Sys2Proof.Machine.execJoinerTrap core cause s
  | .tqPush core rd rs1 rs2 => Sys2Proof.Machine.execTqPush core rd rs1 rs2 s
  | .tqPop core rd rs1 => Sys2Proof.Machine.execTqPop core rd rs1 s
  | .tqLen core rd rs1 => Sys2Proof.Machine.execTqLen core rd rs1 s
  | .dkRd core rd rs1 w => Sys2Proof.Machine.execDkRd core rd rs1 w s
  | .dkInv core rs1 => Sys2Proof.Machine.execDkInv core rs1 s
  | .tileTransferComplete core queue => Sys2Proof.Machine.execTileTransferComplete core queue s
  | .pairModeChange pair => Sys2Proof.Machine.execPairModeChange pair s
  | .buildStart => Sys2Proof.Machine.execBuildStart s
  | .epochPublish => Sys2Proof.Machine.execEpochPublish s
  | .latEnWrite q v be => Sys2Proof.Machine.execLatEnWrite q v be s
  | .frameStart port phy vc fnum => Sys2Proof.Machine.execFrameStart port phy vc fnum s
  | .longPacket port phy pk => Sys2Proof.Machine.execLongPacket port phy pk s
  | .unknownPacket port phy vc dt => Sys2Proof.Machine.execUnknownPacket port phy vc dt s
  | .frameEnd port phy vc fnum => Sys2Proof.Machine.execFrameEnd port phy vc fnum s
  | .framePublish port f slot => Sys2Proof.Machine.execFramePublish port f slot s
  | .fEnableWrite q port f v be => Sys2Proof.Machine.execFEnableWrite q port f v be s
  | .flitReceive link bytes => Sys2Proof.Machine.execFlitReceive link bytes s
  | .linkRewind link => Sys2Proof.Machine.execLinkRewind link s
  | .linkDown link => Sys2Proof.Machine.execLinkDown link s
  | .linkTraining link => Sys2Proof.Machine.execLinkTraining link s
  | .trainingComplete link peer trained standby => Sys2Proof.Machine.execTrainingComplete link peer trained standby s
  | .contrib flit desc start => Sys2Proof.Machine.execContrib flit desc start s
  | .vote flit start aligned => Sys2Proof.Machine.execVote flit start aligned s
  | .decide flit commit detail => Sys2Proof.Machine.execDecide flit commit detail s
  | .abortReq flit station => Sys2Proof.Machine.execAbortReq flit station s
  | .collectiveTimeout g => Sys2Proof.Machine.execCollectiveTimeout g s
  | .heartbeat flit hb => Sys2Proof.Machine.execHeartbeat flit hb s
  | .heartbeatSend => Sys2Proof.Machine.execHeartbeatSend s
  | .peerLost => Sys2Proof.Machine.execPeerLost s
  | .pairRoleWrite q v be forced => Sys2Proof.Machine.execPairRoleWrite q v be forced s
  | .peerMirrorEntry ch seq entry => Sys2Proof.Machine.execPeerMirrorEntry ch seq entry s
  | .peerCopyDone => Sys2Proof.Machine.execPeerCopyDone s
  | .desync flit => Sys2Proof.Machine.execDesync flit s
  | .resyncGo q v be => Sys2Proof.Machine.execResyncGo q v be s
  | .resync flit word => Sys2Proof.Machine.execResync flit word s
  | .resyncComplete flit => Sys2Proof.Machine.execResyncComplete flit s
  | .alignGo q v be => Sys2Proof.Machine.execAlignGo q v be s
  | .timeExchange link t1 t2 t3 t4 behind => Sys2Proof.Machine.execTimeExchange link t1 t2 t3 t4 behind s
  | .alignmentComplete => Sys2Proof.Machine.execAlignmentComplete s
  | .timeDriftCheck link theta => Sys2Proof.Machine.execTimeDriftCheck link theta s
  | .postmarkLoRead q wide => Sys2Proof.Machine.execPostmarkLoRead q wide s
  | .postmarkAdjWrite q v be => Sys2Proof.Machine.execPostmarkAdjWrite q v be s
  | .postmarkStep => Sys2Proof.Machine.execPostmarkStep s
  | .postmarkSlewHold => Sys2Proof.Machine.execPostmarkSlewHold s
  | .postmarkCounterStart => Sys2Proof.Machine.execPostmarkCounterStart s
  | .pmClkLoss => Sys2Proof.Machine.execPmClkLoss s
  | .fastDomainWake d => Sys2Proof.Machine.execFastDomainWake d s
  | .fastDomainStop d => Sys2Proof.Machine.execFastDomainStop d s
  | .stepReqWrite q v be => Sys2Proof.Machine.execStepReqWrite q v be s
  | .voltageSettleEnd ans => Sys2Proof.Machine.execVoltageSettleEnd ans s
  | .stepRelockDone => Sys2Proof.Machine.execStepRelockDone s
  | .thermalEmergencyExit => Sys2Proof.Machine.execThermalEmergencyExit s
  | .thermalSample readings rails => Sys2Proof.Machine.execThermalSample readings rails s
  | .clockMonitorWindow counts => Sys2Proof.Machine.execClockMonitorWindow counts s
  | .voltageWindowFault rail mv => Sys2Proof.Machine.execVoltageWindowFault rail mv s
  | .scrubCycle array => Sys2Proof.Machine.execScrubCycle array s
  | .refresh mr4 => Sys2Proof.Machine.execRefresh mr4 s
  | .refreshSlot slot mr4 => Sys2Proof.Machine.execRefreshSlot slot mr4 s
  | .refreshOverrun mr4 delayed => Sys2Proof.Machine.execRefreshOverrun mr4 delayed s
  | .corrRateWindowEnd => Sys2Proof.Machine.execCorrRateWindowEnd s
  | .bar2Read f off len => Sys2Proof.Machine.execBar2Read f off len s
  | .bar2Write f off data => Sys2Proof.Machine.execBar2Write f off data s
  | .faultReport extra => Sys2Proof.Machine.execFaultReport extra s
  | .pwrKill => Sys2Proof.Machine.execPwrKill s
  | .safeInNLow => Sys2Proof.Machine.execSafeInNLow s
  | .safeHbToggle requested => Sys2Proof.Machine.execSafeHbToggle requested s
  | .safetyFrameBuild n => Sys2Proof.Machine.execSafetyFrameBuild n s
  | .canFrameTransmit n acked => Sys2Proof.Machine.execCanFrameTransmit n acked s
  | .canFrameReceive n frame => Sys2Proof.Machine.execCanFrameReceive n frame s
  | .busOff n rejoined => Sys2Proof.Machine.execBusOff n rejoined s
  | .streamGap w => Sys2Proof.Machine.execStreamGap w s
  | .wdgKick q v be => Sys2Proof.Machine.execWdgKick q v be s
  | .watchdogExpiry => Sys2Proof.Machine.execWatchdogExpiry s
  | .configSignatureWalk => Sys2Proof.Machine.execConfigSignatureWalk s
  | .rotatingTestStart kind => Sys2Proof.Machine.execRotatingTestStart kind s
  | .spareTakeover kind => Sys2Proof.Machine.execSpareTakeover kind s
  | .rotatingTestComplete kind pass => Sys2Proof.Machine.execRotatingTestComplete kind pass s
  | .beamCopyComplete => Sys2Proof.Machine.execBeamCopyComplete s
  | .testSegment kind pass => Sys2Proof.Machine.execTestSegment kind pass s
  | .checkerInjection bus detected => Sys2Proof.Machine.execCheckerInjection bus detected s
  | .deferredTestRetry kind => Sys2Proof.Machine.execDeferredTestRetry kind s
  | .latentOverdue kind unit => Sys2Proof.Machine.execLatentOverdue kind unit s
  | .powerGood res => Sys2Proof.Machine.execPowerGood res s
  | .alwaysOnResetComplete => Sys2Proof.Machine.execAlwaysOnResetComplete s
  | .daybookScan => Sys2Proof.Machine.execDaybookScan s
  | .ledgerScan => Sys2Proof.Machine.execLedgerScan s
  | .startupInjection reports failed => Sys2Proof.Machine.execStartupInjection reports failed s
  | .bootImageLoad slots => Sys2Proof.Machine.execBootImageLoad slots s
  | .bootLayoutInstall => Sys2Proof.Machine.execBootLayoutInstall s
  | .ready => Sys2Proof.Machine.execReady s
  | .mainPowerLoss vddAon => Sys2Proof.Machine.execMainPowerLoss vddAon s
  | .sysRstNFall => Sys2Proof.Machine.execSysRstNFall s
  | .flushComplete => Sys2Proof.Machine.execFlushComplete s
  | .brownOut torn => Sys2Proof.Machine.execBrownOut torn s
  | .perstN => Sys2Proof.Machine.execPerstN s
  | .flr f => Sys2Proof.Machine.execFlr f s
  | .hostLinkLoss => Sys2Proof.Machine.execHostLinkLoss s
  | .configurationRequest f => Sys2Proof.Machine.execConfigurationRequest f s
  | .smbusIdentity => Sys2Proof.Machine.execSmbusIdentity s
  | .smbusState => Sys2Proof.Machine.execSmbusState s
  | .smbusTj => Sys2Proof.Machine.execSmbusTj s
  | .smbusPowerEpoch => Sys2Proof.Machine.execSmbusPowerEpoch s
  | .smbusLwIndex v => Sys2Proof.Machine.execSmbusLwIndex v s
  | .smbusLwData => Sys2Proof.Machine.execSmbusLwData s
  | .chCtrlWrite q ch v be forced => Sys2Proof.Machine.execChCtrlWrite q ch v be forced s
  | .eventWrite q page v be => Sys2Proof.Machine.execEventWrite q page v be s
  | .eventForce q page v be => Sys2Proof.Machine.execEventForce q page v be s
  | .ownerPidWrite q page v be => Sys2Proof.Machine.execOwnerPidWrite q page v be s
  | .watchWrite q w second v be => Sys2Proof.Machine.execWatchWrite q w second v be s
  | .bar2BaseWrite q f hi v be => Sys2Proof.Machine.execBar2BaseWrite q f hi v be s
  | .dbMirrorBaseWrite q hi v be => Sys2Proof.Machine.execDbMirrorBaseWrite q hi v be s
  | .dirData q => Sys2Proof.Machine.execDirData q s
  | .ftData q t => Sys2Proof.Machine.execFtData q t s
  | .flogData q => Sys2Proof.Machine.execFlogData q s
  | .lwData q => Sys2Proof.Machine.execLwData q s
  | .rxData q n => Sys2Proof.Machine.execRxData q n s
  | .lastEventPmLo q page off wide => Sys2Proof.Machine.execLastEventPmLo q page off wide s
  | .registerWrite q off v be forced => Sys2Proof.Machine.execRegisterWrite q off v be forced s
  | .postmarkTick upsets => Sys2Proof.Machine.execPostmarkTick upsets s
  | .hostLinkUp => Sys2Proof.Machine.execHostLinkUp s
  | .safeInNHigh => Sys2Proof.Machine.execSafeInNHigh s
  | .undefinedOpcodeLetter ch opcode l => Sys2Proof.Machine.execUndefinedOpcodeLetter ch opcode l s
  | .stagingComplete g parts => Sys2Proof.Machine.execStagingComplete g parts s
  | .tqPopWaitLimit core => Sys2Proof.Machine.execTqPopWaitLimit core s
  | .lpddr5xInitialised margins => Sys2Proof.Machine.execLpddr5xInitialised margins s
  | .tapInstruction ir => Sys2Proof.Machine.execTapInstruction ir s
  | .smbusUndefinedCommand code => Sys2Proof.Machine.execSmbusUndefinedCommand code s

end Sys2Proof.Machine
end

