-- ==== Sys2Proof/Machine/Step.lean ====
section
/-! DEFINITION. The step: take the command at the front of the queue and run it. -/

namespace Sys2Proof.Machine

/-- The state without the command at the front of its queue. -/
def State.popFront (s : State) : State := { s with pending := s.pending.tail }

/-- One step: the command at the front of the queue, with the queue's rest; an empty queue idles (log entry 1). -/
def step (s : State) : Host.Outcome State Fault Refusal :=
  match s.pending with
  | [] => .next s
  | c :: _ => exec c s.popFront

/-- The state with the command that a word spells at the front of its queue; no row of the table has bits, so no word spells
one. -/
def State.withFetchWord (s : State) (nbits w : Nat) : State :=
  match decodeTableWord nbits w with
  | some c => { s with pending := c :: s.pending }
  | none => s

end Sys2Proof.Machine
end

