-- ==== Sys2Proof/Safety.lean ====
section
/-! DEFINITION. What a safe run keeps, and the words in which statements say what a command does: that it runs, and what it leaves
as it was. -/

namespace Sys2Proof.Machine

/-- The sparse data of a state are in their canonical form: both memories, and the keys of the register words and of the
marked words. -/
structure Canonical (s : State) : Prop where
  mem : Memory.wf s.mem
  host : Memory.wf s.host
  regs : s.regs.Pairwise fun a b => a.1 < b.1
  ecc : s.ecc.Pairwise fun a b => a.1 < b.1

/-- Command `c` runs from `s`: it answers a next state, and that state satisfies `P`. -/
def Runs (c : Instr) (s : State) (P : State → Prop) : Prop := ∃ t, exec c s = .next t ∧ P t

/-- The register word that a field is part of. -/
abbrev Fld.word (f : Fld) : Nat × Nat := (f.page, f.off)

/-- How many values a field takes. -/
abbrev Fld.card (f : Fld) : Nat := 2 ^ (f.hi + 1 - f.lo)

/-- Every register word but the listed ones reads as before. -/
def WordsBut (ws : List (Nat × Nat)) (s t : State) : Prop :=
  ∀ page off, off < 0x1000 → (page, off) ∉ ws → regGet t page off = regGet s page off

/-- Every register word outside the listed pages reads as before. -/
def PagesBut (ps : List Nat) (s t : State) : Prop :=
  ∀ page off, off < 0x1000 → page ∉ ps → regGet t page off = regGet s page off

/-- The words that a set of an EVENT bit writes: EVENT, EVENT_COUNT and LAST_EVENT_PM of the page (R727). -/
abbrev eventWords (page : Nat) : List (Nat × Nat) := [(page, 0x010), (page, 0x01C), (page, 0x038), (page, 0x03C)]

/-- Every byte of device memory and of host memory reads as before. -/
def SameBytes (s t : State) : Prop := ∀ a, memByte t a = memByte s a ∧ hostBytes t a 1 = hostBytes s a 1

/-- An EVENT bit of a page is set. -/
abbrev HasEvent (s : State) (page b : Nat) : Prop := bit (fget s (Fd.hdr_EVENT page)) b = true

/-- A fault of a class, reported by a page, stands on the fault bus (R574). -/
abbrev OnBus (s : State) (cls source : Nat) : Prop := ∃ f ∈ s.safety.bus, f.cls = cls ∧ f.source = source

/-- Every other requester's time shadows are as before (R163). -/
def OtherShadows (q : Requester) (s t : State) : Prop := ∀ r : Requester, r ≠ q → timeShadow t r = timeShadow s r

/-- Nothing waits for a PM_CLK edge: no timetable is being validated, and no host access and no camera data waits for LPDDR5X (R248,
R344). -/
structure EdgeQuiet (s : State) : Prop where
  commit : fget s Fd.sched_COMMIT = 0
  bar2 : s.bar2 = []
  fifos : ∀ l ∈ s.fifos, l = []

/-- What a PM_CLK edge leaves when nothing waits for it: besides time and the listed register words it changes only what counts edges,
the start-up voltage, and the cores of logical pair 0 that take the interrupt (R174, R323, R360, R663, R696). -/
def EdgeFrame (ws : List (Nat × Nat)) (s t : State) : Prop :=
  WordsBut (Fd.power_VCORE_CMD_MV.word :: ws) s t ∧ t.sched = { s.sched with load := t.sched.load } ∧
    t = { s with regs := t.regs, time := t.time, power := t.power, sched := t.sched, boot := t.boot, ledger := t.ledger
                 cores := t.cores, outbox := t.outbox }

/-- Registers may differ in the set of struck configuration bits alone: a write of a configuration field makes what it stores the
reference (R595). -/
abbrev sameSafety (s t : State) : SafetySt := { s.safety with flips := t.safety.flips }

/-- The junction temperature has stayed at or below the exit temperature for `n` pt (R188). -/
abbrev CoolFor (n : Nat) (s : State) : Prop := ∃ since ∈ s.power.coolSince, since + n ≤ now s

/-- Every byte of device memory outside `n` bytes from `a` reads as before. -/
def BytesBut (a n : Nat) (s t : State) : Prop := ∀ x, ¬ (a ≤ x ∧ x < a + n) → memByte t x = memByte s x

/-- Every byte of device memory outside `n` bytes from `a` and `m` bytes from `b` reads as before. -/
def BytesButTwo (a n b m : Nat) (s t : State) : Prop :=
  ∀ x, ¬ (a ≤ x ∧ x < a + n) → ¬ (b ≤ x ∧ x < b + m) → memByte t x = memByte s x

/-- The mirror entry of a channel and sequence lies outside the Beam cache's pool (R101, R246). -/
abbrev MirrorDirect (s : State) (ch seq : Nat) : Prop :=
  pooled s 0 (mirrorAddr s ch seq) = false ∧ pooled s 0 (mirrorAddr s ch seq + 64) = false

/-- Every line of the Beam cache holds its 256 bytes, and no two lines of a partition hold one address (R250, R251). -/
def LinesWhole (s : State) : Prop :=
  (∀ l ∈ s.cache, l.data.length = 256) ∧ s.cache.Pairwise fun a b => ¬ (a.pid = b.pid ∧ a.addr = b.addr)

/-- Every line of the Beam cache lies in LPDDR5X (R246). -/
def LinesInDram (s : State) : Prop := ∀ l ∈ s.cache, dramBase ≤ l.addr

/-- Every byte of the MRAM outside `n` bytes from `a` reads as before. -/
def MramBut (a n : Nat) (s t : State) : Prop :=
  ∀ x, 0x30000000 ≤ x → x < 0x30400000 → ¬ (a ≤ x ∧ x < a + n) → memByte t x = memByte s x

/-- The machine has as many of each thing as the spec gives it: channels, partitions, filters, joiner cores with their registers and
tile queues, intake ports' line FIFOs, links, bundles, groups and CAN FD controllers. -/
structure Shaped (s : State) : Prop where
  chans : s.chans.length = 64
  parts : s.parts.length = 16
  filters : s.filters.length = 32
  fifos : s.fifos.length = 8
  cores : s.cores.length = 34
  registers : ∀ k ∈ s.cores, k.x.length = 32 ∧ k.f.length = 32 ∧ k.tq.length = 4
  lastGood : s.courier.lastGood.length = 6
  nextTrain : s.courier.nextTrain.length = 6
  bundles : s.courier.bundles.length = 6
  groups : s.courier.groups.length = 16
  can : s.can.length = 2

/-- A port that receives, with nothing in its line FIFO and no postcard on its way: what a packet brings leaves the FIFO as it
enters it (R375, R386). -/
structure PortIdle (s : State) (port : Nat) : Prop where
  enabled : fget s (Fd.intake_ENABLE port) = 1
  empty : fifoAt s port = []
  injected : injecting s port = false

/-- The words that every packet writes: the state of the lanes, and the line FIFO's peak fill (R365, R394). -/
abbrev portWords (port : Nat) : List (Nat × Nat) :=
  [(Fd.intake_HS_ACTIVE port).word, (Fd.intake_FIFO_HIGH_WATER port).word]

/-- What work on Letters, tasks and collectives leaves as it was: host memory, time, power, the partition tables, the filters, the
lattice, the configuration memories, the pins, start-up, sparing, the pair, and what only a host access sees. -/
def TaskFrame (s t : State) : Prop :=
  t = { s with
    regs := t.regs, mem := t.mem, ecc := t.ecc, chans := t.chans, letters := t.letters, replies := t.replies
    daybook := t.daybook, plans := t.plans, cache := t.cache, streams := t.streams, streamSeq := t.streamSeq
    tensorDk := t.tensorDk, sched := t.sched, cores := t.cores, courier := t.courier, safety := t.safety, can := t.can
    ledger := t.ledger, outbox := t.outbox, freeCount := t.freeCount }

/-- As `TaskFrame`, where a task may be cut short: a world build that is cut publishes an INVALID epoch item, which takes the next
sequence number of the lattice (R357, R411). -/
def CutFrame (s t : State) : Prop :=
  TaskFrame { s with lattice := { s.lattice with seq := t.lattice.seq, newest := t.lattice.newest } } t

/-- A task that runs operator `o`, of a code, of plan `p`, and has not formed its outputs yet. -/
def RunsOperator (s : State) (k code : Nat) (x : Task) (p : PlanSt) (o : OpDesc) : Prop :=
  taskOf s k = some x ∧ x.disp.isSome = true ∧ x.computed = false ∧ x.code = code ∧ opOf s x = some (p, o)

/-- Every other task is as before. -/
def OtherTasks (k : Nat) (s t : State) : Prop := ∀ j, j ≠ k → taskOf t j = taskOf s j

/-- A task has formed its outputs, which stay in its engine: nothing else changes but counts in registers. -/
def Formed (k : Nat) (x : Task) (outs : List (List Byte)) (s t : State) : Prop :=
  taskOf t k = some { x with outs := outs, computed := true } ∧ OtherTasks k s t ∧
    t = { s with regs := t.regs, sched := { s.sched with tasks := t.sched.tasks }, freeCount := t.freeCount }

/-- The NaNs that became integers on an engine of a task: those of the tiles and blocks dealt to it (R291, R303). -/
def nansOf (s : State) (x : Task) (p : List W32) (o : OpDesc) (d : TensorDesc) (vals : List Xv) (u : Nat) : Nat :=
  (((List.range x.units.length).filter fun e => x.units.getD e 0 == u).map (nanShare s x p o d vals)).sum

/-- Each engine of a task has counted its conversions of NaN to an integer format in its own page, and no other register has
changed (R291). -/
def CountedNans (x : Task) (p : List W32) (o : OpDesc) (d : TensorDesc) (vals : List Xv) (s t : State) : Prop :=
  WordsBut (x.units.map fun u => (Fd.truss_NAN_TO_INT_COUNT u).word) s t ∧
    ∀ u ∈ x.units, fget t (Fd.truss_NAN_TO_INT_COUNT u) =
      (fget s (Fd.truss_NAN_TO_INT_COUNT u) + nansOf s x p o d vals u) % 2 ^ 32

/-- How often an engine stands among the engines of a task that took a tile or block of its macro-operation (R303, R312). -/
def timesWalked (s : State) (x : Task) (p : List W32) (o : OpDesc) (u : Nat) : Nat :=
  ((List.range x.units.length).filter fun e => x.units.getD e 0 == u &&
    !(engineTiles (walkTiles s x p (macroOf p o)) x.units e).isEmpty).length

/-- The engines of a task with a tile or block that fails its tally check (R307, R310). -/
def tallyUnits (s : State) (x : Task) (p : List W32) (o : OpDesc) (faults : List LaneFault) : List Nat :=
  failingUnits s x p o fun n _ => tallyFails faults s p o x n

/-- The engines of a task with a tile or block that fails its residue check (R309, R310). -/
def residueUnits (s : State) (x : Task) (p : List W32) (o : OpDesc) (faults : List LaneFault) (rounds : List RoundFault) :
    List Nat :=
  failingUnits s x p o (residueFails rounds p o { x with outs := faultyOuts faults s p o x })

/-- The values of a dense macro-operation (R281, R282, R299): each the exact sum of its products times its channel's scale, through
the Finish function. -/
def denseResult (s : State) (p : List W32) (o : OpDesc) (x : Task) : List Xv :=
  (List.range (denseOf p (macroOf p o)).batch).flatMap fun q => (List.range (denseOf p (macroOf p o)).m).flatMap fun i =>
    (List.range (denseOf p (macroOf p o)).n).map fun j =>
      fused s o x ((exactSum ((List.range (denseOf p (macroOf p o)).k).map (denseProduct p o x q i · j))).mul (scaleOf p o x j))

/-- A task has formed one output from values: each rounded once to the output's format and packed (R217); NaNs that became
integers are counted, and no other register changes (R291). -/
def FormedValues (k : Nat) (x : Task) (p : PlanSt) (o : OpDesc) (vals : List Xv) (s t : State) : Prop :=
  Formed k x [packVals (outDesc p.words o 0) vals] s t ∧ t.freeCount = s.freeCount ∧
    CountedNans x p.words o (outDesc p.words o 0) vals s t

/-- The rows of a Sorter job that fail a check, with the faults that strike it (R459). -/
def failedRows (j : SortJob) (faults : List SortFault) (check : SortAsk → List Item → SortedRow → Bool) :
    List (List Item × SortedRow) :=
  (j.rows.zip (j.rows.mapIdx (faultyRow j.ask faults))).filter fun x => !check j.ask x.1 x.2

/-- The exception that stands at a core's pc, by its cause (R330). -/
def trapCause (s : State) (c : Nat) (t : Task) : Option Nat :=
  match rvStep s c t with
  | .exc e _ => some e
  | _ => none

/-- Whether a core stands at an ECALL. -/
def atEcall (s : State) (c : Nat) (t : Task) : Bool :=
  match rvStep s c t with
  | .ecall _ => true
  | _ => false

/-- Whether a fetch gives an instruction word of four bytes. -/
def isFetch (r : Fetched) (w : Nat) : Bool :=
  match r with
  | .ok _ v n => v == w && n == 4
  | _ => false

/-- No Letter has gone on and no Reply has been queued or written: a Daybook memory failure may have committed their versions. -/
def SameProgress (s t : State) : Prop :=
  t.letters.map (fun l => (l.l, l.phase, l.res)) = s.letters.map (fun l => (l.l, l.phase, l.res)) ∧
    t.replies.map (·.res) = s.replies.map (·.res)

/-- A core has retired a vendor instruction: its destination holds a value, x0 discards it, and its pc has moved past it. -/
def Retired (core rd : Nat) (v : Nat) (s t : State) : Prop :=
  (coreAt t core).rx rd = (if rd = 0 then 0 else BitVec.ofNat 64 v) ∧
    (coreAt t core).pc = BitVec.ofNat 64 ((coreAt s core).pc.toNat + 4) ∧
    ∀ i, i < 32 → i ≠ rd → (coreAt t core).rx i = (coreAt s core).rx i

/-- The refreshes owed now, a refresh falling due every 97 pt times the multiple of the last MR4 report (06, Refresh). -/
def owedNow (s : State) : Int :=
  s.refresh.owed + ((s.refresh.acc + (now s - s.refresh.last) * mr4Mult (fget s Fd.dram_MR4_RATE)) / 97 : Nat)

/-- The faults that a report records: those on the fault bus, and those that checkers report in its cycle (R574, R576). -/
def faultsNow (s : State) (extra : List FaultIn) : List FaultRec :=
  s.safety.bus ++ (extra.filter fun f => 1 ≤ f.cls && f.cls ≤ 0x20).map faultOf

/-- The takeover of a kind that comes next: the first whose unit has reached a boundary (R607). -/
def nextTakeover (s : State) (k : Nat) : Option (Nat × Nat × Nat × Nat) :=
  s.spare.takeovers.find? fun x => x.1 == k && (x.2.2.2 == 5 || !unitInUse s k x.2.1)

/-! ### Letters -/

/-- A command that brings the next entry of a ring (R70): its OPCODE, what the device takes of the host memory that its address
names, and for a SAFETY_CMD the COMMAND that it stands for (R614). -/
structure LetterCmd where
  cmd : Instr
  op : Nat
  data : List Byte
  command : Option Nat

/-- The commands that bring the Letters of the defined opcodes. -/
def letterCmds (ch : Fin 64) (l : LetterIn) (data : List Byte) : List LetterCmd :=
  [⟨.ping ch l, 0x01, [], none⟩, ⟨.loadPlan ch l data, 0x02, bytesAt data 0 (arg l 0x20 4), none⟩,
    ⟨.unloadPlan ch l, 0x03, [], none⟩, ⟨.runPlan ch l data, 0x04, data, none⟩,
    ⟨.writeTensor ch l data, 0x05, bytesAt data 0 (arg l 0x30 4), none⟩, ⟨.readTensor ch l, 0x06, [], none⟩,
    ⟨.worldUpdate ch l data, 0x07, bytesAt data 0 (arg l 0x28 4), none⟩, ⟨.sweep ch l, 0x08, [], none⟩,
    ⟨.select ch l, 0x09, [], none⟩, ⟨.solve ch l, 0x0A, [], none⟩,
    ⟨.setPartition ch l data, 0x0B, bytesAt data 0 (blockLength data), none⟩, ⟨.queryDaybook ch l, 0x0C, [], none⟩,
    ⟨.readLedger ch l, 0x0D, [], none⟩, ⟨.timeAlign ch l, 0x0E, [], none⟩, ⟨.fence ch l, 0x10, [], none⟩,
    ⟨.cancel ch l, 0x11, [], none⟩, ⟨.seal ch l, 0x0F, [], some 1⟩, ⟨.unseal ch l, 0x0F, [], some 2⟩,
    ⟨.setKey ch l, 0x0F, [], some 3⟩, ⟨.inject ch l, 0x0F, [], some 4⟩, ⟨.enterSafeA ch l, 0x0F, [], some 5⟩,
    ⟨.leaveSafeA ch l, 0x0F, [], some 6⟩, ⟨.rotate ch l, 0x0F, [], some 7⟩, ⟨.suspectClear ch l, 0x0F, [], some 8⟩]

/-- Whether a Letter is one that a command stands for: a SAFETY_CMD of its COMMAND. -/
def LetterCmd.fits (e : LetterCmd) (l : LetterIn) : Prop := ∀ n ∈ e.command, arg l 0x18 1 = n

/-- The next entry of the ring read next is this one, it passes steps 1 to 3 of R82, and no Letter is held on the channel (R89). -/
structure ReadsNext (s : State) (ch op : Nat) (l : LetterIn) : Prop where
  turn : nextRead s = some ch
  free : (chanOf s ch).held = none
  front : frontFault ch op (fget s (Fd.chan_LRING_HEAD ch)) l = none

/-- The state once a channel has had its turn and its ring's head has passed the entry (R53, R132). -/
def turnState (s : State) (ch : Nat) : State :=
  fput (takeTurn s ch) (Fd.chan_LRING_HEAD ch) ((fget s (Fd.chan_LRING_HEAD ch) + 1) % 2 ^ 16)

/-- The state in which steps 5 to 10 of R82 judge an entry: admission has read what it reads of the Letter's tensors. -/
def judgeState (s : State) (ch op : Nat) (l : LetterIn) : State := headerRead (turnState s ch) op (fget s (Fd.chan_PID ch)) l

/-- Steps 4 to 9 of R82 pass, and no waiting Letter is superseded. -/
structure Admitted (s : State) (ch op : Nat) (l : LetterIn) (data : List Byte) : Prop where
  room : creditedOp op = true ∨ uncredited s ch < 4
  fresh : classify s ch l.seq.toNat = .fresh
  fields : fieldFault (judgeState s ch op l) op ch (fget s (Fd.chan_PID ch)) l data = none
  allowed : forbidden (judgeState s ch op l) op (fget s (Fd.chan_PID ch)) l data = false
  key : keyRefused (judgeState s ch op l) op l = false
  ready : notReady (judgeState s ch op l) op (fget s (Fd.chan_PID ch)) l = none
  credit : creditedOp op = true → creditLack (judgeState s ch op l) ch (fget s (Fd.chan_PID ch)) [] = none
  alone : victims (judgeState s ch op l) op (fget s (Fd.chan_PID ch)) (bits l.stream.toNat 11 0) = []
  journal : dbVolatile (judgeState s ch op l) = false

/-- An entry has been answered with a FINAL Reply of a status and nothing more: no record, no credit, no place in the window, so the
Reply ends no Letter's flight (R83). -/
def Refused (ch op : Nat) (l : LetterIn) (status detail : Nat) (s t : State) : Prop :=
  ∃ p, t.replies = s.replies ++ [p] ∧ p.ch = ch ∧ p.op = op ∧ p.seq = l.seq.toNat ∧ p.tag = l.tag.toNat ∧ p.final = false ∧
    p.waits = false ∧ p.credited = false ∧ p.rflags = rfFinal + rfNotWall ∧ p.res = Result.plain status detail

/-- An entry has been rejected with a record (R84, R103): its sequence is FINISHED in the window, its REJECTED version is queued, and
its Reply waits for that version's commit. -/
def Rejected (ch op : Nat) (l : LetterIn) (status detail : Nat) (s t : State) : Prop :=
  t.letters = s.letters ∧ classify t ch l.seq.toNat = .finished false ∧
    (∃ p, t.replies = s.replies ++ [p] ∧ p.ch = ch ∧ p.op = op ∧ p.seq = l.seq.toNat ∧ p.final = true ∧ p.waits = true ∧
      p.credited = false ∧ p.res = Result.plain status detail) ∧
    (∃ v ∈ t.daybook.queue, v.state = 4 ∧ v.ch = ch ∧ v.op = op ∧ v.seq = l.seq.toNat ∧ v.status = status ∧ v.detail = detail) ∧
    fget t (Fd.chan_IN_FLIGHT ch) = fget s (Fd.chan_IN_FLIGHT ch) ∧ fget t Fd.dev_DEV_IN_FLIGHT = fget s Fd.dev_DEV_IN_FLIGHT

/-- A Letter that LETTER_START finds free to start, in a Daybook that is not volatile (R107, R681). -/
structure CanStart (s : State) (ch seq : Nat) (l : Letter) : Prop where
  letter : letterOf s ch seq = some l
  may : mayStart s l = true
  fresh : underWay s l = false
  power : s.boot.holdup = false
  host : movesData l.op = true → hostGone s l.pid = false
  journal : dbVolatile s = false

/-- A Letter has ended with an outcome, and its final Reply carries it (R103, R107, R125). -/
def Finishes (ch seq : Nat) (r : Result) (t : State) : Prop :=
  (letterOf t ch seq).map (·.phase) = some .finished ∧ (letterOf t ch seq).map (·.res) = some r ∧
    ∃ p ∈ t.replies, p.ch = ch ∧ p.seq = seq ∧ p.final = true ∧ p.waits = true ∧ p.res = r

/-- A Letter has started (R103). -/
def Starts (ch seq : Nat) (s t : State) : Prop :=
  (letterOf t ch seq).map (·.phase) = some .started ∧ (letterOf t ch seq).map (·.startPm) = some (now s)

/-- Device memory is as it was but for the mirror entry of a Letter (R101). -/
def MirrorOnly (ch seq : Nat) (s t : State) : Prop := MirrorDirect s ch seq → BytesBut (mirrorAddr s ch seq) 128 s t

/-- Host memory is as it was outside `n` bytes from `a`. -/
def HostBut (a n : Nat) (s t : State) : Prop := ∀ x, ¬ (a ≤ x ∧ x < a + n) → hostBytes t x 1 = hostBytes s x 1

/-! ### Registers -/

/-- The words that a write of a register may change beside the register: what counts and reports a reserved write or value (R727,
R741, R742). -/
abbrev writeWords (page off : Nat) : List (Nat × Nat) :=
  [(page, off), (Fd.hdr_RSVD_WRITE_COUNT page).word, Fd.directory_LAST_RSVD_OFFSET.word] ++ eventWords page

/-- What a register write leaves as it was, but for the register file: a configuration write is the reference from then on, and an
event may send an interrupt. -/
def WriteFrame (s t : State) : Prop := t = { s with regs := t.regs, safety := sameSafety s t, outbox := t.outbox }

/-- A register word of a page whose writes have no effect beyond their fields: no header word, and of no page with a command for a
word of its own. -/
def plainWord (page off : Nat) : Bool :=
  0x040 ≤ off && !([0x000, 0x002, 0x003, 0x004, 0x005, 0x006, 0x058, 0x07E, 0x088, 0x089, 0x090].contains page) &&
    !(0x008 ≤ page && page ≤ 0x00B) && !(0x070 ≤ page && page ≤ 0x077)

/-- The field of a register word that a table row describes. -/
abbrev rowFld (page off : Nat) (r : RegRow × Nat × Nat) : Fld := ⟨page, off, r.1.hi, r.1.lo⟩

/-- The word that the low half of a 64-bit write carries. -/
abbrev lowWord (v : W64) : Nat := (v.extractLsb' 0 32).toNat

/-- A read through a data window has returned its word and moved the index on, modulo `m` (R748). -/
def WindowRead (v : Nat) (idx : Fld) (m : Nat) (s t : State) : Prop :=
  t.completion = leBytes 4 v ∧ fget t idx = (fget s idx + 1) % m ∧ WordsBut [idx.word] s t ∧
    t = { s with regs := t.regs, completion := t.completion }

/-- Device memory keeps what the MRAM holds (R239), and every other byte reads 0. -/
def MramOnly (s t : State) : Prop :=
  ∀ a, memByte t a = if 0x30000000 ≤ a ∧ a < 0x30400000 then memByte s a else 0

end Sys2Proof.Machine
end

