-- ==== Sys2Proof/WellFormed.lean ====
section
/-! DEFINITION. When the operands of a command have a shape that the spec's fields can carry: the machine runs every command,
well-formed or not; these checks say which ones the outside world can send. -/

namespace Sys2Proof

/-- A ring entry's argument block is 100 bytes (R59). -/
def LetterIn.wellFormed (l : LetterIn) : Bool := l.args.length == 100

/-- A 32-bit write enables at least one byte (R723). -/
def enables (be : BitVec 4) : Bool := be != 0

/-- What CONTRIB tells (R526): an operator code of 8 bits, a 32-bit element count, 32-bit parameter words. -/
def CollDesc.wellFormed (d : CollDesc) : Bool :=
  decide (d.code < 256) && decide (d.count < 2 ^ 32) && d.params.all fun p => decide (p < 2 ^ 32)

/-- A contribution carries a 16-byte docket (R38, R527). -/
def CollPart.wellFormed (p : CollPart) : Bool := p.docket.length == 16

/-- A CAN FD frame carries at most 64 bytes, a classic one at most 8 (R757). -/
def CanFrame.wellFormed (f : CanFrame) : Bool := decide (f.data.length ≤ if f.fdf then 64 else 8)

/-- A class byte of the fault log (R575). -/
def FaultIn.wellFormed (f : FaultIn) : Bool := decide (f.cls < 256)

/-- A regulator's voltage is a 16-bit number of mV (R661). -/
def RegulatorAnswer.wellFormed (a : RegulatorAnswer) : Bool := decide (a.vout < 2 ^ 16)

/-- Whether a command is well-formed. -/
def Instr.wellFormed : Instr → Bool
  | .ping _ l | .unloadPlan _ l | .readTensor _ l | .sweep _ l | .select _ l | .solve _ l | .queryDaybook _ l
  | .readLedger _ l | .timeAlign _ l | .seal _ l | .unseal _ l | .setKey _ l | .inject _ l | .enterSafeA _ l
  | .leaveSafeA _ l | .rotate _ l | .suspectClear _ l | .fence _ l | .cancel _ l | .undefinedOpcodeLetter _ _ l =>
    l.wellFormed
  | .loadPlan _ l _ | .runPlan _ l _ | .writeTensor _ l _ | .worldUpdate _ l _ | .setPartition _ l _ => l.wellFormed
  | .strictOperatorStart _ _ op => op.blt 4096
  | .timetableSlotStart slot => slot.blt 512
  | .refreshSlot slot _ => slot.blt 512
  | .framePublish _ _ slot => slot.blt 8
  | .flitReceive _ bytes => bytes.length == 256
  | .peerMirrorEntry _ _ entry => entry.length == 128
  | .contrib _ d _ => d.wellFormed
  | .stagingComplete _ parts => parts.all CollPart.wellFormed
  | .thermalSample readings rails => readings.length == 12 && rails.length == 9
  | .clockMonitorWindow counts => counts.length == 4
  | .voltageSettleEnd a => a.wellFormed
  | .faultReport extra => extra.all FaultIn.wellFormed
  | .startupInjection reports _ => reports.all FaultIn.wellFormed
  | .bootImageLoad slots => slots.length == 2
  | .lpddr5xInitialised margins => margins.length == 4
  | .canFrameReceive _ f => f.wellFormed
  | .bar2Read _ _ len => len != 0 && len.ble 4096
  | .bar2Write _ _ data => data.length != 0 && data.length.ble 4096
  | .doorbellWrite _ _ _ be | .commitGo _ _ be | .latEnWrite _ _ be | .fEnableWrite _ _ _ _ be | .pairRoleWrite _ _ be _
  | .resyncGo _ _ be | .alignGo _ _ be | .postmarkAdjWrite _ _ be | .stepReqWrite _ _ be | .wdgKick _ _ be
  | .chCtrlWrite _ _ _ be _ | .eventWrite _ _ _ be | .eventForce _ _ _ be | .ownerPidWrite _ _ _ be
  | .watchWrite _ _ _ _ be | .bar2BaseWrite _ _ _ _ be | .dbMirrorBaseWrite _ _ _ be => enables be
  | .registerWrite _ off _ be _ => be != 0 && off.toNat % 4 == 0
  | .lastEventPmLo _ _ off _ => off.toNat % 4 == 0
  | _ => true

end Sys2Proof
end

