-- ==== Sys2Proof/Certificates/Slice0/Obligations.lean ====
section
/-! DEFINITION. What the provers are asked to prove of the model, statement by statement. -/

open Sys2Proof Sys2Proof.Machine

/-! ### The machine as a whole -/

/-- A step takes the command at the front of the queue and runs it with the queue's rest. An empty queue idles: the model's
choice (log entry 1). -/
def Obligations.StepRunsTheFrontCommand : Prop :=
  (∀ (c : Instr) (rest : List Instr) (s : State),
    step { s with pending := c :: rest } = exec c { s with pending := rest }) ∧
  (∀ s : State, s.pending = [] → step s = .next s)

/-- No command ends in a fault or a refusal, in whatever state it comes. -/
def Obligations.EveryCommandAnswersANextState : Prop := ∀ (c : Instr) (s : State), ∃ t, exec c s = .next t

/-- From a state whose sparse data are canonical every step leaves such a state, takes at most the front command from the queue,
and changes no fuse (R1, R178, R703). -/
def Obligations.EveryStepKeepsCanonicalDataQueueAndFuses : Prop :=
  ∀ s t : State, Canonical s → step s = .next t →
    Canonical t ∧ t.pending = s.pending.tail ∧ t.fuses = s.fuses

/-- The machine has as many of each thing after every step as before it, and its Beam cache whole lines of LPDDR5X, no two of one
address and partition (R250, R251): channels, partitions, ports, filters with their slots (R373), watches (R587), cores, links, groups
and CAN FD controllers are neither added nor lost. The state after reset has that shape. -/
def Obligations.EveryStepKeepsTheMachinesShape : Prop :=
  (Shaped State.reset ∧ State.reset.safety.watchLast.length = 16 ∧ State.reset.courier.align.sums.length = 6 ∧
    (∀ f ∈ State.reset.filters, f.order.length = 8) ∧ LinesWhole State.reset ∧ LinesInDram State.reset) ∧
  (∀ s t : State, step s = .next t →
    (Shaped s → Shaped t) ∧ (s.safety.watchLast.length = 16 → t.safety.watchLast.length = 16) ∧
    (s.courier.align.sums.length = 6 → t.courier.align.sums.length = 6) ∧
    ((∀ f ∈ s.filters, f.order.length = 8) → ∀ f ∈ t.filters, f.order.length = 8) ∧
    (LinesWhole s → LinesWhole t) ∧ (LinesInDram s → LinesInDram t))

/-- The state after reset is canonical, its queue is empty and nothing is listed in its memories. -/
def Obligations.ResetStateIsCanonicalAndEmpty : Prop :=
  Canonical State.reset ∧ State.reset.pending = [] ∧ State.reset.regs = [] ∧
    ∀ a, memByte State.reset a = 0

/-! ### Postmark time -/

/-- What the edges of PM_CLK do to the counter: a plain tick (R146), a positive adjustment applied whole (R165), the held cycle
of a slew (R166), the start at tick 0 (R147) and the loss (R149). A word that an upset has struck beyond correction is marked (R225, R228). What reading and writing the counter's registers does: a
POSTMARK_LO read latches the requester's shadows (R161), a POSTMARK_ADJ write replaces the adjustment (R164, R168) and is
refused during an alignment (R170), a LO half latches the HI shadow of its pair (R734), and a deferred TIME_ALIGN writes once
the alignment has ended (R170). -/
def Obligations.PostmarkTimeCountsLatchesAndAdjusts : Prop :=
  (∀ s : State, s.time.running = true → s.time.clkLost = false → adjLeft s = 0 → EdgeQuiet s →
    Runs (.postmarkTick []) s fun t =>
      now t = (now s + 1) % 2 ^ 64 ∧ adjLeft t = 0 ∧
      t.time = { s.time with counter := t.time.counter, prev := s.time.counter, delayed := false } ∧ EdgeFrame [] s t) ∧
  (∀ (w : Nat) (s : State), s.time.running = true → s.time.clkLost = false → adjLeft s = 0 → EdgeQuiet s →
    rangeOf s (w * 8) ≠ .none → eccAt s (w * 8) = none →
    Runs (.postmarkTick [.word w true]) s fun t =>
      now t = (now s + 1) % 2 ^ 64 ∧ eccAt t (w * 8) = some .uncorr ∧ (∀ v, v ≠ w → eccAt t (v * 8) = eccAt s (v * 8)) ∧
      SameBytes s t ∧ EdgeFrame [] { s with ecc := t.ecc } t) ∧
  (∀ s : State, s.time.running = true → s.time.clkLost = false → s.time.delayed = false → 0 < adjLeft s → EdgeQuiet s →
    Runs .postmarkStep s fun t =>
      (now t : Int) = (now s + adjLeft s + 1) % 2 ^ 64 ∧ adjLeft t = 0 ∧
      fget t Fd.postmark_ADJ_COUNT = (fget s Fd.postmark_ADJ_COUNT + 1) % 2 ^ 32 ∧
      t.time = { s.time with counter := t.time.counter, prev := s.time.counter } ∧
      EdgeFrame [Fd.postmark_POSTMARK_ADJ.word, Fd.postmark_ADJ_COUNT.word] s t) ∧
  (∀ s : State, s.time.running = true → s.time.clkLost = false → s.time.delayed = false → adjLeft s < 0 →
    s.time.slewRun = 999 → EdgeQuiet s →
    Runs .postmarkSlewHold s fun t =>
      now t = now s ∧ adjLeft t = adjLeft s + 1 ∧
      fget t Fd.postmark_SLEW_HOLD_COUNT = (fget s Fd.postmark_SLEW_HOLD_COUNT + 1) % 2 ^ 32 ∧
      fget t Fd.postmark_ADJ_COUNT = (fget s Fd.postmark_ADJ_COUNT + if adjLeft s = -1 then 1 else 0) % 2 ^ 32 ∧
      t.time = { s.time with slewRun := 0, prev := s.time.counter } ∧
      EdgeFrame [Fd.postmark_POSTMARK_ADJ.word, Fd.postmark_SLEW_HOLD_COUNT.word, Fd.postmark_ADJ_COUNT.word] s t) ∧
  (∀ s : State, s.boot.powerGood = true → s.boot.holdup = false → s.time.running = false → s.time.clkLost = false →
    Runs .postmarkCounterStart s fun t =>
      now t = 0 ∧ t.time.running = true ∧ fget t Fd.ident_BOOT_STAGE = 1 ∧ WordsBut [Fd.ident_BOOT_STAGE.word] s t ∧
      t = { s with regs := t.regs, time := { s.time with running := true, counter := 0, prev := 0 } }) ∧
  (∀ s : State, s.boot.aon = true → s.time.clkLost = false →
    Runs .pmClkLoss s fun t =>
      t = { s with
        time := { s.time with clkLost := true }
        safety := { s.safety with bus := s.safety.bus ++ [⟨0x15, 0xF, 0xF, 0, 0x003, 0, now s, 0, 0⟩] } }) ∧
  (∀ (q : Requester) (wide : Bool) (s : State), writeReaches s q 0x003 0x040 = true →
    Runs (.postmarkLoRead q wide) s fun t =>
      t.completion = leBytes 4 (now s) ++ (if wide then leBytes 4 (now s / 2 ^ 32) else []) ∧
      timeShadow t q = ⟨BitVec.ofNat 32 (now s / 2 ^ 32), BitVec.ofNat 32 (now s / 25000000),
        BitVec.ofNat 32 (now s % 25000000), s.time.epoch⟩ ∧
      OtherShadows q s t ∧
      t = { s with time := { s.time with shadows := t.time.shadows }, completion := t.completion }) ∧
  (∀ (q : Requester) (v : W32) (be : BitVec 4) (s : State), writeReaches s q 0x003 0x054 = true →
    fget s (Fd.hdr_LOCK 0x003) = 0 → fget s Fd.postmark_ALIGN_ACTIVE = 0 → be ≠ 0 →
    Runs (.postmarkAdjWrite q v be) s fun t =>
      fget t Fd.postmark_POSTMARK_ADJ = (mergeWord32 (fget s Fd.postmark_POSTMARK_ADJ) v be).toNat ∧
      t.time = { s.time with slewRun := 0
                             delayed := fget t Fd.postmark_POSTMARK_ADJ != 0 && (now s + 1) % 25000000 == 0 } ∧
      WordsBut [Fd.postmark_POSTMARK_ADJ.word] s t ∧
      t = { s with regs := t.regs, time := t.time, safety := sameSafety s t }) ∧
  (∀ (q : Requester) (v : W32) (be : BitVec 4) (s : State), writeReaches s q 0x003 0x054 = true →
    fget s (Fd.hdr_LOCK 0x003) = 0 → fget s Fd.postmark_ALIGN_ACTIVE = 1 → be ≠ 0 →
    Runs (.postmarkAdjWrite q v be) s fun t =>
      fget t Fd.postmark_ADJ_REFUSED_COUNT = (fget s Fd.postmark_ADJ_REFUSED_COUNT + 1) % 2 ^ 32 ∧
      WordsBut [Fd.postmark_ADJ_REFUSED_COUNT.word] s t ∧
      t = { s with regs := t.regs }) ∧
  (∀ (q : Requester) (page off : BitVec 12) (wide : Bool) (s : State), pairLo page.toNat off.toNat = true →
    writeReaches s q page.toNat off.toNat = true →
    Runs (.lastEventPmLo q page off wide) s fun t =>
      t.completion = leBytes 4 (regRead s q page.toNat off.toNat) ++
        (if wide then leBytes 4 (pairHiNow s page.toNat off.toNat) else []) ∧
      hiShadow t q page.toNat (off.toNat + 4) = pairHiNow s page.toNat off.toNat % 2 ^ 32 ∧
      t = { s with time := { s.time with hiShadows := t.time.hiShadows }, completion := t.completion })

/-- A POSTMARK_LO read leaves every other requester's shadows as they were. -/
def Obligations.TimeShadowsBelongToTheirRequester : Prop :=
  ∀ (q r : Requester) (wide : Bool) (s t : State), r ≠ q → exec (.postmarkLoRead q wide) s = .next t →
    timeShadow t r = timeShadow s r

/-! ### Clock steps, fast domains and monitors -/

/-- Clock steps and fast domains: a request for another step (R179, R180), the end of a voltage settling (R180, R182), a relock
done (R181), and the start and stop of a fast domain (R173, R174). -/
def Obligations.ClockStepsFollowTheirSequence : Prop :=
  (∀ (q : Requester) (v : W32) (be : BitVec 4) (s : State), writeReaches s q 0x002 0x040 = true →
    fget s (Fd.hdr_LOCK 0x002) = 0 → be.getLsbD 0 = true → s.power.emerg = false → s.power.phase = .idle →
    v.toNat % 8 ≠ fget s Fd.power_STEP_CUR →
    Runs (.stepReqWrite q v be) s fun t =>
      fget t Fd.power_STEP_REQ = v.toNat % 8 ∧ fget t Fd.power_STEP_PENDING = 1 ∧
      fget t Fd.power_STEP_CUR = fget s Fd.power_STEP_CUR ∧ t.power.target = v.toNat % 8 ∧
      (v.toNat % 8 < fget s Fd.power_STEP_CUR →
        fget t Fd.power_VCORE_CMD_MV = stepMv s (v.toNat % 8) ∧ t.power.phase = .raising ∧
        t.power.waitEnd = now s + fget s Fd.power_VSETTLE_PT) ∧
      (fget s Fd.power_STEP_CUR < v.toNat % 8 →
        t.power.phase = if anyStrict s = true ∨ fget s Fd.power_DOMAIN_RUN = 0 then .ready else .relock) ∧
      t = { s with regs := t.regs, power := t.power, refresh := t.refresh, safety := sameSafety s t, outbox := t.outbox }) ∧
  (∀ (ans : RegulatorAnswer) (s : State), s.power.phase = .raising → s.power.waitEnd ≤ now s → confirmed s ans = true →
    Runs (.voltageSettleEnd ans) s fun t =>
      fget t Fd.power_VCORE_READ_MV = ans.vout % 2 ^ 10 ∧ fget t Fd.power_STEP_CUR = fget s Fd.power_STEP_CUR ∧
      t.power.phase = (if anyStrict s = true ∨ fget s Fd.power_DOMAIN_RUN = 0 then .ready else .relock) ∧
      t = { s with regs := t.regs, power := { s.power with phase := t.power.phase, heldMv := none }, refresh := t.refresh }) ∧
  (∀ (ans : RegulatorAnswer) (s : State), s.power.phase = .raising → s.power.waitEnd ≤ now s → confirmed s ans = false →
    Runs (.voltageSettleEnd ans) s fun t =>
      fget t Fd.power_VCORE_CMD_MV = stepMv s (fget s Fd.power_STEP_CUR) ∧ fget t Fd.power_STEP_PENDING = 0 ∧
      fget t Fd.power_STEP_CUR = fget s Fd.power_STEP_CUR ∧ fget t Fd.power_STEP_REQ = fget s Fd.power_STEP_REQ ∧
      HasEvent t 0x002 8 ∧ t.power.phase = .idle ∧
      t = { s with regs := t.regs, power := { s.power with phase := .idle, heldMv := none }, outbox := t.outbox }) ∧
  (∀ s : State, s.power.phase = .relock → s.power.target ≤ 7 →
    Runs .stepRelockDone s fun t =>
      fget t Fd.power_STEP_CUR = s.power.target ∧
      fget t Fd.power_STEP_CHANGE_COUNT = (fget s Fd.power_STEP_CHANGE_COUNT + 1) % 2 ^ 32 ∧
      (fget s Fd.power_STEP_CUR < s.power.target →
        t.power.phase = .lowering ∧ fget t Fd.power_VCORE_CMD_MV = stepMv s s.power.target ∧
        t.power.waitEnd = now s + fget s Fd.power_VSETTLE_PT) ∧
      t.power.relockEnd = now s ∧ t = { s with regs := t.regs, power := t.power, refresh := t.refresh, outbox := t.outbox }) ∧
  (∀ (d : Fin 4) (s : State), s.boot.powerGood = true → s.boot.holdup = false → domainRuns s d = false →
    domainHeld s d = true →
    Runs (.fastDomainWake d) s fun t =>
      domainRuns t d = true ∧ domainRuns t 3 = true ∧
      fget t (Fd.power_WAKE_COUNT d) = (fget s (Fd.power_WAKE_COUNT d) + 1) % 2 ^ 32 ∧
      WordsBut [Fd.power_DOMAIN_RUN.word, (Fd.power_WAKE_COUNT d).word, (Fd.power_WAKE_COUNT 3).word,
        Fd.dram_OWED_MAX.word] s t ∧
      t = { s with regs := t.regs, power := { s.power with phase := t.power.phase }, refresh := t.refresh
                   sched := { s.sched with tasks := t.sched.tasks } }) ∧
  (∀ (d : Fin 4) (s : State), domainRuns s d = true → domainHeld s d = false → fget s (Fd.power_FC_IDLE_PT d) ≠ 0 →
    fget s (Fd.power_FC_IDLE_PT d) ≤ s.power.idle.getD d 0 →
    Runs (.fastDomainStop d) s fun t =>
      domainRuns t d = false ∧ WordsBut [Fd.power_DOMAIN_RUN.word] s t ∧ t = { s with regs := t.regs })

/-- The monitors: a thermal sample stores what it read and forces the emergency step (R187, R600), the emergency ends (R188), a
clock count is judged (R597) unless a relock falls into its window, and so is a rail (R598, R599); VDD_AON out of its window starts the hold-up
flush (R683). -/
def Obligations.MonitorsStoreAndJudge : Prop :=
  (∀ (readings : List (BitVec 8)) (rails : List Nat) (s : State), readings.length = 12 → rails.length = 9 →
    s.boot.powerGood = true → s.safety.sampleNext ≤ now s ∨ s.time.clkLost = true →
    Runs (.thermalSample readings rails) s fun t =>
      (∀ i < 12, fget t (Fd.mon_SENSOR_TJ i) = (readings.getD i 0).toNat) ∧
      (∀ k < 9, fget t (Fd.mon_RAIL_MV k) = rails.getD k 0 % 2 ^ 16) ∧
      fget t Fd.mon_TJ_NOW = ofSigned 8 (hottest readings) ∧
      (emergTj s ≤ hottest readings → s.power.emerg = false →
        fget t Fd.power_EMERG_ACTIVE = 1 ∧ t.power.emerg = true ∧ t.power.target = max 5 (fget s Fd.power_STEP_CUR) ∧
        fget t Fd.mon_THERM_EMERG_COUNT = (fget s Fd.mon_THERM_EMERG_COUNT + 1) % 2 ^ 32) ∧
      (hottest readings < emergTj s → t.power.emerg = s.power.emerg) ∧
      (135 < hottest readings → s.power.hotSamples = 1 → OnBus t 0x19 0x0A0) ∧
      t = { s with regs := t.regs, power := t.power, refresh := t.refresh, sched := { s.sched with tasks := t.sched.tasks }
                   safety := { s.safety with bus := t.safety.bus, condLast := t.safety.condLast
                                             sampleNext := s.safety.sampleNext + 250 }
                   ledger := t.ledger, outbox := t.outbox }) ∧
  (∀ s : State, s.power.emerg = true → s.power.emergOver = false → s.power.phase ≠ .relock →
    fget s Fd.power_STEP_REQ = fget s Fd.power_STEP_CUR → CoolFor 25000000 s →
    Runs .thermalEmergencyExit s fun t =>
      fget t Fd.power_EMERG_ACTIVE = 0 ∧ fget t Fd.mon_EMERG_ACTIVE = 0 ∧ t.power.emerg = false ∧
      WordsBut [Fd.power_EMERG_ACTIVE.word, Fd.mon_EMERG_ACTIVE.word] s t ∧
      t = { s with regs := t.regs, power := t.power }) ∧
  (∀ s : State, s.power.emerg = true → s.power.emergOver = false → s.power.phase ≠ .relock → s.power.phase ≠ .lowering →
    fget s Fd.power_STEP_REQ ≠ fget s Fd.power_STEP_CUR → CoolFor 25000000 s →
    Runs .thermalEmergencyExit s fun t =>
      fget t Fd.power_STEP_PENDING = 1 ∧ fget t Fd.power_EMERG_ACTIVE = fget s Fd.power_EMERG_ACTIVE ∧
      t.power.target = fget s Fd.power_STEP_REQ ∧ t.power.emergOver = true ∧
      t = { s with regs := t.regs, power := t.power, refresh := t.refresh, outbox := t.outbox }) ∧
  (∀ (counts : List (Option Nat)) (s : State), counts.length = 4 → s.safety.clockNext ≤ now s →
    windowRelocked s s.safety.clockNext = false →
    Runs (.clockMonitorWindow counts) s fun t =>
      (∀ d < 4, domainRuns s d = true → clockBad s d (counts.getD d none) = true → OnBus t 0x14 0x002) ∧
      ((∀ d < 4, domainRuns s d = true → clockBad s d (counts.getD d none) = false) → t.safety.bus = s.safety.bus) ∧
      t = { s with safety := { s.safety with bus := t.safety.bus, condLast := t.safety.condLast
                                             clockNext := s.safety.clockNext + 250 } }) ∧
  (∀ (counts : List (Option Nat)) (s : State), s.safety.clockNext ≤ now s → windowRelocked s s.safety.clockNext = true →
    Runs (.clockMonitorWindow counts) s fun t =>
      t = { s with safety := { s.safety with clockNext := s.safety.clockNext + 250 } }) ∧
  (∀ (rail : Fin 9) (mv : Nat) (s : State), s.boot.aon = true → railOut s rail mv = true →
    rail ≠ 2 ∨ s.boot.powerGood = false ∨ s.boot.holdup = true →
    Runs (.voltageWindowFault rail mv) s fun t =>
      OnBus t 0x16 0x0A0 ∧ HasEvent t 0x0A0 9 ∧ (rail = 0 → 900 < mv → OnBus t 0x17 0x0A0) ∧
      WordsBut ((Fd.mon_VOLT_FAULT_COUNT rail).word :: eventWords 0x0A0) s t ∧
      t = { s with regs := t.regs, safety := { s.safety with bus := t.safety.bus, condLast := t.safety.condLast }
                   outbox := t.outbox }) ∧
  (∀ (mv : Nat) (s : State), s.boot.aon = true → railOut s 2 mv = true → s.boot.powerGood = true → s.boot.holdup = false →
    Runs (.voltageWindowFault 2 mv) s fun t =>
      OnBus t 0x16 0x0A0 ∧ t.boot.holdup = true ∧ t.boot.ready = false ∧ MramOnly s t ∧ t.letters = [] ∧ t.nvm = s.nvm)

/-! ### Memory -/

/-- A BAR2 read that the firewall permits completes with the stored bytes (R243, R244), and one it blocks completes poisoned and
is counted and reported (R271, R272). A permitted BAR2 write stores its bytes there and nowhere else, and a blocked one changes no
byte (R270, R272). An access of a partition whose accesses pass through the pool is seen through it (R254). An access that LPDDR5X cannot take now waits behind those that wait already (R248). -/
def Obligations.Bar2AccessesPassOrAreBlocked : Prop :=
  (∀ (f : Fin 16) (off : W64) (len p : Nat) (s : State), s.pins.linkUp = true → f.val ∉ s.lostFns →
    pidOfFn s f = some p → rangePermitted s p (bar2Base s f + off.toNat) len = true →
    pooled s p (bar2Base s f + off.toNat) = false → markedWords s (bar2Base s f + off.toNat) len = [] →
    s.bar2 = [] → bar2Waits s ⟨f, off.toNat, len, none⟩ = false →
    Runs (.bar2Read f off len) s fun t =>
      t = { s with
        completion := memBytes s (bar2Base s f + off.toNat) len
        outbox := s.outbox ++ [.pcie f false (memBytes s (bar2Base s f + off.toNat) len)] }) ∧
  (∀ (f : Fin 16) (off : W64) (len p : Nat) (s : State), s.pins.linkUp = true → f.val ∉ s.lostFns →
    pidOfFn s f = some p → 0 < len → rangePermitted s p (bar2Base s f + off.toNat) len = false →
    s.parity = [] → s.bar2 = [] → bar2Waits s ⟨f, off.toNat, len, none⟩ = false →
    Runs (.bar2Read f off len) s fun t =>
      t.completion = List.replicate len 0xFF ∧ t.outbox.getLast? = some (.pcie f true (List.replicate len 0xFF)) ∧
      fget t (Fd.part_FW_READ_BLOCKED p) = (fget s (Fd.part_FW_READ_BLOCKED p) + 1) % 2 ^ 32 ∧
      HasEvent t (0x060 + p) 8 ∧ OnBus t 0x0B (0x060 + p) ∧
      WordsBut ((Fd.part_FW_READ_BLOCKED p).word :: eventWords (0x060 + p)) s t ∧
      t = { s with regs := t.regs, safety := { s.safety with bus := t.safety.bus }, completion := t.completion
                   outbox := t.outbox }) ∧
  (∀ (f : Fin 16) (off : W64) (data : List Byte) (p : Nat) (s : State), Canonical s → s.pins.linkUp = true →
    f.val ∉ s.lostFns → pidOfFn s f = some p → rangePermitted s p (bar2Base s f + off.toNat) data.length = true →
    pooled s p (bar2Base s f + off.toNat) = false → mramBad s (bar2Base s f + off.toNat) data.length = [] →
    s.bar2 = [] → bar2Waits s ⟨f, off.toNat, data.length, some data⟩ = false →
    Runs (.bar2Write f off data) s fun t =>
      memBytes t (bar2Base s f + off.toNat) data.length = data ∧ BytesBut (bar2Base s f + off.toNat) data.length s t ∧
      t.host = s.host ∧ t.cache = s.cache) ∧
  (∀ (f : Fin 16) (off : W64) (data : List Byte) (p : Nat) (s : State), Canonical s → LinesWhole s → s.pins.linkUp = true →
    f.val ∉ s.lostFns → pidOfFn s f = some p → rangePermitted s p (bar2Base s f + off.toNat) data.length = true →
    pooled s p (bar2Base s f + off.toNat) = true →
    s.bar2 = [] → bar2Waits s ⟨f, off.toNat, data.length, some data⟩ = false →
    Runs (.bar2Write f off data) s fun t =>
      viewFor t p (bar2Base s f + off.toNat) data.length = data ∧ t.host = s.host) ∧
  (∀ (f : Fin 16) (off : W64) (data : List Byte) (p : Nat) (s : State), s.pins.linkUp = true → f.val ∉ s.lostFns →
    pidOfFn s f = some p → data ≠ [] → rangePermitted s p (bar2Base s f + off.toNat) data.length = false →
    s.parity = [] → s.bar2 = [] → bar2Waits s ⟨f, off.toNat, data.length, some data⟩ = false →
    Runs (.bar2Write f off data) s fun t =>
      fget t (Fd.part_FW_WRITE_BLOCKED p) = (fget s (Fd.part_FW_WRITE_BLOCKED p) + 1) % 2 ^ 32 ∧
      HasEvent t (0x060 + p) 8 ∧ OnBus t 0x0B (0x060 + p) ∧
      WordsBut ((Fd.part_FW_WRITE_BLOCKED p).word :: eventWords (0x060 + p)) s t ∧
      t = { s with regs := t.regs, safety := { s.safety with bus := t.safety.bus }, outbox := t.outbox }) ∧
  (∀ (f : Fin 16) (off : W64) (len : Nat) (s : State), s.pins.linkUp = true → f.val ∉ s.lostFns →
    s.bar2 ≠ [] ∨ bar2Waits s ⟨f, off.toNat, len, none⟩ = true →
    Runs (.bar2Read f off len) s fun t => t = { s with bar2 := s.bar2 ++ [⟨f, off.toNat, len, none⟩] }) ∧
  (∀ (f : Fin 16) (off : W64) (data : List Byte) (s : State), s.pins.linkUp = true → f.val ∉ s.lostFns →
    s.bar2 ≠ [] ∨ bar2Waits s ⟨f, off.toNat, data.length, some data⟩ = true →
    Runs (.bar2Write f off data) s fun t => t = { s with bar2 := s.bar2 ++ [⟨f, off.toNat, data.length, some data⟩] })

/-- What a blocked BAR2 access does, and what it answers, does not depend on what the device memory holds. -/
def Obligations.BlockedBar2AccessesTellNothingOfMemory : Prop :=
  ∀ (f : Fin 16) (off : W64) (len : Nat) (data : List Byte) (s t : State) (mem : List Host.Cell) (ecc : List (Nat × EccSt))
    (cache : List CacheLine),
    (∀ p, pidOfFn s f = some p → rangePermitted s p (bar2Base s f + off.toNat) len = false ∧
      rangePermitted s p (bar2Base s f + off.toNat) data.length = false) → 0 < len → data ≠ [] →
    (exec (.bar2Read f off len) s = .next t →
      exec (.bar2Read f off len) { s with mem := mem, ecc := ecc, cache := cache } =
        .next { t with mem := mem, ecc := ecc, cache := cache }) ∧
    (exec (.bar2Write f off data) s = .next t →
      exec (.bar2Write f off data) { s with mem := mem, ecc := ecc, cache := cache } =
        .next { t with mem := mem, ecc := ecc, cache := cache })

/-- Scrubbing visits each array's words in ascending order, corrects a correctable one and reports an uncorrectable one (R227,
R228), the words of the pool's lines among them (R250); refreshes are issued and accounted for in both regimes (R234, R237, R238); a window of corrected errors ends (R578). -/
def Obligations.ScrubAndRefreshKeepMemorySound : Prop :=
  (∀ (array : ScrubArray) (s : State), scrubbedPool s array = none → mapGet 0 s.scrub (scrubKey array) < scrubWords array →
    eccAt s (scrubBase s array + 8 * mapGet 0 s.scrub (scrubKey array)) = some .corr →
    Runs (.scrubCycle array) s fun t =>
      eccAt t (scrubBase s array + 8 * mapGet 0 s.scrub (scrubKey array)) = none ∧
      mapGet 0 t.scrub (scrubKey array) = (mapGet 0 s.scrub (scrubKey array) + 1) % scrubWords array ∧
      fget t (Fd.hdr_ERR_CORR_COUNT (rangePage (rangeOf s (scrubBase s array)))) =
        (fget s (Fd.hdr_ERR_CORR_COUNT (rangePage (rangeOf s (scrubBase s array)))) + 1) % 2 ^ 32 ∧
      t = { s with regs := t.regs, ecc := t.ecc, scrub := t.scrub, safety := { s.safety with corr := t.safety.corr },
                   ledger := t.ledger, outbox := t.outbox }) ∧
  (∀ (array : ScrubArray) (s : State), scrubbedPool s array = none → mapGet 0 s.scrub (scrubKey array) < scrubWords array →
    eccAt s (scrubBase s array + 8 * mapGet 0 s.scrub (scrubKey array)) = some .uncorr →
    Runs (.scrubCycle array) s fun t =>
      fget t (Fd.hdr_ERR_UNCORR_COUNT (rangePage (rangeOf s (scrubBase s array)))) =
        (fget s (Fd.hdr_ERR_UNCORR_COUNT (rangePage (rangeOf s (scrubBase s array)))) + 1) % 2 ^ 32 ∧
      OnBus t 0x01 (rangePage (rangeOf s (scrubBase s array))) ∧
      t = { s with regs := t.regs, scrub := t.scrub, safety := { s.safety with bus := t.safety.bus }, ledger := t.ledger,
                   outbox := t.outbox }) ∧
  (∀ (b : Fin 34) (n : Nat) (l : CacheLine) (w : Nat) (s : State), scrubbedPool s (.beam b) = some n →
    mapGet 0 s.scrub b.val < 393216 → poolWordAt s n (mapGet 0 s.scrub b.val) = some (l, w) → mapFind l.ecc w = some .corr →
    Runs (.scrubCycle (.beam b)) s fun t =>
      t.cache = (s.cache.map fun x => if x = l then { x with ecc := mapDel x.ecc w } else x) ∧
      fget t Fd.beam_SCRUB_CORR_COUNT = (fget s Fd.beam_SCRUB_CORR_COUNT + 1) % 2 ^ 32 ∧
      mapGet 0 t.scrub b.val = (mapGet 0 s.scrub b.val + 1) % 393216 ∧ t.mem = s.mem ∧ t.ecc = s.ecc) ∧
  (∀ (mr4 : W16) (s : State), s.boot.dram = true → anyStrict s = false →
    Runs (.refresh mr4) s fun t =>
      fget t Fd.dram_MR4_RATE = mr4.toNat ∧
      t.refresh.owed = owedNow s - (if -8 < owedNow s then max 1 (owedNow s - 8).toNat else 0 : Nat) ∧
      (∀ c < 4, fget t (Fd.dramCnt_REFRESH_ISSUED c) = (fget s (Fd.dramCnt_REFRESH_ISSUED c) +
        if -8 < owedNow s then max 1 (owedNow s - 8).toNat else 0) % 2 ^ 32) ∧
      t = { s with regs := t.regs, ecc := t.ecc, refresh := t.refresh
                   safety := { s.safety with corr := t.safety.corr, bus := t.safety.bus }, ledger := t.ledger
                   outbox := t.outbox }) ∧
  (∀ (slot : Nat) (mr4 : W16) (s : State), s.boot.dram = true → anyStrict s = true → slotOpen s slot = true →
    ttIsWindow s.sched.active slot = false →
    Runs (.refreshSlot slot mr4) s fun t =>
      fget t Fd.dram_MR4_RATE = mr4.toNat ∧
      t.refresh.owed = owedNow s - min (slotUnits s slot) (owedNow s + 8).toNat ∧
      (∀ c < 4, fget t (Fd.dramCnt_REFRESH_ISSUED c) =
        (fget s (Fd.dramCnt_REFRESH_ISSUED c) + min (slotUnits s slot) (owedNow s + 8).toNat) % 2 ^ 32) ∧
      t = { s with regs := t.regs, ecc := t.ecc, refresh := t.refresh
                   safety := { s.safety with corr := t.safety.corr, bus := t.safety.bus }, ledger := t.ledger
                   outbox := t.outbox }) ∧
  (∀ (mr4 : W16) (delayed : List Nat) (s : State), s.boot.dram = true → anyStrict s = true → 8 < owedNow s →
    slotsKeepUp s (mr4Mult mr4.toNat) = false → inRefreshSlot s = false →
    Runs (.refreshOverrun mr4 delayed) s fun t =>
      t.refresh.owed = owedNow s - 1 ∧ OnBus t 0x13 0x080 ∧
      fget t Fd.dram_REFRESH_OVERRUN_COUNT = (fget s Fd.dram_REFRESH_OVERRUN_COUNT + 1) % 2 ^ 32 ∧
      t.sched.tasks.map (·.id) = s.sched.tasks.map (·.id) ∧
      t = { s with regs := t.regs, refresh := t.refresh, sched := { s.sched with tasks := t.sched.tasks }
                   safety := { s.safety with bus := t.safety.bus }, ledger := t.ledger }) ∧
  (∀ s : State, reached s s.safety.corrNext = true →
    Runs .corrRateWindowEnd s fun t =>
      t.safety.corr = [] ∧
      (∀ e ∈ s.safety.corr, e.1 < 81 → fget s Fd.safety_CORR_RATE_MAX < e.2 → OnBus t 0x02 (sourcePage e.1)) ∧
      (¬ (∃ e ∈ s.safety.corr, e.1 ≠ 81 ∧ fget s Fd.safety_CORR_RATE_MAX < e.2) → t.safety.bus = s.safety.bus) ∧
      WordsBut [Fd.beam_COPY_SRC.word, Fd.beam_COPY_DST.word] s t ∧
      t = { s with regs := t.regs, safety := { s.safety with corr := [], bus := t.safety.bus
                                                             corrNext := s.safety.corrNext + 25000000 }
                   ledger := t.ledger, spare := t.spare })

/-! ### The Safety Island -/

/-- A fault report empties the fault bus into the log, counts each class, and gets its reaction (R575, R624-R631); PWR_KILL_N
asserts when it is due (R621); SAFE_IN_N is judged (R632, R638); SAFE_HB toggles on request (R637). -/
def Obligations.FaultsAreLoggedAndGetTheirReaction : Prop :=
  (∀ (extra : List FaultIn) (s : State), s.boot.aon = true → s.boot.holdup = false →
    (∀ f ∈ s.safety.bus, 1 ≤ f.cls ∧ f.cls ≤ 32) →
    Runs (.faultReport extra) s fun t =>
      t.safety.logCount = s.safety.logCount + (faultsNow s extra).length ∧
      (∀ c < 32, fget t (Fd.safety_CLASS_COUNT c) =
        (fget s (Fd.safety_CLASS_COUNT c) + (faultsNow s extra).countP fun f => f.cls == c + 1) % 2 ^ 32) ∧
      ((∃ f ∈ faultsNow s extra, reactionOf f = .safeB) → fget t Fd.safety_SAFE_STATE = 2) ∧
      (¬ (∃ f ∈ faultsNow s extra, reactionOf f = .safeB) → (∃ f ∈ faultsNow s extra, reactionOf f = .safeA) →
        fget t Fd.safety_SAFE_STATE = max 1 (fget s Fd.safety_SAFE_STATE)) ∧
      (¬ (∃ f ∈ faultsNow s extra, reactionOf f = .safeA ∨ reactionOf f = .safeB) →
        fget t Fd.safety_SAFE_STATE = fget s Fd.safety_SAFE_STATE ∧ t.pins = s.pins) ∧
      (fget s Fd.safety_SAFE_STATE = 0 → fget t Fd.safety_SAFE_STATE ≠ 0 → t.pins.safeN = false ∧ t.pins.safeHb = false) ∧
      (∀ f ∈ faultsNow s extra, reactionOf f = .safeA ∨ reactionOf f = .safeB →
        bit (fget t Fd.safety_A_CAUSES) (f.cls - 1) = true) ∧
      t = { s with regs := t.regs, safety := t.safety, ledger := t.ledger, can := t.can, spare := t.spare
                   pins := { s.pins with safeN := t.pins.safeN, safeHb := t.pins.safeHb }
                   daybook := { s.daybook with lastWords := t.daybook.lastWords }, outbox := t.outbox }) ∧
  (∀ (due : Nat) (s : State), s.safety.killDue = some due → s.boot.holdup = false → due ≤ now s →
    Runs .pwrKill s fun t =>
      t = { s with pins := { s.pins with pwrKillN := false }, safety := { s.safety with killDue := none } }) ∧
  (∀ s : State, s.boot.ready = true → s.pins.safeInN = true →
    Runs .safeInNLow s fun t =>
      t = { s with
        pins := { s.pins with safeInN := false }
        safety := { s.safety with bus := s.safety.bus ++ [⟨0x20, 0xF, 0xF, 0, 0x004, 1, now s, 0, 0⟩] } }) ∧
  (∀ s : State, s.boot.ready = false → Runs .safeInNLow s fun t => t = { s with pins := { s.pins with safeInN := false } }) ∧
  (∀ s : State, Runs .safeInNHigh s fun t => t = { s with pins := { s.pins with safeInN := true } }) ∧
  (∀ (requested : Bool) (s : State), s.boot.ready = true → fget s Fd.safety_SAFE_STATE = 0 →
    s.safety.hbLast + 12375 ≤ now s →
    Runs (.safeHbToggle requested) s fun t =>
      t = { s with
        pins := { s.pins with safeHb := if requested then !s.pins.safeHb else s.pins.safeHb }
        safety := { s.safety with hbLast := now s } })

/-- The supervisions that recur: a stream watch (R587), the firmware watchdog's kick and expiry (R593), the signature walk
(R595) and the injections into the comparator and the fault bus (R610). -/
def Obligations.SupervisionsRaiseTheirFaults : Prop :=
  (∀ (w : Fin 16) (s : State), s.boot.ready = true → fget s (Fd.age_MAX_GAP_PT w) ≠ 0 → s.safety.watchLast.length = 16 →
    s.safety.watchLast.getD w 0 + fget s (Fd.age_MAX_GAP_PT w) < now s →
    Runs (.streamGap w) s fun t =>
      OnBus t 0x0D 0x005 ∧ HasEvent t 0x005 9 ∧ bit (fget t Fd.age_GAP_ACTIVE) w = true ∧
      fget t (Fd.age_GAP_COUNT w) = (fget s (Fd.age_GAP_COUNT w) + 1) % 2 ^ 32 ∧
      t.safety.watchLast.getD w 0 = s.safety.watchLast.getD w 0 + fget s (Fd.age_MAX_GAP_PT w) ∧
      WordsBut ([Fd.age_GAP_ACTIVE.word, (Fd.age_GAP_COUNT w).word] ++ eventWords 0x005) s t ∧
      t = { s with regs := t.regs, outbox := t.outbox
                   safety := { s.safety with bus := t.safety.bus, watchLast := t.safety.watchLast
                                             gapOpen := t.safety.gapOpen } }) ∧
  (∀ (q : Requester) (v : W32) (be : BitVec 4) (s : State), writeReaches s q 0x004 0x068 = true → bits (beMask be) 15 0 ≠ 0 →
    s.safety.wdgArmed = true → s.safety.wdgMin ≤ now s - s.safety.wdgLast → now s - s.safety.wdgLast ≤ s.safety.wdgMax →
    (v.toNat &&& beMask be) % 2 ^ 16 = 0xFFFF - fget s Fd.safety_WDG_CHALLENGE →
    Runs (.wdgKick q v be) s fun t =>
      t.safety = { s.safety with goodKicks := s.safety.goodKicks + 1, wdgLast := now s
                                 wdgMin := fget s Fd.safety_WDG_MIN_PT, wdgMax := fget s Fd.safety_WDG_MAX_PT } ∧
      WordsBut ([Fd.safety_WDG_CHALLENGE.word, (Fd.hdr_RSVD_WRITE_COUNT 0x004).word,
        Fd.directory_LAST_RSVD_OFFSET.word] ++ eventWords 0x004) s t ∧
      t = { s with regs := t.regs, safety := t.safety, outbox := t.outbox, freeCount := t.freeCount }) ∧
  (∀ (q : Requester) (v : W32) (be : BitVec 4) (s : State), writeReaches s q 0x004 0x068 = true → bits (beMask be) 15 0 ≠ 0 →
    s.safety.wdgArmed = true →
    (now s - s.safety.wdgLast < s.safety.wdgMin ∨ s.safety.wdgMax < now s - s.safety.wdgLast ∨
      (v.toNat &&& beMask be) % 2 ^ 16 ≠ 0xFFFF - fget s Fd.safety_WDG_CHALLENGE) →
    Runs (.wdgKick q v be) s fun t =>
      t.safety = { s.safety with bus := s.safety.bus ++ [⟨0x10, 0xF, 0xF, 0, 0x004, 0, now s, 0, 0⟩] } ∧
      fget t Fd.safety_WDG_CHALLENGE = fget s Fd.safety_WDG_CHALLENGE ∧
      t = { s with regs := t.regs, safety := t.safety, outbox := t.outbox }) ∧
  (∀ s : State, s.safety.wdgArmed = true → s.safety.wdgLast + s.safety.wdgMax < now s →
    Runs .watchdogExpiry s fun t =>
      t = { s with safety := { s.safety with
        wdgLast := now s, bus := s.safety.bus ++ [⟨0x10, 0xF, 0xF, 0, 0x004, 0, now s, 0, 0⟩] } }) ∧
  (∀ s : State, s.boot.ready = true → s.safety.nextWalk ≤ now s →
    Runs .configSignatureWalk s fun t =>
      t.safety.nextWalk = s.safety.nextWalk + 12500 ∧
      (∀ p ∈ signatureDiffs s, ∃ f ∈ t.safety.bus, f.cls = 0x11 ∧ f.detail = p % 2 ^ 16) ∧
      (signatureDiffs s = [] → t.safety.bus = s.safety.bus ∧ t.safety.walkClean = true) ∧
      t = { s with safety := { s.safety with nextWalk := t.safety.nextWalk, walkClean := t.safety.walkClean
                                             bus := t.safety.bus } }) ∧
  (∀ (bus detected : Bool) (s : State), s.boot.ready = true → injectionDue s bus ≤ now s →
    Runs (.checkerInjection bus detected) s fun t =>
      injectionDue t bus = injectionDue s bus + (if bus then 25000000 else 250000) ∧
      injectionDue t (!bus) = injectionDue s (!bus) ∧
      t.safety.bus = (if detected then s.safety.bus
        else s.safety.bus ++ [⟨0x1A, 0xF, 0xF, 0, 0x004, 0, now s, 0, 0⟩]) ∧
      t = { s with safety := { s.safety with nextInject := t.safety.nextInject, nextBus := t.safety.nextBus
                                             bus := t.safety.bus } })

/-! ### Safety frames -/

/-- The CAN FD controllers: a safety frame is built (R643), transmitted with its ALIVE (R640, R641) or retried (R645), a frame is
received into the mailbox (R757), and a controller goes bus-off and rejoins (R645). -/
def Obligations.CanControllersSendAndStoreFrames : Prop :=
  (∀ (n : Fin 2) (s : State), s.can.length = 2 → s.boot.powerGood = true → s.boot.holdup = false → canQueues s n = true →
    frameWanted s n = true →
    Runs (.safetyFrameBuild n) s fun t =>
      (∃ f, (canOf t n).safety = some f ∧ leAt f.bytes 0 1 = 0x51 ∧ leAt f.bytes 2 1 = fget t Fd.safety_SAFE_STATE ∧
        leAt f.bytes 6 2 = s.time.epoch.toNat) ∧
      (canOf t n).due = false ∧ (canOf t n).lastBuilt = now s ∧ canOf t (1 - n) = canOf s (1 - n) ∧
      t = { s with can := t.can }) ∧
  (∀ (n : Fin 2) (f : SafetyFrame) (s : State), s.can.length = 2 → canSends s n = true → fget s (Fd.can_SF_EN n) = 1 →
    (canOf s n).bus = none → (canOf s n).safety = some f →
    Runs (.canFrameTransmit n true) s fun t =>
      t.outbox = s.outbox ++ [.can n (frameIdent s n true) (sealFrame s n (fget s (Fd.can_SF_ALIVE n) + 1) f.bytes)] ∧
      fget t (Fd.can_SF_ALIVE n) = (fget s (Fd.can_SF_ALIVE n) + 1) % 2 ^ 8 ∧
      fget t (Fd.can_SF_TX_COUNT n) = (fget s (Fd.can_SF_TX_COUNT n) + 1) % 2 ^ 32 ∧
      (canOf t n).safety = none ∧ (canOf t n).bus = none ∧ (canOf t n).diag = (canOf s n).diag ∧
      canOf t (1 - n) = canOf s (1 - n) ∧ PagesBut [0x088 + n.val] s t ∧
      t = { s with regs := t.regs, can := t.can, outbox := t.outbox, freeCount := t.freeCount }) ∧
  (∀ (n : Fin 2) (f : Bool × List Byte) (s : State), s.can.length = 2 → canSends s n = true → (canOf s n).bus = some f →
    Runs (.canFrameTransmit n false) s fun t =>
      (canOf t n).bus = some f ∧ HasEvent t (0x088 + n) 10 ∧
      fget t (Fd.can_TX_RETRY_COUNT n) = (fget s (Fd.can_TX_RETRY_COUNT n) + 1) % 2 ^ 32 ∧
      PagesBut [0x088 + n.val] s t ∧ t = { s with regs := t.regs, outbox := t.outbox, freeCount := t.freeCount }) ∧
  (∀ (n : Fin 2) (frame : CanFrame) (s : State), s.can.length = 2 → canListens s n = true → frame.wellFormed = true →
    frame.data.length = dlcBytes frame.fdf frame.dlc → frame.ide = true ∨ frame.ident.toNat < 2 ^ 11 →
    Runs (.canFrameReceive n frame) s fun t =>
      (canOf t n).mailbox = (frame :: (canOf s n).mailbox).take 8 ∧ HasEvent t (0x088 + n) 9 ∧
      fget t (Fd.can_RX_COUNT n) = (fget s (Fd.can_RX_COUNT n) + 1) % 2 ^ 32 ∧
      canOf t (1 - n) = canOf s (1 - n) ∧ PagesBut [0x088 + n.val] s t ∧
      t = { s with regs := t.regs, can := t.can, outbox := t.outbox, freeCount := t.freeCount }) ∧
  (∀ (n : Fin 2) (s : State), canSends s n = true →
    Runs (.busOff n false) s fun t =>
      fget t (Fd.can_BUS_OFF n) = 1 ∧ HasEvent t (0x088 + n) 8 ∧
      fget t (Fd.can_CAN_BUSOFF_COUNT n) = (fget s (Fd.can_CAN_BUSOFF_COUNT n) + 1) % 2 ^ 32 ∧
      t.safety.bus = s.safety.bus ∧ PagesBut [0x088 + n.val] s t ∧
      t = { s with regs := t.regs, ledger := t.ledger, outbox := t.outbox, freeCount := t.freeCount }) ∧
  (∀ (n : Fin 2) (s : State), fget s (Fd.can_BUS_OFF n) = 1 →
    Runs (.busOff n true) s fun t =>
      fget t (Fd.can_BUS_OFF n) = 0 ∧ PagesBut [0x088 + n.val] s t ∧
      t = { s with regs := t.regs, freeCount := t.freeCount })

/-! ### Rotating tests and sparing -/

/-- A rotating test starts on a spare in place unless a takeover has reserved it (R19), claims the lowest free spare for an active unit, or is deferred (R606, R607,
R611); a deferred one is retried (R611); a unit whose last pass is too old is reported (R611). A takeover gives the spare the
unit's logical identity and puts the unit under test (R607), as a finished bank copy does (R608); a test segment counts (R609);
a test that passes leaves a spare (R607), one that fails maps the unit out (R612). -/
def Obligations.RotatingTestsRunAndTakeUnitsOver : Prop :=
  (∀ (kind : TestKind) (u : Nat) (s : State), s.boot.ready = true → s.boot.holdup = false → testing s (testNo kind) = false →
    s.spare.nextTest.getD (testNo kind) 0 ≤ now s → chooseUnit s (testNo kind) = some u → u < physCount (testNo kind) →
    returnable s (testNo kind) u = false → testNo kind < 4 → roleOf s (testNo kind) u = 1 →
    reserved s (testNo kind) u = false →
    Runs (.rotatingTestStart kind) s fun t =>
      mapFind t.spare.tests (testNo kind) = some ⟨u, none, 0, false, now s, 0⟩ ∧ roleOf t (testNo kind) u = 3 ∧
      t = { s with regs := t.regs, spare := t.spare, ledger := t.ledger }) ∧
  (∀ (kind : TestKind) (u : Nat) (s : State), s.boot.ready = true → s.boot.holdup = false →
    testing s (testNo kind) = false → s.spare.nextTest.getD (testNo kind) 0 ≤ now s →
    chooseUnit s (testNo kind) = some u → returnable s (testNo kind) u = false → testNo kind < 4 →
    roleOf s (testNo kind) u = 1 → reserved s (testNo kind) u = true →
    Runs (.rotatingTestStart kind) s fun t =>
      fget t Fd.safety_ROT_DEFER_COUNT = (fget s Fd.safety_ROT_DEFER_COUNT + 1) % 2 ^ 32 ∧
      mapFind t.spare.deferred (testNo kind) = some (now s + 25000) ∧ t.spare.takeovers = s.spare.takeovers ∧
      WordsBut [Fd.safety_ROT_DEFER_COUNT.word] s t ∧
      t = { s with regs := t.regs, ledger := t.ledger, spare := t.spare }) ∧
  (∀ (kind : TestKind) (u f : Nat) (s : State), s.boot.ready = true → s.boot.holdup = false →
    testing s (testNo kind) = false → s.spare.nextTest.getD (testNo kind) 0 ≤ now s →
    chooseUnit s (testNo kind) = some u → returnable s (testNo kind) u = false → testNo kind < 3 →
    roleOf s (testNo kind) u ≠ 1 → freeSpare s (testNo kind) = some f →
    Runs (.rotatingTestStart kind) s fun t =>
      t.spare.takeovers = s.spare.takeovers ++ [(testNo kind, u, f, 2)] ∧
      t.spare.nextTest = s.spare.nextTest.set (testNo kind) (now s + rotStep s (testNo kind)) ∧
      t = { s with spare := t.spare }) ∧
  (∀ (kind : TestKind) (u : Nat) (s : State), s.boot.ready = true → s.boot.holdup = false →
    testing s (testNo kind) = false → s.spare.nextTest.getD (testNo kind) 0 ≤ now s →
    chooseUnit s (testNo kind) = some u → returnable s (testNo kind) u = false → testNo kind < 4 →
    roleOf s (testNo kind) u ≠ 1 → freeSpare s (testNo kind) = none →
    Runs (.rotatingTestStart kind) s fun t =>
      fget t Fd.safety_ROT_DEFER_COUNT = (fget s Fd.safety_ROT_DEFER_COUNT + 1) % 2 ^ 32 ∧
      mapFind t.spare.deferred (testNo kind) = some (now s + 25000) ∧
      WordsBut [Fd.safety_ROT_DEFER_COUNT.word] s t ∧
      t = { s with regs := t.regs, ledger := t.ledger, spare := t.spare }) ∧
  (∀ (kind : TestKind) (at_ u f : Nat) (s : State), mapFind s.spare.deferred (testNo kind) = some at_ → at_ ≤ now s →
    testing s (testNo kind) = false → chooseUnit s (testNo kind) = some u → returnable s (testNo kind) u = false →
    testNo kind < 3 → roleOf s (testNo kind) u ≠ 1 → freeSpare s (testNo kind) = some f →
    Runs (.deferredTestRetry kind) s fun t =>
      t.spare.takeovers = s.spare.takeovers ++ [(testNo kind, u, f, 2)] ∧
      mapFind t.spare.deferred (testNo kind) = none ∧ t = { s with spare := t.spare }) ∧
  (∀ (kind : TestKind) (unit : Nat) (s : State), s.boot.ready = true → unit < physCount (testNo kind) →
    roleOf s (testNo kind) unit ≠ 2 → 0 < fget s Fd.safety_ROT_PERIOD_S →
    2 * (fget s Fd.safety_ROT_PERIOD_S * 1000) * (mapGet 0 s.spare.lateRaised (testNo kind * 64 + unit) + 1) <
      testAge s (testNo kind) unit →
    Runs (.latentOverdue kind unit) s fun t =>
      OnBus t 0x1F (testPage (testNo kind) unit) ∧
      mapGet 0 t.spare.lateRaised (testNo kind * 64 + unit) = mapGet 0 s.spare.lateRaised (testNo kind * 64 + unit) + 1 ∧
      t = { s with spare := t.spare
                   safety := { s.safety with bus := t.safety.bus, latentOpen := t.safety.latentOpen } }) ∧
  (∀ (kind : TestKind) (u f : Nat) (s : State), (nextTakeover s (testNo kind)).map (·.2) = some (u, f, 2) →
    testNo kind < 4 → u < physCount (testNo kind) → f < physCount (testNo kind) → u ≠ f →
    Runs (.spareTakeover kind) s fun t =>
      roleOf t (testNo kind) f = 0 ∧ fget t (logicalFld (testNo kind) f) = fget s (logicalFld (testNo kind) u) ∧
      roleOf t (testNo kind) u = 3 ∧ fget t (logicalFld (testNo kind) u) = noLogical (testNo kind) ∧
      mapFind t.spare.tests (testNo kind) = some ⟨u, some f, 0, false, now s, 0⟩ ∧
      t = { s with regs := t.regs, spare := t.spare, ledger := t.ledger }) ∧
  (∀ (b d : Nat) (s : State), s.spare.copyFor = some (b, d, 2) → b < 34 → d < 34 → b ≠ d →
    (∀ x ∈ s.spare.takeovers, ¬ (x.1 = 3 ∧ x.2.2.2 = 4)) →
    Runs .beamCopyComplete s fun t =>
      roleOf t 3 d = 0 ∧ fget t (Fd.beam_LOGICAL d) = fget s (Fd.beam_LOGICAL b) ∧ roleOf t 3 b = 3 ∧
      fget t Fd.beam_COPY_SRC = 0x3F ∧ fget t Fd.beam_COPY_DST = 0x3F ∧ t.spare.copyFor = none ∧
      SameBytes s t ∧ t = { s with regs := t.regs, spare := t.spare, ledger := t.ledger }) ∧
  (∀ (kind : TestKind) (x : TestSt) (s : State), mapFind s.spare.tests (testNo kind) = some x → 4 ≤ testNo kind →
    x.segments < testSegments (testNo kind) → x.segEnd ≤ now s → segmentFits s (testNo kind) x.unit = true →
    Runs (.testSegment kind true) s fun t =>
      mapFind t.spare.tests (testNo kind) = some { x with segments := x.segments + 1, segEnd := now s + 2500 } ∧
      t = { s with spare := { s.spare with tests := t.spare.tests } }) ∧
  (∀ (kind : TestKind) (x : TestSt) (s : State), mapFind s.spare.tests (testNo kind) = some x → x.returning = false →
    testNo kind < 4 → x.unit < physCount (testNo kind) → x.start + testLength (testNo kind) ≤ now s →
    testSegments (testNo kind) ≤ x.segments → x.segEnd ≤ now s →
    Runs (.rotatingTestComplete kind true) s fun t =>
      roleOf t (testNo kind) x.unit = 1 ∧ mapFind t.spare.tests (testNo kind) = none ∧
      fget t Fd.safety_ROT_PASS_COUNT = (fget s Fd.safety_ROT_PASS_COUNT + 1) % 2 ^ 32 ∧
      t = { s with regs := t.regs, ledger := t.ledger, spare := t.spare
                   safety := { s.safety with latentOpen := t.safety.latentOpen } }) ∧
  (∀ (kind : TestKind) (x : TestSt) (s : State), mapFind s.spare.tests (testNo kind) = some x → x.returning = false →
    testNo kind < 4 → x.unit < physCount (testNo kind) → x.start + testLength (testNo kind) ≤ now s →
    testSegments (testNo kind) ≤ x.segments → x.segEnd ≤ now s →
    Runs (.rotatingTestComplete kind false) s fun t =>
      roleOf t (testNo kind) x.unit = 2 ∧ (testNo kind, x.unit) ∈ t.nvm.mapped ∧
      OnBus t 0x1E (testPage (testNo kind) x.unit) ∧ mapFind t.spare.tests (testNo kind) = none ∧
      t = { s with regs := t.regs, ledger := t.ledger, spare := t.spare, outbox := t.outbox
                   nvm := { s.nvm with mapped := t.nvm.mapped }, safety := { s.safety with bus := t.safety.bus } })

/-! ### Start-up and power -/

/-- From the always-on reset to the error injection: power good takes the next power epoch and assigns the units (R153, R673, R703,
R704), the scans set up the Daybook and the Ledger (R110, R693), the injection leaves every SRAM zero (R603-R605). -/
def Obligations.StartUpTakesAnEpochAndScansTheMram : Prop :=
  (∀ s : State, s.boot.aon = false →
    Runs .alwaysOnResetComplete s fun t =>
      t = { s with boot := { s.boot with aon := true }, pins := { s.pins with sysRstN := true } }) ∧
  (∀ (k : Nat) (e : W16) (s : State), s.boot.aon = true → s.boot.powerGood = false → s.pins.sysRstN = true →
    epochRead s = some (k, e) →
    Runs (.powerGood .written) s fun t =>
      t.boot = { s.boot with powerGood := true } ∧ t.time.epoch = epochAfter e ∧
      t.nvm = { s.nvm with
        epochs := s.nvm.epochs.set (1 - k) ⟨[epochAfter e, epochAfter e, epochAfter e], true⟩ } ∧
      fget t Fd.ident_GRADE = s.fuses.grade % 2 ^ 2 ∧
      (∀ k : Nat, k < 4 → ∀ u : Nat, u < physCount k →
        (roleOf t k u = 2 ↔ (k, u) ∈ s.nvm.mapped ∨ (k, u) ∈ s.fuses.mapped)) ∧
      (∀ k : Nat, k < 4 → ∀ u : Nat, u < physCount k → roleOf t k u = 0 →
        fget t (logicalFld k u) = ((List.range u).filter fun v => roleOf t k v == 0).length) ∧
      SameBytes s t ∧ t.daybook = s.daybook ∧ t.ledger = s.ledger ∧ t.safety = s.safety) ∧
  (∀ (res : MramResult) (s : State), s.boot.aon = true → s.boot.powerGood = false → s.pins.sysRstN = true →
    epochRead s = none ∨ res ≠ .written →
    Runs (.powerGood res) s fun t =>
      t.boot = { s.boot with powerGood := true } ∧ t.time.epoch = 0xFFFF ∧ fget t Fd.postmark_EPOCH_UNKNOWN = 1 ∧
      fget t Fd.safety_NVM_FAULT = 1 ∧ OnBus t 0x1C 0x006) ∧
  (∀ s : State, s.boot.powerGood = true → s.boot.scanned = false → s.boot.holdup = false →
    markedWords s 0x30000000 0x200000 = [] →
    Runs .daybookScan s fun t =>
      fget t Fd.daybook_SCAN_DONE = 1 ∧ t.boot = { s.boot with scanned := true } ∧
      t.daybook.jno = ((newestNo ((validSlots s).map (·.2))).map fun n => (n + 1) % 2 ^ 48).getD 0 ∧
      fget t Fd.daybook_DB_DISCARD_COUNT = (fget s Fd.daybook_DB_DISCARD_COUNT + discardedSlots s) % 2 ^ 32 ∧
      WordsBut [Fd.daybook_SCAN_DONE.word, Fd.daybook_DB_DISCARD_COUNT.word, Fd.ident_BOOT_STAGE.word] s t ∧
      t = { s with regs := t.regs, boot := t.boot, daybook := t.daybook }) ∧
  (∀ s : State, s.boot.powerGood = true → s.boot.ledgerScanned = false → s.boot.holdup = false →
    badWords s 0x30200000 0x30300000 = [] →
    Runs .ledgerScan s fun t =>
      fget t Fd.ledger_SCAN_DONE = 1 ∧ t.boot = { s.boot with ledgerScanned := true } ∧
      t.ledger.lno = ((newestNo (ledgerKeys.filterMap fun k => (ledgerTaken s k.1 k.2).map slotLno)).map
        fun n => (n + 1) % 2 ^ 48).getD 0 ∧
      (ledgerVals t 0x01 0).getD 0 0 = min (2 ^ 64 - 1)
        (1 + min (2 ^ 64 - 1) (((ledgerTaken s 0x01 0).map fun b => (dataWords (b.drop 0x10)).getD 0 0).getD 0 +
          (ledgerVals s 0x01 0).getD 0 0)) ∧
      SameBytes s t ∧ t = { s with regs := t.regs, boot := t.boot, ledger := t.ledger, outbox := t.outbox }) ∧
  (∀ (reports : List FaultIn) (s : State), s.boot.scanned = true → s.boot.ledgerScanned = true →
    s.boot.injected = false → s.boot.holdup = false → fget s Fd.safety_SAFE_STATE ≠ 2 →
    Runs (.startupInjection reports []) s fun t =>
      t.boot = { s.boot with injected := true } ∧ t.cache = [] ∧
      (∀ c ∈ t.mem, 0x30000000 ≤ c.1) ∧ (∀ c ∈ s.mem, 0x30000000 ≤ c.1 → c ∈ t.mem) ∧
      fget t Fd.safety_SAFE_STATE = fget s Fd.safety_SAFE_STATE ∧ t.pins = s.pins ∧ t.safety.bus = s.safety.bus ∧
      t.safety.logCount = s.safety.logCount + (reports.filter fun f => 1 ≤ f.cls && f.cls ≤ 0x20).length)

/-- From the boot image to READY: the newer valid image is loaded or start-up ends (R665), the boot layout is installed (R763),
the LPDDR5X is initialised (R674), and the Corod is ready (R674). -/
def Obligations.StartUpLoadsTheImageAndBecomesReady : Prop :=
  (∀ (slots : List (List Byte)) (n : Nat) (s : State), Canonical s → s.boot.injected = true → s.boot.image = none →
    s.boot.failed = false → s.boot.holdup = false → fget s Fd.safety_SAFE_STATE ≠ 2 →
    bootSlot (slots.getD 0 []) (slots.getD 1 []) = some n →
    Runs (.bootImageLoad slots) s fun t =>
      memBytes t 0 (leAt (slots.getD n []) 0x0C 4) = bytesAt (slots.getD n []) 0x40 (leAt (slots.getD n []) 0x0C 4) ∧
      BytesBut 0 (leAt (slots.getD n []) 0x0C 4) s t ∧
      fget t Fd.ident_FW_SEQ = leAt (slots.getD n []) 0x08 4 ∧ fget t Fd.ident_BOOT_SLOT = n ∧
      WordsBut [Fd.ident_FW_SEQ.word, Fd.ident_BOOT_SLOT.word] s t ∧
      t = { s with regs := t.regs, mem := t.mem
                   boot := { s.boot with image := some n, fwArith := leAt (slots.getD n []) 0x04 1 } }) ∧
  (∀ (slots : List (List Byte)) (s : State), s.boot.injected = true → s.boot.image = none →
    s.boot.failed = false → s.boot.holdup = false → fget s Fd.safety_SAFE_STATE ≠ 2 →
    bootSlot (slots.getD 0 []) (slots.getD 1 []) = none →
    Runs (.bootImageLoad slots) s fun t =>
      fget t Fd.ident_BOOT_STAGE = 0xE ∧ t = { s with regs := t.regs, boot := { s.boot with failed := true } }) ∧
  (∀ s : State, s.boot.image.isSome = true → s.boot.layout = false → s.boot.holdup = false →
    fget s Fd.safety_SAFE_STATE ≠ 2 → s.cache = [] → fget s (Fd.part_BEAM_BANKS 0) = 0 →
    fget s (Fd.part_CACHE_BANKS 0) = 0 → regionMask s 0 = 0 →
    Runs .bootLayoutInstall s fun t =>
      fget t Fd.ident_BOOT_STAGE = 3 ∧ t.boot = { s.boot with layout := true } ∧ regimeOf t 0 = 2 ∧
      (∀ u < 9, fget t (Fd.truss_FINISH_REV u) = 3) ∧ SameBytes s t ∧ t.time = s.time ∧ t.nvm = s.nvm) ∧
  (∀ (margins : List (Byte × Byte)) (s : State), margins.length = 4 → s.boot.powerGood = true → s.boot.dram = false →
    s.boot.holdup = false → 950000 ≤ now s →
    Runs (.lpddr5xInitialised margins) s fun t =>
      (∀ c < 4, fget t (Fd.phy_TRAINED c) = 1 ∧
        fget t (Fd.phy_READ_MARGIN c) = (margins.getD c (0, 0)).1.toNat ∧
        fget t (Fd.phy_WRITE_MARGIN c) = (margins.getD c (0, 0)).2.toNat) ∧
      t = { s with regs := t.regs, boot := { s.boot with dram := true }, refresh := { s.refresh with last := now s } }) ∧
  (∀ s : State, mayReady s = true →
    Runs .ready s fun t =>
      fget t Fd.ident_READY = 1 ∧ fget t Fd.ident_BOOT_STAGE = 4 ∧ t.boot = { s.boot with ready := true } ∧
      t.pins = { s.pins with safeN := fget s Fd.safety_SAFE_STATE == 0 } ∧
      t.safety.wdgArmed = true ∧ t.safety.wdgLast = now s ∧ t.safety.nextWalk = now s + 12500 ∧
      (s.pins.safeInN = false → OnBus t 0x20 0x004) ∧
      SameBytes s t ∧ t.letters = s.letters ∧ t.replies = s.replies ∧ t.plans = s.plans ∧ t.nvm = s.nvm)

/-- The loss of main power or a fall of SYS_RST_N starts the hold-up flush (R682, R683, R687), whose end resets the always-on
domain (R684), as a brown-out does at once (R685): of memory only the MRAM keeps its content. -/
def Obligations.PowerLossKeepsOnlyTheMram : Prop :=
  (∀ (vddAon : Bool) (s : State), s.boot.powerGood = true → s.boot.holdup = false →
    Runs (.mainPowerLoss vddAon) s fun t =>
      t.boot.holdup = true ∧ t.boot.ready = false ∧ fget t Fd.ident_BOOT_STAGE = 0xF ∧ fget t Fd.ident_READY = 0 ∧
      t.pins.safeN = false ∧ t.pins.linkUp = false ∧ MramOnly s t ∧ t.letters = [] ∧ t.cache = [] ∧ t.sched.tasks = [] ∧
      t.daybook = s.daybook ∧ t.host = s.host ∧ t.time = s.time ∧ t.nvm = s.nvm ∧
      (s.boot.ledgerScanned = true → fget s Fd.ledger_LEDGER_VOLATILE = 0 →
        (t.ledger.queue.getLast?).map (fun v => (v.cls, v.event)) = some (0x0C, true))) ∧
  (∀ s : State, s.boot.powerGood = true → s.boot.holdup = false →
    Runs .sysRstNFall s fun t =>
      t.pins.sysRstN = false ∧ t.boot.holdup = true ∧ fget t Fd.ident_BOOT_STAGE = 0xF ∧ MramOnly s t ∧
      t.daybook = s.daybook ∧ t.host = s.host ∧ t.time = s.time ∧ t.nvm = s.nvm) ∧
  (∀ s : State, s.boot.holdup = true → flushed s = true →
    Runs .flushComplete s fun t =>
      MramOnly s t ∧ t.regs = [] ∧ t.boot = State.reset.boot ∧ t.time = State.reset.time ∧ t.letters = [] ∧
      t.daybook = State.reset.daybook ∧ t.ledger = State.reset.ledger ∧ t.safety = State.reset.safety ∧
      t.nvm = s.nvm ∧ t.fuses = s.fuses ∧ t.host = s.host ∧ t.pending = s.pending) ∧
  (∀ s : State,
    Runs (.brownOut false) s fun t =>
      MramOnly s t ∧ t.regs = [] ∧ t.boot = State.reset.boot ∧ t.time = State.reset.time ∧ t.letters = [] ∧
      t.daybook = State.reset.daybook ∧ t.nvm = s.nvm ∧ t.fuses = s.fuses ∧ t.host = s.host ∧ t.pending = s.pending)

/-- The host link: PERST_N resets the endpoint alone (R655), a loss stops its traffic and nothing else (R679, R680), the link
comes up with every channel disabled (R655), an FLR disables the function's channels (R656), and configuration requests are
retried until READY (R675). The SMBus target answers each command of R659 from +2 ms on and with NACK what R660 names; the test
access port answers IDCODE and acts on no locked instruction (R667, R668). -/
def Obligations.HostLinkAndSideBandStayAtTheirPort : Prop :=
  (∀ s : State,
    Runs .perstN s fun t =>
      (∀ c < 64, fget t (Fd.chan_ENABLE c) = 0) ∧ t.pins = { s.pins with perstN := false, linkUp := false } ∧
      t.lostFns = List.range 16 ∧ PagesBut [0x008, 0x009, 0x00A, 0x00B] s t ∧
      t = { s with regs := t.regs, pins := t.pins, lostFns := t.lostFns }) ∧
  (∀ s : State, s.pins.linkUp = true →
    Runs .hostLinkLoss s fun t => t = { s with pins := { s.pins with linkUp := false }, lostFns := List.range 16 }) ∧
  (∀ s : State, s.boot.powerGood = true → s.boot.holdup = false → s.pins.linkUp = false →
    Runs .hostLinkUp s fun t =>
      (∀ c < 64, fget t (Fd.chan_ENABLE c) = 0) ∧ t.pins = { s.pins with perstN := true, linkUp := true } ∧
      t.lostFns = [] ∧ PagesBut [0x008, 0x009, 0x00A, 0x00B] s t ∧
      t = { s with regs := t.regs, pins := t.pins, lostFns := t.lostFns }) ∧
  (∀ (f : Fin 16) (s : State), s.pins.linkUp = true →
    Runs (.flr f) s fun t =>
      (∀ c < 64, fget t (Fd.chan_ENABLE c) =
        if ownerFn s (fget s (Fd.chan_PID c)) = f.val then 0 else fget s (Fd.chan_ENABLE c)) ∧
      f.val ∈ t.lostFns ∧ (∀ g ∈ s.lostFns, g ∈ t.lostFns) ∧ PagesBut [0x008, 0x009, 0x00A, 0x00B] s t ∧
      t = { s with regs := t.regs, lostFns := t.lostFns }) ∧
  (∀ (f : Fin 16) (s : State), s.pins.linkUp = true → s.boot.ready = false →
    Runs (.configurationRequest f) s fun t => t = { s with outbox := s.outbox ++ [.retryStatus f] }) ∧
  (∀ (f : Fin 16) (s : State), s.pins.linkUp = true → s.boot.ready = true →
    Runs (.configurationRequest f) s fun t =>
      (∃ bs, t.outbox = s.outbox ++ [.pcie f false bs]) ∧
      t = { s with outbox := t.outbox, freeCount := t.freeCount }) ∧
  (∀ s : State, smbusUp s = true →
    Runs .smbusIdentity s fun t =>
      t = { s with outbox := s.outbox ++ [.smbus (leBytes 2 0x4816 ++ leBytes 1 s.fuses.grade ++ leBytes 1 0xB1 ++
        leBytes 2 (fget s Fd.ident_REPRO_CLASS) ++ leBytes 2 0)] }) ∧
  (∀ s : State, smbusUp s = true →
    Runs .smbusState s fun t =>
      t = { s with outbox := s.outbox ++ [.smbus (leBytes 2 (fget s Fd.ident_BOOT_STAGE +
        16 * fget s Fd.safety_SAFE_STATE + 64 * b2n s.boot.ready + 128 * fget s Fd.safety_NVM_FAULT +
        256 * fget s Fd.daybook_DAYBOOK_VOLATILE))] }) ∧
  (∀ s : State, smbusUp s = true →
    Runs .smbusTj s fun t =>
      t = { s with outbox := s.outbox ++ [.smbus (leBytes 2 (ofSigned 16 (celsius (fget s Fd.mon_TJ_NOW))))] }) ∧
  (∀ s : State, smbusUp s = true →
    Runs .smbusPowerEpoch s fun t => t = { s with outbox := s.outbox ++ [.smbus (leBytes 2 s.time.epoch.toNat)] }) ∧
  (∀ (v : Byte) (s : State), smbusUp s = true → v.toNat ≤ 7 →
    Runs (.smbusLwIndex v) s fun t => t = { s with lwIndex := v.toNat }) ∧
  (∀ (v : Byte) (s : State), smbusUp s = true → 7 < v.toNat →
    Runs (.smbusLwIndex v) s fun t => t = { s with outbox := s.outbox ++ [.smbus []] }) ∧
  (∀ s : State, smbusUp s = true →
    Runs .smbusLwData s fun t =>
      t = { s with outbox := s.outbox ++
        [.smbus (((s.daybook.lastWords[s.lwIndex]?).map lastWordBytes).getD (List.replicate 32 0))] }) ∧
  (∀ (code : Byte) (s : State), smbusUp s = true → code = 0 ∨ 6 < code.toNat →
    Runs (.smbusUndefinedCommand code) s fun t => t = { s with outbox := s.outbox ++ [.smbus []] }) ∧
  (∀ (ir : TapInstr) (s : State), ir ≠ .idcode →
    Runs (.tapInstruction ir) s fun t =>
      t = { s with tapIr := ir } ∧ (s.pins.sysRstN = true → tapActs t .extest = .bypass) ∧
      (s.fuses.grade = 0 → tapActs t .debug = .bypass)) ∧
  (∀ s : State, Runs (.tapInstruction .idcode) s fun t =>
    t = { s with tapIr := .idcode, outbox := s.outbox ++ [.tdo 0x14816565] })

/-! ### The Daybook, the Ledger and the pair -/

/-- A version goes into the slot of its cell that the two-slot commit names, takes the next journal number and commits: its
mirror record is written, its Letter's record has its state, and the Replies that waited for it wait no more (R101, R104, R105,
R107). No other byte of the MRAM changes. A write to the Daybook that fails sets NVM_FAULT, is logged in the last-words buffer
and raises class 0x1C (R137), makes the Daybook volatile and leaves no version queued (R139). -/
def Obligations.JournalWritesCommitOrTurnVolatile : Prop :=
  (∀ (v : Version) (rest : List Version) (s : State), Canonical s → LinesWhole s → LinesInDram s → s.boot.scanned = true →
    dbVolatile s = false → islandFirst s = false → s.daybook.queue = v :: rest → v.cell < cellCount → dramBase ≤ mirrorBase s →
    Runs (.journalWrite .written) s fun t =>
      slotAt t v.cell (targetSlot s v) = slotBytes v s.daybook.jno ∧
      MramBut (slotAddr v.cell (targetSlot s v)) 64 s t ∧
      (pooled s 0 (mirrorAddr s v.ch v.seq) = true → ownView t (mirrorAddr s v.ch v.seq) 64 = slotBytes v s.daybook.jno) ∧
      (pooled s 0 (mirrorAddr s v.ch v.seq) = false → memBytes t (mirrorAddr s v.ch v.seq) 64 = slotBytes v s.daybook.jno) ∧
      t.daybook.jno = (s.daybook.jno + 1) % 2 ^ 48 ∧
      (s.daybook.waiting = [] → t.daybook.queue = rest) ∧
      t.letters = (s.letters.map fun l =>
        if l.ch = v.ch ∧ l.l.seq.toNat = v.seq then
          { l with commit := max l.commit v.state, jno := if v.state = 1 then s.daybook.jno else l.jno } else l) ∧
      t.replies = (s.replies.map fun r =>
        if 3 ≤ v.state ∧ r.ch = v.ch ∧ r.seq = v.seq then { r with waits := false } else r) ∧
      t = { s with regs := t.regs, mem := t.mem, ecc := t.ecc, letters := t.letters, replies := t.replies
                   daybook := t.daybook, cache := t.cache, safety := { s.safety with corr := t.safety.corr, bus := t.safety.bus }
                   ledger := { s.ledger with vals := t.ledger.vals }, outbox := t.outbox }) ∧
  (∀ (res : MramResult) (v : Version) (rest : List Version) (s : State), s.boot.scanned = true → dbVolatile s = false →
    islandFirst s = false → s.daybook.queue = v :: rest → v.cell < cellCount → res ≠ .written →
    Runs (.journalWrite res) s fun t =>
      fget t Fd.daybook_DAYBOOK_VOLATILE = 1 ∧ HasEvent t 0x006 8 ∧ fget t Fd.safety_NVM_FAULT = 1 ∧
      fget t Fd.daybook_NVM_FAULT = 1 ∧ OnBus t 0x1C 0x006 ∧
      t.daybook.lastWords.head? = some ⟨0x1C, s.time.epoch.toNat, slotAddr v.cell (targetSlot s v), now s, s.daybook.jno⟩ ∧
      t.daybook.queue = [] ∧ t.daybook.waiting = [])

/-- A Ledger slot is written to the slot of its cell that is not the newest committed one, takes the next Ledger number and
commits (R690); a write that fails makes the Ledger volatile (R695); the periodic commit queues every record that changed and
stamps LAST_COMMIT_PM (R691). -/
def Obligations.LedgerSlotsCommitOrTurnVolatile : Prop :=
  (∀ (v : LedgerVer) (q : List LedgerVer) (s : State), Canonical s → s.boot.ledgerScanned = true →
    fget s Fd.ledger_LEDGER_VOLATILE = 0 → ledgerNext s = some (v, q) →
    Runs (.ledgerSlotWrite .written) s fun t =>
      ledgerSlot t v.cls v.idx (ledgerTarget s v.cls v.idx) =
        ledgerBytes v.cls v.idx s.time.epoch.toNat s.ledger.lno v.data ∧
      BytesBut (ledgerAddr v.cls v.idx (ledgerTarget s v.cls v.idx)) 64 s t ∧
      t.ledger.lno = (s.ledger.lno + 1) % 2 ^ 48 ∧ ledgerNewest s v.cls v.idx ≠ some (ledgerTarget s v.cls v.idx) ∧
      (s.ledger.waiting = [] → t.ledger.queue = q) ∧
      t = { s with mem := t.mem, ecc := t.ecc, ledger := { s.ledger with
        lno := t.ledger.lno, queue := t.ledger.queue, waiting := t.ledger.waiting, committed := t.ledger.committed } }) ∧
  (∀ (res : MramResult) (v : LedgerVer) (q : List LedgerVer) (s : State), s.boot.ledgerScanned = true →
    fget s Fd.ledger_LEDGER_VOLATILE = 0 → ledgerNext s = some (v, q) → res ≠ .written →
    Runs (.ledgerSlotWrite res) s fun t =>
      fget t Fd.ledger_LEDGER_VOLATILE = 1 ∧ HasEvent t 0x007 8 ∧ fget t Fd.safety_NVM_FAULT = 1 ∧ OnBus t 0x1C 0x007 ∧
      t.ledger.queue = [] ∧ t.ledger.waiting = [] ∧ t.ledger.lno = s.ledger.lno ∧
      PagesBut [0x004, 0x006, 0x007] s t ∧
      t = { s with regs := t.regs, mem := t.mem, ecc := t.ecc, ledger := t.ledger, daybook := t.daybook
                   safety := { s.safety with bus := t.safety.bus }, outbox := t.outbox, freeCount := t.freeCount }) ∧
  (∀ s : State, s.boot.ledgerScanned = true → s.boot.holdup = false → s.time.running = true →
    s.ledger.nextPeriodic ≤ now s → fget s Fd.ledger_LEDGER_VOLATILE = 0 →
    Runs .ledgerPeriodicCommit s fun t =>
      fget t Fd.ledger_LAST_COMMIT_PM_LO = now s % 2 ^ 32 ∧ fget t Fd.ledger_LAST_COMMIT_PM_HI = now s / 2 ^ 32 % 2 ^ 32 ∧
      t.ledger.nextPeriodic = s.ledger.nextPeriodic + 1500000000 ∧ t.ledger.lno = s.ledger.lno ∧
      s.ledger.queue <+: t.ledger.queue ∧
      WordsBut [Fd.ledger_LAST_COMMIT_PM_LO.word, Fd.ledger_LAST_COMMIT_PM_HI.word] s t ∧
      t = { s with regs := t.regs, ledger := t.ledger })

/-- The pair: heartbeats go out every 1,000 pt (R545) and are taken in (R545, R714); a lost peer clears PEER_READY and lets a
standby promote itself (R546, R714, R715); the standby stores the primary's entries (R713) and becomes ready (R714); firmware
sets the role (R711, R718). Here the write keeps the word's read-only bits, so that it counts under no other rule (R742). -/
def Obligations.PairMirrorsAndPromotes : Prop :=
  (∀ s : State, isPair s = true → s.time.running = true → s.boot.holdup = false → pairDown s = false → s.pair.nextSend ≤ now s →
    Runs .heartbeatSend s fun t =>
      t.pair = { s.pair with nextSend := now s + 1000 } ∧
      t = { s with regs := t.regs, pair := t.pair, courier := { s.courier with bundles := t.courier.bundles }
                   outbox := t.outbox }) ∧
  (∀ (flit : FlitIn) (hb : Heartbeat) (s : State), isPair s = true → linkUp s flit.link = true →
    flit.src.toNat = neighbourOf s flit.link → selfPromotes s = false ∨ hb.safe.val = 0 →
    (∀ e ∈ s.pair.peerEpoch, e = hb.epoch.toNat) →
    Runs (.heartbeat flit hb) s fun t =>
      t.pair = { s.pair with lastHb := some (now s), peerEpoch := some hb.epoch.toNat, lost := false } ∧
      WordsBut [Fd.coll_PEER_HB_MISS.word] s t ∧ t = { s with regs := t.regs, pair := t.pair }) ∧
  (∀ (flit : FlitIn) (hb : Heartbeat) (e : Nat) (s : State), isPair s = true → linkUp s flit.link = true →
    flit.src.toNat = neighbourOf s flit.link → s.pair.peerEpoch = some e → e ≠ hb.epoch.toNat →
    Runs (.heartbeat flit hb) s fun t =>
      fget t Fd.daybook_PEER_READY = 0 ∧ t.pair.entries = [] ∧ t.pair.peerEpoch = some hb.epoch.toNat ∧
      (fget s Fd.daybook_PEER_READY = 1 → HasEvent t 0x006 10) ∧
      fget t Fd.daybook_PAIR_ROLE = fget s Fd.daybook_PAIR_ROLE ∧ PagesBut [0x006, 0x07E] s t ∧
      t = { s with regs := t.regs, pair := t.pair, outbox := t.outbox }) ∧
  (∀ s : State, isPair s = true → s.boot.ready = true → fget s Fd.daybook_PAIR_ROLE ≠ 0 → s.pair.lost = false →
    peerGone s = true → selfPromotes s = false →
    Runs .peerLost s fun t =>
      HasEvent t 0x07E 9 ∧ t.pair.lost = true ∧ t.pair.streaming = false ∧ fget t Fd.daybook_PEER_READY = 0 ∧
      fget t Fd.daybook_PAIR_ROLE = fget s Fd.daybook_PAIR_ROLE ∧ PagesBut [0x006, 0x07E] s t ∧
      t = { s with regs := t.regs, pair := t.pair, ledger := t.ledger, outbox := t.outbox }) ∧
  (∀ s : State, isPair s = true → s.boot.ready = true → s.pair.lost = false → peerGone s = true → selfPromotes s = true →
    Runs .peerLost s fun t =>
      fget t Fd.daybook_PAIR_ROLE = 1 ∧ fget t (Fd.can_ROLE 0) = 1 ∧ fget t (Fd.can_ROLE 1) = 1 ∧ HasEvent t 0x006 9 ∧
      HasEvent t 0x006 10 ∧ fget t Fd.daybook_PEER_READY = 0 ∧ HasEvent t 0x07E 9 ∧
      t.chans = ((List.range 64).map fun ch => if peerMasked s ch then peerWindow s ch else chanOf s ch) ∧
      PagesBut [0x006, 0x07E, 0x088, 0x089] s t ∧
      t = { s with regs := t.regs, chans := t.chans, can := t.can, pair := t.pair, ledger := t.ledger
                   outbox := t.outbox }) ∧
  (∀ (ch : Fin 64) (seq : W32) (entry : List Byte) (s : State), Canonical s → LinesWhole s → isPair s = true →
    fget s Fd.daybook_PAIR_ROLE = 2 → pairDown s = false → entry.length = 128 →
    Runs (.peerMirrorEntry ch seq entry) s fun t =>
      (pooled s 0 (entryAddr (peerBase s) ch seq.toNat) = true → ownView t (entryAddr (peerBase s) ch seq.toNat) 128 = entry) ∧
      (pooled s 0 (entryAddr (peerBase s) ch seq.toNat) = false →
        memBytes t (entryAddr (peerBase s) ch seq.toNat) 128 = entry ∧
          BytesBut (entryAddr (peerBase s) ch seq.toNat) 128 s t) ∧
      (ch.val, seq.toNat) ∈ t.pair.entries ∧ t.host = s.host ∧ t.daybook = s.daybook ∧ t.letters = s.letters) ∧
  (∀ s : State, isPair s = true → fget s Fd.daybook_PAIR_ROLE = 2 → pairDown s = false →
    Runs .peerCopyDone s fun t =>
      fget t Fd.daybook_PEER_READY = 1 ∧ WordsBut [Fd.daybook_PEER_READY.word] s t ∧ t = { s with regs := t.regs }) ∧
  (∀ (q : Requester) (v : W32) (be : BitVec 4) (s : State), writeReaches s q 0x006 0x080 = true →
    fget s (Fd.hdr_LOCK 0x006) = 0 → bit be.toNat 0 = true → v.toNat % 4 < 3 → v.toNat / 8 = fget s Fd.daybook_PEER_READY →
    fget s Fd.daybook_PAIR_ROLE ≠ 2 →
    Runs (.pairRoleWrite q v be false) s fun t =>
      fget t Fd.daybook_PAIR_ROLE = v.toNat % 4 ∧
      (fget s Fd.daybook_PAIR_ROLE ≠ v.toNat % 4 → fget t (Fd.can_ROLE 0) = v.toNat % 4 ∧ fget t (Fd.can_ROLE 1) = v.toNat % 4) ∧
      PagesBut [0x006, 0x088, 0x089] s t ∧ t = { s with regs := t.regs, safety := sameSafety s t }) ∧
  (∀ (q : Requester) (v : W32) (be : BitVec 4) (s : State), writeReaches s q 0x006 0x080 = true →
    fget s (Fd.hdr_LOCK 0x006) = 0 → bit be.toNat 0 = true → v.toNat % 4 < 3 → v.toNat / 8 = fget s Fd.daybook_PEER_READY →
    v.toNat % 4 ≠ fget s Fd.daybook_PAIR_ROLE →
    Runs (.pairRoleWrite q v be true) s fun t =>
      fget t Fd.daybook_PAIR_ROLE = fget s Fd.daybook_PAIR_ROLE ∧
      fget t (Fd.hdr_RSVD_WRITE_COUNT 0x006) = (fget s (Fd.hdr_RSVD_WRITE_COUNT 0x006) + 1) % 2 ^ 32 ∧
      t = { s with regs := t.regs, safety := sameSafety s t, outbox := t.outbox }) ∧
  (∀ (q : Requester) (v : W32) (be : BitVec 4) (s : State), writeReaches s q 0x006 0x080 = true →
    fget s (Fd.hdr_LOCK 0x006) = 0 → bit be.toNat 0 = true → v.toNat % 4 = 1 → v.toNat / 8 = fget s Fd.daybook_PEER_READY →
    fget s Fd.daybook_PAIR_ROLE = 2 →
    Runs (.pairRoleWrite q v be false) s fun t =>
      fget t Fd.daybook_PAIR_ROLE = 1 ∧ fget t (Fd.can_ROLE 0) = 1 ∧ fget t (Fd.can_ROLE 1) = 1 ∧ HasEvent t 0x006 9 ∧
      t.chans = ((List.range 64).map fun ch => if peerMasked s ch then peerWindow s ch else chanOf s ch) ∧
      t = { s with regs := t.regs, chans := t.chans, can := t.can, ledger := t.ledger, outbox := t.outbox
                   safety := sameSafety s t })

/-! ### Courier links -/

/-- The receiver rules (R511): a flit whose CRC-32 fails counts and is answered by a NAK; the next in sequence advances E; an earlier
one counts as a duplicate and is dropped; one ahead of E is not accepted. -/
def Obligations.ReceivedFlitsFollowTheReceiverRules : Prop :=
  (∀ (link : Fin 6) (bytes : List Byte) (s : State), Shaped s → bytes.length = 256 →
    fget s (Fd.link_STATE link) = 1 ∨ fget s (Fd.link_STATE link) = 2 → leAt bytes 252 4 ≠ crc32 (bytesAt bytes 0 252) →
    Runs (.flitReceive link bytes) s fun t =>
      fget t (Fd.link_CRC_ERR link) = (fget s (Fd.link_CRC_ERR link) + 1) % 2 ^ 32 ∧
      fget t (Fd.link_FLITS_RX link) = (fget s (Fd.link_FLITS_RX link) + 1) % 2 ^ 32 ∧
      bundleSt t (bundleOf s link) =
        { bundleSt s (bundleOf s link) with nakFor := some (bundleSt s (bundleOf s link)).expect } ∧
      PagesBut [0x078, 0x079, 0x07A, 0x07B, 0x07C, 0x07D] s t ∧
      t = { s with regs := t.regs, ledger := t.ledger, outbox := t.outbox
                   courier := { s.courier with bundles := t.courier.bundles } }) ∧
  (∀ (link : Fin 6) (bytes : List Byte) (s : State), Shaped s → bytes.length = 256 →
    fget s (Fd.link_STATE link) = 1 ∨ fget s (Fd.link_STATE link) = 2 → leAt bytes 252 4 = crc32 (bytesAt bytes 0 252) →
    leAt bytes 0 1 = 0xA5 → 1 ≤ bits (leAt bytes 1 1) 3 0 → bits (leAt bytes 1 1) 3 0 ≤ 3 →
    leAt bytes 2 2 = (bundleSt s (bundleOf s link)).expect →
    Runs (.flitReceive link bytes) s fun t =>
      (bundleSt t (bundleOf s link)).expect = ((bundleSt s (bundleOf s link)).expect + 1) % 2 ^ 16 ∧
      t.courier.lastGood = s.courier.lastGood.set link (now s) ∧
      PagesBut [0x078, 0x079, 0x07A, 0x07B, 0x07C, 0x07D] s t ∧
      t = { s with regs := t.regs, ledger := t.ledger, outbox := t.outbox, courier := t.courier }) ∧
  (∀ (link : Fin 6) (bytes : List Byte) (s : State), bytes.length = 256 →
    fget s (Fd.link_STATE link) = 1 ∨ fget s (Fd.link_STATE link) = 2 → leAt bytes 252 4 = crc32 (bytesAt bytes 0 252) →
    leAt bytes 0 1 = 0xA5 → 1 ≤ bits (leAt bytes 1 1) 3 0 → bits (leAt bytes 1 1) 3 0 ≤ 3 →
    leAt bytes 2 2 ≠ (bundleSt s (bundleOf s link)).expect →
    cyc 16 (bundleSt s (bundleOf s link)).expect (leAt bytes 2 2) < 2 ^ 15 →
    Runs (.flitReceive link bytes) s fun t =>
      fget t (Fd.link_DUP_FLIT link) = (fget s (Fd.link_DUP_FLIT link) + 1) % 2 ^ 32 ∧
      WordsBut [(Fd.link_DUP_FLIT link).word, (Fd.link_FLITS_RX link).word] s t ∧
      t = { s with regs := t.regs
                   courier := { s.courier with lastGood := s.courier.lastGood.set link (now s) } }) ∧
  (∀ (link : Fin 6) (bytes : List Byte) (s : State), Shaped s → bytes.length = 256 →
    fget s (Fd.link_STATE link) = 1 ∨ fget s (Fd.link_STATE link) = 2 → leAt bytes 252 4 = crc32 (bytesAt bytes 0 252) →
    leAt bytes 0 1 = 0xA5 → 1 ≤ bits (leAt bytes 1 1) 3 0 → bits (leAt bytes 1 1) 3 0 ≤ 3 →
    leAt bytes 2 2 ≠ (bundleSt s (bundleOf s link)).expect →
    2 ^ 15 ≤ cyc 16 (bundleSt s (bundleOf s link)).expect (leAt bytes 2 2) →
    Runs (.flitReceive link bytes) s fun t =>
      bundleSt t (bundleOf s link) =
        { bundleSt s (bundleOf s link) with nakFor := some (bundleSt s (bundleOf s link)).expect } ∧
      PagesBut [0x078, 0x079, 0x07A, 0x07B, 0x07C, 0x07D] s t ∧
      t = { s with regs := t.regs, outbox := t.outbox, courier := t.courier })

/-- A link rewinds to the oldest flit in its replay buffer (R513), goes DOWN (R514), trains (R517), and comes UP, stays DOWN, or is
found miswired (R516). -/
def Obligations.LinksRewindTrainAndGoDown : Prop :=
  (∀ (link : Fin 6) (s : State), Shaped s → activeLink s (bundleOf s link) = some link.val →
    (bundleSt s (bundleOf s link)).buf ≠ [] → (bundleSt s (bundleOf s link)).progress + 25 ≤ now s →
    Runs (.linkRewind link) s fun t =>
      t.outbox = s.outbox ++ ((bundleSt s (bundleOf s link)).buf.map fun e => .ctrl link e.1 (ackNow s link) e.2) ∧
      fget t (Fd.link_RETRY_COUNT link) = (fget s (Fd.link_RETRY_COUNT link) + 1) % 2 ^ 32 ∧
      bundleSt t (bundleOf s link) =
        { bundleSt s (bundleOf s link) with rewinds := (bundleSt s (bundleOf s link)).rewinds + 1, progress := now s } ∧
      WordsBut [(Fd.link_RETRY_COUNT link).word, (Fd.link_FLITS_TX link).word] s t ∧
      t = { s with regs := t.regs, ledger := t.ledger, outbox := t.outbox
                   courier := { s.courier with bundles := t.courier.bundles } }) ∧
  (∀ (link : Fin 6) (s : State), linkUp s link = true → s.courier.lastGood.getD link 0 + 25 ≤ now s →
    Runs (.linkDown link) s fun t =>
      fget t (Fd.link_STATE link) = 0 ∧ HasEvent t (0x078 + link) 8 ∧
      fget t (Fd.link_DOWN_COUNT link) = (fget s (Fd.link_DOWN_COUNT link) + 1) % 2 ^ 32 ∧ TaskFrame s t) ∧
  (∀ (link : Fin 6) (s : State), s.time.running = true → s.boot.holdup = false → fget s (Fd.link_LINK_EN link) = 1 →
    fget s (Fd.link_STATE link) = 0 ∨ fget s (Fd.link_STATE link) = 3 → link.val ∈ usedLinks s →
    s.courier.nextTrain.getD link 0 ≤ now s →
    Runs (.linkTraining link) s fun t =>
      fget t (Fd.link_STATE link) = 1 ∧ t.courier.nextTrain = s.courier.nextTrain.set link (now s + 1250000) ∧
      WordsBut [(Fd.link_STATE link).word] s t ∧
      t = { s with regs := t.regs, courier := { s.courier with nextTrain := t.courier.nextTrain } }) ∧
  (∀ (link : Fin 6) (peer : BitVec 12) (standby : Bool) (s : State), fget s (Fd.link_STATE link) = 1 →
    peer.toNat = neighbourOf s link →
    Runs (.trainingComplete link peer true standby) s fun t =>
      fget t (Fd.link_STATE link) = 2 ∧ fget t (Fd.link_NEIGHBOUR link) = peer.toNat ∧
      t.courier.lastGood = s.courier.lastGood.set link (now s) ∧
      t = { s with regs := t.regs, courier := t.courier, pair := { s.pair with streaming := t.pair.streaming }
                   outbox := t.outbox }) ∧
  (∀ (link : Fin 6) (peer : BitVec 12) (standby : Bool) (s : State), fget s (Fd.link_STATE link) = 1 →
    peer.toNat ≠ neighbourOf s link →
    Runs (.trainingComplete link peer true standby) s fun t =>
      fget t (Fd.link_STATE link) = 3 ∧ fget t (Fd.link_NEIGHBOUR link) = peer.toNat ∧ HasEvent t (0x078 + link) 9 ∧
      PagesBut [0x078 + link.val] s t ∧
      t = { s with regs := t.regs, ledger := t.ledger, outbox := t.outbox }) ∧
  (∀ (link : Fin 6) (peer : BitVec 12) (standby : Bool) (s : State), fget s (Fd.link_STATE link) = 1 →
    Runs (.trainingComplete link peer false standby) s fun t =>
      fget t (Fd.link_STATE link) = 0 ∧ WordsBut [(Fd.link_STATE link).word] s t ∧ t = { s with regs := t.regs })

/-- Groups drop out and rejoin (R543, R544): a DESYNC unsyncs the group, RESYNC_GO at the coordinator starts a resynchronisation, a
member whose group word matches adopts COLL_SEQ and acknowledges, another sets GROUP_MISMATCH, and the outcome syncs the group. -/
def Obligations.GroupsDesyncAndResync : Prop :=
  (∀ (flit : FlitIn) (s : State), linkUp s flit.link = true → delivered s flit = true →
    Runs (.desync flit) s fun t =>
      synced t flit.group = false ∧ HasEvent t 0x07E 12 ∧
      (∀ g : Fin 16, g ≠ flit.group → synced t g = synced s g) ∧
      PagesBut [0x078, 0x079, 0x07A, 0x07B, 0x07C, 0x07D, 0x07E] s t ∧
      t = { s with regs := t.regs, outbox := t.outbox, courier := { s.courier with bundles := t.courier.bundles } }) ∧
  (∀ (q : Requester) (v : W32) (be : BitVec 4) (s : State), Shaped s → writeReaches s q 0x07E 0x104 = true →
    fget s (Fd.hdr_LOCK 0x07E) = 0 → be = 15 → fget s Fd.coll_RESYNC_GO = 0 → v.toNat / 16 = 1 →
    fget s (Fd.coll_GROUP_ENABLE (v.toNat % 16)) = 1 → coordinates s (v.toNat % 16) = true →
    Runs (.resyncGo q v be) s fun t =>
      fget t Fd.coll_RESYNC_GO = 1 ∧ fget t Fd.coll_RESYNC_GROUP = v.toNat % 16 ∧
      groupSt t (v.toNat % 16) = { groupSt s (v.toNat % 16) with resync := true } ∧
      PagesBut [0x078, 0x079, 0x07A, 0x07B, 0x07C, 0x07D, 0x07E] s t ∧
      t = { s with regs := t.regs, courier := t.courier, outbox := t.outbox, safety := sameSafety s t }) ∧
  (∀ (flit : FlitIn) (word : W32) (s : State), Shaped s → linkUp s flit.link = true → delivered s flit = true →
    coordinates s flit.group = false → groupWord s flit.group = word.toNat % 2 ^ 29 →
    (groupSt s flit.group).resync = false →
    Runs (.resync flit word) s fun t =>
      (groupSt t flit.group).nextSeq = flit.collSeq.toNat ∧ (groupSt t flit.group).resync = true ∧
      (groupSt t flit.group).active = (groupSt s flit.group).active ∧ synced t flit.group = synced s flit.group ∧
      t = { s with regs := t.regs, courier := t.courier, outbox := t.outbox }) ∧
  (∀ (flit : FlitIn) (word : W32) (s : State), linkUp s flit.link = true → delivered s flit = true →
    coordinates s flit.group = false → groupWord s flit.group ≠ word.toNat % 2 ^ 29 →
    Runs (.resync flit word) s fun t =>
      synced t flit.group = false ∧ HasEvent t 0x07E 11 ∧
      WordsBut (Fd.coll_SYNCED.word :: eventWords 0x07E) s t ∧ t = { s with regs := t.regs, outbox := t.outbox }) ∧
  (∀ (flit : FlitIn) (s : State), Shaped s → (groupSt s flit.group).resync = true →
    Runs (.resyncComplete flit) s fun t =>
      synced t flit.group = true ∧ (groupSt t flit.group).resync = false ∧
      (∀ g : Fin 16, g ≠ flit.group → synced t g = synced s g) ∧
      (coordinates s flit.group = true → fget s Fd.coll_RESYNC_GROUP = flit.group → fget t Fd.coll_RESYNC_GO = 0) ∧
      t = { s with regs := t.regs, courier := t.courier, outbox := t.outbox })

/-- Postmark alignment: ALIGN_GO begins to measure (R540, R541), each exchange is summed and the 64th sets the adjustment (R539,
R540), its end sets ALIGNED (R541), and a drift beyond one tick clears it (R542). -/
def Obligations.AlignmentMeasuresSetsAndWatches : Prop :=
  (∀ (q : Requester) (v : W32) (be : BitVec 4) (s : State), writeReaches s q 0x07E 0x108 = true →
    fget s (Fd.hdr_LOCK 0x07E) = 0 → be = 15 → fget s Fd.coll_ALIGN_GO = 0 →
    v.toNat / 4 = fget s Fd.coll_ALIGNED → v.toNat % 2 = 1 → v.toNat % 4 = 3 ∨ chipAddr s = 0 →
    Runs (.alignGo q v be) s fun t =>
      fget t Fd.coll_ALIGN_GO = 1 ∧ fget t Fd.coll_ALIGN_MODE = v.toNat / 2 % 2 ∧ fget t Fd.postmark_ALIGN_ACTIVE = 1 ∧
      t.courier.align.measured = false ∧ t.courier.align.sums = List.replicate 6 (0, 0, 0) ∧
      WordsBut [Fd.coll_ALIGN_GO.word, Fd.postmark_ALIGN_ACTIVE.word] s t ∧
      t = { s with regs := t.regs, courier := { s.courier with align := t.courier.align }, safety := sameSafety s t }) ∧
  (∀ (q : Requester) (v : W32) (be : BitVec 4) (s : State), writeReaches s q 0x07E 0x108 = true →
    fget s (Fd.hdr_LOCK 0x07E) = 0 → be = 15 → fget s Fd.coll_ALIGN_GO = 0 → v.toNat / 4 = fget s Fd.coll_ALIGNED →
    v.toNat % 4 = 1 → chipAddr s ≠ 0 →
    Runs (.alignGo q v be) s fun t =>
      fget t Fd.coll_ALIGN_GO = 0 ∧ WordsBut [Fd.coll_ALIGN_GO.word] s t ∧
      t = { s with regs := t.regs, safety := sameSafety s t }) ∧
  (∀ (link : Fin 6) (t1 t2 t3 t4 : W64) (behind : Int) (s : State), s.courier.align.sums.length = 6 →
    linkUp s link = true → fget s Fd.postmark_ALIGN_ACTIVE = 1 → (s.courier.align.sums.getD link (0, 0, 0)).1 + 1 ≠ 64 →
    Runs (.timeExchange link t1 t2 t3 t4 behind) s fun t =>
      t.courier.align.sums.getD link (0, 0, 0) = ((s.courier.align.sums.getD link (0, 0, 0)).1 + 1,
        (s.courier.align.sums.getD link (0, 0, 0)).2.1 + (((t2.toNat : Int) - t1.toNat) - ((t4.toNat : Int) - t3.toNat)),
        (s.courier.align.sums.getD link (0, 0, 0)).2.2 + (((t2.toNat : Int) - t1.toNat) + ((t4.toNat : Int) - t3.toNat))) ∧
      t = { s with courier := { s.courier with align := { s.courier.align with sums := t.courier.align.sums } } }) ∧
  (∀ (link : Fin 6) (t1 t2 t3 t4 : W64) (behind : Int) (s : State), linkUp s link = true →
    fget s Fd.postmark_ALIGN_ACTIVE = 1 → (s.courier.align.sums.getD link (0, 0, 0)).1 = 63 →
    measuresOn s link = true →
    Runs (.timeExchange link t1 t2 t3 t4 behind) s fun t =>
      t.courier.align.measured = true ∧ t.courier.align.sums = s.courier.align.sums.set link (0, 0, 0) ∧ now t = now s ∧
      t = { s with regs := t.regs, time := { s.time with slewRun := t.time.slewRun, delayed := t.time.delayed }
                   courier := { s.courier with align := t.courier.align }, freeCount := t.freeCount }) ∧
  (∀ s : State, fget s Fd.postmark_ALIGN_ACTIVE = 1 → s.courier.align.measured = true → adjLeft s = 0 →
    Runs .alignmentComplete s fun t =>
      fget t Fd.coll_ALIGNED = 1 ∧ fget t Fd.postmark_ALIGN_ACTIVE = 0 ∧ fget t Fd.coll_ALIGN_GO = 0 ∧
      t.courier.align = { s.courier.align with lastCheck := now s } ∧
      WordsBut [Fd.coll_ALIGNED.word, Fd.postmark_ALIGN_ACTIVE.word, Fd.coll_ALIGN_GO.word] s t ∧
      t = { s with regs := t.regs, courier := { s.courier with align := t.courier.align } }) ∧
  (∀ (link : Fin 6) (theta : Int) (s : State), fget s Fd.coll_ALIGNED = 1 → pathLink s 0 = some link.val →
    s.courier.align.lastCheck + 25000000 ≤ now s →
    Runs (.timeDriftCheck link theta) s fun t =>
      t.courier.align = { s.courier.align with lastCheck := now s } ∧
      (64 < (theta - s.courier.align.residual).natAbs →
        fget t Fd.coll_ALIGNED = 0 ∧ HasEvent t 0x07E 10 ∧
          fget t Fd.coll_TIME_DRIFT_COUNT = (fget s Fd.coll_TIME_DRIFT_COUNT + 1) % 2 ^ 32) ∧
      ((theta - s.courier.align.residual).natAbs ≤ 64 → t.regs = s.regs ∧ t.outbox = s.outbox) ∧
      PagesBut [0x07E] s t ∧
      t = { s with regs := t.regs, outbox := t.outbox, courier := { s.courier with align := t.courier.align } })
/-! ### Collectives -/

/-- A dispatched Courier task starts its collective on a synced group: it takes the group's next COLL_SEQ and is under way, not
yet staged, and a station that is not the coordinator has sent its CONTRIB toward it (R524, R526). With every needed
contribution in, the result is staged: the task holds the outputs and the collective waits for the votes of its subtree (R527,
R528). -/
def Obligations.CollectivesStartAndStage : Prop :=
  (∀ (k : Nat) (x : Task) (p : PlanSt) (o : OpDesc) (g : Nat) (s : State), Shaped s → taskOf s k = some x →
    x.disp.isSome = true → x.computed = false → x.code = 0x080 →
    (∀ y ∈ s.courier.groups, ∀ c ∈ y.active, c.task ≠ k) → opOf s x = some (p, o) → groupOf s x.pid = some g →
    synced s g = true → (groupSt s g).early = [] →
    Runs (.allreduce k) s fun t =>
      groupSt t g = { groupSt s g with
        nextSeq := ((groupSt s g).nextSeq + 1) % 2 ^ 16
        active := (groupSt s g).active ++
          [⟨k, (groupSt s g).nextSeq, collDesc p.words o, x.disp.getD (now s), [], false, false, []⟩] } ∧
      (coordinates s g = true → t.outbox = s.outbox) ∧ PagesBut [0x078, 0x079, 0x07A, 0x07B, 0x07C, 0x07D] s t ∧
      t = { s with regs := t.regs, courier := t.courier, outbox := t.outbox }) ∧
  (∀ (k : Nat) (x : Task) (p : PlanSt) (o : OpDesc) (g : Nat) (s : State), Shaped s → taskOf s k = some x →
    x.disp.isSome = true → x.computed = false → x.code = 0x081 →
    (∀ y ∈ s.courier.groups, ∀ c ∈ y.active, c.task ≠ k) → opOf s x = some (p, o) → groupOf s x.pid = some g →
    synced s g = true → (groupSt s g).early = [] →
    Runs (.broadcast k) s fun t =>
      groupSt t g = { groupSt s g with
        nextSeq := ((groupSt s g).nextSeq + 1) % 2 ^ 16
        active := (groupSt s g).active ++
          [⟨k, (groupSt s g).nextSeq, collDesc p.words o, x.disp.getD (now s), [], false, false, []⟩] } ∧
      (coordinates s g = true → t.outbox = s.outbox) ∧ PagesBut [0x078, 0x079, 0x07A, 0x07B, 0x07C, 0x07D] s t ∧
      t = { s with regs := t.regs, courier := t.courier, outbox := t.outbox }) ∧
  (∀ (k : Nat) (x : Task) (p : PlanSt) (o : OpDesc) (g : Nat) (s : State), Shaped s → taskOf s k = some x →
    x.disp.isSome = true → x.computed = false → x.code = 0x082 →
    (∀ y ∈ s.courier.groups, ∀ c ∈ y.active, c.task ≠ k) → opOf s x = some (p, o) → groupOf s x.pid = some g →
    synced s g = true → (groupSt s g).early = [] →
    Runs (.mergeTopk k) s fun t =>
      groupSt t g = { groupSt s g with
        nextSeq := ((groupSt s g).nextSeq + 1) % 2 ^ 16
        active := (groupSt s g).active ++
          [⟨k, (groupSt s g).nextSeq, collDesc p.words o, x.disp.getD (now s), [], false, false, []⟩] } ∧
      (coordinates s g = true → t.outbox = s.outbox) ∧ PagesBut [0x078, 0x079, 0x07A, 0x07B, 0x07C, 0x07D] s t ∧
      t = { s with regs := t.regs, courier := t.courier, outbox := t.outbox }) ∧
  (∀ (k : Nat) (x : Task) (p : PlanSt) (o : OpDesc) (g : Nat) (s : State), Shaped s → taskOf s k = some x →
    x.disp.isSome = true → x.computed = false → x.code = 0x083 →
    (∀ y ∈ s.courier.groups, ∀ c ∈ y.active, c.task ≠ k) → opOf s x = some (p, o) → groupOf s x.pid = some g →
    synced s g = true → (groupSt s g).early = [] →
    Runs (.barrier k) s fun t =>
      groupSt t g = { groupSt s g with
        nextSeq := ((groupSt s g).nextSeq + 1) % 2 ^ 16
        active := (groupSt s g).active ++
          [⟨k, (groupSt s g).nextSeq, collDesc p.words o, x.disp.getD (now s), [], false, false, []⟩] } ∧
      (coordinates s g = true → t.outbox = s.outbox) ∧ PagesBut [0x078, 0x079, 0x07A, 0x07B, 0x07C, 0x07D] s t ∧
      t = { s with regs := t.regs, courier := t.courier, outbox := t.outbox }) ∧
  (∀ (k : Nat) (x : Task) (p : PlanSt) (o : OpDesc) (g : Nat) (s : State), Shaped s → taskOf s k = some x →
    k < s.sched.nextId → x.disp.isSome = true → x.computed = false → x.code = 0x083 →
    (∀ y ∈ s.courier.groups, ∀ c ∈ y.active, c.task ≠ k) → opOf s x = some (p, o) → groupOf s x.pid = some g →
    synced s g = false →
    Runs (.barrier k) s fun t =>
      (groupSt t g).nextSeq = ((groupSt s g).nextSeq + 1) % 2 ^ 16 ∧ taskOf t k = none ∧ HasEvent t 0x07E 8 ∧
      fget t Fd.coll_COLL_ABORT_COUNT = (fget s Fd.coll_COLL_ABORT_COUNT + 1) % 2 ^ 32 ∧ TaskFrame s t) ∧
  (∀ (g : Fin 16) (parts : List CollPart) (c : CollSt) (x : Task) (p : PlanSt) (o : OpDesc) (s : State), Shaped s →
    unstaged s g = some c → collAt s g c.seq = some c → taskOf s c.task = some x → opOf s x = some (p, o) →
    (parts.map fun y => y.chip.toNat) = neededFrom s g o →
    (∀ y ∈ parts, y.docket.length = 16 ∧ y.data.length = x.inData.flatten.length) →
    votesIn s g { c with staged := true } = false →
    Runs (.stagingComplete g parts) s fun t =>
      (taskOf t c.task).map (·.outs) = some (stagedOuts s p.words (mergeTies s p.crc g o x) o x parts) ∧
      (taskOf t c.task).map (·.computed) = some true ∧ collAt t g c.seq = some { c with staged := true } ∧
      t.mem = s.mem ∧ t.host = s.host ∧ t.replies = s.replies ∧ TaskFrame s t)

/-- What the messages of a collective do (R523, R526, R528–R532, R534, R535): a CONTRIB that agrees changes nothing at the coordinator
and one that does not aborts; a VOTE is taken in, passed on once the subtree has voted, and decided on by the coordinator; a DECIDE
takes effect once; an ABORT_REQ aborts at the coordinator; a time-out aborts; a flit of a group this station is not in is dropped. -/
def Obligations.CollectivesCommitOrAbortAtEveryStation : Prop :=
  (∀ (flit : FlitIn) (desc : CollDesc) (start : W64) (s : State), linkUp s flit.link = true → delivered s flit = false →
    Runs (.contrib flit desc start) s fun t =>
      fget t Fd.coll_COLL_MISMATCH_COUNT = (fget s Fd.coll_COLL_MISMATCH_COUNT + 1) % 2 ^ 32 ∧
      WordsBut [Fd.coll_COLL_MISMATCH_COUNT.word] s t ∧ t = { s with regs := t.regs }) ∧
  (∀ (flit : FlitIn) (desc : CollDesc) (start : W64) (c : CollSt) (s : State), linkUp s flit.link = true →
    delivered s flit = true → coordinates s flit.group = true → collAt s flit.group flit.collSeq.toNat = some c →
    desc = c.desc →
    Runs (.contrib flit desc start) s fun t => t = s) ∧
  (∀ (flit : FlitIn) (desc : CollDesc) (start : W64) (c : CollSt) (s : State), Shaped s → linkUp s flit.link = true →
    delivered s flit = true → coordinates s flit.group = true → collAt s flit.group flit.collSeq.toNat = some c →
    desc ≠ c.desc → c.task < s.sched.nextId →
    Runs (.contrib flit desc start) s fun t =>
      fget t Fd.coll_COLL_MISMATCH_COUNT = (fget s Fd.coll_COLL_MISMATCH_COUNT + 1) % 2 ^ 32 ∧
      fget t Fd.coll_COLL_ABORT_COUNT = (fget s Fd.coll_COLL_ABORT_COUNT + 1) % 2 ^ 32 ∧ HasEvent t 0x07E 8 ∧
      collAt t flit.group c.seq = none ∧ taskOf t c.task = none ∧ TaskFrame s t) ∧
  (∀ (flit : FlitIn) (start : W64) (aligned : Bool) (c : CollSt) (s : State), Shaped s → linkUp s flit.link = true →
    delivered s flit = true → collAt s flit.group flit.collSeq.toNat = some c →
    votesIn s flit.group { c with votes := c.votes ++ [(flit.src.toNat, start.toNat, aligned)] } = false →
    Runs (.vote flit start aligned) s fun t =>
      collAt t flit.group flit.collSeq.toNat =
        some { c with votes := c.votes ++ [(flit.src.toNat, start.toNat, aligned)] } ∧
      t = { s with courier := { s.courier with groups := t.courier.groups } }) ∧
  (∀ (flit : FlitIn) (start : W64) (aligned : Bool) (c : CollSt) (s : State), Shaped s → linkUp s flit.link = true →
    delivered s flit = true → collAt s flit.group flit.collSeq.toNat = some c → c.voted = false → c.task < s.sched.nextId →
    votesIn s flit.group { c with votes := c.votes ++ [(flit.src.toNat, start.toNat, aligned)] } = true →
    coordinates s flit.group = true →
    allAligned s { c with votes := c.votes ++ [(flit.src.toNat, start.toNat, aligned)] } = true →
    now s + 500 ≤ earliest { c with votes := c.votes ++ [(flit.src.toNat, start.toNat, aligned)] } +
      fget s (Fd.coll_TIMEOUT_PT flit.group) →
    Runs (.vote flit start aligned) s fun t =>
      fget t Fd.coll_COLL_COMMIT_COUNT = (fget s Fd.coll_COLL_COMMIT_COUNT + 1) % 2 ^ 32 ∧
      collAt t flit.group flit.collSeq.toNat = none ∧ taskOf t c.task = none ∧ TaskFrame s t) ∧
  (∀ (flit : FlitIn) (start : W64) (aligned : Bool) (c : CollSt) (s : State), Shaped s → linkUp s flit.link = true →
    delivered s flit = true → collAt s flit.group flit.collSeq.toNat = some c → c.voted = false →
    votesIn s flit.group { c with votes := c.votes ++ [(flit.src.toNat, start.toNat, aligned)] } = true →
    coordinates s flit.group = false →
    Runs (.vote flit start aligned) s fun t =>
      collAt t flit.group flit.collSeq.toNat =
        some { c with voted := true, votes := c.votes ++ [(flit.src.toNat, start.toNat, aligned)] } ∧
      PagesBut [0x078, 0x079, 0x07A, 0x07B, 0x07C, 0x07D] s t ∧
      t = { s with regs := t.regs, courier := t.courier, outbox := t.outbox }) ∧
  (∀ (flit : FlitIn) (commit : Bool) (detail : W32) (c : CollSt) (s : State), Shaped s → linkUp s flit.link = true →
    delivered s flit = true → collAt s flit.group flit.collSeq.toNat = some c → c.task < s.sched.nextId →
    Runs (.decide flit commit detail) s fun t =>
      collAt t flit.group flit.collSeq.toNat = none ∧ taskOf t c.task = none ∧
      fget t Fd.coll_COLL_COMMIT_COUNT = (fget s Fd.coll_COLL_COMMIT_COUNT + if commit then 1 else 0) % 2 ^ 32 ∧
      fget t Fd.coll_COLL_ABORT_COUNT = (fget s Fd.coll_COLL_ABORT_COUNT + if commit then 0 else 1) % 2 ^ 32 ∧
      TaskFrame s t) ∧
  (∀ (flit : FlitIn) (commit : Bool) (detail : W32) (s : State), linkUp s flit.link = true → delivered s flit = true →
    undecided s flit.group flit.collSeq.toNat = false →
    Runs (.decide flit commit detail) s fun t => t = s) ∧
  (∀ (flit : FlitIn) (station : BitVec 12) (c : CollSt) (s : State), Shaped s → linkUp s flit.link = true →
    delivered s flit = true → coordinates s flit.group = true → collAt s flit.group flit.collSeq.toNat = some c →
    c.aborts = [] → (groupSt s flit.group).early = [] → c.task < s.sched.nextId →
    Runs (.abortReq flit station) s fun t =>
      collAt t flit.group flit.collSeq.toNat = none ∧ taskOf t c.task = none ∧
      fget t Fd.coll_STATION_LOST_COUNT = (fget s Fd.coll_STATION_LOST_COUNT + 1) % 2 ^ 32 ∧
      fget t Fd.coll_COLL_ABORT_COUNT = (fget s Fd.coll_COLL_ABORT_COUNT + 1) % 2 ^ 32 ∧ TaskFrame s t) ∧
  (∀ (flit : FlitIn) (station : BitVec 12) (c : CollSt) (s : State), Shaped s → linkUp s flit.link = true →
    delivered s flit = true → coordinates s flit.group = false → collAt s flit.group flit.collSeq.toNat = some c →
    c.aborts = [] → (groupSt s flit.group).early = [] →
    Runs (.abortReq flit station) s fun t =>
      collAt t flit.group flit.collSeq.toNat = some { c with aborts := [station.toNat] } ∧
      PagesBut [0x078, 0x079, 0x07A, 0x07B, 0x07C, 0x07D] s t ∧
      t = { s with regs := t.regs, courier := t.courier, outbox := t.outbox }) ∧
  (∀ (g : Fin 16) (c : CollSt) (s : State), Shaped s →
    ((groupSt s g).active.find? fun c => c.start + fget s (Fd.coll_TIMEOUT_PT g) < now s) = some c →
    c.task < s.sched.nextId →
    Runs (.collectiveTimeout g) s fun t =>
      collAt t g c.seq = none ∧ taskOf t c.task = none ∧
      fget t Fd.coll_STATION_LOST_COUNT = (fget s Fd.coll_STATION_LOST_COUNT + 1) % 2 ^ 32 ∧
      fget t Fd.coll_COLL_ABORT_COUNT = (fget s Fd.coll_COLL_ABORT_COUNT + 1) % 2 ^ 32 ∧ HasEvent t 0x07E 8 ∧
      TaskFrame s t)
/-! ### Truss operators -/

/-- The dense operators (R281, R282, R299): each output element is the exact sum of its products times the channel's scale,
rounded once. The pointwise operators (R217, R285, R293, R297): each output element is formed exactly from its own elements,
passed through the Finish function and rounded once. -/
def Obligations.DenseAndPointwiseOperatorsRoundOnce : Prop :=
  (∀ (k : Nat) (x : Task) (p : PlanSt) (o : OpDesc) (s : State), RunsOperator s k 0x010 x p o →
    Runs (.matmul k) s fun t => FormedValues k x p o (denseResult s p.words o x) s t) ∧
  (∀ (k : Nat) (x : Task) (p : PlanSt) (o : OpDesc) (s : State), RunsOperator s k 0x011 x p o →
    Runs (.batchMatmul k) s fun t => FormedValues k x p o (denseResult s p.words o x) s t) ∧
  (∀ (k : Nat) (x : Task) (p : PlanSt) (o : OpDesc) (s : State), RunsOperator s k 0x012 x p o →
    Runs (.conv2d k) s fun t => FormedValues k x p o (denseResult s p.words o x) s t) ∧
  (∀ (k : Nat) (x : Task) (p : PlanSt) (o : OpDesc) (s : State), RunsOperator s k 0x013 x p o →
    Runs (.dwconv2d k) s fun t => FormedValues k x p o (denseResult s p.words o x) s t) ∧
  (∀ (k : Nat) (x : Task) (p : PlanSt) (o : OpDesc) (s : State), RunsOperator s k 0x030 x p o →
    Runs (.add k) s fun t => FormedValues k x p o (pairVals (fun _ a b => exactSum [a, b]) s p.words o x) s t) ∧
  (∀ (k : Nat) (x : Task) (p : PlanSt) (o : OpDesc) (s : State), RunsOperator s k 0x031 x p o →
    Runs (.mul k) s fun t => FormedValues k x p o (pairVals (fun _ =>
      mulElems (macVal p.words o x 0).fmt (macVal p.words o x 1).fmt) s p.words o x) s t) ∧
  (∀ (k : Nat) (x : Task) (p : PlanSt) (o : OpDesc) (s : State), RunsOperator s k 0x032 x p o →
    Runs (.convert k) s fun t => FormedValues k x p o ((macVal p.words o x 0).vals.map (fused s o x)) s t) ∧
  (∀ (k : Nat) (x : Task) (p : PlanSt) (o : OpDesc) (s : State), RunsOperator s k 0x033 x p o →
    Runs (.clamp k) s fun t => FormedValues k x p o ((macVal p.words o x 0).vals.map fun v =>
      fused s o x (if v.lt (clampBound (outDesc p.words o 0).fmt (macroOf p.words o).p0) then
          clampBound (outDesc p.words o 0).fmt (macroOf p.words o).p0
        else if (clampBound (outDesc p.words o 0).fmt (macroOf p.words o).p1).lt v then
          clampBound (outDesc p.words o 0).fmt (macroOf p.words o).p1
        else v)) s t) ∧
  (∀ (k : Nat) (x : Task) (p : PlanSt) (o : OpDesc) (s : State), RunsOperator s k 0x034 x p o →
    Runs (.finish k) s fun t => FormedValues k x p o ((macVal p.words o x 0).vals.map (fused s o x)) s t)

/-- The reductions (R285, R292, R297): SUM and MEAN round each group's exact sum once, MAX and MIN select an element of each group,
NORMALIZE and SOFTMAX form each element from its group. -/
def Obligations.ReductionsFormEachGroup : Prop :=
  (∀ (k : Nat) (x : Task) (p : PlanSt) (o : OpDesc) (s : State), RunsOperator s k 0x040 x p o →
    Runs (.sum k) s fun t =>
      FormedValues k x p o ((groups (macroOf p.words o).p0 (macVal p.words o x 0)).map exactSum) s t) ∧
  (∀ (k : Nat) (x : Task) (p : PlanSt) (o : OpDesc) (s : State), RunsOperator s k 0x042 x p o →
    Runs (.mean k) s fun t =>
      FormedValues k x p o
        ((groups (macroOf p.words o).p0 (macVal p.words o x 0)).map fun g =>
          (exactSum g).divNat (maskedVolume (macroOf p.words o).p0 (macVal p.words o x 0).dims)) s t) ∧
  (∀ (k : Nat) (x : Task) (p : PlanSt) (o : OpDesc) (s : State), RunsOperator s k 0x041 x p o →
    Runs (.maxMin k) s fun t =>
      Formed k x (maxMinRule s p.words o x).2 s t ∧ t.freeCount = s.freeCount ∧
      WordsBut (x.units.map fun u => (Fd.truss_NAN_TO_INT_COUNT u).word) s t) ∧
  (∀ (k : Nat) (x : Task) (p : PlanSt) (o : OpDesc) (s : State), RunsOperator s k 0x043 x p o →
    Runs (.normalize k) s fun t => FormedValues k x p o (normVals s p.words o x) s t) ∧
  (∀ (k : Nat) (x : Task) (p : PlanSt) (o : OpDesc) (s : State), RunsOperator s k 0x044 x p o →
    Runs (.softmax k) s fun t =>
      Formed k x (softmaxRule s p.words o x).2 s t ∧ t.freeCount = s.freeCount ∧
      WordsBut (x.units.map fun u => (Fd.truss_NAN_TO_INT_COUNT u).word) s t)

/-- TRANSPOSE moves elements unchanged (R297); the random operators draw every element from the generator at the operator's own seed
and instance (R558, R559); the end of a macro-operation takes the task off its engines, counts it, and reports a tally or a residue
mismatch (R304, R310). -/
def Obligations.MacroOperationsMoveDrawAndComplete : Prop :=
  (∀ (k : Nat) (x : Task) (p : PlanSt) (o : OpDesc) (s : State), RunsOperator s k 0x021 x p o →
    Runs (.transpose k) s fun t =>
      Formed k x [packRaw (outDesc p.words o 0) ((List.range (volume (outDesc p.words o 0).dims)).map fun i =>
        (macVal p.words o x 0).raw.getD (transposeFrom p.words o x i) 0)] s t ∧ t.regs = s.regs ∧ t.freeCount = s.freeCount) ∧
  (∀ (k : Nat) (x : Task) (p : PlanSt) (o : OpDesc) (s : State), RunsOperator s k 0x090 x p o →
    (outDesc p.words o 0).fmt = 0x07 →
    Runs (.randomUniform k) s fun t =>
      Formed k x [packRaw (outDesc p.words o 0)
        ((List.range (volume (outDesc p.words o 0).dims)).map (randWord (macroOf p.words o)))] s t ∧
      t.regs = s.regs ∧ t.freeCount = s.freeCount) ∧
  (∀ (k : Nat) (x : Task) (p : PlanSt) (o : OpDesc) (s : State), RunsOperator s k 0x090 x p o →
    (outDesc p.words o 0).fmt ≠ 0x07 →
    Runs (.randomUniform k) s fun t =>
      Formed k x [packRaw (outDesc p.words o 0) ((List.range (volume (outDesc p.words o 0).dims)).map fun e =>
        roundTo (outDesc p.words o 0).fmt (randP (randWord (macroOf p.words o) e)))] s t ∧
      t.regs = s.regs ∧ t.freeCount = s.freeCount) ∧
  (∀ (k : Nat) (x : Task) (p : PlanSt) (o : OpDesc) (s : State), RunsOperator s k 0x091 x p o →
    Runs (.randomNormal k) s fun t =>
      FormedValues k x p o ((List.range (volume (outDesc p.words o 0).dims)).map fun e =>
        finishValue (finishRev s x) 11 (roundFloat fp32 (randP (randWord (macroOf p.words o) e)))) s t) ∧
  (∀ (k : Nat) (faults : List LaneFault) (rounds : List RoundFault) (x : Task) (p : PlanSt) (o : OpDesc) (s : State),
    taskOf s k = some x → x.kind = .truss → x.disp.isSome = true → x.computed = true → opOf s x = some (p, o) →
    undefinedMacro p.words o = false → dramReady s x = true → (∀ u ∈ x.units, u < 9) → k < s.sched.nextId →
    Runs (.macroOperationComplete k faults rounds) s fun t =>
      taskOf t k = none ∧
      (∀ u < 9, fget t (Fd.truss_MOP_COUNT u) = (fget s (Fd.truss_MOP_COUNT u) + timesWalked s x p.words o u) % 2 ^ 32) ∧
      (∀ u < 9, fget t (Fd.truss_TALLY_MISMATCH_COUNT u) =
        (fget s (Fd.truss_TALLY_MISMATCH_COUNT u) + (tallyUnits s x p.words o faults).count u) % 2 ^ 32) ∧
      (∀ u < 9, fget t (Fd.truss_RESIDUE_ERR_COUNT u) =
        (fget s (Fd.truss_RESIDUE_ERR_COUNT u) + (residueUnits s x p.words o faults rounds).count u) % 2 ^ 32) ∧
      (∀ u ∈ tallyUnits s x p.words o faults, HasEvent t (0x010 + u) 8 ∧ OnBus t 0x04 (0x010 + u)) ∧
      (∀ u ∈ residueUnits s x p.words o faults rounds, HasEvent t (0x010 + u) 9 ∧ OnBus t 0x05 (0x010 + u)) ∧
      t.fuses = s.fuses ∧ t.nvm = s.nvm ∧ TaskFrame s t) ∧
  (∀ (k : Nat) (faults : List LaneFault) (rounds : List RoundFault) (x : Task) (p : PlanSt) (o : OpDesc) (s : State),
    taskOf s k = some x → x.kind = .truss → x.disp.isSome = true → opOf s x = some (p, o) →
    undefinedMacro p.words o = true → k < s.sched.nextId →
    Runs (.macroOperationComplete k faults rounds) s fun t =>
      taskOf t k = none ∧ HasEvent t (taskPage x) 11 ∧ OnBus t 0x12 (taskPage x) ∧ CutFrame s t)

/-- An exact sum does not depend on the order of its terms: no partial result is rounded (R281, R284). The dot product of
integers is exact, and saturates once, to the output's range (R217, R281). -/
def Obligations.ExactSumsHaveNoOrderAndSaturateOnce : Prop :=
  (∀ xs ys : List Xv, xs.Perm ys → (∀ x ∈ xs, ∀ (s : Bool) (n d : Nat), x = .fin s n d → 0 < d) → exactSum xs = exactSum ys) ∧
  (∀ (f : IntFmt) (ps : List (Int × Int)),
    roundInt f (exactSum (ps.map fun p => mulElems 1 1 (Xv.ofInt p.1) (Xv.ofInt p.2))) =
      ofSigned f.width (clampInt (if f.signed then -(2 ^ (f.width - 1) : Nat) else 0)
        (if f.signed then (2 ^ (f.width - 1) : Nat) - 1 else (2 ^ f.width : Nat) - 1) (ps.map fun p => p.1 * p.2).sum)) ∧
  (∀ ps : List (Int × Int), (exactSum (ps.map fun p => mulElems 1 1 (Xv.ofInt p.1) (Xv.ofInt p.2))).isNegZero = false)

/-- Every encoding of a numeric format that is no NaN stands for a value that rounds to that encoding: no input is flushed, and
denormals keep their exact value (R282, R286). -/
def Obligations.EncodingsRoundToThemselves : Prop :=
  ∀ code v : Nat, fmtNumeric code = true → v < 2 ^ fmtBits code → (elemValue code v).isNan = false →
    roundTo code (elemValue code v) = v
/-! ### Joiner cores -/

/-- The built-in joiner operators (R319): RESHAPE keeps the elements in order, SLICE, CONCAT, PAD and GATHER move them (their
parameter order is the model's choice, log entries 42 and 67), and UNPACK_FRAME unpacks the frame and appends the slot's postcard
(R387–R389); a shape that differs from the filter's ends the task as an undefined case (R388). -/
def Obligations.BuiltInJoinerOperatorsFormTheirOutputs : Prop :=
  (∀ (k : Nat) (x : Task) (p : PlanSt) (o : OpDesc) (s : State), RunsOperator s k 0x020 x p o →
    Runs (.reshape k) s fun t =>
      Formed k x [packRaw (outDesc p.words o 0) (inVal p.words o x 0).raw] s t ∧ t.regs = s.regs ∧
      t.freeCount = s.freeCount) ∧
  (∀ (k : Nat) (x : Task) (p : PlanSt) (o : OpDesc) (s : State), RunsOperator s k 0x022 x p o →
    Runs (.slice k) s fun t =>
      Formed k x (sliceRule s p.words o x).2 s t ∧ t.regs = s.regs ∧ t.freeCount = s.freeCount) ∧
  (∀ (k : Nat) (x : Task) (p : PlanSt) (o : OpDesc) (s : State), RunsOperator s k 0x023 x p o →
    Runs (.concat k) s fun t =>
      Formed k x (concatRule s p.words o x).2 s t ∧ t.regs = s.regs ∧ t.freeCount = s.freeCount) ∧
  (∀ (k : Nat) (x : Task) (p : PlanSt) (o : OpDesc) (s : State), RunsOperator s k 0x024 x p o →
    Runs (.pad k) s fun t =>
      Formed k x (padRule s p.words o x).2 s t ∧ t.regs = s.regs ∧ t.freeCount = s.freeCount) ∧
  (∀ (k : Nat) (x : Task) (p : PlanSt) (o : OpDesc) (s : State), RunsOperator s k 0x025 x p o →
    Runs (.gather k) s fun t =>
      taskOf t k = some { x with
        outs := [(gatherVals p.words o x).1]
        computed := true
        flags := x.flags ||| if (gatherVals p.words o x).2 then flagInvalid else 0 } ∧
      OtherTasks k s t ∧ t = { s with sched := { s.sched with tasks := t.sched.tasks } }) ∧
  (∀ (k : Nat) (x : Task) (p : PlanSt) (o : OpDesc) (r : FrameRef) (rest : List FrameRef) (s : State),
    RunsOperator s k 0x026 x p o → x.frames = r :: rest → (outDesc p.words o 0).dims = unpackDims r →
    Runs (.unpackFrame k) s fun t =>
      Formed k x [packRaw (outDesc p.words o 0) (unpackElems r (x.inData.getD 0 [])) ++
        bytesAt (x.inData.getD 0 []) (r.size - 4096 + 0x40) 256] s t ∧
      t.regs = s.regs ∧ t.freeCount = s.freeCount) ∧
  (∀ (k : Nat) (x : Task) (p : PlanSt) (o : OpDesc) (r : FrameRef) (rest : List FrameRef) (s : State),
    RunsOperator s k 0x026 x p o → x.frames = r :: rest → (outDesc p.words o 0).dims ≠ unpackDims r →
    k < s.sched.nextId →
    Runs (.unpackFrame k) s fun t => taskOf t k = none ∧ OnBus t 0x12 (taskPage x) ∧ CutFrame s t)

/-- The prologue of a joiner task on one core (R317, R327–R329): the code of a JOINER_CALL stands at local address 0, the registers
hold the call block's address, the numbers of ports and the stack, every other register holds 0, and the core begins at address 0;
a JOINER_CALL in user mode, a built-in operator in machine mode, with nothing in its code area. -/
def Obligations.JoinerTasksEnterAsTheSpecSays : Prop :=
  (∀ (u : Nat) (x : Task) (p : PlanSt) (o : OpDesc) (s : State), Shaped s → Canonical s → x.units = [u] → u < 34 →
    (coreAt (prologue s x p o) u).rx 10 = 0x10000 ∧
    (coreAt (prologue s x p o) u).rx 11 = BitVec.ofNat 64 o.ins.length ∧
    (coreAt (prologue s x p o) u).rx 12 = BitVec.ofNat 64 o.outs.length ∧
    (coreAt (prologue s x p o) u).rx 2 = 0x20000 ∧
    (∀ i, i ≠ 2 → i ≠ 10 → i ≠ 11 → i ≠ 12 → (coreAt (prologue s x p o) u).rx i = 0) ∧
    (coreAt (prologue s x p o) u).pc = 0 ∧
    (coreAt (prologue s x p o) u).machine = (o.code != 0x0A0)) ∧
  (∀ (u : Nat) (x : Task) (p : PlanSt) (o : OpDesc) (s : State), Shaped s → Canonical s → x.units = [u] → u < 34 →
    o.code = 0x0A0 → o.codeWords ≤ 0x4000 →
    memBytes (prologue s x p o) (storeAddr u 0) (4 * o.codeWords) =
      bytesAt (bytesOfWords ((p.words.drop (codeWord p.words o)).take o.codeWords)) 0 (4 * o.codeWords)) ∧
  (∀ (u : Nat) (x : Task) (p : PlanSt) (o : OpDesc) (s : State), Shaped s → Canonical s → x.units = [u] → u < 34 →
    o.code ≠ 0x0A0 → memBytes (prologue s x p o) (storeAddr u 0) 0x10000 = List.replicate 0x10000 0)

/-- What runs on a joiner core ends by an ECALL, which publishes its outputs (R330), by an exception or by a mismatch of a locked
pair, which publish them INVALID (R330, R336); each counts (R337). A JOINER_CALL that stands at an ECALL leaves it to that
command (the model's choice, log entry 69). -/
def Obligations.JoinerTasksEndByEcallOrTrap : Prop :=
  (∀ (k : Nat) (x : Task) (s : State), taskOf s k = some x → x.disp.isSome = true → x.computed = true → x.code = 0x0A0 →
    (coreAt s (x.units.headD 0)).pop = none →
    Runs (.joinerCall k) s fun t =>
      t = runCore callFuel s (x.units.headD 0) k ∧ SameProgress s t ∧ TaskFrame s t) ∧
  (∀ (k : Nat) (x : Task) (s : State), taskOf s k = some x → x.disp.isSome = true →
    x.computed = true → x.code = 0x0A0 → atEcall s (x.units.headD 0) x = true →
    Runs (.joinerCall k) s fun t => t = s) ∧
  (∀ (core : Fin 34) (x : Task) (s : State), headTask s core = some x → x.computed = true → x.code = 0x0A0 →
    atEcall s core x = true → (coreAt s core).pop = none → dramReady s x = true → x.id < s.sched.nextId →
    Runs (.ecall core) s fun t =>
      taskOf t x.id = none ∧ fget t (Fd.joiner_TASK_COUNT (core / 2)) = (fget s (Fd.joiner_TASK_COUNT (core / 2)) + 1) % 2 ^ 32 ∧
      fget t (Fd.joiner_TRAP_COUNT (core / 2)) = fget s (Fd.joiner_TRAP_COUNT (core / 2)) ∧ TaskFrame s t) ∧
  (∀ (core : Fin 34) (x : Task) (s : State), headTask s core = some x → x.computed = true → x.code ≠ 0x0A0 →
    x.code ≠ 0x061 → dramReady s x = true → x.id < s.sched.nextId →
    Runs (.ecall core) s fun t =>
      taskOf t x.id = none ∧ fget t (Fd.joiner_TASK_COUNT (core / 2)) = (fget s (Fd.joiner_TASK_COUNT (core / 2)) + 1) % 2 ^ 32 ∧
      TaskFrame s t) ∧
  (∀ (core : Fin 34) (n : Nat) (x : Task) (s : State), headTask s core = some x → x.computed = true → x.code = 0x0A0 →
    (coreAt s core).pop = none → trapCause s core x = some n → x.id < s.sched.nextId →
    Runs (.joinerTrap core (.exception n)) s fun t =>
      taskOf t x.id = none ∧ fget t (Fd.joiner_TASK_COUNT (core / 2)) = (fget s (Fd.joiner_TASK_COUNT (core / 2)) + 1) % 2 ^ 32 ∧
      fget t (Fd.joiner_TRAP_COUNT (core / 2)) = (fget s (Fd.joiner_TRAP_COUNT (core / 2)) + 1) % 2 ^ 32 ∧
      HasEvent t (0x040 + core / 2) 9 ∧ (n ≠ 5 → n ≠ 7 → OnBus t 0x12 (0x040 + core / 2)) ∧ CutFrame s t) ∧
  (∀ (core : Fin 34) (x : Task) (s : State), headTask s core = some x → x.units.length = 2 → x.id < s.sched.nextId →
    Runs (.joinerTrap core .other) s fun t =>
      taskOf t x.id = none ∧
      fget t (Fd.joiner_LOCK_MISMATCH_COUNT (core / 2)) = (fget s (Fd.joiner_LOCK_MISMATCH_COUNT (core / 2)) + 1) % 2 ^ 32 ∧
      HasEvent t (0x040 + core / 2) 8 ∧ OnBus t 0x07 (0x040 + core / 2) ∧ CutFrame s t)

/-- The vendor instructions (R331, R332): a transfer is pushed unless its queue holds 16, popped with its outcome, waited for, or
counted; a docket word is read; an output port is marked. A wait ends at its limit, and a transfer that is permitted moves its
bytes. -/
def Obligations.TileQueuesAndDocketPortsFollowTheVendorInstructions : Prop :=
  (∀ (core : Fin 34) (rd rs1 rs2 : Fin 32) (x : Task) (s : State), Shaped s →
    atVendor s core (vendorWord 0x0B 0 0 rd rs1 rs2) = some (s, x) → core.val ∈ x.units →
    ((coreAt s core).rx rs1).toNat + 32 ≤ 0x40000 →
    markedWords s (storeAddr core ((coreAt s core).rx rs1).toNat) 32 = [] →
    (queueAt s core (((coreAt s core).rx rs2).toNat % 4)).length < 16 →
    Runs (.tqPush core rd rs1 rs2) s fun t =>
      queueAt t core (((coreAt s core).rx rs2).toNat % 4) = queueAt s core (((coreAt s core).rx rs2).toNat % 4) ++
        [tileAt (memBytes s (storeAddr core ((coreAt s core).rx rs1).toNat) 32)] ∧
      Retired core rd 0 s t ∧ t = { s with cores := t.cores }) ∧
  (∀ (core : Fin 34) (rd rs1 rs2 : Fin 32) (x : Task) (s : State), Shaped s →
    atVendor s core (vendorWord 0x0B 0 0 rd rs1 rs2) = some (s, x) → core.val ∈ x.units →
    ((coreAt s core).rx rs1).toNat + 32 ≤ 0x40000 →
    markedWords s (storeAddr core ((coreAt s core).rx rs1).toNat) 32 = [] →
    16 ≤ (queueAt s core (((coreAt s core).rx rs2).toNat % 4)).length →
    Runs (.tqPush core rd rs1 rs2) s fun t =>
      (coreAt t core).tq = (coreAt s core).tq ∧ Retired core rd 1 s t ∧ t = { s with cores := t.cores }) ∧
  (∀ (core : Fin 34) (rd rs1 : Fin 32) (x : Task) (s : State), Shaped s →
    atVendor s core (vendorWord 0x0B 1 0 rd rs1 0) = some (s, x) → core.val ∈ x.units →
    queueAt s core (((coreAt s core).rx rs1).toNat % 4) = [] →
    Runs (.tqPop core rd rs1) s fun t =>
      (coreAt t core).tq = (coreAt s core).tq ∧ Retired core rd 4 s t ∧ t = { s with cores := t.cores }) ∧
  (∀ (core : Fin 34) (rd rs1 : Fin 32) (x : Task) (y : Tile) (rest : List Tile) (v : Nat) (s : State), Shaped s →
    atVendor s core (vendorWord 0x0B 1 0 rd rs1 0) = some (s, x) → core.val ∈ x.units →
    queueAt s core (((coreAt s core).rx rs1).toNat % 4) = y :: rest → y.done = some v →
    Runs (.tqPop core rd rs1) s fun t =>
      queueAt t core (((coreAt s core).rx rs1).toNat % 4) = rest ∧ Retired core rd v s t ∧ t = { s with cores := t.cores }) ∧
  (∀ (core : Fin 34) (rd rs1 : Fin 32) (x : Task) (y : Tile) (rest : List Tile) (s : State), Shaped s →
    atVendor s core (vendorWord 0x0B 1 0 rd rs1 0) = some (s, x) → core.val ∈ x.units →
    queueAt s core (((coreAt s core).rx rs1).toNat % 4) = y :: rest → y.done = none →
    Runs (.tqPop core rd rs1) s fun t =>
      coreAt t core = { coreAt s core with pop := some (((coreAt s core).rx rs1).toNat % 4, rd.val, now s) } ∧
      t = { s with cores := t.cores }) ∧
  (∀ (core : Fin 34) (rd rs1 : Fin 32) (x : Task) (s : State), Shaped s →
    atVendor s core (vendorWord 0x0B 2 0 rd rs1 0) = some (s, x) → core.val ∈ x.units →
    Runs (.tqLen core rd rs1) s fun t =>
      Retired core rd (queueAt s core (((coreAt s core).rx rs1).toNat % 4)).length s t ∧
      (coreAt t core).tq = (coreAt s core).tq ∧ t = { s with cores := t.cores }) ∧
  (∀ (core : Fin 34) (rd rs1 : Fin 32) (w : Fin 4) (x : Task) (s : State), Shaped s →
    atVendor s core (vendorWord 0x2B 0 w rd rs1 0) = some (s, x) → core.val ∈ x.units → ((coreAt s core).rx rs1).toNat < 12 →
    Runs (.dkRd core rd rs1 w) s fun t =>
      Retired core rd (bits ((coreAt s core).dks.getD ((coreAt s core).rx rs1).toNat 0) (32 * w + 31) (32 * w)) s t ∧
      t = { s with cores := t.cores }) ∧
  (∀ (core : Fin 34) (rd rs1 : Fin 32) (w : Fin 4) (x : Task) (s : State), Shaped s →
    atVendor s core (vendorWord 0x2B 0 w rd rs1 0) = some (s, x) → core.val ∈ x.units → 12 ≤ ((coreAt s core).rx rs1).toNat →
    Runs (.dkRd core rd rs1 w) s fun t =>
      (coreAt t core).pc = BitVec.ofNat 64 ((coreAt s core).pc.toNat + 4) ∧
      t = { s with cores := t.cores, freeCount := t.freeCount }) ∧
  (∀ (core : Fin 34) (rs1 : Fin 32) (x : Task) (s : State), Shaped s →
    atVendor s core (vendorWord 0x2B 1 0 0 rs1 0) = some (s, x) → core.val ∈ x.units →
    Runs (.dkInv core rs1) s fun t =>
      Retired core 0 0 s t ∧
      (∀ i < 32, i ∈ (coreAt t core).inv ↔
        i ∈ (coreAt s core).inv ∨ i = ((coreAt s core).rx rs1).toNat) ∧
      t = { s with cores := t.cores }) ∧
  (∀ (core : Fin 34) (rs1 : Fin 32) (x : Task) (s : State),
    isFetch (fetchAt s core x (coreAt s core).pc.toNat) (vendorWord 0x2B 1 0 0 rs1 0) = true →
    ¬ (8 ≤ ((coreAt s core).rx rs1).toNat ∧ ((coreAt s core).rx rs1).toNat < 8 + min 4 (outPorts s x).length) →
    trapCause s core x = some 2) ∧
  (∀ (core : Fin 34) (queue : Fin 4) (x : Task) (y : Tile) (s : State), Shaped s → headTask s core = some x →
    core.val ∈ x.units → (coreAt s core).pop = none →
    ((queueAt s core queue).find? fun z => z.done.isNone) = some y → tileWaits s x y = false →
    Runs (.tileTransferComplete core queue) s fun t =>
      (∃ v : Fin 3, queueAt t core queue = markDone v (queueAt s core queue)) ∧ SameProgress s t ∧ TaskFrame s t) ∧
  (∀ (core : Fin 34) (queue : Fin 4) (x : Task) (y : Tile) (s : State), Shaped s → Canonical s → headTask s core = some x →
    x.units = [core.val] → (coreAt s core).pop = none → (coreAt s core).ports = [] →
    ((queueAt s core queue).find? fun z => z.done.isNone) = some y → tileWaits s x y = false →
    y.rows = 1 → inBuffer y.dst y.rowBytes = true → inBuffer y.dst 1 = true → windowBase ≤ y.src →
    rangePermitted s x.pid (y.src - windowBase) y.rowBytes = true → pooled s x.pid (y.src - windowBase) = false →
    markedWords s (y.src - windowBase) y.rowBytes = [] →
    Runs (.tileTransferComplete core queue) s fun t =>
      queueAt t core queue = markDone 0 (queueAt s core queue) ∧
      memBytes t (storeAddr core y.dst) y.rowBytes = memBytes s (y.src - windowBase) y.rowBytes ∧
      BytesBut (storeAddr core y.dst) y.rowBytes s t) ∧
  (∀ (core : Fin 34) (x : Task) (q rd began : Nat) (s : State), Shaped s → headTask s core = some x → core.val ∈ x.units →
    (coreAt s core).pop = some (q, rd, began) → rd < 32 → began + fget s (Fd.sched_WAIT_LIMIT_PT x.pid) ≤ now s →
    Runs (.tqPopWaitLimit core) s fun t =>
      Retired core rd 3 s t ∧ (coreAt t core).pop = none ∧ (coreAt t core).tq = (coreAt s core).tq ∧
      t = { s with cores := t.cores, sched := { s.sched with obs := t.sched.obs } })
/-! ### The scheduler -/

/-- COMMIT starts a validation of the shadow (R343, R363), which ends at the next PM_CLK edge (the model's choice, log entry 56):
a table that keeps every rule is held as the next one, and one that does not names its first bad word in TT_ERR; COMMIT reads 0
again. The timetable runs: a valid table takes effect at the first tick after its validation that is a multiple of its cycle (R344),
and no Loose task stays on a unit that it holds (R340); a major frame begins (R341), and at its first tick a waiting clock step goes
on (R184); a window gives its idle joiner pairs their mode, and an idle pair takes the mode that the next task needs (R335). -/
def Obligations.TheTimetableIsValidatedAndDrivesItsFrames : Prop :=
  (∀ (q : Requester) (v : W32) (be : BitVec 4) (s : State), writeReaches s q 0x058 0x048 = true → be = 15 → v = 1 →
    Runs (.commitGo q v be) s fun t =>
      fget t Fd.sched_COMMIT = 1 ∧ WordsBut [Fd.sched_COMMIT.word] s t ∧ t = { s with regs := t.regs }) ∧
  (∀ s : State, s.time.running = true → s.time.clkLost = false → adjLeft s = 0 → fget s Fd.sched_COMMIT = 1 →
    ttFault s (shadowTable s) = none →
    Runs (.postmarkTick []) s fun t =>
      t.sched.valid = some (shadowTable s, now t) ∧ fget t Fd.sched_TT_ERR = 0xFFFF ∧ fget t Fd.sched_COMMIT = 0 ∧
      t.sched.active = s.sched.active) ∧
  (∀ (w : Nat) (s : State), s.time.running = true → s.time.clkLost = false → adjLeft s = 0 → fget s Fd.sched_COMMIT = 1 →
    ttFault s (shadowTable s) = some w →
    Runs (.postmarkTick []) s fun t =>
      t.sched.valid = s.sched.valid ∧ fget t Fd.sched_TT_ERR = w % 2 ^ 16 ∧ fget t Fd.sched_COMMIT = 0 ∧ HasEvent t 0x058 8 ∧
      t.sched.active = s.sched.active) ∧
  (∀ (tt : List W32) (valid : Nat) (s : State), s.sched.valid = some (tt, valid) → valid < now s →
    now s % max 1 (ttCycle tt) = 0 →
    Runs .timetableActivate s fun t =>
      t.sched.active = tt ∧ t.sched.valid = none ∧ t.sched.frameStart = now s ∧ fget t Fd.sched_TT_ACTIVE = 1 ∧
      fget t Fd.sched_FRAME_NOW = 0 ∧ t.sched.tasks.map (·.id) = s.sched.tasks.map (·.id) ∧
      (∀ x ∈ t.sched.tasks, onHeldUnit t x = false) ∧ t.plans.map (·.1) = s.plans.map (·.1) ∧
      t.plans.map (fun e => e.2.words) = s.plans.map (fun e => e.2.words) ∧
      WordsBut [Fd.sched_TT_ACTIVE.word, Fd.sched_FRAME_NOW.word] s t ∧
      t = { s with regs := t.regs, sched := t.sched, plans := t.plans, cores := t.cores, letters := t.letters
                   lattice := { s.lattice with queue := t.lattice.queue, active := t.lattice.active } }) ∧
  (∀ s : State, frameDue s = true →
    Runs .majorFrameStart s fun t =>
      t.sched = { s.sched with frameStart := now s } ∧
      fget t Fd.sched_FRAME_NOW = now s / ttFrame s.sched.active % ttFrames s.sched.active % Fd.sched_FRAME_NOW.card ∧
      fget t Fd.sched_CYCLE_COUNT = (fget s Fd.sched_CYCLE_COUNT +
        if now s / ttFrame s.sched.active % ttFrames s.sched.active = 0 then 1 else 0) % 2 ^ 32 ∧
      t.power.phase = (if s.power.phase = .ready ∧ anyStrict s = true ∧ frameBegins s = true ∧ frameTaken s.sched.active
        (now s / ttFrame s.sched.active % ttFrames s.sched.active * ttFrame s.sched.active) = false then .relock
        else s.power.phase) ∧
      t = { s with regs := t.regs, sched := t.sched, refresh := t.refresh, power := { s.power with phase := t.power.phase } }) ∧
  (∀ (slot : Nat) (s : State), slotOpen s slot = true → ttIsWindow s.sched.active slot = true →
    Runs (.timetableSlotStart slot) s fun t =>
      (∀ j < 17, fget t (Fd.joiner_MODE j) =
        if fget s (Fd.joiner_ROLE j) = 0 ∧
            bit (ttUnits s.sched.active slot .joiner) (fget s (Fd.joiner_LOGICAL j)) = true ∧ pairIdle s j = true then
          b2n (ttLocked s.sched.active slot (fget s (Fd.joiner_LOGICAL j)))
        else fget s (Fd.joiner_MODE j)) ∧
      t = { s with regs := t.regs }) ∧
  (∀ (pair : Fin 17) (m : Nat) (s : State), pairIdle s pair = true → fget s (Fd.joiner_LOGICAL pair) ≠ 0 →
    fget s (Fd.joiner_ROLE pair) = 0 → strictHeld s .joiner (fget s (Fd.joiner_LOGICAL pair)) = true →
    windowMode s (fget s (Fd.joiner_LOGICAL pair)) = some m →
    Runs (.pairModeChange pair) s fun t =>
      fget t (Fd.joiner_MODE pair) = m ∧ WordsBut [(Fd.joiner_MODE pair).word] s t ∧ t = { s with regs := t.regs }) ∧
  (∀ (pair : Fin 17) (x : Task) (s : State), pairIdle s pair = true → fget s (Fd.joiner_LOGICAL pair) ≠ 0 →
    fget s (Fd.joiner_ROLE pair) = 0 → strictHeld s .joiner (fget s (Fd.joiner_LOGICAL pair)) = false →
    nextLoose s .joiner = some x →
    Runs (.pairModeChange pair) s fun t =>
      fget t (Fd.joiner_MODE pair) = b2n (needsLock x) ∧ WordsBut [(Fd.joiner_MODE pair).word] s t ∧
      t = { s with regs := t.regs })

/-- Dispatch and start: a free unit takes the next Loose task, whose Letter starts and whose budget begins (R103, R354, R356); a
Strict operator starts at its own tick on its own units (R353); a Strict run starts at its anchor tick or counts an anchor miss
(R352). -/
def Obligations.TasksStartOnTheUnitsTheyAreGiven : Prop :=
  (∀ (kind : UnitKind) (x : Task) (us : List Nat) (l : Letter) (s : State), nextLoose s kind = some x →
    taskOf s x.id = some x → looseUnits s x = some us → letterOf s x.ch x.seq = some l →
    domainRuns s (domainOf kind) = true → s.boot.holdup = false → pastDeadline s l = false → epochTest s x = .read →
    Runs (.looseDispatch kind) s fun t =>
      (taskOf t x.id).map (·.disp) = some (some (now s)) ∧ (taskOf t x.id).map (·.units) = some us ∧
      (taskOf t x.id).map (·.budgetEnd) = some (now s + fget s (Fd.sched_LOOSE_BUDGET_PT x.pid)) ∧
      (letterOf t x.ch x.seq).map (·.phase) = some (if l.phase = .accepted then .started else l.phase) ∧
      mapGet 0 t.sched.rr x.level = (x.pid + 1) % 16 ∧
      TaskFrame { s with filters := t.filters } t) ∧
  (∀ (kind : UnitKind) (x : Task) (us : List Nat) (l : Letter) (s : State), nextLoose s kind = some x →
    looseUnits s x = some us → letterOf s x.ch x.seq = some l → domainRuns s (domainOf kind) = true →
    s.boot.holdup = false → pastDeadline s l = true → l.run = none → l.phase = .accepted → x.id < s.sched.nextId →
    Runs (.looseDispatch kind) s fun t =>
      taskOf t x.id = none ∧ (letterOf t x.ch x.seq).map (·.res.status) = some 0x21 ∧ TaskFrame s t) ∧
  (∀ (ch : Fin 64) (seq : W32) (op : Nat) (l : Letter) (r : RunSt) (p : PlanSt) (x : Task) (s : State),
    letterOf s ch seq.toNat = some l → l.run = some r → planOf s l = some p → planStrict p.words = true →
    r.ops.getD op .done = .waiting → now s = r.start + ptOffset p.words op → pastDeadline s l = false →
    (s.sched.tasks.find? fun y => y.ch == ch.val && y.seq == seq.toNat && y.op == op && y.disp.isNone) = some x →
    taskOf s x.id = some x → (∀ u ∈ p.units.getD op [], (physUnit s x.kind u).isSome = true) →
    modesFit (setModes s x (p.units.getD op [])) x (p.units.getD op []) = true →
    Runs (.strictOperatorStart ch seq op) s fun t =>
      (taskOf t x.id).map (·.disp) = some (some (now s)) ∧
      (taskOf t x.id).map (·.units) = some (strictUnits s x (p.units.getD op [])) ∧
      (taskOf t x.id).map (·.budgetEnd) = some (r.start + ptOffset p.words op + ptBudget p.words op) ∧
      TaskFrame { s with filters := t.filters } t) ∧
  (∀ (ch : Fin 64) (seq : W32) (l : Letter) (p : PlanSt) (s : State), letterOf s ch seq.toNat = some l →
    planOf s l = some p → l.op = 0x04 → planStrict p.words = true → s.sched.active ≠ [] → l.phase = .accepted →
    l.run = none → cyclePos s = anchorPos p.words s.sched.active → l.acceptPm + 250 ≤ now s → slotBusy s l = true →
    Runs (.strictRunStart ch seq) s fun t =>
      mapGet 0 t.sched.obs (pidObs l.pid 9) = mapGet 0 s.sched.obs (pidObs l.pid 9) + 1 ∧
      t = { s with sched := { s.sched with obs := t.sched.obs } }) ∧
  (∀ (ch : Fin 64) (seq : W32) (l : Letter) (p : PlanSt) (s : State), letterOf s ch seq.toNat = some l →
    planOf s l = some p → l.op = 0x04 → planStrict p.words = true → s.sched.active ≠ [] → l.phase = .accepted →
    l.run = none → cyclePos s = anchorPos p.words s.sched.active → l.acceptPm + 250 ≤ now s → slotBusy s l = false →
    mayStart s l = true → linkBlocks s l.pid p.words = false → containerCrc p.words = p.crc →
    0 < operatorCount p.words → pastDeadline s l = false →
    Runs (.strictRunStart ch seq) s fun t =>
      (letterOf t ch seq.toNat).bind (fun y => y.run.map (·.start)) = some (now s) ∧ TaskFrame s t)

/-- Budgets and wait limits: a task that outruns its budget and a Loose task that waits too long are cut short, their faults reported
(R356–R358); an observable counts each. In the tick in which a budget ends nothing is cut: a completion in it comes first (R359). -/
def Obligations.OverrunsAndTimeoutsCutTasksShort : Prop :=
  (∀ (k : Nat) (x : Task) (s : State), taskOf s k = some x → x.disp.isSome = true → x.budgetEnd < now s →
    Runs (.budgetOverrun k) s fun t =>
      taskOf t k = none ∧ OnBus t 0x0E 0x058 ∧
      mapGet (0 : W32) t.sched.obs (pidObs x.pid 1) = mapGet (0 : W32) s.sched.obs (pidObs x.pid 1) + 1 ∧ CutFrame s t) ∧
  (∀ (k : Nat) (x : Task) (s : State), taskOf s k = some x → x.disp = none → x.strict = false → x.epochSel = none →
    x.enter + fget s (Fd.sched_WAIT_LIMIT_PT x.pid) < now s → x.pid < 16 → x.level < 16 →
    Runs (.waitTimeout k) s fun t =>
      taskOf t k = none ∧ OnBus t 0x0E 0x058 ∧
      mapGet (0 : W32) t.sched.obs (pidObs x.pid 2) = mapGet (0 : W32) s.sched.obs (pidObs x.pid 2) + 1 ∧ CutFrame s t) ∧
  (∀ (k : Nat) (x : Task) (s : State), taskOf s k = some x → x.budgetEnd = now s →
    Runs (.budgetOverrun k) s fun t => t = s)

/-- The data windows: TT_DATA reads and writes the shadow word and advances TT_INDEX, a write while COMMIT is 1 being
refused (R363); OBS_DATA reads and sets an observable and advances OBS_INDEX (R360, R362); the load observables are latched at
the end of each window (R362). A read returns the word at its index and moves the index on: the directory (R748), the finish tables
(R296), the fault log (R575), the last words (R138) and the mailboxes (R757). -/
def Obligations.DataWindowsReadAndAdvance : Prop :=
  (∀ (q : Requester) (s : State), writeReaches s q 0x058 0x044 = true →
    Runs (.ttData q none) s fun t =>
      t.completion = leBytes 4 (mapGet (0 : W32) s.sched.shadow (fget s Fd.sched_TT_INDEX)).toNat ∧
      fget t Fd.sched_TT_INDEX = (fget s Fd.sched_TT_INDEX + 1) % Fd.sched_TT_INDEX.card ∧
      WordsBut [Fd.sched_TT_INDEX.word] s t ∧ t = { s with regs := t.regs, completion := t.completion }) ∧
  (∀ (q : Requester) (v : W32) (s : State), writeReaches s q 0x058 0x044 = true → fget s (Fd.hdr_LOCK 0x058) = 0 →
    fget s Fd.sched_COMMIT = 0 →
    Runs (.ttData q (some v)) s fun t =>
      mapGet (0 : W32) t.sched.shadow (fget s Fd.sched_TT_INDEX) = v ∧
      fget t Fd.sched_TT_INDEX = (fget s Fd.sched_TT_INDEX + 1) % Fd.sched_TT_INDEX.card ∧
      (∀ i < 4096, i ≠ fget s Fd.sched_TT_INDEX → mapGet (0 : W32) t.sched.shadow i = mapGet 0 s.sched.shadow i) ∧
      WordsBut [Fd.sched_TT_INDEX.word] s t ∧
      t = { s with regs := t.regs, sched := { s.sched with shadow := t.sched.shadow } }) ∧
  (∀ (q : Requester) (v : W32) (s : State), writeReaches s q 0x058 0x044 = true → fget s (Fd.hdr_LOCK 0x058) = 0 →
    fget s Fd.sched_COMMIT = 1 →
    Runs (.ttData q (some v)) s fun t =>
      t.sched = s.sched ∧ HasEvent t 0x058 0 ∧ fget t Fd.sched_TT_INDEX = fget s Fd.sched_TT_INDEX) ∧
  (∀ (q : Requester) (s : State), writeReaches s q 0x058 0x144 = true →
    Runs (.obsData q none) s fun t =>
      t.completion = leBytes 4 (obsGet s (fget s Fd.sched_OBS_INDEX)) ∧
      fget t Fd.sched_OBS_INDEX = (fget s Fd.sched_OBS_INDEX + 1) % Fd.sched_OBS_INDEX.card ∧
      WordsBut [Fd.sched_OBS_INDEX.word] s t ∧ t = { s with regs := t.regs, completion := t.completion }) ∧
  (∀ (q : Requester) (v : W32) (s : State), writeReaches s q 0x058 0x144 = true →
    Runs (.obsData q (some v)) s fun t =>
      (obsIsDepth (fget s Fd.sched_OBS_INDEX) = false → obsReserved (fget s Fd.sched_OBS_INDEX) = false →
        obsGet t (fget s Fd.sched_OBS_INDEX) = v.toNat) ∧
      (obsIsDepth (fget s Fd.sched_OBS_INDEX) = true → t.sched = s.sched) ∧
      fget t Fd.sched_OBS_INDEX = (fget s Fd.sched_OBS_INDEX + 1) % Fd.sched_OBS_INDEX.card ∧
      WordsBut [Fd.sched_OBS_INDEX.word] s t ∧
      t = { s with regs := t.regs, sched := { s.sched with obs := t.sched.obs } }) ∧
  (∀ s : State, s.time.running = true → 25000 ≤ now s → now s % 25000 = 0 →
    Runs .loadWindowEnd s fun t =>
      (∀ p < 16, obsGet t (pidObs p 4) = mapGet 0 s.sched.load (p * 8) % 2 ^ 32 ∧
        obsGet t (pidObs p 8) = mapGet 0 s.sched.load (p * 8 + 4) % 2 ^ 32) ∧
      obsWindow t = now s - 25000 ∧ t.sched.load = [] ∧
      WordsBut [Fd.sched_OBS_WINDOW_PM_LO.word, Fd.sched_OBS_WINDOW_PM_HI.word] s t ∧
      t = { s with regs := t.regs, sched := { s.sched with obs := t.sched.obs, load := [] } }) ∧
  (∀ (q : Requester) (s : State), writeReaches s q 0x000 0x048 = true →
    Runs (.dirData q) s (WindowRead (dirEntry s (fget s Fd.directory_DIR_INDEX)) Fd.directory_DIR_INDEX (2 ^ 12) s)) ∧
  (∀ (q : Requester) (u : Fin 9) (s : State), writeReaches s q (0x010 + u) 0x068 = true →
    Runs (.ftData q u) s (WindowRead (tableWord (fget s (Fd.truss_FINISH_REV u)) (fget s (Fd.truss_FT_INDEX u))).toNat
      (Fd.truss_FT_INDEX u) (2 ^ 14) s)) ∧
  (∀ (q : Requester) (f : FaultRec) (s : State), writeReaches s q 0x004 0x050 = true →
    mapFind s.safety.log (fget s Fd.safety_FLOG_INDEX / 4) = some f →
    Runs (.flogData q) s (WindowRead (leAt (faultBytes f) (4 * (fget s Fd.safety_FLOG_INDEX % 4)) 4)
      Fd.safety_FLOG_INDEX (2 ^ 8) s)) ∧
  (∀ (q : Requester) (s : State), writeReaches s q 0x006 0x070 = true →
    Runs (.lwData q) s (WindowRead (leAt (lastWordAt s (fget s Fd.daybook_LW_WORD / 8)) (4 * (fget s Fd.daybook_LW_WORD % 8)) 4)
      Fd.daybook_LW_WORD (2 ^ 6) s)) ∧
  (∀ (q : Requester) (n : Fin 2) (s : State), writeReaches s q (0x088 + n) 0x084 = true →
    Runs (.rxData q n) s (WindowRead (mailboxWord s n (fget s (Fd.can_RX_INDEX n))) (Fd.can_RX_INDEX n) 144 s))

/-! ### Camera intake -/

/-- A Frame Start takes the free slot published longest ago and stamps the frame with the present tick (R28, R373), or discards the
frame for want of a slot; before READY it is discarded (R392). A line is written at its place and enters the CRC (R372, R378), one of
another length breaks the frame; a frame that would overflow the line FIFO is discarded (R375). A broken header discards its packet
and breaks the frames arriving (R367); a packet of no filter is counted, but not a Line Start or Line End (R365, R366, R369). -/
def Obligations.FramesAreReceivedIntoTheirSlots : Prop :=
  (∀ (port : Fin 8) (phy : PhyIn) (vc : Fin 16) (fnum : W16) (f k : Nat) (s : State), Shaped s → PortIdle s port →
    phy.header = .good → filtersOfVc s port vc = [f] → s.boot.ready = true →
    (filterAt s (filterNo port f)).cur = none → chooseSlot s (filterNo port f) = some k →
    Runs (.frameStart port phy vc fnum) s fun t =>
      filterAt t (filterNo port f) = { filterAt s (filterNo port f) with
        cur := some ⟨fnum.toNat, now s, k, 0, 0xFFFFFFFF, 0, [], false, false⟩, arr := .frame } ∧
      (∀ i < 32, i ≠ filterNo port f → filterAt t i = filterAt s i) ∧
      fget t (Fd.intake_HS_ACTIVE port) = b2n phy.hsAfter ∧
      fget t (Fd.intake_DESKEW_DONE port) = (phy.deskew.map b2n).getD (fget s (Fd.intake_DESKEW_DONE port)) ∧
      WordsBut (portWords port) s t ∧ t = { s with regs := t.regs, filters := t.filters }) ∧
  (∀ (port : Fin 8) (phy : PhyIn) (vc : Fin 16) (fnum : W16) (f : Nat) (s : State), Shaped s → PortIdle s port →
    phy.header = .good → filtersOfVc s port vc = [f] → s.boot.ready = true →
    (filterAt s (filterNo port f)).cur = none → chooseSlot s (filterNo port f) = none →
    Runs (.frameStart port phy vc fnum) s fun t =>
      fget t (Fd.intake_NO_SLOT port f) = (fget s (Fd.intake_NO_SLOT port f) + 1) % 2 ^ 32 ∧
      HasEvent t (0x070 + port) (8 + f) ∧ OnBus t 0x0A (0x070 + port) ∧
      (∀ c ∈ (filterAt t (filterNo port f)).cur, c.dead = true) ∧ PagesBut [0x070 + port.val] s t ∧
      t = { s with regs := t.regs, filters := t.filters, safety := { s.safety with bus := t.safety.bus }
                   outbox := t.outbox }) ∧
  (∀ (port : Fin 8) (phy : PhyIn) (vc : Fin 16) (fnum : W16) (f : Nat) (s : State), Shaped s → PortIdle s port →
    phy.header = .good → filtersOfVc s port vc = [f] → s.boot.ready = false →
    Runs (.frameStart port phy vc fnum) s fun t =>
      fget t (Fd.intake_PRE_READY_DISCARD port f) = (fget s (Fd.intake_PRE_READY_DISCARD port f) + 1) % 2 ^ 32 ∧
      filterAt t (filterNo port f) = { filterAt s (filterNo port f) with arr := .dropped } ∧
      WordsBut ((Fd.intake_PRE_READY_DISCARD port f).word :: portWords port) s t ∧
      t = { s with regs := t.regs, filters := t.filters }) ∧
  (∀ (port : Fin 8) (phy : PhyIn) (pk : LongPacket) (f : Nat) (c : FrameSt) (s : State), Shaped s → Canonical s →
    PortIdle s port → phy.header = .good → pk.crcOk = true → pk.dt ≠ 0x12 → pk.payload.length ≤ 65536 →
    packetFilters s port pk.vc pk.dt.toNat = [f] → (filterAt s (filterNo port f)).arr = .frame →
    (filterAt s (filterNo port f)).cur = some c → c.dead = false → slotFree s (filterNo port f) c.slot = true →
    pk.payload.length = lineBytes s (filterNo port f) → c.lines < fget s (Fd.intake_HEIGHT port f) →
    rangePermitted s (fget s (Fd.intake_PID port f))
      (slotBase s (filterNo port f) c.slot + c.lines * lineBytes s (filterNo port f)) pk.payload.length = true →
    pooled s (fget s (Fd.intake_PID port f))
      (slotBase s (filterNo port f) c.slot + c.lines * lineBytes s (filterNo port f)) = false →
    Runs (.longPacket port phy pk) s fun t =>
      filterAt t (filterNo port f) = { filterAt s (filterNo port f) with
        cur := some { c with lines := c.lines + 1, crc := pk.payload.foldl crc32cByte c.crc } } ∧
      (∀ i < 32, i ≠ filterNo port f → filterAt t i = filterAt s i) ∧
      memBytes t (slotBase s (filterNo port f) c.slot + c.lines * lineBytes s (filterNo port f)) pk.payload.length =
        pk.payload ∧
      BytesBut (slotBase s (filterNo port f) c.slot + c.lines * lineBytes s (filterNo port f)) pk.payload.length s t ∧
      t = { s with regs := t.regs, mem := t.mem, ecc := t.ecc, filters := t.filters, ledger := t.ledger, outbox := t.outbox
                   safety := { s.safety with corr := t.safety.corr, bus := t.safety.bus } }) ∧
  (∀ (port : Fin 8) (phy : PhyIn) (pk : LongPacket) (f : Nat) (c : FrameSt) (s : State), Shaped s →
    PortIdle s port → phy.header = .good → pk.crcOk = true → pk.dt ≠ 0x12 → pk.payload.length ≤ 65536 →
    packetFilters s port pk.vc pk.dt.toNat = [f] → (filterAt s (filterNo port f)).arr = .frame →
    (filterAt s (filterNo port f)).cur = some c → c.dead = false → slotFree s (filterNo port f) c.slot = true →
    pk.payload.length ≠ lineBytes s (filterNo port f) ∨ fget s (Fd.intake_HEIGHT port f) ≤ c.lines →
    Runs (.longPacket port phy pk) s fun t =>
      filterAt t (filterNo port f) = { filterAt s (filterNo port f) with
        cur := some { c with lines := c.lines + 1, broken := true } } ∧
      WordsBut (portWords port) s t ∧ t = { s with regs := t.regs, filters := t.filters }) ∧
  (∀ (port : Fin 8) (phy : PhyIn) (pk : LongPacket) (f : Nat) (c : FrameSt) (s : State), Shaped s →
    PortIdle s port → phy.header = .good → pk.crcOk = true → pk.dt = 0x12 → pk.payload.length ≤ 65536 →
    packetFilters s port pk.vc 0x12 = [f] → (filterAt s (filterNo port f)).arr = .frame →
    (filterAt s (filterNo port f)).cur = some c →
    Runs (.longPacket port phy pk) s fun t =>
      filterAt t (filterNo port f) = { filterAt s (filterNo port f) with
        cur := some { c with tags := c.tags + 1, tag := bytesAt pk.payload 0 16 } } ∧
      WordsBut (portWords port) s t ∧ t = { s with regs := t.regs, filters := t.filters }) ∧
  (∀ (port : Fin 8) (phy : PhyIn) (pk : LongPacket) (f : Nat) (s : State), Shaped s →
    fget s (Fd.intake_ENABLE port) = 1 → phy.header = .good → pk.crcOk = true →
    packetFilters s port pk.vc pk.dt.toNat = [f] → (filterAt s (filterNo port f)).arr = .frame →
    65536 < fifoFill s port + pk.payload.length →
    Runs (.longPacket port phy pk) s fun t =>
      fget t (Fd.intake_OVERFLOW port f) = (fget s (Fd.intake_OVERFLOW port f) + 1) % 2 ^ 32 ∧
      HasEvent t (0x070 + port) (8 + f) ∧ OnBus t 0x0A (0x070 + port) ∧
      (filterAt t (filterNo port f)).arr = .dropped ∧ PagesBut [0x070 + port.val] s t ∧
      t = { s with regs := t.regs, filters := t.filters, fifos := t.fifos
                   safety := { s.safety with bus := t.safety.bus }, outbox := t.outbox }) ∧
  (∀ (port : Fin 8) (phy : PhyIn) (pk : LongPacket) (s : State), Shaped s → PortIdle s port → phy.header = .bad →
    Runs (.longPacket port phy pk) s fun t =>
      fget t (Fd.intake_HDR_ECC_UNCORR port) = (fget s (Fd.intake_HDR_ECC_UNCORR port) + 1) % 2 ^ 32 ∧
      (∀ f < 4, (filterAt t (filterNo port f)).cur = if (filterAt s (filterNo port f)).arr = .frame
        then (filterAt s (filterNo port f)).cur.map fun c => { c with broken := true }
        else (filterAt s (filterNo port f)).cur) ∧
      WordsBut ((Fd.intake_HDR_ECC_UNCORR port).word :: portWords port) s t ∧
      t = { s with regs := t.regs, filters := t.filters }) ∧
  (∀ (port : Fin 8) (phy : PhyIn) (vc : Fin 16) (dt : BitVec 6) (s : State), fget s (Fd.intake_ENABLE port) = 1 →
    phy.header = .good → packetFilters s port vc dt.toNat = [] →
    Runs (.unknownPacket port phy vc dt) s fun t =>
      fget t (Fd.intake_UNKNOWN_PKT_COUNT port) =
        (fget s (Fd.intake_UNKNOWN_PKT_COUNT port) + if lineMark dt.toNat then 0 else 1) % 2 ^ 32 ∧
      WordsBut ((Fd.intake_UNKNOWN_PKT_COUNT port).word :: portWords port) s t ∧ t = { s with regs := t.regs })

/-- The Frame End checks (R378): a broken structure, a wrong tag line, a FRAME_COUNT that goes back and a wrong image CRC discard the
frame, a repeated one is counted, and one that passes becomes due; a Frame End that no Frame Start precedes is a discard. -/
def Obligations.FrameEndChecksInOrder : Prop :=
  (∀ (port : Fin 8) (phy : PhyIn) (vc : Fin 16) (fnum : W16) (f : Nat) (c : FrameSt) (s : State), Shaped s → PortIdle s port →
    phy.header = .good → filtersOfVc s port vc = [f] → (filterAt s (filterNo port f)).arr = .frame →
    (filterAt s (filterNo port f)).cur = some c → c.dead = false → slotFree s (filterNo port f) c.slot = true →
    structOk s (filterNo port f) c fnum.toNat = false →
    Runs (.frameEnd port phy vc fnum) s fun t =>
      filterAt t (filterNo port f) = { filterAt s (filterNo port f) with cur := none, arr := .idle } ∧
      fget t (Fd.intake_DISCARD_STRUCT port f) = (fget s (Fd.intake_DISCARD_STRUCT port f) + 1) % 2 ^ 32 ∧
      HasEvent t (0x070 + port) (8 + f) ∧ OnBus t 0x0A (0x070 + port) ∧ PagesBut [0x070 + port.val] s t ∧
      t = { s with regs := t.regs, filters := t.filters, safety := { s.safety with bus := t.safety.bus }
                   outbox := t.outbox }) ∧
  (∀ (port : Fin 8) (phy : PhyIn) (vc : Fin 16) (fnum : W16) (f : Nat) (s : State), Shaped s →
    fget s (Fd.intake_ENABLE port) = 1 → phy.header = .good → filtersOfVc s port vc = [f] →
    (filterAt s (filterNo port f)).arr = .idle →
    Runs (.frameEnd port phy vc fnum) s fun t =>
      fget t (Fd.intake_DISCARD_STRUCT port f) = (fget s (Fd.intake_DISCARD_STRUCT port f) + 1) % 2 ^ 32 ∧
      HasEvent t (0x070 + port) (8 + f) ∧ OnBus t 0x0A (0x070 + port) ∧ PagesBut [0x070 + port.val] s t ∧
      t = { s with regs := t.regs, safety := { s.safety with bus := t.safety.bus }, outbox := t.outbox }) ∧
  (∀ (port : Fin 8) (phy : PhyIn) (vc : Fin 16) (fnum : W16) (f : Nat) (c : FrameSt) (s : State), Shaped s → PortIdle s port →
    phy.header = .good → filtersOfVc s port vc = [f] → (filterAt s (filterNo port f)).arr = .frame →
    (filterAt s (filterNo port f)).cur = some c → c.dead = false → slotFree s (filterNo port f) c.slot = true →
    structOk s (filterNo port f) c fnum.toNat = true → fget s (Fd.intake_SENSOR_CHECK port f) = 1 → tagOk c = false →
    Runs (.frameEnd port phy vc fnum) s fun t =>
      filterAt t (filterNo port f) = { filterAt s (filterNo port f) with cur := none, arr := .idle } ∧
      fget t (Fd.intake_DISCARD_SENSOR port f) = (fget s (Fd.intake_DISCARD_SENSOR port f) + 1) % 2 ^ 32 ∧
      HasEvent t (0x070 + port) (12 + f) ∧ OnBus t 0x0A (0x070 + port) ∧ PagesBut [0x070 + port.val] s t ∧
      t = { s with regs := t.regs, filters := t.filters, safety := { s.safety with bus := t.safety.bus }
                   outbox := t.outbox }) ∧
  (∀ (port : Fin 8) (phy : PhyIn) (vc : Fin 16) (fnum : W16) (f : Nat) (c : FrameSt) (s : State), Shaped s → PortIdle s port →
    phy.header = .good → filtersOfVc s port vc = [f] → (filterAt s (filterNo port f)).arr = .frame →
    (filterAt s (filterNo port f)).cur = some c → c.dead = false → slotFree s (filterNo port f) c.slot = true →
    structOk s (filterNo port f) c fnum.toNat = true → fget s (Fd.intake_SENSOR_CHECK port f) = 1 → tagOk c = true →
    countStep (filterAt s (filterNo port f)).ref (leAt c.tag 2 4) = 0 →
    Runs (.frameEnd port phy vc fnum) s fun t =>
      filterAt t (filterNo port f) =
        { filterAt s (filterNo port f) with cur := none, arr := .idle, ref := some (leAt c.tag 2 4) } ∧
      fget t (Fd.intake_REPEATED port f) = (fget s (Fd.intake_REPEATED port f) + 1) % 2 ^ 32 ∧
      WordsBut ((Fd.intake_REPEATED port f).word :: portWords port) s t ∧ t = { s with regs := t.regs, filters := t.filters }) ∧
  (∀ (port : Fin 8) (phy : PhyIn) (vc : Fin 16) (fnum : W16) (f : Nat) (c : FrameSt) (s : State), Shaped s → Canonical s →
    PortIdle s port → phy.header = .good → filtersOfVc s port vc = [f] → (filterAt s (filterNo port f)).arr = .frame →
    (filterAt s (filterNo port f)).cur = some c → c.dead = false → slotFree s (filterNo port f) c.slot = true →
    structOk s (filterNo port f) c fnum.toNat = true → fget s (Fd.intake_SENSOR_CHECK port f) = 1 → tagOk c = true →
    countStep (filterAt s (filterNo port f)).ref (leAt c.tag 2 4) = 1 → leAt c.tag 6 4 = c.crc ^^^ 0xFFFFFFFF →
    frozenBad s (filterNo port f) (frozenNow (filterAt s (filterNo port f)) (leAt c.tag 6 4)) = false →
    rangePermitted s (fget s (Fd.intake_PID port f))
      (slotBase s (filterNo port f) c.slot + slotSize s (filterNo port f) - 4096) 4096 = true →
    pooled s (fget s (Fd.intake_PID port f))
      (slotBase s (filterNo port f) c.slot + slotSize s (filterNo port f) - 4096) = false →
    Runs (.frameEnd port phy vc fnum) s fun t =>
      filterAt t (filterNo port f) = { filterAt s (filterNo port f) with
        cur := none, arr := .idle, ref := some (leAt c.tag 2 4), due := some c
        frozenRun := frozenNow (filterAt s (filterNo port f)) (leAt c.tag 6 4) } ∧
      memBytes t (slotBase s (filterNo port f) c.slot + slotSize s (filterNo port f) - 4096) 4096 =
        bytesAt c.tag 0 4096 ∧
      BytesBut (slotBase s (filterNo port f) c.slot + slotSize s (filterNo port f) - 4096) 4096 s t ∧
      t = { s with regs := t.regs, mem := t.mem, ecc := t.ecc, filters := t.filters, ledger := t.ledger, outbox := t.outbox
                   safety := { s.safety with corr := t.safety.corr, bus := t.safety.bus } }) ∧
  (∀ (port : Fin 8) (phy : PhyIn) (vc : Fin 16) (fnum : W16) (f : Nat) (c : FrameSt) (s : State), Shaped s → PortIdle s port →
    phy.header = .good → filtersOfVc s port vc = [f] → (filterAt s (filterNo port f)).arr = .frame →
    (filterAt s (filterNo port f)).cur = some c → c.dead = false → slotFree s (filterNo port f) c.slot = true →
    structOk s (filterNo port f) c fnum.toNat = true → fget s (Fd.intake_SENSOR_CHECK port f) = 1 → tagOk c = true →
    countStep (filterAt s (filterNo port f)).ref (leAt c.tag 2 4) = 1 → leAt c.tag 6 4 ≠ c.crc ^^^ 0xFFFFFFFF →
    Runs (.frameEnd port phy vc fnum) s fun t =>
      filterAt t (filterNo port f) =
        { filterAt s (filterNo port f) with cur := none, arr := .idle, ref := some (leAt c.tag 2 4) } ∧
      fget t (Fd.intake_DISCARD_SENSOR port f) = (fget s (Fd.intake_DISCARD_SENSOR port f) + 1) % 2 ^ 32 ∧
      OnBus t 0x0A (0x070 + port) ∧ PagesBut [0x070 + port.val] s t ∧
      t = { s with regs := t.regs, filters := t.filters, safety := { s.safety with bus := t.safety.bus }
                   outbox := t.outbox })

/-- A frame is published with its postcard, its docket and its slot (R382–R385); enabling a filter is refused unless its fields
stand as they must, and while it is enabled only F_ENABLE may change (R370, R371). -/
def Obligations.FramesArePublishedWithTheirPostcards : Prop :=
  (∀ (port : Fin 8) (f : Fin 4) (slot : Nat) (c : FrameSt) (s : State), Shaped s → Canonical s →
    fifoAt s port = [] → (filterAt s (filterNo port f)).due = some c → c.slot = slot → slot < 8 →
    (filterAt s (filterNo port f)).order.length = 8 → slotFree s (filterNo port f) slot = true →
    rangePermitted s (fget s (Fd.intake_PID port f))
      (slotBase s (filterNo port f) slot + slotSize s (filterNo port f) - 4096 + 0x40) 256 = true →
    pooled s (fget s (Fd.intake_PID port f))
      (slotBase s (filterNo port f) slot + slotSize s (filterNo port f) - 4096 + 0x40) = false →
    Runs (.framePublish port f slot) s fun t =>
      memBytes t (slotBase s (filterNo port f) slot + slotSize s (filterNo port f) - 4096 + 0x40) 256 =
        postcard port f ((filterAt s (filterNo port f)).count % 2 ^ 16) (c.pm % 2 ^ 48) ∧
      BytesBut (slotBase s (filterNo port f) slot + slotSize s (filterNo port f) - 4096 + 0x40) 256 s t ∧
      fget t (Fd.intake_FRAMES_PUBLISHED port f) = (fget s (Fd.intake_FRAMES_PUBLISHED port f) + 1) % 2 ^ 32 ∧
      (filterAt t (filterNo port f)).due = none ∧ (filterAt t (filterNo port f)).newest = some slot ∧
      (filterAt t (filterNo port f)).count = (filterAt s (filterNo port f)).count + 1 ∧
      (∀ j < 8, (filterAt t (filterNo port f)).order.getD j 0 ≤ (filterAt t (filterNo port f)).order.getD slot 0) ∧
      ((mapFind t.streams (streamKey (fget s (Fd.intake_PID port f)) (fget s (Fd.intake_STREAM port f)))).bind
        (·.frame)).map (·.slot) = some slot ∧
      t = { s with regs := t.regs, mem := t.mem, ecc := t.ecc, filters := t.filters, streams := t.streams, ledger := t.ledger
                   safety := t.safety, outbox := t.outbox }) ∧
  (∀ (q : Requester) (port : Fin 8) (f : Fin 4) (v : W32) (be : BitVec 4) (s : State), Shaped s →
    writeReaches s q (0x070 + port) (0x080 + 0x40 * f) = true → fget s (Fd.hdr_LOCK (0x070 + port)) = 0 → be = 1 →
    fget s (Fd.intake_F_ENABLE port f) = 1 → v.toNat % 256 = regGet s (0x070 + port) (0x080 + 0x40 * f) % 256 - 1 →
    Runs (.fEnableWrite q port f v be) s fun t =>
      fget t (Fd.intake_F_ENABLE port f) = 0 ∧ fget t (Fd.intake_VC port f) = fget s (Fd.intake_VC port f) ∧
      filterAt t (filterNo port f) = { filterAt s (filterNo port f) with cur := none, arr := .dropped } ∧
      (∀ x ∈ fifoAt t port, x.filter ≠ filterNo port f) ∧
      WordsBut [(Fd.intake_F_ENABLE port f).word] s t ∧
      t = { s with regs := t.regs, filters := t.filters, fifos := t.fifos, safety := sameSafety s t }) ∧
  (∀ (q : Requester) (port : Fin 8) (f : Fin 4) (v : W32) (be : BitVec 4) (s : State), Shaped s →
    writeReaches s q (0x070 + port) (0x080 + 0x40 * f) = true → fget s (Fd.hdr_LOCK (0x070 + port)) = 0 → be = 1 →
    fget s (Fd.intake_F_ENABLE port f) = 0 → v.toNat % 256 = regGet s (0x070 + port) (0x080 + 0x40 * f) % 256 + 1 →
    enableOk s port f = true →
    Runs (.fEnableWrite q port f v be) s fun t =>
      fget t (Fd.intake_F_ENABLE port f) = 1 ∧
      filterAt t (filterNo port f) =
        { filterAt s (filterNo port f) with cur := none, arr := .dropped, ref := none, count := 0 } ∧
      WordsBut [(Fd.intake_F_ENABLE port f).word] s t ∧
      t = { s with regs := t.regs, filters := t.filters, fifos := t.fifos, safety := sameSafety s t }) ∧
  (∀ (q : Requester) (port : Fin 8) (f : Fin 4) (v : W32) (be : BitVec 4) (s : State),
    writeReaches s q (0x070 + port) (0x080 + 0x40 * f) = true → fget s (Fd.hdr_LOCK (0x070 + port)) = 0 → be = 1 →
    fget s (Fd.intake_F_ENABLE port f) = 0 → v.toNat % 256 = regGet s (0x070 + port) (0x080 + 0x40 * f) % 256 + 1 →
    enableOk s port f = false →
    Runs (.fEnableWrite q port f v be) s fun t =>
      fget t (Fd.intake_F_ENABLE port f) = 0 ∧ HasEvent t (0x070 + port) 0 ∧ PagesBut [0x070 + port.val] s t ∧
      t = { s with regs := t.regs, safety := sameSafety s t, outbox := t.outbox })

/-! ### The World Lattice -/

/-- LAT_EN is set only when the lattice's fields stand as they must (R398), and starts with no newest epoch (R399); clearing it
discards every build: a WORLD_UPDATE replies NOT_READY (R400). A WORLD_BUILD asks for the back buffer (R412), or completes while LAT_EN
is clear; the first build asked for obtains the buffer, and a WORLD_UPDATE that fails its validation replies BAD_FIELD at the failing
byte (R407, R412). That NEWEST_EPOCH stays 0 before the first publication is no part of this statement. -/
def Obligations.TheLatticeEnablesAndTakesBuilds : Prop :=
  (∀ (q : Requester) (v : W32) (be : BitVec 4) (s : State), writeReaches s q 0x090 0x040 = true →
    fget s (Fd.hdr_LOCK 0x090) = 0 → be = 1 → fget s Fd.lattice_LAT_EN = 0 →
    v.toNat % 256 = regGet s 0x090 0x040 % 256 + 1 → latticeOk s = true →
    Runs (.latEnWrite q v be) s fun t =>
      fget t Fd.lattice_LAT_EN = 1 ∧ fget t Fd.lattice_PUBLISHED = 0 ∧ fget t Fd.lattice_NEWEST_BUF = 0 ∧ backBuf t = 0 ∧
      t.lattice = ⟨[], none, 0, none⟩ ∧
      WordsBut [Fd.lattice_LAT_EN.word, Fd.lattice_PUBLISHED.word] s t ∧
      t = { s with regs := t.regs, lattice := t.lattice, safety := sameSafety s t }) ∧
  (∀ (q : Requester) (v : W32) (be : BitVec 4) (s : State), writeReaches s q 0x090 0x040 = true →
    fget s (Fd.hdr_LOCK 0x090) = 0 → be = 1 → fget s Fd.lattice_LAT_EN = 0 →
    v.toNat % 256 = regGet s 0x090 0x040 % 256 + 1 → latticeOk s = false →
    Runs (.latEnWrite q v be) s fun t =>
      fget t Fd.lattice_LAT_EN = 0 ∧ HasEvent t 0x090 0 ∧ PagesBut [0x090] s t ∧
      t = { s with regs := t.regs, safety := sameSafety s t, outbox := t.outbox }) ∧
  (∀ (q : Requester) (v : W32) (be : BitVec 4) (ch seq : Nat) (l : Letter) (s : State), writeReaches s q 0x090 0x040 = true →
    fget s (Fd.hdr_LOCK 0x090) = 0 → be = 1 → fget s Fd.lattice_LAT_EN = 1 →
    v.toNat % 256 = regGet s 0x090 0x040 % 256 - 1 → s.lattice.active.toList ++ s.lattice.queue = [.letter ch seq] →
    letterOf s ch seq = some l → l.phase ≠ .finished →
    Runs (.latEnWrite q v be) s fun t =>
      fget t Fd.lattice_LAT_EN = 0 ∧ fget t Fd.lattice_PUBLISHED = 0 ∧
      mapFind t.streams (streamKey (fget s Fd.lattice_LAT_PID) (fget s Fd.lattice_STREAM)) = none ∧
      (letterOf t ch seq).map (·.res) = some (Result.plain 0x14 0) ∧ (letterOf t ch seq).map (·.phase) = some .finished ∧
      (MirrorDirect s ch seq → BytesBut (mirrorAddr s ch seq) 128 s t) ∧
      t.lattice = ⟨[], none, 0, none⟩ ∧ TaskFrame { s with lattice := t.lattice } t) ∧
  (∀ (k : Nat) (x : Task) (s : State), taskOf s k = some x → x.disp.isSome = true → x.computed = false → x.code = 0x061 →
    k < s.sched.nextId → fget s Fd.lattice_LAT_EN = 0 →
    Runs (.worldBuild k) s fun t => taskOf t k = none ∧ TaskFrame s t) ∧
  (∀ (k : Nat) (x : Task) (s : State), taskOf s k = some x → x.disp.isSome = true → x.computed = false → x.code = 0x061 →
    fget s Fd.lattice_LAT_EN = 1 →
    Runs (.worldBuild k) s fun t =>
      t.lattice = { s.lattice with queue := s.lattice.queue ++ [.task k] } ∧
      taskOf t k = some { x with computed := true } ∧ OtherTasks k s t ∧
      fget t Fd.lattice_BUILD_WAIT_COUNT = (fget s Fd.lattice_BUILD_WAIT_COUNT +
        if backHeld s = true ∨ s.lattice.active ≠ none ∨ s.lattice.queue ≠ [] then 1 else 0) % 2 ^ 32 ∧
      WordsBut [Fd.lattice_BUILD_WAIT_COUNT.word] s t ∧
      t = { s with regs := t.regs, lattice := t.lattice, sched := { s.sched with tasks := t.sched.tasks } }) ∧
  (∀ (ch seq : Nat) (rest : List BuildSrc) (l : Letter) (s : State), fget s Fd.lattice_LAT_EN = 1 →
    s.lattice.active = none → backHeld s = false → s.lattice.queue = .letter ch seq :: rest → letterOf s ch seq = some l →
    l.phase = .accepted → updateFault s l = none →
    Runs .buildStart s fun t =>
      t.lattice = { s.lattice with queue := rest, active := some (.letter ch seq) } ∧
      (letterOf t ch seq).map (·.phase) = some .started ∧ (letterOf t ch seq).map (·.startPm) = some (now s) ∧
      TaskFrame { s with lattice := t.lattice } t ∧ (MirrorDirect s ch seq → BytesBut (mirrorAddr s ch seq) 128 s t) ∧
      t.sched = s.sched) ∧
  (∀ (ch seq o : Nat) (rest : List BuildSrc) (l : Letter) (s : State), fget s Fd.lattice_LAT_EN = 1 →
    s.lattice.active = none → backHeld s = false → s.lattice.queue = .letter ch seq :: rest → letterOf s ch seq = some l →
    l.phase = .accepted → updateFault s l = some o →
    Runs .buildStart s fun t =>
      t.lattice = { s.lattice with queue := rest } ∧
      (letterOf t ch seq).map (·.res) = some (Result.plain 0x12 (0x20000000 + o)) ∧
      (letterOf t ch seq).map (·.phase) = some .finished ∧
      TaskFrame { s with lattice := t.lattice } t ∧ (MirrorDirect s ch seq → BytesBut (mirrorAddr s ch seq) 128 s t) ∧
      t.sched = s.sched) ∧
  (∀ (k : Nat) (rest : List BuildSrc) (x : Task) (s : State), fget s Fd.lattice_LAT_EN = 1 →
    s.lattice.active = none → backHeld s = false → s.lattice.queue = .task k :: rest → taskOf s k = some x →
    Runs .buildStart s fun t =>
      t = { s with lattice := { s.lattice with queue := rest, active := some (.task k) } })

/-- A publication (R407–R411): the back buffer becomes the newest, with the next epoch number and a docket that the buffer's stream
entry and the Letter's Reply carry; the supplied parts, the header and its CRC stand in the buffer, and no byte outside it
changes but the mirror entry's. -/
def Obligations.EpochsArePublishedWhole : Prop :=
  (∀ (ch seq : Nat) (l : Letter) (s : State), Canonical s → s.lattice.active = some (.letter ch seq) →
    letterOf s ch seq = some l → l.phase = .started → MirrorDirect s ch seq →
    mirrorAddr s ch seq + 128 ≤ bufAddr s (backBuf s) ∨ bufAddr s (backBuf s) + 0x481000 ≤ mirrorAddr s ch seq →
    Runs .epochPublish s fun t =>
      t.lattice.active = none ∧ t.lattice.queue = s.lattice.queue ∧ t.lattice.seq = s.lattice.seq + 1 ∧
      fget t Fd.lattice_PUBLISHED = 1 ∧ fget t Fd.lattice_NEWEST_BUF = backBuf s ∧
      fget t Fd.lattice_NEWEST_EPOCH =
        (if s.lattice.seq = 0 then 0 else (fget s Fd.lattice_NEWEST_EPOCH + 1) % 2 ^ 16) ∧
      fget t Fd.lattice_PUBLISH_COUNT = (fget s Fd.lattice_PUBLISH_COUNT + 1) % 2 ^ 32 ∧
      memBytes t (bufAddr s (backBuf s)) 4 = leBytes 4 0x5A435745 ∧
      memBytes t (bufAddr s (backBuf s) + 4) 2 = leBytes 2 (fget t Fd.lattice_NEWEST_EPOCH) ∧
      memBytes t (bufAddr s (backBuf s) + 0xFFC) 4 =
        leBytes 4 (crc32c (memBytes t (bufAddr s (backBuf s)) 0xFFC)) ∧
      (bit (partsArg l) 0 = true →
        memBytes t (bufAddr s (backBuf s) + 0x1000) 0x200000 = bytesAt l.data 64 0x200000) ∧
      BytesButTwo (bufAddr s (backBuf s)) 0x481000 (mirrorAddr s ch seq) 128 s t ∧
      (letterOf t ch seq).map (·.phase) = some .finished ∧
      ((letterOf t ch seq).map (·.res.docket) = some t.lattice.newest) ∧
      (letterOf t ch seq).map (·.res.result) = some (leBytes 2 (fget t Fd.lattice_NEWEST_EPOCH)) ∧
      (mapFind t.streams (streamKey (fget s Fd.lattice_LAT_PID) (fget s Fd.lattice_STREAM))).map (·.docket) =
        t.lattice.newest ∧
      TaskFrame { s with lattice := t.lattice } t) ∧
  (∀ (ch seq : Nat) (l : Letter) (s : State), s.lattice.active = some (.letter ch seq) →
    letterOf s ch seq = some l → l.phase = .started → partsArg l = 3 → fget s Fd.safety_SAFE_STATE = 0 →
    tooOld s (updateSource l) (ageLimit s l.pid 0) = false → fget s Fd.lattice_NEWEST_EPOCH < 2 ^ 16 →
    Runs .epochPublish s fun t =>
      t.lattice.newest = some (mkDocket (fget s Fd.lattice_LAT_PID) (fget s Fd.lattice_STREAM)
        (fget t Fd.lattice_NEWEST_EPOCH) s.lattice.seq (updateSource l) (fget s Fd.lattice_SCLASS) 0)) ∧
  (∀ (k : Nat) (x : Task) (s : State), Canonical s → s.lattice.active = some (.task k) → taskOf s k = some x →
    k < s.sched.nextId → MirrorDirect s x.ch x.seq →
    Runs .epochPublish s fun t =>
      taskOf t k = none ∧ t.lattice.active = none ∧ t.lattice.queue = s.lattice.queue ∧
      fget t Fd.lattice_PUBLISHED = 1 ∧ fget t Fd.lattice_NEWEST_BUF = backBuf s ∧
      fget t Fd.lattice_PUBLISH_COUNT = (fget s Fd.lattice_PUBLISH_COUNT + 1) % 2 ^ 32 ∧
      BytesButTwo (bufAddr s (backBuf s)) 0x481000 (mirrorAddr s x.ch x.seq) 128 s t)

/-! ### Scribe -/

/-- Checks that meet no fault pass. A macro-operation without faults passes its tally check: the three identities of R307 hold at
every comparison of every tile (R307, R308), and the block sums of the other MOPs agree (R309), whatever the operands hold; and its
residues agree (R309). The mirror sweep, which runs on negated values, gives every record as the primary sweep does (R432): an error
of one set alone is a difference. -/
def Obligations.FaultFreeMacroOperationsAndSweepsPassTheirChecks : Prop :=
  (∀ (s : State) (x : Task) (p : List W32) (o : OpDesc),
    (∀ n, tallyFails [] s p o x n = false) ∧ tallyUnits s x p o [] = [] ∧ residueUnits s x p o [] [] = []) ∧
  (∀ (epoch body : List Byte) (c : Candidate) (samples : Nat),
    sweepRecord epoch body true c samples = sweepRecord epoch body false c samples) ∧
  (∀ (g : SweepArgs) (x : Task), sweepRecords g x true = sweepRecords g x false ∧ setGives g x true [] = setGives g x false []) ∧
  (∀ (g : SweepArgs) (x : Task) (faults : List SweepFault), (∀ f ∈ faults, f.mirror = false) →
    (sweepDiffers x g (setGives g x false faults) (setGives g x true faults) = [] ↔
      ∀ pair < sweepSets x, compared x g pair (setGives g x false faults) = compared x g pair (setGives g x false [])))

/-- A sweep forms one record for each candidate, and the summary (R424–R426); its end counts it on its engines, and reports each pair
of engines whose records differ (R433, R435); a sweep that waits for an epoch starts when that epoch is published, or ends at the
deadline or the wait limit (R428). -/
def Obligations.SweepsFormTheirRecordsAndEnd : Prop :=
  (∀ (k : Nat) (x : Task) (p : PlanSt) (o : OpDesc) (s : State), RunsOperator s k 0x060 x p o →
    Runs (.sweepOperator k) s fun t =>
      Formed k x ([sweepRecords (opSweep o) x false] ++ if o.outs.length < 2 then []
        else [summaryOf (opSweep o) x (sweepRecords (opSweep o) x false)]) s t ∧
      t.regs = s.regs ∧ t.freeCount = s.freeCount) ∧
  (∀ (k : Nat) (faults : List SweepFault) (x : Task) (l : Letter) (u : Nat) (s : State), taskOf s k = some x →
    letterOf s x.ch x.seq = some l → x.kind = .scribe → x.disp.isSome = true →
    (x.computed = true ∨ l.op = 0x08) → x.sclass = 0 →
    x.units = [u] → u < 18 → k < s.sched.nextId → dramReady s x = true →
    Runs (.sweepComplete k faults) s fun t =>
      taskOf t k = none ∧
      fget t (Fd.scribe_SWEEP_COUNT u) = (fget s (Fd.scribe_SWEEP_COUNT u) + 1) % 2 ^ 32 ∧
      fget t (Fd.scribe_CAND_COUNT_DONE u) =
        (fget s (Fd.scribe_CAND_COUNT_DONE u) + (sweepArgs s x l).count) % 2 ^ 32 ∧
      fget t (Fd.scribe_LIMITED_COUNT u) = (fget s (Fd.scribe_LIMITED_COUNT u) +
        limitedIn (setGives (sweepArgs s x l) x false faults).1 0 (sweepArgs s x l).count) % 2 ^ 32 ∧
      fget t (Fd.scribe_BUSY_CYCLES u) =
        (fget s (Fd.scribe_BUSY_CYCLES u) + sweepCycles x (sweepArgs s x l)) % 2 ^ 32 ∧
      fget t (Fd.scribe_SWEEP_MISMATCH_COUNT u) = fget s (Fd.scribe_SWEEP_MISMATCH_COUNT u) ∧ TaskFrame s t) ∧
  (∀ (k : Nat) (faults : List SweepFault) (x : Task) (l : Letter) (u w : Nat) (s : State), taskOf s k = some x →
    letterOf s x.ch x.seq = some l → x.kind = .scribe → x.disp.isSome = true →
    (x.computed = true ∨ l.op = 0x08) → x.sclass ≠ 0 →
    x.units = [u, w] → u < 18 → w < 18 → u ≠ w → k < s.sched.nextId → dramReady s x = true →
    Runs (.sweepComplete k faults) s fun t =>
      taskOf t k = none ∧
      fget t (Fd.scribe_SWEEP_COUNT u) = (fget s (Fd.scribe_SWEEP_COUNT u) + 1) % 2 ^ 32 ∧
      fget t (Fd.scribe_SWEEP_COUNT w) = (fget s (Fd.scribe_SWEEP_COUNT w) + 1) % 2 ^ 32 ∧
      (setGives (sweepArgs s x l) x false faults = setGives (sweepArgs s x l) x true faults ∨ faults = [] →
        fget t (Fd.scribe_SWEEP_MISMATCH_COUNT u) = fget s (Fd.scribe_SWEEP_MISMATCH_COUNT u) ∧
        fget t (Fd.scribe_SWEEP_MISMATCH_COUNT w) = fget s (Fd.scribe_SWEEP_MISMATCH_COUNT w)) ∧
      (compared x (sweepArgs s x l) 0 (setGives (sweepArgs s x l) x false faults) ≠
          compared x (sweepArgs s x l) 0 (setGives (sweepArgs s x l) x true faults) →
        fget t (Fd.scribe_SWEEP_MISMATCH_COUNT u) = (fget s (Fd.scribe_SWEEP_MISMATCH_COUNT u) + 1) % 2 ^ 32 ∧
        fget t (Fd.scribe_SWEEP_MISMATCH_COUNT w) = (fget s (Fd.scribe_SWEEP_MISMATCH_COUNT w) + 1) % 2 ^ 32 ∧
        HasEvent t (0x020 + u) 8 ∧ HasEvent t (0x020 + w) 8 ∧ OnBus t 0x06 (0x020 + u)) ∧ TaskFrame s t) ∧
  (∀ (k sel : Nat) (x : Task) (l : Letter) (s : State), taskOf s k = some x → x.epochSel = some sel →
    letterOf s x.ch x.seq = some l → fget s Fd.lattice_PUBLISHED = 1 →
    later 16 sel (fget s Fd.lattice_NEWEST_EPOCH) = false →
    Runs (.sweepEpochWaitEnd k) s fun t =>
      taskOf t k = some { x with epochSel := none } ∧ OtherTasks k s t ∧
      t = { s with sched := { s.sched with tasks := t.sched.tasks } }) ∧
  (∀ (k sel : Nat) (x : Task) (l : Letter) (s : State), taskOf s k = some x → x.epochSel = some sel →
    letterOf s x.ch x.seq = some l → l.phase ≠ .finished →
    fget s Fd.lattice_PUBLISHED = 0 ∨ later 16 sel (fget s Fd.lattice_NEWEST_EPOCH) = true → pastDeadline s l = true →
    Runs (.sweepEpochWaitEnd k) s fun t =>
      taskOf t k = none ∧ OtherTasks k s t ∧
      (letterOf t x.ch x.seq).map (·.res) = some (Result.plain 0x21 0) ∧
      (letterOf t x.ch x.seq).map (·.phase) = some .finished ∧
      (MirrorDirect s x.ch x.seq → BytesBut (mirrorAddr s x.ch x.seq) 128 s t) ∧ TaskFrame s t) ∧
  (∀ (k sel : Nat) (x : Task) (l : Letter) (s : State), taskOf s k = some x → x.epochSel = some sel →
    letterOf s x.ch x.seq = some l → l.phase ≠ .finished → x.pid < 16 → x.level < 16 →
    fget s Fd.lattice_PUBLISHED = 0 ∨ later 16 sel (fget s Fd.lattice_NEWEST_EPOCH) = true → l.l.deadline = 0 →
    l.acceptPm + fget s (Fd.sched_WAIT_LIMIT_PT x.pid) < now s →
    Runs (.sweepEpochWaitEnd k) s fun t =>
      taskOf t k = none ∧ OtherTasks k s t ∧
      (letterOf t x.ch x.seq).map (·.res) = some (Result.plain 0x21 0x40000000) ∧
      (letterOf t x.ch x.seq).map (·.phase) = some .finished ∧
      mapGet (0 : W32) t.sched.obs (pidObs x.pid 2) = mapGet (0 : W32) s.sched.obs (pidObs x.pid 2) + 1 ∧
      (MirrorDirect s x.ch x.seq → BytesBut (mirrorAddr s x.ch x.seq) 128 s t) ∧ TaskFrame s t)

/-! ### Sorter -/

/-- TOPK, SORT and COMPACT form the keys, the indices, the mass record and the values of each row (R447, R452–R455); the end of a
Sorter task counts it, and a failed check of the mass or of the order is counted and reported (R459, R460, R473). -/
def Obligations.SorterTasksFormTheirRowsAndEnd : Prop :=
  (∀ (k : Nat) (x : Task) (p : PlanSt) (o : OpDesc) (s : State), RunsOperator s k 0x050 x p o →
    Runs (.topk k) s fun t =>
      Formed k x (sortOuts p.words o (opAsk s p o x (sortShape p.words o)) ((List.range (sortShape p.words o).rows).map fun r =>
        sortRow (opAsk s p o x (sortShape p.words o))
          (opRow (sortShape p.words o) (x.inData.getD 0 []) (x.inData.getD 1 []) r))) s t ∧
      t.regs = s.regs ∧ t.freeCount = s.freeCount) ∧
  (∀ (k : Nat) (x : Task) (p : PlanSt) (o : OpDesc) (s : State), RunsOperator s k 0x051 x p o →
    Runs (.sort k) s fun t =>
      Formed k x (sortOuts p.words o (opAsk s p o x (sortShape p.words o)) ((List.range (sortShape p.words o).rows).map fun r =>
        sortRow (opAsk s p o x (sortShape p.words o))
          (opRow (sortShape p.words o) (x.inData.getD 0 []) (x.inData.getD 1 []) r))) s t ∧
      t.regs = s.regs ∧ t.freeCount = s.freeCount) ∧
  (∀ (k : Nat) (x : Task) (p : PlanSt) (o : OpDesc) (s : State), RunsOperator s k 0x052 x p o →
    Runs (.compact k) s fun t =>
      Formed k x (sortOuts p.words o (opAsk s p o x (sortShape p.words o)) ((List.range (sortShape p.words o).rows).map fun r =>
        sortRow (opAsk s p o x (sortShape p.words o))
          (opRow (sortShape p.words o) (x.inData.getD 0 []) (x.inData.getD 1 []) r))) s t ∧
      t.regs = s.regs ∧ t.freeCount = s.freeCount) ∧
  (∀ (k : Nat) (faults : List SortFault) (x : Task) (l : Letter) (u : Nat) (s : State), taskOf s k = some x →
    letterOf s x.ch x.seq = some l → x.kind = .sorter → x.disp.isSome = true →
    (x.computed = true ∨ l.op = 0x09) → x.units = [u] → u < 4 →
    k < s.sched.nextId → dramReady s x = true →
    Runs (.sorterTaskComplete k faults) s fun t =>
      taskOf t k = none ∧
      fget t (Fd.sorter_TASK_COUNT u) = (fget s (Fd.sorter_TASK_COUNT u) + 1) % 2 ^ 32 ∧
      fget t (Fd.sorter_MASS_CHECK_COUNT u) = (fget s (Fd.sorter_MASS_CHECK_COUNT u) +
        (failedRows (sortJob s x l) faults fun q row r => massAgrees q row r).length) % 2 ^ 32 ∧
      fget t (Fd.sorter_ORDER_CHECK_COUNT u) = (fget s (Fd.sorter_ORDER_CHECK_COUNT u) +
        (failedRows (sortJob s x l) faults fun q row r => orderHolds q row r.items).length) % 2 ^ 32 ∧
      (failedRows (sortJob s x l) faults (fun q row r => massAgrees q row r) ≠ [] →
        HasEvent t (0x038 + u) 8 ∧ OnBus t 0x08 (0x038 + u)) ∧
      (failedRows (sortJob s x l) faults (fun q row r => orderHolds q row r.items) ≠ [] →
        HasEvent t (0x038 + u) 9 ∧ OnBus t 0x08 (0x038 + u)) ∧ TaskFrame s t)

/-- Ranking and compaction (R443, R452–R454): the ordinals of integers are ordered as the integers are; the items written are the
first min(k, row length) in ranking order, they and the items left out are together the row, and every item written ranks before
every item left out; compaction keeps the items at or past the threshold in index order, whatever it leaves out is not past it, and
it writes the first k. -/
def Obligations.TheSorterRanksAndCompacts : Prop :=
  (∀ a b w : Nat, w = 1 ∨ w = 2 → a < 2 ^ (8 * keyBytes (2 * w)) → b < 2 ^ (8 * keyBytes (2 * w)) →
    (ordOf (2 * w) a < ordOf (2 * w) b ↔ a < b) ∧
    (ordOf (2 * w - 1) a < ordOf (2 * w - 1) b ↔
      toSigned (8 * keyBytes (2 * w)) a < toSigned (8 * keyBytes (2 * w)) b)) ∧
  (∀ (q : SortAsk) (row : List Item), q.threshold = none → q.fast = none → (row.map (·.pos)).Nodup →
    (selectItems q row).1.length = min q.k row.length ∧
    ((selectItems q row).1 ++ (selectItems q row).2.2).Perm row ∧
    (selectItems q row).1.Pairwise (fun a b => ranksBefore q a b = true) ∧
    (∀ a ∈ (selectItems q row).1, ∀ b ∈ (selectItems q row).2.2, ranksBefore q a b = true) ∧
    (sortRow q row).sel.count + (sortRow q row).out.count = row.length) ∧
  (∀ (q : SortAsk) (row : List Item) (n : Nat), q.threshold = some n →
    (selectItems q row).1 = (selectItems q row).2.1.take q.k ∧
    (selectItems q row).2.1.Sublist row ∧ (selectItems q row).2.2.Sublist row ∧
    (∀ x ∈ row, x ∈ (selectItems q row).2.1 ↔
      (if q.smallest then ordOf q.keyType x.key ≤ ordOf q.keyType n else ordOf q.keyType n ≤ ordOf q.keyType x.key)) ∧
    (sortRow q row).sel.count + (sortRow q row).out.count = row.length ∧
    ((sortRow q row).overflow = true ↔ q.k < (sortRow q row).sel.count))

/-! ### Plane -/

/-- The Plane operators solve their problem: x and y, the status record and the certificate (R476, R491, R497–R499); a problem
with an input fault gives a record that names it, and outputs marked INVALID (R482). The end of a solve counts it by its state and
reports a residue mismatch (R501, R502); a SOLVE Letter with an input fault replies BAD_FIELD and writes nothing (R482). -/
def Obligations.PlaneSolversSolveOrNameTheFault : Prop :=
  (∀ (k : Nat) (x : Task) (p : PlanSt) (o : OpDesc) (s : State), RunsOperator s k 0x070 x p o →
    problemFault (x.inData.getD 0 []) 0 (some (o.param 2, o.param 3)) = none →
    Runs (.qpSolve k) s fun t =>
      Formed k x ([vecBytes (o.param 2) (runSolve s x (x.inData.getD 0 []) (o.param 0)
            (if o.param 1 = 0 then none else some (x.disp.getD 0 + o.param 1)) 0 (some (o.param 2, o.param 3))).2.x ++
          vecBytes (o.param 3) (runSolve s x (x.inData.getD 0 []) (o.param 0)
            (if o.param 1 = 0 then none else some (x.disp.getD 0 + o.param 1)) 0 (some (o.param 2, o.param 3))).2.y,
          (runSolve s x (x.inData.getD 0 []) (o.param 0)
            (if o.param 1 = 0 then none else some (x.disp.getD 0 + o.param 1)) 0
            (some (o.param 2, o.param 3))).2.record] ++
        if o.outs.length < 3 then [] else [vecBytes (max (o.param 2) (o.param 3)) (runSolve s x (x.inData.getD 0 [])
          (o.param 0) (if o.param 1 = 0 then none else some (x.disp.getD 0 + o.param 1)) 0
          (some (o.param 2, o.param 3))).2.certVec]) s t ∧
      t.regs = s.regs ∧ (x.strict = true → t.freeCount = s.freeCount)) ∧
  (∀ (k : Nat) (x : Task) (p : PlanSt) (o : OpDesc) (s : State), RunsOperator s k 0x071 x p o →
    problemFault (x.inData.getD 0 []) 1 (some (o.param 2, o.param 3)) = none →
    Runs (.cholesky k) s fun t =>
      Formed k x ([vecBytes (o.param 2) (solveDense (x.inData.getD 0 []) (problemOf (x.inData.getD 0 []))).x ++
          vecBytes (o.param 3) (solveDense (x.inData.getD 0 []) (problemOf (x.inData.getD 0 []))).y,
          (solveDense (x.inData.getD 0 []) (problemOf (x.inData.getD 0 []))).record] ++
        if o.outs.length < 3 then [] else [vecBytes (max (o.param 2) (o.param 3))
          (solveDense (x.inData.getD 0 []) (problemOf (x.inData.getD 0 []))).certVec]) s t ∧
      t.regs = s.regs ∧ t.freeCount = s.freeCount) ∧
  (∀ (k : Nat) (x : Task) (p : PlanSt) (o : OpDesc) (s : State), RunsOperator s k 0x072 x p o →
    problemFault (x.inData.getD 0 []) 2 (some (o.param 2, o.param 3)) = none →
    Runs (.cg k) s fun t =>
      (taskOf t k).map (fun y => y.outs.getD 1 []) = some (runSolve s x (x.inData.getD 0 []) (o.param 0)
        (if o.param 1 = 0 then none else some (x.disp.getD 0 + o.param 1)) 2 (some (o.param 2, o.param 3))).2.record ∧
      (taskOf t k).map (·.computed) = some true ∧ OtherTasks k s t ∧
      (x.strict = true → t.freeCount = s.freeCount) ∧
      t = { s with sched := { s.sched with tasks := t.sched.tasks }, freeCount := t.freeCount }) ∧
  (∀ (k f : Nat) (e : Instr × Nat) (x : Task) (p : PlanSt) (o : OpDesc) (s : State),
    e ∈ [(Instr.qpSolve k, 0x070), (Instr.cholesky k, 0x071), (Instr.cg k, 0x072)] → RunsOperator s k e.2 x p o →
    problemFault (x.inData.getD 0 []) (e.2 - 0x070) (some (o.param 2, o.param 3)) = some f →
    Runs e.1 s fun t =>
      (taskOf t k).map (fun y => y.outs.getD 1 []) = some (faulted f).record ∧
      (taskOf t k).map (·.flags) = some (x.flags ||| flagInvalid) ∧
      (taskOf t k).map (·.computed) = some true ∧ OtherTasks k s t ∧ t.regs = s.regs) ∧
  (∀ (k : Nat) (ops : List PlaneOp) (x : Task) (l : Letter) (u : Nat) (s : State), taskOf s k = some x →
    letterOf s x.ch x.seq = some l → x.kind = .plane → x.disp.isSome = true → x.computed = true → l.op ≠ 0x0A →
    x.units = [u] → u < 2 → k < s.sched.nextId → dramReady s x = true →
    Runs (.planeSolveComplete k ops) s fun t =>
      taskOf t k = none ∧
      fget t (Fd.plane_TASK_COUNT u) = (fget s (Fd.plane_TASK_COUNT u) + 1) % 2 ^ 32 ∧
      fget t (Fd.plane_ITER_COUNT u) =
        (fget s (Fd.plane_ITER_COUNT u) + leAt (x.outs.getD 1 []) 4 4) % 2 ^ 32 ∧
      fget t (Fd.plane_INPUT_FAULT_COUNT u) =
        (fget s (Fd.plane_INPUT_FAULT_COUNT u) + if leAt (x.outs.getD 1 []) 0 1 = 0 then 1 else 0) % 2 ^ 32 ∧
      fget t (Fd.plane_CONVERGED_COUNT u) =
        (fget s (Fd.plane_CONVERGED_COUNT u) + if leAt (x.outs.getD 1 []) 0 1 = 1 then 1 else 0) % 2 ^ 32 ∧
      fget t (Fd.plane_RESIDUE_ERR_COUNT u) = (fget s (Fd.plane_RESIDUE_ERR_COUNT u) +
        if leAt (x.outs.getD 1 []) 0 1 = 0 ∨ ∀ op ∈ ops, PlaneOp.agrees op = true then 0 else 1) % 2 ^ 32 ∧
      (leAt (x.outs.getD 1 []) 0 1 ≠ 0 → (∃ op ∈ ops, PlaneOp.agrees op = false) →
        HasEvent t (0x03C + u) 8 ∧ OnBus t 0x05 (0x03C + u)) ∧ TaskFrame s t) ∧
  (∀ (k : Nat) (ops : List PlaneOp) (x : Task) (l : Letter) (u : Nat) (s : State), taskOf s k = some x →
    letterOf s x.ch x.seq = some l → x.kind = .plane → x.disp.isSome = true → l.op = 0x0A →
    problemFault (x.inData.getD 0 []) (arg l.l 0x20 1) none = none → x.units = [u] → u < 2 → k < s.sched.nextId →
    dramReady s x = true →
    Runs (.planeSolveComplete k ops) s fun t =>
      taskOf t k = none ∧
      fget t (Fd.plane_TASK_COUNT u) = (fget s (Fd.plane_TASK_COUNT u) + 1) % 2 ^ 32 ∧
      fget t (Fd.plane_INPUT_FAULT_COUNT u) = fget s (Fd.plane_INPUT_FAULT_COUNT u) ∧
      fget t (Fd.plane_RESIDUE_ERR_COUNT u) = (fget s (Fd.plane_RESIDUE_ERR_COUNT u) +
        if ∀ op ∈ ops, PlaneOp.agrees op = true then 0 else 1) % 2 ^ 32 ∧ TaskFrame s t) ∧
  (∀ (k f : Nat) (ops : List PlaneOp) (x : Task) (l : Letter) (u : Nat) (s : State), taskOf s k = some x →
    letterOf s x.ch x.seq = some l → x.kind = .plane → x.disp.isSome = true → l.op = 0x0A → l.phase ≠ .finished →
    problemFault (x.inData.getD 0 []) (arg l.l 0x20 1) none = some f → x.units = [u] → u < 2 → dramReady s x = true →
    Runs (.planeSolveComplete k ops) s fun t =>
      taskOf t k = none ∧ OtherTasks k s t ∧
      (letterOf t x.ch x.seq).map (·.res) = some (Result.plain 0x12 (0x08000000 + f)) ∧
      (letterOf t x.ch x.seq).map (·.phase) = some .finished ∧
      fget t (Fd.plane_INPUT_FAULT_COUNT u) = (fget s (Fd.plane_INPUT_FAULT_COUNT u) + 1) % 2 ^ 32 ∧
      fget t (Fd.plane_RESIDUE_ERR_COUNT u) = fget s (Fd.plane_RESIDUE_ERR_COUNT u) ∧
      (MirrorDirect s x.ch x.seq → BytesBut (mirrorAddr s x.ch x.seq) 128 s t) ∧ t.streams = s.streams ∧ TaskFrame s t) ∧
  (∀ (a b c n d rem root : Int), PlaneOp.agrees (.mulAdd a b c (a * b + c)) = true ∧
    PlaneOp.agrees (.divide n d (n / d) (n % d)) = true ∧ (n = root * root + rem → PlaneOp.agrees (.root n root rem) = true))

/-- Every solve ends within its cap, in one of the states of the status record (R491): CONVERGED, CAPPED at the cap, DEADLINE at or
after the iterate at which the deadline holds, or infeasible; a dense Cholesky takes no iterations (R497). -/
def Obligations.SolvesEndWithinTheirCap : Prop :=
  ∀ (b : List Byte) (cap : Nat) (stop : Option Nat),
    (solve b cap stop).iters ≤ cap ∧ (solve b cap stop).state ∈ [1, 2, 3, 4, 5] ∧
    ((solve b cap stop).state = 2 → (solve b cap stop).iters = cap) ∧
    ((solve b cap stop).state = 3 → ∃ n ∈ stop, n ≤ (solve b cap stop).iters) ∧
    ((problemOf b).kind = 1 → (solve b cap stop).iters = 0)

/-! ### Letters: reading, judging, starting, replying -/

/-- The next entry of the ring read next (R53, R132), when steps 1 to 9 of R82 pass, is accepted (R84, R86, R102, R103): the Letter of
each opcode enters the window IN_FLIGHT, its ACCEPTED version is queued, a credited one counts, and nothing is answered yet. -/
def Obligations.LettersAreReadAndAccepted : Prop :=
  ∀ (ch : Fin 64) (l : LetterIn) (data : List Byte) (e : LetterCmd) (s : State), e ∈ letterCmds ch l data → e.fits l →
    ch.val < s.chans.length → ReadsNext s ch e.op l → Admitted s ch e.op l e.data →
    Runs e.cmd s fun t =>
      (∃ x : Letter, t.letters = s.letters ++ [x] ∧ x.ch = ch ∧ x.op = e.op ∧ x.l = l ∧ x.pid = fget s (Fd.chan_PID ch) ∧
        x.phase = .accepted ∧ x.acceptPm = now s ∧ x.ord = s.ord ∧ x.commit = 0 ∧ x.data = keptData s e.op l e.data) ∧
      fget t (Fd.chan_LRING_HEAD ch) = (fget s (Fd.chan_LRING_HEAD ch) + 1) % 2 ^ 16 ∧
      fget t (Fd.chan_IN_FLIGHT ch) = (fget s (Fd.chan_IN_FLIGHT ch) + b2n (creditedOp e.op)) % 2 ^ 10 ∧
      fget t Fd.dev_DEV_IN_FLIGHT = (fget s Fd.dev_DEV_IN_FLIGHT + b2n (creditedOp e.op)) % 2 ^ 10 ∧
      fget t Fd.dev_LOOSE_IN_FLIGHT = (fget s Fd.dev_LOOSE_IN_FLIGHT +
        b2n (creditedOp e.op && !strictPid s (fget s (Fd.chan_PID ch)))) % 2 ^ 10 ∧
      classify t ch l.seq.toNat = .inFlight ∧
      (∃ v ∈ t.daybook.queue, v.state = 1 ∧ v.ch = ch ∧ v.op = e.op ∧ v.seq = l.seq.toNat ∧ v.acceptPm = now48 s) ∧
      WordsBut [(Fd.chan_IN_FLIGHT ch).word, Fd.dev_DEV_IN_FLIGHT.word, Fd.dev_LOOSE_IN_FLIGHT.word]
        (judgeState s ch e.op l) t ∧
      t = { judgeState s ch e.op l with
        regs := t.regs, chans := t.chans, letters := t.letters, ord := s.ord + 1, daybook := t.daybook } ∧
      (e.op ≠ 0x09 → e.op ≠ 0x0A → judgeState s ch e.op l = turnState s ch)

/-- What the steps of R82 answer, in their order: a damaged entry (R83), a duplicate in flight (R122), a stale sequence (R124), an
undefined opcode, a field, a permission (R84), readiness (R77, R83), credits (R87, R128). A fifth uncredited Letter is held (R89). -/
def Obligations.LettersThatFailAStepAreAnswered : Prop :=
  (∀ (ch : Fin 64) (l : LetterIn) (data : List Byte) (e : LetterCmd) (d : Nat) (s : State), e ∈ letterCmds ch l data → e.fits l →
    nextRead s = some ch.val → (chanOf s ch).held = none →
    frontFault ch e.op (fget s (Fd.chan_LRING_HEAD ch)) l = some d →
    Runs e.cmd s fun t =>
      Refused ch e.op l 0x12 d s t ∧ t = { turnState s ch with replies := t.replies }) ∧
  (∀ (ch : Fin 64) (l : LetterIn) (data : List Byte) (e : LetterCmd) (s : State), e ∈ letterCmds ch l data → e.fits l →
    ch.val < s.chans.length → ReadsNext s ch e.op l → creditedOp e.op = false → 4 ≤ uncredited s ch →
    Runs e.cmd s fun t =>
      (chanOf t ch).held = some ⟨e.op, l⟩ ∧ t = { turnState s ch with chans := t.chans }) ∧
  (∀ (ch : Fin 64) (l : LetterIn) (data : List Byte) (e : LetterCmd) (s : State), e ∈ letterCmds ch l data → e.fits l →
    ReadsNext s ch e.op l → creditedOp e.op = true ∨ uncredited s ch < 4 → classify s ch l.seq.toNat = .inFlight →
    Runs e.cmd s fun t =>
      (∃ p, t.replies = s.replies ++ [p] ∧ p.seq = l.seq.toNat ∧ p.rflags = rfInFlight + rfNotWall ∧ p.final = false ∧
        p.res = Result.plain 0 0) ∧
      fget t Fd.daybook_INFLIGHT_ACK_COUNT = (fget s Fd.daybook_INFLIGHT_ACK_COUNT + 1) % 2 ^ 32 ∧
      WordsBut [Fd.daybook_INFLIGHT_ACK_COUNT.word] (turnState s ch) t ∧
      t = { turnState s ch with regs := t.regs, replies := t.replies }) ∧
  (∀ (ch : Fin 64) (l : LetterIn) (data : List Byte) (e : LetterCmd) (s : State), e ∈ letterCmds ch l data → e.fits l →
    ReadsNext s ch e.op l → creditedOp e.op = true ∨ uncredited s ch < 4 → classify s ch l.seq.toNat = .stale →
    Runs e.cmd s fun t =>
      Refused ch e.op l 0x13 0 s t ∧ fget t Fd.daybook_STALE_COUNT = (fget s Fd.daybook_STALE_COUNT + 1) % 2 ^ 32 ∧
      WordsBut [Fd.daybook_STALE_COUNT.word] (turnState s ch) t ∧
      t = { turnState s ch with regs := t.regs, replies := t.replies }) ∧
  (∀ (ch : Fin 64) (opcode : Byte) (l : LetterIn) (s : State), opDefined opcode.toNat = false → ch.val < s.chans.length →
    ReadsNext s ch opcode.toNat l → classify s ch l.seq.toNat = .fresh → dbVolatile s = false →
    Runs (.undefinedOpcodeLetter ch opcode l) s fun t =>
      Rejected ch opcode.toNat l 0x11 0 s t ∧ TaskFrame (turnState s ch) t ∧ t.ord = s.ord) ∧
  (∀ (ch : Fin 64) (l : LetterIn) (data : List Byte) (e : LetterCmd) (o : Nat) (s : State), e ∈ letterCmds ch l data → e.fits l →
    ch.val < s.chans.length → ReadsNext s ch e.op l → creditedOp e.op = true ∨ uncredited s ch < 4 →
    classify s ch l.seq.toNat = .fresh → dbVolatile (judgeState s ch e.op l) = false →
    fieldFault (judgeState s ch e.op l) e.op ch (fget s (Fd.chan_PID ch)) l e.data = some o →
    Runs e.cmd s fun t => Rejected ch e.op l 0x12 o s t ∧ TaskFrame (turnState s ch) t) ∧
  (∀ (ch : Fin 64) (l : LetterIn) (data : List Byte) (e : LetterCmd) (s : State), e ∈ letterCmds ch l data → e.fits l →
    ch.val < s.chans.length → ReadsNext s ch e.op l → creditedOp e.op = true ∨ uncredited s ch < 4 →
    classify s ch l.seq.toNat = .fresh → dbVolatile (judgeState s ch e.op l) = false →
    fieldFault (judgeState s ch e.op l) e.op ch (fget s (Fd.chan_PID ch)) l e.data = none →
    forbidden (judgeState s ch e.op l) e.op (fget s (Fd.chan_PID ch)) l e.data = true →
    Runs e.cmd s fun t => Rejected ch e.op l 0x15 0 s t ∧ TaskFrame (turnState s ch) t) ∧
  (∀ (ch : Fin 64) (l : LetterIn) (data : List Byte) (e : LetterCmd) (d : Nat) (s : State), e ∈ letterCmds ch l data → e.fits l →
    ReadsNext s ch e.op l → creditedOp e.op = true ∨ uncredited s ch < 4 → classify s ch l.seq.toNat = .fresh →
    fieldFault (judgeState s ch e.op l) e.op ch (fget s (Fd.chan_PID ch)) l e.data = none →
    forbidden (judgeState s ch e.op l) e.op (fget s (Fd.chan_PID ch)) l e.data = false →
    keyRefused (judgeState s ch e.op l) e.op l = false →
    notReady (judgeState s ch e.op l) e.op (fget s (Fd.chan_PID ch)) l = some d →
    Runs e.cmd s fun t => Refused ch e.op l 0x14 d s t ∧ t = { judgeState s ch e.op l with replies := t.replies }) ∧
  (∀ (ch : Fin 64) (l : LetterIn) (data : List Byte) (e : LetterCmd) (d : Nat) (s : State), e ∈ letterCmds ch l data → e.fits l →
    ReadsNext s ch e.op l → creditedOp e.op = true → classify s ch l.seq.toNat = .fresh →
    fieldFault (judgeState s ch e.op l) e.op ch (fget s (Fd.chan_PID ch)) l e.data = none →
    forbidden (judgeState s ch e.op l) e.op (fget s (Fd.chan_PID ch)) l e.data = false →
    keyRefused (judgeState s ch e.op l) e.op l = false →
    notReady (judgeState s ch e.op l) e.op (fget s (Fd.chan_PID ch)) l = none →
    creditLack (judgeState s ch e.op l) ch (fget s (Fd.chan_PID ch)) [] = some d →
    victims (judgeState s ch e.op l) e.op (fget s (Fd.chan_PID ch)) (bits l.stream.toNat 11 0) = [] →
    Runs e.cmd s fun t =>
      Refused ch e.op l 0x10 d s t ∧
      fget t (Fd.chan_BUSY_COUNT ch) = (fget s (Fd.chan_BUSY_COUNT ch) + 1) % 2 ^ 32 ∧
      WordsBut [(Fd.chan_BUSY_COUNT ch).word] (judgeState s ch e.op l) t ∧
      t = { judgeState s ch e.op l with regs := t.regs, replies := t.replies })

/-- What an accepted Letter does when it starts (R70): PING reports (R70), LOAD_PLAN validates and loads (R205–R208), UNLOAD_PLAN
empties its slot (R77), RUN_PLAN begins its run (R214), WRITE_TENSOR and READ_TENSOR move their bytes (R73, R74), WORLD_UPDATE asks for
the back buffer (R412), SWEEP, SELECT and SOLVE enter their pigeonhole (R338), SET_PARTITION drains its partition (R262). -/
def Obligations.StartedLettersDoTheirWork : Prop :=
  (∀ (ch : Fin 64) (seq : W32) (l : Letter) (s : State), CanStart s ch seq.toNat l → l.op = 0x01 →
    Runs (.letterStart ch seq) s fun t =>
      Finishes ch seq.toNat (safeResult s l (okResult (pingResult s ch))) t ∧ MirrorOnly ch seq.toNat s t ∧
      TaskFrame s t ∧ t.sched = s.sched ∧ t.plans = s.plans ∧ t.streams = s.streams) ∧
  (∀ (ch : Fin 64) (seq : W32) (l : Letter) (w : Nat) (s : State), CanStart s ch seq.toNat l → l.op = 0x02 →
    planFault s l = some w →
    Runs (.letterStart ch seq) s fun t =>
      Finishes ch seq.toNat (Result.plain 0x16 w) t ∧ t.plans = s.plans ∧ MirrorOnly ch seq.toNat s t ∧ TaskFrame s t) ∧
  (∀ (ch : Fin 64) (seq : W32) (l : Letter) (s : State), CanStart s ch seq.toNat l → l.op = 0x02 →
    planFault s l = none → slotWaits s l = false → slotForeign s l.pid (slotArg l) = false → slotArg l < 256 →
    (planStrict (wordsOf l.data) && planSafety (wordsOf l.data)) = false →
    Runs (.letterStart ch seq) s fun t =>
      (planAt t (slotArg l)).map (·.words) = some (wordsOf l.data) ∧ (planAt t (slotArg l)).map (·.owner) = some l.pid ∧
      (∀ n, n ≠ slotArg l → planAt t n = planAt s n) ∧
      Finishes ch seq.toNat (safeResult s l (okResult (leBytes 2 (slotArg l) ++ leBytes 2 0 ++
        leBytes 4 (pw (wordsOf l.data) 15)))) t ∧
      MirrorOnly ch seq.toNat s t ∧ TaskFrame s t ∧ t.sched = s.sched) ∧
  (∀ (ch : Fin 64) (seq : W32) (l : Letter) (s : State), CanStart s ch seq.toNat l → l.op = 0x02 →
    planFault s l = none → slotWaits s l = true →
    Runs (.letterStart ch seq) s fun t =>
      Starts ch seq.toNat s t ∧ t = { s with letters := t.letters, daybook := t.daybook }) ∧
  (∀ (ch : Fin 64) (seq : W32) (l : Letter) (s : State), CanStart s ch seq.toNat l → l.op = 0x03 → slotWaits s l = false →
    Runs (.letterStart ch seq) s fun t =>
      planAt t (slotArg l) = none ∧ (∀ n, n ≠ slotArg l → planAt t n = planAt s n) ∧
      Finishes ch seq.toNat (safeResult s l (okResult [])) t ∧ MirrorOnly ch seq.toNat s t ∧ TaskFrame s t) ∧
  (∀ (ch : Fin 64) (seq : W32) (l : Letter) (p : PlanSt) (s : State), CanStart s ch seq.toNat l → l.op = 0x04 →
    planOf s l = some p → planStrict p.words = false → planSafety p.words = false → slotBusy s l = false →
    linkBlocks s l.pid p.words = false → containerCrc p.words = p.crc →
    Runs (.letterStart ch seq) s fun t =>
      ((letterOf t ch seq.toNat).bind (·.run)).isSome = true ∧ TaskFrame s t ∧ t.courier = s.courier) ∧
  (∀ (ch : Fin 64) (seq : W32) (l : Letter) (s : State), CanStart s ch seq.toNat l → l.op = 0x05 →
    Canonical s → portFree s l.pid (transferAddr s l) = true → crcWrong l = false → l.data ≠ [] →
    rangePermitted s l.pid (transferAddr s l) l.data.length = true → pooled s l.pid (transferAddr s l) = false →
    MirrorDirect s ch seq.toNat → mirrorAddr s ch seq.toNat + 128 ≤ transferAddr s l ∨
      transferAddr s l + l.data.length ≤ mirrorAddr s ch seq.toNat →
    Runs (.letterStart ch seq) s fun t =>
      memBytes t (transferAddr s l) l.data.length = l.data ∧
      BytesButTwo (transferAddr s l) l.data.length (mirrorAddr s ch seq.toNat) 128 s t ∧
      (∃ d, mapFind t.tensorDk (arg l.l 0x18 4) = some (d, false) ∧ d.postmark.toNat = l.acceptPm % 2 ^ 48 ∧
        Finishes ch seq.toNat (safeResult s l ⟨0, 0, some d, []⟩) t) ∧ TaskFrame s t ∧ t.sched = s.sched) ∧
  (∀ (ch : Fin 64) (seq : W32) (l : Letter) (s : State), CanStart s ch seq.toNat l → l.op = 0x05 →
    portFree s l.pid (transferAddr s l) = true → crcWrong l = true →
    Runs (.letterStart ch seq) s fun t =>
      Finishes ch seq.toNat (Result.plain 0x12 0x1C) t ∧ t.tensorDk = s.tensorDk ∧ MirrorOnly ch seq.toNat s t ∧
      TaskFrame s t) ∧
  (∀ (ch : Fin 64) (seq : W32) (l : Letter) (s : State), CanStart s ch seq.toNat l → l.op = 0x06 →
    Canonical s → portFree s l.pid (transferAddr s l) = true → 0 < arg l.l 0x30 4 →
    rangePermitted s l.pid (transferAddr s l) (arg l.l 0x30 4) = true → pooled s l.pid (transferAddr s l) = false →
    markedWords s (transferAddr s l) (arg l.l 0x30 4) = [] → (∀ d ∈ tensorDocket s (arg l.l 0x18 4), Docket.ok d = true) →
    Runs (.letterStart ch seq) s fun t =>
      hostBytes t (arg l.l 0x20 8) (arg l.l 0x30 4) = memBytes s (transferAddr s l) (arg l.l 0x30 4) ∧
      HostBut (arg l.l 0x20 8) (arg l.l 0x30 4) s t ∧
      Finishes ch seq.toNat (safeResult s l ⟨0, 0, tensorDocket s (arg l.l 0x18 4),
        leBytes 4 (crc32c (memBytes s (transferAddr s l) (arg l.l 0x30 4)))⟩) t ∧
      MirrorOnly ch seq.toNat s t ∧ TaskFrame { s with host := t.host } t) ∧
  (∀ (ch : Fin 64) (seq : W32) (l : Letter) (s : State), CanStart s ch seq.toNat l → l.op = 0x07 →
    fget s Fd.lattice_LAT_EN = 1 → crcWrong l = false →
    Runs (.letterStart ch seq) s fun t =>
      t.lattice = { s.lattice with queue := s.lattice.queue ++ [.letter ch seq.toNat] } ∧
      WordsBut [Fd.lattice_BUILD_WAIT_COUNT.word] s t ∧ t = { s with regs := t.regs, lattice := t.lattice }) ∧
  (∀ (ch : Fin 64) (seq : W32) (l : Letter) (s : State), CanStart s ch seq.toNat l → l.op = 0x08 ∨ l.op = 0x09 ∨ l.op = 0x0A →
    Runs (.letterStart ch seq) s fun t =>
      (∃ x ∈ t.sched.tasks, x.id = s.sched.nextId ∧ x.ch = ch ∧ x.seq = seq.toNat ∧ x.pid = l.pid ∧ x.enter = now s ∧
        x.disp = none ∧ x.kind = (if l.op = 0x08 then .scribe else if l.op = 0x09 then .sorter else .plane)) ∧
      t.sched.tasks.length = s.sched.tasks.length + 1 ∧ (∀ x ∈ s.sched.tasks, x ∈ t.sched.tasks) ∧
      t.sched.nextId = s.sched.nextId + 1 ∧
      t = { s with sched := { s.sched with tasks := t.sched.tasks, nextId := t.sched.nextId, obs := t.sched.obs } }) ∧
  (∀ (ch : Fin 64) (seq : W32) (l : Letter) (s : State), CanStart s ch seq.toNat l → l.op = 0x0B →
    arg l.l 0x18 1 < s.parts.length → (∀ e ∈ s.letters, e.op = 0x0B → e.phase ≠ .finished → l.ord ≤ e.ord) →
    Runs (.letterStart ch seq) s fun t =>
      (t.parts[arg l.l 0x18 1]?).bind (·.pending) = some (ch.val, seq.toNat) ∧ Starts ch seq.toNat s t ∧
      t = { s with parts := t.parts, letters := t.letters, daybook := t.daybook })

/-- What a control Letter does when it starts (R70): QUERY_DAYBOOK (R115), READ_LEDGER (R700), TIME_ALIGN (R170), SAFETY_CMD (R614),
FENCE (R75) and CANCEL (R76). -/
def Obligations.ControlLettersActOrWait : Prop :=
  (∀ (ch : Fin 64) (seq : W32) (l : Letter) (s : State), CanStart s ch seq.toNat l → l.op = 0x0C →
    Runs (.letterStart ch seq) s fun t =>
      (∃ r, r.status = 0 ∧ r.result.length = 6 ∧ Finishes ch seq.toNat (safeResult s l r) t ∧
        leAt r.result 0 2 ≤ arg l.l 0x20 2 ∧ HostBut (arg l.l 0x28 8) (64 * leAt r.result 0 2) s t)) ∧
  (∀ (ch : Fin 64) (seq : W32) (l : Letter) (s : State), CanStart s ch seq.toNat l → l.op = 0x0D →
    Runs (.letterStart ch seq) s fun t =>
      Finishes ch seq.toNat (safeResult s l (okResult (leBytes 4 (arg l.l 0x20 4)))) t) ∧
  (∀ (ch : Fin 64) (seq : W32) (l : Letter) (s : State), CanStart s ch seq.toNat l → l.op = 0x0E →
    fget s Fd.postmark_ALIGN_ACTIVE = 0 →
    Runs (.letterStart ch seq) s fun t =>
      fget t Fd.postmark_POSTMARK_ADJ = arg l.l 0x18 4 ∧
      Finishes ch seq.toNat (safeResult s l (okResult (leBytes 8 (now s)))) t ∧ MirrorOnly ch seq.toNat s t ∧
      t.time = { s.time with slewRun := 0, delayed := t.time.delayed } ∧ TaskFrame { s with time := t.time } t) ∧
  (∀ (ch : Fin 64) (seq : W32) (l : Letter) (s : State), CanStart s ch seq.toNat l → l.op = 0x0E →
    fget s Fd.postmark_ALIGN_ACTIVE = 1 →
    Runs (.letterStart ch seq) s fun t =>
      Starts ch seq.toNat s t ∧ t = { s with letters := t.letters, daybook := t.daybook }) ∧
  (∀ (ch : Fin 64) (seq : W32) (l : Letter) (s : State), CanStart s ch seq.toNat l → l.op = 0x0F →
    arg l.l 0x18 1 = 0x01 ∨ arg l.l 0x18 1 = 0x02 →
    Runs (.letterStart ch seq) s fun t =>
      (∀ p ∈ sealPages, fget t (Fd.hdr_LOCK p) = if arg l.l 0x18 1 = 0x01 then 1 else 0) ∧
      Finishes ch seq.toNat (safeResult s l (okResult (leBytes 2 sealPages.length))) t ∧
      MirrorOnly ch seq.toNat s t ∧ TaskFrame s t) ∧
  (∀ (ch : Fin 64) (seq : W32) (l : Letter) (s : State), CanStart s ch seq.toNat l → l.op = 0x0F → arg l.l 0x18 1 = 0x03 →
    Runs (.letterStart ch seq) s fun t =>
      t.nvm = { s.nvm with key := BitVec.ofNat 16 (arg l.l 0x1C 4) } ∧
      Finishes ch seq.toNat (safeResult s l (okResult [])) t ∧ MirrorOnly ch seq.toNat s t ∧
      TaskFrame { s with nvm := t.nvm } t) ∧
  (∀ (ch : Fin 64) (seq : W32) (l : Letter) (s : State), CanStart s ch seq.toNat l → l.op = 0x0F → arg l.l 0x18 1 = 0x05 →
    Runs (.letterStart ch seq) s fun t =>
      OnBus t 0x20 0x004 ∧ Finishes ch seq.toNat (safeResult s l (okResult [])) t ∧ MirrorOnly ch seq.toNat s t ∧
      TaskFrame s t) ∧
  (∀ (ch : Fin 64) (seq : W32) (l : Letter) (s : State), CanStart s ch seq.toNat l → l.op = 0x10 → fenceWaits s l = false →
    Runs (.letterStart ch seq) s fun t =>
      Finishes ch seq.toNat (safeResult s l (okResult [])) t ∧ MirrorOnly ch seq.toNat s t ∧ TaskFrame s t ∧
      t.sched = s.sched ∧ t.plans = s.plans) ∧
  (∀ (ch : Fin 64) (seq : W32) (l : Letter) (s : State), CanStart s ch seq.toNat l → l.op = 0x10 → fenceWaits s l = true →
    Runs (.letterStart ch seq) s fun t =>
      Starts ch seq.toNat s t ∧ t = { s with letters := t.letters, daybook := t.daybook }) ∧
  (∀ (ch : Fin 64) (seq : W32) (l x : Letter) (s : State), CanStart s ch seq.toNat l → l.op = 0x11 →
    letterOf s (arg l.l 0x18 1) (arg l.l 0x1C 4) = some x → x.phase = .accepted →
    ¬ (arg l.l 0x18 1 = ch.val ∧ arg l.l 0x1C 4 = seq.toNat) →
    Runs (.letterStart ch seq) s fun t =>
      (letterOf t (arg l.l 0x18 1) (arg l.l 0x1C 4)).map (·.phase) = some .finished ∧
      (letterOf t (arg l.l 0x18 1) (arg l.l 0x1C 4)).map (·.res) = some (Result.plain 0x50 0) ∧
      (∀ k ∈ t.sched.tasks, ¬ (k.ch = arg l.l 0x18 1 ∧ k.seq = arg l.l 0x1C 4)) ∧
      Finishes ch seq.toNat (safeResult s l (okResult (leBytes 1 0))) t ∧ TaskFrame s t) ∧
  (∀ (ch : Fin 64) (seq : W32) (l x : Letter) (s : State), CanStart s ch seq.toNat l → l.op = 0x11 →
    letterOf s (arg l.l 0x18 1) (arg l.l 0x1C 4) = some x → x.phase ≠ .accepted →
    Runs (.letterStart ch seq) s fun t =>
      Finishes ch seq.toNat (safeResult s l (okResult (leBytes 1 (if x.phase = .finished then 1 else 3)))) t ∧
      letterOf t (arg l.l 0x18 1) (arg l.l 0x1C 4) = some x ∧ t.sched = s.sched ∧ TaskFrame s t)

/-- A Reply is written at the Reply ring's tail once its version has committed and the ring has room (R54, R92, R107); a final one ends
its Letter's flight (R86) and has its half of the mirror entry (R101); one that asks for it sends an interrupt (R98). A Reply for a host
that is gone is dropped (R680). -/
def Obligations.RepliesAreWrittenAndEndTheirLetters : Prop :=
  (∀ (ch : Fin 64) (p : PendReply) (s : State), Canonical s → nextReply s ch = some p → s.boot.holdup = false →
    hostGone s (fget s (Fd.chan_PID ch)) = false → rringFull s ch = false →
    Runs (.replyWrite ch) s fun t =>
      hostBytes t (replyAddr s ch) 64 = replyNow s p ∧ HostBut (replyAddr s ch) 64 s t ∧
      fget t (Fd.chan_RRING_TAIL ch) = (fget s (Fd.chan_RRING_TAIL ch) + 1) % 2 ^ 16 ∧
      t.replies = s.replies.erase p ∧
      (p.final = false → t.letters = s.letters ∧ SameBytes { s with host := t.host } t) ∧
      (p.final = true → t.letters = s.letters.filter (fun l => !(l.ch == ch.val && l.l.seq.toNat == p.seq)) ∧
        (MirrorDirect s ch p.seq → memBytes t (mirrorAddr s ch p.seq + 64) 64 = replyNow s p ∧
          BytesBut (mirrorAddr s ch p.seq + 64) 64 s t)) ∧
      fget t (Fd.chan_IN_FLIGHT ch) = fget s (Fd.chan_IN_FLIGHT ch) - b2n (p.final && p.credited) ∧
      fget t Fd.dev_DEV_IN_FLIGHT = fget s Fd.dev_DEV_IN_FLIGHT - b2n (p.final && p.credited) ∧
      (p.irq = true → ownerFn s (fget s (Fd.chan_PID ch)) ∉ s.lostFns →
        .msix (ownerFn s (fget s (Fd.chan_PID ch))) (fget s (Fd.chan_MSIX_VEC ch)) ∈ t.outbox) ∧
      TaskFrame { s with host := t.host } t) ∧
  (∀ (ch : Fin 64) (p : PendReply) (s : State), nextReply s ch = some p → s.boot.holdup = false →
    hostGone s (fget s (Fd.chan_PID ch)) = true →
    Runs (.replyWrite ch) s fun t =>
      t.replies = s.replies.erase p ∧ SameBytes s t ∧
      (p.final = true → t.letters = s.letters.filter fun l => !(l.ch == ch.val && l.l.seq.toNat == p.seq)) ∧
      fget t (Fd.chan_IN_FLIGHT ch) = fget s (Fd.chan_IN_FLIGHT ch) - b2n (p.final && p.credited) ∧
      t = { s with regs := t.regs, replies := t.replies, letters := t.letters }) ∧
  (∀ (ch : Fin 64) (p : PendReply) (s : State), nextReply s ch = some p → s.boot.holdup = false → rringFull s ch = true →
    hostGone s (fget s (Fd.chan_PID ch)) = false → Runs (.replyWrite ch) s fun t => t = s)

/-- Letters that wait end when what they wait for has happened: FENCE (R75), UNLOAD_PLAN (R77), a LOAD_PLAN over a plan in use (R207),
TIME_ALIGN during an alignment (R170), SET_PARTITION. A drained partition is installed (R262): its page, its tables and its regions are
what the block names; a block that no longer passes leaves everything as it was (R255). -/
def Obligations.WaitingLettersEndWhenTheyMay : Prop :=
  (∀ (ch : Fin 64) (seq : W32) (l : Letter) (s : State), startedOf s ch seq.toNat 0x10 = some l → fenceWaits s l = false →
    dbVolatile s = false →
    Runs (.fenceComplete ch seq) s fun t =>
      Finishes ch seq.toNat (safeResult s l (okResult [])) t ∧ MirrorOnly ch seq.toNat s t ∧ TaskFrame s t ∧
      t.sched = s.sched ∧ t.plans = s.plans) ∧
  (∀ (ch : Fin 64) (seq : W32) (l : Letter) (s : State), startedOf s ch seq.toNat 0x03 = some l → slotWaits s l = false →
    dbVolatile s = false →
    Runs (.unloadComplete ch seq) s fun t =>
      planAt t (slotArg l) = none ∧ (∀ n, n ≠ slotArg l → planAt t n = planAt s n) ∧
      Finishes ch seq.toNat (safeResult s l (okResult [])) t ∧ MirrorOnly ch seq.toNat s t ∧ TaskFrame s t) ∧
  (∀ (ch : Fin 64) (seq : W32) (l : Letter) (s : State), startedOf s ch seq.toNat 0x02 = some l → slotWaits s l = false →
    slotForeign s l.pid (slotArg l) = false → dbVolatile s = false →
    (planStrict (wordsOf l.data) && planSafety (wordsOf l.data)) = false →
    Runs (.planReplace ch seq) s fun t =>
      (planAt t (slotArg l)).map (·.words) = some (wordsOf l.data) ∧ (planAt t (slotArg l)).map (·.owner) = some l.pid ∧
      (∀ n, n ≠ slotArg l → planAt t n = planAt s n) ∧
      Finishes ch seq.toNat (safeResult s l (okResult (leBytes 2 (slotArg l) ++ leBytes 2 0 ++
        leBytes 4 (pw (wordsOf l.data) 15)))) t ∧ MirrorOnly ch seq.toNat s t ∧ TaskFrame s t) ∧
  (∀ (ch : Fin 64) (seq : W32) (l : Letter) (s : State), fget s Fd.postmark_ALIGN_ACTIVE = 0 →
    (s.letters.filter fun x => x.op == 0x0E && x.phase == .started) = [l] → letterOf s ch seq.toNat = some l → l.ch = ch →
    l.l.seq = seq → dbVolatile s = false →
    Runs .timeAlignDeferredWrite s fun t =>
      fget t Fd.postmark_POSTMARK_ADJ = arg l.l 0x18 4 ∧
      Finishes ch seq.toNat (safeResult s l (okResult (leBytes 8 (now s)))) t ∧ MirrorOnly ch seq.toNat s t ∧
      t.time = { s.time with slewRun := 0, delayed := t.time.delayed } ∧ TaskFrame { s with time := t.time } t) ∧
  (∀ (p : Fin 16) (ch : Fin 64) (seq : Nat) (l : Letter) (s : State), Canonical s → Shaped s →
    (s.parts.getD p ⟨[], [], none⟩).pending = some (ch.val, seq) → letterOf s ch seq = some l → l.phase = .started →
    mayInstall s p l = true → partitionFault s l.ch l.l l.data = none → dbVolatile s = false → arg l.l 0x18 1 = p →
    Runs (.partitionInstall p) s fun t =>
      fget t (Fd.part_REGIME p) = arg l.l 0x19 1 ∧ fget t (Fd.part_MAX_SCLASS p) = leAt l.data 0x2A 1 ∧
      fget t (Fd.part_BEAM_BANKS p) = leAt l.data 0x08 4 ∧ fget t (Fd.part_VF_MASK p) = leAt l.data 0x28 2 ∧
      regionMask t p = leAt l.data 0x18 8 ∧
      (∀ r < 64, bit (leAt l.data 0x18 8) r = true →
        fget t (Fd.region_OWNED r) = 1 ∧ fget t (Fd.region_REGION_OWNER r) = p) ∧
      tensorsOf t p = blockTensors l.data ∧ (t.parts.getD p ⟨[], [], none⟩).pending = none ∧
      (∀ q : Fin 16, q ≠ p → t.parts.getD q ⟨[], [], none⟩ = s.parts.getD q ⟨[], [], none⟩ ∧ regimeOf t q = regimeOf s q) ∧
      t.parity = s.parity.filter (fun k => 2 ^ 12 ≤ k) ∧
      (letterOf t ch seq).map (·.phase) = some .finished ∧ t.host = s.host) ∧
  (∀ (p : Fin 16) (ch : Fin 64) (seq o : Nat) (l : Letter) (s : State), Shaped s →
    (s.parts.getD p ⟨[], [], none⟩).pending = some (ch.val, seq) → letterOf s ch seq = some l → l.phase = .started →
    mayInstall s p l = true → partitionFault s l.ch l.l l.data = some o → dbVolatile s = false →
    Runs (.partitionInstall p) s fun t =>
      Finishes ch seq (Result.plain 0x12 o) t ∧ (t.parts.getD p ⟨[], [], none⟩).pending = none ∧
      (∀ q : Fin 16, tensorsOf t q = tensorsOf s q ∧ regimeOf t q = regimeOf s q) ∧ MirrorOnly ch seq s t ∧
      TaskFrame { s with parts := t.parts } t) ∧
  (∀ (p : Fin 16) (ch : Fin 64) (seq : Nat) (l : Letter) (s : State),
    (s.parts.getD p ⟨[], [], none⟩).pending = some (ch.val, seq) → letterOf s ch seq = some l → mayInstall s p l = false →
    Runs (.partitionInstall p) s fun t => t = s)

/-! ### Registers -/

/-- A register write does to each field what its kind says (R735, R740–R742, R746): a control field takes the value unless it is reserved,
refused or locked; a counter takes it; a read-only field keeps its value. A blocked write changes nothing but its counts (R270). Channel
controls (R51, R58, R99, R753), EVENT and EVENT_FORCE (R727, R728), OWNER_PID (R733), the watches (R750) and the base addresses (R243,
R769) follow their own rules. -/
def Obligations.RegisterWritesFollowTheirKinds : Prop :=
  (∀ (q : Requester) (off : BitVec 24) (v : W64) (forced : Bool) (page word : Nat) (r : RegRow × Nat × Nat) (s : State),
    off.toNat / 4 * 4 = page * 4096 + word → word < 4096 → plainWord page word = true → writeReaches s q page word = true →
    r ∈ rowsAt page word → r.1.kind = .control → fget s (Fd.hdr_LOCK page) = 0 →
    r.1.allowed.ok (bits (lowWord v) r.1.hi r.1.lo) = true →
    pageDeny s page r.1 r.2.2 (bits (lowWord v) r.1.hi r.1.lo) = false →
    Runs (.registerWrite q off v 0x0F forced) s fun t =>
      fget t (rowFld page word r) = bits (lowWord v) r.1.hi r.1.lo ∧ WordsBut (writeWords page word) s t ∧ WriteFrame s t) ∧
  (∀ (q : Requester) (off : BitVec 24) (v : W64) (forced : Bool) (page word : Nat) (r : RegRow × Nat × Nat) (s : State),
    off.toNat / 4 * 4 = page * 4096 + word → word < 4096 → plainWord page word = true → writeReaches s q page word = true →
    r ∈ rowsAt page word → r.1.kind = .control → r.1.allowed.ok (bits (lowWord v) r.1.hi r.1.lo) = false →
    Runs (.registerWrite q off v 0x0F forced) s fun t =>
      fget t (rowFld page word r) = fget s (rowFld page word r) ∧
      (fget s (Fd.hdr_LOCK page) = 0 → HasEvent t page 0) ∧ WordsBut (writeWords page word) s t ∧ WriteFrame s t) ∧
  (∀ (q : Requester) (off : BitVec 24) (v : W64) (forced : Bool) (page word : Nat) (r : RegRow × Nat × Nat) (s : State),
    off.toNat / 4 * 4 = page * 4096 + word → word < 4096 → plainWord page word = true → writeReaches s q page word = true →
    r ∈ rowsAt page word → r.1.kind = .status ∨ r.1.kind = .fixed →
    Runs (.registerWrite q off v 0x0F forced) s fun t =>
      fget t (rowFld page word r) = fget s (rowFld page word r) ∧ WordsBut (writeWords page word) s t ∧ WriteFrame s t) ∧
  (∀ (q : Requester) (off : BitVec 24) (v : W64) (forced : Bool) (page word p : Nat) (s : State),
    off.toNat / 4 * 4 = page * 4096 + word → word < 4096 → plainWord page word = true → pidOf s q = some p →
    regPermitted s p page word = false → s.parity = [] →
    Runs (.registerWrite q off v 0x0F forced) s fun t =>
      fget t (Fd.part_FW_WRITE_BLOCKED p) = (fget s (Fd.part_FW_WRITE_BLOCKED p) + 1) % 2 ^ 32 ∧ OnBus t 0x0B (0x060 + p) ∧
      WordsBut ((Fd.part_FW_WRITE_BLOCKED p).word :: eventWords (0x060 + p)) s t ∧
      t = { s with regs := t.regs, safety := { s.safety with bus := t.safety.bus }, outbox := t.outbox }) ∧
  (∀ (q : Requester) (ch : Fin 64) (v : W32) (s : State), writeReaches s q (chanPage ch) (chanOff ch 0x0C) = true →
    cyc 16 (v.toNat % 2 ^ 16) (fget s (Fd.chan_LRING_HEAD ch)) ≤ fget s (Fd.chan_LRING_SIZE ch) →
    Runs (.doorbellWrite q ch v 0xF) s fun t =>
      fget t (Fd.chan_DOORBELL ch) = v.toNat % 2 ^ 16 ∧
      fget t (Fd.chan_DOORBELL_COUNT ch) = (fget s (Fd.chan_DOORBELL_COUNT ch) + 1) % 2 ^ 32 ∧
      WordsBut ((Fd.chan_DOORBELL_COUNT ch).word :: writeWords (chanPage ch) (chanOff ch 0x0C)) s t ∧ WriteFrame s t) ∧
  (∀ (q : Requester) (ch : Fin 64) (v : W32) (s : State), writeReaches s q (chanPage ch) (chanOff ch 0x0C) = true →
    fget s (Fd.chan_LRING_SIZE ch) < cyc 16 (v.toNat % 2 ^ 16) (fget s (Fd.chan_LRING_HEAD ch)) →
    Runs (.doorbellWrite q ch v 0xF) s fun t =>
      fget t (Fd.chan_DOORBELL ch) = fget s (Fd.chan_DOORBELL ch) ∧ HasEvent t (chanPage ch) (8 + ch % 16) ∧
      fget t (Fd.chan_DOORBELL_COUNT ch) = (fget s (Fd.chan_DOORBELL_COUNT ch) + 1) % 2 ^ 32 ∧
      WordsBut ((Fd.chan_DOORBELL_COUNT ch).word :: writeWords (chanPage ch) (chanOff ch 0x0C)) s t ∧ WriteFrame s t) ∧
  (∀ (q : Requester) (ch : Fin 64) (v : W32) (s : State), writeReaches s q (chanPage ch) (chanOff ch 0x28) = true →
    fget s Fd.daybook_PAIR_ROLE ≠ 2 →
    Runs (.chCtrlWrite q ch v 0xF false) s fun t =>
      fget t (Fd.chan_ENABLE ch) = v.toNat % 2 ∧
      t.lostFns = (if fget s (Fd.chan_ENABLE ch) = 0 ∧ v.toNat % 2 = 1 ∧ s.pins.linkUp = true
        then s.lostFns.filter (· != ownerFn s (fget s (Fd.chan_PID ch))) else s.lostFns) ∧
      WordsBut (writeWords (chanPage ch) (chanOff ch 0x28)) s t ∧ WriteFrame { s with lostFns := t.lostFns } t) ∧
  (∀ (q : Requester) (ch : Fin 64) (v : W32) (s : State), writeReaches s q (chanPage ch) (chanOff ch 0x28) = true →
    v.toNat % 2 ≠ fget s (Fd.chan_ENABLE ch) →
    Runs (.chCtrlWrite q ch v 0xF true) s fun t =>
      fget t (Fd.chan_ENABLE ch) = fget s (Fd.chan_ENABLE ch) ∧
      fget t (Fd.hdr_RSVD_WRITE_COUNT (chanPage ch)) = (fget s (Fd.hdr_RSVD_WRITE_COUNT (chanPage ch)) + 1) % 2 ^ 32 ∧
      WordsBut (writeWords (chanPage ch) (chanOff ch 0x28)) s t ∧ WriteFrame s t) ∧
  (∀ (q : Requester) (page : BitVec 12) (v : W32) (be : BitVec 4) (s : State), writeReaches s q page.toNat 0x010 = true →
    v.toNat &&& beMask be &&& (0xFFFFFFFF ^^^ eventMask page.toNat) = 0 →
    Runs (.eventWrite q page v be) s fun t =>
      fget t (Fd.hdr_EVENT page.toNat) = fget s (Fd.hdr_EVENT page.toNat) &&& (0xFFFFFFFF ^^^ (v.toNat &&& beMask be)) ∧
      WordsBut [(page.toNat, 0x010)] s t ∧ t = { s with regs := t.regs, outbox := t.outbox }) ∧
  (∀ (q : Requester) (page : BitVec 12) (v : W32) (be : BitVec 4) (s : State), writeReaches s q page.toNat 0x018 = true →
    v.toNat &&& beMask be &&& (0xFFFFFFFF ^^^ eventMask page.toNat) = 0 →
    Runs (.eventForce q page v be) s fun t =>
      fget t (Fd.hdr_EVENT page.toNat) = fget s (Fd.hdr_EVENT page.toNat) ||| (v.toNat &&& beMask be) ∧
      WordsBut (eventWords page.toNat) s t ∧ t = { s with regs := t.regs, outbox := t.outbox }) ∧
  (∀ (q : Requester) (v : W32) (s : State), writeReaches s q 0x0A0 0x030 = true → fget s (Fd.hdr_LOCK 0x0A0) = 0 →
    v.toNat % 16 ≠ fget s (Fd.hdr_OWNER_PID 0x0A0) →
    Runs (.ownerPidWrite q 0x0A0 v 0xF) s fun t =>
      fget t (Fd.hdr_OWNER_PID 0x0A0) = v.toNat % 16 ∧ fget t (Fd.hdr_EVENT_EN 0x0A0) = 0 ∧
      fget t (Fd.hdr_EVT_IRQ_EN 0x0A0) = 0 ∧ HasEvent t 0x0A0 4 ∧ t.parity = s.parity.filter (· != 2 ^ 12 + 0x0A0) ∧
      WordsBut ([(0x0A0, 0x008), (0x0A0, 0x014)] ++ writeWords 0x0A0 0x030) s t ∧ WriteFrame { s with parity := t.parity } t) ∧
  (∀ (q : Requester) (w : Fin 16) (v : W32) (s : State), writeReaches s q 0x005 (0x080 + 8 * w) = true →
    fget s (Fd.hdr_LOCK 0x005) = 0 → s.safety.watchLast.length = 16 →
    Runs (.watchWrite q w false v 0xF) s fun t =>
      fget t (Fd.age_W_PID w) = v.toNat % 16 ∧ fget t (Fd.age_W_STREAM w) = v.toNat / 16 % 2 ^ 12 ∧
      t.safety.watchLast = s.safety.watchLast.set w (now s) ∧ bit (fget t Fd.age_GAP_ACTIVE) w = false ∧
      WordsBut (Fd.age_GAP_ACTIVE.word :: writeWords 0x005 (0x080 + 8 * w)) s t ∧
      WriteFrame { s with safety := { s.safety with watchLast := t.safety.watchLast, watchSclass := t.safety.watchSclass } } t) ∧
  (∀ (q : Requester) (w : Fin 16) (v : W32) (s : State), writeReaches s q 0x005 (0x084 + 8 * w) = true →
    fget s (Fd.hdr_LOCK 0x005) = 0 → s.safety.watchLast.length = 16 → v.toNat < 2 ^ 25 → v = 0 ∨ 250 ≤ v.toNat →
    Runs (.watchWrite q w true v 0xF) s fun t =>
      fget t (Fd.age_MAX_GAP_PT w) = v.toNat ∧ t.safety.watchLast = s.safety.watchLast.set w (now s) ∧
      bit (fget t Fd.age_GAP_ACTIVE) w = false ∧
      WordsBut (Fd.age_GAP_ACTIVE.word :: writeWords 0x005 (0x084 + 8 * w)) s t ∧
      WriteFrame { s with safety := { s.safety with watchLast := t.safety.watchLast, watchSclass := t.safety.watchSclass } } t) ∧
  (∀ (q : Requester) (f : Fin 16) (hi : Bool) (v : W32) (s : State),
    writeReaches s q 0x008 (0x840 + 8 * f + if hi then 4 else 0) = true →
    Runs (.bar2BaseWrite q f hi v 0xF) s fun t =>
      fget t (Fd.dev_BAR2_BASE_LO f) = (if hi then fget s (Fd.dev_BAR2_BASE_LO f) else v.toNat / 2 ^ 16) ∧
      fget t (Fd.dev_BAR2_BASE_HI f) = (if hi then v.toNat % 2 ^ 8 else fget s (Fd.dev_BAR2_BASE_HI f)) ∧
      WordsBut (writeWords 0x008 (0x840 + 8 * f + if hi then 4 else 0)) s t ∧ WriteFrame s t) ∧
  (∀ (q : Requester) (v : W32) (s : State), writeReaches s q 0x006 0x044 = true → s.boot.ready = false →
    mirrorFits s (v.toNat / 2 ^ 12 * 2 ^ 12 + fget s Fd.daybook_DB_MIRROR_BASE_HI * 2 ^ 32) = true →
    Runs (.dbMirrorBaseWrite q false v 0xF) s fun t =>
      fget t Fd.daybook_DB_MIRROR_BASE_LO = v.toNat / 2 ^ 12 ∧ WordsBut (writeWords 0x006 0x044) s t ∧ WriteFrame s t) ∧
  (∀ (q : Requester) (v : W32) (s : State), writeReaches s q 0x006 0x048 = true → s.boot.ready = true →
    v.toNat ≠ fget s Fd.daybook_DB_MIRROR_BASE_HI →
    Runs (.dbMirrorBaseWrite q true v 0xF) s fun t =>
      fget t Fd.daybook_DB_MIRROR_BASE_HI = fget s Fd.daybook_DB_MIRROR_BASE_HI ∧ HasEvent t 0x006 0 ∧
      WordsBut (eventWords 0x006) s t ∧ WriteFrame s t)
end

