-- ==== Sys2Proof/Laws/Map.lean ====
section
/-! SUPPORT. Laws of the sorted association lists: what an update lists at its own key and at every other, and that every
update keeps the canonical form. -/

namespace Sys2Proof.Machine

variable {α : Type}

/-! ### One key -/

@[simp] theorem mapFind_nil (x : Nat) : mapFind ([] : List (Nat × α)) x = none := rfl

@[simp] theorem mapFind_mapIns_same (m : List (Nat × α)) (x : Nat) (y : α) : mapFind (mapIns m x y) x = some y := by
  induction m with
  | nil => simp [mapIns, mapFind]
  | cons e m ih =>
    obtain ⟨k, v⟩ := e
    simp only [mapIns]
    split
    · simp [mapFind]
    · split
      · simp [mapFind]
      · simp [mapFind, *]

theorem mapFind_mapIns_other (m : List (Nat × α)) {x z : Nat} (y : α) (h : z ≠ x) :
    mapFind (mapIns m x y) z = mapFind m z := by
  induction m with
  | nil => simp [mapIns, mapFind, h.symm]
  | cons e m ih =>
    obtain ⟨k, v⟩ := e
    simp only [mapIns]
    split
    · subst_vars; simp [mapFind, h.symm]
    · split
      · simp [mapFind, h.symm]
      · simp [mapFind, ih]

@[simp] theorem mapFind_mapDel_same (m : List (Nat × α)) (x : Nat) : mapFind (mapDel m x) x = none := by
  induction m with
  | nil => rfl
  | cons e m ih =>
    obtain ⟨k, v⟩ := e
    simp only [mapDel]
    split
    · exact ih
    · simp [mapFind, *]

theorem mapFind_mapDel_other (m : List (Nat × α)) {x z : Nat} (h : z ≠ x) : mapFind (mapDel m x) z = mapFind m z := by
  induction m with
  | nil => rfl
  | cons e m ih =>
    obtain ⟨k, v⟩ := e
    simp only [mapDel]
    split
    · subst_vars; simp [mapFind, h.symm, ih]
    · simp [mapFind, ih]

@[simp] theorem mapGet_mapPut_same [DecidableEq α] (d : α) (m : List (Nat × α)) (x : Nat) (y : α) :
    mapGet d (mapPut d m x y) x = y := by
  unfold mapGet mapPut
  split <;> simp_all

theorem mapGet_mapPut_other [DecidableEq α] (d e : α) (m : List (Nat × α)) {x z : Nat} (y : α) (h : z ≠ x) :
    mapGet e (mapPut d m x y) z = mapGet e m z := by
  unfold mapGet mapPut
  split
  · rw [mapFind_mapDel_other m h]
  · rw [mapFind_mapIns_other m y h]

/-! ### The canonical form -/

theorem mem_mapIns {m : List (Nat × α)} {x : Nat} {y : α} {e : Nat × α} (h : e ∈ mapIns m x y) : e = (x, y) ∨ e ∈ m := by
  induction m with
  | nil => simpa [mapIns] using h
  | cons c m ih =>
    obtain ⟨k, v⟩ := c
    simp only [mapIns] at h
    split at h
    · rcases List.mem_cons.1 h with h | h
      · exact .inl h
      · exact .inr (List.mem_cons_of_mem _ h)
    · split at h
      · exact List.mem_cons.1 h
      · rcases List.mem_cons.1 h with h | h
        · exact .inr (h ▸ List.mem_cons_self)
        · exact (ih h).imp id (List.mem_cons_of_mem _)

theorem mapDel_sublist (m : List (Nat × α)) (x : Nat) : (mapDel m x).Sublist m := by
  induction m with
  | nil => exact .slnil
  | cons c m ih =>
    obtain ⟨k, v⟩ := c
    simp only [mapDel]
    split
    · exact ih.cons _
    · exact ih.cons_cons _

/-- Listing a key keeps the keys rising. -/
theorem mapIns_rises {m : List (Nat × α)} (h : m.Pairwise fun a b => a.1 < b.1) (x : Nat) (y : α) :
    (mapIns m x y).Pairwise fun a b => a.1 < b.1 := by
  induction m with
  | nil => simp [mapIns]
  | cons c m ih =>
    obtain ⟨k, v⟩ := c
    rw [List.pairwise_cons] at h
    simp only [mapIns]
    split
    · subst_vars; exact List.pairwise_cons.2 h
    · split
      · rename_i hk
        refine List.pairwise_cons.2 ⟨?_, List.pairwise_cons.2 h⟩
        intro e he
        rcases List.mem_cons.1 he with rfl | he
        · exact hk
        · exact Nat.lt_trans hk (h.1 e he)
      · refine List.pairwise_cons.2 ⟨?_, ih h.2⟩
        intro e he
        rcases mem_mapIns he with rfl | he
        · show k < x; omega
        · exact h.1 e he

/-- Removing a key keeps the keys rising. -/
theorem mapDel_rises {m : List (Nat × α)} (h : m.Pairwise fun a b => a.1 < b.1) (x : Nat) :
    (mapDel m x).Pairwise fun a b => a.1 < b.1 := h.sublist (mapDel_sublist m x)

/-- Giving a key a value keeps the keys rising. -/
theorem mapPut_rises [DecidableEq α] {m : List (Nat × α)} (h : m.Pairwise fun a b => a.1 < b.1) (d : α) (x : Nat) (y : α) :
    (mapPut d m x y).Pairwise fun a b => a.1 < b.1 := by
  unfold mapPut
  split
  · exact mapDel_rises h x
  · exact mapIns_rises h x y

/-- A part of a map is canonical. -/
theorem mapWf_sublist {d : α} {m n : List (Nat × α)} (h : mapWf d m) (k : n.Sublist m) : mapWf d n :=
  ⟨h.1.sublist k, fun e he => h.2 e (k.subset he)⟩

theorem mapWf_nil (d : α) : mapWf d [] := ⟨.nil, by simp⟩

theorem mapWf_filter {d : α} {m : List (Nat × α)} (h : mapWf d m) (p : Nat × α → Bool) : mapWf d (m.filter p) :=
  mapWf_sublist h List.filter_sublist

theorem mem_mapEntries [DecidableEq α] {d : α} {ys : List α} {x : Nat} {e : Nat × α} (h : e ∈ mapEntries d x ys) :
    x ≤ e.1 ∧ e.1 < x + ys.length ∧ e.2 ≠ d := by
  induction ys generalizing x with
  | nil => simp [mapEntries] at h
  | cons y ys ih =>
    simp only [mapEntries] at h
    split at h
    · have := ih h
      simp only [List.length_cons]
      refine ⟨by omega, by omega, this.2.2⟩
    · rcases List.mem_cons.1 h with rfl | h
      · simpa using ‹_›
      · have := ih h
        simp only [List.length_cons]
        refine ⟨by omega, by omega, this.2.2⟩

theorem mapEntries_wf [DecidableEq α] (d : α) (x : Nat) (ys : List α) : mapWf d (mapEntries d x ys) := by
  induction ys generalizing x with
  | nil => exact mapWf_nil d
  | cons y ys ih =>
    simp only [mapEntries]
    split
    · exact ih _
    · rename_i hy
      refine ⟨List.pairwise_cons.2 ⟨fun e he => ?_, (ih _).1⟩, fun e he => ?_⟩
      · exact Nat.lt_of_lt_of_le (Nat.lt_succ_self x) (mem_mapEntries he).1
      · rcases List.mem_cons.1 he with rfl | he
        · exact hy
        · exact (ih _).2 e he

theorem lt_of_mem_takeWhile {m : List (Nat × α)} {x : Nat} {e : Nat × α} (h : e ∈ m.takeWhile fun e => e.1 < x) : e.1 < x := by
  induction m with
  | nil => simp at h
  | cons c m ih =>
    rw [List.takeWhile_cons] at h
    split at h
    · rename_i hc
      rcases List.mem_cons.1 h with rfl | h
      · simpa using hc
      · exact ih h
    · simp at h

theorem le_of_mem_dropWhile {m : List (Nat × α)} (hm : m.Pairwise fun a b => a.1 < b.1) {x : Nat} {e : Nat × α}
    (h : e ∈ m.dropWhile fun e => e.1 < x) : x ≤ e.1 := by
  induction m with
  | nil => simp at h
  | cons c m ih =>
    rw [List.dropWhile_cons] at h
    rw [List.pairwise_cons] at hm
    split at h
    · exact ih hm.2 h
    · rename_i hc
      have hc : x ≤ c.1 := by simpa using hc
      rcases List.mem_cons.1 h with rfl | h
      · exact hc
      · exact Nat.le_of_lt (Nat.lt_of_le_of_lt hc (hm.1 e h))

/-- Writing consecutive values keeps a map canonical. -/
theorem mapPutAll_wf [DecidableEq α] {d : α} {m : List (Nat × α)} (h : mapWf d m) (x : Nat) (ys : List α) :
    mapWf d (mapPutAll d m x ys) := by
  have hl := mapWf_sublist h (List.takeWhile_sublist fun e : Nat × α => decide (e.1 < x))
  have hr := mapWf_sublist h (List.dropWhile_sublist fun e : Nat × α => decide (e.1 < x + ys.length))
  have he := mapEntries_wf d x ys
  unfold mapPutAll
  refine ⟨?_, ?_⟩
  · refine List.pairwise_append.2 ⟨List.pairwise_append.2 ⟨hl.1, he.1, fun a ha b hb => ?_⟩, hr.1, fun a ha b hb => ?_⟩
    · exact Nat.lt_of_lt_of_le (lt_of_mem_takeWhile ha) (mem_mapEntries hb).1
    · have hb := le_of_mem_dropWhile h.1 hb
      rcases List.mem_append.1 ha with ha | ha
      · have := lt_of_mem_takeWhile ha; omega
      · have := (mem_mapEntries ha).2.1; omega
  · intro e hmem
    rcases List.mem_append.1 hmem with hmem | hmem
    · rcases List.mem_append.1 hmem with hmem | hmem
      · exact hl.2 e hmem
      · exact he.2 e hmem
    · exact hr.2 e hmem

end Sys2Proof.Machine
end

