-- ==== Sys2Proof/Laws/Keeps.lean ====
section
/-! SUPPORT. What every operation keeps: the queue of commands, the fuses, and the canonical form of the sparse data. `Keeps a s`
says that `s`, reached from `a`, has kept them. -/

namespace Sys2Proof.Machine

/-- From `a` to `s` the queue and the fuses are unchanged, and canonical data stay canonical. -/
structure Keeps (a s : State) : Prop where
  pending : s.pending = a.pending
  fuses : s.fuses = a.fuses
  canonical : Canonical a → Canonical s

theorem Keeps.refl (s : State) : Keeps s s := ⟨rfl, rfl, id⟩

theorem Keeps.trans {a b c : State} (h : Keeps a b) (k : Keeps b c) : Keeps a c :=
  ⟨k.1.trans h.1, k.2.trans h.2, k.3 ∘ h.3⟩

/-- An update of any other field keeps them. -/
theorem Keeps.mk_iff (s a : State)
(time : TimeSt) (power : PowerSt) (chans : List Chan) (letters : List Letter) (replies : List PendReply) (daybook :
    DaybookSt) (plans : List (Nat × PlanSt)) (parts : List PartSt) (cache : List CacheLine) (scrub streamSeq : List
    (Nat × Nat)) (refresh : RefreshSt) (bar2 : List HostAccess) (parity : List Nat) (streams : List (Nat × StreamItem)) (tensorDk :
    List (Nat × (Docket × Bool))) (filters : List FilterSt) (fifos : List (List FifoItem)) (lattice : LatticeSt) (sched : SchedSt) (cores : List CoreSt) (courier : CourierSt) (safety :
    SafetySt) (can : List CanSt) (nvm : NvmSt) (pins : PinSt) (boot : BootSt) (ledger : LedgerSt) (spare : SpareSt)
    (pair : PairSt) (lwIndex ord freeCount : Nat) (tapIr : TapInstr) (lostFns round : List Nat) (outbox : List Out)
    (completion : List Byte) (firstRound : Bool) :
    Keeps a (State.mk
s.pending s.regs s.mem s.ecc s.host time power chans letters replies daybook plans parts cache scrub refresh bar2
      parity streams streamSeq tensorDk filters fifos lattice sched cores courier safety can s.fuses nvm pins boot ledger spare pair
      lwIndex tapIr lostFns outbox completion round firstRound ord freeCount) = Keeps a s :=
  propext ⟨fun h => ⟨h.1, h.2, fun c => ⟨(h.3 c).1, (h.3 c).2, (h.3 c).3, (h.3 c).4⟩⟩,
    fun h => ⟨h.1, h.2, fun c => ⟨(h.3 c).1, (h.3 c).2, (h.3 c).3, (h.3 c).4⟩⟩⟩

/-- An update of the sparse data that keeps their form keeps everything. -/
theorem Keeps.sparse {a s t : State} (h : Keeps a s) (hp : t.pending = s.pending) (hf : t.fuses = s.fuses)
    (hm : Memory.wf s.mem → Memory.wf t.mem) (hh : Memory.wf s.host → Memory.wf t.host)
    (hr : (s.regs.Pairwise fun a b => a.1 < b.1) → t.regs.Pairwise fun a b => a.1 < b.1)
    (he : (s.ecc.Pairwise fun a b => a.1 < b.1) → t.ecc.Pairwise fun a b => a.1 < b.1) : Keeps a t :=
  h.trans ⟨hp, hf, fun c => ⟨hm c.1, hh c.2, hr c.3, he c.4⟩⟩

theorem Keeps.ite {c : Prop} [Decidable c] {a s t : State} (h : Keeps a s) (k : Keeps a t) : Keeps a (if c then s else t) := by
  split
  · exact h
  · exact k

theorem Keeps.foldl {α : Type} {f : State → α → State} {l : List α} {a s : State} (h : Keeps a s)
    (k : ∀ s x, Keeps a s → Keeps a (f s x)) : Keeps a (l.foldl f s) := by
  induction l generalizing s with
  | nil => exact h
  | cons x l ih => exact ih (k s x h)

theorem Keeps.foldl1 {α β : Type} {f : State × β → α → State × β} {l : List α} {a : State} {p : State × β} (h : Keeps a p.1)
    (k : ∀ p x, Keeps a p.1 → Keeps a (f p x).1) : Keeps a (l.foldl f p).1 := by
  induction l generalizing p with
  | nil => exact h
  | cons x l ih => exact ih (k p x h)

/-- What a command answers, when it answers a next state, keeps them. -/
def KeepsOut (a : State) (o : Host.Outcome State Fault Refusal) : Prop := ∀ t, o = .next t → Keeps a t

theorem KeepsOut.next {a s : State} (h : Keeps a s) : KeepsOut a (.next s) := fun _ e => by cases e; exact h

theorem KeepsOut.ite {c : Prop} [Decidable c] {a : State} {x y : Host.Outcome State Fault Refusal} (h : KeepsOut a x)
    (k : KeepsOut a y) : KeepsOut a (if c then x else y) := by
  split
  · exact h
  · exact k

theorem KeepsOut.leaves {a s : State} {o : Host.Outcome State Fault Refusal} (k : KeepsOut a o) (h : Keeps a s) :
    Keeps a (leaves s o) := by
  cases o with
  | next t => exact k t rfl
  | fault _ => exact h
  | refused _ => exact h

/-- The state of an optional result keeps them. -/
def KeepsSome {β : Type} (a : State) (o : Option (State × β)) : Prop := ∀ p, o = some p → Keeps a p.1

theorem KeepsSome.some {β : Type} {a : State} {p : State × β} (h : Keeps a p.1) : KeepsSome a (.some p) :=
  fun _ e => by cases e; exact h

theorem KeepsSome.none {β : Type} {a : State} : KeepsSome a (Option.none : Option (State × β)) := fun _ e => by cases e

theorem KeepsSome.ite {β : Type} {c : Prop} [Decidable c] {a : State} {x y : Option (State × β)} (h : KeepsSome a x)
    (k : KeepsSome a y) : KeepsSome a (if c then x else y) := by
  split
  · exact h
  · exact k

/-- The state of a core's access keeps them. -/
def KeepsAcc (a : State) : CoreAccess → Prop
  | .ok s _ => Keeps a s
  | .trap s _ => Keeps a s
  | .wait => True

/-- The state of a core's instruction keeps them. -/
def KeepsRun (a : State) : CoreRun → Prop
  | .go s | .vendor s _ | .ecall s | .exc _ s => Keeps a s
  | .wait => True

/-- The state of a fetch keeps them. -/
def KeepsFetch (a : State) : Fetched → Prop
  | .ok s _ _ | .undefined s | .fault s => Keeps a s

theorem KeepsFetch.ok {a s : State} {w n : Nat} (h : Keeps a s) : KeepsFetch a (.ok s w n) := h
theorem KeepsFetch.undefined {a s : State} (h : Keeps a s) : KeepsFetch a (.undefined s) := h
theorem KeepsFetch.fault {a s : State} (h : Keeps a s) : KeepsFetch a (.fault s) := h
theorem KeepsFetch.of_ok {a s : State} {w n : Nat} {r : Fetched} (e : r = .ok s w n) (h : KeepsFetch a r) : Keeps a s := by
  subst e; exact h
theorem KeepsFetch.of_undefined {a s : State} {r : Fetched} (e : r = .undefined s) (h : KeepsFetch a r) : Keeps a s := by
  subst e; exact h
theorem KeepsFetch.of_fault {a s : State} {r : Fetched} (e : r = .fault s) (h : KeepsFetch a r) : Keeps a s := by
  subst e; exact h
theorem KeepsFetch.ite {c : Prop} [Decidable c] {a : State} {x y : Fetched} (h : KeepsFetch a x) (k : KeepsFetch a y) :
    KeepsFetch a (if c then x else y) := by
  split
  · exact h
  · exact k

theorem KeepsRun.ite {c : Prop} [Decidable c] {a : State} {x y : CoreRun} (h : KeepsRun a x) (k : KeepsRun a y) :
    KeepsRun a (if c then x else y) := by
  split
  · exact h
  · exact k

theorem KeepsAcc.ite {c : Prop} [Decidable c] {a : State} {x y : CoreAccess} (h : KeepsAcc a x) (k : KeepsAcc a y) :
    KeepsAcc a (if c then x else y) := by
  split
  · exact h
  · exact k

theorem KeepsAcc.ok {a s : State} {d : List Byte} (h : Keeps a s) : KeepsAcc a (.ok s d) := h
theorem KeepsAcc.trap {a s : State} {n : Nat} (h : Keeps a s) : KeepsAcc a (.trap s n) := h
theorem KeepsAcc.of_ok {a s : State} {d : List Byte} {r : CoreAccess} (e : r = .ok s d) (h : KeepsAcc a r) : Keeps a s := by
  subst e; exact h
theorem KeepsAcc.of_trap {a s : State} {n : Nat} {r : CoreAccess} (e : r = .trap s n) (h : KeepsAcc a r) : Keeps a s := by
  subst e; exact h
theorem KeepsRun.go {a s : State} (h : Keeps a s) : KeepsRun a (.go s) := h
theorem KeepsRun.vendor {a s : State} {w : Nat} (h : Keeps a s) : KeepsRun a (.vendor s w) := h
theorem KeepsRun.ecall {a s : State} (h : Keeps a s) : KeepsRun a (.ecall s) := h
theorem KeepsRun.wait {a : State} : KeepsRun a .wait := trivial
theorem KeepsAcc.wait {a : State} : KeepsAcc a .wait := trivial
theorem KeepsRun.exc {a s : State} {n : Nat} (h : Keeps a s) : KeepsRun a (.exc n s) := h
theorem KeepsRun.of_go {a s : State} {r : CoreRun} (e : r = .go s) (h : KeepsRun a r) : Keeps a s := by
  subst e; exact h
theorem KeepsRun.of_vendor {a s : State} {w : Nat} {r : CoreRun} (e : r = .vendor s w) (h : KeepsRun a r) : Keeps a s := by
  subst e; exact h
theorem KeepsRun.of_ecall {a s : State} {r : CoreRun} (e : r = .ecall s) (h : KeepsRun a r) : Keeps a s := by
  subst e; exact h
theorem KeepsRun.of_exc {a s : State} {n : Nat} {r : CoreRun} (e : r = .exc n s) (h : KeepsRun a r) : Keeps a s := by
  subst e; exact h
theorem KeepsSome.of_some {β : Type} {a s : State} {b : β} {o : Option (State × β)} (e : o = .some (s, b))
    (h : KeepsSome a o) : Keeps a s := h _ e
theorem Keeps.of_pair {β : Type} {a s : State} {b : β} {p : State × β} (e : p = (s, b)) (h : Keeps a p.1) : Keeps a s := by
  subst e; exact h
theorem Keeps.of_triple {β γ : Type} {a s : State} {b : β} {c : γ} {p : State × β × γ} (e : p = (s, b, c)) (h : Keeps a p.1) :
    Keeps a s := by
  subst e; exact h
/-- What goes on after a core's access keeps them, if the access and the rest do. -/
theorem KeepsAcc.andThen {a : State} {r : CoreAccess} {f : State → List Byte → CoreRun} (h : KeepsAcc a r)
    (k : ∀ s d, Keeps a s → KeepsRun a (f s d)) : KeepsRun a (r.andThen f) := by
  cases r with
  | ok s d => exact k s d h
  | trap s n => exact h
  | wait => trivial
theorem Keeps.iter {f : State → State} {n : Nat} {a s : State} (h : Keeps a s) (k : ∀ s, Keeps a s → Keeps a (f s)) :
    Keeps a (iter f n s) := by
  induction n generalizing s with
  | zero => exact h
  | succ n ih => exact ih (k s h)

end Sys2Proof.Machine
end

