-- ==== Sys2Proof/Laws/KeepsOps.lean ====
section
/-! SUPPORT. Every shared operation of the store, the registers, the journals and the scheduler keeps the queue, the fuses
and the canonical form. -/

namespace Sys2Proof.Machine

theorem aonReset_keeps {a s : State} (h : Keeps a s) : Keeps a (aonReset s) :=
  h.sparse rfl rfl (fun hm => mapWf_filter hm _) id (fun _ => .nil) fun he => he.filter _

theorem execAlwaysOnResetComplete_keeps {a s : State} (h : Keeps a s) : KeepsOut a (execAlwaysOnResetComplete s) := by
  unfold execAlwaysOnResetComplete
  with_reducible repeat' first | assumption | simp -zeta only [Keeps.mk_iff] | apply KeepsOut.next | split

theorem setEpochSlot_keeps {a s : State} {k : Nat} {e : EpochSlot} (h : Keeps a s) : Keeps a (setEpochSlot s k e) :=
    by
  unfold setEpochSlot
  with_reducible repeat' first
    | intro _ _ | assumption | dsimp only | simp -zeta only [Keeps.mk_iff] | apply Keeps.ite | split

theorem regPut_keeps {a s : State} {page off v : Nat} (h : Keeps a s) : Keeps a (regPut s page off v) := by
  refine h.sparse rfl rfl id id (fun hr => ?_) id
  exact mapPut_rises hr _ _ _

theorem fput_keeps {a s : State} {f : Fld} {v : Nat} (h : Keeps a s) : Keeps a (fput s f v) := by
  unfold fput
  with_reducible repeat' first | assumption | apply regPut_keeps

theorem fadd_keeps {a s : State} {f : Fld} {k : Nat} (h : Keeps a s) : Keeps a (fadd s f k) := by
  unfold fadd
  with_reducible repeat' first | assumption | apply fput_keeps

theorem send_keeps {a s : State} {m : Out} (h : Keeps a s) : Keeps a (send s m) := by
  unfold send
  with_reducible repeat' first | assumption | simp -zeta only [Keeps.mk_iff]

theorem sendMsix_keeps {a s : State} {fn vec : Nat} (h : Keeps a s) : Keeps a (sendMsix s fn vec) := by
  unfold sendMsix
  with_reducible repeat' first | assumption | apply send_keeps | split

theorem pageIrq_keeps {a s : State} {page : Nat} (h : Keeps a s) : Keeps a (pageIrq s page) := by
  unfold pageIrq
  with_reducible repeat' first | assumption | apply sendMsix_keeps | split

theorem setEvent_keeps {a s : State} {page b : Nat} (h : Keeps a s) : Keeps a (setEvent s page b) := by
  unfold setEvent
  with_reducible repeat' first
    | assumption | apply Keeps.ite | apply fadd_keeps | apply fput_keeps | apply pageIrq_keeps

theorem ledgerSet_keeps {a s : State} {cls idx : Nat} {v : List Nat} (h : Keeps a s) : Keeps a (ledgerSet s cls idx v)
    := by
  unfold ledgerSet
  with_reducible repeat' first | assumption | simp -zeta only [Keeps.mk_iff]

theorem ledgerAdd_keeps {a s : State} {cls idx word k : Nat} (h : Keeps a s) : Keeps a (ledgerAdd s cls idx word k) :=
    by
  unfold ledgerAdd
  with_reducible repeat' first | assumption | apply ledgerSet_keeps

theorem lifeAdd_keeps {a s : State} {idx word : Nat} (h : Keeps a s) : Keeps a (lifeAdd s idx word) := by
  unfold lifeAdd
  with_reducible repeat' first | assumption | apply ledgerAdd_keeps

theorem raiseWith_keeps {a s : State} {cls source sclass pid flags detail : Nat} (h : Keeps a s) : Keeps a
    (raiseWith s cls source sclass pid flags detail) := by
  unfold raiseWith
  with_reducible repeat' first | assumption | simp -zeta only [Keeps.mk_iff]

theorem raise_keeps {a s : State} {cls source sclass pid detail : Nat} (h : Keeps a s) : Keeps a
    (raise s cls source sclass pid detail) := by
  unfold raise
  with_reducible repeat' first | assumption | apply raiseWith_keeps

theorem nvmFail_keeps {a s : State} {addr jno : Nat} (h : Keeps a s) : Keeps a (nvmFail s addr jno) := by
  unfold nvmFail
  with_reducible repeat' first
    | assumption | simp -zeta only [Keeps.mk_iff] | apply fadd_keeps | apply fput_keeps | apply lifeAdd_keeps
    | apply raise_keeps | apply setEvent_keeps

theorem errCorr_keeps {a s : State} {page : Nat} (h : Keeps a s) : Keeps a (errCorr s page) := by
  unfold errCorr
  with_reducible repeat' first | assumption | apply fadd_keeps | apply setEvent_keeps

theorem countCorr_keeps {a s : State} {r : MapRange} (h : Keeps a s) : Keeps a (countCorr s r) := by
  unfold countCorr
  with_reducible repeat' first
    | assumption | dsimp only | simp -zeta only [Keeps.mk_iff] | apply errCorr_keeps | apply fadd_keeps
    | apply ledgerAdd_keeps | split

theorem eccSet_keeps {a s : State} {w : Nat} {e : Option EccSt} (h : Keeps a s) : Keeps a (eccSet s w e) := by
  unfold eccSet
  split
  · exact h.sparse rfl rfl id id id fun he => mapIns_rises he _ _
  · exact h.sparse rfl rfl id id id fun he => mapDel_rises he _

theorem memPut_keeps {a s : State} {a' : Nat} {bs : List Byte} (h : Keeps a s) : Keeps a (memPut s a' bs) :=
  h.sparse rfl rfl (fun hm => mapPutAll_wf hm _ _) id id id

theorem writeBack_keeps {a s : State} {l : CacheLine} (h : Keeps a s) : Keeps a (writeBack s l) := by
  unfold writeBack
  with_reducible repeat' first
    | intro _ _ _ | intro _ _ | assumption | dsimp only | apply Keeps.ite | apply eccSet_keeps | apply fadd_keeps
    | apply memPut_keeps | apply Keeps.foldl | apply Keeps.foldl1 | split

theorem flushLines_keeps {a s : State} {p : CacheLine → Bool} (h : Keeps a s) : Keeps a (flushLines s p) := by
  unfold flushLines
  with_reducible repeat' first
    | assumption | dsimp only | simp -zeta only [Keeps.mk_iff] | apply writeBack_keeps | apply Keeps.foldl

theorem errUncorr_keeps {a s : State} {page : Nat} (h : Keeps a s) : Keeps a (errUncorr s page) := by
  unfold errUncorr
  with_reducible repeat' first | assumption | apply fadd_keeps | apply setEvent_keeps

theorem countUncorr_keeps {a s : State} {r : MapRange} {sclass pid : Nat} (h : Keeps a s) : Keeps a
    (countUncorr s r sclass pid) := by
  unfold countUncorr
  with_reducible repeat' first
    | assumption | apply errUncorr_keeps | apply fadd_keeps | apply ledgerAdd_keeps | apply raise_keeps | split

theorem countPoison_keeps {a s : State} {r : MapRange} (h : Keeps a s) : Keeps a (countPoison s r) := by
  unfold countPoison
  with_reducible repeat' first | assumption | apply fadd_keeps | apply ledgerAdd_keeps | split

theorem fillWords_keeps {a s : State} {line sclass pid : Nat} (h : Keeps a s) : Keeps a (fillWords s line sclass pid).1
    := by
  unfold fillWords
  with_reducible repeat' first
    | intro _ _ _ | assumption | apply countCorr_keeps | apply countPoison_keeps | apply countUncorr_keeps
    | apply Keeps.foldl1 | split

theorem fillLine_keeps {a s : State} {pid line sclass : Nat} (h : Keeps a s) : Keeps a (fillLine s pid line sclass) :=
    by
  unfold fillLine
  with_reducible repeat' first
    | assumption | dsimp only | simp -zeta only [Keeps.mk_iff] | apply fadd_keeps | apply fillWords_keeps
    | apply flushLines_keeps | split

theorem touchLine_keeps {a s : State} {pid line sclass : Nat} (h : Keeps a s) : Keeps a (touchLine s pid line sclass)
    := by
  unfold touchLine
  with_reducible repeat' first
    | intro _ _ _ | intro _ _ | assumption | dsimp only | simp -zeta only [Keeps.mk_iff] | apply Keeps.ite
    | apply countCorr_keeps | apply fadd_keeps | apply fillLine_keeps | split

theorem lineWords_keeps {a s : State} {l : CacheLine} {lo hi sclass : Nat} (h : Keeps a s) : Keeps a (lineWords s l lo
    hi sclass).1 := by
  unfold lineWords
  with_reducible repeat' first
    | intro _ _ _ | intro _ _ | assumption | dsimp only | simp -zeta only [Keeps.mk_iff] | apply Keeps.ite
    | apply countCorr_keeps | apply countPoison_keeps | apply countUncorr_keeps | apply Keeps.foldl
    | apply Keeps.foldl1 | split

theorem setFront_keeps {a s : State} {l : CacheLine} (h : Keeps a s) : Keeps a (setFront s l) := by
  unfold setFront
  with_reducible repeat' first | assumption | simp -zeta only [Keeps.mk_iff]

theorem cacheWrite_keeps {a s : State} {pid x2 : Nat} {bs : List Byte} {sclass : Nat} (h : Keeps a s) : Keeps a
    (cacheWrite s pid x2 bs sclass) := by
  unfold cacheWrite
  with_reducible repeat' first
    | intro _ _ _ | intro _ _ | assumption | dsimp only | simp -zeta only [Keeps.mk_iff] | apply Keeps.ite
    | apply lineWords_keeps | apply setFront_keeps | apply touchLine_keeps | apply Keeps.foldl | apply Keeps.foldl1
    | split

theorem writeLines_keeps {a s : State} {pid sclass : Nat} {l : List (Nat × Nat)} {bs : List Byte} (h : Keeps a s) :
    Keeps a (writeLines s pid sclass l bs) := by
  induction l generalizing s bs with
  | nil => exact h
  | cons p l ih => exact ih (cacheWrite_keeps h)

theorem readWord_keeps {a : State} {sclass pid : Nat} {x2 : State × Bool} {w : Nat} (h : Keeps a x2.1) : Keeps a
    (readWord sclass pid x2 w).1 := by
  unfold readWord
  with_reducible repeat' first
    | assumption | dsimp only | apply countCorr_keeps | apply countPoison_keeps | apply countUncorr_keeps | split

theorem mergeWord_keeps {a : State} {x0 n sclass pid : Nat} {s : State} {w : Nat} (h : Keeps a s) : Keeps a
    (mergeWord x0 n sclass pid s w) := by
  unfold mergeWord
  with_reducible repeat' first | assumption | apply Keeps.ite | apply eccSet_keeps | apply readWord_keeps

theorem writeRaw_keeps {a s : State} {x1 : Nat} {bs : List Byte} {sclass pid : Nat} (h : Keeps a s) : Keeps a
    (writeRaw s x1 bs sclass pid) := by
  unfold writeRaw
  with_reducible repeat' first | assumption | apply memPut_keeps | apply mergeWord_keeps | apply Keeps.foldl

theorem ownWrite_keeps {a s : State} {x1 : Nat} {bs : List Byte} (h : Keeps a s) : Keeps a (ownWrite s x1 bs) := by
  unfold ownWrite
  with_reducible repeat' first | assumption | apply writeLines_keeps | apply writeRaw_keeps | split

theorem sendEntry_keeps {a s : State} {ch seq : Nat} (h : Keeps a s) : Keeps a (sendEntry s ch seq) := by
  unfold sendEntry
  with_reducible repeat' first | assumption | apply send_keeps | split

theorem commitVersion_keeps {a s : State} {v : Version} (h : Keeps a s) : Keeps a (commitVersion s v) := by
  unfold commitVersion
  with_reducible repeat' first
    | intro _ _ _ | intro _ _ | assumption | dsimp only | simp -zeta only [Keeps.mk_iff] | apply Keeps.ite
    | apply ownWrite_keeps | apply sendEntry_keeps | split

theorem noteVolatile_keeps {a s : State} {ch seq : Nat} (h : Keeps a s) : Keeps a (noteVolatile s ch seq) := by
  unfold noteVolatile
  with_reducible repeat' first | assumption | dsimp only | simp -zeta only [Keeps.mk_iff]

theorem commitVolatile_keeps {a s : State} {v : Version} (h : Keeps a s) : Keeps a (commitVolatile s v) := by
  unfold commitVolatile
  with_reducible repeat' first
    | intro _ _ | assumption | dsimp only | apply Keeps.ite | apply commitVersion_keeps | apply noteVolatile_keeps
    | split

theorem daybookFail_keeps {a s : State} {addr jno : Nat} (h : Keeps a s) : Keeps a (daybookFail s addr jno) := by
  unfold daybookFail
  with_reducible repeat' first
    | intro _ _ _ | intro _ _ | assumption | dsimp only | simp -zeta only [Keeps.mk_iff] | apply Keeps.ite
    | apply commitVolatile_keeps | apply fput_keeps | apply nvmFail_keeps | apply setEvent_keeps | apply Keeps.foldl
    | apply Keeps.foldl1 | split

theorem commitEpoch_keeps {a s : State} {res : MramResult} (h : Keeps a s) : Keeps a (commitEpoch s res) := by
  unfold commitEpoch
  with_reducible repeat' first
    | intro _ _ | assumption | dsimp only | simp -zeta only [Keeps.mk_iff] | apply Keeps.ite | apply daybookFail_keeps
    | apply fput_keeps | apply setEpochSlot_keeps | split

theorem setRole_keeps {a s : State} {k u role logical : Nat} (h : Keeps a s) : Keeps a (setRole s k u role logical) :=
    by
  unfold setRole
  with_reducible repeat' first
    | intro _ _ | assumption | dsimp only | simp -zeta only [Keeps.mk_iff] | apply Keeps.ite | apply fput_keeps
    | split

theorem assignKind_keeps {a s : State} {k : Nat} (h : Keeps a s) : Keeps a (assignKind s k) := by
  unfold assignKind
  with_reducible repeat' first | intro _ _ | assumption | apply setRole_keeps | apply Keeps.foldl1 | split

theorem fputs_keeps {a s : State} {l : List (Fld × Nat)} (h : Keeps a s) : Keeps a (fputs s l) := by
  unfold fputs
  with_reducible repeat' first | intro _ _ | assumption | apply fput_keeps | apply Keeps.foldl

theorem setPairRole_keeps {a s : State} {r : Nat} (h : Keeps a s) : Keeps a (setPairRole s r) := by
  unfold setPairRole
  with_reducible repeat' first | assumption | apply fputs_keeps

theorem loadConfig_keeps {a s : State} (h : Keeps a s) : Keeps a (loadConfig s) := by
  unfold loadConfig
  with_reducible repeat' first | assumption | apply fputs_keeps | apply setPairRole_keeps

theorem execPowerGood_keeps {a : State} {res : MramResult} {s : State} (h : Keeps a s) : KeepsOut a (execPowerGood res
    s) := by
  unfold execPowerGood
  with_reducible repeat' first
    | intro _ _ _ | intro _ _ | assumption | dsimp only | simp -zeta only [Keeps.mk_iff] | apply KeepsOut.next
    | apply Keeps.ite | apply assignKind_keeps | apply commitEpoch_keeps | apply loadConfig_keeps | apply Keeps.foldl
    | apply Keeps.foldl1 | split

theorem scansDone_keeps {a s : State} (h : Keeps a s) : Keeps a (scansDone s) := by
  unfold scansDone
  with_reducible repeat' first | assumption | apply fput_keeps | split

theorem readDaybook_keeps {a s : State} (h : Keeps a s) : Keeps a (readDaybook s) := by
  unfold readDaybook
  with_reducible repeat' first
    | intro _ _ _ | intro _ _ | assumption | dsimp only | apply Keeps.ite | apply daybookFail_keeps
    | apply readWord_keeps | apply Keeps.foldl | apply Keeps.foldl1 | split

theorem execDaybookScan_keeps {a s : State} (h : Keeps a s) : KeepsOut a (execDaybookScan s) := by
  unfold execDaybookScan
  with_reducible repeat' first
    | intro _ _ _ | intro _ _ | assumption | dsimp only | simp -zeta only [Keeps.mk_iff] | apply KeepsOut.next
    | apply Keeps.ite | apply fadd_keeps | apply fput_keeps | apply readDaybook_keeps | apply scansDone_keeps | split

theorem takeRecord_keeps {a s : State} {cls idx : Nat} (h : Keeps a s) : Keeps a (takeRecord s cls idx) := by
  unfold takeRecord
  with_reducible repeat' first
    | assumption | dsimp only | simp -zeta only [Keeps.mk_iff] | apply ledgerSet_keeps | split

theorem ledgerEvent_keeps {a s : State} {cls : Nat} {data : List Nat} (h : Keeps a s) : Keeps a (ledgerEvent s cls data)
    := by
  unfold ledgerEvent
  with_reducible repeat' first
    | assumption | simp -zeta only [Keeps.mk_iff] | apply Keeps.ite | apply fadd_keeps | apply ledgerSet_keeps
    | apply setEvent_keeps

theorem ledgerQueue_keeps {a s : State} {cls idx : Nat} (h : Keeps a s) : Keeps a (ledgerQueue s cls idx) := by
  unfold ledgerQueue
  with_reducible repeat' first | assumption | simp -zeta only [Keeps.mk_iff] | apply Keeps.ite

theorem requeue_keeps {a s : State} {v : LedgerVer} (h : Keeps a s) : Keeps a (requeue s v) := by
  unfold requeue
  with_reducible repeat' first | assumption | apply ledgerEvent_keeps | apply ledgerQueue_keeps | split

theorem writeSpareMap_keeps {a s : State} {k : Nat} (h : Keeps a s) : Keeps a (writeSpareMap s k) := by
  unfold writeSpareMap
  with_reducible repeat' first | assumption | apply ledgerQueue_keeps | apply ledgerSet_keeps | split

theorem renewSpareMap_keeps {a s : State} {k : Nat} (h : Keeps a s) : Keeps a (renewSpareMap s k) := by
  unfold renewSpareMap
  with_reducible repeat' first | assumption | apply Keeps.ite | apply writeSpareMap_keeps

theorem ledgerFail_keeps {a s : State} {addr lno : Nat} (h : Keeps a s) : Keeps a (ledgerFail s addr lno) := by
  unfold ledgerFail
  with_reducible repeat' first
    | assumption | dsimp only | simp -zeta only [Keeps.mk_iff] | apply fput_keeps | apply nvmFail_keeps
    | apply setEvent_keeps | split

theorem execLedgerScan_keeps {a s : State} (h : Keeps a s) : KeepsOut a (execLedgerScan s) := by
  unfold execLedgerScan
  with_reducible repeat' first
    | intro _ _ | assumption | simp -zeta only [Keeps.mk_iff] | apply KeepsOut.next | apply fputs_keeps
    | apply ledgerFail_keeps | apply lifeAdd_keeps | apply renewSpareMap_keeps | apply requeue_keeps
    | apply scansDone_keeps | apply takeRecord_keeps | apply Keeps.foldl | split

theorem spareEvent_keeps {a s : State} {k u logical reason replacedBy : Nat} (h : Keeps a s) : Keeps a
    (spareEvent s k u logical reason replacedBy) := by
  unfold spareEvent
  with_reducible repeat' first | assumption | apply ledgerEvent_keeps

theorem mapOut_keeps {a s : State} {k u logical reason : Nat} {by_ : Option Nat} (h : Keeps a s) : Keeps a
    (mapOut s k u logical reason by_) := by
  unfold mapOut
  with_reducible repeat' first
    | assumption | simp -zeta only [Keeps.mk_iff] | apply lifeAdd_keeps | apply setRole_keeps | apply spareEvent_keeps
    | apply writeSpareMap_keeps

theorem swapIn_keeps {a s : State} {k u spare : Nat} (h : Keeps a s) : Keeps a (swapIn s k u spare) := by
  unfold swapIn
  with_reducible repeat' first | assumption | apply setRole_keeps

theorem startMapOut_keeps {a s : State} {k u : Nat} (h : Keeps a s) : Keeps a (startMapOut s k u).1 := by
  unfold startMapOut
  with_reducible repeat' first | assumption | apply mapOut_keeps | apply swapIn_keeps | split

theorem raiseAs_keeps {a s : State} {cls source sclass pid flags detail sev also : Nat} (h : Keeps a s) : Keeps a
    (raiseAs s cls source sclass pid flags detail sev also) := by
  unfold raiseAs
  with_reducible repeat' first | assumption | simp -zeta only [Keeps.mk_iff]

theorem failStart_keeps {a s : State} {e : Nat × Nat} (h : Keeps a s) : Keeps a (failStart s e) := by
  unfold failStart
  with_reducible repeat' first | assumption | apply raise_keeps | apply raiseAs_keeps | apply startMapOut_keeps | split

theorem startRecord_keeps {a s : State} {failed : List Nat} (h : Keeps a s) : Keeps a (startRecord s failed) := by
  unfold startRecord
  with_reducible repeat' first | assumption | apply ledgerQueue_keeps | apply ledgerSet_keeps

theorem zeroSrams_keeps {a s : State} (h : Keeps a s) : Keeps a (zeroSrams s) :=
  h.sparse rfl rfl (fun hm => mapWf_filter hm _) id id fun he => he.filter _

theorem addCause_keeps {a s : State} {f : FaultRec} (h : Keeps a s) : Keeps a (addCause s f) := by
  unfold addCause
  with_reducible repeat' first | assumption | apply fput_keeps

theorem leaveNormal_keeps {a s : State} (h : Keeps a s) : Keeps a (leaveNormal s) := by
  unfold leaveNormal
  with_reducible repeat' first | assumption | dsimp only | simp -zeta only [Keeps.mk_iff] | apply setEvent_keeps | split

theorem countEntry_keeps {a s : State} {cls : Nat} (h : Keeps a s) : Keeps a (countEntry s cls) := by
  unfold countEntry
  with_reducible repeat' first | assumption | apply ledgerAdd_keeps

theorem canDue_keeps {a s : State} (h : Keeps a s) : Keeps a (canDue s) := by
  unfold canDue
  with_reducible repeat' first | assumption | simp -zeta only [Keeps.mk_iff]

theorem lastWordsB_keeps {a s : State} {cls : Nat} (h : Keeps a s) : Keeps a (lastWordsB s cls) := by
  unfold lastWordsB
  with_reducible repeat' first | assumption | dsimp only | simp -zeta only [Keeps.mk_iff]

theorem safeEvent_keeps {a s : State} {state : Nat} {f : FaultRec} (h : Keeps a s) : Keeps a (safeEvent s state f) := by
  unfold safeEvent
  with_reducible repeat' first | assumption | apply ledgerEvent_keeps

theorem enterSafeB_keeps {a s : State} {f : FaultRec} (h : Keeps a s) : Keeps a (enterSafeB s f) := by
  unfold enterSafeB
  with_reducible repeat' first
    | assumption | simp -zeta only [Keeps.mk_iff] | apply canDue_keeps | apply countEntry_keeps | apply fput_keeps
    | apply lastWordsB_keeps | apply leaveNormal_keeps | apply safeEvent_keeps | apply setEvent_keeps | split

theorem enterSafeA_keeps {a s : State} {f : FaultRec} (h : Keeps a s) : Keeps a (enterSafeA s f) := by
  unfold enterSafeA
  with_reducible repeat' first
    | assumption | apply canDue_keeps | apply countEntry_keeps | apply fput_keeps | apply leaveNormal_keeps
    | apply safeEvent_keeps

theorem queueDiag_keeps {a s : State} {n : Nat} {f : FaultRec} {r : Reaction} (h : Keeps a s) : Keeps a
    (queueDiag s n f r).1 := by
  unfold queueDiag
  with_reducible repeat' first | assumption | dsimp only | simp -zeta only [Keeps.mk_iff] | split

theorem diagnose_keeps {a s : State} {f : FaultRec} {r : Reaction} (h : Keeps a s) : Keeps a (diagnose s f r) := by
  unfold diagnose
  with_reducible repeat' first
    | intro _ _ | assumption | dsimp only | simp -zeta only [Keeps.mk_iff] | apply fadd_keeps | apply queueDiag_keeps
    | apply Keeps.foldl1 | split

theorem react_keeps {a s : State} {l : List FaultRec} (h : Keeps a s) : Keeps a (react s l) := by
  unfold react
  with_reducible repeat' first
    | intro _ _ _ | assumption | apply addCause_keeps | apply diagnose_keeps | apply enterSafeA_keeps
    | apply enterSafeB_keeps | apply Keeps.foldl | split

theorem logFault_keeps {a s : State} {f : FaultRec} (h : Keeps a s) : Keeps a (logFault s f) := by
  unfold logFault
  with_reducible repeat' first
    | assumption | simp -zeta only [Keeps.mk_iff] | apply fadd_keeps | apply fput_keeps | apply setEvent_keeps | split

theorem restartLeave_keeps {a s : State} {f : FaultRec} (h : Keeps a s) : Keeps a (restartLeave s f) := by
  unfold restartLeave
  with_reducible repeat' first | assumption | simp -zeta only [Keeps.mk_iff] | split

theorem countLedger_keeps {a s : State} {f : FaultRec} (h : Keeps a s) : Keeps a (countLedger s f) := by
  unfold countLedger
  with_reducible repeat' first | assumption | apply ledgerAdd_keeps | apply lifeAdd_keeps | split

theorem deferTest_keeps {a s : State} {k u : Nat} (h : Keeps a s) : Keeps a (deferTest s k u) := by
  unfold deferTest
  with_reducible repeat' first
    | assumption | dsimp only | simp -zeta only [Keeps.mk_iff] | apply fadd_keeps | apply ledgerSet_keeps

theorem askTakeover_keeps {a s : State} {k u spare reason : Nat} (h : Keeps a s) : Keeps a
    (askTakeover s k u spare reason) := by
  unfold askTakeover
  with_reducible repeat' first | assumption | simp -zeta only [Keeps.mk_iff]

theorem suspectTakeover_keeps {a s : State} {k u : Nat} (h : Keeps a s) : Keeps a (suspectTakeover s k u) := by
  unfold suspectTakeover
  with_reducible repeat' first
    | intro _ _ _ | intro _ _ | assumption | dsimp only | simp -zeta only [Keeps.mk_iff] | apply Keeps.ite
    | apply askTakeover_keeps | apply deferTest_keeps | split

theorem countSuspect_keeps {a s : State} {page : Nat} (h : Keeps a s) : Keeps a (countSuspect s page) := by
  unfold countSuspect
  with_reducible repeat' first
    | assumption | simp -zeta only [Keeps.mk_iff] | apply Keeps.ite | apply raiseWith_keeps
    | apply suspectTakeover_keeps | split

theorem recordFault_keeps {a s : State} {f : FaultRec} (h : Keeps a s) : Keeps a (recordFault s f) := by
  unfold recordFault
  with_reducible repeat' first
    | assumption | apply Keeps.ite | apply countLedger_keeps | apply countSuspect_keeps | apply logFault_keeps
    | apply restartLeave_keeps

theorem recordAll_keeps {a s : State} {l : List FaultRec} (h : Keeps a s) : Keeps a (recordAll s l) := by
  unfold recordAll
  with_reducible repeat' first | assumption | apply react_keeps | apply recordFault_keeps | apply Keeps.foldl

theorem execStartupInjection_keeps {a : State} {reports : List FaultIn} {failed : List (Nat × Nat)} {s : State}
    (h : Keeps a s) : KeepsOut a (execStartupInjection reports failed s) := by
  unfold execStartupInjection
  with_reducible repeat' first
    | assumption | simp -zeta only [Keeps.mk_iff] | apply KeepsOut.next | apply failStart_keeps | apply recordAll_keeps
    | apply startRecord_keeps | apply zeroSrams_keeps | apply Keeps.foldl | split

theorem execBootImageLoad_keeps {a : State} {slots : List (List Byte)} {s : State} (h : Keeps a s) : KeepsOut a
    (execBootImageLoad slots s) := by
  unfold execBootImageLoad
  with_reducible repeat' first
    | assumption | simp -zeta only [Keeps.mk_iff] | apply KeepsOut.next | apply fput_keeps | apply fputs_keeps
    | apply memPut_keeps | split

theorem putRegions_keeps {a s : State} {l : List (Nat × Nat)} (h : Keeps a s) : Keeps a (putRegions s l) := by
  unfold putRegions
  with_reducible repeat' first | intro _ _ | assumption | apply fputs_keeps | apply Keeps.foldl

theorem zeroRange_keeps {a s : State} {a' n : Nat} (h : Keeps a s) : Keeps a (zeroRange s a' n) :=
  h.sparse rfl rfl (fun hm => mapWf_filter hm _) id id fun he => he.filter _

theorem zeroBanks_keeps {a s : State} {mask : Nat} (h : Keeps a s) : Keeps a (zeroBanks s mask) := by
  unfold zeroBanks
  with_reducible repeat' first | intro _ _ | assumption | apply zeroRange_keeps | apply Keeps.foldl

theorem zeroRegions_keeps {a s : State} {mask : Nat} (h : Keeps a s) : Keeps a (zeroRegions s mask) := by
  unfold zeroRegions
  with_reducible repeat' first | intro _ _ | assumption | apply zeroRange_keeps | apply Keeps.foldl

theorem ownRegions_keeps {a s : State} {mask : Nat} {owner : Option Nat} (h : Keeps a s) : Keeps a
    (ownRegions s mask owner) := by
  unfold ownRegions
  with_reducible repeat' first | intro _ _ _ | assumption | apply fput_keeps | apply Keeps.foldl | split

theorem putPage_keeps {a s : State} {p : Nat} {b : List Byte} (h : Keeps a s) : Keeps a (putPage s p b) := by
  unfold putPage
  with_reducible repeat' first | assumption | apply fputs_keeps

theorem setChan_keeps {a s : State} {ch : Nat} {c : Chan} (h : Keeps a s) : Keeps a (setChan s ch c) := by
  unfold setChan
  with_reducible repeat' first | assumption | simp -zeta only [Keeps.mk_iff]

theorem moveChannel_keeps {a s : State} {ch pid : Nat} (h : Keeps a s) : Keeps a (moveChannel s ch pid) := by
  unfold moveChannel
  with_reducible repeat' first | assumption | apply fput_keeps | apply setChan_keeps | split

theorem moveChannels_keeps {a s : State} {p mask : Nat} (h : Keeps a s) : Keeps a (moveChannels s p mask) := by
  unfold moveChannels
  with_reducible repeat' first
    | intro _ _ _ | assumption | apply Keeps.ite | apply moveChannel_keeps | apply Keeps.foldl

theorem accrue_keeps {a s : State} (h : Keeps a s) : Keeps a (accrue s) := by
  unfold accrue
  with_reducible repeat' first
    | intro _ _ | assumption | dsimp only | simp -zeta only [Keeps.mk_iff] | apply Keeps.ite | apply fput_keeps
    | split

theorem beginRelock_keeps {a s : State} (h : Keeps a s) : Keeps a (beginRelock s) := by
  unfold beginRelock
  with_reducible repeat' first
    | intro _ _ | assumption | dsimp only | simp -zeta only [Keeps.mk_iff] | apply Keeps.ite | apply accrue_keeps
    | split

theorem relockIfFree_keeps {a s : State} (h : Keeps a s) : Keeps a (relockIfFree s) := by
  unfold relockIfFree
  with_reducible repeat' first | assumption | simp -zeta only [Keeps.mk_iff] | apply beginRelock_keeps | split

theorem relockFreed_keeps {a s : State} (h : Keeps a s) : Keeps a (relockFreed s) := by
  unfold relockFreed
  with_reducible repeat' first
    | intro _ _ | assumption | dsimp only | apply Keeps.ite | apply relockIfFree_keeps | split

theorem refit_keeps {a s : State} {pid : Nat} {strictOnly : Bool} (h : Keeps a s) : Keeps a (refit s pid strictOnly)
    := by
  unfold refit
  with_reducible repeat' first
    | intro _ _ _ | intro _ _ | assumption | dsimp only | simp -zeta only [Keeps.mk_iff] | apply Keeps.ite | split

theorem startDomain_keeps {a s : State} {d : Nat} (h : Keeps a s) : Keeps a (startDomain s d) := by
  unfold startDomain
  with_reducible repeat' first | assumption | apply fadd_keeps | apply fput_keeps | split

theorem installBlock_keeps {a s : State} {p mask : Nat} {b : List Byte} (h : Keeps a s) : Keeps a (installBlock s p
    mask b) := by
  unfold installBlock
  with_reducible repeat' first
    | intro _ _ _ | intro _ _ | assumption | dsimp only | simp -zeta only [Keeps.mk_iff] | apply Keeps.ite
    | apply flushLines_keeps | apply moveChannels_keeps | apply ownRegions_keeps | apply putPage_keeps
    | apply refit_keeps | apply relockFreed_keeps | apply startDomain_keeps | apply zeroBanks_keeps
    | apply zeroRegions_keeps | apply Keeps.foldl | apply Keeps.foldl1 | split

theorem installLayout_keeps {a s : State} (h : Keeps a s) : Keeps a (installLayout s) := by
  unfold installLayout
  with_reducible repeat' first
    | assumption | apply fputs_keeps | apply installBlock_keeps | apply putRegions_keeps | split

theorem execBootLayoutInstall_keeps {a s : State} (h : Keeps a s) : KeepsOut a (execBootLayoutInstall s) := by
  unfold execBootLayoutInstall
  with_reducible repeat' first
    | intro _ _ | assumption | simp -zeta only [Keeps.mk_iff] | apply KeepsOut.next | apply fput_keeps
    | apply installLayout_keeps | apply Keeps.foldl | split

theorem execLpddr5xInitialised_keeps {a : State} {margins : List (Byte × Byte)} {s : State} (h : Keeps a s) : KeepsOut a
    (execLpddr5xInitialised margins s) := by
  unfold execLpddr5xInitialised
  with_reducible repeat' first
    | intro _ _ | assumption | simp -zeta only [Keeps.mk_iff] | apply KeepsOut.next | apply fputs_keeps
    | apply Keeps.foldl | split

theorem setBundle_keeps {a s : State} {b : Nat} {x : BundleSt} (h : Keeps a s) : Keeps a (setBundle s b x) := by
  unfold setBundle
  with_reducible repeat' first | assumption | simp -zeta only [Keeps.mk_iff]

theorem transmit_keeps {a s : State} {n seq : Nat} {m : CtrlMsg} (h : Keeps a s) : Keeps a (transmit s n seq m) := by
  unfold transmit
  with_reducible repeat' first
    | intro _ _ | assumption | dsimp only | apply Keeps.ite | apply fadd_keeps | apply send_keeps | split

theorem pushMsg_keeps {a s : State} {b n : Nat} {m : CtrlMsg} (h : Keeps a s) : Keeps a (pushMsg s b n m) := by
  unfold pushMsg
  with_reducible repeat' first | assumption | apply Keeps.ite | apply setBundle_keeps | apply transmit_keeps

theorem sendTo_keeps {a s : State} {x1 group collSeq : Nat} {body : CtrlBody} (h : Keeps a s) : Keeps a
    (sendTo s x1 group collSeq body) := by
  unfold sendTo
  with_reducible repeat' first | assumption | apply pushMsg_keeps | split

theorem flood_keeps {a s : State} {g collSeq : Nat} {body : CtrlBody} {except : Option Nat} (h : Keeps a s) : Keeps a
    (flood s g collSeq body except) := by
  unfold flood
  with_reducible repeat' first | intro _ _ | assumption | apply sendTo_keeps | apply Keeps.foldl

theorem setSynced_keeps {a s : State} {g : Nat} {b : Bool} (h : Keeps a s) : Keeps a (setSynced s g b) := by
  unfold setSynced
  with_reducible repeat' first | assumption | apply fput_keeps

theorem floodDesync_keeps {a s : State} {other : Nat} (h : Keeps a s) : Keeps a (floodDesync s other) := by
  unfold floodDesync
  with_reducible repeat' first
    | intro _ _ _ | assumption | apply flood_keeps | apply setSynced_keeps | apply Keeps.foldl | split

theorem draw_keeps {a s : State} (h : Keeps a s) : Keeps a (draw s).1 := by
  unfold draw
  with_reducible repeat' first | assumption | simp -zeta only [Keeps.mk_iff]

theorem openWindow_keeps {a s : State} (h : Keeps a s) : Keeps a (openWindow s) := by
  unfold openWindow
  with_reducible repeat' first
    | assumption | dsimp only | simp -zeta only [Keeps.mk_iff] | apply draw_keeps | apply fput_keeps

theorem becomeReady_keeps {a s : State} (h : Keeps a s) : Keeps a (becomeReady s) := by
  unfold becomeReady
  with_reducible repeat' first
    | intro _ _ _ | intro _ _ | assumption | dsimp only | simp -zeta only [Keeps.mk_iff] | apply Keeps.ite
    | apply floodDesync_keeps | apply fputs_keeps | apply lifeAdd_keeps | apply openWindow_keeps | apply raise_keeps
    | split

theorem execReady_keeps {a s : State} (h : Keeps a s) : KeepsOut a (execReady s) := by
  unfold execReady
  with_reducible repeat' first | assumption | apply KeepsOut.next | apply becomeReady_keeps | split

theorem holdReset_keeps {a s : State} (h : Keeps a s) : Keeps a (holdReset s) := by
  unfold holdReset
  apply fputs_keeps
  exact h.sparse rfl rfl (fun hm => mapWf_filter hm _) id (fun hr => hr.filter _) fun he => he.filter _

theorem commitChanged_keeps {a s : State} (h : Keeps a s) : Keeps a (commitChanged s) := by
  unfold commitChanged
  with_reducible repeat' first
    | intro _ _ | assumption | apply ledgerQueue_keeps | apply ledgerSet_keeps | apply Keeps.foldl

theorem queueFlush_keeps {a s : State} {cause : Nat} (h : Keeps a s) : Keeps a (queueFlush s cause) := by
  unfold queueFlush
  with_reducible repeat' first
    | assumption | dsimp only | simp -zeta only [Keeps.mk_iff] | apply commitChanged_keeps | apply ledgerSet_keeps
    | split

theorem enterHoldup_keeps {a s : State} {cause : Nat} (h : Keeps a s) : Keeps a (enterHoldup s cause) := by
  unfold enterHoldup
  with_reducible repeat' first | assumption | apply holdReset_keeps | apply queueFlush_keeps

theorem execMainPowerLoss_keeps {a : State} {vddAon : Bool} {s : State} (h : Keeps a s) : KeepsOut a
    (execMainPowerLoss vddAon s) := by
  unfold execMainPowerLoss
  with_reducible repeat' first
    | assumption | simp -zeta only [Keeps.mk_iff] | apply KeepsOut.next | apply enterHoldup_keeps | split

theorem railFault_keeps {a s : State} {rail : Fin 9} {mv : Nat} (h : Keeps a s) : Keeps a (railFault s rail mv) := by
  unfold railFault
  with_reducible repeat' first
    | intro _ _ | assumption | dsimp only | simp -zeta only [Keeps.mk_iff] | apply Keeps.ite | apply fadd_keeps
    | apply raise_keeps | apply setEvent_keeps | split

theorem execVoltageWindowFault_keeps {a : State} {rail : Fin 9} {mv : Nat} {s : State} (h : Keeps a s) : KeepsOut a
    (execVoltageWindowFault rail mv s) := by
  unfold execVoltageWindowFault
  with_reducible repeat' first
    | intro _ _ | assumption | dsimp only | apply KeepsOut.next | apply Keeps.ite | apply enterHoldup_keeps
    | apply railFault_keeps | split

theorem execSysRstNFall_keeps {a s : State} (h : Keeps a s) : KeepsOut a (execSysRstNFall s) := by
  unfold execSysRstNFall
  with_reducible repeat' first
    | assumption | simp -zeta only [Keeps.mk_iff] | apply KeepsOut.next | apply aonReset_keeps | apply enterHoldup_keeps
    | split

theorem execFlushComplete_keeps {a s : State} (h : Keeps a s) : KeepsOut a (execFlushComplete s) := by
  unfold execFlushComplete
  with_reducible repeat' first | assumption | apply KeepsOut.next | apply aonReset_keeps | split

theorem slotPut_keeps {a s : State} {addr : Nat} {bs : List Byte} (h : Keeps a s) : Keeps a (slotPut s addr bs) := by
  unfold slotPut
  with_reducible repeat' first
    | intro _ _ _ | intro _ _ | assumption | dsimp only | apply Keeps.ite | apply eccSet_keeps | apply memPut_keeps
    | apply Keeps.foldl | apply Keeps.foldl1 | split

theorem failedSlot_keeps {a s : State} {addr : Nat} {bs : List Byte} {x3 : MramResult} (h : Keeps a s) : Keeps a
    (failedSlot s addr bs x3) := by
  unfold failedSlot
  with_reducible repeat' first
    | intro _ _ | assumption | dsimp only | apply Keeps.ite | apply draw_keeps | apply eccSet_keeps
    | apply slotPut_keeps | split

theorem tearSlot_keeps {a s : State} (h : Keeps a s) : Keeps a (tearSlot s) := by
  unfold tearSlot
  with_reducible repeat' first | assumption | apply failedSlot_keeps | split

theorem execBrownOut_keeps {a : State} {torn : Bool} {s : State} (h : Keeps a s) : KeepsOut a (execBrownOut torn s) :=
    by
  unfold execBrownOut
  with_reducible repeat' first | assumption | apply KeepsOut.next | apply aonReset_keeps | apply tearSlot_keeps | split

theorem clearEnables_keeps {a s : State} {p : Nat → Bool} (h : Keeps a s) : Keeps a (clearEnables s p) := by
  unfold clearEnables
  with_reducible repeat' first | intro _ _ | assumption | apply fput_keeps | apply Keeps.foldl

theorem dropLink_keeps {a s : State} (h : Keeps a s) : Keeps a (dropLink s) := by
  unfold dropLink
  with_reducible repeat' first | assumption | simp -zeta only [Keeps.mk_iff]

theorem execPerstN_keeps {a s : State} (h : Keeps a s) : KeepsOut a (execPerstN s) := by
  unfold execPerstN
  with_reducible repeat' first
    | assumption | simp -zeta only [Keeps.mk_iff] | apply KeepsOut.next | apply clearEnables_keeps
    | apply dropLink_keeps

theorem execHostLinkLoss_keeps {a s : State} (h : Keeps a s) : KeepsOut a (execHostLinkLoss s) := by
  unfold execHostLinkLoss
  with_reducible repeat' first | assumption | apply KeepsOut.next | apply dropLink_keeps | split

theorem execHostLinkUp_keeps {a s : State} (h : Keeps a s) : KeepsOut a (execHostLinkUp s) := by
  unfold execHostLinkUp
  with_reducible repeat' first
    | assumption | simp -zeta only [Keeps.mk_iff] | apply KeepsOut.next | apply clearEnables_keeps | split

theorem execFlr_keeps {a : State} {f : Fin 16} {s : State} (h : Keeps a s) : KeepsOut a (execFlr f s) := by
  unfold execFlr
  with_reducible repeat' first
    | assumption | simp -zeta only [Keeps.mk_iff] | apply KeepsOut.next | apply clearEnables_keeps | split

theorem execConfigurationRequest_keeps {a : State} {f : Fin 16} {s : State} (h : Keeps a s) : KeepsOut a
    (execConfigurationRequest f s) := by
  unfold execConfigurationRequest
  with_reducible repeat' first | assumption | apply KeepsOut.next | apply draw_keeps | apply send_keeps | split

theorem smbusAnswer_keeps {a s : State} {bs : List Byte} (h : Keeps a s) : Keeps a (smbusAnswer s bs) := by
  unfold smbusAnswer
  with_reducible repeat' first | assumption | apply send_keeps | split

theorem execSmbusIdentity_keeps {a s : State} (h : Keeps a s) : KeepsOut a (execSmbusIdentity s) := by
  unfold execSmbusIdentity
  with_reducible repeat' first | assumption | apply KeepsOut.next | apply smbusAnswer_keeps

theorem execSmbusState_keeps {a s : State} (h : Keeps a s) : KeepsOut a (execSmbusState s) := by
  unfold execSmbusState
  with_reducible repeat' first | assumption | apply KeepsOut.next | apply smbusAnswer_keeps

theorem execSmbusTj_keeps {a s : State} (h : Keeps a s) : KeepsOut a (execSmbusTj s) := by
  unfold execSmbusTj
  with_reducible repeat' first | assumption | apply KeepsOut.next | apply smbusAnswer_keeps

theorem execSmbusPowerEpoch_keeps {a s : State} (h : Keeps a s) : KeepsOut a (execSmbusPowerEpoch s) := by
  unfold execSmbusPowerEpoch
  with_reducible repeat' first | assumption | apply KeepsOut.next | apply smbusAnswer_keeps

theorem execSmbusLwIndex_keeps {a : State} {v : Byte} {s : State} (h : Keeps a s) : KeepsOut a (execSmbusLwIndex v s) :=
    by
  unfold execSmbusLwIndex
  with_reducible repeat' first
    | assumption | simp -zeta only [Keeps.mk_iff] | apply KeepsOut.next | apply smbusAnswer_keeps | split

theorem execSmbusLwData_keeps {a s : State} (h : Keeps a s) : KeepsOut a (execSmbusLwData s) := by
  unfold execSmbusLwData
  with_reducible repeat' first | assumption | apply KeepsOut.next | apply smbusAnswer_keeps

theorem execSmbusUndefinedCommand_keeps {a : State} {code : Byte} {s : State} (h : Keeps a s) : KeepsOut a
    (execSmbusUndefinedCommand code s) := by
  unfold execSmbusUndefinedCommand
  with_reducible repeat' first | assumption | apply KeepsOut.next | apply smbusAnswer_keeps | split

theorem execTapInstruction_keeps {a : State} {ir : TapInstr} {s : State} (h : Keeps a s) : KeepsOut a
    (execTapInstruction ir s) := by
  unfold execTapInstruction
  with_reducible repeat' first
    | assumption | simp -zeta only [Keeps.mk_iff] | apply KeepsOut.next | apply send_keeps | split

theorem setCan_keeps {a s : State} {n : Nat} {c : CanSt} (h : Keeps a s) : Keeps a (setCan s n c) := by
  unfold setCan
  with_reducible repeat' first | assumption | simp -zeta only [Keeps.mk_iff]

theorem execSafetyFrameBuild_keeps {a : State} {n : Fin 2} {s : State} (h : Keeps a s) : KeepsOut a
    (execSafetyFrameBuild n s) := by
  unfold execSafetyFrameBuild
  with_reducible repeat' first | assumption | apply KeepsOut.next | apply setCan_keeps | split

theorem beginFrame_keeps {a s : State} {n : Nat} (h : Keeps a s) : Keeps a (beginFrame s n).1 := by
  unfold beginFrame
  with_reducible repeat' first | assumption | dsimp only | apply fput_keeps | apply setCan_keeps | split

theorem errorCounters_keeps {a s : State} {n : Nat} (h : Keeps a s) : Keeps a (errorCounters s n) := by
  unfold errorCounters
  with_reducible repeat' first | assumption | apply draw_keeps | apply fput_keeps

theorem execCanFrameTransmit_keeps {a : State} {n : Fin 2} {acked : Bool} {s : State} (h : Keeps a s) : KeepsOut a
    (execCanFrameTransmit n acked s) := by
  unfold execCanFrameTransmit
  with_reducible repeat' first
    | assumption | apply KeepsOut.next | apply errorCounters_keeps | apply fadd_keeps | apply send_keeps
    | apply setCan_keeps | apply setEvent_keeps | exact Keeps.of_pair (by assumption) (beginFrame_keeps (by assumption))
    | split

theorem execCanFrameReceive_keeps {a : State} {n : Fin 2} {frame : CanFrame} {s : State} (h : Keeps a s) : KeepsOut a
    (execCanFrameReceive n frame s) := by
  unfold execCanFrameReceive
  with_reducible repeat' first
    | assumption | apply KeepsOut.next | apply errorCounters_keeps | apply fadd_keeps | apply setCan_keeps
    | apply setEvent_keeps | split

theorem execBusOff_keeps {a : State} {n : Fin 2} {rejoined : Bool} {s : State} (h : Keeps a s) : KeepsOut a
    (execBusOff n rejoined s) := by
  unfold execBusOff
  with_reducible repeat' first
    | assumption | apply KeepsOut.next | apply errorCounters_keeps | apply fadd_keeps | apply fput_keeps
    | apply lifeAdd_keeps | apply setEvent_keeps | split

theorem dropFlit_keeps {a s : State} (h : Keeps a s) : Keeps a (dropFlit s) := by
  unfold dropFlit
  with_reducible repeat' first | assumption | apply fadd_keeps

theorem updGroup_keeps {a s : State} {g : Nat} {f : GroupSt → GroupSt} (h : Keeps a s) : Keeps a (updGroup s g f) := by
  unfold updGroup
  with_reducible repeat' first | assumption | simp -zeta only [Keeps.mk_iff]

theorem forwardUp_keeps {a s : State} {g src collSeq : Nat} {body : CtrlBody} (h : Keeps a s) : Keeps a
    (forwardUp s g src collSeq body) := by
  unfold forwardUp
  with_reducible repeat' first | assumption | apply pushMsg_keeps | split

theorem dropTask_keeps {a s : State} {id : Nat} (h : Keeps a s) : Keeps a (dropTask s id) := by
  unfold dropTask
  with_reducible repeat' first
    | intro _ _ _ | intro _ _ | assumption | dsimp only | simp -zeta only [Keeps.mk_iff] | apply Keeps.ite | split

theorem updLetter_keeps {a s : State} {ch seq : Nat} {f : Letter → Letter} (h : Keeps a s) : Keeps a
    (updLetter s ch seq f) := by
  unfold updLetter
  with_reducible repeat' first | assumption | simp -zeta only [Keeps.mk_iff]

theorem noteStatus_keeps {a s : State} {ch seq status detail : Nat} (h : Keeps a s) : Keeps a
    (noteStatus s ch seq status detail) := by
  unfold noteStatus
  with_reducible repeat' first | assumption | apply updLetter_keeps

theorem updRun_keeps {a s : State} {ch seq : Nat} {f : RunSt → RunSt} (h : Keeps a s) : Keeps a (updRun s ch seq f) :=
    by
  unfold updRun
  with_reducible repeat' first | assumption | apply updLetter_keeps

theorem stopRun_keeps {a s : State} {ch seq : Nat} (h : Keeps a s) : Keeps a (stopRun s ch seq) := by
  unfold stopRun
  with_reducible repeat' first | assumption | dsimp only | simp -zeta only [Keeps.mk_iff] | apply updRun_keeps

theorem obsPut_keeps {a s : State} {i v : Nat} (h : Keeps a s) : Keeps a (obsPut s i v) := by
  unfold obsPut
  with_reducible repeat' first | assumption | simp -zeta only [Keeps.mk_iff]

theorem enterTask_keeps {a s : State} {t : Task} (h : Keeps a s) : Keeps a (enterTask s t) := by
  unfold enterTask
  with_reducible repeat' first
    | intro _ _ | assumption | dsimp only | simp -zeta only [Keeps.mk_iff] | apply Keeps.ite | apply obsPut_keeps
    | split

theorem enterReady_keeps {a s : State} {ch seq : Nat} (h : Keeps a s) : Keeps a (enterReady s ch seq) := by
  unfold enterReady
  with_reducible repeat' first
    | intro _ _ _ | assumption | apply enterTask_keeps | apply updRun_keeps | apply Keeps.foldl | split

theorem freeFlow_keeps {a s : State} {k : Option Nat} (h : Keeps a s) : Keeps a (freeFlow s k) := by
  unfold freeFlow
  with_reducible repeat' first | assumption | simp -zeta only [Keeps.mk_iff] | split

theorem queueVersion_keeps {a s : State} {v : Version} (h : Keeps a s) : Keeps a (queueVersion s v) := by
  unfold queueVersion
  with_reducible repeat' first
    | assumption | dsimp only | simp -zeta only [Keeps.mk_iff] | apply commitVersion_keeps | split

theorem mirrorReply_keeps {a s : State} {ch seq : Nat} {bs : List Byte} (h : Keeps a s) : Keeps a
    (mirrorReply s ch seq bs) := by
  unfold mirrorReply
  with_reducible repeat' first | assumption | apply ownWrite_keeps

theorem queuedHalf_keeps {a s : State} {p : PendReply} (h : Keeps a s) : Keeps a (queuedHalf s p) := by
  unfold queuedHalf
  with_reducible repeat' first | assumption | apply draw_keeps | apply mirrorReply_keeps

theorem markWindow_keeps {a s : State} {ch seq : Nat} {st : WinSt} (h : Keeps a s) : Keeps a (markWindow s ch seq st) :=
    by
  unfold markWindow
  with_reducible repeat' first | assumption | dsimp only | apply setChan_keeps | split

theorem queueReply_keeps {a s : State} {p : PendReply} (h : Keeps a s) : Keeps a (queueReply s p) := by
  unfold queueReply
  with_reducible repeat' first
    | assumption | dsimp only | simp -zeta only [Keeps.mk_iff] | apply markWindow_keeps | apply queuedHalf_keeps

theorem finishLetter_keeps {a s : State} {ch seq : Nat} {r : Result} (h : Keeps a s) : Keeps a (finishLetter s ch seq r)
    := by
  unfold finishLetter
  with_reducible repeat' first
    | assumption | apply queueReply_keeps | apply queueVersion_keeps | apply updLetter_keeps | split

theorem finishRun_keeps {a s : State} {l : Letter} {r : RunSt} {p : PlanSt} (h : Keeps a s) : Keeps a (finishRun s l r
    p) := by
  unfold finishRun
  with_reducible repeat' first
    | intro _ _ | assumption | dsimp only | simp -zeta only [Keeps.mk_iff] | apply Keeps.ite
    | apply finishLetter_keeps | apply freeFlow_keeps | apply noteStatus_keeps | apply raise_keeps | split

theorem advanceRun_keeps {a s : State} {ch seq : Nat} (h : Keeps a s) : Keeps a (advanceRun s ch seq) := by
  unfold advanceRun
  with_reducible repeat' first
    | assumption | dsimp only | apply enterReady_keeps | apply finishRun_keeps | apply noteStatus_keeps
    | apply stopRun_keeps | split

theorem abortOperator_keeps {a s : State} {t : Task} {detail : Nat} (h : Keeps a s) : Keeps a (abortOperator s t detail)
    := by
  unfold abortOperator
  with_reducible repeat' first
    | assumption | apply advanceRun_keeps | apply dropTask_keeps | apply noteStatus_keeps | apply updRun_keeps

theorem countAbort_keeps {a s : State} {lost : Bool} (h : Keeps a s) : Keeps a (countAbort s lost) := by
  unfold countAbort
  with_reducible repeat' first | assumption | apply fadd_keeps | apply setEvent_keeps | split

theorem obsInc_keeps {a s : State} {i : Nat} (h : Keeps a s) : Keeps a (obsInc s i) := by
  unfold obsInc
  with_reducible repeat' first | assumption | apply obsPut_keeps

theorem countEnd_keeps {a s : State} {t : Task} (h : Keeps a s) : Keeps a (countEnd s t) := by
  unfold countEnd
  with_reducible repeat' first | intro _ _ | assumption | dsimp only | apply Keeps.ite | apply fadd_keeps | split

theorem completeTask_keeps {a s : State} {t : Task} (h : Keeps a s) : Keeps a (completeTask s t) := by
  unfold completeTask
  with_reducible repeat' first
    | intro _ _ _ | intro _ _ | assumption | dsimp only | simp -zeta only [Keeps.mk_iff] | apply Keeps.ite
    | apply advanceRun_keeps | apply countEnd_keeps | apply dropTask_keeps | apply obsInc_keeps | apply updRun_keeps
    | split

theorem completeDirect_keeps {a s : State} {t : Task} {result : List Byte} (h : Keeps a s) : Keeps a (completeDirect s
    t result) := by
  unfold completeDirect
  with_reducible repeat' first
    | intro _ _ | assumption | dsimp only | simp -zeta only [Keeps.mk_iff] | apply Keeps.ite | apply dropTask_keeps
    | apply finishLetter_keeps | apply noteStatus_keeps | apply obsInc_keeps | split

theorem completeAny_keeps {a s : State} {t : Task} {result : List Byte} (h : Keeps a s) : Keeps a
    (completeAny s t result) := by
  unfold completeAny
  with_reducible repeat' first
    | assumption | apply completeDirect_keeps | apply completeTask_keeps | apply dropTask_keeps | split

theorem noteSummary_keeps {a s : State} {t : Task} {i : Nat} {port : PortRef} {data : List Byte} (h : Keeps a s) : Keeps
    a (noteSummary s t i port data) := by
  unfold noteSummary
  with_reducible repeat' first | assumption | dsimp only | simp -zeta only [Keeps.mk_iff] | split

theorem originOf_keeps {a s : State} {t : Task} (h : Keeps a s) : Keeps a (originOf s t).1 := by
  unfold originOf
  with_reducible repeat' first
    | intro _ _ | assumption | dsimp only | simp -zeta only [Keeps.mk_iff] | apply Keeps.ite | apply draw_keeps
    | split

theorem takeSeq_keeps {a s : State} {pid stream : Nat} (h : Keeps a s) : Keeps a (takeSeq s pid stream).1 := by
  unfold takeSeq
  with_reducible repeat' first | assumption | dsimp only | simp -zeta only [Keeps.mk_iff]

theorem updPlan_keeps {a s : State} {slot : Nat} {f : PlanSt → PlanSt} (h : Keeps a s) : Keeps a (updPlan s slot f) :=
    by
  unfold updPlan
  with_reducible repeat' first | assumption | simp -zeta only [Keeps.mk_iff]

theorem blockedAccess_keeps {a s : State} {pid : Option Nat} {sclass : Nat} {write : Bool} (h : Keeps a s) : Keeps a
    (blockedAccess s pid sclass write) := by
  unfold blockedAccess
  with_reducible repeat' first | assumption | apply fadd_keeps | apply raise_keeps | apply setEvent_keeps | split

theorem noteParity_keeps {a s : State} {ks : List Nat} (h : Keeps a s) : Keeps a (noteParity s ks) := by
  unfold noteParity
  with_reducible repeat' first
    | intro _ _ _ | intro _ _ | assumption | dsimp only | apply Keeps.ite | apply errUncorr_keeps | apply Keeps.foldl
    | apply Keeps.foldl1 | split

theorem devWrite_keeps {a s : State} {pid x2 : Nat} {bs : List Byte} {sclass : Nat} (h : Keeps a s) : Keeps a
    (devWrite s pid x2 bs sclass).1 := by
  unfold devWrite
  with_reducible repeat' first
    | intro _ _ | assumption | dsimp only | apply Keeps.ite | apply blockedAccess_keeps | apply noteParity_keeps
    | apply writeLines_keeps | apply writeRaw_keeps | split

theorem putItem_keeps {a s : State} {key : Nat} {p : StreamPub} (h : Keeps a s) : Keeps a (putItem s key p) := by
  unfold putItem
  with_reducible repeat' first
    | intro _ _ _ | intro _ _ | assumption | dsimp only | simp -zeta only [Keeps.mk_iff] | apply Keeps.ite | split

theorem noteWatch_keeps {a s : State} {pid stream sclass flags : Nat} (h : Keeps a s) : Keeps a
    (noteWatch s pid stream sclass flags) := by
  unfold noteWatch
  with_reducible repeat' first
    | intro _ _ _ | assumption | dsimp only | simp -zeta only [Keeps.mk_iff] | apply fput_keeps | apply Keeps.foldl
    | split

theorem putStream_keeps {a s : State} {pid stream : Nat} {data : List Byte} {d : Docket} {derived : Bool} (h : Keeps a
    s) : Keeps a (putStream s pid stream data d derived) := by
  unfold putStream
  with_reducible repeat' first
    | intro _ _ | assumption | dsimp only | apply Keeps.ite | apply noteWatch_keeps | apply putItem_keeps | split

theorem storePort_keeps {a s : State} {pid : Nat} {port : PortRef} {data : List Byte} {d : Docket} {derived : Bool} (h
    : Keeps a s) : Keeps a (storePort s pid port data d derived).1 := by
  unfold storePort
  with_reducible repeat' first
    | intro _ _ _ | intro _ _ | assumption | dsimp only | simp -zeta only [Keeps.mk_iff] | apply Keeps.ite
    | apply devWrite_keeps | apply putStream_keeps | apply updPlan_keeps | split

theorem countTags_keeps {a s : State} {pid flags : Nat} (h : Keeps a s) : Keeps a (countTags s pid flags) := by
  unfold countTags
  with_reducible repeat' first | assumption | apply fadd_keeps | split

theorem publishOut_keeps {a s : State} {t : Task} {port : PortRef} {epoch : Option Nat} {data : List Byte} {flags :
    Nat} (h : Keeps a s) : Keeps a (publishOut s t port epoch data flags) := by
  unfold publishOut
  with_reducible repeat' first
    | intro _ _ _ | intro _ _ | assumption | dsimp only | simp -zeta only [Keeps.mk_iff] | apply Keeps.ite
    | apply countTags_keeps | apply fadd_keeps | apply noteStatus_keeps | apply noteWatch_keeps | apply originOf_keeps
    | apply raise_keeps | apply setEvent_keeps | apply storePort_keeps | apply takeSeq_keeps | apply updLetter_keeps
    | split

theorem publishPorts_keeps {a s : State} {t : Task} {ps : List PortRef} {epoch : Option Nat} {own : List Nat} (h :
    Keeps a s) : Keeps a (publishPorts s t ps epoch own) := by
  unfold publishPorts
  with_reducible repeat' first
    | intro _ _ _ | intro _ _ | assumption | dsimp only | simp -zeta only [Keeps.mk_iff] | apply Keeps.ite
    | apply noteSummary_keeps | apply publishOut_keeps | apply Keeps.foldl | apply Keeps.foldl1 | split

theorem publishAll_keeps {a s : State} {t : Task} {epoch : Option Nat} {own : List Nat} (h : Keeps a s) : Keeps a
    (publishAll s t epoch own) := by
  unfold publishAll
  with_reducible repeat' first
    | intro _ _ | assumption | dsimp only | apply Keeps.ite | apply publishPorts_keeps | split

theorem applyDecision_keeps {a s : State} {g : Nat} {c : CollSt} {commit lost : Bool} {detail : Nat} (h : Keeps a s) :
    Keeps a (applyDecision s g c commit lost detail) := by
  unfold applyDecision
  with_reducible repeat' first
    | assumption | dsimp only | apply abortOperator_keeps | apply completeAny_keeps | apply countAbort_keeps
    | apply fadd_keeps | apply publishAll_keeps | apply updGroup_keeps | split

theorem decideColl_keeps {a s : State} {g : Nat} {c : CollSt} {commit lost : Bool} {detail : Nat} (h : Keeps a s) :
    Keeps a (decideColl s g c commit lost detail) := by
  unfold decideColl
  with_reducible repeat' first | assumption | apply applyDecision_keeps | apply flood_keeps

theorem putColl_keeps {a s : State} {g : Nat} {c : CollSt} (h : Keeps a s) : Keeps a (putColl s g c) := by
  unfold putColl
  with_reducible repeat' first | assumption | apply updGroup_keeps

theorem tryVote_keeps {a s : State} {g : Nat} {c : CollSt} (h : Keeps a s) : Keeps a (tryVote s g c) := by
  unfold tryVote
  with_reducible repeat' first | assumption | apply decideColl_keeps | apply putColl_keeps | apply sendTo_keeps | split

theorem judgeContrib_keeps {a s : State} {g : Nat} {c : CollSt} {d : CollDesc} (h : Keeps a s) : Keeps a
    (judgeContrib s g c d) := by
  unfold judgeContrib
  with_reducible repeat' first | assumption | apply decideColl_keeps | apply fadd_keeps | split

theorem judgeAbort_keeps {a s : State} {g : Nat} {c : CollSt} {station : Nat} (h : Keeps a s) : Keeps a
    (judgeAbort s g c station) := by
  unfold judgeAbort
  with_reducible repeat' first | assumption | apply Keeps.ite | apply decideColl_keeps | apply putColl_keeps

theorem judgeMsg_keeps {a s : State} {g src : Nat} {c : CollSt} {x4 : CtrlBody} (h : Keeps a s) : Keeps a
    (judgeMsg s g src c x4) := by
  unfold judgeMsg
  with_reducible repeat' first
    | assumption | apply applyDecision_keeps | apply judgeAbort_keeps | apply judgeContrib_keeps | apply putColl_keeps
    | apply tryVote_keeps | split

theorem keepEarly_keeps {a s : State} {g seq src : Nat} {b : CtrlBody} (h : Keeps a s) : Keeps a
    (keepEarly s g seq src b) := by
  unfold keepEarly
  with_reducible repeat' first | assumption | apply updGroup_keeps

theorem deliverMsg_keeps {a s : State} {g seq src : Nat} {b : CtrlBody} (h : Keeps a s) : Keeps a
    (deliverMsg s g seq src b) := by
  unfold deliverMsg
  with_reducible repeat' first | assumption | apply judgeMsg_keeps | apply keepEarly_keeps | split

theorem startColl_keeps {a s : State} {g : Nat} {t : Task} {p : List W32} {o : OpDesc} (h : Keeps a s) : Keeps a
    (startColl s g t p o) := by
  unfold startColl
  with_reducible repeat' first
    | intro _ _ | assumption | apply Keeps.ite | apply applyDecision_keeps | apply deliverMsg_keeps
    | apply forwardUp_keeps | apply updGroup_keeps | apply Keeps.foldl

theorem courierTask_keeps {a : State} {code task : Nat} {s : State} (h : Keeps a s) : KeepsOut a
    (courierTask code task s) := by
  unfold courierTask
  with_reducible repeat' first
    | assumption | apply KeepsOut.next | apply abortOperator_keeps | apply countAbort_keeps | apply startColl_keeps
    | split

theorem execAllreduce_keeps {a : State} {task : Nat} {s : State} (h : Keeps a s) : KeepsOut a (execAllreduce task s) :=
    by
  unfold execAllreduce
  with_reducible repeat' first | assumption | apply courierTask_keeps

theorem execBroadcast_keeps {a : State} {task : Nat} {s : State} (h : Keeps a s) : KeepsOut a (execBroadcast task s) :=
    by
  unfold execBroadcast
  with_reducible repeat' first | assumption | apply courierTask_keeps

theorem execMergeTopk_keeps {a : State} {task : Nat} {s : State} (h : Keeps a s) : KeepsOut a (execMergeTopk task s) :=
    by
  unfold execMergeTopk
  with_reducible repeat' first | assumption | apply courierTask_keeps

theorem execBarrier_keeps {a : State} {task : Nat} {s : State} (h : Keeps a s) : KeepsOut a (execBarrier task s) := by
  unfold execBarrier
  with_reducible repeat' first | assumption | apply courierTask_keeps

theorem docketEvent_keeps {a s : State} {t : Task} (h : Keeps a s) : Keeps a (docketEvent s t) := by
  unfold docketEvent
  with_reducible repeat' first | assumption | apply setEvent_keeps | split

theorem docketFail_keeps {a s : State} {t : Task} (h : Keeps a s) : Keeps a (docketFail s t) := by
  unfold docketFail
  with_reducible repeat' first | assumption | apply docketEvent_keeps | apply errUncorr_keeps | apply raise_keeps

theorem takeRead_keeps {a : State} {x0 : State × Task} {r : PortRead} (h : Keeps a x0.1) : Keeps a (takeRead x0 r).1
    := by
  unfold takeRead
  with_reducible repeat' first
    | intro _ _ | assumption | dsimp only | simp -zeta only [Keeps.mk_iff] | apply Keeps.ite | apply docketFail_keeps
    | apply noteStatus_keeps | split

theorem takeParts_keeps {a s : State} {t : Task} {parts : List CollPart} (h : Keeps a s) : Keeps a (takeParts s t
    parts).1 := by
  unfold takeParts
  with_reducible repeat' first
    | intro _ _ _ | intro _ _ | assumption | dsimp only | simp -zeta only [Keeps.mk_iff] | apply Keeps.ite
    | apply noteStatus_keeps | apply takeRead_keeps | apply Keeps.foldl | apply Keeps.foldl1 | split

theorem putTask_keeps {a s : State} {t : Task} (h : Keeps a s) : Keeps a (putTask s t) := by
  unfold putTask
  with_reducible repeat' first | assumption | simp -zeta only [Keeps.mk_iff]

theorem execStagingComplete_keeps {a : State} {g : Fin 16} {parts : List CollPart} {s : State} (h : Keeps a s) :
    KeepsOut a (execStagingComplete g parts s) := by
  unfold execStagingComplete
  with_reducible repeat' first
    | intro _ _ _ | intro _ _ | assumption | dsimp only | simp -zeta only [Keeps.mk_iff] | apply KeepsOut.next
    | apply Keeps.ite | apply putColl_keeps | apply putTask_keeps | apply takeParts_keeps | apply tryVote_keeps
    | split

theorem execContrib_keeps {a : State} {flit : FlitIn} {desc : CollDesc} {start : W64} {s : State} (h : Keeps a s) :
    KeepsOut a (execContrib flit desc start s) := by
  unfold execContrib
  with_reducible repeat' first
    | assumption | apply KeepsOut.next | apply KeepsOut.ite | apply deliverMsg_keeps | apply dropFlit_keeps
    | apply forwardUp_keeps

theorem execVote_keeps {a : State} {flit : FlitIn} {start : W64} {aligned : Bool} {s : State} (h : Keeps a s) : KeepsOut
    a (execVote flit start aligned s) := by
  unfold execVote
  with_reducible repeat' first
    | assumption | apply KeepsOut.next | apply deliverMsg_keeps | apply dropFlit_keeps | split

theorem execDecide_keeps {a : State} {flit : FlitIn} {commit : Bool} {detail : W32} {s : State} (h : Keeps a s) :
    KeepsOut a (execDecide flit commit detail s) := by
  unfold execDecide
  with_reducible repeat' first
    | assumption | apply KeepsOut.next | apply KeepsOut.ite | apply deliverMsg_keeps | apply dropFlit_keeps
    | apply flood_keeps

theorem execAbortReq_keeps {a : State} {flit : FlitIn} {station : BitVec 12} {s : State} (h : Keeps a s) : KeepsOut a
    (execAbortReq flit station s) := by
  unfold execAbortReq
  with_reducible repeat' first
    | assumption | apply KeepsOut.next | apply KeepsOut.ite | apply deliverMsg_keeps | apply dropFlit_keeps
    | apply flood_keeps

theorem execCollectiveTimeout_keeps {a : State} {g : Fin 16} {s : State} (h : Keeps a s) : KeepsOut a
    (execCollectiveTimeout g s) := by
  unfold execCollectiveTimeout
  with_reducible repeat' first
    | intro _ _ _ | intro _ _ | assumption | dsimp only | simp -zeta only [Keeps.mk_iff] | apply KeepsOut.next
    | apply Keeps.ite | apply applyDecision_keeps | split

theorem nakOnce_keeps {a s : State} {n : Nat} (h : Keeps a s) : Keeps a (nakOnce s n) := by
  unfold nakOnce
  with_reducible repeat' first
    | assumption | apply Keeps.ite | apply fadd_keeps | apply send_keeps | apply setBundle_keeps

theorem rewind_keeps {a s : State} {b n : Nat} (h : Keeps a s) : Keeps a (rewind s b n) := by
  unfold rewind
  with_reducible repeat' first
    | intro _ _ | assumption | apply fadd_keeps | apply ledgerAdd_keeps | apply setBundle_keeps | apply transmit_keeps
    | apply Keeps.foldl

theorem drainWait_keeps {a s : State} {k b n : Nat} (h : Keeps a s) : Keeps a (drainWait k s b n) := by
  induction k generalizing s with
  | zero => exact h
  | succ k ih =>
    unfold drainWait
    dsimp only
    split
    · exact h
    · exact Keeps.ite h (ih (pushMsg_keeps (setBundle_keeps h)))

theorem useAck_keeps {a s : State} {n ack : Nat} (h : Keeps a s) : Keeps a (useAck s n ack) := by
  unfold useAck
  with_reducible repeat' first | assumption | apply Keeps.ite | apply drainWait_keeps | apply setBundle_keeps

theorem useNak_keeps {a s : State} {n : Nat} {nak : Bool} (h : Keeps a s) : Keeps a (useNak s n nak) := by
  unfold useNak
  with_reducible repeat' first | assumption | apply rewind_keeps | split

theorem execFlitReceive_keeps {a : State} {link : Fin 6} {bytes : List Byte} {s : State} (h : Keeps a s) : KeepsOut a
    (execFlitReceive link bytes s) := by
  unfold execFlitReceive
  with_reducible repeat' first
    | assumption | simp -zeta only [Keeps.mk_iff] | apply KeepsOut.next | apply KeepsOut.ite | apply fadd_keeps
    | apply ledgerAdd_keeps | apply nakOnce_keeps | apply setBundle_keeps | apply useAck_keeps | apply useNak_keeps

theorem execLinkRewind_keeps {a : State} {link : Fin 6} {s : State} (h : Keeps a s) : KeepsOut a (execLinkRewind link s)
    := by
  unfold execLinkRewind
  with_reducible repeat' first | assumption | apply KeepsOut.next | apply KeepsOut.ite | apply rewind_keeps

theorem treeLost_keeps {a s : State} {x1 : Nat} (h : Keeps a s) : Keeps a (treeLost s x1) := by
  unfold treeLost
  with_reducible repeat' first
    | intro _ _ _ | assumption | apply flood_keeps | apply judgeAbort_keeps | apply putColl_keeps | apply Keeps.foldl
    | split

theorem execLinkDown_keeps {a : State} {link : Fin 6} {s : State} (h : Keeps a s) : KeepsOut a (execLinkDown link s) :=
    by
  unfold execLinkDown
  with_reducible repeat' first
    | assumption | dsimp only | apply KeepsOut.next | apply fadd_keeps | apply fput_keeps | apply ledgerAdd_keeps
    | apply rewind_keeps | apply setBundle_keeps | apply setEvent_keeps | apply treeLost_keeps | split

theorem execLinkTraining_keeps {a : State} {link : Fin 6} {s : State} (h : Keeps a s) : KeepsOut a
    (execLinkTraining link s) := by
  unfold execLinkTraining
  with_reducible repeat' first
    | assumption | simp -zeta only [Keeps.mk_iff] | apply KeepsOut.next | apply KeepsOut.ite | apply fput_keeps

theorem startStream_keeps {a s : State} (h : Keeps a s) : Keeps a (startStream s) := by
  unfold startStream
  with_reducible repeat' first
    | intro _ _ _ | assumption | simp -zeta only [Keeps.mk_iff] | apply sendEntry_keeps | apply Keeps.foldl | split

theorem execTrainingComplete_keeps {a : State} {link : Fin 6} {peer : BitVec 12} {trained standby : Bool} {s : State}
    (h : Keeps a s) : KeepsOut a (execTrainingComplete link peer trained standby s) := by
  unfold execTrainingComplete
  with_reducible repeat' first
    | intro _ _ | assumption | dsimp only | simp -zeta only [Keeps.mk_iff] | apply KeepsOut.next | apply Keeps.ite
    | apply floodDesync_keeps | apply fput_keeps | apply ledgerAdd_keeps | apply setEvent_keeps
    | apply startStream_keeps | split

theorem execDesync_keeps {a : State} {flit : FlitIn} {s : State} (h : Keeps a s) : KeepsOut a (execDesync flit s) := by
  unfold execDesync
  with_reducible repeat' first
    | assumption | apply KeepsOut.next | apply dropFlit_keeps | apply flood_keeps | apply setEvent_keeps
    | apply setSynced_keeps | split

theorem countRsvd_keeps {a s : State} {page off counted : Nat} (h : Keeps a s) : Keeps a (countRsvd s page off counted)
    := by
  unfold countRsvd
  with_reducible repeat' first | assumption | apply fadd_keeps | apply fput_keeps | apply setEvent_keeps

theorem unflip_keeps {a s : State} {page off mask : Nat} (h : Keeps a s) : Keeps a (unflip s page off mask) := by
  unfold unflip
  with_reducible repeat' first
    | intro _ _ _ | intro _ _ | assumption | dsimp only | simp -zeta only [Keeps.mk_iff] | apply Keeps.ite | split

theorem writeField_keeps {a : State} {deny : DenyRule} {page off cur new mask : Nat} {x : WriteAcc} {r : RegRow × Nat × Nat}
    (h : Keeps a x.s) : Keeps a (writeField deny page off cur new mask x r).s := by
  unfold writeField
  repeat' first
    | with_reducible assumption
    | dsimp only
    | with_reducible apply Keeps.ite
    | with_reducible apply unflip_keeps
    | with_reducible apply regPut_keeps
    | with_reducible apply setEvent_keeps
    | with_reducible intro _ _ _
    | with_reducible apply Keeps.foldl
    | split

theorem writeFields_keeps {a : State} {deny : DenyRule} {page off cur new mask : Nat} {l : List (RegRow × Nat × Nat)}
    {x : WriteAcc} (h : Keeps a x.s) : Keeps a (l.foldl (writeField deny page off cur new mask) x).s := by
  induction l generalizing x with
  | nil => exact h
  | cons r l ih => exact ih (writeField_keeps h)

theorem badValue_keeps {a s : State} {page : Nat} (h : Keeps a s) : Keeps a (badValue s page) := by
  unfold badValue
  with_reducible repeat' first | assumption | apply setEvent_keeps

theorem writeWord_keeps {a s : State} {deny : DenyRule} {q : Requester} {page off : Nat} {v : W32} {be : BitVec 4}
    (h : Keeps a s) : Keeps a (writeWord deny s q page off v be) := by
  unfold writeWord
  repeat' first
    | with_reducible assumption
    | dsimp only
    | with_reducible apply Keeps.ite
    | with_reducible apply pageIrq_keeps
    | with_reducible apply countRsvd_keeps
    | with_reducible apply badValue_keeps
    | with_reducible apply writeFields_keeps
    | split

theorem regWrite_keeps {a : State} {deny : DenyRule} {s : State} {q : Requester} {page off : Nat} {v : W32} {be :
    BitVec 4} (h : Keeps a s) : Keeps a (regWrite deny s q page off v be) := by
  unfold regWrite
  with_reducible repeat' first
    | intro _ _ | assumption | dsimp only | simp -zeta only [Keeps.mk_iff] | apply Keeps.ite
    | apply blockedAccess_keeps | apply countRsvd_keeps | apply noteParity_keeps | apply writeWord_keeps | split

theorem execResyncGo_keeps {a : State} {q : Requester} {v : W32} {be : BitVec 4} {s : State} (h : Keeps a s) : KeepsOut
    a (execResyncGo q v be s) := by
  unfold execResyncGo
  with_reducible repeat' first
    | assumption | apply KeepsOut.next | apply KeepsOut.ite | apply flood_keeps | apply fput_keeps
    | apply regWrite_keeps | apply updGroup_keeps

theorem execResync_keeps {a : State} {flit : FlitIn} {word : W32} {s : State} (h : Keeps a s) : KeepsOut a
    (execResync flit word s) := by
  unfold execResync
  with_reducible repeat' first
    | assumption | apply KeepsOut.next | apply KeepsOut.ite | apply dropFlit_keeps | apply flood_keeps
    | apply sendTo_keeps | apply setEvent_keeps | apply setSynced_keeps | apply updGroup_keeps

theorem execResyncComplete_keeps {a : State} {flit : FlitIn} {s : State} (h : Keeps a s) : KeepsOut a
    (execResyncComplete flit s) := by
  unfold execResyncComplete
  with_reducible repeat' first
    | assumption | apply KeepsOut.next | apply KeepsOut.ite | apply flood_keeps | apply fput_keeps
    | apply setSynced_keeps | apply updGroup_keeps | split

theorem updAlign_keeps {a s : State} {f : AlignSt → AlignSt} (h : Keeps a s) : Keeps a (updAlign s f) := by
  unfold updAlign
  with_reducible repeat' first | assumption | simp -zeta only [Keeps.mk_iff]

theorem beginAlign_keeps {a s : State} (h : Keeps a s) : Keeps a (beginAlign s) := by
  unfold beginAlign
  with_reducible repeat' first | assumption | apply fput_keeps | apply updAlign_keeps

theorem execAlignGo_keeps {a : State} {q : Requester} {v : W32} {be : BitVec 4} {s : State} (h : Keeps a s) : KeepsOut a
    (execAlignGo q v be s) := by
  unfold execAlignGo
  with_reducible repeat' first
    | assumption | apply KeepsOut.next | apply KeepsOut.ite | apply beginAlign_keeps | apply fput_keeps
    | apply regWrite_keeps

theorem roundDiv_keeps {a s : State} {v : Int} {d : Nat} (h : Keeps a s) : Keeps a (roundDiv s v d).1 := by
  unfold roundDiv
  with_reducible repeat' first | assumption | dsimp only | apply draw_keeps | split

theorem alignAdj_keeps {a s : State} {behind : Int} (h : Keeps a s) : Keeps a (alignAdj s behind).1 := by
  unfold alignAdj
  with_reducible repeat' first | assumption | apply roundDiv_keeps

theorem setAdj_keeps {a s : State} {v : Nat} (h : Keeps a s) : Keeps a (setAdj s v) := by
  unfold setAdj
  with_reducible repeat' first | assumption | dsimp only | simp -zeta only [Keeps.mk_iff] | apply fput_keeps

theorem finishHop_keeps {a s : State} {n : Nat} {theta2 delay2 behind : Int} (h : Keeps a s) : Keeps a
    (finishHop s n theta2 delay2 behind) := by
  unfold finishHop
  with_reducible repeat' first
    | assumption | apply Keeps.ite | apply alignAdj_keeps | apply fput_keeps | apply roundDiv_keeps | apply setAdj_keeps
    | apply updAlign_keeps | split

theorem execTimeExchange_keeps {a : State} {link : Fin 6} {t1 t2 t3 t4 : W64} {behind : Int} {s : State} (h : Keeps a s)
    : KeepsOut a (execTimeExchange link t1 t2 t3 t4 behind s) := by
  unfold execTimeExchange
  with_reducible repeat' first
    | assumption | apply KeepsOut.next | apply KeepsOut.ite | apply beginAlign_keeps | apply finishHop_keeps
    | apply updAlign_keeps | split

theorem execAlignmentComplete_keeps {a s : State} (h : Keeps a s) : KeepsOut a (execAlignmentComplete s) := by
  unfold execAlignmentComplete
  with_reducible repeat' first | assumption | apply KeepsOut.next | apply fputs_keeps | apply updAlign_keeps | split

theorem execTimeDriftCheck_keeps {a : State} {link : Fin 6} {theta : Int} {s : State} (h : Keeps a s) : KeepsOut a
    (execTimeDriftCheck link theta s) := by
  unfold execTimeDriftCheck
  with_reducible repeat' first
    | assumption | apply KeepsOut.next | apply KeepsOut.ite | apply fadd_keeps | apply fput_keeps | apply setEvent_keeps
    | apply updAlign_keeps

theorem popVersion_keeps {a s : State} (h : Keeps a s) : Keeps a (popVersion s) := by
  unfold popVersion
  with_reducible repeat' first | assumption | dsimp only | simp -zeta only [Keeps.mk_iff] | split

theorem execJournalWrite_keeps {a : State} {res : MramResult} {s : State} (h : Keeps a s) : KeepsOut a
    (execJournalWrite res s) := by
  unfold execJournalWrite
  with_reducible repeat' first
    | intro _ _ | assumption | dsimp only | simp -zeta only [Keeps.mk_iff] | apply KeepsOut.next | apply Keeps.ite
    | apply commitVersion_keeps | apply daybookFail_keeps | apply failedSlot_keeps | apply popVersion_keeps
    | apply slotPut_keeps | split

theorem takeCell_keeps {a s : State} (h : Keeps a s) : Keeps a (takeCell s).1 := by
  unfold takeCell
  with_reducible repeat' first | assumption | dsimp only | simp -zeta only [Keeps.mk_iff] | split

end Sys2Proof.Machine
end

