-- ==== Sys2Proof/Laws/KeepsUnits.lean ====
section
/-! SUPPORT. Every operation of the units, the partitions, the Letters and the commands on them keeps the queue, the fuses and the
canonical form. -/

namespace Sys2Proof.Machine

theorem enterWindow_keeps {a s : State} {ch seq : Nat} {st : WinSt} (h : Keeps a s) : Keeps a (enterWindow s ch seq st)
    := by
  unfold enterWindow
  with_reducible repeat' first | assumption | apply setChan_keeps

theorem freeCredit_keeps {a s : State} {ch : Nat} {strict : Bool} (h : Keeps a s) : Keeps a (freeCredit s ch strict) :=
    by
  unfold freeCredit
  with_reducible repeat' first | assumption | apply fput_keeps | split

theorem leaveFlight_keeps {a s : State} {p : PendReply} (h : Keeps a s) : Keeps a (leaveFlight s p) := by
  unfold leaveFlight
  with_reducible repeat' first | assumption | simp -zeta only [Keeps.mk_iff] | apply Keeps.ite | apply freeCredit_keeps

theorem hostPut_keeps {a s : State} {a' : Nat} {bs : List Byte} (h : Keeps a s) : Keeps a (hostPut s a' bs) :=
  h.sparse rfl rfl id (fun hh => mapPutAll_wf hh _ _) id id

theorem queryDaybook_keeps {a s : State} {ch pid start count dst : Nat} (h : Keeps a s) : Keeps a (queryDaybook s ch
    pid start count dst).1 := by
  unfold queryDaybook
  with_reducible repeat' first
    | intro _ _ _ | intro _ _ | assumption | dsimp only | apply Keeps.ite | apply hostPut_keeps
    | apply readDaybook_keeps | split

theorem complete_keeps {a s : State} {bs : List Byte} (h : Keeps a s) : Keeps a (complete s bs) := by
  unfold complete
  with_reducible repeat' first | assumption | simp -zeta only [Keeps.mk_iff]

theorem poisonCompletion_keeps {a s : State} {f n : Nat} (h : Keeps a s) : Keeps a (poisonCompletion s f n) := by
  unfold poisonCompletion
  with_reducible repeat' first | assumption | apply complete_keeps | apply send_keeps

theorem cacheRead_keeps {a s : State} {pid x2 n sclass : Nat} (h : Keeps a s) : Keeps a (cacheRead s pid x2 n
    sclass).1 := by
  unfold cacheRead
  with_reducible repeat' first
    | intro _ _ | assumption | dsimp only | simp -zeta only [Keeps.mk_iff] | apply Keeps.ite | apply lineWords_keeps
    | apply touchLine_keeps | split

theorem readRaw_keeps {a s : State} {x1 n sclass pid : Nat} (h : Keeps a s) : Keeps a (readRaw s x1 n sclass pid).1 :=
    by
  unfold readRaw
  with_reducible repeat' first | assumption | apply readWord_keeps | apply Keeps.foldl1

theorem devRead_keeps {a s : State} {pid x2 n sclass : Nat} (h : Keeps a s) : Keeps a (devRead s pid x2 n sclass).1 :=
    by
  unfold devRead
  with_reducible repeat' first
    | intro _ _ _ | intro _ _ | assumption | dsimp only | apply Keeps.ite | apply blockedAccess_keeps
    | apply cacheRead_keeps | apply noteParity_keeps | apply readRaw_keeps | apply Keeps.foldl | apply Keeps.foldl1
    | split

theorem mramFail_keeps {a s : State} {w : Nat} (h : Keeps a s) : Keeps a (mramFail s w) := by
  unfold mramFail
  with_reducible repeat' first
    | intro _ _ | assumption | dsimp only | apply Keeps.ite | apply daybookFail_keeps | apply ledgerFail_keeps | split

theorem pidRead_keeps {a s : State} {pid x2 n sclass : Nat} (h : Keeps a s) : Keeps a (pidRead s pid x2 n sclass).1 :=
    by
  unfold pidRead
  with_reducible repeat' first
    | intro _ _ _ | intro _ _ | assumption | dsimp only | apply Keeps.ite | apply devRead_keeps | apply mramFail_keeps
    | apply Keeps.foldl | apply Keeps.foldl1 | split

theorem bar2Read_keeps {a s : State} {f off len : Nat} (h : Keeps a s) : Keeps a (bar2Read s f off len) := by
  unfold bar2Read
  with_reducible repeat' first
    | intro _ _ | assumption | dsimp only | simp -zeta only [Keeps.mk_iff] | apply Keeps.ite
    | apply blockedAccess_keeps | apply complete_keeps | apply noteParity_keeps | apply pidRead_keeps
    | apply poisonCompletion_keeps | apply send_keeps | split

theorem pidWrite_keeps {a s : State} {pid x2 : Nat} {bs : List Byte} {sclass : Nat} (h : Keeps a s) : Keeps a
    (pidWrite s pid x2 bs sclass).1 := by
  unfold pidWrite
  with_reducible repeat' first
    | intro _ _ _ | intro _ _ | assumption | dsimp only | apply Keeps.ite | apply devWrite_keeps
    | apply mramFail_keeps | apply Keeps.foldl | apply Keeps.foldl1 | split

theorem bar2Write_keeps {a s : State} {f off : Nat} {data : List Byte} (h : Keeps a s) : Keeps a (bar2Write s f off
    data) := by
  unfold bar2Write
  with_reducible repeat' first
    | intro _ _ | assumption | dsimp only | simp -zeta only [Keeps.mk_iff] | apply Keeps.ite
    | apply blockedAccess_keeps | apply noteParity_keeps | apply pidWrite_keeps | split

theorem bar2Access_keeps {a s : State} {x : HostAccess} (h : Keeps a s) : Keeps a (bar2Access s x) := by
  unfold bar2Access
  with_reducible repeat' first
    | intro _ _ | assumption | dsimp only | simp -zeta only [Keeps.mk_iff] | apply Keeps.ite | apply bar2Read_keeps
    | apply bar2Write_keeps | split

theorem drainList_keeps {a s : State} {l : List HostAccess} (h : Keeps a s) : Keeps a (drainList l s) := by
  induction l generalizing s with
  | nil => exact Keeps.trans h (by simp -zeta only [drainList, Keeps.mk_iff]; exact .refl s)
  | cons x l ih =>
    unfold drainList
    repeat' with_reducible first
      | assumption | apply ih | apply bar2Access_keeps | simp -zeta only [Keeps.mk_iff] | split

theorem drainBar2_keeps {a s : State} (h : Keeps a s) : Keeps a (drainBar2 s) := by
  unfold drainBar2
  with_reducible repeat' first | intro _ _ | assumption | dsimp only | apply Keeps.ite | apply drainList_keeps | split

theorem bar2Arrive_keeps {a s : State} {x : HostAccess} (h : Keeps a s) : Keeps a (bar2Arrive s x) := by
  unfold bar2Arrive
  with_reducible repeat' first
    | intro _ _ | assumption | dsimp only | simp -zeta only [Keeps.mk_iff] | apply Keeps.ite | apply bar2Access_keeps
    | split

theorem execBar2Read_keeps {a : State} {f : Fin 16} {off : W64} {len : Nat} {s : State} (h : Keeps a s) : KeepsOut a
    (execBar2Read f off len s) := by
  unfold execBar2Read
  with_reducible repeat' first
    | intro _ _ | assumption | dsimp only | apply KeepsOut.next | apply Keeps.ite | apply bar2Arrive_keeps | split

theorem execBar2Write_keeps {a : State} {f : Fin 16} {off : W64} {data : List Byte} {s : State} (h : Keeps a s) :
    KeepsOut a (execBar2Write f off data s) := by
  unfold execBar2Write
  with_reducible repeat' first
    | intro _ _ | assumption | dsimp only | apply KeepsOut.next | apply Keeps.ite | apply bar2Arrive_keeps | split

theorem takeMr4_keeps {a s : State} {mr4 : W16} (h : Keeps a s) : Keeps a (takeMr4 s mr4) := by
  unfold takeMr4
  with_reducible repeat' first
    | intro _ _ | assumption | dsimp only | apply Keeps.ite | apply accrue_keeps | apply fput_keeps | split

theorem issueRefresh_keeps {a s : State} (h : Keeps a s) : Keeps a (issueRefresh s) := by
  unfold issueRefresh
  with_reducible repeat' first
    | intro _ _ _ | assumption | dsimp only | simp -zeta only [Keeps.mk_iff] | apply fadd_keeps | apply Keeps.foldl
    | split

theorem patrolRead_keeps {a s : State} (h : Keeps a s) : Keeps a (patrolRead s) := by
  unfold patrolRead
  with_reducible repeat' first
    | assumption | dsimp only | simp -zeta only [Keeps.mk_iff] | apply countCorr_keeps | apply countUncorr_keeps
    | apply eccSet_keeps | apply fadd_keeps | split

theorem execRefresh_keeps {a : State} {mr4 : W16} {s : State} (h : Keeps a s) : KeepsOut a (execRefresh mr4 s) := by
  unfold execRefresh
  with_reducible repeat' first
    | intro _ _ | assumption | dsimp only | apply KeepsOut.next | apply Keeps.ite | apply issueRefresh_keeps
    | apply patrolRead_keeps | apply takeMr4_keeps | apply Keeps.iter | split

theorem execRefreshSlot_keeps {a : State} {slot : Nat} {mr4 : W16} {s : State} (h : Keeps a s) : KeepsOut a
    (execRefreshSlot slot mr4 s) := by
  unfold execRefreshSlot
  with_reducible repeat' first
    | intro _ _ | assumption | dsimp only | simp -zeta only [Keeps.mk_iff] | apply KeepsOut.next | apply Keeps.ite
    | apply issueRefresh_keeps | apply patrolRead_keeps | apply takeMr4_keeps | apply Keeps.iter | split

theorem mapTasks_keeps {a s : State} {f : Task → Task} (h : Keeps a s) : Keeps a (mapTasks s f) := by
  unfold mapTasks
  with_reducible repeat' first | assumption | simp -zeta only [Keeps.mk_iff]

theorem execRefreshOverrun_keeps {a : State} {mr4 : W16} {delayed : List Nat} {s : State} (h : Keeps a s) : KeepsOut a
    (execRefreshOverrun mr4 delayed s) := by
  unfold execRefreshOverrun
  with_reducible repeat' first
    | intro _ _ _ | intro _ _ | assumption | dsimp only | simp -zeta only [Keeps.mk_iff] | apply KeepsOut.next
    | apply Keeps.ite | apply fadd_keeps | apply issueRefresh_keeps | apply lifeAdd_keeps | apply mapTasks_keeps
    | apply raise_keeps | apply takeMr4_keeps | split

theorem setCore_keeps {a s : State} {c : Nat} {k : CoreSt} (h : Keeps a s) : Keeps a (setCore s c k) := by
  unfold setCore
  with_reducible repeat' first | assumption | simp -zeta only [Keeps.mk_iff]

theorem localWrite_keeps {a s : State} {t : Task} {x2 : Nat} {bs : List Byte} (h : Keeps a s) : Keeps a
    (localWrite s t x2 bs) := by
  unfold localWrite
  with_reducible repeat' first | intro _ _ | assumption | apply writeRaw_keeps | apply Keeps.foldl

theorem addPort_keeps {a : State} {t : Task} {isOut : Bool} {base : Nat} {x3 : CallAcc} {x : Nat × PortRef × Nat}
    (h : Keeps a x3.s) : Keeps a (addPort t isOut base x3 x).s := by
  unfold addPort
  with_reducible repeat' first | assumption | apply Keeps.ite | apply draw_keeps

theorem addPorts_keeps {a : State} {t : Task} {isOut : Bool} {base : Nat} {l : List (Nat × PortRef × Nat)} {x : CallAcc}
    (h : Keeps a x.s) : Keeps a (l.foldl (addPort t isOut base) x).s := by
  induction l generalizing x with
  | nil => exact h
  | cons r l ih => exact ih (addPort_keeps h)

theorem CallAcc_pad_keeps {a : State} {x0 : CallAcc} {n : Nat} (h : Keeps a x0.s) : Keeps a (CallAcc.pad x0 n).s := by
  unfold CallAcc.pad
  with_reducible repeat' first | assumption

theorem freeBytes_keeps {a s : State} {n : Nat} (h : Keeps a s) : Keeps a (freeBytes s n).1 := by
  unfold freeBytes
  with_reducible repeat' first | assumption | apply draw_keeps

theorem outBuffers_keeps {a s : State} {t : Task} (h : Keeps a s) : Keeps a (outBuffers s t).1 := by
  unfold outBuffers
  with_reducible repeat' first
    | intro _ _ _ | intro _ _ | assumption | dsimp only | apply Keeps.ite | apply freeBytes_keeps | apply Keeps.foldl
    | apply Keeps.foldl1 | split

theorem prologue_keeps {a s : State} {t : Task} {p : PlanSt} {o : OpDesc} (h : Keeps a s) : Keeps a (prologue s t p o)
    := by
  unfold prologue
  with_reducible repeat' first
    | intro _ _ _ | intro _ _ | assumption | dsimp only | simp -zeta only [Keeps.mk_iff] | apply Keeps.ite
    | apply CallAcc_pad_keeps | apply addPort_keeps | apply addPorts_keeps | apply localWrite_keeps
    | apply outBuffers_keeps | apply putTask_keeps | apply setCore_keeps | apply zeroRange_keeps | apply Keeps.foldl
    | apply Keeps.foldl1 | split

theorem countDispatch_keeps {a s : State} {t : Task} (h : Keeps a s) : Keeps a (countDispatch s t) := by
  unfold countDispatch
  with_reducible repeat' first | assumption | apply obsInc_keeps

theorem markStarted_keeps {a s : State} {ch seq : Nat} (h : Keeps a s) : Keeps a (markStarted s ch seq) := by
  unfold markStarted
  with_reducible repeat' first | assumption | apply queueVersion_keeps | apply updLetter_keeps | split

theorem looseTag_keeps {a s : State} {t : Task} (h : Keeps a s) : Keeps a (looseTag s t).1 := by
  unfold looseTag
  with_reducible repeat' first | intro _ _ | assumption | dsimp only | apply Keeps.ite | apply draw_keeps | split

theorem takeArea_keeps {a s : State} {t : Task} {n : Nat} (h : Keeps a s) : Keeps a (takeArea s t n).1 := by
  unfold takeArea
  with_reducible repeat' first
    | intro _ _ _ | intro _ _ | assumption | dsimp only | simp -zeta only [Keeps.mk_iff] | apply Keeps.ite
    | apply draw_keeps | apply writeRaw_keeps | apply Keeps.foldl | apply Keeps.foldl1 | split

theorem takeScratch_keeps {a s : State} {t : Task} (h : Keeps a s) : Keeps a (takeScratch s t).1 := by
  unfold takeScratch
  with_reducible repeat' first
    | intro _ _ | assumption | dsimp only | simp -zeta only [Keeps.mk_iff] | apply Keeps.ite | apply takeArea_keeps
    | split

theorem countMisses_keeps {a s : State} {u : Nat} {f : State → State} (h : Keeps a s) (hk : ∀ s, Keeps a s → Keeps a
    (f s)) : Keeps a (countMisses s u f) := by
  unfold countMisses
  with_reducible repeat' first
    | intro _ _ | apply hk | assumption | dsimp only | apply Keeps.ite | apply fadd_keeps | split

theorem poolReads_keeps {a s : State} {t : Task} {p : List W32} {o : OpDesc} {m : Macro} {reads : List (Nat × List
    Nat)} (h : Keeps a s) : Keeps a (poolReads s t p o m reads) := by
  unfold poolReads
  with_reducible repeat' first
    | intro _ _ _ | intro _ _ | assumption | dsimp only | simp -zeta only [Keeps.mk_iff] | apply Keeps.ite
    | apply cacheRead_keeps | apply Keeps.foldl | apply Keeps.foldl1 | split

theorem walkIn_keeps {a s : State} {t : Task} (h : Keeps a s) : Keeps a (walkIn s t).1 := by
  unfold walkIn
  with_reducible repeat' first
    | intro _ _ _ | intro _ _ | assumption | dsimp only | simp -zeta only [Keeps.mk_iff] | apply Keeps.ite
    | apply countMisses_keeps | apply poolReads_keeps | apply takeArea_keeps | apply Keeps.foldl | apply Keeps.foldl1
    | split

theorem readRange_keeps {a s : State} {t : Task} {x2 n : Nat} (h : Keeps a s) : Keeps a (readRange s t x2 n).1 := by
  unfold readRange
  with_reducible repeat' first | intro _ _ | assumption | dsimp only | apply Keeps.ite | apply devRead_keeps | split

theorem readPort_keeps {a s : State} {t : Task} {port : PortRef} (h : Keeps a s) : Keeps a (readPort s t port).1 := by
  unfold readPort
  with_reducible repeat' first
    | intro _ _ _ | intro _ _ | assumption | dsimp only | simp -zeta only [Keeps.mk_iff] | apply Keeps.ite
    | apply readRange_keeps | split

theorem noteTaken_keeps {a s : State} {fs : List FrameRef} (h : Keeps a s) : Keeps a (noteTaken s fs) := by
  unfold noteTaken
  with_reducible repeat' first | assumption | simp -zeta only [Keeps.mk_iff]

theorem loadTask_keeps {a s : State} {t : Task} (h : Keeps a s) : Keeps a (loadTask s t).1 := by
  unfold loadTask
  with_reducible repeat' first
    | intro _ _ _ | intro _ _ | assumption | dsimp only | simp -zeta only [Keeps.mk_iff] | apply Keeps.ite
    | apply noteStatus_keeps | apply noteTaken_keeps | apply readPort_keeps | apply takeRead_keeps | apply Keeps.foldl
    | apply Keeps.foldl1 | split

theorem startTask_keeps {a s : State} {t : Task} {units : List Nat} {budgetEnd : Nat} (h : Keeps a s) : Keeps a
    (startTask s t units budgetEnd) := by
  unfold startTask
  with_reducible repeat' first
    | intro _ _ _ | intro _ _ | assumption | dsimp only | simp -zeta only [Keeps.mk_iff] | apply Keeps.ite
    | apply countDispatch_keeps | apply loadTask_keeps | apply looseTag_keeps | apply markStarted_keeps
    | apply prologue_keeps | apply putTask_keeps | apply takeScratch_keeps | apply updRun_keeps | apply walkIn_keeps
    | split

theorem setFilter_keeps {a s : State} {i : Nat} {f : FilterSt} (h : Keeps a s) : Keeps a (setFilter s i f) := by
  unfold setFilter
  with_reducible repeat' first | assumption | simp -zeta only [Keeps.mk_iff]

theorem discard_keeps {a s : State} {i : Nat} {count : Fld} {struct_ : Bool} (h : Keeps a s) : Keeps a
    (discard s i count struct_) := by
  unfold discard
  with_reducible repeat' first | assumption | apply fadd_keeps | apply raise_keeps | apply setEvent_keeps

theorem discardStruct_keeps {a s : State} {i : Nat} (h : Keeps a s) : Keeps a (discardStruct s i) := by
  unfold discardStruct
  with_reducible repeat' first | assumption | apply discard_keeps

theorem discardSensor_keeps {a s : State} {i : Nat} (h : Keeps a s) : Keeps a (discardSensor s i) := by
  unfold discardSensor
  with_reducible repeat' first | assumption | apply discard_keeps

theorem startFrame_keeps {a s : State} {i fnum pm : Nat} (h : Keeps a s) : Keeps a (startFrame s i fnum pm) := by
  unfold startFrame
  with_reducible repeat' first
    | intro _ _ _ | intro _ _ | assumption | dsimp only | simp -zeta only [Keeps.mk_iff] | apply Keeps.ite
    | apply discard_keeps | apply discardStruct_keeps | apply setFilter_keeps | split

theorem breakFrame_keeps {a s : State} {i : Nat} (h : Keeps a s) : Keeps a (breakFrame s i) := by
  unfold breakFrame
  with_reducible repeat' first | assumption | apply setFilter_keeps

theorem takeLine_keeps {a : State} {payload : List Byte} {s : State} {i : Nat} (h : Keeps a s) : Keeps a (takeLine
    payload s i) := by
  unfold takeLine
  with_reducible repeat' first
    | intro _ _ _ | intro _ _ | assumption | dsimp only | simp -zeta only [Keeps.mk_iff] | apply Keeps.ite
    | apply devWrite_keeps | apply setFilter_keeps | apply Keeps.foldl | apply Keeps.foldl1 | split

theorem takeTag_keeps {a : State} {payload : List Byte} {s : State} {i : Nat} (h : Keeps a s) : Keeps a
    (takeTag payload s i) := by
  unfold takeTag
  with_reducible repeat' first | assumption | apply setFilter_keeps

theorem passFrame_keeps {a s : State} {i : Nat} {c : FrameSt} (h : Keeps a s) : Keeps a (passFrame s i c) := by
  unfold passFrame
  with_reducible repeat' first
    | assumption | apply Keeps.ite | apply devWrite_keeps | apply discardStruct_keeps | apply setFilter_keeps

theorem checkFrame_keeps {a s : State} {i : Nat} {c : FrameSt} (h : Keeps a s) : Keeps a (checkFrame s i c) := by
  unfold checkFrame
  with_reducible repeat' first
    | assumption | apply Keeps.ite | apply discard_keeps | apply discardSensor_keeps | apply fadd_keeps
    | apply passFrame_keeps | apply setFilter_keeps

theorem endFrame_keeps {a s : State} {i fnum : Nat} (h : Keeps a s) : Keeps a (endFrame s i fnum) := by
  unfold endFrame
  with_reducible repeat' first
    | intro _ _ | assumption | dsimp only | simp -zeta only [Keeps.mk_iff] | apply Keeps.ite | apply checkFrame_keeps
    | apply discardSensor_keeps | apply discardStruct_keeps | apply passFrame_keeps | apply setFilter_keeps | split

theorem setFifo_keeps {a s : State} {port : Nat} {l : List FifoItem} (h : Keeps a s) : Keeps a (setFifo s port l) :=
    by
  unfold setFifo
  with_reducible repeat' first
    | intro _ _ | assumption | dsimp only | simp -zeta only [Keeps.mk_iff] | apply Keeps.ite | split

theorem takeItem_keeps {a s : State} {x1 : FifoItem} (h : Keeps a s) : Keeps a (takeItem s x1) := by
  unfold takeItem
  with_reducible repeat' first
    | intro _ _ | assumption | dsimp only | apply Keeps.ite | apply breakFrame_keeps | apply endFrame_keeps
    | apply startFrame_keeps | apply takeLine_keeps | apply takeTag_keeps | split

theorem drainFifo_keeps {a s : State} {port n : Nat} (h : Keeps a s) : Keeps a (drainFifo port n s) := by
  induction n generalizing s with
  | zero => exact h
  | succ n ih =>
    unfold drainFifo
    repeat' with_reducible first | assumption | apply ih | apply takeItem_keeps | apply setFifo_keeps | split

theorem drainPort_keeps {a s : State} {port : Nat} (h : Keeps a s) : Keeps a (drainPort s port) := by
  unfold drainPort
  with_reducible repeat' first | intro _ _ | assumption | dsimp only | apply Keeps.ite | apply drainFifo_keeps | split

theorem drainPorts_keeps {a s : State} (h : Keeps a s) : Keeps a (drainPorts s) := by
  unfold drainPorts
  with_reducible repeat' first
    | intro _ _ _ | intro _ _ | assumption | dsimp only | apply Keeps.ite | apply drainPort_keeps | apply Keeps.foldl
    | apply Keeps.foldl1 | split

theorem notePeak_keeps {a s : State} {port : Nat} (h : Keeps a s) : Keeps a (notePeak s port) := by
  unfold notePeak
  with_reducible repeat' first | intro _ _ | assumption | dsimp only | apply Keeps.ite | apply fput_keeps | split

theorem overflow_keeps {a s : State} {port i : Nat} (h : Keeps a s) : Keeps a (overflow s port i) := by
  unfold overflow
  with_reducible repeat' first
    | intro _ _ _ | intro _ _ | assumption | dsimp only | simp -zeta only [Keeps.mk_iff] | apply Keeps.ite
    | apply discard_keeps | apply setFifo_keeps | apply setFilter_keeps | split

theorem pushItem_keeps {a : State} {port : Nat} {s : State} {x : FifoItem} (h : Keeps a s) : Keeps a (pushItem port s
    x) := by
  unfold pushItem
  with_reducible repeat' first
    | intro _ _ | assumption | dsimp only | apply Keeps.ite | apply drainPort_keeps | apply notePeak_keeps
    | apply overflow_keeps | apply setFifo_keeps | split

theorem countUnknown_keeps {a s : State} {port : Nat} (h : Keeps a s) : Keeps a (countUnknown s port) := by
  unfold countUnknown
  with_reducible repeat' first | assumption | apply fadd_keeps

theorem takePhy_keeps {a s : State} {port : Nat} {x : PhyIn} (h : Keeps a s) : Keeps a (takePhy s port x) := by
  unfold takePhy
  with_reducible repeat' first
    | intro _ _ | assumption | dsimp only | simp -zeta only [Keeps.mk_iff] | apply Keeps.ite | apply fput_keeps
    | split

theorem takeHeader_keeps {a s : State} {port : Nat} {x : PhyIn} {k : State → State} (h : Keeps a s) (hk : ∀ s, Keeps a
    s → Keeps a (k s)) : KeepsOut a (takeHeader s port x k) := by
  unfold takeHeader
  with_reducible repeat' first
    | intro _ _ _ | intro _ _ | apply hk | assumption | dsimp only | simp -zeta only [Keeps.mk_iff]
    | apply KeepsOut.next | apply Keeps.ite | apply fadd_keeps | apply pushItem_keeps | apply takePhy_keeps
    | apply Keeps.foldl | apply Keeps.foldl1 | split

theorem arriveStart_keeps {a : State} {port fnum : Nat} {s : State} {i : Nat} (h : Keeps a s) : Keeps a (arriveStart
    port fnum s i) := by
  unfold arriveStart
  with_reducible repeat' first
    | intro _ _ | assumption | dsimp only | simp -zeta only [Keeps.mk_iff] | apply Keeps.ite | apply fadd_keeps
    | apply pushItem_keeps | apply setFilter_keeps | split

theorem frameStart_keeps {a s : State} {port vc fnum : Nat} (h : Keeps a s) : Keeps a (frameStart s port vc fnum) :=
    by
  unfold frameStart
  with_reducible repeat' first
    | intro _ _ _ | intro _ _ | assumption | dsimp only | apply Keeps.ite | apply arriveStart_keeps
    | apply countUnknown_keeps | apply Keeps.foldl | apply Keeps.foldl1 | split

theorem execFrameStart_keeps {a : State} {port : Fin 8} {phy : PhyIn} {vc : Fin 16} {fnum : W16} {s : State} (h :
    Keeps a s) : KeepsOut a (execFrameStart port phy vc fnum s) := by
  unfold execFrameStart
  with_reducible repeat' first
    | intro _ _ _ | intro _ _ | assumption | dsimp only | apply KeepsOut.next | apply Keeps.ite
    | apply frameStart_keeps | apply takeHeader_keeps | split

theorem longPacket_keeps {a s : State} {port : Nat} {pk : LongPacket} (h : Keeps a s) : Keeps a (longPacket s port pk)
    := by
  unfold longPacket
  with_reducible repeat' first
    | intro _ _ _ | intro _ _ | assumption | dsimp only | apply Keeps.ite | apply countUnknown_keeps
    | apply fadd_keeps | apply pushItem_keeps | apply Keeps.foldl | apply Keeps.foldl1 | split

theorem execLongPacket_keeps {a : State} {port : Fin 8} {phy : PhyIn} {pk : LongPacket} {s : State} (h : Keeps a s) :
    KeepsOut a (execLongPacket port phy pk s) := by
  unfold execLongPacket
  with_reducible repeat' first
    | intro _ _ _ | intro _ _ | assumption | dsimp only | apply KeepsOut.next | apply Keeps.ite
    | apply longPacket_keeps | apply takeHeader_keeps | split

theorem execUnknownPacket_keeps {a : State} {port : Fin 8} {phy : PhyIn} {vc : Fin 16} {dt : BitVec 6} {s : State} (h
    : Keeps a s) : KeepsOut a (execUnknownPacket port phy vc dt s) := by
  unfold execUnknownPacket
  with_reducible repeat' first
    | intro _ _ _ | intro _ _ | assumption | dsimp only | apply KeepsOut.next | apply Keeps.ite
    | apply countUnknown_keeps | apply takeHeader_keeps | split

theorem arriveEnd_keeps {a : State} {port fnum : Nat} {s : State} {i : Nat} (h : Keeps a s) : Keeps a (arriveEnd port
    fnum s i) := by
  unfold arriveEnd
  with_reducible repeat' first
    | intro _ _ | assumption | dsimp only | simp -zeta only [Keeps.mk_iff] | apply Keeps.ite
    | apply discardStruct_keeps | apply pushItem_keeps | apply setFilter_keeps | split

theorem frameEnd_keeps {a s : State} {port vc fnum : Nat} (h : Keeps a s) : Keeps a (frameEnd s port vc fnum) := by
  unfold frameEnd
  with_reducible repeat' first
    | intro _ _ _ | intro _ _ | assumption | dsimp only | apply Keeps.ite | apply arriveEnd_keeps
    | apply countUnknown_keeps | apply Keeps.foldl | apply Keeps.foldl1 | split

theorem execFrameEnd_keeps {a : State} {port : Fin 8} {phy : PhyIn} {vc : Fin 16} {fnum : W16} {s : State} (h : Keeps
    a s) : KeepsOut a (execFrameEnd port phy vc fnum s) := by
  unfold execFrameEnd
  with_reducible repeat' first
    | intro _ _ _ | intro _ _ | assumption | dsimp only | apply KeepsOut.next | apply Keeps.ite | apply frameEnd_keeps
    | apply takeHeader_keeps | split

theorem publishFrame_keeps {a s : State} {i : Nat} {c : FrameSt} (h : Keeps a s) : Keeps a (publishFrame s i c) := by
  unfold publishFrame
  with_reducible repeat' first
    | intro _ _ _ | intro _ _ | assumption | dsimp only | simp -zeta only [Keeps.mk_iff] | apply Keeps.ite
    | apply fadd_keeps | apply noteWatch_keeps | apply putItem_keeps | apply setFilter_keeps | apply Keeps.foldl
    | apply Keeps.foldl1 | split

theorem execFramePublish_keeps {a : State} {port : Fin 8} {f : Fin 4} {slot : Nat} {s : State} (h : Keeps a s) :
    KeepsOut a (execFramePublish port f slot s) := by
  unfold execFramePublish
  with_reducible repeat' first
    | intro _ _ | assumption | dsimp only | simp -zeta only [Keeps.mk_iff] | apply KeepsOut.next | apply Keeps.ite
    | apply devWrite_keeps | apply discardStruct_keeps | apply drainPort_keeps | apply publishFrame_keeps
    | apply setFilter_keeps | split

theorem dropFrame_keeps {a s : State} {i : Nat} (h : Keeps a s) : Keeps a (dropFrame s i) := by
  unfold dropFrame
  with_reducible repeat' first
    | intro _ _ _ | intro _ _ | assumption | dsimp only | simp -zeta only [Keeps.mk_iff] | apply Keeps.ite
    | apply setFifo_keeps | apply setFilter_keeps | split

theorem execFEnableWrite_keeps {a : State} {q : Requester} {port : Fin 8} {f : Fin 4} {v : W32} {be : BitVec 4} {s :
    State} (h : Keeps a s) : KeepsOut a (execFEnableWrite q port f v be s) := by
  unfold execFEnableWrite
  with_reducible repeat' first
    | intro _ _ | assumption | dsimp only | simp -zeta only [Keeps.mk_iff] | apply KeepsOut.next | apply Keeps.ite
    | apply dropFrame_keeps | apply regWrite_keeps | apply setFilter_keeps | split

theorem dropFilters_keeps {a s : State} {pid newRegions : Nat} (h : Keeps a s) : Keeps a (dropFilters s pid
    newRegions) := by
  unfold dropFilters
  with_reducible repeat' first
    | intro _ _ _ | intro _ _ | assumption | dsimp only | simp -zeta only [Keeps.mk_iff] | apply Keeps.ite
    | apply badValue_keeps | apply dropFrame_keeps | apply fput_keeps | apply Keeps.foldl | apply Keeps.foldl1 | split

theorem execFaultReport_keeps {a : State} {extra : List FaultIn} {s : State} (h : Keeps a s) : KeepsOut a
    (execFaultReport extra s) := by
  unfold execFaultReport
  with_reducible repeat' first
    | assumption | simp -zeta only [Keeps.mk_iff] | apply KeepsOut.next | apply recordAll_keeps | split

theorem execPwrKill_keeps {a s : State} (h : Keeps a s) : KeepsOut a (execPwrKill s) := by
  unfold execPwrKill
  with_reducible repeat' first | assumption | simp -zeta only [Keeps.mk_iff] | apply KeepsOut.next | split

theorem execSafeInNLow_keeps {a s : State} (h : Keeps a s) : KeepsOut a (execSafeInNLow s) := by
  unfold execSafeInNLow
  with_reducible repeat' first
    | assumption | simp -zeta only [Keeps.mk_iff] | apply KeepsOut.next | apply raise_keeps | split

theorem execSafeInNHigh_keeps {a s : State} (h : Keeps a s) : KeepsOut a (execSafeInNHigh s) := by
  unfold execSafeInNHigh
  with_reducible repeat' first | assumption | simp -zeta only [Keeps.mk_iff] | apply KeepsOut.next

theorem execSafeHbToggle_keeps {a : State} {requested : Bool} {s : State} (h : Keeps a s) : KeepsOut a
    (execSafeHbToggle requested s) := by
  unfold execSafeHbToggle
  with_reducible repeat' first | assumption | simp -zeta only [Keeps.mk_iff] | apply KeepsOut.next | split

theorem leaveSafe_keeps {a s : State} (h : Keeps a s) : Keeps a (leaveSafe s).1 := by
  unfold leaveSafe
  with_reducible repeat' first
    | assumption | simp -zeta only [Keeps.mk_iff] | apply canDue_keeps | apply fputs_keeps | split

theorem execStreamGap_keeps {a : State} {w : Fin 16} {s : State} (h : Keeps a s) : KeepsOut a (execStreamGap w s) := by
  unfold execStreamGap
  with_reducible repeat' first
    | assumption | simp -zeta only [Keeps.mk_iff] | apply KeepsOut.next | apply KeepsOut.ite | apply fadd_keeps
    | apply fput_keeps | apply raise_keeps | apply setEvent_keeps

theorem kick_keeps {a s : State} {v : Nat} (h : Keeps a s) : Keeps a (kick s v) := by
  unfold kick
  with_reducible repeat' first
    | assumption | simp -zeta only [Keeps.mk_iff] | apply Keeps.ite | apply openWindow_keeps | apply raise_keeps

theorem execWdgKick_keeps {a : State} {q : Requester} {v : W32} {be : BitVec 4} {s : State} (h : Keeps a s) : KeepsOut a
    (execWdgKick q v be s) := by
  unfold execWdgKick
  with_reducible repeat' first | assumption | apply KeepsOut.next | apply kick_keeps | apply regWrite_keeps | split

theorem execWatchdogExpiry_keeps {a s : State} (h : Keeps a s) : KeepsOut a (execWatchdogExpiry s) := by
  unfold execWatchdogExpiry
  with_reducible repeat' first
    | assumption | simp -zeta only [Keeps.mk_iff] | apply KeepsOut.next | apply raise_keeps | split

theorem execConfigSignatureWalk_keeps {a s : State} (h : Keeps a s) : KeepsOut a (execConfigSignatureWalk s) := by
  unfold execConfigSignatureWalk
  with_reducible repeat' first
    | intro _ _ | assumption | simp -zeta only [Keeps.mk_iff] | apply KeepsOut.next | apply raise_keeps
    | apply Keeps.foldl | split

theorem scheduleInjection_keeps {a s : State} {bus : Bool} (h : Keeps a s) : Keeps a (scheduleInjection s bus) := by
  unfold scheduleInjection
  with_reducible repeat' first
    | intro _ _ | assumption | dsimp only | simp -zeta only [Keeps.mk_iff] | apply Keeps.ite | split

theorem execCheckerInjection_keeps {a : State} {bus detected : Bool} {s : State} (h : Keeps a s) : KeepsOut a
    (execCheckerInjection bus detected s) := by
  unfold execCheckerInjection
  with_reducible repeat' first
    | intro _ _ | assumption | dsimp only | apply KeepsOut.next | apply Keeps.ite | apply raise_keeps
    | apply scheduleInjection_keeps | split

theorem setLocks_keeps {a s : State} {v : Nat} (h : Keeps a s) : Keeps a (setLocks s v) := by
  unfold setLocks
  with_reducible repeat' first | intro _ _ | assumption | apply fput_keeps | apply Keeps.foldl

theorem injectFault_keeps {a s : State} {cls source : Nat} (h : Keeps a s) : Keeps a (injectFault s cls source) := by
  unfold injectFault
  with_reducible repeat' first | assumption | apply recordAll_keeps

theorem clearSuspect_keeps {a s : State} {k u : Nat} (h : Keeps a s) : Keeps a (clearSuspect s k u) := by
  unfold clearSuspect
  with_reducible repeat' first | assumption | simp -zeta only [Keeps.mk_iff]

theorem changeRole_keeps {a s : State} {k u role logical : Nat} (h : Keeps a s) : Keeps a (changeRole s k u role
    logical) := by
  unfold changeRole
  with_reducible repeat' first
    | intro _ _ | assumption | dsimp only | apply Keeps.ite | apply setRole_keeps | apply writeSpareMap_keeps | split

theorem beginTest_keeps {a s : State} {k u : Nat} {spare : Option Nat} {returning : Bool} (h : Keeps a s) : Keeps a
    (beginTest s k u spare returning) := by
  unfold beginTest
  with_reducible repeat' first
    | intro _ _ | assumption | dsimp only | simp -zeta only [Keeps.mk_iff] | apply Keeps.ite | apply changeRole_keeps
    | split

theorem beginCopy_keeps {a s : State} {b dst reason : Nat} (h : Keeps a s) : Keeps a (beginCopy s b dst reason) := by
  unfold beginCopy
  with_reducible repeat' first | assumption | dsimp only | simp -zeta only [Keeps.mk_iff] | apply fput_keeps

theorem startTest_keeps {a s : State} {k u : Nat} (h : Keeps a s) : Keeps a (startTest s k u) := by
  unfold startTest
  with_reducible repeat' first
    | intro _ _ _ | intro _ _ | assumption | dsimp only | simp -zeta only [Keeps.mk_iff] | apply Keeps.ite
    | apply askTakeover_keeps | apply beginCopy_keeps | apply beginTest_keeps | apply deferTest_keeps | split

theorem rotateUnit_keeps {a s : State} {k u : Nat} (h : Keeps a s) : Keeps a (rotateUnit s k u).1 := by
  unfold rotateUnit
  with_reducible repeat' first
    | assumption | dsimp only | simp -zeta only [Keeps.mk_iff] | apply startTest_keeps | split

theorem windowLoad_keeps {a s : State} {c : Nat} {t : Task} {x n : Nat} (h : Keeps a s) : KeepsAcc a (windowLoad s c t x n) := by
  unfold windowLoad
  generalize x - windowBase = y
  split
  · exact KeepsAcc.ite (KeepsAcc.trap h) (KeepsAcc.ok h)
  · exact KeepsAcc.ite KeepsAcc.wait (KeepsAcc.ite (KeepsAcc.ok (pidRead_keeps h)) (KeepsAcc.trap (pidRead_keeps h)))

theorem coreLoad_keeps {a s : State} {c : Nat} {t : Task} {x3 n : Nat} (h : Keeps a s) : KeepsAcc a (coreLoad s c t x3
    n) := by
  unfold coreLoad
  with_reducible repeat' first
    | intro _ _ | assumption | dsimp only | apply KeepsAcc.ok | apply KeepsAcc.trap | exact KeepsAcc.wait
    | apply KeepsAcc.ite | apply Keeps.ite | apply readRaw_keeps | apply windowLoad_keeps
    | exact KeepsAcc.of_ok (by assumption) (windowLoad_keeps (by assumption))
    | exact KeepsAcc.of_trap (by assumption) (windowLoad_keeps (by assumption)) | split

theorem windowStore_keeps {a s : State} {c : Nat} {t : Task} {x : Nat} {bs : List Byte} (h : Keeps a s) :
    KeepsAcc a (windowStore s c t x bs) := by
  unfold windowStore
  generalize x - windowBase = y
  split
  · exact KeepsAcc.ite (KeepsAcc.trap h)
      (KeepsAcc.ok (putTask_keeps (Keeps.foldl h fun _ _ k => setCore_keeps k)))
  · exact KeepsAcc.ite KeepsAcc.wait (KeepsAcc.ite (KeepsAcc.ok (pidWrite_keeps h)) (KeepsAcc.trap (pidWrite_keeps h)))

theorem coreStore_keeps {a s : State} {c : Nat} {t : Task} {x3 : Nat} {bs : List Byte} (h : Keeps a s) : KeepsAcc a
    (coreStore s c t x3 bs) := by
  unfold coreStore
  with_reducible repeat' first
    | intro _ _ | assumption | dsimp only | apply KeepsAcc.ok | apply KeepsAcc.trap | exact KeepsAcc.wait
    | apply KeepsAcc.ite | apply Keeps.ite | apply localWrite_keeps | apply windowStore_keeps
    | exact KeepsAcc.of_ok (by assumption) (windowStore_keeps (by assumption))
    | exact KeepsAcc.of_trap (by assumption) (windowStore_keeps (by assumption)) | split

theorem codeBytes_keeps {a s : State} {c : Nat} {t : Task} {pc n : Nat} (h : Keeps a s) : Keeps a (codeBytes s c t pc
    n).1 := by
  unfold codeBytes
  with_reducible repeat' first | intro _ _ | assumption | dsimp only | apply Keeps.ite | apply readRaw_keeps | split

theorem retire_keeps {a s : State} {t : Task} {k : CoreSt} {pc : Nat} (h : Keeps a s) : Keeps a (retire s t k pc) :=
    by
  unfold retire
  with_reducible repeat' first
    | intro _ _ _ | intro _ _ | assumption | dsimp only | simp -zeta only [Keeps.mk_iff] | apply Keeps.ite
    | apply setCore_keeps | apply Keeps.foldl | apply Keeps.foldl1 | split

theorem csrRead_keeps {a s : State} {c : Nat} {t : Task} {k : CoreSt} {x4 : Nat} (h : Keeps a s) : Keeps a (csrRead s
    c t k x4).1 := by
  unfold csrRead
  with_reducible repeat' first
    | intro _ _ | assumption | dsimp only | simp -zeta only [Keeps.mk_iff] | apply Keeps.ite | apply draw_keeps
    | split

theorem csrOp_keeps {a s : State} {c : Nat} {t : Task} {k : CoreSt} {w : Nat} (h : Keeps a s) : KeepsSome a (csrOp s c
    t k w) := by
  unfold csrOp
  with_reducible repeat' first
    | intro _ _ | assumption | dsimp only | simp -zeta only [Keeps.mk_iff] | apply KeepsSome.some
    | exact KeepsSome.none | apply KeepsSome.ite | apply Keeps.ite | apply csrRead_keeps | split

theorem mret_keeps {a s : State} {t : Task} {k : CoreSt} (h : Keeps a s) : Keeps a (mret s t k) := by
  unfold mret
  with_reducible repeat' first
    | intro _ _ | assumption | dsimp only | simp -zeta only [Keeps.mk_iff] | apply Keeps.ite | apply retire_keeps
    | split

theorem takeMei_keeps {a s : State} (h : Keeps a s) : Keeps a (takeMei s) := by
  unfold takeMei
  with_reducible repeat' first
    | intro _ _ _ | intro _ _ | assumption | dsimp only | apply Keeps.ite | apply setCore_keeps | apply Keeps.foldl
    | apply Keeps.foldl1 | split

theorem coreAmo_keeps {a s : State} {c : Nat} {t : Task} {k : CoreSt} {w next : Nat} (h : Keeps a s) : KeepsRun a
    (coreAmo s c t k w next) := by
  unfold coreAmo
  with_reducible repeat' first
    | intro _ _ _ | intro _ _ | assumption | dsimp only | simp -zeta only [Keeps.mk_iff] | apply KeepsRun.go
    | apply KeepsRun.exc | apply KeepsRun.vendor | apply KeepsRun.ecall | exact KeepsRun.wait | apply KeepsRun.ite
    | apply Keeps.ite | apply KeepsAcc.andThen | apply coreLoad_keeps | apply coreStore_keeps | apply retire_keeps
    | exact KeepsAcc.of_ok (by assumption) (coreLoad_keeps (by assumption))
    | exact KeepsAcc.of_trap (by assumption) (coreLoad_keeps (by assumption))
    | exact KeepsAcc.of_ok (by assumption) (coreStore_keeps (by assumption))
    | exact KeepsAcc.of_trap (by assumption) (coreStore_keeps (by assumption)) | split

theorem coreLoadOp_keeps {a s : State} {c : Nat} {t : Task} {k : CoreSt} {w next : Nat} (h : Keeps a s) : KeepsRun a
    (coreLoadOp s c t k w next) := by
  unfold coreLoadOp
  with_reducible repeat' first
    | intro _ _ _ | intro _ _ | assumption | dsimp only | apply KeepsRun.go | apply KeepsRun.exc
    | apply KeepsRun.vendor | apply KeepsRun.ecall | exact KeepsRun.wait | apply KeepsRun.ite | apply Keeps.ite
    | apply KeepsAcc.andThen | apply coreLoad_keeps | apply retire_keeps
    | exact KeepsAcc.of_ok (by assumption) (coreLoad_keeps (by assumption))
    | exact KeepsAcc.of_trap (by assumption) (coreLoad_keeps (by assumption)) | split

theorem coreStoreOp_keeps {a s : State} {c : Nat} {t : Task} {k : CoreSt} {w next : Nat} (h : Keeps a s) : KeepsRun a
    (coreStoreOp s c t k w next) := by
  unfold coreStoreOp
  with_reducible repeat' first
    | intro _ _ _ | intro _ _ | assumption | dsimp only | simp -zeta only [Keeps.mk_iff] | apply KeepsRun.go
    | apply KeepsRun.exc | apply KeepsRun.vendor | apply KeepsRun.ecall | exact KeepsRun.wait | apply KeepsRun.ite
    | apply Keeps.ite | apply KeepsAcc.andThen | apply coreStore_keeps | apply retire_keeps
    | exact KeepsAcc.of_ok (by assumption) (coreStore_keeps (by assumption))
    | exact KeepsAcc.of_trap (by assumption) (coreStore_keeps (by assumption)) | split

theorem coreFp_keeps {a s : State} {t : Task} {k : CoreSt} {w next : Nat} (h : Keeps a s) : KeepsRun a
    (coreFp s t k w next) := by
  unfold coreFp
  with_reducible repeat' first
    | assumption | dsimp only | apply KeepsRun.go | apply KeepsRun.exc | apply retire_keeps | split

theorem coreSystem_keeps {a s : State} {c : Nat} {t : Task} {k : CoreSt} {w next : Nat} (h : Keeps a s) : KeepsRun a
    (coreSystem s c t k w next) := by
  unfold coreSystem
  with_reducible repeat' first
    | intro _ _ | assumption | dsimp only | simp -zeta only [Keeps.mk_iff] | apply KeepsRun.go | apply KeepsRun.exc
    | apply KeepsRun.vendor | apply KeepsRun.ecall | exact KeepsRun.wait | apply KeepsRun.ite | apply Keeps.ite
    | apply csrOp_keeps | apply mret_keeps | apply retire_keeps
    | exact KeepsSome.of_some (by assumption) (csrOp_keeps (by assumption)) | split

theorem coreVendor_keeps {a s : State} {t : Task} {k : CoreSt} {w : Nat} (h : Keeps a s) : KeepsRun a (coreVendor s t
    k w) := by
  unfold coreVendor
  with_reducible repeat' first
    | intro _ _ | assumption | dsimp only | apply KeepsRun.go | apply KeepsRun.exc | apply KeepsRun.vendor
    | apply KeepsRun.ecall | exact KeepsRun.wait | apply KeepsRun.ite | apply Keeps.ite | split

/-- The state of a fetch keeps them. -/
theorem fetchAt_keeps {a s : State} {c : Nat} {t : Task} {pc : Nat} (h : Keeps a s) : KeepsFetch a (fetchAt s c t pc) := by
  unfold fetchAt
  repeat' with_reducible first
    | assumption | dsimp only | apply KeepsFetch.ok | apply KeepsFetch.undefined | apply KeepsFetch.fault
    | apply KeepsFetch.ite | apply codeBytes_keeps | split

theorem rvStep_keeps {a s : State} {c : Nat} {t : Task} (h : Keeps a s) : KeepsRun a (rvStep s c t) := by
  unfold rvStep
  with_reducible repeat' first
    | assumption | dsimp only | apply KeepsRun.go | apply KeepsRun.exc | apply coreAmo_keeps | apply coreFp_keeps
    | apply coreLoadOp_keeps | apply coreStoreOp_keeps | apply coreSystem_keeps | apply coreVendor_keeps
    | apply retire_keeps | exact KeepsFetch.of_ok (by assumption) (fetchAt_keeps (by assumption))
    | exact KeepsFetch.of_undefined (by assumption) (fetchAt_keeps (by assumption))
    | exact KeepsFetch.of_fault (by assumption) (fetchAt_keeps (by assumption)) | split

theorem runCore_keeps {a s : State} {n c id : Nat} (h : Keeps a s) : Keeps a (runCore n s c id) := by
  induction n generalizing s with
  | zero => exact h
  | succ n ih =>
    unfold runCore
    split
    · exact h
    · split
      · rename_i e
        exact ih (KeepsRun.of_go e (rvStep_keeps h))
      · exact h

theorem reshapeRule_keeps {a s : State} {ws : List W32} {o : OpDesc} {t : Task} (h : Keeps a s) : Keeps a
    (reshapeRule s ws o t).1 := by
  unfold reshapeRule
  with_reducible repeat' first | assumption

theorem formOuts_keeps {a : State} {code : Nat} {rule : OpRule} {task : Nat} {s : State}
    (hk : ∀ s p o t, Keeps a s → Keeps a (rule s p o t).1) (hs : Keeps a s) : KeepsOut a (formOuts code rule task s) :=
    by
  unfold formOuts
  with_reducible repeat' first | assumption | apply hk | apply KeepsOut.next | apply putTask_keeps | split

theorem execReshape_keeps {a : State} {task : Nat} {s : State} (h : Keeps a s) : KeepsOut a (execReshape task s) := by
  unfold execReshape
  with_reducible repeat' first | assumption | apply formOuts_keeps | apply reshapeRule_keeps

theorem sliceRule_keeps {a s : State} {ws : List W32} {o : OpDesc} {t : Task} (h : Keeps a s) : Keeps a
    (sliceRule s ws o t).1 := by
  unfold sliceRule
  with_reducible repeat' first | assumption

theorem execSlice_keeps {a : State} {task : Nat} {s : State} (h : Keeps a s) : KeepsOut a (execSlice task s) := by
  unfold execSlice
  with_reducible repeat' first | assumption | apply formOuts_keeps | apply sliceRule_keeps

theorem concatRule_keeps {a s : State} {ws : List W32} {o : OpDesc} {t : Task} (h : Keeps a s) : Keeps a
    (concatRule s ws o t).1 := by
  unfold concatRule
  with_reducible repeat' first | assumption

theorem execConcat_keeps {a : State} {task : Nat} {s : State} (h : Keeps a s) : KeepsOut a (execConcat task s) := by
  unfold execConcat
  with_reducible repeat' first | assumption | apply concatRule_keeps | apply formOuts_keeps

theorem padRule_keeps {a s : State} {w : List W32} {o : OpDesc} {t : Task} (h : Keeps a s) : Keeps a (padRule s w o
    t).1 := by
  unfold padRule
  with_reducible repeat' first | intro _ _ _ | intro _ _ | assumption | dsimp only | apply Keeps.ite | split

theorem execPad_keeps {a : State} {task : Nat} {s : State} (h : Keeps a s) : KeepsOut a (execPad task s) := by
  unfold execPad
  with_reducible repeat' first | assumption | apply formOuts_keeps | apply padRule_keeps

theorem execGather_keeps {a : State} {task : Nat} {s : State} (h : Keeps a s) : KeepsOut a (execGather task s) := by
  unfold execGather
  with_reducible repeat' first | assumption | apply KeepsOut.next | apply putTask_keeps | split

theorem publishCutEpoch_keeps {a s : State} {t : Task} (h : Keeps a s) : Keeps a (publishCutEpoch s t) := by
  unfold publishCutEpoch
  with_reducible repeat' first
    | intro _ _ _ | intro _ _ | assumption | dsimp only | simp -zeta only [Keeps.mk_iff] | apply Keeps.ite
    | apply countTags_keeps | apply fput_keeps | apply freeBytes_keeps | apply originOf_keeps | apply putStream_keeps
    | apply updLetter_keeps | split

theorem publishCut_keeps {a s : State} {t : Task} (h : Keeps a s) : Keeps a (publishCut s t) := by
  unfold publishCut
  with_reducible repeat' first
    | intro _ _ _ | intro _ _ | assumption | dsimp only | simp -zeta only [Keeps.mk_iff] | apply Keeps.ite
    | apply freeBytes_keeps | apply noteSummary_keeps | apply publishCutEpoch_keeps | apply publishOut_keeps
    | apply Keeps.foldl | apply Keeps.foldl1 | split

theorem instrFault_keeps {a s : State} {t : Task} (h : Keeps a s) : Keeps a (instrFault s t) := by
  unfold instrFault
  with_reducible repeat' first
    | assumption | apply noteStatus_keeps | apply raise_keeps | apply setEvent_keeps | apply updRun_keeps | split

theorem countTrap_keeps {a s : State} {t : Task} (h : Keeps a s) : Keeps a (countTrap s t) := by
  unfold countTrap
  with_reducible repeat' first
    | intro _ _ | assumption | dsimp only | apply Keeps.ite | apply fadd_keeps | apply setEvent_keeps | split

theorem abortTask_keeps {a s : State} {t : Task} (h : Keeps a s) : Keeps a (abortTask s t) := by
  unfold abortTask
  with_reducible repeat' first
    | intro _ _ | assumption | dsimp only | apply Keeps.ite | apply completeTask_keeps | apply countTrap_keeps
    | apply instrFault_keeps | apply publishCut_keeps | split

theorem execUnpackFrame_keeps {a : State} {task : Nat} {s : State} (h : Keeps a s) : KeepsOut a (execUnpackFrame task s)
    := by
  unfold execUnpackFrame
  with_reducible repeat' first
    | assumption | apply KeepsOut.next | apply KeepsOut.ite | apply abortTask_keeps | apply putTask_keeps | split

theorem execJoinerCall_keeps {a : State} {task : Nat} {s : State} (h : Keeps a s) : KeepsOut a (execJoinerCall task s)
    := by
  unfold execJoinerCall
  with_reducible repeat' first
    | intro _ _ | assumption | dsimp only | simp -zeta only [Keeps.mk_iff] | apply KeepsOut.next | apply Keeps.ite
    | apply runCore_keeps | split

theorem execEcall_keeps {a : State} {core : Fin 34} {s : State} (h : Keeps a s) : KeepsOut a (execEcall core s) := by
  unfold execEcall
  with_reducible repeat' first
    | intro _ _ | assumption | dsimp only | simp -zeta only [Keeps.mk_iff] | apply KeepsOut.next | apply Keeps.ite
    | apply completeTask_keeps | apply publishAll_keeps | apply rvStep_keeps
    | exact KeepsRun.of_go (by assumption) (rvStep_keeps (by assumption))
    | exact KeepsRun.of_exc (by assumption) (rvStep_keeps (by assumption))
    | exact KeepsRun.of_vendor (by assumption) (rvStep_keeps (by assumption))
    | exact KeepsRun.of_ecall (by assumption) (rvStep_keeps (by assumption)) | split

theorem endInvalid_keeps {a s : State} {t : Task} (h : Keeps a s) : Keeps a (endInvalid s t) := by
  unfold endInvalid
  with_reducible repeat' first
    | assumption | apply completeTask_keeps | apply publishAll_keeps | apply publishCut_keeps | split

theorem lockMismatch_keeps {a s : State} {t : Task} {c : Nat} (h : Keeps a s) : Keeps a (lockMismatch s t c) := by
  unfold lockMismatch
  with_reducible repeat' first
    | assumption | apply fadd_keeps | apply noteStatus_keeps | apply raise_keeps | apply setEvent_keeps

theorem execJoinerTrap_keeps {a : State} {core : Fin 34} {cause : JoinerCause} {s : State} (h : Keeps a s) : KeepsOut
    a (execJoinerTrap core cause s) := by
  unfold execJoinerTrap
  with_reducible repeat' first
    | intro _ _ | assumption | dsimp only | simp -zeta only [Keeps.mk_iff] | apply KeepsOut.next | apply Keeps.ite
    | apply countTrap_keeps | apply endInvalid_keeps | apply instrFault_keeps | apply lockMismatch_keeps
    | apply noteStatus_keeps | apply rvStep_keeps
    | exact KeepsRun.of_go (by assumption) (rvStep_keeps (by assumption))
    | exact KeepsRun.of_exc (by assumption) (rvStep_keeps (by assumption))
    | exact KeepsRun.of_vendor (by assumption) (rvStep_keeps (by assumption))
    | exact KeepsRun.of_ecall (by assumption) (rvStep_keeps (by assumption)) | split

theorem atVendor_keeps {a s : State} {c w : Nat} (h : Keeps a s) : KeepsSome a (atVendor s c w) := by
  unfold atVendor
  cases headTask s c with
  | none => exact KeepsSome.none
  | some t =>
    simp only [Option.bind_some]
    repeat' with_reducible first
      | exact KeepsSome.none | apply KeepsSome.some
      | exact KeepsRun.of_vendor (by assumption) (rvStep_keeps (by assumption)) | split

theorem vendorRetire_keeps {a s : State} {t : Task} {c rd v : Nat} (h : Keeps a s) : Keeps a (vendorRetire s t c rd v)
    := by
  unfold vendorRetire
  with_reducible repeat' first | assumption | apply retire_keeps

theorem setQueue_keeps {a s : State} {t : Task} {q : Nat} {l : List Tile} (h : Keeps a s) : Keeps a (setQueue s t q l)
    := by
  unfold setQueue
  with_reducible repeat' first | intro _ _ | assumption | apply setCore_keeps | apply Keeps.foldl

theorem execTqPush_keeps {a : State} {core : Fin 34} {rd rs1 rs2 : Fin 32} {s : State} (h : Keeps a s) : KeepsOut a
    (execTqPush core rd rs1 rs2 s) := by
  unfold execTqPush
  with_reducible repeat' first
    | intro _ _ | assumption | dsimp only | simp -zeta only [Keeps.mk_iff] | apply KeepsOut.next | apply Keeps.ite
    | apply atVendor_keeps | apply countTrap_keeps | apply endInvalid_keeps | apply noteStatus_keeps
    | apply readRaw_keeps | apply setQueue_keeps | apply vendorRetire_keeps
    | exact KeepsSome.of_some (by assumption) (atVendor_keeps (by assumption)) | split

theorem popTile_keeps {a s : State} {t : Task} {c q rd v : Nat} (h : Keeps a s) : Keeps a (popTile s t c q rd v) := by
  unfold popTile
  with_reducible repeat' first | assumption | apply setQueue_keeps | apply vendorRetire_keeps

theorem execTqPop_keeps {a : State} {core : Fin 34} {rd rs1 : Fin 32} {s : State} (h : Keeps a s) : KeepsOut a
    (execTqPop core rd rs1 s) := by
  unfold execTqPop
  with_reducible repeat' first
    | intro _ _ _ | intro _ _ | assumption | dsimp only | simp -zeta only [Keeps.mk_iff] | apply KeepsOut.next
    | apply Keeps.ite | apply atVendor_keeps | apply popTile_keeps | apply setCore_keeps | apply vendorRetire_keeps
    | apply Keeps.foldl | apply Keeps.foldl1
    | exact KeepsSome.of_some (by assumption) (atVendor_keeps (by assumption)) | split

theorem execTqLen_keeps {a : State} {core : Fin 34} {rd rs1 : Fin 32} {s : State} (h : Keeps a s) : KeepsOut a
    (execTqLen core rd rs1 s) := by
  unfold execTqLen
  with_reducible repeat' first
    | intro _ _ | assumption | dsimp only | simp -zeta only [Keeps.mk_iff] | apply KeepsOut.next | apply Keeps.ite
    | apply atVendor_keeps | apply vendorRetire_keeps
    | exact KeepsSome.of_some (by assumption) (atVendor_keeps (by assumption)) | split

theorem execDkRd_keeps {a : State} {core : Fin 34} {rd rs1 : Fin 32} {w : Fin 4} {s : State} (h : Keeps a s) :
    KeepsOut a (execDkRd core rd rs1 w s) := by
  unfold execDkRd
  with_reducible repeat' first
    | intro _ _ | assumption | dsimp only | simp -zeta only [Keeps.mk_iff] | apply KeepsOut.next | apply Keeps.ite
    | apply atVendor_keeps | apply draw_keeps | apply vendorRetire_keeps
    | exact KeepsSome.of_some (by assumption) (atVendor_keeps (by assumption)) | split

theorem execDkInv_keeps {a : State} {core : Fin 34} {rs1 : Fin 32} {s : State} (h : Keeps a s) : KeepsOut a (execDkInv
    core rs1 s) := by
  unfold execDkInv
  with_reducible repeat' first
    | intro _ _ | assumption | dsimp only | simp -zeta only [Keeps.mk_iff] | apply KeepsOut.next | apply Keeps.ite
    | apply atVendor_keeps | apply retire_keeps
    | exact KeepsSome.of_some (by assumption) (atVendor_keeps (by assumption)) | split

theorem poisonWord_keeps {a s : State} {pid x2 : Nat} (h : Keeps a s) : Keeps a (poisonWord s pid x2) := by
  unfold poisonWord
  with_reducible repeat' first | assumption | dsimp only | simp -zeta only [Keeps.mk_iff] | apply eccSet_keeps | split

theorem rowRead_keeps {a s : State} {c : Nat} {t : Task} {x3 n : Nat} (h : Keeps a s) : Keeps a (rowRead s c t x3 n).1
    := by
  unfold rowRead
  with_reducible repeat' first
    | intro _ _ _ | intro _ _ | assumption | dsimp only | simp -zeta only [Keeps.mk_iff] | apply Keeps.ite
    | apply pidRead_keeps | apply readRaw_keeps | split

theorem rowWrite_keeps {a s : State} {c : Nat} {t : Task} {x3 : Nat} {bs : List Byte} {bad : List Nat} (h : Keeps a s)
    : Keeps a (rowWrite s c t x3 bs bad).1 := by
  unfold rowWrite
  with_reducible repeat' first
    | intro _ _ _ | intro _ _ | assumption | dsimp only | simp -zeta only [Keeps.mk_iff] | apply Keeps.ite
    | apply localWrite_keeps | apply poisonWord_keeps | apply setCore_keeps | apply windowStore_keeps
    | apply Keeps.foldl | apply Keeps.foldl1
    | exact KeepsAcc.of_ok (by assumption) (windowStore_keeps (by assumption))
    | exact KeepsAcc.of_trap (by assumption) (windowStore_keeps (by assumption)) | split

theorem moveTile_keeps {a s : State} {c : Nat} {t : Task} {x : Tile} (h : Keeps a s) : Keeps a (moveTile s c t x).1 :=
    by
  unfold moveTile
  with_reducible repeat' first
    | intro _ _ _ | assumption | dsimp only | apply blockedAccess_keeps | apply rowRead_keeps | apply rowWrite_keeps
    | apply Keeps.foldl1 | split

theorem endPop_keeps {a s : State} {t : Task} {c : Nat} (h : Keeps a s) : Keeps a (endPop s t c) := by
  unfold endPop
  with_reducible repeat' first
    | intro _ _ | assumption | dsimp only | apply popTile_keeps | apply setCore_keeps | apply Keeps.foldl | split

theorem execTileTransferComplete_keeps {a : State} {core : Fin 34} {queue : Fin 4} {s : State} (h : Keeps a s) :
    KeepsOut a (execTileTransferComplete core queue s) := by
  unfold execTileTransferComplete
  with_reducible repeat' first
    | intro _ _ _ | intro _ _ | assumption | dsimp only | simp -zeta only [Keeps.mk_iff] | apply KeepsOut.next
    | apply Keeps.ite | apply endPop_keeps | apply moveTile_keeps | apply setQueue_keeps | split

theorem execTqPopWaitLimit_keeps {a : State} {core : Fin 34} {s : State} (h : Keeps a s) : KeepsOut a
    (execTqPopWaitLimit core s) := by
  unfold execTqPopWaitLimit
  with_reducible repeat' first
    | intro _ _ | assumption | apply KeepsOut.next | apply obsInc_keeps | apply setCore_keeps | apply vendorRetire_keeps
    | apply Keeps.foldl | split

theorem latticeStart_keeps {a s : State} (h : Keeps a s) : Keeps a (latticeStart s) := by
  unfold latticeStart
  with_reducible repeat' first | assumption | dsimp only | simp -zeta only [Keeps.mk_iff] | apply fputs_keeps

theorem dropBuild_keeps {a s : State} {x1 : BuildSrc} (h : Keeps a s) : Keeps a (dropBuild s x1) := by
  unfold dropBuild
  with_reducible repeat' first | assumption | apply completeTask_keeps | apply finishLetter_keeps | split

theorem latticeStop_keeps {a s : State} (h : Keeps a s) : Keeps a (latticeStop s) := by
  unfold latticeStop
  with_reducible repeat' first
    | assumption | simp -zeta only [Keeps.mk_iff] | apply dropBuild_keeps | apply fput_keeps | apply Keeps.foldl

theorem execLatEnWrite_keeps {a : State} {q : Requester} {v : W32} {be : BitVec 4} {s : State} (h : Keeps a s) :
    KeepsOut a (execLatEnWrite q v be s) := by
  unfold execLatEnWrite
  with_reducible repeat' first
    | assumption | apply KeepsOut.next | apply latticeStart_keeps | apply latticeStop_keeps | apply regWrite_keeps
    | split

theorem dropLattice_keeps {a s : State} {pid newBanks : Nat} (h : Keeps a s) : Keeps a (dropLattice s pid newBanks) :=
    by
  unfold dropLattice
  with_reducible repeat' first
    | assumption | apply Keeps.ite | apply badValue_keeps | apply fput_keeps | apply latticeStop_keeps

theorem requestBuild_keeps {a s : State} {src : BuildSrc} (h : Keeps a s) : Keeps a (requestBuild s src) := by
  unfold requestBuild
  with_reducible repeat' first | assumption | dsimp only | simp -zeta only [Keeps.mk_iff] | apply fadd_keeps | split

theorem execWorldBuild_keeps {a : State} {task : Nat} {s : State} (h : Keeps a s) : KeepsOut a (execWorldBuild task s)
    := by
  unfold execWorldBuild
  with_reducible repeat' first
    | assumption | apply KeepsOut.next | apply completeTask_keeps | apply putTask_keeps | apply requestBuild_keeps
    | split

theorem execBuildStart_keeps {a s : State} (h : Keeps a s) : KeepsOut a (execBuildStart s) := by
  unfold execBuildStart
  with_reducible repeat' first
    | assumption | simp -zeta only [Keeps.mk_iff] | apply KeepsOut.next | apply KeepsOut.ite | apply finishLetter_keeps
    | apply markStarted_keeps | split

theorem copyPart_keeps {a s : State} {src dst n sclass pid : Nat} (h : Keeps a s) : Keeps a
    (copyPart s src dst n sclass pid).1 := by
  unfold copyPart
  with_reducible repeat' first
    | intro _ _ | assumption | apply eccSet_keeps | apply readRaw_keeps | apply writeRaw_keeps | apply Keeps.foldl

theorem publishEpoch_keeps {a s : State} {b : BuildIn} {limit : Option Nat} {safeOwner : Bool} {owner : Nat} (h :
    Keeps a s) : Keeps a (publishEpoch s b limit safeOwner owner).1 := by
  unfold publishEpoch
  with_reducible repeat' first
    | intro _ _ _ | intro _ _ | assumption | dsimp only | simp -zeta only [Keeps.mk_iff] | apply Keeps.ite
    | apply copyPart_keeps | apply countTags_keeps | apply fadd_keeps | apply fputs_keeps | apply noteWatch_keeps
    | apply putItem_keeps | apply setEvent_keeps | apply writeRaw_keeps | apply Keeps.foldl | apply Keeps.foldl1
    | split

theorem noteEpoch_keeps {a s : State} {ch seq pid : Nat} {aged : Bool} {d : Docket} (h : Keeps a s) : Keeps a
    (noteEpoch s ch seq pid aged d) := by
  unfold noteEpoch
  with_reducible repeat' first
    | intro _ _ | assumption | dsimp only | apply Keeps.ite | apply fadd_keeps | apply noteStatus_keeps
    | apply raise_keeps | apply setEvent_keeps | split

theorem execEpochPublish_keeps {a s : State} (h : Keeps a s) : KeepsOut a (execEpochPublish s) := by
  unfold execEpochPublish
  with_reducible repeat' first
    | intro _ _ _ | intro _ _ | assumption | dsimp only | simp -zeta only [Keeps.mk_iff] | apply KeepsOut.next
    | apply Keeps.ite | apply completeTask_keeps | apply finishLetter_keeps | apply noteEpoch_keeps
    | apply noteStatus_keeps | apply originOf_keeps | apply publishEpoch_keeps | apply updLetter_keeps | split

theorem setLedgerQueue_keeps {a s : State} {q : List LedgerVer} (h : Keeps a s) : Keeps a (setLedgerQueue s q) := by
  unfold setLedgerQueue
  with_reducible repeat' first | assumption | simp -zeta only [Keeps.mk_iff] | split

theorem commitLedger_keeps {a s : State} {v : LedgerVer} (h : Keeps a s) : Keeps a (commitLedger s v) := by
  unfold commitLedger
  with_reducible repeat' first
    | intro _ _ | assumption | dsimp only | simp -zeta only [Keeps.mk_iff] | apply Keeps.ite | apply slotPut_keeps
    | split

theorem execLedgerSlotWrite_keeps {a : State} {res : MramResult} {s : State} (h : Keeps a s) : KeepsOut a
    (execLedgerSlotWrite res s) := by
  unfold execLedgerSlotWrite
  with_reducible repeat' first
    | assumption | apply KeepsOut.next | apply commitLedger_keeps | apply failedSlot_keeps | apply ledgerFail_keeps
    | apply setLedgerQueue_keeps | split

theorem execLedgerPeriodicCommit_keeps {a s : State} (h : Keeps a s) : KeepsOut a (execLedgerPeriodicCommit s) := by
  unfold execLedgerPeriodicCommit
  with_reducible repeat' first
    | assumption | simp -zeta only [Keeps.mk_iff] | apply KeepsOut.next | apply KeepsOut.ite | apply commitChanged_keeps
    | apply fput_keeps

theorem readCell_keeps {a s : State} {cls i : Nat} (h : Keeps a s) : Keeps a (readCell s cls i) := by
  unfold readCell
  with_reducible repeat' first
    | intro _ _ _ | intro _ _ | assumption | dsimp only | simp -zeta only [Keeps.mk_iff] | apply Keeps.ite
    | apply mramFail_keeps | apply readRaw_keeps | apply Keeps.foldl | apply Keeps.foldl1 | split

theorem ledgerRecord_keeps {a s : State} {cls i : Nat} (h : Keeps a s) : Keeps a (ledgerRecord s cls i).1 := by
  unfold ledgerRecord
  with_reducible repeat' first | assumption | dsimp only | apply draw_keeps | split

theorem ledgerRecords_keeps {a s : State} {cls start count : Nat} (h : Keeps a s) : Keeps a (ledgerRecords s cls start
    count).1 := by
  unfold ledgerRecords
  with_reducible repeat' first
    | intro _ _ _ | intro _ _ | assumption | dsimp only | apply Keeps.ite | apply ledgerRecord_keeps
    | apply readCell_keeps | apply Keeps.foldl | apply Keeps.foldl1 | split

theorem ledgerAddPt_keeps {a s : State} {cls idx word pt : Nat} (h : Keeps a s) : Keeps a
    (ledgerAddPt s cls idx word pt) := by
  unfold ledgerAddPt
  with_reducible repeat' first | assumption | simp -zeta only [Keeps.mk_iff] | apply Keeps.ite | apply ledgerAdd_keeps

theorem finishSafe_keeps {a s : State} {l : Letter} {r : Result} (h : Keeps a s) : Keeps a (finishSafe s l r) := by
  unfold finishSafe
  with_reducible repeat' first | assumption | apply finishLetter_keeps

theorem begin__keeps {a s : State} {l : Letter} (h : Keeps a s) : Keeps a (begin_ s l) := by
  unfold begin_
  with_reducible repeat' first | assumption | apply markStarted_keeps

theorem bindStreams_keeps {a s : State} {pid : Nat} {p : List W32} (h : Keeps a s) : Keeps a (bindStreams s pid p) := by
  unfold bindStreams
  with_reducible repeat' first | intro _ _ _ | assumption | simp -zeta only [Keeps.mk_iff] | apply Keeps.foldl | split

theorem emptySlot_keeps {a s : State} {slot : Nat} (h : Keeps a s) : Keeps a (emptySlot s slot) := by
  unfold emptySlot
  with_reducible repeat' first | assumption | dsimp only | simp -zeta only [Keeps.mk_iff] | apply freeFlow_keeps

theorem putPlan_keeps {a s : State} {l : Letter} {flow : Option Nat} (h : Keeps a s) : Keeps a (putPlan s l flow) := by
  unfold putPlan
  with_reducible repeat' first
    | assumption | simp -zeta only [Keeps.mk_iff] | apply bindStreams_keeps | apply finishSafe_keeps | split

theorem installPlan_keeps {a s : State} {l : Letter} (h : Keeps a s) : Keeps a (installPlan s l) := by
  unfold installPlan
  with_reducible repeat' first
    | assumption | apply Keeps.ite | apply emptySlot_keeps | apply finishLetter_keeps | apply putPlan_keeps | split

theorem startLoad_keeps {a s : State} {l : Letter} (h : Keeps a s) : Keeps a (startLoad s l) := by
  unfold startLoad
  with_reducible repeat' first
    | assumption | dsimp only | apply begin__keeps | apply finishLetter_keeps | apply installPlan_keeps | split

theorem unload_keeps {a s : State} {l : Letter} (h : Keeps a s) : Keeps a (unload s l) := by
  unfold unload
  with_reducible repeat' first | assumption | apply emptySlot_keeps | apply finishSafe_keeps

theorem startUnload_keeps {a s : State} {l : Letter} (h : Keeps a s) : Keeps a (startUnload s l) := by
  unfold startUnload
  with_reducible repeat' first | assumption | apply Keeps.ite | apply begin__keeps | apply unload_keeps

theorem beginRun_keeps {a s : State} {l : Letter} {p : PlanSt} (h : Keeps a s) : Keeps a (beginRun s l p) := by
  unfold beginRun
  with_reducible repeat' first
    | assumption | simp -zeta only [Keeps.mk_iff] | apply advanceRun_keeps | apply finishLetter_keeps
    | apply raise_keeps | apply updLetter_keeps | apply updPlan_keeps | split

theorem startRun_keeps {a s : State} {l : Letter} {p : PlanSt} (h : Keeps a s) : Keeps a (startRun s l p) := by
  unfold startRun
  with_reducible repeat' first | assumption | apply beginRun_keeps | apply finishLetter_keeps | split

theorem startLooseRun_keeps {a s : State} {l : Letter} (h : Keeps a s) : Keeps a (startLooseRun s l) := by
  unfold startLooseRun
  with_reducible repeat' first | assumption | apply startRun_keeps | split

theorem writeDocket_keeps {a s : State} {l : Letter} {addr : Nat} {blocked : Bool} (h : Keeps a s) : Keeps a
    (writeDocket s l addr blocked).1 := by
  unfold writeDocket
  with_reducible repeat' first | assumption | apply draw_keeps | apply takeSeq_keeps

theorem writeTensor_keeps {a s : State} {l : Letter} (h : Keeps a s) : Keeps a (writeTensor s l) := by
  unfold writeTensor
  with_reducible repeat' first
    | intro _ _ | assumption | dsimp only | simp -zeta only [Keeps.mk_iff] | apply Keeps.ite | apply countTags_keeps
    | apply devWrite_keeps | apply finishSafe_keeps | apply writeDocket_keeps | split

theorem startWrite_keeps {a s : State} {l : Letter} (h : Keeps a s) : Keeps a (startWrite s l) := by
  unfold startWrite
  with_reducible repeat' first
    | assumption | apply begin__keeps | apply finishLetter_keeps | apply writeTensor_keeps | split

theorem checkDocket_keeps {a s : State} {l : Letter} {dk : Option Docket} (h : Keeps a s) : Keeps a (checkDocket s l
    dk).1 := by
  unfold checkDocket
  with_reducible repeat' first
    | intro _ _ | assumption | dsimp only | simp -zeta only [Keeps.mk_iff] | apply Keeps.ite | apply errUncorr_keeps
    | apply raise_keeps | split

theorem startRead_keeps {a s : State} {l : Letter} (h : Keeps a s) : Keeps a (startRead s l) := by
  unfold startRead
  with_reducible repeat' first
    | intro _ _ | assumption | dsimp only | apply Keeps.ite | apply begin__keeps | apply checkDocket_keeps
    | apply devRead_keeps | apply finishSafe_keeps | apply hostPut_keeps | split

theorem startUpdate_keeps {a s : State} {l : Letter} (h : Keeps a s) : Keeps a (startUpdate s l) := by
  unfold startUpdate
  with_reducible repeat' first
    | assumption | apply begin__keeps | apply finishLetter_keeps | apply requestBuild_keeps | split

theorem startDirect_keeps {a s : State} {l : Letter} {code : Nat} {kind : UnitKind} (h : Keeps a s) : Keeps a
    (startDirect s l code kind) := by
  unfold startDirect
  with_reducible repeat' first | assumption | apply enterTask_keeps

theorem startPing_keeps {a s : State} {l : Letter} (h : Keeps a s) : Keeps a (startPing s l) := by
  unfold startPing
  with_reducible repeat' first | assumption | apply begin__keeps | apply finishSafe_keeps

theorem startSetPartition_keeps {a s : State} {l : Letter} (h : Keeps a s) : Keeps a (startSetPartition s l) := by
  unfold startSetPartition
  with_reducible repeat' first | assumption | dsimp only | simp -zeta only [Keeps.mk_iff] | apply begin__keeps | split

theorem startQuery_keeps {a s : State} {l : Letter} (h : Keeps a s) : Keeps a (startQuery s l) := by
  unfold startQuery
  with_reducible repeat' first | assumption | apply begin__keeps | apply finishSafe_keeps | apply queryDaybook_keeps

theorem startLedger_keeps {a s : State} {l : Letter} (h : Keeps a s) : Keeps a (startLedger s l) := by
  unfold startLedger
  with_reducible repeat' first
    | assumption | apply begin__keeps | apply finishSafe_keeps | apply hostPut_keeps | apply ledgerRecords_keeps

theorem alignNow_keeps {a s : State} {l : Letter} (h : Keeps a s) : Keeps a (alignNow s l) := by
  unfold alignNow
  with_reducible repeat' first | assumption | apply finishSafe_keeps | apply setAdj_keeps

theorem startAlign_keeps {a s : State} {l : Letter} (h : Keeps a s) : Keeps a (startAlign s l) := by
  unfold startAlign
  with_reducible repeat' first | assumption | apply Keeps.ite | apply alignNow_keeps | apply begin__keeps

theorem safetyCommand_keeps {a s : State} {cmd x2 : Nat} (h : Keeps a s) : Keeps a (safetyCommand s cmd x2).1 := by
  unfold safetyCommand
  with_reducible repeat' first
    | assumption | simp -zeta only [Keeps.mk_iff] | apply clearSuspect_keeps | apply injectFault_keeps
    | apply leaveSafe_keeps | apply raise_keeps | apply rotateUnit_keeps | apply setLocks_keeps | split

theorem startSafety_keeps {a s : State} {l : Letter} (h : Keeps a s) : Keeps a (startSafety s l) := by
  unfold startSafety
  with_reducible repeat' first | assumption | apply begin__keeps | apply finishSafe_keeps | apply safetyCommand_keeps

theorem startFence_keeps {a s : State} {l : Letter} (h : Keeps a s) : Keeps a (startFence s l) := by
  unfold startFence
  with_reducible repeat' first | assumption | apply Keeps.ite | apply begin__keeps | apply finishSafe_keeps

theorem withdraw_keeps {a s : State} {l : Letter} (h : Keeps a s) : Keeps a (withdraw s l) := by
  unfold withdraw
  with_reducible repeat' first
    | assumption | simp -zeta only [Keeps.mk_iff] | apply freeFlow_keeps | apply updLetter_keeps

theorem cancelTarget_keeps {a s : State} {pid ch seq : Nat} (h : Keeps a s) : Keeps a (cancelTarget s pid ch seq).1 :=
    by
  unfold cancelTarget
  with_reducible repeat' first
    | intro _ _ | assumption | dsimp only | simp -zeta only [Keeps.mk_iff] | apply Keeps.ite
    | apply finishLetter_keeps | apply withdraw_keeps | split

theorem startCancel_keeps {a s : State} {l : Letter} (h : Keeps a s) : Keeps a (startCancel s l) := by
  unfold startCancel
  with_reducible repeat' first
    | intro _ _ | assumption | dsimp only | apply Keeps.ite | apply begin__keeps | apply cancelTarget_keeps
    | apply finishSafe_keeps | split

theorem startOp_keeps {a s : State} {l : Letter} (h : Keeps a s) : Keeps a (startOp s l) := by
  unfold startOp
  with_reducible repeat' first
    | assumption | apply startAlign_keeps | apply startCancel_keeps | apply startDirect_keeps | apply startFence_keeps
    | apply startLedger_keeps | apply startLoad_keeps | apply startLooseRun_keeps | apply startPing_keeps
    | apply startQuery_keeps | apply startRead_keeps | apply startSafety_keeps | apply startSetPartition_keeps
    | apply startUnload_keeps | apply startUpdate_keeps | apply startWrite_keeps | split

theorem execLetterStart_keeps {a : State} {ch : Fin 64} {seq : W32} {s : State} (h : Keeps a s) : KeepsOut a
    (execLetterStart ch seq s) := by
  unfold execLetterStart
  with_reducible repeat' first
    | assumption | apply KeepsOut.next | apply begin__keeps | apply finishLetter_keeps | apply startOp_keeps | split

theorem execFenceComplete_keeps {a : State} {ch : Fin 64} {seq : W32} {s : State} (h : Keeps a s) : KeepsOut a
    (execFenceComplete ch seq s) := by
  unfold execFenceComplete
  with_reducible repeat' first | assumption | apply KeepsOut.next | apply finishSafe_keeps | split

theorem execUnloadComplete_keeps {a : State} {ch : Fin 64} {seq : W32} {s : State} (h : Keeps a s) : KeepsOut a
    (execUnloadComplete ch seq s) := by
  unfold execUnloadComplete
  with_reducible repeat' first | assumption | apply KeepsOut.next | apply unload_keeps | split

theorem execPlanReplace_keeps {a : State} {ch : Fin 64} {seq : W32} {s : State} (h : Keeps a s) : KeepsOut a
    (execPlanReplace ch seq s) := by
  unfold execPlanReplace
  with_reducible repeat' first | assumption | apply KeepsOut.next | apply installPlan_keeps | split

theorem execTimeAlignDeferredWrite_keeps {a s : State} (h : Keeps a s) : KeepsOut a (execTimeAlignDeferredWrite s) := by
  unfold execTimeAlignDeferredWrite
  with_reducible repeat' first | assumption | apply KeepsOut.next | apply alignNow_keeps | apply Keeps.foldl | split

theorem execStrictRunStart_keeps {a : State} {ch : Fin 64} {seq : W32} {s : State} (h : Keeps a s) : KeepsOut a
    (execStrictRunStart ch seq s) := by
  unfold execStrictRunStart
  with_reducible repeat' first | assumption | apply KeepsOut.next | apply obsInc_keeps | apply startRun_keeps | split

theorem installPartition_keeps {a s : State} {p : Nat} {l : Letter} (h : Keeps a s) : Keeps a (installPartition s p l)
    := by
  unfold installPartition
  with_reducible repeat' first
    | assumption | simp -zeta only [Keeps.mk_iff] | apply dropFilters_keeps | apply dropLattice_keeps
    | apply finishLetter_keeps | apply finishSafe_keeps | apply installBlock_keeps | split

theorem execPartitionInstall_keeps {a : State} {p : Fin 16} {s : State} (h : Keeps a s) : KeepsOut a
    (execPartitionInstall p s) := by
  unfold execPartitionInstall
  with_reducible repeat' first | assumption | apply KeepsOut.next | apply installPartition_keeps | split

end Sys2Proof.Machine
end

