-- ==== Sys2Proof/Laws/KeepsCommands.lean ====
section
/-! SUPPORT. Every remaining operation and every command keeps the queue, the fuses and the canonical form. -/

namespace Sys2Proof.Machine

theorem takeReply_keeps {a s : State} {p : PendReply} (h : Keeps a s) : Keeps a (takeReply s p) := by
  unfold takeReply
  with_reducible repeat' first | assumption | simp -zeta only [Keeps.mk_iff]

theorem dropReply_keeps {a s : State} {p : PendReply} (h : Keeps a s) : Keeps a (dropReply s p) := by
  unfold dropReply
  with_reducible repeat' first | assumption | apply leaveFlight_keeps | apply takeReply_keeps | split

theorem writeReply_keeps {a s : State} {p : PendReply} (h : Keeps a s) : Keeps a (writeReply s p) := by
  unfold writeReply
  with_reducible repeat' first
    | assumption | apply fput_keeps | apply hostPut_keeps | apply leaveFlight_keeps | apply mirrorReply_keeps
    | apply sendMsix_keeps | apply takeReply_keeps | split

theorem execReplyWrite_keeps {a : State} {ch : Fin 64} {s : State} (h : Keeps a s) : KeepsOut a (execReplyWrite ch s) :=
    by
  unfold execReplyWrite
  with_reducible repeat' first
    | assumption | apply KeepsOut.next | apply dropReply_keeps | apply writeReply_keeps | split

theorem takeTurn_keeps {a s : State} {ch : Nat} (h : Keeps a s) : Keeps a (takeTurn s ch) := by
  unfold takeTurn
  with_reducible repeat' first | assumption | simp -zeta only [Keeps.mk_iff] | split

theorem answer_keeps {a s : State} {ch op : Nat} {l : LetterIn} {rflags : Nat} {r : Result} (h : Keeps a s) : Keeps a
    (answer s ch op l rflags r) := by
  unfold answer
  with_reducible repeat' first | assumption | dsimp only | simp -zeta only [Keeps.mk_iff]

theorem refuse_keeps {a s : State} {ch op : Nat} {l : LetterIn} {status detail : Nat} (h : Keeps a s) : Keeps a
    (refuse s ch op l status detail) := by
  unfold refuse
  with_reducible repeat' first | assumption | apply answer_keeps

theorem ownRead_keeps {a s : State} {x1 n : Nat} (h : Keeps a s) : Keeps a (ownRead s x1 n).1 := by
  unfold ownRead
  with_reducible repeat' first
    | intro _ _ | assumption | apply cacheRead_keeps | apply readRaw_keeps | apply Keeps.foldl1 | split

theorem reissue_keeps {a s : State} {ch op : Nat} {l : LetterIn} {peer : Bool} (h : Keeps a s) : Keeps a
    (reissue s ch op l peer) := by
  unfold reissue
  with_reducible repeat' first
    | assumption | dsimp only | simp -zeta only [Keeps.mk_iff] | apply answer_keeps | apply fadd_keeps
    | apply ownRead_keeps | split

theorem reject_keeps {a s : State} {ch op pid : Nat} {l : LetterIn} {status detail : Nat} (h : Keeps a s) : Keeps a
    (reject s ch op pid l status detail) := by
  unfold reject
  with_reducible repeat' first
    | assumption | apply enterWindow_keeps | apply noteVolatile_keeps | apply queueReply_keeps
    | apply queueVersion_keeps | apply takeCell_keeps

theorem supersede_keeps {a s : State} {l : Letter} (h : Keeps a s) : Keeps a (supersede s l) := by
  unfold supersede
  with_reducible repeat' first
    | assumption | simp -zeta only [Keeps.mk_iff] | apply fadd_keeps | apply finishLetter_keeps | apply freeCredit_keeps
    | apply withdraw_keeps | split

theorem takeCredit_keeps {a s : State} {ch : Nat} {strict : Bool} (h : Keeps a s) : Keeps a (takeCredit s ch strict) :=
    by
  unfold takeCredit
  with_reducible repeat' first | assumption | apply fadd_keeps | split

theorem accept_keeps {a s : State} {ch op pid : Nat} {l : LetterIn} {data : List Byte} (h : Keeps a s) : Keeps a
    (accept s ch op pid l data) := by
  unfold accept
  with_reducible repeat' first
    | assumption | dsimp only | simp -zeta only [Keeps.mk_iff] | apply enterWindow_keeps | apply noteVolatile_keeps
    | apply queueVersion_keeps | apply takeCell_keeps | apply takeCredit_keeps | split

theorem creditStep_keeps {a s : State} {ch op pid : Nat} {l : LetterIn} {data : List Byte} (h : Keeps a s) : Keeps a
    (creditStep s ch op pid l data) := by
  unfold creditStep
  with_reducible repeat' first
    | assumption | dsimp only | apply accept_keeps | apply fadd_keeps | apply refuse_keeps | apply supersede_keeps
    | apply Keeps.foldl | split

theorem countKey_keeps {a s : State} {l : LetterIn} (h : Keeps a s) : Keeps a (countKey s l) := by
  unfold countKey
  with_reducible repeat' first | assumption | apply fadd_keeps | apply lifeAdd_keeps | split

theorem headerRead_keeps {a s : State} {op pid : Nat} {l : LetterIn} (h : Keeps a s) : Keeps a (headerRead s op pid l)
    := by
  unfold headerRead
  with_reducible repeat' first
    | intro _ _ | assumption | dsimp only | simp -zeta only [Keeps.mk_iff] | apply Keeps.ite | apply devRead_keeps
    | split

theorem judgeFresh_keeps {a s : State} {ch op pid : Nat} {l : LetterIn} {data : List Byte} (h : Keeps a s) : Keeps a
    (judgeFresh s ch op pid l data) := by
  unfold judgeFresh
  with_reducible repeat' first
    | intro _ _ | assumption | dsimp only | simp -zeta only [Keeps.mk_iff] | apply Keeps.ite | apply countKey_keeps
    | apply creditStep_keeps | apply headerRead_keeps | apply refuse_keeps | apply reject_keeps | split

theorem judgeWindow_keeps {a s : State} {ch op : Nat} {l : LetterIn} {data : List Byte} (h : Keeps a s) : Keeps a
    (judgeWindow s ch op l data) := by
  unfold judgeWindow
  with_reducible repeat' first
    | assumption | apply answer_keeps | apply fadd_keeps | apply judgeFresh_keeps | apply refuse_keeps
    | apply reissue_keeps | split

theorem readEntry_keeps {a s : State} {ch op : Nat} {l : LetterIn} {data : List Byte} (h : Keeps a s) : Keeps a
    (readEntry s ch op l data) := by
  unfold readEntry
  with_reducible repeat' first
    | assumption | dsimp only | apply fput_keeps | apply judgeWindow_keeps | apply refuse_keeps | apply setChan_keeps
    | split

theorem letterRead_keeps {a s : State} {op ch : Nat} {l : LetterIn} {data : List Byte} (h : Keeps a s) : Keeps a
    (letterRead s op ch l data) := by
  unfold letterRead
  with_reducible repeat' first
    | assumption | apply judgeWindow_keeps | apply readEntry_keeps | apply setChan_keeps | apply takeTurn_keeps | split

theorem execPing_keeps {a : State} {ch : Fin 64} {l : LetterIn} {s : State} (h : Keeps a s) : KeepsOut a
    (execPing ch l s) := by
  unfold execPing
  with_reducible repeat' first | assumption | apply KeepsOut.next | apply letterRead_keeps

theorem execLoadPlan_keeps {a : State} {ch : Fin 64} {l : LetterIn} {data : List Byte} {s : State} (h : Keeps a s) :
    KeepsOut a (execLoadPlan ch l data s) := by
  unfold execLoadPlan
  with_reducible repeat' first | assumption | apply KeepsOut.next | apply letterRead_keeps

theorem execUnloadPlan_keeps {a : State} {ch : Fin 64} {l : LetterIn} {s : State} (h : Keeps a s) : KeepsOut a
    (execUnloadPlan ch l s) := by
  unfold execUnloadPlan
  with_reducible repeat' first | assumption | apply KeepsOut.next | apply letterRead_keeps

theorem execRunPlan_keeps {a : State} {ch : Fin 64} {l : LetterIn} {data : List Byte} {s : State} (h : Keeps a s) :
    KeepsOut a (execRunPlan ch l data s) := by
  unfold execRunPlan
  with_reducible repeat' first | assumption | apply KeepsOut.next | apply letterRead_keeps

theorem execWriteTensor_keeps {a : State} {ch : Fin 64} {l : LetterIn} {data : List Byte} {s : State} (h : Keeps a s) :
    KeepsOut a (execWriteTensor ch l data s) := by
  unfold execWriteTensor
  with_reducible repeat' first | assumption | apply KeepsOut.next | apply letterRead_keeps

theorem execReadTensor_keeps {a : State} {ch : Fin 64} {l : LetterIn} {s : State} (h : Keeps a s) : KeepsOut a
    (execReadTensor ch l s) := by
  unfold execReadTensor
  with_reducible repeat' first | assumption | apply KeepsOut.next | apply letterRead_keeps

theorem execWorldUpdate_keeps {a : State} {ch : Fin 64} {l : LetterIn} {data : List Byte} {s : State} (h : Keeps a s) :
    KeepsOut a (execWorldUpdate ch l data s) := by
  unfold execWorldUpdate
  with_reducible repeat' first | assumption | apply KeepsOut.next | apply letterRead_keeps

theorem execSweep_keeps {a : State} {ch : Fin 64} {l : LetterIn} {s : State} (h : Keeps a s) : KeepsOut a
    (execSweep ch l s) := by
  unfold execSweep
  with_reducible repeat' first | assumption | apply KeepsOut.next | apply letterRead_keeps

theorem execSelect_keeps {a : State} {ch : Fin 64} {l : LetterIn} {s : State} (h : Keeps a s) : KeepsOut a
    (execSelect ch l s) := by
  unfold execSelect
  with_reducible repeat' first | assumption | apply KeepsOut.next | apply letterRead_keeps

theorem execSolve_keeps {a : State} {ch : Fin 64} {l : LetterIn} {s : State} (h : Keeps a s) : KeepsOut a
    (execSolve ch l s) := by
  unfold execSolve
  with_reducible repeat' first | assumption | apply KeepsOut.next | apply letterRead_keeps

theorem execSetPartition_keeps {a : State} {ch : Fin 64} {l : LetterIn} {data : List Byte} {s : State} (h : Keeps a s) :
    KeepsOut a (execSetPartition ch l data s) := by
  unfold execSetPartition
  with_reducible repeat' first | assumption | apply KeepsOut.next | apply letterRead_keeps

theorem execQueryDaybook_keeps {a : State} {ch : Fin 64} {l : LetterIn} {s : State} (h : Keeps a s) : KeepsOut a
    (execQueryDaybook ch l s) := by
  unfold execQueryDaybook
  with_reducible repeat' first | assumption | apply KeepsOut.next | apply letterRead_keeps

theorem execReadLedger_keeps {a : State} {ch : Fin 64} {l : LetterIn} {s : State} (h : Keeps a s) : KeepsOut a
    (execReadLedger ch l s) := by
  unfold execReadLedger
  with_reducible repeat' first | assumption | apply KeepsOut.next | apply letterRead_keeps

theorem execTimeAlign_keeps {a : State} {ch : Fin 64} {l : LetterIn} {s : State} (h : Keeps a s) : KeepsOut a
    (execTimeAlign ch l s) := by
  unfold execTimeAlign
  with_reducible repeat' first | assumption | apply KeepsOut.next | apply letterRead_keeps

theorem safetyRead_keeps {a s : State} {cmd ch : Nat} {l : LetterIn} (h : Keeps a s) : Keeps a (safetyRead s cmd ch l)
    := by
  unfold safetyRead
  with_reducible repeat' first | assumption | apply Keeps.ite | apply letterRead_keeps

theorem execSeal_keeps {a : State} {ch : Fin 64} {l : LetterIn} {s : State} (h : Keeps a s) : KeepsOut a
    (execSeal ch l s) := by
  unfold execSeal
  with_reducible repeat' first | assumption | apply KeepsOut.next | apply safetyRead_keeps

theorem execUnseal_keeps {a : State} {ch : Fin 64} {l : LetterIn} {s : State} (h : Keeps a s) : KeepsOut a
    (execUnseal ch l s) := by
  unfold execUnseal
  with_reducible repeat' first | assumption | apply KeepsOut.next | apply safetyRead_keeps

theorem execSetKey_keeps {a : State} {ch : Fin 64} {l : LetterIn} {s : State} (h : Keeps a s) : KeepsOut a
    (execSetKey ch l s) := by
  unfold execSetKey
  with_reducible repeat' first | assumption | apply KeepsOut.next | apply safetyRead_keeps

theorem execInject_keeps {a : State} {ch : Fin 64} {l : LetterIn} {s : State} (h : Keeps a s) : KeepsOut a
    (execInject ch l s) := by
  unfold execInject
  with_reducible repeat' first | assumption | apply KeepsOut.next | apply safetyRead_keeps

theorem execEnterSafeA_keeps {a : State} {ch : Fin 64} {l : LetterIn} {s : State} (h : Keeps a s) : KeepsOut a
    (execEnterSafeA ch l s) := by
  unfold execEnterSafeA
  with_reducible repeat' first | assumption | apply KeepsOut.next | apply safetyRead_keeps

theorem execLeaveSafeA_keeps {a : State} {ch : Fin 64} {l : LetterIn} {s : State} (h : Keeps a s) : KeepsOut a
    (execLeaveSafeA ch l s) := by
  unfold execLeaveSafeA
  with_reducible repeat' first | assumption | apply KeepsOut.next | apply safetyRead_keeps

theorem execRotate_keeps {a : State} {ch : Fin 64} {l : LetterIn} {s : State} (h : Keeps a s) : KeepsOut a
    (execRotate ch l s) := by
  unfold execRotate
  with_reducible repeat' first | assumption | apply KeepsOut.next | apply safetyRead_keeps

theorem execSuspectClear_keeps {a : State} {ch : Fin 64} {l : LetterIn} {s : State} (h : Keeps a s) : KeepsOut a
    (execSuspectClear ch l s) := by
  unfold execSuspectClear
  with_reducible repeat' first | assumption | apply KeepsOut.next | apply safetyRead_keeps

theorem execFence_keeps {a : State} {ch : Fin 64} {l : LetterIn} {s : State} (h : Keeps a s) : KeepsOut a
    (execFence ch l s) := by
  unfold execFence
  with_reducible repeat' first | assumption | apply KeepsOut.next | apply letterRead_keeps

theorem execCancel_keeps {a : State} {ch : Fin 64} {l : LetterIn} {s : State} (h : Keeps a s) : KeepsOut a
    (execCancel ch l s) := by
  unfold execCancel
  with_reducible repeat' first | assumption | apply KeepsOut.next | apply letterRead_keeps

theorem execUndefinedOpcodeLetter_keeps {a : State} {ch : Fin 64} {opcode : Byte} {l : LetterIn} {s : State}
    (h : Keeps a s) : KeepsOut a (execUndefinedOpcodeLetter ch opcode l s) := by
  unfold execUndefinedOpcodeLetter
  with_reducible repeat' first | assumption | apply KeepsOut.next | apply letterRead_keeps | split

theorem writePoison_keeps {a s : State} {x1 n : Nat} (h : Keeps a s) : Keeps a (writePoison s x1 n) := by
  unfold writePoison
  with_reducible repeat' first | intro _ _ | assumption | apply eccSet_keeps | apply Keeps.foldl

theorem leaveSelfRefresh_keeps {a s : State} (h : Keeps a s) : Keeps a (leaveSelfRefresh s) := by
  unfold leaveSelfRefresh
  with_reducible repeat' first
    | intro _ _ | assumption | dsimp only | simp -zeta only [Keeps.mk_iff] | apply Keeps.ite | split

theorem countScrub_keeps {a s : State} {arr : ScrubArray} (h : Keeps a s) : Keeps a (countScrub s arr) := by
  unfold countScrub
  with_reducible repeat' first
    | intro _ _ | assumption | dsimp only | simp -zeta only [Keeps.mk_iff] | apply Keeps.ite | apply fadd_keeps
    | apply ledgerAdd_keeps | split

theorem scrubWord_keeps {a s : State} {arr : ScrubArray} {w : Nat} (h : Keeps a s) : Keeps a (scrubWord s arr w) := by
  unfold scrubWord
  with_reducible repeat' first
    | intro _ _ | assumption | dsimp only | simp -zeta only [Keeps.mk_iff] | apply Keeps.ite | apply countCorr_keeps
    | apply countScrub_keeps | apply countUncorr_keeps | apply eccSet_keeps | split

theorem scrubPool_keeps {a s : State} {arr : ScrubArray} {b pos : Nat} (h : Keeps a s) : Keeps a (scrubPool s arr b
    pos) := by
  unfold scrubPool
  with_reducible repeat' first
    | intro _ _ _ | intro _ _ | assumption | dsimp only | simp -zeta only [Keeps.mk_iff] | apply Keeps.ite
    | apply countCorr_keeps | apply countScrub_keeps | apply countUncorr_keeps | split

theorem execScrubCycle_keeps {a : State} {array : ScrubArray} {s : State} (h : Keeps a s) : KeepsOut a (execScrubCycle
    array s) := by
  unfold execScrubCycle
  with_reducible repeat' first
    | intro _ _ | assumption | dsimp only | simp -zeta only [Keeps.mk_iff] | apply KeepsOut.next | apply Keeps.ite
    | apply fadd_keeps | apply scrubPool_keeps | apply scrubWord_keeps | split

theorem clearReady_keeps {a s : State} (h : Keeps a s) : Keeps a (clearReady s) := by
  unfold clearReady
  with_reducible repeat' first | assumption | apply fput_keeps | apply setEvent_keeps | split

theorem promote_keeps {a s : State} (h : Keeps a s) : Keeps a (promote s) := by
  unfold promote
  with_reducible repeat' first
    | assumption | simp -zeta only [Keeps.mk_iff] | apply canDue_keeps | apply lifeAdd_keeps | apply setEvent_keeps
    | apply setPairRole_keeps

theorem execHeartbeatSend_keeps {a s : State} (h : Keeps a s) : KeepsOut a (execHeartbeatSend s) := by
  unfold execHeartbeatSend
  with_reducible repeat' first
    | assumption | simp -zeta only [Keeps.mk_iff] | apply KeepsOut.next | apply sendTo_keeps | split

theorem noteHeartbeat_keeps {a s : State} {epoch : Nat} (h : Keeps a s) : Keeps a (noteHeartbeat s epoch) := by
  unfold noteHeartbeat
  with_reducible repeat' first
    | assumption | dsimp only | simp -zeta only [Keeps.mk_iff] | apply clearReady_keeps | apply fadd_keeps | split

theorem execHeartbeat_keeps {a : State} {flit : FlitIn} {hb : Heartbeat} {s : State} (h : Keeps a s) : KeepsOut a
    (execHeartbeat flit hb s) := by
  unfold execHeartbeat
  with_reducible repeat' first
    | assumption | apply KeepsOut.next | apply noteHeartbeat_keeps | apply promote_keeps | split

theorem execPeerLost_keeps {a s : State} (h : Keeps a s) : KeepsOut a (execPeerLost s) := by
  unfold execPeerLost
  with_reducible repeat' first
    | assumption | simp -zeta only [Keeps.mk_iff] | apply KeepsOut.next | apply clearReady_keeps | apply lifeAdd_keeps
    | apply promote_keeps | apply setEvent_keeps | split

theorem execPeerMirrorEntry_keeps {a : State} {ch : Fin 64} {seq : W32} {entry : List Byte} {s : State} (h : Keeps a s)
    : KeepsOut a (execPeerMirrorEntry ch seq entry s) := by
  unfold execPeerMirrorEntry
  with_reducible repeat' first
    | assumption | simp -zeta only [Keeps.mk_iff] | apply KeepsOut.next | apply ownWrite_keeps | split

theorem execPeerCopyDone_keeps {a s : State} (h : Keeps a s) : KeepsOut a (execPeerCopyDone s) := by
  unfold execPeerCopyDone
  with_reducible repeat' first | assumption | apply KeepsOut.next | apply fput_keeps | split

theorem forcedWrite_keeps {a : State} {deny : DenyRule} {s : State} {q : Requester} {page off : Nat} {f : Fld} {v :
    W32} {be : BitVec 4} (h : Keeps a s) : Keeps a (forcedWrite deny s q page off f v be) := by
  unfold forcedWrite
  with_reducible repeat' first
    | intro _ _ | assumption | dsimp only | apply Keeps.ite | apply countRsvd_keeps | apply regWrite_keeps | split

theorem execPairRoleWrite_keeps {a : State} {q : Requester} {v : W32} {be : BitVec 4} {forced : Bool} {s : State} (h :
    Keeps a s) : KeepsOut a (execPairRoleWrite q v be forced s) := by
  unfold execPairRoleWrite
  with_reducible repeat' first
    | intro _ _ | assumption | dsimp only | apply KeepsOut.next | apply Keeps.ite | apply forcedWrite_keeps
    | apply promote_keeps | apply regWrite_keeps | apply setPairRole_keeps | split

theorem stopIterate_keeps {a s : State} {t : Task} {b : List Byte} {cap : Nat} {due : Option Nat} (h : Keeps a s) :
    Keeps a (stopIterate s t b cap due).1 := by
  unfold stopIterate
  with_reducible repeat' first | assumption | dsimp only | apply draw_keeps | split

theorem runSolve_keeps {a s : State} {t : Task} {b : List Byte} {cap : Nat} {due : Option Nat} {kind : Nat}
    {nm : Option (Nat × Nat)} (h : Keeps a s) : Keeps a (runSolve s t b cap due kind nm).1 := by
  unfold runSolve
  with_reducible repeat' first | assumption | apply stopIterate_keeps | split

theorem planeTask_keeps {a : State} {code task : Nat} {s : State} (h : Keeps a s) : KeepsOut a (planeTask code task s)
    := by
  unfold planeTask
  with_reducible repeat' first
    | assumption | apply KeepsOut.next | apply freeBytes_keeps | apply putTask_keeps | apply runSolve_keeps | split

theorem execQpSolve_keeps {a : State} {task : Nat} {s : State} (h : Keeps a s) : KeepsOut a (execQpSolve task s) := by
  unfold execQpSolve
  with_reducible repeat' first | assumption | apply planeTask_keeps

theorem execCholesky_keeps {a : State} {task : Nat} {s : State} (h : Keeps a s) : KeepsOut a (execCholesky task s) := by
  unfold execCholesky
  with_reducible repeat' first | assumption | apply planeTask_keeps

theorem execCg_keeps {a : State} {task : Nat} {s : State} (h : Keeps a s) : KeepsOut a (execCg task s) := by
  unfold execCg
  with_reducible repeat' first | assumption | apply planeTask_keeps

theorem solveStatus_keeps {a s : State} {t : Task} {state : Nat} (h : Keeps a s) : Keeps a (solveStatus s t state) := by
  unfold solveStatus
  with_reducible repeat' first | assumption | apply noteStatus_keeps | apply updLetter_keeps | split

theorem countBusy_keeps {a s : State} {t : Task} {rec_ : List Byte} (h : Keeps a s) : Keeps a (countBusy s t rec_) :=
    by
  unfold countBusy
  with_reducible repeat' first
    | intro _ _ | assumption | dsimp only | simp -zeta only [Keeps.mk_iff] | apply Keeps.ite | apply draw_keeps
    | apply fadd_keeps | split

theorem countSolve_keeps {a s : State} {t : Task} {rec_ : List Byte} (h : Keeps a s) : Keeps a (countSolve s t rec_)
    := by
  unfold countSolve
  with_reducible repeat' first
    | intro _ _ | assumption | dsimp only | simp -zeta only [Keeps.mk_iff] | apply Keeps.ite | apply countBusy_keeps
    | apply fadd_keeps | split

theorem planeResidue_keeps {a s : State} {t : Task} (h : Keeps a s) : Keeps a (planeResidue s t) := by
  unfold planeResidue
  with_reducible repeat' first
    | assumption | apply fadd_keeps | apply noteStatus_keeps | apply raise_keeps | apply setEvent_keeps

theorem endSolve_keeps {a s : State} {t : Task} {rec_ : List Byte} {ops : List PlaneOp} (h : Keeps a s) : Keeps a
    (endSolve s t rec_ ops).1 := by
  unfold endSolve
  with_reducible repeat' first
    | intro _ _ | assumption | dsimp only | simp -zeta only [Keeps.mk_iff] | apply Keeps.ite | apply countSolve_keeps
    | apply planeResidue_keeps | split

theorem directSolve_keeps {a s : State} {t : Task} {l : Letter} (h : Keeps a s) : Keeps a (directSolve s t l).1 := by
  unfold directSolve
  with_reducible repeat' first | assumption | apply runSolve_keeps

theorem endDirect_keeps {a s : State} {t : Task} {l : Letter} {ops : List PlaneOp} (h : Keeps a s) : Keeps a
    (endDirect s t l ops) := by
  unfold endDirect
  with_reducible repeat' first
    | intro _ _ | assumption | dsimp only | simp -zeta only [Keeps.mk_iff] | apply Keeps.ite
    | apply completeDirect_keeps | apply directSolve_keeps | apply dropTask_keeps | apply endSolve_keeps
    | apply finishLetter_keeps | apply publishAll_keeps | apply solveStatus_keeps | split

theorem execPlaneSolveComplete_keeps {a : State} {task : Nat} {ops : List PlaneOp} {s : State} (h : Keeps a s) :
    KeepsOut a (execPlaneSolveComplete task ops s) := by
  unfold execPlaneSolveComplete
  with_reducible repeat' first
    | intro _ _ | assumption | dsimp only | simp -zeta only [Keeps.mk_iff] | apply KeepsOut.next | apply Keeps.ite
    | apply completeTask_keeps | apply endDirect_keeps | apply endSolve_keeps | apply publishAll_keeps | split

theorem idleTick_keeps {a s : State} (h : Keeps a s) : Keeps a (idleTick s) := by
  unfold idleTick
  with_reducible repeat' first | assumption | simp -zeta only [Keeps.mk_iff]

theorem commandMv_keeps {a s : State} {mv : Nat} (h : Keeps a s) : Keeps a (commandMv s mv) := by
  unfold commandMv
  with_reducible repeat' first | assumption | apply fput_keeps | apply send_keeps

theorem settleFrom_keeps {a s : State} {ph : StepPhase} (h : Keeps a s) : Keeps a (settleFrom s ph) := by
  unfold settleFrom
  with_reducible repeat' first | assumption | simp -zeta only [Keeps.mk_iff]

theorem markThermal_keeps {a s : State} (h : Keeps a s) : Keeps a (markThermal s) := by
  unfold markThermal
  with_reducible repeat' first | assumption | apply mapTasks_keeps

theorem beginStep_keeps {a s : State} {target : Nat} (h : Keeps a s) : Keeps a (beginStep s target) := by
  unfold beginStep
  with_reducible repeat' first
    | intro _ _ | assumption | dsimp only | simp -zeta only [Keeps.mk_iff] | apply Keeps.ite | apply commandMv_keeps
    | apply relockIfFree_keeps | apply settleFrom_keeps | split

theorem endEmergency_keeps {a s : State} (h : Keeps a s) : Keeps a (endEmergency s) := by
  unfold endEmergency
  with_reducible repeat' first | assumption | dsimp only | simp -zeta only [Keeps.mk_iff] | apply fput_keeps

theorem nextRequest_keeps {a s : State} (h : Keeps a s) : Keeps a (nextRequest s) := by
  unfold nextRequest
  with_reducible repeat' first
    | intro _ _ | assumption | dsimp only | simp -zeta only [Keeps.mk_iff] | apply Keeps.ite | apply beginStep_keeps
    | apply endEmergency_keeps | apply fput_keeps | split

theorem requestStep_keeps {a s : State} (h : Keeps a s) : Keeps a (requestStep s) := by
  unfold requestStep
  with_reducible repeat' first
    | intro _ _ | assumption | dsimp only | simp -zeta only [Keeps.mk_iff] | apply Keeps.ite | apply beginStep_keeps
    | apply commandMv_keeps | apply endEmergency_keeps | apply fput_keeps | split

theorem execStepReqWrite_keeps {a : State} {q : Requester} {v : W32} {be : BitVec 4} {s : State} (h : Keeps a s) :
    KeepsOut a (execStepReqWrite q v be s) := by
  unfold execStepReqWrite
  with_reducible repeat' first
    | assumption | apply KeepsOut.next | apply regWrite_keeps | apply requestStep_keeps | split

theorem noteRegulator_keeps {a s : State} {x1 : RegulatorAnswer} (h : Keeps a s) : Keeps a (noteRegulator s x1) := by
  unfold noteRegulator
  with_reducible repeat' first | assumption | apply fadd_keeps | apply fput_keeps | apply setEvent_keeps | split

theorem execVoltageSettleEnd_keeps {a : State} {ans : RegulatorAnswer} {s : State} (h : Keeps a s) : KeepsOut a
    (execVoltageSettleEnd ans s) := by
  unfold execVoltageSettleEnd
  with_reducible repeat' first
    | intro _ _ | assumption | dsimp only | simp -zeta only [Keeps.mk_iff] | apply KeepsOut.next | apply Keeps.ite
    | apply commandMv_keeps | apply fput_keeps | apply nextRequest_keeps | apply noteRegulator_keeps
    | apply relockIfFree_keeps | apply setEvent_keeps | split

theorem stepInForce_keeps {a s : State} (h : Keeps a s) : Keeps a (stepInForce s) := by
  unfold stepInForce
  with_reducible repeat' first
    | intro _ _ | assumption | dsimp only | simp -zeta only [Keeps.mk_iff] | apply Keeps.ite | apply commandMv_keeps
    | apply endEmergency_keeps | apply fadd_keeps | apply fput_keeps | apply nextRequest_keeps
    | apply settleFrom_keeps | split

theorem execStepRelockDone_keeps {a s : State} (h : Keeps a s) : KeepsOut a (execStepRelockDone s) := by
  unfold execStepRelockDone
  with_reducible repeat' first
    | intro _ _ | assumption | dsimp only | simp -zeta only [Keeps.mk_iff] | apply KeepsOut.next | apply Keeps.ite
    | apply leaveSelfRefresh_keeps | apply stepInForce_keeps | split

theorem execFastDomainWake_keeps {a : State} {d : Fin 4} {s : State} (h : Keeps a s) : KeepsOut a
    (execFastDomainWake d s) := by
  unfold execFastDomainWake
  with_reducible repeat' first
    | assumption | apply KeepsOut.next | apply beginRelock_keeps | apply mapTasks_keeps | apply startDomain_keeps
    | split

theorem execFastDomainStop_keeps {a : State} {d : Fin 4} {s : State} (h : Keeps a s) : KeepsOut a
    (execFastDomainStop d s) := by
  unfold execFastDomainStop
  with_reducible repeat' first | assumption | apply KeepsOut.next | apply fput_keeps | split

theorem enterEmergency_keeps {a s : State} (h : Keeps a s) : Keeps a (enterEmergency s) := by
  unfold enterEmergency
  with_reducible repeat' first
    | intro _ _ | assumption | dsimp only | simp -zeta only [Keeps.mk_iff] | apply Keeps.ite | apply beginRelock_keeps
    | apply commandMv_keeps | apply fadd_keeps | apply fput_keeps | apply lifeAdd_keeps | apply markThermal_keeps
    | apply setEvent_keeps | split

theorem storeTemps_keeps {a s : State} {l : List (BitVec 8)} (h : Keeps a s) : Keeps a (storeTemps s l) := by
  unfold storeTemps
  with_reducible repeat' first
    | intro _ _ | assumption | dsimp only | simp -zeta only [Keeps.mk_iff] | apply fput_keeps | apply Keeps.foldl

theorem judgePairs_keeps {a s : State} {l : List (BitVec 8)} (h : Keeps a s) : Keeps a (judgePairs s l) := by
  unfold judgePairs
  with_reducible repeat' first
    | intro _ _ _ | assumption | simp -zeta only [Keeps.mk_iff] | apply Keeps.ite | apply fadd_keeps | apply raise_keeps
    | apply setEvent_keeps | apply Keeps.foldl

theorem addResidency_keeps {a s : State} {tj : Int} (h : Keeps a s) : Keeps a (addResidency s tj) := by
  unfold addResidency
  with_reducible repeat' first | assumption | apply Keeps.ite | apply ledgerAddPt_keeps

theorem trackCool_keeps {a s : State} {tj : Int} (h : Keeps a s) : Keeps a (trackCool s tj) := by
  unfold trackCool
  with_reducible repeat' first | assumption | simp -zeta only [Keeps.mk_iff]

theorem takeSample_keeps {a s : State} {readings : List (BitVec 8)} {rails : List Nat} (h : Keeps a s) : Keeps a
    (takeSample s readings rails) := by
  unfold takeSample
  with_reducible repeat' first
    | intro _ _ _ | intro _ _ | assumption | dsimp only | simp -zeta only [Keeps.mk_iff] | apply Keeps.ite
    | apply addResidency_keeps | apply enterEmergency_keeps | apply fput_keeps | apply judgePairs_keeps
    | apply raise_keeps | apply storeTemps_keeps | apply trackCool_keeps | apply Keeps.foldl | apply Keeps.foldl1
    | split

theorem execThermalSample_keeps {a : State} {readings : List (BitVec 8)} {rails : List Nat} {s : State} (h : Keeps a
    s) : KeepsOut a (execThermalSample readings rails s) := by
  unfold execThermalSample
  with_reducible repeat' first
    | intro _ _ | assumption | dsimp only | simp -zeta only [Keeps.mk_iff] | apply KeepsOut.next | apply Keeps.ite
    | apply takeSample_keeps | split

theorem execThermalEmergencyExit_keeps {a s : State} (h : Keeps a s) : KeepsOut a (execThermalEmergencyExit s) := by
  unfold execThermalEmergencyExit
  with_reducible repeat' first
    | intro _ _ | assumption | dsimp only | simp -zeta only [Keeps.mk_iff] | apply KeepsOut.next | apply Keeps.ite
    | apply beginStep_keeps | apply endEmergency_keeps | apply fput_keeps | split

theorem judgeClocks_keeps {a s : State} {counts : List (Option Nat)} (h : Keeps a s) : Keeps a (judgeClocks s counts)
    := by
  unfold judgeClocks
  with_reducible repeat' first
    | intro _ _ _ | intro _ _ | assumption | dsimp only | simp -zeta only [Keeps.mk_iff] | apply Keeps.ite
    | apply raise_keeps | apply Keeps.foldl | apply Keeps.foldl1 | split

theorem execClockMonitorWindow_keeps {a : State} {counts : List (Option Nat)} {s : State} (h : Keeps a s) : KeepsOut a
    (execClockMonitorWindow counts s) := by
  unfold execClockMonitorWindow
  with_reducible repeat' first
    | intro _ _ | assumption | dsimp only | simp -zeta only [Keeps.mk_iff] | apply KeepsOut.next | apply Keeps.ite
    | apply judgeClocks_keeps | split

theorem turnBit_keeps {a s : State} {page off b : Nat} (h : Keeps a s) : Keeps a (turnBit s page off b) := by
  unfold turnBit
  with_reducible repeat' first | intro _ _ | assumption | dsimp only | apply Keeps.ite | apply regPut_keeps | split

theorem blockedCompletion_keeps {a s : State} {q : Requester} {n : Nat} (h : Keeps a s) : Keeps a (blockedCompletion s
    q n) := by
  unfold blockedCompletion
  with_reducible repeat' first
    | intro _ _ | assumption | dsimp only | simp -zeta only [Keeps.mk_iff] | apply Keeps.ite | apply complete_keeps
    | apply poisonCompletion_keeps | split

theorem regReadThen_keeps {a s : State} {q : Requester} {page off n : Nat} {k : State → State} (h : Keeps a s) (hk : ∀
    s, Keeps a s → Keeps a (k s)) : Keeps a (regReadThen s q page off n k) := by
  unfold regReadThen
  with_reducible repeat' first
    | intro _ _ | apply hk | assumption | dsimp only | simp -zeta only [Keeps.mk_iff] | apply Keeps.ite
    | apply blockedAccess_keeps | apply blockedCompletion_keeps | apply noteParity_keeps | split

theorem plainWrite_keeps {a s : State} {q : Requester} {page off : Nat} {v : W32} {be : BitVec 4} (h : Keeps a s) :
    Keeps a (plainWrite s q page off v be) := by
  unfold plainWrite
  with_reducible repeat' first | assumption | apply Keeps.ite | apply countRsvd_keeps | apply regWrite_keeps

theorem doorbellWrite_keeps {a s : State} {q : Requester} {ch : Nat} {v : W32} {be : BitVec 4} (h : Keeps a s) : Keeps a
    (doorbellWrite s q ch v be) := by
  unfold doorbellWrite
  with_reducible repeat' first
    | assumption | apply Keeps.ite | apply fadd_keeps | apply fput_keeps | apply plainWrite_keeps | apply setEvent_keeps

theorem execDoorbellWrite_keeps {a : State} {q : Requester} {ch : Fin 64} {v : W32} {be : BitVec 4} {s : State}
    (h : Keeps a s) : KeepsOut a (execDoorbellWrite q ch v be s) := by
  unfold execDoorbellWrite
  with_reducible repeat' first | assumption | apply KeepsOut.next | apply doorbellWrite_keeps

theorem chCtrlWrite_keeps {a s : State} {q : Requester} {ch : Nat} {v : W32} {be : BitVec 4} {forced : Bool} (h :
    Keeps a s) : Keeps a (chCtrlWrite s q ch v be forced) := by
  unfold chCtrlWrite
  with_reducible repeat' first
    | intro _ _ | assumption | dsimp only | simp -zeta only [Keeps.mk_iff] | apply Keeps.ite | apply forcedWrite_keeps
    | apply plainWrite_keeps | split

theorem execChCtrlWrite_keeps {a : State} {q : Requester} {ch : Fin 64} {v : W32} {be : BitVec 4} {forced : Bool} {s :
    State} (h : Keeps a s) : KeepsOut a (execChCtrlWrite q ch v be forced s) := by
  unfold execChCtrlWrite
  with_reducible repeat' first
    | intro _ _ | assumption | dsimp only | apply KeepsOut.next | apply Keeps.ite | apply chCtrlWrite_keeps | split

theorem execEventWrite_keeps {a : State} {q : Requester} {page : BitVec 12} {v : W32} {be : BitVec 4} {s : State}
    (h : Keeps a s) : KeepsOut a (execEventWrite q page v be s) := by
  unfold execEventWrite
  with_reducible repeat' first | assumption | apply KeepsOut.next | apply regWrite_keeps

theorem execEventForce_keeps {a : State} {q : Requester} {page : BitVec 12} {v : W32} {be : BitVec 4} {s : State}
    (h : Keeps a s) : KeepsOut a (execEventForce q page v be s) := by
  unfold execEventForce
  with_reducible repeat' first | assumption | apply KeepsOut.next | apply regWrite_keeps

theorem ownerStore_keeps {a s : State} {q : Requester} {page : Nat} {v : W32} {be : BitVec 4} (h : Keeps a s) : Keeps
    a (ownerStore s q page v be) := by
  unfold ownerStore
  with_reducible repeat' first
    | intro _ _ | assumption | dsimp only | simp -zeta only [Keeps.mk_iff] | apply Keeps.ite | apply regWrite_keeps
    | split

theorem ownerWrite_keeps {a s : State} {q : Requester} {page : Nat} {v : W32} {be : BitVec 4} (h : Keeps a s) : Keeps
    a (ownerWrite s q page v be) := by
  unfold ownerWrite
  with_reducible repeat' first
    | intro _ _ | assumption | dsimp only | apply Keeps.ite | apply ownerStore_keeps | apply regPut_keeps
    | apply setEvent_keeps | split

theorem execOwnerPidWrite_keeps {a : State} {q : Requester} {page : BitVec 12} {v : W32} {be : BitVec 4} {s : State}
    (h : Keeps a s) : KeepsOut a (execOwnerPidWrite q page v be s) := by
  unfold execOwnerPidWrite
  with_reducible repeat' first | assumption | apply KeepsOut.next | apply ownerWrite_keeps

theorem restartWatch_keeps {a s : State} {w : Nat} (h : Keeps a s) : Keeps a (restartWatch s w) := by
  unfold restartWatch
  with_reducible repeat' first | assumption | dsimp only | simp -zeta only [Keeps.mk_iff] | apply fput_keeps

theorem watchWrite_keeps {a s : State} {q : Requester} {w : Nat} {second : Bool} {v : W32} {be : BitVec 4}
    (h : Keeps a s) : Keeps a (watchWrite s q w second v be) := by
  unfold watchWrite
  with_reducible repeat' first | assumption | apply Keeps.ite | apply plainWrite_keeps | apply restartWatch_keeps

theorem execWatchWrite_keeps {a : State} {q : Requester} {w : Fin 16} {second : Bool} {v : W32} {be : BitVec 4}
    {s : State} (h : Keeps a s) : KeepsOut a (execWatchWrite q w second v be s) := by
  unfold execWatchWrite
  with_reducible repeat' first | assumption | apply KeepsOut.next | apply watchWrite_keeps

theorem execBar2BaseWrite_keeps {a : State} {q : Requester} {f : Fin 16} {hi : Bool} {v : W32} {be : BitVec 4}
    {s : State} (h : Keeps a s) : KeepsOut a (execBar2BaseWrite q f hi v be s) := by
  unfold execBar2BaseWrite
  with_reducible repeat' first | assumption | apply KeepsOut.next | apply plainWrite_keeps

theorem execDbMirrorBaseWrite_keeps {a : State} {q : Requester} {hi : Bool} {v : W32} {be : BitVec 4} {s : State}
    (h : Keeps a s) : KeepsOut a (execDbMirrorBaseWrite q hi v be s) := by
  unfold execDbMirrorBaseWrite
  with_reducible repeat' first | assumption | apply KeepsOut.next | apply plainWrite_keeps

theorem windowRead_keeps {a s : State} {q : Requester} {page off : Nat} {idx : Fld} {m : Nat} (h : Keeps a s) : Keeps a
    (windowRead s q page off idx m) := by
  unfold windowRead
  with_reducible repeat' first
    | intro _ _ | assumption | apply complete_keeps | apply fput_keeps | apply regReadThen_keeps

theorem execDirData_keeps {a : State} {q : Requester} {s : State} (h : Keeps a s) : KeepsOut a (execDirData q s) := by
  unfold execDirData
  with_reducible repeat' first | assumption | apply KeepsOut.next | apply windowRead_keeps

theorem execFtData_keeps {a : State} {q : Requester} {t : Fin 9} {s : State} (h : Keeps a s) : KeepsOut a
    (execFtData q t s) := by
  unfold execFtData
  with_reducible repeat' first | assumption | apply KeepsOut.next | apply windowRead_keeps

theorem execFlogData_keeps {a : State} {q : Requester} {s : State} (h : Keeps a s) : KeepsOut a (execFlogData q s) := by
  unfold execFlogData
  with_reducible repeat' first | assumption | apply KeepsOut.next | apply windowRead_keeps

theorem execLwData_keeps {a : State} {q : Requester} {s : State} (h : Keeps a s) : KeepsOut a (execLwData q s) := by
  unfold execLwData
  with_reducible repeat' first | assumption | apply KeepsOut.next | apply windowRead_keeps

theorem execRxData_keeps {a : State} {q : Requester} {n : Fin 2} {s : State} (h : Keeps a s) : KeepsOut a
    (execRxData q n s) := by
  unfold execRxData
  with_reducible repeat' first | assumption | apply KeepsOut.next | apply windowRead_keeps

theorem intakeWrite_keeps {a s : State} {q : Requester} {port : Fin 8} {off : Nat} {v : W32} {be : BitVec 4}
    (h : Keeps a s) : Keeps a (intakeWrite s q port off v be) := by
  unfold intakeWrite
  with_reducible repeat' first
    | assumption | apply execFEnableWrite_keeps | apply plainWrite_keeps | apply regWrite_keeps | apply KeepsOut.leaves
    | split

theorem execPostmarkAdjWrite_keeps {a : State} {q : Requester} {v : W32} {be : BitVec 4} {s : State} (h : Keeps a s) :
    KeepsOut a (execPostmarkAdjWrite q v be s) := by
  unfold execPostmarkAdjWrite
  with_reducible repeat' first
    | assumption | apply KeepsOut.next | apply fadd_keeps | apply regWrite_keeps | apply setAdj_keeps | split

theorem execCommitGo_keeps {a : State} {q : Requester} {v : W32} {be : BitVec 4} {s : State} (h : Keeps a s) :
    KeepsOut a (execCommitGo q v be s) := by
  unfold execCommitGo
  with_reducible repeat' first
    | intro _ _ | assumption | dsimp only | apply KeepsOut.next | apply Keeps.ite | apply regWrite_keeps | split

theorem stepIndex_keeps {a s : State} {f : Fld} (h : Keeps a s) : Keeps a (stepIndex s f) := by
  unfold stepIndex
  with_reducible repeat' first | assumption | apply fadd_keeps

theorem execTtData_keeps {a : State} {q : Requester} {w : Option W32} {s : State} (h : Keeps a s) : KeepsOut a
    (execTtData q w s) := by
  unfold execTtData
  with_reducible repeat' first
    | intro _ _ | assumption | simp -zeta only [Keeps.mk_iff] | apply KeepsOut.next | apply badValue_keeps
    | apply complete_keeps | apply countRsvd_keeps | apply regReadThen_keeps | apply regWrite_keeps
    | apply stepIndex_keeps | split

theorem execObsData_keeps {a : State} {q : Requester} {w : Option W32} {s : State} (h : Keeps a s) : KeepsOut a
    (execObsData q w s) := by
  unfold execObsData
  with_reducible repeat' first
    | intro _ _ | assumption | apply KeepsOut.next | apply complete_keeps | apply obsPut_keeps | apply regReadThen_keeps
    | apply regWrite_keeps | apply stepIndex_keeps | split

theorem writeAny_keeps {a s : State} {q : Requester} {page off : Nat} {v : W32} {be : BitVec 4} {forced : Bool} (h :
    Keeps a s) : Keeps a (writeAny s q page off v be forced) := by
  unfold writeAny
  with_reducible repeat' first
    | intro _ _ | assumption | dsimp only | simp -zeta only [Keeps.mk_iff] | apply Keeps.ite | apply KeepsOut.leaves
    | apply chCtrlWrite_keeps | apply doorbellWrite_keeps | apply execAlignGo_keeps | apply execCommitGo_keeps
    | apply execLatEnWrite_keeps | apply execObsData_keeps | apply execPairRoleWrite_keeps
    | apply execPostmarkAdjWrite_keeps | apply execResyncGo_keeps | apply execStepReqWrite_keeps
    | apply execTtData_keeps | apply execWdgKick_keeps | apply intakeWrite_keeps | apply ownerWrite_keeps
    | apply plainWrite_keeps | apply regWrite_keeps | apply watchWrite_keeps | split

theorem execRegisterWrite_keeps {a : State} {q : Requester} {off : BitVec 24} {v : W64} {be : BitVec 8} {forced :
    Bool} {s : State} (h : Keeps a s) : KeepsOut a (execRegisterWrite q off v be forced s) := by
  unfold execRegisterWrite
  with_reducible repeat' first
    | intro _ _ | assumption | dsimp only | apply KeepsOut.next | apply Keeps.ite | apply writeAny_keeps | split

theorem noteFlip_keeps {a s : State} {key : Nat} {v : Bool} (h : Keeps a s) : Keeps a (noteFlip s key v) := by
  unfold noteFlip
  with_reducible repeat' first
    | intro _ _ | assumption | dsimp only | simp -zeta only [Keeps.mk_iff] | apply Keeps.ite | split

theorem strike_keeps {a s : State} {x1 : Upset} (h : Keeps a s) : Keeps a (strike s x1) := by
  unfold strike
  with_reducible repeat' first
    | intro _ _ | assumption | dsimp only | simp -zeta only [Keeps.mk_iff] | apply Keeps.ite | apply eccSet_keeps
    | apply noteFlip_keeps | apply turnBit_keeps | split

theorem countLinks_keeps {a s : State} (h : Keeps a s) : Keeps a (countLinks s) := by
  unfold countLinks
  with_reducible repeat' first | intro _ _ _ | assumption | apply ledgerAddPt_keeps | apply Keeps.foldl | split

theorem bootVoltage_keeps {a s : State} (h : Keeps a s) : Keeps a (bootVoltage s) := by
  unfold bootVoltage
  with_reducible repeat' first
    | assumption | simp -zeta only [Keeps.mk_iff] | apply commandMv_keeps | apply settleFrom_keeps | split

theorem validate_keeps {a s : State} (h : Keeps a s) : Keeps a (validate s) := by
  unfold validate
  with_reducible repeat' first
    | intro _ _ | assumption | dsimp only | simp -zeta only [Keeps.mk_iff] | apply Keeps.ite | apply fput_keeps
    | apply setEvent_keeps | split

theorem endValidation_keeps {a s : State} (h : Keeps a s) : Keeps a (endValidation s) := by
  unfold endValidation
  with_reducible repeat' first | intro _ _ | assumption | dsimp only | apply Keeps.ite | apply validate_keeps | split

theorem countLoad_keeps {a s : State} (h : Keeps a s) : Keeps a (countLoad s) := by
  unfold countLoad
  with_reducible repeat' first
    | intro _ _ _ | assumption | dsimp only | simp -zeta only [Keeps.mk_iff] | apply Keeps.foldl | split

theorem countEdge_keeps {a s : State} (h : Keeps a s) : Keeps a (countEdge s) := by
  unfold countEdge
  with_reducible repeat' first
    | intro _ _ | assumption | dsimp only | apply Keeps.ite | apply bootVoltage_keeps | apply countLinks_keeps
    | apply countLoad_keeps | apply drainBar2_keeps | apply drainPorts_keeps | apply endValidation_keeps
    | apply idleTick_keeps | apply takeMei_keeps | split

theorem advance_keeps {a s : State} {n : Nat} (h : Keeps a s) : Keeps a (advance s n) := by
  unfold advance
  with_reducible repeat' first
    | intro _ _ | assumption | dsimp only | simp -zeta only [Keeps.mk_iff] | apply Keeps.ite | split

theorem applyStep_keeps {a s : State} (h : Keeps a s) : Keeps a (applyStep s) := by
  unfold applyStep
  with_reducible repeat' first | assumption | apply advance_keeps | apply fadd_keeps | apply fput_keeps

theorem applyHold_keeps {a s : State} (h : Keeps a s) : Keeps a (applyHold s) := by
  unfold applyHold
  with_reducible repeat' first
    | intro _ _ | assumption | dsimp only | simp -zeta only [Keeps.mk_iff] | apply Keeps.ite | apply fadd_keeps
    | apply fput_keeps | split

theorem applyPlain_keeps {a s : State} (h : Keeps a s) : Keeps a (applyPlain s) := by
  unfold applyPlain
  with_reducible repeat' first | assumption | dsimp only | simp -zeta only [Keeps.mk_iff] | apply advance_keeps

theorem pmEdge_keeps {a s : State} (h : Keeps a s) : Keeps a (pmEdge s) := by
  unfold pmEdge
  with_reducible repeat' first
    | assumption | apply applyHold_keeps | apply applyPlain_keeps | apply applyStep_keeps | split

theorem execPostmarkTick_keeps {a : State} {upsets : List Upset} {s : State} (h : Keeps a s) : KeepsOut a
    (execPostmarkTick upsets s) := by
  unfold execPostmarkTick
  with_reducible repeat' first
    | intro _ _ _ | intro _ _ | assumption | dsimp only | apply KeepsOut.next | apply Keeps.ite
    | apply countEdge_keeps | apply pmEdge_keeps | apply strike_keeps | apply Keeps.foldl | apply Keeps.foldl1 | split

theorem execPostmarkStep_keeps {a s : State} (h : Keeps a s) : KeepsOut a (execPostmarkStep s) := by
  unfold execPostmarkStep
  with_reducible repeat' first
    | intro _ _ | assumption | dsimp only | apply KeepsOut.next | apply Keeps.ite | apply applyStep_keeps
    | apply countEdge_keeps | split

theorem execPostmarkSlewHold_keeps {a s : State} (h : Keeps a s) : KeepsOut a (execPostmarkSlewHold s) := by
  unfold execPostmarkSlewHold
  with_reducible repeat' first
    | intro _ _ | assumption | dsimp only | apply KeepsOut.next | apply Keeps.ite | apply applyHold_keeps
    | apply countEdge_keeps | split

theorem cutTask_keeps {a s : State} {t : Task} {mark : Nat} (h : Keeps a s) : Keeps a (cutTask s t mark) := by
  unfold cutTask
  with_reducible repeat' first
    | intro _ _ _ | intro _ _ | assumption | dsimp only | simp -zeta only [Keeps.mk_iff] | apply Keeps.ite
    | apply advanceRun_keeps | apply countEnd_keeps | apply countTrap_keeps | apply dropTask_keeps
    | apply finishLetter_keeps | apply noteStatus_keeps | apply publishCut_keeps | apply updRun_keeps | split

theorem skipUnserved_keeps {a s : State} {t : Task} (h : Keeps a s) : Keeps a (skipUnserved s t) := by
  unfold skipUnserved
  with_reducible repeat' first
    | assumption | apply advanceRun_keeps | apply dropTask_keeps | apply noteStatus_keeps | apply publishCut_keeps
    | apply updRun_keeps

theorem setModes_keeps {a s : State} {t : Task} {logical : List Nat} (h : Keeps a s) : Keeps a (setModes s t logical)
    := by
  unfold setModes
  with_reducible repeat' first
    | intro _ _ _ | intro _ _ | assumption | dsimp only | simp -zeta only [Keeps.mk_iff] | apply Keeps.ite
    | apply fput_keeps | apply Keeps.foldl | apply Keeps.foldl1 | split

theorem startStrict_keeps {a s : State} {t : Task} {logical : List Nat} {stop : Nat} (h : Keeps a s) : Keeps a
    (startStrict s t logical stop) := by
  unfold startStrict
  with_reducible repeat' first
    | intro _ _ _ | intro _ _ | assumption | dsimp only | apply Keeps.ite | apply setModes_keeps
    | apply skipUnserved_keeps | apply startTask_keeps | split

theorem execStrictOperatorStart_keeps {a : State} {ch : Fin 64} {seq : W32} {op : Nat} {s : State} (h : Keeps a s) :
    KeepsOut a (execStrictOperatorStart ch seq op s) := by
  unfold execStrictOperatorStart
  with_reducible repeat' first
    | intro _ _ _ | intro _ _ | assumption | dsimp only | simp -zeta only [Keeps.mk_iff] | apply KeepsOut.next
    | apply Keeps.ite | apply advanceRun_keeps | apply enterTask_keeps | apply raise_keeps | apply startStrict_keeps
    | split

theorem missDeadline_keeps {a s : State} {t : Task} {l : Letter} (h : Keeps a s) : Keeps a (missDeadline s t l) := by
  unfold missDeadline
  with_reducible repeat' first
    | assumption | apply advanceRun_keeps | apply dropTask_keeps | apply finishLetter_keeps | split

theorem execLooseDispatch_keeps {a : State} {kind : UnitKind} {s : State} (h : Keeps a s) : KeepsOut a
    (execLooseDispatch kind s) := by
  unfold execLooseDispatch
  with_reducible repeat' first
    | intro _ _ | assumption | dsimp only | simp -zeta only [Keeps.mk_iff] | apply KeepsOut.next | apply Keeps.ite
    | apply dropTask_keeps | apply finishLetter_keeps | apply missDeadline_keeps | apply putTask_keeps
    | apply startTask_keeps | split

theorem execBudgetOverrun_keeps {a : State} {task : Nat} {s : State} (h : Keeps a s) : KeepsOut a (execBudgetOverrun
    task s) := by
  unfold execBudgetOverrun
  with_reducible repeat' first
    | intro _ _ | assumption | dsimp only | simp -zeta only [Keeps.mk_iff] | apply KeepsOut.next | apply Keeps.ite
    | apply cutTask_keeps | apply obsInc_keeps | apply raise_keeps | split

theorem execWaitTimeout_keeps {a : State} {task : Nat} {s : State} (h : Keeps a s) : KeepsOut a (execWaitTimeout task
    s) := by
  unfold execWaitTimeout
  with_reducible repeat' first
    | intro _ _ | assumption | dsimp only | simp -zeta only [Keeps.mk_iff] | apply KeepsOut.next | apply Keeps.ite
    | apply cutTask_keeps | apply obsInc_keeps | apply raise_keeps | split

theorem execSweepEpochWaitEnd_keeps {a : State} {task : Nat} {s : State} (h : Keeps a s) : KeepsOut a
    (execSweepEpochWaitEnd task s) := by
  unfold execSweepEpochWaitEnd
  with_reducible repeat' first
    | intro _ _ | assumption | dsimp only | simp -zeta only [Keeps.mk_iff] | apply KeepsOut.next | apply Keeps.ite
    | apply dropTask_keeps | apply finishLetter_keeps | apply obsInc_keeps | apply putTask_keeps | split

theorem returnTask_keeps {a s : State} {t : Task} (h : Keeps a s) : Keeps a (returnTask s t) := by
  unfold returnTask
  with_reducible repeat' first
    | intro _ _ _ | intro _ _ | assumption | dsimp only | simp -zeta only [Keeps.mk_iff] | apply Keeps.ite
    | apply putTask_keeps | apply updRun_keeps | split

theorem execTimetableActivate_keeps {a s : State} (h : Keeps a s) : KeepsOut a (execTimetableActivate s) := by
  unfold execTimetableActivate
  with_reducible repeat' first
    | intro _ _ _ | intro _ _ | assumption | dsimp only | simp -zeta only [Keeps.mk_iff] | apply KeepsOut.next
    | apply Keeps.ite | apply fput_keeps | apply refit_keeps | apply returnTask_keeps | apply Keeps.foldl
    | apply Keeps.foldl1 | split

theorem execMajorFrameStart_keeps {a s : State} (h : Keeps a s) : KeepsOut a (execMajorFrameStart s) := by
  unfold execMajorFrameStart
  with_reducible repeat' first
    | intro _ _ | assumption | dsimp only | simp -zeta only [Keeps.mk_iff] | apply KeepsOut.next | apply Keeps.ite
    | apply beginRelock_keeps | apply fadd_keeps | apply fput_keeps | split

theorem execTimetableSlotStart_keeps {a : State} {slot : Nat} {s : State} (h : Keeps a s) : KeepsOut a
    (execTimetableSlotStart slot s) := by
  unfold execTimetableSlotStart
  with_reducible repeat' first
    | intro _ _ _ | intro _ _ | assumption | dsimp only | apply KeepsOut.next | apply Keeps.ite | apply fput_keeps
    | apply Keeps.foldl | apply Keeps.foldl1 | split

theorem execPairModeChange_keeps {a : State} {pair : Fin 17} {s : State} (h : Keeps a s) : KeepsOut a
    (execPairModeChange pair s) := by
  unfold execPairModeChange
  with_reducible repeat' first
    | intro _ _ | assumption | dsimp only | simp -zeta only [Keeps.mk_iff] | apply KeepsOut.next | apply Keeps.ite
    | apply fput_keeps | split

theorem execLoadWindowEnd_keeps {a s : State} (h : Keeps a s) : KeepsOut a (execLoadWindowEnd s) := by
  unfold execLoadWindowEnd
  with_reducible repeat' first
    | intro _ _ _ | assumption | simp -zeta only [Keeps.mk_iff] | apply KeepsOut.next | apply KeepsOut.ite
    | apply fput_keeps | apply obsPut_keeps | apply Keeps.foldl

theorem execSweepOperator_keeps {a : State} {task : Nat} {s : State} (h : Keeps a s) : KeepsOut a (execSweepOperator
    task s) := by
  unfold execSweepOperator
  with_reducible repeat' first
    | intro _ _ _ | intro _ _ | assumption | dsimp only | apply KeepsOut.next | apply Keeps.ite | apply formOuts_keeps
    | split

theorem countSweep_keeps {a s : State} {t : Task} {g : SweepArgs} {recs : List Byte} (h : Keeps a s) : Keeps a
    (countSweep s t g recs) := by
  unfold countSweep
  with_reducible repeat' first
    | intro _ _ _ | intro _ _ | assumption | dsimp only | apply Keeps.ite | apply fadd_keeps | apply Keeps.foldl
    | apply Keeps.foldl1 | split

theorem sweepMismatch_keeps {a : State} {t : Task} {s : State} {d : Nat × Bool} (h : Keeps a s) : Keeps a
    (sweepMismatch t s d) := by
  unfold sweepMismatch
  with_reducible repeat' first
    | intro _ _ | assumption | dsimp only | apply Keeps.ite | apply fadd_keeps | apply noteStatus_keeps
    | apply raiseAs_keeps | apply setEvent_keeps | split

theorem execSweepComplete_keeps {a : State} {task : Nat} {faults : List SweepFault} {s : State} (h : Keeps a s) :
    KeepsOut a (execSweepComplete task faults s) := by
  unfold execSweepComplete
  with_reducible repeat' first
    | intro _ _ _ | intro _ _ | assumption | dsimp only | simp -zeta only [Keeps.mk_iff] | apply KeepsOut.next
    | apply Keeps.ite | apply completeAny_keeps | apply countSweep_keeps | apply publishAll_keeps
    | apply sweepMismatch_keeps | apply Keeps.foldl | apply Keeps.foldl1 | split

theorem sortTask_keeps {a : State} {code task : Nat} {s : State} (h : Keeps a s) : KeepsOut a (sortTask code task s)
    := by
  unfold sortTask
  with_reducible repeat' first
    | intro _ _ | assumption | dsimp only | simp -zeta only [Keeps.mk_iff] | apply KeepsOut.next | apply Keeps.ite
    | apply putTask_keeps | split

theorem execTopk_keeps {a : State} {task : Nat} {s : State} (h : Keeps a s) : KeepsOut a (execTopk task s) := by
  unfold execTopk
  with_reducible repeat' first | assumption | apply sortTask_keeps

theorem execSort_keeps {a : State} {task : Nat} {s : State} (h : Keeps a s) : KeepsOut a (execSort task s) := by
  unfold execSort
  with_reducible repeat' first | assumption | apply sortTask_keeps

theorem execCompact_keeps {a : State} {task : Nat} {s : State} (h : Keeps a s) : KeepsOut a (execCompact task s) := by
  unfold execCompact
  with_reducible repeat' first | assumption | apply sortTask_keeps

theorem countSort_keeps {a s : State} {t : Task} {w : SortWork} {written : List Nat} (h : Keeps a s) : Keeps a
    (countSort s t w written) := by
  unfold countSort
  with_reducible repeat' first
    | intro _ _ _ | intro _ _ | assumption | dsimp only | apply Keeps.ite | apply fadd_keeps | apply Keeps.foldl
    | apply Keeps.foldl1 | split

theorem sortFail_keeps {a s : State} {t : Task} {count : Fld} {ev : Nat} (h : Keeps a s) : Keeps a
    (sortFail s t count ev) := by
  unfold sortFail
  with_reducible repeat' first
    | assumption | apply fadd_keeps | apply noteStatus_keeps | apply raise_keeps | apply setEvent_keeps

theorem checkRow_keeps {a : State} {q : SortAsk} {t : Task} {s : State} {x : List Item × SortedRow} (h : Keeps a s) :
    Keeps a (checkRow q t s x) := by
  unfold checkRow
  with_reducible repeat' first | intro _ _ | assumption | dsimp only | apply Keeps.ite | apply sortFail_keeps | split

theorem execSorterTaskComplete_keeps {a : State} {task : Nat} {faults : List SortFault} {s : State} (h : Keeps a s) :
    KeepsOut a (execSorterTaskComplete task faults s) := by
  unfold execSorterTaskComplete
  with_reducible repeat' first
    | intro _ _ _ | intro _ _ | assumption | dsimp only | simp -zeta only [Keeps.mk_iff] | apply KeepsOut.next
    | apply Keeps.ite | apply checkRow_keeps | apply completeAny_keeps | apply countSort_keeps
    | apply publishAll_keeps | apply Keeps.foldl | apply Keeps.foldl1 | split

theorem selftestAdd_keeps {a s : State} {k u word amount : Nat} (h : Keeps a s) : Keeps a
    (selftestAdd s k u word amount) := by
  unfold selftestAdd
  with_reducible repeat' first | assumption | apply ledgerSet_keeps

theorem notePass_keeps {a s : State} {k u : Nat} (h : Keeps a s) : Keeps a (notePass s k u) := by
  unfold notePass
  with_reducible repeat' first
    | assumption | dsimp only | simp -zeta only [Keeps.mk_iff] | apply fadd_keeps | apply ledgerQueue_keeps
    | apply ledgerSet_keeps | apply selftestAdd_keeps

theorem noteFail_keeps {a s : State} {k u : Nat} (h : Keeps a s) : Keeps a (noteFail s k u) := by
  unfold noteFail
  with_reducible repeat' first | assumption | apply ledgerQueue_keeps | apply selftestAdd_keeps

theorem takeover_keeps {a s : State} {k u spare reason : Nat} (h : Keeps a s) : Keeps a (takeover s k u spare reason)
    := by
  unfold takeover
  with_reducible repeat' first
    | intro _ _ | assumption | dsimp only | apply Keeps.ite | apply beginTest_keeps | apply changeRole_keeps
    | apply mapOut_keeps | apply swapIn_keeps | split

theorem execSpareTakeover_keeps {a : State} {kind : TestKind} {s : State} (h : Keeps a s) : KeepsOut a
    (execSpareTakeover kind s) := by
  unfold execSpareTakeover
  with_reducible repeat' first
    | assumption | dsimp only | simp -zeta only [Keeps.mk_iff] | apply KeepsOut.next | apply takeover_keeps | split

theorem beamMapOut_keeps {a s : State} {b : Nat} (h : Keeps a s) : Keeps a (beamMapOut s b) := by
  unfold beamMapOut
  with_reducible repeat' first | assumption | apply askTakeover_keeps | apply beginCopy_keeps | split

theorem nextCopy_keeps {a s : State} (h : Keeps a s) : Keeps a (nextCopy s) := by
  unfold nextCopy
  with_reducible repeat' first | assumption | simp -zeta only [Keeps.mk_iff] | apply beginCopy_keeps | split

theorem execBeamCopyComplete_keeps {a s : State} (h : Keeps a s) : KeepsOut a (execBeamCopyComplete s) := by
  unfold execBeamCopyComplete
  with_reducible repeat' first
    | assumption | simp -zeta only [Keeps.mk_iff] | apply KeepsOut.next | apply fput_keeps | apply nextCopy_keeps
    | apply takeover_keeps | split

theorem judgeRates_keeps {a s : State} (h : Keeps a s) : Keeps a (judgeRates s) := by
  unfold judgeRates
  with_reducible repeat' first
    | intro _ _ _ | intro _ _ | assumption | dsimp only | simp -zeta only [Keeps.mk_iff] | apply Keeps.ite
    | apply beamMapOut_keeps | apply ledgerAdd_keeps | apply raise_keeps | apply Keeps.foldl | apply Keeps.foldl1
    | split

theorem execCorrRateWindowEnd_keeps {a s : State} (h : Keeps a s) : KeepsOut a (execCorrRateWindowEnd s) := by
  unfold execCorrRateWindowEnd
  with_reducible repeat' first
    | intro _ _ | assumption | dsimp only | simp -zeta only [Keeps.mk_iff] | apply KeepsOut.next | apply Keeps.ite
    | apply judgeRates_keeps | split

theorem execRotatingTestStart_keeps {a : State} {kind : TestKind} {s : State} (h : Keeps a s) : KeepsOut a
    (execRotatingTestStart kind s) := by
  unfold execRotatingTestStart
  with_reducible repeat' first
    | assumption | dsimp only | simp -zeta only [Keeps.mk_iff] | apply KeepsOut.next | apply startTest_keeps | split

theorem execDeferredTestRetry_keeps {a : State} {kind : TestKind} {s : State} (h : Keeps a s) : KeepsOut a
    (execDeferredTestRetry kind s) := by
  unfold execDeferredTestRetry
  with_reducible repeat' first | assumption | dsimp only | apply KeepsOut.next | apply startTest_keeps | split

theorem returnUnit_keeps {a s : State} {k u : Nat} (h : Keeps a s) : Keeps a (returnUnit s k u) := by
  unfold returnUnit
  with_reducible repeat' first
    | assumption | simp -zeta only [Keeps.mk_iff] | apply askTakeover_keeps | apply lifeAdd_keeps | apply setRole_keeps
    | apply spareEvent_keeps | apply writeSpareMap_keeps | split

theorem failTest_keeps {a s : State} {k : Nat} {t : TestSt} (h : Keeps a s) : Keeps a (failTest s k t) := by
  unfold failTest
  with_reducible repeat' first
    | intro _ _ | assumption | dsimp only | simp -zeta only [Keeps.mk_iff] | apply Keeps.ite | apply changeRole_keeps
    | apply mapOut_keeps | apply noteFail_keeps | apply raiseAs_keeps | split

theorem endTest_keeps {a s : State} {k : Nat} {t : TestSt} {pass : Bool} (h : Keeps a s) : Keeps a (endTest s k t
    pass) := by
  unfold endTest
  with_reducible repeat' first
    | intro _ _ | assumption | dsimp only | simp -zeta only [Keeps.mk_iff] | apply Keeps.ite | apply changeRole_keeps
    | apply failTest_keeps | apply notePass_keeps | apply returnUnit_keeps | split

theorem execRotatingTestComplete_keeps {a : State} {kind : TestKind} {pass : Bool} {s : State} (h : Keeps a s) :
    KeepsOut a (execRotatingTestComplete kind pass s) := by
  unfold execRotatingTestComplete
  with_reducible repeat' first
    | intro _ _ | assumption | dsimp only | simp -zeta only [Keeps.mk_iff] | apply KeepsOut.next | apply Keeps.ite
    | apply endTest_keeps | split

theorem execTestSegment_keeps {a : State} {kind : TestKind} {pass : Bool} {s : State} (h : Keeps a s) : KeepsOut a
    (execTestSegment kind pass s) := by
  unfold execTestSegment
  with_reducible repeat' first
    | intro _ _ | assumption | dsimp only | simp -zeta only [Keeps.mk_iff] | apply KeepsOut.next | apply Keeps.ite
    | apply endTest_keeps | split

theorem execLatentOverdue_keeps {a : State} {kind : TestKind} {unit : Nat} {s : State} (h : Keeps a s) : KeepsOut a
    (execLatentOverdue kind unit s) := by
  unfold execLatentOverdue
  with_reducible repeat' first
    | assumption | simp -zeta only [Keeps.mk_iff] | apply KeepsOut.next | apply KeepsOut.ite | apply raiseAs_keeps
    | split

theorem execPostmarkCounterStart_keeps {a s : State} (h : Keeps a s) : KeepsOut a (execPostmarkCounterStart s) := by
  unfold execPostmarkCounterStart
  with_reducible repeat' first
    | intro _ _ | assumption | dsimp only | simp -zeta only [Keeps.mk_iff] | apply KeepsOut.next | apply Keeps.ite
    | apply fput_keeps | split

theorem execPmClkLoss_keeps {a s : State} (h : Keeps a s) : KeepsOut a (execPmClkLoss s) := by
  unfold execPmClkLoss
  with_reducible repeat' first
    | assumption | simp -zeta only [Keeps.mk_iff] | apply KeepsOut.next | apply raise_keeps | split

theorem latchTime_keeps {a s : State} {q : Requester} (h : Keeps a s) : Keeps a (latchTime s q) := by
  unfold latchTime
  with_reducible repeat' first | assumption | simp -zeta only [Keeps.mk_iff]

theorem execPostmarkLoRead_keeps {a : State} {q : Requester} {wide : Bool} {s : State} (h : Keeps a s) : KeepsOut a
    (execPostmarkLoRead q wide s) := by
  unfold execPostmarkLoRead
  with_reducible repeat' first
    | intro _ _ | assumption | apply KeepsOut.next | apply complete_keeps | apply latchTime_keeps
    | apply regReadThen_keeps

theorem execLastEventPmLo_keeps {a : State} {q : Requester} {page off : BitVec 12} {wide : Bool} {s : State}
    (h : Keeps a s) : KeepsOut a (execLastEventPmLo q page off wide s) := by
  unfold execLastEventPmLo
  with_reducible repeat' first
    | intro _ _ | assumption | simp -zeta only [Keeps.mk_iff] | apply KeepsOut.next | apply KeepsOut.ite
    | apply complete_keeps | apply regReadThen_keeps

theorem countNan_keeps {a s : State} {t : Task} {p : List W32} {o : OpDesc} {d : TensorDesc} {xs : List Xv} (h : Keeps
    a s) : Keeps a (countNan s t p o d xs) := by
  unfold countNan
  with_reducible repeat' first
    | intro _ _ _ | intro _ _ | assumption | dsimp only | apply Keeps.ite | apply fadd_keeps | apply Keeps.foldl
    | apply Keeps.foldl1 | split

theorem valueRule_keeps {a : State} {f : State →   List W32 → OpDesc → Task → List Xv} {s : State} {w : List W32} {o :
    OpDesc} {t : Task} (h : Keeps a s) : Keeps a (valueRule f s w o t).1 := by
  unfold valueRule
  with_reducible repeat' first
    | intro _ _ _ | intro _ _ | assumption | dsimp only | apply Keeps.ite | apply countNan_keeps | split

theorem execMatmul_keeps {a : State} {task : Nat} {s : State} (h : Keeps a s) : KeepsOut a (execMatmul task s) := by
  unfold execMatmul
  with_reducible repeat' first
    | intro _ _ | assumption | dsimp only | apply KeepsOut.next | apply Keeps.ite | apply formOuts_keeps
    | apply valueRule_keeps | split

theorem execBatchMatmul_keeps {a : State} {task : Nat} {s : State} (h : Keeps a s) : KeepsOut a (execBatchMatmul task
    s) := by
  unfold execBatchMatmul
  with_reducible repeat' first
    | intro _ _ | assumption | dsimp only | apply KeepsOut.next | apply Keeps.ite | apply formOuts_keeps
    | apply valueRule_keeps | split

theorem execConv2d_keeps {a : State} {task : Nat} {s : State} (h : Keeps a s) : KeepsOut a (execConv2d task s) := by
  unfold execConv2d
  with_reducible repeat' first
    | intro _ _ | assumption | dsimp only | apply KeepsOut.next | apply Keeps.ite | apply formOuts_keeps
    | apply valueRule_keeps | split

theorem execDwconv2d_keeps {a : State} {task : Nat} {s : State} (h : Keeps a s) : KeepsOut a (execDwconv2d task s) :=
    by
  unfold execDwconv2d
  with_reducible repeat' first
    | intro _ _ | assumption | dsimp only | apply KeepsOut.next | apply Keeps.ite | apply formOuts_keeps
    | apply valueRule_keeps | split

theorem execAdd_keeps {a : State} {task : Nat} {s : State} (h : Keeps a s) : KeepsOut a (execAdd task s) := by
  unfold execAdd
  with_reducible repeat' first
    | intro _ _ | assumption | dsimp only | apply KeepsOut.next | apply Keeps.ite | apply formOuts_keeps
    | apply valueRule_keeps | split

theorem execMul_keeps {a : State} {task : Nat} {s : State} (h : Keeps a s) : KeepsOut a (execMul task s) := by
  unfold execMul
  with_reducible repeat' first
    | intro _ _ | assumption | dsimp only | apply KeepsOut.next | apply Keeps.ite | apply formOuts_keeps
    | apply valueRule_keeps | split

theorem execConvert_keeps {a : State} {task : Nat} {s : State} (h : Keeps a s) : KeepsOut a (execConvert task s) := by
  unfold execConvert
  with_reducible repeat' first
    | intro _ _ _ | intro _ _ | assumption | dsimp only | apply KeepsOut.next | apply Keeps.ite | apply formOuts_keeps
    | apply valueRule_keeps | split

theorem execClamp_keeps {a : State} {task : Nat} {s : State} (h : Keeps a s) : KeepsOut a (execClamp task s) := by
  unfold execClamp
  with_reducible repeat' first
    | intro _ _ _ | intro _ _ | assumption | dsimp only | apply KeepsOut.next | apply Keeps.ite | apply formOuts_keeps
    | apply valueRule_keeps | split

theorem execFinish_keeps {a : State} {task : Nat} {s : State} (h : Keeps a s) : KeepsOut a (execFinish task s) := by
  unfold execFinish
  with_reducible repeat' first
    | intro _ _ _ | intro _ _ | assumption | dsimp only | apply KeepsOut.next | apply Keeps.ite | apply formOuts_keeps
    | apply valueRule_keeps | split

theorem execSum_keeps {a : State} {task : Nat} {s : State} (h : Keeps a s) : KeepsOut a (execSum task s) := by
  unfold execSum
  with_reducible repeat' first
    | intro _ _ | assumption | dsimp only | apply KeepsOut.next | apply Keeps.ite | apply formOuts_keeps
    | apply valueRule_keeps | split

theorem execMean_keeps {a : State} {task : Nat} {s : State} (h : Keeps a s) : KeepsOut a (execMean task s) := by
  unfold execMean
  with_reducible repeat' first
    | intro _ _ | assumption | dsimp only | apply KeepsOut.next | apply Keeps.ite | apply formOuts_keeps
    | apply valueRule_keeps | split

theorem maxMinRule_keeps {a s : State} {w : List W32} {o : OpDesc} {t : Task} (h : Keeps a s) : Keeps a (maxMinRule s
    w o t).1 := by
  unfold maxMinRule
  with_reducible repeat' first
    | intro _ _ _ | intro _ _ | assumption | dsimp only | apply Keeps.ite | apply countNan_keeps | split

theorem execMaxMin_keeps {a : State} {task : Nat} {s : State} (h : Keeps a s) : KeepsOut a (execMaxMin task s) := by
  unfold execMaxMin
  with_reducible repeat' first | assumption | apply formOuts_keeps | apply maxMinRule_keeps

theorem execNormalize_keeps {a : State} {task : Nat} {s : State} (h : Keeps a s) : KeepsOut a (execNormalize task s) :=
    by
  unfold execNormalize
  with_reducible repeat' first | assumption | apply formOuts_keeps | apply valueRule_keeps

theorem softmaxRule_keeps {a s : State} {w : List W32} {o : OpDesc} {t : Task} (h : Keeps a s) : Keeps a (softmaxRule
    s w o t).1 := by
  unfold softmaxRule
  with_reducible repeat' first
    | intro _ _ _ | intro _ _ | assumption | dsimp only | simp -zeta only [Keeps.mk_iff] | apply Keeps.ite
    | apply countNan_keeps | split

theorem execSoftmax_keeps {a : State} {task : Nat} {s : State} (h : Keeps a s) : KeepsOut a (execSoftmax task s) := by
  unfold execSoftmax
  with_reducible repeat' first | assumption | apply formOuts_keeps | apply softmaxRule_keeps

theorem transposeRule_keeps {a : State} {fs : List LaneFault} {s : State} {w : List W32} {o : OpDesc} {t : Task} (h :
    Keeps a s) : Keeps a (transposeRule fs s w o t).1 := by
  unfold transposeRule
  with_reducible repeat' first | intro _ _ _ | intro _ _ | assumption | dsimp only | apply Keeps.ite | split

theorem execTranspose_keeps {a : State} {task : Nat} {s : State} (h : Keeps a s) : KeepsOut a (execTranspose task s)
    := by
  unfold execTranspose
  with_reducible repeat' first
    | intro _ _ | assumption | dsimp only | apply KeepsOut.next | apply Keeps.ite | apply formOuts_keeps
    | apply transposeRule_keeps | split

theorem execRandomUniform_keeps {a : State} {task : Nat} {s : State} (h : Keeps a s) : KeepsOut a
    (execRandomUniform task s) := by
  unfold execRandomUniform
  with_reducible repeat' first | intro _ _ _ | intro _ _ | assumption | apply formOuts_keeps

theorem execRandomNormal_keeps {a : State} {task : Nat} {s : State} (h : Keeps a s) : KeepsOut a
    (execRandomNormal task s) := by
  unfold execRandomNormal
  with_reducible repeat' first | assumption | apply formOuts_keeps | apply valueRule_keeps

theorem engineMismatch_keeps {a s : State} {t : Task} {u : Nat} {count : Fld} {ev cls : Nat} (h : Keeps a s) : Keeps a
    (engineMismatch s t u count ev cls) := by
  unfold engineMismatch
  with_reducible repeat' first
    | intro _ _ | assumption | dsimp only | apply Keeps.ite | apply fadd_keeps | apply noteStatus_keeps
    | apply raise_keeps | apply setEvent_keeps | split

theorem checkEngines_keeps {a s : State} {t : Task} {p : List W32} {o : OpDesc} {fs : List LaneFault} {rs : List
    RoundFault} (h : Keeps a s) : Keeps a (checkEngines s t p o fs rs).1 := by
  unfold checkEngines
  with_reducible repeat' first
    | intro _ _ _ | intro _ _ | assumption | dsimp only | simp -zeta only [Keeps.mk_iff] | apply Keeps.ite
    | apply engineMismatch_keeps | apply Keeps.foldl | apply Keeps.foldl1 | split

theorem countMop_keeps {a s : State} {t : Task} {p : List W32} {o : OpDesc} (h : Keeps a s) : Keeps a (countMop s t p
    o) := by
  unfold countMop
  with_reducible repeat' first
    | intro _ _ _ | intro _ _ | assumption | dsimp only | apply Keeps.ite | apply fadd_keeps | apply Keeps.foldl
    | apply Keeps.foldl1 | split

theorem postcardFail_keeps {a : State} {t : Task} {s : State} {x : Option Nat × Docket × Bool} (h : Keeps a s) : Keeps a
    (postcardFail t s x) := by
  unfold postcardFail
  with_reducible repeat' first
    | assumption | apply fadd_keeps | apply noteStatus_keeps | apply raise_keeps | apply setEvent_keeps | split

theorem poolWrite_keeps {a s : State} {t : Task} {p : List W32} {m : Macro} {out : TensorDesc} {x5 : Nat} {data : List
    Byte} (h : Keeps a s) : Keeps a (poolWrite s t p m out x5 data) := by
  unfold poolWrite
  with_reducible repeat' first
    | intro _ _ _ | intro _ _ | assumption | dsimp only | apply Keeps.ite | apply countMisses_keeps
    | apply writeLines_keeps | apply Keeps.foldl | apply Keeps.foldl1 | split

theorem walkOut_keeps {a s : State} {t : Task} (h : Keeps a s) : Keeps a (walkOut s t).1 := by
  unfold walkOut
  with_reducible repeat' first
    | intro _ _ _ | intro _ _ | assumption | dsimp only | simp -zeta only [Keeps.mk_iff] | apply Keeps.ite
    | apply poolWrite_keeps | apply Keeps.foldl | apply Keeps.foldl1 | split

theorem execMacroOperationComplete_keeps {a : State} {task : Nat} {faults : List LaneFault} {rounds : List RoundFault}
    {s : State} (h : Keeps a s) : KeepsOut a (execMacroOperationComplete task faults rounds s) := by
  unfold execMacroOperationComplete
  with_reducible repeat' first
    | intro _ _ _ | intro _ _ | assumption | dsimp only | simp -zeta only [Keeps.mk_iff] | apply KeepsOut.next
    | apply Keeps.ite | apply abortTask_keeps | apply checkEngines_keeps | apply completeTask_keeps
    | apply countMop_keeps | apply postcardFail_keeps | apply publishPorts_keeps | apply putTask_keeps
    | apply walkOut_keeps | apply Keeps.foldl | apply Keeps.foldl1 | split

end Sys2Proof.Machine
end

