-- ==== Sys2Proof/Laws/Regs.lean ====
section
/-! SUPPORT. Laws of the register file: a field reads the value it was given, and giving one field a value leaves every other
field, and every other part of the state, alone. -/

namespace Sys2Proof.Machine

/-! ### Bits of a number -/

theorem setBits_eq (v hi lo x : Nat) (h : lo ≤ hi) :
    setBits v hi lo x = (v / 2 ^ (hi + 1) * 2 ^ (hi + 1 - lo) + x % 2 ^ (hi + 1 - lo)) * 2 ^ lo + v % 2 ^ lo := by
  unfold setBits bits
  have e : 2 ^ (hi + 1) = 2 ^ lo * 2 ^ (hi + 1 - lo) := by rw [← pow_add]; congr 1; omega
  rw [e, ← Nat.div_div_eq_div_mul]
  generalize 2 ^ lo = A
  generalize 2 ^ (hi + 1 - lo) = B
  have h1 := Nat.div_add_mod v A
  have h2 := Nat.div_add_mod (v / A) B
  generalize v / A = q at *
  generalize v % A = r at *
  generalize q / B = u at *
  generalize q % B = m at *
  subst h2
  have : v = (u * B + m) * A + r := by rw [← h1]; ring
  rw [this]
  have : (u * B + m) * A + r = m * A + (u * B * A + r) := by ring
  rw [this, Nat.add_sub_cancel_left]
  ring

theorem bits_setBits_same (v hi lo x : Nat) (h : lo ≤ hi) : bits (setBits v hi lo x) hi lo = x % 2 ^ (hi + 1 - lo) := by
  rw [setBits_eq v hi lo x h]
  unfold bits
  have hA : 0 < 2 ^ lo := Nat.two_pow_pos lo
  rw [Nat.mul_comm, Nat.mul_add_div hA, Nat.div_eq_of_lt (Nat.mod_lt _ hA), Nat.add_zero, Nat.add_comm,
    Nat.add_mul_mod_self_right, Nat.mod_mod]

theorem bits_eq_mod (v hi lo : Nat) (h : lo ≤ hi) : bits v hi lo = v % 2 ^ (hi + 1) / 2 ^ lo := by
  unfold bits
  have e : 2 ^ (hi + 1) = 2 ^ lo * 2 ^ (hi + 1 - lo) := by rw [← pow_add]; congr 1; omega
  rw [e, Nat.mod_mul_right_div_self]

theorem bits_setBits_below (v hi lo x hi' lo' : Nat) (h : lo ≤ hi) (h' : lo' ≤ hi') (k : hi' < lo) :
    bits (setBits v hi lo x) hi' lo' = bits v hi' lo' := by
  rw [bits_eq_mod _ _ _ h', bits_eq_mod _ _ _ h', setBits_eq v hi lo x h]
  congr 1
  have e : 2 ^ lo = 2 ^ (hi' + 1) * 2 ^ (lo - (hi' + 1)) := by rw [← pow_add]; congr 1; omega
  have d : 2 ^ (hi' + 1) ∣ 2 ^ lo := ⟨_, e⟩
  rw [Nat.add_mod, Nat.mod_eq_zero_of_dvd (Dvd.dvd.mul_left d _), Nat.zero_add, Nat.mod_mod, Nat.mod_mod_of_dvd _ d]

theorem bits_setBits_above (v hi lo x hi' lo' : Nat) (h : lo ≤ hi) (k : hi < lo') :
    bits (setBits v hi lo x) hi' lo' = bits v hi' lo' := by
  have key : setBits v hi lo x / 2 ^ (hi + 1) = v / 2 ^ (hi + 1) := by
    rw [setBits_eq v hi lo x h]
    have e : 2 ^ (hi + 1) = 2 ^ lo * 2 ^ (hi + 1 - lo) := by rw [← pow_add]; congr 1; omega
    have hA : 0 < 2 ^ lo := Nat.two_pow_pos lo
    have hB : 0 < 2 ^ (hi + 1 - lo) := Nat.two_pow_pos _
    rw [e, ← Nat.div_div_eq_div_mul, ← Nat.div_div_eq_div_mul, Nat.mul_comm _ (2 ^ lo), Nat.mul_add_div hA,
      Nat.div_eq_of_lt (Nat.mod_lt _ hA), Nat.add_zero, Nat.mul_comm, Nat.mul_add_div hB, Nat.div_eq_of_lt (Nat.mod_lt _ hB),
      Nat.add_zero]
  unfold bits
  have e : 2 ^ lo' = 2 ^ (hi + 1) * 2 ^ (lo' - (hi + 1)) := by rw [← pow_add]; congr 1; omega
  rw [e, ← Nat.div_div_eq_div_mul, ← Nat.div_div_eq_div_mul, key]

theorem setBits_lt (v hi lo x : Nat) (h : lo ≤ hi) (hh : hi < 32) (hv : v < 2 ^ 32) : setBits v hi lo x < 2 ^ 32 := by
  have a := bits_setBits_above v hi lo x 64 32 h hh
  unfold bits at a
  have b : v / 2 ^ 32 = 0 := Nat.div_eq_of_lt hv
  rw [b, Nat.zero_mod] at a
  have c := setBits_eq v hi lo x h
  have hA : v % 2 ^ lo < 2 ^ lo := Nat.mod_lt _ (Nat.two_pow_pos _)
  have hB : x % 2 ^ (hi + 1 - lo) < 2 ^ (hi + 1 - lo) := Nat.mod_lt _ (Nat.two_pow_pos _)
  have hC : v / 2 ^ (hi + 1) < 2 ^ (31 - hi) := by
    rw [Nat.div_lt_iff_lt_mul (Nat.two_pow_pos _), ← pow_add]
    have : 31 - hi + (hi + 1) = 32 := by omega
    rw [this]; exact hv
  rw [c]
  calc (v / 2 ^ (hi + 1) * 2 ^ (hi + 1 - lo) + x % 2 ^ (hi + 1 - lo)) * 2 ^ lo + v % 2 ^ lo
      < (v / 2 ^ (hi + 1) * 2 ^ (hi + 1 - lo) + x % 2 ^ (hi + 1 - lo)) * 2 ^ lo + 1 * 2 ^ lo := by omega
    _ = (v / 2 ^ (hi + 1) * 2 ^ (hi + 1 - lo) + (x % 2 ^ (hi + 1 - lo) + 1)) * 2 ^ lo := by ring
    _ ≤ (v / 2 ^ (hi + 1) * 2 ^ (hi + 1 - lo) + 1 * 2 ^ (hi + 1 - lo)) * 2 ^ lo := by gcongr; omega
    _ = (v / 2 ^ (hi + 1) + 1) * (2 ^ (hi + 1 - lo) * 2 ^ lo) := by ring
    _ ≤ 2 ^ (31 - hi) * (2 ^ (hi + 1 - lo) * 2 ^ lo) := by gcongr; omega
    _ = 2 ^ 32 := by rw [← pow_add, ← pow_add]; congr 1; omega

/-! ### Words -/

theorem regGet_lt (s : State) (page off : Nat) : regGet s page off < 2 ^ 32 := BitVec.isLt _

@[simp] theorem regGet_regPut_same (s : State) (page off v : Nat) : regGet (regPut s page off v) page off = v % 2 ^ 32 := by
  unfold regGet regPut
  simp [BitVec.toNat_ofNat]

theorem regGet_regPut_other (s : State) {page off page' off' : Nat} (v : Nat) (h : regKey page' off' ≠ regKey page off) :
    regGet (regPut s page off v) page' off' = regGet s page' off' := by
  unfold regGet regPut
  simp only [mapGet_mapPut_other _ _ _ _ h]

/-- A word that lists nothing reads its reset value. -/
theorem regGet_unlisted (s : State) (page off : Nat) (h : s.regs = []) : regGet s page off = regReset page off % 2 ^ 32 := by
  unfold regGet mapGet
  rw [h]
  simp

/-! ### Fields -/

/-- A field's place lies in a 32-bit word. -/
abbrev Fld.ok (f : Fld) : Prop := f.lo ≤ f.hi ∧ f.hi < 32

/-- Two fields share no bit: they lie in different words, or apart in one. -/
abbrev Fld.apart (f g : Fld) : Prop :=
  regKey g.page g.off ≠ regKey f.page f.off ∨ (g.page = f.page ∧ g.off = f.off ∧ (g.hi < f.lo ∨ f.hi < g.lo))

/-- A field reads the value it was given, in its width. -/
theorem fget_fput_same (s : State) (f : Fld) (v : Nat) (h : f.ok) : fget (fput s f v) f = v % 2 ^ (f.hi + 1 - f.lo) := by
  unfold fget fput
  rw [regGet_regPut_same, Nat.mod_eq_of_lt (setBits_lt _ _ _ _ h.1 h.2 (regGet_lt _ _ _)), bits_setBits_same _ _ _ _ h.1]

/-- Giving a field a value leaves a field apart from it alone. -/
theorem fget_fput_other (s : State) (f g : Fld) (v : Nat) (h : f.ok) (k : g.ok) (d : f.apart g) :
    fget (fput s f v) g = fget s g := by
  unfold fget fput
  rcases d with d | ⟨hp, ho, d⟩
  · rw [regGet_regPut_other s _ d]
  · rw [hp, ho, regGet_regPut_same, Nat.mod_eq_of_lt (setBits_lt _ _ _ _ h.1 h.2 (regGet_lt _ _ _))]
    rcases d with d | d
    · exact bits_setBits_below _ _ _ _ _ _ h.1 k.1 d
    · exact bits_setBits_above _ _ _ _ _ _ h.1 d

/-- A counter rises by what is added, modulo its width (R737). -/
theorem fget_fadd_same (s : State) (f : Fld) (k : Nat) (h : f.ok) :
    fget (fadd s f k) f = (fget s f + k) % 2 ^ (f.hi + 1 - f.lo) := fget_fput_same s f _ h

theorem fget_fadd_other (s : State) (f g : Fld) (n : Nat) (h : f.ok) (k : g.ok) (d : f.apart g) :
    fget (fadd s f n) g = fget s g := fget_fput_other s f g _ h k d

theorem regPut_eq (s : State) (page off v : Nat) : regPut s page off v = { s with regs := (regPut s page off v).regs } := rfl

/-- Giving a field a value changes the register words alone. -/
theorem fput_eq (s : State) (f : Fld) (v : Nat) : fput s f v = { s with regs := (fput s f v).regs } := rfl

theorem fadd_eq (s : State) (f : Fld) (k : Nat) : fadd s f k = { s with regs := (fadd s f k).regs } := rfl

end Sys2Proof.Machine
end

