-- ==== Sys2Proof/Laws/State.lean ====
section
/-! SUPPORT. One lemma for each field and each of the operations that most others are built from: what the operation leaves alone
(true by unfolding), so that no later proof unfolds a record update. -/

namespace Sys2Proof.Machine

/-! `regPut` -/

@[simp] theorem regPut_pending (s : State) (page off v : Nat) : (regPut s page off v).pending = s.pending := rfl
@[simp] theorem regPut_mem (s : State) (page off v : Nat) : (regPut s page off v).mem = s.mem := rfl
@[simp] theorem regPut_ecc (s : State) (page off v : Nat) : (regPut s page off v).ecc = s.ecc := rfl
@[simp] theorem regPut_host (s : State) (page off v : Nat) : (regPut s page off v).host = s.host := rfl
@[simp] theorem regPut_time (s : State) (page off v : Nat) : (regPut s page off v).time = s.time := rfl
@[simp] theorem regPut_power (s : State) (page off v : Nat) : (regPut s page off v).power = s.power := rfl
@[simp] theorem regPut_chans (s : State) (page off v : Nat) : (regPut s page off v).chans = s.chans := rfl
@[simp] theorem regPut_letters (s : State) (page off v : Nat) : (regPut s page off v).letters = s.letters := rfl
@[simp] theorem regPut_replies (s : State) (page off v : Nat) : (regPut s page off v).replies = s.replies := rfl
@[simp] theorem regPut_daybook (s : State) (page off v : Nat) : (regPut s page off v).daybook = s.daybook := rfl
@[simp] theorem regPut_plans (s : State) (page off v : Nat) : (regPut s page off v).plans = s.plans := rfl
@[simp] theorem regPut_parts (s : State) (page off v : Nat) : (regPut s page off v).parts = s.parts := rfl
@[simp] theorem regPut_cache (s : State) (page off v : Nat) : (regPut s page off v).cache = s.cache := rfl
@[simp] theorem regPut_scrub (s : State) (page off v : Nat) : (regPut s page off v).scrub = s.scrub := rfl
@[simp] theorem regPut_refresh (s : State) (page off v : Nat) : (regPut s page off v).refresh = s.refresh := rfl
@[simp] theorem regPut_streams (s : State) (page off v : Nat) : (regPut s page off v).streams = s.streams := rfl
@[simp] theorem regPut_streamSeq (s : State) (page off v : Nat) : (regPut s page off v).streamSeq = s.streamSeq := rfl
@[simp] theorem regPut_tensorDk (s : State) (page off v : Nat) : (regPut s page off v).tensorDk = s.tensorDk := rfl
@[simp] theorem regPut_filters (s : State) (page off v : Nat) : (regPut s page off v).filters = s.filters := rfl
@[simp] theorem regPut_lattice (s : State) (page off v : Nat) : (regPut s page off v).lattice = s.lattice := rfl
@[simp] theorem regPut_sched (s : State) (page off v : Nat) : (regPut s page off v).sched = s.sched := rfl
@[simp] theorem regPut_cores (s : State) (page off v : Nat) : (regPut s page off v).cores = s.cores := rfl
@[simp] theorem regPut_courier (s : State) (page off v : Nat) : (regPut s page off v).courier = s.courier := rfl
@[simp] theorem regPut_safety (s : State) (page off v : Nat) : (regPut s page off v).safety = s.safety := rfl
@[simp] theorem regPut_can (s : State) (page off v : Nat) : (regPut s page off v).can = s.can := rfl
@[simp] theorem regPut_fuses (s : State) (page off v : Nat) : (regPut s page off v).fuses = s.fuses := rfl
@[simp] theorem regPut_nvm (s : State) (page off v : Nat) : (regPut s page off v).nvm = s.nvm := rfl
@[simp] theorem regPut_pins (s : State) (page off v : Nat) : (regPut s page off v).pins = s.pins := rfl
@[simp] theorem regPut_boot (s : State) (page off v : Nat) : (regPut s page off v).boot = s.boot := rfl
@[simp] theorem regPut_ledger (s : State) (page off v : Nat) : (regPut s page off v).ledger = s.ledger := rfl
@[simp] theorem regPut_spare (s : State) (page off v : Nat) : (regPut s page off v).spare = s.spare := rfl
@[simp] theorem regPut_pair (s : State) (page off v : Nat) : (regPut s page off v).pair = s.pair := rfl
@[simp] theorem regPut_lwIndex (s : State) (page off v : Nat) : (regPut s page off v).lwIndex = s.lwIndex := rfl
@[simp] theorem regPut_tapIr (s : State) (page off v : Nat) : (regPut s page off v).tapIr = s.tapIr := rfl
@[simp] theorem regPut_lostFns (s : State) (page off v : Nat) : (regPut s page off v).lostFns = s.lostFns := rfl
@[simp] theorem regPut_outbox (s : State) (page off v : Nat) : (regPut s page off v).outbox = s.outbox := rfl
@[simp] theorem regPut_completion (s : State) (page off v : Nat) : (regPut s page off v).completion = s.completion := rfl
@[simp] theorem regPut_round (s : State) (page off v : Nat) : (regPut s page off v).round = s.round := rfl
@[simp] theorem regPut_firstRound (s : State) (page off v : Nat) : (regPut s page off v).firstRound = s.firstRound := rfl
@[simp] theorem regPut_ord (s : State) (page off v : Nat) : (regPut s page off v).ord = s.ord := rfl
@[simp] theorem regPut_bar2 (s : State) (page off v : Nat) : (regPut s page off v).bar2 = s.bar2 := rfl
@[simp] theorem regPut_parity (s : State) (page off v : Nat) : (regPut s page off v).parity = s.parity := rfl
@[simp] theorem regPut_fifos (s : State) (page off v : Nat) : (regPut s page off v).fifos = s.fifos := rfl
@[simp] theorem regPut_freeCount (s : State) (page off v : Nat) : (regPut s page off v).freeCount = s.freeCount := rfl

/-! `fput` -/

@[simp] theorem fput_pending (s : State) (f : Fld) (v : Nat) : (fput s f v).pending = s.pending := rfl
@[simp] theorem fput_mem (s : State) (f : Fld) (v : Nat) : (fput s f v).mem = s.mem := rfl
@[simp] theorem fput_ecc (s : State) (f : Fld) (v : Nat) : (fput s f v).ecc = s.ecc := rfl
@[simp] theorem fput_host (s : State) (f : Fld) (v : Nat) : (fput s f v).host = s.host := rfl
@[simp] theorem fput_time (s : State) (f : Fld) (v : Nat) : (fput s f v).time = s.time := rfl
@[simp] theorem fput_power (s : State) (f : Fld) (v : Nat) : (fput s f v).power = s.power := rfl
@[simp] theorem fput_chans (s : State) (f : Fld) (v : Nat) : (fput s f v).chans = s.chans := rfl
@[simp] theorem fput_letters (s : State) (f : Fld) (v : Nat) : (fput s f v).letters = s.letters := rfl
@[simp] theorem fput_replies (s : State) (f : Fld) (v : Nat) : (fput s f v).replies = s.replies := rfl
@[simp] theorem fput_daybook (s : State) (f : Fld) (v : Nat) : (fput s f v).daybook = s.daybook := rfl
@[simp] theorem fput_plans (s : State) (f : Fld) (v : Nat) : (fput s f v).plans = s.plans := rfl
@[simp] theorem fput_parts (s : State) (f : Fld) (v : Nat) : (fput s f v).parts = s.parts := rfl
@[simp] theorem fput_cache (s : State) (f : Fld) (v : Nat) : (fput s f v).cache = s.cache := rfl
@[simp] theorem fput_scrub (s : State) (f : Fld) (v : Nat) : (fput s f v).scrub = s.scrub := rfl
@[simp] theorem fput_refresh (s : State) (f : Fld) (v : Nat) : (fput s f v).refresh = s.refresh := rfl
@[simp] theorem fput_streams (s : State) (f : Fld) (v : Nat) : (fput s f v).streams = s.streams := rfl
@[simp] theorem fput_streamSeq (s : State) (f : Fld) (v : Nat) : (fput s f v).streamSeq = s.streamSeq := rfl
@[simp] theorem fput_tensorDk (s : State) (f : Fld) (v : Nat) : (fput s f v).tensorDk = s.tensorDk := rfl
@[simp] theorem fput_filters (s : State) (f : Fld) (v : Nat) : (fput s f v).filters = s.filters := rfl
@[simp] theorem fput_lattice (s : State) (f : Fld) (v : Nat) : (fput s f v).lattice = s.lattice := rfl
@[simp] theorem fput_sched (s : State) (f : Fld) (v : Nat) : (fput s f v).sched = s.sched := rfl
@[simp] theorem fput_cores (s : State) (f : Fld) (v : Nat) : (fput s f v).cores = s.cores := rfl
@[simp] theorem fput_courier (s : State) (f : Fld) (v : Nat) : (fput s f v).courier = s.courier := rfl
@[simp] theorem fput_safety (s : State) (f : Fld) (v : Nat) : (fput s f v).safety = s.safety := rfl
@[simp] theorem fput_can (s : State) (f : Fld) (v : Nat) : (fput s f v).can = s.can := rfl
@[simp] theorem fput_fuses (s : State) (f : Fld) (v : Nat) : (fput s f v).fuses = s.fuses := rfl
@[simp] theorem fput_nvm (s : State) (f : Fld) (v : Nat) : (fput s f v).nvm = s.nvm := rfl
@[simp] theorem fput_pins (s : State) (f : Fld) (v : Nat) : (fput s f v).pins = s.pins := rfl
@[simp] theorem fput_boot (s : State) (f : Fld) (v : Nat) : (fput s f v).boot = s.boot := rfl
@[simp] theorem fput_ledger (s : State) (f : Fld) (v : Nat) : (fput s f v).ledger = s.ledger := rfl
@[simp] theorem fput_spare (s : State) (f : Fld) (v : Nat) : (fput s f v).spare = s.spare := rfl
@[simp] theorem fput_pair (s : State) (f : Fld) (v : Nat) : (fput s f v).pair = s.pair := rfl
@[simp] theorem fput_lwIndex (s : State) (f : Fld) (v : Nat) : (fput s f v).lwIndex = s.lwIndex := rfl
@[simp] theorem fput_tapIr (s : State) (f : Fld) (v : Nat) : (fput s f v).tapIr = s.tapIr := rfl
@[simp] theorem fput_lostFns (s : State) (f : Fld) (v : Nat) : (fput s f v).lostFns = s.lostFns := rfl
@[simp] theorem fput_outbox (s : State) (f : Fld) (v : Nat) : (fput s f v).outbox = s.outbox := rfl
@[simp] theorem fput_completion (s : State) (f : Fld) (v : Nat) : (fput s f v).completion = s.completion := rfl
@[simp] theorem fput_round (s : State) (f : Fld) (v : Nat) : (fput s f v).round = s.round := rfl
@[simp] theorem fput_firstRound (s : State) (f : Fld) (v : Nat) : (fput s f v).firstRound = s.firstRound := rfl
@[simp] theorem fput_ord (s : State) (f : Fld) (v : Nat) : (fput s f v).ord = s.ord := rfl
@[simp] theorem fput_bar2 (s : State) (f : Fld) (v : Nat) : (fput s f v).bar2 = s.bar2 := rfl
@[simp] theorem fput_parity (s : State) (f : Fld) (v : Nat) : (fput s f v).parity = s.parity := rfl
@[simp] theorem fput_fifos (s : State) (f : Fld) (v : Nat) : (fput s f v).fifos = s.fifos := rfl
@[simp] theorem fput_freeCount (s : State) (f : Fld) (v : Nat) : (fput s f v).freeCount = s.freeCount := rfl

/-! `fadd` -/

@[simp] theorem fadd_pending (s : State) (f : Fld) (v : Nat) : (fadd s f v).pending = s.pending := rfl
@[simp] theorem fadd_mem (s : State) (f : Fld) (v : Nat) : (fadd s f v).mem = s.mem := rfl
@[simp] theorem fadd_ecc (s : State) (f : Fld) (v : Nat) : (fadd s f v).ecc = s.ecc := rfl
@[simp] theorem fadd_host (s : State) (f : Fld) (v : Nat) : (fadd s f v).host = s.host := rfl
@[simp] theorem fadd_time (s : State) (f : Fld) (v : Nat) : (fadd s f v).time = s.time := rfl
@[simp] theorem fadd_power (s : State) (f : Fld) (v : Nat) : (fadd s f v).power = s.power := rfl
@[simp] theorem fadd_chans (s : State) (f : Fld) (v : Nat) : (fadd s f v).chans = s.chans := rfl
@[simp] theorem fadd_letters (s : State) (f : Fld) (v : Nat) : (fadd s f v).letters = s.letters := rfl
@[simp] theorem fadd_replies (s : State) (f : Fld) (v : Nat) : (fadd s f v).replies = s.replies := rfl
@[simp] theorem fadd_daybook (s : State) (f : Fld) (v : Nat) : (fadd s f v).daybook = s.daybook := rfl
@[simp] theorem fadd_plans (s : State) (f : Fld) (v : Nat) : (fadd s f v).plans = s.plans := rfl
@[simp] theorem fadd_parts (s : State) (f : Fld) (v : Nat) : (fadd s f v).parts = s.parts := rfl
@[simp] theorem fadd_cache (s : State) (f : Fld) (v : Nat) : (fadd s f v).cache = s.cache := rfl
@[simp] theorem fadd_scrub (s : State) (f : Fld) (v : Nat) : (fadd s f v).scrub = s.scrub := rfl
@[simp] theorem fadd_refresh (s : State) (f : Fld) (v : Nat) : (fadd s f v).refresh = s.refresh := rfl
@[simp] theorem fadd_streams (s : State) (f : Fld) (v : Nat) : (fadd s f v).streams = s.streams := rfl
@[simp] theorem fadd_streamSeq (s : State) (f : Fld) (v : Nat) : (fadd s f v).streamSeq = s.streamSeq := rfl
@[simp] theorem fadd_tensorDk (s : State) (f : Fld) (v : Nat) : (fadd s f v).tensorDk = s.tensorDk := rfl
@[simp] theorem fadd_filters (s : State) (f : Fld) (v : Nat) : (fadd s f v).filters = s.filters := rfl
@[simp] theorem fadd_lattice (s : State) (f : Fld) (v : Nat) : (fadd s f v).lattice = s.lattice := rfl
@[simp] theorem fadd_sched (s : State) (f : Fld) (v : Nat) : (fadd s f v).sched = s.sched := rfl
@[simp] theorem fadd_cores (s : State) (f : Fld) (v : Nat) : (fadd s f v).cores = s.cores := rfl
@[simp] theorem fadd_courier (s : State) (f : Fld) (v : Nat) : (fadd s f v).courier = s.courier := rfl
@[simp] theorem fadd_safety (s : State) (f : Fld) (v : Nat) : (fadd s f v).safety = s.safety := rfl
@[simp] theorem fadd_can (s : State) (f : Fld) (v : Nat) : (fadd s f v).can = s.can := rfl
@[simp] theorem fadd_fuses (s : State) (f : Fld) (v : Nat) : (fadd s f v).fuses = s.fuses := rfl
@[simp] theorem fadd_nvm (s : State) (f : Fld) (v : Nat) : (fadd s f v).nvm = s.nvm := rfl
@[simp] theorem fadd_pins (s : State) (f : Fld) (v : Nat) : (fadd s f v).pins = s.pins := rfl
@[simp] theorem fadd_boot (s : State) (f : Fld) (v : Nat) : (fadd s f v).boot = s.boot := rfl
@[simp] theorem fadd_ledger (s : State) (f : Fld) (v : Nat) : (fadd s f v).ledger = s.ledger := rfl
@[simp] theorem fadd_spare (s : State) (f : Fld) (v : Nat) : (fadd s f v).spare = s.spare := rfl
@[simp] theorem fadd_pair (s : State) (f : Fld) (v : Nat) : (fadd s f v).pair = s.pair := rfl
@[simp] theorem fadd_lwIndex (s : State) (f : Fld) (v : Nat) : (fadd s f v).lwIndex = s.lwIndex := rfl
@[simp] theorem fadd_tapIr (s : State) (f : Fld) (v : Nat) : (fadd s f v).tapIr = s.tapIr := rfl
@[simp] theorem fadd_lostFns (s : State) (f : Fld) (v : Nat) : (fadd s f v).lostFns = s.lostFns := rfl
@[simp] theorem fadd_outbox (s : State) (f : Fld) (v : Nat) : (fadd s f v).outbox = s.outbox := rfl
@[simp] theorem fadd_completion (s : State) (f : Fld) (v : Nat) : (fadd s f v).completion = s.completion := rfl
@[simp] theorem fadd_round (s : State) (f : Fld) (v : Nat) : (fadd s f v).round = s.round := rfl
@[simp] theorem fadd_firstRound (s : State) (f : Fld) (v : Nat) : (fadd s f v).firstRound = s.firstRound := rfl
@[simp] theorem fadd_ord (s : State) (f : Fld) (v : Nat) : (fadd s f v).ord = s.ord := rfl
@[simp] theorem fadd_bar2 (s : State) (f : Fld) (v : Nat) : (fadd s f v).bar2 = s.bar2 := rfl
@[simp] theorem fadd_parity (s : State) (f : Fld) (v : Nat) : (fadd s f v).parity = s.parity := rfl
@[simp] theorem fadd_fifos (s : State) (f : Fld) (v : Nat) : (fadd s f v).fifos = s.fifos := rfl
@[simp] theorem fadd_freeCount (s : State) (f : Fld) (v : Nat) : (fadd s f v).freeCount = s.freeCount := rfl

/-! `send` -/

@[simp] theorem send_pending (s : State) (m : Out) : (send s m).pending = s.pending := rfl
@[simp] theorem send_regs (s : State) (m : Out) : (send s m).regs = s.regs := rfl
@[simp] theorem send_mem (s : State) (m : Out) : (send s m).mem = s.mem := rfl
@[simp] theorem send_ecc (s : State) (m : Out) : (send s m).ecc = s.ecc := rfl
@[simp] theorem send_host (s : State) (m : Out) : (send s m).host = s.host := rfl
@[simp] theorem send_time (s : State) (m : Out) : (send s m).time = s.time := rfl
@[simp] theorem send_power (s : State) (m : Out) : (send s m).power = s.power := rfl
@[simp] theorem send_chans (s : State) (m : Out) : (send s m).chans = s.chans := rfl
@[simp] theorem send_letters (s : State) (m : Out) : (send s m).letters = s.letters := rfl
@[simp] theorem send_replies (s : State) (m : Out) : (send s m).replies = s.replies := rfl
@[simp] theorem send_daybook (s : State) (m : Out) : (send s m).daybook = s.daybook := rfl
@[simp] theorem send_plans (s : State) (m : Out) : (send s m).plans = s.plans := rfl
@[simp] theorem send_parts (s : State) (m : Out) : (send s m).parts = s.parts := rfl
@[simp] theorem send_cache (s : State) (m : Out) : (send s m).cache = s.cache := rfl
@[simp] theorem send_scrub (s : State) (m : Out) : (send s m).scrub = s.scrub := rfl
@[simp] theorem send_refresh (s : State) (m : Out) : (send s m).refresh = s.refresh := rfl
@[simp] theorem send_streams (s : State) (m : Out) : (send s m).streams = s.streams := rfl
@[simp] theorem send_streamSeq (s : State) (m : Out) : (send s m).streamSeq = s.streamSeq := rfl
@[simp] theorem send_tensorDk (s : State) (m : Out) : (send s m).tensorDk = s.tensorDk := rfl
@[simp] theorem send_filters (s : State) (m : Out) : (send s m).filters = s.filters := rfl
@[simp] theorem send_lattice (s : State) (m : Out) : (send s m).lattice = s.lattice := rfl
@[simp] theorem send_sched (s : State) (m : Out) : (send s m).sched = s.sched := rfl
@[simp] theorem send_cores (s : State) (m : Out) : (send s m).cores = s.cores := rfl
@[simp] theorem send_courier (s : State) (m : Out) : (send s m).courier = s.courier := rfl
@[simp] theorem send_safety (s : State) (m : Out) : (send s m).safety = s.safety := rfl
@[simp] theorem send_can (s : State) (m : Out) : (send s m).can = s.can := rfl
@[simp] theorem send_fuses (s : State) (m : Out) : (send s m).fuses = s.fuses := rfl
@[simp] theorem send_nvm (s : State) (m : Out) : (send s m).nvm = s.nvm := rfl
@[simp] theorem send_pins (s : State) (m : Out) : (send s m).pins = s.pins := rfl
@[simp] theorem send_boot (s : State) (m : Out) : (send s m).boot = s.boot := rfl
@[simp] theorem send_ledger (s : State) (m : Out) : (send s m).ledger = s.ledger := rfl
@[simp] theorem send_spare (s : State) (m : Out) : (send s m).spare = s.spare := rfl
@[simp] theorem send_pair (s : State) (m : Out) : (send s m).pair = s.pair := rfl
@[simp] theorem send_lwIndex (s : State) (m : Out) : (send s m).lwIndex = s.lwIndex := rfl
@[simp] theorem send_tapIr (s : State) (m : Out) : (send s m).tapIr = s.tapIr := rfl
@[simp] theorem send_lostFns (s : State) (m : Out) : (send s m).lostFns = s.lostFns := rfl
@[simp] theorem send_completion (s : State) (m : Out) : (send s m).completion = s.completion := rfl
@[simp] theorem send_round (s : State) (m : Out) : (send s m).round = s.round := rfl
@[simp] theorem send_firstRound (s : State) (m : Out) : (send s m).firstRound = s.firstRound := rfl
@[simp] theorem send_ord (s : State) (m : Out) : (send s m).ord = s.ord := rfl
@[simp] theorem send_bar2 (s : State) (m : Out) : (send s m).bar2 = s.bar2 := rfl
@[simp] theorem send_parity (s : State) (m : Out) : (send s m).parity = s.parity := rfl
@[simp] theorem send_fifos (s : State) (m : Out) : (send s m).fifos = s.fifos := rfl
@[simp] theorem send_freeCount (s : State) (m : Out) : (send s m).freeCount = s.freeCount := rfl

/-! `complete` -/

@[simp] theorem complete_pending (s : State) (b : List Byte) : (complete s b).pending = s.pending := rfl
@[simp] theorem complete_regs (s : State) (b : List Byte) : (complete s b).regs = s.regs := rfl
@[simp] theorem complete_mem (s : State) (b : List Byte) : (complete s b).mem = s.mem := rfl
@[simp] theorem complete_ecc (s : State) (b : List Byte) : (complete s b).ecc = s.ecc := rfl
@[simp] theorem complete_host (s : State) (b : List Byte) : (complete s b).host = s.host := rfl
@[simp] theorem complete_time (s : State) (b : List Byte) : (complete s b).time = s.time := rfl
@[simp] theorem complete_power (s : State) (b : List Byte) : (complete s b).power = s.power := rfl
@[simp] theorem complete_chans (s : State) (b : List Byte) : (complete s b).chans = s.chans := rfl
@[simp] theorem complete_letters (s : State) (b : List Byte) : (complete s b).letters = s.letters := rfl
@[simp] theorem complete_replies (s : State) (b : List Byte) : (complete s b).replies = s.replies := rfl
@[simp] theorem complete_daybook (s : State) (b : List Byte) : (complete s b).daybook = s.daybook := rfl
@[simp] theorem complete_plans (s : State) (b : List Byte) : (complete s b).plans = s.plans := rfl
@[simp] theorem complete_parts (s : State) (b : List Byte) : (complete s b).parts = s.parts := rfl
@[simp] theorem complete_cache (s : State) (b : List Byte) : (complete s b).cache = s.cache := rfl
@[simp] theorem complete_scrub (s : State) (b : List Byte) : (complete s b).scrub = s.scrub := rfl
@[simp] theorem complete_refresh (s : State) (b : List Byte) : (complete s b).refresh = s.refresh := rfl
@[simp] theorem complete_streams (s : State) (b : List Byte) : (complete s b).streams = s.streams := rfl
@[simp] theorem complete_streamSeq (s : State) (b : List Byte) : (complete s b).streamSeq = s.streamSeq := rfl
@[simp] theorem complete_tensorDk (s : State) (b : List Byte) : (complete s b).tensorDk = s.tensorDk := rfl
@[simp] theorem complete_filters (s : State) (b : List Byte) : (complete s b).filters = s.filters := rfl
@[simp] theorem complete_lattice (s : State) (b : List Byte) : (complete s b).lattice = s.lattice := rfl
@[simp] theorem complete_sched (s : State) (b : List Byte) : (complete s b).sched = s.sched := rfl
@[simp] theorem complete_cores (s : State) (b : List Byte) : (complete s b).cores = s.cores := rfl
@[simp] theorem complete_courier (s : State) (b : List Byte) : (complete s b).courier = s.courier := rfl
@[simp] theorem complete_safety (s : State) (b : List Byte) : (complete s b).safety = s.safety := rfl
@[simp] theorem complete_can (s : State) (b : List Byte) : (complete s b).can = s.can := rfl
@[simp] theorem complete_fuses (s : State) (b : List Byte) : (complete s b).fuses = s.fuses := rfl
@[simp] theorem complete_nvm (s : State) (b : List Byte) : (complete s b).nvm = s.nvm := rfl
@[simp] theorem complete_pins (s : State) (b : List Byte) : (complete s b).pins = s.pins := rfl
@[simp] theorem complete_boot (s : State) (b : List Byte) : (complete s b).boot = s.boot := rfl
@[simp] theorem complete_ledger (s : State) (b : List Byte) : (complete s b).ledger = s.ledger := rfl
@[simp] theorem complete_spare (s : State) (b : List Byte) : (complete s b).spare = s.spare := rfl
@[simp] theorem complete_pair (s : State) (b : List Byte) : (complete s b).pair = s.pair := rfl
@[simp] theorem complete_lwIndex (s : State) (b : List Byte) : (complete s b).lwIndex = s.lwIndex := rfl
@[simp] theorem complete_tapIr (s : State) (b : List Byte) : (complete s b).tapIr = s.tapIr := rfl
@[simp] theorem complete_lostFns (s : State) (b : List Byte) : (complete s b).lostFns = s.lostFns := rfl
@[simp] theorem complete_outbox (s : State) (b : List Byte) : (complete s b).outbox = s.outbox := rfl
@[simp] theorem complete_round (s : State) (b : List Byte) : (complete s b).round = s.round := rfl
@[simp] theorem complete_firstRound (s : State) (b : List Byte) : (complete s b).firstRound = s.firstRound := rfl
@[simp] theorem complete_ord (s : State) (b : List Byte) : (complete s b).ord = s.ord := rfl
@[simp] theorem complete_bar2 (s : State) (b : List Byte) : (complete s b).bar2 = s.bar2 := rfl
@[simp] theorem complete_parity (s : State) (b : List Byte) : (complete s b).parity = s.parity := rfl
@[simp] theorem complete_fifos (s : State) (b : List Byte) : (complete s b).fifos = s.fifos := rfl
@[simp] theorem complete_freeCount (s : State) (b : List Byte) : (complete s b).freeCount = s.freeCount := rfl

/-! `raiseWith` -/

@[simp] theorem raiseWith_pending (s : State) (c o k p l d : Nat) : (raiseWith s c o k p l d).pending = s.pending := rfl
@[simp] theorem raiseWith_regs (s : State) (c o k p l d : Nat) : (raiseWith s c o k p l d).regs = s.regs := rfl
@[simp] theorem raiseWith_mem (s : State) (c o k p l d : Nat) : (raiseWith s c o k p l d).mem = s.mem := rfl
@[simp] theorem raiseWith_ecc (s : State) (c o k p l d : Nat) : (raiseWith s c o k p l d).ecc = s.ecc := rfl
@[simp] theorem raiseWith_host (s : State) (c o k p l d : Nat) : (raiseWith s c o k p l d).host = s.host := rfl
@[simp] theorem raiseWith_time (s : State) (c o k p l d : Nat) : (raiseWith s c o k p l d).time = s.time := rfl
@[simp] theorem raiseWith_power (s : State) (c o k p l d : Nat) : (raiseWith s c o k p l d).power = s.power := rfl
@[simp] theorem raiseWith_chans (s : State) (c o k p l d : Nat) : (raiseWith s c o k p l d).chans = s.chans := rfl
@[simp] theorem raiseWith_letters (s : State) (c o k p l d : Nat) : (raiseWith s c o k p l d).letters = s.letters := rfl
@[simp] theorem raiseWith_replies (s : State) (c o k p l d : Nat) : (raiseWith s c o k p l d).replies = s.replies := rfl
@[simp] theorem raiseWith_daybook (s : State) (c o k p l d : Nat) : (raiseWith s c o k p l d).daybook = s.daybook := rfl
@[simp] theorem raiseWith_plans (s : State) (c o k p l d : Nat) : (raiseWith s c o k p l d).plans = s.plans := rfl
@[simp] theorem raiseWith_parts (s : State) (c o k p l d : Nat) : (raiseWith s c o k p l d).parts = s.parts := rfl
@[simp] theorem raiseWith_cache (s : State) (c o k p l d : Nat) : (raiseWith s c o k p l d).cache = s.cache := rfl
@[simp] theorem raiseWith_scrub (s : State) (c o k p l d : Nat) : (raiseWith s c o k p l d).scrub = s.scrub := rfl
@[simp] theorem raiseWith_refresh (s : State) (c o k p l d : Nat) : (raiseWith s c o k p l d).refresh = s.refresh := rfl
@[simp] theorem raiseWith_streams (s : State) (c o k p l d : Nat) : (raiseWith s c o k p l d).streams = s.streams := rfl
@[simp] theorem raiseWith_streamSeq (s : State) (c o k p l d : Nat) : (raiseWith s c o k p l d).streamSeq = s.streamSeq := rfl
@[simp] theorem raiseWith_tensorDk (s : State) (c o k p l d : Nat) : (raiseWith s c o k p l d).tensorDk = s.tensorDk := rfl
@[simp] theorem raiseWith_filters (s : State) (c o k p l d : Nat) : (raiseWith s c o k p l d).filters = s.filters := rfl
@[simp] theorem raiseWith_lattice (s : State) (c o k p l d : Nat) : (raiseWith s c o k p l d).lattice = s.lattice := rfl
@[simp] theorem raiseWith_sched (s : State) (c o k p l d : Nat) : (raiseWith s c o k p l d).sched = s.sched := rfl
@[simp] theorem raiseWith_cores (s : State) (c o k p l d : Nat) : (raiseWith s c o k p l d).cores = s.cores := rfl
@[simp] theorem raiseWith_courier (s : State) (c o k p l d : Nat) : (raiseWith s c o k p l d).courier = s.courier := rfl
@[simp] theorem raiseWith_can (s : State) (c o k p l d : Nat) : (raiseWith s c o k p l d).can = s.can := rfl
@[simp] theorem raiseWith_fuses (s : State) (c o k p l d : Nat) : (raiseWith s c o k p l d).fuses = s.fuses := rfl
@[simp] theorem raiseWith_nvm (s : State) (c o k p l d : Nat) : (raiseWith s c o k p l d).nvm = s.nvm := rfl
@[simp] theorem raiseWith_pins (s : State) (c o k p l d : Nat) : (raiseWith s c o k p l d).pins = s.pins := rfl
@[simp] theorem raiseWith_boot (s : State) (c o k p l d : Nat) : (raiseWith s c o k p l d).boot = s.boot := rfl
@[simp] theorem raiseWith_ledger (s : State) (c o k p l d : Nat) : (raiseWith s c o k p l d).ledger = s.ledger := rfl
@[simp] theorem raiseWith_spare (s : State) (c o k p l d : Nat) : (raiseWith s c o k p l d).spare = s.spare := rfl
@[simp] theorem raiseWith_pair (s : State) (c o k p l d : Nat) : (raiseWith s c o k p l d).pair = s.pair := rfl
@[simp] theorem raiseWith_lwIndex (s : State) (c o k p l d : Nat) : (raiseWith s c o k p l d).lwIndex = s.lwIndex := rfl
@[simp] theorem raiseWith_tapIr (s : State) (c o k p l d : Nat) : (raiseWith s c o k p l d).tapIr = s.tapIr := rfl
@[simp] theorem raiseWith_lostFns (s : State) (c o k p l d : Nat) : (raiseWith s c o k p l d).lostFns = s.lostFns := rfl
@[simp] theorem raiseWith_outbox (s : State) (c o k p l d : Nat) : (raiseWith s c o k p l d).outbox = s.outbox := rfl
@[simp] theorem raiseWith_completion (s : State) (c o k p l d : Nat) : (raiseWith s c o k p l d).completion = s.completion := rfl
@[simp] theorem raiseWith_round (s : State) (c o k p l d : Nat) : (raiseWith s c o k p l d).round = s.round := rfl
@[simp] theorem raiseWith_firstRound (s : State) (c o k p l d : Nat) : (raiseWith s c o k p l d).firstRound = s.firstRound := rfl
@[simp] theorem raiseWith_ord (s : State) (c o k p l d : Nat) : (raiseWith s c o k p l d).ord = s.ord := rfl
@[simp] theorem raiseWith_bar2 (s : State) (c o k p l d : Nat) : (raiseWith s c o k p l d).bar2 = s.bar2 := rfl
@[simp] theorem raiseWith_parity (s : State) (c o k p l d : Nat) : (raiseWith s c o k p l d).parity = s.parity := rfl
@[simp] theorem raiseWith_fifos (s : State) (c o k p l d : Nat) : (raiseWith s c o k p l d).fifos = s.fifos := rfl
@[simp] theorem raiseWith_freeCount (s : State) (c o k p l d : Nat) : (raiseWith s c o k p l d).freeCount = s.freeCount := rfl

/-! `raiseAs` -/

@[simp] theorem raiseAs_pending (s : State) (c o k p l d v a : Nat) : (raiseAs s c o k p l d v a).pending = s.pending := rfl
@[simp] theorem raiseAs_regs (s : State) (c o k p l d v a : Nat) : (raiseAs s c o k p l d v a).regs = s.regs := rfl
@[simp] theorem raiseAs_mem (s : State) (c o k p l d v a : Nat) : (raiseAs s c o k p l d v a).mem = s.mem := rfl
@[simp] theorem raiseAs_ecc (s : State) (c o k p l d v a : Nat) : (raiseAs s c o k p l d v a).ecc = s.ecc := rfl
@[simp] theorem raiseAs_host (s : State) (c o k p l d v a : Nat) : (raiseAs s c o k p l d v a).host = s.host := rfl
@[simp] theorem raiseAs_time (s : State) (c o k p l d v a : Nat) : (raiseAs s c o k p l d v a).time = s.time := rfl
@[simp] theorem raiseAs_power (s : State) (c o k p l d v a : Nat) : (raiseAs s c o k p l d v a).power = s.power := rfl
@[simp] theorem raiseAs_chans (s : State) (c o k p l d v a : Nat) : (raiseAs s c o k p l d v a).chans = s.chans := rfl
@[simp] theorem raiseAs_letters (s : State) (c o k p l d v a : Nat) : (raiseAs s c o k p l d v a).letters = s.letters := rfl
@[simp] theorem raiseAs_replies (s : State) (c o k p l d v a : Nat) : (raiseAs s c o k p l d v a).replies = s.replies := rfl
@[simp] theorem raiseAs_daybook (s : State) (c o k p l d v a : Nat) : (raiseAs s c o k p l d v a).daybook = s.daybook := rfl
@[simp] theorem raiseAs_plans (s : State) (c o k p l d v a : Nat) : (raiseAs s c o k p l d v a).plans = s.plans := rfl
@[simp] theorem raiseAs_parts (s : State) (c o k p l d v a : Nat) : (raiseAs s c o k p l d v a).parts = s.parts := rfl
@[simp] theorem raiseAs_cache (s : State) (c o k p l d v a : Nat) : (raiseAs s c o k p l d v a).cache = s.cache := rfl
@[simp] theorem raiseAs_scrub (s : State) (c o k p l d v a : Nat) : (raiseAs s c o k p l d v a).scrub = s.scrub := rfl
@[simp] theorem raiseAs_refresh (s : State) (c o k p l d v a : Nat) : (raiseAs s c o k p l d v a).refresh = s.refresh := rfl
@[simp] theorem raiseAs_streams (s : State) (c o k p l d v a : Nat) : (raiseAs s c o k p l d v a).streams = s.streams := rfl
@[simp] theorem raiseAs_streamSeq (s : State) (c o k p l d v a : Nat) : (raiseAs s c o k p l d v a).streamSeq = s.streamSeq := rfl
@[simp] theorem raiseAs_tensorDk (s : State) (c o k p l d v a : Nat) : (raiseAs s c o k p l d v a).tensorDk = s.tensorDk := rfl
@[simp] theorem raiseAs_filters (s : State) (c o k p l d v a : Nat) : (raiseAs s c o k p l d v a).filters = s.filters := rfl
@[simp] theorem raiseAs_lattice (s : State) (c o k p l d v a : Nat) : (raiseAs s c o k p l d v a).lattice = s.lattice := rfl
@[simp] theorem raiseAs_sched (s : State) (c o k p l d v a : Nat) : (raiseAs s c o k p l d v a).sched = s.sched := rfl
@[simp] theorem raiseAs_cores (s : State) (c o k p l d v a : Nat) : (raiseAs s c o k p l d v a).cores = s.cores := rfl
@[simp] theorem raiseAs_courier (s : State) (c o k p l d v a : Nat) : (raiseAs s c o k p l d v a).courier = s.courier := rfl
@[simp] theorem raiseAs_can (s : State) (c o k p l d v a : Nat) : (raiseAs s c o k p l d v a).can = s.can := rfl
@[simp] theorem raiseAs_fuses (s : State) (c o k p l d v a : Nat) : (raiseAs s c o k p l d v a).fuses = s.fuses := rfl
@[simp] theorem raiseAs_nvm (s : State) (c o k p l d v a : Nat) : (raiseAs s c o k p l d v a).nvm = s.nvm := rfl
@[simp] theorem raiseAs_pins (s : State) (c o k p l d v a : Nat) : (raiseAs s c o k p l d v a).pins = s.pins := rfl
@[simp] theorem raiseAs_boot (s : State) (c o k p l d v a : Nat) : (raiseAs s c o k p l d v a).boot = s.boot := rfl
@[simp] theorem raiseAs_ledger (s : State) (c o k p l d v a : Nat) : (raiseAs s c o k p l d v a).ledger = s.ledger := rfl
@[simp] theorem raiseAs_spare (s : State) (c o k p l d v a : Nat) : (raiseAs s c o k p l d v a).spare = s.spare := rfl
@[simp] theorem raiseAs_pair (s : State) (c o k p l d v a : Nat) : (raiseAs s c o k p l d v a).pair = s.pair := rfl
@[simp] theorem raiseAs_lwIndex (s : State) (c o k p l d v a : Nat) : (raiseAs s c o k p l d v a).lwIndex = s.lwIndex := rfl
@[simp] theorem raiseAs_tapIr (s : State) (c o k p l d v a : Nat) : (raiseAs s c o k p l d v a).tapIr = s.tapIr := rfl
@[simp] theorem raiseAs_lostFns (s : State) (c o k p l d v a : Nat) : (raiseAs s c o k p l d v a).lostFns = s.lostFns := rfl
@[simp] theorem raiseAs_outbox (s : State) (c o k p l d v a : Nat) : (raiseAs s c o k p l d v a).outbox = s.outbox := rfl
@[simp] theorem raiseAs_completion (s : State) (c o k p l d v a : Nat) : (raiseAs s c o k p l d v a).completion = s.completion := rfl
@[simp] theorem raiseAs_round (s : State) (c o k p l d v a : Nat) : (raiseAs s c o k p l d v a).round = s.round := rfl
@[simp] theorem raiseAs_firstRound (s : State) (c o k p l d v a : Nat) : (raiseAs s c o k p l d v a).firstRound = s.firstRound := rfl
@[simp] theorem raiseAs_ord (s : State) (c o k p l d v a : Nat) : (raiseAs s c o k p l d v a).ord = s.ord := rfl
@[simp] theorem raiseAs_bar2 (s : State) (c o k p l d v a : Nat) : (raiseAs s c o k p l d v a).bar2 = s.bar2 := rfl
@[simp] theorem raiseAs_parity (s : State) (c o k p l d v a : Nat) : (raiseAs s c o k p l d v a).parity = s.parity := rfl
@[simp] theorem raiseAs_fifos (s : State) (c o k p l d v a : Nat) : (raiseAs s c o k p l d v a).fifos = s.fifos := rfl
@[simp] theorem raiseAs_freeCount (s : State) (c o k p l d v a : Nat) : (raiseAs s c o k p l d v a).freeCount = s.freeCount := rfl

/-! `raise` -/

@[simp] theorem raise_pending (s : State) (c o k p d : Nat) : (raise s c o k p d).pending = s.pending := rfl
@[simp] theorem raise_regs (s : State) (c o k p d : Nat) : (raise s c o k p d).regs = s.regs := rfl
@[simp] theorem raise_mem (s : State) (c o k p d : Nat) : (raise s c o k p d).mem = s.mem := rfl
@[simp] theorem raise_ecc (s : State) (c o k p d : Nat) : (raise s c o k p d).ecc = s.ecc := rfl
@[simp] theorem raise_host (s : State) (c o k p d : Nat) : (raise s c o k p d).host = s.host := rfl
@[simp] theorem raise_time (s : State) (c o k p d : Nat) : (raise s c o k p d).time = s.time := rfl
@[simp] theorem raise_power (s : State) (c o k p d : Nat) : (raise s c o k p d).power = s.power := rfl
@[simp] theorem raise_chans (s : State) (c o k p d : Nat) : (raise s c o k p d).chans = s.chans := rfl
@[simp] theorem raise_letters (s : State) (c o k p d : Nat) : (raise s c o k p d).letters = s.letters := rfl
@[simp] theorem raise_replies (s : State) (c o k p d : Nat) : (raise s c o k p d).replies = s.replies := rfl
@[simp] theorem raise_daybook (s : State) (c o k p d : Nat) : (raise s c o k p d).daybook = s.daybook := rfl
@[simp] theorem raise_plans (s : State) (c o k p d : Nat) : (raise s c o k p d).plans = s.plans := rfl
@[simp] theorem raise_parts (s : State) (c o k p d : Nat) : (raise s c o k p d).parts = s.parts := rfl
@[simp] theorem raise_cache (s : State) (c o k p d : Nat) : (raise s c o k p d).cache = s.cache := rfl
@[simp] theorem raise_scrub (s : State) (c o k p d : Nat) : (raise s c o k p d).scrub = s.scrub := rfl
@[simp] theorem raise_refresh (s : State) (c o k p d : Nat) : (raise s c o k p d).refresh = s.refresh := rfl
@[simp] theorem raise_streams (s : State) (c o k p d : Nat) : (raise s c o k p d).streams = s.streams := rfl
@[simp] theorem raise_streamSeq (s : State) (c o k p d : Nat) : (raise s c o k p d).streamSeq = s.streamSeq := rfl
@[simp] theorem raise_tensorDk (s : State) (c o k p d : Nat) : (raise s c o k p d).tensorDk = s.tensorDk := rfl
@[simp] theorem raise_filters (s : State) (c o k p d : Nat) : (raise s c o k p d).filters = s.filters := rfl
@[simp] theorem raise_lattice (s : State) (c o k p d : Nat) : (raise s c o k p d).lattice = s.lattice := rfl
@[simp] theorem raise_sched (s : State) (c o k p d : Nat) : (raise s c o k p d).sched = s.sched := rfl
@[simp] theorem raise_cores (s : State) (c o k p d : Nat) : (raise s c o k p d).cores = s.cores := rfl
@[simp] theorem raise_courier (s : State) (c o k p d : Nat) : (raise s c o k p d).courier = s.courier := rfl
@[simp] theorem raise_can (s : State) (c o k p d : Nat) : (raise s c o k p d).can = s.can := rfl
@[simp] theorem raise_fuses (s : State) (c o k p d : Nat) : (raise s c o k p d).fuses = s.fuses := rfl
@[simp] theorem raise_nvm (s : State) (c o k p d : Nat) : (raise s c o k p d).nvm = s.nvm := rfl
@[simp] theorem raise_pins (s : State) (c o k p d : Nat) : (raise s c o k p d).pins = s.pins := rfl
@[simp] theorem raise_boot (s : State) (c o k p d : Nat) : (raise s c o k p d).boot = s.boot := rfl
@[simp] theorem raise_ledger (s : State) (c o k p d : Nat) : (raise s c o k p d).ledger = s.ledger := rfl
@[simp] theorem raise_spare (s : State) (c o k p d : Nat) : (raise s c o k p d).spare = s.spare := rfl
@[simp] theorem raise_pair (s : State) (c o k p d : Nat) : (raise s c o k p d).pair = s.pair := rfl
@[simp] theorem raise_lwIndex (s : State) (c o k p d : Nat) : (raise s c o k p d).lwIndex = s.lwIndex := rfl
@[simp] theorem raise_tapIr (s : State) (c o k p d : Nat) : (raise s c o k p d).tapIr = s.tapIr := rfl
@[simp] theorem raise_lostFns (s : State) (c o k p d : Nat) : (raise s c o k p d).lostFns = s.lostFns := rfl
@[simp] theorem raise_outbox (s : State) (c o k p d : Nat) : (raise s c o k p d).outbox = s.outbox := rfl
@[simp] theorem raise_completion (s : State) (c o k p d : Nat) : (raise s c o k p d).completion = s.completion := rfl
@[simp] theorem raise_round (s : State) (c o k p d : Nat) : (raise s c o k p d).round = s.round := rfl
@[simp] theorem raise_firstRound (s : State) (c o k p d : Nat) : (raise s c o k p d).firstRound = s.firstRound := rfl
@[simp] theorem raise_ord (s : State) (c o k p d : Nat) : (raise s c o k p d).ord = s.ord := rfl
@[simp] theorem raise_bar2 (s : State) (c o k p d : Nat) : (raise s c o k p d).bar2 = s.bar2 := rfl
@[simp] theorem raise_parity (s : State) (c o k p d : Nat) : (raise s c o k p d).parity = s.parity := rfl
@[simp] theorem raise_fifos (s : State) (c o k p d : Nat) : (raise s c o k p d).fifos = s.fifos := rfl
@[simp] theorem raise_freeCount (s : State) (c o k p d : Nat) : (raise s c o k p d).freeCount = s.freeCount := rfl

/-! `mapTasks` -/

@[simp] theorem mapTasks_pending (s : State) (f : Task → Task) : (mapTasks s f).pending = s.pending := rfl
@[simp] theorem mapTasks_regs (s : State) (f : Task → Task) : (mapTasks s f).regs = s.regs := rfl
@[simp] theorem mapTasks_mem (s : State) (f : Task → Task) : (mapTasks s f).mem = s.mem := rfl
@[simp] theorem mapTasks_ecc (s : State) (f : Task → Task) : (mapTasks s f).ecc = s.ecc := rfl
@[simp] theorem mapTasks_host (s : State) (f : Task → Task) : (mapTasks s f).host = s.host := rfl
@[simp] theorem mapTasks_time (s : State) (f : Task → Task) : (mapTasks s f).time = s.time := rfl
@[simp] theorem mapTasks_power (s : State) (f : Task → Task) : (mapTasks s f).power = s.power := rfl
@[simp] theorem mapTasks_chans (s : State) (f : Task → Task) : (mapTasks s f).chans = s.chans := rfl
@[simp] theorem mapTasks_letters (s : State) (f : Task → Task) : (mapTasks s f).letters = s.letters := rfl
@[simp] theorem mapTasks_replies (s : State) (f : Task → Task) : (mapTasks s f).replies = s.replies := rfl
@[simp] theorem mapTasks_daybook (s : State) (f : Task → Task) : (mapTasks s f).daybook = s.daybook := rfl
@[simp] theorem mapTasks_plans (s : State) (f : Task → Task) : (mapTasks s f).plans = s.plans := rfl
@[simp] theorem mapTasks_parts (s : State) (f : Task → Task) : (mapTasks s f).parts = s.parts := rfl
@[simp] theorem mapTasks_cache (s : State) (f : Task → Task) : (mapTasks s f).cache = s.cache := rfl
@[simp] theorem mapTasks_scrub (s : State) (f : Task → Task) : (mapTasks s f).scrub = s.scrub := rfl
@[simp] theorem mapTasks_refresh (s : State) (f : Task → Task) : (mapTasks s f).refresh = s.refresh := rfl
@[simp] theorem mapTasks_streams (s : State) (f : Task → Task) : (mapTasks s f).streams = s.streams := rfl
@[simp] theorem mapTasks_streamSeq (s : State) (f : Task → Task) : (mapTasks s f).streamSeq = s.streamSeq := rfl
@[simp] theorem mapTasks_tensorDk (s : State) (f : Task → Task) : (mapTasks s f).tensorDk = s.tensorDk := rfl
@[simp] theorem mapTasks_filters (s : State) (f : Task → Task) : (mapTasks s f).filters = s.filters := rfl
@[simp] theorem mapTasks_lattice (s : State) (f : Task → Task) : (mapTasks s f).lattice = s.lattice := rfl
@[simp] theorem mapTasks_cores (s : State) (f : Task → Task) : (mapTasks s f).cores = s.cores := rfl
@[simp] theorem mapTasks_courier (s : State) (f : Task → Task) : (mapTasks s f).courier = s.courier := rfl
@[simp] theorem mapTasks_safety (s : State) (f : Task → Task) : (mapTasks s f).safety = s.safety := rfl
@[simp] theorem mapTasks_can (s : State) (f : Task → Task) : (mapTasks s f).can = s.can := rfl
@[simp] theorem mapTasks_fuses (s : State) (f : Task → Task) : (mapTasks s f).fuses = s.fuses := rfl
@[simp] theorem mapTasks_nvm (s : State) (f : Task → Task) : (mapTasks s f).nvm = s.nvm := rfl
@[simp] theorem mapTasks_pins (s : State) (f : Task → Task) : (mapTasks s f).pins = s.pins := rfl
@[simp] theorem mapTasks_boot (s : State) (f : Task → Task) : (mapTasks s f).boot = s.boot := rfl
@[simp] theorem mapTasks_ledger (s : State) (f : Task → Task) : (mapTasks s f).ledger = s.ledger := rfl
@[simp] theorem mapTasks_spare (s : State) (f : Task → Task) : (mapTasks s f).spare = s.spare := rfl
@[simp] theorem mapTasks_pair (s : State) (f : Task → Task) : (mapTasks s f).pair = s.pair := rfl
@[simp] theorem mapTasks_lwIndex (s : State) (f : Task → Task) : (mapTasks s f).lwIndex = s.lwIndex := rfl
@[simp] theorem mapTasks_tapIr (s : State) (f : Task → Task) : (mapTasks s f).tapIr = s.tapIr := rfl
@[simp] theorem mapTasks_lostFns (s : State) (f : Task → Task) : (mapTasks s f).lostFns = s.lostFns := rfl
@[simp] theorem mapTasks_outbox (s : State) (f : Task → Task) : (mapTasks s f).outbox = s.outbox := rfl
@[simp] theorem mapTasks_completion (s : State) (f : Task → Task) : (mapTasks s f).completion = s.completion := rfl
@[simp] theorem mapTasks_round (s : State) (f : Task → Task) : (mapTasks s f).round = s.round := rfl
@[simp] theorem mapTasks_firstRound (s : State) (f : Task → Task) : (mapTasks s f).firstRound = s.firstRound := rfl
@[simp] theorem mapTasks_ord (s : State) (f : Task → Task) : (mapTasks s f).ord = s.ord := rfl
@[simp] theorem mapTasks_bar2 (s : State) (f : Task → Task) : (mapTasks s f).bar2 = s.bar2 := rfl
@[simp] theorem mapTasks_parity (s : State) (f : Task → Task) : (mapTasks s f).parity = s.parity := rfl
@[simp] theorem mapTasks_fifos (s : State) (f : Task → Task) : (mapTasks s f).fifos = s.fifos := rfl
@[simp] theorem mapTasks_freeCount (s : State) (f : Task → Task) : (mapTasks s f).freeCount = s.freeCount := rfl

/-! `memPut` -/

@[simp] theorem memPut_pending (s : State) (a : Nat) (b : List Byte) : (memPut s a b).pending = s.pending := rfl
@[simp] theorem memPut_regs (s : State) (a : Nat) (b : List Byte) : (memPut s a b).regs = s.regs := rfl
@[simp] theorem memPut_ecc (s : State) (a : Nat) (b : List Byte) : (memPut s a b).ecc = s.ecc := rfl
@[simp] theorem memPut_host (s : State) (a : Nat) (b : List Byte) : (memPut s a b).host = s.host := rfl
@[simp] theorem memPut_time (s : State) (a : Nat) (b : List Byte) : (memPut s a b).time = s.time := rfl
@[simp] theorem memPut_power (s : State) (a : Nat) (b : List Byte) : (memPut s a b).power = s.power := rfl
@[simp] theorem memPut_chans (s : State) (a : Nat) (b : List Byte) : (memPut s a b).chans = s.chans := rfl
@[simp] theorem memPut_letters (s : State) (a : Nat) (b : List Byte) : (memPut s a b).letters = s.letters := rfl
@[simp] theorem memPut_replies (s : State) (a : Nat) (b : List Byte) : (memPut s a b).replies = s.replies := rfl
@[simp] theorem memPut_daybook (s : State) (a : Nat) (b : List Byte) : (memPut s a b).daybook = s.daybook := rfl
@[simp] theorem memPut_plans (s : State) (a : Nat) (b : List Byte) : (memPut s a b).plans = s.plans := rfl
@[simp] theorem memPut_parts (s : State) (a : Nat) (b : List Byte) : (memPut s a b).parts = s.parts := rfl
@[simp] theorem memPut_cache (s : State) (a : Nat) (b : List Byte) : (memPut s a b).cache = s.cache := rfl
@[simp] theorem memPut_scrub (s : State) (a : Nat) (b : List Byte) : (memPut s a b).scrub = s.scrub := rfl
@[simp] theorem memPut_refresh (s : State) (a : Nat) (b : List Byte) : (memPut s a b).refresh = s.refresh := rfl
@[simp] theorem memPut_streams (s : State) (a : Nat) (b : List Byte) : (memPut s a b).streams = s.streams := rfl
@[simp] theorem memPut_streamSeq (s : State) (a : Nat) (b : List Byte) : (memPut s a b).streamSeq = s.streamSeq := rfl
@[simp] theorem memPut_tensorDk (s : State) (a : Nat) (b : List Byte) : (memPut s a b).tensorDk = s.tensorDk := rfl
@[simp] theorem memPut_filters (s : State) (a : Nat) (b : List Byte) : (memPut s a b).filters = s.filters := rfl
@[simp] theorem memPut_lattice (s : State) (a : Nat) (b : List Byte) : (memPut s a b).lattice = s.lattice := rfl
@[simp] theorem memPut_sched (s : State) (a : Nat) (b : List Byte) : (memPut s a b).sched = s.sched := rfl
@[simp] theorem memPut_cores (s : State) (a : Nat) (b : List Byte) : (memPut s a b).cores = s.cores := rfl
@[simp] theorem memPut_courier (s : State) (a : Nat) (b : List Byte) : (memPut s a b).courier = s.courier := rfl
@[simp] theorem memPut_safety (s : State) (a : Nat) (b : List Byte) : (memPut s a b).safety = s.safety := rfl
@[simp] theorem memPut_can (s : State) (a : Nat) (b : List Byte) : (memPut s a b).can = s.can := rfl
@[simp] theorem memPut_fuses (s : State) (a : Nat) (b : List Byte) : (memPut s a b).fuses = s.fuses := rfl
@[simp] theorem memPut_nvm (s : State) (a : Nat) (b : List Byte) : (memPut s a b).nvm = s.nvm := rfl
@[simp] theorem memPut_pins (s : State) (a : Nat) (b : List Byte) : (memPut s a b).pins = s.pins := rfl
@[simp] theorem memPut_boot (s : State) (a : Nat) (b : List Byte) : (memPut s a b).boot = s.boot := rfl
@[simp] theorem memPut_ledger (s : State) (a : Nat) (b : List Byte) : (memPut s a b).ledger = s.ledger := rfl
@[simp] theorem memPut_spare (s : State) (a : Nat) (b : List Byte) : (memPut s a b).spare = s.spare := rfl
@[simp] theorem memPut_pair (s : State) (a : Nat) (b : List Byte) : (memPut s a b).pair = s.pair := rfl
@[simp] theorem memPut_lwIndex (s : State) (a : Nat) (b : List Byte) : (memPut s a b).lwIndex = s.lwIndex := rfl
@[simp] theorem memPut_tapIr (s : State) (a : Nat) (b : List Byte) : (memPut s a b).tapIr = s.tapIr := rfl
@[simp] theorem memPut_lostFns (s : State) (a : Nat) (b : List Byte) : (memPut s a b).lostFns = s.lostFns := rfl
@[simp] theorem memPut_outbox (s : State) (a : Nat) (b : List Byte) : (memPut s a b).outbox = s.outbox := rfl
@[simp] theorem memPut_completion (s : State) (a : Nat) (b : List Byte) : (memPut s a b).completion = s.completion := rfl
@[simp] theorem memPut_round (s : State) (a : Nat) (b : List Byte) : (memPut s a b).round = s.round := rfl
@[simp] theorem memPut_firstRound (s : State) (a : Nat) (b : List Byte) : (memPut s a b).firstRound = s.firstRound := rfl
@[simp] theorem memPut_ord (s : State) (a : Nat) (b : List Byte) : (memPut s a b).ord = s.ord := rfl
@[simp] theorem memPut_bar2 (s : State) (a : Nat) (b : List Byte) : (memPut s a b).bar2 = s.bar2 := rfl
@[simp] theorem memPut_parity (s : State) (a : Nat) (b : List Byte) : (memPut s a b).parity = s.parity := rfl
@[simp] theorem memPut_fifos (s : State) (a : Nat) (b : List Byte) : (memPut s a b).fifos = s.fifos := rfl
@[simp] theorem memPut_freeCount (s : State) (a : Nat) (b : List Byte) : (memPut s a b).freeCount = s.freeCount := rfl

/-! `hostPut` -/

@[simp] theorem hostPut_pending (s : State) (a : Nat) (b : List Byte) : (hostPut s a b).pending = s.pending := rfl
@[simp] theorem hostPut_regs (s : State) (a : Nat) (b : List Byte) : (hostPut s a b).regs = s.regs := rfl
@[simp] theorem hostPut_mem (s : State) (a : Nat) (b : List Byte) : (hostPut s a b).mem = s.mem := rfl
@[simp] theorem hostPut_ecc (s : State) (a : Nat) (b : List Byte) : (hostPut s a b).ecc = s.ecc := rfl
@[simp] theorem hostPut_time (s : State) (a : Nat) (b : List Byte) : (hostPut s a b).time = s.time := rfl
@[simp] theorem hostPut_power (s : State) (a : Nat) (b : List Byte) : (hostPut s a b).power = s.power := rfl
@[simp] theorem hostPut_chans (s : State) (a : Nat) (b : List Byte) : (hostPut s a b).chans = s.chans := rfl
@[simp] theorem hostPut_letters (s : State) (a : Nat) (b : List Byte) : (hostPut s a b).letters = s.letters := rfl
@[simp] theorem hostPut_replies (s : State) (a : Nat) (b : List Byte) : (hostPut s a b).replies = s.replies := rfl
@[simp] theorem hostPut_daybook (s : State) (a : Nat) (b : List Byte) : (hostPut s a b).daybook = s.daybook := rfl
@[simp] theorem hostPut_plans (s : State) (a : Nat) (b : List Byte) : (hostPut s a b).plans = s.plans := rfl
@[simp] theorem hostPut_parts (s : State) (a : Nat) (b : List Byte) : (hostPut s a b).parts = s.parts := rfl
@[simp] theorem hostPut_cache (s : State) (a : Nat) (b : List Byte) : (hostPut s a b).cache = s.cache := rfl
@[simp] theorem hostPut_scrub (s : State) (a : Nat) (b : List Byte) : (hostPut s a b).scrub = s.scrub := rfl
@[simp] theorem hostPut_refresh (s : State) (a : Nat) (b : List Byte) : (hostPut s a b).refresh = s.refresh := rfl
@[simp] theorem hostPut_streams (s : State) (a : Nat) (b : List Byte) : (hostPut s a b).streams = s.streams := rfl
@[simp] theorem hostPut_streamSeq (s : State) (a : Nat) (b : List Byte) : (hostPut s a b).streamSeq = s.streamSeq := rfl
@[simp] theorem hostPut_tensorDk (s : State) (a : Nat) (b : List Byte) : (hostPut s a b).tensorDk = s.tensorDk := rfl
@[simp] theorem hostPut_filters (s : State) (a : Nat) (b : List Byte) : (hostPut s a b).filters = s.filters := rfl
@[simp] theorem hostPut_lattice (s : State) (a : Nat) (b : List Byte) : (hostPut s a b).lattice = s.lattice := rfl
@[simp] theorem hostPut_sched (s : State) (a : Nat) (b : List Byte) : (hostPut s a b).sched = s.sched := rfl
@[simp] theorem hostPut_cores (s : State) (a : Nat) (b : List Byte) : (hostPut s a b).cores = s.cores := rfl
@[simp] theorem hostPut_courier (s : State) (a : Nat) (b : List Byte) : (hostPut s a b).courier = s.courier := rfl
@[simp] theorem hostPut_safety (s : State) (a : Nat) (b : List Byte) : (hostPut s a b).safety = s.safety := rfl
@[simp] theorem hostPut_can (s : State) (a : Nat) (b : List Byte) : (hostPut s a b).can = s.can := rfl
@[simp] theorem hostPut_fuses (s : State) (a : Nat) (b : List Byte) : (hostPut s a b).fuses = s.fuses := rfl
@[simp] theorem hostPut_nvm (s : State) (a : Nat) (b : List Byte) : (hostPut s a b).nvm = s.nvm := rfl
@[simp] theorem hostPut_pins (s : State) (a : Nat) (b : List Byte) : (hostPut s a b).pins = s.pins := rfl
@[simp] theorem hostPut_boot (s : State) (a : Nat) (b : List Byte) : (hostPut s a b).boot = s.boot := rfl
@[simp] theorem hostPut_ledger (s : State) (a : Nat) (b : List Byte) : (hostPut s a b).ledger = s.ledger := rfl
@[simp] theorem hostPut_spare (s : State) (a : Nat) (b : List Byte) : (hostPut s a b).spare = s.spare := rfl
@[simp] theorem hostPut_pair (s : State) (a : Nat) (b : List Byte) : (hostPut s a b).pair = s.pair := rfl
@[simp] theorem hostPut_lwIndex (s : State) (a : Nat) (b : List Byte) : (hostPut s a b).lwIndex = s.lwIndex := rfl
@[simp] theorem hostPut_tapIr (s : State) (a : Nat) (b : List Byte) : (hostPut s a b).tapIr = s.tapIr := rfl
@[simp] theorem hostPut_lostFns (s : State) (a : Nat) (b : List Byte) : (hostPut s a b).lostFns = s.lostFns := rfl
@[simp] theorem hostPut_outbox (s : State) (a : Nat) (b : List Byte) : (hostPut s a b).outbox = s.outbox := rfl
@[simp] theorem hostPut_completion (s : State) (a : Nat) (b : List Byte) : (hostPut s a b).completion = s.completion := rfl
@[simp] theorem hostPut_round (s : State) (a : Nat) (b : List Byte) : (hostPut s a b).round = s.round := rfl
@[simp] theorem hostPut_firstRound (s : State) (a : Nat) (b : List Byte) : (hostPut s a b).firstRound = s.firstRound := rfl
@[simp] theorem hostPut_ord (s : State) (a : Nat) (b : List Byte) : (hostPut s a b).ord = s.ord := rfl
@[simp] theorem hostPut_bar2 (s : State) (a : Nat) (b : List Byte) : (hostPut s a b).bar2 = s.bar2 := rfl
@[simp] theorem hostPut_parity (s : State) (a : Nat) (b : List Byte) : (hostPut s a b).parity = s.parity := rfl
@[simp] theorem hostPut_fifos (s : State) (a : Nat) (b : List Byte) : (hostPut s a b).fifos = s.fifos := rfl
@[simp] theorem hostPut_freeCount (s : State) (a : Nat) (b : List Byte) : (hostPut s a b).freeCount = s.freeCount := rfl

/-! `ledgerSet` -/

@[simp] theorem ledgerSet_pending (s : State) (c i : Nat) (v : List Nat) : (ledgerSet s c i v).pending = s.pending := rfl
@[simp] theorem ledgerSet_regs (s : State) (c i : Nat) (v : List Nat) : (ledgerSet s c i v).regs = s.regs := rfl
@[simp] theorem ledgerSet_mem (s : State) (c i : Nat) (v : List Nat) : (ledgerSet s c i v).mem = s.mem := rfl
@[simp] theorem ledgerSet_ecc (s : State) (c i : Nat) (v : List Nat) : (ledgerSet s c i v).ecc = s.ecc := rfl
@[simp] theorem ledgerSet_host (s : State) (c i : Nat) (v : List Nat) : (ledgerSet s c i v).host = s.host := rfl
@[simp] theorem ledgerSet_time (s : State) (c i : Nat) (v : List Nat) : (ledgerSet s c i v).time = s.time := rfl
@[simp] theorem ledgerSet_power (s : State) (c i : Nat) (v : List Nat) : (ledgerSet s c i v).power = s.power := rfl
@[simp] theorem ledgerSet_chans (s : State) (c i : Nat) (v : List Nat) : (ledgerSet s c i v).chans = s.chans := rfl
@[simp] theorem ledgerSet_letters (s : State) (c i : Nat) (v : List Nat) : (ledgerSet s c i v).letters = s.letters := rfl
@[simp] theorem ledgerSet_replies (s : State) (c i : Nat) (v : List Nat) : (ledgerSet s c i v).replies = s.replies := rfl
@[simp] theorem ledgerSet_daybook (s : State) (c i : Nat) (v : List Nat) : (ledgerSet s c i v).daybook = s.daybook := rfl
@[simp] theorem ledgerSet_plans (s : State) (c i : Nat) (v : List Nat) : (ledgerSet s c i v).plans = s.plans := rfl
@[simp] theorem ledgerSet_parts (s : State) (c i : Nat) (v : List Nat) : (ledgerSet s c i v).parts = s.parts := rfl
@[simp] theorem ledgerSet_cache (s : State) (c i : Nat) (v : List Nat) : (ledgerSet s c i v).cache = s.cache := rfl
@[simp] theorem ledgerSet_scrub (s : State) (c i : Nat) (v : List Nat) : (ledgerSet s c i v).scrub = s.scrub := rfl
@[simp] theorem ledgerSet_refresh (s : State) (c i : Nat) (v : List Nat) : (ledgerSet s c i v).refresh = s.refresh := rfl
@[simp] theorem ledgerSet_streams (s : State) (c i : Nat) (v : List Nat) : (ledgerSet s c i v).streams = s.streams := rfl
@[simp] theorem ledgerSet_streamSeq (s : State) (c i : Nat) (v : List Nat) : (ledgerSet s c i v).streamSeq = s.streamSeq := rfl
@[simp] theorem ledgerSet_tensorDk (s : State) (c i : Nat) (v : List Nat) : (ledgerSet s c i v).tensorDk = s.tensorDk := rfl
@[simp] theorem ledgerSet_filters (s : State) (c i : Nat) (v : List Nat) : (ledgerSet s c i v).filters = s.filters := rfl
@[simp] theorem ledgerSet_lattice (s : State) (c i : Nat) (v : List Nat) : (ledgerSet s c i v).lattice = s.lattice := rfl
@[simp] theorem ledgerSet_sched (s : State) (c i : Nat) (v : List Nat) : (ledgerSet s c i v).sched = s.sched := rfl
@[simp] theorem ledgerSet_cores (s : State) (c i : Nat) (v : List Nat) : (ledgerSet s c i v).cores = s.cores := rfl
@[simp] theorem ledgerSet_courier (s : State) (c i : Nat) (v : List Nat) : (ledgerSet s c i v).courier = s.courier := rfl
@[simp] theorem ledgerSet_safety (s : State) (c i : Nat) (v : List Nat) : (ledgerSet s c i v).safety = s.safety := rfl
@[simp] theorem ledgerSet_can (s : State) (c i : Nat) (v : List Nat) : (ledgerSet s c i v).can = s.can := rfl
@[simp] theorem ledgerSet_fuses (s : State) (c i : Nat) (v : List Nat) : (ledgerSet s c i v).fuses = s.fuses := rfl
@[simp] theorem ledgerSet_nvm (s : State) (c i : Nat) (v : List Nat) : (ledgerSet s c i v).nvm = s.nvm := rfl
@[simp] theorem ledgerSet_pins (s : State) (c i : Nat) (v : List Nat) : (ledgerSet s c i v).pins = s.pins := rfl
@[simp] theorem ledgerSet_boot (s : State) (c i : Nat) (v : List Nat) : (ledgerSet s c i v).boot = s.boot := rfl
@[simp] theorem ledgerSet_spare (s : State) (c i : Nat) (v : List Nat) : (ledgerSet s c i v).spare = s.spare := rfl
@[simp] theorem ledgerSet_pair (s : State) (c i : Nat) (v : List Nat) : (ledgerSet s c i v).pair = s.pair := rfl
@[simp] theorem ledgerSet_lwIndex (s : State) (c i : Nat) (v : List Nat) : (ledgerSet s c i v).lwIndex = s.lwIndex := rfl
@[simp] theorem ledgerSet_tapIr (s : State) (c i : Nat) (v : List Nat) : (ledgerSet s c i v).tapIr = s.tapIr := rfl
@[simp] theorem ledgerSet_lostFns (s : State) (c i : Nat) (v : List Nat) : (ledgerSet s c i v).lostFns = s.lostFns := rfl
@[simp] theorem ledgerSet_outbox (s : State) (c i : Nat) (v : List Nat) : (ledgerSet s c i v).outbox = s.outbox := rfl
@[simp] theorem ledgerSet_completion (s : State) (c i : Nat) (v : List Nat) : (ledgerSet s c i v).completion = s.completion := rfl
@[simp] theorem ledgerSet_round (s : State) (c i : Nat) (v : List Nat) : (ledgerSet s c i v).round = s.round := rfl
@[simp] theorem ledgerSet_firstRound (s : State) (c i : Nat) (v : List Nat) : (ledgerSet s c i v).firstRound = s.firstRound := rfl
@[simp] theorem ledgerSet_ord (s : State) (c i : Nat) (v : List Nat) : (ledgerSet s c i v).ord = s.ord := rfl
@[simp] theorem ledgerSet_bar2 (s : State) (c i : Nat) (v : List Nat) : (ledgerSet s c i v).bar2 = s.bar2 := rfl
@[simp] theorem ledgerSet_parity (s : State) (c i : Nat) (v : List Nat) : (ledgerSet s c i v).parity = s.parity := rfl
@[simp] theorem ledgerSet_fifos (s : State) (c i : Nat) (v : List Nat) : (ledgerSet s c i v).fifos = s.fifos := rfl
@[simp] theorem ledgerSet_freeCount (s : State) (c i : Nat) (v : List Nat) : (ledgerSet s c i v).freeCount = s.freeCount := rfl

/-! `ledgerAdd` -/

@[simp] theorem ledgerAdd_pending (s : State) (c i w k : Nat) : (ledgerAdd s c i w k).pending = s.pending := rfl
@[simp] theorem ledgerAdd_regs (s : State) (c i w k : Nat) : (ledgerAdd s c i w k).regs = s.regs := rfl
@[simp] theorem ledgerAdd_mem (s : State) (c i w k : Nat) : (ledgerAdd s c i w k).mem = s.mem := rfl
@[simp] theorem ledgerAdd_ecc (s : State) (c i w k : Nat) : (ledgerAdd s c i w k).ecc = s.ecc := rfl
@[simp] theorem ledgerAdd_host (s : State) (c i w k : Nat) : (ledgerAdd s c i w k).host = s.host := rfl
@[simp] theorem ledgerAdd_time (s : State) (c i w k : Nat) : (ledgerAdd s c i w k).time = s.time := rfl
@[simp] theorem ledgerAdd_power (s : State) (c i w k : Nat) : (ledgerAdd s c i w k).power = s.power := rfl
@[simp] theorem ledgerAdd_chans (s : State) (c i w k : Nat) : (ledgerAdd s c i w k).chans = s.chans := rfl
@[simp] theorem ledgerAdd_letters (s : State) (c i w k : Nat) : (ledgerAdd s c i w k).letters = s.letters := rfl
@[simp] theorem ledgerAdd_replies (s : State) (c i w k : Nat) : (ledgerAdd s c i w k).replies = s.replies := rfl
@[simp] theorem ledgerAdd_daybook (s : State) (c i w k : Nat) : (ledgerAdd s c i w k).daybook = s.daybook := rfl
@[simp] theorem ledgerAdd_plans (s : State) (c i w k : Nat) : (ledgerAdd s c i w k).plans = s.plans := rfl
@[simp] theorem ledgerAdd_parts (s : State) (c i w k : Nat) : (ledgerAdd s c i w k).parts = s.parts := rfl
@[simp] theorem ledgerAdd_cache (s : State) (c i w k : Nat) : (ledgerAdd s c i w k).cache = s.cache := rfl
@[simp] theorem ledgerAdd_scrub (s : State) (c i w k : Nat) : (ledgerAdd s c i w k).scrub = s.scrub := rfl
@[simp] theorem ledgerAdd_refresh (s : State) (c i w k : Nat) : (ledgerAdd s c i w k).refresh = s.refresh := rfl
@[simp] theorem ledgerAdd_streams (s : State) (c i w k : Nat) : (ledgerAdd s c i w k).streams = s.streams := rfl
@[simp] theorem ledgerAdd_streamSeq (s : State) (c i w k : Nat) : (ledgerAdd s c i w k).streamSeq = s.streamSeq := rfl
@[simp] theorem ledgerAdd_tensorDk (s : State) (c i w k : Nat) : (ledgerAdd s c i w k).tensorDk = s.tensorDk := rfl
@[simp] theorem ledgerAdd_filters (s : State) (c i w k : Nat) : (ledgerAdd s c i w k).filters = s.filters := rfl
@[simp] theorem ledgerAdd_lattice (s : State) (c i w k : Nat) : (ledgerAdd s c i w k).lattice = s.lattice := rfl
@[simp] theorem ledgerAdd_sched (s : State) (c i w k : Nat) : (ledgerAdd s c i w k).sched = s.sched := rfl
@[simp] theorem ledgerAdd_cores (s : State) (c i w k : Nat) : (ledgerAdd s c i w k).cores = s.cores := rfl
@[simp] theorem ledgerAdd_courier (s : State) (c i w k : Nat) : (ledgerAdd s c i w k).courier = s.courier := rfl
@[simp] theorem ledgerAdd_safety (s : State) (c i w k : Nat) : (ledgerAdd s c i w k).safety = s.safety := rfl
@[simp] theorem ledgerAdd_can (s : State) (c i w k : Nat) : (ledgerAdd s c i w k).can = s.can := rfl
@[simp] theorem ledgerAdd_fuses (s : State) (c i w k : Nat) : (ledgerAdd s c i w k).fuses = s.fuses := rfl
@[simp] theorem ledgerAdd_nvm (s : State) (c i w k : Nat) : (ledgerAdd s c i w k).nvm = s.nvm := rfl
@[simp] theorem ledgerAdd_pins (s : State) (c i w k : Nat) : (ledgerAdd s c i w k).pins = s.pins := rfl
@[simp] theorem ledgerAdd_boot (s : State) (c i w k : Nat) : (ledgerAdd s c i w k).boot = s.boot := rfl
@[simp] theorem ledgerAdd_spare (s : State) (c i w k : Nat) : (ledgerAdd s c i w k).spare = s.spare := rfl
@[simp] theorem ledgerAdd_pair (s : State) (c i w k : Nat) : (ledgerAdd s c i w k).pair = s.pair := rfl
@[simp] theorem ledgerAdd_lwIndex (s : State) (c i w k : Nat) : (ledgerAdd s c i w k).lwIndex = s.lwIndex := rfl
@[simp] theorem ledgerAdd_tapIr (s : State) (c i w k : Nat) : (ledgerAdd s c i w k).tapIr = s.tapIr := rfl
@[simp] theorem ledgerAdd_lostFns (s : State) (c i w k : Nat) : (ledgerAdd s c i w k).lostFns = s.lostFns := rfl
@[simp] theorem ledgerAdd_outbox (s : State) (c i w k : Nat) : (ledgerAdd s c i w k).outbox = s.outbox := rfl
@[simp] theorem ledgerAdd_completion (s : State) (c i w k : Nat) : (ledgerAdd s c i w k).completion = s.completion := rfl
@[simp] theorem ledgerAdd_round (s : State) (c i w k : Nat) : (ledgerAdd s c i w k).round = s.round := rfl
@[simp] theorem ledgerAdd_firstRound (s : State) (c i w k : Nat) : (ledgerAdd s c i w k).firstRound = s.firstRound := rfl
@[simp] theorem ledgerAdd_ord (s : State) (c i w k : Nat) : (ledgerAdd s c i w k).ord = s.ord := rfl
@[simp] theorem ledgerAdd_bar2 (s : State) (c i w k : Nat) : (ledgerAdd s c i w k).bar2 = s.bar2 := rfl
@[simp] theorem ledgerAdd_parity (s : State) (c i w k : Nat) : (ledgerAdd s c i w k).parity = s.parity := rfl
@[simp] theorem ledgerAdd_fifos (s : State) (c i w k : Nat) : (ledgerAdd s c i w k).fifos = s.fifos := rfl
@[simp] theorem ledgerAdd_freeCount (s : State) (c i w k : Nat) : (ledgerAdd s c i w k).freeCount = s.freeCount := rfl

/-! `popFront` -/

@[simp] theorem State.popFront_regs (s : State) : (s.popFront).regs = s.regs := rfl
@[simp] theorem State.popFront_mem (s : State) : (s.popFront).mem = s.mem := rfl
@[simp] theorem State.popFront_ecc (s : State) : (s.popFront).ecc = s.ecc := rfl
@[simp] theorem State.popFront_host (s : State) : (s.popFront).host = s.host := rfl
@[simp] theorem State.popFront_time (s : State) : (s.popFront).time = s.time := rfl
@[simp] theorem State.popFront_power (s : State) : (s.popFront).power = s.power := rfl
@[simp] theorem State.popFront_chans (s : State) : (s.popFront).chans = s.chans := rfl
@[simp] theorem State.popFront_letters (s : State) : (s.popFront).letters = s.letters := rfl
@[simp] theorem State.popFront_replies (s : State) : (s.popFront).replies = s.replies := rfl
@[simp] theorem State.popFront_daybook (s : State) : (s.popFront).daybook = s.daybook := rfl
@[simp] theorem State.popFront_plans (s : State) : (s.popFront).plans = s.plans := rfl
@[simp] theorem State.popFront_parts (s : State) : (s.popFront).parts = s.parts := rfl
@[simp] theorem State.popFront_cache (s : State) : (s.popFront).cache = s.cache := rfl
@[simp] theorem State.popFront_scrub (s : State) : (s.popFront).scrub = s.scrub := rfl
@[simp] theorem State.popFront_refresh (s : State) : (s.popFront).refresh = s.refresh := rfl
@[simp] theorem State.popFront_streams (s : State) : (s.popFront).streams = s.streams := rfl
@[simp] theorem State.popFront_streamSeq (s : State) : (s.popFront).streamSeq = s.streamSeq := rfl
@[simp] theorem State.popFront_tensorDk (s : State) : (s.popFront).tensorDk = s.tensorDk := rfl
@[simp] theorem State.popFront_filters (s : State) : (s.popFront).filters = s.filters := rfl
@[simp] theorem State.popFront_lattice (s : State) : (s.popFront).lattice = s.lattice := rfl
@[simp] theorem State.popFront_sched (s : State) : (s.popFront).sched = s.sched := rfl
@[simp] theorem State.popFront_cores (s : State) : (s.popFront).cores = s.cores := rfl
@[simp] theorem State.popFront_courier (s : State) : (s.popFront).courier = s.courier := rfl
@[simp] theorem State.popFront_safety (s : State) : (s.popFront).safety = s.safety := rfl
@[simp] theorem State.popFront_can (s : State) : (s.popFront).can = s.can := rfl
@[simp] theorem State.popFront_fuses (s : State) : (s.popFront).fuses = s.fuses := rfl
@[simp] theorem State.popFront_nvm (s : State) : (s.popFront).nvm = s.nvm := rfl
@[simp] theorem State.popFront_pins (s : State) : (s.popFront).pins = s.pins := rfl
@[simp] theorem State.popFront_boot (s : State) : (s.popFront).boot = s.boot := rfl
@[simp] theorem State.popFront_ledger (s : State) : (s.popFront).ledger = s.ledger := rfl
@[simp] theorem State.popFront_spare (s : State) : (s.popFront).spare = s.spare := rfl
@[simp] theorem State.popFront_pair (s : State) : (s.popFront).pair = s.pair := rfl
@[simp] theorem State.popFront_lwIndex (s : State) : (s.popFront).lwIndex = s.lwIndex := rfl
@[simp] theorem State.popFront_tapIr (s : State) : (s.popFront).tapIr = s.tapIr := rfl
@[simp] theorem State.popFront_lostFns (s : State) : (s.popFront).lostFns = s.lostFns := rfl
@[simp] theorem State.popFront_outbox (s : State) : (s.popFront).outbox = s.outbox := rfl
@[simp] theorem State.popFront_completion (s : State) : (s.popFront).completion = s.completion := rfl
@[simp] theorem State.popFront_round (s : State) : (s.popFront).round = s.round := rfl
@[simp] theorem State.popFront_firstRound (s : State) : (s.popFront).firstRound = s.firstRound := rfl
@[simp] theorem State.popFront_ord (s : State) : (s.popFront).ord = s.ord := rfl
@[simp] theorem State.popFront_bar2 (s : State) : (s.popFront).bar2 = s.bar2 := rfl
@[simp] theorem State.popFront_parity (s : State) : (s.popFront).parity = s.parity := rfl
@[simp] theorem State.popFront_fifos (s : State) : (s.popFront).fifos = s.fifos := rfl
@[simp] theorem State.popFront_freeCount (s : State) : (s.popFront).freeCount = s.freeCount := rfl

/-! `sendMsix` -/

@[simp] theorem sendMsix_pending (s : State) (f v : Nat) : (sendMsix s f v).pending = s.pending := by unfold sendMsix; split <;> rfl
@[simp] theorem sendMsix_regs (s : State) (f v : Nat) : (sendMsix s f v).regs = s.regs := by unfold sendMsix; split <;> rfl
@[simp] theorem sendMsix_mem (s : State) (f v : Nat) : (sendMsix s f v).mem = s.mem := by unfold sendMsix; split <;> rfl
@[simp] theorem sendMsix_ecc (s : State) (f v : Nat) : (sendMsix s f v).ecc = s.ecc := by unfold sendMsix; split <;> rfl
@[simp] theorem sendMsix_host (s : State) (f v : Nat) : (sendMsix s f v).host = s.host := by unfold sendMsix; split <;> rfl
@[simp] theorem sendMsix_time (s : State) (f v : Nat) : (sendMsix s f v).time = s.time := by unfold sendMsix; split <;> rfl
@[simp] theorem sendMsix_power (s : State) (f v : Nat) : (sendMsix s f v).power = s.power := by unfold sendMsix; split <;> rfl
@[simp] theorem sendMsix_chans (s : State) (f v : Nat) : (sendMsix s f v).chans = s.chans := by unfold sendMsix; split <;> rfl
@[simp] theorem sendMsix_letters (s : State) (f v : Nat) : (sendMsix s f v).letters = s.letters := by unfold sendMsix; split <;> rfl
@[simp] theorem sendMsix_replies (s : State) (f v : Nat) : (sendMsix s f v).replies = s.replies := by unfold sendMsix; split <;> rfl
@[simp] theorem sendMsix_daybook (s : State) (f v : Nat) : (sendMsix s f v).daybook = s.daybook := by unfold sendMsix; split <;> rfl
@[simp] theorem sendMsix_plans (s : State) (f v : Nat) : (sendMsix s f v).plans = s.plans := by unfold sendMsix; split <;> rfl
@[simp] theorem sendMsix_parts (s : State) (f v : Nat) : (sendMsix s f v).parts = s.parts := by unfold sendMsix; split <;> rfl
@[simp] theorem sendMsix_cache (s : State) (f v : Nat) : (sendMsix s f v).cache = s.cache := by unfold sendMsix; split <;> rfl
@[simp] theorem sendMsix_scrub (s : State) (f v : Nat) : (sendMsix s f v).scrub = s.scrub := by unfold sendMsix; split <;> rfl
@[simp] theorem sendMsix_refresh (s : State) (f v : Nat) : (sendMsix s f v).refresh = s.refresh := by unfold sendMsix; split <;> rfl
@[simp] theorem sendMsix_streams (s : State) (f v : Nat) : (sendMsix s f v).streams = s.streams := by unfold sendMsix; split <;> rfl
@[simp] theorem sendMsix_streamSeq (s : State) (f v : Nat) : (sendMsix s f v).streamSeq = s.streamSeq := by unfold sendMsix; split <;> rfl
@[simp] theorem sendMsix_tensorDk (s : State) (f v : Nat) : (sendMsix s f v).tensorDk = s.tensorDk := by unfold sendMsix; split <;> rfl
@[simp] theorem sendMsix_filters (s : State) (f v : Nat) : (sendMsix s f v).filters = s.filters := by unfold sendMsix; split <;> rfl
@[simp] theorem sendMsix_lattice (s : State) (f v : Nat) : (sendMsix s f v).lattice = s.lattice := by unfold sendMsix; split <;> rfl
@[simp] theorem sendMsix_sched (s : State) (f v : Nat) : (sendMsix s f v).sched = s.sched := by unfold sendMsix; split <;> rfl
@[simp] theorem sendMsix_cores (s : State) (f v : Nat) : (sendMsix s f v).cores = s.cores := by unfold sendMsix; split <;> rfl
@[simp] theorem sendMsix_courier (s : State) (f v : Nat) : (sendMsix s f v).courier = s.courier := by unfold sendMsix; split <;> rfl
@[simp] theorem sendMsix_safety (s : State) (f v : Nat) : (sendMsix s f v).safety = s.safety := by unfold sendMsix; split <;> rfl
@[simp] theorem sendMsix_can (s : State) (f v : Nat) : (sendMsix s f v).can = s.can := by unfold sendMsix; split <;> rfl
@[simp] theorem sendMsix_fuses (s : State) (f v : Nat) : (sendMsix s f v).fuses = s.fuses := by unfold sendMsix; split <;> rfl
@[simp] theorem sendMsix_nvm (s : State) (f v : Nat) : (sendMsix s f v).nvm = s.nvm := by unfold sendMsix; split <;> rfl
@[simp] theorem sendMsix_pins (s : State) (f v : Nat) : (sendMsix s f v).pins = s.pins := by unfold sendMsix; split <;> rfl
@[simp] theorem sendMsix_boot (s : State) (f v : Nat) : (sendMsix s f v).boot = s.boot := by unfold sendMsix; split <;> rfl
@[simp] theorem sendMsix_ledger (s : State) (f v : Nat) : (sendMsix s f v).ledger = s.ledger := by unfold sendMsix; split <;> rfl
@[simp] theorem sendMsix_spare (s : State) (f v : Nat) : (sendMsix s f v).spare = s.spare := by unfold sendMsix; split <;> rfl
@[simp] theorem sendMsix_pair (s : State) (f v : Nat) : (sendMsix s f v).pair = s.pair := by unfold sendMsix; split <;> rfl
@[simp] theorem sendMsix_lwIndex (s : State) (f v : Nat) : (sendMsix s f v).lwIndex = s.lwIndex := by unfold sendMsix; split <;> rfl
@[simp] theorem sendMsix_tapIr (s : State) (f v : Nat) : (sendMsix s f v).tapIr = s.tapIr := by unfold sendMsix; split <;> rfl
@[simp] theorem sendMsix_lostFns (s : State) (f v : Nat) : (sendMsix s f v).lostFns = s.lostFns := by unfold sendMsix; split <;> rfl
@[simp] theorem sendMsix_completion (s : State) (f v : Nat) : (sendMsix s f v).completion = s.completion := by unfold sendMsix; split <;> rfl
@[simp] theorem sendMsix_round (s : State) (f v : Nat) : (sendMsix s f v).round = s.round := by unfold sendMsix; split <;> rfl
@[simp] theorem sendMsix_firstRound (s : State) (f v : Nat) : (sendMsix s f v).firstRound = s.firstRound := by unfold sendMsix; split <;> rfl
@[simp] theorem sendMsix_ord (s : State) (f v : Nat) : (sendMsix s f v).ord = s.ord := by unfold sendMsix; split <;> rfl
@[simp] theorem sendMsix_bar2 (s : State) (f v : Nat) : (sendMsix s f v).bar2 = s.bar2 := by unfold sendMsix; split <;> rfl
@[simp] theorem sendMsix_parity (s : State) (f v : Nat) : (sendMsix s f v).parity = s.parity := by unfold sendMsix; split <;> rfl
@[simp] theorem sendMsix_fifos (s : State) (f v : Nat) : (sendMsix s f v).fifos = s.fifos := by unfold sendMsix; split <;> rfl
@[simp] theorem sendMsix_freeCount (s : State) (f v : Nat) : (sendMsix s f v).freeCount = s.freeCount := by unfold sendMsix; split <;> rfl

/-! `pageIrq` -/

@[simp] theorem pageIrq_pending (s : State) (p : Nat) : (pageIrq s p).pending = s.pending := by unfold pageIrq; split <;> simp
@[simp] theorem pageIrq_regs (s : State) (p : Nat) : (pageIrq s p).regs = s.regs := by unfold pageIrq; split <;> simp
@[simp] theorem pageIrq_mem (s : State) (p : Nat) : (pageIrq s p).mem = s.mem := by unfold pageIrq; split <;> simp
@[simp] theorem pageIrq_ecc (s : State) (p : Nat) : (pageIrq s p).ecc = s.ecc := by unfold pageIrq; split <;> simp
@[simp] theorem pageIrq_host (s : State) (p : Nat) : (pageIrq s p).host = s.host := by unfold pageIrq; split <;> simp
@[simp] theorem pageIrq_time (s : State) (p : Nat) : (pageIrq s p).time = s.time := by unfold pageIrq; split <;> simp
@[simp] theorem pageIrq_power (s : State) (p : Nat) : (pageIrq s p).power = s.power := by unfold pageIrq; split <;> simp
@[simp] theorem pageIrq_chans (s : State) (p : Nat) : (pageIrq s p).chans = s.chans := by unfold pageIrq; split <;> simp
@[simp] theorem pageIrq_letters (s : State) (p : Nat) : (pageIrq s p).letters = s.letters := by unfold pageIrq; split <;> simp
@[simp] theorem pageIrq_replies (s : State) (p : Nat) : (pageIrq s p).replies = s.replies := by unfold pageIrq; split <;> simp
@[simp] theorem pageIrq_daybook (s : State) (p : Nat) : (pageIrq s p).daybook = s.daybook := by unfold pageIrq; split <;> simp
@[simp] theorem pageIrq_plans (s : State) (p : Nat) : (pageIrq s p).plans = s.plans := by unfold pageIrq; split <;> simp
@[simp] theorem pageIrq_parts (s : State) (p : Nat) : (pageIrq s p).parts = s.parts := by unfold pageIrq; split <;> simp
@[simp] theorem pageIrq_cache (s : State) (p : Nat) : (pageIrq s p).cache = s.cache := by unfold pageIrq; split <;> simp
@[simp] theorem pageIrq_scrub (s : State) (p : Nat) : (pageIrq s p).scrub = s.scrub := by unfold pageIrq; split <;> simp
@[simp] theorem pageIrq_refresh (s : State) (p : Nat) : (pageIrq s p).refresh = s.refresh := by unfold pageIrq; split <;> simp
@[simp] theorem pageIrq_streams (s : State) (p : Nat) : (pageIrq s p).streams = s.streams := by unfold pageIrq; split <;> simp
@[simp] theorem pageIrq_streamSeq (s : State) (p : Nat) : (pageIrq s p).streamSeq = s.streamSeq := by unfold pageIrq; split <;> simp
@[simp] theorem pageIrq_tensorDk (s : State) (p : Nat) : (pageIrq s p).tensorDk = s.tensorDk := by unfold pageIrq; split <;> simp
@[simp] theorem pageIrq_filters (s : State) (p : Nat) : (pageIrq s p).filters = s.filters := by unfold pageIrq; split <;> simp
@[simp] theorem pageIrq_lattice (s : State) (p : Nat) : (pageIrq s p).lattice = s.lattice := by unfold pageIrq; split <;> simp
@[simp] theorem pageIrq_sched (s : State) (p : Nat) : (pageIrq s p).sched = s.sched := by unfold pageIrq; split <;> simp
@[simp] theorem pageIrq_cores (s : State) (p : Nat) : (pageIrq s p).cores = s.cores := by unfold pageIrq; split <;> simp
@[simp] theorem pageIrq_courier (s : State) (p : Nat) : (pageIrq s p).courier = s.courier := by unfold pageIrq; split <;> simp
@[simp] theorem pageIrq_safety (s : State) (p : Nat) : (pageIrq s p).safety = s.safety := by unfold pageIrq; split <;> simp
@[simp] theorem pageIrq_can (s : State) (p : Nat) : (pageIrq s p).can = s.can := by unfold pageIrq; split <;> simp
@[simp] theorem pageIrq_fuses (s : State) (p : Nat) : (pageIrq s p).fuses = s.fuses := by unfold pageIrq; split <;> simp
@[simp] theorem pageIrq_nvm (s : State) (p : Nat) : (pageIrq s p).nvm = s.nvm := by unfold pageIrq; split <;> simp
@[simp] theorem pageIrq_pins (s : State) (p : Nat) : (pageIrq s p).pins = s.pins := by unfold pageIrq; split <;> simp
@[simp] theorem pageIrq_boot (s : State) (p : Nat) : (pageIrq s p).boot = s.boot := by unfold pageIrq; split <;> simp
@[simp] theorem pageIrq_ledger (s : State) (p : Nat) : (pageIrq s p).ledger = s.ledger := by unfold pageIrq; split <;> simp
@[simp] theorem pageIrq_spare (s : State) (p : Nat) : (pageIrq s p).spare = s.spare := by unfold pageIrq; split <;> simp
@[simp] theorem pageIrq_pair (s : State) (p : Nat) : (pageIrq s p).pair = s.pair := by unfold pageIrq; split <;> simp
@[simp] theorem pageIrq_lwIndex (s : State) (p : Nat) : (pageIrq s p).lwIndex = s.lwIndex := by unfold pageIrq; split <;> simp
@[simp] theorem pageIrq_tapIr (s : State) (p : Nat) : (pageIrq s p).tapIr = s.tapIr := by unfold pageIrq; split <;> simp
@[simp] theorem pageIrq_lostFns (s : State) (p : Nat) : (pageIrq s p).lostFns = s.lostFns := by unfold pageIrq; split <;> simp
@[simp] theorem pageIrq_completion (s : State) (p : Nat) : (pageIrq s p).completion = s.completion := by unfold pageIrq; split <;> simp
@[simp] theorem pageIrq_round (s : State) (p : Nat) : (pageIrq s p).round = s.round := by unfold pageIrq; split <;> simp
@[simp] theorem pageIrq_firstRound (s : State) (p : Nat) : (pageIrq s p).firstRound = s.firstRound := by unfold pageIrq; split <;> simp
@[simp] theorem pageIrq_ord (s : State) (p : Nat) : (pageIrq s p).ord = s.ord := by unfold pageIrq; split <;> simp
@[simp] theorem pageIrq_bar2 (s : State) (p : Nat) : (pageIrq s p).bar2 = s.bar2 := by unfold pageIrq; split <;> simp
@[simp] theorem pageIrq_parity (s : State) (p : Nat) : (pageIrq s p).parity = s.parity := by unfold pageIrq; split <;> simp
@[simp] theorem pageIrq_fifos (s : State) (p : Nat) : (pageIrq s p).fifos = s.fifos := by unfold pageIrq; split <;> simp
@[simp] theorem pageIrq_freeCount (s : State) (p : Nat) : (pageIrq s p).freeCount = s.freeCount := by unfold pageIrq; split <;> simp

/-! `setEvent` -/

@[simp] theorem setEvent_pending (s : State) (p b : Nat) : (setEvent s p b).pending = s.pending := by unfold setEvent; dsimp only; split <;> simp
@[simp] theorem setEvent_mem (s : State) (p b : Nat) : (setEvent s p b).mem = s.mem := by unfold setEvent; dsimp only; split <;> simp
@[simp] theorem setEvent_ecc (s : State) (p b : Nat) : (setEvent s p b).ecc = s.ecc := by unfold setEvent; dsimp only; split <;> simp
@[simp] theorem setEvent_host (s : State) (p b : Nat) : (setEvent s p b).host = s.host := by unfold setEvent; dsimp only; split <;> simp
@[simp] theorem setEvent_time (s : State) (p b : Nat) : (setEvent s p b).time = s.time := by unfold setEvent; dsimp only; split <;> simp
@[simp] theorem setEvent_power (s : State) (p b : Nat) : (setEvent s p b).power = s.power := by unfold setEvent; dsimp only; split <;> simp
@[simp] theorem setEvent_chans (s : State) (p b : Nat) : (setEvent s p b).chans = s.chans := by unfold setEvent; dsimp only; split <;> simp
@[simp] theorem setEvent_letters (s : State) (p b : Nat) : (setEvent s p b).letters = s.letters := by unfold setEvent; dsimp only; split <;> simp
@[simp] theorem setEvent_replies (s : State) (p b : Nat) : (setEvent s p b).replies = s.replies := by unfold setEvent; dsimp only; split <;> simp
@[simp] theorem setEvent_daybook (s : State) (p b : Nat) : (setEvent s p b).daybook = s.daybook := by unfold setEvent; dsimp only; split <;> simp
@[simp] theorem setEvent_plans (s : State) (p b : Nat) : (setEvent s p b).plans = s.plans := by unfold setEvent; dsimp only; split <;> simp
@[simp] theorem setEvent_parts (s : State) (p b : Nat) : (setEvent s p b).parts = s.parts := by unfold setEvent; dsimp only; split <;> simp
@[simp] theorem setEvent_cache (s : State) (p b : Nat) : (setEvent s p b).cache = s.cache := by unfold setEvent; dsimp only; split <;> simp
@[simp] theorem setEvent_scrub (s : State) (p b : Nat) : (setEvent s p b).scrub = s.scrub := by unfold setEvent; dsimp only; split <;> simp
@[simp] theorem setEvent_refresh (s : State) (p b : Nat) : (setEvent s p b).refresh = s.refresh := by unfold setEvent; dsimp only; split <;> simp
@[simp] theorem setEvent_streams (s : State) (p b : Nat) : (setEvent s p b).streams = s.streams := by unfold setEvent; dsimp only; split <;> simp
@[simp] theorem setEvent_streamSeq (s : State) (p b : Nat) : (setEvent s p b).streamSeq = s.streamSeq := by unfold setEvent; dsimp only; split <;> simp
@[simp] theorem setEvent_tensorDk (s : State) (p b : Nat) : (setEvent s p b).tensorDk = s.tensorDk := by unfold setEvent; dsimp only; split <;> simp
@[simp] theorem setEvent_filters (s : State) (p b : Nat) : (setEvent s p b).filters = s.filters := by unfold setEvent; dsimp only; split <;> simp
@[simp] theorem setEvent_lattice (s : State) (p b : Nat) : (setEvent s p b).lattice = s.lattice := by unfold setEvent; dsimp only; split <;> simp
@[simp] theorem setEvent_sched (s : State) (p b : Nat) : (setEvent s p b).sched = s.sched := by unfold setEvent; dsimp only; split <;> simp
@[simp] theorem setEvent_cores (s : State) (p b : Nat) : (setEvent s p b).cores = s.cores := by unfold setEvent; dsimp only; split <;> simp
@[simp] theorem setEvent_courier (s : State) (p b : Nat) : (setEvent s p b).courier = s.courier := by unfold setEvent; dsimp only; split <;> simp
@[simp] theorem setEvent_safety (s : State) (p b : Nat) : (setEvent s p b).safety = s.safety := by unfold setEvent; dsimp only; split <;> simp
@[simp] theorem setEvent_can (s : State) (p b : Nat) : (setEvent s p b).can = s.can := by unfold setEvent; dsimp only; split <;> simp
@[simp] theorem setEvent_fuses (s : State) (p b : Nat) : (setEvent s p b).fuses = s.fuses := by unfold setEvent; dsimp only; split <;> simp
@[simp] theorem setEvent_nvm (s : State) (p b : Nat) : (setEvent s p b).nvm = s.nvm := by unfold setEvent; dsimp only; split <;> simp
@[simp] theorem setEvent_pins (s : State) (p b : Nat) : (setEvent s p b).pins = s.pins := by unfold setEvent; dsimp only; split <;> simp
@[simp] theorem setEvent_boot (s : State) (p b : Nat) : (setEvent s p b).boot = s.boot := by unfold setEvent; dsimp only; split <;> simp
@[simp] theorem setEvent_ledger (s : State) (p b : Nat) : (setEvent s p b).ledger = s.ledger := by unfold setEvent; dsimp only; split <;> simp
@[simp] theorem setEvent_spare (s : State) (p b : Nat) : (setEvent s p b).spare = s.spare := by unfold setEvent; dsimp only; split <;> simp
@[simp] theorem setEvent_pair (s : State) (p b : Nat) : (setEvent s p b).pair = s.pair := by unfold setEvent; dsimp only; split <;> simp
@[simp] theorem setEvent_lwIndex (s : State) (p b : Nat) : (setEvent s p b).lwIndex = s.lwIndex := by unfold setEvent; dsimp only; split <;> simp
@[simp] theorem setEvent_tapIr (s : State) (p b : Nat) : (setEvent s p b).tapIr = s.tapIr := by unfold setEvent; dsimp only; split <;> simp
@[simp] theorem setEvent_lostFns (s : State) (p b : Nat) : (setEvent s p b).lostFns = s.lostFns := by unfold setEvent; dsimp only; split <;> simp
@[simp] theorem setEvent_completion (s : State) (p b : Nat) : (setEvent s p b).completion = s.completion := by unfold setEvent; dsimp only; split <;> simp
@[simp] theorem setEvent_round (s : State) (p b : Nat) : (setEvent s p b).round = s.round := by unfold setEvent; dsimp only; split <;> simp
@[simp] theorem setEvent_firstRound (s : State) (p b : Nat) : (setEvent s p b).firstRound = s.firstRound := by unfold setEvent; dsimp only; split <;> simp
@[simp] theorem setEvent_ord (s : State) (p b : Nat) : (setEvent s p b).ord = s.ord := by unfold setEvent; dsimp only; split <;> simp
@[simp] theorem setEvent_bar2 (s : State) (p b : Nat) : (setEvent s p b).bar2 = s.bar2 := by unfold setEvent; dsimp only; split <;> simp
@[simp] theorem setEvent_parity (s : State) (p b : Nat) : (setEvent s p b).parity = s.parity := by unfold setEvent; dsimp only; split <;> simp
@[simp] theorem setEvent_fifos (s : State) (p b : Nat) : (setEvent s p b).fifos = s.fifos := by unfold setEvent; dsimp only; split <;> simp
@[simp] theorem setEvent_freeCount (s : State) (p b : Nat) : (setEvent s p b).freeCount = s.freeCount := by unfold setEvent; dsimp only; split <;> simp

/-! `eccSet` -/

@[simp] theorem eccSet_pending (s : State) (w : Nat) (e : Option EccSt) : (eccSet s w e).pending = s.pending := by cases e <;> rfl
@[simp] theorem eccSet_regs (s : State) (w : Nat) (e : Option EccSt) : (eccSet s w e).regs = s.regs := by cases e <;> rfl
@[simp] theorem eccSet_mem (s : State) (w : Nat) (e : Option EccSt) : (eccSet s w e).mem = s.mem := by cases e <;> rfl
@[simp] theorem eccSet_host (s : State) (w : Nat) (e : Option EccSt) : (eccSet s w e).host = s.host := by cases e <;> rfl
@[simp] theorem eccSet_time (s : State) (w : Nat) (e : Option EccSt) : (eccSet s w e).time = s.time := by cases e <;> rfl
@[simp] theorem eccSet_power (s : State) (w : Nat) (e : Option EccSt) : (eccSet s w e).power = s.power := by cases e <;> rfl
@[simp] theorem eccSet_chans (s : State) (w : Nat) (e : Option EccSt) : (eccSet s w e).chans = s.chans := by cases e <;> rfl
@[simp] theorem eccSet_letters (s : State) (w : Nat) (e : Option EccSt) : (eccSet s w e).letters = s.letters := by cases e <;> rfl
@[simp] theorem eccSet_replies (s : State) (w : Nat) (e : Option EccSt) : (eccSet s w e).replies = s.replies := by cases e <;> rfl
@[simp] theorem eccSet_daybook (s : State) (w : Nat) (e : Option EccSt) : (eccSet s w e).daybook = s.daybook := by cases e <;> rfl
@[simp] theorem eccSet_plans (s : State) (w : Nat) (e : Option EccSt) : (eccSet s w e).plans = s.plans := by cases e <;> rfl
@[simp] theorem eccSet_parts (s : State) (w : Nat) (e : Option EccSt) : (eccSet s w e).parts = s.parts := by cases e <;> rfl
@[simp] theorem eccSet_cache (s : State) (w : Nat) (e : Option EccSt) : (eccSet s w e).cache = s.cache := by cases e <;> rfl
@[simp] theorem eccSet_scrub (s : State) (w : Nat) (e : Option EccSt) : (eccSet s w e).scrub = s.scrub := by cases e <;> rfl
@[simp] theorem eccSet_refresh (s : State) (w : Nat) (e : Option EccSt) : (eccSet s w e).refresh = s.refresh := by cases e <;> rfl
@[simp] theorem eccSet_streams (s : State) (w : Nat) (e : Option EccSt) : (eccSet s w e).streams = s.streams := by cases e <;> rfl
@[simp] theorem eccSet_streamSeq (s : State) (w : Nat) (e : Option EccSt) : (eccSet s w e).streamSeq = s.streamSeq := by cases e <;> rfl
@[simp] theorem eccSet_tensorDk (s : State) (w : Nat) (e : Option EccSt) : (eccSet s w e).tensorDk = s.tensorDk := by cases e <;> rfl
@[simp] theorem eccSet_filters (s : State) (w : Nat) (e : Option EccSt) : (eccSet s w e).filters = s.filters := by cases e <;> rfl
@[simp] theorem eccSet_lattice (s : State) (w : Nat) (e : Option EccSt) : (eccSet s w e).lattice = s.lattice := by cases e <;> rfl
@[simp] theorem eccSet_sched (s : State) (w : Nat) (e : Option EccSt) : (eccSet s w e).sched = s.sched := by cases e <;> rfl
@[simp] theorem eccSet_cores (s : State) (w : Nat) (e : Option EccSt) : (eccSet s w e).cores = s.cores := by cases e <;> rfl
@[simp] theorem eccSet_courier (s : State) (w : Nat) (e : Option EccSt) : (eccSet s w e).courier = s.courier := by cases e <;> rfl
@[simp] theorem eccSet_safety (s : State) (w : Nat) (e : Option EccSt) : (eccSet s w e).safety = s.safety := by cases e <;> rfl
@[simp] theorem eccSet_can (s : State) (w : Nat) (e : Option EccSt) : (eccSet s w e).can = s.can := by cases e <;> rfl
@[simp] theorem eccSet_fuses (s : State) (w : Nat) (e : Option EccSt) : (eccSet s w e).fuses = s.fuses := by cases e <;> rfl
@[simp] theorem eccSet_nvm (s : State) (w : Nat) (e : Option EccSt) : (eccSet s w e).nvm = s.nvm := by cases e <;> rfl
@[simp] theorem eccSet_pins (s : State) (w : Nat) (e : Option EccSt) : (eccSet s w e).pins = s.pins := by cases e <;> rfl
@[simp] theorem eccSet_boot (s : State) (w : Nat) (e : Option EccSt) : (eccSet s w e).boot = s.boot := by cases e <;> rfl
@[simp] theorem eccSet_ledger (s : State) (w : Nat) (e : Option EccSt) : (eccSet s w e).ledger = s.ledger := by cases e <;> rfl
@[simp] theorem eccSet_spare (s : State) (w : Nat) (e : Option EccSt) : (eccSet s w e).spare = s.spare := by cases e <;> rfl
@[simp] theorem eccSet_pair (s : State) (w : Nat) (e : Option EccSt) : (eccSet s w e).pair = s.pair := by cases e <;> rfl
@[simp] theorem eccSet_lwIndex (s : State) (w : Nat) (e : Option EccSt) : (eccSet s w e).lwIndex = s.lwIndex := by cases e <;> rfl
@[simp] theorem eccSet_tapIr (s : State) (w : Nat) (e : Option EccSt) : (eccSet s w e).tapIr = s.tapIr := by cases e <;> rfl
@[simp] theorem eccSet_lostFns (s : State) (w : Nat) (e : Option EccSt) : (eccSet s w e).lostFns = s.lostFns := by cases e <;> rfl
@[simp] theorem eccSet_outbox (s : State) (w : Nat) (e : Option EccSt) : (eccSet s w e).outbox = s.outbox := by cases e <;> rfl
@[simp] theorem eccSet_completion (s : State) (w : Nat) (e : Option EccSt) : (eccSet s w e).completion = s.completion := by cases e <;> rfl
@[simp] theorem eccSet_round (s : State) (w : Nat) (e : Option EccSt) : (eccSet s w e).round = s.round := by cases e <;> rfl
@[simp] theorem eccSet_firstRound (s : State) (w : Nat) (e : Option EccSt) : (eccSet s w e).firstRound = s.firstRound := by cases e <;> rfl
@[simp] theorem eccSet_ord (s : State) (w : Nat) (e : Option EccSt) : (eccSet s w e).ord = s.ord := by cases e <;> rfl
@[simp] theorem eccSet_bar2 (s : State) (w : Nat) (e : Option EccSt) : (eccSet s w e).bar2 = s.bar2 := by cases e <;> rfl
@[simp] theorem eccSet_parity (s : State) (w : Nat) (e : Option EccSt) : (eccSet s w e).parity = s.parity := by cases e <;> rfl
@[simp] theorem eccSet_fifos (s : State) (w : Nat) (e : Option EccSt) : (eccSet s w e).fifos = s.fifos := by cases e <;> rfl
@[simp] theorem eccSet_freeCount (s : State) (w : Nat) (e : Option EccSt) : (eccSet s w e).freeCount = s.freeCount := by cases e <;> rfl

/-! `errCorr` -/

@[simp] theorem errCorr_pending (s : State) (p : Nat) : (errCorr s p).pending = s.pending := by simp [errCorr]
@[simp] theorem errCorr_mem (s : State) (p : Nat) : (errCorr s p).mem = s.mem := by simp [errCorr]
@[simp] theorem errCorr_ecc (s : State) (p : Nat) : (errCorr s p).ecc = s.ecc := by simp [errCorr]
@[simp] theorem errCorr_host (s : State) (p : Nat) : (errCorr s p).host = s.host := by simp [errCorr]
@[simp] theorem errCorr_time (s : State) (p : Nat) : (errCorr s p).time = s.time := by simp [errCorr]
@[simp] theorem errCorr_power (s : State) (p : Nat) : (errCorr s p).power = s.power := by simp [errCorr]
@[simp] theorem errCorr_chans (s : State) (p : Nat) : (errCorr s p).chans = s.chans := by simp [errCorr]
@[simp] theorem errCorr_letters (s : State) (p : Nat) : (errCorr s p).letters = s.letters := by simp [errCorr]
@[simp] theorem errCorr_replies (s : State) (p : Nat) : (errCorr s p).replies = s.replies := by simp [errCorr]
@[simp] theorem errCorr_daybook (s : State) (p : Nat) : (errCorr s p).daybook = s.daybook := by simp [errCorr]
@[simp] theorem errCorr_plans (s : State) (p : Nat) : (errCorr s p).plans = s.plans := by simp [errCorr]
@[simp] theorem errCorr_parts (s : State) (p : Nat) : (errCorr s p).parts = s.parts := by simp [errCorr]
@[simp] theorem errCorr_cache (s : State) (p : Nat) : (errCorr s p).cache = s.cache := by simp [errCorr]
@[simp] theorem errCorr_scrub (s : State) (p : Nat) : (errCorr s p).scrub = s.scrub := by simp [errCorr]
@[simp] theorem errCorr_refresh (s : State) (p : Nat) : (errCorr s p).refresh = s.refresh := by simp [errCorr]
@[simp] theorem errCorr_streams (s : State) (p : Nat) : (errCorr s p).streams = s.streams := by simp [errCorr]
@[simp] theorem errCorr_streamSeq (s : State) (p : Nat) : (errCorr s p).streamSeq = s.streamSeq := by simp [errCorr]
@[simp] theorem errCorr_tensorDk (s : State) (p : Nat) : (errCorr s p).tensorDk = s.tensorDk := by simp [errCorr]
@[simp] theorem errCorr_filters (s : State) (p : Nat) : (errCorr s p).filters = s.filters := by simp [errCorr]
@[simp] theorem errCorr_lattice (s : State) (p : Nat) : (errCorr s p).lattice = s.lattice := by simp [errCorr]
@[simp] theorem errCorr_sched (s : State) (p : Nat) : (errCorr s p).sched = s.sched := by simp [errCorr]
@[simp] theorem errCorr_cores (s : State) (p : Nat) : (errCorr s p).cores = s.cores := by simp [errCorr]
@[simp] theorem errCorr_courier (s : State) (p : Nat) : (errCorr s p).courier = s.courier := by simp [errCorr]
@[simp] theorem errCorr_safety (s : State) (p : Nat) : (errCorr s p).safety = s.safety := by simp [errCorr]
@[simp] theorem errCorr_can (s : State) (p : Nat) : (errCorr s p).can = s.can := by simp [errCorr]
@[simp] theorem errCorr_fuses (s : State) (p : Nat) : (errCorr s p).fuses = s.fuses := by simp [errCorr]
@[simp] theorem errCorr_nvm (s : State) (p : Nat) : (errCorr s p).nvm = s.nvm := by simp [errCorr]
@[simp] theorem errCorr_pins (s : State) (p : Nat) : (errCorr s p).pins = s.pins := by simp [errCorr]
@[simp] theorem errCorr_boot (s : State) (p : Nat) : (errCorr s p).boot = s.boot := by simp [errCorr]
@[simp] theorem errCorr_ledger (s : State) (p : Nat) : (errCorr s p).ledger = s.ledger := by simp [errCorr]
@[simp] theorem errCorr_spare (s : State) (p : Nat) : (errCorr s p).spare = s.spare := by simp [errCorr]
@[simp] theorem errCorr_pair (s : State) (p : Nat) : (errCorr s p).pair = s.pair := by simp [errCorr]
@[simp] theorem errCorr_lwIndex (s : State) (p : Nat) : (errCorr s p).lwIndex = s.lwIndex := by simp [errCorr]
@[simp] theorem errCorr_tapIr (s : State) (p : Nat) : (errCorr s p).tapIr = s.tapIr := by simp [errCorr]
@[simp] theorem errCorr_lostFns (s : State) (p : Nat) : (errCorr s p).lostFns = s.lostFns := by simp [errCorr]
@[simp] theorem errCorr_completion (s : State) (p : Nat) : (errCorr s p).completion = s.completion := by simp [errCorr]
@[simp] theorem errCorr_round (s : State) (p : Nat) : (errCorr s p).round = s.round := by simp [errCorr]
@[simp] theorem errCorr_firstRound (s : State) (p : Nat) : (errCorr s p).firstRound = s.firstRound := by simp [errCorr]
@[simp] theorem errCorr_ord (s : State) (p : Nat) : (errCorr s p).ord = s.ord := by simp [errCorr]
@[simp] theorem errCorr_bar2 (s : State) (p : Nat) : (errCorr s p).bar2 = s.bar2 := by simp [errCorr]
@[simp] theorem errCorr_parity (s : State) (p : Nat) : (errCorr s p).parity = s.parity := by simp [errCorr]
@[simp] theorem errCorr_fifos (s : State) (p : Nat) : (errCorr s p).fifos = s.fifos := by simp [errCorr]
@[simp] theorem errCorr_freeCount (s : State) (p : Nat) : (errCorr s p).freeCount = s.freeCount := by simp [errCorr]

/-! `errUncorr` -/

@[simp] theorem errUncorr_pending (s : State) (p : Nat) : (errUncorr s p).pending = s.pending := by simp [errUncorr]
@[simp] theorem errUncorr_mem (s : State) (p : Nat) : (errUncorr s p).mem = s.mem := by simp [errUncorr]
@[simp] theorem errUncorr_ecc (s : State) (p : Nat) : (errUncorr s p).ecc = s.ecc := by simp [errUncorr]
@[simp] theorem errUncorr_host (s : State) (p : Nat) : (errUncorr s p).host = s.host := by simp [errUncorr]
@[simp] theorem errUncorr_time (s : State) (p : Nat) : (errUncorr s p).time = s.time := by simp [errUncorr]
@[simp] theorem errUncorr_power (s : State) (p : Nat) : (errUncorr s p).power = s.power := by simp [errUncorr]
@[simp] theorem errUncorr_chans (s : State) (p : Nat) : (errUncorr s p).chans = s.chans := by simp [errUncorr]
@[simp] theorem errUncorr_letters (s : State) (p : Nat) : (errUncorr s p).letters = s.letters := by simp [errUncorr]
@[simp] theorem errUncorr_replies (s : State) (p : Nat) : (errUncorr s p).replies = s.replies := by simp [errUncorr]
@[simp] theorem errUncorr_daybook (s : State) (p : Nat) : (errUncorr s p).daybook = s.daybook := by simp [errUncorr]
@[simp] theorem errUncorr_plans (s : State) (p : Nat) : (errUncorr s p).plans = s.plans := by simp [errUncorr]
@[simp] theorem errUncorr_parts (s : State) (p : Nat) : (errUncorr s p).parts = s.parts := by simp [errUncorr]
@[simp] theorem errUncorr_cache (s : State) (p : Nat) : (errUncorr s p).cache = s.cache := by simp [errUncorr]
@[simp] theorem errUncorr_scrub (s : State) (p : Nat) : (errUncorr s p).scrub = s.scrub := by simp [errUncorr]
@[simp] theorem errUncorr_refresh (s : State) (p : Nat) : (errUncorr s p).refresh = s.refresh := by simp [errUncorr]
@[simp] theorem errUncorr_streams (s : State) (p : Nat) : (errUncorr s p).streams = s.streams := by simp [errUncorr]
@[simp] theorem errUncorr_streamSeq (s : State) (p : Nat) : (errUncorr s p).streamSeq = s.streamSeq := by simp [errUncorr]
@[simp] theorem errUncorr_tensorDk (s : State) (p : Nat) : (errUncorr s p).tensorDk = s.tensorDk := by simp [errUncorr]
@[simp] theorem errUncorr_filters (s : State) (p : Nat) : (errUncorr s p).filters = s.filters := by simp [errUncorr]
@[simp] theorem errUncorr_lattice (s : State) (p : Nat) : (errUncorr s p).lattice = s.lattice := by simp [errUncorr]
@[simp] theorem errUncorr_sched (s : State) (p : Nat) : (errUncorr s p).sched = s.sched := by simp [errUncorr]
@[simp] theorem errUncorr_cores (s : State) (p : Nat) : (errUncorr s p).cores = s.cores := by simp [errUncorr]
@[simp] theorem errUncorr_courier (s : State) (p : Nat) : (errUncorr s p).courier = s.courier := by simp [errUncorr]
@[simp] theorem errUncorr_safety (s : State) (p : Nat) : (errUncorr s p).safety = s.safety := by simp [errUncorr]
@[simp] theorem errUncorr_can (s : State) (p : Nat) : (errUncorr s p).can = s.can := by simp [errUncorr]
@[simp] theorem errUncorr_fuses (s : State) (p : Nat) : (errUncorr s p).fuses = s.fuses := by simp [errUncorr]
@[simp] theorem errUncorr_nvm (s : State) (p : Nat) : (errUncorr s p).nvm = s.nvm := by simp [errUncorr]
@[simp] theorem errUncorr_pins (s : State) (p : Nat) : (errUncorr s p).pins = s.pins := by simp [errUncorr]
@[simp] theorem errUncorr_boot (s : State) (p : Nat) : (errUncorr s p).boot = s.boot := by simp [errUncorr]
@[simp] theorem errUncorr_ledger (s : State) (p : Nat) : (errUncorr s p).ledger = s.ledger := by simp [errUncorr]
@[simp] theorem errUncorr_spare (s : State) (p : Nat) : (errUncorr s p).spare = s.spare := by simp [errUncorr]
@[simp] theorem errUncorr_pair (s : State) (p : Nat) : (errUncorr s p).pair = s.pair := by simp [errUncorr]
@[simp] theorem errUncorr_lwIndex (s : State) (p : Nat) : (errUncorr s p).lwIndex = s.lwIndex := by simp [errUncorr]
@[simp] theorem errUncorr_tapIr (s : State) (p : Nat) : (errUncorr s p).tapIr = s.tapIr := by simp [errUncorr]
@[simp] theorem errUncorr_lostFns (s : State) (p : Nat) : (errUncorr s p).lostFns = s.lostFns := by simp [errUncorr]
@[simp] theorem errUncorr_completion (s : State) (p : Nat) : (errUncorr s p).completion = s.completion := by simp [errUncorr]
@[simp] theorem errUncorr_round (s : State) (p : Nat) : (errUncorr s p).round = s.round := by simp [errUncorr]
@[simp] theorem errUncorr_firstRound (s : State) (p : Nat) : (errUncorr s p).firstRound = s.firstRound := by simp [errUncorr]
@[simp] theorem errUncorr_ord (s : State) (p : Nat) : (errUncorr s p).ord = s.ord := by simp [errUncorr]
@[simp] theorem errUncorr_bar2 (s : State) (p : Nat) : (errUncorr s p).bar2 = s.bar2 := by simp [errUncorr]
@[simp] theorem errUncorr_parity (s : State) (p : Nat) : (errUncorr s p).parity = s.parity := by simp [errUncorr]
@[simp] theorem errUncorr_fifos (s : State) (p : Nat) : (errUncorr s p).fifos = s.fifos := by simp [errUncorr]
@[simp] theorem errUncorr_freeCount (s : State) (p : Nat) : (errUncorr s p).freeCount = s.freeCount := by simp [errUncorr]

/-! `countRsvd` -/

@[simp] theorem countRsvd_pending (s : State) (p o c : Nat) : (countRsvd s p o c).pending = s.pending := by simp [countRsvd]
@[simp] theorem countRsvd_mem (s : State) (p o c : Nat) : (countRsvd s p o c).mem = s.mem := by simp [countRsvd]
@[simp] theorem countRsvd_ecc (s : State) (p o c : Nat) : (countRsvd s p o c).ecc = s.ecc := by simp [countRsvd]
@[simp] theorem countRsvd_host (s : State) (p o c : Nat) : (countRsvd s p o c).host = s.host := by simp [countRsvd]
@[simp] theorem countRsvd_time (s : State) (p o c : Nat) : (countRsvd s p o c).time = s.time := by simp [countRsvd]
@[simp] theorem countRsvd_power (s : State) (p o c : Nat) : (countRsvd s p o c).power = s.power := by simp [countRsvd]
@[simp] theorem countRsvd_chans (s : State) (p o c : Nat) : (countRsvd s p o c).chans = s.chans := by simp [countRsvd]
@[simp] theorem countRsvd_letters (s : State) (p o c : Nat) : (countRsvd s p o c).letters = s.letters := by simp [countRsvd]
@[simp] theorem countRsvd_replies (s : State) (p o c : Nat) : (countRsvd s p o c).replies = s.replies := by simp [countRsvd]
@[simp] theorem countRsvd_daybook (s : State) (p o c : Nat) : (countRsvd s p o c).daybook = s.daybook := by simp [countRsvd]
@[simp] theorem countRsvd_plans (s : State) (p o c : Nat) : (countRsvd s p o c).plans = s.plans := by simp [countRsvd]
@[simp] theorem countRsvd_parts (s : State) (p o c : Nat) : (countRsvd s p o c).parts = s.parts := by simp [countRsvd]
@[simp] theorem countRsvd_cache (s : State) (p o c : Nat) : (countRsvd s p o c).cache = s.cache := by simp [countRsvd]
@[simp] theorem countRsvd_scrub (s : State) (p o c : Nat) : (countRsvd s p o c).scrub = s.scrub := by simp [countRsvd]
@[simp] theorem countRsvd_refresh (s : State) (p o c : Nat) : (countRsvd s p o c).refresh = s.refresh := by simp [countRsvd]
@[simp] theorem countRsvd_streams (s : State) (p o c : Nat) : (countRsvd s p o c).streams = s.streams := by simp [countRsvd]
@[simp] theorem countRsvd_streamSeq (s : State) (p o c : Nat) : (countRsvd s p o c).streamSeq = s.streamSeq := by simp [countRsvd]
@[simp] theorem countRsvd_tensorDk (s : State) (p o c : Nat) : (countRsvd s p o c).tensorDk = s.tensorDk := by simp [countRsvd]
@[simp] theorem countRsvd_filters (s : State) (p o c : Nat) : (countRsvd s p o c).filters = s.filters := by simp [countRsvd]
@[simp] theorem countRsvd_lattice (s : State) (p o c : Nat) : (countRsvd s p o c).lattice = s.lattice := by simp [countRsvd]
@[simp] theorem countRsvd_sched (s : State) (p o c : Nat) : (countRsvd s p o c).sched = s.sched := by simp [countRsvd]
@[simp] theorem countRsvd_cores (s : State) (p o c : Nat) : (countRsvd s p o c).cores = s.cores := by simp [countRsvd]
@[simp] theorem countRsvd_courier (s : State) (p o c : Nat) : (countRsvd s p o c).courier = s.courier := by simp [countRsvd]
@[simp] theorem countRsvd_safety (s : State) (p o c : Nat) : (countRsvd s p o c).safety = s.safety := by simp [countRsvd]
@[simp] theorem countRsvd_can (s : State) (p o c : Nat) : (countRsvd s p o c).can = s.can := by simp [countRsvd]
@[simp] theorem countRsvd_fuses (s : State) (p o c : Nat) : (countRsvd s p o c).fuses = s.fuses := by simp [countRsvd]
@[simp] theorem countRsvd_nvm (s : State) (p o c : Nat) : (countRsvd s p o c).nvm = s.nvm := by simp [countRsvd]
@[simp] theorem countRsvd_pins (s : State) (p o c : Nat) : (countRsvd s p o c).pins = s.pins := by simp [countRsvd]
@[simp] theorem countRsvd_boot (s : State) (p o c : Nat) : (countRsvd s p o c).boot = s.boot := by simp [countRsvd]
@[simp] theorem countRsvd_ledger (s : State) (p o c : Nat) : (countRsvd s p o c).ledger = s.ledger := by simp [countRsvd]
@[simp] theorem countRsvd_spare (s : State) (p o c : Nat) : (countRsvd s p o c).spare = s.spare := by simp [countRsvd]
@[simp] theorem countRsvd_pair (s : State) (p o c : Nat) : (countRsvd s p o c).pair = s.pair := by simp [countRsvd]
@[simp] theorem countRsvd_lwIndex (s : State) (p o c : Nat) : (countRsvd s p o c).lwIndex = s.lwIndex := by simp [countRsvd]
@[simp] theorem countRsvd_tapIr (s : State) (p o c : Nat) : (countRsvd s p o c).tapIr = s.tapIr := by simp [countRsvd]
@[simp] theorem countRsvd_lostFns (s : State) (p o c : Nat) : (countRsvd s p o c).lostFns = s.lostFns := by simp [countRsvd]
@[simp] theorem countRsvd_completion (s : State) (p o c : Nat) : (countRsvd s p o c).completion = s.completion := by simp [countRsvd]
@[simp] theorem countRsvd_round (s : State) (p o c : Nat) : (countRsvd s p o c).round = s.round := by simp [countRsvd]
@[simp] theorem countRsvd_firstRound (s : State) (p o c : Nat) : (countRsvd s p o c).firstRound = s.firstRound := by simp [countRsvd]
@[simp] theorem countRsvd_ord (s : State) (p o c : Nat) : (countRsvd s p o c).ord = s.ord := by simp [countRsvd]
@[simp] theorem countRsvd_bar2 (s : State) (p o c : Nat) : (countRsvd s p o c).bar2 = s.bar2 := by simp [countRsvd]
@[simp] theorem countRsvd_parity (s : State) (p o c : Nat) : (countRsvd s p o c).parity = s.parity := by simp [countRsvd]
@[simp] theorem countRsvd_fifos (s : State) (p o c : Nat) : (countRsvd s p o c).fifos = s.fifos := by simp [countRsvd]
@[simp] theorem countRsvd_freeCount (s : State) (p o c : Nat) : (countRsvd s p o c).freeCount = s.freeCount := by simp [countRsvd]

/-! `ledgerAddPt` -/

@[simp] theorem ledgerAddPt_pending (s : State) (c i w k : Nat) : (ledgerAddPt s c i w k).pending = s.pending := by unfold ledgerAddPt; dsimp only; split <;> simp
@[simp] theorem ledgerAddPt_regs (s : State) (c i w k : Nat) : (ledgerAddPt s c i w k).regs = s.regs := by unfold ledgerAddPt; dsimp only; split <;> simp
@[simp] theorem ledgerAddPt_mem (s : State) (c i w k : Nat) : (ledgerAddPt s c i w k).mem = s.mem := by unfold ledgerAddPt; dsimp only; split <;> simp
@[simp] theorem ledgerAddPt_ecc (s : State) (c i w k : Nat) : (ledgerAddPt s c i w k).ecc = s.ecc := by unfold ledgerAddPt; dsimp only; split <;> simp
@[simp] theorem ledgerAddPt_host (s : State) (c i w k : Nat) : (ledgerAddPt s c i w k).host = s.host := by unfold ledgerAddPt; dsimp only; split <;> simp
@[simp] theorem ledgerAddPt_time (s : State) (c i w k : Nat) : (ledgerAddPt s c i w k).time = s.time := by unfold ledgerAddPt; dsimp only; split <;> simp
@[simp] theorem ledgerAddPt_power (s : State) (c i w k : Nat) : (ledgerAddPt s c i w k).power = s.power := by unfold ledgerAddPt; dsimp only; split <;> simp
@[simp] theorem ledgerAddPt_chans (s : State) (c i w k : Nat) : (ledgerAddPt s c i w k).chans = s.chans := by unfold ledgerAddPt; dsimp only; split <;> simp
@[simp] theorem ledgerAddPt_letters (s : State) (c i w k : Nat) : (ledgerAddPt s c i w k).letters = s.letters := by unfold ledgerAddPt; dsimp only; split <;> simp
@[simp] theorem ledgerAddPt_replies (s : State) (c i w k : Nat) : (ledgerAddPt s c i w k).replies = s.replies := by unfold ledgerAddPt; dsimp only; split <;> simp
@[simp] theorem ledgerAddPt_daybook (s : State) (c i w k : Nat) : (ledgerAddPt s c i w k).daybook = s.daybook := by unfold ledgerAddPt; dsimp only; split <;> simp
@[simp] theorem ledgerAddPt_plans (s : State) (c i w k : Nat) : (ledgerAddPt s c i w k).plans = s.plans := by unfold ledgerAddPt; dsimp only; split <;> simp
@[simp] theorem ledgerAddPt_parts (s : State) (c i w k : Nat) : (ledgerAddPt s c i w k).parts = s.parts := by unfold ledgerAddPt; dsimp only; split <;> simp
@[simp] theorem ledgerAddPt_cache (s : State) (c i w k : Nat) : (ledgerAddPt s c i w k).cache = s.cache := by unfold ledgerAddPt; dsimp only; split <;> simp
@[simp] theorem ledgerAddPt_scrub (s : State) (c i w k : Nat) : (ledgerAddPt s c i w k).scrub = s.scrub := by unfold ledgerAddPt; dsimp only; split <;> simp
@[simp] theorem ledgerAddPt_refresh (s : State) (c i w k : Nat) : (ledgerAddPt s c i w k).refresh = s.refresh := by unfold ledgerAddPt; dsimp only; split <;> simp
@[simp] theorem ledgerAddPt_streams (s : State) (c i w k : Nat) : (ledgerAddPt s c i w k).streams = s.streams := by unfold ledgerAddPt; dsimp only; split <;> simp
@[simp] theorem ledgerAddPt_streamSeq (s : State) (c i w k : Nat) : (ledgerAddPt s c i w k).streamSeq = s.streamSeq := by unfold ledgerAddPt; dsimp only; split <;> simp
@[simp] theorem ledgerAddPt_tensorDk (s : State) (c i w k : Nat) : (ledgerAddPt s c i w k).tensorDk = s.tensorDk := by unfold ledgerAddPt; dsimp only; split <;> simp
@[simp] theorem ledgerAddPt_filters (s : State) (c i w k : Nat) : (ledgerAddPt s c i w k).filters = s.filters := by unfold ledgerAddPt; dsimp only; split <;> simp
@[simp] theorem ledgerAddPt_lattice (s : State) (c i w k : Nat) : (ledgerAddPt s c i w k).lattice = s.lattice := by unfold ledgerAddPt; dsimp only; split <;> simp
@[simp] theorem ledgerAddPt_sched (s : State) (c i w k : Nat) : (ledgerAddPt s c i w k).sched = s.sched := by unfold ledgerAddPt; dsimp only; split <;> simp
@[simp] theorem ledgerAddPt_cores (s : State) (c i w k : Nat) : (ledgerAddPt s c i w k).cores = s.cores := by unfold ledgerAddPt; dsimp only; split <;> simp
@[simp] theorem ledgerAddPt_courier (s : State) (c i w k : Nat) : (ledgerAddPt s c i w k).courier = s.courier := by unfold ledgerAddPt; dsimp only; split <;> simp
@[simp] theorem ledgerAddPt_safety (s : State) (c i w k : Nat) : (ledgerAddPt s c i w k).safety = s.safety := by unfold ledgerAddPt; dsimp only; split <;> simp
@[simp] theorem ledgerAddPt_can (s : State) (c i w k : Nat) : (ledgerAddPt s c i w k).can = s.can := by unfold ledgerAddPt; dsimp only; split <;> simp
@[simp] theorem ledgerAddPt_fuses (s : State) (c i w k : Nat) : (ledgerAddPt s c i w k).fuses = s.fuses := by unfold ledgerAddPt; dsimp only; split <;> simp
@[simp] theorem ledgerAddPt_nvm (s : State) (c i w k : Nat) : (ledgerAddPt s c i w k).nvm = s.nvm := by unfold ledgerAddPt; dsimp only; split <;> simp
@[simp] theorem ledgerAddPt_pins (s : State) (c i w k : Nat) : (ledgerAddPt s c i w k).pins = s.pins := by unfold ledgerAddPt; dsimp only; split <;> simp
@[simp] theorem ledgerAddPt_boot (s : State) (c i w k : Nat) : (ledgerAddPt s c i w k).boot = s.boot := by unfold ledgerAddPt; dsimp only; split <;> simp
@[simp] theorem ledgerAddPt_spare (s : State) (c i w k : Nat) : (ledgerAddPt s c i w k).spare = s.spare := by unfold ledgerAddPt; dsimp only; split <;> simp
@[simp] theorem ledgerAddPt_pair (s : State) (c i w k : Nat) : (ledgerAddPt s c i w k).pair = s.pair := by unfold ledgerAddPt; dsimp only; split <;> simp
@[simp] theorem ledgerAddPt_lwIndex (s : State) (c i w k : Nat) : (ledgerAddPt s c i w k).lwIndex = s.lwIndex := by unfold ledgerAddPt; dsimp only; split <;> simp
@[simp] theorem ledgerAddPt_tapIr (s : State) (c i w k : Nat) : (ledgerAddPt s c i w k).tapIr = s.tapIr := by unfold ledgerAddPt; dsimp only; split <;> simp
@[simp] theorem ledgerAddPt_lostFns (s : State) (c i w k : Nat) : (ledgerAddPt s c i w k).lostFns = s.lostFns := by unfold ledgerAddPt; dsimp only; split <;> simp
@[simp] theorem ledgerAddPt_outbox (s : State) (c i w k : Nat) : (ledgerAddPt s c i w k).outbox = s.outbox := by unfold ledgerAddPt; dsimp only; split <;> simp
@[simp] theorem ledgerAddPt_completion (s : State) (c i w k : Nat) : (ledgerAddPt s c i w k).completion = s.completion := by unfold ledgerAddPt; dsimp only; split <;> simp
@[simp] theorem ledgerAddPt_round (s : State) (c i w k : Nat) : (ledgerAddPt s c i w k).round = s.round := by unfold ledgerAddPt; dsimp only; split <;> simp
@[simp] theorem ledgerAddPt_firstRound (s : State) (c i w k : Nat) : (ledgerAddPt s c i w k).firstRound = s.firstRound := by unfold ledgerAddPt; dsimp only; split <;> simp
@[simp] theorem ledgerAddPt_ord (s : State) (c i w k : Nat) : (ledgerAddPt s c i w k).ord = s.ord := by unfold ledgerAddPt; dsimp only; split <;> simp
@[simp] theorem ledgerAddPt_bar2 (s : State) (c i w k : Nat) : (ledgerAddPt s c i w k).bar2 = s.bar2 := by unfold ledgerAddPt; dsimp only; split <;> simp
@[simp] theorem ledgerAddPt_parity (s : State) (c i w k : Nat) : (ledgerAddPt s c i w k).parity = s.parity := by unfold ledgerAddPt; dsimp only; split <;> simp
@[simp] theorem ledgerAddPt_fifos (s : State) (c i w k : Nat) : (ledgerAddPt s c i w k).fifos = s.fifos := by unfold ledgerAddPt; dsimp only; split <;> simp
@[simp] theorem ledgerAddPt_freeCount (s : State) (c i w k : Nat) : (ledgerAddPt s c i w k).freeCount = s.freeCount := by unfold ledgerAddPt; dsimp only; split <;> simp

/-! Words and fields over operations that write no register -/

@[simp] theorem send_regGet (s : State) (m : Out) (page off : Nat) : regGet (send s m) page off = regGet s page off := rfl
@[simp] theorem send_fget (s : State) (m : Out) (f : Fld) : fget (send s m) f = fget s f := rfl
@[simp] theorem complete_regGet (s : State) (b : List Byte) (page off : Nat) : regGet (complete s b) page off = regGet s page off := rfl
@[simp] theorem complete_fget (s : State) (b : List Byte) (f : Fld) : fget (complete s b) f = fget s f := rfl
@[simp] theorem raiseWith_regGet (s : State) (c o k p l d : Nat) (page off : Nat) : regGet (raiseWith s c o k p l d) page off = regGet s page off := rfl
@[simp] theorem raiseWith_fget (s : State) (c o k p l d : Nat) (f : Fld) : fget (raiseWith s c o k p l d) f = fget s f := rfl
@[simp] theorem raiseAs_regGet (s : State) (c o k p l d v a : Nat) (page off : Nat) : regGet (raiseAs s c o k p l d v a) page off = regGet s page off := rfl
@[simp] theorem raiseAs_fget (s : State) (c o k p l d v a : Nat) (f : Fld) : fget (raiseAs s c o k p l d v a) f = fget s f := rfl
@[simp] theorem raise_regGet (s : State) (c o k p d : Nat) (page off : Nat) : regGet (raise s c o k p d) page off = regGet s page off := rfl
@[simp] theorem raise_fget (s : State) (c o k p d : Nat) (f : Fld) : fget (raise s c o k p d) f = fget s f := rfl
@[simp] theorem mapTasks_regGet (s : State) (f : Task → Task) (page off : Nat) : regGet (mapTasks s f) page off = regGet s page off := rfl
@[simp] theorem mapTasks_fget (s : State) (f : Task → Task) (g : Fld) : fget (mapTasks s f) g = fget s g := rfl
@[simp] theorem memPut_regGet (s : State) (a : Nat) (b : List Byte) (page off : Nat) : regGet (memPut s a b) page off = regGet s page off := rfl
@[simp] theorem memPut_fget (s : State) (a : Nat) (b : List Byte) (f : Fld) : fget (memPut s a b) f = fget s f := rfl
@[simp] theorem hostPut_regGet (s : State) (a : Nat) (b : List Byte) (page off : Nat) : regGet (hostPut s a b) page off = regGet s page off := rfl
@[simp] theorem hostPut_fget (s : State) (a : Nat) (b : List Byte) (f : Fld) : fget (hostPut s a b) f = fget s f := rfl
@[simp] theorem ledgerSet_regGet (s : State) (c i : Nat) (v : List Nat) (page off : Nat) : regGet (ledgerSet s c i v) page off = regGet s page off := rfl
@[simp] theorem ledgerSet_fget (s : State) (c i : Nat) (v : List Nat) (f : Fld) : fget (ledgerSet s c i v) f = fget s f := rfl
@[simp] theorem ledgerAdd_regGet (s : State) (c i w k : Nat) (page off : Nat) : regGet (ledgerAdd s c i w k) page off = regGet s page off := rfl
@[simp] theorem ledgerAdd_fget (s : State) (c i w k : Nat) (f : Fld) : fget (ledgerAdd s c i w k) f = fget s f := rfl
@[simp] theorem State.popFront_regGet (s : State) (page off : Nat) : regGet (s.popFront) page off = regGet s page off := rfl
@[simp] theorem State.popFront_fget (s : State) (f : Fld) : fget (s.popFront) f = fget s f := rfl
@[simp] theorem sendMsix_regGet (s : State) (n v : Nat) (page off : Nat) : regGet (sendMsix s n v) page off = regGet s page off := by unfold regGet; simp
@[simp] theorem sendMsix_fget (s : State) (n v : Nat) (f : Fld) : fget (sendMsix s n v) f = fget s f := by simp [fget]
@[simp] theorem pageIrq_regGet (s : State) (p : Nat) (page off : Nat) : regGet (pageIrq s p) page off = regGet s page off := by unfold regGet; simp
@[simp] theorem pageIrq_fget (s : State) (p : Nat) (f : Fld) : fget (pageIrq s p) f = fget s f := by simp [fget]
@[simp] theorem eccSet_regGet (s : State) (w : Nat) (e : Option EccSt) (page off : Nat) : regGet (eccSet s w e) page off = regGet s page off := by unfold regGet; simp
@[simp] theorem eccSet_fget (s : State) (w : Nat) (e : Option EccSt) (f : Fld) : fget (eccSet s w e) f = fget s f := by simp [fget]
@[simp] theorem ledgerAddPt_regGet (s : State) (c i w k : Nat) (page off : Nat) : regGet (ledgerAddPt s c i w k) page off = regGet s page off := by unfold regGet; simp
@[simp] theorem ledgerAddPt_fget (s : State) (c i w k : Nat) (f : Fld) : fget (ledgerAddPt s c i w k) f = fget s f := by simp [fget]

@[simp] theorem fput_now (s : State) (f : Fld) (v : Nat) : now (fput s f v) = now s := rfl
@[simp] theorem fadd_now (s : State) (f : Fld) (v : Nat) : now (fadd s f v) = now s := rfl
@[simp] theorem setEvent_now (s : State) (p b : Nat) : now (setEvent s p b) = now s := by simp [now]
@[simp] theorem raise_now (s : State) (c o k p d : Nat) : now (raise s c o k p d) = now s := rfl
@[simp] theorem send_now (s : State) (m : Out) : now (send s m) = now s := rfl

end Sys2Proof.Machine
end

