-- ==== Sys2Proof/Laws/Words.lean ====
section
/-! SUPPORT. Which register words an operation writes, and what the set of an EVENT bit leaves in its page's header. -/

namespace Sys2Proof.Machine

theorem regKey_inj {p o p' o' : Nat} (h : o < 0x1000) (h' : o' < 0x1000) (e : regKey p o = regKey p' o') : p = p' ∧ o = o' := by
  unfold regKey at e; omega

/-- Fields of different words of two pages are apart. -/
theorem Fld.apart_of_word {f g : Fld} (hf : f.off < 0x1000) (hg : g.off < 0x1000) (h : g.word ≠ f.word) : f.apart g :=
  .inl fun e => h (by have := regKey_inj hg hf e; simp [Fld.word, this.1, this.2])

theorem WordsBut.refl (ws : List (Nat × Nat)) (s : State) : WordsBut ws s s := fun _ _ _ _ => rfl

theorem WordsBut.trans {ws : List (Nat × Nat)} {a b c : State} (h : WordsBut ws a b) (k : WordsBut ws b c) : WordsBut ws a c :=
  fun p o l m => (k p o l m).trans (h p o l m)

theorem WordsBut.mono {ws vs : List (Nat × Nat)} {a b : State} (h : WordsBut ws a b) (k : ∀ w ∈ ws, w ∈ vs) : WordsBut vs a b :=
  fun p o l m => h p o l fun n => m (k _ n)

theorem WordsBut.of_regs {ws : List (Nat × Nat)} {a b c : State} (h : WordsBut ws a b) (e : c.regs = b.regs) :
    WordsBut ws a c := fun p o l m => by
  rw [← h p o l m]; unfold regGet; rw [e]

theorem WordsBut.pages {ws : List (Nat × Nat)} {ps : List Nat} {a b : State} (h : WordsBut ws a b)
    (k : ∀ w ∈ ws, w.1 ∈ ps) : PagesBut ps a b := fun p o l m => h p o l fun n => m (k _ n)

theorem WordsBut.regPut {ws : List (Nat × Nat)} {a b : State} (h : WordsBut ws a b) {p o : Nat} (v : Nat) (l : o < 0x1000)
    (m : (p, o) ∈ ws) : WordsBut ws a (regPut b p o v) := fun p' o' l' m' => by
  rw [← h p' o' l' m', regGet_regPut_other]
  intro e
  obtain ⟨rfl, rfl⟩ := regKey_inj l' l e
  exact m' m

theorem WordsBut.fput {ws : List (Nat × Nat)} {a b : State} (h : WordsBut ws a b) (f : Fld) (v : Nat) (l : f.off < 0x1000)
    (m : f.word ∈ ws) : WordsBut ws a (fput b f v) := h.regPut _ l m

theorem WordsBut.fadd {ws : List (Nat × Nat)} {a b : State} (h : WordsBut ws a b) (f : Fld) (v : Nat) (l : f.off < 0x1000)
    (m : f.word ∈ ws) : WordsBut ws a (fadd b f v) := h.fput _ _ l m

theorem pageIrq_regs' (s : State) (p : Nat) : (pageIrq s p).regs = s.regs := by simp

theorem WordsBut.setEvent {ws : List (Nat × Nat)} {a b : State} (h : WordsBut ws a b) (p e : Nat)
    (m : ∀ w ∈ eventWords p, w ∈ ws) : WordsBut ws a (setEvent b p e) := by
  have h1 : (p, 0x010) ∈ ws := m _ (by simp [eventWords])
  have h2 : (p, 0x01C) ∈ ws := m _ (by simp [eventWords])
  have h3 : (p, 0x038) ∈ ws := m _ (by simp [eventWords])
  have h4 : (p, 0x03C) ∈ ws := m _ (by simp [eventWords])
  have k := (((h.fput (Fd.hdr_EVENT p) (fget b (Fd.hdr_EVENT p) ||| 2 ^ e) (Nat.le_of_ble_eq_true rfl) h1).fadd (Fd.hdr_EVENT_COUNT p) 1
    (Nat.le_of_ble_eq_true rfl) h2).fput (Fd.hdr_LAST_EVENT_PM_LO p) (now b % 2 ^ 32) (Nat.le_of_ble_eq_true rfl) h3).fput (Fd.hdr_LAST_EVENT_PM_HI p)
    (now b / 2 ^ 32) (Nat.le_of_ble_eq_true rfl) h4
  unfold Machine.setEvent
  dsimp only
  split
  · exact k.of_regs (by simp)
  · exact k

/-- A field of a word that is not written reads as before. -/
theorem WordsBut.fget {ws : List (Nat × Nat)} {a b : State} (h : WordsBut ws a b) (g : Fld) (l : g.off < 0x1000)
    (m : g.word ∉ ws) : fget b g = fget a g := by
  unfold Machine.fget; rw [h _ _ l m]

end Sys2Proof.Machine
end

