-- ==== Sys2Proof/Tests/Slice0.lean ====
section
/-! SUPPORT. Tests of the model's own: the checks of WellFormed refuse, each premise of the statements is met by some state and
operands, and a few commands on small states. -/

namespace Sys2Proof.Tests

open Sys2Proof Sys2Proof.Machine

set_option Elab.async false

/-! ### States that the tests start from -/

/-- PID 0's host function. -/
def host0 : Requester := .fn 0

/-- The state after reset with some fields of registers at other values. -/
def regsAt (l : List (Fld × Nat)) : State := fputs State.reset l

/-- A Corod that is READY, with its link up, at tick 1,000,007. -/
def live : State :=
  { State.reset with
    boot := ⟨true, true, true, true, true, some 0, 1, true, true, true, false, false, true⟩
    pins := { State.reset.pins with mainPg := true, sysRstN := true, perstN := true, linkUp := true, safeN := true }
    time := { State.reset.time with counter := 1000007, prev := 1000006, running := true }
    safety := { State.reset.safety with wdgArmed := true, wdgLast := 1000000 } }

/-- A live Corod with some fields of registers at other values. -/
def liveAt (l : List (Fld × Nat)) : State := fputs live l

/-- A state at another tick. -/
def atTick (s : State) (n : Nat) : State := { s with time := { s.time with counter := BitVec.ofNat 64 n, prev := BitVec.ofNat 64 (n - 1) } }

/-! ### What the premises of statements unfold to -/

theorem canonical_of {s : State} (h : (Memory.wf s.mem ∧ Memory.wf s.host ∧ s.regs.Pairwise (fun a b => a.1 < b.1)) ∧
    s.ecc.Pairwise fun a b => a.1 < b.1) : Canonical s := ⟨h.1.1, h.1.2.1, h.1.2.2, h.2⟩

theorem shaped_of {s : State} (h : s.chans.length = 64 ∧ s.parts.length = 16 ∧ s.filters.length = 32 ∧ s.fifos.length = 8 ∧
    s.cores.length = 34 ∧ (∀ k ∈ s.cores, k.x.length = 32 ∧ k.f.length = 32 ∧ k.tq.length = 4) ∧ s.courier.lastGood.length = 6 ∧
    s.courier.nextTrain.length = 6 ∧ s.courier.bundles.length = 6 ∧ s.courier.groups.length = 16 ∧ s.can.length = 2) : Shaped s :=
  ⟨h.1, h.2.1, h.2.2.1, h.2.2.2.1, h.2.2.2.2.1, h.2.2.2.2.2.1, h.2.2.2.2.2.2.1, h.2.2.2.2.2.2.2.1, h.2.2.2.2.2.2.2.2.1,
    h.2.2.2.2.2.2.2.2.2.1, h.2.2.2.2.2.2.2.2.2.2⟩

theorem edgeQuiet_of {s : State} (h : fget s Fd.sched_COMMIT = 0 ∧ s.bar2 = [] ∧ ∀ l ∈ s.fifos, l = []) : EdgeQuiet s :=
  ⟨h.1, h.2.1, h.2.2⟩

/-- A boot image of eight bytes. -/
def testImage : List Byte :=
  let body : List Byte := [1, 2, 3, 4, 5, 6, 7, 8]
  let h := leBytes 4 0x52424F43 ++ leBytes 4 0x01 ++ leBytes 4 7 ++ leBytes 4 8 ++ leBytes 4 (crc32c body) ++ List.replicate 40 0
  h ++ leBytes 4 (crc32c h) ++ body

/-- A timetable of 1,000 pt: a REFRESH slot, a WINDOW of Truss units, a REFRESH slot. -/
def smallTable : List W32 :=
  [1000, 3, 0, 0] ++ [0x10, 0, 100, 0, 0] ++ [0x100, 100, 350, 0x40000101, 0x00020006] ++ [0x10, 500, 100, 0, 0]

/-- A timetable of 5,000 pt whose one REFRESH slot comes too seldom for any rate. -/
def slowTable : List W32 := [5000, 1, 0, 0] ++ [0x10, 0, 100, 0, 0]

/-- A live Corod at a tick, with some fields at other values and partition 1 Strict with a timetable active. -/
def strictAt (n : Nat) (tt : List W32) (l : List (Fld × Nat)) : State :=
  { atTick (liveAt ([(Fd.part_REGIME 1, 1), (Fd.dram_REFRESH_DERATE_MAX, 1), (Fd.power_DOMAIN_RUN, 15), (Fd.sched_TT_ACTIVE, 1)] ++ l)) n with
    sched := { live.sched with active := tt } }

/-- One whole cache line of PID 1 at the start of LPDDR5X, with a correctable word. -/
def oneLine : CacheLine := ⟨0, 0, 1, dramBase, List.replicate 256 0, [], [(0, .corr)], false⟩

/-- A record's version that waits for its commit to cell 5. -/
def aVersion : Version := ⟨1, 3, 0x01, 0, 50, 0, 0, 1, 0, 1, 1000, 0, 0, 0, 5, false⟩

/-- A Corod of a two-chip system whose links 0 and 1 are up. -/
def paired (l : List (Fld × Nat)) : State := liveAt ([(Fd.link_STATE 0, 2), (Fd.link_STATE 1, 2)] ++ l)

/-- A Corod of a two-chip system with no link up. -/
def alone (l : List (Fld × Nat)) : State := { liveAt l with pair := { live.pair with since := 0 } }

theorem keepUp_false {s : State} {k : Nat} (h : 776 < refreshInterval s.sched.active k)
    (hk : k ∈ (List.range (ttCount s.sched.active)).filter fun k => !ttIsWindow s.sched.active k) (m : Nat) : slotsKeepUp s m = false := by
  unfold slotsKeepUp
  refine List.all_eq_false.2 ⟨k, hk, ?_⟩
  have : ¬ refreshInterval s.sched.active k ≤ 776 / m := Nat.not_le.2 (Nat.lt_of_le_of_lt (Nat.div_le_self _ _) h)
  simp [this]

theorem owed_above {s : State} (h : 8 < s.refresh.owed) : 8 < owedNow s := by unfold owedNow; omega

/-- Device memory whose first LPDDR5X region PID 1 owns, PID 1 a Loose partition of function 1 behind the Beam cache. -/
def looseOne (l : List (Fld × Nat)) : State :=
  liveAt ([(Fd.part_REGIME 1, 2), (Fd.part_CACHE_WAYS 1, 4), (Fd.part_CACHE_BANKS 0, 1), (Fd.part_VF_MASK 1, 1), (Fd.region_OWNED 0, 1),
    (Fd.region_REGION_OWNER 0, 1), (Fd.region_REGION_SIZE 0, 1)] ++ l)

/-- The roles of the physical units that start as spares. -/
def spareRoles : List (Fld × Nat) :=
  [(Fd.truss_ROLE 8, 1), (Fd.scribe_ROLE 17, 1), (Fd.joiner_ROLE 16, 1), (Fd.beam_ROLE 33, 1), (Fd.beam_ROLE 32, 1)]

/-- The words of a container: its tensors as format, kind and dimensions, its operators as code, inputs, outputs and parameters, and
further sections. -/
def mkPlan (tens : List (Nat × Nat × List Nat)) (ops : List (Nat × List Nat × List Nat × List Nat)) (cw : Nat) (more : List (Nat × List Nat))
    (strict : Nat) : List W32 :=
  let tw := tens.flatMap fun t => [t.1 + t.2.2.length * 256 + t.2.1 * 4096] ++ (t.2.2 ++ List.replicate 6 0).take 6 ++ [0]
  let ow := ops.flatMap fun o =>
    [o.1 + o.2.1.length * 65536 + o.2.2.1.length * 2 ^ 20 + o.2.2.2.length * 2 ^ 24, 0, 0, cw] ++ o.2.1 ++ o.2.2.1 ++ o.2.2.2
  let secs := [(1, tw), (3, ow)] ++ more
  let tab := (secs.foldl (fun (a : Nat × List Nat) x => (a.1 + x.2.length, a.2 ++ [x.1, a.1, x.2.length, 0]))
    (16 + 4 * secs.length, [])).2
  let body := tab ++ secs.flatMap (·.2)
  ([0x5A43504C, 2, 4 * (16 + body.length), secs.length + strict * 16, 0, tens.length, ops.length, 0, 0, 0, 0, 0, 0, 0, 0, 0] ++
    body).map (BitVec.ofNat 32)

/-- A plan of one operator of a code over a tensor of 4 × 2 FP16, with a code section. -/
def onePlan (code : Nat) (params : List Nat) : PlanSt :=
  ⟨mkPlan [(0x0A, 1, [4, 2]), (0x0A, 2, [4, 2])] [(code, [0], [1], params)] 8 [(5, [0x73, 0, 0, 0, 0, 0, 0, 0])] 0, 0, 0, false, none, [[1]], []⟩

/-- The operator of such a plan. -/
def oneOp (code : Nat) (params : List Nat) : OpDesc :=
  ((planOps (onePlan code params).words).head?).getD ⟨0, 0, [], [], [], false, false, false, 0, 0, 0⟩

/-- The entry of a Letter of channel 3 with the sequence number 60. -/
def entry60 (args : List Byte) : LetterIn := ⟨1, 3, 1, 60, 0, 0, 0, 0x1122, (args ++ List.replicate 100 0).take 100, 0⟩

/-- A Letter of PID 0 in flight on channel 3. -/
def inFlight (op : Nat) (phase : LPhase) (args : List Byte) : Letter :=
  ⟨3, op, entry60 args, [], 0, 0, phase, 1000000, 0, 0, some 5, 1, 1, [], none, Result.plain 0 0⟩

/-- A dispatched task of a Letter in flight. -/
def oneTask (code : Nat) (kind : UnitKind) (units : List Nat) (computed : Bool) : Task :=
  ⟨7, 3, 60, 0, 0, code, kind, 1, 1, false, 1000000, some 1000000, 2000000, units, [], [], [List.replicate 32 0], 0, [], computed,
    Result.plain 0 0, none, none, [], []⟩

/-- A live Corod in which a task runs operator 0 of a plan. -/
def running (x : Task) (params : List Nat) (l : List (Fld × Nat)) : State :=
  { liveAt l with
    letters := [inFlight 0x04 .started (leBytes 2 1)]
    plans := [(1, onePlan x.code params)]
    sched := { live.sched with tasks := [x], nextId := 8 } }

/-- The collective that the task of a running Courier operator belongs to. -/
def oneColl (code : Nat) (staged : Bool) : CollSt := ⟨7, 4, ⟨code, [0x0A], 8, []⟩, 1000000, [], staged, false, []⟩

/-- A group of two chips on the x axis, coordinated from address 0, enabled for PID 0 and synchronised. -/
def grouped (addr : Nat) : List (Fld × Nat) :=
  [(Fd.coll_GROUP_ENABLE 0, 1), (Fd.coll_GROUP_PID 0, 0), (Fd.coll_SYNCED, 1), (Fd.coll_CHIP_ADDR, addr), (Fd.link_STATE 0, 2),
    (Fd.link_STATE 1, 2), (Fd.coll_GROUP_BOX 0, 0x10), (Fd.coll_ALIGNED, 1)]

/-- A state with a collective active in group 0. -/
def collecting (s : State) (c : CollSt) : State :=
  { s with courier := { s.courier with groups := ⟨5, [c], [], false⟩ :: List.replicate 15 GroupSt.reset } }

/-- A flit of the other chip for group 0. -/
def fromPeer (src : BitVec 12) : FlitIn := ⟨0, src, 0, 0, 4⟩

/-- The first 252 bytes of a flit of a type with a sequence number. -/
def flitFront (kind seq : Nat) : List Byte := [0xA5, BitVec.ofNat 8 kind] ++ leBytes 2 seq ++ List.replicate 248 0

/-- A flit of a type with a sequence number, its CRC-32 off by `bad`. -/
def aFlit (kind seq bad : Nat) : List Byte := flitFront kind seq ++ leBytes 4 (crc32 (flitFront kind seq) + bad)

theorem crc32_lt (b : List Byte) : crc32 b < 2 ^ 32 := by
  have step : ∀ c, c < 2 ^ 32 → crcStepR 0xEDB88320 c < 2 ^ 32 := fun c h => by
    unfold crcStepR; split
    · exact Nat.xor_lt_two_pow (by omega) (by decide)
    · omega
  have byte : ∀ c (x : Byte), c < 2 ^ 32 → crc32Byte c x < 2 ^ 32 := fun c x h =>
    step _ (step _ (step _ (step _ (step _ (step _ (step _ (step _ (Nat.xor_lt_two_pow h (by have := x.isLt; omega)))))))))
  have fold : ∀ (l : List Byte) c, c < 2 ^ 32 → l.foldl crc32Byte c < 2 ^ 32 := fun l => by
    induction l with
    | nil => exact fun c h => h
    | cons x l ih => exact fun c h => ih _ (byte c x h)
  exact Nat.xor_lt_two_pow (fold b _ (by decide)) (by decide)

theorem bytesAt_front (b x : List Byte) (n : Nat) (h : b.length = n) : bytesAt (b ++ x) 0 n = b := by
  subst h; simp [bytesAt]

theorem leAt_end (b : List Byte) (v n : Nat) (h : b.length = n) : leAt (b ++ leBytes 4 v) n 4 = v % 2 ^ 32 := by
  subst h; simp [leAt, bytesAt, leBytes, leNat]; omega

theorem flitFront_length (kind seq : Nat) : (flitFront kind seq).length = 252 := by
  simp only [flitFront, leBytes, List.length_append, List.length_cons, List.length_nil, List.length_replicate]

theorem flit_crc (kind seq : Nat) : leAt (aFlit kind seq 0) 252 4 = crc32 (bytesAt (aFlit kind seq 0) 0 252) := by
  rw [aFlit, leAt_end _ _ 252 (flitFront_length _ _), bytesAt_front _ _ 252 (flitFront_length _ _), Nat.add_zero, Nat.mod_eq_of_lt (crc32_lt _)]

theorem flit_crc_wrong (kind seq : Nat) : leAt (aFlit kind seq 1) 252 4 ≠ crc32 (bytesAt (aFlit kind seq 1) 0 252) := by
  rw [aFlit, leAt_end _ _ 252 (flitFront_length _ _), bytesAt_front _ _ 252 (flitFront_length _ _)]
  have := crc32_lt (flitFront kind seq)
  omega

/-- A problem tensor of one unknown and no constraint: a Quadratic program (0), a Cholesky problem (1), a linear system (2). -/
def tinyProblem (kind : Nat) : List Byte :=
  let w := fun l : List Nat => l.flatMap (leBytes 4)
  let one := 0x3F800000
  w [0x5A435051] ++ [BitVec.ofNat 8 kind, if kind = 1 then 2 else 0, 0, 0] ++ w [1, 0, 0, 0] ++ List.replicate 8 0 ++
    w [128, 132, 0, 0, 0, 0, 0, 0] ++
    (if kind = 0 then w [one, 0x3F000000, one, 0, 0, one, one] else List.replicate 28 0) ++ List.replicate 36 0 ++ w [one, one]

/-- A dispatched Plane task over such a problem. -/
def planeTask (code kind : Nat) (computed : Bool) : Task :=
  { oneTask code .plane [1] computed with inData := [tinyProblem kind] }

/-- A live Corod in which a task of a Letter of its own, not of a plan, runs. -/
def runningOf (op : Nat) (x : Task) (args : List Byte) (l : List (Fld × Nat)) : State :=
  { running x [] l with letters := [inFlight op .started args] }

/-- A camera frame of four lines of two pixels. -/
def aFrame : FrameRef := ⟨0, 0, 0x1000, 4096, 2, 4, 0x2A⟩

/-- A live Corod in which a task runs a plan's operator with a macro-instruction of its own. -/
def runningMacro (x : Task) (m : List Nat) : State :=
  { running x [] [] with plans := [(1, ⟨mkPlan [(0x0A, 1, [4, 2]), (0x0A, 2, [4, 2])] [(x.code, [0], [1], [])] 8 [(4, m)] 0, 0, 0, false, none,
    [[1]], []⟩)] }

/-- The code of a core's local store, from its start. -/
def withCode (s : State) (core : Nat) (ws : List Nat) : State := memPut s (storeAddr core 0) (ws.flatMap (leBytes 4))

/-- The registers of a core in user mode that runs task 7: register 1 holds `a`, register 2 holds `b`. -/
def userCore (a b : W64) (tq : List Tile) : CoreSt :=
  { CoreSt.reset with task := some 7, x := [0, a, b] ++ List.replicate 29 0, tq := [tq, [], [], []], machine := false }

/-- A live Corod in which core 2 runs a joiner task's code. -/
def joining (code : Nat) (units : List Nat) (k : CoreSt) (ws : List Nat) : State :=
  withCode { running (oneTask code .joiner units true) [] [] with
    cores := [CoreSt.reset, CoreSt.reset, k] ++ List.replicate 31 CoreSt.reset } 2 ws

/-- A transfer of one row into the buffer, from the Beam store. -/
def aTile (done : Option Nat) : Tile := ⟨windowBase + 0x1000, 0x20000, 64, 1, 64, 64, done⟩

/-- A live Corod whose timetable is written and waits for its validation. -/
def committing (tt : List W32) : State :=
  { strictAt 1000007 [] [(Fd.sched_COMMIT, 1)] with
    sched := { live.sched with shadow := (List.range tt.length).zip tt } }

/-- The words of a Strict plan of one operator on Truss engine 1 that starts 10 pt after the anchor at 150 pt. -/
def strictWords : List W32 :=
  mkPlan [(0x0A, 1, [4, 2]), (0x0A, 2, [4, 2])] [(0x021, [0], [1], [])] 8 [(5, [0x73]), (7, [0, 150, 0, 10, 100, 1])] 1

/-- That plan. -/
def strictPlan : PlanSt := ⟨strictWords, containerCrc strictWords, 1, false, none, [[1]], []⟩

theorem strictPlan_crc : containerCrc strictPlan.words = strictPlan.crc := Eq.refl (containerCrc strictWords)

/-- A live Corod in which a Letter runs, or is to run, that plan. -/
def strictRun (n : Nat) (l : Letter) (more : List Letter) (tasks : List Task) : State :=
  { strictAt n smallTable [] with
    letters := more ++ [l]
    plans := [(1, strictPlan)]
    sched := { live.sched with active := smallTable, tasks := tasks, nextId := 8 } }

/-- Such a Letter, with its run. -/
def strictLetter (phase : LPhase) (run : Option RunSt) : Letter :=
  { inFlight 0x04 phase (leBytes 2 1) with run := run, ord := 1 }

/-- A task that waits for its start. -/
def waitingTask (code : Nat) (kind : UnitKind) (strict : Bool) : Task :=
  { oneTask code kind [] false with disp := none, strict := strict }

/-- The filter that receives nothing. -/
def idleFilter : FilterSt := ⟨none, none, none, 0, none, none, false, List.replicate 8 0, 0, .idle⟩

/-- A filter within a frame of two lines of four pixels, `lines` of which have come. -/
def midFrame (lines : Nat) : FrameSt := ⟨9, 1000000, 1, lines, 0xFFFFFFFF, 0, [], false, false⟩

/-- A filter that receives a frame. -/
def onFrame (c : FrameSt) : FilterSt := { idleFilter with cur := some c, arr := .frame }

/-- A live Corod whose port 7 has filter 3 open to virtual channel 15, for frames in two slots at the start of LPDDR5X. -/
def camera (f : FilterSt) (l : List (Fld × Nat)) : State :=
  { liveAt ([(Fd.intake_ENABLE 7, 1), (Fd.intake_F_ENABLE 7 3, 1), (Fd.intake_VC 7 3, 15), (Fd.intake_DT 7 3, 0x2A),
      (Fd.intake_WIDTH 7 3, 4), (Fd.intake_HEIGHT 7 3, 2), (Fd.intake_BUF_BASE_HI 7 3, 1), (Fd.intake_BUF_SLOTS 7 3, 2),
      (Fd.intake_SENSOR_CHECK 7 3, 0), (Fd.region_OWNED 0, 1), (Fd.region_REGION_SIZE 0, 1), (Fd.part_REGIME 0, 2),
      (Fd.intake_STREAM 7 3, 5)] ++ l) with
    filters := List.replicate 31 idleFilter ++ [f] }

/-- A good packet header on an idle lane. -/
def goodPhy : PhyIn := ⟨.good, false, none⟩

/-- The tag line of a sensor that counts `n` and sends a CRC of its image lines. -/
def tagLine (n crc : Nat) : List Byte :=
  let b := leBytes 1 0x5A ++ leBytes 1 0x54 ++ leBytes 4 n ++ leBytes 4 crc ++ leBytes 2 0
  b ++ leBytes 4 (crc32c b)

/-- A whole frame with its tag line. -/
def tagged (n crc : Nat) : FrameSt := { midFrame 2 with tags := 1, tag := tagLine n crc }

/-- A live Corod whose lattice is on at bank 4. -/
def latticed (l : List (Fld × Nat)) : State :=
  liveAt ([(Fd.lattice_LAT_EN, 1), (Fd.lattice_EPOCH_BASE, 4 * 0x300000), (Fd.lattice_STREAM, 1), (Fd.part_REGIME 0, 2),
    (Fd.part_BEAM_BANKS 0, 0xFF0), (Fd.daybook_DB_MIRROR_BASE_HI, 1), (Fd.lattice_PUBLISHED, 1)] ++ l)

/-- A WORLD_UPDATE of no objects. -/
def anUpdate (phase : LPhase) (magic : Nat) : Letter :=
  { inFlight 0x07 phase (leBytes 1 2 ++ List.replicate 15 0 ++ leBytes 4 64) with
    data := leBytes 4 magic ++ leBytes 1 2 ++ List.replicate 59 0 }

/-- A line in a port's FIFO that leaves room for three bytes. -/
def bigLine : FifoItem := .line 31 (List.replicate 65533 0)

theorem bigLine_fills {s : State} {port : Nat} (h : fifoAt s port = [bigLine]) (n : Nat) (hn : n = 4) : 65536 < fifoFill s port + n := by
  unfold fifoFill
  rw [h]
  simp only [List.foldl_cons, List.foldl_nil, bigLine, FifoItem.room, List.length_replicate]
  omega

theorem crc32c_lt (b : List Byte) : crc32c b < 2 ^ 32 := by
  have step : ∀ c, c < 2 ^ 32 → crcStepR 0x82F63B78 c < 2 ^ 32 := fun c h => by
    unfold crcStepR; split
    · exact Nat.xor_lt_two_pow (by omega) (by decide)
    · omega
  have byte : ∀ c (x : Byte), c < 2 ^ 32 → crc32cByte c x < 2 ^ 32 := fun c x h =>
    step _ (step _ (step _ (step _ (step _ (step _ (step _ (step _ (Nat.xor_lt_two_pow h (by have := x.isLt; omega)))))))))
  have fold : ∀ (l : List Byte) c, c < 2 ^ 32 → l.foldl crc32cByte c < 2 ^ 32 := fun l => by
    induction l with
    | nil => exact fun c h => h
    | cons x l ih => exact fun c h => ih _ (byte c x h)
  exact Nat.xor_lt_two_pow (fold b _ (by decide)) (by decide)

/-- A ring entry with its CRC. -/
def sealed (op : Nat) (l : LetterIn) : LetterIn := { l with crc := BitVec.ofNat 32 (crc32c (letterBody op l)) }

theorem frontFault_sealed (ch op index : Nat) (l : LetterIn) :
    frontFault ch op index (sealed op l) = firstSome [chk (l.slot.toNat == index) 0x08, chk (bits l.chan.toNat 5 0 == ch) 0x02] := by
  have h : (BitVec.ofNat 32 (crc32c (letterBody op l))).toNat = crc32c (letterBody op l) := by
    rw [BitVec.toNat_ofNat, Nat.mod_eq_of_lt (crc32c_lt _)]
  simp only [frontFault, sealed]
  rw [h]
  simp only [letterBody, beq_self_eq_true]
  rfl

theorem readsNext_of {s : State} {ch op : Nat} {l : LetterIn} (h : nextRead s = some ch ∧ (chanOf s ch).held = none ∧
    firstSome [chk (l.slot.toNat == fget s (Fd.chan_LRING_HEAD ch)) 0x08, chk (bits l.chan.toNat 5 0 == ch) 0x02] = none) :
    ReadsNext s ch op (sealed op l) := ⟨h.1, h.2.1, (frontFault_sealed _ _ _ _).trans h.2.2⟩

theorem admitted_of {s : State} {ch op : Nat} {l : LetterIn} {data : List Byte} (h : (creditedOp op = true ∨ uncredited s ch < 4) ∧
    classify s ch l.seq.toNat = .fresh ∧ fieldFault (judgeState s ch op l) op ch (fget s (Fd.chan_PID ch)) l data = none ∧
    forbidden (judgeState s ch op l) op (fget s (Fd.chan_PID ch)) l data = false ∧ keyRefused (judgeState s ch op l) op l = false ∧
    notReady (judgeState s ch op l) op (fget s (Fd.chan_PID ch)) l = none ∧
    (creditedOp op = true → creditLack (judgeState s ch op l) ch (fget s (Fd.chan_PID ch)) [] = none) ∧
    victims (judgeState s ch op l) op (fget s (Fd.chan_PID ch)) (bits l.stream.toNat 11 0) = [] ∧
    dbVolatile (judgeState s ch op l) = false) : Admitted s ch op l data :=
  ⟨h.1, h.2.1, h.2.2.1, h.2.2.2.1, h.2.2.2.2.1, h.2.2.2.2.2.1, h.2.2.2.2.2.2.1, h.2.2.2.2.2.2.2.1, h.2.2.2.2.2.2.2.2⟩

theorem canStart_of {s : State} {ch seq : Nat} {l : Letter} (h : letterOf s ch seq = some l ∧ mayStart s l = true ∧
    underWay s l = false ∧ s.boot.holdup = false ∧ (movesData l.op = true → hostGone s l.pid = false) ∧ dbVolatile s = false) :
    CanStart s ch seq l := ⟨h.1, h.2.1, h.2.2.1, h.2.2.2.1, h.2.2.2.2.1, h.2.2.2.2.2⟩

theorem canStart_at {s : State} {ch seq : Nat} {l : Letter} (hl : letterOf s ch seq = some l) (h : mayStart s l = true ∧
    underWay s l = false ∧ s.boot.holdup = false ∧ (movesData l.op = true → hostGone s l.pid = false) ∧ dbVolatile s = false) :
    CanStart s ch seq l := ⟨hl, h.1, h.2.1, h.2.2.1, h.2.2.2.1, h.2.2.2.2⟩

theorem fits_of {e : LetterCmd} {l : LetterIn} (h : e.command = none) : e.fits l := by
  intro n hn; rw [h] at hn; cases hn

/-- A live Corod with channel 3 open to PID 0, a Loose partition, and five entries to read. -/
def ringed (l : List (Fld × Nat)) : State :=
  liveAt ([(Fd.chan_LRING_SIZE 3, 16), (Fd.chan_RRING_SIZE 3, 16), (Fd.chan_CREDIT 3, 8), (Fd.chan_ENABLE 3, 1), (Fd.chan_DOORBELL 3, 5),
    (Fd.part_REGIME 0, 2), (Fd.part_MAX_SCLASS 0, 4), (Fd.daybook_DB_MIRROR_BASE_HI, 1)] ++ l)

/-- Such a Corod with Letters in flight. -/
def holding (ls : List Letter) (l : List (Fld × Nat)) : State := { ringed l with letters := ls }

/-- A Letter in flight on channel 4, older than those of channel 3. -/
def otherLetter (op seq : Nat) (phase : LPhase) (args : List Byte) : Letter :=
  { inFlight op phase args with ch := 4, l := { entry60 args with seq := BitVec.ofNat 32 seq, chan := 4 } }

/-- A younger Letter. -/
def younger (l : Letter) : Letter := { l with ord := 1 }

/-- The words of a plan that passes every check, but for its CRC. -/
def goodFront : List W32 := mkPlan [(0x0A, 1, [4, 2]), (0x0A, 2, [8])] [(0x020, [0], [1], [])] 0 [(5, [0x73])] 0

/-- The words of a plan that passes every check. -/
def goodWords : List W32 := goodFront.set 15 (BitVec.ofNat 32 (crc32c (bytesOfWords goodFront)))

theorem wordsOf_bytesOfWords (p : List W32) : wordsOf (bytesOfWords p) = p := by
  induction p with
  | nil => rfl
  | cons w p ih =>
    have h : bytesOfWords (w :: p) = BitVec.ofNat 8 w.toNat :: BitVec.ofNat 8 (w.toNat / 256) ::
        BitVec.ofNat 8 (w.toNat / 256 / 256) :: BitVec.ofNat 8 (w.toNat / 256 / 256 / 256) :: bytesOfWords p := rfl
    rw [h, wordsOf, ih]
    have e : leNat [BitVec.ofNat 8 w.toNat, BitVec.ofNat 8 (w.toNat / 256), BitVec.ofNat 8 (w.toNat / 256 / 256),
        BitVec.ofNat 8 (w.toNat / 256 / 256 / 256)] = w.toNat := by
      have := w.isLt
      simp only [leNat, BitVec.toNat_ofNat]
      omega
    rw [e, BitVec.ofNat_toNat, BitVec.setWidth_eq]

theorem stamped_crc (f : List W32) (hl : 15 < f.length) (hf : f.set 15 0 = f) :
    (pw (f.set 15 (BitVec.ofNat 32 (crc32c (bytesOfWords f)))) 15 ==
      crc32c (bytesOfWords ((f.set 15 (BitVec.ofNat 32 (crc32c (bytesOfWords f)))).set 15 0))) = true := by
  have g : pw (f.set 15 (BitVec.ofNat 32 (crc32c (bytesOfWords f)))) 15 = (BitVec.ofNat 32 (crc32c (bytesOfWords f))).toNat := by
    unfold pw
    rw [List.getElem?_set_self hl, Option.map_some, Option.getD_some]
  rw [List.set_set, hf, g, BitVec.toNat_ofNat, Nat.mod_eq_of_lt (crc32c_lt _)]
  exact beq_self_eq_true _

theorem goodWords_crc : (pw goodWords 15 == crc32c (bytesOfWords (goodWords.set 15 0))) = true := by
  unfold goodWords
  exact stamped_crc goodFront (by decide +kernel) (by decide +kernel)

/-- A LOAD_PLAN of that plan. -/
def goodLoad (slot : Nat) : Letter :=
  { inFlight 0x02 .accepted (List.replicate 8 0 ++ leBytes 4 (4 * goodFront.length) ++ leBytes 2 slot) with data := bytesOfWords goodWords }

theorem goodLoad_passes {s : State} {l : Letter} (hd : l.data = bytesOfWords goodWords) (hn : arg l.l 0x20 4 = 4 * goodFront.length)
    (h : (pass3 goodWords (fget s Fd.ident_REPRO_CLASS) <|> pass4 goodWords goodFront.length <|> pass5 goodWords <|>
      pass6 goodWords (freeBeam s l.pid) <|> match pass7 s l.pid (slotArg l) goodWords s.sched.active [] with
        | .inl w => some w
        | .inr _ => none) = none) : planFault s l = none := by
  have h12 : pass12 goodWords (4 * goodFront.length) = none := by
    unfold pass12
    rw [goodWords_crc]
    decide +kernel
  unfold planFault
  dsimp only
  rw [hd, hn, wordsOf_bytesOfWords, h12, Nat.mul_div_cancel_left _ (by decide)]
  exact h

/-- The configuration block that turns partition 1 off. -/
def offBlock : List Byte :=
  let h := leBytes 4 0x5A435043 ++ leBytes 2 1 ++ leBytes 1 1 ++ List.replicate 53 0
  h ++ leBytes 4 (crc32c (h ++ [0, 0, 0, 0]))

/-- A Loose plan of one RESHAPE, with its CRC. -/
def crcPlan : PlanSt := ⟨goodFront, containerCrc goodFront, 0, false, none, [[]], []⟩

theorem crcPlan_crc : containerCrc crcPlan.words = crcPlan.crc := Eq.refl (containerCrc goodFront)

theorem rowAt_mem {page word i : Nat} {d : RegRow × Nat × Nat} (h : i < (rowsAt page word).length) :
    ((rowsAt page word)[i]?).getD d ∈ rowsAt page word := by
  rw [List.getElem?_eq_getElem h, Option.getD_some]; exact List.getElem_mem h

/-! ### Premises of the statements that no command's run concludes -/

theorem witness_StepRunsTheFrontCommand_2 : ∃ s : State, s.pending = [] := ⟨live, rfl⟩

theorem witness_EveryStepKeepsCanonicalDataQueueAndFuses :
    ∃ s t : State, Canonical s ∧ s.pending ≠ [] ∧ step s = .next t :=
  ⟨{ live with pending := [.smbusIdentity, .perstN] }, _, canonical_of (by decide +kernel), by decide, rfl⟩

theorem witness_EveryStepKeepsTheMachinesShape : ∃ s t : State, step s = .next t ∧ s.cache ≠ [] ∧ Shaped s ∧
    s.safety.watchLast.length = 16 ∧ s.courier.align.sums.length = 6 ∧ (∀ f ∈ s.filters, f.order.length = 8) ∧ LinesWhole s ∧
    LinesInDram s :=
  ⟨{ live with pending := [.perstN], cache := [oneLine] }, _, rfl, by decide +kernel, shaped_of (by decide +kernel),
    by decide +kernel, by decide +kernel, by decide +kernel, by unfold LinesWhole; decide +kernel, by unfold LinesInDram; decide +kernel⟩

theorem witness_TimeShadowsBelongToTheirRequester : ∃ (q r : Requester) (wide : Bool) (s t : State), r ≠ q ∧
    exec (.postmarkLoRead q wide) s = .next t := ⟨host0, .fn 15, true, live, _, by decide, rfl⟩

theorem witness_BlockedBar2AccessesTellNothingOfMemory : ∃ (f : Fin 16) (off : W64) (len : Nat) (data : List Byte) (s t u : State),
    (∀ p, pidOfFn s f = some p → rangePermitted s p (bar2Base s f + off.toNat) len = false ∧
      rangePermitted s p (bar2Base s f + off.toNat) data.length = false) ∧ 0 < len ∧ data ≠ [] ∧
    exec (.bar2Read f off len) s = .next t ∧ exec (.bar2Write f off data) s = .next u :=
  ⟨0, 0xFF_0000_0000, 1, [1], live, _, _, fun p h => by
    have e : p = 0 := Option.some.inj (h.symm.trans (by decide +kernel))
    subst e
    exact ⟨by decide +kernel, by decide +kernel⟩, by decide, by decide, rfl, rfl⟩

theorem witness_ExactSumsHaveNoOrderAndSaturateOnce : ∃ xs ys : List Xv, xs.Perm ys ∧ xs ≠ ys ∧
    ∀ x ∈ xs, ∀ (s : Bool) (n d : Nat), x = .fin s n d → 0 < d :=
  ⟨[.fin false 1 2, .fin true 3 1], _, .swap _ _ _, by decide, fun x hx s n d h => by
    subst h
    simp only [List.mem_cons, List.not_mem_nil, or_false, Xv.fin.injEq] at hx
    omega⟩

theorem witness_EncodingsRoundToThemselves : ∃ code v : Nat, fmtNumeric code = true ∧ v < 2 ^ fmtBits code ∧
    (elemValue code v).isNan = false := ⟨0x0A, 0x7C00, by decide +kernel⟩

theorem witness_JoinerTasksEnterAsTheSpecSays : ∃ (u : Nat) (x : Task) (o : OpDesc) (s : State), Shaped s ∧ Canonical s ∧
    x.units = [u] ∧ u < 34 ∧ o.code = 0x0A0 ∧ o.codeWords ≤ 0x4000 :=
  ⟨33, oneTask 0x0A0 .joiner [33] false, oneOp 0x0A0 [], joining 0x0A0 [33] CoreSt.reset [0x73], shaped_of (by decide +kernel),
    canonical_of (by decide +kernel), by decide +kernel⟩

theorem witness_JoinerTasksEnterAsTheSpecSays_3 : ∃ (u : Nat) (x : Task) (o : OpDesc) (s : State), Shaped s ∧ Canonical s ∧
    x.units = [u] ∧ u < 34 ∧ o.code ≠ 0x0A0 :=
  ⟨0, oneTask 0x020 .joiner [0] false, oneOp 0x020 [], joining 0x020 [0] CoreSt.reset [], shaped_of (by decide +kernel),
    canonical_of (by decide +kernel), by decide +kernel⟩

theorem witness_TileQueuesAndDocketPortsFollowTheVendorInstructions_10 : ∃ (core : Fin 34) (rs1 : Fin 32) (x : Task) (s : State),
    isFetch (fetchAt s core x (coreAt s core).pc.toNat) (vendorWord 0x2B 1 0 0 rs1 0) = true ∧
    ¬ (8 ≤ ((coreAt s core).rx rs1).toNat ∧ ((coreAt s core).rx rs1).toNat < 8 + min 4 (outPorts s x).length) :=
  ⟨2, 1, oneTask 0x0A0 .joiner [2] true, joining 0x0A0 [2] (userCore 9 0 []) [vendorWord 0x2B 1 0 0 1 0], by decide +kernel⟩

theorem witness_FaultFreeMacroOperationsAndSweepsPassTheirChecks_4 : ∃ faults : List SweepFault, faults ≠ [] ∧ ∀ f ∈ faults, f.mirror = false :=
  ⟨[⟨false, some 0, 31, 1⟩], by simp⟩

theorem witness_TheSorterRanksAndCompacts_1 : ∃ a b w : Nat, (w = 1 ∨ w = 2) ∧ a < 2 ^ (8 * keyBytes (2 * w)) ∧
    b < 2 ^ (8 * keyBytes (2 * w)) := ⟨2 ^ 16 - 1, 0, 1, by decide +kernel⟩

/-- A ranking of the least two of unsigned 32-bit keys, or their compaction. -/
def leastTwo (threshold : Option Nat) : SortAsk := ⟨4, 0, 2, true, none, threshold, 0⟩

theorem witness_TheSorterRanksAndCompacts_2 : ∃ (q : SortAsk) (row : List Item), q.threshold = none ∧ q.fast = none ∧
    (row.map (·.pos)).Nodup ∧ q.k < row.length :=
  ⟨leastTwo none, [⟨5, 0, 0⟩, ⟨5, 1, 0⟩, ⟨4, 2, 0⟩], by decide⟩

theorem witness_TheSorterRanksAndCompacts_3 : ∃ (q : SortAsk) (n : Nat), q.threshold = some n := ⟨leastTwo (some 5), 5, rfl⟩

theorem witness_PlaneSolversSolveOrNameTheFault_8 : ∃ n rem root : Int, n = root * root + rem := ⟨10, 1, 3, by decide⟩

/-! ### Ill-formed commands are refused by WellFormed -/

/-- A ring entry whose argument block is one byte short. -/
def shortEntry : LetterIn := { entry60 [] with args := List.replicate 99 0 }

theorem test_wellFormed_accepts : ((Instr.ping 3 (entry60 [])).wellFormed && (Instr.flitReceive 0 (List.replicate 256 0)).wellFormed &&
    (Instr.registerWrite host0 0x40 1 0x0F false).wellFormed) = true := by decide +kernel

theorem test_wellFormed_refuses_short_entries :
    [Instr.ping 3 shortEntry, .unloadPlan 3 shortEntry, .readTensor 3 shortEntry, .sweep 3 shortEntry, .select 3 shortEntry,
      .solve 3 shortEntry, .queryDaybook 3 shortEntry, .readLedger 3 shortEntry, .timeAlign 3 shortEntry, .seal 3 shortEntry,
      .unseal 3 shortEntry, .setKey 3 shortEntry, .inject 3 shortEntry, .enterSafeA 3 shortEntry, .leaveSafeA 3 shortEntry,
      .rotate 3 shortEntry, .suspectClear 3 shortEntry, .fence 3 shortEntry, .cancel 3 shortEntry,
      .undefinedOpcodeLetter 3 0x12 shortEntry, .loadPlan 3 shortEntry [], .runPlan 3 shortEntry [], .writeTensor 3 shortEntry [],
      .worldUpdate 3 shortEntry [], .setPartition 3 shortEntry []].all (fun i => !i.wellFormed) = true := by decide +kernel

theorem test_wellFormed_refuses_sizes :
    [Instr.strictOperatorStart 3 60 4096, .timetableSlotStart 512, .refreshSlot 512 0, .framePublish 0 0 8,
      .flitReceive 0 (List.replicate 255 0), .peerMirrorEntry 0 0 (List.replicate 127 0), .contrib (fromPeer 1) ⟨256, [], 0, []⟩ 0,
      .contrib (fromPeer 1) ⟨0x80, [], 2 ^ 32, []⟩ 0, .contrib (fromPeer 1) ⟨0x80, [], 0, [2 ^ 32]⟩ 0,
      .stagingComplete 0 [⟨1, List.replicate 15 0, [], false⟩], .thermalSample (List.replicate 11 0) (List.replicate 9 0),
      .thermalSample (List.replicate 12 0) (List.replicate 8 0), .clockMonitorWindow [none], .voltageSettleEnd ⟨true, true, false, 65536, 0⟩,
      .faultReport [⟨256, 0, 0, 0, false, 0⟩], .startupInjection [⟨256, 0, 0, 0, false, 0⟩] [], .bootImageLoad [[]],
      .lpddr5xInitialised [], .canFrameReceive 0 ⟨0, false, false, false, 8, List.replicate 9 0⟩,
      .canFrameReceive 0 ⟨0, false, true, false, 15, List.replicate 65 0⟩, .bar2Read 0 0 0, .bar2Read 0 0 4097, .bar2Write 0 0 []].all
      (fun i => !i.wellFormed) = true := by decide +kernel

theorem test_wellFormed_refuses_no_enables :
    [Instr.doorbellWrite host0 0 0 0, .commitGo host0 0 0, .latEnWrite host0 0 0, .fEnableWrite host0 0 0 0 0,
      .pairRoleWrite host0 0 0 false, .resyncGo host0 0 0, .alignGo host0 0 0, .postmarkAdjWrite host0 0 0, .stepReqWrite host0 0 0,
      .wdgKick host0 0 0, .chCtrlWrite host0 0 0 0 false, .eventWrite host0 0 0 0, .eventForce host0 0 0 0, .ownerPidWrite host0 0 0 0,
      .watchWrite host0 0 false 0 0, .bar2BaseWrite host0 0 false 0 0, .dbMirrorBaseWrite host0 false 0 0,
      .registerWrite host0 0x40 0 0 false, .registerWrite host0 0x41 0 1 false, .lastEventPmLo host0 0 0x3A false].all
      (fun i => !i.wellFormed) = true := by decide +kernel

/-! ### Small checks -/

/-- A state that a command answers. -/
def after (c : Instr) (s : State) : State :=
  match exec c s with
  | .next t => t
  | _ => s

-- The check values of the two published CRCs over the digits 1 to 9.
theorem test_crc32c_check : crc32c [0x31, 0x32, 0x33, 0x34, 0x35, 0x36, 0x37, 0x38, 0x39] = 0xE3069283 := by decide +kernel
theorem test_crc32_check : crc32 [0x31, 0x32, 0x33, 0x34, 0x35, 0x36, 0x37, 0x38, 0x39] = 0xCBF43926 := by decide +kernel

-- R147: the counter counts one each edge.
theorem test_tick_counts : (after (.postmarkTick []) live).time.counter = 1000008 := by decide +kernel

-- R282, R290: the FP16 nearest to minus one third; a value beyond FP16's range.
theorem test_fp16_third : roundTo 0x0A (.fin true 1 3) = 0xB555 := by decide +kernel
theorem test_fp16_overflow : roundTo 0x0A (.fin false 65520 1) = 0x7C00 := by decide +kernel

-- R452: equal keys rank by their place.
theorem test_rank_ties_by_place :
    ((selectItems (leastTwo none) [⟨5, 0, 0⟩, ⟨5, 1, 0⟩, ⟨4, 2, 0⟩]).1.map (·.pos)) = [2, 0] := by decide +kernel

-- R90: a Reply written moves the ring's tail on by one.
theorem test_reply_moves_tail : fget (after (.replyWrite 3)
    { ringed [] with replies := [⟨3, 0x01, 60, 7, 1, Result.plain 0 0, false, true, false, false, false⟩] }) (Fd.chan_RRING_TAIL 3) = 1 := by
  decide +kernel

/-! ### PostmarkTimeCountsLatchesAndAdjusts -/

theorem witness_PostmarkTimeCountsLatchesAndAdjusts_1 : ∃ (s : State), s.time.running = true ∧ s.time.clkLost = false ∧
    adjLeft s = 0 ∧ EdgeQuiet s :=
  ⟨live, by decide +kernel, by decide +kernel, by decide +kernel, edgeQuiet_of (by decide +kernel)⟩

theorem witness_PostmarkTimeCountsLatchesAndAdjusts_2 : ∃ (w : Nat) (s : State), s.time.running = true ∧ s.time.clkLost =
    false ∧ adjLeft s = 0 ∧ EdgeQuiet s ∧ rangeOf s (w * 8) ≠ .none ∧ eccAt s (w * 8) = none :=
  ⟨0, live, by decide +kernel, by decide +kernel, by decide +kernel, edgeQuiet_of (by decide +kernel), by decide +kernel,
    by decide +kernel⟩

theorem witness_PostmarkTimeCountsLatchesAndAdjusts_3 : ∃ (s : State), s.time.running = true ∧ s.time.clkLost = false ∧
    s.time.delayed = false ∧ 0 < adjLeft s ∧ EdgeQuiet s :=
  ⟨liveAt [(Fd.postmark_POSTMARK_ADJ, 5)], by decide +kernel, by decide +kernel, by decide +kernel, by decide +kernel,
    edgeQuiet_of (by decide +kernel)⟩

theorem witness_PostmarkTimeCountsLatchesAndAdjusts_4 : ∃ (s : State), s.time.running = true ∧ s.time.clkLost = false ∧
    s.time.delayed = false ∧ adjLeft s < 0 ∧ s.time.slewRun = 999 ∧ EdgeQuiet s :=
  ⟨{ liveAt [(Fd.postmark_POSTMARK_ADJ, 0xFFFFFFFF)] with time := { live.time with slewRun := 999 } }, by decide +kernel,
    by decide +kernel, by decide +kernel, by decide +kernel, by decide +kernel, edgeQuiet_of (by decide +kernel)⟩

theorem witness_PostmarkTimeCountsLatchesAndAdjusts_5 : ∃ (s : State), s.boot.powerGood = true ∧ s.boot.holdup = false ∧
    s.time.running = false ∧ s.time.clkLost = false :=
  ⟨{ State.reset with boot := { State.reset.boot with powerGood := true } }, by decide +kernel⟩

theorem witness_PostmarkTimeCountsLatchesAndAdjusts_6 : ∃ (s : State), s.boot.aon = true ∧ s.time.clkLost = false :=
  ⟨live, by decide +kernel⟩

theorem witness_PostmarkTimeCountsLatchesAndAdjusts_7 : ∃ (q : Requester) (s : State), writeReaches s q 0x003 0x040 = true :=
  ⟨host0, live, by decide +kernel⟩

theorem witness_PostmarkTimeCountsLatchesAndAdjusts_8 : ∃ (q : Requester) (be : BitVec 4) (s : State), writeReaches s q 0x003
    0x054 = true ∧ fget s (Fd.hdr_LOCK 0x003) = 0 ∧ fget s Fd.postmark_ALIGN_ACTIVE = 0 ∧ be ≠ 0 :=
  ⟨host0, 15, live, by decide +kernel⟩

theorem witness_PostmarkTimeCountsLatchesAndAdjusts_9 : ∃ (q : Requester) (be : BitVec 4) (s : State), writeReaches s q 0x003
    0x054 = true ∧ fget s (Fd.hdr_LOCK 0x003) = 0 ∧ fget s Fd.postmark_ALIGN_ACTIVE = 1 ∧ be ≠ 0 :=
  ⟨host0, 15, liveAt [(Fd.postmark_ALIGN_ACTIVE, 1)], by decide +kernel⟩

theorem witness_PostmarkTimeCountsLatchesAndAdjusts_10 : ∃ (q : Requester) (page : BitVec 12) (off : BitVec 12) (s : State),
    pairLo page.toNat off.toNat = true ∧ writeReaches s q page.toNat off.toNat = true :=
  ⟨host0, 0x004, 0x038, live, by decide +kernel⟩

/-! ### ClockStepsFollowTheirSequence -/

theorem witness_ClockStepsFollowTheirSequence_1 : ∃ (q : Requester) (v : W32) (be : BitVec 4) (s : State), writeReaches s q
    0x002 0x040 = true ∧ fget s (Fd.hdr_LOCK 0x002) = 0 ∧ be.getLsbD 0 = true ∧ s.power.emerg = false ∧ s.power.phase = .idle
    ∧ v.toNat % 8 ≠ fget s Fd.power_STEP_CUR :=
  ⟨host0, 2, 1, live, by decide +kernel⟩

theorem witness_ClockStepsFollowTheirSequence_2 : ∃ (ans : RegulatorAnswer) (s : State), s.power.phase = .raising ∧
    s.power.waitEnd ≤ now s ∧ confirmed s ans = true :=
  ⟨⟨true, true, false, 800, 0⟩,
    { liveAt [(Fd.power_VCORE_CMD_MV, 800)] with power := { live.power with phase := .raising, newMv := 800 } },
    by decide +kernel⟩

theorem witness_ClockStepsFollowTheirSequence_3 : ∃ (ans : RegulatorAnswer) (s : State), s.power.phase = .raising ∧
    s.power.waitEnd ≤ now s ∧ confirmed s ans = false :=
  ⟨⟨true, true, false, 600, 0⟩,
    { liveAt [(Fd.power_VCORE_CMD_MV, 800)] with power := { live.power with phase := .raising, newMv := 800 } },
    by decide +kernel⟩

theorem witness_ClockStepsFollowTheirSequence_4 : ∃ (s : State), s.power.phase = .relock ∧ s.power.target ≤ 7 :=
  ⟨{ live with power := { live.power with phase := .relock, target := 7 } }, by decide +kernel⟩

theorem witness_ClockStepsFollowTheirSequence_5 : ∃ (d : Fin 4) (s : State), s.boot.powerGood = true ∧ s.boot.holdup = false ∧
    domainRuns s d = false ∧ domainHeld s d = true :=
  ⟨0, liveAt [(Fd.part_REGIME 1, 1)], by decide +kernel⟩

theorem witness_ClockStepsFollowTheirSequence_6 : ∃ (d : Fin 4) (s : State), domainRuns s d = true ∧ domainHeld s d = false ∧
    fget s (Fd.power_FC_IDLE_PT d) ≠ 0 ∧ fget s (Fd.power_FC_IDLE_PT d) ≤ s.power.idle.getD d 0 :=
  ⟨0, { liveAt [(Fd.power_DOMAIN_RUN, 1)] with power := { live.power with idle := [2 ^ 40, 0, 0, 0] } }, by decide +kernel⟩

/-! ### MonitorsStoreAndJudge -/

theorem witness_MonitorsStoreAndJudge_1 : ∃ (readings : List (BitVec 8)) (rails : List Nat) (s : State), readings.length = 12
    ∧ rails.length = 9 ∧ s.boot.powerGood = true ∧ (s.safety.sampleNext ≤ now s ∨ s.time.clkLost = true) :=
  ⟨List.replicate 12 40, List.replicate 9 750, live, by decide +kernel⟩

theorem witness_MonitorsStoreAndJudge_2 : ∃ (s : State), s.power.emerg = true ∧ s.power.emergOver = false ∧ s.power.phase ≠
    .relock ∧ fget s Fd.power_STEP_REQ = fget s Fd.power_STEP_CUR ∧ CoolFor 25000000 s :=
 
    ⟨{ atTick (liveAt [(Fd.power_STEP_REQ, 4), (Fd.power_STEP_CUR, 4)]) 25000000 with power := { live.power with emerg := true, forced := 5, coolSince := some 0 } },
    by decide +kernel, by decide +kernel, by decide +kernel, by decide +kernel, by decide +kernel⟩

theorem witness_MonitorsStoreAndJudge_3 : ∃ (s : State), s.power.emerg = true ∧ s.power.emergOver = false ∧ s.power.phase ≠
    .relock ∧ s.power.phase ≠ .lowering ∧ fget s Fd.power_STEP_REQ ≠ fget s Fd.power_STEP_CUR ∧ CoolFor 25000000 s :=
 
    ⟨{ atTick (liveAt [(Fd.power_STEP_REQ, 4), (Fd.power_STEP_CUR, 5)]) 25000000 with power := { live.power with emerg := true, forced := 5, coolSince := some 0 } },
    by decide +kernel, by decide +kernel, by decide +kernel, by decide +kernel, by decide +kernel, ⟨0, rfl,
    by decide +kernel⟩⟩

theorem witness_MonitorsStoreAndJudge_4 : ∃ (counts : List (Option Nat)) (s : State), counts.length = 4 ∧ s.safety.clockNext ≤
    now s ∧ windowRelocked s s.safety.clockNext = false :=
  ⟨[none, none, none, none], live, by decide +kernel⟩

theorem witness_MonitorsStoreAndJudge_5 : ∃ (s : State), s.safety.clockNext ≤ now s ∧ windowRelocked s s.safety.clockNext =
    true :=
  ⟨{ live with safety := { live.safety with clockNext := 1000000 }, power := { live.power with relockEnd := 999900 } },
    by decide +kernel⟩

theorem witness_MonitorsStoreAndJudge_6 : ∃ (rail : Fin 9) (mv : Nat) (s : State), s.boot.aon = true ∧ railOut s rail mv =
    true ∧ (rail ≠ 2 ∨ s.boot.powerGood = false ∨ s.boot.holdup = true) :=
  ⟨0, 2000, live, by decide +kernel⟩

theorem witness_MonitorsStoreAndJudge_7 : ∃ (mv : Nat) (s : State), s.boot.aon = true ∧ railOut s 2 mv = true ∧
    s.boot.powerGood = true ∧ s.boot.holdup = false :=
  ⟨9999, live, by decide +kernel⟩

/-! ### Bar2AccessesPassOrAreBlocked -/

theorem witness_Bar2AccessesPassOrAreBlocked_1 : ∃ (f : Fin 16) (off : W64) (len : Nat) (p : Nat) (s : State), s.pins.linkUp =
    true ∧ f.val ∉ s.lostFns ∧ pidOfFn s f = some p ∧ rangePermitted s p (bar2Base s f + off.toNat) len = true ∧ pooled s p
    (bar2Base s f + off.toNat) = false ∧ markedWords s (bar2Base s f + off.toNat) len = [] ∧ s.bar2 = [] ∧ bar2Waits s ⟨f,
    off.toNat, len, none⟩ = false :=
  ⟨0, 0x1000, 16, 0, liveAt [(Fd.part_BEAM_BANKS 0, 1)], by decide +kernel⟩

theorem witness_Bar2AccessesPassOrAreBlocked_2 : ∃ (f : Fin 16) (off : W64) (len : Nat) (p : Nat) (s : State), s.pins.linkUp =
    true ∧ f.val ∉ s.lostFns ∧ pidOfFn s f = some p ∧ 0 < len ∧ rangePermitted s p (bar2Base s f + off.toNat) len = false ∧
    s.parity = [] ∧ s.bar2 = [] ∧ bar2Waits s ⟨f, off.toNat, len, none⟩ = false :=
  ⟨0, 0xFF_0000_0000, 16, 0, live, by decide +kernel⟩

theorem witness_Bar2AccessesPassOrAreBlocked_3 : ∃ (f : Fin 16) (off : W64) (data : List Byte) (p : Nat) (s : State),
    Canonical s ∧ s.pins.linkUp = true ∧ f.val ∉ s.lostFns ∧ pidOfFn s f = some p ∧ rangePermitted s p (bar2Base s f +
    off.toNat) data.length = true ∧ pooled s p (bar2Base s f + off.toNat) = false ∧ mramBad s (bar2Base s f + off.toNat)
    data.length = [] ∧ s.bar2 = [] ∧ bar2Waits s ⟨f, off.toNat, data.length, some data⟩ = false :=
  ⟨0, 0x1000, [1, 2], 0, liveAt [(Fd.part_BEAM_BANKS 0, 1)], canonical_of (by decide +kernel), by decide +kernel,
    by decide +kernel, by decide +kernel, by decide +kernel, by decide +kernel, by decide +kernel, by decide +kernel,
    by decide +kernel⟩

theorem witness_Bar2AccessesPassOrAreBlocked_4 : ∃ (f : Fin 16) (off : W64) (data : List Byte) (p : Nat) (s : State),
    Canonical s ∧ LinesWhole s ∧ s.pins.linkUp = true ∧ f.val ∉ s.lostFns ∧ pidOfFn s f = some p ∧ rangePermitted s p
    (bar2Base s f + off.toNat) data.length = true ∧ pooled s p (bar2Base s f + off.toNat) = true ∧ s.bar2 = [] ∧ bar2Waits s
    ⟨f, off.toNat, data.length, some data⟩ = false :=
  ⟨1, 0x40, [1, 2], 1, { looseOne [(Fd.dev_BAR2_BASE_HI 1, 1)] with cache := [oneLine] }, canonical_of (by decide +kernel),
    by unfold LinesWhole; decide +kernel, by decide +kernel, by decide +kernel, by decide +kernel, by decide +kernel,
    by decide +kernel, by decide +kernel, by decide +kernel⟩

theorem witness_Bar2AccessesPassOrAreBlocked_5 : ∃ (f : Fin 16) (off : W64) (data : List Byte) (p : Nat) (s : State),
    s.pins.linkUp = true ∧ f.val ∉ s.lostFns ∧ pidOfFn s f = some p ∧ data ≠ [] ∧ rangePermitted s p (bar2Base s f +
    off.toNat) data.length = false ∧ s.parity = [] ∧ s.bar2 = [] ∧ bar2Waits s ⟨f, off.toNat, data.length, some data⟩ = false
    :=
  ⟨0, 0xFF_0000_0000, [1], 0, live, by decide +kernel⟩

theorem witness_Bar2AccessesPassOrAreBlocked_6 : ∃ (f : Fin 16) (off : W64) (len : Nat) (s : State), s.pins.linkUp = true ∧
    f.val ∉ s.lostFns ∧ (s.bar2 ≠ [] ∨ bar2Waits s ⟨f, off.toNat, len, none⟩ = true) :=
  ⟨0, 0, 16, { live with bar2 := [⟨0, 0, 4, none⟩] }, by decide +kernel⟩

theorem witness_Bar2AccessesPassOrAreBlocked_7 : ∃ (f : Fin 16) (off : W64) (data : List Byte) (s : State), s.pins.linkUp =
    true ∧ f.val ∉ s.lostFns ∧ (s.bar2 ≠ [] ∨ bar2Waits s ⟨f, off.toNat, data.length, some data⟩ = true) :=
  ⟨0, 0, [1], { live with bar2 := [⟨0, 0, 4, none⟩] }, by decide +kernel⟩

/-! ### ScrubAndRefreshKeepMemorySound -/

theorem witness_ScrubAndRefreshKeepMemorySound_1 : ∃ (array : ScrubArray) (s : State), scrubbedPool s array = none ∧ mapGet 0
    s.scrub (scrubKey array) < scrubWords array ∧ eccAt s (scrubBase s array + 8 * mapGet 0 s.scrub (scrubKey array)) = some
    .corr :=
  ⟨.mortise 0, { live with ecc := [(0x10000000 / 8, .corr)] }, by decide +kernel⟩

theorem witness_ScrubAndRefreshKeepMemorySound_2 : ∃ (array : ScrubArray) (s : State), scrubbedPool s array = none ∧ mapGet 0
    s.scrub (scrubKey array) < scrubWords array ∧ eccAt s (scrubBase s array + 8 * mapGet 0 s.scrub (scrubKey array)) = some
    .uncorr :=
  ⟨.store 33, { live with ecc := [((0x20000000 + 33 * 0x40000) / 8, .uncorr)] }, by decide +kernel⟩

theorem witness_ScrubAndRefreshKeepMemorySound_3 : ∃ (b : Fin 34) (n : Nat) (l : CacheLine) (w : Nat) (s : State),
    scrubbedPool s (.beam b) = some n ∧ mapGet 0 s.scrub b.val < 393216 ∧ poolWordAt s n (mapGet 0 s.scrub b.val) = some (l,
    w) ∧ mapFind l.ecc w = some .corr :=
  ⟨0, 0, oneLine, 0, { liveAt [(Fd.part_CACHE_BANKS 0, 1), (Fd.beam_LOGICAL 0, 0)] with cache := [oneLine] },
    by decide +kernel⟩

theorem witness_ScrubAndRefreshKeepMemorySound_4 : ∃ (s : State), s.boot.dram = true ∧ anyStrict s = false :=
  ⟨live, by decide +kernel⟩

theorem witness_ScrubAndRefreshKeepMemorySound_5 : ∃ (slot : Nat) (s : State), s.boot.dram = true ∧ anyStrict s = true ∧
    slotOpen s slot = true ∧ ttIsWindow s.sched.active slot = false :=
  ⟨0, strictAt 1000007 smallTable [], by decide +kernel⟩

theorem witness_ScrubAndRefreshKeepMemorySound_6 : ∃ (mr4 : W16) (s : State), s.boot.dram = true ∧ anyStrict s = true ∧ 8 <
    owedNow s ∧ slotsKeepUp s (mr4Mult mr4.toNat) = false ∧ inRefreshSlot s = false :=
  ⟨0, { strictAt 1000200 slowTable [] with refresh := ⟨9, 1000200, 0, 0, 0⟩ }, by decide +kernel, by decide +kernel,
    owed_above (by decide +kernel), keepUp_false (k := 0) (by decide +kernel) (by decide +kernel) _, by decide +kernel⟩

theorem witness_ScrubAndRefreshKeepMemorySound_7 : ∃ (s : State), reached s s.safety.corrNext = true :=
  ⟨{ live with safety := { live.safety with corrNext := 1000007 } }, by decide +kernel⟩

/-! ### FaultsAreLoggedAndGetTheirReaction -/

theorem witness_FaultsAreLoggedAndGetTheirReaction_1 : ∃ (s : State), s.boot.aon = true ∧ s.boot.holdup = false ∧ ((∀ f ∈
    s.safety.bus, 1 ≤ f.cls ∧ f.cls ≤ 32)) :=
  ⟨live, by decide +kernel⟩

theorem witness_FaultsAreLoggedAndGetTheirReaction_2 : ∃ (due : Nat) (s : State), s.safety.killDue = some due ∧ s.boot.holdup
    = false ∧ due ≤ now s :=
  ⟨1000007, { live with safety := { live.safety with killDue := some 1000007 } }, by decide +kernel⟩

theorem witness_FaultsAreLoggedAndGetTheirReaction_3 : ∃ (s : State), s.boot.ready = true ∧ s.pins.safeInN = true :=
  ⟨live, by decide +kernel⟩

theorem witness_FaultsAreLoggedAndGetTheirReaction_4 : ∃ (s : State), s.boot.ready = false :=
  ⟨State.reset, by decide +kernel⟩

theorem witness_FaultsAreLoggedAndGetTheirReaction_6 : ∃ (s : State), s.boot.ready = true ∧ fget s Fd.safety_SAFE_STATE = 0 ∧
    s.safety.hbLast + 12375 ≤ now s :=
  ⟨live, by decide +kernel⟩

/-! ### SupervisionsRaiseTheirFaults -/

theorem witness_SupervisionsRaiseTheirFaults_1 : ∃ (w : Fin 16) (s : State), s.boot.ready = true ∧ fget s (Fd.age_MAX_GAP_PT
    w) ≠ 0 ∧ s.safety.watchLast.length = 16 ∧ s.safety.watchLast.getD w 0 + fget s (Fd.age_MAX_GAP_PT w) < now s :=
  ⟨15, liveAt [(Fd.age_MAX_GAP_PT 15, 250)], by decide +kernel⟩

theorem witness_SupervisionsRaiseTheirFaults_2 : ∃ (q : Requester) (v : W32) (be : BitVec 4) (s : State), writeReaches s q
    0x004 0x068 = true ∧ bits (beMask be) 15 0 ≠ 0 ∧ s.safety.wdgArmed = true ∧ s.safety.wdgMin ≤ now s - s.safety.wdgLast ∧
    now s - s.safety.wdgLast ≤ s.safety.wdgMax ∧ (v.toNat &&& beMask be) % 2 ^ 16 = 0xFFFF - fget s Fd.safety_WDG_CHALLENGE :=
  ⟨host0, 0xFFFF, 3, { live with safety := { live.safety with wdgLast := 1000007 - 250 } }, by decide +kernel⟩

theorem witness_SupervisionsRaiseTheirFaults_3 : ∃ (q : Requester) (v : W32) (be : BitVec 4) (s : State), writeReaches s q
    0x004 0x068 = true ∧ bits (beMask be) 15 0 ≠ 0 ∧ s.safety.wdgArmed = true ∧ ((now s - s.safety.wdgLast < s.safety.wdgMin ∨
    s.safety.wdgMax < now s - s.safety.wdgLast ∨ (v.toNat &&& beMask be) % 2 ^ 16 ≠ 0xFFFF - fget s Fd.safety_WDG_CHALLENGE))
    :=
  ⟨host0, 0xFFFF, 3, { live with safety := { live.safety with wdgLast := 1000007 - 249 } }, by decide +kernel⟩

theorem witness_SupervisionsRaiseTheirFaults_4 : ∃ (s : State), s.safety.wdgArmed = true ∧ s.safety.wdgLast + s.safety.wdgMax
    < now s :=
  ⟨{ live with safety := { live.safety with wdgLast := 1000007 - 25001 } }, by decide +kernel⟩

theorem witness_SupervisionsRaiseTheirFaults_5 : ∃ (s : State), s.boot.ready = true ∧ s.safety.nextWalk ≤ now s :=
  ⟨live, by decide +kernel⟩

theorem witness_SupervisionsRaiseTheirFaults_6 : ∃ (bus : Bool) (s : State), s.boot.ready = true ∧ injectionDue s bus ≤ now s
    :=
  ⟨false, { live with safety := { live.safety with nextInject := 1000007 } }, by decide +kernel⟩

/-! ### CanControllersSendAndStoreFrames -/

theorem witness_CanControllersSendAndStoreFrames_1 : ∃ (n : Fin 2) (s : State), s.can.length = 2 ∧ s.boot.powerGood = true ∧
    s.boot.holdup = false ∧ canQueues s n = true ∧ frameWanted s n = true :=
  ⟨0, { liveAt [(Fd.can_SF_EN 0, 1)] with can := [⟨true, none, 0, [], none, []⟩, ⟨false, none, 0, [], none, []⟩] },
    by decide +kernel⟩

theorem witness_CanControllersSendAndStoreFrames_2 : ∃ (n : Fin 2) (f : SafetyFrame) (s : State), s.can.length = 2 ∧ canSends
    s n = true ∧ fget s (Fd.can_SF_EN n) = 1 ∧ (canOf s n).bus = none ∧ (canOf s n).safety = some f :=
  ⟨1, ⟨[1, 2]⟩,
    { liveAt [(Fd.can_SF_EN 1, 1), (Fd.can_CAN_EN 1, 1), (Fd.can_LISTEN_ONLY 1, 0)] with can := [⟨false, none, 0, [], none, []⟩, ⟨false, some ⟨[1, 2]⟩, 0, [], none, []⟩] },
    by decide +kernel⟩

theorem witness_CanControllersSendAndStoreFrames_3 : ∃ (n : Fin 2) (f : Bool × List Byte) (s : State), s.can.length = 2 ∧
    canSends s n = true ∧ (canOf s n).bus = some f :=
  ⟨0, (true, [1, 2]),
    { liveAt [(Fd.can_CAN_EN 0, 1), (Fd.can_LISTEN_ONLY 0, 0)] with can := [⟨false, none, 0, [], some (true, [1, 2]), []⟩, ⟨false, none, 0, [], none, []⟩] },
    by decide +kernel⟩

theorem witness_CanControllersSendAndStoreFrames_4 : ∃ (n : Fin 2) (frame : CanFrame) (s : State), s.can.length = 2 ∧
    canListens s n = true ∧ frame.wellFormed = true ∧ frame.data.length = dlcBytes frame.fdf frame.dlc ∧ (frame.ide = true ∨
    frame.ident.toNat < 2 ^ 11) :=
  ⟨1, ⟨0x7FF, false, true, true, 9, List.replicate 12 7⟩, liveAt [(Fd.can_CAN_EN 1, 1), (Fd.can_LISTEN_ONLY 1, 0)],
    by decide +kernel⟩

theorem witness_CanControllersSendAndStoreFrames_5 : ∃ (n : Fin 2) (s : State), canSends s n = true :=
  ⟨1, liveAt [(Fd.can_CAN_EN 1, 1), (Fd.can_LISTEN_ONLY 1, 0)], by decide +kernel⟩

theorem witness_CanControllersSendAndStoreFrames_6 : ∃ (n : Fin 2) (s : State), fget s (Fd.can_BUS_OFF n) = 1 :=
  ⟨0, liveAt [(Fd.can_BUS_OFF 0, 1)], by decide +kernel⟩

/-! ### RotatingTestsRunAndTakeUnitsOver -/

theorem witness_RotatingTestsRunAndTakeUnitsOver_1 : ∃ (kind : TestKind) (u : Nat) (s : State), s.boot.ready = true ∧
    s.boot.holdup = false ∧ testing s (testNo kind) = false ∧ s.spare.nextTest.getD (testNo kind) 0 ≤ now s ∧ chooseUnit s
    (testNo kind) = some u ∧ u < physCount (testNo kind) ∧ returnable s (testNo kind) u = false ∧ testNo kind < 4 ∧ roleOf s
    (testNo kind) u = 1 ∧ reserved s (testNo kind) u = false :=
  ⟨.truss, 8, { liveAt spareRoles with spare := { live.spare with asked := [(0, 8)] } }, by decide +kernel⟩

theorem witness_RotatingTestsRunAndTakeUnitsOver_2 : ∃ (kind : TestKind) (u : Nat) (s : State), s.boot.ready = true ∧
    s.boot.holdup = false ∧ testing s (testNo kind) = false ∧ s.spare.nextTest.getD (testNo kind) 0 ≤ now s ∧ chooseUnit s
    (testNo kind) = some u ∧ returnable s (testNo kind) u = false ∧ testNo kind < 4 ∧ roleOf s (testNo kind) u = 1 ∧ reserved
    s (testNo kind) u = true :=
  ⟨.truss, 8, { liveAt spareRoles with spare := { live.spare with asked := [(0, 8)], takeovers := [(0, 3, 8, 4)] } },
    by decide +kernel⟩

theorem witness_RotatingTestsRunAndTakeUnitsOver_3 : ∃ (kind : TestKind) (u : Nat) (f : Nat) (s : State), s.boot.ready = true
    ∧ s.boot.holdup = false ∧ testing s (testNo kind) = false ∧ s.spare.nextTest.getD (testNo kind) 0 ≤ now s ∧ chooseUnit s
    (testNo kind) = some u ∧ returnable s (testNo kind) u = false ∧ testNo kind < 3 ∧ roleOf s (testNo kind) u ≠ 1 ∧ freeSpare
    s (testNo kind) = some f :=
  ⟨.scribe, 2, 16, { liveAt spareRoles with spare := { live.spare with asked := [(1, 2)] } }, by decide +kernel⟩

theorem witness_RotatingTestsRunAndTakeUnitsOver_4 : ∃ (kind : TestKind) (u : Nat) (s : State), s.boot.ready = true ∧
    s.boot.holdup = false ∧ testing s (testNo kind) = false ∧ s.spare.nextTest.getD (testNo kind) 0 ≤ now s ∧ chooseUnit s
    (testNo kind) = some u ∧ returnable s (testNo kind) u = false ∧ testNo kind < 4 ∧ roleOf s (testNo kind) u ≠ 1 ∧ freeSpare
    s (testNo kind) = none :=
  ⟨.joiner, 2, { liveAt [(Fd.joiner_ROLE 16, 2)] with spare := { live.spare with asked := [(2, 2)] } }, by decide +kernel⟩

theorem witness_RotatingTestsRunAndTakeUnitsOver_5 : ∃ (kind : TestKind) (at_ : Nat) (u : Nat) (f : Nat) (s : State), mapFind
    s.spare.deferred (testNo kind) = some at_ ∧ at_ ≤ now s ∧ testing s (testNo kind) = false ∧ chooseUnit s (testNo kind) =
    some u ∧ returnable s (testNo kind) u = false ∧ testNo kind < 3 ∧ roleOf s (testNo kind) u ≠ 1 ∧ freeSpare s (testNo kind)
    = some f :=
  ⟨.joiner, 1000007, 2, 16,
    { liveAt spareRoles with spare := { live.spare with asked := [(2, 2)], deferred := [(2, 1000007)] } }, by decide +kernel⟩

theorem witness_RotatingTestsRunAndTakeUnitsOver_6 : ∃ (kind : TestKind) (unit : Nat) (s : State), s.boot.ready = true ∧ unit
    < physCount (testNo kind) ∧ roleOf s (testNo kind) unit ≠ 2 ∧ 0 < fget s Fd.safety_ROT_PERIOD_S ∧ 2 * (fget s
    Fd.safety_ROT_PERIOD_S * 1000) * (mapGet 0 s.spare.lateRaised (testNo kind * 64 + unit) + 1) < testAge s (testNo kind)
    unit :=
  ⟨.plane, 1, { liveAt [(Fd.safety_ROT_PERIOD_S, 1)] with ledger := { live.ledger with baseMs := 1000000 } },
    by decide +kernel⟩

theorem witness_RotatingTestsRunAndTakeUnitsOver_7 : ∃ (kind : TestKind) (u : Nat) (f : Nat) (s : State), (nextTakeover s
    (testNo kind)).map (·.2) = some (u, f, 2) ∧ testNo kind < 4 ∧ u < physCount (testNo kind) ∧ f < physCount (testNo kind) ∧
    u ≠ f :=
  ⟨.truss, 3, 8, { liveAt spareRoles with spare := { live.spare with takeovers := [(0, 3, 8, 2)] } }, by decide +kernel⟩

theorem witness_RotatingTestsRunAndTakeUnitsOver_8 : ∃ (b : Nat) (d : Nat) (s : State), s.spare.copyFor = some (b, d, 2) ∧ b <
    34 ∧ d < 34 ∧ b ≠ d ∧ ((∀ x ∈ s.spare.takeovers, ¬ (x.1 = 3 ∧ x.2.2.2 = 4))) :=
  ⟨0, 33, { liveAt spareRoles with spare := { live.spare with copyFor := some (0, 33, 2) } }, by decide +kernel⟩

theorem witness_RotatingTestsRunAndTakeUnitsOver_9 : ∃ (kind : TestKind) (x : TestSt) (s : State), mapFind s.spare.tests
    (testNo kind) = some x ∧ 4 ≤ testNo kind ∧ x.segments < testSegments (testNo kind) ∧ x.segEnd ≤ now s ∧ segmentFits s
    (testNo kind) x.unit = true :=
  ⟨.sorter, ⟨0, none, 19, false, 0, 1000007⟩,
    { live with spare := { live.spare with tests := [(4, ⟨0, none, 19, false, 0, 1000007⟩)] } }, by decide +kernel⟩

theorem witness_RotatingTestsRunAndTakeUnitsOver_10 : ∃ (kind : TestKind) (x : TestSt) (s : State), mapFind s.spare.tests
    (testNo kind) = some x ∧ x.returning = false ∧ testNo kind < 4 ∧ x.unit < physCount (testNo kind) ∧ x.start + testLength
    (testNo kind) ≤ now s ∧ testSegments (testNo kind) ≤ x.segments ∧ x.segEnd ≤ now s :=
  ⟨.truss, ⟨8, none, 0, false, 1000007 - 750000, 0⟩,
    { live with spare := { live.spare with tests := [(0, ⟨8, none, 0, false, 1000007 - 750000, 0⟩)] } }, by decide +kernel⟩

theorem witness_RotatingTestsRunAndTakeUnitsOver_11 : ∃ (kind : TestKind) (x : TestSt) (s : State), mapFind s.spare.tests
    (testNo kind) = some x ∧ x.returning = false ∧ testNo kind < 4 ∧ x.unit < physCount (testNo kind) ∧ x.start + testLength
    (testNo kind) ≤ now s ∧ testSegments (testNo kind) ≤ x.segments ∧ x.segEnd ≤ now s :=
  ⟨.truss, ⟨8, none, 0, false, 1000007 - 750000, 0⟩,
    { live with spare := { live.spare with tests := [(0, ⟨8, none, 0, false, 1000007 - 750000, 0⟩)] } }, by decide +kernel⟩

/-! ### StartUpTakesAnEpochAndScansTheMram -/

theorem witness_StartUpTakesAnEpochAndScansTheMram_1 : ∃ (s : State), s.boot.aon = false :=
  ⟨State.reset, by decide +kernel⟩

theorem witness_StartUpTakesAnEpochAndScansTheMram_2 : ∃ (k : Nat) (e : W16) (s : State), s.boot.aon = true ∧ s.boot.powerGood
    = false ∧ s.pins.sysRstN = true ∧ epochRead s = some (k, e) :=
  ⟨0, 0,
    { State.reset with boot := { State.reset.boot with aon := true }, pins := { State.reset.pins with sysRstN := true } },
    by decide +kernel⟩

theorem witness_StartUpTakesAnEpochAndScansTheMram_3 : ∃ (res : MramResult) (s : State), s.boot.aon = true ∧ s.boot.powerGood
    = false ∧ s.pins.sysRstN = true ∧ (epochRead s = none ∨ res ≠ .written) :=
  ⟨.eccFail,
    { State.reset with boot := { State.reset.boot with aon := true }, pins := { State.reset.pins with sysRstN := true } },
    by decide +kernel⟩

theorem witness_StartUpTakesAnEpochAndScansTheMram_4 : ∃ (s : State), s.boot.powerGood = true ∧ s.boot.scanned = false ∧
    s.boot.holdup = false ∧ markedWords s 0x30000000 0x200000 = [] :=
  ⟨{ live with boot := { State.reset.boot with aon := true, powerGood := true } }, by decide +kernel⟩

theorem witness_StartUpTakesAnEpochAndScansTheMram_5 : ∃ (s : State), s.boot.powerGood = true ∧ s.boot.ledgerScanned = false ∧
    s.boot.holdup = false ∧ badWords s 0x30200000 0x30300000 = [] :=
  ⟨{ live with boot := { State.reset.boot with aon := true, powerGood := true } }, by decide +kernel⟩

theorem witness_StartUpTakesAnEpochAndScansTheMram_6 : ∃ (s : State), s.boot.scanned = true ∧ s.boot.ledgerScanned = true ∧
    s.boot.injected = false ∧ s.boot.holdup = false ∧ fget s Fd.safety_SAFE_STATE ≠ 2 :=
  ⟨{ live with boot := { State.reset.boot with aon := true, powerGood := true, scanned := true, ledgerScanned := true } },
    by decide +kernel⟩

/-! ### StartUpLoadsTheImageAndBecomesReady -/

theorem witness_StartUpLoadsTheImageAndBecomesReady_1 : ∃ (slots : List (List Byte)) (n : Nat) (s : State), Canonical s ∧
    s.boot.injected = true ∧ s.boot.image = none ∧ s.boot.failed = false ∧ s.boot.holdup = false ∧ fget s Fd.safety_SAFE_STATE
    ≠ 2 ∧ bootSlot (slots.getD 0 []) (slots.getD 1 []) = some n :=
  ⟨[testImage, []], 0, { live with boot := { State.reset.boot with injected := true } }, canonical_of (by decide +kernel),
    by decide +kernel, by decide +kernel, by decide +kernel, by decide +kernel, by decide +kernel, by decide +kernel⟩

theorem witness_StartUpLoadsTheImageAndBecomesReady_2 : ∃ (slots : List (List Byte)) (s : State), s.boot.injected = true ∧
    s.boot.image = none ∧ s.boot.failed = false ∧ s.boot.holdup = false ∧ fget s Fd.safety_SAFE_STATE ≠ 2 ∧ bootSlot
    (slots.getD 0 []) (slots.getD 1 []) = none :=
  ⟨[[], []], { live with boot := { State.reset.boot with injected := true } }, by decide +kernel⟩

theorem witness_StartUpLoadsTheImageAndBecomesReady_3 : ∃ (s : State), s.boot.image.isSome = true ∧ s.boot.layout = false ∧
    s.boot.holdup = false ∧ fget s Fd.safety_SAFE_STATE ≠ 2 ∧ s.cache = [] ∧ fget s (Fd.part_BEAM_BANKS 0) = 0 ∧ fget s
    (Fd.part_CACHE_BANKS 0) = 0 ∧ regionMask s 0 = 0 :=
  ⟨{ live with boot := { live.boot with layout := false } }, by decide +kernel⟩

theorem witness_StartUpLoadsTheImageAndBecomesReady_4 : ∃ (margins : List (Byte × Byte)) (s : State), margins.length = 4 ∧
    s.boot.powerGood = true ∧ s.boot.dram = false ∧ s.boot.holdup = false ∧ 950000 ≤ now s :=
  ⟨List.replicate 4 (1, 2), { live with boot := { live.boot with dram := false } }, by decide +kernel⟩

theorem witness_StartUpLoadsTheImageAndBecomesReady_5 : ∃ (s : State), mayReady s = true :=
  ⟨{ live with boot := { live.boot with ready := false } }, by decide +kernel⟩

/-! ### PowerLossKeepsOnlyTheMram -/

theorem witness_PowerLossKeepsOnlyTheMram_1 : ∃ (s : State), s.boot.powerGood = true ∧ s.boot.holdup = false :=
  ⟨live, by decide +kernel⟩

theorem witness_PowerLossKeepsOnlyTheMram_2 : ∃ (s : State), s.boot.powerGood = true ∧ s.boot.holdup = false :=
  ⟨live, by decide +kernel⟩

theorem witness_PowerLossKeepsOnlyTheMram_3 : ∃ (s : State), s.boot.holdup = true ∧ flushed s = true :=
  ⟨{ live with boot := { live.boot with holdup := true } }, by decide +kernel⟩

/-! ### HostLinkAndSideBandStayAtTheirPort -/

theorem witness_HostLinkAndSideBandStayAtTheirPort_2 : ∃ (s : State), s.pins.linkUp = true :=
  ⟨live, by decide +kernel⟩

theorem witness_HostLinkAndSideBandStayAtTheirPort_3 : ∃ (s : State), s.boot.powerGood = true ∧ s.boot.holdup = false ∧
    s.pins.linkUp = false :=
  ⟨{ live with pins := { live.pins with linkUp := false } }, by decide +kernel⟩

theorem witness_HostLinkAndSideBandStayAtTheirPort_4 : ∃ (s : State), s.pins.linkUp = true :=
  ⟨live, by decide +kernel⟩

theorem witness_HostLinkAndSideBandStayAtTheirPort_5 : ∃ (s : State), s.pins.linkUp = true ∧ s.boot.ready = false :=
  ⟨{ live with boot := { live.boot with ready := false } }, by decide +kernel⟩

theorem witness_HostLinkAndSideBandStayAtTheirPort_6 : ∃ (s : State), s.pins.linkUp = true ∧ s.boot.ready = true :=
  ⟨live, by decide +kernel⟩

theorem witness_HostLinkAndSideBandStayAtTheirPort_7 : ∃ (s : State), smbusUp s = true :=
  ⟨live, by decide +kernel⟩

theorem witness_HostLinkAndSideBandStayAtTheirPort_8 : ∃ (s : State), smbusUp s = true :=
  ⟨live, by decide +kernel⟩

theorem witness_HostLinkAndSideBandStayAtTheirPort_9 : ∃ (s : State), smbusUp s = true :=
  ⟨live, by decide +kernel⟩

theorem witness_HostLinkAndSideBandStayAtTheirPort_10 : ∃ (s : State), smbusUp s = true :=
  ⟨live, by decide +kernel⟩

theorem witness_HostLinkAndSideBandStayAtTheirPort_11 : ∃ (v : Byte) (s : State), smbusUp s = true ∧ v.toNat ≤ 7 :=
  ⟨7, live, by decide +kernel⟩

theorem witness_HostLinkAndSideBandStayAtTheirPort_12 : ∃ (v : Byte) (s : State), smbusUp s = true ∧ 7 < v.toNat :=
  ⟨8, live, by decide +kernel⟩

theorem witness_HostLinkAndSideBandStayAtTheirPort_13 : ∃ (s : State), smbusUp s = true :=
  ⟨live, by decide +kernel⟩

theorem witness_HostLinkAndSideBandStayAtTheirPort_14 : ∃ (code : Byte) (s : State), smbusUp s = true ∧ (code = 0 ∨ 6 <
    code.toNat) :=
  ⟨7, live, by decide +kernel⟩

theorem witness_HostLinkAndSideBandStayAtTheirPort_15 : ∃ (ir : TapInstr), ir ≠ .idcode :=
  ⟨.bypass, by decide +kernel⟩

/-! ### JournalWritesCommitOrTurnVolatile -/

theorem witness_JournalWritesCommitOrTurnVolatile_1 : ∃ (v : Version) (rest : List Version) (s : State), Canonical s ∧
    LinesWhole s ∧ LinesInDram s ∧ s.boot.scanned = true ∧ dbVolatile s = false ∧ islandFirst s = false ∧ s.daybook.queue = v
    :: rest ∧ v.cell < cellCount ∧ dramBase ≤ mirrorBase s :=
  ⟨aVersion, [], { liveAt [(Fd.daybook_DB_MIRROR_BASE_HI, 1)] with daybook := { live.daybook with queue := [aVersion] } },
    canonical_of (by decide +kernel), by unfold LinesWhole; decide +kernel, by unfold LinesInDram; decide +kernel,
    by decide +kernel, by decide +kernel, by decide +kernel, by decide +kernel, by decide +kernel, by decide +kernel⟩

theorem witness_JournalWritesCommitOrTurnVolatile_2 : ∃ (res : MramResult) (v : Version) (rest : List Version) (s : State),
    s.boot.scanned = true ∧ dbVolatile s = false ∧ islandFirst s = false ∧ s.daybook.queue = v :: rest ∧ v.cell < cellCount ∧
    res ≠ .written :=
  ⟨.timeout, aVersion, [],
    { liveAt [(Fd.daybook_DB_MIRROR_BASE_HI, 1)] with daybook := { live.daybook with queue := [aVersion] } },
    by decide +kernel⟩

/-! ### LedgerSlotsCommitOrTurnVolatile -/

theorem witness_LedgerSlotsCommitOrTurnVolatile_1 : ∃ (v : LedgerVer) (q : List LedgerVer) (s : State), Canonical s ∧
    s.boot.ledgerScanned = true ∧ fget s Fd.ledger_LEDGER_VOLATILE = 0 ∧ ledgerNext s = some (v, q) :=
  ⟨⟨1, 0, [1, 2], false⟩, [], { live with ledger := { live.ledger with queue := [⟨1, 0, [1, 2], false⟩] } }, canonical_of
    (by decide +kernel), by decide +kernel, by decide +kernel, by decide +kernel⟩

theorem witness_LedgerSlotsCommitOrTurnVolatile_2 : ∃ (res : MramResult) (v : LedgerVer) (q : List LedgerVer) (s : State),
    s.boot.ledgerScanned = true ∧ fget s Fd.ledger_LEDGER_VOLATILE = 0 ∧ ledgerNext s = some (v, q) ∧ res ≠ .written :=
  ⟨.mismatch, ⟨1, 0, [1, 2], false⟩, [], { live with ledger := { live.ledger with queue := [⟨1, 0, [1, 2], false⟩] } },
    by decide +kernel⟩

theorem witness_LedgerSlotsCommitOrTurnVolatile_3 : ∃ (s : State), s.boot.ledgerScanned = true ∧ s.boot.holdup = false ∧
    s.time.running = true ∧ s.ledger.nextPeriodic ≤ now s ∧ fget s Fd.ledger_LEDGER_VOLATILE = 0 :=
  ⟨{ live with ledger := { live.ledger with nextPeriodic := 1000007 } }, by decide +kernel⟩

/-! ### PairMirrorsAndPromotes -/

theorem witness_PairMirrorsAndPromotes_1 : ∃ (s : State), isPair s = true ∧ s.time.running = true ∧ s.boot.holdup = false ∧
    pairDown s = false ∧ s.pair.nextSend ≤ now s :=
  ⟨paired [], by decide +kernel⟩

theorem witness_PairMirrorsAndPromotes_2 : ∃ (flit : FlitIn) (hb : Heartbeat) (s : State), isPair s = true ∧ linkUp s
    flit.link = true ∧ flit.src.toNat = neighbourOf s flit.link ∧ (selfPromotes s = false ∨ hb.safe.val = 0) ∧ ((∀ e ∈
    s.pair.peerEpoch, e = hb.epoch.toNat)) :=
  ⟨⟨0, BitVec.ofNat 12 (neighbourOf live 0), 0, 0, 0⟩, ⟨1, 0, 0, 0⟩, paired [], by decide +kernel⟩

theorem witness_PairMirrorsAndPromotes_3 : ∃ (flit : FlitIn) (hb : Heartbeat) (e : Nat) (s : State), isPair s = true ∧ linkUp
    s flit.link = true ∧ flit.src.toNat = neighbourOf s flit.link ∧ s.pair.peerEpoch = some e ∧ e ≠ hb.epoch.toNat :=
  ⟨⟨0, BitVec.ofNat 12 (neighbourOf live 0), 0, 0, 0⟩, ⟨1, 0, 0, 0⟩, 7,
    { paired [] with pair := { live.pair with peerEpoch := some 7 } }, by decide +kernel⟩

theorem witness_PairMirrorsAndPromotes_4 : ∃ (s : State), isPair s = true ∧ s.boot.ready = true ∧ fget s Fd.daybook_PAIR_ROLE
    ≠ 0 ∧ s.pair.lost = false ∧ peerGone s = true ∧ selfPromotes s = false :=
  ⟨alone [(Fd.daybook_PAIR_ROLE, 1)], by decide +kernel⟩

theorem witness_PairMirrorsAndPromotes_5 : ∃ (s : State), isPair s = true ∧ s.boot.ready = true ∧ s.pair.lost = false ∧
    peerGone s = true ∧ selfPromotes s = true :=
  ⟨alone [(Fd.daybook_PAIR_ROLE, 2), (Fd.daybook_AUTO_PROMOTE, 1), (Fd.daybook_PEER_READY, 1)], by decide +kernel⟩

theorem witness_PairMirrorsAndPromotes_6 : ∃ (entry : List Byte) (s : State), Canonical s ∧ LinesWhole s ∧ isPair s = true ∧
    fget s Fd.daybook_PAIR_ROLE = 2 ∧ pairDown s = false ∧ entry.length = 128 :=
  ⟨List.replicate 128 1, paired [(Fd.daybook_PAIR_ROLE, 2)], canonical_of (by decide +kernel),
    by unfold LinesWhole; decide +kernel, by decide +kernel, by decide +kernel, by decide +kernel, by decide +kernel⟩

theorem witness_PairMirrorsAndPromotes_7 : ∃ (s : State), isPair s = true ∧ fget s Fd.daybook_PAIR_ROLE = 2 ∧ pairDown s =
    false :=
  ⟨paired [(Fd.daybook_PAIR_ROLE, 2)], by decide +kernel⟩

theorem witness_PairMirrorsAndPromotes_8 : ∃ (q : Requester) (v : W32) (be : BitVec 4) (s : State), writeReaches s q 0x006
    0x080 = true ∧ fget s (Fd.hdr_LOCK 0x006) = 0 ∧ bit be.toNat 0 = true ∧ v.toNat % 4 < 3 ∧ v.toNat / 8 = fget s
    Fd.daybook_PEER_READY ∧ fget s Fd.daybook_PAIR_ROLE ≠ 2 :=
  ⟨host0, 2, 15, live, by decide +kernel⟩

theorem witness_PairMirrorsAndPromotes_9 : ∃ (q : Requester) (v : W32) (be : BitVec 4) (s : State), writeReaches s q 0x006
    0x080 = true ∧ fget s (Fd.hdr_LOCK 0x006) = 0 ∧ bit be.toNat 0 = true ∧ v.toNat % 4 < 3 ∧ v.toNat / 8 = fget s
    Fd.daybook_PEER_READY ∧ v.toNat % 4 ≠ fget s Fd.daybook_PAIR_ROLE :=
  ⟨host0, 2, 15, live, by decide +kernel⟩

theorem witness_PairMirrorsAndPromotes_10 : ∃ (q : Requester) (v : W32) (be : BitVec 4) (s : State), writeReaches s q 0x006
    0x080 = true ∧ fget s (Fd.hdr_LOCK 0x006) = 0 ∧ bit be.toNat 0 = true ∧ v.toNat % 4 = 1 ∧ v.toNat / 8 = fget s
    Fd.daybook_PEER_READY ∧ fget s Fd.daybook_PAIR_ROLE = 2 :=
  ⟨host0, 1, 15, liveAt [(Fd.daybook_PAIR_ROLE, 2)], by decide +kernel⟩

/-! ### ReceivedFlitsFollowTheReceiverRules -/

theorem witness_ReceivedFlitsFollowTheReceiverRules_1 : ∃ (link : Fin 6) (bytes : List Byte) (s : State), Shaped s ∧
    bytes.length = 256 ∧ (fget s (Fd.link_STATE link) = 1 ∨ fget s (Fd.link_STATE link) = 2) ∧ leAt bytes 252 4 ≠ crc32
    (bytesAt bytes 0 252) :=
  ⟨5, aFlit 3 0 1, liveAt [(Fd.link_STATE 5, 1)], shaped_of (by decide +kernel), by decide +kernel, by decide +kernel,
    flit_crc_wrong _ _⟩

theorem witness_ReceivedFlitsFollowTheReceiverRules_2 : ∃ (link : Fin 6) (bytes : List Byte) (s : State), Shaped s ∧
    bytes.length = 256 ∧ (fget s (Fd.link_STATE link) = 1 ∨ fget s (Fd.link_STATE link) = 2) ∧ leAt bytes 252 4 = crc32
    (bytesAt bytes 0 252) ∧ leAt bytes 0 1 = 0xA5 ∧ 1 ≤ bits (leAt bytes 1 1) 3 0 ∧ bits (leAt bytes 1 1) 3 0 ≤ 3 ∧ leAt bytes
    2 2 = (bundleSt s (bundleOf s link)).expect :=
  ⟨0, aFlit 3 0 0, paired [], shaped_of (by decide +kernel), by decide +kernel, by decide +kernel, flit_crc _ _,
    by decide +kernel, by decide +kernel, by decide +kernel, by decide +kernel⟩

theorem witness_ReceivedFlitsFollowTheReceiverRules_3 : ∃ (link : Fin 6) (bytes : List Byte) (s : State), bytes.length = 256 ∧
    (fget s (Fd.link_STATE link) = 1 ∨ fget s (Fd.link_STATE link) = 2) ∧ leAt bytes 252 4 = crc32 (bytesAt bytes 0 252) ∧
    leAt bytes 0 1 = 0xA5 ∧ 1 ≤ bits (leAt bytes 1 1) 3 0 ∧ bits (leAt bytes 1 1) 3 0 ≤ 3 ∧ leAt bytes 2 2 ≠ (bundleSt s
    (bundleOf s link)).expect ∧ cyc 16 (bundleSt s (bundleOf s link)).expect (leAt bytes 2 2) < 2 ^ 15 :=
  ⟨0, aFlit 1 65535 0, paired [], by decide +kernel, by decide +kernel, flit_crc _ _, by decide +kernel, by decide +kernel,
    by decide +kernel, by decide +kernel, by decide +kernel⟩

theorem witness_ReceivedFlitsFollowTheReceiverRules_4 : ∃ (link : Fin 6) (bytes : List Byte) (s : State), Shaped s ∧
    bytes.length = 256 ∧ (fget s (Fd.link_STATE link) = 1 ∨ fget s (Fd.link_STATE link) = 2) ∧ leAt bytes 252 4 = crc32
    (bytesAt bytes 0 252) ∧ leAt bytes 0 1 = 0xA5 ∧ 1 ≤ bits (leAt bytes 1 1) 3 0 ∧ bits (leAt bytes 1 1) 3 0 ≤ 3 ∧ leAt bytes
    2 2 ≠ (bundleSt s (bundleOf s link)).expect ∧ 2 ^ 15 ≤ cyc 16 (bundleSt s (bundleOf s link)).expect (leAt bytes 2 2) :=
  ⟨0, aFlit 1 1 0, paired [], shaped_of (by decide +kernel), by decide +kernel, by decide +kernel, flit_crc _ _,
    by decide +kernel, by decide +kernel, by decide +kernel, by decide +kernel, by decide +kernel⟩

/-! ### LinksRewindTrainAndGoDown -/

theorem witness_LinksRewindTrainAndGoDown_1 : ∃ (link : Fin 6) (s : State), Shaped s ∧ activeLink s (bundleOf s link) = some
    link.val ∧ (bundleSt s (bundleOf s link)).buf ≠ [] ∧ (bundleSt s (bundleOf s link)).progress + 25 ≤ now s :=
  ⟨0,
    { paired [] with courier := { live.courier with bundles := ⟨1, [(0, ⟨0, 1, 0, 0, .desync⟩)], [], 0, none, 0, 1000007 - 25⟩ :: List.replicate 5 BundleSt.reset } },
    shaped_of (by decide +kernel), by decide +kernel, by decide +kernel, by decide +kernel⟩

theorem witness_LinksRewindTrainAndGoDown_2 : ∃ (link : Fin 6) (s : State), linkUp s link = true ∧ s.courier.lastGood.getD
    link 0 + 25 ≤ now s :=
  ⟨0, { paired [] with courier := { live.courier with lastGood := (1000007 - 25) :: List.replicate 5 0 } }, by decide +kernel⟩

theorem witness_LinksRewindTrainAndGoDown_3 : ∃ (link : Fin 6) (s : State), s.time.running = true ∧ s.boot.holdup = false ∧
    fget s (Fd.link_LINK_EN link) = 1 ∧ (fget s (Fd.link_STATE link) = 0 ∨ fget s (Fd.link_STATE link) = 3) ∧ link.val ∈
    usedLinks s ∧ s.courier.nextTrain.getD link 0 ≤ now s :=
  ⟨0, { liveAt [(Fd.link_LINK_EN 0, 1)] with courier := { live.courier with nextTrain := 1000007 :: List.replicate 5 0 } },
    by decide +kernel⟩

theorem witness_LinksRewindTrainAndGoDown_4 : ∃ (link : Fin 6) (peer : BitVec 12) (s : State), fget s (Fd.link_STATE link) = 1
    ∧ peer.toNat = neighbourOf s link :=
  ⟨0, BitVec.ofNat 12 (neighbourOf live 0), liveAt [(Fd.link_STATE 0, 1)], by decide +kernel⟩

theorem witness_LinksRewindTrainAndGoDown_5 : ∃ (link : Fin 6) (peer : BitVec 12) (s : State), fget s (Fd.link_STATE link) = 1
    ∧ peer.toNat ≠ neighbourOf s link :=
  ⟨0, 7, liveAt [(Fd.link_STATE 0, 1)], by decide +kernel⟩

theorem witness_LinksRewindTrainAndGoDown_6 : ∃ (link : Fin 6) (s : State), fget s (Fd.link_STATE link) = 1 :=
  ⟨0, liveAt [(Fd.link_STATE 0, 1)], by decide +kernel⟩

/-! ### GroupsDesyncAndResync -/

theorem witness_GroupsDesyncAndResync_1 : ∃ (flit : FlitIn) (s : State), linkUp s flit.link = true ∧ delivered s flit = true
    :=
  ⟨fromPeer 1, liveAt (grouped 0), by decide +kernel⟩

theorem witness_GroupsDesyncAndResync_2 : ∃ (q : Requester) (v : W32) (be : BitVec 4) (s : State), Shaped s ∧ writeReaches s q
    0x07E 0x104 = true ∧ fget s (Fd.hdr_LOCK 0x07E) = 0 ∧ be = 15 ∧ fget s Fd.coll_RESYNC_GO = 0 ∧ v.toNat / 16 = 1 ∧ fget s
    (Fd.coll_GROUP_ENABLE (v.toNat % 16)) = 1 ∧ coordinates s (v.toNat % 16) = true :=
  ⟨host0, 0x10, 15, liveAt (grouped 0), shaped_of (by decide +kernel), by decide +kernel, by decide +kernel,
    by decide +kernel, by decide +kernel, by decide +kernel, by decide +kernel, by decide +kernel⟩

theorem witness_GroupsDesyncAndResync_3 : ∃ (flit : FlitIn) (word : W32) (s : State), Shaped s ∧ linkUp s flit.link = true ∧
    delivered s flit = true ∧ coordinates s flit.group = false ∧ groupWord s flit.group = word.toNat % 2 ^ 29 ∧ (groupSt s
    flit.group).resync = false :=
  ⟨fromPeer 0, BitVec.ofNat 32 (groupWord (liveAt (grouped 1)) 0), liveAt (grouped 1), shaped_of (by decide +kernel),
    by decide +kernel, by decide +kernel, by decide +kernel, by decide +kernel, by decide +kernel⟩

theorem witness_GroupsDesyncAndResync_4 : ∃ (flit : FlitIn) (word : W32) (s : State), linkUp s flit.link = true ∧ delivered s
    flit = true ∧ coordinates s flit.group = false ∧ groupWord s flit.group ≠ word.toNat % 2 ^ 29 :=
  ⟨fromPeer 0, 0, liveAt (grouped 1), by decide +kernel⟩

theorem witness_GroupsDesyncAndResync_5 : ∃ (flit : FlitIn) (s : State), Shaped s ∧ (groupSt s flit.group).resync = true :=
  ⟨fromPeer 0,
    { liveAt (grouped 1) with courier := { live.courier with groups := ⟨0, [], [], true⟩ :: List.replicate 15 GroupSt.reset } },
    shaped_of (by decide +kernel), by decide +kernel⟩

/-! ### AlignmentMeasuresSetsAndWatches -/

theorem witness_AlignmentMeasuresSetsAndWatches_1 : ∃ (q : Requester) (v : W32) (be : BitVec 4) (s : State), writeReaches s q
    0x07E 0x108 = true ∧ fget s (Fd.hdr_LOCK 0x07E) = 0 ∧ be = 15 ∧ fget s Fd.coll_ALIGN_GO = 0 ∧ v.toNat / 4 = fget s
    Fd.coll_ALIGNED ∧ v.toNat % 2 = 1 ∧ (v.toNat % 4 = 3 ∨ chipAddr s = 0) :=
  ⟨host0, 1, 15, live, by decide +kernel⟩

theorem witness_AlignmentMeasuresSetsAndWatches_2 : ∃ (q : Requester) (v : W32) (be : BitVec 4) (s : State), writeReaches s q
    0x07E 0x108 = true ∧ fget s (Fd.hdr_LOCK 0x07E) = 0 ∧ be = 15 ∧ fget s Fd.coll_ALIGN_GO = 0 ∧ v.toNat / 4 = fget s
    Fd.coll_ALIGNED ∧ v.toNat % 4 = 1 ∧ chipAddr s ≠ 0 :=
  ⟨host0, 1, 15, liveAt [(Fd.coll_CHIP_ADDR, 1)], by decide +kernel⟩

theorem witness_AlignmentMeasuresSetsAndWatches_3 : ∃ (link : Fin 6) (s : State), s.courier.align.sums.length = 6 ∧ linkUp s
    link = true ∧ fget s Fd.postmark_ALIGN_ACTIVE = 1 ∧ (s.courier.align.sums.getD link (0, 0, 0)).1 + 1 ≠ 64 :=
  ⟨0, paired [(Fd.postmark_ALIGN_ACTIVE, 1)], by decide +kernel⟩

theorem witness_AlignmentMeasuresSetsAndWatches_4 : ∃ (link : Fin 6) (s : State), linkUp s link = true ∧ fget s
    Fd.postmark_ALIGN_ACTIVE = 1 ∧ (s.courier.align.sums.getD link (0, 0, 0)).1 = 63 ∧ measuresOn s link = true :=
  ⟨0,
    { paired [(Fd.postmark_ALIGN_ACTIVE, 1)] with courier := { live.courier with align := ⟨(63, 0, 0) :: List.replicate 5 (0, 0, 0), false, 0, 0⟩ } },
    by decide +kernel⟩

theorem witness_AlignmentMeasuresSetsAndWatches_5 : ∃ (s : State), fget s Fd.postmark_ALIGN_ACTIVE = 1 ∧
    s.courier.align.measured = true ∧ adjLeft s = 0 :=
 
    ⟨{ paired [(Fd.postmark_ALIGN_ACTIVE, 1)] with courier := { live.courier with align := ⟨List.replicate 6 (0, 0, 0), true, 0, 0⟩ } },
    by decide +kernel⟩

theorem witness_AlignmentMeasuresSetsAndWatches_6 : ∃ (link : Fin 6) (s : State), fget s Fd.coll_ALIGNED = 1 ∧ pathLink s 0 =
    some link.val ∧ s.courier.align.lastCheck + 25000000 ≤ now s :=
  ⟨0, { atTick (liveAt (grouped 1)) 26000000 with time := { live.time with counter := 26000000 } }, by decide +kernel⟩

/-! ### CollectivesStartAndStage -/

theorem witness_CollectivesStartAndStage_1 : ∃ (k : Nat) (x : Task) (p : PlanSt) (o : OpDesc) (g : Nat) (s : State), Shaped s
    ∧ taskOf s k = some x ∧ x.disp.isSome = true ∧ x.computed = false ∧ x.code = 0x080 ∧ ((∀ y ∈ s.courier.groups, ∀ c ∈
    y.active, c.task ≠ k)) ∧ opOf s x = some (p, o) ∧ groupOf s x.pid = some g ∧ synced s g = true ∧ (groupSt s g).early = []
    :=
  ⟨7, oneTask 0x080 .courier [] false, onePlan 0x080 [], oneOp 0x080 [], 0, running (oneTask 0x080 .courier [] false) []
    (grouped 0), shaped_of (by decide +kernel), by decide +kernel, by decide +kernel, by decide +kernel, by decide +kernel,
    by decide +kernel, by decide +kernel, by decide +kernel, by decide +kernel, by decide +kernel⟩

theorem witness_CollectivesStartAndStage_2 : ∃ (k : Nat) (x : Task) (p : PlanSt) (o : OpDesc) (g : Nat) (s : State), Shaped s
    ∧ taskOf s k = some x ∧ x.disp.isSome = true ∧ x.computed = false ∧ x.code = 0x081 ∧ ((∀ y ∈ s.courier.groups, ∀ c ∈
    y.active, c.task ≠ k)) ∧ opOf s x = some (p, o) ∧ groupOf s x.pid = some g ∧ synced s g = true ∧ (groupSt s g).early = []
    :=
  ⟨7, oneTask 0x081 .courier [] false, onePlan 0x081 [], oneOp 0x081 [], 0, running (oneTask 0x081 .courier [] false) []
    (grouped 0), shaped_of (by decide +kernel), by decide +kernel, by decide +kernel, by decide +kernel, by decide +kernel,
    by decide +kernel, by decide +kernel, by decide +kernel, by decide +kernel, by decide +kernel⟩

theorem witness_CollectivesStartAndStage_3 : ∃ (k : Nat) (x : Task) (p : PlanSt) (o : OpDesc) (g : Nat) (s : State), Shaped s
    ∧ taskOf s k = some x ∧ x.disp.isSome = true ∧ x.computed = false ∧ x.code = 0x082 ∧ ((∀ y ∈ s.courier.groups, ∀ c ∈
    y.active, c.task ≠ k)) ∧ opOf s x = some (p, o) ∧ groupOf s x.pid = some g ∧ synced s g = true ∧ (groupSt s g).early = []
    :=
  ⟨7, oneTask 0x082 .courier [] false, onePlan 0x082 [], oneOp 0x082 [], 0, running (oneTask 0x082 .courier [] false) []
    (grouped 0), shaped_of (by decide +kernel), by decide +kernel, by decide +kernel, by decide +kernel, by decide +kernel,
    by decide +kernel, by decide +kernel, by decide +kernel, by decide +kernel, by decide +kernel⟩

theorem witness_CollectivesStartAndStage_4 : ∃ (k : Nat) (x : Task) (p : PlanSt) (o : OpDesc) (g : Nat) (s : State), Shaped s
    ∧ taskOf s k = some x ∧ x.disp.isSome = true ∧ x.computed = false ∧ x.code = 0x083 ∧ ((∀ y ∈ s.courier.groups, ∀ c ∈
    y.active, c.task ≠ k)) ∧ opOf s x = some (p, o) ∧ groupOf s x.pid = some g ∧ synced s g = true ∧ (groupSt s g).early = []
    :=
  ⟨7, oneTask 0x083 .courier [] false, onePlan 0x083 [], oneOp 0x083 [], 0, running (oneTask 0x083 .courier [] false) []
    (grouped 0), shaped_of (by decide +kernel), by decide +kernel, by decide +kernel, by decide +kernel, by decide +kernel,
    by decide +kernel, by decide +kernel, by decide +kernel, by decide +kernel, by decide +kernel⟩

theorem witness_CollectivesStartAndStage_5 : ∃ (k : Nat) (x : Task) (p : PlanSt) (o : OpDesc) (g : Nat) (s : State), Shaped s
    ∧ taskOf s k = some x ∧ k < s.sched.nextId ∧ x.disp.isSome = true ∧ x.computed = false ∧ x.code = 0x083 ∧ ((∀ y ∈
    s.courier.groups, ∀ c ∈ y.active, c.task ≠ k)) ∧ opOf s x = some (p, o) ∧ groupOf s x.pid = some g ∧ synced s g = false :=
  ⟨7, oneTask 0x083 .courier [] false, onePlan 0x083 [], oneOp 0x083 [], 0, running (oneTask 0x083 .courier [] false) []
    (grouped 0 ++ [(Fd.coll_SYNCED, 0)]), shaped_of (by decide +kernel), by decide +kernel, by decide +kernel,
    by decide +kernel, by decide +kernel, by decide +kernel, by decide +kernel, by decide +kernel, by decide +kernel,
    by decide +kernel⟩

theorem witness_CollectivesStartAndStage_6 : ∃ (g : Fin 16) (parts : List CollPart) (c : CollSt) (x : Task) (p : PlanSt) (o :
    OpDesc) (s : State), Shaped s ∧ unstaged s g = some c ∧ collAt s g c.seq = some c ∧ taskOf s c.task = some x ∧ opOf s x =
    some (p, o) ∧ (parts.map fun y => y.chip.toNat) = neededFrom s g o ∧ ((∀ y ∈ parts, y.docket.length = 16 ∧ y.data.length =
    x.inData.flatten.length)) ∧ votesIn s g { c with staged := true } = false :=
  ⟨0, [⟨1, List.replicate 16 0, List.replicate 32 0, false⟩], oneColl 0x080 false, oneTask 0x080 .courier [] false, onePlan
    0x080 [], oneOp 0x080 [], collecting (running (oneTask 0x080 .courier [] false) [] (grouped 0)) (oneColl 0x080 false),
    shaped_of (by decide +kernel), by decide +kernel, by decide +kernel, by decide +kernel, by decide +kernel,
    by decide +kernel, by decide +kernel, by decide +kernel⟩

/-! ### CollectivesCommitOrAbortAtEveryStation -/

theorem witness_CollectivesCommitOrAbortAtEveryStation_1 : ∃ (flit : FlitIn) (s : State), linkUp s flit.link = true ∧
    delivered s flit = false :=
  ⟨fromPeer 1, liveAt (grouped 0 ++ [(Fd.coll_GROUP_ENABLE 0, 0)]), by decide +kernel⟩

theorem witness_CollectivesCommitOrAbortAtEveryStation_2 : ∃ (flit : FlitIn) (desc : CollDesc) (c : CollSt) (s : State),
    linkUp s flit.link = true ∧ delivered s flit = true ∧ coordinates s flit.group = true ∧ collAt s flit.group
    flit.collSeq.toNat = some c ∧ desc = c.desc :=
  ⟨fromPeer 1, ⟨0x080, [0x0A], 8, []⟩, oneColl 0x080 true, collecting (running (oneTask 0x080 .courier [] false) [] (grouped
    0)) (oneColl 0x080 true), by decide +kernel⟩

theorem witness_CollectivesCommitOrAbortAtEveryStation_3 : ∃ (flit : FlitIn) (desc : CollDesc) (c : CollSt) (s : State),
    Shaped s ∧ linkUp s flit.link = true ∧ delivered s flit = true ∧ coordinates s flit.group = true ∧ collAt s flit.group
    flit.collSeq.toNat = some c ∧ desc ≠ c.desc ∧ c.task < s.sched.nextId :=
  ⟨fromPeer 1, ⟨0x081, [0x0A], 8, []⟩, oneColl 0x080 true, collecting (running (oneTask 0x080 .courier [] false) [] (grouped
    0)) (oneColl 0x080 true), shaped_of (by decide +kernel), by decide +kernel, by decide +kernel, by decide +kernel,
    by decide +kernel, by decide +kernel, by decide +kernel⟩

theorem witness_CollectivesCommitOrAbortAtEveryStation_4 : ∃ (flit : FlitIn) (start : W64) (aligned : Bool) (c : CollSt) (s :
    State), Shaped s ∧ linkUp s flit.link = true ∧ delivered s flit = true ∧ collAt s flit.group flit.collSeq.toNat = some c ∧
    votesIn s flit.group { c with votes := c.votes ++ [(flit.src.toNat, start.toNat, aligned)] } = false :=
  ⟨fromPeer 1, 1000000, true, oneColl 0x080 false, collecting (running (oneTask 0x080 .courier [] false) [] (grouped 0))
    (oneColl 0x080 false), shaped_of (by decide +kernel), by decide +kernel, by decide +kernel, by decide +kernel,
    by decide +kernel⟩

theorem witness_CollectivesCommitOrAbortAtEveryStation_5 : ∃ (flit : FlitIn) (start : W64) (aligned : Bool) (c : CollSt) (s :
    State), Shaped s ∧ linkUp s flit.link = true ∧ delivered s flit = true ∧ collAt s flit.group flit.collSeq.toNat = some c ∧
    c.voted = false ∧ c.task < s.sched.nextId ∧ votesIn s flit.group
    { c with votes := c.votes ++ [(flit.src.toNat, start.toNat, aligned)] } = true ∧ coordinates s flit.group = true ∧
    allAligned s { c with votes := c.votes ++ [(flit.src.toNat, start.toNat, aligned)] } = true ∧ now s + 500 ≤ earliest
    { c with votes := c.votes ++ [(flit.src.toNat, start.toNat, aligned)] } + fget s (Fd.coll_TIMEOUT_PT flit.group) :=
  ⟨fromPeer 1, 1000000, true, oneColl 0x080 true, collecting (running (oneTask 0x080 .courier [] false) [] (grouped 0 ++
    [(Fd.coll_TIMEOUT_PT 0, 507)])) (oneColl 0x080 true), shaped_of (by decide +kernel), by decide +kernel, by decide +kernel,
    by decide +kernel, by decide +kernel, by decide +kernel, by decide +kernel, by decide +kernel, by decide +kernel,
    by decide +kernel⟩

theorem witness_CollectivesCommitOrAbortAtEveryStation_6 : ∃ (flit : FlitIn) (start : W64) (aligned : Bool) (c : CollSt) (s :
    State), Shaped s ∧ linkUp s flit.link = true ∧ delivered s flit = true ∧ collAt s flit.group flit.collSeq.toNat = some c ∧
    c.voted = false ∧ votesIn s flit.group { c with votes := c.votes ++ [(flit.src.toNat, start.toNat, aligned)] } = true ∧
    coordinates s flit.group = false :=
  ⟨fromPeer 0, 1000000, true, oneColl 0x080 true, collecting (running (oneTask 0x080 .courier [] false) [] (grouped 1))
    (oneColl 0x080 true), shaped_of (by decide +kernel), by decide +kernel, by decide +kernel, by decide +kernel,
    by decide +kernel, by decide +kernel, by decide +kernel⟩

theorem witness_CollectivesCommitOrAbortAtEveryStation_7 : ∃ (flit : FlitIn) (c : CollSt) (s : State), Shaped s ∧ linkUp s
    flit.link = true ∧ delivered s flit = true ∧ collAt s flit.group flit.collSeq.toNat = some c ∧ c.task < s.sched.nextId :=
  ⟨fromPeer 0, oneColl 0x080 true, collecting (running (oneTask 0x080 .courier [] false) [] (grouped 1)) (oneColl 0x080 true),
    shaped_of (by decide +kernel), by decide +kernel, by decide +kernel, by decide +kernel, by decide +kernel⟩

theorem witness_CollectivesCommitOrAbortAtEveryStation_8 : ∃ (flit : FlitIn) (s : State), linkUp s flit.link = true ∧
    delivered s flit = true ∧ undecided s flit.group flit.collSeq.toNat = false :=
  ⟨fromPeer 0,
    { liveAt (grouped 1) with courier := { live.courier with groups := ⟨5, [], [], false⟩ :: List.replicate 15 GroupSt.reset } },
    by decide +kernel⟩

theorem witness_CollectivesCommitOrAbortAtEveryStation_9 : ∃ (flit : FlitIn) (c : CollSt) (s : State), Shaped s ∧ linkUp s
    flit.link = true ∧ delivered s flit = true ∧ coordinates s flit.group = true ∧ collAt s flit.group flit.collSeq.toNat =
    some c ∧ c.aborts = [] ∧ (groupSt s flit.group).early = [] ∧ c.task < s.sched.nextId :=
  ⟨fromPeer 1, oneColl 0x080 true, collecting (running (oneTask 0x080 .courier [] false) [] (grouped 0)) (oneColl 0x080 true),
    shaped_of (by decide +kernel), by decide +kernel, by decide +kernel, by decide +kernel, by decide +kernel,
    by decide +kernel, by decide +kernel, by decide +kernel⟩

theorem witness_CollectivesCommitOrAbortAtEveryStation_10 : ∃ (flit : FlitIn) (c : CollSt) (s : State), Shaped s ∧ linkUp s
    flit.link = true ∧ delivered s flit = true ∧ coordinates s flit.group = false ∧ collAt s flit.group flit.collSeq.toNat =
    some c ∧ c.aborts = [] ∧ (groupSt s flit.group).early = [] :=
  ⟨fromPeer 0, oneColl 0x080 true, collecting (running (oneTask 0x080 .courier [] false) [] (grouped 1)) (oneColl 0x080 true),
    shaped_of (by decide +kernel), by decide +kernel, by decide +kernel, by decide +kernel, by decide +kernel,
    by decide +kernel, by decide +kernel⟩

theorem witness_CollectivesCommitOrAbortAtEveryStation_11 : ∃ (g : Fin 16) (c : CollSt) (s : State), Shaped s ∧ ((groupSt s
    g).active.find? fun c => c.start + fget s (Fd.coll_TIMEOUT_PT g) < now s) = some c ∧ c.task < s.sched.nextId :=
  ⟨0, oneColl 0x080 true, collecting (running (oneTask 0x080 .courier [] false) [] (grouped 0 ++ [(Fd.coll_TIMEOUT_PT 0, 6)]))
    (oneColl 0x080 true), shaped_of (by decide +kernel), by decide +kernel, by decide +kernel⟩

/-! ### DenseAndPointwiseOperatorsRoundOnce -/

theorem witness_DenseAndPointwiseOperatorsRoundOnce_1 : ∃ (k : Nat) (x : Task) (p : PlanSt) (o : OpDesc) (s : State),
    RunsOperator s k 0x010 x p o :=
  ⟨7, oneTask 0x010 .truss [2] false, onePlan 0x010 [], oneOp 0x010 [], running (oneTask 0x010 .truss [2] false) [] [],
    by unfold RunsOperator; decide +kernel⟩

theorem witness_DenseAndPointwiseOperatorsRoundOnce_2 : ∃ (k : Nat) (x : Task) (p : PlanSt) (o : OpDesc) (s : State),
    RunsOperator s k 0x011 x p o :=
  ⟨7, oneTask 0x011 .truss [2] false, onePlan 0x011 [], oneOp 0x011 [], running (oneTask 0x011 .truss [2] false) [] [],
    by unfold RunsOperator; decide +kernel⟩

theorem witness_DenseAndPointwiseOperatorsRoundOnce_3 : ∃ (k : Nat) (x : Task) (p : PlanSt) (o : OpDesc) (s : State),
    RunsOperator s k 0x012 x p o :=
  ⟨7, oneTask 0x012 .truss [2] false, onePlan 0x012 [], oneOp 0x012 [], running (oneTask 0x012 .truss [2] false) [] [],
    by unfold RunsOperator; decide +kernel⟩

theorem witness_DenseAndPointwiseOperatorsRoundOnce_4 : ∃ (k : Nat) (x : Task) (p : PlanSt) (o : OpDesc) (s : State),
    RunsOperator s k 0x013 x p o :=
  ⟨7, oneTask 0x013 .truss [2] false, onePlan 0x013 [], oneOp 0x013 [], running (oneTask 0x013 .truss [2] false) [] [],
    by unfold RunsOperator; decide +kernel⟩

theorem witness_DenseAndPointwiseOperatorsRoundOnce_5 : ∃ (k : Nat) (x : Task) (p : PlanSt) (o : OpDesc) (s : State),
    RunsOperator s k 0x030 x p o :=
  ⟨7, oneTask 0x030 .truss [2] false, onePlan 0x030 [], oneOp 0x030 [], running (oneTask 0x030 .truss [2] false) [] [],
    by unfold RunsOperator; decide +kernel⟩

theorem witness_DenseAndPointwiseOperatorsRoundOnce_6 : ∃ (k : Nat) (x : Task) (p : PlanSt) (o : OpDesc) (s : State),
    RunsOperator s k 0x031 x p o :=
  ⟨7, oneTask 0x031 .truss [2] false, onePlan 0x031 [], oneOp 0x031 [], running (oneTask 0x031 .truss [2] false) [] [],
    by unfold RunsOperator; decide +kernel⟩

theorem witness_DenseAndPointwiseOperatorsRoundOnce_7 : ∃ (k : Nat) (x : Task) (p : PlanSt) (o : OpDesc) (s : State),
    RunsOperator s k 0x032 x p o :=
  ⟨7, oneTask 0x032 .truss [2] false, onePlan 0x032 [], oneOp 0x032 [], running (oneTask 0x032 .truss [2] false) [] [],
    by unfold RunsOperator; decide +kernel⟩

theorem witness_DenseAndPointwiseOperatorsRoundOnce_8 : ∃ (k : Nat) (x : Task) (p : PlanSt) (o : OpDesc) (s : State),
    RunsOperator s k 0x033 x p o :=
  ⟨7, oneTask 0x033 .truss [2] false, onePlan 0x033 [], oneOp 0x033 [], running (oneTask 0x033 .truss [2] false) [] [],
    by unfold RunsOperator; decide +kernel⟩

theorem witness_DenseAndPointwiseOperatorsRoundOnce_9 : ∃ (k : Nat) (x : Task) (p : PlanSt) (o : OpDesc) (s : State),
    RunsOperator s k 0x034 x p o :=
  ⟨7, oneTask 0x034 .truss [2] false, onePlan 0x034 [], oneOp 0x034 [], running (oneTask 0x034 .truss [2] false) [] [],
    by unfold RunsOperator; decide +kernel⟩

/-! ### ReductionsFormEachGroup -/

theorem witness_ReductionsFormEachGroup_1 : ∃ (k : Nat) (x : Task) (p : PlanSt) (o : OpDesc) (s : State), RunsOperator s k
    0x040 x p o :=
  ⟨7, oneTask 0x040 .truss [2] false, onePlan 0x040 [], oneOp 0x040 [], running (oneTask 0x040 .truss [2] false) [] [],
    by unfold RunsOperator; decide +kernel⟩

theorem witness_ReductionsFormEachGroup_2 : ∃ (k : Nat) (x : Task) (p : PlanSt) (o : OpDesc) (s : State), RunsOperator s k
    0x042 x p o :=
  ⟨7, oneTask 0x042 .truss [2] false, onePlan 0x042 [], oneOp 0x042 [], running (oneTask 0x042 .truss [2] false) [] [],
    by unfold RunsOperator; decide +kernel⟩

theorem witness_ReductionsFormEachGroup_3 : ∃ (k : Nat) (x : Task) (p : PlanSt) (o : OpDesc) (s : State), RunsOperator s k
    0x041 x p o :=
  ⟨7, oneTask 0x041 .truss [2] false, onePlan 0x041 [], oneOp 0x041 [], running (oneTask 0x041 .truss [2] false) [] [],
    by unfold RunsOperator; decide +kernel⟩

theorem witness_ReductionsFormEachGroup_4 : ∃ (k : Nat) (x : Task) (p : PlanSt) (o : OpDesc) (s : State), RunsOperator s k
    0x043 x p o :=
  ⟨7, oneTask 0x043 .truss [2] false, onePlan 0x043 [], oneOp 0x043 [], running (oneTask 0x043 .truss [2] false) [] [],
    by unfold RunsOperator; decide +kernel⟩

theorem witness_ReductionsFormEachGroup_5 : ∃ (k : Nat) (x : Task) (p : PlanSt) (o : OpDesc) (s : State), RunsOperator s k
    0x044 x p o :=
  ⟨7, oneTask 0x044 .truss [2] false, onePlan 0x044 [], oneOp 0x044 [], running (oneTask 0x044 .truss [2] false) [] [],
    by unfold RunsOperator; decide +kernel⟩

/-! ### MacroOperationsMoveDrawAndComplete -/

theorem witness_MacroOperationsMoveDrawAndComplete_1 : ∃ (k : Nat) (x : Task) (p : PlanSt) (o : OpDesc) (s : State),
    RunsOperator s k 0x021 x p o :=
  ⟨7, oneTask 0x021 .truss [2] false, onePlan 0x021 [], oneOp 0x021 [], running (oneTask 0x021 .truss [2] false) [] [],
    by unfold RunsOperator; decide +kernel⟩

theorem witness_MacroOperationsMoveDrawAndComplete_2 : ∃ (k : Nat) (x : Task) (p : PlanSt) (o : OpDesc) (s : State),
    RunsOperator s k 0x090 x p o ∧ (outDesc p.words o 0).fmt = 0x07 :=
  ⟨7, oneTask 0x090 .truss [8] false, ⟨mkPlan [(0x0A, 1, [4, 2]), (0x07, 2, [4, 2])] [(0x090, [0], [1], [])] 8 [(5, [0])] 0,
    0, 0, false, none, [[1]], []⟩, oneOp 0x090 [],
    { running (oneTask 0x090 .truss [8] false) [] [] with plans := [(1, ⟨mkPlan [(0x0A, 1, [4, 2]), (0x07, 2, [4, 2])] [(0x090, [0], [1], [])] 8 [(5, [0])] 0, 0, 0, false, none, [[1]], []⟩)] },
    by unfold RunsOperator; decide +kernel, by decide +kernel⟩

theorem witness_MacroOperationsMoveDrawAndComplete_3 : ∃ (k : Nat) (x : Task) (p : PlanSt) (o : OpDesc) (s : State),
    RunsOperator s k 0x090 x p o ∧ (outDesc p.words o 0).fmt ≠ 0x07 :=
  ⟨7, oneTask 0x090 .truss [2] false, onePlan 0x090 [], oneOp 0x090 [], running (oneTask 0x090 .truss [2] false) [] [],
    by unfold RunsOperator; decide +kernel, by decide +kernel⟩

theorem witness_MacroOperationsMoveDrawAndComplete_4 : ∃ (k : Nat) (x : Task) (p : PlanSt) (o : OpDesc) (s : State),
    RunsOperator s k 0x091 x p o :=
  ⟨7, oneTask 0x091 .truss [2] false, onePlan 0x091 [], oneOp 0x091 [], running (oneTask 0x091 .truss [2] false) [] [],
    by unfold RunsOperator; decide +kernel⟩

theorem witness_MacroOperationsMoveDrawAndComplete_5 : ∃ (k : Nat) (x : Task) (p : PlanSt) (o : OpDesc) (s : State), taskOf s
    k = some x ∧ x.kind = .truss ∧ x.disp.isSome = true ∧ x.computed = true ∧ opOf s x = some (p, o) ∧ undefinedMacro p.words
    o = false ∧ dramReady s x = true ∧ ((∀ u ∈ x.units, u < 9)) ∧ k < s.sched.nextId :=
  ⟨7, oneTask 0x033 .truss [8] true, ⟨mkPlan [(0x0A, 1, [4, 2]), (0x0A, 2, [4, 2])] [(0x033, [0], [1], [])] 8 [(4, [0x104,
    0xFFFF0000, 0xFFFFFFFF, 0xFFFF0001, 0, 0, 0x3F800000, 0])] 0, 0, 0, false, none, [[1]], []⟩, oneOp 0x033 [], runningMacro
    (oneTask 0x033 .truss [8] true) [0x104, 0xFFFF0000, 0xFFFFFFFF, 0xFFFF0001, 0, 0, 0x3F800000, 0], by decide +kernel⟩

theorem witness_MacroOperationsMoveDrawAndComplete_6 : ∃ (k : Nat) (x : Task) (p : PlanSt) (o : OpDesc) (s : State), taskOf s
    k = some x ∧ x.kind = .truss ∧ x.disp.isSome = true ∧ opOf s x = some (p, o) ∧ undefinedMacro p.words o = true ∧ k <
    s.sched.nextId :=
  ⟨7, oneTask 0x033 .truss [8] true, ⟨mkPlan [(0x0A, 1, [4, 2]), (0x0A, 2, [4, 2])] [(0x033, [0], [1], [])] 8 [(4, [0x0B, 0,
    0, 0, 0, 0, 0, 0])] 0, 0, 0, false, none, [[1]], []⟩, oneOp 0x033 [], runningMacro (oneTask 0x033 .truss [8] true) [0x0B,
    0, 0, 0, 0, 0, 0, 0], by decide +kernel⟩

/-! ### BuiltInJoinerOperatorsFormTheirOutputs -/

theorem witness_BuiltInJoinerOperatorsFormTheirOutputs_1 : ∃ (k : Nat) (x : Task) (p : PlanSt) (o : OpDesc) (s : State),
    RunsOperator s k 0x020 x p o :=
  ⟨7, oneTask 0x020 .joiner [2] false, onePlan 0x020 [], oneOp 0x020 [], running (oneTask 0x020 .joiner [2] false) [] [],
    by unfold RunsOperator; decide +kernel⟩

theorem witness_BuiltInJoinerOperatorsFormTheirOutputs_2 : ∃ (k : Nat) (x : Task) (p : PlanSt) (o : OpDesc) (s : State),
    RunsOperator s k 0x022 x p o :=
  ⟨7, oneTask 0x022 .joiner [2] false, onePlan 0x022 [], oneOp 0x022 [], running (oneTask 0x022 .joiner [2] false) [] [],
    by unfold RunsOperator; decide +kernel⟩

theorem witness_BuiltInJoinerOperatorsFormTheirOutputs_3 : ∃ (k : Nat) (x : Task) (p : PlanSt) (o : OpDesc) (s : State),
    RunsOperator s k 0x023 x p o :=
  ⟨7, oneTask 0x023 .joiner [2] false, onePlan 0x023 [], oneOp 0x023 [], running (oneTask 0x023 .joiner [2] false) [] [],
    by unfold RunsOperator; decide +kernel⟩

theorem witness_BuiltInJoinerOperatorsFormTheirOutputs_4 : ∃ (k : Nat) (x : Task) (p : PlanSt) (o : OpDesc) (s : State),
    RunsOperator s k 0x024 x p o :=
  ⟨7, oneTask 0x024 .joiner [2] false, onePlan 0x024 [], oneOp 0x024 [], running (oneTask 0x024 .joiner [2] false) [] [],
    by unfold RunsOperator; decide +kernel⟩

theorem witness_BuiltInJoinerOperatorsFormTheirOutputs_5 : ∃ (k : Nat) (x : Task) (p : PlanSt) (o : OpDesc) (s : State),
    RunsOperator s k 0x025 x p o :=
  ⟨7, oneTask 0x025 .joiner [2] false, onePlan 0x025 [], oneOp 0x025 [], running (oneTask 0x025 .joiner [2] false) [] [],
    by unfold RunsOperator; decide +kernel⟩

theorem witness_BuiltInJoinerOperatorsFormTheirOutputs_6 : ∃ (k : Nat) (x : Task) (p : PlanSt) (o : OpDesc) (r : FrameRef)
    (rest : List FrameRef) (s : State), RunsOperator s k 0x026 x p o ∧ x.frames = r :: rest ∧ (outDesc p.words o 0).dims =
    unpackDims r :=
  ⟨7, { oneTask 0x026 .joiner [2] false with frames := [aFrame] }, onePlan 0x026 [], oneOp 0x026 [], aFrame, [], running
    { oneTask 0x026 .joiner [2] false with frames := [aFrame] } [] [], by unfold RunsOperator; decide +kernel,
    by decide +kernel, by decide +kernel⟩

theorem witness_BuiltInJoinerOperatorsFormTheirOutputs_7 : ∃ (k : Nat) (x : Task) (p : PlanSt) (o : OpDesc) (r : FrameRef)
    (rest : List FrameRef) (s : State), RunsOperator s k 0x026 x p o ∧ x.frames = r :: rest ∧ (outDesc p.words o 0).dims ≠
    unpackDims r ∧ k < s.sched.nextId :=
  ⟨7, { oneTask 0x026 .joiner [2] false with frames := [{ aFrame with dt := 0x24 }] }, onePlan 0x026 [], oneOp 0x026 [],
    { aFrame with dt := 0x24 }, [], running { oneTask 0x026 .joiner [2] false with frames := [{ aFrame with dt := 0x24 }] } []
    [], by unfold RunsOperator; decide +kernel, by decide +kernel, by decide +kernel, by decide +kernel⟩

/-! ### JoinerTasksEndByEcallOrTrap -/

theorem witness_JoinerTasksEndByEcallOrTrap_1 : ∃ (k : Nat) (x : Task) (s : State), taskOf s k = some x ∧ x.disp.isSome = true
    ∧ x.computed = true ∧ x.code = 0x0A0 ∧ (coreAt s (x.units.headD 0)).pop = none :=
  ⟨7, oneTask 0x0A0 .joiner [2] true, joining 0x0A0 [2] (userCore 0 0 []) [0x13], by decide +kernel⟩

theorem witness_JoinerTasksEndByEcallOrTrap_2 : ∃ (k : Nat) (x : Task) (s : State), taskOf s k = some x ∧ x.disp.isSome = true
    ∧ x.computed = true ∧ x.code = 0x0A0 ∧ atEcall s (x.units.headD 0) x = true :=
  ⟨7, oneTask 0x0A0 .joiner [2] true, joining 0x0A0 [2] (userCore 0 0 []) [0x73], by decide +kernel⟩

theorem witness_JoinerTasksEndByEcallOrTrap_3 : ∃ (core : Fin 34) (x : Task) (s : State), headTask s core = some x ∧
    x.computed = true ∧ x.code = 0x0A0 ∧ atEcall s core x = true ∧ (coreAt s core).pop = none ∧ dramReady s x = true ∧ x.id <
    s.sched.nextId :=
  ⟨2, oneTask 0x0A0 .joiner [2] true, joining 0x0A0 [2] (userCore 0 0 []) [0x73], by decide +kernel⟩

theorem witness_JoinerTasksEndByEcallOrTrap_4 : ∃ (core : Fin 34) (x : Task) (s : State), headTask s core = some x ∧
    x.computed = true ∧ x.code ≠ 0x0A0 ∧ x.code ≠ 0x061 ∧ dramReady s x = true ∧ x.id < s.sched.nextId :=
  ⟨2, oneTask 0x020 .joiner [2] true, joining 0x020 [2] (userCore 0 0 []) [], by decide +kernel⟩

theorem witness_JoinerTasksEndByEcallOrTrap_5 : ∃ (core : Fin 34) (n : Nat) (x : Task) (s : State), headTask s core = some x ∧
    x.computed = true ∧ x.code = 0x0A0 ∧ (coreAt s core).pop = none ∧ trapCause s core x = some n ∧ x.id < s.sched.nextId :=
  ⟨2, 2, oneTask 0x0A0 .joiner [2] true, joining 0x0A0 [2] (userCore 0 0 []) [0], by decide +kernel⟩

theorem witness_JoinerTasksEndByEcallOrTrap_6 : ∃ (core : Fin 34) (x : Task) (s : State), headTask s core = some x ∧
    x.units.length = 2 ∧ x.id < s.sched.nextId :=
  ⟨2, oneTask 0x0A0 .joiner [2, 3] true, joining 0x0A0 [2, 3] (userCore 0 0 []) [], by decide +kernel⟩

/-! ### TileQueuesAndDocketPortsFollowTheVendorInstructions -/

theorem witness_TileQueuesAndDocketPortsFollowTheVendorInstructions_1 : ∃ (core : Fin 34) (rd : Fin 32) (rs1 : Fin 32) (rs2 :
    Fin 32) (x : Task) (s : State), Shaped s ∧ atVendor s core (vendorWord 0x0B 0 0 rd rs1 rs2) = some (s, x) ∧ core.val ∈
    x.units ∧ ((coreAt s core).rx rs1).toNat + 32 ≤ 0x40000 ∧ markedWords s (storeAddr core ((coreAt s core).rx rs1).toNat) 32
    = [] ∧ (queueAt s core (((coreAt s core).rx rs2).toNat % 4)).length < 16 :=
  ⟨2, 5, 1, 2, oneTask 0x0A0 .joiner [2] true, joining 0x0A0 [2] (userCore 0x3FFE0 0 []) [vendorWord 0x0B 0 0 5 1 2],
    shaped_of (by decide +kernel), by decide +kernel, by decide +kernel, by decide +kernel, by decide +kernel,
    by decide +kernel⟩

theorem witness_TileQueuesAndDocketPortsFollowTheVendorInstructions_2 : ∃ (core : Fin 34) (rd : Fin 32) (rs1 : Fin 32) (rs2 :
    Fin 32) (x : Task) (s : State), Shaped s ∧ atVendor s core (vendorWord 0x0B 0 0 rd rs1 rs2) = some (s, x) ∧ core.val ∈
    x.units ∧ ((coreAt s core).rx rs1).toNat + 32 ≤ 0x40000 ∧ markedWords s (storeAddr core ((coreAt s core).rx rs1).toNat) 32
    = [] ∧ 16 ≤ (queueAt s core (((coreAt s core).rx rs2).toNat % 4)).length :=
  ⟨2, 5, 1, 2, oneTask 0x0A0 .joiner [2] true, joining 0x0A0 [2] (userCore 0x3FFE0 0 (List.replicate 16 (aTile none)))
    [vendorWord 0x0B 0 0 5 1 2], shaped_of (by decide +kernel), by decide +kernel, by decide +kernel, by decide +kernel,
    by decide +kernel, by decide +kernel⟩

theorem witness_TileQueuesAndDocketPortsFollowTheVendorInstructions_3 : ∃ (core : Fin 34) (rd : Fin 32) (rs1 : Fin 32) (x :
    Task) (s : State), Shaped s ∧ atVendor s core (vendorWord 0x0B 1 0 rd rs1 0) = some (s, x) ∧ core.val ∈ x.units ∧ queueAt
    s core (((coreAt s core).rx rs1).toNat % 4) = [] :=
  ⟨2, 5, 1, oneTask 0x0A0 .joiner [2] true, joining 0x0A0 [2] (userCore 3 0 []) [vendorWord 0x0B 1 0 5 1 0], shaped_of
    (by decide +kernel), by decide +kernel, by decide +kernel, by decide +kernel⟩

theorem witness_TileQueuesAndDocketPortsFollowTheVendorInstructions_4 : ∃ (core : Fin 34) (rd : Fin 32) (rs1 : Fin 32) (x :
    Task) (y : Tile) (rest : List Tile) (v : Nat) (s : State), Shaped s ∧ atVendor s core (vendorWord 0x0B 1 0 rd rs1 0) =
    some (s, x) ∧ core.val ∈ x.units ∧ queueAt s core (((coreAt s core).rx rs1).toNat % 4) = y :: rest ∧ y.done = some v :=
  ⟨2, 5, 1, oneTask 0x0A0 .joiner [2] true, aTile (some 1), [], 1, joining 0x0A0 [2] (userCore 0 0 [aTile (some 1)])
    [vendorWord 0x0B 1 0 5 1 0], shaped_of (by decide +kernel), by decide +kernel, by decide +kernel, by decide +kernel,
    by decide +kernel⟩

theorem witness_TileQueuesAndDocketPortsFollowTheVendorInstructions_5 : ∃ (core : Fin 34) (rd : Fin 32) (rs1 : Fin 32) (x :
    Task) (y : Tile) (rest : List Tile) (s : State), Shaped s ∧ atVendor s core (vendorWord 0x0B 1 0 rd rs1 0) = some (s, x) ∧
    core.val ∈ x.units ∧ queueAt s core (((coreAt s core).rx rs1).toNat % 4) = y :: rest ∧ y.done = none :=
  ⟨2, 5, 1, oneTask 0x0A0 .joiner [2] true, aTile none, [], joining 0x0A0 [2] (userCore 4 0 [aTile none]) [vendorWord 0x0B 1 0
    5 1 0], shaped_of (by decide +kernel), by decide +kernel, by decide +kernel, by decide +kernel, by decide +kernel⟩

theorem witness_TileQueuesAndDocketPortsFollowTheVendorInstructions_6 : ∃ (core : Fin 34) (rd : Fin 32) (rs1 : Fin 32) (x :
    Task) (s : State), Shaped s ∧ atVendor s core (vendorWord 0x0B 2 0 rd rs1 0) = some (s, x) ∧ core.val ∈ x.units :=
  ⟨2, 0, 1, oneTask 0x0A0 .joiner [2] true, joining 0x0A0 [2] (userCore 0 0 [aTile none]) [vendorWord 0x0B 2 0 0 1 0],
    shaped_of (by decide +kernel), by decide +kernel, by decide +kernel⟩

theorem witness_TileQueuesAndDocketPortsFollowTheVendorInstructions_7 : ∃ (core : Fin 34) (rd : Fin 32) (rs1 : Fin 32) (w :
    Fin 4) (x : Task) (s : State), Shaped s ∧ atVendor s core (vendorWord 0x2B 0 w rd rs1 0) = some (s, x) ∧ core.val ∈
    x.units ∧ ((coreAt s core).rx rs1).toNat < 12 :=
  ⟨2, 5, 1, 3, oneTask 0x0A0 .joiner [2] true, joining 0x0A0 [2] (userCore 11 0 []) [vendorWord 0x2B 0 3 5 1 0], shaped_of
    (by decide +kernel), by decide +kernel, by decide +kernel, by decide +kernel⟩

theorem witness_TileQueuesAndDocketPortsFollowTheVendorInstructions_8 : ∃ (core : Fin 34) (rd : Fin 32) (rs1 : Fin 32) (w :
    Fin 4) (x : Task) (s : State), Shaped s ∧ atVendor s core (vendorWord 0x2B 0 w rd rs1 0) = some (s, x) ∧ core.val ∈
    x.units ∧ 12 ≤ ((coreAt s core).rx rs1).toNat :=
  ⟨2, 5, 1, 3, oneTask 0x0A0 .joiner [2] true, joining 0x0A0 [2] (userCore 12 0 []) [vendorWord 0x2B 0 3 5 1 0], shaped_of
    (by decide +kernel), by decide +kernel, by decide +kernel, by decide +kernel⟩

theorem witness_TileQueuesAndDocketPortsFollowTheVendorInstructions_9 : ∃ (core : Fin 34) (rs1 : Fin 32) (x : Task) (s :
    State), Shaped s ∧ atVendor s core (vendorWord 0x2B 1 0 0 rs1 0) = some (s, x) ∧ core.val ∈ x.units :=
  ⟨2, 1, oneTask 0x0A0 .joiner [2] true, joining 0x0A0 [2] (userCore 8 0 []) [vendorWord 0x2B 1 0 0 1 0], shaped_of
    (by decide +kernel), by decide +kernel, by decide +kernel⟩

theorem witness_TileQueuesAndDocketPortsFollowTheVendorInstructions_11 : ∃ (core : Fin 34) (queue : Fin 4) (x : Task) (y :
    Tile) (s : State), Shaped s ∧ headTask s core = some x ∧ core.val ∈ x.units ∧ (coreAt s core).pop = none ∧ ((queueAt s
    core queue).find? fun z => z.done.isNone) = some y ∧ tileWaits s x y = false :=
  ⟨2, 0, oneTask 0x0A0 .joiner [2] true, aTile none, joining 0x0A0 [2] (userCore 0 0 [aTile none]) [], shaped_of
    (by decide +kernel), by decide +kernel, by decide +kernel, by decide +kernel, by decide +kernel, by decide +kernel⟩

theorem witness_TileQueuesAndDocketPortsFollowTheVendorInstructions_12 : ∃ (core : Fin 34) (queue : Fin 4) (x : Task) (y :
    Tile) (s : State), Shaped s ∧ Canonical s ∧ headTask s core = some x ∧ x.units = [core.val] ∧ (coreAt s core).pop = none ∧
    (coreAt s core).ports = [] ∧ ((queueAt s core queue).find? fun z => z.done.isNone) = some y ∧ tileWaits s x y = false ∧
    y.rows = 1 ∧ inBuffer y.dst y.rowBytes = true ∧ inBuffer y.dst 1 = true ∧ windowBase ≤ y.src ∧ rangePermitted s x.pid
    (y.src - windowBase) y.rowBytes = true ∧ pooled s x.pid (y.src - windowBase) = false ∧ markedWords s (y.src - windowBase)
    y.rowBytes = [] :=
  ⟨2, 0, oneTask 0x0A0 .joiner [2] true, aTile none, fputs (joining 0x0A0 [2] (userCore 0 0 [aTile none]) [])
    [(Fd.part_BEAM_BANKS 0, 1)], shaped_of (by decide +kernel), canonical_of (by decide +kernel), by decide +kernel,
    by decide +kernel, by decide +kernel, by decide +kernel, by decide +kernel, by decide +kernel, by decide +kernel,
    by decide +kernel, by decide +kernel, by decide +kernel, by decide +kernel, by decide +kernel, by decide +kernel⟩

theorem witness_TileQueuesAndDocketPortsFollowTheVendorInstructions_13 : ∃ (core : Fin 34) (x : Task) (q : Nat) (rd : Nat)
    (began : Nat) (s : State), Shaped s ∧ headTask s core = some x ∧ core.val ∈ x.units ∧ (coreAt s core).pop = some (q, rd,
    began) ∧ rd < 32 ∧ began + fget s (Fd.sched_WAIT_LIMIT_PT x.pid) ≤ now s :=
  ⟨2, oneTask 0x0A0 .joiner [2] true, 0, 31, 1000000, fputs (joining 0x0A0 [2]
    { userCore 0 0 [aTile none] with pop := some (0, 31, 1000000) } []) [(Fd.sched_WAIT_LIMIT_PT 0, 7)], shaped_of
    (by decide +kernel), by decide +kernel, by decide +kernel, by decide +kernel, by decide +kernel, by decide +kernel⟩

/-! ### TheTimetableIsValidatedAndDrivesItsFrames -/

theorem witness_TheTimetableIsValidatedAndDrivesItsFrames_1 : ∃ (q : Requester) (v : W32) (be : BitVec 4) (s : State),
    writeReaches s q 0x058 0x048 = true ∧ be = 15 ∧ v = 1 :=
  ⟨host0, 1, 15, live, by decide +kernel⟩

theorem witness_TheTimetableIsValidatedAndDrivesItsFrames_2 : ∃ (s : State), s.time.running = true ∧ s.time.clkLost = false ∧
    adjLeft s = 0 ∧ fget s Fd.sched_COMMIT = 1 ∧ ttFault s (shadowTable s) = none :=
  ⟨committing smallTable, by decide +kernel⟩

theorem witness_TheTimetableIsValidatedAndDrivesItsFrames_3 : ∃ (w : Nat) (s : State), s.time.running = true ∧ s.time.clkLost
    = false ∧ adjLeft s = 0 ∧ fget s Fd.sched_COMMIT = 1 ∧ ttFault s (shadowTable s) = some w :=
  ⟨2, committing ([1000, 3, 1] ++ smallTable.drop 3), by decide +kernel⟩

theorem witness_TheTimetableIsValidatedAndDrivesItsFrames_4 : ∃ (tt : List W32) (valid : Nat) (s : State), s.sched.valid =
    some (tt, valid) ∧ valid < now s ∧ now s % max 1 (ttCycle tt) = 0 :=
  ⟨smallTable, 1000999, { strictAt 1001000 [] [] with sched := { live.sched with valid := some (smallTable, 1000999) } },
    by decide +kernel⟩

theorem witness_TheTimetableIsValidatedAndDrivesItsFrames_5 : ∃ (s : State), frameDue s = true :=
  ⟨strictAt 1001000 smallTable [], by decide +kernel⟩

theorem witness_TheTimetableIsValidatedAndDrivesItsFrames_6 : ∃ (slot : Nat) (s : State), slotOpen s slot = true ∧ ttIsWindow
    s.sched.active slot = true :=
  ⟨1, strictAt 1000100 smallTable [], by decide +kernel⟩

theorem witness_TheTimetableIsValidatedAndDrivesItsFrames_7 : ∃ (pair : Fin 17) (m : Nat) (s : State), pairIdle s pair = true
    ∧ fget s (Fd.joiner_LOGICAL pair) ≠ 0 ∧ fget s (Fd.joiner_ROLE pair) = 0 ∧ strictHeld s .joiner (fget s (Fd.joiner_LOGICAL
    pair)) = true ∧ windowMode s (fget s (Fd.joiner_LOGICAL pair)) = some m :=
  ⟨1, 1, strictAt 1000100 smallTable [], by decide +kernel⟩

theorem witness_TheTimetableIsValidatedAndDrivesItsFrames_8 : ∃ (pair : Fin 17) (x : Task) (s : State), pairIdle s pair = true
    ∧ fget s (Fd.joiner_LOGICAL pair) ≠ 0 ∧ fget s (Fd.joiner_ROLE pair) = 0 ∧ strictHeld s .joiner (fget s (Fd.joiner_LOGICAL
    pair)) = false ∧ nextLoose s .joiner = some x :=
  ⟨2, waitingTask 0x020 .joiner false, { live with sched := { live.sched with tasks := [waitingTask 0x020 .joiner false] } },
    by decide +kernel⟩

/-! ### TasksStartOnTheUnitsTheyAreGiven -/

theorem witness_TasksStartOnTheUnitsTheyAreGiven_1 : ∃ (kind : UnitKind) (x : Task) (us : List Nat) (l : Letter) (s : State),
    nextLoose s kind = some x ∧ taskOf s x.id = some x ∧ looseUnits s x = some us ∧ letterOf s x.ch x.seq = some l ∧
    domainRuns s (domainOf kind) = true ∧ s.boot.holdup = false ∧ pastDeadline s l = false ∧ epochTest s x = .read :=
  ⟨.truss, waitingTask 0x021 .truss false, List.range 8, inFlight 0x04 .started (leBytes 2 1),
    { liveAt [(Fd.power_DOMAIN_RUN, 15)] with letters := [inFlight 0x04 .started (leBytes 2 1)], plans := [(1, onePlan 0x021 [])], sched := { live.sched with tasks := [waitingTask 0x021 .truss false], nextId := 8 } },
    by decide +kernel⟩

theorem witness_TasksStartOnTheUnitsTheyAreGiven_2 : ∃ (kind : UnitKind) (x : Task) (us : List Nat) (l : Letter) (s : State),
    nextLoose s kind = some x ∧ looseUnits s x = some us ∧ letterOf s x.ch x.seq = some l ∧ domainRuns s (domainOf kind) =
    true ∧ s.boot.holdup = false ∧ pastDeadline s l = true ∧ l.run = none ∧ l.phase = .accepted ∧ x.id < s.sched.nextId :=
  ⟨.sorter, waitingTask 0 .sorter false, [0], { inFlight 0x09 .accepted [] with l := { entry60 [] with deadline := 6 } },
    { liveAt [(Fd.power_DOMAIN_RUN, 15)] with letters := [{ inFlight 0x09 .accepted [] with l := { entry60 [] with deadline := 6 } }], plans := [(1, onePlan 0x021 [])], sched := { live.sched with tasks := [waitingTask 0 .sorter false], nextId := 8 } },
    by decide +kernel⟩

theorem witness_TasksStartOnTheUnitsTheyAreGiven_3 : ∃ (ch : Fin 64) (seq : W32) (op : Nat) (l : Letter) (r : RunSt) (p :
    PlanSt) (x : Task) (s : State), letterOf s ch seq.toNat = some l ∧ l.run = some r ∧ planOf s l = some p ∧ planStrict
    p.words = true ∧ r.ops.getD op .done = .waiting ∧ now s = r.start + ptOffset p.words op ∧ pastDeadline s l = false ∧
    (s.sched.tasks.find? fun y => y.ch == ch.val && y.seq == seq.toNat && y.op == op && y.disp.isNone) = some x ∧ taskOf s
    x.id = some x ∧ ((∀ u ∈ p.units.getD op [], (physUnit s x.kind u).isSome = true)) ∧ modesFit (setModes s x (p.units.getD
    op [])) x (p.units.getD op []) = true :=
  ⟨3, 60, 0, strictLetter .started (some ⟨1001150, [.waiting], [], 0, false, false, none⟩), ⟨1001150, [.waiting], [], 0,
    false, false, none⟩, strictPlan, waitingTask 0x021 .truss true, strictRun 1001160 (strictLetter .started (some ⟨1001150,
    [.waiting], [], 0, false, false, none⟩)) [] [waitingTask 0x021 .truss true], by decide +kernel, by decide +kernel, rfl,
    by decide +kernel, by decide +kernel, by decide +kernel, by decide +kernel, by decide +kernel, by decide +kernel,
    by decide +kernel, by decide +kernel⟩

theorem witness_TasksStartOnTheUnitsTheyAreGiven_4 : ∃ (ch : Fin 64) (seq : W32) (l : Letter) (p : PlanSt) (s : State),
    letterOf s ch seq.toNat = some l ∧ planOf s l = some p ∧ l.op = 0x04 ∧ planStrict p.words = true ∧ s.sched.active ≠ [] ∧
    l.phase = .accepted ∧ l.run = none ∧ cyclePos s = anchorPos p.words s.sched.active ∧ l.acceptPm + 250 ≤ now s ∧ slotBusy s
    l = true :=
  ⟨3, 60, strictLetter .accepted none, strictPlan, strictRun 1001150 (strictLetter .accepted none)
    [{ inFlight 0x04 .started (leBytes 2 1) with ch := 4 }] [], by decide +kernel, rfl, by decide +kernel, by decide +kernel,
    by decide +kernel, by decide +kernel, by decide +kernel, by decide +kernel, by decide +kernel, by decide +kernel⟩

theorem witness_TasksStartOnTheUnitsTheyAreGiven_5 : ∃ (ch : Fin 64) (seq : W32) (l : Letter) (p : PlanSt) (s : State),
    letterOf s ch seq.toNat = some l ∧ planOf s l = some p ∧ l.op = 0x04 ∧ planStrict p.words = true ∧ s.sched.active ≠ [] ∧
    l.phase = .accepted ∧ l.run = none ∧ cyclePos s = anchorPos p.words s.sched.active ∧ l.acceptPm + 250 ≤ now s ∧ slotBusy s
    l = false ∧ mayStart s l = true ∧ linkBlocks s l.pid p.words = false ∧ containerCrc p.words = p.crc ∧ 0 < operatorCount
    p.words ∧ pastDeadline s l = false :=
  ⟨3, 60, strictLetter .accepted none, strictPlan, strictRun 1001150 (strictLetter .accepted none) [] [], by decide +kernel,
    rfl, by decide +kernel, by decide +kernel, by decide +kernel, by decide +kernel, by decide +kernel, by decide +kernel,
    by decide +kernel, by decide +kernel, by decide +kernel, by decide +kernel, strictPlan_crc, by decide +kernel,
    by decide +kernel⟩

/-! ### OverrunsAndTimeoutsCutTasksShort -/

theorem witness_OverrunsAndTimeoutsCutTasksShort_1 : ∃ (k : Nat) (x : Task) (s : State), taskOf s k = some x ∧ x.disp.isSome =
    true ∧ x.budgetEnd < now s :=
  ⟨7, { oneTask 0x020 .joiner [2] false with budgetEnd := 1000006 }, running
    { oneTask 0x020 .joiner [2] false with budgetEnd := 1000006 } [] [], by decide +kernel⟩

theorem witness_OverrunsAndTimeoutsCutTasksShort_2 : ∃ (k : Nat) (x : Task) (s : State), taskOf s k = some x ∧ x.disp = none ∧
    x.strict = false ∧ x.epochSel = none ∧ x.enter + fget s (Fd.sched_WAIT_LIMIT_PT x.pid) < now s ∧ x.pid < 16 ∧ x.level < 16
    :=
  ⟨7, waitingTask 0x020 .joiner false, running (waitingTask 0x020 .joiner false) [] [(Fd.sched_WAIT_LIMIT_PT 0, 6)],
    by decide +kernel⟩

theorem witness_OverrunsAndTimeoutsCutTasksShort_3 : ∃ (k : Nat) (x : Task) (s : State), taskOf s k = some x ∧ x.budgetEnd =
    now s :=
  ⟨7, { oneTask 0x020 .joiner [2] false with budgetEnd := 1000007 }, running
    { oneTask 0x020 .joiner [2] false with budgetEnd := 1000007 } [] [], by decide +kernel⟩

/-! ### DataWindowsReadAndAdvance -/

theorem witness_DataWindowsReadAndAdvance_1 : ∃ (q : Requester) (s : State), writeReaches s q 0x058 0x044 = true :=
  ⟨host0, live, by decide +kernel⟩

theorem witness_DataWindowsReadAndAdvance_2 : ∃ (q : Requester) (s : State), writeReaches s q 0x058 0x044 = true ∧ fget s
    (Fd.hdr_LOCK 0x058) = 0 ∧ fget s Fd.sched_COMMIT = 0 :=
  ⟨host0, live, by decide +kernel⟩

theorem witness_DataWindowsReadAndAdvance_3 : ∃ (q : Requester) (s : State), writeReaches s q 0x058 0x044 = true ∧ fget s
    (Fd.hdr_LOCK 0x058) = 0 ∧ fget s Fd.sched_COMMIT = 1 :=
  ⟨host0, liveAt [(Fd.sched_COMMIT, 1)], by decide +kernel⟩

theorem witness_DataWindowsReadAndAdvance_4 : ∃ (q : Requester) (s : State), writeReaches s q 0x058 0x144 = true :=
  ⟨host0, live, by decide +kernel⟩

theorem witness_DataWindowsReadAndAdvance_5 : ∃ (q : Requester) (s : State), writeReaches s q 0x058 0x144 = true :=
  ⟨host0, live, by decide +kernel⟩

theorem witness_DataWindowsReadAndAdvance_6 : ∃ (s : State), s.time.running = true ∧ 25000 ≤ now s ∧ now s % 25000 = 0 :=
  ⟨atTick live 1000000, by decide +kernel⟩

theorem witness_DataWindowsReadAndAdvance_7 : ∃ (q : Requester) (s : State), writeReaches s q 0x000 0x048 = true :=
  ⟨host0, live, by decide +kernel⟩

theorem witness_DataWindowsReadAndAdvance_8 : ∃ (q : Requester) (u : Fin 9) (s : State), writeReaches s q (0x010 + u) 0x068 =
    true :=
  ⟨host0, 8, live, by decide +kernel⟩

theorem witness_DataWindowsReadAndAdvance_9 : ∃ (q : Requester) (f : FaultRec) (s : State), writeReaches s q 0x004 0x050 =
    true ∧ mapFind s.safety.log (fget s Fd.safety_FLOG_INDEX / 4) = some f :=
  ⟨host0, ⟨1, 1, 0, 0, 0, 0, 1000000, 0, 0⟩,
    { live with safety := { live.safety with log := [(0, ⟨1, 1, 0, 0, 0, 0, 1000000, 0, 0⟩)] } }, by decide +kernel⟩

theorem witness_DataWindowsReadAndAdvance_10 : ∃ (q : Requester) (s : State), writeReaches s q 0x006 0x070 = true :=
  ⟨host0, live, by decide +kernel⟩

theorem witness_DataWindowsReadAndAdvance_11 : ∃ (q : Requester) (n : Fin 2) (s : State), writeReaches s q (0x088 + n) 0x084 =
    true :=
  ⟨host0, 1, live, by decide +kernel⟩

/-! ### FramesAreReceivedIntoTheirSlots -/

theorem witness_FramesAreReceivedIntoTheirSlots_1 : ∃ (port : Fin 8) (phy : PhyIn) (vc : Fin 16) (f : Nat) (k : Nat) (s :
    State), Shaped s ∧ PortIdle s port ∧ phy.header = .good ∧ filtersOfVc s port vc = [f] ∧ s.boot.ready = true ∧ (filterAt s
    (filterNo port f)).cur = none ∧ chooseSlot s (filterNo port f) = some k :=
  ⟨7, goodPhy, 15, 3, 0, camera (idleFilter) [], shaped_of (by decide +kernel), ⟨by decide +kernel, by decide +kernel,
    by decide +kernel⟩, by decide +kernel, by decide +kernel, by decide +kernel, by decide +kernel, by decide +kernel⟩

theorem witness_FramesAreReceivedIntoTheirSlots_2 : ∃ (port : Fin 8) (phy : PhyIn) (vc : Fin 16) (f : Nat) (s : State), Shaped
    s ∧ PortIdle s port ∧ phy.header = .good ∧ filtersOfVc s port vc = [f] ∧ s.boot.ready = true ∧ (filterAt s (filterNo port
    f)).cur = none ∧ chooseSlot s (filterNo port f) = none :=
  ⟨7, goodPhy, 15, 3, camera (idleFilter) [(Fd.intake_BUF_SLOTS 7 3, 0)], shaped_of (by decide +kernel), ⟨by decide +kernel,
    by decide +kernel, by decide +kernel⟩, by decide +kernel, by decide +kernel, by decide +kernel, by decide +kernel,
    by decide +kernel⟩

theorem witness_FramesAreReceivedIntoTheirSlots_3 : ∃ (port : Fin 8) (phy : PhyIn) (vc : Fin 16) (f : Nat) (s : State), Shaped
    s ∧ PortIdle s port ∧ phy.header = .good ∧ filtersOfVc s port vc = [f] ∧ s.boot.ready = false :=
  ⟨7, goodPhy, 15, 3, { camera idleFilter [] with boot := { live.boot with ready := false } }, shaped_of (by decide +kernel),
    ⟨by decide +kernel, by decide +kernel, by decide +kernel⟩, by decide +kernel, by decide +kernel, by decide +kernel⟩

theorem witness_FramesAreReceivedIntoTheirSlots_4 : ∃ (port : Fin 8) (phy : PhyIn) (pk : LongPacket) (f : Nat) (c : FrameSt)
    (s : State), Shaped s ∧ Canonical s ∧ PortIdle s port ∧ phy.header = .good ∧ pk.crcOk = true ∧ pk.dt ≠ 0x12 ∧
    pk.payload.length ≤ 65536 ∧ packetFilters s port pk.vc pk.dt.toNat = [f] ∧ (filterAt s (filterNo port f)).arr = .frame ∧
    (filterAt s (filterNo port f)).cur = some c ∧ c.dead = false ∧ slotFree s (filterNo port f) c.slot = true ∧
    pk.payload.length = lineBytes s (filterNo port f) ∧ c.lines < fget s (Fd.intake_HEIGHT port f) ∧ rangePermitted s (fget s
    (Fd.intake_PID port f)) (slotBase s (filterNo port f) c.slot + c.lines * lineBytes s (filterNo port f)) pk.payload.length
    = true ∧ pooled s (fget s (Fd.intake_PID port f)) (slotBase s (filterNo port f) c.slot + c.lines * lineBytes s (filterNo
    port f)) = false :=
  ⟨7, goodPhy, ⟨15, 0x2A, true, List.replicate 4 5⟩, 3, midFrame 1, camera (onFrame (midFrame 1)) [], shaped_of
    (by decide +kernel), canonical_of (by decide +kernel), ⟨by decide +kernel, by decide +kernel, by decide +kernel⟩,
    by decide +kernel, by decide +kernel, by decide +kernel, by decide +kernel, by decide +kernel, by decide +kernel,
    by decide +kernel, by decide +kernel, by decide +kernel, by decide +kernel, by decide +kernel, by decide +kernel,
    by decide +kernel⟩

theorem witness_FramesAreReceivedIntoTheirSlots_5 : ∃ (port : Fin 8) (phy : PhyIn) (pk : LongPacket) (f : Nat) (c : FrameSt)
    (s : State), Shaped s ∧ PortIdle s port ∧ phy.header = .good ∧ pk.crcOk = true ∧ pk.dt ≠ 0x12 ∧ pk.payload.length ≤ 65536
    ∧ packetFilters s port pk.vc pk.dt.toNat = [f] ∧ (filterAt s (filterNo port f)).arr = .frame ∧ (filterAt s (filterNo port
    f)).cur = some c ∧ c.dead = false ∧ slotFree s (filterNo port f) c.slot = true ∧ (pk.payload.length ≠ lineBytes s
    (filterNo port f) ∨ fget s (Fd.intake_HEIGHT port f) ≤ c.lines) :=
  ⟨7, goodPhy, ⟨15, 0x2A, true, List.replicate 4 5⟩, 3, midFrame 2, camera (onFrame (midFrame 2)) [], shaped_of
    (by decide +kernel), ⟨by decide +kernel, by decide +kernel, by decide +kernel⟩, by decide +kernel, by decide +kernel,
    by decide +kernel, by decide +kernel, by decide +kernel, by decide +kernel, by decide +kernel, by decide +kernel,
    by decide +kernel, by decide +kernel⟩

theorem witness_FramesAreReceivedIntoTheirSlots_6 : ∃ (port : Fin 8) (phy : PhyIn) (pk : LongPacket) (f : Nat) (c : FrameSt)
    (s : State), Shaped s ∧ PortIdle s port ∧ phy.header = .good ∧ pk.crcOk = true ∧ pk.dt = 0x12 ∧ pk.payload.length ≤ 65536
    ∧ packetFilters s port pk.vc 0x12 = [f] ∧ (filterAt s (filterNo port f)).arr = .frame ∧ (filterAt s (filterNo port f)).cur
    = some c :=
  ⟨7, goodPhy, ⟨15, 0x12, true, List.replicate 16 5⟩, 3, midFrame 2, camera (onFrame (midFrame 2)) [], shaped_of
    (by decide +kernel), ⟨by decide +kernel, by decide +kernel, by decide +kernel⟩, by decide +kernel, by decide +kernel,
    by decide +kernel, by decide +kernel, by decide +kernel, by decide +kernel, by decide +kernel⟩

theorem witness_FramesAreReceivedIntoTheirSlots_7 : ∃ (port : Fin 8) (phy : PhyIn) (pk : LongPacket) (f : Nat) (s : State),
    Shaped s ∧ fget s (Fd.intake_ENABLE port) = 1 ∧ phy.header = .good ∧ pk.crcOk = true ∧ packetFilters s port pk.vc
    pk.dt.toNat = [f] ∧ (filterAt s (filterNo port f)).arr = .frame ∧ 65536 < fifoFill s port + pk.payload.length :=
  ⟨7, goodPhy, ⟨15, 0x2A, true, List.replicate 4 5⟩, 3,
    { camera (onFrame (midFrame 1)) [] with fifos := List.replicate 7 [] ++ [[bigLine]] }, shaped_of (by decide +kernel),
    by decide +kernel, by decide +kernel, by decide +kernel, by decide +kernel, by decide +kernel, bigLine_fills rfl _ rfl⟩

theorem witness_FramesAreReceivedIntoTheirSlots_8 : ∃ (port : Fin 8) (phy : PhyIn) (s : State), Shaped s ∧ PortIdle s port ∧
    phy.header = .bad :=
  ⟨7, ⟨.bad, false, none⟩, camera (onFrame (midFrame 1)) [], shaped_of (by decide +kernel), ⟨by decide +kernel,
    by decide +kernel, by decide +kernel⟩, by decide +kernel⟩

theorem witness_FramesAreReceivedIntoTheirSlots_9 : ∃ (port : Fin 8) (phy : PhyIn) (vc : Fin 16) (dt : BitVec 6) (s : State),
    fget s (Fd.intake_ENABLE port) = 1 ∧ phy.header = .good ∧ packetFilters s port vc dt.toNat = [] :=
  ⟨7, goodPhy, 14, 0x2A, camera (onFrame (midFrame 1)) [], by decide +kernel⟩

/-! ### FrameEndChecksInOrder -/

theorem witness_FrameEndChecksInOrder_1 : ∃ (port : Fin 8) (phy : PhyIn) (vc : Fin 16) (fnum : W16) (f : Nat) (c : FrameSt) (s
    : State), Shaped s ∧ PortIdle s port ∧ phy.header = .good ∧ filtersOfVc s port vc = [f] ∧ (filterAt s (filterNo port
    f)).arr = .frame ∧ (filterAt s (filterNo port f)).cur = some c ∧ c.dead = false ∧ slotFree s (filterNo port f) c.slot =
    true ∧ structOk s (filterNo port f) c fnum.toNat = false :=
  ⟨7, goodPhy, 15, 9, 3, midFrame 1, camera (onFrame (midFrame 1)) [], shaped_of (by decide +kernel), ⟨by decide +kernel,
    by decide +kernel, by decide +kernel⟩, by decide +kernel, by decide +kernel, by decide +kernel, by decide +kernel,
    by decide +kernel, by decide +kernel, by decide +kernel⟩

theorem witness_FrameEndChecksInOrder_2 : ∃ (port : Fin 8) (phy : PhyIn) (vc : Fin 16) (f : Nat) (s : State), Shaped s ∧ fget
    s (Fd.intake_ENABLE port) = 1 ∧ phy.header = .good ∧ filtersOfVc s port vc = [f] ∧ (filterAt s (filterNo port f)).arr =
    .idle :=
  ⟨7, goodPhy, 15, 3, camera (idleFilter) [], shaped_of (by decide +kernel), by decide +kernel, by decide +kernel,
    by decide +kernel, by decide +kernel⟩

theorem witness_FrameEndChecksInOrder_3 : ∃ (port : Fin 8) (phy : PhyIn) (vc : Fin 16) (fnum : W16) (f : Nat) (c : FrameSt) (s
    : State), Shaped s ∧ PortIdle s port ∧ phy.header = .good ∧ filtersOfVc s port vc = [f] ∧ (filterAt s (filterNo port
    f)).arr = .frame ∧ (filterAt s (filterNo port f)).cur = some c ∧ c.dead = false ∧ slotFree s (filterNo port f) c.slot =
    true ∧ structOk s (filterNo port f) c fnum.toNat = true ∧ fget s (Fd.intake_SENSOR_CHECK port f) = 1 ∧ tagOk c = false :=
  ⟨7, goodPhy, 15, 9, 3, midFrame 2, camera (onFrame (midFrame 2)) [(Fd.intake_SENSOR_CHECK 7 3, 1)], shaped_of
    (by decide +kernel), ⟨by decide +kernel, by decide +kernel, by decide +kernel⟩, by decide +kernel, by decide +kernel,
    by decide +kernel, by decide +kernel, by decide +kernel, by decide +kernel, by decide +kernel, by decide +kernel,
    by decide +kernel⟩

theorem witness_FrameEndChecksInOrder_4 : ∃ (port : Fin 8) (phy : PhyIn) (vc : Fin 16) (fnum : W16) (f : Nat) (c : FrameSt) (s
    : State), Shaped s ∧ PortIdle s port ∧ phy.header = .good ∧ filtersOfVc s port vc = [f] ∧ (filterAt s (filterNo port
    f)).arr = .frame ∧ (filterAt s (filterNo port f)).cur = some c ∧ c.dead = false ∧ slotFree s (filterNo port f) c.slot =
    true ∧ structOk s (filterNo port f) c fnum.toNat = true ∧ fget s (Fd.intake_SENSOR_CHECK port f) = 1 ∧ tagOk c = true ∧
    countStep (filterAt s (filterNo port f)).ref (leAt c.tag 2 4) = 0 :=
  ⟨7, goodPhy, 15, 9, 3, tagged 8 0, camera ({ onFrame (tagged 8 0) with ref := some 8 }) [(Fd.intake_SENSOR_CHECK 7 3, 1)],
    shaped_of (by decide +kernel), ⟨by decide +kernel, by decide +kernel, by decide +kernel⟩, by decide +kernel,
    by decide +kernel, by decide +kernel, by decide +kernel, by decide +kernel, by decide +kernel, by decide +kernel,
    by decide +kernel, by decide +kernel, by decide +kernel⟩

theorem witness_FrameEndChecksInOrder_5 : ∃ (port : Fin 8) (phy : PhyIn) (vc : Fin 16) (fnum : W16) (f : Nat) (c : FrameSt) (s
    : State), Shaped s ∧ Canonical s ∧ PortIdle s port ∧ phy.header = .good ∧ filtersOfVc s port vc = [f] ∧ (filterAt s
    (filterNo port f)).arr = .frame ∧ (filterAt s (filterNo port f)).cur = some c ∧ c.dead = false ∧ slotFree s (filterNo port
    f) c.slot = true ∧ structOk s (filterNo port f) c fnum.toNat = true ∧ fget s (Fd.intake_SENSOR_CHECK port f) = 1 ∧ tagOk c
    = true ∧ countStep (filterAt s (filterNo port f)).ref (leAt c.tag 2 4) = 1 ∧ leAt c.tag 6 4 = c.crc ^^^ 0xFFFFFFFF ∧
    frozenBad s (filterNo port f) (frozenNow (filterAt s (filterNo port f)) (leAt c.tag 6 4)) = false ∧ rangePermitted s (fget
    s (Fd.intake_PID port f)) (slotBase s (filterNo port f) c.slot + slotSize s (filterNo port f) - 4096) 4096 = true ∧ pooled
    s (fget s (Fd.intake_PID port f)) (slotBase s (filterNo port f) c.slot + slotSize s (filterNo port f) - 4096) = false :=
  ⟨7, goodPhy, 15, 9, 3, tagged 8 0, camera ({ onFrame (tagged 8 0) with ref := some 7 }) [(Fd.intake_SENSOR_CHECK 7 3, 1)],
    shaped_of (by decide +kernel), canonical_of (by decide +kernel), ⟨by decide +kernel, by decide +kernel,
    by decide +kernel⟩, by decide +kernel, by decide +kernel, by decide +kernel, by decide +kernel, by decide +kernel,
    by decide +kernel, by decide +kernel, by decide +kernel, by decide +kernel, by decide +kernel, by decide +kernel,
    by decide +kernel, by decide +kernel, by decide +kernel⟩

theorem witness_FrameEndChecksInOrder_6 : ∃ (port : Fin 8) (phy : PhyIn) (vc : Fin 16) (fnum : W16) (f : Nat) (c : FrameSt) (s
    : State), Shaped s ∧ PortIdle s port ∧ phy.header = .good ∧ filtersOfVc s port vc = [f] ∧ (filterAt s (filterNo port
    f)).arr = .frame ∧ (filterAt s (filterNo port f)).cur = some c ∧ c.dead = false ∧ slotFree s (filterNo port f) c.slot =
    true ∧ structOk s (filterNo port f) c fnum.toNat = true ∧ fget s (Fd.intake_SENSOR_CHECK port f) = 1 ∧ tagOk c = true ∧
    countStep (filterAt s (filterNo port f)).ref (leAt c.tag 2 4) = 1 ∧ leAt c.tag 6 4 ≠ c.crc ^^^ 0xFFFFFFFF :=
  ⟨7, goodPhy, 15, 9, 3, tagged 8 1, camera ({ onFrame (tagged 8 1) with ref := some 7 }) [(Fd.intake_SENSOR_CHECK 7 3, 1)],
    shaped_of (by decide +kernel), ⟨by decide +kernel, by decide +kernel, by decide +kernel⟩, by decide +kernel,
    by decide +kernel, by decide +kernel, by decide +kernel, by decide +kernel, by decide +kernel, by decide +kernel,
    by decide +kernel, by decide +kernel, by decide +kernel, by decide +kernel⟩

/-! ### FramesArePublishedWithTheirPostcards -/

theorem witness_FramesArePublishedWithTheirPostcards_1 : ∃ (port : Fin 8) (f : Fin 4) (slot : Nat) (c : FrameSt) (s : State),
    Shaped s ∧ Canonical s ∧ fifoAt s port = [] ∧ (filterAt s (filterNo port f)).due = some c ∧ c.slot = slot ∧ slot < 8 ∧
    (filterAt s (filterNo port f)).order.length = 8 ∧ slotFree s (filterNo port f) slot = true ∧ rangePermitted s (fget s
    (Fd.intake_PID port f)) (slotBase s (filterNo port f) slot + slotSize s (filterNo port f) - 4096 + 0x40) 256 = true ∧
    pooled s (fget s (Fd.intake_PID port f)) (slotBase s (filterNo port f) slot + slotSize s (filterNo port f) - 4096 + 0x40)
    = false :=
  ⟨7, 3, 1, midFrame 2, camera ({ idleFilter with due := some (midFrame 2) }) [], shaped_of (by decide +kernel), canonical_of
    (by decide +kernel), by decide +kernel, by decide +kernel, by decide +kernel, by decide +kernel, by decide +kernel,
    by decide +kernel, by decide +kernel, by decide +kernel⟩

theorem witness_FramesArePublishedWithTheirPostcards_2 : ∃ (q : Requester) (port : Fin 8) (f : Fin 4) (v : W32) (be : BitVec
    4) (s : State), Shaped s ∧ writeReaches s q (0x070 + port) (0x080 + 0x40 * f) = true ∧ fget s (Fd.hdr_LOCK (0x070 + port))
    = 0 ∧ be = 1 ∧ fget s (Fd.intake_F_ENABLE port f) = 1 ∧ v.toNat % 256 = regGet s (0x070 + port) (0x080 + 0x40 * f) % 256 -
    1 :=
  ⟨host0, 7, 3, BitVec.ofNat 32 (regGet (camera (idleFilter) []) 0x077 0x140 % 256 - 1), 1, camera (idleFilter) [], shaped_of
    (by decide +kernel), by decide +kernel, by decide +kernel, by decide +kernel, by decide +kernel, by decide +kernel⟩

theorem witness_FramesArePublishedWithTheirPostcards_3 : ∃ (q : Requester) (port : Fin 8) (f : Fin 4) (v : W32) (be : BitVec
    4) (s : State), Shaped s ∧ writeReaches s q (0x070 + port) (0x080 + 0x40 * f) = true ∧ fget s (Fd.hdr_LOCK (0x070 + port))
    = 0 ∧ be = 1 ∧ fget s (Fd.intake_F_ENABLE port f) = 0 ∧ v.toNat % 256 = regGet s (0x070 + port) (0x080 + 0x40 * f) % 256 +
    1 ∧ enableOk s port f = true :=
  ⟨host0, 7, 3, BitVec.ofNat 32 (regGet (camera (idleFilter) [(Fd.intake_F_ENABLE 7 3, 0)]) 0x077 0x140 % 256 + 1), 1, camera
    (idleFilter) [(Fd.intake_F_ENABLE 7 3, 0)], shaped_of (by decide +kernel), by decide +kernel, by decide +kernel,
    by decide +kernel, by decide +kernel, by decide +kernel, by decide +kernel⟩

theorem witness_FramesArePublishedWithTheirPostcards_4 : ∃ (q : Requester) (port : Fin 8) (f : Fin 4) (v : W32) (be : BitVec
    4) (s : State), writeReaches s q (0x070 + port) (0x080 + 0x40 * f) = true ∧ fget s (Fd.hdr_LOCK (0x070 + port)) = 0 ∧ be =
    1 ∧ fget s (Fd.intake_F_ENABLE port f) = 0 ∧ v.toNat % 256 = regGet s (0x070 + port) (0x080 + 0x40 * f) % 256 + 1 ∧
    enableOk s port f = false :=
  ⟨host0, 7, 3, BitVec.ofNat 32 (regGet (camera (idleFilter) [(Fd.intake_F_ENABLE 7 3, 0), (Fd.intake_STREAM 7 3, 0)]) 0x077
    0x140 % 256 + 1), 1, camera (idleFilter) [(Fd.intake_F_ENABLE 7 3, 0), (Fd.intake_STREAM 7 3, 0)], by decide +kernel⟩

/-! ### TheLatticeEnablesAndTakesBuilds -/

theorem witness_TheLatticeEnablesAndTakesBuilds_1 : ∃ (q : Requester) (v : W32) (be : BitVec 4) (s : State), writeReaches s q
    0x090 0x040 = true ∧ fget s (Fd.hdr_LOCK 0x090) = 0 ∧ be = 1 ∧ fget s Fd.lattice_LAT_EN = 0 ∧ v.toNat % 256 = regGet s
    0x090 0x040 % 256 + 1 ∧ latticeOk s = true :=
  ⟨host0, BitVec.ofNat 32 (regGet (latticed [(Fd.lattice_LAT_EN, 0)]) 0x090 0x040 % 256 + 1), 1, latticed [(Fd.lattice_LAT_EN,
    0)], by decide +kernel⟩

theorem witness_TheLatticeEnablesAndTakesBuilds_2 : ∃ (q : Requester) (v : W32) (be : BitVec 4) (s : State), writeReaches s q
    0x090 0x040 = true ∧ fget s (Fd.hdr_LOCK 0x090) = 0 ∧ be = 1 ∧ fget s Fd.lattice_LAT_EN = 0 ∧ v.toNat % 256 = regGet s
    0x090 0x040 % 256 + 1 ∧ latticeOk s = false :=
  ⟨host0, BitVec.ofNat 32 (regGet (latticed [(Fd.lattice_LAT_EN, 0), (Fd.lattice_STREAM, 0)]) 0x090 0x040 % 256 + 1), 1,
    latticed [(Fd.lattice_LAT_EN, 0), (Fd.lattice_STREAM, 0)], by decide +kernel⟩

theorem witness_TheLatticeEnablesAndTakesBuilds_3 : ∃ (q : Requester) (v : W32) (be : BitVec 4) (ch : Nat) (seq : Nat) (l :
    Letter) (s : State), writeReaches s q 0x090 0x040 = true ∧ fget s (Fd.hdr_LOCK 0x090) = 0 ∧ be = 1 ∧ fget s
    Fd.lattice_LAT_EN = 1 ∧ v.toNat % 256 = regGet s 0x090 0x040 % 256 - 1 ∧ s.lattice.active.toList ++ s.lattice.queue =
    [.letter ch seq] ∧ letterOf s ch seq = some l ∧ l.phase ≠ .finished :=
  ⟨host0, BitVec.ofNat 32 (regGet (latticed []) 0x090 0x040 % 256 - 1), 1, 3, 60, anUpdate .accepted 0x5A435755,
    { latticed [] with letters := [anUpdate .accepted 0x5A435755], lattice := ⟨[.letter 3 60], none, 0, none⟩ },
    by decide +kernel⟩

theorem witness_TheLatticeEnablesAndTakesBuilds_4 : ∃ (k : Nat) (x : Task) (s : State), taskOf s k = some x ∧ x.disp.isSome =
    true ∧ x.computed = false ∧ x.code = 0x061 ∧ k < s.sched.nextId ∧ fget s Fd.lattice_LAT_EN = 0 :=
  ⟨7, oneTask 0x061 .joiner [2] false, running (oneTask 0x061 .joiner [2] false) [] [], by decide +kernel⟩

theorem witness_TheLatticeEnablesAndTakesBuilds_5 : ∃ (k : Nat) (x : Task) (s : State), taskOf s k = some x ∧ x.disp.isSome =
    true ∧ x.computed = false ∧ x.code = 0x061 ∧ fget s Fd.lattice_LAT_EN = 1 :=
  ⟨7, oneTask 0x061 .joiner [2] false, running (oneTask 0x061 .joiner [2] false) [] [(Fd.lattice_LAT_EN, 1)],
    by decide +kernel⟩

theorem witness_TheLatticeEnablesAndTakesBuilds_6 : ∃ (ch : Nat) (seq : Nat) (rest : List BuildSrc) (l : Letter) (s : State),
    fget s Fd.lattice_LAT_EN = 1 ∧ s.lattice.active = none ∧ backHeld s = false ∧ s.lattice.queue = .letter ch seq :: rest ∧
    letterOf s ch seq = some l ∧ l.phase = .accepted ∧ updateFault s l = none :=
  ⟨3, 60, [], anUpdate .accepted 0x5A435755,
    { latticed [] with letters := [anUpdate .accepted 0x5A435755], lattice := ⟨[.letter 3 60], none, 0, none⟩ },
    by decide +kernel⟩

theorem witness_TheLatticeEnablesAndTakesBuilds_7 : ∃ (ch : Nat) (seq : Nat) (o : Nat) (rest : List BuildSrc) (l : Letter) (s
    : State), fget s Fd.lattice_LAT_EN = 1 ∧ s.lattice.active = none ∧ backHeld s = false ∧ s.lattice.queue = .letter ch seq
    :: rest ∧ letterOf s ch seq = some l ∧ l.phase = .accepted ∧ updateFault s l = some o :=
  ⟨3, 60, 0, [], anUpdate .accepted 0x5A435754,
    { latticed [] with letters := [anUpdate .accepted 0x5A435754], lattice := ⟨[.letter 3 60], none, 0, none⟩ },
    by decide +kernel⟩

theorem witness_TheLatticeEnablesAndTakesBuilds_8 : ∃ (k : Nat) (rest : List BuildSrc) (x : Task) (s : State), fget s
    Fd.lattice_LAT_EN = 1 ∧ s.lattice.active = none ∧ backHeld s = false ∧ s.lattice.queue = .task k :: rest ∧ taskOf s k =
    some x :=
  ⟨7, [], oneTask 0x061 .joiner [2] false,
    { running (oneTask 0x061 .joiner [2] false) [] [(Fd.lattice_LAT_EN, 1)] with lattice := ⟨[.task 7], none, 0, none⟩ },
    by decide +kernel⟩

/-! ### EpochsArePublishedWhole -/

theorem witness_EpochsArePublishedWhole_1 : ∃ (ch : Nat) (seq : Nat) (l : Letter) (s : State), Canonical s ∧ s.lattice.active
    = some (.letter ch seq) ∧ letterOf s ch seq = some l ∧ l.phase = .started ∧ MirrorDirect s ch seq ∧ (mirrorAddr s ch seq +
    128 ≤ bufAddr s (backBuf s) ∨ bufAddr s (backBuf s) + 0x481000 ≤ mirrorAddr s ch seq) :=
  ⟨3, 60, anUpdate .started 0x5A435755,
    { latticed [] with letters := [anUpdate .started 0x5A435755], lattice := ⟨[], some (.letter 3 60), 0, none⟩ },
    canonical_of (by decide +kernel), by decide +kernel, by decide +kernel, by decide +kernel, by decide +kernel,
    by decide +kernel⟩

theorem witness_EpochsArePublishedWhole_2 : ∃ (ch : Nat) (seq : Nat) (l : Letter) (s : State), s.lattice.active = some
    (.letter ch seq) ∧ letterOf s ch seq = some l ∧ l.phase = .started ∧ partsArg l = 3 ∧ fget s Fd.safety_SAFE_STATE = 0 ∧
    tooOld s (updateSource l) (ageLimit s l.pid 0) = false ∧ fget s Fd.lattice_NEWEST_EPOCH < 2 ^ 16 :=
  ⟨3, 60, inFlight 0x07 .started (leBytes 1 3),
    { latticed [] with letters := [inFlight 0x07 .started (leBytes 1 3)], lattice := ⟨[], some (.letter 3 60), 0, none⟩ },
    by decide +kernel⟩

theorem witness_EpochsArePublishedWhole_3 : ∃ (k : Nat) (x : Task) (s : State), Canonical s ∧ s.lattice.active = some (.task
    k) ∧ taskOf s k = some x ∧ k < s.sched.nextId ∧ MirrorDirect s x.ch x.seq :=
  ⟨7, oneTask 0x061 .joiner [2] true,
    { running (oneTask 0x061 .joiner [2] true) [] [(Fd.daybook_DB_MIRROR_BASE_HI, 1)] with lattice := ⟨[], some (.task 7), 0, none⟩ },
    canonical_of (by decide +kernel), by decide +kernel, by decide +kernel, by decide +kernel, by decide +kernel⟩

/-! ### SweepsFormTheirRecordsAndEnd -/

theorem witness_SweepsFormTheirRecordsAndEnd_1 : ∃ (k : Nat) (x : Task) (p : PlanSt) (o : OpDesc) (s : State), RunsOperator s
    k 0x060 x p o :=
  ⟨7, oneTask 0x060 .scribe [2] false, onePlan 0x060 [], oneOp 0x060 [], running (oneTask 0x060 .scribe [2] false) [] [],
    by unfold RunsOperator; decide +kernel⟩

theorem witness_SweepsFormTheirRecordsAndEnd_2 : ∃ (k : Nat) (x : Task) (l : Letter) (u : Nat) (s : State), taskOf s k = some
    x ∧ letterOf s x.ch x.seq = some l ∧ x.kind = .scribe ∧ x.disp.isSome = true ∧ ((x.computed = true ∨ l.op = 0x08)) ∧
    x.sclass = 0 ∧ x.units = [u] ∧ u < 18 ∧ k < s.sched.nextId ∧ dramReady s x = true :=
  ⟨7, { oneTask 0x060 .scribe [17] true with sclass := 0 }, inFlight 0x04 .started (leBytes 2 1), 17, running
    { oneTask 0x060 .scribe [17] true with sclass := 0 } [] [], by decide +kernel⟩

theorem witness_SweepsFormTheirRecordsAndEnd_3 : ∃ (k : Nat) (x : Task) (l : Letter) (u : Nat) (w : Nat) (s : State), taskOf s
    k = some x ∧ letterOf s x.ch x.seq = some l ∧ x.kind = .scribe ∧ x.disp.isSome = true ∧ ((x.computed = true ∨ l.op =
    0x08)) ∧ x.sclass ≠ 0 ∧ x.units = [u, w] ∧ u < 18 ∧ w < 18 ∧ u ≠ w ∧ k < s.sched.nextId ∧ dramReady s x = true :=
  ⟨7, oneTask 0x060 .scribe [0, 17] true, inFlight 0x04 .started (leBytes 2 1), 0, 17, running (oneTask 0x060 .scribe [0, 17]
    true) [] [], by decide +kernel⟩

theorem witness_SweepsFormTheirRecordsAndEnd_4 : ∃ (k : Nat) (sel : Nat) (x : Task) (l : Letter) (s : State), taskOf s k =
    some x ∧ x.epochSel = some sel ∧ letterOf s x.ch x.seq = some l ∧ fget s Fd.lattice_PUBLISHED = 1 ∧ later 16 sel (fget s
    Fd.lattice_NEWEST_EPOCH) = false :=
  ⟨7, 5, { oneTask 0x060 .scribe [] false with disp := none, epochSel := some 5, pid := 0, level := 15 }, inFlight 0x08
    .accepted [],
    { running { oneTask 0x060 .scribe [] false with disp := none, epochSel := some 5, pid := 0, level := 15 } [] [(Fd.lattice_PUBLISHED, 1), (Fd.lattice_NEWEST_EPOCH, 5)] with letters := [inFlight 0x08 .accepted []] },
    by decide +kernel⟩

theorem witness_SweepsFormTheirRecordsAndEnd_5 : ∃ (k : Nat) (sel : Nat) (x : Task) (l : Letter) (s : State), taskOf s k =
    some x ∧ x.epochSel = some sel ∧ letterOf s x.ch x.seq = some l ∧ l.phase ≠ .finished ∧ (fget s Fd.lattice_PUBLISHED = 0 ∨
    later 16 sel (fget s Fd.lattice_NEWEST_EPOCH) = true) ∧ pastDeadline s l = true :=
  ⟨7, 5, { oneTask 0x060 .scribe [] false with disp := none, epochSel := some 5, pid := 0, level := 15 },
    { inFlight 0x08 .accepted [] with l := { entry60 [] with deadline := 6 } },
    { running { oneTask 0x060 .scribe [] false with disp := none, epochSel := some 5, pid := 0, level := 15 } [] [(Fd.lattice_PUBLISHED, 1), (Fd.lattice_NEWEST_EPOCH, 4)] with letters := [{ inFlight 0x08 .accepted [] with l := { entry60 [] with deadline := 6 } }] },
    by decide +kernel⟩

theorem witness_SweepsFormTheirRecordsAndEnd_6 : ∃ (k : Nat) (sel : Nat) (x : Task) (l : Letter) (s : State), taskOf s k =
    some x ∧ x.epochSel = some sel ∧ letterOf s x.ch x.seq = some l ∧ l.phase ≠ .finished ∧ x.pid < 16 ∧ x.level < 16 ∧ (fget
    s Fd.lattice_PUBLISHED = 0 ∨ later 16 sel (fget s Fd.lattice_NEWEST_EPOCH) = true) ∧ l.l.deadline = 0 ∧ l.acceptPm + fget
    s (Fd.sched_WAIT_LIMIT_PT x.pid) < now s :=
  ⟨7, 5, { oneTask 0x060 .scribe [] false with disp := none, epochSel := some 5, pid := 0, level := 15 }, inFlight 0x08
    .accepted [],
    { running { oneTask 0x060 .scribe [] false with disp := none, epochSel := some 5, pid := 0, level := 15 } [] [(Fd.sched_WAIT_LIMIT_PT 0, 6)] with letters := [inFlight 0x08 .accepted []] },
    by decide +kernel⟩

/-! ### SorterTasksFormTheirRowsAndEnd -/

theorem witness_SorterTasksFormTheirRowsAndEnd_1 : ∃ (k : Nat) (x : Task) (p : PlanSt) (o : OpDesc) (s : State), RunsOperator
    s k 0x050 x p o :=
  ⟨7, oneTask 0x050 .sorter [2] false, onePlan 0x050 [], oneOp 0x050 [], running (oneTask 0x050 .sorter [2] false) [] [],
    by unfold RunsOperator; decide +kernel⟩

theorem witness_SorterTasksFormTheirRowsAndEnd_2 : ∃ (k : Nat) (x : Task) (p : PlanSt) (o : OpDesc) (s : State), RunsOperator
    s k 0x051 x p o :=
  ⟨7, oneTask 0x051 .sorter [2] false, onePlan 0x051 [], oneOp 0x051 [], running (oneTask 0x051 .sorter [2] false) [] [],
    by unfold RunsOperator; decide +kernel⟩

theorem witness_SorterTasksFormTheirRowsAndEnd_3 : ∃ (k : Nat) (x : Task) (p : PlanSt) (o : OpDesc) (s : State), RunsOperator
    s k 0x052 x p o :=
  ⟨7, oneTask 0x052 .sorter [2] false, onePlan 0x052 [], oneOp 0x052 [], running (oneTask 0x052 .sorter [2] false) [] [],
    by unfold RunsOperator; decide +kernel⟩

theorem witness_SorterTasksFormTheirRowsAndEnd_4 : ∃ (k : Nat) (x : Task) (l : Letter) (u : Nat) (s : State), taskOf s k =
    some x ∧ letterOf s x.ch x.seq = some l ∧ x.kind = .sorter ∧ x.disp.isSome = true ∧ ((x.computed = true ∨ l.op = 0x09)) ∧
    x.units = [u] ∧ u < 4 ∧ k < s.sched.nextId ∧ dramReady s x = true :=
  ⟨7, oneTask 0x050 .sorter [3] true, inFlight 0x04 .started (leBytes 2 1), 3, running (oneTask 0x050 .sorter [3] true) [] [],
    by decide +kernel⟩

/-! ### PlaneSolversSolveOrNameTheFault -/

theorem witness_PlaneSolversSolveOrNameTheFault_1 : ∃ (k : Nat) (x : Task) (p : PlanSt) (o : OpDesc) (s : State), RunsOperator
    s k 0x070 x p o ∧ problemFault (x.inData.getD 0 []) 0 (some (o.param 2, o.param 3)) = none :=
  ⟨7, planeTask 0x070 0 false, onePlan 0x070 [0, 0, 1, 0], oneOp 0x070 [0, 0, 1, 0], running (planeTask 0x070 0 false) [0, 0,
    1, 0] [], by unfold RunsOperator; decide +kernel, by decide +kernel⟩

theorem witness_PlaneSolversSolveOrNameTheFault_2 : ∃ (k : Nat) (x : Task) (p : PlanSt) (o : OpDesc) (s : State), RunsOperator
    s k 0x071 x p o ∧ problemFault (x.inData.getD 0 []) 1 (some (o.param 2, o.param 3)) = none :=
  ⟨7, planeTask 0x071 1 false, onePlan 0x071 [0, 0, 1, 0], oneOp 0x071 [0, 0, 1, 0], running (planeTask 0x071 1 false) [0, 0,
    1, 0] [], by unfold RunsOperator; decide +kernel, by decide +kernel⟩

theorem witness_PlaneSolversSolveOrNameTheFault_3 : ∃ (k : Nat) (x : Task) (p : PlanSt) (o : OpDesc) (s : State), RunsOperator
    s k 0x072 x p o ∧ problemFault (x.inData.getD 0 []) 2 (some (o.param 2, o.param 3)) = none :=
  ⟨7, planeTask 0x072 2 false, onePlan 0x072 [0, 0, 1, 0], oneOp 0x072 [0, 0, 1, 0], running (planeTask 0x072 2 false) [0, 0,
    1, 0] [], by unfold RunsOperator; decide +kernel, by decide +kernel⟩

theorem witness_PlaneSolversSolveOrNameTheFault_4 : ∃ (k : Nat) (f : Nat) (e : Instr × Nat) (x : Task) (p : PlanSt) (o :
    OpDesc) (s : State), e ∈ [(Instr.qpSolve k, 0x070), (Instr.cholesky k, 0x071), (Instr.cg k, 0x072)] ∧ RunsOperator s k e.2
    x p o ∧ problemFault (x.inData.getD 0 []) (e.2 - 0x070) (some (o.param 2, o.param 3)) = some f :=
  ⟨7, 4, (Instr.cg 7, 0x072), planeTask 0x072 1 false, onePlan 0x072 [0, 0, 1, 0], oneOp 0x072 [0, 0, 1, 0], running
    (planeTask 0x072 1 false) [0, 0, 1, 0] [], by decide +kernel, by unfold RunsOperator; decide +kernel, by decide +kernel⟩

theorem witness_PlaneSolversSolveOrNameTheFault_5 : ∃ (k : Nat) (x : Task) (l : Letter) (u : Nat) (s : State), taskOf s k =
    some x ∧ letterOf s x.ch x.seq = some l ∧ x.kind = .plane ∧ x.disp.isSome = true ∧ x.computed = true ∧ l.op ≠ 0x0A ∧
    x.units = [u] ∧ u < 2 ∧ k < s.sched.nextId ∧ dramReady s x = true :=
  ⟨7, planeTask 0x070 0 true, inFlight 0x04 .started (leBytes 2 1), 1, running (planeTask 0x070 0 true) [] [],
    by decide +kernel⟩

theorem witness_PlaneSolversSolveOrNameTheFault_6 : ∃ (k : Nat) (x : Task) (l : Letter) (u : Nat) (s : State), taskOf s k =
    some x ∧ letterOf s x.ch x.seq = some l ∧ x.kind = .plane ∧ x.disp.isSome = true ∧ l.op = 0x0A ∧ problemFault
    (x.inData.getD 0 []) (arg l.l 0x20 1) none = none ∧ x.units = [u] ∧ u < 2 ∧ k < s.sched.nextId ∧ dramReady s x = true :=
  ⟨7, planeTask 0x070 0 true, inFlight 0x0A .started (List.replicate 8 0), 1, runningOf 0x0A (planeTask 0x070 0 true)
    (List.replicate 8 0) [], by decide +kernel⟩

theorem witness_PlaneSolversSolveOrNameTheFault_7 : ∃ (k : Nat) (f : Nat) (x : Task) (l : Letter) (u : Nat) (s : State),
    taskOf s k = some x ∧ letterOf s x.ch x.seq = some l ∧ x.kind = .plane ∧ x.disp.isSome = true ∧ l.op = 0x0A ∧ l.phase ≠
    .finished ∧ problemFault (x.inData.getD 0 []) (arg l.l 0x20 1) none = some f ∧ x.units = [u] ∧ u < 2 ∧ dramReady s x =
    true :=
  ⟨7, 4, planeTask 0x070 1 true, inFlight 0x0A .started (List.replicate 8 0), 1, runningOf 0x0A (planeTask 0x070 1 true)
    (List.replicate 8 0) [], by decide +kernel⟩

/-! ### LettersAreReadAndAccepted -/

theorem witness_LettersAreReadAndAccepted_1 : ∃ (ch : Fin 64) (l : LetterIn) (data : List Byte) (e : LetterCmd) (s : State), e
    ∈ letterCmds ch l data ∧ e.fits l ∧ ch.val < s.chans.length ∧ ReadsNext s ch e.op l ∧ Admitted s ch e.op l e.data :=
  ⟨3, sealed 0x01 (entry60 []), [], ⟨.ping 3 (sealed 0x01 (entry60 [])), 0x01, [], none⟩, ringed [], by simp [letterCmds],
    fits_of rfl, by decide +kernel, readsNext_of (by decide +kernel), admitted_of (by decide +kernel)⟩

/-! ### LettersThatFailAStepAreAnswered -/

theorem witness_LettersThatFailAStepAreAnswered_1 : ∃ (ch : Fin 64) (l : LetterIn) (data : List Byte) (e : LetterCmd) (d :
    Nat) (s : State), e ∈ letterCmds ch l data ∧ e.fits l ∧ nextRead s = some ch.val ∧ (chanOf s ch).held = none ∧ frontFault
    ch e.op (fget s (Fd.chan_LRING_HEAD ch)) l = some d :=
  ⟨3, sealed 0x01 ({ entry60 [] with slot := 1 }), [], ⟨.ping 3 (sealed 0x01 ({ entry60 [] with slot := 1 })), 0x01, [],
    none⟩, 8, ringed [], by simp [letterCmds], fits_of rfl, by decide +kernel, by decide +kernel, (frontFault_sealed _ _ _
    _).trans (by decide +kernel)⟩

theorem witness_LettersThatFailAStepAreAnswered_2 : ∃ (ch : Fin 64) (l : LetterIn) (data : List Byte) (e : LetterCmd) (s :
    State), e ∈ letterCmds ch l data ∧ e.fits l ∧ ch.val < s.chans.length ∧ ReadsNext s ch e.op l ∧ creditedOp e.op = false ∧
    4 ≤ uncredited s ch :=
  ⟨3, sealed 0x01 (entry60 []), [], ⟨.ping 3 (sealed 0x01 (entry60 [])), 0x01, [], none⟩, holding ((List.range 4).map fun n =>
    { inFlight 0x01 .accepted [] with l := { entry60 [] with seq := BitVec.ofNat 32 n } }) [], by simp [letterCmds], fits_of
    rfl, by decide +kernel, readsNext_of (by decide +kernel), by decide +kernel, by decide +kernel⟩

theorem witness_LettersThatFailAStepAreAnswered_3 : ∃ (ch : Fin 64) (l : LetterIn) (data : List Byte) (e : LetterCmd) (s :
    State), e ∈ letterCmds ch l data ∧ e.fits l ∧ ReadsNext s ch e.op l ∧ (creditedOp e.op = true ∨ uncredited s ch < 4) ∧
    classify s ch l.seq.toNat = .inFlight :=
  ⟨3, sealed 0x01 (entry60 []), [], ⟨.ping 3 (sealed 0x01 (entry60 [])), 0x01, [], none⟩,
    { ringed [] with chans := List.replicate 3 ⟨none, [], none⟩ ++ [⟨some 60, [(60, .inFlight)], none⟩] ++ List.replicate 60 ⟨none, [], none⟩ },
    by simp [letterCmds], fits_of rfl, readsNext_of (by decide +kernel), by decide +kernel, by decide +kernel⟩

theorem witness_LettersThatFailAStepAreAnswered_4 : ∃ (ch : Fin 64) (l : LetterIn) (data : List Byte) (e : LetterCmd) (s :
    State), e ∈ letterCmds ch l data ∧ e.fits l ∧ ReadsNext s ch e.op l ∧ (creditedOp e.op = true ∨ uncredited s ch < 4) ∧
    classify s ch l.seq.toNat = .stale :=
  ⟨3, sealed 0x01 (entry60 []), [], ⟨.ping 3 (sealed 0x01 (entry60 [])), 0x01, [], none⟩,
    { ringed [] with chans := List.replicate 3 ⟨none, [], none⟩ ++ [⟨some (60 + 4096), [], none⟩] ++ List.replicate 60 ⟨none, [], none⟩ },
    by simp [letterCmds], fits_of rfl, readsNext_of (by decide +kernel), by decide +kernel, by decide +kernel⟩

theorem witness_LettersThatFailAStepAreAnswered_5 : ∃ (ch : Fin 64) (opcode : Byte) (l : LetterIn) (s : State), opDefined
    opcode.toNat = false ∧ ch.val < s.chans.length ∧ ReadsNext s ch opcode.toNat l ∧ classify s ch l.seq.toNat = .fresh ∧
    dbVolatile s = false :=
  ⟨3, 0x12, sealed 0x12 (entry60 []), ringed [], by decide +kernel, by decide +kernel, readsNext_of (by decide +kernel),
    by decide +kernel, by decide +kernel⟩

theorem witness_LettersThatFailAStepAreAnswered_6 : ∃ (ch : Fin 64) (l : LetterIn) (data : List Byte) (e : LetterCmd) (o :
    Nat) (s : State), e ∈ letterCmds ch l data ∧ e.fits l ∧ ch.val < s.chans.length ∧ ReadsNext s ch e.op l ∧ (creditedOp e.op
    = true ∨ uncredited s ch < 4) ∧ classify s ch l.seq.toNat = .fresh ∧ dbVolatile (judgeState s ch e.op l) = false ∧
    fieldFault (judgeState s ch e.op l) e.op ch (fget s (Fd.chan_PID ch)) l e.data = some o :=
  ⟨3, sealed 0x01 ({ entry60 [] with lflags := 4 }), [], ⟨.ping 3 (sealed 0x01 ({ entry60 [] with lflags := 4 })), 0x01, [],
    none⟩, 1, ringed [], by simp [letterCmds], fits_of rfl, by decide +kernel, readsNext_of (by decide +kernel),
    by decide +kernel, by decide +kernel, by decide +kernel, by decide +kernel⟩

theorem witness_LettersThatFailAStepAreAnswered_7 : ∃ (ch : Fin 64) (l : LetterIn) (data : List Byte) (e : LetterCmd) (s :
    State), e ∈ letterCmds ch l data ∧ e.fits l ∧ ch.val < s.chans.length ∧ ReadsNext s ch e.op l ∧ (creditedOp e.op = true ∨
    uncredited s ch < 4) ∧ classify s ch l.seq.toNat = .fresh ∧ dbVolatile (judgeState s ch e.op l) = false ∧ fieldFault
    (judgeState s ch e.op l) e.op ch (fget s (Fd.chan_PID ch)) l e.data = none ∧ forbidden (judgeState s ch e.op l) e.op (fget
    s (Fd.chan_PID ch)) l e.data = true :=
  ⟨3, sealed 0x01 (entry60 []), [], ⟨.ping 3 (sealed 0x01 (entry60 [])), 0x01, [], none⟩, ringed [(Fd.part_MAX_SCLASS 0, 0)],
    by simp [letterCmds], fits_of rfl, by decide +kernel, readsNext_of (by decide +kernel), by decide +kernel,
    by decide +kernel, by decide +kernel, by decide +kernel, by decide +kernel⟩

theorem witness_LettersThatFailAStepAreAnswered_8 : ∃ (ch : Fin 64) (l : LetterIn) (data : List Byte) (e : LetterCmd) (d :
    Nat) (s : State), e ∈ letterCmds ch l data ∧ e.fits l ∧ ReadsNext s ch e.op l ∧ (creditedOp e.op = true ∨ uncredited s ch
    < 4) ∧ classify s ch l.seq.toNat = .fresh ∧ fieldFault (judgeState s ch e.op l) e.op ch (fget s (Fd.chan_PID ch)) l e.data
    = none ∧ forbidden (judgeState s ch e.op l) e.op (fget s (Fd.chan_PID ch)) l e.data = false ∧ keyRefused (judgeState s ch
    e.op l) e.op l = false ∧ notReady (judgeState s ch e.op l) e.op (fget s (Fd.chan_PID ch)) l = some d :=
  ⟨3, sealed 0x01 (entry60 []), [], ⟨.ping 3 (sealed 0x01 (entry60 [])), 0x01, [], none⟩, 0, ringed [(Fd.part_REGIME 0, 0)],
    by simp [letterCmds], fits_of rfl, readsNext_of (by decide +kernel), by decide +kernel, by decide +kernel,
    by decide +kernel, by decide +kernel, by decide +kernel, by decide +kernel⟩

theorem witness_LettersThatFailAStepAreAnswered_9 : ∃ (ch : Fin 64) (l : LetterIn) (data : List Byte) (e : LetterCmd) (d :
    Nat) (s : State), e ∈ letterCmds ch l data ∧ e.fits l ∧ ReadsNext s ch e.op l ∧ creditedOp e.op = true ∧ classify s ch
    l.seq.toNat = .fresh ∧ fieldFault (judgeState s ch e.op l) e.op ch (fget s (Fd.chan_PID ch)) l e.data = none ∧ forbidden
    (judgeState s ch e.op l) e.op (fget s (Fd.chan_PID ch)) l e.data = false ∧ keyRefused (judgeState s ch e.op l) e.op l =
    false ∧ notReady (judgeState s ch e.op l) e.op (fget s (Fd.chan_PID ch)) l = none ∧ creditLack (judgeState s ch e.op l) ch
    (fget s (Fd.chan_PID ch)) [] = some d ∧ victims (judgeState s ch e.op l) e.op (fget s (Fd.chan_PID ch)) (bits
    l.stream.toNat 11 0) = [] :=
  ⟨3, sealed 0x10 (entry60 []), [], ⟨.fence 3 (sealed 0x10 (entry60 [])), 0x10, [], none⟩, 0, ringed [(Fd.chan_CREDIT 3, 0)],
    by simp [letterCmds], fits_of rfl, readsNext_of (by decide +kernel), by decide +kernel, by decide +kernel,
    by decide +kernel, by decide +kernel, by decide +kernel, by decide +kernel, by decide +kernel, by decide +kernel⟩

/-! ### StartedLettersDoTheirWork -/

theorem witness_StartedLettersDoTheirWork_1 : ∃ (ch : Fin 64) (seq : W32) (l : Letter) (s : State), CanStart s ch seq.toNat l
    ∧ l.op = 0x01 :=
  ⟨3, 60, inFlight 0x01 .accepted [], holding [inFlight 0x01 .accepted []] [], canStart_of (by decide +kernel),
    by decide +kernel⟩

theorem witness_StartedLettersDoTheirWork_2 : ∃ (ch : Fin 64) (seq : W32) (l : Letter) (w : Nat) (s : State), CanStart s ch
    seq.toNat l ∧ l.op = 0x02 ∧ planFault s l = some w :=
  ⟨3, 60, inFlight 0x02 .accepted [], 0, holding [inFlight 0x02 .accepted []] [], canStart_of (by decide +kernel),
    by decide +kernel, by decide +kernel⟩

theorem witness_StartedLettersDoTheirWork_3 : ∃ (ch : Fin 64) (seq : W32) (l : Letter) (s : State), CanStart s ch seq.toNat l
    ∧ l.op = 0x02 ∧ planFault s l = none ∧ slotWaits s l = false ∧ slotForeign s l.pid (slotArg l) = false ∧ slotArg l < 256 ∧
    (planStrict (wordsOf l.data) && planSafety (wordsOf l.data)) = false :=
  ⟨3, 60, goodLoad 1, holding [goodLoad 1] [], canStart_at rfl (by decide +kernel), by decide +kernel, goodLoad_passes rfl
    (by decide +kernel) (by decide +kernel), by decide +kernel, by decide +kernel, by decide +kernel, by decide +kernel⟩

theorem witness_StartedLettersDoTheirWork_4 : ∃ (ch : Fin 64) (seq : W32) (l : Letter) (s : State), CanStart s ch seq.toNat l
    ∧ l.op = 0x02 ∧ planFault s l = none ∧ slotWaits s l = true :=
  ⟨3, 60, younger (goodLoad 1), holding ([otherLetter 0x03 61 .started (leBytes 2 1)] ++ [younger (goodLoad 1)]) [],
    canStart_at rfl (by decide +kernel), by decide +kernel, goodLoad_passes rfl (by decide +kernel) (by decide +kernel),
    by decide +kernel⟩

theorem witness_StartedLettersDoTheirWork_5 : ∃ (ch : Fin 64) (seq : W32) (l : Letter) (s : State), CanStart s ch seq.toNat l
    ∧ l.op = 0x03 ∧ slotWaits s l = false :=
  ⟨3, 60, inFlight 0x03 .accepted (leBytes 2 1), holding [inFlight 0x03 .accepted (leBytes 2 1)] [], canStart_of
    (by decide +kernel), by decide +kernel, by decide +kernel⟩

theorem witness_StartedLettersDoTheirWork_6 : ∃ (ch : Fin 64) (seq : W32) (l : Letter) (p : PlanSt) (s : State), CanStart s ch
    seq.toNat l ∧ l.op = 0x04 ∧ planOf s l = some p ∧ planStrict p.words = false ∧ planSafety p.words = false ∧ slotBusy s l =
    false ∧ linkBlocks s l.pid p.words = false ∧ containerCrc p.words = p.crc :=
  ⟨3, 60, inFlight 0x04 .accepted (leBytes 2 1), crcPlan,
    { holding [inFlight 0x04 .accepted (leBytes 2 1)] [] with plans := [(1, crcPlan)] }, canStart_of (by decide +kernel),
    by decide +kernel, rfl, by decide +kernel, by decide +kernel, by decide +kernel, by decide +kernel, crcPlan_crc⟩

theorem witness_StartedLettersDoTheirWork_7 : ∃ (ch : Fin 64) (seq : W32) (l : Letter) (s : State), CanStart s ch seq.toNat l
    ∧ l.op = 0x05 ∧ Canonical s ∧ portFree s l.pid (transferAddr s l) = true ∧ crcWrong l = false ∧ l.data ≠ [] ∧
    rangePermitted s l.pid (transferAddr s l) l.data.length = true ∧ pooled s l.pid (transferAddr s l) = false ∧ MirrorDirect
    s ch seq.toNat ∧ (mirrorAddr s ch seq.toNat + 128 ≤ transferAddr s l ∨ transferAddr s l + l.data.length ≤ mirrorAddr s ch
    seq.toNat) :=
  ⟨3, 60, { inFlight 0x05 .accepted (leBytes 4 5) with data := [1, 2] },
    { holding [{ inFlight 0x05 .accepted (leBytes 4 5) with data := [1, 2] }] [(Fd.part_BEAM_BANKS 0, 1)] with parts := ⟨[⟨5, 4096, 0x1000⟩], [], none⟩ :: List.replicate 15 ⟨[], [], none⟩ },
    canStart_of (by decide +kernel), by decide +kernel, canonical_of (by decide +kernel), by decide +kernel,
    by decide +kernel, by decide +kernel, by decide +kernel, by decide +kernel, by decide +kernel, by decide +kernel⟩

theorem witness_StartedLettersDoTheirWork_8 : ∃ (ch : Fin 64) (seq : W32) (l : Letter) (s : State), CanStart s ch seq.toNat l
    ∧ l.op = 0x05 ∧ portFree s l.pid (transferAddr s l) = true ∧ crcWrong l = true :=
  ⟨3, 60, { inFlight 0x05 .accepted (leBytes 4 5) with data := [1, 2], l := { entry60 (leBytes 4 5) with lflags := 3 } },
    { holding [{ inFlight 0x05 .accepted (leBytes 4 5) with data := [1, 2], l := { entry60 (leBytes 4 5) with lflags := 3 } }] [(Fd.part_BEAM_BANKS 0, 1)] with parts := ⟨[⟨5, 4096, 0x1000⟩], [], none⟩ :: List.replicate 15 ⟨[], [], none⟩ },
    canStart_of (by decide +kernel), by decide +kernel, by decide +kernel, by decide +kernel⟩

theorem witness_StartedLettersDoTheirWork_9 : ∃ (ch : Fin 64) (seq : W32) (l : Letter) (s : State), CanStart s ch seq.toNat l
    ∧ l.op = 0x06 ∧ Canonical s ∧ portFree s l.pid (transferAddr s l) = true ∧ 0 < arg l.l 0x30 4 ∧ rangePermitted s l.pid
    (transferAddr s l) (arg l.l 0x30 4) = true ∧ pooled s l.pid (transferAddr s l) = false ∧ markedWords s (transferAddr s l)
    (arg l.l 0x30 4) = [] ∧ ((∀ d ∈ tensorDocket s (arg l.l 0x18 4), Docket.ok d = true)) :=
  ⟨3, 60, inFlight 0x06 .accepted (leBytes 4 5 ++ List.replicate 20 0 ++ leBytes 4 64),
    { holding [inFlight 0x06 .accepted (leBytes 4 5 ++ List.replicate 20 0 ++ leBytes 4 64)] [(Fd.part_BEAM_BANKS 0, 1)] with parts := ⟨[⟨5, 4096, 0x1000⟩], [], none⟩ :: List.replicate 15 ⟨[], [], none⟩ },
    canStart_of (by decide +kernel), by decide +kernel, canonical_of (by decide +kernel), by decide +kernel,
    by decide +kernel, by decide +kernel, by decide +kernel, by decide +kernel, by decide +kernel⟩

theorem witness_StartedLettersDoTheirWork_10 : ∃ (ch : Fin 64) (seq : W32) (l : Letter) (s : State), CanStart s ch seq.toNat l
    ∧ l.op = 0x07 ∧ fget s Fd.lattice_LAT_EN = 1 ∧ crcWrong l = false :=
  ⟨3, 60, inFlight 0x07 .accepted [], holding [inFlight 0x07 .accepted []] [(Fd.lattice_LAT_EN, 1)], canStart_of
    (by decide +kernel), by decide +kernel, by decide +kernel, by decide +kernel⟩

theorem witness_StartedLettersDoTheirWork_11 : ∃ (ch : Fin 64) (seq : W32) (l : Letter) (s : State), CanStart s ch seq.toNat l
    ∧ (l.op = 0x08 ∨ l.op = 0x09 ∨ l.op = 0x0A) :=
  ⟨3, 60, inFlight 0x08 .accepted [], holding [inFlight 0x08 .accepted []] [], canStart_of (by decide +kernel),
    by decide +kernel⟩

theorem witness_StartedLettersDoTheirWork_12 : ∃ (ch : Fin 64) (seq : W32) (l : Letter) (s : State), CanStart s ch seq.toNat l
    ∧ l.op = 0x0B ∧ arg l.l 0x18 1 < s.parts.length ∧ ((∀ e ∈ s.letters, e.op = 0x0B → e.phase ≠ .finished → l.ord ≤ e.ord))
    :=
  ⟨3, 60, inFlight 0x0B .accepted (leBytes 1 15), holding [inFlight 0x0B .accepted (leBytes 1 15)] [], canStart_of
    (by decide +kernel), by decide +kernel, by decide +kernel, by decide +kernel⟩

/-! ### ControlLettersActOrWait -/

theorem witness_ControlLettersActOrWait_1 : ∃ (ch : Fin 64) (seq : W32) (l : Letter) (s : State), CanStart s ch seq.toNat l ∧
    l.op = 0x0C :=
  ⟨3, 60, inFlight 0x0C .accepted [], holding [inFlight 0x0C .accepted []] [], canStart_of (by decide +kernel),
    by decide +kernel⟩

theorem witness_ControlLettersActOrWait_2 : ∃ (ch : Fin 64) (seq : W32) (l : Letter) (s : State), CanStart s ch seq.toNat l ∧
    l.op = 0x0D :=
  ⟨3, 60, inFlight 0x0D .accepted [], holding [inFlight 0x0D .accepted []] [], canStart_of (by decide +kernel),
    by decide +kernel⟩

theorem witness_ControlLettersActOrWait_3 : ∃ (ch : Fin 64) (seq : W32) (l : Letter) (s : State), CanStart s ch seq.toNat l ∧
    l.op = 0x0E ∧ fget s Fd.postmark_ALIGN_ACTIVE = 0 :=
  ⟨3, 60, inFlight 0x0E .accepted [], holding [inFlight 0x0E .accepted []] [], canStart_of (by decide +kernel),
    by decide +kernel, by decide +kernel⟩

theorem witness_ControlLettersActOrWait_4 : ∃ (ch : Fin 64) (seq : W32) (l : Letter) (s : State), CanStart s ch seq.toNat l ∧
    l.op = 0x0E ∧ fget s Fd.postmark_ALIGN_ACTIVE = 1 :=
  ⟨3, 60, inFlight 0x0E .accepted [], holding [inFlight 0x0E .accepted []] [(Fd.postmark_ALIGN_ACTIVE, 1)], canStart_of
    (by decide +kernel), by decide +kernel, by decide +kernel⟩

theorem witness_ControlLettersActOrWait_5 : ∃ (ch : Fin 64) (seq : W32) (l : Letter) (s : State), CanStart s ch seq.toNat l ∧
    l.op = 0x0F ∧ (arg l.l 0x18 1 = 0x01 ∨ arg l.l 0x18 1 = 0x02) :=
  ⟨3, 60, inFlight 0x0F .accepted [1], holding [inFlight 0x0F .accepted [1]] [], canStart_of (by decide +kernel),
    by decide +kernel, by decide +kernel⟩

theorem witness_ControlLettersActOrWait_6 : ∃ (ch : Fin 64) (seq : W32) (l : Letter) (s : State), CanStart s ch seq.toNat l ∧
    l.op = 0x0F ∧ arg l.l 0x18 1 = 0x03 :=
  ⟨3, 60, inFlight 0x0F .accepted [3], holding [inFlight 0x0F .accepted [3]] [], canStart_of (by decide +kernel),
    by decide +kernel, by decide +kernel⟩

theorem witness_ControlLettersActOrWait_7 : ∃ (ch : Fin 64) (seq : W32) (l : Letter) (s : State), CanStart s ch seq.toNat l ∧
    l.op = 0x0F ∧ arg l.l 0x18 1 = 0x05 :=
  ⟨3, 60, inFlight 0x0F .accepted [5], holding [inFlight 0x0F .accepted [5]] [], canStart_of (by decide +kernel),
    by decide +kernel, by decide +kernel⟩

theorem witness_ControlLettersActOrWait_8 : ∃ (ch : Fin 64) (seq : W32) (l : Letter) (s : State), CanStart s ch seq.toNat l ∧
    l.op = 0x10 ∧ fenceWaits s l = false :=
  ⟨3, 60, inFlight 0x10 .accepted [], holding [inFlight 0x10 .accepted []] [], canStart_of (by decide +kernel),
    by decide +kernel, by decide +kernel⟩

theorem witness_ControlLettersActOrWait_9 : ∃ (ch : Fin 64) (seq : W32) (l : Letter) (s : State), CanStart s ch seq.toNat l ∧
    l.op = 0x10 ∧ fenceWaits s l = true :=
  ⟨3, 60, younger (inFlight 0x10 .accepted [1]), holding ([otherLetter 0x01 61 .started []] ++ [younger (inFlight 0x10
    .accepted [1])]) [], canStart_of (by decide +kernel), by decide +kernel, by decide +kernel⟩

theorem witness_ControlLettersActOrWait_10 : ∃ (ch : Fin 64) (seq : W32) (l : Letter) (x : Letter) (s : State), CanStart s ch
    seq.toNat l ∧ l.op = 0x11 ∧ letterOf s (arg l.l 0x18 1) (arg l.l 0x1C 4) = some x ∧ x.phase = .accepted ∧ ¬ (arg l.l 0x18
    1 = ch.val ∧ arg l.l 0x1C 4 = seq.toNat) :=
  ⟨3, 60, younger (inFlight 0x11 .accepted ([4, 0, 0, 0] ++ leBytes 4 61)), otherLetter 0x01 61 .accepted [], holding
    ([otherLetter 0x01 61 .accepted []] ++ [younger (inFlight 0x11 .accepted ([4, 0, 0, 0] ++ leBytes 4 61))]) [], canStart_of
    (by decide +kernel), by decide +kernel, by decide +kernel, by decide +kernel, by decide +kernel⟩

theorem witness_ControlLettersActOrWait_11 : ∃ (ch : Fin 64) (seq : W32) (l : Letter) (x : Letter) (s : State), CanStart s ch
    seq.toNat l ∧ l.op = 0x11 ∧ letterOf s (arg l.l 0x18 1) (arg l.l 0x1C 4) = some x ∧ x.phase ≠ .accepted :=
  ⟨3, 60, younger (inFlight 0x11 .accepted ([4, 0, 0, 0] ++ leBytes 4 61)), otherLetter 0x01 61 .started [], holding
    ([otherLetter 0x01 61 .started []] ++ [younger (inFlight 0x11 .accepted ([4, 0, 0, 0] ++ leBytes 4 61))]) [], canStart_of
    (by decide +kernel), by decide +kernel, by decide +kernel, by decide +kernel⟩

/-! ### RepliesAreWrittenAndEndTheirLetters -/

theorem witness_RepliesAreWrittenAndEndTheirLetters_1 : ∃ (ch : Fin 64) (p : PendReply) (s : State), Canonical s ∧ nextReply s
    ch = some p ∧ s.boot.holdup = false ∧ hostGone s (fget s (Fd.chan_PID ch)) = false ∧ rringFull s ch = false :=
  ⟨3, ⟨3, 0x01, 60, 7, 1, Result.plain 0 0, false, true, false, false, false⟩,
    { ringed [] with replies := [⟨3, 0x01, 60, 7, 1, Result.plain 0 0, false, true, false, false, false⟩] }, canonical_of
    (by decide +kernel), by decide +kernel, by decide +kernel, by decide +kernel, by decide +kernel⟩

theorem witness_RepliesAreWrittenAndEndTheirLetters_2 : ∃ (ch : Fin 64) (p : PendReply) (s : State), nextReply s ch = some p ∧
    s.boot.holdup = false ∧ hostGone s (fget s (Fd.chan_PID ch)) = true :=
  ⟨3, ⟨3, 0x01, 60, 7, 1, Result.plain 0 0, false, true, false, false, false⟩,
    { ringed [] with replies := [⟨3, 0x01, 60, 7, 1, Result.plain 0 0, false, true, false, false, false⟩], pins := { live.pins with linkUp := false } },
    by decide +kernel⟩

theorem witness_RepliesAreWrittenAndEndTheirLetters_3 : ∃ (ch : Fin 64) (p : PendReply) (s : State), nextReply s ch = some p ∧
    s.boot.holdup = false ∧ rringFull s ch = true ∧ hostGone s (fget s (Fd.chan_PID ch)) = false :=
  ⟨3, ⟨3, 0x01, 60, 7, 1, Result.plain 0 0, false, true, false, false, false⟩,
    { ringed [(Fd.chan_RRING_SIZE 3, 0)] with replies := [⟨3, 0x01, 60, 7, 1, Result.plain 0 0, false, true, false, false, false⟩] },
    by decide +kernel⟩

/-! ### WaitingLettersEndWhenTheyMay -/

theorem witness_WaitingLettersEndWhenTheyMay_1 : ∃ (ch : Fin 64) (seq : W32) (l : Letter) (s : State), startedOf s ch
    seq.toNat 0x10 = some l ∧ fenceWaits s l = false ∧ dbVolatile s = false :=
  ⟨3, 60, inFlight 0x10 .started [], holding [inFlight 0x10 .started []] [], by decide +kernel⟩

theorem witness_WaitingLettersEndWhenTheyMay_2 : ∃ (ch : Fin 64) (seq : W32) (l : Letter) (s : State), startedOf s ch
    seq.toNat 0x03 = some l ∧ slotWaits s l = false ∧ dbVolatile s = false :=
  ⟨3, 60, inFlight 0x03 .started [], holding [inFlight 0x03 .started []] [], by decide +kernel⟩

theorem witness_WaitingLettersEndWhenTheyMay_3 : ∃ (ch : Fin 64) (seq : W32) (l : Letter) (s : State), startedOf s ch
    seq.toNat 0x02 = some l ∧ slotWaits s l = false ∧ slotForeign s l.pid (slotArg l) = false ∧ dbVolatile s = false ∧
    (planStrict (wordsOf l.data) && planSafety (wordsOf l.data)) = false :=
  ⟨3, 60, inFlight 0x02 .started [], holding [inFlight 0x02 .started []] [], by decide +kernel⟩

theorem witness_WaitingLettersEndWhenTheyMay_4 : ∃ (ch : Fin 64) (seq : W32) (l : Letter) (s : State), fget s
    Fd.postmark_ALIGN_ACTIVE = 0 ∧ (s.letters.filter fun x => x.op == 0x0E && x.phase == .started) = [l] ∧ letterOf s ch
    seq.toNat = some l ∧ l.ch = ch ∧ l.l.seq = seq ∧ dbVolatile s = false :=
  ⟨3, 60, inFlight 0x0E .started [], holding [inFlight 0x0E .started []] [], by decide +kernel⟩

theorem witness_WaitingLettersEndWhenTheyMay_5 : ∃ (p : Fin 16) (ch : Fin 64) (seq : Nat) (l : Letter) (s : State), Canonical
    s ∧ Shaped s ∧ (s.parts.getD p ⟨[], [], none⟩).pending = some (ch.val, seq) ∧ letterOf s ch seq = some l ∧ l.phase =
    .started ∧ mayInstall s p l = true ∧ partitionFault s l.ch l.l l.data = none ∧ dbVolatile s = false ∧ arg l.l 0x18 1 = p
    :=
  ⟨1, 3, 60, { inFlight 0x0B .started ([1, 0] ++ List.replicate 22 0 ++ leBytes 4 64) with data := offBlock },
    { holding [{ inFlight 0x0B .started ([1, 0] ++ List.replicate 22 0 ++ leBytes 4 64) with data := offBlock }] [] with parts := ⟨[], [], none⟩ :: ⟨[], [], some (3, 60)⟩ :: List.replicate 14 ⟨[], [], none⟩ },
    canonical_of (by decide +kernel), shaped_of (by decide +kernel), by decide +kernel, by decide +kernel, by decide +kernel,
    by decide +kernel, by decide +kernel, by decide +kernel, by decide +kernel⟩

theorem witness_WaitingLettersEndWhenTheyMay_6 : ∃ (p : Fin 16) (ch : Fin 64) (seq : Nat) (o : Nat) (l : Letter) (s : State),
    Shaped s ∧ (s.parts.getD p ⟨[], [], none⟩).pending = some (ch.val, seq) ∧ letterOf s ch seq = some l ∧ l.phase = .started
    ∧ mayInstall s p l = true ∧ partitionFault s l.ch l.l l.data = some o ∧ dbVolatile s = false :=
  ⟨1, 3, 60, 0x40000000,
    { inFlight 0x0B .started ([1, 0] ++ List.replicate 22 0 ++ leBytes 4 64) with data := List.replicate 64 0 },
    { holding [{ inFlight 0x0B .started ([1, 0] ++ List.replicate 22 0 ++ leBytes 4 64) with data := List.replicate 64 0 }] [] with parts := ⟨[], [], none⟩ :: ⟨[], [], some (3, 60)⟩ :: List.replicate 14 ⟨[], [], none⟩ },
    shaped_of (by decide +kernel), by decide +kernel, by decide +kernel, by decide +kernel, by decide +kernel,
    by decide +kernel, by decide +kernel⟩

theorem witness_WaitingLettersEndWhenTheyMay_7 : ∃ (p : Fin 16) (ch : Fin 64) (seq : Nat) (l : Letter) (s : State),
    (s.parts.getD p ⟨[], [], none⟩).pending = some (ch.val, seq) ∧ letterOf s ch seq = some l ∧ mayInstall s p l = false :=
  ⟨1, 3, 60, { inFlight 0x0B .started ([1, 0] ++ List.replicate 22 0 ++ leBytes 4 64) with data := offBlock },
    { holding [{ inFlight 0x0B .started ([1, 0] ++ List.replicate 22 0 ++ leBytes 4 64) with data := offBlock }, { otherLetter 0x01 61 .started [] with pid := 1 }] [] with parts := ⟨[], [], none⟩ :: ⟨[], [], some (3, 60)⟩ :: List.replicate 14 ⟨[], [], none⟩ },
    by decide +kernel⟩

/-! ### RegisterWritesFollowTheirKinds -/

theorem witness_RegisterWritesFollowTheirKinds_1 : ∃ (q : Requester) (off : BitVec 24) (v : W64) (page : Nat) (word : Nat) (r
    : RegRow × Nat × Nat) (s : State), off.toNat / 4 * 4 = page * 4096 + word ∧ word < 4096 ∧ plainWord page word = true ∧
    writeReaches s q page word = true ∧ r ∈ rowsAt page word ∧ r.1.kind = .control ∧ fget s (Fd.hdr_LOCK page) = 0 ∧
    r.1.allowed.ok (bits (lowWord v) r.1.hi r.1.lo) = true ∧ pageDeny s page r.1 r.2.2 (bits (lowWord v) r.1.hi r.1.lo) =
    false :=
  ⟨host0, BitVec.ofNat 24 (0x80000 + 0x044), 0x0500, 0x080, 0x044, ((rowsAt 0x080 0x044)[1]?).getD (⟨"", 0, 0, 0, 0, 0,
    .fixed, fun _ _ => 0, .any, false⟩, 0, 0), live, by decide +kernel, by decide +kernel, by decide +kernel,
    by decide +kernel, rowAt_mem (by decide), by decide +kernel, by decide +kernel, by decide +kernel, by decide +kernel⟩

theorem witness_RegisterWritesFollowTheirKinds_2 : ∃ (q : Requester) (off : BitVec 24) (v : W64) (page : Nat) (word : Nat) (r
    : RegRow × Nat × Nat) (s : State), off.toNat / 4 * 4 = page * 4096 + word ∧ word < 4096 ∧ plainWord page word = true ∧
    writeReaches s q page word = true ∧ r ∈ rowsAt page word ∧ r.1.kind = .control ∧ r.1.allowed.ok (bits (lowWord v) r.1.hi
    r.1.lo) = false :=
  ⟨host0, BitVec.ofNat 24 (0x80000 + 0x044), 0x0300, 0x080, 0x044, ((rowsAt 0x080 0x044)[1]?).getD (⟨"", 0, 0, 0, 0, 0,
    .fixed, fun _ _ => 0, .any, false⟩, 0, 0), live, by decide +kernel, by decide +kernel, by decide +kernel,
    by decide +kernel, rowAt_mem (by decide), by decide +kernel, by decide +kernel⟩

theorem witness_RegisterWritesFollowTheirKinds_3 : ∃ (q : Requester) (off : BitVec 24) (page : Nat) (word : Nat) (r : RegRow ×
    Nat × Nat) (s : State), off.toNat / 4 * 4 = page * 4096 + word ∧ word < 4096 ∧ plainWord page word = true ∧ writeReaches s
    q page word = true ∧ r ∈ rowsAt page word ∧ (r.1.kind = .status ∨ r.1.kind = .fixed) :=
  ⟨host0, BitVec.ofNat 24 (0x80000 + 0x048), 0x080, 0x048, ((rowsAt 0x080 0x048)[0]?).getD (⟨"", 0, 0, 0, 0, 0, .fixed, fun _
    _ => 0, .any, false⟩, 0, 0), live, by decide +kernel, by decide +kernel, by decide +kernel, by decide +kernel, rowAt_mem
    (by decide), by decide +kernel⟩

theorem witness_RegisterWritesFollowTheirKinds_4 : ∃ (q : Requester) (off : BitVec 24) (page : Nat) (word : Nat) (p : Nat) (s
    : State), off.toNat / 4 * 4 = page * 4096 + word ∧ word < 4096 ∧ plainWord page word = true ∧ pidOf s q = some p ∧
    regPermitted s p page word = false ∧ s.parity = [] :=
  ⟨.fn 1, 0x80044, 0x080, 0x044, 1, liveAt [(Fd.part_REGIME 1, 2), (Fd.part_VF_MASK 1, 1)], by decide +kernel⟩

theorem witness_RegisterWritesFollowTheirKinds_5 : ∃ (q : Requester) (ch : Fin 64) (v : W32) (s : State), writeReaches s q
    (chanPage ch) (chanOff ch 0x0C) = true ∧ cyc 16 (v.toNat % 2 ^ 16) (fget s (Fd.chan_LRING_HEAD ch)) ≤ fget s
    (Fd.chan_LRING_SIZE ch) :=
  ⟨host0, 63, 16, liveAt [(Fd.chan_LRING_SIZE 63, 16)], by decide +kernel⟩

theorem witness_RegisterWritesFollowTheirKinds_6 : ∃ (q : Requester) (ch : Fin 64) (v : W32) (s : State), writeReaches s q
    (chanPage ch) (chanOff ch 0x0C) = true ∧ fget s (Fd.chan_LRING_SIZE ch) < cyc 16 (v.toNat % 2 ^ 16) (fget s
    (Fd.chan_LRING_HEAD ch)) :=
  ⟨host0, 0, 17, liveAt [(Fd.chan_LRING_SIZE 0, 16)], by decide +kernel⟩

theorem witness_RegisterWritesFollowTheirKinds_7 : ∃ (q : Requester) (ch : Fin 64) (s : State), writeReaches s q (chanPage ch)
    (chanOff ch 0x28) = true ∧ fget s Fd.daybook_PAIR_ROLE ≠ 2 :=
  ⟨host0, 3, live, by decide +kernel⟩

theorem witness_RegisterWritesFollowTheirKinds_8 : ∃ (q : Requester) (ch : Fin 64) (v : W32) (s : State), writeReaches s q
    (chanPage ch) (chanOff ch 0x28) = true ∧ v.toNat % 2 ≠ fget s (Fd.chan_ENABLE ch) :=
  ⟨host0, 3, 1, live, by decide +kernel⟩

theorem witness_RegisterWritesFollowTheirKinds_9 : ∃ (q : Requester) (page : BitVec 12) (v : W32) (be : BitVec 4) (s : State),
    writeReaches s q page.toNat 0x010 = true ∧ v.toNat &&& beMask be &&& (0xFFFFFFFF ^^^ eventMask page.toNat) = 0 :=
  ⟨host0, 0x058, 0, 15, live, by decide +kernel⟩

theorem witness_RegisterWritesFollowTheirKinds_10 : ∃ (q : Requester) (page : BitVec 12) (v : W32) (be : BitVec 4) (s :
    State), writeReaches s q page.toNat 0x018 = true ∧ v.toNat &&& beMask be &&& (0xFFFFFFFF ^^^ eventMask page.toNat) = 0 :=
  ⟨host0, 0x058, 1, 15, live, by decide +kernel⟩

theorem witness_RegisterWritesFollowTheirKinds_11 : ∃ (q : Requester) (v : W32) (s : State), writeReaches s q 0x0A0 0x030 =
    true ∧ fget s (Fd.hdr_LOCK 0x0A0) = 0 ∧ v.toNat % 16 ≠ fget s (Fd.hdr_OWNER_PID 0x0A0) :=
  ⟨host0, 15, live, by decide +kernel⟩

theorem witness_RegisterWritesFollowTheirKinds_12 : ∃ (q : Requester) (w : Fin 16) (s : State), writeReaches s q 0x005 (0x080
    + 8 * w) = true ∧ fget s (Fd.hdr_LOCK 0x005) = 0 ∧ s.safety.watchLast.length = 16 :=
  ⟨host0, 15, live, by decide +kernel⟩

theorem witness_RegisterWritesFollowTheirKinds_13 : ∃ (q : Requester) (w : Fin 16) (v : W32) (s : State), writeReaches s q
    0x005 (0x084 + 8 * w) = true ∧ fget s (Fd.hdr_LOCK 0x005) = 0 ∧ s.safety.watchLast.length = 16 ∧ v.toNat < 2 ^ 25 ∧ (v = 0
    ∨ 250 ≤ v.toNat) :=
  ⟨host0, 15, 250, live, by decide +kernel⟩

theorem witness_RegisterWritesFollowTheirKinds_14 : ∃ (q : Requester) (f : Fin 16) (hi : Bool) (s : State), writeReaches s q
    0x008 (0x840 + 8 * f + if hi then 4 else 0) = true :=
  ⟨host0, 15, true, live, by decide +kernel⟩

theorem witness_RegisterWritesFollowTheirKinds_15 : ∃ (q : Requester) (v : W32) (s : State), writeReaches s q 0x006 0x044 =
    true ∧ s.boot.ready = false ∧ mirrorFits s (v.toNat / 2 ^ 12 * 2 ^ 12 + fget s Fd.daybook_DB_MIRROR_BASE_HI * 2 ^ 32) =
    true :=
  ⟨host0, 0,
    { liveAt [(Fd.daybook_DB_MIRROR_BASE_HI, 1), (Fd.region_OWNED 0, 1), (Fd.region_REGION_SIZE 0, 16)] with boot := { live.boot with ready := false } },
    by decide +kernel⟩

theorem witness_RegisterWritesFollowTheirKinds_16 : ∃ (q : Requester) (v : W32) (s : State), writeReaches s q 0x006 0x048 =
    true ∧ s.boot.ready = true ∧ v.toNat ≠ fget s Fd.daybook_DB_MIRROR_BASE_HI :=
  ⟨host0, 1, live, by decide +kernel⟩

end Sys2Proof.Tests
end

section
/-! SUPPORT. Every command, and with it every step, keeps the canonical form of the sparse data, the rest of the queue and
the fuses. -/

namespace Sys2Proof.Machine

/-! ### Every command -/

/-- The dispatch keeps what each command's own meaning keeps. -/
theorem exec_keeps {a s : State} (h : Keeps a s) (c : Instr) : KeepsOut a (exec c s) :=
  match c with
  | .ping .. => execPing_keeps h
  | .loadPlan .. => execLoadPlan_keeps h
  | .unloadPlan .. => execUnloadPlan_keeps h
  | .runPlan .. => execRunPlan_keeps h
  | .writeTensor .. => execWriteTensor_keeps h
  | .readTensor .. => execReadTensor_keeps h
  | .worldUpdate .. => execWorldUpdate_keeps h
  | .sweep .. => execSweep_keeps h
  | .select .. => execSelect_keeps h
  | .solve .. => execSolve_keeps h
  | .setPartition .. => execSetPartition_keeps h
  | .partitionInstall .. => execPartitionInstall_keeps h
  | .queryDaybook .. => execQueryDaybook_keeps h
  | .readLedger .. => execReadLedger_keeps h
  | .timeAlign .. => execTimeAlign_keeps h
  | .timeAlignDeferredWrite => execTimeAlignDeferredWrite_keeps h
  | .seal .. => execSeal_keeps h
  | .unseal .. => execUnseal_keeps h
  | .setKey .. => execSetKey_keeps h
  | .inject .. => execInject_keeps h
  | .enterSafeA .. => execEnterSafeA_keeps h
  | .leaveSafeA .. => execLeaveSafeA_keeps h
  | .rotate .. => execRotate_keeps h
  | .suspectClear .. => execSuspectClear_keeps h
  | .fence .. => execFence_keeps h
  | .fenceComplete .. => execFenceComplete_keeps h
  | .unloadComplete .. => execUnloadComplete_keeps h
  | .planReplace .. => execPlanReplace_keeps h
  | .cancel .. => execCancel_keeps h
  | .doorbellWrite .. => execDoorbellWrite_keeps h
  | .letterStart .. => execLetterStart_keeps h
  | .replyWrite .. => execReplyWrite_keeps h
  | .journalWrite .. => execJournalWrite_keeps h
  | .ledgerSlotWrite .. => execLedgerSlotWrite_keeps h
  | .ledgerPeriodicCommit => execLedgerPeriodicCommit_keeps h
  | .looseDispatch .. => execLooseDispatch_keeps h
  | .strictRunStart .. => execStrictRunStart_keeps h
  | .strictOperatorStart .. => execStrictOperatorStart_keeps h
  | .budgetOverrun .. => execBudgetOverrun_keeps h
  | .waitTimeout .. => execWaitTimeout_keeps h
  | .majorFrameStart => execMajorFrameStart_keeps h
  | .timetableSlotStart .. => execTimetableSlotStart_keeps h
  | .commitGo .. => execCommitGo_keeps h
  | .timetableActivate => execTimetableActivate_keeps h
  | .ttData .. => execTtData_keeps h
  | .obsData .. => execObsData_keeps h
  | .loadWindowEnd => execLoadWindowEnd_keeps h
  | .matmul .. => execMatmul_keeps h
  | .batchMatmul .. => execBatchMatmul_keeps h
  | .conv2d .. => execConv2d_keeps h
  | .dwconv2d .. => execDwconv2d_keeps h
  | .reshape .. => execReshape_keeps h
  | .transpose .. => execTranspose_keeps h
  | .slice .. => execSlice_keeps h
  | .concat .. => execConcat_keeps h
  | .pad .. => execPad_keeps h
  | .gather .. => execGather_keeps h
  | .unpackFrame .. => execUnpackFrame_keeps h
  | .add .. => execAdd_keeps h
  | .mul .. => execMul_keeps h
  | .convert .. => execConvert_keeps h
  | .clamp .. => execClamp_keeps h
  | .finish .. => execFinish_keeps h
  | .sum .. => execSum_keeps h
  | .maxMin .. => execMaxMin_keeps h
  | .mean .. => execMean_keeps h
  | .normalize .. => execNormalize_keeps h
  | .softmax .. => execSoftmax_keeps h
  | .topk .. => execTopk_keeps h
  | .sort .. => execSort_keeps h
  | .compact .. => execCompact_keeps h
  | .sweepOperator .. => execSweepOperator_keeps h
  | .worldBuild .. => execWorldBuild_keeps h
  | .qpSolve .. => execQpSolve_keeps h
  | .cholesky .. => execCholesky_keeps h
  | .cg .. => execCg_keeps h
  | .allreduce .. => execAllreduce_keeps h
  | .broadcast .. => execBroadcast_keeps h
  | .mergeTopk .. => execMergeTopk_keeps h
  | .barrier .. => execBarrier_keeps h
  | .randomUniform .. => execRandomUniform_keeps h
  | .randomNormal .. => execRandomNormal_keeps h
  | .joinerCall .. => execJoinerCall_keeps h
  | .macroOperationComplete .. => execMacroOperationComplete_keeps h
  | .sweepComplete .. => execSweepComplete_keeps h
  | .sweepEpochWaitEnd .. => execSweepEpochWaitEnd_keeps h
  | .sorterTaskComplete .. => execSorterTaskComplete_keeps h
  | .planeSolveComplete .. => execPlaneSolveComplete_keeps h
  | .ecall .. => execEcall_keeps h
  | .joinerTrap .. => execJoinerTrap_keeps h
  | .tqPush .. => execTqPush_keeps h
  | .tqPop .. => execTqPop_keeps h
  | .tqLen .. => execTqLen_keeps h
  | .dkRd .. => execDkRd_keeps h
  | .dkInv .. => execDkInv_keeps h
  | .tileTransferComplete .. => execTileTransferComplete_keeps h
  | .pairModeChange .. => execPairModeChange_keeps h
  | .buildStart => execBuildStart_keeps h
  | .epochPublish => execEpochPublish_keeps h
  | .latEnWrite .. => execLatEnWrite_keeps h
  | .frameStart .. => execFrameStart_keeps h
  | .longPacket .. => execLongPacket_keeps h
  | .unknownPacket .. => execUnknownPacket_keeps h
  | .frameEnd .. => execFrameEnd_keeps h
  | .framePublish .. => execFramePublish_keeps h
  | .fEnableWrite .. => execFEnableWrite_keeps h
  | .flitReceive .. => execFlitReceive_keeps h
  | .linkRewind .. => execLinkRewind_keeps h
  | .linkDown .. => execLinkDown_keeps h
  | .linkTraining .. => execLinkTraining_keeps h
  | .trainingComplete .. => execTrainingComplete_keeps h
  | .contrib .. => execContrib_keeps h
  | .vote .. => execVote_keeps h
  | .decide .. => execDecide_keeps h
  | .abortReq .. => execAbortReq_keeps h
  | .collectiveTimeout .. => execCollectiveTimeout_keeps h
  | .heartbeat .. => execHeartbeat_keeps h
  | .heartbeatSend => execHeartbeatSend_keeps h
  | .peerLost => execPeerLost_keeps h
  | .pairRoleWrite .. => execPairRoleWrite_keeps h
  | .peerMirrorEntry .. => execPeerMirrorEntry_keeps h
  | .peerCopyDone => execPeerCopyDone_keeps h
  | .desync .. => execDesync_keeps h
  | .resyncGo .. => execResyncGo_keeps h
  | .resync .. => execResync_keeps h
  | .resyncComplete .. => execResyncComplete_keeps h
  | .alignGo .. => execAlignGo_keeps h
  | .timeExchange .. => execTimeExchange_keeps h
  | .alignmentComplete => execAlignmentComplete_keeps h
  | .timeDriftCheck .. => execTimeDriftCheck_keeps h
  | .postmarkLoRead .. => execPostmarkLoRead_keeps h
  | .postmarkAdjWrite .. => execPostmarkAdjWrite_keeps h
  | .postmarkStep => execPostmarkStep_keeps h
  | .postmarkSlewHold => execPostmarkSlewHold_keeps h
  | .postmarkCounterStart => execPostmarkCounterStart_keeps h
  | .pmClkLoss => execPmClkLoss_keeps h
  | .fastDomainWake .. => execFastDomainWake_keeps h
  | .fastDomainStop .. => execFastDomainStop_keeps h
  | .stepReqWrite .. => execStepReqWrite_keeps h
  | .voltageSettleEnd .. => execVoltageSettleEnd_keeps h
  | .stepRelockDone => execStepRelockDone_keeps h
  | .thermalEmergencyExit => execThermalEmergencyExit_keeps h
  | .thermalSample .. => execThermalSample_keeps h
  | .clockMonitorWindow .. => execClockMonitorWindow_keeps h
  | .voltageWindowFault .. => execVoltageWindowFault_keeps h
  | .scrubCycle .. => execScrubCycle_keeps h
  | .refresh .. => execRefresh_keeps h
  | .refreshSlot .. => execRefreshSlot_keeps h
  | .refreshOverrun .. => execRefreshOverrun_keeps h
  | .corrRateWindowEnd => execCorrRateWindowEnd_keeps h
  | .bar2Read .. => execBar2Read_keeps h
  | .bar2Write .. => execBar2Write_keeps h
  | .faultReport .. => execFaultReport_keeps h
  | .pwrKill => execPwrKill_keeps h
  | .safeInNLow => execSafeInNLow_keeps h
  | .safeHbToggle .. => execSafeHbToggle_keeps h
  | .safetyFrameBuild .. => execSafetyFrameBuild_keeps h
  | .canFrameTransmit .. => execCanFrameTransmit_keeps h
  | .canFrameReceive .. => execCanFrameReceive_keeps h
  | .busOff .. => execBusOff_keeps h
  | .streamGap .. => execStreamGap_keeps h
  | .wdgKick .. => execWdgKick_keeps h
  | .watchdogExpiry => execWatchdogExpiry_keeps h
  | .configSignatureWalk => execConfigSignatureWalk_keeps h
  | .rotatingTestStart .. => execRotatingTestStart_keeps h
  | .spareTakeover .. => execSpareTakeover_keeps h
  | .rotatingTestComplete .. => execRotatingTestComplete_keeps h
  | .beamCopyComplete => execBeamCopyComplete_keeps h
  | .testSegment .. => execTestSegment_keeps h
  | .checkerInjection .. => execCheckerInjection_keeps h
  | .deferredTestRetry .. => execDeferredTestRetry_keeps h
  | .latentOverdue .. => execLatentOverdue_keeps h
  | .powerGood .. => execPowerGood_keeps h
  | .alwaysOnResetComplete => execAlwaysOnResetComplete_keeps h
  | .daybookScan => execDaybookScan_keeps h
  | .ledgerScan => execLedgerScan_keeps h
  | .startupInjection .. => execStartupInjection_keeps h
  | .bootImageLoad .. => execBootImageLoad_keeps h
  | .bootLayoutInstall => execBootLayoutInstall_keeps h
  | .ready => execReady_keeps h
  | .mainPowerLoss .. => execMainPowerLoss_keeps h
  | .sysRstNFall => execSysRstNFall_keeps h
  | .flushComplete => execFlushComplete_keeps h
  | .brownOut .. => execBrownOut_keeps h
  | .perstN => execPerstN_keeps h
  | .flr .. => execFlr_keeps h
  | .hostLinkLoss => execHostLinkLoss_keeps h
  | .configurationRequest .. => execConfigurationRequest_keeps h
  | .smbusIdentity => execSmbusIdentity_keeps h
  | .smbusState => execSmbusState_keeps h
  | .smbusTj => execSmbusTj_keeps h
  | .smbusPowerEpoch => execSmbusPowerEpoch_keeps h
  | .smbusLwIndex .. => execSmbusLwIndex_keeps h
  | .smbusLwData => execSmbusLwData_keeps h
  | .chCtrlWrite .. => execChCtrlWrite_keeps h
  | .eventWrite .. => execEventWrite_keeps h
  | .eventForce .. => execEventForce_keeps h
  | .ownerPidWrite .. => execOwnerPidWrite_keeps h
  | .watchWrite .. => execWatchWrite_keeps h
  | .bar2BaseWrite .. => execBar2BaseWrite_keeps h
  | .dbMirrorBaseWrite .. => execDbMirrorBaseWrite_keeps h
  | .dirData .. => execDirData_keeps h
  | .ftData .. => execFtData_keeps h
  | .flogData .. => execFlogData_keeps h
  | .lwData .. => execLwData_keeps h
  | .rxData .. => execRxData_keeps h
  | .lastEventPmLo .. => execLastEventPmLo_keeps h
  | .registerWrite .. => execRegisterWrite_keeps h
  | .postmarkTick .. => execPostmarkTick_keeps h
  | .hostLinkUp => execHostLinkUp_keeps h
  | .safeInNHigh => execSafeInNHigh_keeps h
  | .undefinedOpcodeLetter .. => execUndefinedOpcodeLetter_keeps h
  | .stagingComplete .. => execStagingComplete_keeps h
  | .tqPopWaitLimit .. => execTqPopWaitLimit_keeps h
  | .lpddr5xInitialised .. => execLpddr5xInitialised_keeps h
  | .tapInstruction .. => execTapInstruction_keeps h
  | .smbusUndefinedCommand .. => execSmbusUndefinedCommand_keeps h

/-! ### The step -/

theorem step_of_pending_nil {s : State} (h : s.pending = []) : step s = .next s := by
  simp only [step, h]

theorem step_of_pending_cons {s : State} {c : Instr} {rest : List Instr} (h : s.pending = c :: rest) :
    step s = exec c s.popFront := by
  simp only [step, h]

theorem popFront_of_pending_nil {s : State} (h : s.pending = []) : s.popFront = s := by
  cases s
  cases h
  rfl

/-- Taking the front command off the queue leaves the sparse data as they are. -/
theorem Canonical.popFront {s : State} (h : Canonical s) : Canonical s.popFront := ⟨h.mem, h.host, h.regs, h.ecc⟩

/-- Once the front command is off the queue, the rest of the step changes neither the queue nor the fuses, and keeps canonical
data canonical; an idle step has nothing to take off (log entry 1). -/
theorem step_keeps (s : State) : KeepsOut s.popFront (step s) := by
  cases hq : s.pending with
  | nil =>
    rw [popFront_of_pending_nil hq, step_of_pending_nil hq]
    exact KeepsOut.next (Keeps.refl s)
  | cons c rest =>
    rw [step_of_pending_cons hq]
    exact exec_keeps (Keeps.refl s.popFront) c

/-- Settles O3: every command keeps what `Keeps` names, and the step adds only the removal of the front command. -/
theorem everyStepKeepsCanonicalDataQueueAndFuses : Obligations.EveryStepKeepsCanonicalDataQueueAndFuses := by
  intro s t hs ht
  obtain ⟨hpending, hfuses, hcanonical⟩ := step_keeps s t ht
  exact ⟨hcanonical hs.popFront, hpending, hfuses⟩

end Sys2Proof.Machine
end

section
/-! SUPPORT. Registers: what a field may hold, and what the set of an EVENT bit leaves and shows. -/

namespace Sys2Proof.Machine

/-! ### Values of fields -/

theorem fget_lt_card (s : State) (f : Fld) : fget s f < f.card := Nat.mod_lt _ (Nat.two_pow_pos _)

theorem fget_of_regs {s t : State} (h : t.regs = s.regs) (f : Fld) : fget t f = fget s f := by
  unfold fget regGet
  rw [h]

theorem PagesBut.trans {ps : List Nat} {a b c : State} (h : PagesBut ps a b) (k : PagesBut ps b c) : PagesBut ps a c :=
  fun p o l m => (k p o l m).trans (h p o l m)

/-! ### Events and faults -/

/-- The set of an EVENT bit writes registers and may send the page interrupt (R727, R729). -/
theorem setEvent_state (s : State) (p b : Nat) :
    setEvent s p b = { s with regs := (setEvent s p b).regs, outbox := (setEvent s p b).outbox } := by
  calc setEvent s p b = { setEvent s p b with pending := (setEvent s p b).pending } := rfl
    _ = _ := by simp

theorem bit_eq_testBit (v i : Nat) : bit v i = v.testBit i := by
  rw [Nat.testBit_eq_decide_div_mod_eq, bit]
  rfl

/-- An EVENT bit is set by the set of it (R727). -/
theorem setEvent_hasEvent (s : State) (p : Nat) {b : Nat} (hb : b < 32) : HasEvent (setEvent s p b) p b := by
  have hput : fget (fput s (Fd.hdr_EVENT p) (fget s (Fd.hdr_EVENT p) ||| 2 ^ b)) (Fd.hdr_EVENT p) =
      (fget s (Fd.hdr_EVENT p) ||| 2 ^ b) % 2 ^ 32 := fget_fput_same _ _ _ ⟨Nat.zero_le _, Nat.le_of_ble_eq_true rfl⟩
  have hkept : fget (setEvent s p b) (Fd.hdr_EVENT p) =
      fget (fput s (Fd.hdr_EVENT p) (fget s (Fd.hdr_EVENT p) ||| 2 ^ b)) (Fd.hdr_EVENT p) := by
    have hrest := (((WordsBut.refl [(p, 0x01C), (p, 0x038), (p, 0x03C)]
      (fput s (Fd.hdr_EVENT p) (fget s (Fd.hdr_EVENT p) ||| 2 ^ b))).fadd (Fd.hdr_EVENT_COUNT p) 1
      (Nat.le_of_ble_eq_true rfl) (by simp [Fd.hdr_EVENT_COUNT])).fput (Fd.hdr_LAST_EVENT_PM_LO p) (now s % 2 ^ 32)
      (Nat.le_of_ble_eq_true rfl) (by simp [Fd.hdr_LAST_EVENT_PM_LO])).fput (Fd.hdr_LAST_EVENT_PM_HI p) (now s / 2 ^ 32)
      (Nat.le_of_ble_eq_true rfl) (by simp [Fd.hdr_LAST_EVENT_PM_HI])
    have hfield := hrest.fget (Fd.hdr_EVENT p) (Nat.le_of_ble_eq_true rfl) (by simp [Fd.hdr_EVENT])
    unfold setEvent
    dsimp only
    split
    · rw [pageIrq_fget]
      exact hfield
    · exact hfield
  unfold HasEvent
  rw [hkept, hput, bit_eq_testBit, Nat.testBit_mod_two_pow, Nat.testBit_or, Nat.testBit_two_pow_self]
  simp [hb]

theorem onBus_raiseAs (s : State) (cls source sclass pid flags detail sev also : Nat) :
    OnBus (raiseAs s cls source sclass pid flags detail sev also) cls source :=
  ⟨_, List.mem_append_right _ List.mem_cons_self, rfl, rfl⟩

end Sys2Proof.Machine
end

section
/-! SUPPORT. Rotating tests and takeovers (15 R606-R612, 18 R696-R706): where a unit's ROLE and LOGICAL stand, what a change of
ROLE, the start of a test and its end write, and what each leaves as it was. -/

namespace Sys2Proof.Machine

/-! ### The word of a unit's ROLE and LOGICAL -/

/-- The ROLE field of a unit of a kind that has spares: bits [1:0] of the word that LOGICAL is part of. -/
def roleField (k u : Nat) : Fld := ⟨(logicalFld k u).page, (logicalFld k u).off, 1, 0⟩

theorem roleFld_eq {k : Nat} (hk : k < 4) (u : Nat) : roleFld k u = some (roleField k u) := by
  interval_cases k <;> rfl

theorem roleOf_eq {k : Nat} (hk : k < 4) (s : State) (u : Nat) : roleOf s k u = fget s (roleField k u) := by
  simp only [roleOf, roleFld_eq hk]

theorem logicalFld_ok {k : Nat} (hk : k < 4) (u : Nat) : (logicalFld k u).ok := by
  interval_cases k <;> simp [logicalFld, Fld.ok, Fd.truss_LOGICAL, Fd.scribe_LOGICAL, Fd.joiner_LOGICAL, Fd.beam_LOGICAL]

theorem roleField_ok (k u : Nat) : (roleField k u).ok := by simp [roleField, Fld.ok]

theorem joiner_MODE_ok (u : Nat) : (Fd.joiner_MODE u).ok := by simp [Fd.joiner_MODE, Fld.ok]

/-- LOGICAL lies above ROLE in their word. -/
theorem logicalFld_above {k : Nat} (hk : k < 4) (u : Nat) : 1 < (logicalFld k u).lo := by
  interval_cases k <;> simp [logicalFld, Fd.truss_LOGICAL, Fd.scribe_LOGICAL, Fd.joiner_LOGICAL, Fd.beam_LOGICAL]

theorem logicalFld_card {k : Nat} (hk : k < 4) (u v : Nat) : (logicalFld k u).card = (logicalFld k v).card := by
  interval_cases k <;> rfl

theorem noLogical_lt_card {k : Nat} (hk : k < 4) (u : Nat) : noLogical k < (logicalFld k u).card := by
  interval_cases k <;>
    simp [noLogical, logicalFld, Fld.card, Fd.truss_LOGICAL, Fd.scribe_LOGICAL, Fd.joiner_LOGICAL, Fd.beam_LOGICAL]

theorem logicalFld_off_lt {k u : Nat} (hk : k < 4) (hu : u < physCount k) : (logicalFld k u).off < 0x1000 := by
  interval_cases k <;>
    simp [physCount, logicalFld, Fd.truss_LOGICAL, Fd.scribe_LOGICAL, Fd.joiner_LOGICAL, Fd.beam_LOGICAL] at hu ⊢
  omega

/-- The pages of units with spares: none of them is a page below 0x010. -/
theorem logicalFld_page_ge {k : Nat} (hk : k < 4) (u : Nat) : 0x010 ≤ (logicalFld k u).page := by
  interval_cases k <;> simp only [logicalFld, Fd.truss_LOGICAL, Fd.scribe_LOGICAL, Fd.joiner_LOGICAL, Fd.beam_LOGICAL] <;> omega

/-- Two units of a kind have words of their own. -/
theorem logicalFld_word_ne {k u v : Nat} (hk : k < 4) (h : u ≠ v) : (logicalFld k u).word ≠ (logicalFld k v).word := by
  interval_cases k <;>
    simpa [Fld.word, logicalFld, Fd.truss_LOGICAL, Fd.scribe_LOGICAL, Fd.joiner_LOGICAL, Fd.beam_LOGICAL] using h

/-- A unit's ROLE and LOGICAL read as before when its word is not written. -/
theorem WordsBut.role {ws : List (Nat × Nat)} {s t : State} {k u : Nat} (h : WordsBut ws s t) (hk : k < 4)
    (hu : u < physCount k) (m : (logicalFld k u).word ∉ ws) : roleOf t k u = roleOf s k u := by
  rw [roleOf_eq hk, roleOf_eq hk, h.fget (roleField k u) (logicalFld_off_lt hk hu) m]

theorem WordsBut.logical {ws : List (Nat × Nat)} {s t : State} {k u : Nat} (h : WordsBut ws s t) (hk : k < 4)
    (hu : u < physCount k) (m : (logicalFld k u).word ∉ ws) :
    Machine.fget t (logicalFld k u) = Machine.fget s (logicalFld k u) :=
  h.fget _ (logicalFld_off_lt hk hu) m

/-! ### Giving a unit its ROLE -/

/-- A change of ROLE writes register words alone. -/
theorem setRole_state (s : State) (k u r l : Nat) : setRole s k u r l = { s with regs := (setRole s k u r l).regs } := by
  unfold setRole
  split
  · dsimp only
    split <;> exact fput_eq _ _ _
  · rfl

/-- ROLE and LOGICAL of a kind with spares, and the lock of logical pair 0 (R318). -/
theorem setRole_eq {k : Nat} (hk : k < 4) (s : State) (u r l : Nat) :
    setRole s k u r l =
      if k = 2 && r = 0 && l = 0 then fput (fput (fput s (roleField k u) r) (logicalFld k u) l) (Fd.joiner_MODE u) 1
      else fput (fput s (roleField k u) r) (logicalFld k u) l := by
  simp only [setRole, roleFld_eq hk]

theorem setRole_words {k u : Nat} (hk : k < 4) (hu : u < physCount k) (s : State) (r l : Nat) :
    WordsBut [(logicalFld k u).word] s (setRole s k u r l) := by
  have hoff := logicalFld_off_lt hk hu
  have hput : WordsBut [(logicalFld k u).word] s (fput (fput s (roleField k u) r) (logicalFld k u) l) :=
    ((WordsBut.refl _ s).fput (roleField k u) r hoff List.mem_cons_self).fput _ l hoff List.mem_cons_self
  rw [setRole_eq hk]
  split
  next h =>
    obtain rfl : k = 2 := by simp_all
    exact hput.fput _ 1 hoff List.mem_cons_self
  next => exact hput

theorem logical_setRole {k : Nat} (hk : k < 4) (s : State) (u r l : Nat) :
    fget (setRole s k u r l) (logicalFld k u) = l % (logicalFld k u).card := by
  have hput := fget_fput_same (fput s (roleField k u) r) (logicalFld k u) l (logicalFld_ok hk u)
  rw [setRole_eq hk]
  split
  next h =>
    obtain rfl : k = 2 := by simp_all
    rw [fget_fput_other _ (Fd.joiner_MODE u) (logicalFld 2 u) 1 (joiner_MODE_ok u) (logicalFld_ok hk u)
      (.inr ⟨rfl, rfl, .inl (Nat.le_of_ble_eq_true rfl)⟩), hput]
  next => exact hput

theorem roleOf_setRole {k r : Nat} (hk : k < 4) (hr : r < 4) (s : State) (u l : Nat) :
    roleOf (setRole s k u r l) k u = r := by
  have hput : fget (fput (fput s (roleField k u) r) (logicalFld k u) l) (roleField k u) = r := by
    rw [fget_fput_other _ _ _ _ (logicalFld_ok hk u) (roleField_ok k u) (.inr ⟨rfl, rfl, .inl (logicalFld_above hk u)⟩),
      fget_fput_same _ _ _ (roleField_ok k u)]
    exact Nat.mod_eq_of_lt hr
  rw [roleOf_eq hk, setRole_eq hk]
  split
  next h =>
    obtain rfl : k = 2 := by simp_all
    rw [fget_fput_other _ (Fd.joiner_MODE u) (roleField 2 u) 1 (joiner_MODE_ok u) (roleField_ok 2 u)
      (.inr ⟨rfl, rfl, .inl (Nat.le_of_ble_eq_true rfl)⟩), hput]
  next => exact hput

/-! ### Ledger records of a test -/

theorem ledgerQueue_state (s : State) (c i : Nat) : ledgerQueue s c i = { s with ledger := (ledgerQueue s c i).ledger } := by
  unfold ledgerQueue
  dsimp only
  split
  · rfl
  · split <;> rfl

theorem writeSpareMap_state (s : State) (k : Nat) :
    writeSpareMap s k = { s with ledger := (writeSpareMap s k).ledger } := by
  unfold writeSpareMap
  split
  · dsimp only
    rw [ledgerQueue_state]
    rfl
  · rfl

@[simp] theorem writeSpareMap_regs (s : State) (k : Nat) : (writeSpareMap s k).regs = s.regs := by rw [writeSpareMap_state]

/-- An event record changes the Ledger, or is counted as lost in the Ledger's page (R692). -/
theorem ledgerEvent_state (s : State) (c : Nat) (d : List Nat) :
    ledgerEvent s c d = { s with
      regs := (ledgerEvent s c d).regs, ledger := (ledgerEvent s c d).ledger, outbox := (ledgerEvent s c d).outbox } := by
  unfold ledgerEvent
  dsimp only
  split
  · rw [setEvent_state]
    rfl
  · split <;> rfl

theorem ledgerEvent_words (s : State) (c : Nat) (d : List Nat) :
    WordsBut (Fd.ledger_LEDGER_LOST_COUNT.word :: eventWords 0x007) s (ledgerEvent s c d) := by
  unfold ledgerEvent
  dsimp only
  split
  · exact ((WordsBut.refl _ s).fadd _ 1 (by decide) (by simp)).setEvent _ _ fun w hw => List.mem_cons_of_mem _ hw
  · split <;> exact (WordsBut.refl _ s).of_regs rfl

/-! ### A change of ROLE with its SPARE_MAP -/

theorem changeRole_state (s : State) (k u r l : Nat) :
    changeRole s k u r l = { s with regs := (changeRole s k u r l).regs, ledger := (changeRole s k u r l).ledger } := by
  unfold changeRole
  rw [writeSpareMap_state, setRole_state]

theorem changeRole_regs (s : State) (k u r l : Nat) : (changeRole s k u r l).regs = (setRole s k u r l).regs :=
  writeSpareMap_regs _ _

theorem changeRole_words {k u : Nat} (hk : k < 4) (hu : u < physCount k) (s : State) (r l : Nat) :
    WordsBut [(logicalFld k u).word] s (changeRole s k u r l) :=
  (setRole_words hk hu s r l).of_regs (changeRole_regs s k u r l)

theorem roleOf_changeRole {k r : Nat} (hk : k < 4) (hr : r < 4) (s : State) (u l : Nat) :
    roleOf (changeRole s k u r l) k u = r := by
  rw [roleOf_eq hk, fget_of_regs (changeRole_regs s k u r l), ← roleOf_eq hk, roleOf_setRole hk hr]

theorem logical_changeRole {k : Nat} (hk : k < 4) (s : State) (u r l : Nat) :
    fget (changeRole s k u r l) (logicalFld k u) = l % (logicalFld k u).card := by
  rw [fget_of_regs (changeRole_regs s k u r l), logical_setRole hk]

/-! ### The start of a test -/

theorem beginTest_state (s : State) (k u : Nat) (f : Option Nat) (r : Bool) :
    beginTest s k u f r = { s with
      regs := (beginTest s k u f r).regs, ledger := (beginTest s k u f r).ledger
      spare := { s.spare with tests := (beginTest s k u f r).spare.tests } } := by
  unfold beginTest
  rw [changeRole_state]

theorem beginTest_tests (s : State) (k u : Nat) (f : Option Nat) (r : Bool) :
    mapFind (beginTest s k u f r).spare.tests k = some ⟨u, f, 0, r, now s, 0⟩ := by
  unfold beginTest
  rw [changeRole_state]
  exact mapFind_mapIns_same _ _ _

theorem beginTest_words {k u : Nat} (hk : k < 4) (hu : u < physCount k) (s : State) (f : Option Nat) (r : Bool) :
    WordsBut [(logicalFld k u).word] s (beginTest s k u f r) := changeRole_words hk hu s 3 _

theorem roleOf_beginTest {k : Nat} (hk : k < 4) (s : State) (u : Nat) (f : Option Nat) (r : Bool) :
    roleOf (beginTest s k u f r) k u = 3 := by
  have h := roleOf_changeRole hk (r := 3) (by decide) s u (noLogical k)
  rw [roleOf_eq hk] at h ⊢
  exact h

theorem logical_beginTest {k : Nat} (hk : k < 4) (s : State) (u : Nat) (f : Option Nat) (r : Bool) :
    fget (beginTest s k u f r) (logicalFld k u) = noLogical k :=
  (logical_changeRole hk s u 3 (noLogical k)).trans (Nat.mod_eq_of_lt (noLogical_lt_card hk u))

/-! ### A takeover for a rotating test -/

/-- A takeover for a test: the spare serves, and the unit's test begins (R607). -/
theorem takeover_test (s : State) (k u f : Nat) : takeover s k u f 2 = beginTest (swapIn s k u f) k u (some f) false := rfl

theorem swapIn_state (s : State) (k u f : Nat) : swapIn s k u f = { s with regs := (swapIn s k u f).regs } := by
  unfold swapIn
  dsimp only
  rw [setRole_state, setRole_state s]

theorem takeover_test_state (s : State) (k u f : Nat) :
    takeover s k u f 2 = { s with
      regs := (takeover s k u f 2).regs, ledger := (takeover s k u f 2).ledger
      spare := { s.spare with tests := (takeover s k u f 2).spare.tests } } := by
  rw [takeover_test, beginTest_state, swapIn_state]

theorem takeover_test_tests (s : State) (k u f : Nat) :
    mapFind (takeover s k u f 2).spare.tests k = some ⟨u, some f, 0, false, now s, 0⟩ := by
  rw [takeover_test, beginTest_tests, swapIn_state]
  rfl

section
variable {k u f : Nat} (hk : k < 4) (hu : u < physCount k) (hf : f < physCount k) (huf : u ≠ f)
include hk hu

theorem swapIn_spare_words (s : State) : WordsBut [(logicalFld k u).word]
    (setRole s k f 0 (fget s (logicalFld k u))) (takeover s k u f 2) :=
  (setRole_words hk hu _ 1 _).trans (beginTest_words hk hu _ _ _)

include hf

theorem takeover_test_words (s : State) :
    WordsBut [(logicalFld k u).word, (logicalFld k f).word] s (takeover s k u f 2) :=
  ((setRole_words hk hf s 0 _).mono (by simp)).trans ((swapIn_spare_words hk hu s).mono (by simp))

include huf

/-- The spare is active. -/
theorem roleOf_takeover_test_spare (s : State) : roleOf (takeover s k u f 2) k f = 0 := by
  rw [(swapIn_spare_words hk hu s).role hk hf (by simpa using logicalFld_word_ne hk huf.symm), roleOf_setRole hk (by decide)]

/-- The spare serves the logical unit that the unit served. -/
theorem logical_takeover_test_spare (s : State) :
    fget (takeover s k u f 2) (logicalFld k f) = fget s (logicalFld k u) := by
  rw [(swapIn_spare_words hk hu s).logical hk hf (by simpa using logicalFld_word_ne hk huf.symm), logical_setRole hk,
    logicalFld_card hk f u, Nat.mod_eq_of_lt (fget_lt_card _ _)]

end

/-! ### Choosing what a due test does -/

/-- The next test of a kind is set one step on (R606). -/
def reschedule (s : State) (k : Nat) : State :=
  { s with spare := { s.spare with nextTest := s.spare.nextTest.set k (now s + rotStep s k) } }

/-- What asked for the test of a unit, and its deferral, are struck off as the test goes ahead (R606, R611). -/
def unlisted (s : State) (k u : Nat) : State :=
  { s with spare := { s.spare with
    asked := s.spare.asked.filter fun x => !(x == (k, u)), deferred := mapDel s.spare.deferred k } }

section
variable {s : State} {k u f : Nat}

/-- A spare is tested in place (R606). -/
theorem startTest_of_spare (hret : returnable s k u = false) (hk : k < 4) (hrole : roleOf s k u = 1)
    (hres : reserved s k u = false) : startTest s k u = beginTest (unlisted s k u) k u none false := by
  simp [startTest, hret, Nat.not_le.2 hk, hrole, hres, unlisted]

/-- The test of a spare that a takeover has reserved is deferred (R611, R616). -/
theorem startTest_of_reserved (hret : returnable s k u = false) (hk : k < 4) (hrole : roleOf s k u = 1)
    (hres : reserved s k u = true) : startTest s k u = deferTest s k u := by
  simp [startTest, hret, Nat.not_le.2 hk, hrole, hres]

/-- An active unit with a spare that may stand in for it asks for its takeover (R607). -/
theorem startTest_of_freeSpare (hret : returnable s k u = false) (hk : k < 3) (hrole : roleOf s k u ≠ 1)
    (hfree : freeSpare s k = some f) : startTest s k u = askTakeover (unlisted s k u) k u f 2 := by
  simp [startTest, hret, show ¬ 4 ≤ k by omega, show k ≠ 3 by omega, hrole, hfree, unlisted]

/-- Without a free spare the test is deferred (R611). -/
theorem startTest_of_noSpare (hret : returnable s k u = false) (hk : k < 4) (hrole : roleOf s k u ≠ 1)
    (hfree : freeSpare s k = none) : startTest s k u = deferTest s k u := by
  simp [startTest, hret, Nat.not_le.2 hk, hrole, hfree]

end

theorem deferTest_count (s : State) (k u : Nat) :
    fget (deferTest s k u) Fd.safety_ROT_DEFER_COUNT = (fget s Fd.safety_ROT_DEFER_COUNT + 1) % 2 ^ 32 :=
  fget_fadd_same s Fd.safety_ROT_DEFER_COUNT 1 (by decide)

theorem deferTest_deferred (s : State) (k u : Nat) :
    mapFind (deferTest s k u).spare.deferred k = some (now s + 25000) := mapFind_mapIns_same _ _ _

theorem deferTest_words (s : State) (k u : Nat) : WordsBut [Fd.safety_ROT_DEFER_COUNT.word] s (deferTest s k u) :=
  ((WordsBut.refl _ s).fadd Fd.safety_ROT_DEFER_COUNT 1 (by decide) List.mem_cons_self).of_regs rfl

/-- What lets the next test of a kind start: a Corod that is READY with its power, no test of the kind under way, and the due
time reached (R606, R613). -/
structure TestDue (s : State) (k : Nat) : Prop where
  ready : s.boot.ready = true
  power : s.boot.holdup = false
  idle : testing s k = false
  due : s.spare.nextTest.getD k 0 ≤ now s

theorem exec_rotatingTestStart {kind : TestKind} {s : State} {u : Nat} (h : TestDue s (testNo kind))
    (hu : chooseUnit s (testNo kind) = some u) :
    exec (.rotatingTestStart kind) s = .next (startTest (reschedule s (testNo kind)) (testNo kind) u) := by
  obtain ⟨hready, hpower, hidle, hdue⟩ := h
  have hu' : chooseUnit (reschedule s (testNo kind)) (testNo kind) = some u := hu
  change execRotatingTestStart kind s = _
  unfold execRotatingTestStart
  dsimp only
  rw [if_pos (by simp only [hready, hpower, hidle, hdue]; rfl), if_pos hdue]
  split
  next v hv =>
    obtain rfl : u = v := Option.some.inj (hu'.symm.trans hv)
    rfl
  next hv => exact absurd (hu'.symm.trans hv) (by simp)

theorem exec_deferredTestRetry {kind : TestKind} {s : State} {at_ u : Nat}
    (hat : mapFind s.spare.deferred (testNo kind) = some at_) (hdue : at_ ≤ now s) (hidle : testing s (testNo kind) = false)
    (hu : chooseUnit s (testNo kind) = some u) :
    exec (.deferredTestRetry kind) s = .next (startTest s (testNo kind) u) := by
  change execDeferredTestRetry kind s = _
  simp [execDeferredTestRetry, hat, hdue, hidle, hu]

/-! ### The clauses -/

theorem rotatingTestStart_onSpare {kind : TestKind} {u : Nat} {s : State} (hdue : TestDue s (testNo kind))
    (hu : chooseUnit s (testNo kind) = some u) (hret : returnable s (testNo kind) u = false) (hk : testNo kind < 4)
    (hrole : roleOf s (testNo kind) u = 1) (hres : reserved s (testNo kind) u = false) :
    Runs (.rotatingTestStart kind) s fun t =>
      mapFind t.spare.tests (testNo kind) = some ⟨u, none, 0, false, now s, 0⟩ ∧ roleOf t (testNo kind) u = 3 ∧
      t = { s with regs := t.regs, spare := t.spare, ledger := t.ledger } := by
  refine ⟨_, exec_rotatingTestStart hdue hu, ?_⟩
  rw [startTest_of_spare (s := reschedule s (testNo kind)) hret hk hrole hres]
  refine ⟨beginTest_tests _ _ _ _ _, roleOf_beginTest hk _ _ _ _, ?_⟩
  rw [beginTest_state]
  rfl

theorem rotatingTestStart_defers {kind : TestKind} {u : Nat} {s : State} (hdue : TestDue s (testNo kind))
    (hu : chooseUnit s (testNo kind) = some u)
    (hstart : startTest (reschedule s (testNo kind)) (testNo kind) u = deferTest (reschedule s (testNo kind)) (testNo kind) u) :
    Runs (.rotatingTestStart kind) s fun t =>
      fget t Fd.safety_ROT_DEFER_COUNT = (fget s Fd.safety_ROT_DEFER_COUNT + 1) % 2 ^ 32 ∧
      mapFind t.spare.deferred (testNo kind) = some (now s + 25000) ∧ t.spare.takeovers = s.spare.takeovers ∧
      WordsBut [Fd.safety_ROT_DEFER_COUNT.word] s t ∧
      t = { s with regs := t.regs, ledger := t.ledger, spare := t.spare } := by
  refine ⟨_, exec_rotatingTestStart hdue hu, ?_⟩
  rw [hstart]
  exact ⟨deferTest_count _ _ _, deferTest_deferred _ _ _, rfl, deferTest_words _ _ _, rfl⟩

theorem rotatingTestStart_claimsSpare {kind : TestKind} {u f : Nat} {s : State} (hdue : TestDue s (testNo kind))
    (hu : chooseUnit s (testNo kind) = some u) (hret : returnable s (testNo kind) u = false) (hk : testNo kind < 3)
    (hrole : roleOf s (testNo kind) u ≠ 1) (hfree : freeSpare s (testNo kind) = some f) :
    Runs (.rotatingTestStart kind) s fun t =>
      t.spare.takeovers = s.spare.takeovers ++ [(testNo kind, u, f, 2)] ∧
      t.spare.nextTest = s.spare.nextTest.set (testNo kind) (now s + rotStep s (testNo kind)) ∧
      t = { s with spare := t.spare } := by
  refine ⟨_, exec_rotatingTestStart hdue hu, ?_⟩
  rw [startTest_of_freeSpare (s := reschedule s (testNo kind)) hret hk hrole hfree]
  exact ⟨rfl, rfl, rfl⟩

theorem deferredTestRetry_claimsSpare {kind : TestKind} {at_ u f : Nat} {s : State}
    (hat : mapFind s.spare.deferred (testNo kind) = some at_) (hdue : at_ ≤ now s) (hidle : testing s (testNo kind) = false)
    (hu : chooseUnit s (testNo kind) = some u) (hret : returnable s (testNo kind) u = false) (hk : testNo kind < 3)
    (hrole : roleOf s (testNo kind) u ≠ 1) (hfree : freeSpare s (testNo kind) = some f) :
    Runs (.deferredTestRetry kind) s fun t =>
      t.spare.takeovers = s.spare.takeovers ++ [(testNo kind, u, f, 2)] ∧
      mapFind t.spare.deferred (testNo kind) = none ∧ t = { s with spare := t.spare } := by
  refine ⟨_, exec_deferredTestRetry hat hdue hidle hu, ?_⟩
  rw [startTest_of_freeSpare hret hk hrole hfree]
  exact ⟨rfl, mapFind_mapDel_same _ _, rfl⟩

theorem latentOverdue_reports {kind : TestKind} {unit : Nat} {s : State} (hready : s.boot.ready = true)
    (hlt : unit < physCount (testNo kind)) (hrole : roleOf s (testNo kind) unit ≠ 2) (hperiod : 0 < fget s Fd.safety_ROT_PERIOD_S)
    (hage : 2 * (fget s Fd.safety_ROT_PERIOD_S * 1000) * (mapGet 0 s.spare.lateRaised (testNo kind * 64 + unit) + 1) <
      testAge s (testNo kind) unit) :
    Runs (.latentOverdue kind unit) s fun t =>
      OnBus t 0x1F (testPage (testNo kind) unit) ∧
      mapGet 0 t.spare.lateRaised (testNo kind * 64 + unit) = mapGet 0 s.spare.lateRaised (testNo kind * 64 + unit) + 1 ∧
      t = { s with spare := t.spare
                   safety := { s.safety with bus := t.safety.bus, latentOpen := t.safety.latentOpen } } := by
  have hms : 0 < fget s Fd.safety_ROT_PERIOD_S * 1000 := by omega
  have hfind (n : Nat) : mapGet 0 (mapIns s.spare.lateRaised (testNo kind * 64 + unit) n) (testNo kind * 64 + unit) = n := by
    simp [mapGet]
  have hrun : exec (.latentOverdue kind unit) s = execLatentOverdue kind unit s := rfl
  unfold Runs
  rw [hrun]
  unfold execLatentOverdue
  dsimp only
  rw [if_pos (by simp [hready, hlt, hrole, hms, hage])]
  refine ⟨_, rfl, onBus_raiseAs _ _ _ _ _ _ _ _ _, ?_⟩
  split
  · exact ⟨hfind _, rfl⟩
  · exact ⟨hfind _, rfl⟩

theorem exec_spareTakeover {kind : TestKind} {u f r : Nat} {s : State}
    (h : (nextTakeover s (testNo kind)).map (·.2) = some (u, f, r)) :
    exec (.spareTakeover kind) s = .next (takeover { s with spare := { s.spare with
      takeovers := s.spare.takeovers.filter fun y => !(y == (testNo kind, u, f, r)) } } (testNo kind) u f r) := by
  obtain ⟨⟨k, x⟩, hfind, rfl⟩ := Option.map_eq_some_iff.1 h
  obtain rfl : k = testNo kind := by have := List.find?_some hfind; simp_all
  have hrun : exec (.spareTakeover kind) s = execSpareTakeover kind s := rfl
  unfold nextTakeover at hfind
  rw [hrun]
  simp [execSpareTakeover, hfind]

theorem spareTakeover_beginsTest {kind : TestKind} {u f : Nat} {s : State}
    (h : (nextTakeover s (testNo kind)).map (·.2) = some (u, f, 2)) (hk : testNo kind < 4) (hu : u < physCount (testNo kind))
    (hf : f < physCount (testNo kind)) (huf : u ≠ f) :
    Runs (.spareTakeover kind) s fun t =>
      roleOf t (testNo kind) f = 0 ∧ fget t (logicalFld (testNo kind) f) = fget s (logicalFld (testNo kind) u) ∧
      roleOf t (testNo kind) u = 3 ∧ fget t (logicalFld (testNo kind) u) = noLogical (testNo kind) ∧
      mapFind t.spare.tests (testNo kind) = some ⟨u, some f, 0, false, now s, 0⟩ ∧
      t = { s with regs := t.regs, spare := t.spare, ledger := t.ledger } := by
  refine ⟨_, exec_spareTakeover h, roleOf_takeover_test_spare hk hu hf huf _, logical_takeover_test_spare hk hu hf huf _,
    roleOf_beginTest hk _ _ _ _, logical_beginTest hk _ _ _ _, takeover_test_tests _ _ _ _, ?_⟩
  rw [takeover_test_state]

/-- The registers that name the banks of a copy hold none (R608). -/
def copyUnnamed (s : State) : State := fput (fput s Fd.beam_COPY_SRC 0x3F) Fd.beam_COPY_DST 0x3F

/-- No bank copy is under way. -/
def copyDone (s : State) : State :=
  { copyUnnamed s with spare := { s.spare with copyFor := none } }

theorem copyUnnamed_state (s : State) : copyUnnamed s = { s with regs := (copyUnnamed s).regs } := fput_eq _ _ _

theorem copyDone_state (s : State) :
    copyDone s = { s with regs := (copyDone s).regs, spare := { s.spare with copyFor := none } } := by
  unfold copyDone
  rw [copyUnnamed_state]

theorem copyDone_regs (s : State) : (copyDone s).regs = (copyUnnamed s).regs := by
  simp only [copyDone]

theorem nextCopy_of_none {s : State} (h : ∀ x ∈ s.spare.takeovers, ¬ (x.1 = 3 ∧ x.2.2.2 = 4)) : nextCopy s = s := by
  have hfind : (s.spare.takeovers.find? fun x => x.1 == 3 && x.2.2.2 == 4) = none :=
    List.find?_eq_none.2 fun x hx => by simpa using h x hx
  simp only [nextCopy, hfind]

theorem copyDone_words (s : State) : WordsBut [Fd.beam_COPY_SRC.word] s (copyDone s) :=
  (((WordsBut.refl _ s).fput Fd.beam_COPY_SRC 0x3F (by decide) List.mem_cons_self).fput Fd.beam_COPY_DST 0x3F (by decide)
    List.mem_cons_self).of_regs (copyDone_regs s)

theorem copyDone_src (s : State) : fget (copyDone s) Fd.beam_COPY_SRC = 0x3F := by
  rw [fget_of_regs (copyDone_regs s), copyUnnamed,
    fget_fput_other _ Fd.beam_COPY_DST Fd.beam_COPY_SRC _ (by decide) (by decide) (.inr ⟨rfl, rfl, .inl (by decide)⟩),
    fget_fput_same _ _ _ (by decide)]
  decide

theorem copyDone_dst (s : State) : fget (copyDone s) Fd.beam_COPY_DST = 0x3F := by
  rw [fget_of_regs (copyDone_regs s), copyUnnamed, fget_fput_same _ _ _ (by decide)]
  decide

theorem exec_beamCopyComplete {s : State} {b d r : Nat} (h : s.spare.copyFor = some (b, d, r)) :
    exec .beamCopyComplete s = .next (nextCopy (takeover (copyDone s) 3 b d r)) := by
  have hrun : exec .beamCopyComplete s = execBeamCopyComplete s := rfl
  rw [hrun]
  simp only [execBeamCopyComplete, h, copyDone, copyUnnamed]
  rfl

theorem beamCopyComplete_beginsTest {b d : Nat} {s : State} (h : s.spare.copyFor = some (b, d, 2)) (hb : b < 34) (hd : d < 34)
    (hbd : b ≠ d) (hnone : ∀ x ∈ s.spare.takeovers, ¬ (x.1 = 3 ∧ x.2.2.2 = 4)) :
    Runs .beamCopyComplete s fun t =>
      roleOf t 3 d = 0 ∧ fget t (Fd.beam_LOGICAL d) = fget s (Fd.beam_LOGICAL b) ∧ roleOf t 3 b = 3 ∧
      fget t Fd.beam_COPY_SRC = 0x3F ∧ fget t Fd.beam_COPY_DST = 0x3F ∧ t.spare.copyFor = none ∧
      SameBytes s t ∧ t = { s with regs := t.regs, spare := t.spare, ledger := t.ledger } := by
  have hstate := takeover_test_state (copyDone s) 3 b d
  have hnext : nextCopy (takeover (copyDone s) 3 b d 2) = takeover (copyDone s) 3 b d 2 :=
    nextCopy_of_none (by rw [hstate]; exact hnone)
  have hcopy (u : Nat) (hu : u < 34) : (Fd.beam_COPY_SRC).word ≠ (logicalFld 3 u).word := by
    simp [Fld.word, Fd.beam_COPY_SRC, logicalFld, Fd.beam_LOGICAL]
    omega
  have hwords := takeover_test_words (k := 3) (by decide) hb hd (copyDone s)
  have hkept : ∀ g : Fld, g.word = Fd.beam_COPY_SRC.word →
      fget (takeover (copyDone s) 3 b d 2) g = fget (copyDone s) g := fun g hg => by
    have hoff : g.off = 0x0E8 := (Prod.mk.inj hg).2
    exact hwords.fget g (by omega) (by rw [hg]; simp [hcopy b hb, hcopy d hd])
  refine ⟨_, exec_beamCopyComplete h, ?_⟩
  rw [hnext]
  refine ⟨roleOf_takeover_test_spare (by decide) hb hd hbd _, ?_, roleOf_beginTest (by decide) _ _ _ _,
    (hkept _ rfl).trans (copyDone_src s), (hkept Fd.beam_COPY_DST rfl).trans (copyDone_dst s),
    by rw [hstate, copyDone_state], ?_, by rw [hstate, copyDone_state]⟩
  · exact (logical_takeover_test_spare (k := 3) (by decide) hb hd hbd _).trans
      ((copyDone_words s).logical (k := 3) (by decide) hb (by simpa using (hcopy b hb).symm))
  · rw [hstate, copyDone_state]
    exact fun a => ⟨rfl, rfl⟩

theorem testSegment_counts {kind : TestKind} {x : TestSt} {s : State} (hx : mapFind s.spare.tests (testNo kind) = some x)
    (hk : 4 ≤ testNo kind) (hseg : x.segments < testSegments (testNo kind)) (hend : x.segEnd ≤ now s)
    (hfits : segmentFits s (testNo kind) x.unit = true) :
    Runs (.testSegment kind true) s fun t =>
      mapFind t.spare.tests (testNo kind) = some { x with segments := x.segments + 1, segEnd := now s + 2500 } ∧
      t = { s with spare := { s.spare with tests := t.spare.tests } } := by
  have hrun : exec (.testSegment kind true) s = execTestSegment kind true s := rfl
  unfold Runs
  rw [hrun]
  simp only [execTestSegment, hx, hk, hseg, hend, hfits, decide_true, Bool.and_self, if_true]
  exact ⟨_, rfl, mapFind_mapIns_same _ _ _, rfl⟩


/-! ### The end of a test -/

theorem noteFail_state (s : State) (k u : Nat) : noteFail s k u = { s with ledger := (noteFail s k u).ledger } := by
  unfold noteFail
  dsimp only
  rw [ledgerQueue_state]
  rfl

theorem notePass_state (s : State) (k u : Nat) :
    notePass s k u = { s with
      regs := (notePass s k u).regs, ledger := (notePass s k u).ledger
      safety := { s.safety with latentOpen := (notePass s k u).safety.latentOpen }
      spare := { s.spare with lateRaised := (notePass s k u).spare.lateRaised } } := by
  unfold notePass
  dsimp only
  rw [ledgerQueue_state]
  rfl

theorem notePass_regs (s : State) (k u : Nat) : (notePass s k u).regs = (fadd s Fd.safety_ROT_PASS_COUNT 1).regs := by
  unfold notePass
  dsimp only
  rw [ledgerQueue_state]
  rfl

theorem notePass_count (s : State) (k u : Nat) :
    fget (notePass s k u) Fd.safety_ROT_PASS_COUNT = (fget s Fd.safety_ROT_PASS_COUNT + 1) % 2 ^ 32 := by
  rw [fget_of_regs (notePass_regs s k u), fget_fadd_same _ _ _ (by decide)]
  rfl

theorem spareEvent_state (s : State) (k u l r b : Nat) :
    spareEvent s k u l r b = { s with
      regs := (spareEvent s k u l r b).regs, ledger := (spareEvent s k u l r b).ledger
      outbox := (spareEvent s k u l r b).outbox } := ledgerEvent_state _ _ _

theorem spareEvent_words (s : State) (k u l r b : Nat) :
    WordsBut (Fd.ledger_LEDGER_LOST_COUNT.word :: eventWords 0x007) s (spareEvent s k u l r b) := ledgerEvent_words _ _ _

/-- A unit enters MAPPED_OUT: its ROLE and the set that the MRAM holds (R703). -/
def enterMapped (s : State) (k u : Nat) : State :=
  { setRole s k u 2 (noLogical k) with nvm := { s.nvm with mapped := s.nvm.mapped ++ [(k, u)] } }

theorem enterMapped_state (s : State) (k u : Nat) :
    enterMapped s k u = { s with
      regs := (enterMapped s k u).regs, nvm := { s.nvm with mapped := s.nvm.mapped ++ [(k, u)] } } := by
  unfold enterMapped
  rw [setRole_state]

theorem mapOut_eq (s : State) (k u l r : Nat) (b : Option Nat) :
    mapOut s k u l r b = lifeAdd (writeSpareMap (spareEvent (enterMapped s k u) k u l r (b.getD 0xFF)) k) 2 0 := by
  unfold mapOut enterMapped
  dsimp only
  rw [setRole_state]

theorem mapOut_state (s : State) (k u l r : Nat) (b : Option Nat) :
    mapOut s k u l r b = { s with
      regs := (mapOut s k u l r b).regs, ledger := (mapOut s k u l r b).ledger, outbox := (mapOut s k u l r b).outbox
      nvm := { s.nvm with mapped := s.nvm.mapped ++ [(k, u)] } } := by
  have hlife (x : State) : lifeAdd x 2 0 = { x with ledger := (lifeAdd x 2 0).ledger } := rfl
  rw [mapOut_eq, hlife, writeSpareMap_state, spareEvent_state, enterMapped_state]

/-- A mapped-out unit's ROLE says so (R706). -/
theorem roleOf_mapOut {k u : Nat} (hk : k < 4) (hu : u < physCount k) (s : State) (l r : Nat) (b : Option Nat) :
    roleOf (mapOut s k u l r b) k u = 2 := by
  have hpage := logicalFld_page_ge hk u
  have hword : (logicalFld k u).word ∉ Fd.ledger_LEDGER_LOST_COUNT.word :: eventWords 0x007 := fun h => by
    have hin : (logicalFld k u).page = 7 := by
      simp only [Fld.word, eventWords, List.mem_cons, Prod.mk.injEq, List.not_mem_nil, or_false] at h
      rcases h with h | h | h | h | h <;> exact h.1
    omega
  calc roleOf (mapOut s k u l r b) k u
      = roleOf (spareEvent (enterMapped s k u) k u l r (b.getD 0xFF)) k u := by
        rw [mapOut_eq, roleOf_eq hk, roleOf_eq hk, lifeAdd, ledgerAdd_fget, fget_of_regs (writeSpareMap_regs _ _)]
    _ = roleOf (enterMapped s k u) k u := (spareEvent_words _ _ _ _ _ _).role hk hu hword
    _ = roleOf (setRole s k u 2 (noLogical k)) k u := by
        rw [roleOf_eq hk, roleOf_eq hk]
        exact fget_of_regs (by simp only [enterMapped]) _
    _ = 2 := roleOf_setRole hk (by decide) _ _ _

theorem exec_rotatingTestComplete {kind : TestKind} {pass : Bool} {x : TestSt} {s : State}
    (hx : mapFind s.spare.tests (testNo kind) = some x) (hlen : x.start + testLength (testNo kind) ≤ now s)
    (hseg : testSegments (testNo kind) ≤ x.segments) (hend : x.segEnd ≤ now s) :
    exec (.rotatingTestComplete kind pass) s = .next (endTest s (testNo kind) x pass) := by
  change execRotatingTestComplete kind pass s = _
  simp only [execRotatingTestComplete, hx, hlen, hseg, hend, decide_true, Bool.and_self, if_true]

/-- The test of a kind is no longer under way. -/
def testOver (s : State) (k : Nat) : State := { s with spare := { s.spare with tests := mapDel s.spare.tests k } }

theorem endTest_pass {x : TestSt} (h : x.returning = false) (s : State) (k : Nat) :
    endTest s k x true = changeRole (notePass (testOver s k) k x.unit) k x.unit 1 (noLogical k) := by
  simp [endTest, h, testOver]

/-- Who held the unit's logical identity when it failed, as the SPARE_EVENT writes it. -/
def failedLogical (s : State) (k : Nat) (x : TestSt) : Nat :=
  match x.spare with
  | some f => ledgerLogical s k f
  | none => if 4 ≤ k then x.unit else 0x3F

theorem endTest_fail {x : TestSt} (h : x.returning = false) (s : State) (k : Nat) :
    endTest s k x false =
      raiseAs (mapOut (noteFail (testOver s k) k x.unit) k x.unit (failedLogical (noteFail (testOver s k) k x.unit) k x) 2
        x.spare) 0x1E (testPage k x.unit) 0xF 0xF 0 0 (if 4 ≤ k then 2 else 1) 0 := by
  simp only [endTest, failTest, h, Bool.false_eq_true, if_false]
  rfl

theorem rotatingTestComplete_passes {kind : TestKind} {x : TestSt} {s : State}
    (hx : mapFind s.spare.tests (testNo kind) = some x) (hret : x.returning = false) (hk : testNo kind < 4)
    (hu : x.unit < physCount (testNo kind)) (hlen : x.start + testLength (testNo kind) ≤ now s)
    (hseg : testSegments (testNo kind) ≤ x.segments) (hend : x.segEnd ≤ now s) :
    Runs (.rotatingTestComplete kind true) s fun t =>
      roleOf t (testNo kind) x.unit = 1 ∧ mapFind t.spare.tests (testNo kind) = none ∧
      fget t Fd.safety_ROT_PASS_COUNT = (fget s Fd.safety_ROT_PASS_COUNT + 1) % 2 ^ 32 ∧
      t = { s with regs := t.regs, ledger := t.ledger, spare := t.spare
                   safety := { s.safety with latentOpen := t.safety.latentOpen } } := by
  have hpage := logicalFld_page_ge hk x.unit
  have hword : Fd.safety_ROT_PASS_COUNT.word ∉ [(logicalFld (testNo kind) x.unit).word] := fun h => by
    have hin : 0x004 = (logicalFld (testNo kind) x.unit).page := (Prod.mk.inj (List.mem_singleton.1 h)).1
    omega
  refine ⟨_, exec_rotatingTestComplete hx hlen hseg hend, ?_⟩
  rw [endTest_pass hret]
  refine ⟨roleOf_changeRole hk (by decide) _ _ _, ?_, ?_, ?_⟩
  · rw [changeRole_state, notePass_state]
    exact mapFind_mapDel_same _ _
  · exact ((changeRole_words hk hu _ _ _).fget _ (by decide) hword).trans (notePass_count _ _ _)
  · rw [changeRole_state, notePass_state]
    rfl

theorem rotatingTestComplete_fails {kind : TestKind} {x : TestSt} {s : State}
    (hx : mapFind s.spare.tests (testNo kind) = some x) (hret : x.returning = false) (hk : testNo kind < 4)
    (hu : x.unit < physCount (testNo kind)) (hlen : x.start + testLength (testNo kind) ≤ now s)
    (hseg : testSegments (testNo kind) ≤ x.segments) (hend : x.segEnd ≤ now s) :
    Runs (.rotatingTestComplete kind false) s fun t =>
      roleOf t (testNo kind) x.unit = 2 ∧ (testNo kind, x.unit) ∈ t.nvm.mapped ∧
      OnBus t 0x1E (testPage (testNo kind) x.unit) ∧ mapFind t.spare.tests (testNo kind) = none ∧
      t = { s with regs := t.regs, ledger := t.ledger, spare := t.spare, outbox := t.outbox
                   nvm := { s.nvm with mapped := t.nvm.mapped }, safety := { s.safety with bus := t.safety.bus } } := by
  refine ⟨_, exec_rotatingTestComplete hx hlen hseg hend, ?_⟩
  rw [endTest_fail hret]
  refine ⟨?_, ?_, onBus_raiseAs _ _ _ _ _ _ _ _ _, ?_, ?_⟩
  · rw [roleOf_eq hk, raiseAs_fget, ← roleOf_eq hk, roleOf_mapOut hk hu]
  · rw [raiseAs_nvm, mapOut_state]
    exact List.mem_append_right _ List.mem_cons_self
  · rw [raiseAs_spare, mapOut_state, noteFail_state]
    exact mapFind_mapDel_same _ _
  · rw [mapOut_state, noteFail_state]
    rfl

/-- Settles O15: each clause is the run of one command, its premises those under which the test starts, waits, takes a unit over,
or ends. -/
theorem rotatingTestsRunAndTakeUnitsOver : Obligations.RotatingTestsRunAndTakeUnitsOver := by
  unfold Obligations.RotatingTestsRunAndTakeUnitsOver
  refine ⟨?_, ?_, ?_, ?_, ?_, ?_, ?_, ?_, ?_, ?_, ?_⟩
  · intro kind u s hready hpower hidle hdue hu _ hret hk hrole hres
    exact rotatingTestStart_onSpare ⟨hready, hpower, hidle, hdue⟩ hu hret hk hrole hres
  · intro kind u s hready hpower hidle hdue hu hret hk hrole hres
    exact rotatingTestStart_defers ⟨hready, hpower, hidle, hdue⟩ hu (startTest_of_reserved hret hk hrole hres)
  · intro kind u f s hready hpower hidle hdue hu hret hk hrole hfree
    exact rotatingTestStart_claimsSpare ⟨hready, hpower, hidle, hdue⟩ hu hret hk hrole hfree
  · intro kind u s hready hpower hidle hdue hu hret hk hrole hfree
    obtain ⟨t, hrun, hcount, hdeferred, _, hwords, hstate⟩ :=
      rotatingTestStart_defers ⟨hready, hpower, hidle, hdue⟩ hu (startTest_of_noSpare hret hk hrole hfree)
    exact ⟨t, hrun, hcount, hdeferred, hwords, hstate⟩
  · intro kind at_ u f s hat hdue hidle hu hret hk hrole hfree
    exact deferredTestRetry_claimsSpare hat hdue hidle hu hret hk hrole hfree
  · intro kind unit s hready hlt hrole hperiod hage
    exact latentOverdue_reports hready hlt hrole hperiod hage
  · intro kind u f s hnext hk hu hf huf
    exact spareTakeover_beginsTest hnext hk hu hf huf
  · intro b d s hcopy hb hd hbd hnone
    exact beamCopyComplete_beginsTest hcopy hb hd hbd hnone
  · intro kind x s hx hk hseg hend hfits
    exact testSegment_counts hx hk hseg hend hfits
  · intro kind x s hx hret hk hu hlen hseg hend
    exact rotatingTestComplete_passes hx hret hk hu hlen hseg hend
  · intro kind x s hx hret hk hu hlen hseg hend
    exact rotatingTestComplete_fails hx hret hk hu hlen hseg hend

end Sys2Proof.Machine
end

section
/-! SUPPORT. A write of consecutive bytes: what is read back from its place, and what every other place reads; and what a write
straight into storage changes beside the bytes (06 R225-R229, R765). -/

namespace Sys2Proof.Machine

/-! ### Consecutive keys of a map -/

section
variable {α : Type} {d : α}

theorem mapFind_eq_none {m : List (Nat × α)} {x : Nat} (h : ∀ e ∈ m, e.1 ≠ x) : mapFind m x = none := by
  induction m with
  | nil => rfl
  | cons c m ih =>
    obtain ⟨k, v⟩ := c
    rw [mapFind, if_neg (h (k, v) List.mem_cons_self), ih fun e he => h e (List.mem_cons_of_mem _ he)]

theorem mapFind_append_left {l m : List (Nat × α)} {x : Nat} (h : ∀ e ∈ m, e.1 ≠ x) : mapFind (l ++ m) x = mapFind l x := by
  induction l with
  | nil => exact mapFind_eq_none h
  | cons c l ih =>
    obtain ⟨k, v⟩ := c
    simp only [List.cons_append, mapFind, ih]

theorem mapFind_append_right {l m : List (Nat × α)} {x : Nat} (h : ∀ e ∈ l, e.1 ≠ x) : mapFind (l ++ m) x = mapFind m x := by
  induction l with
  | nil => rfl
  | cons c l ih =>
    obtain ⟨k, v⟩ := c
    rw [List.cons_append, mapFind, if_neg (h (k, v) List.mem_cons_self), ih fun e he => h e (List.mem_cons_of_mem _ he)]

/-- Reading from a key that lies below every listed one. -/
theorem mapWalk_of_lt {m : List (Nat × α)} {x n : Nat} (h : ∀ e ∈ m, x < e.1) :
    mapWalk d m x (n + 1) = d :: mapWalk d m (x + 1) n := by
  cases m with
  | nil => rfl
  | cons c m => rw [mapWalk, if_neg (Nat.ne_of_gt (h c List.mem_cons_self))]

variable [DecidableEq α]

/-- The listed entries of consecutive values are read back as the values. -/
theorem mapWalk_mapEntries (ys : List α) {m : List (Nat × α)} {x : Nat} (h : ∀ e ∈ m, x + ys.length ≤ e.1) :
    mapWalk d (mapEntries d x ys ++ m) x ys.length = ys := by
  induction ys generalizing x with
  | nil => simp [mapWalk]
  | cons y ys ih =>
    have hrest : ∀ e ∈ m, x + 1 + ys.length ≤ e.1 := fun e he => by
      have := h e he
      rw [List.length_cons] at this
      omega
    have habove : ∀ e ∈ mapEntries d (x + 1) ys ++ m, x < e.1 := fun e he => by
      rcases List.mem_append.1 he with he | he
      · exact (mem_mapEntries he).1
      · have := hrest e he
        omega
    rw [List.length_cons, mapEntries]
    split
    next hy => rw [mapWalk_of_lt habove, ih hrest, hy]
    next => rw [List.cons_append, mapWalk, if_pos rfl, ih hrest]

/-- What was written is read back. -/
theorem mapRange_mapPutAll_same {m : List (Nat × α)} (hm : m.Pairwise fun a b => a.1 < b.1) (x : Nat) (ys : List α) :
    mapRange d (mapPutAll d m x ys) x ys.length = ys := by
  have hright : ∀ e ∈ m.dropWhile fun e => e.1 < x + ys.length, x + ys.length ≤ e.1 := fun e he => le_of_mem_dropWhile hm he
  have hskip : (mapPutAll d m x ys).dropWhile (fun e => e.1 < x) =
      mapEntries d x ys ++ m.dropWhile fun e => e.1 < x + ys.length := by
    unfold mapPutAll
    dsimp only
    rw [List.append_assoc, List.dropWhile_append_of_pos fun e he => by simpa using lt_of_mem_takeWhile he]
    refine List.dropWhile_eq_self_iff.2 fun hl => ?_
    have hin := List.getElem_mem hl
    rcases List.mem_append.1 hin with he | he
    · simpa using (mem_mapEntries he).1
    · have := hright _ he
      simp only [decide_eq_true_eq, not_lt]
      omega
  unfold mapRange
  rw [hskip, mapWalk_mapEntries ys hright]

/-- What lies outside the keys written reads as before. -/
theorem mapGet_mapPutAll_outside {m : List (Nat × α)} (hm : m.Pairwise fun a b => a.1 < b.1) {x z : Nat} {ys : List α}
    (h : ¬ (x ≤ z ∧ z < x + ys.length)) : mapGet d (mapPutAll d m x ys) z = mapGet d m z := by
  have hentries : ∀ e ∈ mapEntries d x ys, e.1 ≠ z := fun e he => by
    have := mem_mapEntries he
    omega
  unfold mapGet mapPutAll
  dsimp only
  by_cases hz : z < x
  · have hright : ∀ e ∈ m.dropWhile fun e => e.1 < x + ys.length, e.1 ≠ z := fun e he => by
      have := le_of_mem_dropWhile hm he
      omega
    have hkeep : mapFind m z = mapFind (m.takeWhile fun e => e.1 < x) z := by
      conv_lhs => rw [← List.takeWhile_append_dropWhile (p := fun e : Nat × α => decide (e.1 < x)) (l := m)]
      exact mapFind_append_left fun e he => by
        have := le_of_mem_dropWhile hm he
        omega
    rw [mapFind_append_left hright, mapFind_append_left hentries, hkeep]
  · have hleft : ∀ e ∈ (m.takeWhile fun e => e.1 < x) ++ mapEntries d x ys, e.1 ≠ z := fun e he => by
      rcases List.mem_append.1 he with he | he
      · have := lt_of_mem_takeWhile he
        omega
      · exact hentries e he
    have hkeep : mapFind m z = mapFind (m.dropWhile fun e => e.1 < x + ys.length) z := by
      conv_lhs => rw [← List.takeWhile_append_dropWhile (p := fun e : Nat × α => decide (e.1 < x + ys.length)) (l := m)]
      exact mapFind_append_right fun e he => by
        have := lt_of_mem_takeWhile he
        omega
    rw [mapFind_append_right hleft, hkeep]

end

/-! ### A write straight into storage -/

/-- What the check bits of a write or a read may change: marks of words, counts and reports, and no stored byte (R226-R229,
R765). -/
def MarksFrame (s t : State) : Prop :=
  t = { s with regs := t.regs, ecc := t.ecc, ledger := t.ledger, outbox := t.outbox
               safety := { s.safety with corr := t.safety.corr, bus := t.safety.bus } }

theorem MarksFrame.refl (s : State) : MarksFrame s s := rfl

theorem MarksFrame.trans {a b c : State} (h : MarksFrame a b) (k : MarksFrame b c) : MarksFrame a c := by
  unfold MarksFrame at *
  rw [k, h]

theorem fadd_marks (s : State) (f : Fld) (n : Nat) : MarksFrame s (fadd s f n) := fadd_eq s f n

theorem setEvent_marks (s : State) (p b : Nat) : MarksFrame s (setEvent s p b) := by
  unfold MarksFrame
  rw [setEvent_state]

theorem eccSet_marks (s : State) (w : Nat) (e : Option EccSt) : MarksFrame s (eccSet s w e) := by
  unfold eccSet
  split <;> rfl

theorem ledgerAdd_marks (s : State) (c i w k : Nat) : MarksFrame s (ledgerAdd s c i w k) := rfl

theorem errCorr_marks (s : State) (p : Nat) : MarksFrame s (errCorr s p) := (fadd_marks _ _ _).trans (setEvent_marks _ _ _)

theorem errUncorr_marks (s : State) (p : Nat) : MarksFrame s (errUncorr s p) := (fadd_marks _ _ _).trans (setEvent_marks _ _ _)

theorem raise_marks (s : State) (c o k p d : Nat) : MarksFrame s (raise s c o k p d) := rfl

theorem countCorr_marks (s : State) (r : MapRange) : MarksFrame s (countCorr s r) := by
  unfold countCorr
  dsimp only
  have hcorr (x : State) (src n : Nat) :
      MarksFrame x { x with safety := { x.safety with corr := mapPut 0 x.safety.corr src n } } := rfl
  refine MarksFrame.trans ?_ (hcorr _ _ _)
  refine MarksFrame.trans ?_ (ledgerAdd_marks _ _ _ _ _)
  split
  · exact (errCorr_marks _ _).trans (fadd_marks _ _ _)
  · exact errCorr_marks _ _

theorem countUncorr_marks (s : State) (r : MapRange) (sclass pid : Nat) : MarksFrame s (countUncorr s r sclass pid) := by
  unfold countUncorr
  dsimp only
  refine MarksFrame.trans ?_ (raise_marks _ _ _ _ _ _)
  refine MarksFrame.trans ?_ (ledgerAdd_marks _ _ _ _ _)
  split
  · exact (errUncorr_marks _ _).trans (fadd_marks _ _ _)
  · exact errUncorr_marks _ _

theorem countPoison_marks (s : State) (r : MapRange) : MarksFrame s (countPoison s r) := by
  unfold countPoison
  dsimp only
  refine MarksFrame.trans ?_ (ledgerAdd_marks _ _ _ _ _)
  split
  · exact fadd_marks _ _ _
  · exact fadd_marks _ _ _
  · exact .refl s

theorem readWord_marks (sclass pid : Nat) (p : State × Bool) (w : Nat) : MarksFrame p.1 (readWord sclass pid p w).1 := by
  unfold readWord
  dsimp only
  split
  · exact countCorr_marks _ _
  · exact countUncorr_marks _ _ _ _
  · exact countPoison_marks _ _
  · exact .refl p.1

theorem mergeWord_marks (a n sclass pid : Nat) (s : State) (w : Nat) : MarksFrame s (mergeWord a n sclass pid s w) := by
  unfold mergeWord
  dsimp only
  split
  · exact eccSet_marks _ _ _
  · split
    · exact (readWord_marks _ _ (s, false) _).trans (eccSet_marks _ _ _)
    · exact (readWord_marks _ _ (s, false) _).trans (eccSet_marks _ _ _)

theorem mergeWords_marks (a n sclass pid : Nat) (ws : List Nat) (s : State) :
    MarksFrame s (ws.foldl (mergeWord a n sclass pid) s) := by
  induction ws generalizing s with
  | nil => exact .refl s
  | cons w ws ih => exact (mergeWord_marks _ _ _ _ s w).trans (ih _)

/-- A write straight into storage stores its bytes, and beside them changes what check bits change. -/
theorem writeRaw_marks (s : State) (a : Nat) (bs : List Byte) (sclass pid : Nat) :
    MarksFrame { s with mem := mapPutAll 0 s.mem a bs } (writeRaw s a bs sclass pid) := by
  have h := mergeWords_marks a bs.length sclass pid (markedWords s a bs.length) s
  unfold MarksFrame at h ⊢
  unfold writeRaw memPut
  dsimp only
  rw [h]

theorem writeRaw_mem (s : State) (a : Nat) (bs : List Byte) (sclass pid : Nat) :
    (writeRaw s a bs sclass pid).mem = mapPutAll 0 s.mem a bs := by
  rw [writeRaw_marks]

theorem memBytes_writeRaw {s : State} (h : Memory.wf s.mem) (a : Nat) (bs : List Byte) (sclass pid : Nat) :
    memBytes (writeRaw s a bs sclass pid) a bs.length = bs := by
  unfold memBytes
  rw [writeRaw_mem, mapRange_mapPutAll_same h.1]

theorem writeRaw_bytesBut {s : State} (h : Memory.wf s.mem) (a : Nat) (bs : List Byte) (sclass pid : Nat) :
    BytesBut a bs.length s (writeRaw s a bs sclass pid) := fun x hx => by
  unfold memByte
  rw [writeRaw_mem, mapGet_mapPutAll_outside h.1 hx]

/-- A permitted write that does not pass through the pool goes straight into storage (R254, R268). -/
theorem devWrite_of_direct {s : State} {pid a : Nat} {bs : List Byte} (hperm : rangePermitted s pid a bs.length = true)
    (hpool : pooled s pid a = false) (sclass : Nat) : devWrite s pid a bs sclass = (writeRaw s a bs sclass pid, .ok) := by
  have hne : bs.isEmpty = false := by
    cases bs with
    | nil => simp [rangePermitted] at hperm
    | cons b bs => rfl
  simp [devWrite, hne, hperm, hpool]

end Sys2Proof.Machine
end

section
/-! SUPPORT. Camera packets (09 R365-R395): what a filter's configuration reads while the port's own status words change, what
an item does as it passes through an idle port's line FIFO, and what each packet leaves as it was. -/

namespace Sys2Proof.Machine

/-! ### Filters by number -/

section
variable {port f : Nat}

theorem filterNo_div (hf : f < 4) : filterNo port f / 4 = port := by
  unfold filterNo
  omega

theorem filterNo_mod (hf : f < 4) : filterNo port f % 4 = f := by
  unfold filterNo
  omega

theorem filterNo_lt (hp : port < 8) (hf : f < 4) : filterNo port f < 32 := by
  unfold filterNo
  omega

end

theorem filterAt_setFilter_same {s : State} {i : Nat} (h : i < s.filters.length) (x : FilterSt) :
    filterAt (setFilter s i x) i = x := by
  simp [filterAt, setFilter, h]

theorem filterAt_setFilter_other (s : State) {i j : Nat} (h : j ≠ i) (x : FilterSt) :
    filterAt (setFilter s i x) j = filterAt s j := by
  simp [filterAt, setFilter, List.getElem?_set_ne h.symm]

/-- A filter given the state it has. -/
theorem setFilter_self {s : State} {i : Nat} (h : i < s.filters.length) : setFilter s i (filterAt s i) = s := by
  have hget : filterAt s i = s.filters[i] := by simp [filterAt, h]
  unfold setFilter
  rw [hget, List.set_getElem_self]

@[simp] theorem setFilter_fget (s : State) (i : Nat) (x : FilterSt) (g : Fld) : fget (setFilter s i x) g = fget s g := rfl
@[simp] theorem setFilter_length (s : State) (i : Nat) (x : FilterSt) : (setFilter s i x).filters.length = s.filters.length := by
  simp [setFilter]

/-! ### A port's status words -/

/-- A field of another page, or of another word of the port's page, lies in none of the status words. -/
theorem not_mem_portWords {port : Nat} {g : Fld} (h : g.page ≠ 0x070 + port ∨ g.off ≠ 0x044 ∧ g.off ≠ 0x05C) :
    g.word ∉ portWords port := by
  simp only [Fld.word, portWords, Fd.intake_HS_ACTIVE, Fd.intake_FIFO_HIGH_WATER, List.mem_cons, Prod.mk.injEq,
    List.not_mem_nil, or_false]
  omega

/-- Only the status words that every packet writes have changed (R365, R394). -/
structure PortStatus (port : Nat) (s t : State) : Prop where
  words : WordsBut (portWords port) s t
  rest : t = { s with regs := t.regs }

namespace PortStatus

theorem refl (port : Nat) (s : State) : PortStatus port s s := ⟨.refl _ s, rfl⟩

theorem trans {port : Nat} {a b c : State} (h : PortStatus port a b) (k : PortStatus port b c) : PortStatus port a c :=
  ⟨h.words.trans k.words, by rw [k.rest, h.rest]⟩

theorem fput {port : Nat} {s t : State} (h : PortStatus port s t) (f : Fld) (v : Nat) (l : f.off < 0x1000)
    (m : f.word ∈ portWords port) : PortStatus port s (fput t f v) :=
  ⟨h.words.fput f v l m, by rw [fput_eq, h.rest]⟩

variable {port : Nat} {s t : State} (h : PortStatus port s t)
include h

/-- A field of another word of a page reads as before. -/
theorem otherWord (g : Fld) {o : Nat} (ho : g.off = o) (k : o < 0x1000 ∧ o ≠ 0x044 ∧ o ≠ 0x05C) :
    Machine.fget t g = Machine.fget s g :=
  h.words.fget g (by omega) (not_mem_portWords (by omega))

/-- A field of a page that is no intake port's reads as before. -/
theorem otherPage (hp : port < 8) (g : Fld) {p o : Nat} (hpage : g.page = p) (ho : g.off = o) (k : p < 0x070 ∨ 0x078 ≤ p)
    (l : o < 0x1000) : Machine.fget t g = Machine.fget s g :=
  h.words.fget g (by omega) (not_mem_portWords (by omega))

/-- A filter's registers read as before. -/
theorem filterReg (g : Fld) {b f : Nat} (ho : g.off = b + 0x40 * f) (hb : 0x080 ≤ b ∧ b < 0x0C0) (hf : f < 4) :
    Machine.fget t g = Machine.fget s g := h.otherWord g ho (by omega)

/-- The registers of a DRAM region read as before. -/
theorem regionReg (hp : port < 8) (g : Fld) {b r : Nat} (hpage : g.page = 0x081) (ho : g.off = b + 0x8 * r) (hb : b ≤ 0x104)
    (hr : r < 64) : Machine.fget t g = Machine.fget s g := h.otherPage hp g hpage ho (by decide) (by omega)

theorem filterAt (i : Nat) : Machine.filterAt t i = Machine.filterAt s i := by rw [h.rest]; rfl

theorem fifoAt (p : Nat) : Machine.fifoAt t p = Machine.fifoAt s p := by rw [h.rest]; rfl

theorem injecting (p : Nat) : Machine.injecting t p = Machine.injecting s p := by
  unfold Machine.injecting
  simp only [h.filterAt]

theorem filtersOfVc (vc : Nat) : Machine.filtersOfVc t port vc = Machine.filtersOfVc s port vc :=
  List.filter_congr fun f hf => by
    have hf : f < 4 := List.mem_range.1 hf
    have hon : filterOn t port f = filterOn s port f := by
      unfold filterOn
      rw [h.otherWord (Fd.intake_ENABLE port) (o := 0x040) rfl (by decide),
        h.filterReg (Fd.intake_F_ENABLE port f) rfl (by decide) hf]
    rw [hon, h.filterReg (Fd.intake_VC port f) rfl (by decide) hf]

theorem packetFilters (vc dt : Nat) : Machine.packetFilters t port vc dt = Machine.packetFilters s port vc dt := by
  unfold Machine.packetFilters
  dsimp only
  rw [h.filtersOfVc]
  split
  · simp only [h.filterAt]
  · refine List.filter_congr fun f hf => ?_
    have hf : f < 4 := List.mem_range.1 (List.mem_of_mem_filter hf)
    rw [h.filterReg (Fd.intake_DT port f) rfl (by decide) hf]

theorem lineBytes (i : Nat) : Machine.lineBytes t i = Machine.lineBytes s i := by
  have hi : i % 4 < 4 := Nat.mod_lt _ (by decide)
  unfold Machine.lineBytes
  rw [h.filterReg (Fd.intake_WIDTH (i / 4) (i % 4)) rfl (by decide) hi,
    h.filterReg (Fd.intake_DT (i / 4) (i % 4)) rfl (by decide) hi]

theorem height (i : Nat) :
    Machine.fget t (Fd.intake_HEIGHT (i / 4) (i % 4)) = Machine.fget s (Fd.intake_HEIGHT (i / 4) (i % 4)) :=
  h.filterReg _ rfl (by decide) (Nat.mod_lt _ (by decide))

theorem pid (i : Nat) : Machine.fget t (Fd.intake_PID (i / 4) (i % 4)) = Machine.fget s (Fd.intake_PID (i / 4) (i % 4)) :=
  h.filterReg _ rfl (by decide) (Nat.mod_lt _ (by decide))

theorem slotSize (i : Nat) : Machine.slotSize t i = Machine.slotSize s i := by
  unfold Machine.slotSize
  rw [h.height, h.lineBytes]

theorem slotBase (i k : Nat) : Machine.slotBase t i k = Machine.slotBase s i k := by
  have hi : i % 4 < 4 := Nat.mod_lt _ (by decide)
  unfold Machine.slotBase bufBase
  rw [h.slotSize, h.filterReg (Fd.intake_BUF_BASE_LO (i / 4) (i % 4)) rfl (by decide) hi,
    h.filterReg (Fd.intake_BUF_BASE_HI (i / 4) (i % 4)) rfl (by decide) hi]

theorem chooseSlot (i : Nat) : Machine.chooseSlot t i = Machine.chooseSlot s i := by
  have hi : i % 4 < 4 := Nat.mod_lt _ (by decide)
  have hin (k : Nat) (r : FrameRef) : inSlot t i k r = inSlot s i k r := by
    unfold inSlot
    rw [h.slotBase, h.slotSize]
  have hfree : freeSlots t i = freeSlots s i := by
    unfold freeSlots slotNewest slotHeld
    simp only [h.filterAt, funext (hin _)]
    rw [h.filterReg (Fd.intake_BUF_SLOTS (i / 4) (i % 4)) rfl (by decide) hi, h.rest]
  unfold Machine.chooseSlot
  simp only [hfree, h.filterAt]

theorem regime (p : Nat) : regimeOf t p = regimeOf s p := h.otherWord _ (o := 0x040) rfl (by decide)

theorem dramFree (p a : Nat) : Machine.dramFree t p a = Machine.dramFree s p a := by
  unfold Machine.dramFree strictPid
  rw [h.regime, h.rest]
  rfl

theorem slotFree (i k : Nat) : Machine.slotFree t i k = Machine.slotFree s i k := by
  unfold Machine.slotFree
  rw [h.pid, h.slotBase, h.slotSize, h.dramFree]

theorem poolBanks : Machine.poolBanks t = Machine.poolBanks s := h.otherWord _ (o := 0x048) rfl (by decide)

theorem pooled (p a : Nat) : Machine.pooled t p a = Machine.pooled s p a := by
  unfold Machine.pooled
  rw [h.regime, h.poolBanks, h.otherWord (Fd.part_CACHE_WAYS p) (o := 0x04C) rfl (by decide)]

theorem regionAt (hp : port < 8) (a : Nat) : Machine.regionAt t a = Machine.regionAt s a :=
  List.find?_congr fun r hr => by
    have hr : r < 64 := List.mem_range.1 hr
    dsimp only
    rw [h.regionReg hp (Fd.region_REGION_BASE r) rfl rfl (by decide) hr,
      h.regionReg hp (Fd.region_REGION_SIZE r) rfl rfl (by decide) hr]

theorem rangeOf (hp : port < 8) (a : Nat) : Machine.rangeOf t a = Machine.rangeOf s a := by
  have hbytes : dramBytes t = dramBytes s := by
    unfold dramBytes
    rw [h.otherPage hp Fd.dram_CAPACITY (p := 0x080) (o := 0x040) rfl rfl (by decide) (by decide)]
  unfold Machine.rangeOf
  rw [hbytes]

theorem bytePermitted (hp : port < 8) {p : Nat} (hpid : p < 16) (a : Nat) :
    Machine.bytePermitted t p a = Machine.bytePermitted s p a := by
  have hbad (k : Nat) : badEntry t k = badEntry s k := by rw [h.rest]; rfl
  unfold Machine.bytePermitted
  rw [h.rangeOf hp, h.poolBanks, h.regionAt hp,
    h.otherPage hp (Fd.part_BEAM_BANKS p) (p := 0x060 + p) (o := 0x044) rfl rfl (by omega) (by decide)]
  simp only [hbad]
  cases hreg : Machine.regionAt s a with
  | none => rfl
  | some r =>
    have hr : r < 64 := List.mem_range.1 (List.mem_of_find?_eq_some hreg)
    simp only [h.regionReg hp (Fd.region_OWNED r) rfl rfl (by decide) hr,
      h.regionReg hp (Fd.region_REGION_OWNER r) rfl rfl (by decide) hr]

theorem rangePermitted (hp : port < 8) {p : Nat} (hpid : p < 16) (a n : Nat) :
    Machine.rangePermitted t p a n = Machine.rangePermitted s p a n := by
  unfold Machine.rangePermitted
  rw [funext (h.bytePermitted hp hpid)]

theorem itemWaits (p : Nat) (x : FifoItem) : Machine.itemWaits t p x = Machine.itemWaits s p x := by
  cases x <;> simp only [Machine.itemWaits, h.injecting, h.filterAt, h.slotFree]

theorem enabled : Machine.fget t (Fd.intake_ENABLE port) = Machine.fget s (Fd.intake_ENABLE port) :=
  h.otherWord _ (o := 0x040) rfl (by decide)

/-- A port that is idle stays so. -/
theorem portIdle (k : PortIdle s port) : PortIdle t port :=
  ⟨h.enabled.trans k.enabled, (h.fifoAt port).trans k.empty, (h.injecting port).trans k.injected⟩

end PortStatus

/-! ### Discards -/

/-- A counter among the registers of a port's filters, as the discards count in. -/
structure DiscardCount (port : Nat) (g : Fld) : Prop where
  page : g.page = 0x070 + port
  low : 0x080 ≤ g.off
  high : g.off < 0x1000
  bits : g.hi = 31 ∧ g.lo = 0

theorem discardCount_filter {port f b : Nat} (hb : 0x080 ≤ b) (hb' : b < 0x0C0) (hf : f < 4) :
    DiscardCount port ⟨0x070 + port, b + 0x40 * f, 31, 0⟩ where
  page := rfl
  low := show 0x080 ≤ b + 0x40 * f by omega
  high := show b + 0x40 * f < 0x1000 by omega
  bits := ⟨rfl, rfl⟩

theorem DiscardCount.ok {port : Nat} {g : Fld} (h : DiscardCount port g) : g.ok := by
  obtain ⟨hhi, hlo⟩ := h.bits
  exact ⟨by omega, by omega⟩

/-- A discard counter lies in none of the words that every packet writes. -/
theorem DiscardCount.not_portWord {port : Nat} {g : Fld} (h : DiscardCount port g) : g.word ∉ portWords port := by
  have hlow := h.low
  exact not_mem_portWords (by omega)

section
variable {i : Nat} {g : Fld} (hg : DiscardCount (i / 4) g)
include hg

theorem discard_count (s : State) (b : Bool) : fget (discard s i g b) g = (fget s g + 1) % 2 ^ 32 := by
  obtain ⟨hpage, hlow, hhigh, hhi, hlo⟩ := hg
  have hword : g.word ∉ eventWords (0x070 + i / 4) := by
    simp only [Fld.word, eventWords, List.mem_cons, Prod.mk.injEq, List.not_mem_nil, or_false]
    omega
  unfold discard
  dsimp only
  rw [raise_fget, ((WordsBut.refl (eventWords (0x070 + i / 4)) _).setEvent _ _ fun w hw => hw).fget g hhigh hword,
    fget_fadd_same s g 1 (by omega), hhi, hlo]

theorem discard_pages (s : State) (b : Bool) : PagesBut [0x070 + i / 4] s (discard s i g b) := by
  have hwords : WordsBut (g.word :: eventWords (0x070 + i / 4)) s (discard s i g b) :=
    (((WordsBut.refl _ s).fadd g 1 hg.high List.mem_cons_self).setEvent _ _ fun w hw => List.mem_cons_of_mem _ hw).of_regs rfl
  refine hwords.pages fun w hw => ?_
  rcases List.mem_cons.1 hw with rfl | hw
  · simp [hg.page]
  · simp only [eventWords, List.mem_cons, List.not_mem_nil, or_false] at hw ⊢
    rcases hw with rfl | rfl | rfl | rfl <;> rfl

end

theorem discard_state (s : State) (i : Nat) (g : Fld) (b : Bool) :
    discard s i g b = { s with
      regs := (discard s i g b).regs, safety := { s.safety with bus := (discard s i g b).safety.bus }
      outbox := (discard s i g b).outbox } := by
  unfold discard raise raiseWith
  dsimp only
  rw [setEvent_state, fadd_eq]

theorem discard_event (s : State) (i : Nat) (g : Fld) : HasEvent (discard s i g true) (0x070 + i / 4) (8 + i % 4) :=
  setEvent_hasEvent _ _ (show 8 + i % 4 < 32 by omega)

theorem discard_onBus (s : State) (i : Nat) (g : Fld) (b : Bool) : OnBus (discard s i g b) 0x0A (0x070 + i / 4) :=
  ⟨_, List.mem_append_right _ List.mem_cons_self, rfl, rfl⟩

/-- A discard at a filter of a port: its counter, the filter's STRUCT event, and the fault, all in the port's page (R381). -/
theorem discard_report {port f : Nat} {g : Fld} (hg : DiscardCount port g) (hf : f < 4) (s : State) :
    fget (discard s (filterNo port f) g true) g = (fget s g + 1) % 2 ^ 32 ∧
      HasEvent (discard s (filterNo port f) g true) (0x070 + port) (8 + f) ∧
      OnBus (discard s (filterNo port f) g true) 0x0A (0x070 + port) ∧
      PagesBut [0x070 + port] s (discard s (filterNo port f) g true) := by
  have hport : filterNo port f / 4 = port := filterNo_div hf
  have hevent := discard_event s (filterNo port f) g
  have hbus := discard_onBus s (filterNo port f) g true
  have hg' : DiscardCount (filterNo port f / 4) g := by rwa [hport]
  have hpages := discard_pages hg' s true
  rw [hport] at hevent hbus hpages
  rw [filterNo_mod hf] at hevent
  exact ⟨discard_count hg' s true, hevent, hbus, hpages⟩

theorem discard_filterAt (s : State) (i : Nat) (g : Fld) (b : Bool) (j : Nat) : filterAt (discard s i g b) j = filterAt s j := by
  rw [discard_state]
  rfl

/-! ### The lanes around a packet -/

theorem takePhy_status (s : State) (port : Nat) (x : PhyIn) : PortStatus port s (takePhy s port x) := by
  have hactive : (Fd.intake_HS_ACTIVE port).word ∈ portWords port := List.mem_cons_self
  unfold takePhy
  dsimp only
  split
  · exact ((PortStatus.refl port s).fput (Fd.intake_DESKEW_DONE port) _ (Nat.le_of_ble_eq_true rfl) hactive).fput _ _
      (Nat.le_of_ble_eq_true rfl) hactive
  · exact (PortStatus.refl port s).fput _ _ (Nat.le_of_ble_eq_true rfl) hactive

theorem b2n_mod_two (b : Bool) : b2n b % 2 = b2n b := by cases b <;> rfl

theorem takePhy_active (s : State) (port : Nat) (x : PhyIn) :
    fget (takePhy s port x) (Fd.intake_HS_ACTIVE port) = b2n x.hsAfter := by
  unfold takePhy
  dsimp only
  rw [fget_fput_same _ (Fd.intake_HS_ACTIVE port) _ ⟨Nat.le_refl _, Nat.le_of_ble_eq_true rfl⟩]
  exact b2n_mod_two _

theorem takePhy_deskew (s : State) (port : Nat) (x : PhyIn) :
    fget (takePhy s port x) (Fd.intake_DESKEW_DONE port) = (x.deskew.map b2n).getD (fget s (Fd.intake_DESKEW_DONE port)) := by
  have hok : (Fd.intake_DESKEW_DONE port).ok := ⟨Nat.le_refl _, Nat.le_of_ble_eq_true rfl⟩
  unfold takePhy
  dsimp only
  rw [fget_fput_other _ (Fd.intake_HS_ACTIVE port) (Fd.intake_DESKEW_DONE port) _ ⟨Nat.le_refl _, Nat.le_of_ble_eq_true rfl⟩ hok
    (.inr ⟨rfl, rfl, .inr (Nat.le_of_ble_eq_true rfl)⟩)]
  cases x.deskew with
  | none => rfl
  | some d =>
    rw [fget_fput_same _ _ _ hok]
    exact b2n_mod_two _

/-- A packet with a good header does what it brings (R367). -/
theorem takeHeader_good {s : State} {port : Nat} {x : PhyIn} (hon : fget s (Fd.intake_ENABLE port) = 1) (hx : x.header = .good)
    (k : State → State) : takeHeader s port x k = .next (k (takePhy s port x)) := by
  simp [takeHeader, hon, hx]

/-! ### An item that passes through the empty line FIFO -/

theorem fifoFill_of_idle {s : State} {port : Nat} (h : PortIdle s port) : fifoFill s port = 0 := by
  have hdue : (List.range 4).filter (fun f => (filterAt s (filterNo port f)).due.isSome) = [] := by
    simpa [injecting, List.filter_eq_nil_iff] using h.injected
  simp [fifoFill, h.empty, hdue]

/-- FIFO_HIGH_WATER after `n` bytes have been in the FIFO (R394). -/
def notedPeak (s : State) (port n : Nat) : State :=
  fput s (Fd.intake_FIFO_HIGH_WATER port) (max (fget s (Fd.intake_FIFO_HIGH_WATER port)) (ceilDiv n 64))

theorem notedPeak_words (s : State) (port n : Nat) : WordsBut [(Fd.intake_FIFO_HIGH_WATER port).word] s (notedPeak s port n) :=
  (WordsBut.refl _ s).fput _ _ (Nat.le_of_ble_eq_true rfl) List.mem_cons_self

theorem notedPeak_status (s : State) (port n : Nat) : PortStatus port s (notedPeak s port n) :=
  (PortStatus.refl port s).fput _ _ (Nat.le_of_ble_eq_true rfl) (by simp)

theorem drainFifo_one {s : State} {port : Nat} {x : FifoItem} (h : fifoAt s port = [x]) (hw : itemWaits s port x = false) :
    drainPort s port = takeItem (setFifo s port []) x := by
  simp [drainPort, drainFifo, h, hw]

theorem fifoAt_setFifo {s : State} {port : Nat} (hp : port < s.fifos.length) (l : List FifoItem) :
    fifoAt (setFifo s port l) port = l := by
  simp [fifoAt, setFifo, hp]

theorem itemWaits_setFifo (s : State) (port : Nat) (l : List FifoItem) (x : FifoItem) :
    itemWaits (setFifo s port l) port x = itemWaits s port x := by
  cases x <;> rfl

theorem setFifo_of_empty {s : State} {port : Nat} (hp : port < s.fifos.length) (h : fifoAt s port = []) (l : List FifoItem) :
    setFifo (setFifo s port l) port [] = s := by
  have hget : s.fifos[port] = [] := by simpa [fifoAt, hp] using h
  unfold setFifo
  dsimp only
  rw [List.set_set, ← hget, List.set_getElem_self]

/-- On an idle port an item leaves the line FIFO as it enters it (R375). -/
theorem pushItem_of_idle {s : State} {port : Nat} {x : FifoItem} (hp : port < s.fifos.length) (h : PortIdle s port)
    (harr : (filterAt s x.filter).arr = .frame) (hroom : x.room ≤ 65536) (hwait : itemWaits s port x = false) :
    pushItem port s x = takeItem (notedPeak s port x.room) x := by
  have hfill : fifoFill (setFifo s port [x]) port = x.room := by
    have hidle := fifoFill_of_idle h
    unfold fifoFill at hidle ⊢
    rw [fifoAt_setFifo hp]
    have hdue : 256 * ((List.range 4).filter fun f => (filterAt s (filterNo port f)).due.isSome).length = 0 := by omega
    exact (congrArg (0 + x.room + ·) hdue).trans (by omega)
  have hpeak : notePeak (setFifo s port [x]) port = notedPeak (setFifo s port [x]) port x.room := by
    unfold notePeak notedPeak
    rw [hfill]
  have hstatus := notedPeak_status (setFifo s port [x]) port x.room
  have hleave : setFifo (notedPeak (setFifo s port [x]) port x.room) port [] = notedPeak s port x.room := by
    have hback := setFifo_of_empty hp h.empty [x]
    calc setFifo (notedPeak (setFifo s port [x]) port x.room) port []
        = notedPeak (setFifo (setFifo s port [x]) port []) port x.room := rfl
      _ = notedPeak s port x.room := by rw [hback]
  unfold pushItem
  rw [if_neg (by simp [harr]), if_neg (by rw [fifoFill_of_idle h]; omega), h.empty, List.nil_append, hpeak,
    drainFifo_one (by rw [hstatus.fifoAt, fifoAt_setFifo hp]) (by rw [hstatus.itemWaits, itemWaits_setFifo, hwait]), hleave]

theorem pushItem_of_notArriving {s : State} {port : Nat} {x : FifoItem} (harr : (filterAt s x.filter).arr ≠ .frame) :
    pushItem port s x = s := by
  simp [pushItem, harr]

theorem pushItem_of_full {s : State} {port : Nat} {x : FifoItem} (harr : (filterAt s x.filter).arr = .frame)
    (hfull : 65536 < fifoFill s port + x.room) : pushItem port s x = overflow s port x.filter := by
  simp [pushItem, harr, hfull]

/-! ### A Frame Start -/

/-- The filter that a packet on a port is for. -/
theorem lt_of_filtersOfVc {s : State} {port vc f : Nat} (h : filtersOfVc s port vc = [f]) : f < 4 := by
  have hmem : f ∈ filtersOfVc s port vc := by simp [h]
  exact List.mem_range.1 (List.mem_of_mem_filter hmem)

theorem exec_frameStart {port : Fin 8} {phy : PhyIn} {vc : Fin 16} {fnum : W16} {s : State} {f : Nat}
    (hon : fget s (Fd.intake_ENABLE port) = 1) (hphy : phy.header = .good) (hf : filtersOfVc s port vc = [f]) :
    exec (.frameStart port phy vc fnum) s = .next (arriveStart port fnum.toNat (takePhy s port phy) (filterNo port f)) := by
  have hf' : filtersOfVc (takePhy s port phy) port vc = [f] := ((takePhy_status s port phy).filtersOfVc vc).trans hf
  change execFrameStart port phy vc fnum s = _
  rw [execFrameStart, takeHeader_good hon hphy]
  simp [frameStart, hf']

section
variable {s : State} {i fnum pm : Nat} (hi : i < s.filters.length) (hcur : (filterAt s i).cur = none)
include hi hcur

theorem setFilter_curNone : setFilter s i { filterAt s i with cur := none } = s := by
  rw [← hcur]
  exact setFilter_self hi

theorem startFrame_of_slot {k : Nat} (hk : chooseSlot s i = some k) :
    startFrame s i fnum pm = setFilter s i { filterAt s i with cur := some (newFrame fnum pm k false) } := by
  simp only [startFrame, hcur, Option.any_none, Bool.false_eq_true, if_false, setFilter_curNone hi hcur, hk]

theorem startFrame_of_noSlot (hk : chooseSlot s i = none) :
    startFrame s i fnum pm = setFilter (discard s i (Fd.intake_NO_SLOT (i / 4) (i % 4)) true) i
      { filterAt s i with cur := some (newFrame fnum pm 8 true) } := by
  simp only [startFrame, hcur, Option.any_none, Bool.false_eq_true, if_false, setFilter_curNone hi hcur, hk]

end

theorem portWords_pages {port : Nat} {s t : State} (h : WordsBut (portWords port) s t) : PagesBut [0x070 + port] s t :=
  h.pages fun w hw => by
    simp only [portWords, List.mem_cons, List.not_mem_nil, or_false] at hw
    rcases hw with rfl | rfl <;> simp [Fd.intake_HS_ACTIVE, Fd.intake_FIFO_HIGH_WATER]

/-- Whether packets now arriving belong to a frame changes nothing in the choice of a slot (R373). -/
theorem chooseSlot_setArr {s : State} {i : Nat} (hi : i < s.filters.length) (a : Arrival) :
    chooseSlot (setFilter s i { filterAt s i with arr := a }) i = chooseSlot s i := by
  have hfree : freeSlots (setFilter s i { filterAt s i with arr := a }) i = freeSlots s i := by
    unfold freeSlots
    rw [filterAt_setFilter_same hi]
    rfl
  unfold chooseSlot
  rw [hfree, filterAt_setFilter_same hi]

/-- A filter's arriving packets belong to a new frame. -/
def arriving (s : State) (i : Nat) : State := setFilter s i { filterAt s i with arr := .frame }

theorem arriving_filterAt_same {s : State} {i : Nat} (hi : i < s.filters.length) :
    filterAt (arriving s i) i = { filterAt s i with arr := .frame } := filterAt_setFilter_same hi _

theorem arriving_filterAt_other (s : State) {i j : Nat} (h : j ≠ i) : filterAt (arriving s i) j = filterAt s j :=
  filterAt_setFilter_other s h _

theorem PortIdle.arriving {s : State} {i p : Nat} (hi : i < s.filters.length) (h : PortIdle s p) : PortIdle (arriving s i) p := by
  have hdue (j : Nat) : (filterAt (Machine.arriving s i) j).due = (filterAt s j).due := by
    by_cases hj : j = i
    · rw [hj, arriving_filterAt_same hi]
    · rw [arriving_filterAt_other s hj]
  refine ⟨h.enabled, h.empty, ?_⟩
  have hinjected := h.injected
  unfold injecting at hinjected ⊢
  simp only [hdue]
  exact hinjected

/-- The state in which a Frame Start leaves an idle port's line FIFO: the lanes noted, and the filter's packets its frame's. -/
def arrived (s : State) (port : Nat) (phy : PhyIn) (i : Nat) : State := notedPeak (arriving (takePhy s port phy) i) port 0

section
variable (s : State) (port : Nat) (phy : PhyIn) (i : Nat)

theorem arrived_words : WordsBut (portWords port) s (arrived s port phy i) :=
  ((takePhy_status s port phy).words.of_regs rfl).trans (notedPeak_status _ _ _).words

theorem arrived_state :
    arrived s port phy i = { s with regs := (arrived s port phy i).regs, filters := (arriving s i).filters } := by
  have hstatus := takePhy_status s port phy
  have harriving : arriving (takePhy s port phy) i =
      { s with regs := (takePhy s port phy).regs, filters := (arriving s i).filters } := by
    unfold arriving
    rw [hstatus.filterAt, setFilter, hstatus.rest]
    rfl
  unfold arrived
  rw [(notedPeak_status _ _ _).rest, harriving]

theorem arrived_filterAt (j : Nat) : filterAt (arrived s port phy i) j = filterAt (arriving s i) j := by
  rw [arrived_state]
  rfl

theorem arrived_filters_length : (arrived s port phy i).filters.length = s.filters.length := by
  rw [arrived_state]
  exact setFilter_length _ _ _

/-- The word of the lanes' state is as the packet left it. -/
theorem arrived_laneField {g : Fld} (hg : g.off = 0x044) : fget (arrived s port phy i) g = fget (takePhy s port phy) g :=
  (notedPeak_words _ _ _).fget g (by omega) (by simp [Fld.word, Fd.intake_FIFO_HIGH_WATER, hg])

theorem arrived_chooseSlot (hi : i < s.filters.length) : chooseSlot (arrived s port phy i) i = chooseSlot s i := by
  have hstatus := takePhy_status s port phy
  have hi' : i < (takePhy s port phy).filters.length := by
    rw [hstatus.rest]
    exact hi
  unfold arrived
  rw [(notedPeak_status _ _ _).chooseSlot, arriving, chooseSlot_setArr hi', hstatus.chooseSlot]

end

section
variable {port : Fin 8} {phy : PhyIn} {vc : Fin 16} {fnum : W16} {f : Nat} {s : State}

theorem Shaped.filterNo_lt (hs : Shaped s) (hf : f < 4) : filterNo port f < s.filters.length := by
  rw [hs.filters]
  exact Machine.filterNo_lt port.isLt hf

/-- A Frame Start on an idle port of a READY Corod begins its frame at once (R28, R375). -/
theorem exec_frameStart_of_ready (hs : Shaped s) (hidle : PortIdle s port) (hphy : phy.header = .good)
    (hf : filtersOfVc s port vc = [f]) (hready : s.boot.ready = true) :
    exec (.frameStart port phy vc fnum) s =
      .next (startFrame (arrived s port phy (filterNo port f)) (filterNo port f) fnum.toNat (now s)) := by
  have hstatus := takePhy_status s port phy
  have hi : filterNo port f < (takePhy s port phy).filters.length := by
    rw [hstatus.rest]
    exact hs.filterNo_lt (lt_of_filtersOfVc hf)
  have hfifo : (port : Nat) < (arriving (takePhy s port phy) (filterNo port f)).fifos.length := by
    rw [arriving, setFilter, hstatus.rest, hs.fifos]
    exact port.isLt
  have hboot : (takePhy s port phy).boot.ready = true := by
    rw [hstatus.rest]
    exact hready
  have hnow : now (takePhy s port phy) = now s := by
    rw [hstatus.rest]
    rfl
  have hin := (hstatus.portIdle hidle).arriving hi
  rw [exec_frameStart hidle.enabled hphy hf, arriveStart, if_neg (by simp [hboot]), hnow]
  exact congrArg Host.Outcome.next (pushItem_of_idle hfifo hin (congrArg FilterSt.arr (arriving_filterAt_same hi))
    (Nat.zero_le _) hin.injected)

section
variable (hs : Shaped s) (hidle : PortIdle s port) (hphy : phy.header = .good) (hf : filtersOfVc s port vc = [f])
include hs hidle hphy hf

theorem frameStart_takesSlot {k : Nat} (hready : s.boot.ready = true) (hcur : (filterAt s (filterNo port f)).cur = none)
    (hk : chooseSlot s (filterNo port f) = some k) :
    Runs (.frameStart port phy vc fnum) s fun t =>
      filterAt t (filterNo port f) = { filterAt s (filterNo port f) with
        cur := some ⟨fnum.toNat, now s, k, 0, 0xFFFFFFFF, 0, [], false, false⟩, arr := .frame } ∧
      (∀ i < 32, i ≠ filterNo port f → filterAt t i = filterAt s i) ∧
      fget t (Fd.intake_HS_ACTIVE port) = b2n phy.hsAfter ∧
      fget t (Fd.intake_DESKEW_DONE port) = (phy.deskew.map b2n).getD (fget s (Fd.intake_DESKEW_DONE port)) ∧
      WordsBut (portWords port) s t ∧ t = { s with regs := t.regs, filters := t.filters } := by
  have hi := hs.filterNo_lt (port := port) (lt_of_filtersOfVc hf)
  have hsame := (arrived_filterAt s port phy _ _).trans (arriving_filterAt_same hi)
  have hlen : filterNo port f < (arrived s port phy (filterNo port f)).filters.length := by rwa [arrived_filters_length]
  refine ⟨_, exec_frameStart_of_ready hs hidle hphy hf hready, ?_⟩
  rw [startFrame_of_slot hlen (by rw [hsame]; exact hcur) ((arrived_chooseSlot s port phy _ hi).trans hk)]
  refine ⟨?_, fun j _ hj => ?_, ?_, ?_, (arrived_words _ _ _ _).of_regs rfl, ?_⟩
  · rw [filterAt_setFilter_same hlen, hsame]
    rfl
  · rw [filterAt_setFilter_other _ hj, arrived_filterAt, arriving_filterAt_other _ hj]
  · rw [setFilter_fget, arrived_laneField _ _ _ _ rfl, takePhy_active]
  · rw [setFilter_fget, arrived_laneField _ _ _ _ rfl, takePhy_deskew]
  · rw [arrived_state]
    rfl

theorem frameStart_withoutSlot (hready : s.boot.ready = true) (hcur : (filterAt s (filterNo port f)).cur = none)
    (hk : chooseSlot s (filterNo port f) = none) :
    Runs (.frameStart port phy vc fnum) s fun t =>
      fget t (Fd.intake_NO_SLOT port f) = (fget s (Fd.intake_NO_SLOT port f) + 1) % 2 ^ 32 ∧
      HasEvent t (0x070 + port) (8 + f) ∧ OnBus t 0x0A (0x070 + port) ∧
      (∀ c ∈ (filterAt t (filterNo port f)).cur, c.dead = true) ∧ PagesBut [0x070 + port.val] s t ∧
      t = { s with regs := t.regs, filters := t.filters, safety := { s.safety with bus := t.safety.bus }
                   outbox := t.outbox } := by
  have hf4 := lt_of_filtersOfVc hf
  have hi := hs.filterNo_lt (port := port) hf4
  have hsame := (arrived_filterAt s port phy _ _).trans (arriving_filterAt_same hi)
  have hlen : filterNo port f < (arrived s port phy (filterNo port f)).filters.length := by rwa [arrived_filters_length]
  have hwords := arrived_words s port phy (filterNo port f)
  have hg : DiscardCount port (Fd.intake_NO_SLOT port f) := discardCount_filter (by decide) (by decide) hf4
  obtain ⟨hcount, hevent, hbus, hpages⟩ := discard_report hg hf4 (arrived s port phy (filterNo port f))
  refine ⟨_, exec_frameStart_of_ready hs hidle hphy hf hready, ?_⟩
  rw [startFrame_of_noSlot hlen (by rw [hsame]; exact hcur) ((arrived_chooseSlot s port phy _ hi).trans hk), filterNo_div hf4,
    filterNo_mod hf4]
  refine ⟨?_, hevent, hbus, ?_, (portWords_pages hwords).trans hpages, ?_⟩
  · rw [setFilter_fget, hcount, hwords.fget _ hg.high hg.not_portWord]
  · rw [filterAt_setFilter_same (by rw [discard_state]; exact hlen)]
    simp [newFrame]
  · rw [discard_state, arrived_state]
    rfl

theorem frameStart_beforeReady (hready : s.boot.ready = false) :
    Runs (.frameStart port phy vc fnum) s fun t =>
      fget t (Fd.intake_PRE_READY_DISCARD port f) = (fget s (Fd.intake_PRE_READY_DISCARD port f) + 1) % 2 ^ 32 ∧
      filterAt t (filterNo port f) = { filterAt s (filterNo port f) with arr := .dropped } ∧
      WordsBut ((Fd.intake_PRE_READY_DISCARD port f).word :: portWords port) s t ∧
      t = { s with regs := t.regs, filters := t.filters } := by
  have hf4 := lt_of_filtersOfVc hf
  have hstatus := takePhy_status s port phy
  have hi : filterNo port f < (takePhy s port phy).filters.length := by
    rw [hstatus.rest]
    exact hs.filterNo_lt hf4
  have hboot : (takePhy s port phy).boot.ready = false := by
    rw [hstatus.rest]
    exact hready
  have hg : DiscardCount port (Fd.intake_PRE_READY_DISCARD port f) := discardCount_filter (by decide) (by decide) hf4
  refine ⟨_, exec_frameStart hidle.enabled hphy hf, ?_⟩
  rw [arriveStart, if_pos (by simp [hboot]), filterNo_div hf4, filterNo_mod hf4]
  refine ⟨?_, ?_, ?_, ?_⟩
  · rw [fget_fadd_same _ _ _ hg.ok, setFilter_fget, hstatus.words.fget _ hg.high hg.not_portWord]
    rfl
  · exact (filterAt_setFilter_same hi _).trans (by rw [hstatus.filterAt])
  · exact ((hstatus.words.mono fun w hw => List.mem_cons_of_mem _ hw).of_regs rfl).fadd _ _ hg.high List.mem_cons_self
  · rw [fadd_eq, setFilter, hstatus.rest]

end

end

/-! ### Long packets -/

/-- What a long packet with a good CRC brings a filter (R378). -/
def packetItem (pk : LongPacket) (i : Nat) : FifoItem := if pk.dt = 0x12 then .tag i pk.payload else .line i pk.payload

theorem packetItem_filter (pk : LongPacket) (i : Nat) : (packetItem pk i).filter = i := by
  unfold packetItem
  split <;> rfl

theorem packetItem_room (pk : LongPacket) (i : Nat) : (packetItem pk i).room = pk.payload.length := by
  unfold packetItem
  split <;> rfl

section
variable {port : Fin 8} {phy : PhyIn} {pk : LongPacket} {f : Nat} {s : State}

theorem lt_of_packetFilters {vc dt : Nat} (h : packetFilters s port vc dt = [f]) : f < 4 := by
  have hmem : f ∈ packetFilters s port vc dt := by simp [h]
  have hvc : f ∈ filtersOfVc s port vc := by
    unfold packetFilters at hmem
    dsimp only at hmem
    split at hmem <;> exact List.mem_of_mem_filter hmem
  exact List.mem_range.1 (List.mem_of_mem_filter hvc)

theorem exec_longPacket (hon : fget s (Fd.intake_ENABLE port) = 1) (hphy : phy.header = .good) (hcrc : pk.crcOk = true)
    (hf : packetFilters s port pk.vc pk.dt.toNat = [f]) :
    exec (.longPacket port phy pk) s = .next (pushItem port (takePhy s port phy) (packetItem pk (filterNo port f))) := by
  have hf' := ((takePhy_status s port phy).packetFilters pk.vc pk.dt.toNat).trans hf
  change execLongPacket port phy pk s = _
  rw [execLongPacket, takeHeader_good hon hphy]
  simp [longPacket, hcrc, hf', packetItems, packetItem]

/-- A long packet on an idle port takes its effect at once, in a state in which only the port's status words have changed. -/
theorem exec_longPacket_of_idle (hs : Shaped s) (hidle : PortIdle s port) (hphy : phy.header = .good) (hcrc : pk.crcOk = true)
    (hlen : pk.payload.length ≤ 65536) (hf : packetFilters s port pk.vc pk.dt.toNat = [f])
    (harr : (filterAt s (filterNo port f)).arr = .frame) (hwait : itemWaits s port (packetItem pk (filterNo port f)) = false) :
    ∃ u, PortStatus port s u ∧ exec (.longPacket port phy pk) s = .next (takeItem u (packetItem pk (filterNo port f))) := by
  have hstatus := takePhy_status s port phy
  have hfifo : (port : Nat) < (takePhy s port phy).fifos.length := by
    rw [hstatus.rest, hs.fifos]
    exact port.isLt
  refine ⟨_, hstatus.trans (notedPeak_status _ _ (packetItem pk (filterNo port f)).room), ?_⟩
  rw [exec_longPacket hidle.enabled hphy hcrc hf]
  refine congrArg Host.Outcome.next (pushItem_of_idle hfifo (hstatus.portIdle hidle) ?_ ?_ ?_)
  · rw [packetItem_filter, hstatus.filterAt, harr]
  · rwa [packetItem_room]
  · rw [hstatus.itemWaits, hwait]

/-- A line of a frame whose slot can be written does not wait (R248). -/
theorem itemWaits_line {i : Nat} {c : FrameSt} (hcur : (filterAt s i).cur = some c) (hfree : slotFree s i c.slot = true)
    (p : Nat) (b : List Byte) : itemWaits s p (.line i b) = false := by
  simp [itemWaits, hcur, hfree]

end

/-! ### Lines -/

section
variable {s : State} {i : Nat} {c : FrameSt} {b : List Byte} (hcur : (filterAt s i).cur = some c) (hdead : c.dead = false)
include hcur hdead

/-- The frame after one more line that has been written at its place. -/
def FrameSt.withLine (c : FrameSt) (b : List Byte) : FrameSt :=
  { c with lines := c.lines + 1, crc := b.foldl crc32cByte c.crc }

theorem takeLine_writes (hlen : b.length = lineBytes s i) (hlines : c.lines < fget s (Fd.intake_HEIGHT (i / 4) (i % 4)))
    (hperm : rangePermitted s (fget s (Fd.intake_PID (i / 4) (i % 4))) (slotBase s i c.slot + c.lines * lineBytes s i)
      b.length = true)
    (hpool : pooled s (fget s (Fd.intake_PID (i / 4) (i % 4))) (slotBase s i c.slot + c.lines * lineBytes s i) = false) :
    takeLine b s i = setFilter (writeRaw s (slotBase s i c.slot + c.lines * lineBytes s i) b
        (fget s (Fd.intake_SCLASS (i / 4) (i % 4))) (fget s (Fd.intake_PID (i / 4) (i % 4)))) i
      { filterAt s i with cur := some (c.withLine b) } := by
  have hkept (a sclass pid : Nat) : filterAt (writeRaw s a b sclass pid) i = filterAt s i := by
    rw [writeRaw_marks]
    rfl
  have hok : (Access.ok != Access.ok) = false := rfl
  rw [takeLine, hcur]
  dsimp only
  rw [if_neg (by simp [hdead]), if_neg (by simp [hlen, hlines]), devWrite_of_direct hperm hpool]
  dsimp only
  rw [hkept, hok, Bool.or_false, FrameSt.withLine]

/-- A line too many, or of another length, breaks the frame (R378). -/
theorem takeLine_breaks (h : b.length ≠ lineBytes s i ∨ fget s (Fd.intake_HEIGHT (i / 4) (i % 4)) ≤ c.lines) :
    takeLine b s i = setFilter s i { filterAt s i with cur := some { c with lines := c.lines + 1, broken := true } } := by
  rw [takeLine, hcur]
  dsimp only
  rw [if_neg (by simp [hdead]), if_pos (by simpa using h)]

end

theorem takeTag_counts {s : State} {i : Nat} {c : FrameSt} (hcur : (filterAt s i).cur = some c) (b : List Byte) :
    takeTag b s i = setFilter s i { filterAt s i with cur := some { c with tags := c.tags + 1, tag := bytesAt b 0 16 } } := by
  simp only [takeTag, hcur, Option.map_some]

/-! ### A filter given a state while the port's status words change -/

section
variable {port : Nat} {s u : State} {i : Nat} (h : PortStatus port s u)
include h

theorem PortStatus.setFilter_words (x : FilterSt) : WordsBut (portWords port) s (Machine.setFilter u i x) := h.words.of_regs rfl

theorem PortStatus.setFilter_state (x : FilterSt) :
    Machine.setFilter u i x = { s with
      regs := (Machine.setFilter u i x).regs, filters := (Machine.setFilter u i x).filters } := by
  unfold Machine.setFilter
  rw [h.rest]

end

section
variable {port : Fin 8} {phy : PhyIn} {pk : LongPacket} {f : Nat} {c : FrameSt} {s : State}
variable (hs : Shaped s) (hidle : PortIdle s port) (hphy : phy.header = .good) (hcrc : pk.crcOk = true)
  (hlen : pk.payload.length ≤ 65536) (harr : (filterAt s (filterNo port f)).arr = .frame)
  (hcur : (filterAt s (filterNo port f)).cur = some c)
include hs hidle hphy hcrc hlen harr hcur

theorem longPacket_tag (hdt : pk.dt = 0x12) (hf : packetFilters s port pk.vc 0x12 = [f]) :
    Runs (.longPacket port phy pk) s fun t =>
      filterAt t (filterNo port f) = { filterAt s (filterNo port f) with
        cur := some { c with tags := c.tags + 1, tag := bytesAt pk.payload 0 16 } } ∧
      WordsBut (portWords port) s t ∧ t = { s with regs := t.regs, filters := t.filters } := by
  have hitem : packetItem pk (filterNo port f) = .tag (filterNo port f) pk.payload := if_pos hdt
  have hf' : packetFilters s port pk.vc pk.dt.toNat = [f] := by rw [hdt]; exact hf
  obtain ⟨u, hu, hrun⟩ := exec_longPacket_of_idle hs hidle hphy hcrc hlen hf' harr (by rw [hitem]; rfl)
  have hi : filterNo port f < u.filters.length := by
    rw [hu.rest]
    exact hs.filterNo_lt (lt_of_packetFilters hf)
  refine ⟨_, hrun, ?_⟩
  rw [hitem, takeItem, takeTag_counts (by rw [hu.filterAt, hcur]), hu.filterAt]
  exact ⟨filterAt_setFilter_same hi _, hu.setFilter_words _, hu.setFilter_state _⟩

variable (hdt : pk.dt ≠ 0x12) (hf : packetFilters s port pk.vc pk.dt.toNat = [f]) (hdead : c.dead = false)
  (hfree : slotFree s (filterNo port f) c.slot = true)
include hdt hf hdead hfree

theorem longPacket_breaks
    (hbad : pk.payload.length ≠ lineBytes s (filterNo port f) ∨ fget s (Fd.intake_HEIGHT port f) ≤ c.lines) :
    Runs (.longPacket port phy pk) s fun t =>
      filterAt t (filterNo port f) = { filterAt s (filterNo port f) with
        cur := some { c with lines := c.lines + 1, broken := true } } ∧
      WordsBut (portWords port) s t ∧ t = { s with regs := t.regs, filters := t.filters } := by
  have hf4 := lt_of_packetFilters hf
  have hitem : packetItem pk (filterNo port f) = .line (filterNo port f) pk.payload := if_neg hdt
  obtain ⟨u, hu, hrun⟩ := exec_longPacket_of_idle hs hidle hphy hcrc hlen hf harr
    (by rw [hitem]; exact itemWaits_line hcur hfree _ _)
  have hi : filterNo port f < u.filters.length := by
    rw [hu.rest]
    exact hs.filterNo_lt hf4
  refine ⟨_, hrun, ?_⟩
  rw [hitem, takeItem, takeLine_breaks (by rw [hu.filterAt, hcur]) hdead
    (by rwa [hu.lineBytes, hu.height, filterNo_div hf4, filterNo_mod hf4]), hu.filterAt]
  exact ⟨filterAt_setFilter_same hi _, hu.setFilter_words _, hu.setFilter_state _⟩

theorem longPacket_writesLine (hmem : Canonical s) (hline : pk.payload.length = lineBytes s (filterNo port f))
    (hlines : c.lines < fget s (Fd.intake_HEIGHT port f))
    (hperm : rangePermitted s (fget s (Fd.intake_PID port f))
      (slotBase s (filterNo port f) c.slot + c.lines * lineBytes s (filterNo port f)) pk.payload.length = true)
    (hpool : pooled s (fget s (Fd.intake_PID port f))
      (slotBase s (filterNo port f) c.slot + c.lines * lineBytes s (filterNo port f)) = false) :
    Runs (.longPacket port phy pk) s fun t =>
      filterAt t (filterNo port f) = { filterAt s (filterNo port f) with
        cur := some { c with lines := c.lines + 1, crc := pk.payload.foldl crc32cByte c.crc } } ∧
      (∀ i < 32, i ≠ filterNo port f → filterAt t i = filterAt s i) ∧
      memBytes t (slotBase s (filterNo port f) c.slot + c.lines * lineBytes s (filterNo port f)) pk.payload.length =
        pk.payload ∧
      BytesBut (slotBase s (filterNo port f) c.slot + c.lines * lineBytes s (filterNo port f)) pk.payload.length s t ∧
      t = { s with regs := t.regs, mem := t.mem, ecc := t.ecc, filters := t.filters, ledger := t.ledger, outbox := t.outbox
                   safety := { s.safety with corr := t.safety.corr, bus := t.safety.bus } } := by
  have hf4 := lt_of_packetFilters hf
  have hitem : packetItem pk (filterNo port f) = .line (filterNo port f) pk.payload := if_neg hdt
  obtain ⟨u, hu, hrun⟩ := exec_longPacket_of_idle hs hidle hphy hcrc hlen hf harr
    (by rw [hitem]; exact itemWaits_line hcur hfree _ _)
  have hi : filterNo port f < u.filters.length := by
    rw [hu.rest]
    exact hs.filterNo_lt hf4
  have hpid : fget s (Fd.intake_PID port f) < 16 := fget_lt_card s _
  have hport : filterNo port f / 4 = port := filterNo_div hf4
  have hno : filterNo port f % 4 = f := filterNo_mod hf4
  have hmemu : u.mem = s.mem := by rw [hu.rest]
  have hwf : Memory.wf u.mem := by rw [hmemu]; exact hmem.mem
  refine ⟨_, hrun, ?_⟩
  rw [hitem, takeItem, takeLine_writes (by rw [hu.filterAt, hcur]) hdead (by rw [hu.lineBytes, hline])
    (by rw [hu.height, hport, hno]; exact hlines)
    (by rw [hu.pid, hu.slotBase, hu.lineBytes, hu.rangePermitted port.isLt (by rwa [hport, hno]), hport, hno]; exact hperm)
    (by rw [hu.pid, hu.slotBase, hu.lineBytes, hu.pooled, hport, hno]; exact hpool), hu.filterAt, hu.slotBase, hu.lineBytes]
  generalize slotBase s (filterNo port f) c.slot + c.lines * lineBytes s (filterNo port f) = a
  have hmarks := writeRaw_marks u a pk.payload (fget u (Fd.intake_SCLASS (filterNo port f / 4) (filterNo port f % 4)))
    (fget u (Fd.intake_PID (filterNo port f / 4) (filterNo port f % 4)))
  have hbytes := memBytes_writeRaw hwf a pk.payload (fget u (Fd.intake_SCLASS (filterNo port f / 4) (filterNo port f % 4)))
    (fget u (Fd.intake_PID (filterNo port f / 4) (filterNo port f % 4)))
  have hbut := writeRaw_bytesBut hwf a pk.payload (fget u (Fd.intake_SCLASS (filterNo port f / 4) (filterNo port f % 4)))
    (fget u (Fd.intake_PID (filterNo port f / 4) (filterNo port f % 4)))
  generalize writeRaw u a pk.payload _ _ = w at hmarks hbytes hbut ⊢
  refine ⟨filterAt_setFilter_same (by rw [hmarks]; exact hi) _, fun j _ hj => ?_, hbytes, fun x hx => ?_, ?_⟩
  · rw [filterAt_setFilter_other _ hj, ← hu.filterAt, hmarks]
    rfl
  · calc memByte w x = memByte u x := hbut x hx
      _ = memByte s x := by unfold memByte; rw [hmemu]
  · unfold setFilter
    rw [hmarks, hu.rest]

end

/-! ### A frame that would overflow the line FIFO -/

theorem overflow_eq (s : State) (port i : Nat) :
    ∃ x l, x.arr = .dropped ∧
      overflow s port i = discard (setFifo (setFilter s i x) port l) i (Fd.intake_OVERFLOW (i / 4) (i % 4)) true := by
  unfold overflow
  exact ⟨_, _, rfl, rfl⟩

theorem longPacket_overflows {port : Fin 8} {phy : PhyIn} {pk : LongPacket} {f : Nat} {s : State} (hs : Shaped s)
    (hon : fget s (Fd.intake_ENABLE port) = 1) (hphy : phy.header = .good) (hcrc : pk.crcOk = true)
    (hf : packetFilters s port pk.vc pk.dt.toNat = [f]) (harr : (filterAt s (filterNo port f)).arr = .frame)
    (hfull : 65536 < fifoFill s port + pk.payload.length) :
    Runs (.longPacket port phy pk) s fun t =>
      fget t (Fd.intake_OVERFLOW port f) = (fget s (Fd.intake_OVERFLOW port f) + 1) % 2 ^ 32 ∧
      HasEvent t (0x070 + port) (8 + f) ∧ OnBus t 0x0A (0x070 + port) ∧
      (filterAt t (filterNo port f)).arr = .dropped ∧ PagesBut [0x070 + port.val] s t ∧
      t = { s with regs := t.regs, filters := t.filters, fifos := t.fifos
                   safety := { s.safety with bus := t.safety.bus }, outbox := t.outbox } := by
  have hf4 := lt_of_packetFilters hf
  have hstatus := takePhy_status s port phy
  have hi : filterNo port f < (takePhy s port phy).filters.length := by
    rw [hstatus.rest]
    exact hs.filterNo_lt hf4
  have hfill : fifoFill (takePhy s port phy) port = fifoFill s port := by
    rw [hstatus.rest]
    rfl
  have hg : DiscardCount port (Fd.intake_OVERFLOW port f) := discardCount_filter (by decide) (by decide) hf4
  obtain ⟨x, l, hx, hover⟩ := overflow_eq (takePhy s port phy) port (filterNo port f)
  rw [filterNo_div hf4, filterNo_mod hf4] at hover
  have hbefore : WordsBut (portWords port) s (setFifo (setFilter (takePhy s port phy) (filterNo port f) x) port l) :=
    hstatus.words.of_regs rfl
  obtain ⟨hcount, hevent, hbus, hpages⟩ :=
    discard_report hg hf4 (setFifo (setFilter (takePhy s port phy) (filterNo port f) x) port l)
  refine ⟨_, exec_longPacket hon hphy hcrc hf, ?_⟩
  rw [pushItem_of_full (by rw [packetItem_filter, hstatus.filterAt, harr]) (by rwa [packetItem_room, hfill]),
    packetItem_filter, hover]
  refine ⟨?_, hevent, hbus, ?_, (portWords_pages hbefore).trans hpages, ?_⟩
  · rw [hcount, hbefore.fget _ hg.high hg.not_portWord]
  · rw [discard_filterAt]
    exact (congrArg FilterSt.arr (filterAt_setFilter_same hi x)).trans hx
  · rw [discard_state, setFifo, setFilter, hstatus.rest]

/-! ### A packet with a broken header -/

/-- A filter whose arriving frame, if there is one, is broken (R367, R378). -/
def FilterSt.brokenFrame (x : FilterSt) : FilterSt :=
  if x.arr = .frame then { x with cur := x.cur.map fun c => { c with broken := true } } else x

theorem FilterSt.brokenFrame_due (x : FilterSt) : x.brokenFrame.due = x.due := by
  unfold brokenFrame
  split <;> rfl

theorem FilterSt.brokenFrame_idem (x : FilterSt) : x.brokenFrame.brokenFrame = x.brokenFrame := by
  unfold brokenFrame
  by_cases h : x.arr = .frame
  · simp [h, Option.map_map, Function.comp_def]
  · simp [h]

theorem breakFrame_eq {s : State} {i : Nat} (h : (filterAt s i).arr = .frame) :
    breakFrame s i = setFilter s i (filterAt s i).brokenFrame := by
  simp only [breakFrame, FilterSt.brokenFrame, h, if_true]

/-- The frames arriving at the listed filters are broken, and nothing else has changed but the port's status words. -/
structure FramesBroken (port : Nat) (is : List Nat) (s t : State) : Prop where
  words : WordsBut (portWords port) s t
  rest : t = { s with regs := t.regs, filters := t.filters }
  length : t.filters.length = s.filters.length
  filters : ∀ j, filterAt t j = if j ∈ is then (filterAt s j).brokenFrame else filterAt s j

namespace FramesBroken

theorem refl (port : Nat) (s : State) : FramesBroken port [] s s := ⟨.refl _ s, rfl, rfl, by simp⟩

theorem trans {port : Nat} {is js : List Nat} {a b c : State} (h : FramesBroken port is a b) (k : FramesBroken port js b c) :
    FramesBroken port (is ++ js) a c := by
  refine ⟨h.words.trans k.words, by rw [k.rest, h.rest], k.length.trans h.length, fun j => ?_⟩
  rw [k.filters, h.filters]
  by_cases hi : j ∈ is <;> by_cases hj : j ∈ js <;> simp [hi, hj, FilterSt.brokenFrame_idem]

theorem portIdle {port : Nat} {is : List Nat} {s t : State} (h : FramesBroken port is s t) (k : PortIdle s port) :
    PortIdle t port := by
  have hdue (j : Nat) : (filterAt t j).due = (filterAt s j).due := by
    rw [h.filters]
    split
    · exact FilterSt.brokenFrame_due _
    · rfl
  refine ⟨(h.words.fget (Fd.intake_ENABLE port) (Nat.le_of_ble_eq_true rfl) ?_).trans k.enabled, ?_, ?_⟩
  · simp [Fld.word, Fd.intake_ENABLE, Fd.intake_HS_ACTIVE, Fd.intake_FIFO_HIGH_WATER]
  · rw [h.rest]
    exact k.empty
  · have hinjected := k.injected
    unfold injecting at hinjected ⊢
    simp only [hdue]
    exact hinjected

end FramesBroken

/-- On an idle port a break reaches the frame arriving at its filter at once. -/
theorem pushItem_broken {port i : Nat} {s : State} (hp : port < s.fifos.length) (hi : i < s.filters.length)
    (h : PortIdle s port) :
    FramesBroken port [i] s (pushItem port s (.broken i)) := by
  by_cases harr : (filterAt s i).arr = .frame
  · have hpeak := notedPeak_status s port 0
    have hpush : pushItem port s (.broken i) = setFilter (notedPeak s port 0) i (filterAt s i).brokenFrame := by
      have hbreak := breakFrame_eq ((congrArg FilterSt.arr (hpeak.filterAt i)).trans harr)
      rw [hpeak.filterAt] at hbreak
      exact (pushItem_of_idle (x := .broken i) hp h harr (Nat.zero_le _) rfl).trans hbreak
    rw [hpush]
    refine ⟨hpeak.setFilter_words _, hpeak.setFilter_state _, ?_, fun j => ?_⟩
    · rw [setFilter_length, hpeak.rest]
    · by_cases hj : j = i
      · rw [hj, filterAt_setFilter_same (by rw [hpeak.rest]; exact hi), if_pos List.mem_cons_self]
      · rw [filterAt_setFilter_other _ hj, hpeak.filterAt, if_neg (by simpa using hj)]
  · rw [pushItem_of_notArriving (x := .broken i) harr]
    refine ⟨.refl _ s, rfl, rfl, fun j => ?_⟩
    split
    next hj =>
      obtain rfl := List.mem_singleton.1 hj
      rw [FilterSt.brokenFrame, if_neg harr]
    next => rfl

theorem pushItems_broken {port : Nat} {is : List Nat} {s : State} (hp : port < s.fifos.length)
    (his : ∀ i ∈ is, i < s.filters.length) (h : PortIdle s port) :
    FramesBroken port is s ((is.map FifoItem.broken).foldl (pushItem port) s) := by
  induction is generalizing s with
  | nil => exact .refl port s
  | cons i is ih =>
    have hfirst := pushItem_broken hp (his i List.mem_cons_self) h
    have hfifo : port < (pushItem port s (.broken i)).fifos.length := by
      rw [hfirst.rest]
      exact hp
    have hrest : ∀ j ∈ is, j < (pushItem port s (.broken i)).filters.length := fun j hj => by
      rw [hfirst.length]
      exact his j (List.mem_cons_of_mem _ hj)
    exact hfirst.trans (ih hfifo hrest (hfirst.portIdle h))

theorem exec_longPacket_bad {port : Fin 8} {phy : PhyIn} {pk : LongPacket} {s : State}
    (hon : fget s (Fd.intake_ENABLE port) = 1) (hphy : phy.header = .bad) :
    exec (.longPacket port phy pk) s = .next (((((List.range 4).map (filterNo port)).map FifoItem.broken).foldl (pushItem port)
      (fadd (takePhy s port phy) (Fd.intake_HDR_ECC_UNCORR port) 1))) := by
  change execLongPacket port phy pk s = _
  rw [execLongPacket, takeHeader, if_neg (by omega)]
  simp only [hphy, List.map_map, Function.comp_def]

theorem longPacket_badHeader {port : Fin 8} {phy : PhyIn} {pk : LongPacket} {s : State} (hs : Shaped s) (hidle : PortIdle s port)
    (hphy : phy.header = .bad) :
    Runs (.longPacket port phy pk) s fun t =>
      fget t (Fd.intake_HDR_ECC_UNCORR port) = (fget s (Fd.intake_HDR_ECC_UNCORR port) + 1) % 2 ^ 32 ∧
      (∀ f < 4, (filterAt t (filterNo port f)).cur = if (filterAt s (filterNo port f)).arr = .frame
        then (filterAt s (filterNo port f)).cur.map fun c => { c with broken := true }
        else (filterAt s (filterNo port f)).cur) ∧
      WordsBut ((Fd.intake_HDR_ECC_UNCORR port).word :: portWords port) s t ∧
      t = { s with regs := t.regs, filters := t.filters } := by
  have hstatus := takePhy_status s port phy
  have hok : (Fd.intake_HDR_ECC_UNCORR port).ok := ⟨Nat.zero_le _, Nat.le_of_ble_eq_true rfl⟩
  have hword : (Fd.intake_HDR_ECC_UNCORR port).word ∉ portWords port := by
    simp [Fld.word, Fd.intake_HDR_ECC_UNCORR, Fd.intake_HS_ACTIVE, Fd.intake_FIFO_HIGH_WATER]
  have hcounted : fadd (takePhy s port phy) (Fd.intake_HDR_ECC_UNCORR port) 1 =
      { s with regs := (fadd (takePhy s port phy) (Fd.intake_HDR_ECC_UNCORR port) 1).regs } := by
    rw [fadd_eq, hstatus.rest]
  have hidle' : PortIdle (fadd (takePhy s port phy) (Fd.intake_HDR_ECC_UNCORR port) 1) port := by
    have hin := hstatus.portIdle hidle
    have happart : (Fd.intake_HDR_ECC_UNCORR port).apart (Fd.intake_ENABLE port) :=
      Fld.apart_of_word (Nat.le_of_ble_eq_true rfl) (Nat.le_of_ble_eq_true rfl)
        (by simp [Fld.word, Fd.intake_HDR_ECC_UNCORR, Fd.intake_ENABLE])
    exact ⟨(fget_fadd_other _ _ _ _ hok ⟨Nat.le_refl _, Nat.le_of_ble_eq_true rfl⟩ happart).trans hin.enabled, hin.empty,
      hin.injected⟩
  have hbroken := pushItems_broken (is := (List.range 4).map (filterNo port))
    (s := fadd (takePhy s port phy) (Fd.intake_HDR_ECC_UNCORR port) 1) (port := port)
    (by rw [hcounted, hs.fifos]; exact port.isLt)
    (fun i hi => by
      obtain ⟨f, hf, rfl⟩ := List.mem_map.1 hi
      rw [hcounted]
      exact hs.filterNo_lt (List.mem_range.1 hf))
    hidle'
  have hfilter (j : Nat) : filterAt (fadd (takePhy s port phy) (Fd.intake_HDR_ECC_UNCORR port) 1) j = filterAt s j := by
    rw [hcounted]
    rfl
  refine ⟨_, exec_longPacket_bad hidle.enabled hphy, ?_, fun f hf => ?_, ?_, ?_⟩
  · rw [hbroken.words.fget _ (Nat.le_of_ble_eq_true rfl) hword, fget_fadd_same _ _ _ hok,
      hstatus.words.fget _ (Nat.le_of_ble_eq_true rfl) hword]
    rfl
  · rw [hbroken.filters, if_pos (List.mem_map_of_mem (List.mem_range.2 hf)), hfilter, FilterSt.brokenFrame]
    split <;> rfl
  · exact ((hstatus.words.mono fun w hw => List.mem_cons_of_mem _ hw).fadd _ _ (Nat.le_of_ble_eq_true rfl)
      List.mem_cons_self).trans (hbroken.words.mono fun w hw => List.mem_cons_of_mem _ hw)
  · rw [hbroken.rest, hcounted]

/-! ### A packet of no filter -/

theorem unknownPacket_counts {port : Fin 8} {phy : PhyIn} {vc : Fin 16} {dt : BitVec 6} {s : State}
    (hon : fget s (Fd.intake_ENABLE port) = 1) (hphy : phy.header = .good) (hnone : packetFilters s port vc dt.toNat = []) :
    Runs (.unknownPacket port phy vc dt) s fun t =>
      fget t (Fd.intake_UNKNOWN_PKT_COUNT port) =
        (fget s (Fd.intake_UNKNOWN_PKT_COUNT port) + if lineMark dt.toNat then 0 else 1) % 2 ^ 32 ∧
      WordsBut ((Fd.intake_UNKNOWN_PKT_COUNT port).word :: portWords port) s t ∧ t = { s with regs := t.regs } := by
  have hstatus := takePhy_status s port phy
  have hwords := hstatus.words.mono (vs := (Fd.intake_UNKNOWN_PKT_COUNT port).word :: portWords port) fun w hw =>
    List.mem_cons_of_mem _ hw
  have hcount : fget (takePhy s port phy) (Fd.intake_UNKNOWN_PKT_COUNT port) = fget s (Fd.intake_UNKNOWN_PKT_COUNT port) :=
    hstatus.otherWord _ (o := 0x054) rfl (by decide)
  have hnone' := (hstatus.packetFilters vc dt.toNat).trans hnone
  have hrun : exec (.unknownPacket port phy vc dt) s = .next (if lineMark dt.toNat then takePhy s port phy
      else countUnknown (takePhy s port phy) port) := by
    change execUnknownPacket port phy vc dt s = _
    rw [execUnknownPacket, takeHeader_good hon hphy, hnone']
    cases lineMark dt.toNat <;> rfl
  refine ⟨_, hrun, ?_⟩
  split
  · refine ⟨?_, hwords, hstatus.rest⟩
    rw [hcount, Nat.add_zero]
    exact (Nat.mod_eq_of_lt (fget_lt_card s (Fd.intake_UNKNOWN_PKT_COUNT port))).symm
  · refine ⟨?_, hwords.fadd _ 1 (Nat.le_of_ble_eq_true rfl) List.mem_cons_self, ?_⟩
    · rw [countUnknown, fget_fadd_same _ _ _ ⟨Nat.zero_le _, Nat.le_of_ble_eq_true rfl⟩, hcount]
      rfl
    · rw [countUnknown, fadd_eq, hstatus.rest]

/-- Settles O42: each clause is one packet on a port, mostly an idle one, whose items pass through the empty line FIFO at once. -/
theorem framesAreReceivedIntoTheirSlots : Obligations.FramesAreReceivedIntoTheirSlots := by
  unfold Obligations.FramesAreReceivedIntoTheirSlots
  refine ⟨?_, ?_, ?_, ?_, ?_, ?_, ?_, ?_, ?_⟩
  · intro port phy vc fnum f k s hs hidle hphy hf hready hcur hk
    exact frameStart_takesSlot hs hidle hphy hf hready hcur hk
  · intro port phy vc fnum f s hs hidle hphy hf hready hcur hk
    exact frameStart_withoutSlot hs hidle hphy hf hready hcur hk
  · intro port phy vc fnum f s hs hidle hphy hf hready
    exact frameStart_beforeReady hs hidle hphy hf hready
  · intro port phy pk f c s hs hmem hidle hphy hcrc hdt hlen hf harr hcur hdead hfree hline hlines hperm hpool
    exact longPacket_writesLine hs hidle hphy hcrc hlen harr hcur hdt hf hdead hfree hmem hline hlines hperm hpool
  · intro port phy pk f c s hs hidle hphy hcrc hdt hlen hf harr hcur hdead hfree hbad
    exact longPacket_breaks hs hidle hphy hcrc hlen harr hcur hdt hf hdead hfree hbad
  · intro port phy pk f c s hs hidle hphy hcrc hdt hlen hf harr hcur
    exact longPacket_tag hs hidle hphy hcrc hlen harr hcur hdt hf
  · intro port phy pk f s hs hon hphy hcrc hf harr hfull
    exact longPacket_overflows hs hon hphy hcrc hf harr hfull
  · intro port phy pk s hs hidle hphy
    exact longPacket_badHeader hs hidle hphy
  · intro port phy vc dt s hon hphy hnone
    exact unknownPacket_counts hon hphy hnone

end Sys2Proof.Machine
end

section
/-! SUPPORT. What reads and writes of device memory leave as it was (06 R225-R274, R765-R768): they store bytes, marks and lines, and
count and report what they meet. They write no register but the header words of pages, the counters of LPDDR5X channels and of the
Beam store, and a partition's counts of blocked accesses. -/

namespace Sys2Proof.Machine

/-! ### The registers that memory accesses write -/

/-- A register word in which an access to device memory may count or report. -/
def storageWord (w : Nat × Nat) : Prop :=
  w.2 < 0x040 ∨ w.1 = 0x082 ∨ w.1 = 0x084 ∨ (0x060 ≤ w.1 ∧ (w.2 = 0x080 ∨ w.2 = 0x084))

/-- Every other register word reads as before. -/
def StorageWords (s t : State) : Prop :=
  ∀ page off, off < 0x1000 → ¬ storageWord (page, off) → regGet t page off = regGet s page off

namespace StorageWords

theorem refl (s : State) : StorageWords s s := fun _ _ _ _ => rfl

theorem trans {a b c : State} (h : StorageWords a b) (k : StorageWords b c) : StorageWords a c :=
  fun p o l m => (k p o l m).trans (h p o l m)

theorem of_regs {s t : State} (h : t.regs = s.regs) : StorageWords s t := fun p o _ _ => by
  unfold regGet
  rw [h]

theorem of_wordsBut {ws : List (Nat × Nat)} {s t : State} (h : WordsBut ws s t) (k : ∀ w ∈ ws, storageWord w) : StorageWords s t :=
  fun p o l m => h p o l fun hw => m (k _ hw)

theorem fadd (s : State) (f : Fld) (n : Nat) (hl : f.off < 0x1000) (hf : storageWord f.word) : StorageWords s (fadd s f n) :=
  of_wordsBut ((WordsBut.refl [f.word] s).fadd f n hl List.mem_cons_self) (by simpa using hf)

theorem setEvent (s : State) (p b : Nat) : StorageWords s (setEvent s p b) :=
  of_wordsBut ((WordsBut.refl (eventWords p) s).setEvent p b fun _ h => h) (by simp [storageWord])

theorem errCorr (s : State) (p : Nat) : StorageWords s (errCorr s p) :=
  (fadd s (Fd.hdr_ERR_CORR_COUNT p) 1 (show (0x020 : Nat) < 0x1000 by decide) (.inl (show (0x020 : Nat) < 0x040 by decide))).trans
    (setEvent _ _ _)

theorem errUncorr (s : State) (p : Nat) : StorageWords s (errUncorr s p) :=
  (fadd s (Fd.hdr_ERR_UNCORR_COUNT p) 1 (show (0x024 : Nat) < 0x1000 by decide) (.inl (show (0x024 : Nat) < 0x040 by decide))).trans
    (setEvent _ _ _)

end StorageWords

/-- A range of R239 as an address gives it: there are four LPDDR5X channels. -/
def MapRange.channelOk (r : MapRange) : Prop := ∀ c, r = .dram c → c < 4

theorem rangeOf_channelOk (s : State) (a : Nat) : (rangeOf s a).channelOk := by
  intro c hc
  unfold rangeOf at hc
  split at hc
  · cases hc
  · split at hc
    · cases hc
    · split at hc
      · cases hc
      · split at hc
        · cases hc
        · split at hc
          · cases hc
            exact Nat.mod_lt _ (by decide)
          · split at hc <;> cases hc

theorem channelOk_beam (b : Nat) : (MapRange.beam b).channelOk := fun _ h => by cases h

/-! ### What a memory access leaves -/

/-- What accesses to device memory change: bytes, marks, lines of the Beam cache, and what counts and reports. -/
structure StorageFrame (s t : State) : Prop where
  words : StorageWords s t
  rest : t = { s with
    regs := t.regs, mem := t.mem, ecc := t.ecc, cache := t.cache, ledger := t.ledger, outbox := t.outbox
    safety := { s.safety with corr := t.safety.corr, bus := t.safety.bus } }

namespace StorageFrame

theorem refl (s : State) : StorageFrame s s := ⟨.refl s, rfl⟩

theorem trans {a b c : State} (h : StorageFrame a b) (k : StorageFrame b c) : StorageFrame a c :=
  ⟨h.words.trans k.words, by rw [k.rest, h.rest]⟩

theorem of_marks {s t : State} (h : MarksFrame s t) (k : StorageWords s t) : StorageFrame s t :=
  ⟨k, by rw [show t = _ from h]⟩

theorem foldl {α : Type} {f : State → α → State} (h : ∀ s x, StorageFrame s (f s x)) (l : List α) (s : State) :
    StorageFrame s (l.foldl f s) := by
  induction l generalizing s with
  | nil => exact .refl s
  | cons x l ih => exact (h s x).trans (ih _)

theorem foldlFst {α β : Type} {f : State × β → α → State × β} (h : ∀ p x, StorageFrame p.1 (f p x).1) (l : List α)
    (p : State × β) : StorageFrame p.1 (l.foldl f p).1 := by
  induction l generalizing p with
  | nil => exact .refl p.1
  | cons x l ih => exact (h p x).trans (ih _)

/-! Registers that it leaves -/

section
variable {s t : State} (h : StorageFrame s t)
include h

/-- A register of a page below the partitions' reads as before. -/
theorem fgetLow (g : Fld) (hp : g.page < 0x060) (hl : 0x040 ≤ g.off) (hu : g.off < 0x1000) : fget t g = fget s g := by
  unfold fget
  rw [h.words _ _ hu (by simp only [storageWord]; omega)]

/-- A partition's configuration reads as before. -/
theorem fgetPart (g : Fld) {p : Nat} (hpage : g.page = 0x060 + p) (hp : p < 16) (hl : 0x040 ≤ g.off) (hu : g.off < 0x080) :
    fget t g = fget s g := by
  unfold fget
  rw [h.words _ _ (by omega) (by simp only [storageWord]; omega)]

end

end StorageFrame

/-! ### Reads and writes of stored words -/

theorem fadd_storage (s : State) (f : Fld) (n : Nat) (hl : f.off < 0x1000) (hf : storageWord f.word) :
    StorageFrame s (fadd s f n) := .of_marks (fadd_marks s f n) (.fadd s f n hl hf)

theorem countCorr_storage (s : State) {r : MapRange} (hr : r.channelOk) : StorageFrame s (countCorr s r) := by
  refine .of_marks (countCorr_marks s r) ?_
  unfold countCorr
  dsimp only
  split
  next c =>
    have hc := hr c rfl
    exact ((StorageWords.errCorr s _).trans (.fadd _ (Fd.dramCnt_CORR c) 1 (show 0x040 + 0x20 * c < 0x1000 by omega)
      (.inr (.inl rfl)))).trans (.of_regs rfl)
  next => exact (StorageWords.errCorr s _).trans (.of_regs rfl)

theorem countUncorr_storage (s : State) {r : MapRange} (hr : r.channelOk) (sclass pid : Nat) :
    StorageFrame s (countUncorr s r sclass pid) := by
  refine .of_marks (countUncorr_marks s r sclass pid) ?_
  unfold countUncorr
  dsimp only
  split
  next c =>
    have hc := hr c rfl
    exact ((StorageWords.errUncorr s _).trans (.fadd _ (Fd.dramCnt_UNCORR c) 1 (show 0x044 + 0x20 * c < 0x1000 by omega)
      (.inr (.inl rfl)))).trans (.of_regs rfl)
  next => exact (StorageWords.errUncorr s _).trans (.of_regs rfl)

theorem countPoison_storage (s : State) {r : MapRange} (hr : r.channelOk) : StorageFrame s (countPoison s r) := by
  refine .of_marks (countPoison_marks s r) ?_
  unfold countPoison
  dsimp only
  split
  next => exact (StorageWords.fadd s Fd.beam_POISON_READ_COUNT 1 (by decide) (.inr (.inr (.inl rfl)))).trans (.of_regs rfl)
  next c =>
    have hc := hr c rfl
    exact (StorageWords.fadd s (Fd.dramCnt_POISON_READ_COUNT c) 1 (show 0x048 + 0x20 * c < 0x1000 by omega)
      (.inr (.inl rfl))).trans (.of_regs rfl)
  next => exact .of_regs rfl

theorem eccSet_storage (s : State) (w : Nat) (e : Option EccSt) : StorageFrame s (eccSet s w e) :=
  .of_marks (eccSet_marks s w e) (.of_regs (eccSet_regs s w e))

theorem memPut_storage (s : State) (a : Nat) (bs : List Byte) : StorageFrame s (memPut s a bs) := ⟨.of_regs rfl, rfl⟩

theorem readWord_storage (sclass pid : Nat) (p : State × Bool) (w : Nat) : StorageFrame p.1 (readWord sclass pid p w).1 := by
  have hr := rangeOf_channelOk p.1 (w * 8)
  unfold readWord
  dsimp only
  split
  · exact countCorr_storage _ hr
  · exact countUncorr_storage _ hr _ _
  · exact countPoison_storage _ hr
  · exact .refl p.1

theorem mergeWord_storage (a n sclass pid : Nat) (s : State) (w : Nat) : StorageFrame s (mergeWord a n sclass pid s w) := by
  have hread := readWord_storage sclass pid (s, false) w
  unfold mergeWord
  dsimp only
  split
  · exact eccSet_storage s w none
  · split
    · exact hread.trans (eccSet_storage _ _ _)
    · exact hread.trans (eccSet_storage _ _ _)

theorem writeRaw_storage (s : State) (a : Nat) (bs : List Byte) (sclass pid : Nat) :
    StorageFrame s (writeRaw s a bs sclass pid) :=
  (StorageFrame.foldl (mergeWord_storage a bs.length sclass pid) _ s).trans (memPut_storage _ _ _)

theorem readRaw_storage (s : State) (a n sclass pid : Nat) : StorageFrame s (readRaw s a n sclass pid).1 :=
  StorageFrame.foldlFst (readWord_storage sclass pid) _ (s, false)

/-! ### The Beam cache -/

theorem cache_storage (s : State) (c : List CacheLine) : StorageFrame s { s with cache := c } := ⟨.of_regs rfl, rfl⟩

theorem fillWords_storage (s : State) (line sclass pid : Nat) : StorageFrame s (fillWords s line sclass pid).1 := by
  refine StorageFrame.foldlFst (fun p w => ?_) _ (s, [])
  have hr := rangeOf_channelOk p.1 (w * 8)
  split
  · exact countCorr_storage _ hr
  · exact countUncorr_storage _ hr _ _
  · exact countPoison_storage _ hr
  · exact .refl p.1

theorem lineWords_storage (s : State) (l : CacheLine) (lo hi sclass : Nat) : StorageFrame s (lineWords s l lo hi sclass).1 := by
  refine StorageFrame.foldlFst (fun p w => ?_) _ (s, false)
  have hr := channelOk_beam (lineBank s l)
  split
  · exact countPoison_storage _ hr
  · split
    · exact countCorr_storage _ hr
    · exact countUncorr_storage _ hr _ _
    · exact countPoison_storage _ hr
    · exact .refl p.1

theorem writeBack_storage (s : State) (l : CacheLine) : StorageFrame s (writeBack s l) := by
  unfold writeBack
  split
  · exact (((fadd_storage s Fd.beam_POOL_WRITEBACK_COUNT 1 (by decide) (.inr (.inr (.inl rfl)))).trans
      (.foldl (fun x w => eccSet_storage x w none) _ _)).trans (memPut_storage _ _ _)).trans
      (.foldl (fun x w => eccSet_storage x _ _) _ _)
  · exact .refl s

theorem flushLines_storage (s : State) (p : CacheLine → Bool) : StorageFrame s (flushLines s p) :=
  (StorageFrame.foldl writeBack_storage _ s).trans (cache_storage _ _)

theorem fillLine_storage (s : State) (pid line sclass : Nat) : StorageFrame s (fillLine s pid line sclass) := by
  unfold fillLine
  split
  · exact .refl s
  · exact (((flushLines_storage s _).trans (fillWords_storage _ _ _ _)).trans
      (fadd_storage _ Fd.beam_POOL_MISS_COUNT 1 (by decide) (.inr (.inr (.inl rfl))))).trans (cache_storage _ _)

theorem touchLine_storage (s : State) (pid line sclass : Nat) : StorageFrame s (touchLine s pid line sclass) := by
  unfold touchLine
  split
  · split
    · exact ((countCorr_storage s (channelOk_beam _)).trans (cache_storage _ _)).trans (fillLine_storage _ _ _ _)
    · exact (fadd_storage s Fd.beam_POOL_HIT_COUNT 1 (by decide) (.inr (.inr (.inl rfl)))).trans (cache_storage _ _)
  · exact fillLine_storage s pid line sclass

theorem cacheRead_storage (s : State) (pid a n sclass : Nat) : StorageFrame s (cacheRead s pid a n sclass).1 := by
  have htouch := touchLine_storage s pid (a / 256 * 256) sclass
  unfold cacheRead
  dsimp only
  split
  · exact htouch.trans (lineWords_storage _ _ _ _ _)
  · exact htouch

theorem cacheWrite_storage (s : State) (pid a : Nat) (bs : List Byte) (sclass : Nat) :
    StorageFrame s (cacheWrite s pid a bs sclass) := by
  have htouch := touchLine_storage s pid (a / 256 * 256) sclass
  unfold cacheWrite
  dsimp only
  split
  · exact (htouch.trans (.foldl (fun x w => lineWords_storage x _ _ _ _) _ _)).trans (cache_storage _ _)
  · exact htouch

theorem writeLines_storage (pid sclass : Nat) (ps : List (Nat × Nat)) (bs : List Byte) (s : State) :
    StorageFrame s (writeLines s pid sclass ps bs) := by
  induction ps generalizing s bs with
  | nil => exact .refl s
  | cons p ps ih => exact (cacheWrite_storage s pid p.1 _ sclass).trans (ih _ _)

/-! ### Accesses of the Corod and of partitions -/

theorem ownWrite_storage (s : State) (a : Nat) (bs : List Byte) : StorageFrame s (ownWrite s a bs) := by
  unfold ownWrite
  split
  · exact writeLines_storage 0 0xF _ bs s
  · exact writeRaw_storage s a bs 0xF 0

/-- A write of the Corod's own that does not pass through the pool goes straight into storage (R101, R254). -/
theorem ownWrite_of_direct {s : State} {a : Nat} (h : pooled s 0 a = false) (bs : List Byte) :
    ownWrite s a bs = writeRaw s a bs 0xF 0 := by
  simp [ownWrite, h]

theorem noteParity_storage (s : State) (ks : List Nat) : StorageFrame s (noteParity s ks) :=
  .foldl (fun x _ => .of_marks (errUncorr_marks x _) (.errUncorr x _)) _ s

theorem blockedAccess_storage (s : State) (pid sclass : Nat) (write : Bool) :
    StorageFrame s (blockedAccess s (some pid) sclass write) := by
  have hcount : StorageFrame s
      (fadd s (if write then Fd.part_FW_WRITE_BLOCKED pid else Fd.part_FW_READ_BLOCKED pid) 1) := by
    split
    · exact fadd_storage s (Fd.part_FW_WRITE_BLOCKED pid) 1 (show (0x080 : Nat) < 0x1000 by decide)
        (.inr (.inr (.inr ⟨Nat.le_add_right _ _, .inl rfl⟩)))
    · exact fadd_storage s (Fd.part_FW_READ_BLOCKED pid) 1 (show (0x084 : Nat) < 0x1000 by decide)
        (.inr (.inr (.inr ⟨Nat.le_add_right _ _, .inr rfl⟩)))
  exact hcount.trans (.of_marks ((setEvent_marks _ _ _).trans (raise_marks _ _ _ _ _ _))
    ((StorageWords.setEvent _ _ _).trans (.of_regs rfl)))

/-- A read of a part of a range through the pool, after the parts before it. -/
def cacheReadNext (pid sclass : Nat) (x : State × List Byte × Bool) (p : Nat × Nat) : State × List Byte × Bool :=
  let y := cacheRead x.1 pid p.1 p.2 sclass
  (y.1, x.2.1 ++ y.2.1, x.2.2 || y.2.2)

theorem devRead_storage (s : State) (pid a n sclass : Nat) : StorageFrame s (devRead s pid a n sclass).1 := by
  unfold devRead
  split
  · exact .refl s
  · split
    · exact (noteParity_storage s _).trans (blockedAccess_storage _ _ _ _)
    · split
      · exact StorageFrame.foldlFst (f := cacheReadNext pid sclass) (fun p x => cacheRead_storage p.1 pid x.1 x.2 sclass) _
          (s, [], false)
      · exact readRaw_storage s a n sclass pid

end Sys2Proof.Machine
end

section
/-! SUPPORT. Ring entries up to their judgement (02 R53, R82; 03 R132): which command brings which Letter, what a turn and the reads of
admission leave as they were, and where the dedupe window has a sequence. -/

namespace Sys2Proof.Machine

/-! ### Frames -/

section
variable {s t : State} (h : StorageFrame s t)
include h

theorem StorageFrame.letters : t.letters = s.letters := by rw [h.rest]

theorem StorageFrame.replies : t.replies = s.replies := by rw [h.rest]

theorem StorageFrame.daybook : t.daybook = s.daybook := by rw [h.rest]

theorem StorageFrame.chans : t.chans = s.chans := by rw [h.rest]

theorem StorageFrame.plans : t.plans = s.plans := by rw [h.rest]

theorem StorageFrame.now : Machine.now t = Machine.now s := by
  unfold Machine.now
  rw [h.rest]

theorem StorageFrame.task : TaskFrame s t := by
  unfold TaskFrame
  rw [h.rest]

end

theorem TaskFrame.refl (s : State) : TaskFrame s s := rfl

theorem TaskFrame.trans {a b c : State} (h : TaskFrame a b) (k : TaskFrame b c) : TaskFrame a c := by
  unfold TaskFrame at *
  rw [k, h]

theorem TaskFrame.now {s t : State} (h : TaskFrame s t) : Machine.now t = Machine.now s := by
  unfold Machine.now
  rw [show t = _ from h]

/-- A channel belongs to one of sixteen partitions. -/
theorem fget_chan_PID_lt (s : State) (ch : Nat) : fget s (Fd.chan_PID ch) < 16 := fget_lt_card s _

theorem StorageFrame.strictPid {s t : State} (h : StorageFrame s t) {p : Nat} (hp : p < 16) :
    Machine.strictPid t p = Machine.strictPid s p := by
  unfold Machine.strictPid regimeOf
  rw [h.fgetPart _ rfl hp (show 0x040 ≤ 0x040 from le_rfl) (show (0x040 : Nat) < 0x080 by decide)]

theorem StorageFrame.dbVolatile {s t : State} (h : StorageFrame s t) : Machine.dbVolatile t = Machine.dbVolatile s := by
  unfold Machine.dbVolatile
  rw [h.fgetLow _ (by decide) (by decide) (by decide)]

/-- A register of a channel reads as before. -/
theorem StorageFrame.fgetChan {s t : State} (h : StorageFrame s t) {ch : Nat} (hch : ch < 64) (g : Fld) {o : Nat}
    (hpage : g.page = 0x008 + ch / 16) (ho : g.off = o + 0x40 * (ch % 16)) (hl : 0x040 ≤ o) (hu : o < 0x080) :
    fget t g = fget s g :=
  h.fgetLow g (by omega) (by omega) (by omega)

/-! ### The commands that bring Letters -/

theorem safetyRead_of_command {l : LetterIn} {n : Nat} (h : arg l 0x18 1 = n) (s : State) (ch : Nat) :
    safetyRead s n ch l = letterRead s 0x0F ch l [] := by
  simp [safetyRead, h]

/-- Each command of the list reads its Letter (R70, R614). -/
theorem exec_letterCmd {ch : Fin 64} {l : LetterIn} {data : List Byte} {e : LetterCmd} (he : e ∈ letterCmds ch l data)
    (hfits : e.fits l) (s : State) : exec e.cmd s = .next (letterRead s e.op ch l e.data) := by
  have hsafety (n : Nat) (h : e.command = some n) : safetyRead s n ch l = letterRead s 0x0F ch l [] :=
    safetyRead_of_command (hfits n (by simp [h])) s ch
  simp only [letterCmds, List.mem_cons, List.not_mem_nil, or_false] at he
  rcases he with rfl | rfl | rfl | rfl | rfl | rfl | rfl | rfl | rfl | rfl | rfl | rfl | rfl | rfl | rfl | rfl | he
  iterate 16 rfl
  rcases he with rfl | rfl | rfl | rfl | rfl | rfl | rfl | rfl <;> exact congrArg _ (hsafety _ rfl)

theorem opDefined_of_letterCmd {ch : Fin 64} {l : LetterIn} {data : List Byte} {e : LetterCmd} (he : e ∈ letterCmds ch l data) :
    opDefined e.op = true := by
  revert e
  simp [letterCmds, opDefined]

theorem runs_letterCmd {ch : Fin 64} {l : LetterIn} {data : List Byte} {e : LetterCmd} (he : e ∈ letterCmds ch l data)
    (hfits : e.fits l) {s : State} {P : State → Prop} (h : P (letterRead s e.op ch l e.data)) : Runs e.cmd s P :=
  ⟨_, exec_letterCmd he hfits s, h⟩

/-! ### A turn -/

theorem takeTurn_regs (s : State) (ch : Nat) : (takeTurn s ch).regs = s.regs := by
  unfold takeTurn
  split <;> rfl

theorem turnState_state (s : State) (ch : Nat) :
    turnState s ch = { s with
      regs := (turnState s ch).regs, round := (turnState s ch).round, firstRound := (turnState s ch).firstRound } := by
  unfold turnState takeTurn
  split <;> rfl

theorem turnState_words (s : State) (ch : Nat) : WordsBut [(Fd.chan_LRING_HEAD ch).word] s (turnState s ch) :=
  ((WordsBut.refl _ s).of_regs (takeTurn_regs s ch)).fput (Fd.chan_LRING_HEAD ch) _
    (show 0x050 + 0x40 * (ch % 16) < 0x1000 by omega) List.mem_cons_self

theorem turnState_head (s : State) (ch : Nat) :
    fget (turnState s ch) (Fd.chan_LRING_HEAD ch) = (fget s (Fd.chan_LRING_HEAD ch) + 1) % 2 ^ 16 := by
  refine (fget_fput_same _ _ _ ⟨Nat.zero_le _, (by decide : (15 : Nat) < 32)⟩).trans (Nat.mod_mod _ _)

/-- A register that is not the ring's head reads as before. -/
theorem turnState_fget (s : State) (ch : Nat) (g : Fld) (hl : g.off < 0x1000)
    (h : g.off % 0x40 ≠ 0x10 ∨ 0x440 ≤ g.off ∨ g.page < 0x008) : fget (turnState s ch) g = fget s g := by
  refine (turnState_words s ch).fget g hl fun hmem => ?_
  obtain ⟨hpage, hoff⟩ := Prod.mk.inj (List.mem_singleton.1 hmem)
  change g.page = 0x008 + ch / 16 at hpage
  change g.off = 0x050 + 0x40 * (ch % 16) at hoff
  omega

theorem turnState_letters (s : State) (ch : Nat) : (turnState s ch).letters = s.letters := by rw [turnState_state]

theorem turnState_replies (s : State) (ch : Nat) : (turnState s ch).replies = s.replies := by rw [turnState_state]

theorem turnState_chans (s : State) (ch : Nat) : (turnState s ch).chans = s.chans := by rw [turnState_state]

theorem turnState_daybook (s : State) (ch : Nat) : (turnState s ch).daybook = s.daybook := by rw [turnState_state]

theorem turnState_plans (s : State) (ch : Nat) : (turnState s ch).plans = s.plans := by rw [turnState_state]

theorem turnState_ord (s : State) (ch : Nat) : (turnState s ch).ord = s.ord := by rw [turnState_state]

theorem turnState_now (s : State) (ch : Nat) : now (turnState s ch) = now s := by
  unfold now
  rw [turnState_state]

theorem turnState_PID (s : State) (ch : Nat) (c : Nat) : fget (turnState s ch) (Fd.chan_PID c) = fget s (Fd.chan_PID c) :=
  turnState_fget s ch _ (show 0x06C + 0x40 * (c % 16) < 0x1000 by omega)
    (.inl (show (0x06C + 0x40 * (c % 16)) % 0x40 ≠ 0x10 by omega))

theorem turnState_dbVolatile (s : State) (ch : Nat) : dbVolatile (turnState s ch) = dbVolatile s := by
  unfold dbVolatile
  rw [turnState_fget s ch _ (by decide) (.inl (by decide))]

theorem turnState_strictPid (s : State) (ch p : Nat) : strictPid (turnState s ch) p = strictPid s p := by
  unfold strictPid regimeOf
  rw [turnState_fget s ch _ (show (0x040 : Nat) < 0x1000 by decide) (.inl (show (0x040 : Nat) % 0x40 ≠ 0x10 by decide))]

/-! ### The window -/

theorem chanOf_of_chans {s t : State} (h : t.chans = s.chans) (ch : Nat) : chanOf t ch = chanOf s ch := by
  unfold chanOf
  rw [h]

theorem classify_of_chans {s t : State} (h : t.chans = s.chans) (ch seq : Nat) : classify t ch seq = classify s ch seq := by
  unfold classify
  rw [chanOf_of_chans h]

theorem chanOf_setChan {s : State} {ch : Nat} (h : ch < s.chans.length) (c : Chan) : chanOf (setChan s ch c) ch = c := by
  simp [chanOf, setChan, h]

/-- Removing other keys leaves a key's entry. -/
theorem mapFind_filter_of_key {α : Type} {p : Nat → Bool} {x : Nat} (h : p x = true) (m : List (Nat × α)) :
    mapFind (m.filter fun e => p e.1) x = mapFind m x := by
  induction m with
  | nil => rfl
  | cons e m ih =>
    obtain ⟨k, v⟩ := e
    by_cases hk : k = x
    · subst hk
      simp [mapFind, h]
    · cases hp : p k <;> simp [mapFind, hk, hp, ih]

/-- How step 4 of R82 classifies a sequence that the window lists in a state (R120). -/
def WinSt.cls : WinSt → WinClass
  | .inFlight => .inFlight
  | .finished => .finished false
  | .peer => .finished true

/-- The window of a channel lists a sequence in a state, at a place that is neither ahead of it nor stale (R120). -/
def Listed (s : State) (ch seq : Nat) (st : WinSt) : Prop :=
  mapFind (chanOf s ch).win seq = some st ∧
    ∃ h, (chanOf s ch).high = some h ∧ ¬ (1 ≤ cyc 32 seq h ∧ cyc 32 seq h < 2 ^ 31) ∧
      ¬ (2 ^ 31 ≤ cyc 32 seq h ∧ cyc 32 seq h ≤ 2 ^ 32 - 4096)

theorem Listed.of_chans {s t : State} {ch seq : Nat} {st : WinSt} (h : Listed s ch seq st) (k : t.chans = s.chans) :
    Listed t ch seq st := by
  unfold Listed
  rw [chanOf_of_chans k]
  exact h

theorem Listed.classify {s : State} {ch seq : Nat} {st : WinSt} (h : Listed s ch seq st) :
    classify s ch seq = st.cls := by
  obtain ⟨hwin, high, hhigh, hahead, hstale⟩ := h
  unfold Machine.classify
  dsimp only
  rw [hhigh, hwin]
  simp only [Bool.and_eq_true, decide_eq_true_eq, hahead, hstale, if_false]
  cases st <;> rfl

/-- A fresh sequence that enters the window is listed there (R121). -/
theorem listed_enterWindow {s : State} {ch seq : Nat} (hch : ch < s.chans.length) (hfresh : classify s ch seq = .fresh)
    (st : WinSt) : Listed (enterWindow s ch seq st) ch seq st := by
  have hself : cyc 32 seq seq = 0 := by unfold cyc; omega
  have hlist (high : Nat) (hin : inWindow high seq = true) :
      mapFind ((mapIns (chanOf s ch).win seq st).filter fun e => inWindow high e.1) seq = some st := by
    rw [mapFind_filter_of_key (p := inWindow high) hin, mapFind_mapIns_same]
  have hsame : inWindow seq seq = true := by simp [inWindow, hself]
  unfold Listed enterWindow
  rw [chanOf_setChan hch]
  unfold classify at hfresh
  dsimp only at hfresh ⊢
  split at hfresh
  next hnone =>
    exact ⟨hlist seq hsame, seq, rfl, by omega, by omega⟩
  next h hsome =>
    split at hfresh
    next hahead =>
      rw [if_pos hahead]
      exact ⟨hlist seq hsame, seq, rfl, by omega, by omega⟩
    next hahead =>
      rw [if_neg hahead]
      simp only [Bool.and_eq_true, decide_eq_true_eq] at hahead
      split at hfresh
      next => cases hfresh
      next hstale =>
        simp only [Bool.and_eq_true, decide_eq_true_eq] at hstale
        have hin : inWindow h seq = true := by
          simp only [inWindow, decide_eq_true_eq]
          unfold cyc at *
          omega
        exact ⟨hlist h hin, h, rfl, hahead, hstale⟩

/-- A listed sequence takes the state it is given (R125). -/
theorem Listed.markWindow {s : State} {ch seq : Nat} {st : WinSt} (h : Listed s ch seq st) (hch : ch < s.chans.length)
    (st' : WinSt) : Listed (markWindow s ch seq st') ch seq st' := by
  obtain ⟨hwin, high, hhigh, hplace⟩ := h
  have hmark : Machine.markWindow s ch seq st' =
      setChan s ch { chanOf s ch with win := mapIns (chanOf s ch).win seq st' } := by
    unfold Machine.markWindow
    dsimp only
    rw [hwin]
  unfold Listed
  rw [hmark, chanOf_setChan hch]
  exact ⟨mapFind_mapIns_same _ _ _, high, hhigh, hplace⟩

end Sys2Proof.Machine
end

section
/-! SUPPORT. The answers of admission (02 R82-R89; 03 R102-R107): an entry that is refused, one that is rejected with a record, and one
that is accepted, with what each leaves as it was. -/

namespace Sys2Proof.Machine

/-! ### The state in which an entry is judged -/

theorem headerRead_storage (s : State) (op pid : Nat) (l : LetterIn) : StorageFrame s (headerRead s op pid l) := by
  unfold headerRead
  split
  · exact devRead_storage _ _ _ _ _
  · exact .refl s

theorem judgeState_storage (s : State) (ch op : Nat) (l : LetterIn) : StorageFrame (turnState s ch) (judgeState s ch op l) :=
  headerRead_storage _ _ _ _

/-- Admission reads tensors of a SELECT and a SOLVE alone. -/
theorem judgeState_of_op {op : Nat} (h9 : op ≠ 0x09) (hA : op ≠ 0x0A) (s : State) (ch : Nat) (l : LetterIn) :
    judgeState s ch op l = turnState s ch := by
  have hnone : headerExtent (turnState s ch) op (fget s (Fd.chan_PID ch)) l = none := by
    unfold headerExtent
    dsimp only
    split
    · rfl
    · split
      · exact absurd rfl h9
      · exact absurd rfl hA
      · rfl
  unfold judgeState headerRead
  rw [hnone]

section
variable (s : State) (ch op : Nat) (l : LetterIn)

theorem judgeState_letters : (judgeState s ch op l).letters = s.letters :=
  (judgeState_storage s ch op l).letters.trans (turnState_letters s ch)

theorem judgeState_replies : (judgeState s ch op l).replies = s.replies :=
  (judgeState_storage s ch op l).replies.trans (turnState_replies s ch)

theorem judgeState_chans : (judgeState s ch op l).chans = s.chans :=
  (judgeState_storage s ch op l).chans.trans (turnState_chans s ch)

theorem judgeState_daybook : (judgeState s ch op l).daybook = s.daybook :=
  (judgeState_storage s ch op l).daybook.trans (turnState_daybook s ch)

theorem judgeState_plans : (judgeState s ch op l).plans = s.plans :=
  (judgeState_storage s ch op l).plans.trans (turnState_plans s ch)

theorem judgeState_now : now (judgeState s ch op l) = now s :=
  (judgeState_storage s ch op l).now.trans (turnState_now s ch)

theorem judgeState_ord : (judgeState s ch op l).ord = s.ord := by
  rw [(judgeState_storage s ch op l).rest]
  exact turnState_ord s ch

theorem judgeState_dbVolatile : dbVolatile (judgeState s ch op l) = dbVolatile s :=
  (judgeState_storage s ch op l).dbVolatile.trans (turnState_dbVolatile s ch)

theorem judgeState_strictPid {p : Nat} (hp : p < 16) : strictPid (judgeState s ch op l) p = strictPid s p :=
  ((judgeState_storage s ch op l).strictPid hp).trans (turnState_strictPid s ch p)

theorem judgeState_journalFull : journalFull (judgeState s ch op l) = journalFull s := by
  unfold journalFull
  rw [judgeState_daybook]

theorem judgeState_classify (seq : Nat) : classify (judgeState s ch op l) ch seq = classify s ch seq :=
  classify_of_chans (judgeState_chans s ch op l) ch seq

/-- A register of the channels' pages that is not a ring's head reads as before. -/
theorem judgeState_fget (g : Fld) (hp : g.page < 0x060) (hl : 0x040 ≤ g.off) (hu : g.off < 0x1000)
    (h : g.off % 0x40 ≠ 0x10 ∨ 0x440 ≤ g.off) : fget (judgeState s ch op l) g = fget s g :=
  ((judgeState_storage s ch op l).fgetLow g hp hl hu).trans (turnState_fget s ch g hu (h.imp_right .inl))

end

/-! ### An entry's way through the steps -/

/-- No ring is read while the journal queue counts as full (R109). -/
theorem journalFull_of_nextRead {s : State} {ch : Nat} (h : nextRead s = some ch) : journalFull s = false := by
  unfold nextRead at h
  split at h
  next hopen =>
    simp only [ringsOpen, Bool.and_eq_true, Bool.not_eq_true'] at hopen
    exact hopen.2
  next => cases h

section
variable {s : State} {ch op : Nat} {l : LetterIn} {data : List Byte}

/-- The next entry is read in its channel's turn (R53, R132). -/
theorem letterRead_of_turn (hturn : nextRead s = some ch) (hfree : (chanOf s ch).held = none) :
    letterRead s op ch l data = readEntry (takeTurn s ch) ch op l data := by
  unfold letterRead
  rw [if_pos hturn]
  dsimp only
  rw [hfree]

theorem fput_head_takeTurn (s : State) (ch : Nat) :
    fput (takeTurn s ch) (Fd.chan_LRING_HEAD ch) ((fget (takeTurn s ch) (Fd.chan_LRING_HEAD ch) + 1) % 2 ^ 16) =
      turnState s ch := by
  rw [fget_of_regs (takeTurn_regs s ch)]
  rfl

/-- A damaged entry is answered BAD_FIELD (R83). -/
theorem letterRead_damaged {d : Nat} (hturn : nextRead s = some ch) (hfree : (chanOf s ch).held = none)
    (hfront : frontFault ch op (fget s (Fd.chan_LRING_HEAD ch)) l = some d) :
    letterRead s op ch l data = refuse (turnState s ch) ch op l 0x12 d := by
  rw [letterRead_of_turn hturn hfree]
  unfold readEntry
  dsimp only
  rw [fput_head_takeTurn, fget_of_regs (takeTurn_regs s ch), hfront]

theorem readEntry_takeTurn (h : ReadsNext s ch op l) : letterRead s op ch l data =
    if opDefined op && !creditedOp op && 4 ≤ uncredited s ch then
      setChan (turnState s ch) ch { chanOf s ch with held := some ⟨op, l⟩ }
    else judgeWindow (turnState s ch) ch op l data := by
  rw [letterRead_of_turn h.turn h.free]
  unfold readEntry
  dsimp only
  rw [fput_head_takeTurn, fget_of_regs (takeTurn_regs s ch), h.front, chanOf_of_chans (turnState_chans s ch)]
  unfold uncredited
  rw [turnState_letters]

/-- A fifth uncredited Letter is held (R89). -/
theorem letterRead_holds (h : ReadsNext s ch op l) (hdef : opDefined op = true) (hop : creditedOp op = false)
    (hfour : 4 ≤ uncredited s ch) :
    letterRead s op ch l data = setChan (turnState s ch) ch { chanOf s ch with held := some ⟨op, l⟩ } := by
  rw [readEntry_takeTurn h, if_pos (by simp [hdef, hop, hfour])]

/-- Any other entry is judged from step 4 on. -/
theorem letterRead_judges (h : ReadsNext s ch op l)
    (hroom : opDefined op = false ∨ creditedOp op = true ∨ uncredited s ch < 4) :
    letterRead s op ch l data = judgeWindow (turnState s ch) ch op l data := by
  rw [readEntry_takeTurn h, if_neg]
  simp only [Bool.and_eq_true, Bool.not_eq_true', decide_eq_true_eq, not_and, not_le]
  intro hop
  rcases hroom with hroom | hroom | hroom
  · simp [hroom] at hop
  · simp [hroom] at hop
  · exact hroom

/-- What `letterRead` leads to when the window finds the sequence fresh (R120). -/
theorem letterRead_fresh (h : ReadsNext s ch op l)
    (hroom : opDefined op = false ∨ creditedOp op = true ∨ uncredited s ch < 4)
    (hfresh : classify s ch l.seq.toNat = .fresh) :
    letterRead s op ch l data = judgeFresh (turnState s ch) ch op (fget s (Fd.chan_PID ch)) l data := by
  rw [letterRead_judges h hroom]
  unfold judgeWindow
  rw [classify_of_chans (turnState_chans s ch), hfresh, turnState_PID]

section
variable {u : State} {pid : Nat}

theorem judgeFresh_undefined (hdef : opDefined op = false) :
    judgeFresh u ch op pid l data = reject (headerRead u op pid l) ch op pid l 0x11 0 := by
  simp [judgeFresh, hdef]

theorem judgeFresh_field {o : Nat} (hdef : opDefined op = true) (hfield : fieldFault (headerRead u op pid l) op ch pid l data = some o) :
    judgeFresh u ch op pid l data = reject (headerRead u op pid l) ch op pid l 0x12 o := by
  simp [judgeFresh, hdef, hfield]

theorem judgeFresh_forbidden (hdef : opDefined op = true) (hfield : fieldFault (headerRead u op pid l) op ch pid l data = none)
    (hforb : forbidden (headerRead u op pid l) op pid l data = true) :
    judgeFresh u ch op pid l data = reject (headerRead u op pid l) ch op pid l 0x15 0 := by
  simp [judgeFresh, hdef, hfield, hforb]

theorem judgeFresh_notReady {d : Nat} (hdef : opDefined op = true)
    (hfield : fieldFault (headerRead u op pid l) op ch pid l data = none)
    (hforb : forbidden (headerRead u op pid l) op pid l data = false) (hkey : keyRefused (headerRead u op pid l) op l = false)
    (hready : notReady (headerRead u op pid l) op pid l = some d) :
    judgeFresh u ch op pid l data = refuse (headerRead u op pid l) ch op l 0x14 d := by
  simp [judgeFresh, hdef, hfield, hforb, hkey, hready]

theorem judgeFresh_passes (hdef : opDefined op = true)
    (hfield : fieldFault (headerRead u op pid l) op ch pid l data = none)
    (hforb : forbidden (headerRead u op pid l) op pid l data = false) (hkey : keyRefused (headerRead u op pid l) op l = false)
    (hready : notReady (headerRead u op pid l) op pid l = none) :
    judgeFresh u ch op pid l data = creditStep (headerRead u op pid l) ch op pid l data := by
  simp [judgeFresh, hdef, hfield, hforb, hkey, hready]

end

end

/-! ### Refusals -/

theorem refuse_refused {s u : State} (h : u.replies = s.replies) (ch op : Nat) (l : LetterIn) (status detail : Nat) :
    Refused ch op l status detail s (refuse u ch op l status detail) :=
  ⟨_, congrArg (· ++ [_]) h, rfl, rfl, rfl, rfl, rfl, rfl, rfl, rfl, rfl⟩

/-- An answer after a count writes the counter's word alone. -/
theorem answer_fadd_words (s : State) (f : Fld) (hl : f.off < 0x1000) (ch op : Nat) (l : LetterIn) (rflags : Nat) (r : Result) :
    WordsBut [f.word] s (answer (fadd s f 1) ch op l rflags r) :=
  ((WordsBut.refl _ s).fadd f 1 hl List.mem_cons_self).of_regs rfl

theorem fget_answer (s : State) (g : Fld) (ch op : Nat) (l : LetterIn) (rflags : Nat) (r : Result) :
    fget (answer s ch op l rflags r) g = fget s g := rfl

/-! ### Records -/

theorem takeCell_state (s : State) : (takeCell s).1 =
    { s with daybook := { s.daybook with lastCell := (takeCell s).1.daybook.lastCell } } := by
  unfold takeCell
  split <;> rfl

theorem mem_insertVersion (q : List Version) (v : Version) : v ∈ insertVersion q v := by
  unfold insertVersion
  split <;> simp

/-- A version that is not a FINISHED one is queued in its place (R106, R109). -/
theorem queueVersion_queues {s : State} {v : Version} (hvol : dbVolatile s = false) (hfull : journalFull s = false)
    (hv : v.state ≠ 3) : queueVersion s v =
      { s with daybook := { s.daybook with queue := insertVersion s.daybook.queue v } } := by
  have hnone (q : List Version) : q.any (replacedBy v) = false := by simp [replacedBy, hv]
  unfold queueVersion
  rw [hvol, hnone, hnone, hfull]
  rfl

/-- A sequence in the window, with what the mirror remembers of a volatile Daybook (R121, R139). -/
def notedEntry (s : State) (ch seq : Nat) (st : WinSt) : State := noteVolatile (enterWindow s ch seq st) ch seq

theorem notedEntry_state (s : State) (ch seq : Nat) (st : WinSt) : notedEntry s ch seq st =
    { s with chans := (notedEntry s ch seq st).chans
             daybook := { s.daybook with volatileRecs := (notedEntry s ch seq st).daybook.volatileRecs } } := rfl

theorem notedEntry_listed {s : State} {ch seq : Nat} (hch : ch < s.chans.length) (hfresh : classify s ch seq = .fresh)
    (st : WinSt) : Listed (notedEntry s ch seq st) ch seq st :=
  (listed_enterWindow hch hfresh st).of_chans rfl

theorem notedEntry_chans_length (s : State) (ch seq : Nat) (st : WinSt) :
    (notedEntry s ch seq st).chans.length = s.chans.length := List.length_set

/-! ### A final Reply that is queued -/

theorem queuedHalf_storage (s : State) (p : PendReply) : StorageFrame (draw s).1 (queuedHalf s p) := ownWrite_storage _ _ _

theorem markWindow_state (s : State) (ch seq : Nat) (st : WinSt) :
    markWindow s ch seq st = { s with chans := (markWindow s ch seq st).chans } := by
  unfold markWindow
  dsimp only
  split <;> rfl

/-- A final Reply has been queued: besides, the window and what a write of the mirror entry changes (R101, R125). -/
def QueuedFrame (p : PendReply) (s t : State) : Prop :=
  t = { s with
    regs := t.regs, mem := t.mem, ecc := t.ecc, chans := t.chans, cache := t.cache, ledger := t.ledger, outbox := t.outbox
    freeCount := t.freeCount, replies := s.replies ++ [p]
    safety := { s.safety with corr := t.safety.corr, bus := t.safety.bus } }

section
variable {s t : State} {p : PendReply} (h : QueuedFrame p s t)
include h

theorem QueuedFrame.replies : t.replies = s.replies ++ [p] := by rw [show t = _ from h]

theorem QueuedFrame.letters : t.letters = s.letters := by rw [show t = _ from h]

theorem QueuedFrame.daybook : t.daybook = s.daybook := by rw [show t = _ from h]

theorem QueuedFrame.ord : t.ord = s.ord := by rw [show t = _ from h]

theorem QueuedFrame.task : TaskFrame s t := by
  unfold TaskFrame
  rw [show t = _ from h]

end

theorem queuedFrame_of_half {s h : State} (k : StorageFrame (draw s).1 h) (p : PendReply) (ch seq : Nat) (st : WinSt) :
    QueuedFrame p s { markWindow h ch seq st with replies := (markWindow h ch seq st).replies ++ [p] } := by
  unfold QueuedFrame
  rw [markWindow_state, k.rest]
  rfl

theorem queuedFrame_regs (h : State) (p : PendReply) (ch seq : Nat) (st : WinSt) :
    { markWindow h ch seq st with replies := (markWindow h ch seq st).replies ++ [p] : State }.regs = h.regs := by
  rw [markWindow_state]

/-- The sequence of a queued final Reply is FINISHED in the window (R125). -/
theorem queuedFrame_listed {h : State} {ch seq : Nat} {st : WinSt} (k : Listed h ch seq st) (hch : ch < h.chans.length)
    (p : PendReply) (st' : WinSt) :
    Listed { markWindow h ch seq st' with replies := (markWindow h ch seq st').replies ++ [p] } ch seq st' :=
  (k.markWindow hch st').of_chans rfl

section
variable (s : State) (p : PendReply)

theorem queueReply_queued : QueuedFrame p s (queueReply s p) := queuedFrame_of_half (queuedHalf_storage s p) p _ _ _

theorem queueReply_regs : (queueReply s p).regs = (queuedHalf s p).regs := queuedFrame_regs (queuedHalf s p) p _ _ _

theorem queueReply_fget (g : Fld) (hp : g.page < 0x060) (hl : 0x040 ≤ g.off) (hu : g.off < 0x1000) :
    fget (queueReply s p) g = fget s g :=
  calc fget (queueReply s p) g
    _ = fget (queuedHalf s p) g := fget_of_regs (queueReply_regs s p) g
    _ = fget (draw s).1 g := (queuedHalf_storage s p).fgetLow g hp hl hu
    _ = fget s g := fget_of_regs rfl g

theorem queueReply_dbVolatile : dbVolatile (queueReply s p) = dbVolatile s := by
  unfold dbVolatile
  rw [queueReply_fget _ _ _ (by decide) (by decide) (by decide)]

end

theorem Listed.queueReply {s : State} {p : PendReply} {st : WinSt} (h : Listed s p.ch p.seq st) (hch : p.ch < s.chans.length) :
    Listed (queueReply s p) p.ch p.seq .finished := by
  have hhalf : (queuedHalf s p).chans = s.chans := (queuedHalf_storage s p).chans
  exact queuedFrame_listed (h.of_chans hhalf) (by rw [hhalf]; exact hch) p .finished

/-! ### A rejection -/

section
variable {u : State} {ch op pid : Nat} {l : LetterIn}

/-- The final Reply of a rejected Letter (R84, R107). -/
def rejectReply (s : State) (ch op pid : Nat) (l : LetterIn) (status detail : Nat) : PendReply :=
  ⟨ch, op, l.seq.toNat, l.tag.toNat, rfFinal + rfNotWall, Result.plain status detail, true, true, false, strictPid s pid,
    bit l.lflags.toNat 0⟩

/-- A Letter that is being rejected, with its cell and its place in the window. -/
def rejectEntry (s : State) (ch : Nat) (l : LetterIn) : State := notedEntry (takeCell s).1 ch l.seq.toNat .finished

theorem rejectEntry_state (s : State) (ch : Nat) (l : LetterIn) : rejectEntry s ch l = { s with
    chans := (rejectEntry s ch l).chans
    daybook := { s.daybook with
      lastCell := (rejectEntry s ch l).daybook.lastCell, volatileRecs := (rejectEntry s ch l).daybook.volatileRecs } } := by
  unfold rejectEntry
  rw [notedEntry_state, takeCell_state]

theorem reject_eq (u : State) (ch op pid : Nat) (l : LetterIn) (status detail : Nat) : reject u ch op pid l status detail =
    queueVersion (queueReply (rejectEntry u ch l) (rejectReply (rejectEntry u ch l) ch op pid l status detail))
      (rejectedVersion (rejectEntry u ch l) ch op pid l status detail (takeCell u).2) := rfl

/-- What the steps of a rejection leave, each from any state that the one before may leave (R84, R102, R103, R107). -/
theorem rejected_of_steps (hch : ch < 64) {u w x : State} {p : PendReply} {v : Version} (hw : w = { u with
      chans := w.chans, daybook := { u.daybook with lastCell := w.daybook.lastCell, volatileRecs := w.daybook.volatileRecs } })
    (hx : QueuedFrame p w x) (hkeep : ∀ g : Fld, g.page < 0x060 → 0x040 ≤ g.off → g.off < 0x1000 → fget x g = fget w g)
    (hlisted : Listed x ch l.seq.toNat .finished) (hvol : dbVolatile u = false) (hfull : journalFull u = false)
    {status detail : Nat} (hp : p = rejectReply w ch op pid l status detail)
    (hv : v = rejectedVersion w ch op pid l status detail (takeCell u).2) :
    Rejected ch op l status detail u (queueVersion x v) ∧ TaskFrame u (queueVersion x v) ∧ (queueVersion x v).ord = u.ord := by
  have hxw (g : Fld) (hpage : g.page < 0x060) (hl : 0x040 ≤ g.off) (hu : g.off < 0x1000) : fget x g = fget u g :=
    (hkeep g hpage hl hu).trans (fget_of_regs (by rw [hw]) g)
  have hxvol : dbVolatile x = false := by
    unfold dbVolatile at hvol ⊢
    rw [hxw _ (by decide) (by decide) (by decide), hvol]
  have hqueue : x.daybook.queue = u.daybook.queue := by rw [hx.daybook, hw]
  have hwaiting : x.daybook.waiting = u.daybook.waiting := by rw [hx.daybook, hw]
  have hxfull : journalFull x = false := by
    unfold journalFull at hfull ⊢
    rw [hqueue, hwaiting, hfull]
  have hreplies : x.replies = u.replies ++ [p] := by rw [hx.replies, hw]
  have hletters : x.letters = u.letters := by rw [hx.letters, hw]
  have hord : x.ord = u.ord := by rw [hx.ord, hw]
  have hframe : TaskFrame u x := TaskFrame.trans (show TaskFrame u w by unfold TaskFrame; rw [hw]) hx.task
  rw [queueVersion_queues hxvol hxfull (by rw [hv]; exact (by decide : (4 : Nat) ≠ 3))]
  refine ⟨⟨hletters, (hlisted.of_chans rfl).classify, ⟨p, hreplies, ?_⟩, ⟨v, mem_insertVersion _ _, ?_⟩, ?_, ?_⟩, ?_, hord⟩
  · rw [hp]
    exact ⟨rfl, rfl, rfl, rfl, rfl, rfl, rfl⟩
  · rw [hv]
    exact ⟨rfl, rfl, rfl, rfl, rfl, rfl⟩
  · exact hxw (Fd.chan_IN_FLIGHT ch) (show 0x008 + ch / 16 < 0x060 by omega) (show 0x040 ≤ 0x074 + 0x40 * (ch % 16) by omega)
      (show 0x074 + 0x40 * (ch % 16) < 0x1000 by omega)
  · exact hxw _ (by decide) (by decide) (by decide)
  · exact hframe.trans rfl

/-- A rejection with a record (R84, R102, R103, R107). -/
theorem reject_rejected (hch : ch < 64) (hlen : ch < u.chans.length) (hfresh : classify u ch l.seq.toNat = .fresh)
    (hvol : dbVolatile u = false) (hfull : journalFull u = false) (status detail : Nat) :
    Rejected ch op l status detail u (reject u ch op pid l status detail) ∧
      TaskFrame u (reject u ch op pid l status detail) ∧ (reject u ch op pid l status detail).ord = u.ord := by
  have hcell : (takeCell u).1.chans = u.chans := by rw [takeCell_state]
  have hentry : Listed (rejectEntry u ch l) ch l.seq.toNat .finished :=
    notedEntry_listed (by rw [hcell]; exact hlen) (by rw [classify_of_chans hcell]; exact hfresh) .finished
  have hlen' : ch < (rejectEntry u ch l).chans.length := by
    unfold rejectEntry
    rw [notedEntry_chans_length, hcell]
    exact hlen
  rw [reject_eq]
  exact rejected_of_steps hch (rejectEntry_state u ch l) (queueReply_queued _ _) (queueReply_fget _ _)
    (Listed.queueReply (p := rejectReply (rejectEntry u ch l) ch op pid l status detail) hentry hlen') hvol hfull rfl rfl

end

end Sys2Proof.Machine
end

section
/-! SUPPORT. The acceptance of a Letter (02 R84, R86, R87; 03 R102, R103, R121, R131). -/

namespace Sys2Proof.Machine

/-! ### Credits -/

theorem chan_IN_FLIGHT_off_lt (ch : Nat) : (Fd.chan_IN_FLIGHT ch).off < 0x1000 := show 0x074 + 0x40 * (ch % 16) < 0x1000 by omega

theorem chan_IN_FLIGHT_ok (ch : Nat) : (Fd.chan_IN_FLIGHT ch).ok := ⟨Nat.zero_le _, show (9 : Nat) < 32 by decide⟩

/-- A channel's registers lie apart from the device-wide counts. -/
theorem chan_IN_FLIGHT_apart_dev (ch : Nat) {g : Fld} (hoff : 0x800 ≤ g.off) (hu : g.off < 0x1000) :
    (Fd.chan_IN_FLIGHT ch).apart g ∧ g.apart (Fd.chan_IN_FLIGHT ch) := by
  have hne : g.off ≠ (Fd.chan_IN_FLIGHT ch).off := by
    show g.off ≠ 0x074 + 0x40 * (ch % 16)
    omega
  exact ⟨Fld.apart_of_word (chan_IN_FLIGHT_off_lt ch) hu fun e => hne (Prod.mk.inj e).2,
    Fld.apart_of_word hu (chan_IN_FLIGHT_off_lt ch) fun e => hne (Prod.mk.inj e).2.symm⟩

theorem dev_counts_apart : Fd.dev_DEV_IN_FLIGHT.apart Fd.dev_LOOSE_IN_FLIGHT ∧ Fd.dev_LOOSE_IN_FLIGHT.apart Fd.dev_DEV_IN_FLIGHT := by
  decide

/-- The words that count credited Letters in flight (R86, R131). -/
abbrev creditWords (ch : Nat) : List (Nat × Nat) :=
  [(Fd.chan_IN_FLIGHT ch).word, Fd.dev_DEV_IN_FLIGHT.word, Fd.dev_LOOSE_IN_FLIGHT.word]

theorem not_mem_creditWords {ch : Nat} {g : Fld} (h : g.page < 0x008 ∨ g.off < 0x800 ∧ g.off % 0x40 ≠ 0x34) :
    g.word ∉ creditWords ch := by
  simp only [creditWords, Fld.word, Fd.chan_IN_FLIGHT, Fd.dev_DEV_IN_FLIGHT, Fd.dev_LOOSE_IN_FLIGHT, List.mem_cons,
    Prod.mk.injEq, List.not_mem_nil, or_false, not_or, not_and]
  omega

/-- The counts of a channel, of the device and of Loose Letters, with a Letter more or not (R86, R87, R131). -/
def countedCredit (s : State) (op ch pid : Nat) : State :=
  if creditedOp op then takeCredit s ch (strictPid s pid) else s

section
variable (s : State) (op ch pid : Nat)

theorem takeCredit_state (strict : Bool) : takeCredit s ch strict = { s with regs := (takeCredit s ch strict).regs } := by
  cases strict <;> rfl

theorem takeCredit_words (strict : Bool) : WordsBut (creditWords ch) s (takeCredit s ch strict) := by
  have htwo := ((WordsBut.refl (creditWords ch) s).fadd (Fd.chan_IN_FLIGHT ch) 1 (chan_IN_FLIGHT_off_lt ch) (by simp)).fadd
    Fd.dev_DEV_IN_FLIGHT 1 (by decide) (by simp)
  cases strict with
  | true => exact htwo
  | false => exact htwo.fadd Fd.dev_LOOSE_IN_FLIGHT 1 (by decide) (by simp)

theorem takeCredit_inFlight (strict : Bool) :
    fget (takeCredit s ch strict) (Fd.chan_IN_FLIGHT ch) = (fget s (Fd.chan_IN_FLIGHT ch) + 1) % 2 ^ 10 := by
  have hdev := (chan_IN_FLIGHT_apart_dev ch (g := Fd.dev_DEV_IN_FLIGHT) (by decide) (by decide)).2
  have hloose := (chan_IN_FLIGHT_apart_dev ch (g := Fd.dev_LOOSE_IN_FLIGHT) (by decide) (by decide)).2
  have htwo : fget (fadd (fadd s (Fd.chan_IN_FLIGHT ch) 1) Fd.dev_DEV_IN_FLIGHT 1) (Fd.chan_IN_FLIGHT ch) =
      (fget s (Fd.chan_IN_FLIGHT ch) + 1) % 2 ^ 10 :=
    (fget_fadd_other _ _ _ _ (by decide) (chan_IN_FLIGHT_ok ch) hdev).trans (fget_fadd_same _ _ _ (chan_IN_FLIGHT_ok ch))
  cases strict with
  | true => exact htwo
  | false => exact (fget_fadd_other _ _ _ _ (by decide) (chan_IN_FLIGHT_ok ch) hloose).trans htwo

theorem takeCredit_devInFlight (strict : Bool) :
    fget (takeCredit s ch strict) Fd.dev_DEV_IN_FLIGHT = (fget s Fd.dev_DEV_IN_FLIGHT + 1) % 2 ^ 10 := by
  have hchan := (chan_IN_FLIGHT_apart_dev ch (g := Fd.dev_DEV_IN_FLIGHT) (by decide) (by decide)).1
  have htwo : fget (fadd (fadd s (Fd.chan_IN_FLIGHT ch) 1) Fd.dev_DEV_IN_FLIGHT 1) Fd.dev_DEV_IN_FLIGHT =
      (fget s Fd.dev_DEV_IN_FLIGHT + 1) % 2 ^ 10 := by
    rw [fget_fadd_same _ _ _ (by decide), fget_fadd_other _ _ _ _ (chan_IN_FLIGHT_ok ch) (by decide) hchan]
    rfl
  cases strict with
  | true => exact htwo
  | false => exact (fget_fadd_other _ _ _ _ (by decide) (by decide) dev_counts_apart.2).trans htwo

theorem takeCredit_looseInFlight (strict : Bool) :
    fget (takeCredit s ch strict) Fd.dev_LOOSE_IN_FLIGHT = (fget s Fd.dev_LOOSE_IN_FLIGHT + b2n (!strict)) % 2 ^ 10 := by
  have hchan := (chan_IN_FLIGHT_apart_dev ch (g := Fd.dev_LOOSE_IN_FLIGHT) (by decide) (by decide)).1
  have htwo : fget (fadd (fadd s (Fd.chan_IN_FLIGHT ch) 1) Fd.dev_DEV_IN_FLIGHT 1) Fd.dev_LOOSE_IN_FLIGHT =
      fget s Fd.dev_LOOSE_IN_FLIGHT := by
    rw [fget_fadd_other _ _ _ _ (by decide) (by decide) dev_counts_apart.1,
      fget_fadd_other _ _ _ _ (chan_IN_FLIGHT_ok ch) (by decide) hchan]
  cases strict with
  | true =>
    refine htwo.trans (Nat.mod_eq_of_lt ?_).symm
    exact fget_lt_card s Fd.dev_LOOSE_IN_FLIGHT
  | false =>
    refine (fget_fadd_same _ _ _ (by decide)).trans ?_
    rw [htwo]
    rfl

theorem countedCredit_state : countedCredit s op ch pid = { s with regs := (countedCredit s op ch pid).regs } := by
  unfold countedCredit
  split
  · exact takeCredit_state s ch _
  · rfl

theorem countedCredit_words : WordsBut (creditWords ch) s (countedCredit s op ch pid) := by
  unfold countedCredit
  split
  · exact takeCredit_words s ch _
  · exact .refl _ s

/-- An uncounted field of ten bits reads as the sum with nothing. -/
theorem fget_add_zero_mod (f : Fld) (h : f.card = 2 ^ 10) : fget s f = (fget s f + 0) % 2 ^ 10 :=
  (Nat.mod_eq_of_lt (h ▸ fget_lt_card s f)).symm

theorem countedCredit_inFlight : fget (countedCredit s op ch pid) (Fd.chan_IN_FLIGHT ch) =
    (fget s (Fd.chan_IN_FLIGHT ch) + b2n (creditedOp op)) % 2 ^ 10 := by
  unfold countedCredit
  split
  next hop => rw [takeCredit_inFlight, hop]; rfl
  next hop => rw [Bool.eq_false_of_not_eq_true hop]; exact fget_add_zero_mod s _ rfl

theorem countedCredit_devInFlight : fget (countedCredit s op ch pid) Fd.dev_DEV_IN_FLIGHT =
    (fget s Fd.dev_DEV_IN_FLIGHT + b2n (creditedOp op)) % 2 ^ 10 := by
  unfold countedCredit
  split
  next hop => rw [takeCredit_devInFlight, hop]; rfl
  next hop => rw [Bool.eq_false_of_not_eq_true hop]; exact fget_add_zero_mod s _ rfl

theorem countedCredit_looseInFlight : fget (countedCredit s op ch pid) Fd.dev_LOOSE_IN_FLIGHT =
    (fget s Fd.dev_LOOSE_IN_FLIGHT + b2n (creditedOp op && !strictPid s pid)) % 2 ^ 10 := by
  unfold countedCredit
  split
  next hop => rw [takeCredit_looseInFlight, hop, Bool.true_and]
  next hop => rw [Bool.eq_false_of_not_eq_true hop]; exact fget_add_zero_mod s _ rfl

end

/-! ### Acceptance -/

section
variable (u : State) (ch op pid : Nat) (l : LetterIn) (data : List Byte)

/-- A Letter that is being accepted, with its cell and its place in acceptance order (R102). -/
def enteredLetter : State :=
  let c := takeCell u
  { c.1 with letters := c.1.letters ++ [acceptedLetter u ch op pid l data c.2], ord := c.1.ord + 1 }

/-- An accepted Letter that has its cell, its credit and its place in the window, and no version yet. -/
def acceptEntry : State :=
  notedEntry (countedCredit (enteredLetter u ch op pid l data) op ch pid) ch l.seq.toNat .inFlight

theorem accept_eq : accept u ch op pid l data =
    queueVersion (acceptEntry u ch op pid l data)
      (versionOf (acceptEntry u ch op pid l data) (acceptedLetter u ch op pid l data (takeCell u).2) 1) := rfl

theorem enteredLetter_regs : (enteredLetter u ch op pid l data).regs = u.regs := by
  unfold enteredLetter
  dsimp only
  rw [takeCell_state]

theorem enteredLetter_chans : (enteredLetter u ch op pid l data).chans = u.chans := by
  unfold enteredLetter
  dsimp only
  rw [takeCell_state]

theorem enteredLetter_strictPid : strictPid (enteredLetter u ch op pid l data) pid = strictPid u pid := by
  unfold strictPid regimeOf
  rw [fget_of_regs (enteredLetter_regs u ch op pid l data)]

theorem acceptEntry_state : acceptEntry u ch op pid l data = { u with
    regs := (acceptEntry u ch op pid l data).regs, chans := (acceptEntry u ch op pid l data).chans
    letters := u.letters ++ [acceptedLetter u ch op pid l data (takeCell u).2], ord := u.ord + 1
    daybook := { u.daybook with
      lastCell := (acceptEntry u ch op pid l data).daybook.lastCell
      volatileRecs := (acceptEntry u ch op pid l data).daybook.volatileRecs } } := by
  unfold acceptEntry enteredLetter
  dsimp only
  rw [notedEntry_state, countedCredit_state, takeCell_state]

theorem acceptEntry_words : WordsBut (creditWords ch) u (acceptEntry u ch op pid l data) :=
  (((WordsBut.refl _ u).of_regs (enteredLetter_regs u ch op pid l data)).trans (countedCredit_words _ op ch pid)).of_regs rfl

theorem acceptEntry_fget (g : Fld) :
    fget (acceptEntry u ch op pid l data) g = fget (countedCredit (enteredLetter u ch op pid l data) op ch pid) g :=
  fget_of_regs rfl g

theorem acceptEntry_inFlight : fget (acceptEntry u ch op pid l data) (Fd.chan_IN_FLIGHT ch) =
    (fget u (Fd.chan_IN_FLIGHT ch) + b2n (creditedOp op)) % 2 ^ 10 := by
  rw [acceptEntry_fget, countedCredit_inFlight, fget_of_regs (enteredLetter_regs u ch op pid l data)]

theorem acceptEntry_devInFlight : fget (acceptEntry u ch op pid l data) Fd.dev_DEV_IN_FLIGHT =
    (fget u Fd.dev_DEV_IN_FLIGHT + b2n (creditedOp op)) % 2 ^ 10 := by
  rw [acceptEntry_fget, countedCredit_devInFlight, fget_of_regs (enteredLetter_regs u ch op pid l data)]

theorem acceptEntry_looseInFlight : fget (acceptEntry u ch op pid l data) Fd.dev_LOOSE_IN_FLIGHT =
    (fget u Fd.dev_LOOSE_IN_FLIGHT + b2n (creditedOp op && !strictPid u pid)) % 2 ^ 10 := by
  rw [acceptEntry_fget, countedCredit_looseInFlight, fget_of_regs (enteredLetter_regs u ch op pid l data),
    enteredLetter_strictPid]

end

section
variable {u w : State} {ch : Nat} {x : Letter} {v : Version}

/-- The queued version of an accepted Letter, from any state that its entry may leave. -/
theorem accepted_of_entry (hw : w = { u with
      regs := w.regs, chans := w.chans, letters := u.letters ++ [x], ord := u.ord + 1
      daybook := { u.daybook with lastCell := w.daybook.lastCell, volatileRecs := w.daybook.volatileRecs } })
    (hwords : WordsBut (creditWords ch) u w) (hvol : dbVolatile u = false) (hfull : journalFull u = false) (hv : v.state ≠ 3) :
    queueVersion w v = { w with daybook := { w.daybook with queue := insertVersion w.daybook.queue v } } ∧
      queueVersion w v = { u with
        regs := (queueVersion w v).regs, chans := (queueVersion w v).chans, letters := (queueVersion w v).letters
        ord := u.ord + 1, daybook := (queueVersion w v).daybook } ∧
      (queueVersion w v).letters = u.letters ++ [x] := by
  have hnotVol : dbVolatile w = false := by
    unfold dbVolatile at hvol ⊢
    rw [hwords.fget _ (by decide) (not_mem_creditWords (.inl (by decide))), hvol]
  have hqueue : w.daybook.queue = u.daybook.queue := by rw [hw]
  have hwaiting : w.daybook.waiting = u.daybook.waiting := by rw [hw]
  have hnotFull : journalFull w = false := by
    unfold journalFull at hfull ⊢
    rw [hqueue, hwaiting, hfull]
  rw [queueVersion_queues hnotVol hnotFull hv]
  refine ⟨rfl, ?_, ?_⟩
  · rw [hw]
  · rw [hw]

end

section
variable {u : State} {ch op pid : Nat} {l : LetterIn} {data : List Byte}

/-- What the acceptance of an entry leaves (R84, R86, R102, R103, R121). -/
structure Accepted (u : State) (ch op pid : Nat) (l : LetterIn) (data : List Byte) (t : State) : Prop where
  letters : t.letters = u.letters ++ [acceptedLetter u ch op pid l data (takeCell u).2]
  inFlight : fget t (Fd.chan_IN_FLIGHT ch) = (fget u (Fd.chan_IN_FLIGHT ch) + b2n (creditedOp op)) % 2 ^ 10
  dev : fget t Fd.dev_DEV_IN_FLIGHT = (fget u Fd.dev_DEV_IN_FLIGHT + b2n (creditedOp op)) % 2 ^ 10
  loose : fget t Fd.dev_LOOSE_IN_FLIGHT = (fget u Fd.dev_LOOSE_IN_FLIGHT + b2n (creditedOp op && !strictPid u pid)) % 2 ^ 10
  window : classify t ch l.seq.toNat = .inFlight
  version : ∃ v ∈ t.daybook.queue, v.state = 1 ∧ v.ch = ch ∧ v.op = op ∧ v.seq = l.seq.toNat ∧ v.acceptPm = now48 u
  words : WordsBut (creditWords ch) u t
  rest : t = { u with regs := t.regs, chans := t.chans, letters := t.letters, ord := u.ord + 1, daybook := t.daybook }

theorem accept_accepted (hlen : ch < u.chans.length) (hfresh : classify u ch l.seq.toNat = .fresh)
    (hvol : dbVolatile u = false) (hfull : journalFull u = false) :
    Accepted u ch op pid l data (accept u ch op pid l data) := by
  have hwords := acceptEntry_words u ch op pid l data
  obtain ⟨hqueued, hrest, hletters⟩ := accepted_of_entry (acceptEntry_state u ch op pid l data) hwords hvol hfull
    (v := versionOf (acceptEntry u ch op pid l data) (acceptedLetter u ch op pid l data (takeCell u).2) 1)
    (show (1 : Nat) ≠ 3 by decide)
  have hchans : (countedCredit (enteredLetter u ch op pid l data) op ch pid).chans = u.chans := by
    rw [countedCredit_state]
    exact enteredLetter_chans u ch op pid l data
  have hlisted : Listed (acceptEntry u ch op pid l data) ch l.seq.toNat .inFlight :=
    notedEntry_listed (by rw [hchans]; exact hlen) (by rw [classify_of_chans hchans]; exact hfresh) .inFlight
  rw [accept_eq]
  have hregs : (queueVersion (acceptEntry u ch op pid l data) (versionOf (acceptEntry u ch op pid l data)
      (acceptedLetter u ch op pid l data (takeCell u).2) 1)).regs = (acceptEntry u ch op pid l data).regs := by rw [hqueued]
  exact {
    letters := hletters
    inFlight := (fget_of_regs hregs _).trans (acceptEntry_inFlight u ch op pid l data)
    dev := (fget_of_regs hregs _).trans (acceptEntry_devInFlight u ch op pid l data)
    loose := (fget_of_regs hregs _).trans (acceptEntry_looseInFlight u ch op pid l data)
    window := (hlisted.of_chans (by rw [hqueued])).classify
    version := ⟨_, by rw [hqueued]; exact mem_insertVersion _ _, rfl, rfl, rfl, rfl, rfl⟩
    words := hwords.of_regs hregs
    rest := hrest }

/-! ### Step 9 -/

/-- An entry that finds its credit, and supersedes nothing, is accepted (R87). -/
theorem creditStep_accepts (hcredit : creditedOp op = true → creditLack u ch pid [] = none)
    (halone : victims u op pid (bits l.stream.toNat 11 0) = []) :
    creditStep u ch op pid l data = accept u ch op pid l data := by
  have hlack : (if creditedOp op then creditLack u ch pid [] else none) = none := by
    split
    next hop => exact hcredit hop
    next => rfl
  simp only [creditStep, halone, hlack, List.foldl_nil]

/-- A credited entry that finds no credit, and supersedes nothing, is answered BUSY (R87). -/
theorem creditStep_busy {d : Nat} (hop : creditedOp op = true) (hlack : creditLack u ch pid [] = some d)
    (halone : victims u op pid (bits l.stream.toNat 11 0) = []) :
    creditStep u ch op pid l data = refuse (fadd u (Fd.chan_BUSY_COUNT ch) 1) ch op l 0x10 d := by
  simp [creditStep, hop, hlack, halone]

end

/-! ### An admitted entry -/

section
variable {s : State} {ch op : Nat} {l : LetterIn} {data : List Byte}

theorem keptData_judgeState (s : State) (ch op : Nat) (l : LetterIn) (data : List Byte) :
    keptData (judgeState s ch op l) op l data = keptData s op l data := by
  unfold keptData sweepBody planAt
  rw [judgeState_plans]

/-- An entry that passes every step is accepted in the state in which it is judged. -/
theorem letterRead_accepts (hdef : opDefined op = true) (hnext : ReadsNext s ch op l) (hadm : Admitted s ch op l data)
    (hlen : ch < s.chans.length) :
    Accepted (judgeState s ch op l) ch op (fget s (Fd.chan_PID ch)) l data (letterRead s op ch l data) := by
  have hjudge := judgeFresh_passes (u := turnState s ch) hdef hadm.fields hadm.allowed hadm.key hadm.ready
  have haccept := creditStep_accepts (data := data) hadm.credit hadm.alone
  rw [letterRead_fresh hnext (.inr hadm.room) hadm.fresh, hjudge.trans haccept]
  refine accept_accepted ?_ ?_ hadm.journal ?_
  · exact (judgeState_chans s ch op l).symm ▸ hlen
  · exact (judgeState_classify s ch op l _).trans hadm.fresh
  · exact (judgeState_journalFull s ch op l).trans (journalFull_of_nextRead hnext.turn)

end

theorem chan_LRING_HEAD_off_lt (ch : Nat) : (Fd.chan_LRING_HEAD ch).off < 0x1000 := show 0x050 + 0x40 * (ch % 16) < 0x1000 by omega

theorem chan_LRING_HEAD_not_credit (ch : Nat) : (Fd.chan_LRING_HEAD ch).page < 0x008 ∨
    (Fd.chan_LRING_HEAD ch).off < 0x800 ∧ (Fd.chan_LRING_HEAD ch).off % 0x40 ≠ 0x34 :=
  .inr ⟨show 0x050 + 0x40 * (ch % 16) < 0x800 by omega, show (0x050 + 0x40 * (ch % 16)) % 0x40 ≠ 0x34 by omega⟩

theorem judgeState_head (s : State) {ch : Nat} (hch : ch < 64) (op : Nat) (l : LetterIn) :
    fget (judgeState s ch op l) (Fd.chan_LRING_HEAD ch) = (fget s (Fd.chan_LRING_HEAD ch) + 1) % 2 ^ 16 :=
  ((judgeState_storage s ch op l).fgetChan hch (Fd.chan_LRING_HEAD ch) rfl rfl (by decide) (by decide)).trans (turnState_head s ch)

theorem judgeState_inFlight (s : State) {ch : Nat} (hch : ch < 64) (op : Nat) (l : LetterIn) :
    fget (judgeState s ch op l) (Fd.chan_IN_FLIGHT ch) = fget s (Fd.chan_IN_FLIGHT ch) :=
  judgeState_fget s ch op l _ (show 0x008 + ch / 16 < 0x060 by omega) (show 0x040 ≤ 0x074 + 0x40 * (ch % 16) by omega)
    (chan_IN_FLIGHT_off_lt ch) (.inl (show (0x074 + 0x40 * (ch % 16)) % 0x40 ≠ 0x10 by omega))

/-- Settles O54: an entry that passes the steps of R82 is accepted in the state in which it is judged, which differs from the first in
the turn, the ring's head and what reads of device memory count. -/
theorem lettersAreReadAndAccepted : Obligations.LettersAreReadAndAccepted := by
  intro ch l data e s he hfits hlen hnext hadm
  have hacc := letterRead_accepts (opDefined_of_letterCmd he) hnext hadm hlen
  have hpage (g : Fld) (hp : g.page < 0x060) (hl : 0x800 ≤ g.off) (hu : g.off < 0x1000) :
      fget (judgeState s ch e.op l) g = fget s g :=
    judgeState_fget s ch e.op l g hp (by omega) hu (.inr (by omega))
  have hdev := hpage Fd.dev_DEV_IN_FLIGHT (by decide) (by decide) (by decide)
  have hloose := hpage Fd.dev_LOOSE_IN_FLIGHT (by decide) (by decide) (by decide)
  have hflight := judgeState_inFlight s ch.isLt e.op l
  have hstrict := judgeState_strictPid s ch e.op l (fget_chan_PID_lt s ch)
  have hnow := judgeState_now s ch e.op l
  have hord := judgeState_ord s ch e.op l
  have hletters := hacc.letters
  rw [judgeState_letters] at hletters
  refine runs_letterCmd he hfits ⟨⟨_, hletters, rfl, rfl, rfl, rfl, rfl, hnow, hord, rfl, ?_⟩, ?_, ?_, ?_, ?_, hacc.window, ?_,
    hacc.words, ?_, fun h9 hA => judgeState_of_op h9 hA s ch l⟩
  · exact keptData_judgeState s ch e.op l e.data
  · rw [hacc.words.fget _ (chan_LRING_HEAD_off_lt ch) (not_mem_creditWords (chan_LRING_HEAD_not_credit ch)),
      judgeState_head s ch.isLt]
  · rw [hacc.inFlight, hflight]
  · rw [hacc.dev, hdev]
  · rw [hacc.loose, hloose, hstrict]
  · obtain ⟨v, hv, h1, h2, h3, h4, h5⟩ := hacc.version
    exact ⟨v, hv, h1, h2, h3, h4, by rw [h5, now48, hnow, now48]⟩
  · have hrest := hacc.rest
    rw [hord] at hrest
    exact hrest

end Sys2Proof.Machine
end

section
/-! SUPPORT. The clauses of O55: what each failing step of R82 answers. -/

namespace Sys2Proof.Machine

section
variable {s : State} {ch op : Nat} {l : LetterIn} {data : List Byte}

/-- What a record of an entry leaves, told from the state before the entry was read. -/
theorem Rejected.of_judged {status detail : Nat} {t : State} (hch : ch < 64)
    (h : Rejected ch op l status detail (judgeState s ch op l) t) : Rejected ch op l status detail s t := by
  obtain ⟨hletters, hwin, ⟨p, hreplies, hp⟩, hversion, hflight, hdev⟩ := h
  rw [judgeState_letters] at hletters
  rw [judgeState_replies] at hreplies
  rw [judgeState_inFlight s hch] at hflight
  rw [judgeState_fget s ch op l _ (by decide) (by decide) (by decide) (.inr (by decide))] at hdev
  exact ⟨hletters, hwin, ⟨p, hreplies, hp⟩, hversion, hflight, hdev⟩

/-- A fresh entry that is rejected in the state in which it is judged. -/
theorem reject_judged (hch : ch < 64) (hlen : ch < s.chans.length) (hnext : ReadsNext s ch op l)
    (hfresh : classify s ch l.seq.toNat = .fresh) (hvol : dbVolatile (judgeState s ch op l) = false) (pid status detail : Nat) :
    Rejected ch op l status detail s (reject (judgeState s ch op l) ch op pid l status detail) ∧
      TaskFrame (turnState s ch) (reject (judgeState s ch op l) ch op pid l status detail) ∧
      (reject (judgeState s ch op l) ch op pid l status detail).ord = s.ord := by
  obtain ⟨hrej, hframe, hord⟩ := reject_rejected (op := op) (pid := pid) hch ((judgeState_chans s ch op l).symm ▸ hlen)
    ((judgeState_classify s ch op l _).trans hfresh) hvol
    ((judgeState_journalFull s ch op l).trans (journalFull_of_nextRead hnext.turn)) status detail
  exact ⟨hrej.of_judged hch, (judgeState_storage s ch op l).task.trans hframe, hord.trans (judgeState_ord s ch op l)⟩

/-- What an answer after a count leaves (R83, R124). -/
structure CountedAnswer (f : Fld) (s t : State) : Prop where
  count : fget t f = (fget s f + 1) % f.card
  words : WordsBut [f.word] s t
  rest : t = { s with regs := t.regs, replies := t.replies }

theorem answer_counted (s : State) {f : Fld} (hf : f.ok) (hl : f.off < 0x1000) (rflags : Nat) (r : Result) :
    CountedAnswer f s (answer (fadd s f 1) ch op l rflags r) where
  count := (fget_answer _ _ _ _ _ _ _).trans (fget_fadd_same s f 1 hf)
  words := answer_fadd_words s f hl ch op l rflags r
  rest := rfl

theorem answer_fadd_replies {s u : State} (h : u.replies = s.replies) (f : Fld) (rflags : Nat) (r : Result) :
    ∃ p, (answer (fadd u f 1) ch op l rflags r).replies = s.replies ++ [p] ∧ p.seq = l.seq.toNat ∧
      p.rflags = rflags + rfNotWall ∧ p.final = false ∧ p.res = r :=
  ⟨_, congrArg (· ++ [_]) h, rfl, rfl, rfl, rfl⟩

/-! ### Step 4 -/

theorem letterRead_inFlight (hnext : ReadsNext s ch op l) (hroom : creditedOp op = true ∨ uncredited s ch < 4)
    (hwin : classify s ch l.seq.toNat = .inFlight) : letterRead s op ch l data =
      answer (fadd (turnState s ch) Fd.daybook_INFLIGHT_ACK_COUNT 1) ch op l rfInFlight (Result.plain 0 0) := by
  rw [letterRead_judges hnext (.inr hroom)]
  unfold judgeWindow
  rw [classify_of_chans (turnState_chans s ch), hwin]

theorem letterRead_stale (hnext : ReadsNext s ch op l) (hroom : creditedOp op = true ∨ uncredited s ch < 4)
    (hwin : classify s ch l.seq.toNat = .stale) : letterRead s op ch l data =
      refuse (fadd (turnState s ch) Fd.daybook_STALE_COUNT 1) ch op l 0x13 0 := by
  rw [letterRead_judges hnext (.inr hroom)]
  unfold judgeWindow
  rw [classify_of_chans (turnState_chans s ch), hwin]

theorem turnState_inFlightAcks (s : State) (ch : Nat) :
    fget (turnState s ch) Fd.daybook_INFLIGHT_ACK_COUNT = fget s Fd.daybook_INFLIGHT_ACK_COUNT :=
  turnState_fget s ch _ (by decide) (.inr (.inr (by decide)))

theorem turnState_staleCount (s : State) (ch : Nat) :
    fget (turnState s ch) Fd.daybook_STALE_COUNT = fget s Fd.daybook_STALE_COUNT :=
  turnState_fget s ch _ (by decide) (.inr (.inr (by decide)))

/-! ### Step 9 -/

theorem chan_BUSY_COUNT_off_lt (ch : Nat) : (Fd.chan_BUSY_COUNT ch).off < 0x1000 := show 0x07C + 0x40 * (ch % 16) < 0x1000 by omega

theorem judgeState_busyCount (s : State) {ch : Nat} (hch : ch < 64) (op : Nat) (l : LetterIn) :
    fget (judgeState s ch op l) (Fd.chan_BUSY_COUNT ch) = fget s (Fd.chan_BUSY_COUNT ch) :=
  judgeState_fget s ch op l _ (show 0x008 + ch / 16 < 0x060 by omega) (show 0x040 ≤ 0x07C + 0x40 * (ch % 16) by omega)
    (chan_BUSY_COUNT_off_lt ch) (.inl (show (0x07C + 0x40 * (ch % 16)) % 0x40 ≠ 0x10 by omega))

end

/-! ### The clauses -/

section
variable {ch : Fin 64} {l : LetterIn} {data : List Byte} {e : LetterCmd} {s : State} (he : e ∈ letterCmds ch l data)
  (hfits : e.fits l)
include he hfits

theorem damagedEntry_refused {d : Nat} (hturn : nextRead s = some ch.val) (hfree : (chanOf s ch).held = none)
    (hfront : frontFault ch e.op (fget s (Fd.chan_LRING_HEAD ch)) l = some d) :
    Runs e.cmd s fun t => Refused ch e.op l 0x12 d s t ∧ t = { turnState s ch with replies := t.replies } := by
  refine runs_letterCmd he hfits ?_
  rw [letterRead_damaged hturn hfree hfront]
  exact ⟨refuse_refused (turnState_replies s ch) _ _ _ _ _, rfl⟩

theorem fifthUncredited_held (hlen : ch.val < s.chans.length) (hnext : ReadsNext s ch e.op l) (hop : creditedOp e.op = false)
    (hfour : 4 ≤ uncredited s ch) :
    Runs e.cmd s fun t => (chanOf t ch).held = some ⟨e.op, l⟩ ∧ t = { turnState s ch with chans := t.chans } := by
  refine runs_letterCmd he hfits ?_
  rw [letterRead_holds hnext (opDefined_of_letterCmd he) hop hfour]
  refine ⟨?_, rfl⟩
  rw [chanOf_setChan ((turnState_chans s ch).symm ▸ hlen)]

theorem duplicateInFlight_acknowledged (hnext : ReadsNext s ch e.op l) (hroom : creditedOp e.op = true ∨ uncredited s ch < 4)
    (hwin : classify s ch l.seq.toNat = .inFlight) :
    Runs e.cmd s fun t =>
      (∃ p, t.replies = s.replies ++ [p] ∧ p.seq = l.seq.toNat ∧ p.rflags = rfInFlight + rfNotWall ∧ p.final = false ∧
        p.res = Result.plain 0 0) ∧
      fget t Fd.daybook_INFLIGHT_ACK_COUNT = (fget s Fd.daybook_INFLIGHT_ACK_COUNT + 1) % 2 ^ 32 ∧
      WordsBut [Fd.daybook_INFLIGHT_ACK_COUNT.word] (turnState s ch) t ∧
      t = { turnState s ch with regs := t.regs, replies := t.replies } := by
  refine runs_letterCmd he hfits ?_
  rw [letterRead_inFlight hnext hroom hwin, ← turnState_inFlightAcks s ch]
  obtain ⟨hcount, hwords, hrest⟩ := answer_counted (ch := ch.val) (op := e.op) (l := l) (turnState s ch)
    (f := Fd.daybook_INFLIGHT_ACK_COUNT) (by decide) (by decide) rfInFlight (Result.plain 0 0)
  exact ⟨answer_fadd_replies (turnState_replies s ch) _ _ _, hcount, hwords, hrest⟩

theorem staleSequence_refused (hnext : ReadsNext s ch e.op l) (hroom : creditedOp e.op = true ∨ uncredited s ch < 4)
    (hwin : classify s ch l.seq.toNat = .stale) :
    Runs e.cmd s fun t =>
      Refused ch e.op l 0x13 0 s t ∧ fget t Fd.daybook_STALE_COUNT = (fget s Fd.daybook_STALE_COUNT + 1) % 2 ^ 32 ∧
      WordsBut [Fd.daybook_STALE_COUNT.word] (turnState s ch) t ∧
      t = { turnState s ch with regs := t.regs, replies := t.replies } := by
  refine runs_letterCmd he hfits ?_
  rw [letterRead_stale hnext hroom hwin, ← turnState_staleCount s ch]
  obtain ⟨hcount, hwords, hrest⟩ := answer_counted (ch := ch.val) (op := e.op) (l := l) (turnState s ch)
    (f := Fd.daybook_STALE_COUNT) (by decide) (by decide) rfFinal (Result.plain 0x13 0)
  have hreplies : (fadd (turnState s ch) Fd.daybook_STALE_COUNT 1).replies = s.replies := turnState_replies s ch
  exact ⟨refuse_refused hreplies _ _ _ _ _, hcount, hwords, hrest⟩

section
variable (hnext : ReadsNext s ch e.op l)
  (hroom : creditedOp e.op = true ∨ uncredited s ch < 4) (hfresh : classify s ch l.seq.toNat = .fresh)
include hnext hroom hfresh

/-- A fresh entry that the steps from 5 on reject. -/
theorem runs_reject (hvol : dbVolatile (judgeState s ch e.op l) = false) {status detail : Nat} (hlen : ch.val < s.chans.length)
    (hread : judgeFresh (turnState s ch) ch e.op (fget s (Fd.chan_PID ch)) l e.data =
      reject (judgeState s ch e.op l) ch e.op (fget s (Fd.chan_PID ch)) l status detail) :
    Runs e.cmd s fun t => Rejected ch e.op l status detail s t ∧ TaskFrame (turnState s ch) t := by
  refine runs_letterCmd he hfits ?_
  rw [letterRead_fresh hnext (.inr hroom) hfresh, hread]
  obtain ⟨hrej, hframe, -⟩ := reject_judged ch.isLt hlen hnext hfresh hvol (fget s (Fd.chan_PID ch)) status detail
  exact ⟨hrej, hframe⟩

variable (hfield : fieldFault (judgeState s ch e.op l) e.op ch (fget s (Fd.chan_PID ch)) l e.data = none)
  (hforb : forbidden (judgeState s ch e.op l) e.op (fget s (Fd.chan_PID ch)) l e.data = false)
  (hkey : keyRefused (judgeState s ch e.op l) e.op l = false)
include hfield hforb hkey

theorem notReady_refused {d : Nat} (hready : notReady (judgeState s ch e.op l) e.op (fget s (Fd.chan_PID ch)) l = some d) :
    Runs e.cmd s fun t => Refused ch e.op l 0x14 d s t ∧ t = { judgeState s ch e.op l with replies := t.replies } := by
  refine runs_letterCmd he hfits ?_
  have hjudge := judgeFresh_notReady (u := turnState s ch) (opDefined_of_letterCmd he) hfield hforb hkey hready
  rw [letterRead_fresh hnext (.inr hroom) hfresh, hjudge]
  exact ⟨refuse_refused (judgeState_replies s ch e.op l) _ _ _ _ _, rfl⟩

theorem creditLack_refused {d : Nat} (hop : creditedOp e.op = true)
    (hready : notReady (judgeState s ch e.op l) e.op (fget s (Fd.chan_PID ch)) l = none)
    (hlack : creditLack (judgeState s ch e.op l) ch (fget s (Fd.chan_PID ch)) [] = some d)
    (halone : victims (judgeState s ch e.op l) e.op (fget s (Fd.chan_PID ch)) (bits l.stream.toNat 11 0) = []) :
    Runs e.cmd s fun t =>
      Refused ch e.op l 0x10 d s t ∧
      fget t (Fd.chan_BUSY_COUNT ch) = (fget s (Fd.chan_BUSY_COUNT ch) + 1) % 2 ^ 32 ∧
      WordsBut [(Fd.chan_BUSY_COUNT ch).word] (judgeState s ch e.op l) t ∧
      t = { judgeState s ch e.op l with regs := t.regs, replies := t.replies } := by
  refine runs_letterCmd he hfits ?_
  have hjudge := judgeFresh_passes (u := turnState s ch) (opDefined_of_letterCmd he) hfield hforb hkey hready
  have hbusy := creditStep_busy (data := e.data) hop hlack halone
  rw [letterRead_fresh hnext (.inr hroom) hfresh, hjudge.trans hbusy, ← judgeState_busyCount s ch.isLt e.op l]
  obtain ⟨hcount, hwords, hrest⟩ := answer_counted (ch := ch.val) (op := e.op) (l := l) (judgeState s ch e.op l)
    (f := Fd.chan_BUSY_COUNT ch) ⟨Nat.zero_le _, show (31 : Nat) < 32 by decide⟩ (chan_BUSY_COUNT_off_lt ch) rfFinal
    (Result.plain 0x10 d)
  have hreplies : (fadd (judgeState s ch e.op l) (Fd.chan_BUSY_COUNT ch) 1).replies = s.replies := judgeState_replies s ch e.op l
  exact ⟨refuse_refused hreplies _ _ _ _ _, hcount, hwords, hrest⟩

end

end

theorem undefinedOpcode_rejected {ch : Fin 64} {opcode : Byte} {l : LetterIn} {s : State} (hdef : opDefined opcode.toNat = false)
    (hlen : ch.val < s.chans.length) (hnext : ReadsNext s ch opcode.toNat l) (hfresh : classify s ch l.seq.toNat = .fresh)
    (hvol : dbVolatile s = false) :
    Runs (.undefinedOpcodeLetter ch opcode l) s fun t =>
      Rejected ch opcode.toNat l 0x11 0 s t ∧ TaskFrame (turnState s ch) t ∧ t.ord = s.ord := by
  have hexec : exec (.undefinedOpcodeLetter ch opcode l) s = .next (letterRead s opcode.toNat ch l []) := by
    show execUndefinedOpcodeLetter ch opcode l s = _
    simp [execUndefinedOpcodeLetter, hdef]
  have hjudge := judgeFresh_undefined (u := turnState s ch) (ch := ch) (pid := fget s (Fd.chan_PID ch)) (l := l) (data := []) hdef
  refine ⟨_, hexec, ?_⟩
  rw [letterRead_fresh hnext (.inl hdef) hfresh, hjudge]
  exact reject_judged ch.isLt hlen hnext hfresh ((judgeState_dbVolatile s ch _ l).trans hvol) _ 0x11 0

/-- Settles O55: the steps of R82 in their order, each from the state in which the entry is judged. -/
theorem lettersThatFailAStepAreAnswered : Obligations.LettersThatFailAStepAreAnswered := by
  refine ⟨?damaged, ?held, ?inFlight, ?stale, ?undefined, ?field, ?forbidden, ?notReady, ?busy⟩
  case damaged =>
    intro ch l data e d s he hfits hturn hfree hfront
    exact damagedEntry_refused he hfits hturn hfree hfront
  case held =>
    intro ch l data e s he hfits hlen hnext hop hfour
    exact fifthUncredited_held he hfits hlen hnext hop hfour
  case inFlight =>
    intro ch l data e s he hfits hnext hroom hwin
    exact duplicateInFlight_acknowledged he hfits hnext hroom hwin
  case stale =>
    intro ch l data e s he hfits hnext hroom hwin
    exact staleSequence_refused he hfits hnext hroom hwin
  case undefined =>
    intro ch opcode l s hdef hlen hnext hfresh hvol
    exact undefinedOpcode_rejected hdef hlen hnext hfresh hvol
  case field =>
    intro ch l data e o s he hfits hlen hnext hroom hfresh hvol hfield
    exact runs_reject he hfits hnext hroom hfresh hvol hlen
      (judgeFresh_field (u := turnState s ch) (opDefined_of_letterCmd he) hfield)
  case forbidden =>
    intro ch l data e s he hfits hlen hnext hroom hfresh hvol hfield hforb
    exact runs_reject he hfits hnext hroom hfresh hvol hlen
      (judgeFresh_forbidden (u := turnState s ch) (opDefined_of_letterCmd he) hfield hforb)
  case notReady =>
    intro ch l data e d s he hfits hnext hroom hfresh hfield hforb hkey hready
    exact notReady_refused he hfits hnext hroom hfresh hfield hforb hkey hready
  case busy =>
    intro ch l data e d s he hfits hnext hop hfresh hfield hforb hkey hready hlack halone
    exact creditLack_refused he hfits hnext (.inl hop) hfresh hfield hforb hkey hop hready hlack halone

end Sys2Proof.Machine
end

section
/-! SUPPORT. Writing and dropping Replies (02 R54, R64-R69, R86, R92, R98; 03 R101, R107). -/

namespace Sys2Proof.Machine

/-! ### The 64 bytes of a Reply -/

theorem length_leBytes (n v : Nat) : (leBytes n v).length = n := by
  induction n generalizing v with
  | zero => rfl
  | succ n ih => rw [leBytes, List.length_cons, ih]

theorem length_bytesAt (b : List Byte) (a n : Nat) : (bytesAt b a n).length = n := by
  simp only [bytesAt, List.length_append, List.length_take, List.length_drop, List.length_replicate]
  omega

theorem Docket.length_bytes (d : Docket) : d.bytes.length = 16 := by
  simp [Docket.bytes, Docket.body, length_leBytes]

theorem length_replyNow (s : State) (p : PendReply) : (replyNow s p).length = 64 := by
  unfold replyNow replyBytes replyBody
  dsimp only
  cases p.res.docket with
  | none => simp [length_leBytes, length_bytesAt]
  | some d => simp [length_leBytes, length_bytesAt, Docket.length_bytes]

/-! ### Host memory -/

/-- One byte of a map whose keys rise. -/
theorem mapRange_one {α : Type} {d : α} {m : List (Nat × α)} (hm : m.Pairwise fun a b => a.1 < b.1) (x : Nat) :
    mapRange d m x 1 = [mapGet d m x] := by
  have hsplit : mapFind m x = mapFind (m.dropWhile fun e => e.1 < x) x := by
    conv_lhs => rw [← List.takeWhile_append_dropWhile (p := fun e : Nat × α => decide (e.1 < x)) (l := m)]
    exact mapFind_append_right fun e he => Nat.ne_of_lt (lt_of_mem_takeWhile he)
  have hrises := hm.sublist (List.dropWhile_sublist (l := m) fun e => decide (e.1 < x))
  unfold mapRange mapGet
  rw [hsplit]
  generalize hr : (m.dropWhile fun e => decide (e.1 < x)) = r at hrises
  have hle : ∀ e ∈ r, x ≤ e.1 := fun e he => le_of_mem_dropWhile hm (hr ▸ he)
  cases r with
  | nil => rfl
  | cons c r =>
    obtain ⟨k, v⟩ := c
    by_cases hk : k = x
    · simp [mapWalk, mapFind, hk]
    · have habove : ∀ e ∈ r, e.1 ≠ x := fun e he => by
        have hlt := (List.pairwise_cons.1 hrises).1 e he
        have := hle _ List.mem_cons_self
        dsimp only at hlt this
        omega
      simp [mapWalk, mapFind, hk, mapFind_eq_none habove]

theorem hostBut_hostPut {s t : State} (h : Memory.wf s.host) {a : Nat} {bs : List Byte} (ht : t.host = mapPutAll 0 s.host a bs) :
    HostBut a bs.length s t := fun x hx => by
  unfold hostBytes
  rw [ht, mapRange_one (mapPutAll_wf h a bs).1, mapRange_one h.1, mapGet_mapPutAll_outside h.1 hx]

theorem hostBytes_hostPut {s t : State} (h : Memory.wf s.host) {a : Nat} {bs : List Byte} (ht : t.host = mapPutAll 0 s.host a bs) :
    hostBytes t a bs.length = bs := by
  unfold hostBytes
  rw [ht, mapRange_mapPutAll_same h.1]

/-! ### The mirror entry -/

theorem mirrorAddr_of_regs {s t : State} (h : t.regs = s.regs) (ch seq : Nat) : mirrorAddr t ch seq = mirrorAddr s ch seq := by
  unfold mirrorAddr mirrorBase fget64
  rw [fget_of_regs h, fget_of_regs h]

theorem pooled_of_regs {s t : State} (h : t.regs = s.regs) (pid a : Nat) : pooled t pid a = pooled s pid a := by
  unfold pooled regimeOf poolBanks
  rw [fget_of_regs h, fget_of_regs h, fget_of_regs h]

/-- The Reply's half of a mirror entry outside the pool is written straight into storage (R101). -/
theorem mirrorReply_mem {s : State} {ch seq : Nat} (h : pooled s 0 (mirrorAddr s ch seq + 64) = false) (bs : List Byte) :
    (mirrorReply s ch seq bs).mem = mapPutAll 0 s.mem (mirrorAddr s ch seq + 64) bs := by
  unfold mirrorReply
  rw [ownWrite_of_direct h, writeRaw_mem]

/-! ### Leaving flight -/

section
variable (s : State) (ch : Nat) (strict : Bool)

theorem freeCredit_state : freeCredit s ch strict = { s with regs := (freeCredit s ch strict).regs } := by
  cases strict <;> rfl

theorem freeCredit_words : WordsBut (creditWords ch) s (freeCredit s ch strict) := by
  have htwo := ((WordsBut.refl (creditWords ch) s).fput (Fd.chan_IN_FLIGHT ch) (fget s (Fd.chan_IN_FLIGHT ch) - 1)
    (chan_IN_FLIGHT_off_lt ch) (by simp)).fput Fd.dev_DEV_IN_FLIGHT
    (fget (fput s (Fd.chan_IN_FLIGHT ch) (fget s (Fd.chan_IN_FLIGHT ch) - 1)) Fd.dev_DEV_IN_FLIGHT - 1) (by decide) (by simp)
  cases strict with
  | true => exact htwo
  | false => exact htwo.fput Fd.dev_LOOSE_IN_FLIGHT _ (by decide) (by simp)

/-- A field takes a smaller value than it holds. -/
theorem fget_fput_pred (f : Fld) (hf : f.ok) (n : Nat) : fget (fput s f (fget s f - n)) f = fget s f - n :=
  (fget_fput_same s f _ hf).trans (Nat.mod_eq_of_lt (Nat.lt_of_le_of_lt (Nat.sub_le _ _) (fget_lt_card s f)))

theorem freeCredit_inFlight : fget (freeCredit s ch strict) (Fd.chan_IN_FLIGHT ch) = fget s (Fd.chan_IN_FLIGHT ch) - 1 := by
  have hdev := (chan_IN_FLIGHT_apart_dev ch (g := Fd.dev_DEV_IN_FLIGHT) (by decide) (by decide)).2
  have hloose := (chan_IN_FLIGHT_apart_dev ch (g := Fd.dev_LOOSE_IN_FLIGHT) (by decide) (by decide)).2
  have hone := fget_fput_pred s (Fd.chan_IN_FLIGHT ch) (chan_IN_FLIGHT_ok ch) 1
  cases strict with
  | true => exact (fget_fput_other _ _ _ _ (by decide) (chan_IN_FLIGHT_ok ch) hdev).trans hone
  | false =>
    exact (fget_fput_other _ _ _ _ (by decide) (chan_IN_FLIGHT_ok ch) hloose).trans
      ((fget_fput_other _ _ _ _ (by decide) (chan_IN_FLIGHT_ok ch) hdev).trans hone)

theorem freeCredit_devInFlight : fget (freeCredit s ch strict) Fd.dev_DEV_IN_FLIGHT = fget s Fd.dev_DEV_IN_FLIGHT - 1 := by
  have hchan := (chan_IN_FLIGHT_apart_dev ch (g := Fd.dev_DEV_IN_FLIGHT) (by decide) (by decide)).1
  have hkeep : fget (fput s (Fd.chan_IN_FLIGHT ch) (fget s (Fd.chan_IN_FLIGHT ch) - 1)) Fd.dev_DEV_IN_FLIGHT =
      fget s Fd.dev_DEV_IN_FLIGHT := fget_fput_other _ _ _ _ (chan_IN_FLIGHT_ok ch) (by decide) hchan
  have htwo := (fget_fput_pred (fput s (Fd.chan_IN_FLIGHT ch) (fget s (Fd.chan_IN_FLIGHT ch) - 1)) Fd.dev_DEV_IN_FLIGHT
    (by decide) 1).trans (congrArg (· - 1) hkeep)
  cases strict with
  | true => exact htwo
  | false => exact (fget_fput_other _ _ _ _ (by decide) (by decide) dev_counts_apart.2).trans htwo

end

/-- A Reply out of the device ends its Letter's flight if it is the final one (R86). -/
def flightEnded (s : State) (p : PendReply) : State := if p.final then leaveFlight s p else s

section
variable (s : State) (p : PendReply)

theorem leaveFlight_state : leaveFlight s p = { s with
    regs := (leaveFlight s p).regs, letters := s.letters.filter fun l => !(l.ch == p.ch && l.l.seq.toNat == p.seq) } := by
  unfold leaveFlight
  dsimp only
  split
  · rw [freeCredit_state]
  · rfl

theorem leaveFlight_words : WordsBut (creditWords p.ch) s (leaveFlight s p) := by
  unfold leaveFlight
  dsimp only
  split
  · exact ((WordsBut.refl _ s).of_regs rfl).trans (freeCredit_words _ _ _)
  · exact (WordsBut.refl _ s).of_regs rfl

theorem leaveFlight_inFlight :
    fget (leaveFlight s p) (Fd.chan_IN_FLIGHT p.ch) = fget s (Fd.chan_IN_FLIGHT p.ch) - b2n p.credited := by
  unfold leaveFlight
  dsimp only
  split
  next hc => rw [freeCredit_inFlight, hc]; rfl
  next hc => rw [Bool.eq_false_of_not_eq_true hc]; rfl

theorem leaveFlight_devInFlight :
    fget (leaveFlight s p) Fd.dev_DEV_IN_FLIGHT = fget s Fd.dev_DEV_IN_FLIGHT - b2n p.credited := by
  unfold leaveFlight
  dsimp only
  split
  next hc => rw [freeCredit_devInFlight, hc]; rfl
  next hc => rw [Bool.eq_false_of_not_eq_true hc]; rfl

theorem flightEnded_state : flightEnded s p =
    { s with regs := (flightEnded s p).regs, letters := (flightEnded s p).letters } := by
  unfold flightEnded
  split
  · rw [leaveFlight_state]
  · rfl

theorem flightEnded_letters (h : p.final = true) :
    (flightEnded s p).letters = s.letters.filter fun l => !(l.ch == p.ch && l.l.seq.toNat == p.seq) := by
  unfold flightEnded
  rw [if_pos h, leaveFlight_state]

theorem flightEnded_of_notFinal (h : p.final = false) : flightEnded s p = s := if_neg (by simp [h])

theorem flightEnded_words : WordsBut (creditWords p.ch) s (flightEnded s p) := by
  unfold flightEnded
  split
  · exact leaveFlight_words s p
  · exact .refl _ s

theorem flightEnded_inFlight :
    fget (flightEnded s p) (Fd.chan_IN_FLIGHT p.ch) = fget s (Fd.chan_IN_FLIGHT p.ch) - b2n (p.final && p.credited) := by
  unfold flightEnded
  split
  next hf => rw [leaveFlight_inFlight, hf, Bool.true_and]
  next hf => rw [Bool.eq_false_of_not_eq_true hf]; rfl

theorem flightEnded_devInFlight :
    fget (flightEnded s p) Fd.dev_DEV_IN_FLIGHT = fget s Fd.dev_DEV_IN_FLIGHT - b2n (p.final && p.credited) := by
  unfold flightEnded
  split
  next hf => rw [leaveFlight_devInFlight, hf, Bool.true_and]
  next hf => rw [Bool.eq_false_of_not_eq_true hf]; rfl

/-! ### A Reply that is written -/

/-- A Reply that has left the device for host memory, and for its half of the mirror entry if it is a final one (R54, R101). -/
def storedReply : State :=
  if p.final then mirrorReply (hostPut (takeReply s p) (replyAddr s p.ch) (replyNow s p)) p.ch p.seq (replyNow s p)
  else hostPut (takeReply s p) (replyAddr s p.ch) (replyNow s p)

/-- The tail of a channel's Reply ring has passed an entry (R54). -/
def passedTail (ch : Nat) : State := fput s (Fd.chan_RRING_TAIL ch) ((fget s (Fd.chan_RRING_TAIL ch) + 1) % 2 ^ 16)

/-- A Reply's interrupt, if it asks for one (R98). -/
def replyIrq : State := if p.irq then sendMsix s (ownerFn s (fget s (Fd.chan_PID p.ch))) (fget s (Fd.chan_MSIX_VEC p.ch)) else s

/-- What is left to do once a Reply stands in host memory (R54, R86, R98). -/
def sentReply : State := flightEnded (replyIrq (passedTail s p.ch) p) p

theorem writeReply_eq : writeReply s p = sentReply (storedReply s p) p := rfl

theorem dropReply_eq : dropReply s p = flightEnded (takeReply s p) p := rfl

theorem replyIrq_state : replyIrq s p = { s with outbox := (replyIrq s p).outbox } := by
  unfold replyIrq sendMsix
  split
  · split <;> rfl
  · rfl

theorem replyIrq_regs : (replyIrq s p).regs = s.regs := by rw [replyIrq_state]

theorem chan_RRING_TAIL_off_lt (ch : Nat) : (Fd.chan_RRING_TAIL ch).off < 0x1000 := show 0x064 + 0x40 * (ch % 16) < 0x1000 by omega

theorem passedTail_words (ch : Nat) : WordsBut [(Fd.chan_RRING_TAIL ch).word] s (passedTail s ch) :=
  (WordsBut.refl _ s).fput _ _ (chan_RRING_TAIL_off_lt ch) List.mem_cons_self

theorem passedTail_tail (ch : Nat) :
    fget (passedTail s ch) (Fd.chan_RRING_TAIL ch) = (fget s (Fd.chan_RRING_TAIL ch) + 1) % 2 ^ 16 :=
  (fget_fput_same _ _ _ ⟨Nat.zero_le _, show (15 : Nat) < 32 by decide⟩).trans (Nat.mod_mod _ _)

/-- A register that is no ring's tail reads as before. -/
theorem passedTail_fget (ch : Nat) (g : Fld) (hl : g.off < 0x1000)
    (h : g.off % 0x40 ≠ 0x24 ∨ 0x440 ≤ g.off ∨ 0x060 ≤ g.page) (hch : ch < 64) : fget (passedTail s ch) g = fget s g := by
  refine (passedTail_words s ch).fget g hl fun hmem => ?_
  obtain ⟨hpage, hoff⟩ := Prod.mk.inj (List.mem_singleton.1 hmem)
  change g.page = 0x008 + ch / 16 at hpage
  change g.off = 0x064 + 0x40 * (ch % 16) at hoff
  omega

theorem ownerFn_of_mask {s t : State} {pid : Nat} (h : fget t (Fd.part_VF_MASK pid) = fget s (Fd.part_VF_MASK pid)) :
    ownerFn t pid = ownerFn s pid := by
  unfold ownerFn
  rw [h]

theorem sentReply_state : sentReply s p = { s with
    regs := (sentReply s p).regs, outbox := (sentReply s p).outbox, letters := (sentReply s p).letters } := by
  unfold sentReply
  rw [flightEnded_state, replyIrq_state]
  rfl

theorem sentReply_letters (h : p.final = true) :
    (sentReply s p).letters = s.letters.filter fun l => !(l.ch == p.ch && l.l.seq.toNat == p.seq) := by
  unfold sentReply
  rw [flightEnded_letters _ _ h, replyIrq_state]
  rfl

theorem sentReply_letters_of_notFinal (h : p.final = false) : (sentReply s p).letters = s.letters := by
  unfold sentReply
  rw [flightEnded_of_notFinal _ _ h, replyIrq_state]
  rfl

theorem chan_RRING_TAIL_not_credit (ch : Nat) : (Fd.chan_RRING_TAIL ch).page < 0x008 ∨
    (Fd.chan_RRING_TAIL ch).off < 0x800 ∧ (Fd.chan_RRING_TAIL ch).off % 0x40 ≠ 0x34 :=
  .inr ⟨show 0x064 + 0x40 * (ch % 16) < 0x800 by omega, show (0x064 + 0x40 * (ch % 16)) % 0x40 ≠ 0x34 by omega⟩

theorem sentReply_tail :
    fget (sentReply s p) (Fd.chan_RRING_TAIL p.ch) = (fget s (Fd.chan_RRING_TAIL p.ch) + 1) % 2 ^ 16 :=
  calc fget (sentReply s p) (Fd.chan_RRING_TAIL p.ch)
    _ = fget (replyIrq (passedTail s p.ch) p) (Fd.chan_RRING_TAIL p.ch) :=
      (flightEnded_words _ p).fget _ (chan_RRING_TAIL_off_lt _) (not_mem_creditWords (chan_RRING_TAIL_not_credit _))
    _ = fget (passedTail s p.ch) (Fd.chan_RRING_TAIL p.ch) := fget_of_regs (replyIrq_regs _ _) _
    _ = _ := passedTail_tail s p.ch

theorem sentReply_inFlight (hch : p.ch < 64) :
    fget (sentReply s p) (Fd.chan_IN_FLIGHT p.ch) = fget s (Fd.chan_IN_FLIGHT p.ch) - b2n (p.final && p.credited) := by
  have hkeep : fget (replyIrq (passedTail s p.ch) p) (Fd.chan_IN_FLIGHT p.ch) = fget s (Fd.chan_IN_FLIGHT p.ch) :=
    (fget_of_regs (replyIrq_regs _ _) _).trans (passedTail_fget s p.ch _ (chan_IN_FLIGHT_off_lt _)
      (.inl (show (0x074 + 0x40 * (p.ch % 16)) % 0x40 ≠ 0x24 by omega)) hch)
  exact (flightEnded_inFlight _ p).trans (congrArg (· - _) hkeep)

theorem sentReply_devInFlight (hch : p.ch < 64) :
    fget (sentReply s p) Fd.dev_DEV_IN_FLIGHT = fget s Fd.dev_DEV_IN_FLIGHT - b2n (p.final && p.credited) := by
  have hkeep : fget (replyIrq (passedTail s p.ch) p) Fd.dev_DEV_IN_FLIGHT = fget s Fd.dev_DEV_IN_FLIGHT :=
    (fget_of_regs (replyIrq_regs _ _) _).trans (passedTail_fget s p.ch _ (by decide) (.inl (by decide)) hch)
  exact (flightEnded_devInFlight _ p).trans (congrArg (· - _) hkeep)

/-- A Reply that asks for an interrupt sends it through a link that is up, to a function that is not lost (R98, R680). -/
theorem sentReply_msix (hch : p.ch < 64) (hirq : p.irq = true) (hlink : s.pins.linkUp = true)
    (hfn : ownerFn s (fget s (Fd.chan_PID p.ch)) ∉ s.lostFns) :
    .msix (ownerFn s (fget s (Fd.chan_PID p.ch))) (fget s (Fd.chan_MSIX_VEC p.ch)) ∈ (sentReply s p).outbox := by
  have hpid : fget (passedTail s p.ch) (Fd.chan_PID p.ch) = fget s (Fd.chan_PID p.ch) :=
    passedTail_fget s p.ch _ (show 0x06C + 0x40 * (p.ch % 16) < 0x1000 by omega)
      (.inl (show (0x06C + 0x40 * (p.ch % 16)) % 0x40 ≠ 0x24 by omega)) hch
  have hvec : fget (passedTail s p.ch) (Fd.chan_MSIX_VEC p.ch) = fget s (Fd.chan_MSIX_VEC p.ch) :=
    passedTail_fget s p.ch _ (show 0x068 + 0x40 * (p.ch % 16) < 0x1000 by omega)
      (.inl (show (0x068 + 0x40 * (p.ch % 16)) % 0x40 ≠ 0x24 by omega)) hch
  have howner (pid : Nat) : ownerFn (passedTail s p.ch) pid = ownerFn s pid :=
    ownerFn_of_mask (passedTail_fget s p.ch (Fd.part_VF_MASK pid) (show (0x058 : Nat) < 0x1000 by decide)
      (.inr (.inr (Nat.le_add_right _ _))) hch)
  have hblock : (s.lostFns.contains (ownerFn s (fget s (Fd.chan_PID p.ch))) || !s.pins.linkUp) = false := by
    simp [hlink, hfn]
  have hsent : replyIrq (passedTail s p.ch) p =
      send (passedTail s p.ch) (.msix (ownerFn s (fget s (Fd.chan_PID p.ch))) (fget s (Fd.chan_MSIX_VEC p.ch))) := by
    unfold replyIrq sendMsix
    rw [if_pos hirq, hpid, hvec, howner]
    exact if_neg (by rw [Bool.not_eq_true]; exact hblock)
  have hout : (sentReply s p).outbox = (replyIrq (passedTail s p.ch) p).outbox := by
    unfold sentReply
    rw [flightEnded_state]
  rw [hout, hsent]
  exact List.mem_append_right _ List.mem_cons_self

end

/-! ### The state in which a Reply stands in host memory -/

section
variable {s u : State} {a : Nat} {bs : List Byte} {p : PendReply} (h : StorageFrame (hostPut (takeReply s p) a bs) u)
include h

theorem StorageFrame.hosted_host : u.host = mapPutAll 0 s.host a bs := by rw [h.rest]; rfl

theorem StorageFrame.hosted_replies : u.replies = s.replies.erase p := h.replies

theorem StorageFrame.hosted_letters : u.letters = s.letters := h.letters

theorem StorageFrame.hosted_pins : u.pins = s.pins := by rw [h.rest]; rfl

theorem StorageFrame.hosted_lostFns : u.lostFns = s.lostFns := by rw [h.rest]; rfl

theorem StorageFrame.hosted_chan {ch : Nat} (hch : ch < 64) (g : Fld) {o : Nat} (hpage : g.page = 0x008 + ch / 16)
    (ho : g.off = o + 0x40 * (ch % 16)) (hl : 0x040 ≤ o) (hu : o < 0x080) : fget u g = fget s g :=
  (h.fgetChan hch g hpage ho hl hu).trans (fget_of_regs rfl g)

theorem StorageFrame.hosted_devInFlight : fget u Fd.dev_DEV_IN_FLIGHT = fget s Fd.dev_DEV_IN_FLIGHT :=
  (h.fgetLow _ (by decide) (by decide) (by decide)).trans (fget_of_regs rfl _)

theorem StorageFrame.hosted_ownerFn {pid : Nat} (hpid : pid < 16) : ownerFn u pid = ownerFn s pid :=
  ownerFn_of_mask ((h.fgetPart _ rfl hpid (show (0x040 : Nat) ≤ 0x058 by decide) (show (0x058 : Nat) < 0x080 by decide)).trans
    (fget_of_regs rfl _))

theorem StorageFrame.hosted_task : TaskFrame { s with host := u.host } u := by
  unfold TaskFrame
  rw [h.rest]
  rfl

end

section
variable (s : State) (p : PendReply)

theorem storedReply_storage :
    StorageFrame (hostPut (takeReply s p) (replyAddr s p.ch) (replyNow s p)) (storedReply s p) := by
  unfold storedReply
  split
  · exact ownWrite_storage _ _ _
  · exact .refl _

theorem storedReply_mem_of_notFinal (h : p.final = false) : (storedReply s p).mem = s.mem := by
  unfold storedReply
  rw [if_neg (by simp [h])]
  rfl

theorem storedReply_mem_of_final (h : p.final = true) (hdirect : pooled s 0 (mirrorAddr s p.ch p.seq + 64) = false) :
    (storedReply s p).mem = mapPutAll 0 s.mem (mirrorAddr s p.ch p.seq + 64) (replyNow s p) := by
  have hregs : (hostPut (takeReply s p) (replyAddr s p.ch) (replyNow s p)).regs = s.regs := rfl
  have haddr := mirrorAddr_of_regs hregs p.ch p.seq
  have hmem := mirrorReply_mem (ch := p.ch) (seq := p.seq) ((pooled_of_regs hregs 0 _).trans (haddr ▸ hdirect)) (replyNow s p)
  unfold storedReply
  rw [if_pos h, hmem, haddr]
  rfl

end

/-! ### The Reply that is written next -/

theorem nextReply_ch {s : State} {ch : Nat} {p : PendReply} (h : nextReply s ch = some p) : p.ch = ch := by
  obtain ⟨hfind, -⟩ := Option.filter_eq_some_iff.1 h
  simpa using List.find?_some hfind

section
variable {ch : Fin 64} {p : PendReply} {s : State} (hnext : nextReply s ch = some p) (hpower : s.boot.holdup = false)
include hnext hpower

theorem exec_replyWrite_writes (hhost : hostGone s (fget s (Fd.chan_PID ch)) = false) (hroom : rringFull s ch = false) :
    exec (.replyWrite ch) s = .next (sentReply (storedReply s p) p) := by
  show execReplyWrite ch s = _
  unfold execReplyWrite
  simp [hnext, hpower, hhost, hroom, writeReply_eq]

theorem exec_replyWrite_drops (hhost : hostGone s (fget s (Fd.chan_PID ch)) = true) :
    exec (.replyWrite ch) s = .next (flightEnded (takeReply s p) p) := by
  show execReplyWrite ch s = _
  unfold execReplyWrite
  simp [hnext, hpower, hhost, dropReply_eq]

theorem exec_replyWrite_waits (hhost : hostGone s (fget s (Fd.chan_PID ch)) = false) (hroom : rringFull s ch = true) :
    exec (.replyWrite ch) s = .next s := by
  show execReplyWrite ch s = _
  unfold execReplyWrite
  simp [hnext, hpower, hhost, hroom]

end

/-! ### The clauses -/

theorem linkUp_of_hostGone {s : State} {pid : Nat} (h : hostGone s pid = false) : s.pins.linkUp = true := by
  simp only [hostGone, Bool.or_eq_false_iff, Bool.not_eq_false'] at h
  exact h.1

theorem reply_written {ch : Fin 64} {p : PendReply} {s : State} (hcan : Canonical s) (hnext : nextReply s ch = some p)
    (hpower : s.boot.holdup = false) (hhost : hostGone s (fget s (Fd.chan_PID ch)) = false) (hroom : rringFull s ch = false) :
    Runs (.replyWrite ch) s fun t =>
      hostBytes t (replyAddr s ch) 64 = replyNow s p ∧ HostBut (replyAddr s ch) 64 s t ∧
      fget t (Fd.chan_RRING_TAIL ch) = (fget s (Fd.chan_RRING_TAIL ch) + 1) % 2 ^ 16 ∧
      t.replies = s.replies.erase p ∧
      (p.final = false → t.letters = s.letters ∧ SameBytes { s with host := t.host } t) ∧
      (p.final = true → t.letters = s.letters.filter (fun l => !(l.ch == ch.val && l.l.seq.toNat == p.seq)) ∧
        (MirrorDirect s ch p.seq → memBytes t (mirrorAddr s ch p.seq + 64) 64 = replyNow s p ∧
          BytesBut (mirrorAddr s ch p.seq + 64) 64 s t)) ∧
      fget t (Fd.chan_IN_FLIGHT ch) = fget s (Fd.chan_IN_FLIGHT ch) - b2n (p.final && p.credited) ∧
      fget t Fd.dev_DEV_IN_FLIGHT = fget s Fd.dev_DEV_IN_FLIGHT - b2n (p.final && p.credited) ∧
      (p.irq = true → ownerFn s (fget s (Fd.chan_PID ch)) ∉ s.lostFns →
        .msix (ownerFn s (fget s (Fd.chan_PID ch))) (fget s (Fd.chan_MSIX_VEC ch)) ∈ t.outbox) ∧
      TaskFrame { s with host := t.host } t := by
  refine ⟨_, exec_replyWrite_writes hnext hpower hhost hroom, ?_⟩
  have hlink := linkUp_of_hostGone hhost
  have hp : p.ch = ch := nextReply_ch hnext
  have hch : p.ch < 64 := hp ▸ ch.isLt
  rw [← hp]
  have hu := storedReply_storage s p
  have hnotFinal := storedReply_mem_of_notFinal s p
  have hfinal := storedReply_mem_of_final s p
  have hlength := length_replyNow s p
  generalize storedReply s p = u at hu hnotFinal hfinal
  have hstate := sentReply_state u p
  have htail := sentReply_tail u p
  have hflight := sentReply_inFlight u p hch
  have hdev := sentReply_devInFlight u p hch
  have hmsix := sentReply_msix u p hch
  have hkept := sentReply_letters u p
  have hkept' := sentReply_letters_of_notFinal u p
  generalize sentReply u p = t at hstate htail hflight hdev hmsix hkept hkept'
  have hhostMem : t.host = mapPutAll 0 s.host (replyAddr s p.ch) (replyNow s p) := by rw [hstate]; exact hu.hosted_host
  have hmem : t.mem = u.mem := by rw [hstate]
  rw [hu.hosted_pins, hu.hosted_lostFns, hu.hosted_chan hch (Fd.chan_PID p.ch) rfl rfl (by decide) (by decide),
    hu.hosted_chan hch (Fd.chan_MSIX_VEC p.ch) rfl rfl (by decide) (by decide), hu.hosted_ownerFn (fget_chan_PID_lt s p.ch)] at hmsix
  rw [hu.hosted_chan hch _ rfl rfl (by decide) (by decide)] at htail hflight
  rw [hu.hosted_devInFlight] at hdev
  rw [hu.hosted_letters] at hkept hkept'
  refine ⟨?_, ?_, htail, ?_, fun h => ⟨hkept' h, fun a => ⟨?_, rfl⟩⟩, fun h => ⟨hkept h, fun hd => ⟨?_, ?_⟩⟩, hflight, hdev,
    fun h => hmsix h hlink, ?_⟩
  · rw [← hlength]
    exact hostBytes_hostPut hcan.host hhostMem
  · rw [← hlength]
    exact hostBut_hostPut hcan.host hhostMem
  · rw [hstate]
    exact hu.hosted_replies
  · unfold memByte
    rw [hmem, hnotFinal h]
  · unfold memBytes
    rw [hmem, hfinal h hd.2, ← hlength, mapRange_mapPutAll_same hcan.mem.1]
  · intro x hx
    unfold memByte
    rw [hmem, hfinal h hd.2, mapGet_mapPutAll_outside hcan.mem.1 (by rw [hlength]; exact hx)]
  · have hhost' : t.host = u.host := by rw [hstate]
    rw [hhost']
    refine hu.hosted_task.trans ?_
    unfold TaskFrame
    rw [hstate]

theorem reply_dropped {ch : Fin 64} {p : PendReply} {s : State} (hnext : nextReply s ch = some p)
    (hpower : s.boot.holdup = false) (hhost : hostGone s (fget s (Fd.chan_PID ch)) = true) :
    Runs (.replyWrite ch) s fun t =>
      t.replies = s.replies.erase p ∧ SameBytes s t ∧
      (p.final = true → t.letters = s.letters.filter fun l => !(l.ch == ch.val && l.l.seq.toNat == p.seq)) ∧
      fget t (Fd.chan_IN_FLIGHT ch) = fget s (Fd.chan_IN_FLIGHT ch) - b2n (p.final && p.credited) ∧
      t = { s with regs := t.regs, replies := t.replies, letters := t.letters } := by
  refine ⟨_, exec_replyWrite_drops hnext hpower hhost, ?_⟩
  rw [← nextReply_ch hnext]
  have hstate := flightEnded_state (takeReply s p) p
  have hflight := flightEnded_inFlight (takeReply s p) p
  have hkept := flightEnded_letters (takeReply s p) p
  generalize flightEnded (takeReply s p) p = t at hstate hflight hkept
  have hmem : t.mem = s.mem := by rw [hstate]; rfl
  have hhostMem : t.host = s.host := by rw [hstate]; rfl
  refine ⟨?_, fun a => ⟨?_, ?_⟩, hkept, hflight, ?_⟩
  · rw [hstate]
    rfl
  · unfold memByte
    rw [hmem]
  · unfold hostBytes
    rw [hhostMem]
  · rw [hstate]
    rfl

/-- Settles O58: the clauses are the three outcomes of a Reply that may leave, by whether its host can be reached and its ring has
room. -/
theorem repliesAreWrittenAndEndTheirLetters : Obligations.RepliesAreWrittenAndEndTheirLetters := by
  refine ⟨?written, ?dropped, ?full⟩
  case written =>
    intro ch p s hcan hnext hpower hhost hroom
    exact reply_written hcan hnext hpower hhost hroom
  case dropped =>
    intro ch p s hnext hpower hhost
    exact reply_dropped hnext hpower hhost
  case full =>
    intro ch p s hnext hpower hroom hhost
    exact ⟨s, exec_replyWrite_waits hnext hpower hhost hroom, rfl⟩

end Sys2Proof.Machine
end

section
/-! SUPPORT. Why the statements about started and waiting Letters fail. That a Letter leaves device memory as it was but for its mirror
entry (`MirrorOnly`) needs memory that is listed in its canonical form, which those statements do not ask for; and a QUERY_DAYBOOK that
meets a damaged record ends in a volatile Daybook, whose versions commit at once (03 R136, R139). -/

namespace Sys2Proof.Machine

/-! ### What the end of a Letter stores -/

theorem queueVersion_mem {s : State} (h : dbVolatile s = false) (v : Version) : (queueVersion s v).mem = s.mem := by
  unfold queueVersion
  rw [h, if_neg Bool.false_ne_true]
  split
  · rfl
  · split
    · rfl
    · split <;> rfl

theorem queuedFrame_mem (h : State) (p : PendReply) (ch seq : Nat) (st : WinSt) :
    { markWindow h ch seq st with replies := (markWindow h ch seq st).replies ++ [p] : State }.mem = h.mem := by
  rw [markWindow_state]

/-- A queued final Reply stores 64 bytes at its half of the mirror entry (R101). -/
theorem queueReply_mem {s : State} {p : PendReply} (h : pooled s 0 (mirrorAddr s p.ch p.seq + 64) = false) :
    ∃ bs : List Byte, bs.length = 64 ∧ (queueReply s p).mem = mapPutAll 0 s.mem (mirrorAddr s p.ch p.seq + 64) bs := by
  have hhalf := queuedFrame_mem (queuedHalf s p) p p.ch p.seq .finished
  have hmem := mirrorReply_mem (s := (draw s).1) (ch := p.ch) (seq := p.seq) h
  refine ⟨_, ?_, hhalf.trans (hmem _)⟩
  cases p.res.docket with
  | none => simp [replyBody, length_leBytes, length_bytesAt]
  | some d => simp [replyBody, length_leBytes, length_bytesAt, Docket.length_bytes]

/-- A Letter that ends stores 64 bytes at its half of the mirror entry (R101, R103). -/
theorem finishLetter_mem {s : State} {ch seq : Nat} {l : Letter} (hl : letterOf s ch seq = some l) (hphase : l.phase ≠ .finished)
    (hvol : dbVolatile s = false) (hdirect : pooled s 0 (mirrorAddr s ch seq + 64) = false) (r : Result) :
    ∃ bs : List Byte, bs.length = 64 ∧ (finishLetter s ch seq r).mem = mapPutAll 0 s.mem (mirrorAddr s ch seq + 64) bs := by
  unfold finishLetter
  rw [hl]
  dsimp only
  rw [if_neg (by simpa using hphase)]
  set u := updLetter s ch seq fun l => { l with phase := .finished, finishPm := now s, res := r }
  set p : PendReply := ⟨ch, l.op, seq, l.l.tag.toNat, rfFinal + rfNotWall, r, true, true, creditedOp l.op, strictPid u l.pid,
    bit l.l.lflags.toNat 0⟩
  obtain ⟨bs, hlen, hmem⟩ := queueReply_mem (s := u) (p := p) hdirect
  have hnotVol : dbVolatile (queueReply u p) = false := (queueReply_dbVolatile u p).trans hvol
  exact ⟨bs, hlen, (queueVersion_mem hnotVol _).trans hmem⟩

/-! ### Memory listed out of order -/

/-- A store drops what is listed behind a key that it replaces: of a list out of order, a byte below its place. -/
theorem mapGet_mapPutAll_outOfOrder {a : Nat} (ha : 0 < a) {bs : List Byte} (hbs : 0 < bs.length) (x y : Byte) :
    mapGet 0 (mapPutAll 0 [(a, x), (0, y)] a bs) 0 = 0 := by
  have hput : mapPutAll 0 [(a, x), (0, y)] a bs = mapEntries 0 a bs := by
    simp [mapPutAll, List.takeWhile, List.dropWhile, hbs]
  have hnone : mapFind (mapEntries 0 a bs) 0 = none :=
    mapFind_eq_none fun e he => by
      have := (mem_mapEntries he).1
      omega
  rw [hput, mapGet, hnone]
  rfl

/-- A running machine that can reach its host, with one Letter of channel 3 and sequence 60. -/
def runningWith (l : Letter) : State := { State.reset with
  boot := { State.reset.boot with powerGood := true, ready := true, scanned := true }
  pins := { State.reset.pins with linkUp := true }
  letters := [l] }

/-- A Letter of channel 3 and sequence 60, with an argument block. -/
def soleLetter (op : Nat) (phase : LPhase) (args : List Byte) : Letter :=
  { ch := 3, op := op, l := ⟨0, 3, 1, 60, 0, 0, 0, 0x1122, args, 0⟩, data := [], pid := 0, ord := 0, phase := phase
    acceptPm := 0, startPm := 0, finishPm := 0, cell := some 0, commit := 1, jno := 0, binds := [], run := none
    res := Result.plain 0 0 }

/-- Where the Reply's half of the Letter's mirror entry stands: the base is 0, and the entry is number 60 of channel 3. -/
def soleHalf : Nat := 3 * 0x80000 + 60 * 0x80 + 64

/-- The same with device memory listed out of order: byte 0, which holds 7, behind the Reply's half of the mirror entry. -/
def outOfOrder (l : Letter) : State := { runningWith l with mem := [(soleHalf, 1), (0, 7)] }

/-- A Letter that ends while memory is listed so loses byte 0. -/
theorem not_mirrorOnly_outOfOrder {l x : Letter} {s : State} (hmem : s.mem = (outOfOrder l).mem)
    (hl : letterOf s 3 60 = some x) (hphase : x.phase ≠ .finished) (hvol : dbVolatile s = false)
    (haddr : mirrorAddr s 3 60 + 64 = soleHalf) (hdirect : pooled s 0 soleHalf = false) (hmirror : MirrorDirect (outOfOrder l) 3 60)
    (hbelow : 0 < mirrorAddr (outOfOrder l) 3 60) (r : Result) : ¬ MirrorOnly 3 60 (outOfOrder l) (finishLetter s 3 60 r) := by
  intro honly
  obtain ⟨bs, hlen, hstored⟩ := finishLetter_mem hl hphase hvol (haddr.symm ▸ hdirect) r
  have hlost : memByte (finishLetter s 3 60 r) 0 = 0 := by
    unfold memByte
    rw [hstored, haddr, hmem]
    exact mapGet_mapPutAll_outOfOrder (by decide) (by omega) 1 7
  have hkept : memByte (finishLetter s 3 60 r) 0 = 7 := honly hmirror 0 (by omega)
  rw [hlost] at hkept
  exact absurd hkept (by decide)

/-! ### A PING (O56) -/

/-- A Letter that may start does what its opcode says (R107). -/
theorem exec_letterStart {ch : Fin 64} {seq : W32} {l : Letter} {s : State} (h : CanStart s ch seq.toNat l) :
    exec (.letterStart ch seq) s = .next (startOp s l) := by
  show execLetterStart ch seq s = _
  have hhost : (movesData l.op && hostGone s l.pid) = false := by
    cases hmoves : movesData l.op with
    | false => rfl
    | true => exact h.host hmoves
  simp [execLetterStart, h.letter, h.may, h.fresh, h.power, hhost]

/-- A PING whose ACCEPTED version has committed. -/
def solePing : Letter := soleLetter 0x01 .accepted (List.replicate 100 0)

theorem solePing_canStart : CanStart (outOfOrder solePing) 3 60 solePing where
  letter := by decide +kernel
  may := by decide +kernel
  fresh := by decide +kernel
  power := rfl
  host := by decide +kernel
  journal := by decide +kernel

/-- Refutes O56: its clause on PING claims of every state that no byte outside the mirror entry changes. A PING that starts while device
memory is listed out of order loses byte 0: the statement lacks the premise that memory is in its canonical form. -/
theorem not_startedLettersDoTheirWork : ¬ Obligations.StartedLettersDoTheirWork := by
  rintro ⟨hping, -⟩
  obtain ⟨t, hexec, -, honly, -⟩ := hping 3 60 solePing (outOfOrder solePing) solePing_canStart rfl
  have ht : t = finishLetter (begin_ (outOfOrder solePing) solePing) 3 60
      (safeResult (begin_ (outOfOrder solePing) solePing) solePing (okResult (pingResult (outOfOrder solePing) 3))) := by
    have hstart := exec_letterStart (ch := 3) (seq := 60) solePing_canStart
    rw [hexec] at hstart
    exact Host.Outcome.next.inj hstart
  subst ht
  refine not_mirrorOnly_outOfOrder (x := { solePing with phase := .started }) ?_ ?_ ?_ ?_ ?_ ?_ ?_ ?_ _ honly
  all_goals decide +kernel

/-! ### A FENCE (O59) -/

/-- A FENCE ends once nothing that it waits for is left (R75). -/
theorem exec_fenceComplete {ch : Fin 64} {seq : W32} {l : Letter} {s : State} (h : startedOf s ch seq.toNat 0x10 = some l)
    (hfree : fenceWaits s l = false) : exec (.fenceComplete ch seq) s = .next (finishSafe s l (okResult [])) := by
  show execFenceComplete ch seq s = _
  unfold execFenceComplete
  rw [h]
  simp [hfree]

/-- A FENCE that has started. -/
def soleFence : Letter := soleLetter 0x10 .started (List.replicate 100 0)

/-- Refutes O59: its clause on FENCE claims of every state that no byte outside the mirror entry changes. A FENCE that ends while device
memory is listed out of order loses byte 0: the statement lacks the premise that memory is in its canonical form. -/
theorem not_waitingLettersEndWhenTheyMay : ¬ Obligations.WaitingLettersEndWhenTheyMay := by
  rintro ⟨hfence, -⟩
  have hstarted : startedOf (outOfOrder soleFence) 3 60 0x10 = some soleFence := by decide +kernel
  have hfree : fenceWaits (outOfOrder soleFence) soleFence = false := by decide +kernel
  have hvol : dbVolatile (outOfOrder soleFence) = false := by decide +kernel
  obtain ⟨t, hexec, -, honly, -⟩ := hfence 3 60 soleFence (outOfOrder soleFence) hstarted hfree hvol
  have ht : t = finishLetter (outOfOrder soleFence) 3 60 (safeResult (outOfOrder soleFence) soleFence (okResult [])) := by
    have hend := exec_fenceComplete (ch := 3) (seq := 60) hstarted hfree
    rw [hexec] at hend
    exact Host.Outcome.next.inj hend
  subst ht
  refine not_mirrorOnly_outOfOrder (x := soleFence) ?_ ?_ ?_ ?_ ?_ ?_ ?_ ?_ _ honly
  all_goals decide +kernel

/-! ### A QUERY_DAYBOOK (O57) -/

/-- A QUERY_DAYBOOK of channel 3 for one record. -/
def soleQuery : Letter := soleLetter 0x0C .accepted ([3] ++ List.replicate 7 0 ++ [1] ++ List.replicate 91 0)

/-- A Daybook whose first slot cannot be read (R136). -/
def damagedDaybook : State := { runningWith soleQuery with ecc := [(0x30001000 / 8, .uncorr)] }

theorem damagedDaybook_canonical : Canonical damagedDaybook where
  mem := mapWf_nil 0
  host := mapWf_nil 0
  regs := .nil
  ecc := List.pairwise_singleton _ _

theorem soleQuery_canStart : CanStart damagedDaybook 3 60 soleQuery where
  letter := by decide +kernel
  may := by decide +kernel
  fresh := by decide +kernel
  power := rfl
  host := by decide +kernel
  journal := by decide +kernel

/-- The query's Reply does not wait: its FINISHED version has committed to the mirror already (R139). -/
theorem soleQuery_waitsForNothing : (startOp damagedDaybook soleQuery).replies.all (fun r => !r.waits) = true := by
  decide +kernel

/-- Refutes O57: its clause on QUERY_DAYBOOK claims that the final Reply waits for its version's commit. A query that reads a slot with an
uncorrectable word is a Daybook memory failure (R136), so the Daybook is volatile when the Letter ends, and its FINISHED version commits at
once (R139): the Reply waits for nothing. The state is canonical (`damagedDaybook_canonical`). -/
theorem not_controlLettersActOrWait : ¬ Obligations.ControlLettersActOrWait := by
  rintro ⟨hquery, -⟩
  obtain ⟨t, hexec, r, -, -, ⟨-, -, p, hp, -, -, -, hwaits, -⟩, -⟩ := hquery 3 60 soleQuery damagedDaybook soleQuery_canStart rfl
  have ht : t = startOp damagedDaybook soleQuery := by
    have hstart := exec_letterStart (ch := 3) (seq := 60) soleQuery_canStart
    rw [hexec] at hstart
    exact Host.Outcome.next.inj hstart
  subst ht
  have hnot := List.all_eq_true.1 soleQuery_waitsForNothing p hp
  simp [hwaits] at hnot

end Sys2Proof.Machine
end

section
/-! SUPPORT. What accesses to device memory add to what stands reported (06 R225-R229, R767; 15 R574; 19 R727), and what a write through
the Beam cache's pool stores (06 R250-R253). -/

namespace Sys2Proof.Machine

/-! ### EVENT bits that stay -/

/-- The set of an EVENT bit leaves the others of its page (R727). -/
theorem setEvent_EVENT (s : State) (p b : Nat) : fget (setEvent s p b) (Fd.hdr_EVENT p) =
    (fget s (Fd.hdr_EVENT p) ||| 2 ^ b) % 2 ^ 32 := by
  have hput : fget (fput s (Fd.hdr_EVENT p) (fget s (Fd.hdr_EVENT p) ||| 2 ^ b)) (Fd.hdr_EVENT p) =
      (fget s (Fd.hdr_EVENT p) ||| 2 ^ b) % 2 ^ 32 := fget_fput_same _ _ _ ⟨Nat.zero_le _, Nat.le_of_ble_eq_true rfl⟩
  have hwords := (((WordsBut.refl [(p, 0x01C), (p, 0x038), (p, 0x03C)]
    (fput s (Fd.hdr_EVENT p) (fget s (Fd.hdr_EVENT p) ||| 2 ^ b))).fadd (Fd.hdr_EVENT_COUNT p) 1
    (Nat.le_of_ble_eq_true rfl) (by simp [Fd.hdr_EVENT_COUNT])).fput (Fd.hdr_LAST_EVENT_PM_LO p) (now s % 2 ^ 32)
    (Nat.le_of_ble_eq_true rfl) (by simp [Fd.hdr_LAST_EVENT_PM_LO])).fput (Fd.hdr_LAST_EVENT_PM_HI p) (now s / 2 ^ 32)
    (Nat.le_of_ble_eq_true rfl) (by simp [Fd.hdr_LAST_EVENT_PM_HI])
  have hkept := hwords.fget (Fd.hdr_EVENT p) (Nat.le_of_ble_eq_true rfl) (by simp [Fd.hdr_EVENT])
  rw [← hput, ← hkept]
  unfold setEvent
  dsimp only
  split
  · exact pageIrq_fget _ _ _
  · rfl

theorem setEvent_keeps_event (s : State) (p b : Nat) {q c : Nat} (h : HasEvent s q c) : HasEvent (setEvent s p b) q c := by
  unfold HasEvent at *
  by_cases hq : q = p
  · subst hq
    have hc : c < 32 := by
      by_contra hc
      have hlt := fget_lt_card s (Fd.hdr_EVENT q)
      rw [bit_eq_testBit, Nat.testBit_lt_two_pow (hlt.trans_le (Nat.pow_le_pow_right (by decide) (Nat.le_of_not_lt hc)))] at h
      cases h
    rw [bit_eq_testBit] at h
    rw [setEvent_EVENT, bit_eq_testBit, Nat.testBit_mod_two_pow, Nat.testBit_or, h]
    simp [hc]
  · have hother := ((WordsBut.refl (eventWords p) s).setEvent p b fun _ h => h).fget (Fd.hdr_EVENT q)
      (Nat.le_of_ble_eq_true rfl) (by simp [Fd.hdr_EVENT, eventWords, hq])
    rw [hother]
    exact h

/-! ### Reports that stay -/

/-- What an access to device memory counts and reports adds to what stands: no EVENT bit is cleared and no fault leaves the bus, and of
the Ledger it changes the always-on values alone (R226-R229, R727). -/
structure Reported (s t : State) : Prop where
  events : ∀ q c, HasEvent s q c → HasEvent t q c
  bus : ∀ f ∈ s.safety.bus, f ∈ t.safety.bus
  ledger : t.ledger = { s.ledger with vals := t.ledger.vals }

namespace Reported

theorem refl (s : State) : Reported s s := ⟨fun _ _ h => h, fun _ h => h, rfl⟩

theorem trans {a b c : State} (h : Reported a b) (k : Reported b c) : Reported a c :=
  ⟨fun q i e => k.events q i (h.events q i e), fun f m => k.bus f (h.bus f m), by rw [k.ledger, h.ledger]⟩

/-- Registers, bus and Ledger as before. -/
theorem of_same {s t : State} (hr : t.regs = s.regs) (hb : t.safety.bus = s.safety.bus) (hl : t.ledger = s.ledger) :
    Reported s t :=
  ⟨fun q _ e => by unfold HasEvent at *; rwa [fget_of_regs hr], fun _ m => by rwa [hb], by rw [hl]⟩

theorem foldl {α : Type} {f : State → α → State} (h : ∀ s x, Reported s (f s x)) (l : List α) (s : State) :
    Reported s (l.foldl f s) := by
  induction l generalizing s with
  | nil => exact .refl s
  | cons x l ih => exact (h s x).trans (ih _)

theorem foldlFst {α β : Type} {f : State × β → α → State × β} (h : ∀ p x, Reported p.1 (f p x).1) (l : List α)
    (p : State × β) : Reported p.1 (l.foldl f p).1 := by
  induction l generalizing p with
  | nil => exact .refl p.1
  | cons x l ih => exact (h p x).trans (ih _)

theorem onBus {s t : State} (h : Reported s t) {cls source : Nat} (k : OnBus s cls source) : OnBus t cls source := by
  obtain ⟨f, hf, hcls, hsource⟩ := k
  exact ⟨f, h.bus f hf, hcls, hsource⟩

end Reported

/-- A field of no EVENT word. -/
theorem fput_reported (s : State) (f : Fld) (v : Nat) (hl : f.off < 0x1000) (hf : f.off ≠ 0x010) : Reported s (fput s f v) where
  events q c h := by
    have hkept := ((WordsBut.refl [f.word] s).fput f v hl List.mem_cons_self).fget (Fd.hdr_EVENT q)
      (Nat.le_of_ble_eq_true rfl) fun hm => hf (Prod.mk.inj (List.mem_singleton.1 hm)).2.symm
    unfold HasEvent at *
    rwa [hkept]
  bus _ h := h
  ledger := rfl

theorem fadd_reported (s : State) (f : Fld) (n : Nat) (hl : f.off < 0x1000) (hf : f.off ≠ 0x010) : Reported s (fadd s f n) :=
  fput_reported s f _ hl hf

theorem setEvent_reported (s : State) (p b : Nat) : Reported s (setEvent s p b) where
  events _ _ h := setEvent_keeps_event s p b h
  bus _ h := by rwa [setEvent_state]
  ledger := by rw [setEvent_state]

theorem ledgerAdd_reported (s : State) (c i w k : Nat) : Reported s (ledgerAdd s c i w k) :=
  ⟨fun _ _ h => h, fun _ h => h, rfl⟩

theorem raise_reported (s : State) (c o k p d : Nat) : Reported s (raise s c o k p d) :=
  ⟨fun _ _ h => h, fun _ h => List.mem_append_left _ h, rfl⟩

theorem corr_reported (s : State) (m : List (Nat × Nat)) :
    Reported s { s with safety := { s.safety with corr := m } } := .of_same rfl rfl rfl

theorem memPut_reported (s : State) (a : Nat) (bs : List Byte) : Reported s (memPut s a bs) := .of_same rfl rfl rfl

theorem cache_reported (s : State) (c : List CacheLine) : Reported s { s with cache := c } := .of_same rfl rfl rfl

theorem eccSet_reported (s : State) (w : Nat) (e : Option EccSt) : Reported s (eccSet s w e) := by
  unfold eccSet
  split
  · exact .of_same rfl rfl rfl
  · exact .of_same rfl rfl rfl

theorem errCorr_reported (s : State) (p : Nat) : Reported s (errCorr s p) :=
  (fadd_reported s (Fd.hdr_ERR_CORR_COUNT p) 1 (Nat.le_of_ble_eq_true rfl) (show (0x020 : Nat) ≠ 0x010 by decide)).trans
    (setEvent_reported _ _ _)

theorem errUncorr_reported (s : State) (p : Nat) : Reported s (errUncorr s p) :=
  (fadd_reported s (Fd.hdr_ERR_UNCORR_COUNT p) 1 (Nat.le_of_ble_eq_true rfl) (show (0x024 : Nat) ≠ 0x010 by decide)).trans
    (setEvent_reported _ _ _)

theorem countCorr_reported (s : State) {r : MapRange} (hr : r.channelOk) : Reported s (countCorr s r) := by
  unfold countCorr
  dsimp only
  refine Reported.trans ?_ ((ledgerAdd_reported _ _ _ _ _).trans (corr_reported _ _))
  split
  next c =>
    have hc := hr c rfl
    exact (errCorr_reported s _).trans (fadd_reported _ (Fd.dramCnt_CORR c) 1 (show 0x040 + 0x20 * c < 0x1000 by omega)
      (show 0x040 + 0x20 * c ≠ 0x010 by omega))
  next => exact errCorr_reported s _

theorem countUncorr_reported (s : State) {r : MapRange} (hr : r.channelOk) (sclass pid : Nat) :
    Reported s (countUncorr s r sclass pid) := by
  unfold countUncorr
  dsimp only
  refine Reported.trans ?_ ((ledgerAdd_reported _ _ _ _ _).trans (raise_reported _ _ _ _ _ _))
  split
  next c =>
    have hc := hr c rfl
    exact (errUncorr_reported s _).trans (fadd_reported _ (Fd.dramCnt_UNCORR c) 1 (show 0x044 + 0x20 * c < 0x1000 by omega)
      (show 0x044 + 0x20 * c ≠ 0x010 by omega))
  next => exact errUncorr_reported s _

theorem countPoison_reported (s : State) {r : MapRange} (hr : r.channelOk) : Reported s (countPoison s r) := by
  unfold countPoison
  dsimp only
  refine Reported.trans ?_ (ledgerAdd_reported _ _ _ _ _)
  split
  next => exact fadd_reported s Fd.beam_POISON_READ_COUNT 1 (by decide) (by decide)
  next c =>
    have hc := hr c rfl
    exact fadd_reported s (Fd.dramCnt_POISON_READ_COUNT c) 1 (show 0x048 + 0x20 * c < 0x1000 by omega)
      (show 0x048 + 0x20 * c ≠ 0x010 by omega)
  next => exact .refl s

theorem readWord_reported (sclass pid : Nat) (p : State × Bool) (w : Nat) : Reported p.1 (readWord sclass pid p w).1 := by
  have hr := rangeOf_channelOk p.1 (w * 8)
  unfold readWord
  dsimp only
  split
  · exact countCorr_reported _ hr
  · exact countUncorr_reported _ hr _ _
  · exact countPoison_reported _ hr
  · exact .refl p.1

theorem mergeWord_reported (a n sclass pid : Nat) (s : State) (w : Nat) : Reported s (mergeWord a n sclass pid s w) := by
  have hread := readWord_reported sclass pid (s, false) w
  unfold mergeWord
  dsimp only
  split
  · exact eccSet_reported s w none
  · split
    · exact hread.trans (eccSet_reported _ _ _)
    · exact hread.trans (eccSet_reported _ _ _)

theorem writeRaw_reported (s : State) (a : Nat) (bs : List Byte) (sclass pid : Nat) : Reported s (writeRaw s a bs sclass pid) :=
  (Reported.foldl (mergeWord_reported a bs.length sclass pid) _ s).trans (memPut_reported _ _ _)

theorem fillWords_reported (s : State) (line sclass pid : Nat) : Reported s (fillWords s line sclass pid).1 := by
  refine Reported.foldlFst (fun p w => ?_) _ (s, [])
  have hr := rangeOf_channelOk p.1 (w * 8)
  split
  · exact countCorr_reported _ hr
  · exact countUncorr_reported _ hr _ _
  · exact countPoison_reported _ hr
  · exact .refl p.1

theorem lineWords_reported (s : State) (l : CacheLine) (lo hi sclass : Nat) : Reported s (lineWords s l lo hi sclass).1 := by
  refine Reported.foldlFst (fun p w => ?_) _ (s, false)
  have hr := channelOk_beam (lineBank s l)
  split
  · exact countPoison_reported _ hr
  · split
    · exact countCorr_reported _ hr
    · exact countUncorr_reported _ hr _ _
    · exact countPoison_reported _ hr
    · exact .refl p.1

theorem writeBack_reported (s : State) (l : CacheLine) : Reported s (writeBack s l) := by
  unfold writeBack
  split
  · exact (((fadd_reported s Fd.beam_POOL_WRITEBACK_COUNT 1 (by decide) (by decide)).trans
      (.foldl (fun x w => eccSet_reported x w none) _ _)).trans (memPut_reported _ _ _)).trans
      (.foldl (fun x w => eccSet_reported x _ _) _ _)
  · exact .refl s

theorem flushLines_reported (s : State) (p : CacheLine → Bool) : Reported s (flushLines s p) :=
  (Reported.foldl writeBack_reported _ s).trans (cache_reported _ _)

theorem fillLine_reported (s : State) (pid line sclass : Nat) : Reported s (fillLine s pid line sclass) := by
  unfold fillLine
  split
  · exact .refl s
  · exact (((flushLines_reported s _).trans (fillWords_reported _ _ _ _)).trans
      (fadd_reported _ Fd.beam_POOL_MISS_COUNT 1 (by decide) (by decide))).trans (cache_reported _ _)

theorem touchLine_reported (s : State) (pid line sclass : Nat) : Reported s (touchLine s pid line sclass) := by
  unfold touchLine
  split
  · split
    · exact ((countCorr_reported s (channelOk_beam _)).trans (cache_reported _ _)).trans (fillLine_reported _ _ _ _)
    · exact (fadd_reported s Fd.beam_POOL_HIT_COUNT 1 (by decide) (by decide)).trans (cache_reported _ _)
  · exact fillLine_reported s pid line sclass

theorem cacheWrite_reported (s : State) (pid a : Nat) (bs : List Byte) (sclass : Nat) :
    Reported s (cacheWrite s pid a bs sclass) := by
  have htouch := touchLine_reported s pid (a / 256 * 256) sclass
  unfold cacheWrite
  dsimp only
  split
  · exact (htouch.trans (.foldl (fun x w => lineWords_reported x _ _ _ _) _ _)).trans (cache_reported _ _)
  · exact htouch

theorem writeLines_reported (pid sclass : Nat) (ps : List (Nat × Nat)) (bs : List Byte) (s : State) :
    Reported s (writeLines s pid sclass ps bs) := by
  induction ps generalizing s bs with
  | nil => exact .refl s
  | cons p ps ih => exact (cacheWrite_reported s pid p.1 _ sclass).trans (ih _ _)

theorem ownWrite_reported (s : State) (a : Nat) (bs : List Byte) : Reported s (ownWrite s a bs) := by
  unfold ownWrite
  split
  · exact writeLines_reported 0 0xF _ bs s
  · exact writeRaw_reported s a bs 0xF 0

end Sys2Proof.Machine
end

section
/-! SUPPORT. What a write through the Beam cache's pool stores (06 R250-R254, R765-R767): the line holds the bytes, and only LPDDR5X is
written to. -/

namespace Sys2Proof.Machine

/-! ### Consecutive bytes, one by one -/

/-- A walk from a key below which nothing is listed. -/
theorem mapWalk_eq_map {α : Type} {d : α} {n : Nat} {m : List (Nat × α)} {x : Nat} (hm : m.Pairwise fun a b => a.1 < b.1)
    (hx : ∀ e ∈ m, x ≤ e.1) : mapWalk d m x n = (List.range n).map fun i => mapGet d m (x + i) := by
  induction n generalizing m x with
  | zero => simp [mapWalk]
  | succ n ih =>
    have hshift : ((fun i => mapGet d m (x + i)) ∘ Nat.succ) = fun i => mapGet d m (x + 1 + i) := by
      funext i
      simp only [Function.comp_apply, Nat.succ_eq_add_one, Nat.add_comm i 1, Nat.add_assoc]
    rw [List.range_succ_eq_map, List.map_cons, List.map_map, hshift]
    cases m with
    | nil => exact congrArg (d :: ·) (ih .nil fun e he => absurd he List.not_mem_nil)
    | cons c m =>
      obtain ⟨k, v⟩ := c
      obtain ⟨hk, hm'⟩ := List.pairwise_cons.1 hm
      rw [mapWalk]
      split
      next he =>
        subst he
        rw [ih hm' fun e he => Nat.succ_le_of_lt (hk e he)]
        refine congrArg₂ List.cons (by simp [mapGet, mapFind]) (List.map_congr_left fun i _ => ?_)
        rw [mapGet, mapGet, mapFind, if_neg (by omega)]
      next he =>
        have hlt : x < k := lt_of_le_of_ne (hx _ List.mem_cons_self) (Ne.symm he)
        have hnext := ih (m := (k, v) :: m) hm fun e hm => by
          rcases List.mem_cons.1 hm with rfl | hm
          · exact hlt
          · exact hlt.trans (hk e hm)
        have hnone : mapFind m x = none := mapFind_eq_none fun e hm => by
          have := hk e hm
          dsimp only at this
          omega
        rw [hnext]
        exact congrArg₂ List.cons (by simp [mapGet, mapFind, he, hnone]) rfl

/-- Consecutive values of a map whose keys rise are its values one by one. -/
theorem mapRange_eq_map {α : Type} {d : α} {m : List (Nat × α)} (hm : m.Pairwise fun a b => a.1 < b.1) (x n : Nat) :
    mapRange d m x n = (List.range n).map fun i => mapGet d m (x + i) := by
  have hkept (z : Nat) (hz : x ≤ z) : mapGet d (m.dropWhile fun e => e.1 < x) z = mapGet d m z := by
    unfold mapGet
    conv_rhs => rw [← List.takeWhile_append_dropWhile (p := fun e : Nat × α => decide (e.1 < x)) (l := m)]
    rw [mapFind_append_right fun e he => by have := lt_of_mem_takeWhile he; omega]
  unfold mapRange
  rw [mapWalk_eq_map (hm.sublist (List.dropWhile_sublist _)) fun e he => le_of_mem_dropWhile hm he]
  exact List.map_congr_left fun i _ => hkept (x + i) (Nat.le_add_right x i)

theorem length_mapWalk {α : Type} (d : α) (m : List (Nat × α)) (x n : Nat) : (mapWalk d m x n).length = n := by
  induction n generalizing m x with
  | zero => simp [mapWalk]
  | succ n ih =>
    cases m with
    | nil => simp [mapWalk, ih]
    | cons c m =>
      rw [mapWalk]
      split <;> simp [ih]

theorem length_memBytes (s : State) (a n : Nat) : (memBytes s a n).length = n := length_mapWalk _ _ _ _

/-- Ranges that agree byte by byte are equal. -/
theorem memBytes_congr {s t : State} (hs : Memory.wf s.mem) (ht : Memory.wf t.mem) {a n : Nat}
    (h : ∀ x, a ≤ x → x < a + n → memByte t x = memByte s x) : memBytes t a n = memBytes s a n := by
  unfold memBytes
  rw [mapRange_eq_map ht.1, mapRange_eq_map hs.1]
  refine List.map_congr_left fun i hi => ?_
  have := List.mem_range.1 hi
  exact h (a + i) (by omega) (by omega)

theorem bytesAt_spliceBytes {old bs : List Byte} {i : Nat} (h : i + bs.length ≤ old.length) :
    bytesAt (spliceBytes old i bs) i bs.length = bs := by
  have hi : (old.take i).length = i := by rw [List.length_take]; omega
  have hdrop : (spliceBytes old i bs).drop i = bs ++ old.drop (i + bs.length) := by
    unfold spliceBytes
    rw [List.append_assoc, List.drop_left' hi]
  unfold bytesAt
  rw [hdrop]
  simp

theorem length_spliceBytes {old bs : List Byte} {i : Nat} (h : i + bs.length ≤ old.length) :
    (spliceBytes old i bs).length = old.length := by
  simp only [spliceBytes, List.length_append, List.length_take, List.length_drop]
  omega

/-! ### What a line's checks leave -/

theorem MarksFrame.foldlFst {α β : Type} {f : State × β → α → State × β} (h : ∀ p x, MarksFrame p.1 (f p x).1) (l : List α)
    (p : State × β) : MarksFrame p.1 (l.foldl f p).1 := by
  induction l generalizing p with
  | nil => exact .refl p.1
  | cons x l ih => exact (h p x).trans (ih _)

theorem fillWords_marks (s : State) (line sclass pid : Nat) : MarksFrame s (fillWords s line sclass pid).1 := by
  refine MarksFrame.foldlFst (fun p w => ?_) _ (s, [])
  split
  · exact countCorr_marks _ _
  · exact countUncorr_marks _ _ _ _
  · exact countPoison_marks _ _
  · exact .refl p.1

theorem lineWords_marks (s : State) (l : CacheLine) (lo hi sclass : Nat) : MarksFrame s (lineWords s l lo hi sclass).1 := by
  refine MarksFrame.foldlFst (fun p w => ?_) _ (s, false)
  split
  · exact countPoison_marks p.1 (.beam (lineBank s l))
  · split
    · exact countCorr_marks p.1 (.beam (lineBank s l))
    · exact countUncorr_marks p.1 (.beam (lineBank s l)) sclass l.pid
    · exact countPoison_marks p.1 (.beam (lineBank s l))
    · exact .refl p.1

theorem MarksFrame.foldl {α : Type} {f : State → α → State} (h : ∀ s x, MarksFrame s (f s x)) (l : List α) (s : State) :
    MarksFrame s (l.foldl f s) := by
  induction l generalizing s with
  | nil => exact .refl s
  | cons x l ih => exact (h s x).trans (ih _)

theorem MarksFrame.mem {s t : State} (h : MarksFrame s t) : t.mem = s.mem := by rw [show t = _ from h]

theorem MarksFrame.cache {s t : State} (h : MarksFrame s t) : t.cache = s.cache := by rw [show t = _ from h]

/-! ### Lines of LPDDR5X -/

/-- A whole line of LPDDR5X (R246, R250). -/
def CacheLine.inDram (l : CacheLine) : Prop := l.data.length = 256 ∧ dramBase ≤ l.addr

/-- Every line of the cache is a whole line of LPDDR5X. -/
def DramLines (s : State) : Prop := ∀ l ∈ s.cache, l.inDram

theorem dramLines_of {s : State} (hw : LinesWhole s) (hd : LinesInDram s) : DramLines s := fun l hl => ⟨hw.1 l hl, hd l hl⟩

/-- What the pool stores lies in LPDDR5X: the memory stays in its canonical form, every byte below LPDDR5X reads as before, and every
line of the pool is one of LPDDR5X. -/
structure DramOnly (s t : State) : Prop where
  wf : Memory.wf t.mem
  below : ∀ x < dramBase, memByte t x = memByte s x
  lines : DramLines t

namespace DramOnly

theorem trans {a b c : State} (h : DramOnly a b) (k : DramOnly b c) : DramOnly a c :=
  ⟨k.wf, fun x hx => (k.below x hx).trans (h.below x hx), k.lines⟩

/-- A step that stores nothing. -/
theorem of_mem {s t : State} (hwf : Memory.wf s.mem) (hm : t.mem = s.mem) (hl : DramLines t) : DramOnly s t :=
  ⟨hm ▸ hwf, fun x _ => by unfold memByte; rw [hm], hl⟩

theorem of_marks {s t : State} (hwf : Memory.wf s.mem) (hl : DramLines s) (h : MarksFrame s t) : DramOnly s t :=
  of_mem hwf h.mem fun l hm => hl l (h.cache ▸ hm)

end DramOnly

theorem writeBack_mem (s : State) (l : CacheLine) :
    (writeBack s l).mem = if l.dirty then mapPutAll 0 s.mem l.addr l.data else s.mem := by
  unfold writeBack
  dsimp only
  split
  · rw [(MarksFrame.foldl (fun x w => eccSet_marks x _ _) _ _).mem, memPut]
    dsimp only
    rw [(MarksFrame.foldl (fun x w => eccSet_marks x w none) _ _).mem]
    rfl
  · rfl

theorem writeBack_cache (s : State) (l : CacheLine) : (writeBack s l).cache = s.cache := by
  unfold writeBack
  dsimp only
  split
  · rw [(MarksFrame.foldl (fun x w => eccSet_marks x _ _) _ _).cache, memPut]
    exact (MarksFrame.foldl (fun x w => eccSet_marks x w none) _ _).cache
  · rfl

theorem writeBack_dram {s : State} (hwf : Memory.wf s.mem) (hs : DramLines s) {l : CacheLine} (hl : l.inDram) :
    DramOnly s (writeBack s l) := by
  refine ⟨?_, fun x hx => ?_, fun y hy => hs y (writeBack_cache s l ▸ hy)⟩
  · rw [writeBack_mem]
    split
    · exact mapPutAll_wf hwf _ _
    · exact hwf
  · unfold memByte
    rw [writeBack_mem]
    split
    · exact mapGet_mapPutAll_outside hwf.1 (by have := hl.2; omega)
    · rfl

theorem writeBacks_dram {ls : List CacheLine} (hls : ∀ l ∈ ls, l.inDram) {s : State} (hwf : Memory.wf s.mem) (hs : DramLines s) :
    DramOnly s (ls.foldl writeBack s) := by
  induction ls generalizing s with
  | nil => exact .of_mem hwf rfl hs
  | cons l ls ih =>
    have hback := writeBack_dram hwf hs (hls l List.mem_cons_self)
    exact hback.trans (ih (fun y hy => hls y (List.mem_cons_of_mem _ hy)) hback.wf hback.lines)

theorem flushLines_dram {s : State} (hwf : Memory.wf s.mem) (hs : DramLines s) (p : CacheLine → Bool) :
    DramOnly s (flushLines s p) := by
  have hback := writeBacks_dram (ls := s.cache.filter p) (fun l hl => hs l (List.mem_filter.1 hl).1) hwf hs
  exact hback.trans (.of_mem hback.wf rfl fun l hl => hback.lines l (List.mem_filter.1 hl).1)

/-- What a fill leaves: the line stands at the front of the pool, whole (R252). -/
structure LineInFront (pid line : Nat) (s t : State) : Prop where
  dram : DramOnly s t
  front : ∃ l rest, t.cache = l :: rest ∧ l.pid = pid ∧ l.addr = line

theorem fillLine_front {s : State} {pid line sclass : Nat} (hwf : Memory.wf s.mem) (hs : DramLines s) (hline : dramBase ≤ line)
    (hway : (victimWay s pid (setOf s line)).isSome = true) : LineInFront pid line s (fillLine s pid line sclass) := by
  obtain ⟨w, hw⟩ := Option.isSome_iff_exists.1 hway
  have hflush := flushLines_dram hwf hs fun l => l.set == setOf s line && l.way == w
  have hfill := (fillWords_marks (flushLines s fun l => l.set == setOf s line && l.way == w) line sclass pid).trans
    (fadd_marks _ Fd.beam_POOL_MISS_COUNT 1)
  have hkept := DramOnly.of_marks hflush.wf hflush.lines hfill
  unfold fillLine
  rw [hw]
  dsimp only
  refine ⟨hflush.trans (hkept.trans (.of_mem hkept.wf rfl fun l hl => ?_)), _, _, rfl, rfl, rfl⟩
  rcases List.mem_cons.1 hl with rfl | hl
  · exact ⟨length_memBytes _ _ _, hline⟩
  · exact hkept.lines l hl

/-- A partition with ways of its own always has one to fill (R251, R252). -/
theorem victimWay_isSome {s : State} {pid : Nat} (h : fget s (Fd.part_CACHE_WAYS pid) ≠ 0) (set : Nat) :
    (victimWay s pid set).isSome = true := by
  obtain ⟨i, hi⟩ := Nat.exists_testBit_of_ne_zero h
  have hlt : i < 16 := by
    by_contra hge
    have hsmall : fget s (Fd.part_CACHE_WAYS pid) < 2 ^ i :=
      (fget_lt_card s (Fd.part_CACHE_WAYS pid)).trans_le (Nat.pow_le_pow_right (by decide) (Nat.le_of_not_lt hge))
    rw [Nat.testBit_lt_two_pow hsmall] at hi
    cases hi
  have hway : i ∈ (List.range 16).filter (bit (fget s (Fd.part_CACHE_WAYS pid))) :=
    List.mem_filter.2 ⟨List.mem_range.2 hlt, (bit_eq_testBit _ _).trans hi⟩
  unfold victimWay
  dsimp only
  split
  · rfl
  next hfull =>
    have hheld := List.find?_eq_none.1 hfull i hway
    simp only [Bool.not_eq_true', Bool.not_eq_false, List.contains_iff_mem] at hheld
    rw [List.getLast?_isSome]
    exact List.ne_nil_of_mem hheld

theorem findLine_front {s : State} {pid line : Nat} {l : CacheLine} {rest : List CacheLine} (h : s.cache = l :: rest)
    (hp : l.pid = pid) (ha : l.addr = line) : findLine s pid line = some l := by
  simp [findLine, h, hp, ha]

/-- The pool without a partition's line. -/
def lineDropped (s : State) (pid line : Nat) : State :=
  { s with cache := s.cache.filter fun x => !(x.pid == pid && x.addr == line) }

theorem lineDropped_dram {s : State} (hwf : Memory.wf s.mem) (hs : DramLines s) (pid line : Nat) :
    DramOnly s (lineDropped s pid line) := .of_mem hwf rfl fun y hy => hs y (List.mem_filter.1 hy).1

theorem touchLine_front {s : State} {pid line sclass : Nat} (hwf : Memory.wf s.mem) (hs : DramLines s) (hline : dramBase ≤ line)
    (hpid : pid < 16) (hways : fget s (Fd.part_CACHE_WAYS pid) ≠ 0) : LineInFront pid line s (touchLine s pid line sclass) := by
  unfold touchLine
  split
  next l hl =>
    have hmem : l ∈ s.cache := List.mem_of_find?_eq_some hl
    have hkey := List.find?_some hl
    simp only [Bool.and_eq_true, beq_iff_eq] at hkey
    split
    · have hcount := DramOnly.of_marks hwf hs (countCorr_marks s (.beam (lineBank s l)))
      have hdrop := lineDropped_dram hcount.wf hcount.lines pid line
      have hways' : fget (lineDropped (countCorr s (.beam (lineBank s l))) pid line) (Fd.part_CACHE_WAYS pid) ≠ 0 :=
        ((countCorr_storage s (channelOk_beam (lineBank s l))).fgetPart (Fd.part_CACHE_WAYS pid) rfl hpid
          (show (0x040 : Nat) ≤ 0x04C by decide) (show (0x04C : Nat) < 0x080 by decide)).trans_ne hways
      have hfill := fillLine_front (sclass := sclass) hdrop.wf hdrop.lines hline (victimWay_isSome hways' _)
      exact ⟨(hcount.trans hdrop).trans hfill.dram, hfill.front⟩
    · refine ⟨.of_mem hwf rfl fun y hy => ?_, _, _, rfl, hkey⟩
      rcases List.mem_cons.1 hy with rfl | hy
      · exact hs _ hmem
      · exact hs y (List.mem_filter.1 hy).1
  next => exact fillLine_front hwf hs hline (victimWay_isSome hways _)

/-- A write within a line, through the pool: the line holds the bytes (R252). -/
theorem cacheWrite_stores {s : State} {pid a sclass : Nat} {bs : List Byte} (hwf : Memory.wf s.mem) (hs : DramLines s)
    (ha : dramBase ≤ a) (hfit : a % 256 + bs.length ≤ 256) (hpid : pid < 16) (hways : fget s (Fd.part_CACHE_WAYS pid) ≠ 0) :
    DramOnly s (cacheWrite s pid a bs sclass) ∧
      ∃ l, findLine (cacheWrite s pid a bs sclass) pid (a / 256 * 256) = some l ∧ bytesAt l.data (a % 256) bs.length = bs := by
  have hline : dramBase ≤ a / 256 * 256 := by
    unfold dramBase at *
    omega
  obtain ⟨hdram, l, rest, hcache, hp, haddr⟩ := touchLine_front (sclass := sclass) hwf hs hline hpid hways
  have hwhole := hdram.lines l (hcache ▸ List.mem_cons_self)
  have hlen : a % 256 + bs.length ≤ l.data.length := hwhole.1.symm ▸ hfit
  unfold cacheWrite
  dsimp only
  rw [findLine_front hcache hp haddr]
  dsimp only
  set parts := (List.range 32).filter fun w =>
    !(decide (a % 256 ≤ w * 8) && decide (w * 8 + 8 ≤ a % 256 + bs.length)) && decide (a % 256 < w * 8 + 8) &&
      decide (w * 8 < a % 256 + bs.length)
  have hmarks := MarksFrame.foldl (fun x w => lineWords_marks x l w (w + 1) sclass) parts
    (touchLine s pid (a / 256 * 256) sclass)
  have hkept := DramOnly.of_marks hdram.wf hdram.lines hmarks
  refine ⟨hdram.trans (hkept.trans (.of_mem hkept.wf rfl fun y hy => ?_)), _, findLine_front rfl hp haddr,
    bytesAt_spliceBytes hlen⟩
  rcases List.mem_cons.1 hy with rfl | hy
  · exact ⟨(length_spliceBytes hlen).trans hwhole.1, hwhole.2⟩
  · exact hkept.lines y (List.mem_of_mem_tail hy)

/-- A range within one line is one part. -/
theorem lineParts_one {a n : Nat} (hn : 0 < n) (h : a % 256 + n ≤ 256) : lineParts a n = [(a, n)] := by
  have hcount : (a + n + 255) / 256 - a / 256 = 1 := by omega
  have hlo : max a (a / 256 * 256) = a := by omega
  have hhi : min (a + n) ((a / 256 + 1) * 256) - a = n := by omega
  simp [lineParts, hcount, hlo, hhi]

/-- A write of the Corod's own within one line of the pool: PID 0's region shows the bytes (R101, R254). -/
theorem ownWrite_pooled {s : State} {a : Nat} {bs : List Byte} (hwf : Memory.wf s.mem) (hs : DramLines s)
    (hpool : pooled s 0 a = true) (hn : 0 < bs.length) (hfit : a % 256 + bs.length ≤ 256) :
    DramOnly s (ownWrite s a bs) ∧ ownView (ownWrite s a bs) a bs.length = bs := by
  have hone : ownWrite s a bs = cacheWrite s 0 a bs 0xF := by
    simp [ownWrite, hpool, lineParts_one hn hfit, writeLines]
  simp only [pooled, Bool.and_eq_true, bne_iff_ne, decide_eq_true_eq] at hpool
  obtain ⟨⟨⟨ha, -⟩, hways⟩, -⟩ := hpool
  obtain ⟨hdram, l, hfind, hbytes⟩ := cacheWrite_stores (sclass := 0xF) hwf hs ha hfit (by decide) hways
  rw [hone]
  refine ⟨hdram, ?_⟩
  unfold ownView viewFor
  rw [lineParts_one hn hfit]
  simp [hfind, hbytes]

/-- A write of the Corod's own straight into LPDDR5X. -/
theorem ownWrite_direct {s : State} {a : Nat} {bs : List Byte} (hwf : Memory.wf s.mem) (hs : DramLines s) (ha : dramBase ≤ a)
    (hpool : pooled s 0 a = false) : DramOnly s (ownWrite s a bs) ∧ memBytes (ownWrite s a bs) a bs.length = bs := by
  have hmarks := writeRaw_marks s a bs 0xF 0
  rw [ownWrite_of_direct hpool]
  refine ⟨⟨?_, fun x hx => ?_, fun l hl => hs l ?_⟩, memBytes_writeRaw hwf _ _ _ _⟩
  · rw [writeRaw_mem]
    exact mapPutAll_wf hwf _ _
  · exact writeRaw_bytesBut hwf a bs 0xF 0 x (by omega)
  · rwa [hmarks.cache] at hl

end Sys2Proof.Machine
end

section
/-! SUPPORT. JOURNAL_WRITE (03 R101-R107, R136-R139): the slot that a version goes into, its commit, and the failure of the Daybook's
memory. -/

namespace Sys2Proof.Machine

/-! ### Slots and mirror entries -/

theorem length_slotBytes (v : Version) (jno : Nat) : (slotBytes v jno).length = 64 := by
  unfold slotBytes
  simp only [List.length_append, length_leBytes]

theorem targetSlot_lt (s : State) (v : Version) : targetSlot s v < 2 := by
  unfold targetSlot
  dsimp only
  repeat' split
  all_goals decide

/-- The slots of the cells lie in the Daybook's part of the MRAM. -/
theorem slotAddr_range {cell k : Nat} (hcell : cell < cellCount) (hk : k < 2) :
    0x30000000 ≤ slotAddr cell k ∧ slotAddr cell k + 64 ≤ 0x30200000 := by
  unfold slotAddr
  unfold cellCount at hcell
  omega

theorem mirrorBase_le_mirrorAddr (s : State) (ch seq : Nat) : mirrorBase s ≤ mirrorAddr s ch seq := by
  unfold mirrorAddr entryAddr
  omega

/-- The record's half of a mirror entry lies within one line (R101, R250). -/
theorem mirrorAddr_fits (s : State) (ch seq : Nat) : mirrorAddr s ch seq % 256 + 64 ≤ 256 := by
  have halign : mirrorAddr s ch seq % 128 = 0 := by
    unfold mirrorAddr entryAddr mirrorBase fget64
    generalize fget s Fd.daybook_DB_MIRROR_BASE_LO = lo
    generalize fget s Fd.daybook_DB_MIRROR_BASE_HI = hi
    have hlo : Fd.daybook_DB_MIRROR_BASE_LO.lo = 12 := rfl
    rw [hlo]
    omega
  omega

/-! ### What a commit leaves -/

/-- What the commit of a version may change (R101, R104, R107). -/
def CommitFrame (s t : State) : Prop :=
  t = { s with regs := t.regs, mem := t.mem, ecc := t.ecc, letters := t.letters, replies := t.replies
               daybook := t.daybook, cache := t.cache, safety := { s.safety with corr := t.safety.corr, bus := t.safety.bus }
               ledger := { s.ledger with vals := t.ledger.vals }, outbox := t.outbox }

theorem CommitFrame.trans {a b c : State} (h : CommitFrame a b) (k : CommitFrame b c) : CommitFrame a c := by
  unfold CommitFrame at *
  rw [k, h]

theorem CommitFrame.of_storage {s t : State} (h : StorageFrame s t) (k : Reported s t) : CommitFrame s t := by
  unfold CommitFrame
  rw [← k.ledger, h.letters, h.replies, h.daybook]
  exact h.rest

theorem clearedMarks_state (ws : List Nat) (s : State) :
    ws.foldl (fun s w => eccSet s w none) s = { s with ecc := (ws.foldl (fun s w => eccSet s w none) s).ecc } := by
  induction ws generalizing s with
  | nil => rfl
  | cons w ws ih =>
    rw [List.foldl_cons, ih]
    rfl

/-- The store of a slot changes its bytes and marks alone. -/
theorem slotPut_state (s : State) (a : Nat) (bs : List Byte) :
    slotPut s a bs = { s with mem := mapPutAll 0 s.mem a bs, ecc := (slotPut s a bs).ecc } := by
  unfold slotPut
  rw [clearedMarks_state]
  rfl

theorem popVersion_state (s : State) : popVersion s = { s with
    daybook := { s.daybook with queue := (popVersion s).daybook.queue, waiting := (popVersion s).daybook.waiting } } := by
  unfold popVersion
  dsimp only
  split <;> rfl

theorem popVersion_queue {s : State} (h : s.daybook.waiting = []) : (popVersion s).daybook.queue = s.daybook.queue.tail := by
  unfold popVersion
  rw [h]

theorem sendEntry_state (s : State) (ch seq : Nat) : sendEntry s ch seq = { s with outbox := (sendEntry s ch seq).outbox } := by
  unfold sendEntry
  split <;> rfl

/-! ### The commit of a version -/

/-- A state with the next journal number taken (R104). -/
def nextJno (s : State) : State := { s with daybook := { s.daybook with jno := (s.daybook.jno + 1) % 2 ^ 48 } }

/-- A state with a version's record in its mirror entry (R101). -/
def recordMirrored (s : State) (v : Version) : State :=
  ownWrite (nextJno s) (mirrorAddr s v.ch v.seq) (slotBytes v s.daybook.jno)

/-- A Letter once a version has committed (R103, R339). -/
def Letter.committed (v : Version) (jno : Nat) (l : Letter) : Letter :=
  if l.ch = v.ch ∧ l.l.seq.toNat = v.seq then
    { l with commit := max l.commit v.state, jno := if v.state = 1 then jno else l.jno } else l

/-- A Reply once a version has committed (R107). -/
def PendReply.released (v : Version) (r : PendReply) : PendReply :=
  if 3 ≤ v.state ∧ r.ch = v.ch ∧ r.seq = v.seq then { r with waits := false } else r

theorem recordMirrored_storage (s : State) (v : Version) : StorageFrame (nextJno s) (recordMirrored s v) := ownWrite_storage _ _ _

theorem recordMirrored_reported (s : State) (v : Version) : Reported (nextJno s) (recordMirrored s v) := ownWrite_reported _ _ _

/-- A state with other Letters and Replies. -/
def withLists (s : State) (l : List Letter) (r : List PendReply) : State := { s with letters := l, replies := r }

/-- A state with a version's record mirrored, and its Letter and Replies as the commit leaves them (R101, R103, R107). -/
def recordCommitted (s : State) (v : Version) : State :=
  withLists (recordMirrored s v) (s.letters.map (Letter.committed v s.daybook.jno)) (s.replies.map (PendReply.released v))

theorem commitVersion_eq (s : State) (v : Version) : commitVersion s v =
    if 3 ≤ v.state then sendEntry (recordCommitted s v) v.ch v.seq else recordCommitted s v := by
  have hletters : s.letters = (recordMirrored s v).letters := (recordMirrored_storage s v).letters.symm
  have hreplies : s.replies = (recordMirrored s v).replies := (recordMirrored_storage s v).replies.symm
  unfold recordCommitted withLists
  rw [hletters, hreplies]
  unfold commitVersion Letter.committed PendReply.released
  simp only [Bool.and_eq_true, beq_iff_eq, decide_eq_true_eq, and_assoc]
  rfl

/-- A message that is sent or not goes to the outbox alone. -/
theorem sendEntryIf_state (c : Prop) [Decidable c] (s : State) (ch seq : Nat) :
    (if c then sendEntry s ch seq else s) = { s with outbox := (if c then sendEntry s ch seq else s).outbox } := by
  split
  · exact sendEntry_state _ _ _
  · rfl

/-- A version commits: its record is mirrored, its Letter's record has its state, and its Replies wait no more (R101, R107). -/
theorem commitVersion_state (s : State) (v : Version) :
    commitVersion s v = { recordCommitted s v with outbox := (commitVersion s v).outbox } := by
  rw [commitVersion_eq]
  exact sendEntryIf_state _ _ _ _

theorem CommitFrame.lists (s : State) (l : List Letter) (r : List PendReply) : CommitFrame s (withLists s l r) := rfl

theorem CommitFrame.outbox (s : State) (o : List Out) : CommitFrame s { s with outbox := o } := rfl

theorem nextJno_frame (s : State) : CommitFrame s (nextJno s) := rfl

theorem recordCommitted_frame (s : State) (v : Version) : CommitFrame s (recordCommitted s v) :=
  (nextJno_frame s).trans ((CommitFrame.of_storage (recordMirrored_storage s v) (recordMirrored_reported s v)).trans
    (CommitFrame.lists _ _ _))

theorem commitVersion_frame (s : State) (v : Version) : CommitFrame s (commitVersion s v) := by
  rw [commitVersion_state]
  exact (recordCommitted_frame s v).trans (CommitFrame.outbox _ _)

/-! ### A version that is written -/

/-- A state whose front version stands in its slot and is off the queue (R104, R105). -/
def slotWritten (s : State) (v : Version) : State :=
  popVersion (slotPut s (slotAddr v.cell (targetSlot s v)) (slotBytes v s.daybook.jno))

theorem slotWritten_state (s : State) (v : Version) : slotWritten s v = { s with
    mem := mapPutAll 0 s.mem (slotAddr v.cell (targetSlot s v)) (slotBytes v s.daybook.jno)
    ecc := (slotWritten s v).ecc
    daybook := { s.daybook with
      queue := (slotWritten s v).daybook.queue, waiting := (slotWritten s v).daybook.waiting } } := by
  unfold slotWritten
  rw [popVersion_state, slotPut_state]

theorem exec_journalWrite_written {v : Version} {rest : List Version} {s : State} (hscan : s.boot.scanned = true)
    (hvol : dbVolatile s = false) (hisland : islandFirst s = false) (hq : s.daybook.queue = v :: rest) :
    exec (.journalWrite .written) s = .next (commitVersion (slotWritten s v) v) := by
  show execJournalWrite .written s = _
  unfold execJournalWrite
  rw [hq]
  simp only [hscan, hvol, hisland, Bool.not_true, Bool.or_false, Bool.false_eq_true, if_false]
  rfl

section
variable {s : State} {v : Version}

theorem slotWritten_regs : (slotWritten s v).regs = s.regs := by rw [slotWritten_state]

theorem slotWritten_jno : (slotWritten s v).daybook.jno = s.daybook.jno := by rw [slotWritten_state]

theorem slotWritten_letters : (slotWritten s v).letters = s.letters := by rw [slotWritten_state]

theorem slotWritten_replies : (slotWritten s v).replies = s.replies := by rw [slotWritten_state]

theorem slotWritten_cache : (slotWritten s v).cache = s.cache := by rw [slotWritten_state]

theorem slotWritten_mem : (slotWritten s v).mem =
    mapPutAll 0 s.mem (slotAddr v.cell (targetSlot s v)) (slotBytes v s.daybook.jno) := by rw [slotWritten_state]

theorem slotWritten_queue (h : s.daybook.waiting = []) : (slotWritten s v).daybook.queue = s.daybook.queue.tail := by
  have hdaybook (a : Nat) (bs : List Byte) : (slotPut s a bs).daybook = s.daybook := by rw [slotPut_state]
  unfold slotWritten
  rw [popVersion_queue (by rw [hdaybook, h]), hdaybook]

theorem slotWritten_frame : CommitFrame s (slotWritten s v) := by
  rw [slotWritten_state]
  rfl

/-- The slot holds the version (R105). -/
theorem memBytes_slotWritten (hwf : Memory.wf s.mem) :
    memBytes (slotWritten s v) (slotAddr v.cell (targetSlot s v)) 64 = slotBytes v s.daybook.jno := by
  have hread := mapRange_mapPutAll_same (d := (0 : Byte)) hwf.1 (slotAddr v.cell (targetSlot s v)) (slotBytes v s.daybook.jno)
  rw [length_slotBytes] at hread
  unfold memBytes
  rw [slotWritten_mem, hread]

theorem memByte_slotWritten (hwf : Memory.wf s.mem) {x : Nat}
    (hx : ¬ (slotAddr v.cell (targetSlot s v) ≤ x ∧ x < slotAddr v.cell (targetSlot s v) + 64)) :
    memByte (slotWritten s v) x = memByte s x := by
  unfold memByte
  rw [slotWritten_mem, mapGet_mapPutAll_outside hwf.1 (by rwa [length_slotBytes])]

end

/-! ### The bytes of a commit -/

/-- What a commit changes once its record is mirrored. -/
theorem of_committed {u t : State} {l : List Letter} {r : List PendReply} {o : List Out}
    (h : t = { withLists u l r with outbox := o }) :
    t.mem = u.mem ∧ t.cache = u.cache ∧ t.daybook = u.daybook ∧ t.letters = l ∧ t.replies = r := by
  subst h
  exact ⟨rfl, rfl, rfl, rfl, rfl⟩

theorem commitVersion_fields (s : State) (v : Version) :
    (commitVersion s v).mem = (recordMirrored s v).mem ∧ (commitVersion s v).cache = (recordMirrored s v).cache ∧
    (commitVersion s v).daybook = (recordMirrored s v).daybook ∧
    (commitVersion s v).letters = s.letters.map (Letter.committed v s.daybook.jno) ∧
    (commitVersion s v).replies = s.replies.map (PendReply.released v) := by
  have h := commitVersion_state s v
  unfold recordCommitted at h
  exact of_committed h

theorem ownView_congr {s t : State} (hm : t.mem = s.mem) (hc : t.cache = s.cache) (a n : Nat) : ownView t a n = ownView s a n := by
  unfold ownView viewFor findLine memBytes
  rw [hm, hc]

/-- A commit writes the record's half of the mirror entry and nothing below LPDDR5X (R101). -/
structure RecordMirrored (s : State) (v : Version) (t : State) : Prop where
  dram : DramOnly s t
  viewed : pooled s 0 (mirrorAddr s v.ch v.seq) = true → ownView t (mirrorAddr s v.ch v.seq) 64 = slotBytes v s.daybook.jno
  stored : pooled s 0 (mirrorAddr s v.ch v.seq) = false →
    memBytes t (mirrorAddr s v.ch v.seq) 64 = slotBytes v s.daybook.jno

theorem commitVersion_mirrors {s : State} {v : Version} (hwf : Memory.wf s.mem) (hs : DramLines s)
    (hbase : dramBase ≤ mirrorBase s) : RecordMirrored s v (commitVersion s v) := by
  have haddr := hbase.trans (mirrorBase_le_mirrorAddr s v.ch v.seq)
  have hlen := length_slotBytes v s.daybook.jno
  have hfit : mirrorAddr s v.ch v.seq % 256 + (slotBytes v s.daybook.jno).length ≤ 256 := hlen ▸ mirrorAddr_fits s v.ch v.seq
  have hdram {u : State} (h : DramOnly (nextJno s) u) (hm : (commitVersion s v).mem = u.mem) (hc : (commitVersion s v).cache = u.cache) :
      DramOnly s (commitVersion s v) :=
    DramOnly.trans ⟨h.wf, h.below, h.lines⟩ (.of_mem h.wf hm fun l hl => h.lines l (hc ▸ hl))
  obtain ⟨hmem, hcache, -⟩ := commitVersion_fields s v
  cases hpool : pooled s 0 (mirrorAddr s v.ch v.seq) with
  | true =>
    obtain ⟨hstored, hview⟩ := ownWrite_pooled (s := nextJno s) (bs := slotBytes v s.daybook.jno) hwf hs hpool
      (by rw [hlen]; decide) hfit
    rw [hlen] at hview
    exact ⟨hdram (u := recordMirrored s v) hstored hmem hcache, fun _ => (ownView_congr hmem hcache _ _).trans hview,
      fun h => absurd (hpool.symm.trans h) (by decide)⟩
  | false =>
    obtain ⟨hstored, hbytes⟩ := ownWrite_direct (s := nextJno s) (bs := slotBytes v s.daybook.jno) hwf hs haddr hpool
    rw [hlen] at hbytes
    refine ⟨hdram (u := recordMirrored s v) hstored hmem hcache, fun h => absurd (hpool.symm.trans h) (by decide), fun _ => ?_⟩
    unfold memBytes at hbytes ⊢
    rw [hmem]
    exact hbytes

/-- A version that is written goes into its slot and commits; no other byte of the MRAM changes (R101, R104, R105, R107). -/
theorem journalWrite_commits {v : Version} {rest : List Version} {s : State} (hcan : Canonical s) (hs : DramLines s)
    (hscan : s.boot.scanned = true) (hvol : dbVolatile s = false) (hisland : islandFirst s = false)
    (hq : s.daybook.queue = v :: rest) (hcell : v.cell < cellCount) (hbase : dramBase ≤ mirrorBase s) :
    Runs (.journalWrite .written) s fun t =>
      slotAt t v.cell (targetSlot s v) = slotBytes v s.daybook.jno ∧
      MramBut (slotAddr v.cell (targetSlot s v)) 64 s t ∧
      RecordMirrored (slotWritten s v) v t ∧
      t.daybook.jno = (s.daybook.jno + 1) % 2 ^ 48 ∧
      (s.daybook.waiting = [] → t.daybook.queue = rest) ∧
      t.letters = s.letters.map (Letter.committed v s.daybook.jno) ∧
      t.replies = s.replies.map (PendReply.released v) ∧
      CommitFrame s t := by
  have hrange := slotAddr_range hcell (targetSlot_lt s v)
  have hwf : Memory.wf (slotWritten s v).mem := slotWritten_mem ▸ mapPutAll_wf hcan.mem _ _
  have hlines : DramLines (slotWritten s v) := fun l hl => hs l (slotWritten_cache (s := s) (v := v) ▸ hl)
  have hbase' : dramBase ≤ mirrorBase (slotWritten s v) := by
    unfold mirrorBase fget64 at hbase ⊢
    rwa [fget_of_regs slotWritten_regs, fget_of_regs slotWritten_regs]
  have hmirrors := commitVersion_mirrors (v := v) hwf hlines hbase'
  have hbelow (x : Nat) (hx : x < 0x30400000) :
      memByte (commitVersion (slotWritten s v) v) x = memByte (slotWritten s v) x :=
    hmirrors.dram.below x (hx.trans (by decide))
  obtain ⟨-, -, hdb, hletters, hreplies⟩ := commitVersion_fields (slotWritten s v) v
  have hdaybook := hdb.trans (recordMirrored_storage (slotWritten s v) v).daybook
  refine ⟨_, exec_journalWrite_written hscan hvol hisland hq, ?_, fun x _ hhi hx => ?_, hmirrors, ?_, fun h => ?_, ?_, ?_,
    slotWritten_frame.trans (commitVersion_frame _ _)⟩
  · unfold slotAt
    rw [memBytes_congr hwf hmirrors.dram.wf fun x _ hx => hbelow x (by omega), memBytes_slotWritten hcan.mem]
  · rw [hbelow x hhi, memByte_slotWritten hcan.mem hx]
  · rw [hdaybook, ← slotWritten_jno (s := s) (v := v)]
    rfl
  · rw [hdaybook]
    exact (slotWritten_queue h).trans (by rw [hq, List.tail_cons])
  · rw [hletters, slotWritten_letters, slotWritten_jno]
  · rw [hreplies, slotWritten_replies]

/-! ### The failure of the Daybook's memory -/

theorem StorageWords.fgetLow {s t : State} (h : StorageWords s t) (g : Fld) (hp : g.page < 0x060) (hl : 0x040 ≤ g.off)
    (hu : g.off < 0x1000) : fget t g = fget s g := by
  unfold fget
  rw [h _ _ hu (by simp only [storageWord]; omega)]

/-- A state whose failure of nonvolatile memory stands in the registers (R137). -/
def nvmNoted (s : State) : State :=
  setEvent (fadd (fput (fput s Fd.safety_NVM_FAULT 1) Fd.daybook_NVM_FAULT 1) Fd.safety_NVM_FAIL_COUNT 1) 0x004 11

theorem nvmFail_regs (s : State) (addr jno : Nat) : (nvmFail s addr jno).regs = (nvmNoted s).regs := rfl

theorem fget_nvmNoted (s : State) (g : Fld) (hp : g.page < 0x060) (hl : 0x040 ≤ g.off) (hu : g.off < 0x1000) (hok : g.ok)
    (hapart : Fd.safety_NVM_FAIL_COUNT.apart g) :
    fget (nvmNoted s) g = fget (fput (fput s Fd.safety_NVM_FAULT 1) Fd.daybook_NVM_FAULT 1) g :=
  (StorageWords.fgetLow (.setEvent _ _ _) g hp hl hu).trans (fget_fput_other _ _ _ _ (by decide) hok hapart)

theorem nvmFail_safetyFault (s : State) (addr jno : Nat) : fget (nvmFail s addr jno) Fd.safety_NVM_FAULT = 1 := by
  rw [fget_of_regs (nvmFail_regs s addr jno), fget_nvmNoted _ _ (by decide) (by decide) (by decide) (by decide) (by decide),
    fget_fput_other _ _ _ _ (by decide) (by decide) (by decide), fget_fput_same _ _ _ (by decide)]
  rfl

theorem nvmFail_daybookFault (s : State) (addr jno : Nat) : fget (nvmFail s addr jno) Fd.daybook_NVM_FAULT = 1 := by
  rw [fget_of_regs (nvmFail_regs s addr jno), fget_nvmNoted _ _ (by decide) (by decide) (by decide) (by decide) (by decide),
    fget_fput_same _ _ _ (by decide)]
  rfl

theorem nvmFail_dbVolatile (s : State) (addr jno : Nat) : dbVolatile (nvmFail s addr jno) = dbVolatile s := by
  unfold dbVolatile
  rw [fget_of_regs (nvmFail_regs s addr jno), fget_nvmNoted _ _ (by decide) (by decide) (by decide) (by decide) (by decide),
    fget_fput_other _ _ _ _ (by decide) (by decide) (by decide), fget_fput_other _ _ _ _ (by decide) (by decide) (by decide)]

/-- A failure in the Daybook's area is reported from its page (R137). -/
theorem nvmFail_onBus (s : State) {addr : Nat} (jno : Nat) (h : addr < 0x30200000) : OnBus (nvmFail s addr jno) 0x1C 0x006 :=
  ⟨_, List.mem_append_right _ (List.mem_singleton_self _), rfl, if_neg (Nat.not_le.2 h)⟩

theorem nvmFail_lastWords (s : State) (addr jno : Nat) : (nvmFail s addr jno).daybook.lastWords =
    (⟨0x1C, s.time.epoch.toNat, addr % 2 ^ 32, now s, jno⟩ :: s.daybook.lastWords).take 8 := by
  simp [nvmFail, lifeAdd, now]

/-! ### What versions of a volatile Daybook leave -/

/-- What the versions of a volatile Daybook leave: registers, reports, and of the Daybook its queue and its last words (R139). -/
structure MirrorCommits (s t : State) : Prop where
  words : StorageWords s t
  reported : Reported s t
  queue : t.daybook.queue = s.daybook.queue
  waiting : t.daybook.waiting = s.daybook.waiting
  lastWords : t.daybook.lastWords = s.daybook.lastWords

namespace MirrorCommits

theorem refl (s : State) : MirrorCommits s s := ⟨.refl s, .refl s, rfl, rfl, rfl⟩

theorem trans {a b c : State} (h : MirrorCommits a b) (k : MirrorCommits b c) : MirrorCommits a c :=
  ⟨h.words.trans k.words, h.reported.trans k.reported, k.queue.trans h.queue, k.waiting.trans h.waiting,
    k.lastWords.trans h.lastWords⟩

theorem foldl {α : Type} {f : State → α → State} (h : ∀ s x, MirrorCommits s (f s x)) (l : List α) (s : State) :
    MirrorCommits s (l.foldl f s) := by
  induction l generalizing s with
  | nil => exact .refl s
  | cons x l ih => exact (h s x).trans (ih _)

end MirrorCommits

theorem nextJno_commits (s : State) : MirrorCommits s (nextJno s) := ⟨.of_regs rfl, .of_same rfl rfl rfl, rfl, rfl, rfl⟩

theorem withLists_commits (s : State) (l : List Letter) (r : List PendReply) : MirrorCommits s (withLists s l r) :=
  ⟨.of_regs rfl, .of_same rfl rfl rfl, rfl, rfl, rfl⟩

theorem outbox_commits (s : State) (o : List Out) : MirrorCommits s { s with outbox := o } :=
  ⟨.of_regs rfl, .of_same rfl rfl rfl, rfl, rfl, rfl⟩

theorem recordMirrored_commits (s : State) (v : Version) : MirrorCommits (nextJno s) (recordMirrored s v) := by
  have hstore := recordMirrored_storage s v
  exact ⟨hstore.words, recordMirrored_reported s v, by rw [hstore.daybook], by rw [hstore.daybook], by rw [hstore.daybook]⟩

theorem commitVersion_commits (s : State) (v : Version) : MirrorCommits s (commitVersion s v) := by
  rw [commitVersion_state]
  exact (nextJno_commits s).trans ((recordMirrored_commits s v).trans ((withLists_commits _ _ _).trans (outbox_commits _ _)))

theorem noteVolatile_commits (s : State) (ch seq : Nat) : MirrorCommits s (noteVolatile s ch seq) :=
  ⟨.of_regs rfl, .of_same rfl rfl rfl, rfl, rfl, rfl⟩

theorem commitVolatile_commits (s : State) (v : Version) : MirrorCommits s (commitVolatile s v) := by
  unfold commitVolatile
  split
  · exact (commitVersion_commits s v).trans (noteVolatile_commits _ _ _)
  · exact commitVersion_commits s v

/-! ### The Daybook turns volatile -/

/-- What a failure of the Daybook's memory leaves (R137, R139): the Daybook is volatile and has no version queued, the failure stands in
NVM_FAULT and its copy, in the last-words buffer and on the fault bus. -/
structure TurnedVolatile (w : LastWord) (t : State) : Prop where
  isVolatile : fget t Fd.daybook_DAYBOOK_VOLATILE = 1
  event : HasEvent t 0x006 8
  safetyFault : fget t Fd.safety_NVM_FAULT = 1
  daybookFault : fget t Fd.daybook_NVM_FAULT = 1
  bus : OnBus t 0x1C 0x006
  lastWord : t.daybook.lastWords.head? = some w
  queue : t.daybook.queue = []
  waiting : t.daybook.waiting = []

theorem TurnedVolatile.commits {w : LastWord} {s t : State} (h : TurnedVolatile w s) (k : MirrorCommits s t) : TurnedVolatile w t where
  isVolatile := by rw [k.words.fgetLow _ (by decide) (by decide) (by decide), h.isVolatile]
  event := k.reported.events _ _ h.event
  safetyFault := by rw [k.words.fgetLow _ (by decide) (by decide) (by decide), h.safetyFault]
  daybookFault := by rw [k.words.fgetLow _ (by decide) (by decide) (by decide), h.daybookFault]
  bus := k.reported.onBus h.bus
  lastWord := by rw [k.lastWords, h.lastWord]
  queue := by rw [k.queue, h.queue]
  waiting := by rw [k.waiting, h.waiting]

/-- A state whose Daybook is volatile from now on and has no version queued (R139). -/
def queuesEmptied (s : State) : State :=
  { setEvent (fput s Fd.daybook_DAYBOOK_VOLATILE 1) 0x006 8 with
    daybook := { (setEvent (fput s Fd.daybook_DAYBOOK_VOLATILE 1) 0x006 8).daybook with queue := [], waiting := [] } }

theorem daybookFail_eq {s : State} (addr jno : Nat) (hvol : dbVolatile s = false) : ∃ vs,
    daybookFail s addr jno = List.foldl commitVolatile (queuesEmptied (nvmFail s addr jno)) vs := by
  unfold daybookFail
  simp only [nvmFail_dbVolatile, hvol, Bool.false_eq_true, if_false]
  exact ⟨_, rfl⟩

theorem fget_queuesEmptied (s : State) (g : Fld) (hp : g.page < 0x060) (hl : 0x040 ≤ g.off) (hu : g.off < 0x1000) :
    fget (queuesEmptied s) g = fget (fput s Fd.daybook_DAYBOOK_VOLATILE 1) g :=
  StorageWords.fgetLow ((StorageWords.setEvent _ 0x006 8).trans (.of_regs rfl)) g hp hl hu

theorem queuesEmptied_reported (s : State) : Reported s (queuesEmptied s) :=
  (fput_reported s Fd.daybook_DAYBOOK_VOLATILE 1 (by decide) (by decide)).trans
    ((setEvent_reported _ 0x006 8).trans (.of_same rfl rfl rfl))

theorem queuesEmptied_lastWords (s : State) : (queuesEmptied s).daybook.lastWords = s.daybook.lastWords := by
  unfold queuesEmptied
  rw [setEvent_state]
  rfl

theorem queuesEmptied_hasEvent (s : State) : HasEvent (queuesEmptied s) 0x006 8 := by
  have h := setEvent_hasEvent (fput s Fd.daybook_DAYBOOK_VOLATILE 1) 0x006 (b := 8) (by decide)
  unfold HasEvent at *
  rwa [fget_of_regs (show (queuesEmptied s).regs = _ from rfl)]

theorem nvmFail_turnedVolatile (s : State) {addr : Nat} (jno : Nat) (haddr : addr < 0x30200000) :
    TurnedVolatile ⟨0x1C, s.time.epoch.toNat, addr, now s, jno⟩ (queuesEmptied (nvmFail s addr jno)) where
  isVolatile := by
    rw [fget_queuesEmptied _ _ (by decide) (by decide) (by decide), fget_fput_same _ _ _ (by decide)]
    rfl
  event := queuesEmptied_hasEvent _
  safetyFault := by
    rw [fget_queuesEmptied _ _ (by decide) (by decide) (by decide), fget_fput_other _ _ _ _ (by decide) (by decide) (by decide),
      nvmFail_safetyFault]
  daybookFault := by
    rw [fget_queuesEmptied _ _ (by decide) (by decide) (by decide), fget_fput_other _ _ _ _ (by decide) (by decide) (by decide),
      nvmFail_daybookFault]
  bus := (queuesEmptied_reported _).onBus (nvmFail_onBus s jno haddr)
  lastWord := by
    rw [queuesEmptied_lastWords, nvmFail_lastWords, Nat.mod_eq_of_lt (haddr.trans (by decide))]
    rfl
  queue := rfl
  waiting := rfl

theorem daybookFail_turnedVolatile {s : State} {addr : Nat} (jno : Nat) (hvol : dbVolatile s = false) (haddr : addr < 0x30200000) :
    TurnedVolatile ⟨0x1C, s.time.epoch.toNat, addr, now s, jno⟩ (daybookFail s addr jno) := by
  obtain ⟨vs, heq⟩ := daybookFail_eq addr jno hvol
  rw [heq]
  exact (nvmFail_turnedVolatile s jno haddr).commits (.foldl commitVolatile_commits vs _)

/-! ### A write that fails -/

theorem exec_journalWrite_failed {res : MramResult} {v : Version} {rest : List Version} {s : State} (hscan : s.boot.scanned = true)
    (hvol : dbVolatile s = false) (hisland : islandFirst s = false) (hq : s.daybook.queue = v :: rest) (hres : res ≠ .written) :
    exec (.journalWrite res) s = .next (daybookFail (failedSlot s (slotAddr v.cell (targetSlot s v)) (slotBytes v s.daybook.jno) res)
      (slotAddr v.cell (targetSlot s v)) s.daybook.jno) := by
  show execJournalWrite res s = _
  unfold execJournalWrite
  rw [hq]
  simp only [hscan, hvol, hisland, Bool.not_true, Bool.or_false, Bool.false_eq_true, if_false]

/-- A slot whose write failed holds what it holds; registers and time are as before (R137). -/
theorem failedSlot_unchanged (s : State) (addr : Nat) (bs : List Byte) (res : MramResult) :
    (failedSlot s addr bs res).regs = s.regs ∧ (failedSlot s addr bs res).time = s.time := by
  have hput (u : State) (bs : List Byte) : (slotPut u addr bs).regs = u.regs ∧ (slotPut u addr bs).time = u.time := by
    rw [slotPut_state]
    exact ⟨rfl, rfl⟩
  unfold failedSlot
  split
  · simp [hput]
  · exact hput _ _

/-- A write of the Daybook that fails makes the Daybook volatile (R137, R139). -/
theorem journalWrite_failed {res : MramResult} {v : Version} {rest : List Version} {s : State} (hscan : s.boot.scanned = true)
    (hvol : dbVolatile s = false) (hisland : islandFirst s = false) (hq : s.daybook.queue = v :: rest) (hcell : v.cell < cellCount)
    (hres : res ≠ .written) : Runs (.journalWrite res) s
      (TurnedVolatile ⟨0x1C, s.time.epoch.toNat, slotAddr v.cell (targetSlot s v), now s, s.daybook.jno⟩) := by
  obtain ⟨hregs, htime⟩ := failedSlot_unchanged s (slotAddr v.cell (targetSlot s v)) (slotBytes v s.daybook.jno) res
  have hrange := slotAddr_range hcell (targetSlot_lt s v)
  refine ⟨_, exec_journalWrite_failed hscan hvol hisland hq hres, ?_⟩
  have hturned := daybookFail_turnedVolatile s.daybook.jno
    (s := failedSlot s (slotAddr v.cell (targetSlot s v)) (slotBytes v s.daybook.jno) res)
    (addr := slotAddr v.cell (targetSlot s v)) (by unfold dbVolatile at *; rwa [fget_of_regs hregs]) (by omega)
  unfold now at *
  rwa [htime] at hturned

/-- Settles O20: the slot is stored first and the record is mirrored after it, in LPDDR5X, so the MRAM differs in the slot alone; after a
failed write the versions left are mirrored only, which clears none of what the failure set. -/
theorem journalWritesCommitOrTurnVolatile : Obligations.JournalWritesCommitOrTurnVolatile := by
  unfold Obligations.JournalWritesCommitOrTurnVolatile
  refine ⟨fun v rest s hcan hwhole hdram hscan hvol hisland hq hcell hbase => ?_,
    fun res v rest s hscan hvol hisland hq hcell hres => ?_⟩
  · obtain ⟨t, hstep, hslot, hmram, hmirror, hjno, hqueue, hletters, hreplies, hframe⟩ :=
      journalWrite_commits hcan (dramLines_of hwhole hdram) hscan hvol hisland hq hcell hbase
    obtain ⟨-, hviewed, hstored⟩ := hmirror
    rw [mirrorAddr_of_regs slotWritten_regs, pooled_of_regs slotWritten_regs, slotWritten_jno] at hviewed hstored
    exact ⟨t, hstep, hslot, hmram, hviewed, hstored, hjno, hqueue, hletters, hreplies, hframe⟩
  · obtain ⟨t, hstep, ht⟩ := journalWrite_failed hscan hvol hisland hq hcell hres
    exact ⟨t, hstep, ht.isVolatile, ht.event, ht.safetyFault, ht.daybookFault, ht.bus, ht.lastWord, ht.queue, ht.waiting⟩

end Sys2Proof.Machine
end

section
/-! SUPPORT. What the dispatch of a task leaves (03 R103; 10 R354, R356): its Letter in its place, and all but what a task may change. -/

namespace Sys2Proof.Machine

/-! ### Letters and tasks by their names -/

/-- A change of Letters that leaves each one's channel and fields as accepted (R120). -/
def LetterNamed (f : Letter → Letter) : Prop := ∀ l, (f l).ch = l.ch ∧ (f l).l = l.l

theorem letterOf_map {s t : State} {f : Letter → Letter} (hf : LetterNamed f) (h : t.letters = s.letters.map f) (ch seq : Nat) :
    letterOf t ch seq = (letterOf s ch seq).map f := by
  have hcomp : (fun l : Letter => l.ch == ch && l.l.seq.toNat == seq) ∘ f = fun l => l.ch == ch && l.l.seq.toNat == seq := by
    funext l
    obtain ⟨hch, hl⟩ := hf l
    rw [Function.comp_apply, hch, hl]
  unfold letterOf
  rw [h, List.find?_map, hcomp]

theorem letterOf_named {s : State} {ch seq : Nat} {l : Letter} (h : letterOf s ch seq = some l) :
    l.ch = ch ∧ l.l.seq.toNat = seq := by
  have hfound := List.find?_some h
  rwa [Bool.and_eq_true, beq_iff_eq, beq_iff_eq] at hfound

/-- A change that leaves each one's phase besides (R103). -/
def LetterKept (f : Letter → Letter) : Prop := ∀ l, (f l).ch = l.ch ∧ (f l).l = l.l ∧ (f l).phase = l.phase

theorem LetterKept.named {f : Letter → Letter} (h : LetterKept f) : LetterNamed f := fun l =>
  have ⟨hch, hl, _⟩ := h l
  ⟨hch, hl⟩

/-- One Letter changed, the others left (R103). -/
def Letter.at (ch seq : Nat) (f : Letter → Letter) (l : Letter) : Letter := if l.ch == ch && l.l.seq.toNat == seq then f l else l

theorem letterAt_named {f : Letter → Letter} (hf : LetterNamed f) (ch seq : Nat) : LetterNamed (Letter.at ch seq f) := by
  intro l
  unfold Letter.at
  split
  · exact hf l
  · exact ⟨rfl, rfl⟩

theorem letterOf_updLetter {s : State} {ch seq : Nat} {l : Letter} {f : Letter → Letter} (h : letterOf s ch seq = some l)
    (hf : LetterNamed f) : letterOf (updLetter s ch seq f) ch seq = some (f l) := by
  obtain ⟨hch, hseq⟩ := letterOf_named h
  rw [letterOf_map (letterAt_named hf ch seq) rfl, h]
  simp [Letter.at, hch, hseq]

/-- A task that is put in its place is there under its identifier. -/
theorem taskOf_putTask {s : State} {x : Task} (h : (taskOf s x.id).isSome = true) : taskOf (putTask s x) x.id = some x := by
  have hcomp : (fun y : Task => y.id == x.id) ∘ (fun y : Task => if y.id == x.id then x else y) = fun y => y.id == x.id := by
    funext y
    rw [Function.comp_apply]
    by_cases hy : y.id = x.id
    · simp [hy]
    · simp [hy]
  obtain ⟨y, hy⟩ := Option.isSome_iff_exists.1 h
  have hid := List.find?_some hy
  unfold taskOf at hy ⊢
  unfold putTask
  rw [List.find?_map, hcomp, hy, Option.map_some, if_pos hid]

theorem taskOf_of_tasks {s t : State} (h : t.sched.tasks = s.sched.tasks) (k : Nat) : taskOf t k = taskOf s k := by
  unfold taskOf
  rw [h]

/-! ### What a step of a dispatch leaves -/

/-- What a step of a dispatch leaves: all but what a task may change and the frames taken by it (R375), with every Letter in its place
and phase, and the round-robin pointers (R354). -/
structure Dispatched (s t : State) : Prop where
  frame : TaskFrame { s with filters := t.filters } t
  letters : ∃ f, LetterKept f ∧ t.letters = s.letters.map f
  rr : t.sched.rr = s.sched.rr

/-- The same with the scheduler as before. -/
structure Loaded (s t : State) : Prop where
  step : Dispatched s t
  sched : t.sched = s.sched

namespace Dispatched

theorem refl (s : State) : Dispatched s s := ⟨rfl, ⟨id, fun _ => ⟨rfl, rfl, rfl⟩, (List.map_id _).symm⟩, rfl⟩

theorem trans {a b c : State} (h : Dispatched a b) (k : Dispatched b c) : Dispatched a c := by
  obtain ⟨hframe, ⟨f, hf, hmap⟩, hrr⟩ := h
  obtain ⟨kframe, ⟨g, hg, kmap⟩, krr⟩ := k
  refine ⟨?_, ⟨g ∘ f, fun l => ?_, by rw [kmap, hmap, List.map_map]⟩, krr.trans hrr⟩
  · unfold TaskFrame at *
    rw [kframe, hframe]
  · obtain ⟨hch, hl, hphase⟩ := hf l
    obtain ⟨kch, kl, kphase⟩ := hg (f l)
    exact ⟨kch.trans hch, kl.trans hl, kphase.trans hphase⟩

theorem now {s t : State} (h : Dispatched s t) : Machine.now t = Machine.now s := h.frame.now

/-- A Letter is in its place and phase. -/
theorem phase {s t : State} (h : Dispatched s t) (ch seq : Nat) :
    (letterOf t ch seq).map (·.phase) = (letterOf s ch seq).map (·.phase) := by
  obtain ⟨-, ⟨f, hf, hmap⟩, -⟩ := h
  rw [letterOf_map hf.named hmap, Option.map_map]
  refine congrArg (Option.map · _) (funext fun l => ?_)
  obtain ⟨-, -, hphase⟩ := hf l
  exact hphase

end Dispatched

namespace Loaded

theorem refl (s : State) : Loaded s s := ⟨.refl s, rfl⟩

theorem trans {a b c : State} (h : Loaded a b) (k : Loaded b c) : Loaded a c := ⟨h.step.trans k.step, k.sched.trans h.sched⟩

theorem foldl {α : Type} {f : State → α → State} (h : ∀ s x, Loaded s (f s x)) (l : List α) (s : State) :
    Loaded s (l.foldl f s) := by
  induction l generalizing s with
  | nil => exact .refl s
  | cons x l ih => exact (h s x).trans (ih _)

theorem foldlFst {α β : Type} {f : State × β → α → State × β} (h : ∀ p x, Loaded p.1 (f p x).1) (l : List α)
    (p : State × β) : Loaded p.1 (l.foldl f p).1 := by
  induction l generalizing p with
  | nil => exact .refl p.1
  | cons x l ih => exact (h p x).trans (ih _)

/-- Letters, filters and scheduler as before. -/
theorem of_task {s t : State} (h : TaskFrame s t) (hl : t.letters = s.letters) (hs : t.sched = s.sched) : Loaded s t := by
  refine ⟨⟨?_, ⟨id, fun _ => ⟨rfl, rfl, rfl⟩, by rw [hl, List.map_id]⟩, by rw [hs]⟩, hs⟩
  unfold TaskFrame at *
  rw [h]

/-- Letters that keep their places and phases. -/
theorem of_letters {s t : State} {f : Letter → Letter} (hf : LetterKept f)
    (h : TaskFrame s t) (hl : t.letters = s.letters.map f) (hs : t.sched = s.sched) : Loaded s t := by
  refine ⟨⟨?_, ⟨f, hf, hl⟩, by rw [hs]⟩, hs⟩
  unfold TaskFrame at *
  rw [h]

theorem of_storage {s t : State} (h : StorageFrame s t) : Loaded s t := of_task h.task h.letters (by rw [h.rest])

theorem of_fadd (s : State) (f : Fld) (n : Nat) : Loaded s (fadd s f n) := of_task rfl rfl rfl

theorem of_setEvent (s : State) (p b : Nat) : Loaded s (setEvent s p b) := by
  rw [setEvent_state]
  exact of_task rfl rfl rfl

theorem of_raise (s : State) (c o k p d : Nat) : Loaded s (raise s c o k p d) := of_task rfl rfl rfl

theorem of_draw (s : State) : Loaded s (draw s).1 := of_task rfl rfl rfl

theorem taskOf {s t : State} (h : Loaded s t) (k : Nat) : Machine.taskOf t k = Machine.taskOf s k :=
  taskOf_of_tasks (by rw [h.sched]) k

end Loaded

theorem Dispatched.putTask (s : State) (x : Task) : Dispatched s (putTask s x) :=
  ⟨rfl, ⟨id, fun _ => ⟨rfl, rfl, rfl⟩, (List.map_id _).symm⟩, rfl⟩

theorem updLetter_loaded {f : Letter → Letter} (hf : LetterKept f) (s : State)
    (ch seq : Nat) : Loaded s (updLetter s ch seq f) := by
  refine .of_letters (f := Letter.at ch seq f) (fun l => ?_) rfl rfl rfl
  unfold Letter.at
  split
  · exact hf l
  · exact ⟨rfl, rfl, rfl⟩

theorem updRun_loaded (s : State) (ch seq : Nat) (f : RunSt → RunSt) : Loaded s (updRun s ch seq f) :=
  updLetter_loaded (f := fun l => { l with run := l.run.map f }) (fun _ => ⟨rfl, rfl, rfl⟩) s ch seq

theorem noteStatus_loaded (s : State) (ch seq status detail : Nat) : Loaded s (noteStatus s ch seq status detail) := by
  refine updLetter_loaded (fun l => ?_) s ch seq
  split <;> exact ⟨rfl, rfl, rfl⟩

/-! ### Versions -/

theorem CommitFrame.task {s t : State} (h : CommitFrame s t) : TaskFrame s t := by
  unfold CommitFrame at h
  unfold TaskFrame
  rw [h]

theorem CommitFrame.sched {s t : State} (h : CommitFrame s t) : t.sched = s.sched := by
  unfold CommitFrame at h
  rw [h]

theorem Letter.committed_kept (v : Version) (jno : Nat) : LetterKept (Letter.committed v jno) := by
  intro l
  unfold Letter.committed
  split <;> exact ⟨rfl, rfl, rfl⟩

theorem commitVersion_loaded (s : State) (v : Version) : Loaded s (commitVersion s v) := by
  obtain ⟨-, -, -, hletters, -⟩ := commitVersion_fields s v
  have hframe := commitVersion_frame s v
  exact .of_letters (Letter.committed_kept v _) hframe.task hletters hframe.sched

theorem queueVersion_loaded (s : State) (v : Version) : Loaded s (queueVersion s v) := by
  unfold queueVersion
  split
  · exact commitVersion_loaded s v
  · repeat' split
    all_goals exact .of_task rfl rfl rfl

/-! ### A Letter that starts -/

/-- A Letter in execution (R103). -/
def Letter.started (tick : Nat) (l : Letter) : Letter := { l with phase := .started, startPm := tick }

theorem markStarted_eq {s : State} {ch seq : Nat} {l : Letter} (h : letterOf s ch seq = some l) :
    markStarted s ch seq = if l.phase = .accepted then
      queueVersion (updLetter s ch seq (Letter.started (now s))) (versionOf (updLetter s ch seq (Letter.started (now s)))
        { l with phase := .started, startPm := now (updLetter s ch seq (Letter.started (now s))) } 2) else s := by
  unfold markStarted
  rw [h]
  simp only [beq_iff_eq]
  rfl

/-- What starts the Letters of a task leaves the scheduler as it is. -/
theorem markStarted_frame (s : State) (ch seq : Nat) :
    TaskFrame { s with filters := (markStarted s ch seq).filters } (markStarted s ch seq) ∧
    (markStarted s ch seq).sched = s.sched := by
  unfold markStarted
  split
  next l hl =>
    split
    next =>
      have h := queueVersion_loaded (updLetter s ch seq (Letter.started (now s)))
        (versionOf (updLetter s ch seq (Letter.started (now s))) (Letter.started (now s) l) 2)
      exact ⟨h.step.frame, h.sched⟩
    next => exact ⟨rfl, rfl⟩
  next => exact ⟨rfl, rfl⟩

theorem markStarted_phase {s : State} {ch seq : Nat} {l : Letter} (h : letterOf s ch seq = some l) :
    (letterOf (markStarted s ch seq) ch seq).map (·.phase) = some (if l.phase = .accepted then .started else l.phase) := by
  rw [markStarted_eq h]
  split
  · rw [(queueVersion_loaded _ _).step.phase, letterOf_updLetter (f := Letter.started (now s)) h fun _ => ⟨rfl, rfl⟩]
    rfl
  · rw [h]
    rfl

end Sys2Proof.Machine
end

section
/-! SUPPORT. A task that starts (10 R354, R356; 11 R327-R329): what its operands' reads, its scratch and its prologue leave. -/

namespace Sys2Proof.Machine

/-! ### Reads of operands -/

theorem docketFail_loaded (s : State) (x : Task) : Loaded s (docketFail s x) := by
  have herr : Loaded s (errUncorr s (taskPage x)) := (Loaded.of_fadd _ _ _).trans (.of_setEvent _ _ _)
  have hevent (u : State) : Loaded u (docketEvent u x) := by
    unfold docketEvent
    split
    case h_5 => exact .refl u
    all_goals exact .of_setEvent _ _ _
  exact (herr.trans (hevent _)).trans (.of_raise _ _ _ _ _ _)

theorem readRange_loaded (s : State) (x : Task) (a n : Nat) : Loaded s (readRange s x a n).1 := by
  unfold readRange
  dsimp only
  split
  · exact .refl s
  · exact .of_storage (devRead_storage _ _ _ _ _)

theorem readPort_loaded (s : State) (x : Task) (port : PortRef) : Loaded s (readPort s x port).1 := by
  unfold readPort
  dsimp only
  split
  case h_3 => exact readRange_loaded _ _ _ _
  case h_4 =>
    split
    · split
      · exact readRange_loaded _ _ _ _
      · exact .refl s
    · exact .refl s
  case h_2 => split <;> exact .refl s
  all_goals exact .refl s

/-- What of a task is settled when it starts (R354, R356). -/
def Task.startOf (x : Task) : Nat × Option Nat × List Nat × Nat := (x.id, x.disp, x.units, x.budgetEnd)

theorem Task.startOf_iff {x : Task} {k : Nat} {d : Option Nat} {us : List Nat} {stop : Nat} :
    x.startOf = (k, d, us, stop) ↔ x.id = k ∧ x.disp = d ∧ x.units = us ∧ x.budgetEnd = stop := by
  simp only [Task.startOf, Prod.mk.injEq]

/-- A step of the reads of a task's operands: the task is the one that started. -/
structure TaskLoaded (a b : State × Task) : Prop where
  state : Loaded a.1 b.1
  start : b.2.startOf = a.2.startOf

namespace TaskLoaded

theorem refl (a : State × Task) : TaskLoaded a a := ⟨.refl _, rfl⟩

theorem trans {a b c : State × Task} (h : TaskLoaded a b) (k : TaskLoaded b c) : TaskLoaded a c :=
  ⟨h.state.trans k.state, k.start.trans h.start⟩

theorem foldl {α : Type} {f : State × Task → α → State × Task} (h : ∀ a x, TaskLoaded a (f a x)) (l : List α) (a : State × Task) :
    TaskLoaded a (l.foldl f a) := by
  induction l generalizing a with
  | nil => exact .refl a
  | cons x l ih => exact (h a x).trans (ih _)

end TaskLoaded

theorem takeRead_loaded (a : State × Task) (r : PortRead) : TaskLoaded a (takeRead a r) := by
  unfold takeRead
  dsimp only
  split
  · exact ⟨.refl _, rfl⟩
  · refine ⟨?_, rfl⟩
    dsimp only
    split
    · exact (docketFail_loaded _ _).trans (noteStatus_loaded _ _ _ _ _)
    · exact .refl _

theorem noteTaken_loaded (s : State) (fs : List FrameRef) : Loaded s (noteTaken s fs) :=
  ⟨⟨rfl, ⟨id, fun _ => ⟨rfl, rfl, rfl⟩, (List.map_id _).symm⟩, rfl⟩, rfl⟩

theorem loadTask_loaded (s : State) (x : Task) : TaskLoaded (s, x) (loadTask s x) := by
  have htaken : TaskLoaded (s, x) (noteTaken s (framesOf s x), { x with frames := framesOf s x }) := ⟨noteTaken_loaded _ _, rfl⟩
  have hports := htaken.trans (TaskLoaded.foldl (f := fun a p => takeRead ((readPort a.1 x p).1, a.2) (readPort a.1 x p).2)
    (fun a p => TaskLoaded.trans (b := ((readPort a.1 x p).1, a.2)) ⟨readPort_loaded _ _ _, rfl⟩ (takeRead_loaded _ _)) (inPorts s x) _)
  refine ⟨?_, hports.start⟩
  unfold loadTask
  dsimp only
  split
  · exact hports.state.trans (noteStatus_loaded _ _ _ _ _)
  · exact hports.state

/-! ### Scratch and the reads of a Truss's engines -/

theorem takeArea_loaded (s : State) (x : Task) (n : Nat) : TaskLoaded (s, x) (takeArea s x n) :=
  ⟨.foldl (fun _ _ => (Loaded.of_draw _).trans (.of_storage (writeRaw_storage _ _ _ _ _))) _ s, rfl⟩

theorem takeScratch_loaded (s : State) (x : Task) : TaskLoaded (s, x) (takeScratch s x) := by
  unfold takeScratch
  split
  · dsimp only
    split
    · exact .refl _
    · exact takeArea_loaded _ _ _
  · exact .refl _

theorem poolReads_loaded (s : State) (x : Task) (p : List W32) (o : OpDesc) (m : Macro) (reads : List (Nat × List Nat)) :
    Loaded s (poolReads s x p o m reads) := by
  refine .foldl (fun u r => ?_) _ s
  split
  · split
    · exact .foldl (fun _ _ => .of_storage (cacheRead_storage _ _ _ _ _)) _ u
    · exact .refl u
  · exact .refl u

theorem countMisses_loaded {f : State → State} (h : ∀ s, Loaded s (f s)) (s : State) (u : Nat) : Loaded s (countMisses s u f) :=
  (h s).trans (.of_fadd _ _ _)

theorem walkIn_loaded (s : State) (x : Task) : TaskLoaded (s, x) (walkIn s x) := by
  unfold walkIn
  split
  · exact .refl _
  · split
    · exact .refl _
    · dsimp only
      have hreads {f : State → Nat → State} (hf : ∀ u e, Loaded u (f u e)) (a : State × Task) (fl : Nat) (l : List Nat) :
          TaskLoaded a (l.foldl f a.1, { a.2 with flags := fl }) := ⟨.foldl hf l a.1, rfl⟩
      split
      · exact (takeArea_loaded _ _ _).trans
          (hreads (fun _ _ => countMisses_loaded (fun _ => poolReads_loaded _ _ _ _ _ _) _ _) _ _ _)
      · exact hreads (fun _ _ => countMisses_loaded (fun _ => poolReads_loaded _ _ _ _ _ _) _ _) (s, x) _ _

/-! ### The prologue -/

theorem localWrite_loaded (s : State) (x : Task) (a : Nat) (bs : List Byte) : Loaded s (localWrite s x a bs) :=
  .foldl (fun _ _ => .of_storage (writeRaw_storage _ _ _ _ _)) _ s

theorem zeroRange_loaded (s : State) (a n : Nat) : Loaded s (zeroRange s a n) := .of_task rfl rfl rfl

theorem setCore_loaded (s : State) (c : Nat) (k : CoreSt) : Loaded s (setCore s c k) := .of_task rfl rfl rfl

theorem addPort_loaded (x : Task) (isOut : Bool) (base : Nat) (a : CallAcc) (p : Nat × PortRef × Nat) :
    Loaded a.s (addPort x isOut base a p).s := by
  have hdraw (c : Bool) (u : State) : Loaded u (if c then u else (draw u).1) := by
    split
    · exact .refl u
    · exact .of_draw u
  exact (hdraw _ a.s).trans (hdraw _ _)

theorem addPorts_loaded (x : Task) (isOut : Bool) (base : Nat) (ps : List (Nat × PortRef × Nat)) (a : CallAcc) :
    Loaded a.s (ps.foldl (addPort x isOut base) a).s := by
  induction ps generalizing a with
  | nil => exact .refl a.s
  | cons p ps ih => exact (addPort_loaded x isOut base a p).trans (ih _)

theorem outBuffers_loaded (s : State) (x : Task) : Loaded s (outBuffers s x).1 := by
  refine .foldlFst (fun a p => ?_) _ (s, [])
  split
  · exact .refl a.1
  · exact .of_draw a.1

theorem prologue_loaded (s : State) (x : Task) (p : PlanSt) (o : OpDesc) : ∃ u, Loaded s u ∧
    (prologue s x p o = u ∨ ∃ outs, prologue s x p o = putTask u { x with outs := outs, computed := true }) := by
  have hports (n m : Nat) (is os : List (Nat × PortRef × Nat)) : Loaded s
      (os.foldl (addPort x true 8) ((is.foldl (addPort x false 0) ⟨s, [], [], []⟩).pad n) |>.pad m).s :=
    (addPorts_loaded x false 0 is ⟨s, [], [], []⟩).trans
      (addPorts_loaded x true 8 os ((is.foldl (addPort x false 0) ⟨s, [], [], []⟩).pad n))
  have hzero (v : State) : Loaded v (x.units.foldl (fun s c => zeroRange s (storeAddr c 0) 0x40000) v) :=
    .foldl (fun _ _ => zeroRange_loaded _ _ _) _ v
  have hcores (k : State → Nat → CoreSt) (v : State) : Loaded v (x.units.foldl (fun s c => setCore s c (k s c)) v) :=
    .foldl (fun _ _ => setCore_loaded _ _ _) _ v
  unfold prologue
  dsimp only
  split
  · exact ⟨_, ((((((hports _ _ _ _).trans (hzero _)).trans (localWrite_loaded _ _ _ _)).trans (localWrite_loaded _ _ _ _)).trans
      (hcores _ _)).trans (outBuffers_loaded _ _)), .inr ⟨_, rfl⟩⟩
  · exact ⟨_, (((((hports _ _ _ _).trans (hzero _)).trans (localWrite_loaded _ _ _ _)).trans (localWrite_loaded _ _ _ _)).trans
      (hcores _ _)), .inl rfl⟩

/-! ### The start of a task -/

/-- A task in its place as it started (R354, R356). -/
def StartsAs (s : State) (x : Task) : Prop := ∃ y, taskOf s x.id = some y ∧ y.startOf = x.startOf

theorem Task.startOf_id {x y : Task} (h : y.startOf = x.startOf) : y.id = x.id := (Prod.mk.inj h).1

theorem StartsAs.loaded {s t : State} {x : Task} (h : StartsAs s x) (k : Loaded s t) : StartsAs t x := by
  obtain ⟨y, hy, hstart⟩ := h
  exact ⟨y, (k.taskOf x.id).trans hy, hstart⟩

/-- A task put in the place of one. -/
theorem startsAs_putTask {s : State} {x y : Task} (hx : (taskOf s x.id).isSome = true) (h : y.startOf = x.startOf) :
    StartsAs (putTask s y) x := by
  have hid := Task.startOf_id h
  exact ⟨y, hid ▸ taskOf_putTask (hid ▸ hx), h⟩

theorem StartsAs.isSome {s : State} {x : Task} (h : StartsAs s x) : (taskOf s x.id).isSome = true := by
  obtain ⟨y, hy, -⟩ := h
  rw [hy, Option.isSome_some]

/-- A task that has its units takes its scratch, its operands and its prologue (R327-R329). -/
def launch (s : State) (x : Task) : State :=
  let a := takeScratch s x
  let w := walkIn (putTask a.1 a.2) a.2
  let r := loadTask w.1 w.2
  let s := putTask r.1 r.2
  if x.kind == .joiner then
    match opOf s r.2 with
    | some (p, o) => prologue s r.2 p o
    | none => s
  else s

/-- What a task takes before its operands: scratch, and the reads of its Truss's engines (R329). -/
theorem launch_reads (s : State) (x : Task) (hx : (taskOf s x.id).isSome = true) :
    ∃ u y, Dispatched s u ∧ StartsAs u x ∧ y.startOf = x.startOf ∧
      launch s x = if x.kind == .joiner then
        match opOf u y with
        | some (p, o) => prologue u y p o
        | none => u
      else u := by
  have hscratch := takeScratch_loaded s x
  have hput := startsAs_putTask (s := (takeScratch s x).1) (by rwa [hscratch.state.taskOf]) hscratch.start
  have hreads := (walkIn_loaded (putTask (takeScratch s x).1 (takeScratch s x).2) (takeScratch s x).2).trans (loadTask_loaded _ _)
  have hstart := hreads.start.trans hscratch.start
  exact ⟨_, _, ((hscratch.state.step.trans (.putTask _ _)).trans hreads.state.step).trans (.putTask _ _),
    startsAs_putTask (hput.loaded hreads.state).isSome hstart, hstart, rfl⟩

theorem launch_started (s : State) (x : Task) (hx : (taskOf s x.id).isSome = true) :
    Dispatched s (launch s x) ∧ StartsAs (launch s x) x := by
  obtain ⟨u, y, hstep, hstarts, hstart, heq⟩ := launch_reads s x hx
  rw [heq]
  split
  · split
    next p o _ =>
      obtain ⟨v, hload, hend | ⟨outs, hend⟩⟩ := prologue_loaded u y p o
      · rw [hend]
        exact ⟨hstep.trans hload.step, hstarts.loaded hload⟩
      · rw [hend]
        exact ⟨(hstep.trans hload.step).trans (.putTask _ _), startsAs_putTask (hstarts.loaded hload).isSome hstart⟩
    next => exact ⟨hstep, hstarts⟩
  · exact ⟨hstep, hstarts⟩

theorem withHold_id (s : State) (x : Task) : (withHold s x).id = x.id := by
  unfold withHold
  split <;> rfl

theorem looseTag_loaded (s : State) (x : Task) : Loaded s (looseTag s x).1 := by
  unfold looseTag
  repeat' split
  · exact .refl s
  · exact .refl s
  · exact .of_draw s

/-- A state whose dispatch is counted and whose Letter has started (R103, R360). -/
def begun (s : State) (x : Task) : State := markStarted (countDispatch s x) x.ch x.seq

/-- A state whose run notes a task's operator in execution (R354). -/
def runNoted (s : State) (x : Task) : State :=
  updRun s x.ch x.seq fun r => { r with ops := r.ops.set x.op .running, starts := r.starts.set x.op (now s) }

/-- A task with what its start settles (R354, R356). -/
def startedTask (s : State) (x : Task) (us : List Nat) (stop tag : Nat) : Task :=
  { withHold s x with
    disp := some (now s), units := us, budgetEnd := stop, flags := x.flags ||| tag ||| if s.power.window then flagThermal else 0 }

theorem startedTask_startOf (s : State) (x : Task) (us : List Nat) (stop tag : Nat) :
    (startedTask s x us stop tag).startOf = (x.id, some (now s), us, stop) := by
  unfold startedTask Task.startOf
  rw [withHold_id]

/-- A task that starts, with the tag of a Loose one (R354, R356). -/
def taggedTask (s : State) (x : Task) (us : List Nat) (stop : Nat) : Task :=
  startedTask (looseTag (begun s x) x).1 x us stop (looseTag (begun s x) x).2

theorem startTask_eq (s : State) (x : Task) (us : List Nat) (stop : Nat) : startTask s x us stop =
    launch (runNoted (looseTag (begun s x) x).1 (taggedTask s x us stop)) (taggedTask s x us stop) := by
  rfl

theorem TaskFrame.filtered {a b c : State} (h : TaskFrame a b) (k : TaskFrame { b with filters := c.filters } c) :
    TaskFrame { a with filters := c.filters } c := by
  unfold TaskFrame at *
  rw [k, h]

theorem TaskFrame.filtered_trans {a b c : State} (h : TaskFrame { a with filters := b.filters } b)
    (k : TaskFrame { b with filters := c.filters } c) : TaskFrame { a with filters := c.filters } c := by
  unfold TaskFrame at *
  rw [k, h]

theorem countDispatch_frame (s : State) (x : Task) : TaskFrame s (countDispatch s x) ∧
    (countDispatch s x).sched.tasks = s.sched.tasks ∧ (countDispatch s x).sched.rr = s.sched.rr := ⟨rfl, rfl, rfl⟩

theorem begun_frame (s : State) (x : Task) : TaskFrame { s with filters := (begun s x).filters } (begun s x) ∧
    (begun s x).sched.tasks = s.sched.tasks ∧ (begun s x).sched.rr = s.sched.rr := by
  obtain ⟨hcount, htasks, hrr⟩ := countDispatch_frame s x
  obtain ⟨hframe, hsched⟩ := markStarted_frame (countDispatch s x) x.ch x.seq
  unfold begun
  rw [hsched]
  exact ⟨hcount.filtered hframe, htasks, hrr⟩

theorem begun_phase {s : State} {x : Task} {l : Letter} (h : letterOf s x.ch x.seq = some l) :
    (letterOf (begun s x) x.ch x.seq).map (·.phase) = some (if l.phase = .accepted then .started else l.phase) :=
  markStarted_phase (s := countDispatch s x) h

/-- A task that starts holds its units, its tick and its budget, and its Letter has started (R103, R354, R356). -/
structure TaskStarted (s : State) (x : Task) (us : List Nat) (stop : Nat) (t : State) : Prop where
  task : ∃ y, taskOf t x.id = some y ∧ y.startOf = (x.id, some (now s), us, stop)
  phase : ∀ l, letterOf s x.ch x.seq = some l →
    (letterOf t x.ch x.seq).map (·.phase) = some (if l.phase = .accepted then .started else l.phase)
  rr : t.sched.rr = s.sched.rr
  frame : TaskFrame { s with filters := t.filters } t

theorem startTask_started (s : State) (x : Task) (us : List Nat) (stop : Nat) (hx : (taskOf s x.id).isSome = true) :
    TaskStarted s x us stop (startTask s x us stop) := by
  obtain ⟨hframe, htasks, hrr⟩ := begun_frame s x
  have htag := looseTag_loaded (begun s x) x
  have hload : Loaded (begun s x) (runNoted (looseTag (begun s x) x).1 (taggedTask s x us stop)) :=
    htag.trans (updRun_loaded _ _ _ _)
  have hstart : (taggedTask s x us stop).startOf = (x.id, some (now s), us, stop) := by
    unfold taggedTask
    rw [startedTask_startOf, htag.step.now, hframe.now]
    rfl
  have hid : (taggedTask s x us stop).id = x.id := congrArg (·.1) hstart
  obtain ⟨hlaunch, y, hy, hys⟩ := launch_started (runNoted (looseTag (begun s x) x).1 (taggedTask s x us stop))
    (taggedTask s x us stop) (by rwa [hid, hload.taskOf, taskOf_of_tasks htasks])
  have hall := hload.step.trans hlaunch
  rw [startTask_eq]
  exact ⟨⟨y, hid ▸ hy, hys.trans hstart⟩, fun l hl => (hall.phase _ _).trans (begun_phase hl), hall.rr.trans hrr,
    hframe.filtered_trans hall.frame⟩

end Sys2Proof.Machine
end

section
/-! SUPPORT. Dispatch of Loose tasks, Strict operators and Strict runs (10 R352-R354, R356). -/

namespace Sys2Proof.Machine

/-! ### Loose tasks -/

/-- A Loose task's round-robin pointer moves on (R354). -/
def pointerMoved (s : State) (x : Task) : State :=
  { s with sched := { s.sched with rr := mapPut 0 s.sched.rr x.level ((x.pid + 1) % 16) } }

theorem exec_looseDispatch {kind : UnitKind} {x : Task} {us : List Nat} {l : Letter} {s : State}
    (hnext : nextLoose s kind = some x) (hunits : looseUnits s x = some us) (hl : letterOf s x.ch x.seq = some l)
    (hruns : domainRuns s (domainOf kind) = true) (hup : s.boot.holdup = false) :
    exec (.looseDispatch kind) s = if pastDeadline s l then .next (missDeadline s x l)
      else match epochTest s x with
        | .newer => .next (putTask s { x with epochSel := some (arg l.l 0x30 2) })
        | .older => .next (finishLetter (dropTask s x.id) x.ch x.seq (Result.plain 0x20 0))
        | .absent => .next (finishLetter (dropTask s x.id) x.ch x.seq (Result.plain 0x14 0))
        | .read => .next (startTask (pointerMoved s x) x us
            (now (pointerMoved s x) + fget (pointerMoved s x) (Fd.sched_LOOSE_BUDGET_PT x.pid))) := by
  show execLooseDispatch kind s = _
  unfold execLooseDispatch
  simp only [hnext, hunits, hl, hruns, hup, Bool.not_true, Bool.or_false, Bool.false_eq_true, if_false]
  rfl

theorem looseDispatch_starts {kind : UnitKind} {x : Task} {us : List Nat} {l : Letter} {s : State}
    (hnext : nextLoose s kind = some x) (hx : taskOf s x.id = some x) (hunits : looseUnits s x = some us)
    (hl : letterOf s x.ch x.seq = some l) (hruns : domainRuns s (domainOf kind) = true) (hup : s.boot.holdup = false)
    (hdead : pastDeadline s l = false) (hepoch : epochTest s x = .read) : Runs (.looseDispatch kind) s
      (TaskStarted (pointerMoved s x) x us (now s + fget s (Fd.sched_LOOSE_BUDGET_PT x.pid))) := by
  refine ⟨_, exec_looseDispatch hnext hunits hl hruns hup |>.trans ?_, startTask_started (pointerMoved s x) x us _ ?_⟩
  · rw [if_neg (by rw [hdead]; exact Bool.false_ne_true), hepoch]
    rfl
  · rw [taskOf_of_tasks (s := s) (t := pointerMoved s x) rfl, hx, Option.isSome_some]

/-! ### Letters that end -/

/-- A Letter that has ended (R103). -/
def Letter.ended (tick : Nat) (r : Result) (l : Letter) : Letter := { l with phase := .finished, finishPm := tick, res := r }

theorem finishLetter_eq {s : State} {ch seq : Nat} {l : Letter} (r : Result) (hl : letterOf s ch seq = some l)
    (hphase : l.phase ≠ .finished) : ∃ p v, finishLetter s ch seq r =
      queueVersion (queueReply (updLetter s ch seq (Letter.ended (now s) r)) p) v := by
  unfold finishLetter
  rw [hl]
  simp only [beq_iff_eq, hphase, if_false]
  exact ⟨_, _, rfl⟩

theorem queueVersion_frame (s : State) (v : Version) : TaskFrame s (queueVersion s v) := by
  unfold queueVersion
  split
  · exact (commitVersion_frame s v).task
  · repeat' split
    all_goals rfl

/-- A version leaves every Letter's result (R103). -/
theorem queueVersion_status (s : State) (v : Version) (ch seq : Nat) :
    (letterOf (queueVersion s v) ch seq).map (·.res.status) = (letterOf s ch seq).map (·.res.status) := by
  unfold queueVersion
  split
  · obtain ⟨-, -, -, hletters, -⟩ := commitVersion_fields s v
    rw [letterOf_map (Letter.committed_kept v s.daybook.jno).named hletters, Option.map_map]
    refine congrArg (Option.map · _) (funext fun l => ?_)
    rw [Function.comp_apply]
    unfold Letter.committed
    split <;> rfl
  · repeat' split
    all_goals rfl

theorem QueuedFrame.sched {p : PendReply} {s t : State} (h : QueuedFrame p s t) : t.sched = s.sched := by
  rw [show t = _ from h]

/-- The end of a Letter: its result, and the scheduler as before (R103). -/
theorem finishLetter_ends {s : State} {ch seq : Nat} {l : Letter} (r : Result) (hl : letterOf s ch seq = some l)
    (hphase : l.phase ≠ .finished) :
    (letterOf (finishLetter s ch seq r) ch seq).map (·.res.status) = some r.status ∧
    TaskFrame s (finishLetter s ch seq r) ∧ (finishLetter s ch seq r).sched = s.sched := by
  obtain ⟨p, v, heq⟩ := finishLetter_eq r hl hphase
  have hqueued := queueReply_queued (updLetter s ch seq (Letter.ended (now s) r)) p
  have hupd : TaskFrame s (updLetter s ch seq (Letter.ended (now s) r)) := rfl
  have hletter := letterOf_updLetter (f := Letter.ended (now s) r) hl fun _ => ⟨rfl, rfl⟩
  rw [heq]
  refine ⟨?_, hupd.trans (hqueued.task.trans (queueVersion_frame _ _)), (queueVersion_loaded _ _).sched.trans hqueued.sched⟩
  rw [queueVersion_status]
  unfold letterOf at hletter ⊢
  rw [hqueued.letters, hletter]
  rfl

theorem taskOf_dropTask (s : State) (k : Nat) : taskOf (dropTask s k) k = none := by
  unfold taskOf dropTask
  rw [List.find?_eq_none]
  intro y hy
  simpa using (List.mem_filter.1 hy).2

theorem looseDispatch_misses {kind : UnitKind} {x : Task} {us : List Nat} {l : Letter} {s : State}
    (hnext : nextLoose s kind = some x) (hunits : looseUnits s x = some us)
    (hl : letterOf s x.ch x.seq = some l) (hruns : domainRuns s (domainOf kind) = true) (hup : s.boot.holdup = false)
    (hdead : pastDeadline s l = true) (hrun : l.run = none) (hphase : l.phase = .accepted) : Runs (.looseDispatch kind) s fun t =>
      taskOf t x.id = none ∧ (letterOf t x.ch x.seq).map (·.res.status) = some 0x21 ∧ TaskFrame s t := by
  obtain ⟨hstatus, hframe, hsched⟩ := finishLetter_ends (s := dropTask s x.id) (ch := x.ch) (seq := x.seq) (l := l)
    (Result.plain 0x21 (if l.op = 0x0A then 1 else 0)) hl (by rw [hphase]; decide)
  have hdrop : TaskFrame s (dropTask s x.id) := rfl
  refine ⟨finishLetter (dropTask s x.id) x.ch x.seq (Result.plain 0x21 (if l.op = 0x0A then 1 else 0)), ?_, ?_, hstatus,
    hdrop.trans hframe⟩
  · rw [exec_looseDispatch hnext hunits hl hruns hup, if_pos hdead]
    unfold missDeadline
    rw [hrun]
    rfl
  · rw [taskOf_of_tasks (congrArg (·.tasks) hsched), taskOf_dropTask]

/-! ### Strict operators -/

/-- A state whose joiners' modes alone may differ (R317). -/
structure ModesBut (s t : State) : Prop where
  fields : ∀ g : Fld, g.ok → (∀ j, (Fd.joiner_MODE j).apart g) → fget t g = fget s g
  rest : t = { s with regs := t.regs }

namespace ModesBut

theorem refl (s : State) : ModesBut s s := ⟨fun _ _ _ => rfl, rfl⟩

theorem trans {a b c : State} (h : ModesBut a b) (k : ModesBut b c) : ModesBut a c :=
  ⟨fun g hg ha => (k.fields g hg ha).trans (h.fields g hg ha), by rw [k.rest, h.rest]⟩

theorem fput (s : State) (j m : Nat) : ModesBut s (fput s (Fd.joiner_MODE j) m) :=
  ⟨fun _ hg ha => fget_fput_other _ _ _ _ (joiner_MODE_ok j) hg (ha j), rfl⟩

theorem foldl {α : Type} {f : State → α → State} (h : ∀ s x, ModesBut s (f s x)) (l : List α) (s : State) :
    ModesBut s (l.foldl f s) := by
  induction l generalizing s with
  | nil => exact .refl s
  | cons x l ih => exact (h s x).trans (ih _)

theorem task {s t : State} (h : ModesBut s t) : TaskFrame s t := by
  unfold TaskFrame
  rw [h.rest]

theorem sched {s t : State} (h : ModesBut s t) : t.sched = s.sched := by rw [h.rest]

/-- A field of a unit's word at offset 0x040 below the mode's bit. -/
theorem low {s t : State} (h : ModesBut s t) (p : Nat) {hi lo : Nat} (hg : lo ≤ hi) (hlow : hi < 8) :
    fget t ⟨p, 0x040, hi, lo⟩ = fget s ⟨p, 0x040, hi, lo⟩ := by
  refine h.fields _ ⟨hg, hlow.trans (by decide)⟩ fun j => ?_
  by_cases hpage : p = 0x040 + j
  · exact .inr ⟨hpage, rfl, .inl hlow⟩
  · exact Fld.apart_of_word (show (0x040 : Nat) < 0x1000 by decide) (show (0x040 : Nat) < 0x1000 by decide)
      fun hw => hpage (Prod.mk.inj hw).1

/-- A unit's place does not depend on its pair's mode. -/
theorem physUnit {s t : State} (h : ModesBut s t) (kind : UnitKind) (u : Nat) :
    Machine.physUnit t kind u = Machine.physUnit s kind u := by
  have hrole (p : Nat) : fget t ⟨p, 0x040, 1, 0⟩ = fget s ⟨p, 0x040, 1, 0⟩ := h.low p (by decide) (by decide)
  have hlogical (p : Nat) : fget t ⟨p, 0x040, 7, 4⟩ = fget s ⟨p, 0x040, 7, 4⟩ := h.low p (by decide) (by decide)
  cases kind with
  | truss => simp only [Machine.physUnit, Fd.truss_ROLE, Fd.truss_LOGICAL, hrole, hlogical]
  | scribe => simp only [Machine.physUnit, Fd.scribe_ROLE, Fd.scribe_LOGICAL, hrole, hlogical]
  | joiner => simp only [Machine.physUnit, Fd.joiner_ROLE, Fd.joiner_LOGICAL, hrole, hlogical]
  | sorter =>
    unfold Machine.physUnit
    rw [h.rest]
  | plane =>
    unfold Machine.physUnit
    rw [h.rest]
  | courier => rfl

theorem strictUnits {s t : State} (h : ModesBut s t) (x : Task) (us : List Nat) :
    Machine.strictUnits t x us = Machine.strictUnits s x us := by
  unfold Machine.strictUnits
  simp only [h.physUnit]

end ModesBut

theorem setModes_modes (s : State) (x : Task) (us : List Nat) : ModesBut s (setModes s x us) := by
  unfold setModes
  split
  · refine .foldl (fun u k => ?_) us s
    split
    · split
      · exact .fput u _ _
      · exact .refl u
    · exact .refl u
  · exact .refl s

/-- A task of a Strict operator whose units are there starts on them (R353). -/
theorem startStrict_eq {s : State} {x : Task} {us : List Nat} (stop : Nat)
    (hunits : ∀ u ∈ us, (physUnit s x.kind u).isSome = true) (hfit : modesFit (setModes s x us) x us = true) :
    startStrict s x us stop = startTask (setModes s x us) x (strictUnits s x us) stop := by
  have hmodes := setModes_modes s x us
  have hall : (us.all fun u => (physUnit (setModes s x us) x.kind u).isSome) = true :=
    List.all_eq_true.2 fun u hu => (congrArg Option.isSome (hmodes.physUnit _ _)).trans (hunits u hu)
  unfold startStrict
  simp only [hall, hfit, Bool.and_self, if_true, hmodes.strictUnits]

theorem strictOperatorStart_starts {ch : Fin 64} {seq : W32} {op : Nat} {l : Letter} {r : RunSt} {p : PlanSt} {x : Task} {s : State}
    (hl : letterOf s ch seq.toNat = some l) (hrun : l.run = some r) (hplan : planOf s l = some p) (hstrict : planStrict p.words = true)
    (hwaits : r.ops.getD op .done = .waiting) (hnow : now s = r.start + ptOffset p.words op) (hdead : pastDeadline s l = false)
    (hfind : (s.sched.tasks.find? fun y => y.ch == ch.val && y.seq == seq.toNat && y.op == op && y.disp.isNone) = some x)
    (hx : taskOf s x.id = some x) (hunits : ∀ u ∈ p.units.getD op [], (physUnit s x.kind u).isSome = true)
    (hfit : modesFit (setModes s x (p.units.getD op [])) x (p.units.getD op []) = true) :
    Runs (.strictOperatorStart ch seq op) s (TaskStarted (setModes s x (p.units.getD op [])) x (strictUnits s x (p.units.getD op []))
      (r.start + ptOffset p.words op + ptBudget p.words op)) := by
  have hmodes := setModes_modes s x (p.units.getD op [])
  refine ⟨_, ?_, startTask_started _ x _ _ (by rw [taskOf_of_tasks (congrArg (·.tasks) hmodes.sched), hx, Option.isSome_some])⟩
  show execStrictOperatorStart ch seq op s = _
  unfold execStrictOperatorStart
  simp only [hl, hrun, hplan, hstrict, hwaits, hnow, hdead, hfind, beq_self_eq_true, Bool.or_true, Bool.and_self,
    Bool.false_eq_true, if_true, if_false, startStrict_eq _ hunits hfit]

/-! ### Strict runs -/

theorem exec_strictRunStart {ch : Fin 64} {seq : W32} {l : Letter} {p : PlanSt} {s : State}
    (hl : letterOf s ch seq.toNat = some l) (hplan : planOf s l = some p) (hop : l.op = 0x04) (hstrict : planStrict p.words = true)
    (hactive : s.sched.active ≠ []) (hphase : l.phase = .accepted) (hrun : l.run = none)
    (hanchor : cyclePos s = anchorPos p.words s.sched.active) (hsettled : l.acceptPm + 250 ≤ now s) :
    exec (.strictRunStart ch seq) s = if slotBusy s l then .next (obsInc s (pidObs l.pid 9))
      else if mayStart s l then .next (startRun s l p) else .next s := by
  have hempty : s.sched.active.isEmpty = false := List.isEmpty_eq_false_iff.2 hactive
  show execStrictRunStart ch seq s = _
  unfold execStrictRunStart
  simp only [hl, hplan, hop, hstrict, hempty, hphase, hrun, hanchor, hsettled, decide_true, Bool.not_false, beq_self_eq_true,
    Option.isNone_none, Bool.and_self, if_true]

/-- A count goes up by one (R360). -/
theorem obsInc_obs (s : State) (i : Nat) :
    mapGet (0 : W32) (obsInc s i).sched.obs i = mapGet (0 : W32) s.sched.obs i + 1 := by
  unfold obsInc obsPut
  rw [mapGet_mapPut_same]
  exact BitVec.eq_of_toNat_eq (by simp)

/-! ### A run that begins -/

/-- A run that has begun at a tick, with operators that have not started (R352). -/
structure RunsFrom (ch seq tick : Nat) (l : Letter) (r : RunSt) (s : State) : Prop where
  letter : letterOf s ch seq = some l
  run : l.run = some r
  start : r.start = tick
  nonempty : r.ops ≠ []
  pending : ∀ o ∈ r.ops, o = .idle ∨ o = .waiting

/-- Some run of the Letter has begun at the tick. -/
def RunBegan (ch seq tick : Nat) (s : State) : Prop := ∃ l r, RunsFrom ch seq tick l r s

/-- An operator that has entered (R351). -/
def RunSt.entered (k : Nat) (r : RunSt) : RunSt := { r with ops := r.ops.set k .waiting }

theorem RunBegan.of_letters {ch seq tick : Nat} {s t : State} (h : RunBegan ch seq tick s) (k : t.letters = s.letters) :
    RunBegan ch seq tick t := by
  obtain ⟨l, r, h⟩ := h
  refine ⟨l, r, ?_, h.run, h.start, h.nonempty, h.pending⟩
  have hletter := h.letter
  unfold letterOf at hletter ⊢
  rwa [k]

theorem RunBegan.entered {ch seq tick : Nat} {s : State} (h : RunBegan ch seq tick s) (k : Nat) :
    RunBegan ch seq tick (updRun s ch seq (RunSt.entered k)) := by
  obtain ⟨l, r, h⟩ := h
  refine ⟨{ l with run := some (r.entered k) }, r.entered k, ?_, rfl, h.start, ?_, fun o ho => ?_⟩
  · have hupd := letterOf_updLetter (f := fun l => { l with run := l.run.map (RunSt.entered k) }) h.letter fun _ => ⟨rfl, rfl⟩
    rw [h.run] at hupd
    exact hupd
  · exact fun hnil => h.nonempty ((List.set_eq_nil_iff _ _).1 hnil)
  · obtain ho | rfl := List.mem_or_eq_of_mem_set ho
    · exact h.pending o ho
    · exact .inr rfl

/-- Of a run, what entering its operators keeps. -/
def RunStep (ch seq tick : Nat) (s t : State) : Prop := TaskFrame s t ∧ (RunBegan ch seq tick s → RunBegan ch seq tick t)

theorem RunStep.foldl {ch seq tick : Nat} {α : Type} {f : State → α → State} (h : ∀ s x, RunStep ch seq tick s (f s x)) (l : List α)
    (s : State) : RunStep ch seq tick s (l.foldl f s) := by
  induction l generalizing s with
  | nil => exact ⟨.refl s, id⟩
  | cons x l ih =>
    obtain ⟨hframe, hrun⟩ := h s x
    obtain ⟨kframe, krun⟩ := ih (f s x)
    exact ⟨hframe.trans kframe, krun ∘ hrun⟩

theorem enterReady_step (s : State) (ch seq tick : Nat) : RunStep ch seq tick s (enterReady s ch seq) := by
  unfold enterReady
  split
  · exact ⟨.refl s, id⟩
  · split
    · refine RunStep.foldl (fun u k => ?_) _ s
      split
      · split
        · exact ⟨rfl, fun h => (h.entered k).of_letters rfl⟩
        · exact ⟨.refl u, id⟩
      · exact ⟨.refl u, id⟩
    · exact ⟨.refl s, id⟩

theorem RunsFrom.not_over {ch seq tick : Nat} {l : Letter} {r : RunSt} {s : State} (h : RunsFrom ch seq tick l r s) :
    (r.ops.all fun o => o == .done || o == .skipped) = false := by
  obtain ⟨o, ho⟩ := List.exists_mem_of_ne_nil _ h.nonempty
  refine List.all_eq_false.2 ⟨o, ho, ?_⟩
  obtain rfl | rfl := h.pending o ho <;> decide

/-- A run that has begun and is within its Letter's deadline enters its operators and goes on (R351, R352). -/
theorem advanceRun_step {ch seq tick : Nat} {l : Letter} {r : RunSt} {s : State} (h : RunsFrom ch seq tick l r s)
    (hstop : r.stop = false) (hdead : pastDeadline s l = false) :
    TaskFrame s (advanceRun s ch seq) ∧ RunBegan ch seq tick (advanceRun s ch seq) := by
  obtain ⟨hframe, hbegan⟩ := enterReady_step s ch seq tick
  obtain ⟨l', r', hready⟩ := hbegan ⟨l, r, h⟩
  unfold advanceRun
  rw [h.letter]
  dsimp only
  rw [h.run]
  cases planOf s l with
  | none => exact ⟨.refl s, l, r, h⟩
  | some p =>
    simp only [hstop, hdead, Bool.and_false, Bool.false_eq_true, if_false, hready.letter, hready.run, hready.not_over]
    exact ⟨hframe, l', r', hready⟩

/-- The run of a Letter as it begins, with the flow slot that it takes (R352). -/
def newRun (s : State) (p : PlanSt) (own : Option Nat) : RunSt :=
  ⟨now s, List.replicate (operatorCount p.words) .idle, List.replicate (operatorCount p.words) 0, 0, false, false, own⟩

/-- A state whose flow slot is taken and whose Plan's inner tensors are empty (R352). -/
def runPrepared (s : State) (l : Letter) (own : Option Nat) : State :=
  updPlan (match own with
    | some i => { s with safety := { s.safety with flow := s.safety.flow.set i (some (slotArg l)) } }
    | none => s) (slotArg l) fun p => { p with inner := [] }

theorem runPrepared_frame (s : State) (l : Letter) (own : Option Nat) :
    TaskFrame s (runPrepared s l own) ∧ (runPrepared s l own).letters = s.letters := by
  unfold runPrepared
  split <;> exact ⟨rfl, rfl⟩

/-- The flow slot that a run takes (R352). -/
def runFlow (s : State) (p : PlanSt) : Option Nat := if planSafety p.words && !planStrict p.words then freeFlowSlot s else none

/-- A state with the Letter's run in it. -/
def runPut (s : State) (l : Letter) (r : RunSt) : State := updLetter s l.ch l.l.seq.toNat fun l => { l with run := some r }

theorem beginRun_eq {s : State} {l : Letter} {p : PlanSt} (hcrc : containerCrc p.words = p.crc) : beginRun s l p =
    advanceRun (runPut (runPrepared s l (runFlow s p)) l (newRun (runPrepared s l (runFlow s p)) p (runFlow s p)))
      l.ch l.l.seq.toNat := by
  unfold beginRun
  rw [if_neg (by rw [hcrc, bne_self_eq_false]; exact Bool.false_ne_true)]
  rfl

theorem newRun_from {s : State} {ch seq : Nat} {l : Letter} {p : PlanSt} (own : Option Nat) (hl : letterOf s ch seq = some l)
    (hcount : 0 < operatorCount p.words) :
    RunsFrom ch seq (now s) { l with run := some (newRun s p own) } (newRun s p own) (runPut s l (newRun s p own)) where
  letter := by
    obtain ⟨rfl, rfl⟩ := letterOf_named hl
    exact letterOf_updLetter (f := fun l => { l with run := some (newRun s p own) }) hl fun _ => ⟨rfl, rfl⟩
  run := rfl
  start := rfl
  nonempty h := Nat.ne_of_gt hcount (List.replicate_eq_nil_iff _ |>.1 h)
  pending _ ho := .inl (List.eq_of_mem_replicate ho)

theorem strictRunStart_begins {ch : Fin 64} {seq : W32} {l : Letter} {p : PlanSt} {s : State}
    (hl : letterOf s ch seq.toNat = some l) (hplan : planOf s l = some p) (hop : l.op = 0x04) (hstrict : planStrict p.words = true)
    (hactive : s.sched.active ≠ []) (hphase : l.phase = .accepted) (hrun : l.run = none)
    (hanchor : cyclePos s = anchorPos p.words s.sched.active) (hsettled : l.acceptPm + 250 ≤ now s) (hbusy : slotBusy s l = false)
    (hmay : mayStart s l = true) (hlinks : linkBlocks s l.pid p.words = false) (hcrc : containerCrc p.words = p.crc)
    (hcount : 0 < operatorCount p.words) (hdead : pastDeadline s l = false) :
    Runs (.strictRunStart ch seq) s fun t => RunBegan ch seq.toNat (now s) t ∧ TaskFrame s t := by
  obtain ⟨hframe, hletters⟩ := runPrepared_frame s l (runFlow s p)
  obtain ⟨hch, hseq⟩ := letterOf_named hl
  have hl' : letterOf (runPrepared s l (runFlow s p)) ch seq.toNat = some l := by
    unfold letterOf at hl ⊢
    rwa [hletters]
  have hfrom := newRun_from (p := p) (runFlow s p) hl' hcount
  have hput : TaskFrame (runPrepared s l (runFlow s p))
      (runPut (runPrepared s l (runFlow s p)) l (newRun (runPrepared s l (runFlow s p)) p (runFlow s p))) := rfl
  obtain ⟨hadvance, hbegan⟩ := advanceRun_step hfrom rfl (by
    unfold pastDeadline at hdead ⊢
    rwa [(hframe.trans hput).now])
  refine ⟨beginRun s l p, ?_, ?_⟩
  · rw [exec_strictRunStart hl hplan hop hstrict hactive hphase hrun hanchor hsettled]
    simp only [hbusy, hmay, startRun, hlinks, Bool.false_eq_true, if_true, if_false]
  · rw [beginRun_eq hcrc, hch, hseq]
    rw [hframe.now] at hbegan
    exact ⟨hbegan, (hframe.trans hput).trans hadvance⟩

/-- Settles O39: a task that starts passes through its reads and its prologue, which leave the Letters' phases and what its start settled;
a Strict operator's modes leave its units where they are; a run that begins has an operator that is not over, so it does not end. -/
theorem tasksStartOnTheUnitsTheyAreGiven : Obligations.TasksStartOnTheUnitsTheyAreGiven := by
  unfold Obligations.TasksStartOnTheUnitsTheyAreGiven
  refine ⟨fun kind x us l s hnext hx hunits hl hruns hup hdead hepoch => ?_,
    fun kind x us l s hnext hunits hl hruns hup hdead hrun hphase _ => looseDispatch_misses hnext hunits hl hruns hup hdead hrun hphase,
    fun ch seq op l r p x s hl hrun hplan hstrict hwaits hnow hdead hfind hx hunits hfit => ?_,
    fun ch seq l p s hl hplan hop hstrict hactive hphase hrun hanchor hsettled hbusy => ?_,
    fun ch seq l p s hl hplan hop hstrict hactive hphase hrun hanchor hsettled hbusy hmay hlinks hcrc hcount hdead => ?_⟩
  · obtain ⟨t, hstep, ⟨y, hy, hstart⟩, hphase, hrr, hframe⟩ := looseDispatch_starts hnext hx hunits hl hruns hup hdead hepoch
    obtain ⟨-, hdisp, hus, hstop⟩ := Task.startOf_iff.1 hstart
    refine ⟨t, hstep, ?_, ?_, ?_, hphase l hl, ?_, ?_⟩
    · rw [hy, Option.map_some, hdisp]
      rfl
    · rw [hy, Option.map_some, hus]
    · rw [hy, Option.map_some, hstop]
    · rw [hrr]
      exact mapGet_mapPut_same _ _ _ _
    · exact TaskFrame.filtered (b := pointerMoved s x) rfl hframe
  · obtain ⟨t, hstep, ⟨y, hy, hstart⟩, -, -, hframe⟩ :=
      strictOperatorStart_starts hl hrun hplan hstrict hwaits hnow hdead hfind hx hunits hfit
    obtain ⟨-, hdisp, hus, hstop⟩ := Task.startOf_iff.1 hstart
    have hmodes := (setModes_modes s x (p.units.getD op [])).task
    refine ⟨t, hstep, ?_, ?_, ?_, hmodes.filtered hframe⟩
    · rw [hy, Option.map_some, hdisp, hmodes.now]
    · rw [hy, Option.map_some, hus]
    · rw [hy, Option.map_some, hstop]
  · refine ⟨obsInc s (pidObs l.pid 9), ?_, obsInc_obs s _, rfl⟩
    rw [exec_strictRunStart hl hplan hop hstrict hactive hphase hrun hanchor hsettled, if_pos hbusy]
  · obtain ⟨t, hstep, ⟨l', r', hruns⟩, hframe⟩ := strictRunStart_begins hl hplan hop hstrict hactive hphase hrun hanchor hsettled hbusy
      hmay hlinks hcrc hcount hdead
    refine ⟨t, hstep, ?_, hframe⟩
    rw [hruns.letter, Option.bind_some, hruns.run, Option.map_some, hruns.start]

end Sys2Proof.Machine
end

section
/-! SUPPORT. Register accesses that pass the firewall (19 R735-R747), and what the set of an EVENT bit leaves of a page's own registers. -/

namespace Sys2Proof.Machine

/-! ### Events and faults -/

/-- The set of an EVENT bit leaves every block register alone (R727). -/
theorem fget_setEvent (s : State) (p b : Nat) {g : Fld} (hl : 0x040 ≤ g.off) (hu : g.off < 0x1000) :
    fget (setEvent s p b) g = fget s g := by
  refine ((WordsBut.refl (eventWords p) s).setEvent p b fun _ h => h).fget g hu fun h => ?_
  simp only [eventWords, List.mem_cons, Prod.mk.injEq, List.not_mem_nil, or_false] at h
  omega

theorem onBus_raise (s : State) (cls source sclass pid detail : Nat) : OnBus (raise s cls source sclass pid detail) cls source :=
  ⟨_, List.mem_append_right _ List.mem_cons_self, rfl, rfl⟩

/-! ### Accesses that pass -/

/-- What lets an access reach a register (R268, R743). -/
theorem writeReaches_iff {s : State} {q : Requester} {page off : Nat} : writeReaches s q page off = true ↔
    ∃ p, pidOf s q = some p ∧ regPermitted s p page off = true ∧ pagePresent page = true := by
  unfold writeReaches
  cases pidOf s q <;> simp

theorem regReadThen_of_reaches {s : State} {q : Requester} {page off : Nat} (h : writeReaches s q page off = true) (n : Nat)
    (k : State → State) : regReadThen s q page off n k = k s := by
  obtain ⟨p, hp, hperm, -⟩ := writeReaches_iff.1 h
  simp [regReadThen, hp, hperm]

theorem regWrite_of_reaches {s : State} {q : Requester} {page off : Nat} (h : writeReaches s q page off = true) (deny : DenyRule)
    (v : W32) (be : BitVec 4) : regWrite deny s q page off v be = writeWord deny s q page off v be := by
  obtain ⟨p, hp, hperm, hpage⟩ := writeReaches_iff.1 h
  simp [regWrite, hp, hperm, hpage]

/-! ### A word of one control field and status fields -/

/-- A write leaves status fields alone and may count (R742). -/
theorem foldl_writeField_status {deny : DenyRule} {page off cur new mask : Nat} {rows : List (RegRow × Nat × Nat)}
    (h : ∀ r ∈ rows, r.1.kind = .status) (a : WriteAcc) : ∃ c, (rows = [] → c = a.counted) ∧
      rows.foldl (writeField deny page off cur new mask) a = { a with counted := c } := by
  induction rows generalizing a with
  | nil => exact ⟨a.counted, fun _ => rfl, rfl⟩
  | cons r rows ih =>
    have hfirst : ∃ c, writeField deny page off cur new mask a r = { a with counted := c } := by
      have hkind := h r List.mem_cons_self
      unfold writeField
      dsimp only
      rw [hkind]
      split
      · exact ⟨a.counted, rfl⟩
      · exact ⟨_, rfl⟩
    obtain ⟨c, hc⟩ := hfirst
    obtain ⟨d, -, hd⟩ := ih (fun r hr => h r (List.mem_cons_of_mem _ hr)) { a with counted := c }
    exact ⟨d, fun h => absurd h (List.cons_ne_nil _ _), by rw [List.foldl_cons, hc, hd]⟩

/-- A write of a control field that no lock, no reserved value and no rule refuses (R735). -/
theorem writeField_control {deny : DenyRule} {page off cur new mask : Nat} {a : WriteAcc} {r : RegRow × Nat × Nat}
    (hkind : r.1.kind = .control) (hhit : bits mask r.1.hi r.1.lo ≠ 0) (hlock : fget a.s (Fd.hdr_LOCK page) = 0)
    (hany : r.1.allowed = .any) (hdeny : ∀ v, deny r.1 r.2.2 v = false) : writeField deny page off cur new mask a r =
      { a with s := unflip (fput a.s (rowFld page off r) (bits new r.1.hi r.1.lo)) page off (mask &&& fieldMask r.1) } := by
  simp [writeField, hkind, hhit, hlock, hany, hdeny, Allowed.ok, fput]

/-- The word that a write leaves in a register whose bits outside the enabled bytes stay (R724). -/
def mergedWord (cur : Nat) (v : W32) (be : BitVec 4) : Nat := (cur &&& (0xFFFFFFFF ^^^ beMask be)) ||| (v.toNat &&& beMask be)

/-- A write of a block register is the writes of its fields, and counts when one of them does (R742). -/
theorem writeWord_of_fields {deny : DenyRule} {s : State} {q : Requester} {page off : Nat} {v : W32} {be : BitVec 4} {a : WriteAcc}
    (hoff : 0x040 ≤ off) (hrows : rowsAt page off ≠ [])
    (ha : (rowsAt page off).foldl (writeField deny page off (regRead s q page off) (mergedWord (regRead s q page off) v be) (beMask be))
      ⟨s, false, (v.toNat &&& beMask be &&& reservedMask (rowsAt page off)) != 0⟩ = a) (hbad : a.bad = false) :
    writeWord deny s q page off v be = if a.counted then countRsvd a.s page off page else a.s := by
  have h10 : off ≠ 0x010 := by omega
  have h14 : off ≠ 0x014 := by omega
  have h18 : off ≠ 0x018 := by omega
  subst ha
  unfold mergedWord at *
  simp [writeWord, hrows, h10, h14, h18, hbad]

/-- A write of a word whose first field is a control field and whose others are status fields stores the control field, and counts at
most (R735, R742). -/
theorem writeWord_control {s : State} {q : Requester} {page off : Nat} {r : RegRow × Nat × Nat} {rest : List (RegRow × Nat × Nat)}
    (v : W32) (be : BitVec 4) (hrows : rowsAt page off = r :: rest) (hkind : r.1.kind = .control)
    (hrest : ∀ x ∈ rest, x.1.kind = .status) (hhit : bits (beMask be) r.1.hi r.1.lo ≠ 0)
    (hlock : fget s (Fd.hdr_LOCK page) = 0) (hany : r.1.allowed = .any) (hoff : 0x040 ≤ off) :
    ∃ u c, u = unflip (fput s (rowFld page off r) (bits (mergedWord (regRead s q page off) v be) r.1.hi r.1.lo)) page off
        (beMask be &&& fieldMask r.1) ∧
      (rest = [] → c = ((v.toNat &&& beMask be &&& reservedMask [r]) != 0)) ∧
      writeWord denyNone s q page off v be = if c then countRsvd u page off page else u := by
  obtain ⟨c, hc, hfold⟩ := foldl_writeField_status (deny := denyNone) (page := page) (off := off) (cur := regRead s q page off)
    (new := mergedWord (regRead s q page off) v be) (mask := beMask be) hrest
    { s := unflip (fput s (rowFld page off r) (bits (mergedWord (regRead s q page off) v be) r.1.hi r.1.lo)) page off
        (beMask be &&& fieldMask r.1)
      bad := false, counted := (v.toNat &&& beMask be &&& reservedMask (r :: rest)) != 0 }
  refine ⟨_, c, rfl, fun h => by rw [hc h, h], ?_⟩
  refine writeWord_of_fields (a := ⟨_, false, c⟩) hoff (hrows ▸ List.cons_ne_nil _ _) ?_ rfl
  rw [hrows, List.foldl_cons, writeField_control hkind hhit hlock hany fun _ => rfl]
  exact hfold

end Sys2Proof.Machine
end

section
/-! SUPPORT. What counts PM_CLK edges (04 R146, R174; 10 R360; 17 R663; 18 R696) leaves alone when nothing waits for an edge. -/

namespace Sys2Proof.Machine

/-! ### Frames of an edge -/

theorem EdgeFrame.trans {ws : List (Nat × Nat)} {a b c : State} (h : EdgeFrame ws a b) (k : EdgeFrame ws b c) : EdgeFrame ws a c := by
  obtain ⟨hwords, hsched, hrest⟩ := h
  obtain ⟨kwords, ksched, krest⟩ := k
  exact ⟨hwords.trans kwords, by rw [ksched, hsched], by rw [krest, hrest]⟩

theorem EdgeFrame.mono {ws vs : List (Nat × Nat)} {a b : State} (h : EdgeFrame ws a b) (k : ws ⊆ vs) : EdgeFrame vs a b :=
  ⟨h.1.mono (List.cons_subset_cons _ k), h.2⟩

/-- What counts edges leaves time alone. -/
structure EdgeCounted (s t : State) : Prop where
  frame : EdgeFrame [] s t
  time : t.time = s.time

theorem EdgeCounted.trans {a b c : State} (h : EdgeCounted a b) (k : EdgeCounted b c) : EdgeCounted a c :=
  ⟨h.frame.trans k.frame, k.time.trans h.time⟩

/-- Operations that touch no register and of the schedule the load alone. -/
theorem EdgeCounted.of_state {s t : State} (hregs : t.regs = s.regs) (htime : t.time = s.time)
    (hsched : t.sched = { s.sched with load := t.sched.load })
    (h : t = { s with regs := t.regs, time := t.time, power := t.power, sched := t.sched, boot := t.boot, ledger := t.ledger
                      cores := t.cores, outbox := t.outbox }) : EdgeCounted s t :=
  ⟨⟨(WordsBut.refl _ s).of_regs hregs, hsched, h⟩, htime⟩

theorem EdgeCounted.refl (s : State) : EdgeCounted s s := .of_state rfl rfl rfl rfl

theorem EdgeCounted.foldl {α : Type} {f : State → α → State} (h : ∀ s x, EdgeCounted s (f s x)) (l : List α) (s : State) :
    EdgeCounted s (l.foldl f s) := by
  induction l generalizing s with
  | nil => exact .refl s
  | cons x l ih => exact (h s x).trans (ih _)

theorem EdgeCounted.fget {s t : State} (h : EdgeCounted s t) (g : Fld) (hu : g.off < 0x1000) (hg : g.word ≠ Fd.power_VCORE_CMD_MV.word) :
    fget t g = fget s g := h.frame.1.fget g hu fun hm => hg (List.mem_singleton.1 hm)

theorem EdgeQuiet.counted {s t : State} (h : EdgeQuiet s) (k : EdgeCounted s t) : EdgeQuiet t := by
  obtain ⟨hcommit, hbar2, hfifos⟩ := h
  refine ⟨(k.fget Fd.sched_COMMIT (by decide) (by decide)).trans hcommit, ?_, ?_⟩
  · rw [k.frame.2.2, hbar2]
  · rw [k.frame.2.2]
    exact hfifos

/-! ### What counts edges -/

theorem idleTick_counted (s : State) : EdgeCounted s (idleTick s) := .of_state rfl rfl rfl rfl

theorem countLoad_counted (s : State) : EdgeCounted s (countLoad s) :=
  .foldl (fun u x => by
    split
    · exact .of_state rfl rfl rfl rfl
    · exact .refl u) _ s

theorem ledgerAddPt_counted (s : State) (c i w k : Nat) : EdgeCounted s (ledgerAddPt s c i w k) := by
  unfold ledgerAddPt
  dsimp only
  split <;> exact .of_state rfl rfl rfl rfl

theorem countLinks_counted (s : State) : EdgeCounted s (countLinks s) :=
  .foldl (fun u n => by
    split
    · exact ledgerAddPt_counted u _ _ _ _
    · exact .refl u) _ s

theorem bootVoltage_counted (s : State) : EdgeCounted s (bootVoltage s) := by
  unfold bootVoltage
  split
  · exact ⟨⟨((WordsBut.refl _ s).fput Fd.power_VCORE_CMD_MV (stepMv s 4) (by decide) List.mem_cons_self).of_regs rfl, rfl, rfl⟩, rfl⟩
  · exact .refl s

theorem takeMei_counted (s : State) : EdgeCounted s (takeMei s) :=
  .foldl (fun u c => by
    split
    · exact .of_state rfl rfl rfl rfl
    · exact .refl u) _ s

/-! ### Nothing waits -/

theorem endValidation_of_quiet {s : State} (h : EdgeQuiet s) : endValidation s = s :=
  if_neg (by rw [h.commit]; decide)

theorem drainBar2_of_quiet {s : State} (h : EdgeQuiet s) : drainBar2 s = s := by
  unfold drainBar2
  rw [h.bar2, drainList, ← h.bar2]

theorem fifoAt_of_quiet {s : State} (h : EdgeQuiet s) (port : Nat) : fifoAt s port = [] := by
  unfold fifoAt
  rw [List.getD_eq_getElem?_getD]
  cases hport : s.fifos[port]? with
  | none => rfl
  | some l => exact h.fifos l (List.mem_of_getElem? hport)

theorem drainPorts_of_quiet {s : State} (h : EdgeQuiet s) : drainPorts s = s := by
  have hport : ∀ port, drainPort s port = s := fun port => by rw [drainPort, fifoAt_of_quiet h, List.length_nil, drainFifo]
  exact List.foldlRecOn (motive := (· = s)) _ _ rfl fun u hu port _ => hu ▸ hport port

/-- With nothing waiting an edge is only counted. -/
theorem countEdge_counted {s : State} (h : EdgeQuiet s) : EdgeCounted s (countEdge s) := by
  have hcount : EdgeCounted s (bootVoltage (countLinks (countLoad (idleTick s)))) :=
    (idleTick_counted s).trans ((countLoad_counted _).trans ((countLinks_counted _).trans (bootVoltage_counted _)))
  have hquiet := h.counted hcount
  unfold countEdge
  rw [endValidation_of_quiet hquiet, drainBar2_of_quiet hquiet, drainPorts_of_quiet hquiet]
  exact hcount.trans (takeMei_counted _)

end Sys2Proof.Machine
end

section
/-! SUPPORT. Postmark time (04 R146-R172): the edges of PM_CLK, the time shadows, and the writes of POSTMARK_ADJ. -/

namespace Sys2Proof.Machine

/-! ### The counter -/

theorem toNat_add_ofNat (c : W64) (n : Nat) : (c + BitVec.ofNat 64 n).toNat = (c.toNat + n) % 2 ^ 64 := by
  simp

theorem now_advance (s : State) (n : Nat) : now (advance s n) = (now s + n) % 2 ^ 64 := toNat_add_ofNat _ _

/-- What is left of an adjustment lies in 32 bits. -/
theorem adjLeft_range (s : State) : -(2 ^ 31 : Int) ≤ adjLeft s ∧ adjLeft s < 2 ^ 31 := by
  have hlt := fget_lt_card s Fd.postmark_POSTMARK_ADJ
  simp only [adjLeft, toSigned]
  simp only [Fld.card, Fd.postmark_POSTMARK_ADJ] at hlt
  split <;> omega

theorem toSigned_ofSigned {i : Int} (hlo : -(2 ^ 31 : Int) ≤ i) (hhi : i < 2 ^ 31) : toSigned 32 (ofSigned 32 i) = i := by
  simp only [toSigned, ofSigned, Nat.reducePow, Nat.reduceSub]
  split_ifs <;> omega

/-- POSTMARK_ADJ holds what it is given. -/
theorem adjLeft_of_fget {s : State} {i : Int} (hlo : -(2 ^ 31 : Int) ≤ i) (hhi : i < 2 ^ 31)
    (h : fget s Fd.postmark_POSTMARK_ADJ = ofSigned 32 i % 2 ^ 32) : adjLeft s = i := by
  have hmod : ofSigned 32 i % 2 ^ 32 = ofSigned 32 i := Nat.mod_eq_of_lt (by simp only [ofSigned]; omega)
  rw [adjLeft, h, hmod, toSigned_ofSigned hlo hhi]

/-! ### Edges -/

/-- The frame of an edge: what the counter's part of it changes, and what counts it. -/
theorem EdgeFrame.counted {ws : List (Nat × Nat)} {s u : State} (hwords : WordsBut ws s u)
    (hstate : u = { s with regs := u.regs, time := u.time }) {t : State} (h : EdgeCounted u t) : EdgeFrame ws s t := by
  refine EdgeFrame.trans ⟨hwords.mono fun w hw => List.mem_cons_of_mem _ hw, by rw [hstate], by rw [hstate]⟩
    (h.frame.mono (List.nil_subset _))

theorem EdgeQuiet.of_words {ws : List (Nat × Nat)} {s u : State} (h : EdgeQuiet s) (hwords : WordsBut ws s u)
    (hcommit : Fd.sched_COMMIT.word ∉ ws) (hstate : u = { s with regs := u.regs, time := u.time }) : EdgeQuiet u where
  commit := (hwords.fget Fd.sched_COMMIT (by decide) hcommit).trans h.commit
  bar2 := by rw [hstate]; exact h.bar2
  fifos := by rw [hstate]; exact h.fifos

/-- A plain edge (R146): the counter advances by one, and a delay ends (R168). -/
def plainTick (s : State) : State := { advance s 1 with time := { (advance s 1).time with delayed := false } }

theorem pmEdge_of_noAdjustment {s : State} (hrun : s.time.running = true) (hlost : s.time.clkLost = false) (hadj : adjLeft s = 0) :
    pmEdge s = plainTick s := by
  have hstep : stepDue s = false := by simp [stepDue, hadj]
  have hhold : holdDue s = false := by simp [holdDue, hadj]
  simp [pmEdge, hrun, hlost, hstep, hhold, applyPlain, hadj, plainTick, advance]

/-- What an edge at which no adjustment is left does (R146). -/
structure PlainEdge (s t : State) : Prop where
  counter : now t = (now s + 1) % 2 ^ 64
  adj : adjLeft t = 0
  time : t.time = { s.time with counter := t.time.counter, prev := s.time.counter, delayed := false }
  frame : EdgeFrame [] s t

theorem plainEdge_of_quiet {s : State} (hrun : s.time.running = true) (hlost : s.time.clkLost = false) (hadj : adjLeft s = 0)
    (hquiet : EdgeQuiet s) : PlainEdge s (countEdge (pmEdge s)) := by
  rw [pmEdge_of_noAdjustment hrun hlost hadj]
  have hwords : WordsBut [] s (plainTick s) := (WordsBut.refl _ s).of_regs rfl
  have hcount := countEdge_counted (hquiet.of_words hwords (by simp) rfl)
  refine ⟨?_, ?_, ?_, .counted hwords rfl hcount⟩
  · rw [now, hcount.time]
    exact now_advance s 1
  · rw [adjLeft, hcount.fget _ (by decide) (by decide)]
    exact hadj
  · rw [hcount.time]
    rfl

theorem exec_postmarkTick {s : State} (upsets : List Upset) (hrun : s.time.running = true) (hlost : s.time.clkLost = false) :
    exec (.postmarkTick upsets) s = .next (countEdge (pmEdge (upsets.foldl strike s))) := by
  change execPostmarkTick upsets s = _
  simp [execPostmarkTick, hrun, hlost]

/-- An upset of more bits than the code corrects marks its word (R225, R228). -/
theorem strike_hardWord {s : State} {w : Nat} (hrange : rangeOf s (w * 8) ≠ .none) (hclean : eccAt s (w * 8) = none) :
    strike s (.word w true) = eccSet s w (some .uncorr) := by
  have hfind : mapFind s.ecc w = none := by rwa [eccAt, Nat.mul_div_cancel _ (by decide)] at hclean
  cases hr : rangeOf s (w * 8) with
  | none => exact absurd hr hrange
  | _ => simp [strike, hr, struck, hfind]

theorem hardUpset_marks {s : State} {w : Nat} (hrun : s.time.running = true) (hlost : s.time.clkLost = false) (hadj : adjLeft s = 0)
    (hquiet : EdgeQuiet s) (hrange : rangeOf s (w * 8) ≠ .none) (hclean : eccAt s (w * 8) = none) :
    Runs (.postmarkTick [.word w true]) s fun t =>
      now t = (now s + 1) % 2 ^ 64 ∧ eccAt t (w * 8) = some .uncorr ∧ (∀ v, v ≠ w → eccAt t (v * 8) = eccAt s (v * 8)) ∧
      SameBytes s t ∧ EdgeFrame [] { s with ecc := t.ecc } t := by
  refine ⟨_, exec_postmarkTick _ hrun hlost, ?_⟩
  simp only [List.foldl_cons, List.foldl_nil, strike_hardWord hrange hclean]
  obtain ⟨hcounter, -, -, hframe⟩ := plainEdge_of_quiet (s := eccSet s w (some .uncorr)) hrun hlost hadj
    ⟨hquiet.commit, hquiet.bar2, hquiet.fifos⟩
  generalize countEdge (pmEdge (eccSet s w (some .uncorr))) = t at hcounter hframe
  have hecc : t.ecc = mapIns s.ecc w .uncorr := by rw [hframe.2.2]; rfl
  have hmem : t.mem = s.mem := by rw [hframe.2.2]; rfl
  have hhost : t.host = s.host := by rw [hframe.2.2]; rfl
  refine ⟨hcounter, ?_, fun v hv => ?_, fun a => ⟨?_, ?_⟩, ?_⟩
  · rw [eccAt, Nat.mul_div_cancel _ (by decide), hecc, mapFind_mapIns_same]
  · rw [eccAt, eccAt, Nat.mul_div_cancel _ (by decide), hecc, mapFind_mapIns_other _ _ hv]
  · rw [memByte, memByte, hmem]
  · rw [hostBytes, hostBytes, hhost]
  · rw [hecc]
    exact hframe

theorem applyStep_state (s : State) : applyStep s = { s with regs := (applyStep s).regs, time := (applyStep s).time } := by
  unfold applyStep
  rw [fadd_eq, fput_eq]
  rfl

/-- The edge at which a positive adjustment is applied whole (R165). -/
theorem postmarkStep_applies {s : State} (hrun : s.time.running = true) (hlost : s.time.clkLost = false)
    (hdelay : s.time.delayed = false) (hadj : 0 < adjLeft s) (hquiet : EdgeQuiet s) :
    Runs .postmarkStep s fun t =>
      (now t : Int) = (now s + adjLeft s + 1) % 2 ^ 64 ∧ adjLeft t = 0 ∧
      fget t Fd.postmark_ADJ_COUNT = (fget s Fd.postmark_ADJ_COUNT + 1) % 2 ^ 32 ∧
      t.time = { s.time with counter := t.time.counter, prev := s.time.counter } ∧
      EdgeFrame [Fd.postmark_POSTMARK_ADJ.word, Fd.postmark_ADJ_COUNT.word] s t := by
  have hexec : exec .postmarkStep s = .next (countEdge (applyStep s)) := by
    change execPostmarkStep s = _
    simp [execPostmarkStep, stepDue, hrun, hlost, hdelay, hadj]
  have hwords : WordsBut [Fd.postmark_POSTMARK_ADJ.word, Fd.postmark_ADJ_COUNT.word] s (applyStep s) :=
    ((((WordsBut.refl _ s).of_regs (c := advance s ((adjLeft s).toNat + 1)) rfl).fput Fd.postmark_POSTMARK_ADJ 0 (by decide)
      List.mem_cons_self).fadd Fd.postmark_ADJ_COUNT 1 (by decide) (List.mem_cons_of_mem _ List.mem_cons_self))
  have hcount := countEdge_counted (hquiet.of_words hwords (by decide) (applyStep_state s))
  refine ⟨_, hexec, ?_, adjLeft_of_fget (by decide) (by decide) ?_, ?_, ?_, .counted hwords (applyStep_state s) hcount⟩
  · have hnow : now (countEdge (applyStep s)) = (now s + ((adjLeft s).toNat + 1)) % 2 ^ 64 := by
      rw [now, hcount.time]
      exact now_advance s _
    omega
  · rw [hcount.fget _ (by decide) (by decide), applyStep, fget_fadd_other _ _ _ _ (by decide) (by decide) (by decide),
      fget_fput_same _ _ _ (by decide)]
    rfl
  · rw [hcount.fget _ (by decide) (by decide), applyStep, fget_fadd_same _ _ _ (by decide),
      fget_fput_other _ _ _ _ (by decide) (by decide) (by decide)]
    rfl
  · rw [hcount.time]
    rfl

/-- The counter held for a cycle of a slew, before a slew that has ended is counted (R166). -/
def slewHeld (s : State) : State :=
  { fadd (fput s Fd.postmark_POSTMARK_ADJ (ofSigned 32 (adjLeft s + 1))) Fd.postmark_SLEW_HOLD_COUNT 1 with
    time := { s.time with slewRun := 0, prev := s.time.counter } }

theorem applyHold_eq (s : State) :
    applyHold s = if adjLeft s + 1 = 0 then fadd (slewHeld s) Fd.postmark_ADJ_COUNT 1 else slewHeld s := rfl

theorem slewHeld_regs (s : State) : (slewHeld s).regs =
    (fadd (fput s Fd.postmark_POSTMARK_ADJ (ofSigned 32 (adjLeft s + 1))) Fd.postmark_SLEW_HOLD_COUNT 1).regs := rfl

theorem slewHeld_fget (s : State) (g : Fld) : fget (slewHeld s) g =
    fget (fadd (fput s Fd.postmark_POSTMARK_ADJ (ofSigned 32 (adjLeft s + 1))) Fd.postmark_SLEW_HOLD_COUNT 1) g :=
  fget_of_regs (slewHeld_regs s) g

theorem slewHeld_state (s : State) : slewHeld s = { s with regs := (slewHeld s).regs, time := (slewHeld s).time } := by
  simp [slewHeld]

/-- The words that a held cycle writes (R166). -/
abbrev slewWords : List (Nat × Nat) :=
  [Fd.postmark_POSTMARK_ADJ.word, Fd.postmark_SLEW_HOLD_COUNT.word, Fd.postmark_ADJ_COUNT.word]

theorem slewHeld_words (s : State) : WordsBut slewWords s (slewHeld s) :=
  (((WordsBut.refl _ s).fput Fd.postmark_POSTMARK_ADJ (ofSigned 32 (adjLeft s + 1)) (by decide) (by decide)).fadd
    Fd.postmark_SLEW_HOLD_COUNT 1 (by decide) (by decide)).of_regs (slewHeld_regs s)

/-- What a held cycle leaves (R166). -/
structure SlewHold (s t : State) : Prop where
  adj : fget t Fd.postmark_POSTMARK_ADJ = ofSigned 32 (adjLeft s + 1) % 2 ^ 32
  holds : fget t Fd.postmark_SLEW_HOLD_COUNT = (fget s Fd.postmark_SLEW_HOLD_COUNT + 1) % 2 ^ 32
  slews : fget t Fd.postmark_ADJ_COUNT = (fget s Fd.postmark_ADJ_COUNT + if adjLeft s = -1 then 1 else 0) % 2 ^ 32
  words : WordsBut slewWords s t
  time : t.time = { s.time with slewRun := 0, prev := s.time.counter }
  state : t = { s with regs := t.regs, time := t.time }

theorem applyHold_holds (s : State) : SlewHold s (applyHold s) := by
  have hadj : fget (slewHeld s) Fd.postmark_POSTMARK_ADJ = ofSigned 32 (adjLeft s + 1) % 2 ^ 32 := by
    rw [slewHeld_fget, fget_fadd_other _ _ _ _ (by decide) (by decide) (by decide), fget_fput_same _ _ _ (by decide)]
    rfl
  have hholds : fget (slewHeld s) Fd.postmark_SLEW_HOLD_COUNT = (fget s Fd.postmark_SLEW_HOLD_COUNT + 1) % 2 ^ 32 := by
    rw [slewHeld_fget, fget_fadd_same _ _ _ (by decide), fget_fput_other _ _ _ _ (by decide) (by decide) (by decide)]
    rfl
  have hslews : fget (slewHeld s) Fd.postmark_ADJ_COUNT = fget s Fd.postmark_ADJ_COUNT := by
    rw [slewHeld_fget, fget_fadd_other _ _ _ _ (by decide) (by decide) (by decide),
      fget_fput_other _ _ _ _ (by decide) (by decide) (by decide)]
  rw [applyHold_eq]
  by_cases hend : adjLeft s + 1 = 0
  · rw [if_pos hend]
    refine ⟨?_, ?_, ?_, (slewHeld_words s).fadd _ _ (by decide) (by decide), rfl, ?_⟩
    · rw [fget_fadd_other _ _ _ _ (by decide) (by decide) (by decide), hadj]
    · rw [fget_fadd_other _ _ _ _ (by decide) (by decide) (by decide), hholds]
    · rw [fget_fadd_same _ _ _ (by decide), hslews, if_pos (by omega)]
      rfl
    · rw [fadd_eq, slewHeld_state]
  · rw [if_neg hend]
    refine ⟨hadj, hholds, ?_, slewHeld_words s, rfl, slewHeld_state s⟩
    rw [hslews, if_neg (by omega), Nat.add_zero]
    exact (Nat.mod_eq_of_lt (fget_lt_card s Fd.postmark_ADJ_COUNT)).symm

/-- The edge at which a slew holds the counter (R166). -/
theorem postmarkSlewHold_holds {s : State} (hrun : s.time.running = true) (hlost : s.time.clkLost = false)
    (hdelay : s.time.delayed = false) (hadj : adjLeft s < 0) (hslew : s.time.slewRun = 999) (hquiet : EdgeQuiet s) :
    Runs .postmarkSlewHold s fun t =>
      now t = now s ∧ adjLeft t = adjLeft s + 1 ∧
      fget t Fd.postmark_SLEW_HOLD_COUNT = (fget s Fd.postmark_SLEW_HOLD_COUNT + 1) % 2 ^ 32 ∧
      fget t Fd.postmark_ADJ_COUNT = (fget s Fd.postmark_ADJ_COUNT + if adjLeft s = -1 then 1 else 0) % 2 ^ 32 ∧
      t.time = { s.time with slewRun := 0, prev := s.time.counter } ∧ EdgeFrame slewWords s t := by
  have hexec : exec .postmarkSlewHold s = .next (countEdge (applyHold s)) := by
    change execPostmarkSlewHold s = _
    simp [execPostmarkSlewHold, holdDue, hrun, hlost, hdelay, hadj, hslew]
  obtain ⟨hleft, hholds, hslews, hwords, htime, hstate⟩ := applyHold_holds s
  have hcount := countEdge_counted (hquiet.of_words hwords (by decide) hstate)
  obtain ⟨hlow, hhigh⟩ := adjLeft_range s
  refine ⟨_, hexec, ?_, adjLeft_of_fget (by omega) (by omega) ?_, ?_, ?_, hcount.time.trans htime, .counted hwords hstate hcount⟩
  · rw [now, hcount.time, htime]
    rfl
  · rw [hcount.fget _ (by decide) (by decide), hleft]
  · rw [hcount.fget _ (by decide) (by decide), hholds]
  · rw [hcount.fget _ (by decide) (by decide), hslews]

/-! ### The start and the loss of the counter -/

theorem postmarkCounterStart_starts {s : State} (hpower : s.boot.powerGood = true) (hhold : s.boot.holdup = false)
    (hrun : s.time.running = false) (hlost : s.time.clkLost = false) :
    Runs .postmarkCounterStart s fun t =>
      now t = 0 ∧ t.time.running = true ∧ fget t Fd.ident_BOOT_STAGE = 1 ∧ WordsBut [Fd.ident_BOOT_STAGE.word] s t ∧
      t = { s with regs := t.regs, time := { s.time with running := true, counter := 0, prev := 0 } } := by
  refine ⟨fput { s with time := { s.time with running := true, counter := 0, prev := 0 } } Fd.ident_BOOT_STAGE 1, ?_, rfl, rfl,
    fget_fput_same _ _ _ (by decide), ?_, rfl⟩
  · change execPostmarkCounterStart s = _
    simp [execPostmarkCounterStart, hpower, hhold, hrun, hlost]
  · exact ((WordsBut.refl _ s).of_regs rfl).fput Fd.ident_BOOT_STAGE 1 (by decide) List.mem_cons_self

theorem pmClkLoss_records {s : State} (haon : s.boot.aon = true) (hlost : s.time.clkLost = false) :
    Runs .pmClkLoss s fun t =>
      t = { s with
        time := { s.time with clkLost := true }
        safety := { s.safety with bus := s.safety.bus ++ [⟨0x15, 0xF, 0xF, 0, 0x003, 0, now s, 0, 0⟩] } } := by
  refine ⟨_, ?_, rfl⟩
  change execPmClkLoss s = _
  simp [execPmClkLoss, haon, hlost]
  rfl

/-! ### The time shadows -/

theorem reqNo_injective {q r : Requester} (h : reqNo q = reqNo r) : q = r := by
  cases q with
  | fn f =>
    cases r with
    | fn g => exact congrArg _ (Fin.ext h)
    | core c => simp only [reqNo] at h; omega
  | core c =>
    cases r with
    | fn g => simp only [reqNo] at h; omega
    | core d => simp only [reqNo] at h; congr 1; omega

theorem timeShadow_latchTime_same (s : State) (q : Requester) : timeShadow (latchTime s q) q = shadowNow s :=
  mapGet_mapPut_same _ _ _ _

theorem timeShadow_latchTime_other (s : State) {q r : Requester} (h : r ≠ q) : timeShadow (latchTime s q) r = timeShadow s r :=
  mapGet_mapPut_other _ _ _ _ fun e => h (reqNo_injective e)

theorem timeShadow_of_time {s t : State} (h : t.time = s.time) (q : Requester) : timeShadow t q = timeShadow s q := by
  unfold timeShadow
  rw [h]

/-- Of a number the low `n` bytes depend on its low bits alone. -/
theorem leBytes_mod (n m v : Nat) (h : n ≤ m) : leBytes n (v % 256 ^ m) = leBytes n v := by
  induction n generalizing m v with
  | zero => rfl
  | succ n ih =>
    obtain ⟨m, rfl⟩ : ∃ k, m = k + 1 := ⟨m - 1, by omega⟩
    have hmod : v % 256 ^ (m + 1) % 256 = v % 256 := Nat.mod_mod_of_dvd _ (Dvd.intro_left _ (pow_succ 256 m).symm)
    have hdiv : v % 256 ^ (m + 1) / 256 = v / 256 % 256 ^ m := by rw [pow_succ', Nat.mod_mul_right_div_self]
    rw [leBytes, leBytes, hdiv, ih m _ (by omega)]
    congr 1
    apply BitVec.eq_of_toNat_eq
    simp only [BitVec.toNat_ofNat]
    exact hmod

theorem leBytes_word (v : Nat) : leBytes 4 (v % 2 ^ 32) = leBytes 4 v := leBytes_mod 4 4 v (Nat.le_refl 4)

/-- The read of POSTMARK_LO once it has passed (R161, R724). -/
def loRead (q : Requester) (wide : Bool) (s : State) : State :=
  complete (latchTime s q) (leBytes 4 (regRead (latchTime s q) q 0x003 0x040) ++
    if wide then leBytes 4 (regRead (latchTime s q) q 0x003 0x044) else [])

theorem exec_postmarkLoRead (q : Requester) (wide : Bool) (s : State) :
    exec (.postmarkLoRead q wide) s = .next (regReadThen s q 0x003 0x040 (if wide then 2 else 1) (loRead q wide)) := rfl

theorem timeShadow_loRead (q r : Requester) (wide : Bool) (s : State) :
    timeShadow (loRead q wide s) r = timeShadow (latchTime s q) r := rfl

/-- What a POSTMARK_LO read that passes returns and latches (R161, R724). -/
theorem loRead_eq (q : Requester) (wide : Bool) (s : State) :
    loRead q wide s = complete (latchTime s q) (leBytes 4 (now s) ++ if wide then leBytes 4 (now s / 2 ^ 32) else []) := by
  have hlo : regRead (latchTime s q) q 0x003 0x040 = now s % 2 ^ 32 := rfl
  have hhi : regRead (latchTime s q) q 0x003 0x044 = now s / 2 ^ 32 % 2 ^ 32 := by
    change (timeShadow (latchTime s q) q).hi.toNat = _
    rw [timeShadow_latchTime_same]
    exact BitVec.toNat_ofNat _ _
  rw [loRead, hlo, hhi, leBytes_word, leBytes_word]

theorem postmarkLoRead_latches {q : Requester} (wide : Bool) {s : State} (h : writeReaches s q 0x003 0x040 = true) :
    Runs (.postmarkLoRead q wide) s fun t =>
      t.completion = leBytes 4 (now s) ++ (if wide then leBytes 4 (now s / 2 ^ 32) else []) ∧
      timeShadow t q = ⟨BitVec.ofNat 32 (now s / 2 ^ 32), BitVec.ofNat 32 (now s / 25000000),
        BitVec.ofNat 32 (now s % 25000000), s.time.epoch⟩ ∧
      OtherShadows q s t ∧
      t = { s with time := { s.time with shadows := t.time.shadows }, completion := t.completion } := by
  refine ⟨loRead q wide s, ?_, ?_, timeShadow_latchTime_same s q, fun _ hr => timeShadow_latchTime_other s hr, rfl⟩
  · rw [exec_postmarkLoRead, regReadThen_of_reaches h]
  · rw [loRead_eq]
    rfl

/-! ### Other pairs of registers -/

/-- The pairs of R734 but the postmark: the HI halves read as the requester's shadows. -/
theorem regRead_hiHalf (s : State) (q : Requester) {page off : Nat} (hpage : pagePresent page = true) (h : pairLo page off = true) :
    regRead s q page (off + 4) = hiShadow s q page (off + 4) := by
  have hcase : off = 0x038 ∨ page = 0x007 ∧ (off = 0x058 ∨ off = 0x060) := by simpa [pairLo] using h
  obtain rfl | ⟨rfl, rfl | rfl⟩ := hcase
  · simp [regRead, hpage]
  · rfl
  · rfl

/-- A state in which a requester has latched the HI half of a pair (R734). -/
def latchHi (s : State) (q : Requester) (page off : Nat) : State :=
  { s with time := { s.time with
      hiShadows := mapPut 0 s.time.hiShadows (reqNo q * 2 ^ 24 + regKey page (off + 4)) (BitVec.ofNat 32 (pairHiNow s page off)) } }

theorem hiShadow_latchHi (s : State) (q : Requester) (page off : Nat) :
    hiShadow (latchHi s q page off) q page (off + 4) = pairHiNow s page off % 2 ^ 32 := by
  unfold hiShadow latchHi
  rw [mapGet_mapPut_same, BitVec.toNat_ofNat]

/-- What a read of a LO half that passes returns and latches (R734). -/
theorem lastEventPmLo_latches {q : Requester} {page off : BitVec 12} (wide : Bool) {s : State}
    (hpair : pairLo page.toNat off.toNat = true) (h : writeReaches s q page.toNat off.toNat = true) :
    Runs (.lastEventPmLo q page off wide) s fun t =>
      t.completion = leBytes 4 (regRead s q page.toNat off.toNat) ++
        (if wide then leBytes 4 (pairHiNow s page.toNat off.toNat) else []) ∧
      hiShadow t q page.toNat (off.toNat + 4) = pairHiNow s page.toNat off.toNat % 2 ^ 32 ∧
      t = { s with time := { s.time with hiShadows := t.time.hiShadows }, completion := t.completion } := by
  obtain ⟨-, -, -, hpage⟩ := writeReaches_iff.1 h
  refine ⟨complete (latchHi s q page.toNat off.toNat) (leBytes 4 (regRead s q page.toNat off.toNat) ++
    if wide then leBytes 4 (pairHiNow s page.toNat off.toNat) else []), ?_, rfl, hiShadow_latchHi s q _ _, rfl⟩
  change execLastEventPmLo q page off wide s = _
  unfold execLastEventPmLo
  dsimp only
  rw [if_pos (by rw [hpage, hpair]; rfl), regReadThen_of_reaches h]
  change Host.Outcome.next (complete (latchHi s q page.toNat off.toNat) (_ ++ if wide then
    leBytes 4 (regRead (latchHi s q page.toNat off.toNat) q page.toNat (off.toNat + 4)) else [])) = _
  rw [regRead_hiHalf _ q hpage hpair, hiShadow_latchHi, leBytes_word]

/-! ### Writes of POSTMARK_ADJ -/

theorem rowsAt_postmarkAdj : rowsAt 0x003 0x054 =
    [(⟨"POSTMARK_ADJ", 0x054, 1, 0x0, 31, 0, .control, fun _ _ => 0, .any, false⟩, 0, 0)] := rfl

theorem beMask_lt (be : BitVec 4) : beMask be < 2 ^ 32 := by decide +revert

theorem beMask_ne_zero {be : BitVec 4} (h : be ≠ 0) : beMask be ≠ 0 := by decide +revert

/-- A field of a whole word. -/
theorem bits_word (v : Nat) : bits v 31 0 = v % 2 ^ 32 := by simp [bits]

theorem fget_wholeWord (s : State) (page off : Nat) : fget s ⟨page, off, 31, 0⟩ = regGet s page off :=
  (bits_word _).trans (Nat.mod_eq_of_lt (regGet_lt s page off))

theorem toNat_mergeWord32 (cur : Nat) (v : W32) (be : BitVec 4) : (mergeWord32 cur v be).toNat = bits (mergedWord cur v be) 31 0 :=
  (BitVec.toNat_ofNat _ _).trans (bits_word _).symm

/-- A write of a configuration word that stores one field and changes nothing else but the reference (R595). -/
structure Stored (f : Fld) (v : Nat) (s t : State) : Prop where
  value : fget t f = v % f.card
  words : WordsBut [f.word] s t
  state : t = { s with regs := t.regs, safety := sameSafety s t }

theorem unflip_state (s : State) (page off m : Nat) :
    unflip s page off m = { s with safety := { s.safety with flips := (unflip s page off m).safety.flips } } := rfl

theorem unflip_fput_stored {f : Fld} (v page off m : Nat) (s : State) (hf : f.ok) (hoff : f.off < 0x1000) :
    Stored f v s (unflip (fput s f v) page off m) where
  value := fget_fput_same s f v hf
  words := ((WordsBut.refl _ s).fput f v hoff List.mem_cons_self).of_regs rfl
  state := by
    rw [unflip_state, fput_eq]

/-- POSTMARK_ADJ takes the enabled bytes of what is written, and nothing counts (R735). -/
theorem regWrite_postmarkAdj {q : Requester} (v : W32) {be : BitVec 4} {s : State} (h : writeReaches s q 0x003 0x054 = true)
    (hlock : fget s (Fd.hdr_LOCK 0x003) = 0) (hbe : be ≠ 0) : Stored Fd.postmark_POSTMARK_ADJ
      (mergeWord32 (fget s Fd.postmark_POSTMARK_ADJ) v be).toNat s (regWrite denyNone s q 0x003 0x054 v be) := by
  have hhit : bits (beMask be) 31 0 ≠ 0 := by
    rw [bits_word, Nat.mod_eq_of_lt (beMask_lt be)]
    exact beMask_ne_zero hbe
  obtain ⟨u, c, rfl, hc, hwrite⟩ := writeWord_control (q := q) v be rowsAt_postmarkAdj rfl (by simp) hhit hlock rfl (by decide)
  have hcount : c = false := by
    rw [hc rfl, show reservedMask _ = 0 from rfl, Nat.and_zero]
    rfl
  rw [regWrite_of_reaches h, hwrite, hcount, if_neg Bool.false_ne_true, toNat_mergeWord32,
    show fget s Fd.postmark_POSTMARK_ADJ = regRead s q 0x003 0x054 from fget_wholeWord s _ _]
  exact unflip_fput_stored _ _ _ _ s (by decide) (by decide)

theorem setAdj_time (s : State) {v : Nat} (hv : v < 2 ^ 32) :
    (setAdj s v).time = { s.time with slewRun := 0, delayed := v != 0 && rollNext s } := by
  change { s.time with slewRun := 0, delayed := v % 2 ^ 32 != 0 && rollNext s } = _
  rw [Nat.mod_eq_of_lt hv]

theorem setAdj_state (s : State) (v : Nat) : setAdj s v = { s with regs := (setAdj s v).regs, time := (setAdj s v).time } := rfl

theorem sameSafety_setAdj (s u : State) (v : Nat) : sameSafety s (setAdj u v) = sameSafety s u := rfl

theorem setAdj_frame {s u : State} (h : u = { s with regs := u.regs, safety := sameSafety s u }) (v : Nat) :
    setAdj u v = { s with regs := (setAdj u v).regs, time := (setAdj u v).time, safety := sameSafety s (setAdj u v) } := by
  rw [sameSafety_setAdj]
  exact (setAdj_state u v).trans
    (congrArg (fun x : State => { x with regs := (setAdj u v).regs, time := (setAdj u v).time }) h)

theorem setAdj_stored (s : State) (v : Nat) : fget (setAdj s v) Fd.postmark_POSTMARK_ADJ = v % 2 ^ 32 :=
  fget_fput_same s Fd.postmark_POSTMARK_ADJ v (by decide)

theorem setAdj_words (s : State) (v : Nat) : WordsBut [Fd.postmark_POSTMARK_ADJ.word] s (setAdj s v) :=
  ((WordsBut.refl _ s).fput Fd.postmark_POSTMARK_ADJ v (by decide) List.mem_cons_self).of_regs rfl

theorem exec_postmarkAdjWrite {q : Requester} (v : W32) {be : BitVec 4} {s : State} (h : writeReaches s q 0x003 0x054 = true)
    (hlock : fget s (Fd.hdr_LOCK 0x003) = 0) (hbe : be ≠ 0) : exec (.postmarkAdjWrite q v be) s =
      .next (if fget s Fd.postmark_ALIGN_ACTIVE = 1 then fadd s Fd.postmark_ADJ_REFUSED_COUNT 1
        else setAdj (regWrite denyNone s q 0x003 0x054 v be)
          (fget (regWrite denyNone s q 0x003 0x054 v be) Fd.postmark_POSTMARK_ADJ)) := by
  have hbe' : (be != 0) = true := bne_iff_ne.2 hbe
  change execPostmarkAdjWrite q v be s = _
  unfold execPostmarkAdjWrite
  rw [if_pos (by rw [h, hlock, hbe']; rfl)]
  split <;> rfl

/-- A write of POSTMARK_ADJ replaces the adjustment (R164, R168). -/
theorem postmarkAdjWrite_replaces {q : Requester} (v : W32) {be : BitVec 4} {s : State} (h : writeReaches s q 0x003 0x054 = true)
    (hlock : fget s (Fd.hdr_LOCK 0x003) = 0) (halign : fget s Fd.postmark_ALIGN_ACTIVE = 0) (hbe : be ≠ 0) :
    Runs (.postmarkAdjWrite q v be) s fun t =>
      fget t Fd.postmark_POSTMARK_ADJ = (mergeWord32 (fget s Fd.postmark_POSTMARK_ADJ) v be).toNat ∧
      t.time = { s.time with slewRun := 0
                             delayed := fget t Fd.postmark_POSTMARK_ADJ != 0 && (now s + 1) % 25000000 == 0 } ∧
      WordsBut [Fd.postmark_POSTMARK_ADJ.word] s t ∧
      t = { s with regs := t.regs, time := t.time, safety := sameSafety s t } := by
  obtain ⟨hvalue, hwords, hstate⟩ := regWrite_postmarkAdj v h hlock hbe
  refine ⟨_, (exec_postmarkAdjWrite v h hlock hbe).trans (by rw [if_neg (by omega)]), ?_⟩
  generalize regWrite denyNone s q 0x003 0x054 v be = u at *
  generalize mergeWord32 (fget s Fd.postmark_POSTMARK_ADJ) v be = w at *
  rw [show w.toNat % Fd.postmark_POSTMARK_ADJ.card = w.toNat from Nat.mod_eq_of_lt w.isLt] at hvalue
  have htime : u.time = s.time := by rw [hstate]
  have hroll : rollNext u = ((now s + 1) % 25000000 == 0) := by
    rw [rollNext, now, htime]
    rfl
  rw [hvalue, setAdj_stored, Nat.mod_eq_of_lt w.isLt]
  exact ⟨rfl, by rw [setAdj_time u w.isLt, hroll, htime], hwords.trans (setAdj_words u _), setAdj_frame hstate _⟩

/-- During an alignment the write is refused and counted (R170). -/
theorem postmarkAdjWrite_refused {q : Requester} (v : W32) {be : BitVec 4} {s : State} (h : writeReaches s q 0x003 0x054 = true)
    (hlock : fget s (Fd.hdr_LOCK 0x003) = 0) (halign : fget s Fd.postmark_ALIGN_ACTIVE = 1) (hbe : be ≠ 0) :
    Runs (.postmarkAdjWrite q v be) s fun t =>
      fget t Fd.postmark_ADJ_REFUSED_COUNT = (fget s Fd.postmark_ADJ_REFUSED_COUNT + 1) % 2 ^ 32 ∧
      WordsBut [Fd.postmark_ADJ_REFUSED_COUNT.word] s t ∧
      t = { s with regs := t.regs } := by
  exact ⟨_, (exec_postmarkAdjWrite v h hlock hbe).trans (by rw [if_pos halign]), fget_fadd_same _ _ _ (by decide),
    (WordsBut.refl _ s).fadd _ _ (by decide) List.mem_cons_self, fadd_eq _ _ _⟩

/-- A blocked or a passing POSTMARK_LO read leaves every other requester's shadows (R163). -/
theorem blockedAccess_time (s : State) (pid : Option Nat) (sclass : Nat) (write : Bool) :
    (blockedAccess s pid sclass write).time = s.time := by
  cases pid <;> simp [blockedAccess]

theorem noteParity_time (s : State) (ks : List Nat) : (noteParity s ks).time = s.time :=
  List.foldlRecOn (motive := fun u : State => u.time = s.time) _ _ rfl fun u hu k _ => by rw [errUncorr_time, hu]

theorem blockedCompletion_time (s : State) (q : Requester) (n : Nat) : (blockedCompletion s q n).time = s.time := by
  cases q <;> rfl

/-- A read that the firewall blocks leaves time alone (R271). -/
theorem regReadThen_cases (s : State) (q : Requester) (page off n : Nat) (k : State → State) :
    regReadThen s q page off n k = k s ∨ (regReadThen s q page off n k).time = s.time := by
  unfold regReadThen
  split
  · exact .inr (by rw [blockedCompletion_time, blockedAccess_time, noteParity_time])
  · split
    · exact .inr (by rw [blockedCompletion_time, blockedAccess_time, noteParity_time])
    · exact .inl rfl

/-- Settles O6: a read that passes latches the requester's own shadows, and a blocked one latches none. -/
theorem timeShadowsBelongToTheirRequester : Obligations.TimeShadowsBelongToTheirRequester := by
  unfold Obligations.TimeShadowsBelongToTheirRequester
  intro q r wide s t hr hexec
  rw [exec_postmarkLoRead] at hexec
  obtain rfl := Host.Outcome.next.inj hexec
  obtain hpass | hblock := regReadThen_cases s q 0x003 0x040 (if wide then 2 else 1) (loRead q wide)
  · rw [hpass, timeShadow_loRead, timeShadow_latchTime_other s hr]
  · exact timeShadow_of_time hblock r

/-- Settles O5: the edges of PM_CLK, the start and the loss of the counter, and the accesses to its registers, clause by clause. -/
theorem postmarkTimeCountsLatchesAndAdjusts : Obligations.PostmarkTimeCountsLatchesAndAdjusts := by
  unfold Obligations.PostmarkTimeCountsLatchesAndAdjusts
  refine ⟨fun s hrun hlost hadj hquiet => ?_, fun w s hrun hlost hadj hquiet hrange hclean => ?_, fun s => ?_, fun s => ?_, fun s => ?_,
    fun s => ?_, fun q wide s => ?_, fun q v be s => ?_, fun q v be s => ?_, fun q page off wide s => ?_⟩
  · obtain ⟨hcounter, hleft, htime, hframe⟩ := plainEdge_of_quiet hrun hlost hadj hquiet
    exact ⟨countEdge (pmEdge s), exec_postmarkTick [] hrun hlost, hcounter, hleft, htime, hframe⟩
  · exact hardUpset_marks hrun hlost hadj hquiet hrange hclean
  · exact postmarkStep_applies
  · exact postmarkSlewHold_holds
  · exact postmarkCounterStart_starts
  · exact pmClkLoss_records
  · exact postmarkLoRead_latches wide
  · exact postmarkAdjWrite_replaces v
  · exact postmarkAdjWrite_refused v
  · exact lastEventPmLo_latches wide

end Sys2Proof.Machine
end

section
/-! SUPPORT. A LIFE record that the always-on store lists without values: the Ledger's scan (18 R693) counts into it and it stays empty. -/

namespace Sys2Proof.Machine

/-! ### Values of a Ledger record -/

theorem ledgerVals_of_ledger {s t : State} (h : t.ledger.vals = s.ledger.vals) (cls idx : Nat) : ledgerVals t cls idx = ledgerVals s cls idx := by
  rw [ledgerVals, ledgerVals, h]

theorem ledgerVals_ledgerSet_same (s : State) (cls idx : Nat) (v : List Nat) : ledgerVals (ledgerSet s cls idx v) cls idx = v :=
  mapGet_mapPut_same _ _ _ _

theorem ledgerVals_ledgerSet_other (s : State) {cls idx c i : Nat} (v : List Nat) (h : ledgerKey c i ≠ ledgerKey cls idx) :
    ledgerVals (ledgerSet s cls idx v) c i = ledgerVals s c i :=
  mapGet_mapPut_other _ _ _ _ h

theorem ledgerQueue_vals (s : State) (cls idx c i : Nat) : ledgerVals (ledgerQueue s cls idx) c i = ledgerVals s c i := by
  unfold ledgerQueue
  dsimp only
  split
  · rfl
  · split <;> rfl

/-- The always-on store lists the first LIFE record without a value. -/
def LifeEmpty (s : State) : Prop := ledgerVals s 0x01 0 = []

theorem LifeEmpty.of_vals {s t : State} (h : LifeEmpty s) (hvals : t.ledger.vals = s.ledger.vals) : LifeEmpty t :=
  (ledgerVals_of_ledger hvals _ _).trans h

/-- A write of the record that adds to no value, or of another record. -/
theorem ledgerSet_lifeEmpty {s : State} (h : LifeEmpty s) (cls idx : Nat) (v : List Nat)
    (hv : ledgerKey cls idx = ledgerKey 0x01 0 → v = []) : LifeEmpty (ledgerSet s cls idx v) := by
  by_cases hkey : ledgerKey cls idx = ledgerKey 0x01 0
  · change mapGet _ _ _ = _
    rw [← hkey]
    exact (ledgerVals_ledgerSet_same s cls idx v).trans (hv hkey)
  · exact (ledgerVals_ledgerSet_other s v (Ne.symm hkey)).trans h

theorem lifeAdd_lifeEmpty {s : State} (h : LifeEmpty s) (word : Nat) : LifeEmpty (lifeAdd s 0 word) := by
  refine ledgerSet_lifeEmpty h _ _ _ fun _ => ?_
  rw [show ledgerVals s 0x01 0 = [] from h, List.set_nil]

/-- The scan adds what it found to the values that the record has: none (R693). -/
theorem takeRecord_lifeEmpty {s : State} (h : LifeEmpty s) (cls idx : Nat) (hring : ledgerKey cls idx = ledgerKey 0x01 0 → ledgerRing cls = false) :
    LifeEmpty (takeRecord s cls idx) := by
  unfold takeRecord
  split
  · refine LifeEmpty.of_vals (ledgerSet_lifeEmpty h cls idx _ fun hkey => ?_) rfl
    have hvals : ledgerVals s cls idx = [] := by rw [ledgerVals, hkey]; exact h
    rw [hring hkey, if_neg Bool.false_ne_true, hvals, List.zip_nil_right, List.map_nil]
  · split
    next hr => exact ledgerSet_lifeEmpty h cls idx _ fun hkey => absurd hr (by rw [hring hkey]; exact Bool.false_ne_true)
    next => exact h

theorem ledgerKey_life_of_mem : ∀ k ∈ ledgerKeys, ledgerKey k.1 k.2 = ledgerKey 0x01 0 → ledgerRing k.1 = false := by
  decide +kernel

theorem renewSpareMap_lifeEmpty {s : State} (h : LifeEmpty s) {k : Nat} (hk : k < 4) : LifeEmpty (renewSpareMap s k) := by
  unfold renewSpareMap writeSpareMap
  dsimp only
  rw [if_pos hk]
  split
  · exact h
  · exact (ledgerQueue_vals _ _ _ _ _).trans (ledgerSet_lifeEmpty h _ _ _ fun hkey => by simp only [ledgerKey] at hkey; omega)

theorem takeRecords_lifeEmpty {s : State} (h : LifeEmpty s) : LifeEmpty (ledgerKeys.foldl (fun t k => takeRecord t k.1 k.2) s) :=
  List.foldlRecOn (motive := LifeEmpty) _ _ h fun _ hu k hk => takeRecord_lifeEmpty hu _ _ (ledgerKey_life_of_mem k hk)

theorem renewSpareMaps_lifeEmpty {s : State} (h : LifeEmpty s) : LifeEmpty ((List.range 4).foldl renewSpareMap s) :=
  List.foldlRecOn (motive := LifeEmpty) _ _ h fun _ hu _ hk => renewSpareMap_lifeEmpty hu (List.mem_range.1 hk)

theorem fputs_ledger (s : State) (l : List (Fld × Nat)) : (fputs s l).ledger = s.ledger :=
  List.foldlRecOn (motive := fun u : State => u.ledger = s.ledger) _ _ rfl fun _ hu _ _ => hu

theorem scansDone_ledger (s : State) : (scansDone s).ledger = s.ledger := by
  unfold scansDone
  split <;> rfl

theorem scansDone_lifeEmpty {s : State} (h : LifeEmpty s) (l : List (Fld × Nat)) : LifeEmpty (scansDone (fputs s l)) :=
  h.of_vals (by rw [scansDone_ledger, fputs_ledger])

/-- What the scan counts on the state that has taken the records: the power-on, and how the last power epoch ended (R698). -/
theorem powerOnCounted_lifeEmpty {s : State} (h : LifeEmpty s) (lno : Nat) (rings : List (Nat × Nat)) (word : Nat) :
    LifeEmpty (lifeAdd (lifeAdd { s with
      boot := { s.boot with ledgerScanned := true }
      ledger := { s.ledger with
        lno := lno
        queue := [], waiting := [], rings := rings
        baseMs := (ledgerVals s 0x01 0).getD 3 0 } } 0 0) 0 word) :=
  lifeAdd_lifeEmpty (lifeAdd_lifeEmpty (h.of_vals rfl) _) _

/-- After the scan the record is as empty as it was. -/
theorem ledgerScan_lifeEmpty {s : State} (h : LifeEmpty s) (hrun : s.boot.powerGood && !s.boot.ledgerScanned && !s.boot.holdup)
    (hqueue : s.ledger.queue = []) (hwaiting : s.ledger.waiting = []) (hbad : badWords s 0x30200000 0x30300000 = []) :
    ∃ t, exec .ledgerScan s = .next t ∧ LifeEmpty t := by
  change ∃ t, execLedgerScan s = .next t ∧ _
  unfold execLedgerScan
  rw [if_pos hrun, hqueue, hwaiting, hbad]
  simp only [List.append_nil, List.foldl_nil]
  refine ⟨_, rfl, scansDone_lifeEmpty (renewSpareMaps_lifeEmpty ?_) _⟩
  exact powerOnCounted_lifeEmpty (takeRecords_lifeEmpty h) _ _ _

/-- The reset state at power good whose always-on store lists the first LIFE record without its five values. -/
def emptyLife : State :=
  { State.reset with boot := { State.reset.boot with powerGood := true }
                     ledger := { State.reset.ledger with vals := [(ledgerKey 0x01 0, [])] } }

/-- Refutes O16: at `emptyLife` the scan has nothing in the LIFE record to add the power-on to, so V0 does not count it (R693, R696). -/
theorem not_startUpTakesAnEpochAndScansTheMram : ¬ Obligations.StartUpTakesAnEpochAndScansTheMram := by
  unfold Obligations.StartUpTakesAnEpochAndScansTheMram
  rintro ⟨-, -, -, -, hscan, -⟩
  obtain ⟨t, hexec, -, -, -, hlife, -, -⟩ := hscan emptyLife rfl rfl rfl rfl
  obtain ⟨u, hexec', hempty⟩ := ledgerScan_lifeEmpty (s := emptyLife) rfl rfl rfl rfl rfl
  obtain rfl := Host.Outcome.next.inj (hexec.symm.trans hexec')
  rw [show ledgerVals t 0x01 0 = [] from hempty, show ledgerVals emptyLife 0x01 0 = [] from rfl, List.getD_nil] at hlife
  omega

end Sys2Proof.Machine
end

section
/-! SUPPORT. The step machine (04 R178-R182): what a voltage command, a relock and the aim at a step change and leave alone. -/

namespace Sys2Proof.Machine

/-! ### Frames of the step machine -/

/-- What the step machine leaves alone: the words but those listed, the time of the last relock, and everything but its own state, the
refresh account and the messages. -/
structure StepFrame (ws : List (Nat × Nat)) (s t : State) : Prop where
  words : WordsBut ws s t
  relockEnd : t.power.relockEnd = s.power.relockEnd
  state : t = { s with regs := t.regs, power := t.power, refresh := t.refresh, outbox := t.outbox }

namespace StepFrame

variable {ws : List (Nat × Nat)} {s t u : State}

theorem refl (ws : List (Nat × Nat)) (s : State) : StepFrame ws s s := ⟨WordsBut.refl ws s, rfl, rfl⟩

theorem trans (h : StepFrame ws s t) (k : StepFrame ws t u) : StepFrame ws s u :=
  ⟨h.words.trans k.words, k.relockEnd.trans h.relockEnd, by rw [k.state, h.state]⟩

theorem mono {vs : List (Nat × Nat)} (h : StepFrame ws s t) (k : ∀ w ∈ ws, w ∈ vs) : StepFrame vs s t :=
  ⟨h.words.mono k, h.relockEnd, h.state⟩

theorem fput (h : StepFrame ws s t) (f : Fld) (v : Nat) (hoff : f.off < 0x1000) (hmem : f.word ∈ ws) : StepFrame ws s (fput t f v) :=
  h.trans ⟨(WordsBut.refl ws t).fput f v hoff hmem, rfl, fput_eq t f v⟩

theorem power (h : StepFrame ws s t) (p : PowerSt) (hp : p.relockEnd = t.power.relockEnd) : StepFrame ws s { t with power := p } :=
  h.trans ⟨(WordsBut.refl ws t).of_regs rfl, hp, rfl⟩

theorem settleFrom (h : StepFrame ws s t) (ph : StepPhase) : StepFrame ws s (settleFrom t ph) := h.power _ rfl

theorem commandMv (h : StepFrame ws s t) (mv : Nat) (hmem : Fd.power_VCORE_CMD_MV.word ∈ ws) : StepFrame ws s (commandMv t mv) :=
  (h.fput Fd.power_VCORE_CMD_MV mv (by decide) hmem).trans ⟨(WordsBut.refl ws _).of_regs rfl, rfl, rfl⟩

theorem fget (h : StepFrame ws s t) (g : Fld) (hoff : g.off < 0x1000) (hmem : g.word ∉ ws) : fget t g = fget s g :=
  h.words.fget g hoff hmem

theorem now (h : StepFrame ws s t) : now t = now s := by rw [h.state]; rfl

theorem stepMv (h : StepFrame ws s t) (k : Nat) : stepMv t k = stepMv s k := by rw [h.state]; rfl

end StepFrame

/-- Strict partitions are those of the register words (R275). -/
theorem anyStrict_of_words {ws : List (Nat × Nat)} {s t : State} (h : WordsBut ws s t)
    (hws : ∀ w ∈ ws, w.1 < 0x060 ∨ 0x06F < w.1) : anyStrict t = anyStrict s := by
  have hpid : ∀ p ∈ List.range 16, (strictPid t p = true ↔ strictPid s p = true) := fun p hp => by
    rw [strictPid, strictPid, regimeOf, regimeOf, h.fget (Fd.part_REGIME p) (show 0x040 < 0x1000 by decide) fun hmem => ?_]
    have := hws _ hmem
    have := List.mem_range.1 hp
    change 0x060 + p < 0x060 ∨ 0x06F < 0x060 + p at *
    omega
  rw [Bool.eq_iff_iff, anyStrict, anyStrict, List.any_eq_true, List.any_eq_true]
  exact exists_congr fun p => and_congr_right (hpid p)

/-! ### The relock -/

theorem accrue_words (s : State) : WordsBut [Fd.dram_OWED_MAX.word] s (accrue s) :=
  ((WordsBut.refl _ s).of_regs rfl).fput _ _ (by decide) List.mem_cons_self

theorem accrue_state (s : State) : accrue s = { s with regs := (accrue s).regs, refresh := (accrue s).refresh } := rfl

/-- Where a frequency change waits: for a major-frame boundary or a wake, or for its relock (R181, R184, R194). -/
def relockPhase (s : State) : StepPhase := if anyStrict s = true ∨ fget s Fd.power_DOMAIN_RUN = 0 then .ready else .relock

theorem relockIfFree_eq (s : State) : relockIfFree s = { s with
    regs := (relockIfFree s).regs, power := { s.power with phase := relockPhase s }, refresh := (relockIfFree s).refresh } := by
  unfold relockIfFree relockPhase
  simp only [Bool.or_eq_true, decide_eq_true_eq]
  split <;> rfl

theorem relockIfFree_words (s : State) : WordsBut [Fd.dram_OWED_MAX.word] s (relockIfFree s) := by
  unfold relockIfFree
  split
  · exact (WordsBut.refl _ s).of_regs rfl
  · exact ((WordsBut.refl _ s).of_regs rfl).trans (accrue_words _)

/-- The words of a voltage command and of the refreshes owed. -/
abbrev stepWords : List (Nat × Nat) := [Fd.power_VCORE_CMD_MV.word, Fd.dram_OWED_MAX.word]

theorem relockIfFree_frame (s : State) : StepFrame stepWords s (relockIfFree s) where
  words := (relockIfFree_words s).mono (by decide)
  relockEnd := by rw [relockIfFree_eq]
  state := by rw [relockIfFree_eq]

/-! ### The aim at a step -/

theorem stepMv_lt (s : State) (k : Nat) : stepMv s k < 2 ^ 10 := by
  have : stepMv s k ≤ 850 := Nat.min_le_left _ _
  omega

theorem fget_commandMv (s : State) {mv : Nat} (h : mv < 2 ^ 10) : fget (commandMv s mv) Fd.power_VCORE_CMD_MV = mv :=
  (fget_fput_same s Fd.power_VCORE_CMD_MV mv (by decide)).trans (Nat.mod_eq_of_lt h)

/-- The state that aims at a step, before anything is commanded. -/
def aimAt (s : State) (target : Nat) : State :=
  { s with power := { s.power with target := target, oldMv := curMv s, newMv := stepMv s target } }

theorem aimAt_frame (s : State) (k : Nat) : StepFrame stepWords s (aimAt s k) := (StepFrame.refl _ s).power _ rfl

theorem beginStep_raises (s : State) {k : Nat} (h : k < fget s Fd.power_STEP_CUR) :
    beginStep s k = settleFrom (commandMv (aimAt s k) (stepMv s k)) .raising := if_pos h

theorem beginStep_lowers (s : State) {k : Nat} (h : ¬ k < fget s Fd.power_STEP_CUR) : beginStep s k =
    relockIfFree (if fget s Fd.power_DOMAIN_RUN = 0 then commandMv (aimAt s k) (stepMv s k) else aimAt s k) := if_neg h

theorem commandedAim_frame (s : State) (k : Nat) :
    StepFrame stepWords s (if fget s Fd.power_DOMAIN_RUN = 0 then commandMv (aimAt s k) (stepMv s k) else aimAt s k) := by
  split
  · exact (aimAt_frame s k).commandMv _ List.mem_cons_self
  · exact aimAt_frame s k

theorem beginStep_frame (s : State) (k : Nat) : StepFrame stepWords s (beginStep s k) := by
  by_cases h : k < fget s Fd.power_STEP_CUR
  · rw [beginStep_raises s h]
    exact ((aimAt_frame s k).commandMv _ List.mem_cons_self).settleFrom _
  · rw [beginStep_lowers s h]
    exact (commandedAim_frame s k).trans (relockIfFree_frame _)

theorem beginStep_target (s : State) (k : Nat) : (beginStep s k).power.target = k := by
  by_cases h : k < fget s Fd.power_STEP_CUR
  · rw [beginStep_raises s h]
    rfl
  · rw [beginStep_lowers s h, relockIfFree_eq]
    split <;> rfl

/-- A higher frequency raises the voltage first (R180). -/
theorem beginStep_raising (s : State) {k : Nat} (h : k < fget s Fd.power_STEP_CUR) :
    fget (beginStep s k) Fd.power_VCORE_CMD_MV = stepMv s k ∧ (beginStep s k).power.phase = .raising ∧
      (beginStep s k).power.waitEnd = now s + fget s Fd.power_VSETTLE_PT := by
  have hvsettle := ((aimAt_frame s k).commandMv (stepMv s k) List.mem_cons_self).fget Fd.power_VSETTLE_PT (by decide) (by decide)
  rw [beginStep_raises s h]
  refine ⟨fget_commandMv (aimAt s k) (stepMv_lt s k), rfl, ?_⟩
  rw [← hvsettle]
  rfl

theorem relockPhase_of_frame {s t : State} (h : StepFrame stepWords s t) : relockPhase t = relockPhase s := by
  rw [relockPhase, relockPhase, anyStrict_of_words h.words (by decide), h.fget Fd.power_DOMAIN_RUN (by decide) (by decide)]

/-- A lower one changes the frequency first (R180). -/
theorem beginStep_relocking (s : State) {k : Nat} (h : ¬ k < fget s Fd.power_STEP_CUR) :
    (beginStep s k).power.phase = relockPhase s := by
  rw [beginStep_lowers s h, relockIfFree_eq]
  exact relockPhase_of_frame (commandedAim_frame s k)

/-! ### The next request -/

/-- The words of the step machine's status. -/
abbrev statusWords : List (Nat × Nat) := Fd.power_STEP_REQ.word :: Fd.mon_EMERG_ACTIVE.word :: stepWords

theorem endEmergency_frame (s : State) : StepFrame statusWords s (endEmergency s) :=
  (((StepFrame.refl _ s).fput Fd.power_EMERG_ACTIVE 0 (by decide) (by decide)).fput Fd.mon_EMERG_ACTIVE 0 (by decide) (by decide)).power _ rfl

theorem endEmergency_stepCur (s : State) : fget (endEmergency s) Fd.power_STEP_CUR = fget s Fd.power_STEP_CUR := by
  change fget (fput (fput s Fd.power_EMERG_ACTIVE 0) Fd.mon_EMERG_ACTIVE 0) Fd.power_STEP_CUR = _
  rw [fget_fput_other _ _ _ _ (by decide) (by decide) (by decide), fget_fput_other _ _ _ _ (by decide) (by decide) (by decide)]

theorem nextRequest_frame (s : State) : StepFrame statusWords s (nextRequest s) := by
  have hidle : StepFrame statusWords s { s with power := { s.power with phase := .idle } } := (StepFrame.refl _ s).power _ rfl
  unfold nextRequest
  dsimp only
  split
  · exact hidle
  · split
    · split
      · exact (hidle.fput Fd.power_STEP_PENDING 0 (by decide) (by decide)).trans (endEmergency_frame _)
      · exact hidle.fput Fd.power_STEP_PENDING 0 (by decide) (by decide)
    · exact hidle.trans ((beginStep_frame _ _).mono (by decide))

theorem nextRequest_stepCur (s : State) : fget (nextRequest s) Fd.power_STEP_CUR = fget s Fd.power_STEP_CUR := by
  have hpending (u : State) : fget (fput u Fd.power_STEP_PENDING 0) Fd.power_STEP_CUR = fget u Fd.power_STEP_CUR :=
    fget_fput_other _ _ _ _ (by decide) (by decide) (by decide)
  unfold nextRequest
  dsimp only
  split
  · rfl
  · split
    · split
      · rw [endEmergency_stepCur, hpending]
        rfl
      · exact hpending _
    · exact (beginStep_frame _ _).fget _ (by decide) (by decide)

end Sys2Proof.Machine
end

section
/-! SUPPORT. Clock steps and fast domains in order (04 R173-R182): the request, the settling, the relock, the wake and the stop. -/

namespace Sys2Proof.Machine

/-! ### A write that may count -/

/-- What a reserved write counts and reports in (R741). -/
abbrev rsvdWords (page : Nat) : List (Nat × Nat) :=
  (Fd.hdr_RSVD_WRITE_COUNT page).word :: Fd.directory_LAST_RSVD_OFFSET.word :: eventWords page

theorem countRsvd_words (s : State) (page off c : Nat) : WordsBut (rsvdWords c) s (countRsvd s page off c) :=
  (((WordsBut.refl _ s).fadd (Fd.hdr_RSVD_WRITE_COUNT c) 1 (show 0x028 < 0x1000 by decide) List.mem_cons_self).setEvent c 1
    fun _ h => List.mem_cons_of_mem _ (List.mem_cons_of_mem _ h)).fput Fd.directory_LAST_RSVD_OFFSET _ (by decide)
    (List.mem_cons_of_mem _ List.mem_cons_self)

theorem countRsvd_state (s : State) (page off c : Nat) :
    countRsvd s page off c = { s with regs := (countRsvd s page off c).regs, outbox := (countRsvd s page off c).outbox } := by
  unfold countRsvd
  dsimp only
  rw [fput_eq, setEvent_state, fadd_eq]

/-! ### The request of a step -/

theorem rowsAt_stepReq : rowsAt 0x002 0x040 =
    (⟨"STEP_REQ", 0x040, 1, 0x0, 2, 0, .control, fun _ _ => 4, .any, false⟩, 0, 0) :: (rowsAt 0x002 0x040).tail := rfl

theorem rowsAt_stepReq_tail : ∀ x ∈ (rowsAt 0x002 0x040).tail, x.1.kind = .status := by decide

theorem beMask_bits_low {be : BitVec 4} (h : be.getLsbD 0 = true) : bits (beMask be) 2 0 ≠ 0 := by
  revert h
  decide +revert

theorem beMask_low {be : BitVec 4} (h : be.getLsbD 0 = true) : beMask be % 8 = 7 ∧ (0xFFFFFFFF ^^^ beMask be) % 8 = 0 := by
  revert h
  decide +revert

/-- The low byte's enable takes the low bits of what is written (R724). -/
theorem bits_mergedWord_low (cur : Nat) (v : W32) {be : BitVec 4} (h : be.getLsbD 0 = true) :
    bits (mergedWord cur v be) 2 0 = v.toNat % 8 := by
  obtain ⟨hmask, hrest⟩ := beMask_low h
  change mergedWord cur v be / 1 % 2 ^ 3 = v.toNat % 2 ^ 3
  rw [Nat.div_one, mergedWord, Nat.or_mod_two_pow, Nat.and_mod_two_pow, Nat.and_mod_two_pow (a := v.toNat),
    show beMask be % 2 ^ 3 = 7 from hmask, show (0xFFFFFFFF ^^^ beMask be) % 2 ^ 3 = 0 from hrest, Nat.and_zero, Nat.zero_or,
    show 7 = 2 ^ 3 - 1 from rfl, Nat.and_two_pow_sub_one_eq_mod, Nat.mod_mod]

/-- What the write of STEP_REQ leaves before the step machine takes the request (R179, R735). -/
structure Requested (v : W32) (s t : State) : Prop where
  stepReq : fget t Fd.power_STEP_REQ = v.toNat % 8
  stepCur : fget t Fd.power_STEP_CUR = fget s Fd.power_STEP_CUR
  words : WordsBut (Fd.power_STEP_REQ.word :: rsvdWords 0x002) s t
  state : t = { s with regs := t.regs, safety := sameSafety s t, outbox := t.outbox }

theorem Requested.counted {v : W32} {s t : State} (h : Requested v s t) (page off : Nat) : Requested v s (countRsvd t page off 0x002) where
  stepReq := ((countRsvd_words t page off 0x002).fget _ (by decide) (by decide)).trans h.stepReq
  stepCur := ((countRsvd_words t page off 0x002).fget _ (by decide) (by decide)).trans h.stepCur
  words := h.words.trans ((countRsvd_words t page off 0x002).mono fun _ hw => List.mem_cons_of_mem _ hw)
  state := by
    have hsafety : sameSafety s (countRsvd t page off 0x002) = sameSafety s t := by
      rw [sameSafety, countRsvd_safety]
    rw [hsafety]
    exact (countRsvd_state t page off 0x002).trans (congrArg (fun x : State => { x with
      regs := (countRsvd t page off 0x002).regs, outbox := (countRsvd t page off 0x002).outbox }) h.state)

theorem regWrite_stepReq {q : Requester} (v : W32) {be : BitVec 4} {s : State} (h : writeReaches s q 0x002 0x040 = true)
    (hlock : fget s (Fd.hdr_LOCK 0x002) = 0) (hbe : be.getLsbD 0 = true) : Requested v s (regWrite denyNone s q 0x002 0x040 v be) := by
  obtain ⟨u, c, hu, -, hwrite⟩ := writeWord_control (q := q) v be rowsAt_stepReq rfl rowsAt_stepReq_tail (beMask_bits_low hbe) hlock
    rfl (by decide)
  have hstored : Stored Fd.power_STEP_REQ (v.toNat % 8) s u := by
    rw [hu, bits_mergedWord_low _ _ hbe]
    exact unflip_fput_stored _ _ _ _ s (by decide) (by decide)
  have hrequested : Requested v s u :=
    { stepReq := hstored.value.trans (Nat.mod_mod _ _)
      stepCur := by
        rw [hu]
        exact fget_fput_other s Fd.power_STEP_REQ Fd.power_STEP_CUR _ (by decide) (by decide) (by decide)
      words := hstored.words.mono (by decide)
      state := by
        rw [hstored.state] }
  rw [regWrite_of_reaches h, hwrite]
  split
  · exact hrequested.counted _ _
  · exact hrequested

/-- The state in which the step machine is aimed at what STEP_REQ names. -/
def pendingState (s : State) : State := fput s Fd.power_STEP_PENDING 1

theorem pendingState_stepCur (s : State) : fget (pendingState s) Fd.power_STEP_CUR = fget s Fd.power_STEP_CUR :=
  fget_fput_other _ _ _ _ (by decide) (by decide) (by decide)

theorem pendingState_stepReq (s : State) : fget (pendingState s) Fd.power_STEP_REQ = fget s Fd.power_STEP_REQ :=
  fget_fput_other _ _ _ _ (by decide) (by decide) (by decide)

theorem pendingState_words (s : State) : WordsBut [Fd.power_STEP_PENDING.word] s (pendingState s) :=
  (WordsBut.refl _ s).fput _ _ (by decide) List.mem_cons_self

theorem requestStep_idle {s : State} (hemerg : s.power.emerg = false) (hphase : s.power.phase = .idle)
    (hne : fget s Fd.power_STEP_REQ ≠ fget s Fd.power_STEP_CUR) :
    requestStep s = beginStep (pendingState s) (fget s Fd.power_STEP_REQ) := by
  have hreq : (fget s Fd.power_STEP_REQ != fget s Fd.power_STEP_CUR) = true := bne_iff_ne.2 hne
  unfold requestStep
  simp only [fput_power, hemerg, hphase, hreq, Bool.true_or, Bool.false_and, Bool.false_eq_true, if_false, if_neg hne,
    show (StepPhase.idle == StepPhase.relock) = false from rfl, show (StepPhase.idle == StepPhase.lowering) = false from rfl]
  rfl

/-- What the write of STEP_REQ and its mark as pending leave for the aim (R179). -/
theorem pendingRequest_words {v : W32} {s u : State} (h : Requested v s u) :
    WordsBut (Fd.power_STEP_REQ.word :: rsvdWords 0x002) s (pendingState u) :=
  h.words.trans ((pendingState_words u).mono (by decide))

theorem stepRequest_state {v : W32} {s u : State} (h : Requested v s u) (k : Nat) : beginStep (pendingState u) k = { s with
    regs := (beginStep (pendingState u) k).regs, power := (beginStep (pendingState u) k).power
    refresh := (beginStep (pendingState u) k).refresh, safety := sameSafety s (beginStep (pendingState u) k)
    outbox := (beginStep (pendingState u) k).outbox } := by
  have hsafety : sameSafety s (beginStep (pendingState u) k) = sameSafety s u := by
    rw [sameSafety, (beginStep_frame (pendingState u) k).state]
    rfl
  rw [hsafety]
  exact (beginStep_frame (pendingState u) k).state.trans (congrArg (fun x : State => { x with
    regs := (beginStep (pendingState u) k).regs, power := (beginStep (pendingState u) k).power
    refresh := (beginStep (pendingState u) k).refresh, outbox := (beginStep (pendingState u) k).outbox }) h.state)

/-- A request for another step (R179, R180). -/
theorem stepReqWrite_aims {q : Requester} (v : W32) {be : BitVec 4} {s : State} (h : writeReaches s q 0x002 0x040 = true)
    (hlock : fget s (Fd.hdr_LOCK 0x002) = 0) (hbe : be.getLsbD 0 = true) (hemerg : s.power.emerg = false)
    (hphase : s.power.phase = .idle) (hne : v.toNat % 8 ≠ fget s Fd.power_STEP_CUR) :
    Runs (.stepReqWrite q v be) s fun t =>
      fget t Fd.power_STEP_REQ = v.toNat % 8 ∧ fget t Fd.power_STEP_PENDING = 1 ∧
      fget t Fd.power_STEP_CUR = fget s Fd.power_STEP_CUR ∧ t.power.target = v.toNat % 8 ∧
      (v.toNat % 8 < fget s Fd.power_STEP_CUR →
        fget t Fd.power_VCORE_CMD_MV = stepMv s (v.toNat % 8) ∧ t.power.phase = .raising ∧
        t.power.waitEnd = now s + fget s Fd.power_VSETTLE_PT) ∧
      (fget s Fd.power_STEP_CUR < v.toNat % 8 →
        t.power.phase = if anyStrict s = true ∨ fget s Fd.power_DOMAIN_RUN = 0 then .ready else .relock) ∧
      t = { s with regs := t.regs, power := t.power, refresh := t.refresh, safety := sameSafety s t, outbox := t.outbox } := by
  have hu := regWrite_stepReq v h hlock hbe
  generalize huw : regWrite denyNone s q 0x002 0x040 v be = u at hu
  have hpower : u.power = s.power := by rw [hu.state]
  have hstep : requestStep u = beginStep (pendingState u) (v.toNat % 8) := by
    rw [← hu.stepReq]
    exact requestStep_idle (by rw [hpower, hemerg]) (by rw [hpower, hphase]) (by rw [hu.stepReq, hu.stepCur]; exact hne)
  have hexec : exec (.stepReqWrite q v be) s = .next (beginStep (pendingState u) (v.toNat % 8)) := by
    change execStepReqWrite q v be s = _
    unfold execStepReqWrite
    rw [if_pos (by rw [h, hlock, hbe]; rfl), huw, hstep]
  have hframe := beginStep_frame (pendingState u) (v.toNat % 8)
  have hcur : fget (pendingState u) Fd.power_STEP_CUR = fget s Fd.power_STEP_CUR := (pendingState_stepCur u).trans hu.stepCur
  have hwords := pendingRequest_words hu
  have hnow : now (pendingState u) = now s := by rw [now, hu.state]; rfl
  have hmv : stepMv (pendingState u) (v.toNat % 8) = stepMv s (v.toNat % 8) := by rw [stepMv, hu.state]; rfl
  refine ⟨_, hexec, ?_, ?_, ?_, beginStep_target _ _, fun hlt => ?_, fun hlt => ?_, stepRequest_state hu _⟩
  · rw [hframe.fget _ (by decide) (by decide), pendingState_stepReq, hu.stepReq]
  · rw [hframe.fget _ (by decide) (by decide)]
    exact fget_fput_same u Fd.power_STEP_PENDING 1 (by decide)
  · rw [hframe.fget _ (by decide) (by decide), hcur]
  · obtain ⟨hcmd, hraising, hwait⟩ := beginStep_raising (pendingState u) (k := v.toNat % 8) (by rw [hcur]; exact hlt)
    rw [hcmd, hwait, hnow, hmv, hwords.fget Fd.power_VSETTLE_PT (by decide) (by decide)]
    exact ⟨rfl, hraising, rfl⟩
  · rw [beginStep_relocking (pendingState u) (by omega), relockPhase, anyStrict_of_words hwords (by decide),
      hwords.fget Fd.power_DOMAIN_RUN (by decide) (by decide)]

end Sys2Proof.Machine
end

section
/-! SUPPORT. The settling of a voltage and the relock's end (04 R180-R182). -/

namespace Sys2Proof.Machine

/-! ### The regulator's answer -/

theorem noteRegulator_answered (s : State) {a : RegulatorAnswer} (h : (a.answered && a.pecOk) = true) : noteRegulator s a =
    fput (fput s Fd.power_VCORE_READ_MV a.vout) Fd.power_PMB_STATUS_WORD a.status.toNat := if_pos h

/-- What the regulator's answer is kept and counted in. -/
abbrev regulatorWords : List (Nat × Nat) :=
  Fd.power_VCORE_READ_MV.word :: Fd.power_PMB_STATUS_WORD.word :: Fd.power_PMB_ERR_COUNT.word :: eventWords 0x002

theorem noteRegulator_words (s : State) (a : RegulatorAnswer) : WordsBut regulatorWords s (noteRegulator s a) := by
  unfold noteRegulator
  split
  · exact ((WordsBut.refl _ s).fput Fd.power_VCORE_READ_MV _ (by decide) (by decide)).fput Fd.power_PMB_STATUS_WORD _ (by decide) (by decide)
  · exact ((WordsBut.refl _ s).fadd Fd.power_PMB_ERR_COUNT _ (by decide) (by decide)).setEvent 0x002 9 (by decide)

theorem noteRegulator_state (s : State) (a : RegulatorAnswer) :
    noteRegulator s a = { s with regs := (noteRegulator s a).regs, outbox := (noteRegulator s a).outbox } := by
  unfold noteRegulator
  split
  · rw [fput_eq _ Fd.power_PMB_STATUS_WORD, fput_eq s]
  · rw [setEvent_state, fadd_eq]

theorem answered_of_confirmed {s : State} {a : RegulatorAnswer} (h : confirmed s a = true) : (a.answered && a.pecOk) = true := by
  simp only [confirmed, Bool.and_eq_true] at h ⊢
  exact h.1.1.1

/-! ### The end of a settling -/

/-- The state in which the regulator has confirmed the voltage (R180). -/
def voltageTaken (s : State) (a : RegulatorAnswer) : State :=
  { noteRegulator s a with power := { (noteRegulator s a).power with heldMv := none } }

theorem voltageTaken_words (s : State) (a : RegulatorAnswer) : WordsBut regulatorWords s (voltageTaken s a) :=
  (noteRegulator_words s a).of_regs rfl

theorem voltageTaken_read {s : State} {a : RegulatorAnswer} (h : (a.answered && a.pecOk) = true) :
    fget (voltageTaken s a) Fd.power_VCORE_READ_MV = a.vout % 2 ^ 10 := by
  change fget (noteRegulator s a) _ = _
  rw [noteRegulator_answered s h, fget_fput_other _ _ _ _ (by decide) (by decide) (by decide), fget_fput_same _ _ _ (by decide)]
  rfl

theorem voltageTaken_state {s : State} {a : RegulatorAnswer} (h : (a.answered && a.pecOk) = true) :
    voltageTaken s a = { s with regs := (voltageTaken s a).regs, power := { s.power with heldMv := none } } := by
  have houtbox : (noteRegulator s a).outbox = s.outbox := by
    rw [noteRegulator_answered s h, fput_outbox, fput_outbox]
  have hnoted := noteRegulator_state s a
  rw [houtbox] at hnoted
  unfold voltageTaken
  rw [hnoted]

theorem confirmedEnd_exec {a : RegulatorAnswer} {s : State} (hphase : s.power.phase = .raising)
    (hwait : s.power.waitEnd ≤ now s) (hconf : confirmed s a = true) : exec (.voltageSettleEnd a) s =
      .next (relockIfFree (voltageTaken s a)) := by
  change execVoltageSettleEnd a s = _
  unfold execVoltageSettleEnd
  rw [if_pos (by rw [hphase, decide_eq_true hwait]; rfl)]
  dsimp only
  rw [if_pos (by rw [hphase]; rfl), if_pos hconf]
  rfl

/-- The state a settling that the regulator does not confirm leaves: back at the voltage of the step in force (R182). -/
def stepFault (s : State) : State :=
  let t := fput (setEvent (commandMv s (stepMv s (fget s Fd.power_STEP_CUR))) 0x002 8) Fd.power_STEP_PENDING 0
  { t with power := { t.power with phase := .idle, heldMv := none } }

theorem unconfirmedEnd_exec {a : RegulatorAnswer} {s : State} (hphase : s.power.phase = .raising)
    (hwait : s.power.waitEnd ≤ now s) (hconf : confirmed s a = false) :
    exec (.voltageSettleEnd a) s = .next (stepFault (noteRegulator s a)) := by
  change execVoltageSettleEnd a s = _
  unfold execVoltageSettleEnd
  rw [if_pos (by rw [hphase, decide_eq_true hwait]; rfl)]
  dsimp only
  rw [if_pos (by rw [hphase]; rfl), if_neg (by rw [hconf]; exact Bool.false_ne_true)]
  rfl

/-- A raised voltage that the regulator confirms lets the frequency follow (R180). -/
theorem voltageSettleEnd_confirmed {a : RegulatorAnswer} {s : State} (hphase : s.power.phase = .raising)
    (hwait : s.power.waitEnd ≤ now s) (hconf : confirmed s a = true) : Runs (.voltageSettleEnd a) s fun t =>
      fget t Fd.power_VCORE_READ_MV = a.vout % 2 ^ 10 ∧ fget t Fd.power_STEP_CUR = fget s Fd.power_STEP_CUR ∧
      t.power.phase = (if anyStrict s = true ∨ fget s Fd.power_DOMAIN_RUN = 0 then .ready else .relock) ∧
      t = { s with regs := t.regs, power := { s.power with phase := t.power.phase, heldMv := none }, refresh := t.refresh } := by
  have hanswered := answered_of_confirmed hconf
  have hwords := voltageTaken_words s a
  have hrelock := relockIfFree_words (voltageTaken s a)
  refine ⟨_, confirmedEnd_exec hphase hwait hconf, ?_, ?_, ?_, ?_⟩
  · rw [hrelock.fget Fd.power_VCORE_READ_MV (by decide) (by decide), voltageTaken_read hanswered]
  · rw [hrelock.fget Fd.power_STEP_CUR (by decide) (by decide), hwords.fget Fd.power_STEP_CUR (by decide) (by decide)]
  · rw [relockIfFree_eq]
    change relockPhase (voltageTaken s a) = relockPhase s
    rw [relockPhase, relockPhase, anyStrict_of_words hwords (by decide), hwords.fget Fd.power_DOMAIN_RUN (by decide) (by decide)]
  · rw [relockIfFree_eq, voltageTaken_state hanswered]

theorem hasEvent_fput {s : State} {p b : Nat} (h : HasEvent s p b) (f : Fld) (v : Nat) (hl : f.off < 0x1000) (hf : f.off ≠ 0x010) :
    HasEvent (fput s f v) p b := (fput_reported s f v hl hf).events p b h

theorem fget_stepFault_lane (s : State) (g : Fld) (hg : g.ok) (hd : Fd.power_STEP_PENDING.apart g)
    (hcmd : Fd.power_VCORE_CMD_MV.apart g) (hl : 0x040 ≤ g.off) (hu : g.off < 0x1000) : fget (stepFault s) g = fget s g := by
  change fget (fput (setEvent (commandMv s _) 0x002 8) Fd.power_STEP_PENDING 0) g = _
  rw [fget_fput_other _ _ _ _ (by decide) hg hd, fget_setEvent _ _ _ hl hu]
  exact fget_fput_other s _ g _ (by decide) hg hcmd

theorem stepFault_cmd (s : State) : fget (stepFault s) Fd.power_VCORE_CMD_MV = stepMv s (fget s Fd.power_STEP_CUR) := by
  change fget (fput (setEvent (commandMv s _) 0x002 8) Fd.power_STEP_PENDING 0) _ = _
  rw [fget_fput_other _ _ _ _ (by decide) (by decide) (by decide), fget_setEvent _ _ _ (by decide) (by decide),
    fget_commandMv s (stepMv_lt s _)]

theorem stepFault_event (s : State) : HasEvent (stepFault s) 0x002 8 :=
  hasEvent_fput (setEvent_hasEvent (commandMv s (stepMv s (fget s Fd.power_STEP_CUR))) 0x002 (by decide)) Fd.power_STEP_PENDING 0
    (by decide) (by decide)

theorem stepFault_state (s : State) : stepFault s = { s with
    regs := (stepFault s).regs, power := { s.power with phase := .idle, heldMv := none }, outbox := (stepFault s).outbox } := by
  have hset := setEvent_state (commandMv s (stepMv s (fget s Fd.power_STEP_CUR))) 0x002 8
  unfold stepFault
  dsimp only
  rw [fput_eq, hset]
  rfl

/-- A raised voltage that the regulator does not confirm abandons the step (R182). -/
theorem voltageSettleEnd_unconfirmed {a : RegulatorAnswer} {s : State} (hphase : s.power.phase = .raising)
    (hwait : s.power.waitEnd ≤ now s) (hconf : confirmed s a = false) : Runs (.voltageSettleEnd a) s fun t =>
      fget t Fd.power_VCORE_CMD_MV = stepMv s (fget s Fd.power_STEP_CUR) ∧ fget t Fd.power_STEP_PENDING = 0 ∧
      fget t Fd.power_STEP_CUR = fget s Fd.power_STEP_CUR ∧ fget t Fd.power_STEP_REQ = fget s Fd.power_STEP_REQ ∧
      HasEvent t 0x002 8 ∧ t.power.phase = .idle ∧
      t = { s with regs := t.regs, power := { s.power with phase := .idle, heldMv := none }, outbox := t.outbox } := by
  have hwords := noteRegulator_words s a
  have hstate := noteRegulator_state s a
  refine ⟨_, unconfirmedEnd_exec hphase hwait hconf, ?_, ?_, ?_, ?_, stepFault_event _, rfl, ?_⟩
  · rw [stepFault_cmd, hwords.fget Fd.power_STEP_CUR (by decide) (by decide), stepMv, hstate]
    rfl
  · exact fget_fput_same _ Fd.power_STEP_PENDING 0 (by decide)
  · rw [fget_stepFault_lane _ _ (by decide) (by decide) (by decide) (by decide) (by decide),
      hwords.fget Fd.power_STEP_CUR (by decide) (by decide)]
  · rw [fget_stepFault_lane _ _ (by decide) (by decide) (by decide) (by decide) (by decide),
      hwords.fget Fd.power_STEP_REQ (by decide) (by decide)]
  · rw [stepFault_state, hstate]

end Sys2Proof.Machine
end

section
/-! SUPPORT. The relock's end, and the start and stop of a fast domain (04 R173-R176, R181). -/

namespace Sys2Proof.Machine

/-! ### A new step in force -/

/-- The state with the step machine's target in force and counted (R181, R188). -/
def targetInForce (s : State) : State :=
  let t := fadd (fput s Fd.power_STEP_CUR s.power.target) Fd.power_STEP_CHANGE_COUNT 1
  if s.power.emerg && s.power.emergOver && s.power.target != s.power.forced then endEmergency t else t

/-- The words of the step in force and its count. -/
abbrev inForceWords : List (Nat × Nat) := Fd.power_STEP_CHANGE_COUNT.word :: statusWords

theorem targetInForce_frame (s : State) : StepFrame inForceWords s (targetInForce s) := by
  have hcounted : StepFrame inForceWords s (fadd (fput s Fd.power_STEP_CUR s.power.target) Fd.power_STEP_CHANGE_COUNT 1) :=
    ((StepFrame.refl _ s).fput Fd.power_STEP_CUR _ (by decide) (by decide)).fput Fd.power_STEP_CHANGE_COUNT _ (by decide) (by decide)
  unfold targetInForce
  dsimp only
  split
  · exact hcounted.trans ((endEmergency_frame _).mono (by decide))
  · exact hcounted

theorem targetInForce_stepCur (s : State) (h : s.power.target ≤ 7) : fget (targetInForce s) Fd.power_STEP_CUR = s.power.target := by
  have hcounted : fget (fadd (fput s Fd.power_STEP_CUR s.power.target) Fd.power_STEP_CHANGE_COUNT 1) Fd.power_STEP_CUR =
      s.power.target := by
    rw [fget_fadd_other _ _ _ _ (by decide) (by decide) (by decide), fget_fput_same _ _ _ (by decide)]
    exact Nat.mod_eq_of_lt (Nat.lt_succ_of_le h)
  unfold targetInForce
  dsimp only
  split
  · rw [endEmergency_stepCur, hcounted]
  · exact hcounted

theorem targetInForce_count (s : State) : fget (targetInForce s) Fd.power_STEP_CHANGE_COUNT =
    (fget s Fd.power_STEP_CHANGE_COUNT + 1) % 2 ^ 32 := by
  have hcounted : fget (fadd (fput s Fd.power_STEP_CUR s.power.target) Fd.power_STEP_CHANGE_COUNT 1) Fd.power_STEP_CHANGE_COUNT =
      (fget s Fd.power_STEP_CHANGE_COUNT + 1) % 2 ^ 32 := by
    rw [fget_fadd_same _ _ _ (by decide), fget_fput_other _ _ _ _ (by decide) (by decide) (by decide)]
    rfl
  unfold targetInForce
  dsimp only
  split
  · rw [(endEmergency_frame _).fget _ (by decide) (by decide), hcounted]
  · exact hcounted

/-- The state that is to lower the voltage to the target's, the voltage to fall back to being `old` (R182). -/
def lowerAim (s : State) (target old : Nat) : State := { s with power := { s.power with oldMv := old, newMv := stepMv s target } }

/-- The state that lowers the voltage (R182). -/
def lowerFrom (s : State) (target old : Nat) : State := settleFrom (commandMv (lowerAim s target old) (stepMv s target)) .lowering

theorem lowerFrom_frame (s : State) (target old : Nat) : StepFrame stepWords s (lowerFrom s target old) :=
  (((StepFrame.refl stepWords s).power { s.power with oldMv := old, newMv := stepMv s target } rfl).commandMv (stepMv s target)
    List.mem_cons_self).settleFrom .lowering

theorem lowerFrom_command (s : State) (target old : Nat) : fget (lowerFrom s target old) Fd.power_VCORE_CMD_MV = stepMv s target :=
  fget_commandMv (lowerAim s target old) (stepMv_lt s target)

theorem lowerFrom_waitEnd (s : State) (target old : Nat) :
    (lowerFrom s target old).power.waitEnd = now s + fget s Fd.power_VSETTLE_PT := by
  rw [← (lowerFrom_frame s target old).fget Fd.power_VSETTLE_PT (by decide) (by decide)]
  rfl

/-- The voltage follows where the new step is the lower frequency, or where a turned-back relock has left it raised (R182). -/
def lowersAfter (s : State) : Bool :=
  fget s Fd.power_STEP_CUR < s.power.target ||
    (fget s Fd.power_STEP_CUR == s.power.target && stepMv (targetInForce s) s.power.target < fget (targetInForce s) Fd.power_VCORE_CMD_MV)

theorem stepInForce_eq (s : State) : stepInForce s =
    if lowersAfter s then lowerFrom (targetInForce s) s.power.target (curMv s) else nextRequest (targetInForce s) := by
  unfold lowersAfter
  rfl

/-- Whatever follows a new step in force, the step and its count stay. -/
theorem stepInForce_follows (s : State) : StepFrame statusWords (targetInForce s) (stepInForce s) ∧
    fget (stepInForce s) Fd.power_STEP_CUR = fget (targetInForce s) Fd.power_STEP_CUR := by
  rw [stepInForce_eq]
  split
  · exact ⟨(lowerFrom_frame _ _ _).mono (by decide), (lowerFrom_frame _ _ _).fget _ (by decide) (by decide)⟩
  · exact ⟨nextRequest_frame _, nextRequest_stepCur _⟩

theorem stepInForce_lowers {s : State} (h : fget s Fd.power_STEP_CUR < s.power.target) :
    stepInForce s = lowerFrom (targetInForce s) s.power.target (curMv s) := by
  rw [stepInForce_eq, if_pos]
  rw [lowersAfter, decide_eq_true h, Bool.true_or]

/-- The state in which the relock has ended (R181, R345). -/
def relockEnded (s : State) : State := leaveSelfRefresh { s with power := { s.power with relockEnd := now s } }

theorem stepRelockDone_exec {s : State} (h : s.power.phase = .relock) :
    exec .stepRelockDone s = .next (stepInForce (relockEnded s)) := by
  change execStepRelockDone s = _
  unfold execStepRelockDone
  rw [if_pos (by rw [h]; rfl)]
  rfl

/-- A relock done puts the target in force (R181); a lower frequency then lowers the voltage (R182). -/
theorem stepRelockDone_inForce {s : State} (hphase : s.power.phase = .relock) (htarget : s.power.target ≤ 7) :
    Runs .stepRelockDone s fun t =>
      fget t Fd.power_STEP_CUR = s.power.target ∧
      fget t Fd.power_STEP_CHANGE_COUNT = (fget s Fd.power_STEP_CHANGE_COUNT + 1) % 2 ^ 32 ∧
      (fget s Fd.power_STEP_CUR < s.power.target →
        t.power.phase = .lowering ∧ fget t Fd.power_VCORE_CMD_MV = stepMv s s.power.target ∧
        t.power.waitEnd = now s + fget s Fd.power_VSETTLE_PT) ∧
      t.power.relockEnd = now s ∧ t = { s with regs := t.regs, power := t.power, refresh := t.refresh, outbox := t.outbox } := by
  have hinForce := targetInForce_frame (relockEnded s)
  obtain ⟨hfollows, hcur⟩ := stepInForce_follows (relockEnded s)
  refine ⟨_, stepRelockDone_exec hphase, ?_, ?_, fun hlt => ?_, ?_, ?_⟩
  · rw [hcur, targetInForce_stepCur (relockEnded s) htarget]
    rfl
  · rw [hfollows.fget _ (by decide) (by decide), targetInForce_count]
    rfl
  · rw [stepInForce_lowers (s := relockEnded s) hlt, lowerFrom_command, lowerFrom_waitEnd, hinForce.stepMv, hinForce.now,
      hinForce.fget Fd.power_VSETTLE_PT (by decide) (by decide)]
    exact ⟨rfl, rfl, rfl⟩
  · rw [hfollows.relockEnd, hinForce.relockEnd]
    rfl
  · rw [hfollows.state, hinForce.state]
    rfl

end Sys2Proof.Machine
end

section
/-! SUPPORT. The start and stop of a fast domain (04 R173-R176, R194). -/

namespace Sys2Proof.Machine

/-! ### DOMAIN_RUN -/

/-- The bit of one more domain, added to DOMAIN_RUN. -/
theorem bit_add_domain : ∀ (v : Fin 16) (d e : Fin 4), bit v d = false →
    bit ((v + 2 ^ d.val) % 2 ^ 4) e = (bit v e || e == d) := by decide

/-- The bit of a domain that stops, taken from DOMAIN_RUN. -/
theorem bit_sub_domain : ∀ (v : Fin 16) (d : Fin 4), bit v d = true → bit ((v - 2 ^ d.val) % 2 ^ 4) d = false := by decide

theorem domainRun_lt (s : State) : fget s Fd.power_DOMAIN_RUN < 16 := fget_lt_card s _

theorem startDomain_running {s : State} {d : Nat} (h : domainRuns s d = true) : startDomain s d = s := if_pos h

theorem startDomain_stopped {s : State} {d : Nat} (h : domainRuns s d = false) : startDomain s d =
    fadd (fput s Fd.power_DOMAIN_RUN (fget s Fd.power_DOMAIN_RUN + 2 ^ d)) (Fd.power_WAKE_COUNT d) 1 :=
  if_neg (by rw [h]; exact Bool.false_ne_true)

theorem wakeCount_ok (d : Nat) : (Fd.power_WAKE_COUNT d).ok := ⟨Nat.zero_le _, Nat.le_of_ble_eq_true rfl⟩

theorem wakeCount_off_lt (d : Fin 4) : (Fd.power_WAKE_COUNT d).off < 0x1000 := by decide +revert

theorem wakeCount_apart (d : Fin 4) : (Fd.power_WAKE_COUNT d).apart Fd.power_DOMAIN_RUN ∧ Fd.power_DOMAIN_RUN.apart (Fd.power_WAKE_COUNT d) := by
  decide +revert

theorem wakeCount_word_fabric : ∀ d : Fin 4, d ≠ 3 →
    (Fd.power_WAKE_COUNT d).word ∉ [Fd.power_DOMAIN_RUN.word, (Fd.power_WAKE_COUNT 3).word] := by decide

/-! ### The start of a domain -/

theorem startDomain_runs (s : State) (d e : Fin 4) : domainRuns (startDomain s d) e = (domainRuns s e || e == d) := by
  by_cases h : domainRuns s d = true
  · rw [startDomain_running h]
    by_cases hed : e = d
    · rw [hed, h, Bool.true_or]
    · rw [beq_false_of_ne hed, Bool.or_false]
  · have hstopped : domainRuns s d = false := Bool.eq_false_iff.2 h
    have hrun : fget (startDomain s d) Fd.power_DOMAIN_RUN = (fget s Fd.power_DOMAIN_RUN + 2 ^ d.val) % 2 ^ 4 := by
      rw [startDomain_stopped hstopped, fget_fadd_other _ _ _ _ (wakeCount_ok d) (by decide) (wakeCount_apart d).1,
        fget_fput_same _ _ _ (by decide)]
      rfl
    rw [domainRuns, hrun]
    exact bit_add_domain ⟨_, domainRun_lt s⟩ d e hstopped

theorem startDomain_words (s : State) (d : Fin 4) :
    WordsBut [Fd.power_DOMAIN_RUN.word, (Fd.power_WAKE_COUNT d).word] s (startDomain s d) := by
  unfold startDomain
  split
  · exact WordsBut.refl _ s
  · exact ((WordsBut.refl _ s).fput Fd.power_DOMAIN_RUN _ (by decide) List.mem_cons_self).fadd (Fd.power_WAKE_COUNT d) 1
      (wakeCount_off_lt d) (List.mem_cons_of_mem _ List.mem_cons_self)

theorem startDomain_state (s : State) (d : Nat) : startDomain s d = { s with regs := (startDomain s d).regs } := by
  unfold startDomain
  split
  · rfl
  · rw [fadd_eq, fput_eq s]

/-- Each start counts as a wake of its domain. -/
theorem startDomain_wakeCount {s : State} {d : Fin 4} (h : domainRuns s d = false) : fget (startDomain s d) (Fd.power_WAKE_COUNT d) =
    (fget s (Fd.power_WAKE_COUNT d) + 1) % 2 ^ 32 := by
  rw [startDomain_stopped h, fget_fadd_same _ _ _ (wakeCount_ok d),
    fget_fput_other _ _ _ _ (by decide) (wakeCount_ok d) (wakeCount_apart d).2]
  rfl

/-- The start of the fabric with another domain leaves that domain's count alone. -/
theorem startFabric_wakeCount {s : State} {d : Fin 4} (h : domainRuns s d = true) :
    fget (startDomain s 3) (Fd.power_WAKE_COUNT d) = fget s (Fd.power_WAKE_COUNT d) := by
  by_cases hd : d = 3
  · subst hd
    rw [startDomain_running (d := 3) h]
  · exact (startDomain_words s 3).fget _ (wakeCount_off_lt d) (wakeCount_word_fabric d hd)

/-! ### The wake -/

/-- The state in which a domain and the fabric with it run (R173). -/
def woken (s : State) (d : Nat) : State := startDomain (startDomain s d) 3

theorem woken_words (s : State) (d : Fin 4) :
    WordsBut [Fd.power_DOMAIN_RUN.word, (Fd.power_WAKE_COUNT d).word, (Fd.power_WAKE_COUNT 3).word] s (woken s d) :=
  ((startDomain_words s d).mono (by simp)).trans ((startDomain_words (startDomain s d) 3).mono (by simp))

theorem woken_runs (s : State) (d : Fin 4) : domainRuns (woken s d) d = true ∧ domainRuns (woken s d) 3 = true := by
  have hruns (e : Fin 4) : domainRuns (woken s d) e = ((domainRuns s e || e == d) || e == 3) :=
    (startDomain_runs (startDomain s d) 3 e).trans (by rw [startDomain_runs])
  exact ⟨by rw [hruns, beq_self_eq_true, Bool.or_true, Bool.true_or], (hruns 3).trans (Bool.or_true _)⟩

theorem woken_wakeCount {s : State} {d : Fin 4} (h : domainRuns s d = false) :
    fget (woken s d) (Fd.power_WAKE_COUNT d) = (fget s (Fd.power_WAKE_COUNT d) + 1) % 2 ^ 32 := by
  have hrunning : domainRuns (startDomain s d) d = true := by
    rw [startDomain_runs, beq_self_eq_true, Bool.or_true]
  exact (startFabric_wakeCount hrunning).trans (startDomain_wakeCount h)

theorem woken_state (s : State) (d : Nat) : woken s d = { s with regs := (woken s d).regs } := by
  unfold woken
  rw [startDomain_state, startDomain_state s d]

/-- What a wake changes once the domains run: the tasks' marks, and a relock that begins with it (R194, R563). -/
structure WakeFrame (s t : State) : Prop where
  words : WordsBut [Fd.dram_OWED_MAX.word] s t
  state : t = { s with regs := t.regs, power := { s.power with phase := t.power.phase }, refresh := t.refresh
                       sched := { s.sched with tasks := t.sched.tasks } }

theorem mapTasks_wakeFrame (s : State) (f : Task → Task) : WakeFrame s (mapTasks s f) := ⟨(WordsBut.refl _ s).of_regs rfl, rfl⟩

theorem beginRelock_wakeFrame (s : State) (f : Task → Task) : WakeFrame s (beginRelock (mapTasks s f)) where
  words := ((WordsBut.refl _ s).of_regs rfl).trans (accrue_words _)
  state := by
    unfold beginRelock
    rw [accrue_state]
    rfl

theorem fastDomainWake_exec {s : State} {d : Fin 4} (hpower : s.boot.powerGood = true) (hholdup : s.boot.holdup = false)
    (hstopped : domainRuns s d = false) (hheld : domainHeld s d = true) :
    ∃ t, exec (.fastDomainWake d) s = .next t ∧ WakeFrame (woken s d) t := by
  change ∃ t, execFastDomainWake d s = .next t ∧ _
  unfold execFastDomainWake
  rw [if_pos (by rw [hpower, hholdup, hstopped, hheld]; rfl)]
  refine ⟨_, rfl, ?_⟩
  split
  · exact beginRelock_wakeFrame (woken s d) _
  · exact mapTasks_wakeFrame (woken s d) _

/-- A stopped domain that something holds starts, and the fabric with it (R173). -/
theorem fastDomainWake_starts {s : State} {d : Fin 4} (hpower : s.boot.powerGood = true) (hholdup : s.boot.holdup = false)
    (hstopped : domainRuns s d = false) (hheld : domainHeld s d = true) : Runs (.fastDomainWake d) s fun t =>
      domainRuns t d = true ∧ domainRuns t 3 = true ∧
      fget t (Fd.power_WAKE_COUNT d) = (fget s (Fd.power_WAKE_COUNT d) + 1) % 2 ^ 32 ∧
      WordsBut [Fd.power_DOMAIN_RUN.word, (Fd.power_WAKE_COUNT d).word, (Fd.power_WAKE_COUNT 3).word,
        Fd.dram_OWED_MAX.word] s t ∧
      t = { s with regs := t.regs, power := { s.power with phase := t.power.phase }, refresh := t.refresh
                   sched := { s.sched with tasks := t.sched.tasks } } := by
  obtain ⟨t, hexec, hwords, hstate⟩ := fastDomainWake_exec hpower hholdup hstopped hheld
  obtain ⟨hd, hfabric⟩ := woken_runs s d
  have hrun : fget t Fd.power_DOMAIN_RUN = fget (woken s d) Fd.power_DOMAIN_RUN := hwords.fget _ (by decide) (by decide)
  have hcount : fget t (Fd.power_WAKE_COUNT d) = fget (woken s d) (Fd.power_WAKE_COUNT d) :=
    hwords.fget _ (wakeCount_off_lt d) (by simp [Fd.power_WAKE_COUNT, Fd.dram_OWED_MAX])
  refine ⟨t, hexec, ?_, ?_, hcount.trans (woken_wakeCount hstopped), ?_, ?_⟩
  · rw [domainRuns, hrun]
    exact hd
  · rw [domainRuns, hrun]
    exact hfabric
  · exact ((woken_words s d).mono (by simp)).trans (hwords.mono (by simp))
  · rw [hstate, woken_state]

/-- A running domain that nothing holds and that has idled long enough stops (R174). -/
theorem fastDomainStop_stops {s : State} {d : Fin 4} (hrun : domainRuns s d = true) (hfree : domainHeld s d = false)
    (hlimit : fget s (Fd.power_FC_IDLE_PT d) ≠ 0) (hidle : fget s (Fd.power_FC_IDLE_PT d) ≤ s.power.idle.getD d 0) :
    Runs (.fastDomainStop d) s fun t =>
      domainRuns t d = false ∧ WordsBut [Fd.power_DOMAIN_RUN.word] s t ∧ t = { s with regs := t.regs } := by
  refine ⟨fput s Fd.power_DOMAIN_RUN (fget s Fd.power_DOMAIN_RUN - 2 ^ d.val), ?_, ?_,
    (WordsBut.refl _ s).fput _ _ (by decide) List.mem_cons_self, fput_eq _ _ _⟩
  · change execFastDomainStop d s = _
    unfold execFastDomainStop
    rw [if_pos (by rw [hrun, hfree, decide_eq_true hidle, bne_iff_ne.2 hlimit]; rfl)]
  · rw [domainRuns, fget_fput_same _ _ _ (by decide)]
    exact bit_sub_domain ⟨_, domainRun_lt s⟩ d hrun

/-- Settles O7: the request, the settling, the relock, the wake and the stop, clause by clause. -/
theorem clockStepsFollowTheirSequence : Obligations.ClockStepsFollowTheirSequence := by
  unfold Obligations.ClockStepsFollowTheirSequence
  exact ⟨fun _ v _ _ => stepReqWrite_aims v, fun _ _ => voltageSettleEnd_confirmed, fun _ _ => voltageSettleEnd_unconfirmed,
    fun _ => stepRelockDone_inForce, fun _ _ => fastDomainWake_starts, fun _ _ => fastDomainStop_stops⟩

end Sys2Proof.Machine
end

section
/-! SUPPORT. The end of a thermal emergency, the clock monitor and the rails (04 R188; 15 R597-R599; 17 R683). -/

namespace Sys2Proof.Machine

/-! ### The end of an emergency -/

theorem beginStep_emergOver (s : State) (k : Nat) : (beginStep s k).power.emergOver = s.power.emergOver := by
  by_cases h : k < fget s Fd.power_STEP_CUR
  · rw [beginStep_raises s h]
    rfl
  · rw [beginStep_lowers s h, relockIfFree_eq]
    split <;> rfl

/-- The state in which the emergency's condition is over (R188). -/
def emergencyOver (s : State) : State := { s with power := { s.power with emergOver := true } }

theorem endEmergency_words (s : State) : WordsBut [Fd.power_EMERG_ACTIVE.word, Fd.mon_EMERG_ACTIVE.word] s (endEmergency s) :=
  (((WordsBut.refl _ s).fput Fd.power_EMERG_ACTIVE 0 (by decide) (by decide)).fput Fd.mon_EMERG_ACTIVE 0 (by decide) (by decide)).of_regs rfl

theorem endEmergency_active (s : State) :
    fget (endEmergency s) Fd.power_EMERG_ACTIVE = 0 ∧ fget (endEmergency s) Fd.mon_EMERG_ACTIVE = 0 := by
  have hregs : (endEmergency s).regs = (fput (fput s Fd.power_EMERG_ACTIVE 0) Fd.mon_EMERG_ACTIVE 0).regs := rfl
  rw [fget_of_regs hregs, fget_of_regs hregs, fget_fput_same _ _ _ (by decide),
    fget_fput_other _ _ _ _ (by decide) (by decide) (by decide), fget_fput_same _ _ _ (by decide)]
  exact ⟨Nat.zero_mod _, Nat.zero_mod _⟩

theorem endEmergency_state (s : State) : endEmergency s = { s with regs := (endEmergency s).regs, power := (endEmergency s).power } := by
  unfold endEmergency
  rw [fput_eq _ Fd.mon_EMERG_ACTIVE, fput_eq s]

theorem thermalEmergencyExit_exec {s : State} (hemerg : s.power.emerg = true) (hover : s.power.emergOver = false)
    (hphase : s.power.phase ≠ .relock) (hcool : CoolFor 25000000 s) : exec .thermalEmergencyExit s = .next
      (if fget s Fd.power_STEP_REQ = fget s Fd.power_STEP_CUR then endEmergency (emergencyOver s)
      else if s.power.phase = .lowering then emergencyOver s
      else beginStep (pendingState (emergencyOver s)) (fget s Fd.power_STEP_REQ)) := by
  obtain ⟨since, hsince, hlong⟩ := hcool
  have hrelock : (s.power.phase == .relock) = false := beq_false_of_ne hphase
  change execThermalEmergencyExit s = _
  unfold execThermalEmergencyExit
  rw [show s.power.coolSince = some since from hsince]
  dsimp only
  rw [if_pos (by rw [hemerg, hover, decide_eq_true hlong]; rfl)]
  change (if (decide (fget s Fd.power_STEP_REQ = fget s Fd.power_STEP_CUR) && !(s.power.phase == .relock)) = true then _
    else if (s.power.phase == .relock || s.power.phase == .lowering) = true then _ else _) = _
  simp only [hrelock, Bool.not_false, Bool.and_true, Bool.false_or, decide_eq_true_eq, beq_iff_eq]
  split
  · rfl
  · split <;> rfl

/-- The emergency ends at the step STEP_REQ names (R188). -/
theorem thermalEmergencyExit_ends {s : State} (hemerg : s.power.emerg = true) (hover : s.power.emergOver = false)
    (hphase : s.power.phase ≠ .relock) (hreq : fget s Fd.power_STEP_REQ = fget s Fd.power_STEP_CUR) (hcool : CoolFor 25000000 s) :
    Runs .thermalEmergencyExit s fun t =>
      fget t Fd.power_EMERG_ACTIVE = 0 ∧ fget t Fd.mon_EMERG_ACTIVE = 0 ∧ t.power.emerg = false ∧
      WordsBut [Fd.power_EMERG_ACTIVE.word, Fd.mon_EMERG_ACTIVE.word] s t ∧
      t = { s with regs := t.regs, power := t.power } := by
  have hexec := thermalEmergencyExit_exec hemerg hover hphase hcool
  rw [if_pos hreq] at hexec
  obtain ⟨hpower, hmon⟩ := endEmergency_active (emergencyOver s)
  exact ⟨_, hexec, hpower, hmon, rfl, ((WordsBut.refl _ s).of_regs rfl).trans (endEmergency_words (emergencyOver s)),
    endEmergency_state (emergencyOver s)⟩

theorem emergencyOver_frame (s : State) : StepFrame stepWords s (emergencyOver s) := (StepFrame.refl _ s).power _ rfl

theorem pendingState_frame (s : State) : StepFrame statusWords s (pendingState s) :=
  (StepFrame.refl _ s).fput _ _ (by decide) (by decide)

/-- From the forced step the Corod returns to the step STEP_REQ names (R188). -/
theorem thermalEmergencyExit_returns {s : State} (hemerg : s.power.emerg = true) (hover : s.power.emergOver = false)
    (hphase : s.power.phase ≠ .relock) (hlowering : s.power.phase ≠ .lowering)
    (hreq : fget s Fd.power_STEP_REQ ≠ fget s Fd.power_STEP_CUR) (hcool : CoolFor 25000000 s) :
    Runs .thermalEmergencyExit s fun t =>
      fget t Fd.power_STEP_PENDING = 1 ∧ fget t Fd.power_EMERG_ACTIVE = fget s Fd.power_EMERG_ACTIVE ∧
      t.power.target = fget s Fd.power_STEP_REQ ∧ t.power.emergOver = true ∧
      t = { s with regs := t.regs, power := t.power, refresh := t.refresh, outbox := t.outbox } := by
  have hexec := thermalEmergencyExit_exec hemerg hover hphase hcool
  rw [if_neg hreq, if_neg hlowering] at hexec
  have hframe := beginStep_frame (pendingState (emergencyOver s)) (fget s Fd.power_STEP_REQ)
  have hall := (((emergencyOver_frame s).mono (by decide)).trans (pendingState_frame (emergencyOver s))).trans
    (hframe.mono (by decide))
  refine ⟨_, hexec, ?_, ?_, beginStep_target _ _, beginStep_emergOver _ _, hall.state⟩
  · rw [hframe.fget _ (by decide) (by decide)]
    exact fget_fput_same _ Fd.power_STEP_PENDING 1 (by decide)
  · rw [hframe.fget _ (by decide) (by decide)]
    exact fget_fput_other (emergencyOver s) Fd.power_STEP_PENDING Fd.power_EMERG_ACTIVE 1 (by decide) (by decide) (by decide)

/-! ### The clock monitor -/

/-- A clock fault on the bus, and when it was last seen (R574, R597). -/
def clockFault (s : State) : State :=
  raise { s with safety := { s.safety with condLast := mapPut 0 s.safety.condLast 0x14 (now s) } } 0x14 0x002 0xF 0xF 0

/-- The state that judges the next window (R597). -/
def clockWindowEnded (s : State) : State := { s with safety := { s.safety with clockNext := s.safety.clockNext + 250 } }

/-- The running domains whose counts are out. -/
def clocksOut (s : State) (counts : List (Option Nat)) : List Nat :=
  (List.range 4).filter fun d => domainRuns s d && clockBad s d ((counts[d]?).getD (some (expectedCount s d / 100)))

theorem judgeClocks_eq (s : State) (counts : List (Option Nat)) :
    judgeClocks s counts = (clocksOut s counts).foldl (fun t _ => clockFault t) s := by
  rw [clocksOut, List.foldl_filter]
  rfl

theorem mem_clocksOut {s : State} {counts : List (Option Nat)} (hlen : counts.length = 4) {d : Nat} :
    d ∈ clocksOut s counts ↔ d < 4 ∧ domainRuns s d = true ∧ clockBad s d (counts.getD d none) = true := by
  have hcount (hd : d < 4) : (counts[d]?).getD (some (expectedCount s d / 100)) = counts.getD d none := by
    rw [List.getD_eq_getElem?_getD, List.getElem?_eq_getElem (by omega)]
    rfl
  rw [clocksOut, List.mem_filter, List.mem_range, Bool.and_eq_true]
  exact and_congr_right fun hd => by rw [hcount hd]

/-- What a fault on the bus leaves alone. -/
def ClockFrame (s t : State) : Prop := t = { s with safety := { s.safety with bus := t.safety.bus, condLast := t.safety.condLast } }

theorem clockFaults_frame (s : State) (l : List Nat) : ClockFrame s (l.foldl (fun t _ => clockFault t) s) :=
  List.foldlRecOn (motive := ClockFrame s) _ _ rfl fun u hu _ _ => by
    unfold ClockFrame at hu ⊢
    rw [hu]
    rfl

theorem clockFaults_onBus (s : State) {l : List Nat} (h : l ≠ []) : OnBus (l.foldl (fun t _ => clockFault t) s) 0x14 0x002 := by
  obtain ⟨l, d, rfl⟩ := (List.eq_nil_or_concat l).resolve_left h
  rw [List.concat_eq_append, List.foldl_append]
  exact onBus_raise _ _ _ _ _ _

theorem clockMonitorWindow_judges {counts : List (Option Nat)} {s : State} (hlen : counts.length = 4)
    (hends : s.safety.clockNext ≤ now s) (hrelock : windowRelocked s s.safety.clockNext = false) :
    Runs (.clockMonitorWindow counts) s fun t =>
      (∀ d < 4, domainRuns s d = true → clockBad s d (counts.getD d none) = true → OnBus t 0x14 0x002) ∧
      ((∀ d < 4, domainRuns s d = true → clockBad s d (counts.getD d none) = false) → t.safety.bus = s.safety.bus) ∧
      t = { s with safety := { s.safety with bus := t.safety.bus, condLast := t.safety.condLast
                                             clockNext := s.safety.clockNext + 250 } } := by
  have hmem (d : Nat) := mem_clocksOut (s := clockWindowEnded s) hlen (d := d)
  refine ⟨judgeClocks (clockWindowEnded s) counts, ?_, fun d hd hrun hbad => ?_, fun hgood => ?_, ?_⟩
  · change execClockMonitorWindow counts s = _
    unfold execClockMonitorWindow
    dsimp only
    rw [if_pos hends, if_neg (by rw [hrelock]; exact Bool.false_ne_true)]
    rfl
  · rw [judgeClocks_eq]
    exact clockFaults_onBus _ (List.ne_nil_of_mem ((hmem d).2 ⟨hd, hrun, hbad⟩))
  · have hnone : clocksOut (clockWindowEnded s) counts = [] := List.eq_nil_iff_forall_not_mem.2 fun d hd => by
      obtain ⟨hlt, hrun, hbad⟩ := (hmem d).1 hd
      have hok : clockBad (clockWindowEnded s) d (counts.getD d none) = false := hgood d hlt hrun
      rw [hok] at hbad
      exact Bool.false_ne_true hbad
    rw [judgeClocks_eq, hnone]
    rfl
  · rw [judgeClocks_eq]
    exact clockFaults_frame (clockWindowEnded s) _

theorem clockMonitorWindow_relocked {counts : List (Option Nat)} {s : State} (hends : s.safety.clockNext ≤ now s)
    (hrelock : windowRelocked s s.safety.clockNext = true) : Runs (.clockMonitorWindow counts) s fun t =>
      t = { s with safety := { s.safety with clockNext := s.safety.clockNext + 250 } } := by
  refine ⟨clockWindowEnded s, ?_, rfl⟩
  change execClockMonitorWindow counts s = _
  unfold execClockMonitorWindow
  dsimp only
  rw [if_pos hends, if_pos hrelock]
  rfl

end Sys2Proof.Machine
end

section
/-! SUPPORT. A rail outside its window, and the hold-up that the loss of VDD_AON starts (15 R598, R599; 17 R682, R683). -/

namespace Sys2Proof.Machine

/-! ### A rail outside its window -/

/-- The state that has counted and reported a rail outside its window (R598). -/
def railCounted (s : State) (rail : Nat) : State := setEvent (fadd s (Fd.mon_VOLT_FAULT_COUNT rail) 1) 0x0A0 9

/-- A rail's fault on the bus, and when it was last seen (R598). -/
def railRaised (s : State) : State :=
  raise { s with safety := { s.safety with condLast := mapPut 0 s.safety.condLast 0x16 (now s) } } 0x16 0x0A0 0xF 0xF 0

/-- VDD_CORE above 900 mV, counted and on the bus (R599). -/
def coreRaised (s : State) (rail : Nat) : State := raise (fadd s (Fd.mon_VOLT_FAULT_COUNT rail) 1) 0x17 0x0A0 0xF 0xF 0

theorem railFault_out {s : State} {rail : Fin 9} {mv : Nat} (h : railOut s rail mv = true) : railFault s rail mv =
    if rail.val == 0 && 900 < mv then coreRaised (railRaised (railCounted s rail)) rail else railRaised (railCounted s rail) := by
  unfold railFault
  dsimp only
  rw [if_pos h]
  rfl

/-- What the report of a rail's fault changes. -/
structure RailFrame (rail : Nat) (s t : State) : Prop where
  words : WordsBut ((Fd.mon_VOLT_FAULT_COUNT rail).word :: eventWords 0x0A0) s t
  state : t = { s with regs := t.regs, safety := { s.safety with bus := t.safety.bus, condLast := t.safety.condLast }, outbox := t.outbox }

theorem railCount_off_lt (rail : Fin 9) : (Fd.mon_VOLT_FAULT_COUNT rail).off < 0x1000 := by decide +revert

theorem railCounted_state (s : State) (rail : Nat) :
    railCounted s rail = { s with regs := (railCounted s rail).regs, outbox := (railCounted s rail).outbox } := by
  unfold railCounted
  rw [setEvent_state, fadd_eq]

theorem railRaised_frame (s : State) (rail : Fin 9) : RailFrame rail s (railRaised (railCounted s rail)) where
  words := (((WordsBut.refl _ s).fadd (Fd.mon_VOLT_FAULT_COUNT rail) 1 (railCount_off_lt rail) List.mem_cons_self).setEvent 0x0A0 9
    fun _ h => List.mem_cons_of_mem _ h).of_regs rfl
  state := by
    rw [railCounted_state]
    rfl

theorem RailFrame.coreRaised {rail : Fin 9} {s t : State} (h : RailFrame rail s t) : RailFrame rail s (coreRaised t rail) where
  words := (h.words.fadd (Fd.mon_VOLT_FAULT_COUNT rail) 1 (railCount_off_lt rail) List.mem_cons_self).of_regs rfl
  state := by
    unfold Machine.coreRaised
    rw [fadd_eq, h.state]
    rfl

theorem coreRaised_reported (s : State) (rail : Fin 9) : Reported s (coreRaised s rail) :=
  (fadd_reported s _ 1 (railCount_off_lt rail) (by decide +revert)).trans (raise_reported _ _ _ _ _ _)

/-- A rail that stands outside its window is counted, reported and on the bus (R598, R599). -/
theorem railFault_reports {s : State} {rail : Fin 9} {mv : Nat} (h : railOut s rail mv = true) :
    OnBus (railFault s rail mv) 0x16 0x0A0 ∧ HasEvent (railFault s rail mv) 0x0A0 9 ∧
    (rail = 0 → 900 < mv → OnBus (railFault s rail mv) 0x17 0x0A0) ∧ RailFrame rail s (railFault s rail mv) := by
  have hbus : OnBus (railRaised (railCounted s rail)) 0x16 0x0A0 := onBus_raise _ _ _ _ _ _
  have hevent : HasEvent (railRaised (railCounted s rail)) 0x0A0 9 := setEvent_hasEvent _ _ (by decide)
  have hframe := railRaised_frame s rail
  rw [railFault_out h]
  split
  · have hreported := coreRaised_reported (railRaised (railCounted s rail)) rail
    exact ⟨hreported.onBus hbus, hreported.events _ _ hevent, fun _ _ => onBus_raise _ _ _ _ _ _, hframe.coreRaised⟩
  · next hcore =>
    exact ⟨hbus, hevent, fun hrail hmv => absurd (by rw [hrail, decide_eq_true hmv]; rfl) hcore, hframe⟩

theorem voltageWindowFault_reports {rail : Fin 9} {mv : Nat} {s : State} (haon : s.boot.aon = true) (hout : railOut s rail mv = true)
    (hstays : rail ≠ 2 ∨ s.boot.powerGood = false ∨ s.boot.holdup = true) : Runs (.voltageWindowFault rail mv) s fun t =>
      OnBus t 0x16 0x0A0 ∧ HasEvent t 0x0A0 9 ∧ (rail = 0 → 900 < mv → OnBus t 0x17 0x0A0) ∧
      WordsBut ((Fd.mon_VOLT_FAULT_COUNT rail).word :: eventWords 0x0A0) s t ∧
      t = { s with regs := t.regs, safety := { s.safety with bus := t.safety.bus, condLast := t.safety.condLast }
                   outbox := t.outbox } := by
  have hno : ¬ (rail.val == 2 && railOut s rail mv && s.boot.powerGood && !s.boot.holdup) = true := by
    rw [hout]
    obtain hrail | hgood | hholdup := hstays
    · simp [show rail.val ≠ 2 from fun h => hrail (Fin.ext h)]
    · simp [hgood]
    · simp [hholdup]
  obtain ⟨hbus, hevent, hcore, hwords, hstate⟩ := railFault_reports hout
  refine ⟨railFault s rail mv, ?_, hbus, hevent, hcore, hwords, hstate⟩
  change execVoltageWindowFault rail mv s = _
  unfold execVoltageWindowFault
  rw [if_pos haon]
  dsimp only
  rw [if_neg hno]

/-! ### Hold-up -/

/-- What the flush queues is the Ledger's alone (R683, R691). -/
theorem commitChanged_state (s : State) : commitChanged s = { s with ledger := (commitChanged s).ledger } := by
  unfold commitChanged
  exact List.foldlRecOn (motive := fun u : State => u = { s with ledger := u.ledger }) _ _ rfl fun u hu k _ => by
    rw [ledgerQueue_state, hu]

theorem withLedger_commitChanged (s : State) (cls idx : Nat) (v : List Nat) (l : LedgerSt) :
    { ledgerSet (commitChanged s) cls idx v with ledger := l } = { s with ledger := l } :=
  congrArg (fun u : State => { u with ledger := l }) (commitChanged_state s)

theorem queueFlush_state (s : State) (cause : Nat) : queueFlush s cause = { s with ledger := (queueFlush s cause).ledger } := by
  unfold queueFlush
  split
  · rfl
  · exact withLedger_commitChanged s _ _ _ _

theorem fputs_state (s : State) (l : List (Fld × Nat)) : fputs s l = { s with regs := (fputs s l).regs } :=
  List.foldlRecOn (motive := fun u : State => u = { s with regs := u.regs }) _ _ rfl fun u hu x _ => by
    rw [fput_eq, hu]

/-- What hold-up leaves of memory is the MRAM (R239, R683). -/
theorem mramOnly_of_mem {s t : State} (h : t.mem = s.mem.filter fun c => inMram c.1) : MramOnly s t := fun a => by
  have hin : inMram a = true ↔ 0x30000000 ≤ a ∧ a < 0x30400000 := by simp [inMram]
  rw [memByte, memByte, h, mapGet, mapGet]
  by_cases hmram : inMram a = true
  · rw [if_pos (hin.1 hmram), mapFind_filter_of_key (p := inMram) hmram]
  · rw [if_neg (mt hin.2 hmram), mapFind_eq_none fun e he hkey => hmram (by rw [← hkey]; exact (List.mem_filter.1 he).2)]
    rfl

/-- What hold-up resets and keeps (R683). -/
theorem holdReset_holds (s : State) : (holdReset s).safety = s.safety ∧ (holdReset s).boot.holdup = true ∧
    (holdReset s).boot.ready = false ∧ (holdReset s).mem = (s.mem.filter fun c => inMram c.1) ∧ (holdReset s).letters = [] ∧
    (holdReset s).nvm = s.nvm := by
  unfold holdReset
  dsimp only
  rw [fputs_state]
  exact ⟨rfl, rfl, rfl, rfl, rfl, rfl⟩

theorem enterHoldup_holds (s : State) (cause : Nat) : (enterHoldup s cause).safety = s.safety ∧ (enterHoldup s cause).boot.holdup = true ∧
    (enterHoldup s cause).boot.ready = false ∧ (enterHoldup s cause).mem = (s.mem.filter fun c => inMram c.1) ∧
    (enterHoldup s cause).letters = [] ∧ (enterHoldup s cause).nvm = s.nvm := by
  obtain ⟨hsafety, hholdup, hready, hmem, hletters, hnvm⟩ := holdReset_holds (queueFlush s cause)
  exact ⟨hsafety.trans (by rw [queueFlush_state]), hholdup, hready, hmem.trans (by rw [queueFlush_state]), hletters,
    hnvm.trans (by rw [queueFlush_state])⟩

/-- The loss of VDD_AON starts the hold-up flush (R682, R683). -/
theorem voltageWindowFault_holdsUp {mv : Nat} {s : State} (haon : s.boot.aon = true) (hout : railOut s 2 mv = true)
    (hgood : s.boot.powerGood = true) (hholdup : s.boot.holdup = false) : Runs (.voltageWindowFault 2 mv) s fun t =>
      OnBus t 0x16 0x0A0 ∧ t.boot.holdup = true ∧ t.boot.ready = false ∧ MramOnly s t ∧ t.letters = [] ∧ t.nvm = s.nvm := by
  obtain ⟨hbus, -, -, -, hstate⟩ := railFault_reports (rail := 2) hout
  obtain ⟨hsafety, hheld, hready, hmem, hletters, hnvm⟩ := enterHoldup_holds (railFault s 2 mv) 2
  refine ⟨enterHoldup (railFault s 2 mv) 2, ?_, ?_, hheld, hready, mramOnly_of_mem ?_, hletters, ?_⟩
  · change execVoltageWindowFault 2 mv s = _
    unfold execVoltageWindowFault
    rw [if_pos haon]
    dsimp only
    rw [if_pos (by
      rw [show railOut s (2 : Fin 9).val mv = true from hout, hgood, hholdup]
      rfl)]
  · obtain ⟨f, hf, hcls⟩ := hbus
    exact ⟨f, by rw [hsafety]; exact hf, hcls⟩
  · rw [hmem, hstate]
  · rw [hnvm, hstate]

end Sys2Proof.Machine
end

section
/-! SUPPORT. A thermal sample (15 R600, R601; 04 R187; 18 R697): what it stores, what it judges and how it enters the emergency. -/

namespace Sys2Proof.Machine

/-! ### Fields of an array, stored in turn -/

/-- Each field of an array that is stored in turn holds its own value. -/
theorem fget_foldl_fput {F : Nat → Fld} {n : Nat} (hok : ∀ i < n, (F i).ok) (hapart : ∀ i < n, ∀ j < n, i ≠ j → (F i).apart (F j))
    (v : Nat → Nat) (s : State) {i : Nat} (hi : i < n) :
    fget ((List.range n).foldl (fun s i => fput s (F i) (v i)) s) (F i) = v i % (F i).card := by
  induction n with
  | zero => omega
  | succ n ih =>
    rw [List.range_succ, List.foldl_append]
    change fget (fput _ (F n) (v n)) (F i) = _
    by_cases hin : i = n
    · rw [hin]
      exact fget_fput_same _ (F n) (v n) (hok n (Nat.lt_succ_self n))
    · rw [fget_fput_other _ _ _ _ (hok n (Nat.lt_succ_self n)) (hok i hi) (hapart n (Nat.lt_succ_self n) i hi (Ne.symm hin))]
      exact ih (fun i h => hok i (by omega)) (fun i h j k => hapart i (by omega) j (by omega)) (by omega)

theorem foldl_fput_words {F : Nat → Fld} {n : Nat} (hoff : ∀ i < n, (F i).off < 0x1000) (v : Nat → Nat) (s : State) :
    WordsBut ((List.range n).map fun i => (F i).word) s ((List.range n).foldl (fun s i => fput s (F i) (v i)) s) :=
  List.foldlRecOn (motive := fun u => WordsBut ((List.range n).map fun i => (F i).word) s u) _ _ (WordsBut.refl _ s) fun _ hu i hi =>
    hu.fput (F i) (v i) (hoff i (List.mem_range.1 hi)) (List.mem_map_of_mem hi)

theorem foldl_fput_state (F : Nat → Fld) (v : Nat → Nat) (l : List Nat) (s : State) :
    l.foldl (fun s i => fput s (F i) (v i)) s = { s with regs := (l.foldl (fun s i => fput s (F i) (v i)) s).regs } :=
  List.foldlRecOn (motive := fun u : State => u = { s with regs := u.regs }) _ _ rfl fun u hu i _ => by
    rw [fput_eq, hu]

/-! ### Frames of a sample -/

/-- What a sample leaves alone: the words but those listed, the faults on the bus, and everything that it neither measures nor judges. -/
structure SampleFrame (ws : List (Nat × Nat)) (s t : State) : Prop where
  words : WordsBut ws s t
  bus : ∀ f ∈ s.safety.bus, f ∈ t.safety.bus
  state : t = { s with regs := t.regs, power := t.power, refresh := t.refresh, sched := { s.sched with tasks := t.sched.tasks }
                       safety := { s.safety with bus := t.safety.bus, condLast := t.safety.condLast }
                       ledger := t.ledger, outbox := t.outbox }

namespace SampleFrame

variable {ws : List (Nat × Nat)} {s t u : State}

theorem refl (ws : List (Nat × Nat)) (s : State) : SampleFrame ws s s := ⟨WordsBut.refl ws s, fun _ h => h, rfl⟩

theorem trans (h : SampleFrame ws s t) (k : SampleFrame ws t u) : SampleFrame ws s u :=
  ⟨h.words.trans k.words, fun f hf => k.bus f (h.bus f hf), by rw [k.state, h.state]⟩

theorem mono {vs : List (Nat × Nat)} (h : SampleFrame ws s t) (k : ∀ w ∈ ws, w ∈ vs) : SampleFrame vs s t :=
  ⟨h.words.mono k, h.bus, h.state⟩

/-- A change of registers alone. -/
theorem of_regs (hwords : WordsBut ws s t) (hstate : t = { s with regs := t.regs }) : SampleFrame ws s t :=
  ⟨hwords, fun f hf => by rw [hstate]; exact hf, by rw [hstate]⟩

theorem fput (h : SampleFrame ws s t) (f : Fld) (v : Nat) (hoff : f.off < 0x1000) (hmem : f.word ∈ ws) : SampleFrame ws s (fput t f v) :=
  h.trans (of_regs ((WordsBut.refl ws t).fput f v hoff hmem) (fput_eq t f v))

theorem setEvent (h : SampleFrame ws s t) (p b : Nat) (hmem : ∀ w ∈ eventWords p, w ∈ ws) : SampleFrame ws s (setEvent t p b) :=
  h.trans ⟨(WordsBut.refl ws t).setEvent p b hmem, fun f hf => by rw [setEvent_state]; exact hf, by rw [setEvent_state]⟩

theorem raise (h : SampleFrame ws s t) (c o k p d : Nat) : SampleFrame ws s (raise t c o k p d) :=
  h.trans ⟨(WordsBut.refl ws t).of_regs rfl, fun _ hf => List.mem_append_left _ hf, rfl⟩

theorem power (h : SampleFrame ws s t) (p : PowerSt) : SampleFrame ws s { t with power := p } :=
  h.trans ⟨(WordsBut.refl ws t).of_regs rfl, fun _ hf => hf, rfl⟩

theorem condLast (h : SampleFrame ws s t) (m : List (Nat × Nat)) :
    SampleFrame ws s { t with safety := { t.safety with condLast := m } } :=
  h.trans ⟨(WordsBut.refl ws t).of_regs rfl, fun _ hf => hf, rfl⟩

theorem ledger (h : SampleFrame ws s t) (l : LedgerSt) : SampleFrame ws s { t with ledger := l } :=
  h.trans ⟨(WordsBut.refl ws t).of_regs rfl, fun _ hf => hf, rfl⟩

theorem mapTasks (h : SampleFrame ws s t) (f : Task → Task) : SampleFrame ws s (mapTasks t f) :=
  h.trans ⟨(WordsBut.refl ws t).of_regs rfl, fun _ hf => hf, rfl⟩

theorem step (h : SampleFrame ws s t) (k : StepFrame ws t u) : SampleFrame ws s u :=
  h.trans ⟨k.words, fun f hf => by rw [k.state]; exact hf, by rw [k.state]⟩

theorem fget (h : SampleFrame ws s t) (g : Fld) (hoff : g.off < 0x1000) (hmem : g.word ∉ ws) : fget t g = fget s g :=
  h.words.fget g hoff hmem

end SampleFrame

/-- The emergency and the count of hot samples are as before. -/
def SameHeat (s t : State) : Prop := t.power.emerg = s.power.emerg ∧ t.power.hotSamples = s.power.hotSamples

theorem SameHeat.trans {s t u : State} (h : SameHeat s t) (k : SameHeat t u) : SameHeat s u := ⟨k.1.trans h.1, k.2.trans h.2⟩

theorem SameHeat.of_power {s t : State} (h : t.power = s.power) : SameHeat s t := by rw [SameHeat, h]; exact ⟨rfl, rfl⟩

/-! ### The readings -/

/-- The words of the sensor readings. -/
abbrev sensorWords : List (Nat × Nat) := (List.range 12).map fun i => (Fd.mon_SENSOR_TJ i).word

/-- The readings in their registers (R600). -/
def readingsStored (s : State) (l : List (BitVec 8)) : State :=
  (List.range 12).foldl (fun s i => fput s (Fd.mon_SENSOR_TJ i) (((l[i]?).map (·.toNat)).getD 0)) s

theorem readingsStored_sensor (s : State) (l : List (BitVec 8)) {i : Nat} (hi : i < 12) :
    fget (readingsStored s l) (Fd.mon_SENSOR_TJ i) = (l.getD i 0).toNat := by
  have hvalue : ((l[i]?).map (·.toNat)).getD 0 = (l.getD i 0).toNat := by
    rw [List.getD_eq_getElem?_getD]
    cases l[i]? <;> rfl
  rw [← hvalue]
  refine (fget_foldl_fput (F := Fd.mon_SENSOR_TJ) (by decide) (by decide) _ s hi).trans ?_
  rw [hvalue]
  exact Nat.mod_eq_of_lt (l.getD i 0).isLt

theorem readingsStored_frame (s : State) (l : List (BitVec 8)) : SampleFrame sensorWords s (readingsStored s l) :=
  .of_regs (foldl_fput_words (F := Fd.mon_SENSOR_TJ) (by decide) _ s) (foldl_fput_state Fd.mon_SENSOR_TJ _ _ s)

/-- The highest temperature that a sample has seen. -/
def peakOf (s : State) (l : List (BitVec 8)) : Int :=
  if s.power.peakSet then max (hottest l) (celsius (fget s Fd.mon_TJ_PEAK)) else hottest l

/-- The readings, the highest of them and the highest seen in their registers (R600). -/
def heatStored (s : State) (l : List (BitVec 8)) : State :=
  fput (fput (readingsStored s l) Fd.mon_TJ_NOW (ofSigned 8 (hottest l))) Fd.mon_TJ_PEAK (ofSigned 8 (peakOf (readingsStored s l) l))

theorem storeTemps_eq (s : State) (l : List (BitVec 8)) :
    storeTemps s l = { heatStored s l with power := { (heatStored s l).power with peakSet := true } } := rfl

theorem storeTemps_regs (s : State) (l : List (BitVec 8)) : (storeTemps s l).regs = (heatStored s l).regs := by rw [storeTemps_eq]

theorem heatStored_words (s : State) (l : List (BitVec 8)) : WordsBut [Fd.mon_TJ_NOW.word] (readingsStored s l) (heatStored s l) :=
  ((WordsBut.refl _ _).fput Fd.mon_TJ_NOW _ (by decide) (by decide)).fput Fd.mon_TJ_PEAK _ (by decide) (by decide)

theorem heatStored_power (s : State) (l : List (BitVec 8)) : (heatStored s l).power = s.power := by
  rw [heatStored, fput_power, fput_power, readingsStored, foldl_fput_state]

theorem storeTemps_frame (s : State) (l : List (BitVec 8)) : SampleFrame (Fd.mon_TJ_NOW.word :: sensorWords) s (storeTemps s l) :=
  ((((readingsStored_frame s l).mono (by decide)).fput Fd.mon_TJ_NOW _ (by decide) (by decide)).fput Fd.mon_TJ_PEAK _ (by decide)
    (by decide)).power _

theorem storeTemps_heat (s : State) (l : List (BitVec 8)) : SameHeat s (storeTemps s l) := by
  rw [storeTemps_eq, SameHeat, ← heatStored_power s l]
  exact ⟨rfl, rfl⟩

theorem ofSigned_lt (w : Nat) (i : Int) : ofSigned w i < 2 ^ w := by
  have hpos : (0 : Int) < (2 ^ w : Nat) := by exact_mod_cast Nat.two_pow_pos w
  have hlt := Int.emod_lt_of_pos i hpos
  have hnonneg := Int.emod_nonneg i (Int.ne_of_gt hpos)
  unfold ofSigned
  omega

theorem storeTemps_tjNow (s : State) (l : List (BitVec 8)) : fget (storeTemps s l) Fd.mon_TJ_NOW = ofSigned 8 (hottest l) := by
  rw [fget_of_regs (storeTemps_regs s l), heatStored, fget_fput_other _ _ _ _ (by decide) (by decide) (by decide),
    fget_fput_same _ _ _ (by decide)]
  exact Nat.mod_eq_of_lt (ofSigned_lt 8 _)

theorem storeTemps_sensor (s : State) (l : List (BitVec 8)) {i : Nat} (hi : i < 12) :
    fget (storeTemps s l) (Fd.mon_SENSOR_TJ i) = (l.getD i 0).toNat := by
  have happart : ∀ i < 12, (Fd.mon_SENSOR_TJ i).off < 0x1000 ∧ (Fd.mon_SENSOR_TJ i).word ∉ [Fd.mon_TJ_NOW.word] := by decide
  obtain ⟨hoff, hword⟩ := happart i hi
  rw [fget_of_regs (storeTemps_regs s l), (heatStored_words s l).fget _ hoff hword, readingsStored_sensor s l hi]

end Sys2Proof.Machine
end

section
/-! SUPPORT. What a thermal sample judges, and the entry into the thermal emergency (15 R600, R601; 04 R187, R190, R191; 18 R697). -/

namespace Sys2Proof.Machine

/-! ### The sensor pairs -/

/-- The consecutive samples in which a sensor pair has stood more than 8 °C apart (R600). -/
def pairCount (l : List (BitVec 8)) (s : State) (i : Nat) : Nat :=
  let a := celsius (((l[2 * i]?).map (·.toNat)).getD 0)
  let b := celsius (((l[2 * i + 1]?).map (·.toNat)).getD 0)
  if 8 < a - b || 8 < b - a then s.power.pairSamples.getD i 0 + 1 else 0

/-- The count of a pair, kept. -/
def pairCounted (s : State) (i n : Nat) : State := { s with power := { s.power with pairSamples := s.power.pairSamples.set i n } }

/-- When a pair was last seen at fault. -/
def pairSeen (s : State) (n : Nat) : State :=
  if 4 ≤ n then { s with safety := { s.safety with condLast := mapPut 0 s.safety.condLast 0x18 (now s) } } else s

/-- A pair's fault, counted and on the bus (R600). -/
def pairFault (s : State) : State := raise (setEvent (fadd s Fd.mon_THERM_SENSOR_COUNT 1) 0x0A0 10) 0x18 0x0A0 0xF 0xF 0

/-- The judgement of one sensor pair (R600). -/
def judgePair (l : List (BitVec 8)) (s : State) (i : Nat) : State :=
  let t := pairSeen (pairCounted s i (pairCount l s i)) (pairCount l s i)
  if pairCount l s i = 4 then pairFault t else t

theorem judgePairs_eq (s : State) (l : List (BitVec 8)) : judgePairs s l = (List.range 6).foldl (judgePair l) s := rfl

/-- The words of a pair's fault. -/
abbrev pairWords : List (Nat × Nat) := Fd.mon_THERM_SENSOR_COUNT.word :: eventWords 0x0A0

theorem pairSeen_frame (s : State) (n : Nat) : SampleFrame pairWords s (pairSeen s n) := by
  unfold pairSeen
  split
  · exact (SampleFrame.refl pairWords s).condLast _
  · exact .refl _ s

theorem pairSeen_power (s : State) (n : Nat) : (pairSeen s n).power = s.power := by
  unfold pairSeen
  split <;> rfl

theorem pairFault_frame (s : State) : SampleFrame pairWords s (pairFault s) :=
  (((SampleFrame.refl pairWords s).fput Fd.mon_THERM_SENSOR_COUNT _ (by decide) (by decide)).setEvent 0x0A0 10 (by decide)).raise _ _ _ _ _

theorem pairFault_power (s : State) : (pairFault s).power = s.power := by
  rw [pairFault, raise_power, setEvent_power, fadd_power]

theorem judgePair_frame (l : List (BitVec 8)) (s : State) (i : Nat) : SampleFrame pairWords s (judgePair l s i) := by
  have hseen := ((SampleFrame.refl pairWords s).power _).trans (pairSeen_frame (pairCounted s i (pairCount l s i)) (pairCount l s i))
  unfold judgePair
  dsimp only
  split
  · exact hseen.trans (pairFault_frame _)
  · exact hseen

theorem judgePair_heat (l : List (BitVec 8)) (s : State) (i : Nat) : SameHeat s (judgePair l s i) := by
  have hpower : (judgePair l s i).power = (pairCounted s i (pairCount l s i)).power := by
    unfold judgePair
    dsimp only
    split
    · rw [pairFault_power, pairSeen_power]
    · rw [pairSeen_power]
  rw [SameHeat, hpower]
  exact ⟨rfl, rfl⟩

theorem judgePairs_frame (s : State) (l : List (BitVec 8)) : SampleFrame pairWords s (judgePairs s l) := by
  rw [judgePairs_eq]
  exact List.foldlRecOn (motive := SampleFrame pairWords s) _ _ (.refl _ s) fun u hu i _ => hu.trans (judgePair_frame l u i)

theorem judgePairs_heat (s : State) (l : List (BitVec 8)) : SameHeat s (judgePairs s l) := by
  rw [judgePairs_eq]
  exact List.foldlRecOn (motive := SameHeat s) _ _ ⟨rfl, rfl⟩ fun u hu i _ => hu.trans (judgePair_heat l u i)

/-! ### The rails and the residency -/

/-- The words of the rail voltages. -/
abbrev railWords : List (Nat × Nat) := (List.range 9).map fun k => (Fd.mon_RAIL_MV k).word

/-- The rail voltages in their registers (R600). -/
def railsStored (s : State) (rails : List Nat) : State :=
  (List.range 9).foldl (fun t k => fput t (Fd.mon_RAIL_MV k) (rails.getD k 0)) s

theorem railsStored_rail (s : State) (rails : List Nat) {k : Nat} (hk : k < 9) :
    fget (railsStored s rails) (Fd.mon_RAIL_MV k) = rails.getD k 0 % 2 ^ 16 :=
  fget_foldl_fput (F := Fd.mon_RAIL_MV) (by decide) (by decide) _ s hk

theorem railsStored_frame (s : State) (rails : List Nat) : SampleFrame railWords s (railsStored s rails) :=
  .of_regs (foldl_fput_words (F := Fd.mon_RAIL_MV) (by decide) _ s) (foldl_fput_state Fd.mon_RAIL_MV _ _ s)

theorem railsStored_heat (s : State) (rails : List Nat) : SameHeat s (railsStored s rails) :=
  .of_power (by rw [railsStored, foldl_fput_state])

/-- Only the Ledger's values differ. -/
def LedgerOnly (s t : State) : Prop := t = { s with ledger := t.ledger }

theorem LedgerOnly.trans {s t u : State} (h : LedgerOnly s t) (k : LedgerOnly t u) : LedgerOnly s u :=
  Eq.trans k (congrArg (fun x : State => { x with ledger := u.ledger }) h)

theorem ledgerAddPt_ledgerOnly (s : State) (cls idx word pt : Nat) : LedgerOnly s (ledgerAddPt s cls idx word pt) := by
  unfold LedgerOnly ledgerAddPt
  dsimp only
  split <;> rfl

/-- The residency of the step in force, or of stopped clocks (R697). -/
def stepResidency (s : State) : State :=
  if fget s Fd.power_DOMAIN_RUN = 0 then ledgerAddPt s 0x03 1 3 250
  else if fget s Fd.power_STEP_CUR < 5 then ledgerAddPt s 0x03 0 (fget s Fd.power_STEP_CUR) 250
  else ledgerAddPt s 0x03 1 (fget s Fd.power_STEP_CUR - 5) 250

theorem stepResidency_ledgerOnly (s : State) : LedgerOnly s (stepResidency s) := by
  unfold stepResidency
  split
  · exact ledgerAddPt_ledgerOnly ..
  · split
    · exact ledgerAddPt_ledgerOnly ..
    · exact ledgerAddPt_ledgerOnly ..

theorem addResidency_eq (s : State) (tj : Int) : addResidency s tj =
    let t := stepResidency (ledgerAddPt s 0x02 (tempBin tj / 5) (tempBin tj % 5) 250)
    if t.power.emerg then ledgerAddPt t 0x03 1 4 250 else t := rfl

theorem addResidency_ledgerOnly (s : State) (tj : Int) : LedgerOnly s (addResidency s tj) := by
  have hstep := (ledgerAddPt_ledgerOnly s 0x02 (tempBin tj / 5) (tempBin tj % 5) 250).trans (stepResidency_ledgerOnly _)
  rw [addResidency_eq]
  dsimp only
  split
  · exact hstep.trans (ledgerAddPt_ledgerOnly ..)
  · exact hstep

end Sys2Proof.Machine
end

section
/-! SUPPORT. The entry into the thermal emergency, and a thermal sample whole (04 R187, R190, R191; 15 R600, R601). -/

namespace Sys2Proof.Machine

/-! ### The entry into the emergency -/

/-- EMERG_ACTIVE and its copy set, and the emergency counted (R187). -/
def emergencyCounted (s : State) : State :=
  fadd (fput (fput s Fd.power_EMERG_ACTIVE 1) Fd.mon_EMERG_ACTIVE 1) Fd.mon_THERM_EMERG_COUNT 1

/-- The emergency reported, in the Ledger and in the running tasks (R191, R696). -/
def emergencyMarked (s : State) : State := markThermal (lifeAdd (setEvent (emergencyCounted s) 0x0A0 8) 1 0)

/-- The emergency with its forced step, before the step machine takes it (R187). -/
def emergencyDeclared (s : State) : State :=
  let t := fput (emergencyMarked s) Fd.power_STEP_PENDING
    (b2n (fget (emergencyMarked s) Fd.power_STEP_REQ != max 5 (fget s Fd.power_STEP_CUR)))
  { t with power := { t.power with
      emerg := true, forced := max 5 (fget s Fd.power_STEP_CUR), emergOver := false, window := true
      coolSince := none, target := max 5 (fget s Fd.power_STEP_CUR) } }

/-- The step machine given up in favour of the forced step already in force (R187). -/
def stepAbandoned (s : State) : State := { commandMv s (curMv s) with power := { s.power with phase := .idle } }

/-- The step machine at the entry: at rest where the forced step is in force already, and else on its way there (R187). -/
def stepForced (s : State) (inForce : Bool) : State :=
  if inForce then if s.power.phase == .idle then s else stepAbandoned s else beginRelock s

theorem enterEmergency_eq (s : State) : enterEmergency s = stepForced (emergencyDeclared s)
    (max 5 (fget s Fd.power_STEP_CUR) = fget s Fd.power_STEP_CUR && (emergencyDeclared s).power.phase != .relock) := rfl

/-- The words of an emergency's entry. -/
abbrev emergencyWords : List (Nat × Nat) := Fd.mon_THERM_EMERG_COUNT.word :: statusWords ++ eventWords 0x0A0

theorem emergencyCounted_frame (s : State) : SampleFrame emergencyWords s (emergencyCounted s) :=
  (((SampleFrame.refl emergencyWords s).fput Fd.power_EMERG_ACTIVE 1 (by decide) (by decide)).fput Fd.mon_EMERG_ACTIVE 1 (by decide)
    (by decide)).fput Fd.mon_THERM_EMERG_COUNT _ (by decide) (by decide)

theorem emergencyDeclared_frame (s : State) : SampleFrame emergencyWords s (emergencyDeclared s) :=
  (((((emergencyCounted_frame s).setEvent 0x0A0 8 (by decide)).ledger _).mapTasks _).fput Fd.power_STEP_PENDING _ (by decide)
    (by decide)).power _

theorem emergencyMarked_regs (s : State) : (emergencyMarked s).regs = (setEvent (emergencyCounted s) 0x0A0 8).regs := by
  rw [emergencyMarked, markThermal, mapTasks_regs, lifeAdd, ledgerAdd_regs]

theorem emergencyMarked_fget (s : State) {g : Fld} (hl : 0x040 ≤ g.off) (hu : g.off < 0x1000) :
    fget (emergencyMarked s) g = fget (emergencyCounted s) g :=
  (fget_of_regs (emergencyMarked_regs s) g).trans (fget_setEvent _ _ _ hl hu)

theorem emergencyDeclared_fget (s : State) {g : Fld} (hg : g.ok) (hd : Fd.power_STEP_PENDING.apart g) (hl : 0x040 ≤ g.off)
    (hu : g.off < 0x1000) : fget (emergencyDeclared s) g = fget (emergencyCounted s) g := by
  have hregs : (emergencyDeclared s).regs = (fput (emergencyMarked s) Fd.power_STEP_PENDING
    (b2n (fget (emergencyMarked s) Fd.power_STEP_REQ != max 5 (fget s Fd.power_STEP_CUR)))).regs := rfl
  rw [fget_of_regs hregs, fget_fput_other _ _ _ _ (by decide) hg hd, emergencyMarked_fget s hl hu]

theorem emergencyDeclared_active (s : State) : fget (emergencyDeclared s) Fd.power_EMERG_ACTIVE = 1 := by
  rw [emergencyDeclared_fget s (by decide) (by decide) (by decide) (by decide), emergencyCounted,
    fget_fadd_other _ _ _ _ (by decide) (by decide) (by decide), fget_fput_other _ _ _ _ (by decide) (by decide) (by decide),
    fget_fput_same _ _ _ (by decide)]
  rfl

theorem emergencyDeclared_count (s : State) : fget (emergencyDeclared s) Fd.mon_THERM_EMERG_COUNT =
    (fget s Fd.mon_THERM_EMERG_COUNT + 1) % 2 ^ 32 := by
  rw [emergencyDeclared_fget s (by decide) (by decide) (by decide) (by decide), emergencyCounted, fget_fadd_same _ _ _ (by decide),
    fget_fput_other _ _ _ _ (by decide) (by decide) (by decide), fget_fput_other _ _ _ _ (by decide) (by decide) (by decide)]
  rfl

theorem emergencyDeclared_tjNow (s : State) : fget (emergencyDeclared s) Fd.mon_TJ_NOW = fget s Fd.mon_TJ_NOW := by
  rw [emergencyDeclared_fget s (by decide) (by decide) (by decide) (by decide), emergencyCounted,
    fget_fadd_other _ _ _ _ (by decide) (by decide) (by decide), fget_fput_other _ _ _ _ (by decide) (by decide) (by decide),
    fget_fput_other _ _ _ _ (by decide) (by decide) (by decide)]

theorem stepAbandoned_frame (s : State) : StepFrame stepWords s (stepAbandoned s) :=
  ((StepFrame.refl stepWords s).commandMv _ List.mem_cons_self).power _ rfl

theorem stepAbandoned_power (s : State) : (stepAbandoned s).power = { s.power with phase := .idle } := rfl

theorem beginRelock_power (s : State) : (beginRelock s).power = { s.power with phase := .relock } := rfl

theorem beginRelock_frame (s : State) : StepFrame stepWords s (beginRelock s) where
  words := ((WordsBut.refl _ s).of_regs rfl).trans ((accrue_words _).mono (by decide))
  relockEnd := rfl
  state := by
    unfold beginRelock
    rw [accrue_state]

theorem stepForced_frame (s : State) (inForce : Bool) : StepFrame stepWords s (stepForced s inForce) := by
  unfold stepForced
  split
  · split
    · exact .refl _ s
    · exact stepAbandoned_frame s
  · exact beginRelock_frame s

/-- What the step machine does at the entry changes its phase and no more of the emergency. -/
theorem stepForced_power (s : State) (inForce : Bool) :
    (stepForced s inForce).power = { s.power with phase := (stepForced s inForce).power.phase } := by
  unfold stepForced
  split
  · split
    · rfl
    · rw [stepAbandoned_power]
  · rw [beginRelock_power]

/-- The emergency is active, at CS5 or the slower step in force, and counted (R187). -/
theorem enterEmergency_enters (s : State) : fget (enterEmergency s) Fd.power_EMERG_ACTIVE = 1 ∧ (enterEmergency s).power.emerg = true ∧
    (enterEmergency s).power.target = max 5 (fget s Fd.power_STEP_CUR) ∧
    fget (enterEmergency s) Fd.mon_THERM_EMERG_COUNT = (fget s Fd.mon_THERM_EMERG_COUNT + 1) % 2 ^ 32 := by
  rw [enterEmergency_eq]
  generalize (max 5 (fget s Fd.power_STEP_CUR) = fget s Fd.power_STEP_CUR && (emergencyDeclared s).power.phase != .relock : Bool) = b
  have hframe := stepForced_frame (emergencyDeclared s) b
  have hpower := stepForced_power (emergencyDeclared s) b
  refine ⟨?_, ?_, ?_, ?_⟩
  · rw [hframe.fget _ (by decide) (by decide), emergencyDeclared_active]
  · rw [hpower]
    rfl
  · rw [hpower]
    rfl
  · rw [hframe.fget _ (by decide) (by decide), emergencyDeclared_count]

theorem enterEmergency_frame (s : State) : SampleFrame emergencyWords s (enterEmergency s) :=
  (emergencyDeclared_frame s).trans (((SampleFrame.refl stepWords _).step (stepForced_frame (emergencyDeclared s) _)).mono (by decide))

theorem enterEmergency_tjNow (s : State) : fget (enterEmergency s) Fd.mon_TJ_NOW = fget s Fd.mon_TJ_NOW := by
  rw [enterEmergency_eq, (stepForced_frame (emergencyDeclared s) _).fget _ (by decide) (by decide), emergencyDeclared_tjNow]

end Sys2Proof.Machine
end

section
/-! SUPPORT. A thermal sample whole (15 R600, R601; 04 R187). -/

namespace Sys2Proof.Machine

/-! ### What a sample stores -/

/-- A sample's readings and rail voltages in their registers, its pairs judged (R600). -/
def sampleStored (s : State) (readings : List (BitVec 8)) (rails : List Nat) : State :=
  railsStored (judgePairs (storeTemps s readings) readings) rails

/-- The words of a sample's readings, pairs and rail voltages. -/
abbrev sampleWords : List (Nat × Nat) := Fd.mon_TJ_NOW.word :: sensorWords ++ pairWords ++ railWords

section

variable (s : State) (readings : List (BitVec 8)) (rails : List Nat)

theorem sampleStored_frame : SampleFrame sampleWords s (sampleStored s readings rails) :=
  (((storeTemps_frame s readings).mono (by decide)).trans ((judgePairs_frame _ readings).mono (by decide))).trans
    ((railsStored_frame _ rails).mono (by decide))

theorem sampleStored_heat : SameHeat s (sampleStored s readings rails) :=
  ((storeTemps_heat s readings).trans (judgePairs_heat _ readings)).trans (railsStored_heat _ rails)

theorem sampleStored_fget {g : Fld} (hoff : g.off < 0x1000) (hmem : g.word ∉ pairWords ++ railWords) :
    fget (sampleStored s readings rails) g = fget (storeTemps s readings) g := by
  have hrails := (railsStored_frame (judgePairs (storeTemps s readings) readings) rails).mono (vs := pairWords ++ railWords) (by decide)
  have hpairs := (judgePairs_frame (storeTemps s readings) readings).mono (vs := pairWords ++ railWords) (by decide)
  exact (hpairs.trans hrails).fget g hoff hmem

theorem sampleStored_sensor {i : Nat} (hi : i < 12) :
    fget (sampleStored s readings rails) (Fd.mon_SENSOR_TJ i) = (readings.getD i 0).toNat := by
  have hword : ∀ i < 12, (Fd.mon_SENSOR_TJ i).off < 0x1000 ∧ (Fd.mon_SENSOR_TJ i).word ∉ pairWords ++ railWords := by decide
  obtain ⟨hoff, hmem⟩ := hword i hi
  rw [sampleStored_fget s readings rails hoff hmem, storeTemps_sensor s readings hi]

theorem sampleStored_tjNow : fget (sampleStored s readings rails) Fd.mon_TJ_NOW = ofSigned 8 (hottest readings) := by
  rw [sampleStored_fget s readings rails (by decide) (by decide), storeTemps_tjNow]

theorem sampleStored_rail {k : Nat} (hk : k < 9) :
    fget (sampleStored s readings rails) (Fd.mon_RAIL_MV k) = rails.getD k 0 % 2 ^ 16 := railsStored_rail _ rails hk

end

/-! ### What a sample judges -/

/-- The consecutive samples above 135 °C (R601). -/
def hotCount (s : State) (tj : Int) : Nat := if 135 < tj then s.power.hotSamples + 1 else 0

/-- Two samples above 135 °C raise OVER_TEMP (R601). -/
def hotJudged (s : State) (tj : Int) : State :=
  let t : State := { s with power := { s.power with hotSamples := hotCount s tj } }
  if hotCount s tj = 2 then raise t 0x19 0x0A0 0xF 0xF 0 else t

/-- A sample stored, counted in the residency and judged, before any emergency (R188, R600, R601, R697). -/
def sampleJudged (s : State) (readings : List (BitVec 8)) (rails : List Nat) : State :=
  trackCool (hotJudged (addResidency (sampleStored s readings rails) (hottest readings)) (hottest readings)) (hottest readings)

theorem takeSample_eq (s : State) (readings : List (BitVec 8)) (rails : List Nat) : takeSample s readings rails =
    if emergTj s ≤ hottest readings && (!s.power.emerg || s.power.emergOver) then enterEmergency (sampleJudged s readings rails)
    else sampleJudged s readings rails := rfl

theorem hotJudged_frame (s : State) (tj : Int) : SampleFrame [] s (hotJudged s tj) := by
  unfold hotJudged
  dsimp only
  split
  · exact ((SampleFrame.refl [] s).power _).raise ..
  · exact (SampleFrame.refl [] s).power _

theorem hotJudged_power (s : State) (tj : Int) : (hotJudged s tj).power = { s.power with hotSamples := hotCount s tj } := by
  unfold hotJudged
  dsimp only
  split <;> rfl

theorem hotJudged_onBus {s : State} {tj : Int} (htj : 135 < tj) (hhot : s.power.hotSamples = 1) : OnBus (hotJudged s tj) 0x19 0x0A0 := by
  have hcount : hotCount s tj = 2 := by rw [hotCount, if_pos htj, hhot]
  unfold hotJudged
  dsimp only
  rw [if_pos hcount]
  exact onBus_raise ..

theorem trackCool_frame (s : State) (tj : Int) : SampleFrame [] s (trackCool s tj) := (SampleFrame.refl [] s).power _

theorem addResidency_frame (s : State) (tj : Int) : SampleFrame [] s (addResidency s tj) := by
  have honly : addResidency s tj = _ := addResidency_ledgerOnly s tj
  rw [honly]
  exact (SampleFrame.refl [] s).ledger _

section

variable (s : State) (readings : List (BitVec 8)) (rails : List Nat)

/-- What follows the storing changes no register. -/
theorem sampleJudged_stored : SampleFrame [] (sampleStored s readings rails) (sampleJudged s readings rails) :=
  ((addResidency_frame _ _).trans (hotJudged_frame _ _)).trans (trackCool_frame _ _)

theorem sampleJudged_frame : SampleFrame sampleWords s (sampleJudged s readings rails) :=
  (sampleStored_frame s readings rails).trans ((sampleJudged_stored s readings rails).mono (by simp))

theorem sampleJudged_emerg : (sampleJudged s readings rails).power.emerg = s.power.emerg := by
  have honly : addResidency (sampleStored s readings rails) (hottest readings) = _ := addResidency_ledgerOnly _ _
  change (hotJudged _ _).power.emerg = _
  rw [hotJudged_power, honly]
  exact (sampleStored_heat s readings rails).1

theorem sampleJudged_onBus {s : State} {readings : List (BitVec 8)} (htj : 135 < hottest readings) (hhot : s.power.hotSamples = 1) :
    OnBus (sampleJudged s readings rails) 0x19 0x0A0 := by
  have honly : addResidency (sampleStored s readings rails) (hottest readings) = _ := addResidency_ledgerOnly _ _
  have hhot' : (addResidency (sampleStored s readings rails) (hottest readings)).power.hotSamples = 1 := by
    rw [honly]
    exact (sampleStored_heat s readings rails).2.trans hhot
  exact hotJudged_onBus htj hhot'

end

/-! ### The sample -/

/-- The state that takes a sample: the next one is due 250 pt on (R600). -/
def sampleDue (s : State) : State := { s with safety := { s.safety with sampleNext := s.safety.sampleNext + 250 } }

/-- All the words that a sample may change. -/
abbrev takeWords : List (Nat × Nat) := sampleWords ++ emergencyWords

section

variable (s : State) (readings : List (BitVec 8)) (rails : List Nat)

theorem takeSample_follows : takeSample s readings rails = sampleJudged s readings rails ∨
    takeSample s readings rails = enterEmergency (sampleJudged s readings rails) := by
  rw [takeSample_eq]
  split
  · exact .inr rfl
  · exact .inl rfl

theorem takeSample_frame : SampleFrame takeWords s (takeSample s readings rails) := by
  have hjudged := (sampleJudged_frame s readings rails).mono (vs := takeWords) fun _ h => List.mem_append_left _ h
  obtain heq | heq := takeSample_follows s readings rails
  · rw [heq]
    exact hjudged
  · rw [heq]
    exact hjudged.trans ((enterEmergency_frame _).mono (by decide))

theorem takeSample_bus : ∀ f ∈ (sampleJudged s readings rails).safety.bus, f ∈ (takeSample s readings rails).safety.bus := by
  obtain heq | heq := takeSample_follows s readings rails
  · rw [heq]
    exact fun _ h => h
  · rw [heq]
    exact (enterEmergency_frame _).bus

theorem takeSample_fget {g : Fld} (hoff : g.off < 0x1000) (hmem : g.word ∉ emergencyWords) :
    fget (takeSample s readings rails) g = fget (sampleStored s readings rails) g := by
  have hstored := (sampleJudged_stored s readings rails).fget g hoff List.not_mem_nil
  obtain heq | heq := takeSample_follows s readings rails
  · rw [heq, hstored]
  · rw [heq, (enterEmergency_frame _).fget g hoff hmem, hstored]

theorem takeSample_tjNow : fget (takeSample s readings rails) Fd.mon_TJ_NOW = ofSigned 8 (hottest readings) := by
  have hjudged : fget (sampleJudged s readings rails) Fd.mon_TJ_NOW = ofSigned 8 (hottest readings) :=
    ((sampleJudged_stored s readings rails).fget _ (by decide) List.not_mem_nil).trans (sampleStored_tjNow s readings rails)
  obtain heq | heq := takeSample_follows s readings rails
  · rw [heq, hjudged]
  · rw [heq, enterEmergency_tjNow, hjudged]

theorem takeSample_sensor {i : Nat} (hi : i < 12) :
    fget (takeSample s readings rails) (Fd.mon_SENSOR_TJ i) = (readings.getD i 0).toNat := by
  have hword : ∀ i < 12, (Fd.mon_SENSOR_TJ i).off < 0x1000 ∧ (Fd.mon_SENSOR_TJ i).word ∉ emergencyWords := by decide
  obtain ⟨hoff, hmem⟩ := hword i hi
  rw [takeSample_fget s readings rails hoff hmem, sampleStored_sensor s readings rails hi]

theorem takeSample_rail {k : Nat} (hk : k < 9) :
    fget (takeSample s readings rails) (Fd.mon_RAIL_MV k) = rails.getD k 0 % 2 ^ 16 := by
  have hword : ∀ k < 9, (Fd.mon_RAIL_MV k).off < 0x1000 ∧ (Fd.mon_RAIL_MV k).word ∉ emergencyWords := by decide
  obtain ⟨hoff, hmem⟩ := hword k hk
  rw [takeSample_fget s readings rails hoff hmem, sampleStored_rail s readings rails hk]

/-- A temperature at or above THERM_EMERG_TJ forces the emergency step (R187). -/
theorem takeSample_enters (htj : emergTj s ≤ hottest readings) (hemerg : s.power.emerg = false) :
    fget (takeSample s readings rails) Fd.power_EMERG_ACTIVE = 1 ∧ (takeSample s readings rails).power.emerg = true ∧
    (takeSample s readings rails).power.target = max 5 (fget s Fd.power_STEP_CUR) ∧
    fget (takeSample s readings rails) Fd.mon_THERM_EMERG_COUNT = (fget s Fd.mon_THERM_EMERG_COUNT + 1) % 2 ^ 32 := by
  have hjudged := sampleJudged_frame s readings rails
  rw [takeSample_eq, if_pos (by rw [decide_eq_true htj, hemerg]; rfl), ← hjudged.fget Fd.power_STEP_CUR (by decide) (by decide),
    ← hjudged.fget Fd.mon_THERM_EMERG_COUNT (by decide) (by decide)]
  exact enterEmergency_enters _

theorem takeSample_stays (htj : hottest readings < emergTj s) : (takeSample s readings rails).power.emerg = s.power.emerg := by
  rw [takeSample_eq, if_neg (by rw [decide_eq_false (not_le.2 htj)]; exact Bool.false_ne_true), sampleJudged_emerg]

end

theorem thermalSample_exec {readings : List (BitVec 8)} {rails : List Nat} {s : State} (hreadings : readings.length = 12)
    (hrails : rails.length = 9) (hpower : s.boot.powerGood = true) (hdue : s.safety.sampleNext ≤ now s ∨ s.time.clkLost = true) :
    exec (.thermalSample readings rails) s = .next (takeSample (sampleDue s) readings rails) := by
  have hdue' : (decide (s.safety.sampleNext ≤ now s) || s.time.clkLost) = true := by
    rwa [Bool.or_eq_true, decide_eq_true_eq]
  change execThermalSample readings rails s = _
  unfold execThermalSample
  rw [if_pos (by rw [hreadings, hrails, hpower, hdue']; rfl)]
  rfl

/-- A thermal sample is stored and judged, and forces the emergency step (R187, R600, R601). -/
theorem thermalSample_takes {readings : List (BitVec 8)} {rails : List Nat} {s : State} (hreadings : readings.length = 12)
    (hrails : rails.length = 9) (hpower : s.boot.powerGood = true) (hdue : s.safety.sampleNext ≤ now s ∨ s.time.clkLost = true) :
    Runs (.thermalSample readings rails) s fun t =>
      (∀ i < 12, fget t (Fd.mon_SENSOR_TJ i) = (readings.getD i 0).toNat) ∧
      (∀ k < 9, fget t (Fd.mon_RAIL_MV k) = rails.getD k 0 % 2 ^ 16) ∧
      fget t Fd.mon_TJ_NOW = ofSigned 8 (hottest readings) ∧
      (emergTj s ≤ hottest readings → s.power.emerg = false →
        fget t Fd.power_EMERG_ACTIVE = 1 ∧ t.power.emerg = true ∧ t.power.target = max 5 (fget s Fd.power_STEP_CUR) ∧
        fget t Fd.mon_THERM_EMERG_COUNT = (fget s Fd.mon_THERM_EMERG_COUNT + 1) % 2 ^ 32) ∧
      (hottest readings < emergTj s → t.power.emerg = s.power.emerg) ∧
      (135 < hottest readings → s.power.hotSamples = 1 → OnBus t 0x19 0x0A0) ∧
      t = { s with regs := t.regs, power := t.power, refresh := t.refresh, sched := { s.sched with tasks := t.sched.tasks }
                   safety := { s.safety with bus := t.safety.bus, condLast := t.safety.condLast
                                             sampleNext := s.safety.sampleNext + 250 }
                   ledger := t.ledger, outbox := t.outbox } := by
  refine ⟨_, thermalSample_exec hreadings hrails hpower hdue, fun i hi => takeSample_sensor _ _ _ hi,
    fun k hk => takeSample_rail _ _ _ hk, takeSample_tjNow _ _ _, takeSample_enters (sampleDue s) readings rails,
    takeSample_stays (sampleDue s) readings rails, fun htj hhot => ?_, (takeSample_frame (sampleDue s) readings rails).state⟩
  obtain ⟨f, hf, hcls⟩ := sampleJudged_onBus rails (s := sampleDue s) htj hhot
  exact ⟨f, takeSample_bus _ _ _ f hf, hcls⟩

/-- Settles O8: the sample, the emergency's end, the clock windows and the rails, clause by clause. -/
theorem monitorsStoreAndJudge : Obligations.MonitorsStoreAndJudge := by
  unfold Obligations.MonitorsStoreAndJudge
  exact ⟨fun _ _ _ => thermalSample_takes, fun _ => thermalEmergencyExit_ends, fun _ => thermalEmergencyExit_returns,
    fun _ _ => clockMonitorWindow_judges, fun _ _ => clockMonitorWindow_relocked, fun _ _ _ => voltageWindowFault_reports,
    fun _ _ => voltageWindowFault_holdsUp⟩

end Sys2Proof.Machine
end

section
/-! SUPPORT. Accesses that the firewall blocks do not look into device memory (06 R267-R274): each step of a blocked BAR2 access is the
same whatever the memory, its marks and the lines of the pool hold. -/

namespace Sys2Proof.Machine

/-- A state with other contents of device memory: bytes, marked words and cache lines. -/
def State.over (s : State) (mem : List Host.Cell) (ecc : List (Nat × EccSt)) (cache : List CacheLine) : State :=
  { s with mem := mem, ecc := ecc, cache := cache }

section

variable (s : State) (mem : List Host.Cell) (ecc : List (Nat × EccSt)) (cache : List CacheLine)

/-! ### What reads no memory -/

@[simp] theorem fget_over (f : Fld) : fget (s.over mem ecc cache) f = fget s f := fget_of_regs rfl f

@[simp] theorem now_over : now (s.over mem ecc cache) = now s := rfl

@[simp] theorem pendingBits_over (page : Nat) : pendingBits (s.over mem ecc cache) page = pendingBits s page := rfl

@[simp] theorem badEntry_over (k : Nat) : badEntry (s.over mem ecc cache) k = badEntry s k :=
  congrArg (fun l : List Nat => l.contains k) (rfl : (s.over mem ecc cache).parity = s.parity)

@[simp] theorem pidOfFn_over (f : Nat) : pidOfFn (s.over mem ecc cache) f = pidOfFn s f := rfl

@[simp] theorem bar2Base_over (f : Nat) : bar2Base (s.over mem ecc cache) f = bar2Base s f := rfl

@[simp] theorem rangeOf_over (a : Nat) : rangeOf (s.over mem ecc cache) a = rangeOf s a := by
  have hsize : dramBytes (s.over mem ecc cache) = dramBytes s := by rw [dramBytes, fget_over, dramBytes]
  rw [rangeOf, hsize, rangeOf]

@[simp] theorem regionAt_over (a : Nat) : regionAt (s.over mem ecc cache) a = regionAt s a := by
  unfold regionAt
  congr 1

@[simp] theorem bytePermitted_over (pid a : Nat) : bytePermitted (s.over mem ecc cache) pid a = bytePermitted s pid a := by
  unfold bytePermitted
  simp only [poolBanks, rangeOf_over, regionAt_over, fget_over, badEntry_over]

@[simp] theorem rangePermitted_over (pid a n : Nat) : rangePermitted (s.over mem ecc cache) pid a n = rangePermitted s pid a n := by
  rw [rangePermitted, rangePermitted, funext (bytePermitted_over s mem ecc cache pid)]

@[simp] theorem rangeEntries_over (a n : Nat) : rangeEntries (s.over mem ecc cache) a n = rangeEntries s a n := by
  simp only [rangeEntries, rangeOf_over, regionAt_over]

@[simp] theorem fnGone_over (f : Nat) : fnGone (s.over mem ecc cache) f = fnGone s f := rfl

@[simp] theorem dramFree_over (pid a : Nat) : dramFree (s.over mem ecc cache) pid a = dramFree s pid a := rfl

@[simp] theorem bar2Waits_over (x : HostAccess) : bar2Waits (s.over mem ecc cache) x = bar2Waits s x := by
  simp only [bar2Waits, pidOfFn_over, bar2Base_over, dramFree_over]

/-! ### Registers, messages and faults -/

theorem ite_over (c : Prop) [Decidable c] (s t : State) :
    (if c then s else t).over mem ecc cache = if c then s.over mem ecc cache else t.over mem ecc cache :=
  apply_ite (fun u : State => u.over mem ecc cache) c s t

@[simp] theorem fput_over (f : Fld) (v : Nat) : fput (s.over mem ecc cache) f v = (fput s f v).over mem ecc cache := rfl

@[simp] theorem fadd_over (f : Fld) (k : Nat) : fadd (s.over mem ecc cache) f k = (fadd s f k).over mem ecc cache := rfl

@[simp] theorem send_over (m : Out) : send (s.over mem ecc cache) m = (send s m).over mem ecc cache := rfl

@[simp] theorem raise_over (cls source sclass pid detail : Nat) :
    raise (s.over mem ecc cache) cls source sclass pid detail = (raise s cls source sclass pid detail).over mem ecc cache := rfl

@[simp] theorem poisonCompletion_over (f n : Nat) :
    poisonCompletion (s.over mem ecc cache) f n = (poisonCompletion s f n).over mem ecc cache := rfl

@[simp] theorem pageIrq_over (page : Nat) : pageIrq (s.over mem ecc cache) page = (pageIrq s page).over mem ecc cache := by
  have hgone : ∀ f, ((s.over mem ecc cache).lostFns.contains f || !(s.over mem ecc cache).pins.linkUp) =
      (s.lostFns.contains f || !s.pins.linkUp) := fun _ => rfl
  have howner : ∀ p, ownerFn (s.over mem ecc cache) p = ownerFn s p := fun _ => rfl
  simp only [pageIrq, sendMsix, fget_over, hgone, howner, send_over, ite_over]

/-- What the set of an EVENT bit stores before it sends the page interrupt (R727). -/
def eventStored (s : State) (page b : Nat) : State :=
  let s := fput s (Fd.hdr_EVENT page) (fget s (Fd.hdr_EVENT page) ||| 2 ^ b)
  let s := fadd s (Fd.hdr_EVENT_COUNT page) 1
  let s := fput s (Fd.hdr_LAST_EVENT_PM_LO page) (now s % 2 ^ 32)
  fput s (Fd.hdr_LAST_EVENT_PM_HI page) (now s / 2 ^ 32)

theorem setEvent_eq (page b : Nat) : setEvent s page b =
    if pendingBits s page = 0 && pendingBits (eventStored s page b) page != 0 then pageIrq (eventStored s page b) page
    else eventStored s page b := rfl

theorem eventStored_over (page b : Nat) :
    eventStored (s.over mem ecc cache) page b = (eventStored s page b).over mem ecc cache := by
  simp only [eventStored, fget_over, now_over, fput_over, fadd_over]

@[simp] theorem setEvent_over (page b : Nat) : setEvent (s.over mem ecc cache) page b = (setEvent s page b).over mem ecc cache := by
  rw [setEvent_eq, setEvent_eq, eventStored_over, pendingBits_over, pendingBits_over, pageIrq_over, ite_over]

@[simp] theorem errUncorr_over (page : Nat) : errUncorr (s.over mem ecc cache) page = (errUncorr s page).over mem ecc cache := by
  simp only [errUncorr, fadd_over, setEvent_over]

theorem countParity_over (ks : List Nat) :
    ks.foldl (fun u k => errUncorr u (entryPage k)) (s.over mem ecc cache) =
      (ks.foldl (fun u k => errUncorr u (entryPage k)) s).over mem ecc cache := by
  induction ks generalizing s with
  | nil => rfl
  | cons k ks ih => rw [List.foldl_cons, List.foldl_cons, errUncorr_over, ih]

@[simp] theorem noteParity_over (ks : List Nat) : noteParity (s.over mem ecc cache) ks = (noteParity s ks).over mem ecc cache := by
  have hbad : badEntry (s.over mem ecc cache) = badEntry s := rfl
  rw [noteParity, noteParity, hbad, countParity_over]

@[simp] theorem blockedAccess_over (pid : Option Nat) (sclass : Nat) (write : Bool) :
    blockedAccess (s.over mem ecc cache) pid sclass write = (blockedAccess s pid sclass write).over mem ecc cache := by
  cases pid with
  | none => rfl
  | some p => simp only [blockedAccess, fadd_over, setEvent_over, raise_over]

end

/-! ### Blocked BAR2 accesses -/

theorem devRead_of_blocked {s : State} {pid a n : Nat} (hn : 0 < n) (h : rangePermitted s pid a n = false) (sclass : Nat) :
    devRead s pid a n sclass =
      (blockedAccess (noteParity s (rangeEntries s a n)) (some pid) sclass false, List.replicate n 0, .blocked) := by
  unfold devRead
  rw [if_neg hn.ne', h]
  rfl

theorem devWrite_of_blocked {s : State} {pid a : Nat} {bs : List Byte} (hbs : bs ≠ [])
    (h : rangePermitted s pid a bs.length = false) (sclass : Nat) :
    devWrite s pid a bs sclass =
      (blockedAccess (noteParity s (rangeEntries s a bs.length)) (some pid) sclass true, .blocked) := by
  unfold devWrite
  rw [if_neg (by simpa using hbs), h]
  rfl

/-- Every partition that a function's access could be made for is refused the bytes (R268). -/
def Bar2Blocked (s : State) (f a n : Nat) : Prop := ∀ p, pidOfFn s f = some p → rangePermitted s p a n = false

/-- What a blocked BAR2 access counts and reports: for the function's partition, or for a function without one (R270, R272, R274). -/
def bar2BlockedAt (s : State) (f a n : Nat) (write : Bool) : State :=
  match pidOfFn s f with
  | none => blockedAccess (noteParity s [96 + f]) none 0xF write
  | some p => blockedAccess (noteParity s (rangeEntries s a n)) (some p) 0xF write

theorem bar2Read_of_blocked {s : State} {f off len : Nat} (hlen : 0 < len) (h : Bar2Blocked s f (bar2Base s f + off) len) :
    bar2Read s f off len = poisonCompletion (bar2BlockedAt s f (bar2Base s f + off) len false) f len := by
  unfold bar2Read bar2BlockedAt
  cases hp : pidOfFn s f with
  | none => rfl
  | some p => simp only [pidRead, devRead_of_blocked hlen (h p hp), if_true]

theorem bar2Write_of_blocked {s : State} {f off : Nat} {data : List Byte} (hdata : data ≠ [])
    (h : Bar2Blocked s f (bar2Base s f + off) data.length) :
    bar2Write s f off data = bar2BlockedAt s f (bar2Base s f + off) data.length true := by
  unfold bar2Write bar2BlockedAt
  cases hp : pidOfFn s f with
  | none => rfl
  | some p => simp only [pidWrite, devWrite_of_blocked hdata (h p hp), if_true]

section

variable {s : State} (mem : List Host.Cell) (ecc : List (Nat × EccSt)) (cache : List CacheLine)

theorem bar2BlockedAt_over (f a n : Nat) (write : Bool) :
    bar2BlockedAt (s.over mem ecc cache) f a n write = (bar2BlockedAt s f a n write).over mem ecc cache := by
  simp only [bar2BlockedAt, pidOfFn_over, rangeEntries_over, noteParity_over, blockedAccess_over]
  split <;> rfl

theorem Bar2Blocked.over {f a n : Nat} (h : Bar2Blocked s f a n) : Bar2Blocked (s.over mem ecc cache) f a n := fun p hp => by
  rw [rangePermitted_over]
  exact h p hp

theorem bar2Read_over {f off len : Nat} (hlen : 0 < len) (h : Bar2Blocked s f (bar2Base s f + off) len) :
    bar2Read (s.over mem ecc cache) f off len = (bar2Read s f off len).over mem ecc cache := by
  rw [bar2Read_of_blocked hlen h, bar2Read_of_blocked hlen (h.over mem ecc cache), bar2Base_over, bar2BlockedAt_over,
    poisonCompletion_over]

theorem bar2Write_over {f off : Nat} {data : List Byte} (hdata : data ≠ []) (h : Bar2Blocked s f (bar2Base s f + off) data.length) :
    bar2Write (s.over mem ecc cache) f off data = (bar2Write s f off data).over mem ecc cache := by
  rw [bar2Write_of_blocked hdata h, bar2Write_of_blocked hdata (h.over mem ecc cache), bar2Base_over, bar2BlockedAt_over]

/-- Whether an access is dropped, waits or is made does not depend on memory (R248, R680). -/
theorem bar2Arrive_over {x : HostAccess} (h : bar2Access (s.over mem ecc cache) x = (bar2Access s x).over mem ecc cache) :
    bar2Arrive (s.over mem ecc cache) x = (bar2Arrive s x).over mem ecc cache := by
  have hqueue : (s.over mem ecc cache).bar2 = s.bar2 := rfl
  simp only [bar2Arrive, fnGone_over, bar2Waits_over, hqueue, h]
  split
  · rfl
  · split <;> rfl

end

/-- Settles O10: the firewall, the counts and reports of a blocked access and its poisoned completion are each the same over every
memory. -/
theorem blockedBar2AccessesTellNothingOfMemory : Obligations.BlockedBar2AccessesTellNothingOfMemory := by
  intro f off len data s t mem ecc cache hblocked hlen hdata
  have hread : Bar2Blocked s f (bar2Base s f + off.toNat) len := fun p hp => (hblocked p hp).1
  have hwrite : Bar2Blocked s f (bar2Base s f + off.toNat) data.length := fun p hp => (hblocked p hp).2
  constructor
  · intro ht
    obtain rfl := Host.Outcome.next.inj ht
    exact congrArg Host.Outcome.next (bar2Arrive_over mem ecc cache (bar2Read_over mem ecc cache hlen hread))
  · intro ht
    obtain rfl := Host.Outcome.next.inj ht
    exact congrArg Host.Outcome.next (bar2Arrive_over mem ecc cache (bar2Write_over mem ecc cache hdata hwrite))

end Sys2Proof.Machine
end

section
/-! SUPPORT. Why a write through the Beam cache's pool need not be seen through it afterwards (06 R251, R252). Lines that are whole (`LinesWhole`)
may stand in a set that is not their address's, and two partitions may hold a line of one address in one way of one set. A write that
takes that way writes both back, the older one last, and its stale bytes cover what has just been written. -/

namespace Sys2Proof.Machine

/-! ### Two lines of one address in one way (O9) -/

/-- The way that every fill of PID 1 takes (R251). -/
def soleWay : Nat := 2

/-- The set of the second line of LPDDR5X in a pool of one bank: line 2^24 + 1 modulo 768 (R250). -/
def secondSet : Nat := (dramBase / 256 + 1) % 768

/-- The first line of LPDDR5X as a partition holds it, every byte one value, in the set and way that its neighbour takes next. -/
def misplacedLine (pid : Nat) (b : Byte) (dirty : Bool) : CacheLine :=
  ⟨secondSet, soleWay, pid, dramBase, List.replicate 256 b, [], [], dirty⟩

/-- A Corod whose pool of one bank serves PID 1, a Loose partition of function 1 that owns the first region of LPDDR5X; behind PID 1's line
the pool holds a dirty one of PID 2 in the same way, for the same address. -/
def misplacedLines : State :=
  { fputs State.reset [(Fd.part_REGIME 1, 2), (Fd.part_CACHE_WAYS 1, 2 ^ soleWay), (Fd.part_CACHE_BANKS 0, 1), (Fd.part_VF_MASK 1, 1),
      (Fd.region_OWNED 0, 1), (Fd.region_REGION_OWNER 0, 1), (Fd.region_REGION_SIZE 0, 1), (Fd.dev_BAR2_BASE_HI 1, 1)] with
    pins := { State.reset.pins with linkUp := true }
    cache := [misplacedLine 1 0 false, misplacedLine 2 9 true] }

theorem misplacedLines_canonical : Canonical misplacedLines where
  mem := mapWf_nil 0
  host := mapWf_nil 0
  regs := by decide +kernel
  ecc := .nil

theorem misplacedLines_whole : LinesWhole misplacedLines := by
  unfold LinesWhole
  decide +kernel

/-- Function 1 writes the last byte of the first line and the first byte of the second: the fill of the second line evicts both lines of
the first, and PID 2's 9 stands where PID 1 has just written 1. -/
theorem bar2Write_misplacedLines :
    viewFor (bar2Write misplacedLines 1 0xFF [1, 2]) 1 (bar2Base misplacedLines 1 + 0xFF) 2 = [9, 2] := by
  decide +kernel

/-- Refutes O9: its clause on a write through the pool claims of every state with whole lines that the write is seen through the pool.
At `misplacedLines` a write that crosses a line is not: the statement lacks the premise that lines stand in the set of their address. -/
theorem not_bar2AccessesPassOrAreBlocked : ¬ Obligations.Bar2AccessesPassOrAreBlocked := by
  unfold Obligations.Bar2AccessesPassOrAreBlocked
  rintro ⟨-, -, -, hpool, -⟩
  have hfree : bar2Waits misplacedLines ⟨1, 0xFF, 2, some [1, 2]⟩ = false := by decide +kernel
  obtain ⟨t, hexec, hview, -⟩ := hpool 1 0xFF [1, 2] 1 misplacedLines misplacedLines_canonical misplacedLines_whole rfl
    List.not_mem_nil (by decide +kernel) (by decide +kernel) (by decide +kernel) rfl hfree
  have harrive : exec (.bar2Write 1 0xFF [1, 2]) misplacedLines = .next (bar2Write misplacedLines 1 0xFF [1, 2]) := by
    change Host.Outcome.next (bar2Arrive misplacedLines ⟨1, 0xFF, 2, some [1, 2]⟩) = _
    unfold bar2Arrive
    rw [hfree]
    rfl
  obtain rfl := Host.Outcome.next.inj (hexec.symm.trans harrive)
  exact absurd (hview.symm.trans bar2Write_misplacedLines) (by decide)

end Sys2Proof.Machine
end

section
/-! SUPPORT. What a corrected or uncorrectable word counts (06 R226-R228, R233), word by word, and the scrubber of the SRAM arrays and of the
pool's lines (06 R227, R228, R250). -/

namespace Sys2Proof.Machine

/-! ### Counts of one word -/

theorem errCorr_words (s : State) (p : Nat) : WordsBut ((Fd.hdr_ERR_CORR_COUNT p).word :: eventWords p) s (errCorr s p) :=
  ((WordsBut.refl _ s).fadd _ 1 (show (0x020 : Nat) < 0x1000 by decide) List.mem_cons_self).setEvent p 2
    fun _ h => List.mem_cons_of_mem _ h

theorem errUncorr_words (s : State) (p : Nat) : WordsBut ((Fd.hdr_ERR_UNCORR_COUNT p).word :: eventWords p) s (errUncorr s p) :=
  ((WordsBut.refl _ s).fadd _ 1 (show (0x024 : Nat) < 0x1000 by decide) List.mem_cons_self).setEvent p 3
    fun _ h => List.mem_cons_of_mem _ h

theorem errCorr_count (s : State) (p : Nat) :
    fget (errCorr s p) (Fd.hdr_ERR_CORR_COUNT p) = (fget s (Fd.hdr_ERR_CORR_COUNT p) + 1) % 2 ^ 32 :=
  (((WordsBut.refl (eventWords p) _).setEvent p 2 fun _ h => h).fget (Fd.hdr_ERR_CORR_COUNT p) (show (0x020 : Nat) < 0x1000 by decide)
    (by simp [Fd.hdr_ERR_CORR_COUNT])).trans (fget_fadd_same s (Fd.hdr_ERR_CORR_COUNT p) 1 ⟨Nat.zero_le _, show (31 : Nat) < 32 by decide⟩)

theorem errUncorr_count (s : State) (p : Nat) :
    fget (errUncorr s p) (Fd.hdr_ERR_UNCORR_COUNT p) = (fget s (Fd.hdr_ERR_UNCORR_COUNT p) + 1) % 2 ^ 32 :=
  (((WordsBut.refl (eventWords p) _).setEvent p 3 fun _ h => h).fget (Fd.hdr_ERR_UNCORR_COUNT p) (show (0x024 : Nat) < 0x1000 by decide)
    (by simp [Fd.hdr_ERR_UNCORR_COUNT])).trans (fget_fadd_same s (Fd.hdr_ERR_UNCORR_COUNT p) 1 ⟨Nat.zero_le _, show (31 : Nat) < 32 by decide⟩)

/-- The counter of its own that an LPDDR5X channel keeps (R233). -/
def channelWords (r : MapRange) (g : Nat → Fld) : List (Nat × Nat) :=
  match r with
  | .dram c => [(g c).word]
  | _ => []

/-- The words that a corrected word of a range may change (R226, R233). -/
abbrev corrWords (r : MapRange) : List (Nat × Nat) :=
  (Fd.hdr_ERR_CORR_COUNT (rangePage r)).word :: eventWords (rangePage r) ++ channelWords r Fd.dramCnt_CORR

/-- The words that an uncorrectable word of a range may change (R228, R233). -/
abbrev uncorrWords (r : MapRange) : List (Nat × Nat) :=
  (Fd.hdr_ERR_UNCORR_COUNT (rangePage r)).word :: eventWords (rangePage r) ++ channelWords r Fd.dramCnt_UNCORR

/-- No LPDDR5X: nothing but the header of the page counts. -/
def MapRange.sram (r : MapRange) : Prop := ∀ c, r ≠ .dram c

theorem MapRange.sram.channelWords {r : MapRange} (hr : r.sram) (g : Nat → Fld) : channelWords r g = [] := by
  cases r with
  | dram c => exact absurd rfl (hr c)
  | _ => rfl

theorem countCorr_regs (s : State) {r : MapRange} (hr : r.sram) : (countCorr s r).regs = (errCorr s (rangePage r)).regs := by
  cases r with
  | dram c => exact absurd rfl (hr c)
  | _ => simp only [countCorr, ledgerAdd_regs]

theorem countUncorr_regs (s : State) {r : MapRange} (hr : r.sram) (sclass pid : Nat) :
    (countUncorr s r sclass pid).regs = (errUncorr s (rangePage r)).regs := by
  cases r with
  | dram c => exact absurd rfl (hr c)
  | _ => simp only [countUncorr, raise_regs, ledgerAdd_regs]

theorem countCorr_words (s : State) {r : MapRange} (hr : r.channelOk) : WordsBut (corrWords r) s (countCorr s r) := by
  have herr : WordsBut (corrWords r) s (errCorr s (rangePage r)) :=
    (errCorr_words s (rangePage r)).mono fun _ h => List.mem_append_left _ h
  cases r with
  | dram c =>
    have hc := hr c rfl
    exact (herr.fadd (Fd.dramCnt_CORR c) 1 (show 0x040 + 0x20 * c < 0x1000 by omega)
      (List.mem_append_right _ List.mem_cons_self)).of_regs (by simp only [countCorr, ledgerAdd_regs])
  | _ => exact herr.of_regs (by simp only [countCorr, ledgerAdd_regs])

theorem countUncorr_words (s : State) {r : MapRange} (hr : r.channelOk) (sclass pid : Nat) :
    WordsBut (uncorrWords r) s (countUncorr s r sclass pid) := by
  have herr : WordsBut (uncorrWords r) s (errUncorr s (rangePage r)) :=
    (errUncorr_words s (rangePage r)).mono fun _ h => List.mem_append_left _ h
  cases r with
  | dram c =>
    have hc := hr c rfl
    exact (herr.fadd (Fd.dramCnt_UNCORR c) 1 (show 0x044 + 0x20 * c < 0x1000 by omega)
      (List.mem_append_right _ List.mem_cons_self)).of_regs (by simp only [countUncorr, raise_regs, ledgerAdd_regs])
  | _ => exact herr.of_regs (by simp only [countUncorr, raise_regs, ledgerAdd_regs])

theorem countCorr_count (s : State) {r : MapRange} (hr : r.sram) :
    fget (countCorr s r) (Fd.hdr_ERR_CORR_COUNT (rangePage r)) = (fget s (Fd.hdr_ERR_CORR_COUNT (rangePage r)) + 1) % 2 ^ 32 :=
  (fget_of_regs (countCorr_regs s hr) _).trans (errCorr_count s _)

theorem countUncorr_count (s : State) {r : MapRange} (hr : r.sram) (sclass pid : Nat) :
    fget (countUncorr s r sclass pid) (Fd.hdr_ERR_UNCORR_COUNT (rangePage r)) =
      (fget s (Fd.hdr_ERR_UNCORR_COUNT (rangePage r)) + 1) % 2 ^ 32 :=
  (fget_of_regs (countUncorr_regs s hr sclass pid) _).trans (errUncorr_count s _)

/-- A corrected word changes no mark and reports no fault (R226). -/
theorem countCorr_state (s : State) (r : MapRange) : countCorr s r = { s with
    regs := (countCorr s r).regs, ledger := (countCorr s r).ledger, outbox := (countCorr s r).outbox
    safety := { s.safety with corr := (countCorr s r).safety.corr } } := by
  have hmarks : countCorr s r = _ := countCorr_marks s r
  have hecc : (countCorr s r).ecc = s.ecc := by cases r <;> simp [countCorr]
  have hbus : (countCorr s r).safety.bus = s.safety.bus := by cases r <;> simp [countCorr]
  rw [hecc, hbus] at hmarks
  exact hmarks

/-- An uncorrectable word changes no mark and counts nothing towards the window of corrected errors (R228, R578). -/
theorem countUncorr_state (s : State) (r : MapRange) (sclass pid : Nat) : countUncorr s r sclass pid = { s with
    regs := (countUncorr s r sclass pid).regs, ledger := (countUncorr s r sclass pid).ledger
    outbox := (countUncorr s r sclass pid).outbox
    safety := { s.safety with bus := (countUncorr s r sclass pid).safety.bus } } := by
  have hmarks : countUncorr s r sclass pid = _ := countUncorr_marks s r sclass pid
  have hecc : (countUncorr s r sclass pid).ecc = s.ecc := by cases r <;> simp [countUncorr]
  have hcorr : (countUncorr s r sclass pid).safety.corr = s.safety.corr := by cases r <;> simp [countUncorr, raise, raiseWith]
  rw [hecc, hcorr] at hmarks
  exact hmarks

theorem countUncorr_onBus (s : State) (r : MapRange) (sclass pid : Nat) : OnBus (countUncorr s r sclass pid) 0x01 (rangePage r) :=
  ⟨_, List.mem_append_right _ List.mem_cons_self, rfl, rfl⟩

/-! ### Where an array's words stand -/

/-- The page that counts an array's errors: the Beam store's, a Truss engine's, a joiner pair's (R731). -/
def scrubPage : ScrubArray → Nat
  | .beam _ => 0x084
  | .mortise t => 0x010 + t
  | .store c => 0x040 + c / 2

theorem dramBytes_le (s : State) : dramBytes s ≤ 30064771072 := by
  have hcap : fget s Fd.dram_CAPACITY < 2 ^ 2 := fget_lt_card s Fd.dram_CAPACITY
  unfold dramBytes
  generalize fget s Fd.dram_CAPACITY = k at hcap
  interval_cases k <;> norm_num

theorem not_between {lo hi a : Nat} (h : a < lo ∨ hi ≤ a) : ¬ (decide (lo ≤ a) && decide (a < hi)) = true := by
  rw [Bool.and_eq_true, decide_eq_true_eq, decide_eq_true_eq]
  omega

theorem between {lo hi a : Nat} (hlo : lo ≤ a) (hhi : a < hi) : (decide (lo ≤ a) && decide (a < hi)) = true := by
  rw [decide_eq_true hlo, decide_eq_true hhi]
  rfl

/-- A logical bank, and the words above it up to the Mortises, stand outside LPDDR5X. -/
theorem rangeOf_below (s : State) {a : Nat} (ha : a < 0x10000000) : (rangeOf s a).sram ∧ rangePage (rangeOf s a) = 0x084 := by
  unfold rangeOf dramBase spareBase
  split
  · exact ⟨nofun, rfl⟩
  · rw [if_neg (not_between (by omega)), if_neg (not_between (by omega)), if_neg (not_between (by omega)),
      if_neg (not_between (by omega)), if_neg (not_between (by omega))]
    exact ⟨nofun, rfl⟩

theorem rangeOf_spare (s : State) {a : Nat} (ha : spareBase ≤ a) : (rangeOf s a).sram ∧ rangePage (rangeOf s a) = 0x084 := by
  have hbytes := dramBytes_le s
  unfold spareBase at ha
  unfold rangeOf dramBase
  rw [if_neg (by omega), if_neg (not_between (by omega)), if_neg (not_between (by omega)), if_neg (not_between (by omega)),
    if_neg (not_between (by omega))]
  split
  · exact ⟨nofun, rfl⟩
  · exact ⟨nofun, rfl⟩

theorem rangeOf_mortise (s : State) {t i : Nat} (ht : t < 9) (hi : i < 0x800000) :
    rangeOf s (0x10000000 + t * 0x800000 + i) = .mortise t := by
  unfold rangeOf
  rw [if_neg (by omega), if_pos (between (by omega) (by omega))]
  congr 1
  omega

theorem rangeOf_store (s : State) {c i : Nat} (hc : c < 34) (hi : i < 0x40000) :
    rangeOf s (0x20000000 + c * 0x40000 + i) = .store c := by
  unfold rangeOf
  rw [if_neg (by omega), if_neg (not_between (by omega)), if_pos (between (by omega) (by omega))]
  congr 1
  omega

/-- The bytes of an array stand in no LPDDR5X, and one page counts their errors. -/
theorem rangeOf_scrubBase (s : State) (array : ScrubArray) {i : Nat} (hi : i < 8 * scrubWords array) :
    (rangeOf s (scrubBase s array + i)).sram ∧ rangePage (rangeOf s (scrubBase s array + i)) = scrubPage array := by
  cases array with
  | beam b =>
    have hl : fget s (Fd.beam_LOGICAL b) < 2 ^ 6 := fget_lt_card s (Fd.beam_LOGICAL b)
    change i < 8 * 393216 at hi
    unfold scrubBase
    dsimp only
    split
    · exact rangeOf_spare s (by omega)
    · refine rangeOf_below s ?_
      unfold bankBytes
      omega
  | mortise t =>
    change i < 8 * 1048576 at hi
    change (rangeOf s (0x10000000 + t.val * 0x800000 + i)).sram ∧ _
    rw [show scrubBase s (.mortise t) + i = 0x10000000 + t.val * 0x800000 + i from rfl, rangeOf_mortise s t.isLt (by omega)]
    exact ⟨nofun, rfl⟩
  | store c =>
    change i < 8 * 32768 at hi
    change (rangeOf s (0x20000000 + c.val * 0x40000 + i)).sram ∧ _
    rw [show scrubBase s (.store c) + i = 0x20000000 + c.val * 0x40000 + i from rfl, rangeOf_store s c.isLt (by omega)]
    exact ⟨nofun, rfl⟩

theorem scrubBase_dvd (s : State) (array : ScrubArray) : 8 ∣ scrubBase s array := by
  cases array with
  | beam b =>
    unfold scrubBase spareBase bankBytes
    dsimp only
    split <;> omega
  | mortise t => exact (show 8 ∣ 0x10000000 + t.val * 0x800000 by omega)
  | store c => exact (show 8 ∣ 0x20000000 + c.val * 0x40000 by omega)

/-! ### A scrub cycle -/

/-- The position at which the scrubber of an array stands. -/
abbrev scrubPos (s : State) (array : ScrubArray) : Nat := mapGet 0 s.scrub (scrubKey array)

/-- The address of the word that the scrubber of an array reads next (R227). -/
abbrev scrubAddr (s : State) (array : ScrubArray) : Nat := scrubBase s array + 8 * scrubPos s array

/-- The scrubber moves on to the next word, and a Beam bank counts its whole passes (R227). -/
def scrubbed (s : State) (array : ScrubArray) (pos : Nat) : State :=
  let t := { s with scrub := mapPut 0 s.scrub (scrubKey array) (if pos + 1 == scrubWords array then 0 else pos + 1) }
  match array with
  | .beam _ => if pos + 1 == scrubWords array then fadd t Fd.beam_SCRUB_PASS_COUNT 1 else t
  | _ => t

theorem scrubbed_words (s : State) (array : ScrubArray) (pos : Nat) :
    WordsBut [Fd.beam_SCRUB_PASS_COUNT.word] s (scrubbed s array pos) := by
  have hmove : ∀ m, WordsBut [Fd.beam_SCRUB_PASS_COUNT.word] s { s with scrub := m } := fun _ => (WordsBut.refl _ s).of_regs rfl
  cases array with
  | beam b =>
    unfold scrubbed
    dsimp only
    split
    · exact (hmove _).fadd _ _ (by decide) List.mem_cons_self
    · exact hmove _
  | _ => exact hmove _

theorem scrubbed_state (s : State) (array : ScrubArray) (pos : Nat) : scrubbed s array pos =
    { s with regs := (scrubbed s array pos).regs, scrub := (scrubbed s array pos).scrub } := by
  unfold scrubbed
  cases array with
  | beam b => dsimp only; split <;> rfl
  | _ => rfl

theorem scrubbed_pos (s : State) (array : ScrubArray) {pos : Nat} (h : pos < scrubWords array) :
    scrubPos (scrubbed s array pos) array = (pos + 1) % scrubWords array := by
  have hscrub : (scrubbed s array pos).scrub =
      mapPut 0 s.scrub (scrubKey array) (if pos + 1 == scrubWords array then 0 else pos + 1) := by
    unfold scrubbed
    cases array with
    | beam b => dsimp only; split <;> rfl
    | _ => rfl
  rw [scrubPos, hscrub, mapGet_mapPut_same]
  by_cases hlast : pos + 1 = scrubWords array
  · simp [hlast]
  · rw [if_neg (by simpa using hlast), Nat.mod_eq_of_lt (by omega)]

theorem scrubCycle_word {s : State} {array : ScrubArray} (h : scrubbedPool s array = none) : exec (.scrubCycle array) s =
    .next (scrubbed (scrubWord s array (scrubBase s array / 8 + scrubPos s array)) array (scrubPos s array)) := by
  change execScrubCycle array s = _
  unfold execScrubCycle
  rw [h]
  cases array <;> rfl

theorem scrubCycle_pool {s : State} {array : ScrubArray} {n : Nat} (h : scrubbedPool s array = some n) : exec (.scrubCycle array) s =
    .next (scrubbed (scrubPool s array n (scrubPos s array)) array (scrubPos s array)) := by
  change execScrubCycle array s = _
  unfold execScrubCycle
  rw [h]
  cases array <;> rfl

theorem countScrub_words (s : State) (array : ScrubArray) : WordsBut [Fd.beam_SCRUB_CORR_COUNT.word] s (countScrub s array) := by
  cases array with
  | beam b => exact ((WordsBut.refl _ s).of_regs rfl).fadd _ _ (by decide) List.mem_cons_self
  | _ => exact (WordsBut.refl _ s).of_regs rfl

theorem countScrub_state (s : State) (array : ScrubArray) : countScrub s array =
    { s with regs := (countScrub s array).regs, ledger := (countScrub s array).ledger } := by
  cases array <;> rfl

theorem countScrub_count (s : State) (b : Fin 34) : fget (countScrub s (.beam b)) Fd.beam_SCRUB_CORR_COUNT =
    (fget s Fd.beam_SCRUB_CORR_COUNT + 1) % 2 ^ 32 :=
  fget_fadd_same (ledgerAdd s 0x04 (scrubKey (.beam b)) 4 1) Fd.beam_SCRUB_CORR_COUNT 1 (by decide)

/-! ### The clauses on scrubbing -/

section

variable {s : State} {array : ScrubArray}

theorem scrubAddr_word (s : State) (array : ScrubArray) : (scrubBase s array / 8 + scrubPos s array) * 8 = scrubAddr s array := by
  rw [Nat.add_mul, Nat.div_mul_cancel (scrubBase_dvd s array), Nat.mul_comm (scrubPos s array)]

theorem eccAt_scrubAddr (t s : State) (array : ScrubArray) :
    eccAt t (scrubAddr s array) = mapFind t.ecc (scrubBase s array / 8 + scrubPos s array) := by
  rw [eccAt, ← scrubAddr_word, Nat.mul_div_cancel _ (by decide)]

theorem scrubWord_of_corr {w : Nat} (h : mapFind s.ecc w = some .corr) :
    scrubWord s array w = countScrub (eccSet (countCorr s (rangeOf s (w * 8))) w none) array := by
  unfold scrubWord
  rw [h]

theorem scrubWord_of_uncorr {w : Nat} (h : mapFind s.ecc w = some .uncorr) :
    scrubWord s array w = countUncorr s (rangeOf s (w * 8)) 0xF 0xF := by
  unfold scrubWord
  rw [h]

/-- A correctable word is written back corrected, and counted (R227). -/
theorem scrubCycle_corrects (hpool : scrubbedPool s array = none) (hpos : scrubPos s array < scrubWords array)
    (hecc : eccAt s (scrubAddr s array) = some .corr) :
    Runs (.scrubCycle array) s fun t =>
      eccAt t (scrubAddr s array) = none ∧
      scrubPos t array = (scrubPos s array + 1) % scrubWords array ∧
      fget t (Fd.hdr_ERR_CORR_COUNT (rangePage (rangeOf s (scrubBase s array)))) =
        (fget s (Fd.hdr_ERR_CORR_COUNT (rangePage (rangeOf s (scrubBase s array)))) + 1) % 2 ^ 32 ∧
      t = { s with regs := t.regs, ecc := t.ecc, scrub := t.scrub, safety := { s.safety with corr := t.safety.corr },
                   ledger := t.ledger, outbox := t.outbox } := by
  refine ⟨_, scrubCycle_word hpool, ?_⟩
  set w := scrubBase s array / 8 + scrubPos s array
  obtain ⟨hsram, hpage⟩ := rangeOf_scrubBase s array (i := 8 * scrubPos s array) (by omega)
  obtain ⟨-, hbase⟩ := rangeOf_scrubBase s array (i := 0) (by omega)
  rw [eccAt_scrubAddr] at hecc
  rw [scrubWord_of_corr hecc, scrubAddr_word]
  set r := rangeOf s (scrubAddr s array)
  have hcorr := countCorr_state s r
  set u := countCorr s r
  have hdel : eccSet u w none = { u with ecc := mapDel u.ecc w } := rfl
  have hscrub := countScrub_state (eccSet u w none) array
  have hmoved := scrubbed_state (countScrub (eccSet u w none) array) array (scrubPos s array)
  have hwords : WordsBut [Fd.beam_SCRUB_CORR_COUNT.word, Fd.beam_SCRUB_PASS_COUNT.word] u
      (scrubbed (countScrub (eccSet u w none) array) array (scrubPos s array)) :=
    (((countScrub_words (eccSet u w none) array).mono (by simp)).trans ((scrubbed_words _ _ _).mono (by simp)) :
      WordsBut _ (eccSet u w none) _)
  refine ⟨?_, scrubbed_pos _ array hpos, ?_, ?_⟩
  · rw [eccAt_scrubAddr, hmoved, hscrub, hdel]
    exact mapFind_mapDel_same _ _
  · rw [Nat.add_zero] at hbase
    rw [hbase, ← hpage, hwords.fget _ (show (0x020 : Nat) < 0x1000 by decide)
      (by simp [Fd.hdr_ERR_CORR_COUNT, Fd.beam_SCRUB_CORR_COUNT, Fd.beam_SCRUB_PASS_COUNT])]
    exact countCorr_count s hsram
  · rw [hmoved, hscrub, hdel, hcorr]

/-- An uncorrectable word is reported, and stays as it is (R228). -/
theorem scrubCycle_reports (hpool : scrubbedPool s array = none) (hpos : scrubPos s array < scrubWords array)
    (hecc : eccAt s (scrubAddr s array) = some .uncorr) :
    Runs (.scrubCycle array) s fun t =>
      fget t (Fd.hdr_ERR_UNCORR_COUNT (rangePage (rangeOf s (scrubBase s array)))) =
        (fget s (Fd.hdr_ERR_UNCORR_COUNT (rangePage (rangeOf s (scrubBase s array)))) + 1) % 2 ^ 32 ∧
      OnBus t 0x01 (rangePage (rangeOf s (scrubBase s array))) ∧
      t = { s with regs := t.regs, scrub := t.scrub, safety := { s.safety with bus := t.safety.bus }, ledger := t.ledger,
                   outbox := t.outbox } := by
  refine ⟨_, scrubCycle_word hpool, ?_⟩
  obtain ⟨hsram, hpage⟩ := rangeOf_scrubBase s array (i := 8 * scrubPos s array) (by omega)
  obtain ⟨-, hbase⟩ := rangeOf_scrubBase s array (i := 0) (by omega)
  rw [eccAt_scrubAddr] at hecc
  rw [Nat.add_zero] at hbase
  rw [scrubWord_of_uncorr hecc, scrubAddr_word, hbase, ← hpage]
  set r := rangeOf s (scrubAddr s array)
  have hunc := countUncorr_state s r 0xF 0xF
  have hbus := countUncorr_onBus s r 0xF 0xF
  have hcount := countUncorr_count s hsram 0xF 0xF
  set u := countUncorr s r 0xF 0xF
  have hmoved := scrubbed_state u array (scrubPos s array)
  refine ⟨?_, ?_, ?_⟩
  · rw [(scrubbed_words u array _).fget _ (show (0x024 : Nat) < 0x1000 by decide)
      (by simp [Fd.hdr_ERR_UNCORR_COUNT, Fd.beam_SCRUB_PASS_COUNT])]
    exact hcount
  · rw [hmoved]
    exact hbus
  · rw [hmoved, hunc]

theorem scrubPool_of_corr {n pos w : Nat} {l : CacheLine} (hline : poolWordAt s n pos = some (l, w))
    (hecc : mapFind l.ecc w = some .corr) : scrubPool s array n pos =
      { countScrub (countCorr s (.beam n)) array with
        cache := (countScrub (countCorr s (.beam n)) array).cache.map fun x => if x == l then { x with ecc := mapDel x.ecc w } else x } := by
  unfold scrubPool
  rw [hline]
  dsimp only
  rw [hecc]

/-- The words of the pool's lines are scrubbed with the bank that holds them (R227, R250). -/
theorem scrubCycle_correctsLine {b : Fin 34} {n w : Nat} {l : CacheLine} (hpool : scrubbedPool s (.beam b) = some n)
    (hpos : scrubPos s (.beam b) < 393216) (hline : poolWordAt s n (scrubPos s (.beam b)) = some (l, w))
    (hecc : mapFind l.ecc w = some .corr) :
    Runs (.scrubCycle (.beam b)) s fun t =>
      t.cache = (s.cache.map fun x => if x = l then { x with ecc := mapDel x.ecc w } else x) ∧
      fget t Fd.beam_SCRUB_CORR_COUNT = (fget s Fd.beam_SCRUB_CORR_COUNT + 1) % 2 ^ 32 ∧
      mapGet 0 t.scrub b.val = (mapGet 0 s.scrub b.val + 1) % 393216 ∧ t.mem = s.mem ∧ t.ecc = s.ecc := by
  refine ⟨_, scrubCycle_pool hpool, ?_⟩
  rw [scrubPool_of_corr hline hecc]
  have hcorr := countCorr_state s (.beam n)
  have hkept : fget (countCorr s (.beam n)) Fd.beam_SCRUB_CORR_COUNT = fget s Fd.beam_SCRUB_CORR_COUNT :=
    (countCorr_words s (channelOk_beam n)).fget _ (by decide)
      (by simp [Fd.beam_SCRUB_CORR_COUNT, Fd.hdr_ERR_CORR_COUNT, channelWords])
  set u := countCorr s (.beam n)
  have hscrub := countScrub_state u (.beam b)
  have hmoved := scrubbed_state { countScrub u (.beam b) with
    cache := (countScrub u (.beam b)).cache.map fun x => if x == l then { x with ecc := mapDel x.ecc w } else x } (.beam b)
    (scrubPos s (.beam b))
  refine ⟨?_, ?_, scrubbed_pos _ (.beam b) hpos, ?_, ?_⟩
  · rw [hmoved, hscrub, hcorr]
    simp only [beq_iff_eq]
  · rw [(scrubbed_words _ (.beam b) _).fget _ (by decide) (by decide), ← hkept, ← countScrub_count u b]
    exact fget_of_regs rfl _
  · rw [hmoved, hscrub, hcorr]
  · rw [hmoved, hscrub, hcorr]

end

end Sys2Proof.Machine
end

section
/-! SUPPORT. Refreshes of LPDDR5X and patrol reads (06 R234-R238). -/

namespace Sys2Proof.Machine

/-! ### Frames of a refresh -/

/-- What refreshing changes: register words of a list, marks, the refreshes owed, and what counts and reports. -/
structure RefreshFrame (ws : List (Nat × Nat)) (s t : State) : Prop where
  words : WordsBut ws s t
  state : t = { s with regs := t.regs, ecc := t.ecc, refresh := t.refresh
                       safety := { s.safety with corr := t.safety.corr, bus := t.safety.bus }, ledger := t.ledger
                       outbox := t.outbox }

namespace RefreshFrame

variable {ws vs : List (Nat × Nat)} {s t u : State}

theorem refl (ws : List (Nat × Nat)) (s : State) : RefreshFrame ws s s := ⟨.refl ws s, rfl⟩

theorem trans (h : RefreshFrame ws s t) (k : RefreshFrame ws t u) : RefreshFrame ws s u :=
  ⟨h.words.trans k.words, by rw [k.state, h.state]⟩

theorem mono (h : RefreshFrame ws s t) (k : ∀ w ∈ ws, w ∈ vs) : RefreshFrame vs s t := ⟨h.words.mono k, h.state⟩

theorem refresh (h : RefreshFrame ws s t) (r : RefreshSt) : RefreshFrame ws s { t with refresh := r } :=
  ⟨h.words.of_regs rfl, by rw [h.state]⟩

theorem of_marks (h : WordsBut ws s t) (k : MarksFrame s t) : RefreshFrame ws s t := ⟨h, by rw [show t = _ from k]⟩

theorem fadd (h : RefreshFrame ws s t) (f : Fld) (n : Nat) (hl : f.off < 0x1000) (hf : f.word ∈ ws) : RefreshFrame ws s (fadd t f n) :=
  ⟨h.words.fadd f n hl hf, by rw [fadd_eq, h.state]⟩

theorem iter {f : State → State} (h : ∀ s, RefreshFrame ws s (f s)) (n : Nat) (s : State) : RefreshFrame ws s (iter f n s) := by
  induction n generalizing s with
  | zero => exact refl ws s
  | succ n ih => exact (h s).trans (ih (f s))

end RefreshFrame

/-! ### An MR4 report -/

/-- The words of an MR4 report. -/
abbrev mr4Words : List (Nat × Nat) := [Fd.dram_OWED_MAX.word, Fd.dram_MR4_RATE.word]

theorem takeMr4_frame (s : State) (mr4 : W16) : RefreshFrame mr4Words s (takeMr4 s mr4) :=
  ⟨((accrue_words s).mono (by decide)).fput _ _ (by decide) (by decide), rfl⟩

theorem takeMr4_rate (s : State) (mr4 : W16) : fget (takeMr4 s mr4) Fd.dram_MR4_RATE = mr4.toNat :=
  (fget_fput_same (accrue s) Fd.dram_MR4_RATE mr4.toNat (by decide)).trans (Nat.mod_eq_of_lt mr4.isLt)

/-- What is owed up to now counts at the rate reported before (06, Refresh). -/
theorem takeMr4_owed (s : State) (mr4 : W16) : (takeMr4 s mr4).refresh.owed = owedNow s := rfl

theorem takeMr4_refreshOnly (s : State) (mr4 : W16) :
    takeMr4 s mr4 = { s with regs := (takeMr4 s mr4).regs, refresh := (takeMr4 s mr4).refresh } := rfl

/-! ### Refreshes issued -/

/-- A channel counts a refresh, and one ahead of the demand as pulled in (R234). -/
def countIssue (early : Bool) (s : State) (c : Nat) : State :=
  let t := fadd s (Fd.dramCnt_REFRESH_ISSUED c) 1
  if early then fadd t (Fd.dramCnt_PULLED_IN c) 1 else t

theorem countIssue_state (early : Bool) (s : State) (c : Nat) :
    countIssue early s c = { s with regs := (countIssue early s c).regs } := by
  unfold countIssue
  dsimp only
  split <;> rfl

/-- The four channels' counts of a refresh. -/
def issueCounted (s : State) : State := (List.range 4).foldl (countIssue (decide (s.refresh.owed ≤ 0))) s

theorem issueCounted_state (s : State) : issueCounted s = { s with regs := (issueCounted s).regs } :=
  List.foldlRecOn (motive := fun u : State => u = { s with regs := u.regs }) _ _ rfl fun u hu c _ => by
    rw [countIssue_state, hu]

theorem issueRefresh_eq (s : State) : issueRefresh s = { issueCounted s with
    refresh := { (issueCounted s).refresh with owed := (issueCounted s).refresh.owed - 1 } } := rfl

theorem issueRefresh_state (s : State) :
    issueRefresh s = { s with regs := (issueRefresh s).regs, refresh := { s.refresh with owed := s.refresh.owed - 1 } } := by
  rw [issueRefresh_eq, issueCounted_state]

/-- The words of refreshes issued on the four channels. -/
abbrev issueWords : List (Nat × Nat) :=
  (List.range 4).flatMap fun c => [(Fd.dramCnt_REFRESH_ISSUED c).word, (Fd.dramCnt_PULLED_IN c).word]

theorem issueWords_mem : ∀ c < 4, (Fd.dramCnt_REFRESH_ISSUED c).word ∈ issueWords ∧ (Fd.dramCnt_PULLED_IN c).word ∈ issueWords ∧
    (Fd.dramCnt_REFRESH_ISSUED c).off < 0x1000 ∧ (Fd.dramCnt_PULLED_IN c).off < 0x1000 := by
  decide

theorem countIssue_words (early : Bool) (s : State) {c : Nat} (hc : c < 4) : WordsBut issueWords s (countIssue early s c) := by
  obtain ⟨hissued, hpulled, hoff, hoff'⟩ := issueWords_mem c hc
  have hfirst := (WordsBut.refl issueWords s).fadd (Fd.dramCnt_REFRESH_ISSUED c) 1 hoff hissued
  unfold countIssue
  dsimp only
  split
  · exact hfirst.fadd _ 1 hoff' hpulled
  · exact hfirst

theorem issueRefresh_frame (s : State) : RefreshFrame issueWords s (issueRefresh s) where
  words := by
    have hcounted : WordsBut issueWords s (issueCounted s) :=
      List.foldlRecOn (motive := fun u => WordsBut issueWords s u) _ _ (.refl _ s) fun u hu c hc =>
        hu.trans (countIssue_words _ u (List.mem_range.1 hc))
    exact hcounted.of_regs rfl
  state := by rw [issueRefresh_state]

theorem issueRefresh_owed (s : State) : (issueRefresh s).refresh.owed = s.refresh.owed - 1 := by
  rw [issueRefresh_state]

theorem countIssue_same (early : Bool) (s : State) {c : Nat} (hc : c < 4) :
    fget (countIssue early s c) (Fd.dramCnt_REFRESH_ISSUED c) = (fget s (Fd.dramCnt_REFRESH_ISSUED c) + 1) % 2 ^ 32 := by
  have hapart : ∀ c < 4, (Fd.dramCnt_PULLED_IN c).apart (Fd.dramCnt_REFRESH_ISSUED c) ∧ (Fd.dramCnt_PULLED_IN c).ok ∧
      (Fd.dramCnt_REFRESH_ISSUED c).ok := by decide
  obtain ⟨hd, hpulled, hissued⟩ := hapart c hc
  have hcount := fget_fadd_same s (Fd.dramCnt_REFRESH_ISSUED c) 1 hissued
  unfold countIssue
  dsimp only
  split
  · rw [fget_fadd_other _ _ _ 1 hpulled hissued hd]
    exact hcount
  · exact hcount

theorem countIssue_other (early : Bool) (s : State) {c d : Nat} (hc : c < 4) (hd : d < 4) (hne : c ≠ d) :
    fget (countIssue early s c) (Fd.dramCnt_REFRESH_ISSUED d) = fget s (Fd.dramCnt_REFRESH_ISSUED d) := by
  have hapart : ∀ c d : Fin 4, c.val ≠ d.val → (Fd.dramCnt_PULLED_IN c).apart (Fd.dramCnt_REFRESH_ISSUED d) ∧
      (Fd.dramCnt_REFRESH_ISSUED c).apart (Fd.dramCnt_REFRESH_ISSUED d) ∧ (Fd.dramCnt_PULLED_IN c).ok ∧
      (Fd.dramCnt_REFRESH_ISSUED c).ok ∧ (Fd.dramCnt_REFRESH_ISSUED d).ok := by decide
  obtain ⟨hpart, hpart', hpulled, hissued, hother⟩ := hapart ⟨c, hc⟩ ⟨d, hd⟩ hne
  have hkept := fget_fadd_other s (Fd.dramCnt_REFRESH_ISSUED c) (Fd.dramCnt_REFRESH_ISSUED d) 1 hissued hother hpart'
  unfold countIssue
  dsimp only
  split
  · rw [fget_fadd_other _ _ _ 1 hpulled hother hpart]
    exact hkept
  · exact hkept

/-- A refresh goes to all four channels (R234). -/
theorem issueRefresh_issued (s : State) {c : Nat} (hc : c < 4) :
    fget (issueRefresh s) (Fd.dramCnt_REFRESH_ISSUED c) = (fget s (Fd.dramCnt_REFRESH_ISSUED c) + 1) % 2 ^ 32 := by
  have hregs : (issueRefresh s).regs = (issueCounted s).regs := rfl
  rw [fget_of_regs hregs, issueCounted]
  generalize decide (s.refresh.owed ≤ 0) = early
  change fget (countIssue early (countIssue early (countIssue early (countIssue early s 0) 1) 2) 3) _ = _
  interval_cases c
  · rw [countIssue_other _ _ (by decide) (by decide) (by decide), countIssue_other _ _ (by decide) (by decide) (by decide),
      countIssue_other _ _ (by decide) (by decide) (by decide), countIssue_same _ _ (by decide)]
  · rw [countIssue_other _ _ (by decide) (by decide) (by decide), countIssue_other _ _ (by decide) (by decide) (by decide),
      countIssue_same _ _ (by decide), countIssue_other _ _ (by decide) (by decide) (by decide)]
  · rw [countIssue_other _ _ (by decide) (by decide) (by decide), countIssue_same _ _ (by decide),
      countIssue_other _ _ (by decide) (by decide) (by decide), countIssue_other _ _ (by decide) (by decide) (by decide)]
  · rw [countIssue_same _ _ (by decide), countIssue_other _ _ (by decide) (by decide) (by decide),
      countIssue_other _ _ (by decide) (by decide) (by decide), countIssue_other _ _ (by decide) (by decide) (by decide)]

theorem issueRefreshes_owed (n : Nat) (s : State) : (iter issueRefresh n s).refresh.owed = s.refresh.owed - n := by
  induction n generalizing s with
  | zero => simp [iter]
  | succ n ih =>
    rw [iter, ih, issueRefresh_owed]
    push_cast
    omega

theorem issueRefreshes_issued (n : Nat) (s : State) {c : Nat} (hc : c < 4) :
    fget (iter issueRefresh n s) (Fd.dramCnt_REFRESH_ISSUED c) = (fget s (Fd.dramCnt_REFRESH_ISSUED c) + n) % 2 ^ 32 := by
  induction n generalizing s with
  | zero => exact (Nat.mod_eq_of_lt (fget_lt_card s (Fd.dramCnt_REFRESH_ISSUED c))).symm
  | succ n ih =>
    rw [iter, ih, issueRefresh_issued s hc, Nat.mod_add_mod]
    congr 1
    omega

/-! ### Patrol reads -/

/-- The words of patrol reads: the headers of the LPDDR5X page and of the page that counts for addresses beyond it, and the counters
of the four channels. -/
abbrev patrolWords : List (Nat × Nat) :=
  ([0x082, 0x084].flatMap fun p => (Fd.hdr_ERR_CORR_COUNT p).word :: (Fd.hdr_ERR_UNCORR_COUNT p).word :: eventWords p) ++
    (List.range 4).flatMap fun c => [(Fd.dramCnt_CORR c).word, (Fd.dramCnt_UNCORR c).word, (Fd.dramCnt_PATROL_CORR c).word]

theorem dramWords_patrol : ∀ c < 4, (∀ w ∈ corrWords (.dram c), w ∈ patrolWords) ∧ (∀ w ∈ uncorrWords (.dram c), w ∈ patrolWords) ∧
    (Fd.dramCnt_PATROL_CORR c).word ∈ patrolWords ∧ (Fd.dramCnt_PATROL_CORR c).off < 0x1000 := by
  decide

theorem unmappedWords_patrol : (∀ w ∈ corrWords .none, w ∈ patrolWords) ∧ ∀ w ∈ uncorrWords .none, w ∈ patrolWords := by
  decide

/-- From the start of LPDDR5X on there is LPDDR5X, and what the Beam store's page counts for. -/
theorem rangeOf_above (s : State) {a : Nat} (ha : dramBase ≤ a) :
    (∃ c < 4, rangeOf s a = .dram c) ∨ (∃ b, rangeOf s a = .spare b) ∨ rangeOf s a = .none := by
  unfold dramBase at ha
  unfold rangeOf
  rw [if_neg (by omega), if_neg (not_between (by omega)), if_neg (not_between (by omega)), if_neg (not_between (by omega))]
  split
  · exact .inl ⟨_, Nat.mod_lt _ (by decide), rfl⟩
  · split
    · exact .inr (.inl ⟨_, rfl⟩)
    · exact .inr (.inr rfl)

theorem rangeOf_above_words (s : State) {a : Nat} (ha : dramBase ≤ a) :
    (∀ w ∈ corrWords (rangeOf s a), w ∈ patrolWords) ∧ ∀ w ∈ uncorrWords (rangeOf s a), w ∈ patrolWords := by
  obtain ⟨c, hc, h⟩ | ⟨b, h⟩ | h := rangeOf_above s ha
  · obtain ⟨hcorr, huncorr, -, -⟩ := dramWords_patrol c hc
    rw [h]
    exact ⟨hcorr, huncorr⟩
  · rw [h]
    exact unmappedWords_patrol
  · rw [h]
    exact unmappedWords_patrol

/-- The word that the patrol reads next. -/
abbrev patrolWord (s : State) : Nat := dramBase / 8 + s.refresh.patrol

/-- The patrol has moved on to the next word, in ascending order and from the last to the first. -/
def patrolMoved (s : State) : State :=
  { s with refresh := { s.refresh with patrol := if s.refresh.patrol + 1 = dramBytes s / 8 then 0 else s.refresh.patrol + 1 } }

theorem patrolRead_eq (s : State) : patrolRead s =
    match mapFind s.ecc (patrolWord s) with
    | some .corr => fadd (eccSet (countCorr (patrolMoved s) (rangeOf (patrolMoved s) (patrolWord s * 8))) (patrolWord s) none)
        (Fd.dramCnt_PATROL_CORR (dramChannel (patrolWord s * 8))) 1
    | some .uncorr => countUncorr (patrolMoved s) (rangeOf (patrolMoved s) (patrolWord s * 8)) 0xF 0xF
    | _ => patrolMoved s := rfl

theorem patrolRead_frame (s : State) : RefreshFrame patrolWords s (patrolRead s) ∧ (patrolRead s).refresh.owed = s.refresh.owed := by
  have hmoved : RefreshFrame patrolWords s (patrolMoved s) := (RefreshFrame.refl _ s).refresh _
  have habove : dramBase ≤ patrolWord s * 8 := by
    unfold patrolWord dramBase
    omega
  set r := rangeOf (patrolMoved s) (patrolWord s * 8) with hr
  obtain ⟨hcorr, huncorr⟩ := rangeOf_above_words (patrolMoved s) habove
  have hok : r.channelOk := rangeOf_channelOk _ _
  rw [patrolRead_eq]
  split
  · obtain ⟨-, -, hmem, hoff⟩ := dramWords_patrol (dramChannel (patrolWord s * 8)) (Nat.mod_lt _ (by decide))
    have hcount : RefreshFrame patrolWords (patrolMoved s) (countCorr (patrolMoved s) r) :=
      .of_marks ((countCorr_words _ hok).mono hcorr) (countCorr_marks _ _)
    have hset : RefreshFrame patrolWords (countCorr (patrolMoved s) r) (eccSet (countCorr (patrolMoved s) r) (patrolWord s) none) :=
      .of_marks ((WordsBut.refl _ _).of_regs rfl) (eccSet_marks _ _ _)
    refine ⟨((hmoved.trans hcount).trans hset).fadd _ _ hoff hmem, ?_⟩
    change (countCorr (patrolMoved s) r).refresh.owed = _
    rw [countCorr_state]
    rfl
  · refine ⟨hmoved.trans (.of_marks ((countUncorr_words _ hok _ _).mono huncorr) (countUncorr_marks _ _ _ _)), ?_⟩
    rw [countUncorr_state]
    rfl
  · exact ⟨hmoved, rfl⟩

theorem patrolReads_owed (n : Nat) (s : State) : (iter patrolRead n s).refresh.owed = s.refresh.owed := by
  induction n generalizing s with
  | zero => rfl
  | succ n ih => rw [iter, ih, (patrolRead_frame s).2]

/-- Refreshes and then patrol reads from a state that has taken an MR4 report: the report stands, and the refreshes are counted. -/
theorem refreshes_counted (s : State) (mr4 : W16) (n m : Nat) :
    let t := iter patrolRead m (iter issueRefresh n (takeMr4 s mr4))
    fget t Fd.dram_MR4_RATE = mr4.toNat ∧ t.refresh.owed = owedNow s - n ∧
      (∀ c < 4, fget t (Fd.dramCnt_REFRESH_ISSUED c) = (fget s (Fd.dramCnt_REFRESH_ISSUED c) + n) % 2 ^ 32) ∧
      RefreshFrame (mr4Words ++ issueWords ++ patrolWords) s t := by
  have htake := takeMr4_frame s mr4
  have hissue := RefreshFrame.iter issueRefresh_frame n (takeMr4 s mr4)
  have hpatrol := RefreshFrame.iter (fun u => (patrolRead_frame u).1) m (iter issueRefresh n (takeMr4 s mr4))
  refine ⟨?_, ?_, fun c hc => ?_, ?_⟩
  · rw [hpatrol.words.fget _ (by decide) (by decide), hissue.words.fget _ (by decide) (by decide), takeMr4_rate]
  · rw [patrolReads_owed, issueRefreshes_owed, takeMr4_owed]
  · have hapart : ∀ c < 4, (Fd.dramCnt_REFRESH_ISSUED c).off < 0x1000 ∧ (Fd.dramCnt_REFRESH_ISSUED c).word ∉ patrolWords ∧
        (Fd.dramCnt_REFRESH_ISSUED c).word ∉ mr4Words := by decide
    obtain ⟨hoff, hnot, hnot'⟩ := hapart c hc
    rw [hpatrol.words.fget _ hoff hnot, issueRefreshes_issued n _ hc, htake.words.fget _ hoff hnot']
  · exact ((htake.mono fun _ h => List.mem_append_left _ (List.mem_append_left _ h)).trans
      (hissue.mono fun _ h => List.mem_append_left _ (List.mem_append_right _ h))).trans
      (hpatrol.mono fun _ h => List.mem_append_right _ h)

/-! ### The clauses on refresh -/

/-- With no Strict partition the refreshes follow the demand (R234). -/
theorem refresh_issues {mr4 : W16} {s : State} (hdram : s.boot.dram = true) (hstrict : anyStrict s = false) :
    Runs (.refresh mr4) s fun t =>
      fget t Fd.dram_MR4_RATE = mr4.toNat ∧
      t.refresh.owed = owedNow s - (if -8 < owedNow s then max 1 (owedNow s - 8).toNat else 0 : Nat) ∧
      (∀ c < 4, fget t (Fd.dramCnt_REFRESH_ISSUED c) = (fget s (Fd.dramCnt_REFRESH_ISSUED c) +
        if -8 < owedNow s then max 1 (owedNow s - 8).toNat else 0) % 2 ^ 32) ∧
      t = { s with regs := t.regs, ecc := t.ecc, refresh := t.refresh
                   safety := { s.safety with corr := t.safety.corr, bus := t.safety.bus }, ledger := t.ledger
                   outbox := t.outbox } := by
  have hexec : exec (.refresh mr4) s = .next (iter patrolRead 1 (iter issueRefresh
      (if -8 < owedNow s then max 1 (owedNow s - 8).toNat else 0) (takeMr4 s mr4))) := by
    change execRefresh mr4 s = _
    unfold execRefresh
    rw [if_pos (by rw [hdram, hstrict]; rfl)]
    dsimp only
    rw [takeMr4_owed]
    split <;> rfl
  obtain ⟨hrate, howed, hissued, hframe⟩ :=
    refreshes_counted s mr4 (if -8 < owedNow s then max 1 (owedNow s - 8).toNat else 0) 1
  exact ⟨_, hexec, hrate, howed, hissued, hframe.state⟩

theorem takeMr4_slotUnits (s : State) (mr4 : W16) (slot : Nat) : slotUnits (takeMr4 s mr4) slot = slotUnits s slot := by
  have hunit : fget (takeMr4 s mr4) Fd.dram_REFRESH_UNIT_PT = fget s Fd.dram_REFRESH_UNIT_PT :=
    (takeMr4_frame s mr4).words.fget _ (by decide) (by decide)
  unfold slotUnits
  rw [hunit]
  rfl

/-- In a REFRESH slot what is owed is issued first, then refreshes pulled in (R237). -/
theorem refreshSlot_issues {slot : Nat} {mr4 : W16} {s : State} (hdram : s.boot.dram = true) (hstrict : anyStrict s = true)
    (hopen : slotOpen s slot = true) (hwindow : ttIsWindow s.sched.active slot = false) :
    Runs (.refreshSlot slot mr4) s fun t =>
      fget t Fd.dram_MR4_RATE = mr4.toNat ∧
      t.refresh.owed = owedNow s - min (slotUnits s slot) (owedNow s + 8).toNat ∧
      (∀ c < 4, fget t (Fd.dramCnt_REFRESH_ISSUED c) =
        (fget s (Fd.dramCnt_REFRESH_ISSUED c) + min (slotUnits s slot) (owedNow s + 8).toNat) % 2 ^ 32) ∧
      t = { s with regs := t.regs, ecc := t.ecc, refresh := t.refresh
                   safety := { s.safety with corr := t.safety.corr, bus := t.safety.bus }, ledger := t.ledger
                   outbox := t.outbox } := by
  have hexec : exec (.refreshSlot slot mr4) s = .next (
      let t := iter patrolRead (slotUnits s slot - min (slotUnits s slot) (owedNow s + 8).toNat)
        (iter issueRefresh (min (slotUnits s slot) (owedNow s + 8).toNat) (takeMr4 s mr4))
      { t with refresh := { t.refresh with
        busyTo := max (now t) t.refresh.busyTo + slotUnits s slot * fget t Fd.dram_REFRESH_UNIT_PT } }) := by
    change execRefreshSlot slot mr4 s = _
    unfold execRefreshSlot
    rw [if_pos (by rw [hdram, hstrict, hopen, hwindow]; rfl)]
    dsimp only
    rw [takeMr4_slotUnits, takeMr4_owed]
  obtain ⟨hrate, howed, hissued, hframe⟩ := refreshes_counted s mr4 (min (slotUnits s slot) (owedNow s + 8).toNat)
    (slotUnits s slot - min (slotUnits s slot) (owedNow s + 8).toNat)
  exact ⟨_, hexec, hrate, howed.trans (by push_cast; rfl), hissued, (hframe.refresh _).state⟩

/-- A running task of LPDDR5X that a forced refresh delays carries T_THERMAL (R238, R562). -/
def markDelayed (s : State) (delayed : List Nat) (k : Task) : Task :=
  if delayed.contains k.id && k.disp.isSome && (portsInDram (inPorts s k) || portsInDram (outPorts s k)) then
    { k with flags := k.flags ||| flagThermal } else k

theorem markDelayed_id (s : State) (delayed : List Nat) (k : Task) : (markDelayed s delayed k).id = k.id := by
  unfold markDelayed
  split <;> rfl

/-- A forced refresh that has been issued is counted, its delays are marked, and its fault is reported (R238). -/
def overrunReported (s : State) (f : Task → Task) : State :=
  raise (mapTasks (lifeAdd (fadd s Fd.dram_REFRESH_OVERRUN_COUNT 1) 1 1) f) 0x13 0x080 0xF 0xF 0

theorem overrunReported_state (s : State) (f : Task → Task) : overrunReported s f = { s with
    regs := (overrunReported s f).regs, sched := { s.sched with tasks := (overrunReported s f).sched.tasks }
    safety := { s.safety with bus := (overrunReported s f).safety.bus }, ledger := (overrunReported s f).ledger } := rfl

theorem overrunReported_count (s : State) (f : Task → Task) : fget (overrunReported s f) Fd.dram_REFRESH_OVERRUN_COUNT =
    (fget s Fd.dram_REFRESH_OVERRUN_COUNT + 1) % 2 ^ 32 := fget_fadd_same s Fd.dram_REFRESH_OVERRUN_COUNT 1 (by decide)

theorem overrunReported_onBus (s : State) (f : Task → Task) : OnBus (overrunReported s f) 0x13 0x080 :=
  ⟨_, List.mem_append_right _ List.mem_cons_self, rfl, rfl⟩

theorem overrunReported_tasks (s : State) (f : Task → Task) : (overrunReported s f).sched.tasks = s.sched.tasks.map f := rfl

/-- A rate that the slots cannot meet forces a refresh outside them (R238). -/
theorem refreshOverrun_issues {mr4 : W16} {delayed : List Nat} {s : State} (hdram : s.boot.dram = true) (hstrict : anyStrict s = true)
    (howed : 8 < owedNow s) (hslots : slotsKeepUp s (mr4Mult mr4.toNat) = false) (hslot : inRefreshSlot s = false) :
    Runs (.refreshOverrun mr4 delayed) s fun t =>
      t.refresh.owed = owedNow s - 1 ∧ OnBus t 0x13 0x080 ∧
      fget t Fd.dram_REFRESH_OVERRUN_COUNT = (fget s Fd.dram_REFRESH_OVERRUN_COUNT + 1) % 2 ^ 32 ∧
      t.sched.tasks.map (·.id) = s.sched.tasks.map (·.id) ∧
      t = { s with regs := t.regs, refresh := t.refresh, sched := { s.sched with tasks := t.sched.tasks }
                   safety := { s.safety with bus := t.safety.bus }, ledger := t.ledger } := by
  have hexec : exec (.refreshOverrun mr4 delayed) s =
      .next (overrunReported (issueRefresh (takeMr4 s mr4)) (markDelayed s delayed)) := by
    change execRefreshOverrun mr4 delayed s = _
    unfold execRefreshOverrun
    dsimp only
    rw [if_pos (by rw [hdram, hstrict, takeMr4_owed, decide_eq_true howed, hslots, hslot]; rfl)]
    rfl
  have hissued := issueRefresh_state (takeMr4 s mr4)
  refine ⟨_, hexec, ?_, overrunReported_onBus _ _, ?_, ?_, ?_⟩
  · rw [overrunReported_state, issueRefresh_owed, takeMr4_owed]
  · rw [overrunReported_count, (issueRefresh_frame _).words.fget _ (by decide) (by decide),
      (takeMr4_frame s mr4).words.fget _ (by decide) (by decide)]
  · rw [overrunReported_tasks, hissued, List.map_map, takeMr4_refreshOnly]
    exact List.map_congr_left fun k _ => markDelayed_id _ _ k
  · rw [overrunReported_state, hissued, takeMr4_refreshOnly]

end Sys2Proof.Machine
end

section
/-! SUPPORT. The end of a window of corrected errors (15 R578; 18 R707), and with it the statement on scrubbing and refresh. -/

namespace Sys2Proof.Machine

/-! ### Sources that raise ECC_CORR_RATE -/

/-- The sources that exceed CORR_RATE_MAX in the window; source 81 is the MRAM, which has no rate (R578). -/
def hotSources (s : State) : List (Nat × Nat) :=
  s.safety.corr.filter fun e => fget s Fd.safety_CORR_RATE_MAX < e.2 && e.1 != 81

theorem mem_hotSources {s : State} {e : Nat × Nat} :
    e ∈ hotSources s ↔ e ∈ s.safety.corr ∧ fget s Fd.safety_CORR_RATE_MAX < e.2 ∧ e.1 ≠ 81 := by
  simp [hotSources]

/-- A source raises ECC_CORR_RATE once, and the Ledger counts it (R578, R696). -/
def raiseRate (s : State) (e : Nat × Nat) : State := ledgerAdd (raise s 0x02 (sourcePage e.1) 0xF 0xF e.2) 0x04 e.1 3 1

theorem raiseRates_state (l : List (Nat × Nat)) (s : State) : l.foldl raiseRate s =
    { s with safety := { s.safety with bus := (l.foldl raiseRate s).safety.bus }, ledger := (l.foldl raiseRate s).ledger } :=
  List.foldlRecOn (motive := fun u : State => u = { s with safety := { s.safety with bus := u.safety.bus }, ledger := u.ledger })
    _ _ rfl fun u hu e _ => by
      change ledgerAdd (raise u _ _ _ _ _) _ _ _ _ = _
      rw [hu]
      rfl

theorem raiseRate_reported (s : State) (e : Nat × Nat) : Reported s (raiseRate s e) :=
  (raise_reported s 0x02 (sourcePage e.1) 0xF 0xF e.2).trans (ledgerAdd_reported _ _ _ _ _)

/-- Every source of a list has raised ECC_CORR_RATE. -/
theorem raiseRates_onBus {l : List (Nat × Nat)} {e : Nat × Nat} (he : e ∈ l) (s : State) :
    OnBus (l.foldl raiseRate s) 0x02 (sourcePage e.1) := by
  induction l generalizing s with
  | nil => cases he
  | cons x l ih =>
    obtain rfl | he := List.mem_cons.1 he
    · exact (Reported.foldl raiseRate_reported l _).onBus ⟨_, List.mem_append_right _ List.mem_cons_self, rfl, rfl⟩
    · exact ih he _

/-! ### Banks that are mapped out -/

/-- The words of a bank copy (R608). -/
abbrev copyWords : List (Nat × Nat) := [Fd.beam_COPY_SRC.word, Fd.beam_COPY_DST.word]

/-- What the mapping out of a Beam bank changes at once: the copy's registers, and what waits. -/
structure CopyFrame (s t : State) : Prop where
  words : WordsBut copyWords s t
  state : t = { s with regs := t.regs, spare := t.spare }

namespace CopyFrame

theorem refl (s : State) : CopyFrame s s := ⟨.refl _ s, rfl⟩

theorem trans {s t u : State} (h : CopyFrame s t) (k : CopyFrame t u) : CopyFrame s u :=
  ⟨h.words.trans k.words, by rw [k.state, h.state]⟩

end CopyFrame

theorem beginCopy_frame (s : State) (b dst reason : Nat) : CopyFrame s (beginCopy s b dst reason) :=
  ⟨(((WordsBut.refl copyWords s).fput Fd.beam_COPY_SRC b (by decide) (by decide)).fput Fd.beam_COPY_DST dst (by decide)
    (by decide)).of_regs rfl, rfl⟩

theorem askTakeover_frame (s : State) (k u spare reason : Nat) : CopyFrame s (askTakeover s k u spare reason) :=
  ⟨(WordsBut.refl _ s).of_regs rfl, rfl⟩

theorem beamMapOut_frame (s : State) (b : Nat) : CopyFrame s (beamMapOut s b) := by
  unfold beamMapOut
  split
  · split
    · exact beginCopy_frame _ _ _ _
    · exact .refl s
  · split
    · exact askTakeover_frame _ _ _ _ _
    · split
      · exact beginCopy_frame _ _ _ _
      · exact .refl s

theorem beamMapOuts_frame (l : List Nat) (s : State) : CopyFrame s (l.foldl beamMapOut s) :=
  List.foldlRecOn (motive := fun u => CopyFrame s u) _ _ (.refl s) fun u hu b _ => hu.trans (beamMapOut_frame u b)

/-! ### The end of a window -/

/-- The next window begins (R578). -/
def windowDue (s : State) : State := { s with safety := { s.safety with corrNext := s.safety.corrNext + 25000000 } }

/-- The window's faults are raised, and no corrected error counts yet in the next (R578). -/
def windowJudged (s : State) : State :=
  let t := (hotSources s).foldl raiseRate s
  { t with
    safety := { t.safety with corr := [] }
    spare := { t.spare with rateRaised := ((hotSources s).filter fun e => e.1 < 34).map (·.1) } }

theorem windowJudged_state (s : State) : windowJudged s = { s with
    safety := { s.safety with corr := [], bus := ((hotSources s).foldl raiseRate s).safety.bus }
    ledger := ((hotSources s).foldl raiseRate s).ledger, spare := (windowJudged s).spare } := by
  have hraised := raiseRates_state (hotSources s) s
  unfold windowJudged
  dsimp only
  rw [hraised]

/-- The Beam banks that raise ECC_CORR_RATE in a second window in a row (R707). -/
def banksAgain (s : State) : List Nat :=
  (((hotSources s).filter fun e => e.1 < 34).map (·.1)).filter fun b => s.spare.rateRaised.contains b

theorem corrRateWindowEnd_exec {s : State} (h : reached s s.safety.corrNext = true) : exec .corrRateWindowEnd s =
    .next ((banksAgain (windowDue s)).foldl beamMapOut (windowJudged (windowDue s))) := by
  change execCorrRateWindowEnd s = _
  unfold execCorrRateWindowEnd
  rw [if_pos h]
  rfl

/-- Sources above CORR_RATE_MAX are reported once a window, and none is where none is above it (R578). -/
theorem corrRateWindowEnd_judges {s : State} (h : reached s s.safety.corrNext = true) :
    Runs .corrRateWindowEnd s fun t =>
      t.safety.corr = [] ∧
      (∀ e ∈ s.safety.corr, e.1 < 81 → fget s Fd.safety_CORR_RATE_MAX < e.2 → OnBus t 0x02 (sourcePage e.1)) ∧
      (¬ (∃ e ∈ s.safety.corr, e.1 ≠ 81 ∧ fget s Fd.safety_CORR_RATE_MAX < e.2) → t.safety.bus = s.safety.bus) ∧
      WordsBut [Fd.beam_COPY_SRC.word, Fd.beam_COPY_DST.word] s t ∧
      t = { s with regs := t.regs, safety := { s.safety with corr := [], bus := t.safety.bus
                                                             corrNext := s.safety.corrNext + 25000000 }
                   ledger := t.ledger, spare := t.spare } := by
  have hhot : hotSources (windowDue s) = hotSources s := rfl
  have hjudged := windowJudged_state (windowDue s)
  rw [hhot] at hjudged
  have hcopies := beamMapOuts_frame (banksAgain (windowDue s)) (windowJudged (windowDue s))
  have hsafety : ((banksAgain (windowDue s)).foldl beamMapOut (windowJudged (windowDue s))).safety =
      (windowJudged (windowDue s)).safety := by rw [hcopies.state]
  refine ⟨_, corrRateWindowEnd_exec h, ?_, fun e he hunit hrate => ?_, fun hnone => ?_, ?_, ?_⟩
  · rw [hsafety, hjudged]
  · have hbus := raiseRates_onBus (mem_hotSources.2 ⟨he, hrate, by omega⟩) (windowDue s)
    unfold OnBus
    rw [hsafety, hjudged]
    exact hbus
  · have hempty : hotSources s = [] := List.eq_nil_iff_forall_not_mem.2 fun e he => by
      obtain ⟨hmem, hrate, hunit⟩ := mem_hotSources.1 he
      exact hnone ⟨e, hmem, hunit, hrate⟩
    rw [hsafety, hjudged, hempty]
    rfl
  · have hregs : (windowJudged (windowDue s)).regs = s.regs := by rw [hjudged, windowDue]
    exact ((WordsBut.refl _ s).of_regs hregs).trans hcopies.words
  · rw [hcopies.state, hjudged, windowDue]

/-- Settles O11: the scrub of a word, the refreshes of both regimes and the end of a window, clause by clause. -/
theorem scrubAndRefreshKeepMemorySound : Obligations.ScrubAndRefreshKeepMemorySound := by
  unfold Obligations.ScrubAndRefreshKeepMemorySound
  exact ⟨fun _ _ => scrubCycle_corrects, fun _ _ => scrubCycle_reports, fun _ _ _ _ _ => scrubCycle_correctsLine,
    fun _ _ => refresh_issues, fun _ _ _ => refreshSlot_issues, fun _ _ _ => refreshOverrun_issues,
    fun _ => corrRateWindowEnd_judges⟩

end Sys2Proof.Machine
end

section
/-! SUPPORT. What every operation keeps of the machine's shape: as many of each thing as the spec gives, and whole lines of LPDDR5X
in the Beam cache. `Fits a s` says that `s`, reached from `a`, has kept each of them that `a` had. -/

namespace Sys2Proof.Machine

/-- A core with its registers and its tile queues. -/
def CoreSt.Whole (k : CoreSt) : Prop := k.x.length = 32 ∧ k.f.length = 32 ∧ k.tq.length = 4

/-- From `a` to `s` each part of the machine's shape is kept. -/
structure Fits (a s : State) : Prop where
  shaped : Shaped a → Shaped s
  watches : a.safety.watchLast.length = 16 → s.safety.watchLast.length = 16
  sums : a.courier.align.sums.length = 6 → s.courier.align.sums.length = 6
  orders : (∀ f ∈ a.filters, f.order.length = 8) → ∀ f ∈ s.filters, f.order.length = 8
  whole : LinesWhole a → LinesWhole s
  inDram : LinesInDram a → LinesInDram s

theorem Fits.refl (s : State) : Fits s s := ⟨id, id, id, id, id, id⟩

theorem Fits.trans {a b c : State} (h : Fits a b) (k : Fits b c) : Fits a c :=
  ⟨k.1 ∘ h.1, k.2 ∘ h.2, k.3 ∘ h.3, k.4 ∘ h.4, k.5 ∘ h.5, k.6 ∘ h.6⟩

/-- States with the same cache, filters and cores, and as many of each other thing, have the same shape. -/
theorem Fits.congr {a s t : State} (h : Fits a s) (hcache : t.cache = s.cache := by rfl)
    (hfilters : t.filters = s.filters := by rfl) (hcores : t.cores = s.cores := by rfl)
    (hchans : t.chans.length = s.chans.length := by rfl) (hparts : t.parts.length = s.parts.length := by rfl)
    (hfifos : t.fifos.length = s.fifos.length := by rfl) (hcan : t.can.length = s.can.length := by rfl)
    (hwatch : t.safety.watchLast.length = s.safety.watchLast.length := by rfl)
    (hgood : t.courier.lastGood.length = s.courier.lastGood.length := by rfl)
    (htrain : t.courier.nextTrain.length = s.courier.nextTrain.length := by rfl)
    (hbundles : t.courier.bundles.length = s.courier.bundles.length := by rfl)
    (hgroups : t.courier.groups.length = s.courier.groups.length := by rfl)
    (hsums : t.courier.align.sums.length = s.courier.align.sums.length := by rfl) : Fits a t where
  shaped ha := by
    have k := h.shaped ha
    exact ⟨hchans.trans k.chans, hparts.trans k.parts, hfilters ▸ k.filters, hfifos.trans k.fifos, hcores ▸ k.cores,
      hcores ▸ k.registers, hgood.trans k.lastGood, htrain.trans k.nextTrain, hbundles.trans k.bundles, hgroups.trans k.groups,
      hcan.trans k.can⟩
  watches ha := hwatch.trans (h.watches ha)
  sums ha := hsums.trans (h.sums ha)
  orders ha := hfilters ▸ h.orders ha
  whole ha := by
    unfold LinesWhole
    exact hcache ▸ h.whole ha
  inDram ha := by
    unfold LinesInDram
    exact hcache ▸ h.inDram ha

/-- An update that leaves the cache, the filters and the cores, and adds and takes away nothing, keeps the shape. -/
theorem Fits.mk_iff {s a : State} {pending : List Instr} {regs : List (Nat × W32)} {mem host : List Host.Cell}
    {ecc : List (Nat × EccSt)} {time : TimeSt} {power : PowerSt} {chans : List Chan} {letters : List Letter}
    {replies : List PendReply} {daybook : DaybookSt} {plans : List (Nat × PlanSt)} {parts : List PartSt}
    {scrub streamSeq : List (Nat × Nat)} {refresh : RefreshSt} {bar2 : List HostAccess} {parity : List Nat}
    {streams : List (Nat × StreamItem)} {tensorDk : List (Nat × (Docket × Bool))} {fifos : List (List FifoItem)}
    {lattice : LatticeSt} {sched : SchedSt} {courier : CourierSt} {safety : SafetySt} {can : List CanSt} {fuses : FuseSt}
    {nvm : NvmSt} {pins : PinSt} {boot : BootSt} {ledger : LedgerSt} {spare : SpareSt} {pair : PairSt} {lwIndex ord freeCount : Nat}
    {tapIr : TapInstr} {lostFns round : List Nat} {outbox : List Out} {completion : List Byte} {firstRound : Bool}
    (hchans : chans.length = s.chans.length) (hparts : parts.length = s.parts.length) (hfifos : fifos.length = s.fifos.length)
    (hcan : can.length = s.can.length) (hwatch : safety.watchLast.length = s.safety.watchLast.length)
    (hgood : courier.lastGood.length = s.courier.lastGood.length) (htrain : courier.nextTrain.length = s.courier.nextTrain.length)
    (hbundles : courier.bundles.length = s.courier.bundles.length) (hgroups : courier.groups.length = s.courier.groups.length)
    (hsums : courier.align.sums.length = s.courier.align.sums.length) :
    Fits a (State.mk pending regs mem ecc host time power chans letters replies daybook plans parts s.cache scrub refresh bar2
      parity streams streamSeq tensorDk s.filters fifos lattice sched s.cores courier safety can fuses nvm pins boot ledger spare
      pair lwIndex tapIr lostFns outbox completion round firstRound ord freeCount) = Fits a s :=
  propext
    ⟨fun h => h.congr rfl rfl rfl hchans.symm hparts.symm hfifos.symm hcan.symm hwatch.symm hgood.symm htrain.symm hbundles.symm
      hgroups.symm hsums.symm,
    fun h => h.congr rfl rfl rfl hchans hparts hfifos hcan hwatch hgood htrain hbundles hgroups hsums⟩

/-- An update of the cache that keeps its lines whole and in LPDDR5X. -/
theorem Fits.cache {a s : State} {c : List CacheLine} (h : Fits a s) (hw : LinesWhole s → LinesWhole { s with cache := c })
    (hd : LinesInDram s → LinesInDram { s with cache := c }) : Fits a { s with cache := c } :=
  h.trans ⟨fun k => ⟨k.1, k.2, k.3, k.4, k.5, k.6, k.7, k.8, k.9, k.10, k.11⟩, id, id, id, hw, hd⟩

/-- An update of the filters that keeps their number and their slots. -/
theorem Fits.filters {a s : State} {l : List FilterSt} (h : Fits a s) (hl : l.length = s.filters.length)
    (ho : (∀ f ∈ s.filters, f.order.length = 8) → ∀ f ∈ l, f.order.length = 8) : Fits a { s with filters := l } :=
  h.trans ⟨fun k => ⟨k.1, k.2, hl.trans k.3, k.4, k.5, k.6, k.7, k.8, k.9, k.10, k.11⟩, id, id, ho, id, id⟩

/-- An update of the cores that keeps their number, their registers and their tile queues. -/
theorem Fits.cores {a s : State} {l : List CoreSt} (h : Fits a s) (hl : l.length = s.cores.length)
    (hr : (∀ k ∈ s.cores, k.Whole) → ∀ k ∈ l, k.Whole) : Fits a { s with cores := l } :=
  h.trans ⟨fun k => ⟨k.1, k.2, k.3, k.4, hl.trans k.5, hr k.6, k.7, k.8, k.9, k.10, k.11⟩, id, id, id, id, id⟩

theorem Fits.ite {c : Prop} [Decidable c] {a s t : State} (h : Fits a s) (k : Fits a t) : Fits a (if c then s else t) := by
  split
  · exact h
  · exact k

theorem Fits.foldl {α : Type} {f : State → α → State} {l : List α} {a s : State} (h : Fits a s)
    (k : ∀ s x, Fits a s → Fits a (f s x)) : Fits a (l.foldl f s) := by
  induction l generalizing s with
  | nil => exact h
  | cons x l ih => exact ih (k s x h)

theorem Fits.foldl1 {α β : Type} {f : State × β → α → State × β} {l : List α} {a : State} {p : State × β}
    (h : Fits a p.1) (k : ∀ p x, Fits a p.1 → Fits a (f p x).1) : Fits a (l.foldl f p).1 := by
  induction l generalizing p with
  | nil => exact h
  | cons x l ih => exact ih (k p x h)

/-- What a command answers, when it answers a next state, keeps the shape. -/
def FitsOut (a : State) (o : Host.Outcome State Fault Refusal) : Prop := ∀ t, o = .next t → Fits a t

theorem FitsOut.next {a s : State} (h : Fits a s) : FitsOut a (.next s) := fun _ e => by cases e; exact h

theorem FitsOut.ite {c : Prop} [Decidable c] {a : State} {x y : Host.Outcome State Fault Refusal} (h : FitsOut a x)
    (k : FitsOut a y) : FitsOut a (if c then x else y) := by
  split
  · exact h
  · exact k

theorem FitsOut.leaves {a s : State} {o : Host.Outcome State Fault Refusal} (k : FitsOut a o) (h : Fits a s) :
    Fits a (leaves s o) := by
  cases o with
  | next t => exact k t rfl
  | fault _ => exact h
  | refused _ => exact h

/-- The state of an optional result keeps the shape. -/
def FitsSome {β : Type} (a : State) (o : Option (State × β)) : Prop := ∀ p, o = some p → Fits a p.1

theorem FitsSome.some {β : Type} {a : State} {p : State × β} (h : Fits a p.1) : FitsSome a (.some p) :=
  fun _ e => by cases e; exact h

theorem FitsSome.none {β : Type} {a : State} : FitsSome a (Option.none : Option (State × β)) := fun _ e => by cases e

theorem FitsSome.ite {β : Type} {c : Prop} [Decidable c] {a : State} {x y : Option (State × β)} (h : FitsSome a x)
    (k : FitsSome a y) : FitsSome a (if c then x else y) := by
  split
  · exact h
  · exact k

/-- The state of a core's access keeps the shape. -/
def FitsAcc (a : State) : CoreAccess → Prop
  | .ok s _ => Fits a s
  | .trap s _ => Fits a s
  | .wait => True

/-- The state of a core's instruction keeps the shape. -/
def FitsRun (a : State) : CoreRun → Prop
  | .go s | .vendor s _ | .ecall s | .exc _ s => Fits a s
  | .wait => True

/-- The state of a fetch keeps the shape. -/
def FitsFetch (a : State) : Fetched → Prop
  | .ok s _ _ | .undefined s | .fault s => Fits a s

theorem FitsFetch.ok {a s : State} {w n : Nat} (h : Fits a s) : FitsFetch a (.ok s w n) := h
theorem FitsFetch.undefined {a s : State} (h : Fits a s) : FitsFetch a (.undefined s) := h
theorem FitsFetch.fault {a s : State} (h : Fits a s) : FitsFetch a (.fault s) := h
theorem FitsFetch.of_ok {a s : State} {w n : Nat} {r : Fetched} (e : r = .ok s w n) (h : FitsFetch a r) : Fits a s := by
  subst e; exact h
theorem FitsFetch.of_undefined {a s : State} {r : Fetched} (e : r = .undefined s) (h : FitsFetch a r) : Fits a s := by
  subst e; exact h
theorem FitsFetch.of_fault {a s : State} {r : Fetched} (e : r = .fault s) (h : FitsFetch a r) : Fits a s := by
  subst e; exact h
theorem FitsFetch.ite {c : Prop} [Decidable c] {a : State} {x y : Fetched} (h : FitsFetch a x) (k : FitsFetch a y) :
    FitsFetch a (if c then x else y) := by
  split
  · exact h
  · exact k

theorem FitsRun.ite {c : Prop} [Decidable c] {a : State} {x y : CoreRun} (h : FitsRun a x) (k : FitsRun a y) :
    FitsRun a (if c then x else y) := by
  split
  · exact h
  · exact k

theorem FitsAcc.ite {c : Prop} [Decidable c] {a : State} {x y : CoreAccess} (h : FitsAcc a x) (k : FitsAcc a y) :
    FitsAcc a (if c then x else y) := by
  split
  · exact h
  · exact k

theorem FitsAcc.ok {a s : State} {d : List Byte} (h : Fits a s) : FitsAcc a (.ok s d) := h
theorem FitsAcc.trap {a s : State} {n : Nat} (h : Fits a s) : FitsAcc a (.trap s n) := h
theorem FitsAcc.of_ok {a s : State} {d : List Byte} {r : CoreAccess} (e : r = .ok s d) (h : FitsAcc a r) : Fits a s := by
  subst e; exact h
theorem FitsAcc.of_trap {a s : State} {n : Nat} {r : CoreAccess} (e : r = .trap s n) (h : FitsAcc a r) : Fits a s := by
  subst e; exact h
theorem FitsRun.go {a s : State} (h : Fits a s) : FitsRun a (.go s) := h
theorem FitsRun.vendor {a s : State} {w : Nat} (h : Fits a s) : FitsRun a (.vendor s w) := h
theorem FitsRun.ecall {a s : State} (h : Fits a s) : FitsRun a (.ecall s) := h
theorem FitsRun.wait {a : State} : FitsRun a .wait := trivial
theorem FitsAcc.wait {a : State} : FitsAcc a .wait := trivial
theorem FitsRun.exc {a s : State} {n : Nat} (h : Fits a s) : FitsRun a (.exc n s) := h
theorem FitsRun.of_go {a s : State} {r : CoreRun} (e : r = .go s) (h : FitsRun a r) : Fits a s := by
  subst e; exact h
theorem FitsRun.of_vendor {a s : State} {w : Nat} {r : CoreRun} (e : r = .vendor s w) (h : FitsRun a r) : Fits a s := by
  subst e; exact h
theorem FitsRun.of_ecall {a s : State} {r : CoreRun} (e : r = .ecall s) (h : FitsRun a r) : Fits a s := by
  subst e; exact h
theorem FitsRun.of_exc {a s : State} {n : Nat} {r : CoreRun} (e : r = .exc n s) (h : FitsRun a r) : Fits a s := by
  subst e; exact h
theorem FitsSome.of_some {β : Type} {a s : State} {b : β} {o : Option (State × β)} (e : o = .some (s, b))
    (h : FitsSome a o) : Fits a s := h _ e
theorem Fits.of_pair {β : Type} {a s : State} {b : β} {p : State × β} (e : p = (s, b)) (h : Fits a p.1) : Fits a s := by
  subst e; exact h
/-- What goes on after a core's access keeps the shape, if the access and the rest do. -/
theorem FitsAcc.andThen {a : State} {r : CoreAccess} {f : State → List Byte → CoreRun} (h : FitsAcc a r)
    (k : ∀ s d, Fits a s → FitsRun a (f s d)) : FitsRun a (r.andThen f) := by
  cases r with
  | ok s d => exact k s d h
  | trap s n => exact h
  | wait => trivial
theorem Fits.iter {f : State → State} {n : Nat} {a s : State} (h : Fits a s) (k : ∀ s, Fits a s → Fits a (f s)) :
    Fits a (iter f n s) := by
  induction n generalizing s with
  | zero => exact h
  | succ n ih => exact ih (k s h)

end Sys2Proof.Machine
end

section
/-! SUPPORT. What keeps the shape of a core, of a filter and of the Beam cache. -/

namespace Sys2Proof.Machine

theorem Fits.foldl1_mem {α β : Type} {f : State × β → α → State × β} {l : List α} {a : State} {p : State × β}
    (h : Fits a p.1) (k : ∀ p, ∀ x ∈ l, Fits a p.1 → Fits a (f p x).1) : Fits a (l.foldl f p).1 := by
  induction l generalizing p with
  | nil => exact h
  | cons x l ih =>
    exact ih (k p x List.mem_cons_self h) fun t y hy => k t y (List.mem_cons_of_mem x hy)

/-! ### Cores -/

/-- A core is whole when the machine has its shape. -/
def CoreFits (a : State) (k : CoreSt) : Prop := Shaped a → k.Whole

theorem CoreFits.congr {a : State} {k l : CoreSt} (hx : l.x.length = k.x.length) (hf : l.f.length = k.f.length)
    (ht : l.tq.length = k.tq.length) (h : CoreFits a k) : CoreFits a l := fun ha => by
  obtain ⟨kx, kf, kt⟩ := h ha
  exact ⟨hx.trans kx, hf.trans kf, ht.trans kt⟩

/-- An update of anything but a core's registers and tile queues leaves it whole. -/
theorem CoreFits.mk_iff {a : State} {k : CoreSt} {task : Option Nat} {pc : W64} {csr : List (Nat × W64)}
    {pop : Option (Nat × Nat × Nat)} {inv : List Nat} {resv : Option Nat} {ports : List (Nat × Nat)} {dks : List Nat}
    {pois : List (Nat × Nat)} {machine : Bool} :
    CoreFits a (CoreSt.mk task k.x k.f pc csr k.tq pop inv resv ports dks pois machine) = CoreFits a k :=
  propext ⟨fun h ha => h ha, fun h ha => h ha⟩

theorem coreReset_fits {a : State} : CoreFits a CoreSt.reset := fun _ => ⟨rfl, rfl, rfl⟩

theorem CoreSt.fresh_fits {a : State} {k : CoreSt} : CoreFits a k.fresh := fun _ => ⟨rfl, rfl, rfl⟩

theorem coreAt_fits {a s : State} {c : Nat} (h : Fits a s) : CoreFits a (coreAt s c) := fun ha => by
  unfold coreAt
  rw [List.getD_eq_getElem?_getD]
  cases hc : s.cores[c]? with
  | none => exact coreReset_fits ha
  | some k => exact (h.shaped ha).registers k (List.mem_of_getElem? hc)

theorem wx_fits {a : State} {k : CoreSt} {i : Nat} {v : W64} (h : CoreFits a k) : CoreFits a (k.wx i v) := by
  unfold CoreSt.wx
  split
  · exact h
  · exact h.congr List.length_set rfl rfl

theorem wf_fits {a : State} {k : CoreSt} {dbl : Bool} {i v : Nat} (h : CoreFits a k) : CoreFits a (k.wf dbl i v) :=
  CoreFits.congr (k := k) rfl List.length_set rfl h

theorem flag_fits {a : State} {k : CoreSt} {fl : Nat} (h : CoreFits a k) : CoreFits a (k.flag fl) := h

theorem csrWrite_fits {a : State} {k : CoreSt} {i v : Nat} (h : CoreFits a k) : CoreFits a (csrWrite k i v) := by
  unfold csrWrite
  split <;> exact h

theorem opMadd_fits {a : State} {k : CoreSt} {w rm : Nat} {negP negC : Bool} (h : CoreFits a k) :
    CoreFits a (opMadd k w rm negP negC) := flag_fits (wf_fits h)

theorem opFp_fits {a : State} {k : CoreSt} {w rm : Nat} (h : CoreFits a k) : CoreFits a (opFp k w rm) := by
  unfold opFp
  dsimp only
  with_reducible repeat' first | assumption | apply flag_fits | apply wf_fits | apply wx_fits | split

theorem cleanPois_fits {a : State} {k : CoreSt} {i o n : Nat} (h : CoreFits a k) : CoreFits a (cleanPois k i o n) := h

theorem markPois_fits {a : State} {k : CoreSt} {i o : Nat} {bad : List Nat} (h : CoreFits a k) :
    CoreFits a (markPois k i o bad) := h

theorem wc_fits {a : State} {k : CoreSt} {i v : Nat} (h : CoreFits a k) : CoreFits a (k.wc i v) := h

theorem takeInterrupt_fits {a : State} {k : CoreSt} (h : CoreFits a k) : CoreFits a (takeInterrupt k) := h

theorem setCore_fits {a s : State} {c : Nat} {k : CoreSt} (h : Fits a s) (hk : CoreFits a k) : Fits a (setCore s c k) where
  shaped ha := by
    have hs := h.shaped ha
    refine { hs with cores := List.length_set.trans hs.cores, registers := fun x hx => ?_ }
    rcases List.mem_or_eq_of_mem_set hx with hx | rfl
    · exact hs.registers x hx
    · exact hk ha
  watches := h.watches
  sums := h.sums
  orders := h.orders
  whole := h.whole
  inDram := h.inDram

/-- Taking cores off their tasks leaves them whole. -/
theorem freshCores_fits {a s : State} (h : Fits a s) (p : CoreSt → Bool) :
    Fits a { s with cores := s.cores.map fun c => if p c then c.fresh else c } := by
  refine h.cores (List.length_map _) fun hk x hx => ?_
  obtain ⟨k, hm, rfl⟩ := List.mem_map.1 hx
  split
  · exact ⟨rfl, rfl, rfl⟩
  · exact hk k hm

/-- A retired instruction's registers are the core's own on each of the task's units, whose tile queues stay. -/
theorem retire_fits {a s : State} {t : Task} {k : CoreSt} {pc : Nat} (h : Fits a s) (hk : CoreFits a k) :
    Fits a (retire s t k pc) := by
  unfold retire
  refine Fits.foldl h fun s c hs => setCore_fits hs fun ha => ?_
  obtain ⟨kx, kf, -⟩ := hk ha
  obtain ⟨-, -, ct⟩ := coreAt_fits (c := c) hs ha
  exact ⟨kx, kf, ct⟩

/-! ### Filters -/

/-- A filter has its slots when the machine's filters have theirs. -/
def FilterFits (a : State) (f : FilterSt) : Prop := (∀ x ∈ a.filters, x.order.length = 8) → f.order.length = 8

/-- An update of anything but a filter's slots leaves it as many. -/
theorem FilterFits.mk_iff {a : State} {f : FilterSt} {cur due : Option FrameSt} {ref lastCrc newest : Option Nat}
    {frozenRun count : Nat} {taken : Bool} {arr : Arrival} :
    FilterFits a (FilterSt.mk cur due ref frozenRun lastCrc newest taken f.order count arr) = FilterFits a f :=
  propext ⟨fun h ha => h ha, fun h ha => h ha⟩

theorem filterAt_fits {a s : State} {i : Nat} (h : Fits a s) : FilterFits a (filterAt s i) := fun ha => by
  unfold filterAt
  rw [List.getD_eq_getElem?_getD]
  cases hf : s.filters[i]? with
  | none => rfl
  | some f => exact h.orders ha f (List.mem_of_getElem? hf)

theorem setFilter_fits {a s : State} {i : Nat} {f : FilterSt} (h : Fits a s) (hf : FilterFits a f) :
    Fits a (setFilter s i f) where
  shaped ha := by
    have hs := h.shaped ha
    exact { hs with filters := List.length_set.trans hs.filters }
  watches := h.watches
  sums := h.sums
  orders ha x hx := by
    rcases List.mem_or_eq_of_mem_set hx with hx | rfl
    · exact h.orders ha x hx
    · exact hf ha
  whole := h.whole
  inDram := h.inDram

/-! ### The Beam cache -/

/-- Where a line stands, and how many bytes it holds. -/
def CacheLine.place (l : CacheLine) : Nat × Nat × Nat := (l.pid, l.addr, l.data.length)

theorem linesWhole_iff (s : State) : LinesWhole s ↔
    (∀ p ∈ s.cache.map CacheLine.place, p.2.2 = 256) ∧
      (s.cache.map CacheLine.place).Pairwise fun p q => ¬ (p.1 = q.1 ∧ p.2.1 = q.2.1) := by
  simp [LinesWhole, List.pairwise_map, CacheLine.place]

theorem linesInDram_iff (s : State) : LinesInDram s ↔ ∀ p ∈ s.cache.map CacheLine.place, dramBase ≤ p.2.1 := by
  simp [LinesInDram, CacheLine.place]

/-- An update of the lines that leaves each where it stands, with as many bytes. -/
theorem Fits.cachePlaces {a s : State} {c : List CacheLine} (h : Fits a s)
    (hc : c.map CacheLine.place = s.cache.map CacheLine.place) : Fits a { s with cache := c } := by
  refine h.cache (fun hw => ?_) fun hd => ?_
  · rw [linesWhole_iff] at hw ⊢
    exact hc ▸ hw
  · rw [linesInDram_iff] at hd ⊢
    exact hc ▸ hd

theorem Fits.cacheMap {a s : State} {f : CacheLine → CacheLine} (h : Fits a s) (hf : ∀ l, (f l).place = l.place) :
    Fits a { s with cache := s.cache.map f } :=
  h.cachePlaces (by rw [List.map_map]; exact List.map_congr_left fun l _ => hf l)

theorem Fits.cacheSet {a s : State} {i : Nat} {l k : CacheLine} (h : Fits a s) (hl : s.cache[i]? = some l)
    (hk : k.place = l.place) : Fits a { s with cache := s.cache.set i k } := by
  obtain ⟨hi, rfl⟩ := List.getElem?_eq_some_iff.1 hl
  refine h.cachePlaces ?_
  have hget : s.cache[i].place = (s.cache.map CacheLine.place)[i]'(by rwa [List.length_map]) := (List.getElem_map _).symm
  rw [List.map_set, hk, hget, List.set_getElem_self]

theorem Fits.cacheDrop {a s : State} {c : List CacheLine} (h : Fits a s) (hc : c.Sublist s.cache) :
    Fits a { s with cache := c } :=
  h.cache (fun hw => ⟨fun l hl => hw.1 l (hc.subset hl), hw.2.sublist hc⟩) fun hd l hl => hd l (hc.subset hl)

/-- A whole line of LPDDR5X put before lines of other places. -/
theorem Fits.cacheCons {a s : State} {c : List CacheLine} {l : CacheLine} (h : Fits a s) (hc : c.Sublist s.cache)
    (hlen : LinesWhole s → l.data.length = 256) (hnew : LinesWhole s → ∀ x ∈ c, ¬ (l.pid = x.pid ∧ l.addr = x.addr))
    (hdram : LinesInDram s → dramBase ≤ l.addr) : Fits a { s with cache := l :: c } := by
  refine h.cache (fun hw => ⟨?_, ?_⟩) fun hd => ?_
  · exact List.forall_mem_cons.2 ⟨hlen hw, fun x hx => hw.1 x (hc.subset hx)⟩
  · exact List.pairwise_cons.2 ⟨hnew hw, hw.2.sublist hc⟩
  · exact List.forall_mem_cons.2 ⟨hdram hd, fun x hx => hd x (hc.subset hx)⟩

/-- The line that `findLine` gives is one of the cache, and of that partition and address. -/
theorem findLine_some {s : State} {pid line : Nat} {l : CacheLine} (h : findLine s pid line = some l) :
    l ∈ s.cache ∧ l.pid = pid ∧ l.addr = line := by
  have hkey := List.find?_some h
  simp only [Bool.and_eq_true, beq_iff_eq] at hkey
  exact ⟨List.mem_of_find?_eq_some h, hkey.1, hkey.2⟩

theorem findLine_none_iff {s : State} {pid line : Nat} :
    findLine s pid line = none ↔ ∀ x ∈ s.cache, ¬ (pid = x.pid ∧ line = x.addr) := by
  simp [findLine, eq_comm (a := pid), eq_comm (a := line)]

end Sys2Proof.Machine
end

section
/-! SUPPORT. Every shared operation of the store, the registers, the journals and the scheduler keeps the shape. -/

namespace Sys2Proof.Machine

theorem reset_shaped : Shaped State.reset := by constructor <;> decide

theorem reset_orders : ∀ f ∈ State.reset.filters, f.order.length = 8 := by decide

theorem reset_linesWhole : LinesWhole State.reset :=
  ⟨fun _ h => (nomatch h), List.Pairwise.nil⟩

theorem reset_linesInDram : LinesInDram State.reset := fun _ h => nomatch h

/-- The state after reset has the shape whatever went before. -/
theorem reset_fits {a : State} : Fits a State.reset :=
  ⟨fun _ => reset_shaped, fun _ => rfl, fun _ => rfl, fun _ => reset_orders, fun _ => reset_linesWhole,
    fun _ => reset_linesInDram⟩

theorem aonReset_fits {a s : State} : Fits a (aonReset s) :=
  (reset_fits (a := a)).congr

theorem execAlwaysOnResetComplete_fits {a s : State} (h : Fits a s) : FitsOut a (execAlwaysOnResetComplete s) := by
  unfold execAlwaysOnResetComplete
  with_reducible repeat' first | assumption | simp only [Fits.mk_iff] | apply FitsOut.next | split

theorem setEpochSlot_fits {a s : State} {k : Nat} {e : EpochSlot} (h : Fits a s) : Fits a (setEpochSlot s k e) := by
  unfold setEpochSlot
  with_reducible repeat' first | assumption | simp only [Fits.mk_iff]

theorem regPut_fits {a s : State} {page off v : Nat} (h : Fits a s) : Fits a (regPut s page off v) := by
  unfold regPut
  with_reducible repeat' first | assumption | simp only [Fits.mk_iff]

theorem fput_fits {a s : State} {f : Fld} {v : Nat} (h : Fits a s) : Fits a (fput s f v) := by
  unfold fput
  with_reducible repeat' first | assumption | apply regPut_fits

theorem fadd_fits {a s : State} {f : Fld} {k : Nat} (h : Fits a s) : Fits a (fadd s f k) := by
  unfold fadd
  with_reducible repeat' first | assumption | apply fput_fits

theorem send_fits {a s : State} {m : Out} (h : Fits a s) : Fits a (send s m) := by
  unfold send
  with_reducible repeat' first | assumption | simp only [Fits.mk_iff]

theorem sendMsix_fits {a s : State} {fn vec : Nat} (h : Fits a s) : Fits a (sendMsix s fn vec) := by
  unfold sendMsix
  with_reducible repeat' first | assumption | apply send_fits | split

theorem pageIrq_fits {a s : State} {page : Nat} (h : Fits a s) : Fits a (pageIrq s page) := by
  unfold pageIrq
  with_reducible repeat' first | assumption | apply sendMsix_fits | split

theorem setEvent_fits {a s : State} {page b : Nat} (h : Fits a s) : Fits a (setEvent s page b) := by
  unfold setEvent
  with_reducible repeat' first | assumption | apply Fits.ite | apply fadd_fits | apply fput_fits | apply pageIrq_fits

theorem ledgerSet_fits {a s : State} {cls idx : Nat} {v : List Nat} (h : Fits a s) : Fits a (ledgerSet s cls idx v) := by
  unfold ledgerSet
  with_reducible repeat' first | assumption | simp only [Fits.mk_iff]

theorem ledgerAdd_fits {a s : State} {cls idx word k : Nat} (h : Fits a s) : Fits a (ledgerAdd s cls idx word k) := by
  unfold ledgerAdd
  with_reducible repeat' first | assumption | apply ledgerSet_fits

theorem lifeAdd_fits {a s : State} {idx word : Nat} (h : Fits a s) : Fits a (lifeAdd s idx word) := by
  unfold lifeAdd
  with_reducible repeat' first | assumption | apply ledgerAdd_fits

theorem raiseWith_fits {a s : State} {cls source sclass pid flags detail : Nat} (h : Fits a s) :
    Fits a (raiseWith s cls source sclass pid flags detail) := by
  unfold raiseWith
  with_reducible repeat' first | assumption | simp only [Fits.mk_iff]

theorem raise_fits {a s : State} {cls source sclass pid detail : Nat} (h : Fits a s) :
    Fits a (raise s cls source sclass pid detail) := by
  unfold raise
  with_reducible repeat' first | assumption | apply raiseWith_fits

theorem nvmFail_fits {a s : State} {addr jno : Nat} (h : Fits a s) : Fits a (nvmFail s addr jno) := by
  unfold nvmFail
  with_reducible repeat' first
    | assumption | simp only [Fits.mk_iff] | apply fadd_fits | apply fput_fits | apply lifeAdd_fits | apply raise_fits
    | apply setEvent_fits

theorem errCorr_fits {a s : State} {page : Nat} (h : Fits a s) : Fits a (errCorr s page) := by
  unfold errCorr
  with_reducible repeat' first | assumption | apply fadd_fits | apply setEvent_fits

theorem countCorr_fits {a s : State} {r : MapRange} (h : Fits a s) : Fits a (countCorr s r) := by
  unfold countCorr
  with_reducible repeat' first
    | assumption | simp only [Fits.mk_iff] | apply errCorr_fits | apply fadd_fits | apply ledgerAdd_fits | split

theorem eccSet_fits {a s : State} {w : Nat} {e : Option EccSt} (h : Fits a s) : Fits a (eccSet s w e) := by
  unfold eccSet
  with_reducible repeat' first | assumption | simp only [Fits.mk_iff] | split

theorem memPut_fits {a s : State} {a' : Nat} {bs : List Byte} (h : Fits a s) : Fits a (memPut s a' bs) := by
  unfold memPut
  with_reducible repeat' first | assumption | simp only [Fits.mk_iff]

theorem writeBack_fits {a s : State} {l : CacheLine} (h : Fits a s) : Fits a (writeBack s l) := by
  unfold writeBack
  with_reducible repeat' first
    | intro _ _ _ | assumption | apply Fits.ite | apply eccSet_fits | apply fadd_fits | apply memPut_fits | apply Fits.foldl

theorem writeBacks_cache (ls : List CacheLine) (s : State) : (ls.foldl writeBack s).cache = s.cache := by
  induction ls generalizing s with
  | nil => rfl
  | cons l ls ih => exact (ih _).trans (writeBack_cache s l)

theorem flushLines_sublist (s : State) (p : CacheLine → Bool) : (flushLines s p).cache.Sublist s.cache := by
  unfold flushLines
  dsimp only
  rw [writeBacks_cache]
  exact List.filter_sublist

theorem flushLines_fits {a s : State} {p : CacheLine → Bool} (h : Fits a s) : Fits a (flushLines s p) :=
  (Fits.foldl h fun _ _ k => writeBack_fits k).cacheDrop List.filter_sublist

theorem errUncorr_fits {a s : State} {page : Nat} (h : Fits a s) : Fits a (errUncorr s page) := by
  unfold errUncorr
  with_reducible repeat' first | assumption | apply fadd_fits | apply setEvent_fits

theorem countUncorr_fits {a s : State} {r : MapRange} {sclass pid : Nat} (h : Fits a s) :
    Fits a (countUncorr s r sclass pid) := by
  unfold countUncorr
  with_reducible repeat' first
    | assumption | apply errUncorr_fits | apply fadd_fits | apply ledgerAdd_fits | apply raise_fits | split

theorem countPoison_fits {a s : State} {r : MapRange} (h : Fits a s) : Fits a (countPoison s r) := by
  unfold countPoison
  with_reducible repeat' first | assumption | apply fadd_fits | apply ledgerAdd_fits | split

theorem fillWords_fits {a s : State} {line sclass pid : Nat} (h : Fits a s) : Fits a (fillWords s line sclass pid).1 := by
  unfold fillWords
  with_reducible repeat' first
    | intro _ _ _ | assumption | apply countCorr_fits | apply countPoison_fits | apply countUncorr_fits | apply Fits.foldl1
    | split

/-- A fill puts a whole line first, of a place that no other line has (R252). -/
theorem fillLine_fits {a s : State} {pid line sclass : Nat} (h : Fits a s) (hline : dramBase ≤ line)
    (hnone : findLine s pid line = none) : Fits a (fillLine s pid line sclass) := by
  unfold fillLine
  split
  · exact h
  · refine (fadd_fits (fillWords_fits (flushLines_fits h))).cacheCons (List.Sublist.refl _) (fun _ => length_memBytes _ _ _)
      (fun _ x hx => findLine_none_iff.1 hnone x ?_) fun _ => hline
    rw [fadd_cache, (fillWords_marks _ _ _ _).cache] at hx
    exact (flushLines_sublist _ _).subset hx

theorem touchLine_fits {a s : State} {pid line sclass : Nat} (h : Fits a s) (hline : dramBase ≤ line) :
    Fits a (touchLine s pid line sclass) := by
  unfold touchLine
  have hother {c : List CacheLine} : ∀ x ∈ c.filter fun x => !(x.pid == pid && x.addr == line),
      ¬ (pid = x.pid ∧ line = x.addr) := by
    rintro x hx ⟨rfl, rfl⟩
    simp at hx
  split
  next l hl =>
    obtain ⟨hmem, rfl, rfl⟩ := findLine_some hl
    split
    · exact fillLine_fits ((countCorr_fits h).cacheDrop List.filter_sublist) hline (findLine_none_iff.2 hother)
    · exact (fadd_fits h).cacheCons List.filter_sublist (fun hw => hw.1 l hmem) (fun _ => hother) fun hd => hd l hmem
  next hl => exact fillLine_fits h hline hl

/-- Once a line has been touched, the one found is the first of the pool, or there is none. -/
theorem touchLine_found {s : State} {pid line sclass : Nat} {l : CacheLine}
    (h : findLine (touchLine s pid line sclass) pid line = some l) : ∃ rest, (touchLine s pid line sclass).cache = l :: rest := by
  have hfill {u : State} (hu : findLine u pid line = none) (k : findLine (fillLine u pid line sclass) pid line = some l) :
      ∃ rest, (fillLine u pid line sclass).cache = l :: rest := by
    unfold fillLine at k ⊢
    split
    next hw => simp [hw, hu] at k
    next w hw =>
      rw [hw] at k
      dsimp only at k
      exact ⟨_, congrArg (· :: _) (Option.some.inj ((findLine_front rfl rfl rfl).symm.trans k))⟩
  unfold touchLine at h ⊢
  split
  next m hm =>
    obtain ⟨-, rfl, rfl⟩ := findLine_some hm
    rw [hm] at h
    dsimp only at h
    split
    next hbad =>
      rw [if_pos hbad] at h
      exact hfill (findLine_none_iff.2 (by rintro x hx ⟨h₁, h₂⟩; simp [h₁, h₂] at hx)) h
    next hgood =>
      rw [if_neg hgood] at h
      exact ⟨_, congrArg (· :: _) (Option.some.inj ((findLine_front rfl rfl rfl).symm.trans h))⟩
  next hn =>
    rw [hn] at h
    exact hfill hn h

theorem lineWords_fits {a s : State} {l : CacheLine} {lo hi sclass : Nat} (h : Fits a s) :
    Fits a (lineWords s l lo hi sclass).1 := by
  unfold lineWords
  with_reducible repeat' first
    | intro _ _ _ | assumption | apply countCorr_fits | apply countPoison_fits | apply countUncorr_fits | apply Fits.foldl1
    | split

/-- Another line of the same place may take the place of the first. -/
theorem setFront_fits {a s : State} {l k : CacheLine} {rest : List CacheLine} (h : Fits a s) (hs : s.cache = k :: rest)
    (hpid : l.pid = k.pid) (haddr : l.addr = k.addr) (hlen : k.data.length = 256 → l.data.length = 256) :
    Fits a (setFront s l) := by
  have hk : k ∈ s.cache := hs ▸ List.mem_cons_self
  refine h.cacheCons (List.tail_sublist _) (fun hw => hlen (hw.1 k hk)) (fun hw => ?_) fun hd => haddr ▸ hd k hk
  have hpair := hw.2
  rw [hs] at hpair ⊢
  rw [hpid, haddr]
  exact (List.pairwise_cons.1 hpair).1

/-- A write within a line keeps the pool's lines whole (R252). -/
theorem cacheWrite_fits {a s : State} {pid x : Nat} {bs : List Byte} {sclass : Nat} (h : Fits a s) (hdram : dramBase ≤ x)
    (hfit : x % 256 + bs.length ≤ 256) : Fits a (cacheWrite s pid x bs sclass) := by
  have htouch := touchLine_fits (pid := pid) (sclass := sclass) h (line := x / 256 * 256) (by unfold dramBase at *; omega)
  unfold cacheWrite
  dsimp only
  split
  next l hl =>
    obtain ⟨rest, hfirst⟩ := touchLine_found hl
    refine setFront_fits (k := l) (rest := rest) (Fits.foldl htouch fun _ _ k => lineWords_fits k)
      ((MarksFrame.foldl (fun y w => lineWords_marks y l w (w + 1) sclass) _ _).cache.trans hfirst) rfl rfl fun hlen => ?_
    exact (length_spliceBytes (by rw [hlen]; exact hfit)).trans hlen
  next => exact htouch

/-- The parts of a range: each within a line, none before the range. -/
theorem lineParts_within {x n : Nat} : ∀ p ∈ lineParts x n, x ≤ p.1 ∧ p.1 % 256 + p.2 ≤ 256 := by
  intro p hp
  obtain ⟨i, -, rfl⟩ := List.mem_map.1 hp
  dsimp only
  omega

theorem writeLines_fits {a s : State} {pid sclass : Nat} {l : List (Nat × Nat)} {bs : List Byte} (h : Fits a s)
    (hl : ∀ p ∈ l, dramBase ≤ p.1 ∧ p.1 % 256 + p.2 ≤ 256) : Fits a (writeLines s pid sclass l bs) := by
  induction l generalizing s bs with
  | nil => exact h
  | cons p l ih =>
    obtain ⟨hdram, hfit⟩ := hl p List.mem_cons_self
    have htake : (bs.take p.2).length ≤ p.2 := List.length_take_le _ _
    exact ih (cacheWrite_fits h hdram (by omega)) fun q hq => hl q (List.mem_cons_of_mem p hq)

/-- What passes through the pool lies in LPDDR5X (R246). -/
theorem pooled_dram {s : State} {pid x : Nat} (h : pooled s pid x = true) : dramBase ≤ x := by
  simp only [pooled, Bool.and_eq_true, decide_eq_true_eq] at h
  exact h.1.1.1

/-- A write of a range that begins in LPDDR5X, through the pool. -/
theorem writeParts_fits {a s : State} {pid x n sclass : Nat} {bs : List Byte} (h : Fits a s) (hx : dramBase ≤ x) :
    Fits a (writeLines s pid sclass (lineParts x n) bs) :=
  writeLines_fits h fun p hp => ⟨hx.trans (lineParts_within p hp).1, (lineParts_within p hp).2⟩

theorem readWord_fits {a : State} {sclass pid : Nat} {x2 : State × Bool} {w : Nat} (h : Fits a x2.1) :
    Fits a (readWord sclass pid x2 w).1 := by
  unfold readWord
  with_reducible repeat' first
    | assumption | dsimp only | apply countCorr_fits | apply countPoison_fits | apply countUncorr_fits | split

theorem mergeWord_fits {a : State} {x0 n sclass pid : Nat} {s : State} {w : Nat} (h : Fits a s) :
    Fits a (mergeWord x0 n sclass pid s w) := by
  unfold mergeWord
  with_reducible repeat' first | assumption | apply Fits.ite | apply eccSet_fits | apply readWord_fits

theorem writeRaw_fits {a s : State} {x1 : Nat} {bs : List Byte} {sclass pid : Nat} (h : Fits a s) :
    Fits a (writeRaw s x1 bs sclass pid) := by
  unfold writeRaw
  with_reducible repeat' first | assumption | apply memPut_fits | apply mergeWord_fits | apply Fits.foldl

theorem ownWrite_fits {a s : State} {x1 : Nat} {bs : List Byte} (h : Fits a s) : Fits a (ownWrite s x1 bs) := by
  unfold ownWrite
  split
  next hp => exact writeParts_fits h (pooled_dram hp)
  next => exact writeRaw_fits h

theorem sendEntry_fits {a s : State} {ch seq : Nat} (h : Fits a s) : Fits a (sendEntry s ch seq) := by
  unfold sendEntry
  with_reducible repeat' first | assumption | apply send_fits | split

theorem commitVersion_fits {a s : State} {v : Version} (h : Fits a s) : Fits a (commitVersion s v) := by
  unfold commitVersion
  with_reducible repeat' first
    | assumption | simp only [Fits.mk_iff] | apply Fits.ite | apply ownWrite_fits | apply sendEntry_fits

theorem noteVolatile_fits {a s : State} {ch seq : Nat} (h : Fits a s) : Fits a (noteVolatile s ch seq) := by
  unfold noteVolatile
  with_reducible repeat' first | assumption | simp only [Fits.mk_iff]

theorem commitVolatile_fits {a s : State} {v : Version} (h : Fits a s) : Fits a (commitVolatile s v) := by
  unfold commitVolatile
  with_reducible repeat' first | assumption | apply Fits.ite | apply commitVersion_fits | apply noteVolatile_fits

theorem daybookFail_fits {a s : State} {addr jno : Nat} (h : Fits a s) : Fits a (daybookFail s addr jno) := by
  unfold daybookFail
  with_reducible repeat' first
    | assumption | simp only [Fits.mk_iff] | apply Fits.ite | apply commitVolatile_fits | apply fput_fits | apply nvmFail_fits
    | apply setEvent_fits | apply Fits.foldl

theorem commitEpoch_fits {a s : State} {res : MramResult} (h : Fits a s) : Fits a (commitEpoch s res) := by
  unfold commitEpoch
  with_reducible repeat' first
    | assumption | simp only [Fits.mk_iff] | apply daybookFail_fits | apply fput_fits | apply setEpochSlot_fits | split

theorem setRole_fits {a s : State} {k u role logical : Nat} (h : Fits a s) : Fits a (setRole s k u role logical) := by
  unfold setRole
  with_reducible repeat' first | assumption | apply fput_fits | split

theorem assignKind_fits {a s : State} {k : Nat} (h : Fits a s) : Fits a (assignKind s k) := by
  unfold assignKind
  with_reducible repeat' first | intro _ _ | assumption | apply setRole_fits | apply Fits.foldl1 | split

theorem fputs_fits {a s : State} {l : List (Fld × Nat)} (h : Fits a s) : Fits a (fputs s l) := by
  unfold fputs
  with_reducible repeat' first | intro _ _ | assumption | apply fput_fits | apply Fits.foldl

theorem setPairRole_fits {a s : State} {r : Nat} (h : Fits a s) : Fits a (setPairRole s r) := by
  unfold setPairRole
  with_reducible repeat' first | assumption | apply fputs_fits

theorem loadConfig_fits {a s : State} (h : Fits a s) : Fits a (loadConfig s) := by
  unfold loadConfig
  with_reducible repeat' first | assumption | apply fputs_fits | apply setPairRole_fits

theorem execPowerGood_fits {a : State} {res : MramResult} {s : State} (h : Fits a s) : FitsOut a (execPowerGood res s) := by
  unfold execPowerGood
  with_reducible repeat' first
    | assumption | simp only [Fits.mk_iff] | apply FitsOut.next | apply assignKind_fits | apply commitEpoch_fits
    | apply loadConfig_fits | apply Fits.foldl | split

theorem scansDone_fits {a s : State} (h : Fits a s) : Fits a (scansDone s) := by
  unfold scansDone
  with_reducible repeat' first | assumption | apply fput_fits | split

theorem readDaybook_fits {a s : State} (h : Fits a s) : Fits a (readDaybook s) := by
  unfold readDaybook
  with_reducible repeat' first
    | intro _ _ _ | assumption | apply daybookFail_fits | apply readWord_fits | apply Fits.foldl | apply Fits.foldl1

theorem execDaybookScan_fits {a s : State} (h : Fits a s) : FitsOut a (execDaybookScan s) := by
  unfold execDaybookScan
  with_reducible repeat' first
    | assumption | simp only [Fits.mk_iff] | apply FitsOut.next | apply fadd_fits | apply fput_fits | apply readDaybook_fits
    | apply scansDone_fits | split

theorem takeRecord_fits {a s : State} {cls idx : Nat} (h : Fits a s) : Fits a (takeRecord s cls idx) := by
  unfold takeRecord
  with_reducible repeat' first | assumption | simp only [Fits.mk_iff] | apply ledgerSet_fits | split

theorem ledgerEvent_fits {a s : State} {cls : Nat} {data : List Nat} (h : Fits a s) : Fits a (ledgerEvent s cls data) := by
  unfold ledgerEvent
  with_reducible repeat' first
    | assumption | simp only [Fits.mk_iff] | apply Fits.ite | apply fadd_fits | apply ledgerSet_fits | apply setEvent_fits

theorem ledgerQueue_fits {a s : State} {cls idx : Nat} (h : Fits a s) : Fits a (ledgerQueue s cls idx) := by
  unfold ledgerQueue
  with_reducible repeat' first | assumption | simp only [Fits.mk_iff] | apply Fits.ite

theorem requeue_fits {a s : State} {v : LedgerVer} (h : Fits a s) : Fits a (requeue s v) := by
  unfold requeue
  with_reducible repeat' first | assumption | apply ledgerEvent_fits | apply ledgerQueue_fits | split

theorem writeSpareMap_fits {a s : State} {k : Nat} (h : Fits a s) : Fits a (writeSpareMap s k) := by
  unfold writeSpareMap
  with_reducible repeat' first | assumption | apply ledgerQueue_fits | apply ledgerSet_fits | split

theorem renewSpareMap_fits {a s : State} {k : Nat} (h : Fits a s) : Fits a (renewSpareMap s k) := by
  unfold renewSpareMap
  with_reducible repeat' first | assumption | apply Fits.ite | apply writeSpareMap_fits

theorem ledgerFail_fits {a s : State} {addr lno : Nat} (h : Fits a s) : Fits a (ledgerFail s addr lno) := by
  unfold ledgerFail
  with_reducible repeat' first
    | assumption | simp only [Fits.mk_iff] | apply fput_fits | apply nvmFail_fits | apply setEvent_fits | split

theorem execLedgerScan_fits {a s : State} (h : Fits a s) : FitsOut a (execLedgerScan s) := by
  unfold execLedgerScan
  with_reducible repeat' first
    | intro _ _ | assumption | simp only [Fits.mk_iff] | apply FitsOut.next | apply fputs_fits | apply ledgerFail_fits
    | apply lifeAdd_fits | apply renewSpareMap_fits | apply requeue_fits | apply scansDone_fits | apply takeRecord_fits
    | apply Fits.foldl | split

theorem spareEvent_fits {a s : State} {k u logical reason replacedBy : Nat} (h : Fits a s) :
    Fits a (spareEvent s k u logical reason replacedBy) := by
  unfold spareEvent
  with_reducible repeat' first | assumption | apply ledgerEvent_fits

theorem mapOut_fits {a s : State} {k u logical reason : Nat} {by_ : Option Nat} (h : Fits a s) :
    Fits a (mapOut s k u logical reason by_) := by
  unfold mapOut
  with_reducible repeat' first
    | assumption | simp only [Fits.mk_iff] | apply lifeAdd_fits | apply setRole_fits | apply spareEvent_fits
    | apply writeSpareMap_fits

theorem swapIn_fits {a s : State} {k u spare : Nat} (h : Fits a s) : Fits a (swapIn s k u spare) := by
  unfold swapIn
  with_reducible repeat' first | assumption | apply setRole_fits

theorem startMapOut_fits {a s : State} {k u : Nat} (h : Fits a s) : Fits a (startMapOut s k u).1 := by
  unfold startMapOut
  with_reducible repeat' first | assumption | apply mapOut_fits | apply swapIn_fits | split

theorem raiseAs_fits {a s : State} {cls source sclass pid flags detail sev also : Nat} (h : Fits a s) :
    Fits a (raiseAs s cls source sclass pid flags detail sev also) := by
  unfold raiseAs
  with_reducible repeat' first | assumption | simp only [Fits.mk_iff]

theorem failStart_fits {a s : State} {e : Nat × Nat} (h : Fits a s) : Fits a (failStart s e) := by
  unfold failStart
  with_reducible repeat' first | assumption | apply raise_fits | apply raiseAs_fits | apply startMapOut_fits | split

theorem startRecord_fits {a s : State} {failed : List Nat} (h : Fits a s) : Fits a (startRecord s failed) := by
  unfold startRecord
  with_reducible repeat' first | assumption | apply ledgerQueue_fits | apply ledgerSet_fits

theorem zeroSrams_fits {a s : State} (h : Fits a s) : Fits a (zeroSrams s) :=
  (h.cacheDrop (List.nil_sublist _)).congr

theorem addCause_fits {a s : State} {f : FaultRec} (h : Fits a s) : Fits a (addCause s f) := by
  unfold addCause
  with_reducible repeat' first | assumption | apply fput_fits

theorem leaveNormal_fits {a s : State} (h : Fits a s) : Fits a (leaveNormal s) := by
  unfold leaveNormal
  with_reducible repeat' first | assumption | simp only [Fits.mk_iff] | apply setEvent_fits | split

theorem countEntry_fits {a s : State} {cls : Nat} (h : Fits a s) : Fits a (countEntry s cls) := by
  unfold countEntry
  with_reducible repeat' first | assumption | apply ledgerAdd_fits

theorem canDue_fits {a s : State} (h : Fits a s) : Fits a (canDue s) := by
  unfold canDue
  simp only [Fits.mk_iff, List.length_map, h]

theorem lastWordsB_fits {a s : State} {cls : Nat} (h : Fits a s) : Fits a (lastWordsB s cls) := by
  unfold lastWordsB
  with_reducible repeat' first | assumption | simp only [Fits.mk_iff]

theorem safeEvent_fits {a s : State} {state : Nat} {f : FaultRec} (h : Fits a s) : Fits a (safeEvent s state f) := by
  unfold safeEvent
  with_reducible repeat' first | assumption | apply ledgerEvent_fits

theorem enterSafeB_fits {a s : State} {f : FaultRec} (h : Fits a s) : Fits a (enterSafeB s f) := by
  unfold enterSafeB
  with_reducible repeat' first
    | assumption | simp only [Fits.mk_iff] | apply canDue_fits | apply countEntry_fits | apply fput_fits | apply lastWordsB_fits
    | apply leaveNormal_fits | apply safeEvent_fits | apply setEvent_fits | split

theorem enterSafeA_fits {a s : State} {f : FaultRec} (h : Fits a s) : Fits a (enterSafeA s f) := by
  unfold enterSafeA
  with_reducible repeat' first
    | assumption | apply canDue_fits | apply countEntry_fits | apply fput_fits | apply leaveNormal_fits | apply safeEvent_fits

theorem queueDiag_fits {a s : State} {n : Nat} {f : FaultRec} {r : Reaction} (h : Fits a s) : Fits a (queueDiag s n f r).1 := by
  unfold queueDiag
  with_reducible repeat' first | assumption | simp only [Fits.mk_iff, List.length_set] | split

theorem diagnose_fits {a s : State} {f : FaultRec} {r : Reaction} (h : Fits a s) : Fits a (diagnose s f r) := by
  unfold diagnose
  with_reducible repeat' first
    | intro _ _ | assumption | simp only [Fits.mk_iff] | apply fadd_fits | apply queueDiag_fits | apply Fits.foldl1 | split

theorem react_fits {a s : State} {l : List FaultRec} (h : Fits a s) : Fits a (react s l) := by
  unfold react
  with_reducible repeat' first
    | intro _ _ _ | assumption | apply addCause_fits | apply diagnose_fits | apply enterSafeA_fits | apply enterSafeB_fits
    | apply Fits.foldl | split

theorem logFault_fits {a s : State} {f : FaultRec} (h : Fits a s) : Fits a (logFault s f) := by
  unfold logFault
  with_reducible repeat' first
    | assumption | simp only [Fits.mk_iff] | apply fadd_fits | apply fput_fits | apply setEvent_fits | split

theorem restartLeave_fits {a s : State} {f : FaultRec} (h : Fits a s) : Fits a (restartLeave s f) := by
  unfold restartLeave
  with_reducible repeat' first | assumption | simp only [Fits.mk_iff] | split

theorem countLedger_fits {a s : State} {f : FaultRec} (h : Fits a s) : Fits a (countLedger s f) := by
  unfold countLedger
  with_reducible repeat' first | assumption | apply ledgerAdd_fits | apply lifeAdd_fits | split

theorem deferTest_fits {a s : State} {k u : Nat} (h : Fits a s) : Fits a (deferTest s k u) := by
  unfold deferTest
  with_reducible repeat' first | assumption | simp only [Fits.mk_iff] | apply fadd_fits | apply ledgerSet_fits

theorem askTakeover_fits {a s : State} {k u spare reason : Nat} (h : Fits a s) : Fits a (askTakeover s k u spare reason) := by
  unfold askTakeover
  with_reducible repeat' first | assumption | simp only [Fits.mk_iff]

theorem suspectTakeover_fits {a s : State} {k u : Nat} (h : Fits a s) : Fits a (suspectTakeover s k u) := by
  unfold suspectTakeover
  with_reducible repeat' first | assumption | simp only [Fits.mk_iff] | apply askTakeover_fits | apply deferTest_fits | split

theorem countSuspect_fits {a s : State} {page : Nat} (h : Fits a s) : Fits a (countSuspect s page) := by
  unfold countSuspect
  with_reducible repeat' first | assumption | simp only [Fits.mk_iff] | apply raiseWith_fits | apply suspectTakeover_fits | split

theorem recordFault_fits {a s : State} {f : FaultRec} (h : Fits a s) : Fits a (recordFault s f) := by
  unfold recordFault
  with_reducible repeat' first
    | assumption | apply Fits.ite | apply countLedger_fits | apply countSuspect_fits | apply logFault_fits
    | apply restartLeave_fits

theorem recordAll_fits {a s : State} {l : List FaultRec} (h : Fits a s) : Fits a (recordAll s l) := by
  unfold recordAll
  with_reducible repeat' first | assumption | apply react_fits | apply recordFault_fits | apply Fits.foldl

theorem execStartupInjection_fits {a : State} {reports : List FaultIn} {failed : List (Nat × Nat)} {s : State} (h : Fits a s) :
    FitsOut a (execStartupInjection reports failed s) := by
  unfold execStartupInjection
  with_reducible repeat' first
    | assumption | simp only [Fits.mk_iff] | apply FitsOut.next | apply failStart_fits | apply recordAll_fits
    | apply startRecord_fits | apply zeroSrams_fits | apply Fits.foldl | split

theorem execBootImageLoad_fits {a : State} {slots : List (List Byte)} {s : State} (h : Fits a s) :
    FitsOut a (execBootImageLoad slots s) := by
  unfold execBootImageLoad
  with_reducible repeat' first
    | assumption | simp only [Fits.mk_iff] | apply FitsOut.next | apply fput_fits | apply fputs_fits | apply memPut_fits | split

theorem putRegions_fits {a s : State} {l : List (Nat × Nat)} (h : Fits a s) : Fits a (putRegions s l) := by
  unfold putRegions
  with_reducible repeat' first | intro _ _ | assumption | apply fputs_fits | apply Fits.foldl

theorem zeroRange_fits {a s : State} {a' n : Nat} (h : Fits a s) : Fits a (zeroRange s a' n) := by
  unfold zeroRange
  with_reducible repeat' first | assumption | simp only [Fits.mk_iff]

theorem zeroBanks_fits {a s : State} {mask : Nat} (h : Fits a s) : Fits a (zeroBanks s mask) := by
  unfold zeroBanks
  with_reducible repeat' first | intro _ _ | assumption | apply zeroRange_fits | apply Fits.foldl

theorem zeroRegions_fits {a s : State} {mask : Nat} (h : Fits a s) : Fits a (zeroRegions s mask) := by
  unfold zeroRegions
  with_reducible repeat' first | intro _ _ | assumption | apply zeroRange_fits | apply Fits.foldl

theorem ownRegions_fits {a s : State} {mask : Nat} {owner : Option Nat} (h : Fits a s) : Fits a (ownRegions s mask owner) := by
  unfold ownRegions
  with_reducible repeat' first | intro _ _ _ | assumption | apply fput_fits | apply Fits.foldl | split

theorem putPage_fits {a s : State} {p : Nat} {b : List Byte} (h : Fits a s) : Fits a (putPage s p b) := by
  unfold putPage
  with_reducible repeat' first | assumption | apply fputs_fits

theorem setChan_fits {a s : State} {ch : Nat} {c : Chan} (h : Fits a s) : Fits a (setChan s ch c) := by
  unfold setChan
  with_reducible repeat' first | assumption | simp only [Fits.mk_iff, List.length_set]

theorem moveChannel_fits {a s : State} {ch pid : Nat} (h : Fits a s) : Fits a (moveChannel s ch pid) := by
  unfold moveChannel
  with_reducible repeat' first | assumption | apply fput_fits | apply setChan_fits | split

theorem moveChannels_fits {a s : State} {p mask : Nat} (h : Fits a s) : Fits a (moveChannels s p mask) := by
  unfold moveChannels
  with_reducible repeat' first | intro _ _ _ | assumption | apply Fits.ite | apply moveChannel_fits | apply Fits.foldl

theorem accrue_fits {a s : State} (h : Fits a s) : Fits a (accrue s) := by
  unfold accrue
  with_reducible repeat' first | assumption | simp only [Fits.mk_iff] | apply fput_fits

theorem beginRelock_fits {a s : State} (h : Fits a s) : Fits a (beginRelock s) := by
  unfold beginRelock
  with_reducible repeat' first | assumption | simp only [Fits.mk_iff] | apply accrue_fits

theorem relockIfFree_fits {a s : State} (h : Fits a s) : Fits a (relockIfFree s) := by
  unfold relockIfFree
  with_reducible repeat' first | assumption | simp only [Fits.mk_iff] | apply beginRelock_fits | split

theorem relockFreed_fits {a s : State} (h : Fits a s) : Fits a (relockFreed s) := by
  unfold relockFreed
  with_reducible repeat' first | assumption | apply Fits.ite | apply relockIfFree_fits

theorem refit_fits {a s : State} {pid : Nat} {strictOnly : Bool} (h : Fits a s) : Fits a (refit s pid strictOnly) := by
  unfold refit
  with_reducible repeat' first | assumption | simp only [Fits.mk_iff]

theorem startDomain_fits {a s : State} {d : Nat} (h : Fits a s) : Fits a (startDomain s d) := by
  unfold startDomain
  with_reducible repeat' first | assumption | apply fadd_fits | apply fput_fits | split

theorem installBlock_fits {a s : State} {p mask : Nat} {b : List Byte} (h : Fits a s) : Fits a (installBlock s p mask b) := by
  unfold installBlock
  with_reducible repeat' first
    | assumption | simp only [Fits.mk_iff, List.length_set] | apply Fits.ite | apply flushLines_fits | apply moveChannels_fits
    | apply ownRegions_fits | apply putPage_fits | apply refit_fits | apply relockFreed_fits | apply startDomain_fits
    | apply zeroBanks_fits | apply zeroRegions_fits | apply Fits.foldl

theorem installLayout_fits {a s : State} (h : Fits a s) : Fits a (installLayout s) := by
  unfold installLayout
  with_reducible repeat' first | assumption | apply fputs_fits | apply installBlock_fits | apply putRegions_fits | split

theorem execBootLayoutInstall_fits {a s : State} (h : Fits a s) : FitsOut a (execBootLayoutInstall s) := by
  unfold execBootLayoutInstall
  with_reducible repeat' first
    | intro _ _ | assumption | simp only [Fits.mk_iff] | apply FitsOut.next | apply fput_fits | apply installLayout_fits
    | apply Fits.foldl | split

theorem execLpddr5xInitialised_fits {a : State} {margins : List (Byte × Byte)} {s : State} (h : Fits a s) :
    FitsOut a (execLpddr5xInitialised margins s) := by
  unfold execLpddr5xInitialised
  with_reducible repeat' first
    | intro _ _ | assumption | simp only [Fits.mk_iff] | apply FitsOut.next | apply fputs_fits | apply Fits.foldl | split

theorem setBundle_fits {a s : State} {b : Nat} {x : BundleSt} (h : Fits a s) : Fits a (setBundle s b x) := by
  unfold setBundle
  with_reducible repeat' first | assumption | simp only [Fits.mk_iff, List.length_set]

theorem transmit_fits {a s : State} {n seq : Nat} {m : CtrlMsg} (h : Fits a s) : Fits a (transmit s n seq m) := by
  unfold transmit
  with_reducible repeat' first | assumption | apply fadd_fits | apply send_fits

theorem pushMsg_fits {a s : State} {b n : Nat} {m : CtrlMsg} (h : Fits a s) : Fits a (pushMsg s b n m) := by
  unfold pushMsg
  with_reducible repeat' first | assumption | apply Fits.ite | apply setBundle_fits | apply transmit_fits

theorem sendTo_fits {a s : State} {x1 group collSeq : Nat} {body : CtrlBody} (h : Fits a s) :
    Fits a (sendTo s x1 group collSeq body) := by
  unfold sendTo
  with_reducible repeat' first | assumption | apply pushMsg_fits | split

theorem flood_fits {a s : State} {g collSeq : Nat} {body : CtrlBody} {except : Option Nat} (h : Fits a s) :
    Fits a (flood s g collSeq body except) := by
  unfold flood
  with_reducible repeat' first | intro _ _ | assumption | apply sendTo_fits | apply Fits.foldl

theorem setSynced_fits {a s : State} {g : Nat} {b : Bool} (h : Fits a s) : Fits a (setSynced s g b) := by
  unfold setSynced
  with_reducible repeat' first | assumption | apply fput_fits

theorem floodDesync_fits {a s : State} {other : Nat} (h : Fits a s) : Fits a (floodDesync s other) := by
  unfold floodDesync
  with_reducible repeat' first | intro _ _ _ | assumption | apply flood_fits | apply setSynced_fits | apply Fits.foldl | split

theorem draw_fits {a s : State} (h : Fits a s) : Fits a (draw s).1 := by
  unfold draw
  with_reducible repeat' first | assumption | simp only [Fits.mk_iff]

theorem openWindow_fits {a s : State} (h : Fits a s) : Fits a (openWindow s) := by
  unfold openWindow
  with_reducible repeat' first | assumption | dsimp only | simp only [Fits.mk_iff] | apply draw_fits | apply fput_fits

theorem becomeReady_fits {a s : State} (h : Fits a s) : Fits a (becomeReady s) := by
  unfold becomeReady
  with_reducible repeat' first
    | assumption | dsimp only | simp only [Fits.mk_iff] | apply Fits.ite | apply floodDesync_fits | apply fputs_fits
    | apply lifeAdd_fits | apply openWindow_fits | apply raise_fits

theorem execReady_fits {a s : State} (h : Fits a s) : FitsOut a (execReady s) := by
  unfold execReady
  with_reducible repeat' first | assumption | apply FitsOut.next | apply becomeReady_fits | split

theorem holdReset_fits {a s : State} (h : Fits a s) : Fits a (holdReset s) := by
  unfold holdReset
  apply fputs_fits
  have hr : Fits a State.reset := reset_fits
  exact ⟨fun k => ⟨rfl, rfl, rfl, rfl, rfl, (hr.shaped k).registers, rfl, rfl, rfl, rfl, rfl⟩, h.watches, hr.sums, hr.orders,
    hr.whole, hr.inDram⟩

theorem commitChanged_fits {a s : State} (h : Fits a s) : Fits a (commitChanged s) := by
  unfold commitChanged
  with_reducible repeat' first | intro _ _ | assumption | apply ledgerQueue_fits | apply ledgerSet_fits | apply Fits.foldl

theorem queueFlush_fits {a s : State} {cause : Nat} (h : Fits a s) : Fits a (queueFlush s cause) := by
  unfold queueFlush
  with_reducible repeat' first
    | assumption | dsimp only | simp only [Fits.mk_iff] | apply commitChanged_fits | apply ledgerSet_fits | split

theorem enterHoldup_fits {a s : State} {cause : Nat} (h : Fits a s) : Fits a (enterHoldup s cause) := by
  unfold enterHoldup
  with_reducible repeat' first | assumption | apply holdReset_fits | apply queueFlush_fits

theorem execMainPowerLoss_fits {a : State} {vddAon : Bool} {s : State} (h : Fits a s) :
    FitsOut a (execMainPowerLoss vddAon s) := by
  unfold execMainPowerLoss
  with_reducible repeat' first | assumption | simp only [Fits.mk_iff] | apply FitsOut.next | apply enterHoldup_fits | split

theorem railFault_fits {a s : State} {rail : Fin 9} {mv : Nat} (h : Fits a s) : Fits a (railFault s rail mv) := by
  unfold railFault
  with_reducible repeat' first
    | assumption | dsimp only | simp only [Fits.mk_iff] | apply Fits.ite | apply fadd_fits | apply raise_fits
    | apply setEvent_fits

theorem execVoltageWindowFault_fits {a : State} {rail : Fin 9} {mv : Nat} {s : State} (h : Fits a s) :
    FitsOut a (execVoltageWindowFault rail mv s) := by
  unfold execVoltageWindowFault
  with_reducible repeat' first | assumption | apply FitsOut.next | apply enterHoldup_fits | apply railFault_fits | split

theorem execSysRstNFall_fits {a s : State} (h : Fits a s) : FitsOut a (execSysRstNFall s) := by
  unfold execSysRstNFall
  with_reducible repeat' first
    | assumption | simp only [Fits.mk_iff] | apply FitsOut.next | apply aonReset_fits | apply enterHoldup_fits | split

theorem execFlushComplete_fits {a s : State} (h : Fits a s) : FitsOut a (execFlushComplete s) := by
  unfold execFlushComplete
  with_reducible repeat' first | assumption | apply FitsOut.next | apply aonReset_fits | split

theorem slotPut_fits {a s : State} {addr : Nat} {bs : List Byte} (h : Fits a s) : Fits a (slotPut s addr bs) := by
  unfold slotPut
  with_reducible repeat' first | intro _ _ _ | assumption | apply eccSet_fits | apply memPut_fits | apply Fits.foldl

theorem failedSlot_fits {a s : State} {addr : Nat} {bs : List Byte} {x3 : MramResult} (h : Fits a s) :
    Fits a (failedSlot s addr bs x3) := by
  unfold failedSlot
  with_reducible repeat' first | assumption | apply draw_fits | apply eccSet_fits | apply slotPut_fits | split

theorem execBrownOut_fits {a : State} {torn : Bool} {s : State} : FitsOut a (execBrownOut torn s) := by
  unfold execBrownOut
  with_reducible repeat' first | apply FitsOut.next | apply aonReset_fits

theorem clearEnables_fits {a s : State} {p : Nat → Bool} (h : Fits a s) : Fits a (clearEnables s p) := by
  unfold clearEnables
  with_reducible repeat' first | intro _ _ | assumption | apply fput_fits | apply Fits.foldl

theorem dropLink_fits {a s : State} (h : Fits a s) : Fits a (dropLink s) := by
  unfold dropLink
  with_reducible repeat' first | assumption | simp only [Fits.mk_iff]

theorem execPerstN_fits {a s : State} (h : Fits a s) : FitsOut a (execPerstN s) := by
  unfold execPerstN
  with_reducible repeat' first
    | assumption | simp only [Fits.mk_iff] | apply FitsOut.next | apply clearEnables_fits | apply dropLink_fits

theorem execHostLinkLoss_fits {a s : State} (h : Fits a s) : FitsOut a (execHostLinkLoss s) := by
  unfold execHostLinkLoss
  with_reducible repeat' first | assumption | apply FitsOut.next | apply dropLink_fits | split

theorem execHostLinkUp_fits {a s : State} (h : Fits a s) : FitsOut a (execHostLinkUp s) := by
  unfold execHostLinkUp
  with_reducible repeat' first | assumption | simp only [Fits.mk_iff] | apply FitsOut.next | apply clearEnables_fits | split

theorem execFlr_fits {a : State} {f : Fin 16} {s : State} (h : Fits a s) : FitsOut a (execFlr f s) := by
  unfold execFlr
  with_reducible repeat' first | assumption | simp only [Fits.mk_iff] | apply FitsOut.next | apply clearEnables_fits | split

theorem execConfigurationRequest_fits {a : State} {f : Fin 16} {s : State} (h : Fits a s) :
    FitsOut a (execConfigurationRequest f s) := by
  unfold execConfigurationRequest
  with_reducible repeat' first | assumption | apply FitsOut.next | apply draw_fits | apply send_fits | split

theorem smbusAnswer_fits {a s : State} {bs : List Byte} (h : Fits a s) : Fits a (smbusAnswer s bs) := by
  unfold smbusAnswer
  with_reducible repeat' first | assumption | apply send_fits | split

theorem execSmbusIdentity_fits {a s : State} (h : Fits a s) : FitsOut a (execSmbusIdentity s) := by
  unfold execSmbusIdentity
  with_reducible repeat' first | assumption | apply FitsOut.next | apply smbusAnswer_fits

theorem execSmbusState_fits {a s : State} (h : Fits a s) : FitsOut a (execSmbusState s) := by
  unfold execSmbusState
  with_reducible repeat' first | assumption | apply FitsOut.next | apply smbusAnswer_fits

theorem execSmbusTj_fits {a s : State} (h : Fits a s) : FitsOut a (execSmbusTj s) := by
  unfold execSmbusTj
  with_reducible repeat' first | assumption | apply FitsOut.next | apply smbusAnswer_fits

theorem execSmbusPowerEpoch_fits {a s : State} (h : Fits a s) : FitsOut a (execSmbusPowerEpoch s) := by
  unfold execSmbusPowerEpoch
  with_reducible repeat' first | assumption | apply FitsOut.next | apply smbusAnswer_fits

theorem execSmbusLwIndex_fits {a : State} {v : Byte} {s : State} (h : Fits a s) : FitsOut a (execSmbusLwIndex v s) := by
  unfold execSmbusLwIndex
  with_reducible repeat' first | assumption | simp only [Fits.mk_iff] | apply FitsOut.next | apply smbusAnswer_fits | split

theorem execSmbusLwData_fits {a s : State} (h : Fits a s) : FitsOut a (execSmbusLwData s) := by
  unfold execSmbusLwData
  with_reducible repeat' first | assumption | apply FitsOut.next | apply smbusAnswer_fits

theorem execSmbusUndefinedCommand_fits {a : State} {code : Byte} {s : State} (h : Fits a s) :
    FitsOut a (execSmbusUndefinedCommand code s) := by
  unfold execSmbusUndefinedCommand
  with_reducible repeat' first | assumption | apply FitsOut.next | apply smbusAnswer_fits | split

theorem execTapInstruction_fits {a : State} {ir : TapInstr} {s : State} (h : Fits a s) : FitsOut a (execTapInstruction ir s) := by
  unfold execTapInstruction
  with_reducible repeat' first | assumption | simp only [Fits.mk_iff] | apply FitsOut.next | apply send_fits | split

theorem setCan_fits {a s : State} {n : Nat} {c : CanSt} (h : Fits a s) : Fits a (setCan s n c) := by
  unfold setCan
  with_reducible repeat' first | assumption | simp only [Fits.mk_iff, List.length_set]

theorem execSafetyFrameBuild_fits {a : State} {n : Fin 2} {s : State} (h : Fits a s) : FitsOut a (execSafetyFrameBuild n s) := by
  unfold execSafetyFrameBuild
  with_reducible repeat' first | assumption | apply FitsOut.next | apply setCan_fits | split

theorem beginFrame_fits {a s : State} {n : Nat} (h : Fits a s) : Fits a (beginFrame s n).1 := by
  unfold beginFrame
  with_reducible repeat' first | assumption | dsimp only | apply fput_fits | apply setCan_fits | split

theorem errorCounters_fits {a s : State} {n : Nat} (h : Fits a s) : Fits a (errorCounters s n) := by
  unfold errorCounters
  with_reducible repeat' first | assumption | apply draw_fits | apply fput_fits

theorem execCanFrameTransmit_fits {a : State} {n : Fin 2} {acked : Bool} {s : State} (h : Fits a s) :
    FitsOut a (execCanFrameTransmit n acked s) := by
  unfold execCanFrameTransmit
  with_reducible repeat' first
    | assumption | apply FitsOut.next | apply errorCounters_fits | apply fadd_fits | apply send_fits | apply setCan_fits
    | apply setEvent_fits | exact Fits.of_pair (by assumption) (beginFrame_fits (by assumption)) | split

theorem execCanFrameReceive_fits {a : State} {n : Fin 2} {frame : CanFrame} {s : State} (h : Fits a s) :
    FitsOut a (execCanFrameReceive n frame s) := by
  unfold execCanFrameReceive
  with_reducible repeat' first
    | assumption | apply FitsOut.next | apply errorCounters_fits | apply fadd_fits | apply setCan_fits | apply setEvent_fits
    | split

theorem execBusOff_fits {a : State} {n : Fin 2} {rejoined : Bool} {s : State} (h : Fits a s) :
    FitsOut a (execBusOff n rejoined s) := by
  unfold execBusOff
  with_reducible repeat' first
    | assumption | apply FitsOut.next | apply errorCounters_fits | apply fadd_fits | apply fput_fits | apply lifeAdd_fits
    | apply setEvent_fits | split

theorem dropFlit_fits {a s : State} (h : Fits a s) : Fits a (dropFlit s) := by
  unfold dropFlit
  with_reducible repeat' first | assumption | apply fadd_fits

theorem updGroup_fits {a s : State} {g : Nat} {f : GroupSt → GroupSt} (h : Fits a s) : Fits a (updGroup s g f) := by
  unfold updGroup
  with_reducible repeat' first | assumption | simp only [Fits.mk_iff, List.length_set]

theorem forwardUp_fits {a s : State} {g src collSeq : Nat} {body : CtrlBody} (h : Fits a s) :
    Fits a (forwardUp s g src collSeq body) := by
  unfold forwardUp
  with_reducible repeat' first | assumption | apply pushMsg_fits | split

theorem dropTask_fits {a s : State} {id : Nat} (h : Fits a s) : Fits a (dropTask s id) :=
  (freshCores_fits h fun c => c.task == some id).congr

theorem updLetter_fits {a s : State} {ch seq : Nat} {f : Letter → Letter} (h : Fits a s) : Fits a (updLetter s ch seq f) := by
  unfold updLetter
  with_reducible repeat' first | assumption | simp only [Fits.mk_iff]

theorem noteStatus_fits {a s : State} {ch seq status detail : Nat} (h : Fits a s) :
    Fits a (noteStatus s ch seq status detail) := by
  unfold noteStatus
  with_reducible repeat' first | assumption | apply updLetter_fits

theorem updRun_fits {a s : State} {ch seq : Nat} {f : RunSt → RunSt} (h : Fits a s) : Fits a (updRun s ch seq f) := by
  unfold updRun
  with_reducible repeat' first | assumption | apply updLetter_fits

theorem stopRun_fits {a s : State} {ch seq : Nat} (h : Fits a s) : Fits a (stopRun s ch seq) := by
  unfold stopRun
  with_reducible repeat' first | assumption | dsimp only | simp only [Fits.mk_iff] | apply updRun_fits

theorem obsPut_fits {a s : State} {i v : Nat} (h : Fits a s) : Fits a (obsPut s i v) := by
  unfold obsPut
  with_reducible repeat' first | assumption | simp only [Fits.mk_iff]

theorem enterTask_fits {a s : State} {t : Task} (h : Fits a s) : Fits a (enterTask s t) := by
  unfold enterTask
  with_reducible repeat' first | assumption | simp only [Fits.mk_iff] | apply obsPut_fits

theorem enterReady_fits {a s : State} {ch seq : Nat} (h : Fits a s) : Fits a (enterReady s ch seq) := by
  unfold enterReady
  with_reducible repeat' first | intro _ _ _ | assumption | apply enterTask_fits | apply updRun_fits | apply Fits.foldl | split

theorem freeFlow_fits {a s : State} {k : Option Nat} (h : Fits a s) : Fits a (freeFlow s k) := by
  unfold freeFlow
  with_reducible repeat' first | assumption | simp only [Fits.mk_iff] | split

theorem queueVersion_fits {a s : State} {v : Version} (h : Fits a s) : Fits a (queueVersion s v) := by
  unfold queueVersion
  with_reducible repeat' first | assumption | dsimp only | simp only [Fits.mk_iff] | apply commitVersion_fits | split

theorem mirrorReply_fits {a s : State} {ch seq : Nat} {bs : List Byte} (h : Fits a s) : Fits a (mirrorReply s ch seq bs) := by
  unfold mirrorReply
  with_reducible repeat' first | assumption | apply ownWrite_fits

theorem queuedHalf_fits {a s : State} {p : PendReply} (h : Fits a s) : Fits a (queuedHalf s p) := by
  unfold queuedHalf
  with_reducible repeat' first | assumption | apply draw_fits | apply mirrorReply_fits

theorem markWindow_fits {a s : State} {ch seq : Nat} {st : WinSt} (h : Fits a s) : Fits a (markWindow s ch seq st) := by
  unfold markWindow
  with_reducible repeat' first | assumption | dsimp only | apply setChan_fits | split

theorem queueReply_fits {a s : State} {p : PendReply} (h : Fits a s) : Fits a (queueReply s p) := by
  unfold queueReply
  with_reducible repeat' first | assumption | dsimp only | simp only [Fits.mk_iff] | apply markWindow_fits | apply queuedHalf_fits

theorem finishLetter_fits {a s : State} {ch seq : Nat} {r : Result} (h : Fits a s) : Fits a (finishLetter s ch seq r) := by
  unfold finishLetter
  with_reducible repeat' first | assumption | apply queueReply_fits | apply queueVersion_fits | apply updLetter_fits | split

theorem finishRun_fits {a s : State} {l : Letter} {r : RunSt} {p : PlanSt} (h : Fits a s) : Fits a (finishRun s l r p) := by
  unfold finishRun
  with_reducible repeat' first
    | assumption | apply Fits.ite | apply finishLetter_fits | apply freeFlow_fits | apply noteStatus_fits | apply raise_fits

theorem advanceRun_fits {a s : State} {ch seq : Nat} (h : Fits a s) : Fits a (advanceRun s ch seq) := by
  unfold advanceRun
  with_reducible repeat' first
    | assumption | dsimp only | apply enterReady_fits | apply finishRun_fits | apply noteStatus_fits | apply stopRun_fits
    | split

theorem abortOperator_fits {a s : State} {t : Task} {detail : Nat} (h : Fits a s) : Fits a (abortOperator s t detail) := by
  unfold abortOperator
  with_reducible repeat' first
    | assumption | apply advanceRun_fits | apply dropTask_fits | apply noteStatus_fits | apply updRun_fits

theorem countAbort_fits {a s : State} {lost : Bool} (h : Fits a s) : Fits a (countAbort s lost) := by
  unfold countAbort
  with_reducible repeat' first | assumption | apply fadd_fits | apply setEvent_fits | split

theorem obsInc_fits {a s : State} {i : Nat} (h : Fits a s) : Fits a (obsInc s i) := by
  unfold obsInc
  with_reducible repeat' first | assumption | apply obsPut_fits

theorem countEnd_fits {a s : State} {t : Task} (h : Fits a s) : Fits a (countEnd s t) := by
  unfold countEnd
  with_reducible repeat' first | assumption | apply Fits.ite | apply fadd_fits

theorem completeTask_fits {a s : State} {t : Task} (h : Fits a s) : Fits a (completeTask s t) := by
  unfold completeTask
  with_reducible repeat' first
    | assumption | apply advanceRun_fits | apply countEnd_fits | apply dropTask_fits | apply obsInc_fits | apply updRun_fits

theorem completeDirect_fits {a s : State} {t : Task} {result : List Byte} (h : Fits a s) :
    Fits a (completeDirect s t result) := by
  unfold completeDirect
  with_reducible repeat' first
    | assumption | dsimp only | apply dropTask_fits | apply finishLetter_fits | apply noteStatus_fits | apply obsInc_fits
    | split

theorem completeAny_fits {a s : State} {t : Task} {result : List Byte} (h : Fits a s) : Fits a (completeAny s t result) := by
  unfold completeAny
  with_reducible repeat' first | assumption | apply completeDirect_fits | apply completeTask_fits | apply dropTask_fits | split

theorem noteSummary_fits {a s : State} {t : Task} {i : Nat} {port : PortRef} {data : List Byte} (h : Fits a s) :
    Fits a (noteSummary s t i port data) := by
  unfold noteSummary
  with_reducible repeat' first | assumption | simp only [Fits.mk_iff, List.length_mapIdx] | split

theorem originOf_fits {a s : State} {t : Task} (h : Fits a s) : Fits a (originOf s t).1 := by
  unfold originOf
  with_reducible repeat' first | assumption | dsimp only | apply draw_fits | split

theorem takeSeq_fits {a s : State} {pid stream : Nat} (h : Fits a s) : Fits a (takeSeq s pid stream).1 := by
  unfold takeSeq
  with_reducible repeat' first | assumption | dsimp only | simp only [Fits.mk_iff]

theorem updPlan_fits {a s : State} {slot : Nat} {f : PlanSt → PlanSt} (h : Fits a s) : Fits a (updPlan s slot f) := by
  unfold updPlan
  with_reducible repeat' first | assumption | simp only [Fits.mk_iff]

theorem blockedAccess_fits {a s : State} {pid : Option Nat} {sclass : Nat} {write : Bool} (h : Fits a s) :
    Fits a (blockedAccess s pid sclass write) := by
  unfold blockedAccess
  with_reducible repeat' first | assumption | apply fadd_fits | apply raise_fits | apply setEvent_fits | split

theorem noteParity_fits {a s : State} {ks : List Nat} (h : Fits a s) : Fits a (noteParity s ks) := by
  unfold noteParity
  with_reducible repeat' first | intro _ _ _ | assumption | apply errUncorr_fits | apply Fits.foldl

theorem devWrite_fits {a s : State} {pid x : Nat} {bs : List Byte} {sclass : Nat} (h : Fits a s) :
    Fits a (devWrite s pid x bs sclass).1 := by
  unfold devWrite
  split
  · exact h
  · split
    · exact blockedAccess_fits (s := noteParity s _) (pid := some pid) (noteParity_fits h)
    · split
      next hp => exact writeParts_fits h (pooled_dram hp)
      next => exact writeRaw_fits h

theorem putItem_fits {a s : State} {key : Nat} {p : StreamPub} (h : Fits a s) : Fits a (putItem s key p) := by
  unfold putItem
  with_reducible repeat' first | assumption | dsimp only | simp only [Fits.mk_iff]

theorem noteWatch_fits {a s : State} {pid stream sclass flags : Nat} (h : Fits a s) :
    Fits a (noteWatch s pid stream sclass flags) := by
  unfold noteWatch
  with_reducible repeat' first
    | intro _ _ _ | assumption | dsimp only | simp only [Fits.mk_iff, List.length_set] | apply fput_fits | apply Fits.foldl
    | split

theorem putStream_fits {a s : State} {pid stream : Nat} {data : List Byte} {d : Docket} {derived : Bool} (h : Fits a s) :
    Fits a (putStream s pid stream data d derived) := by
  unfold putStream
  with_reducible repeat' first | assumption | apply noteWatch_fits | apply putItem_fits

theorem storePort_fits {a s : State} {pid : Nat} {port : PortRef} {data : List Byte} {d : Docket} {derived : Bool}
    (h : Fits a s) :
    Fits a (storePort s pid port data d derived).1 := by
  unfold storePort
  with_reducible repeat' first
    | assumption | dsimp only | simp only [Fits.mk_iff] | apply devWrite_fits | apply putStream_fits | apply updPlan_fits
    | split

theorem countTags_fits {a s : State} {pid flags : Nat} (h : Fits a s) : Fits a (countTags s pid flags) := by
  unfold countTags
  with_reducible repeat' first | assumption | apply fadd_fits | split

theorem publishOut_fits {a s : State} {t : Task} {port : PortRef} {epoch : Option Nat} {data : List Byte} {flags : Nat}
    (h : Fits a s) :
    Fits a (publishOut s t port epoch data flags) := by
  unfold publishOut
  with_reducible repeat' first
    | assumption | apply Fits.ite | apply countTags_fits | apply fadd_fits | apply noteStatus_fits | apply noteWatch_fits
    | apply originOf_fits | apply raise_fits | apply setEvent_fits | apply storePort_fits | apply takeSeq_fits
    | apply updLetter_fits

theorem publishPorts_fits {a s : State} {t : Task} {ps : List PortRef} {epoch : Option Nat} {own : List Nat} (h : Fits a s) :
    Fits a (publishPorts s t ps epoch own) := by
  unfold publishPorts
  with_reducible repeat' first
    | intro _ _ _ | assumption | apply noteSummary_fits | apply publishOut_fits | apply Fits.foldl | split

theorem publishAll_fits {a s : State} {t : Task} {epoch : Option Nat} {own : List Nat} (h : Fits a s) :
    Fits a (publishAll s t epoch own) := by
  unfold publishAll
  with_reducible repeat' first | assumption | apply publishPorts_fits

theorem applyDecision_fits {a s : State} {g : Nat} {c : CollSt} {commit lost : Bool} {detail : Nat} (h : Fits a s) :
    Fits a (applyDecision s g c commit lost detail) := by
  unfold applyDecision
  with_reducible repeat' first
    | assumption | dsimp only | apply abortOperator_fits | apply completeAny_fits | apply countAbort_fits | apply fadd_fits
    | apply publishAll_fits | apply updGroup_fits | split

theorem decideColl_fits {a s : State} {g : Nat} {c : CollSt} {commit lost : Bool} {detail : Nat} (h : Fits a s) :
    Fits a (decideColl s g c commit lost detail) := by
  unfold decideColl
  with_reducible repeat' first | assumption | apply applyDecision_fits | apply flood_fits

theorem putColl_fits {a s : State} {g : Nat} {c : CollSt} (h : Fits a s) : Fits a (putColl s g c) := by
  unfold putColl
  with_reducible repeat' first | assumption | apply updGroup_fits

theorem tryVote_fits {a s : State} {g : Nat} {c : CollSt} (h : Fits a s) : Fits a (tryVote s g c) := by
  unfold tryVote
  with_reducible repeat' first | assumption | apply decideColl_fits | apply putColl_fits | apply sendTo_fits | split

theorem judgeContrib_fits {a s : State} {g : Nat} {c : CollSt} {d : CollDesc} (h : Fits a s) : Fits a (judgeContrib s g c d) := by
  unfold judgeContrib
  with_reducible repeat' first | assumption | apply decideColl_fits | apply fadd_fits | split

theorem judgeAbort_fits {a s : State} {g : Nat} {c : CollSt} {station : Nat} (h : Fits a s) :
    Fits a (judgeAbort s g c station) := by
  unfold judgeAbort
  with_reducible repeat' first | assumption | apply Fits.ite | apply decideColl_fits | apply putColl_fits

theorem judgeMsg_fits {a s : State} {g src : Nat} {c : CollSt} {x4 : CtrlBody} (h : Fits a s) :
    Fits a (judgeMsg s g src c x4) := by
  unfold judgeMsg
  with_reducible repeat' first
    | assumption | apply applyDecision_fits | apply judgeAbort_fits | apply judgeContrib_fits | apply putColl_fits
    | apply tryVote_fits | split

theorem keepEarly_fits {a s : State} {g seq src : Nat} {b : CtrlBody} (h : Fits a s) : Fits a (keepEarly s g seq src b) := by
  unfold keepEarly
  with_reducible repeat' first | assumption | apply updGroup_fits

theorem deliverMsg_fits {a s : State} {g seq src : Nat} {b : CtrlBody} (h : Fits a s) : Fits a (deliverMsg s g seq src b) := by
  unfold deliverMsg
  with_reducible repeat' first | assumption | apply judgeMsg_fits | apply keepEarly_fits | split

theorem startColl_fits {a s : State} {g : Nat} {t : Task} {p : List W32} {o : OpDesc} (h : Fits a s) :
    Fits a (startColl s g t p o) := by
  unfold startColl
  with_reducible repeat' first
    | intro _ _ | assumption | apply Fits.ite | apply applyDecision_fits | apply deliverMsg_fits | apply forwardUp_fits
    | apply updGroup_fits | apply Fits.foldl

theorem courierTask_fits {a : State} {code task : Nat} {s : State} (h : Fits a s) : FitsOut a (courierTask code task s) := by
  unfold courierTask
  with_reducible repeat' first
    | assumption | apply FitsOut.next | apply abortOperator_fits | apply countAbort_fits | apply startColl_fits | split

theorem execAllreduce_fits {a : State} {task : Nat} {s : State} (h : Fits a s) : FitsOut a (execAllreduce task s) := by
  unfold execAllreduce
  with_reducible repeat' first | assumption | apply courierTask_fits

theorem execBroadcast_fits {a : State} {task : Nat} {s : State} (h : Fits a s) : FitsOut a (execBroadcast task s) := by
  unfold execBroadcast
  with_reducible repeat' first | assumption | apply courierTask_fits

theorem execMergeTopk_fits {a : State} {task : Nat} {s : State} (h : Fits a s) : FitsOut a (execMergeTopk task s) := by
  unfold execMergeTopk
  with_reducible repeat' first | assumption | apply courierTask_fits

theorem execBarrier_fits {a : State} {task : Nat} {s : State} (h : Fits a s) : FitsOut a (execBarrier task s) := by
  unfold execBarrier
  with_reducible repeat' first | assumption | apply courierTask_fits

theorem docketEvent_fits {a s : State} {t : Task} (h : Fits a s) : Fits a (docketEvent s t) := by
  unfold docketEvent
  with_reducible repeat' first | assumption | apply setEvent_fits | split

theorem docketFail_fits {a s : State} {t : Task} (h : Fits a s) : Fits a (docketFail s t) := by
  unfold docketFail
  with_reducible repeat' first | assumption | apply docketEvent_fits | apply errUncorr_fits | apply raise_fits

theorem takeRead_fits {a : State} {x0 : State × Task} {r : PortRead} (h : Fits a x0.1) : Fits a (takeRead x0 r).1 := by
  unfold takeRead
  with_reducible repeat' first | assumption | dsimp only | apply docketFail_fits | apply noteStatus_fits | split

theorem takeParts_fits {a s : State} {t : Task} {parts : List CollPart} (h : Fits a s) : Fits a (takeParts s t parts).1 := by
  unfold takeParts
  with_reducible repeat' first
    | intro _ _ _ | assumption | apply Fits.ite | apply noteStatus_fits | apply takeRead_fits | apply Fits.foldl1

theorem putTask_fits {a s : State} {t : Task} (h : Fits a s) : Fits a (putTask s t) := by
  unfold putTask
  with_reducible repeat' first | assumption | simp only [Fits.mk_iff]

theorem execStagingComplete_fits {a : State} {g : Fin 16} {parts : List CollPart} {s : State} (h : Fits a s) :
    FitsOut a (execStagingComplete g parts s) := by
  unfold execStagingComplete
  with_reducible repeat' first
    | assumption | apply FitsOut.next | apply putColl_fits | apply putTask_fits | apply takeParts_fits | apply tryVote_fits
    | split

theorem execContrib_fits {a : State} {flit : FlitIn} {desc : CollDesc} {start : W64} {s : State} (h : Fits a s) :
    FitsOut a (execContrib flit desc start s) := by
  unfold execContrib
  with_reducible repeat' first
    | assumption | apply FitsOut.next | apply FitsOut.ite | apply deliverMsg_fits | apply dropFlit_fits | apply forwardUp_fits

theorem execVote_fits {a : State} {flit : FlitIn} {start : W64} {aligned : Bool} {s : State} (h : Fits a s) :
    FitsOut a (execVote flit start aligned s) := by
  unfold execVote
  with_reducible repeat' first | assumption | apply FitsOut.next | apply deliverMsg_fits | apply dropFlit_fits | split

theorem execDecide_fits {a : State} {flit : FlitIn} {commit : Bool} {detail : W32} {s : State} (h : Fits a s) :
    FitsOut a (execDecide flit commit detail s) := by
  unfold execDecide
  with_reducible repeat' first
    | assumption | apply FitsOut.next | apply FitsOut.ite | apply deliverMsg_fits | apply dropFlit_fits | apply flood_fits

theorem execAbortReq_fits {a : State} {flit : FlitIn} {station : BitVec 12} {s : State} (h : Fits a s) :
    FitsOut a (execAbortReq flit station s) := by
  unfold execAbortReq
  with_reducible repeat' first
    | assumption | apply FitsOut.next | apply FitsOut.ite | apply deliverMsg_fits | apply dropFlit_fits | apply flood_fits

theorem execCollectiveTimeout_fits {a : State} {g : Fin 16} {s : State} (h : Fits a s) :
    FitsOut a (execCollectiveTimeout g s) := by
  unfold execCollectiveTimeout
  with_reducible repeat' first | assumption | apply FitsOut.next | apply applyDecision_fits | split

theorem nakOnce_fits {a s : State} {n : Nat} (h : Fits a s) : Fits a (nakOnce s n) := by
  unfold nakOnce
  with_reducible repeat' first | assumption | apply Fits.ite | apply fadd_fits | apply send_fits | apply setBundle_fits

theorem rewind_fits {a s : State} {b n : Nat} (h : Fits a s) : Fits a (rewind s b n) := by
  unfold rewind
  with_reducible repeat' first
    | intro _ _ | assumption | apply fadd_fits | apply ledgerAdd_fits | apply setBundle_fits | apply transmit_fits
    | apply Fits.foldl

theorem drainWait_fits {a s : State} {k b n : Nat} (h : Fits a s) : Fits a (drainWait k s b n) := by
  induction k generalizing s with
  | zero => exact h
  | succ k ih =>
    unfold drainWait
    dsimp only
    split
    · exact h
    · exact Fits.ite h (ih (pushMsg_fits (setBundle_fits h)))

theorem useAck_fits {a s : State} {n ack : Nat} (h : Fits a s) : Fits a (useAck s n ack) := by
  unfold useAck
  with_reducible repeat' first | assumption | apply Fits.ite | apply drainWait_fits | apply setBundle_fits

theorem useNak_fits {a s : State} {n : Nat} {nak : Bool} (h : Fits a s) : Fits a (useNak s n nak) := by
  unfold useNak
  with_reducible repeat' first | assumption | apply rewind_fits | split

theorem execFlitReceive_fits {a : State} {link : Fin 6} {bytes : List Byte} {s : State} (h : Fits a s) :
    FitsOut a (execFlitReceive link bytes s) := by
  unfold execFlitReceive
  with_reducible repeat' first
    | assumption | simp only [Fits.mk_iff, List.length_set] | apply FitsOut.next | apply FitsOut.ite | apply fadd_fits
    | apply ledgerAdd_fits | apply nakOnce_fits | apply setBundle_fits | apply useAck_fits | apply useNak_fits

theorem execLinkRewind_fits {a : State} {link : Fin 6} {s : State} (h : Fits a s) : FitsOut a (execLinkRewind link s) := by
  unfold execLinkRewind
  with_reducible repeat' first | assumption | apply FitsOut.next | apply FitsOut.ite | apply rewind_fits

theorem treeLost_fits {a s : State} {x1 : Nat} (h : Fits a s) : Fits a (treeLost s x1) := by
  unfold treeLost
  with_reducible repeat' first
    | intro _ _ _ | assumption | apply flood_fits | apply judgeAbort_fits | apply putColl_fits | apply Fits.foldl | split

theorem execLinkDown_fits {a : State} {link : Fin 6} {s : State} (h : Fits a s) : FitsOut a (execLinkDown link s) := by
  unfold execLinkDown
  with_reducible repeat' first
    | assumption | dsimp only | apply FitsOut.next | apply fadd_fits | apply fput_fits | apply ledgerAdd_fits
    | apply rewind_fits | apply setBundle_fits | apply setEvent_fits | apply treeLost_fits | split

theorem execLinkTraining_fits {a : State} {link : Fin 6} {s : State} (h : Fits a s) : FitsOut a (execLinkTraining link s) := by
  unfold execLinkTraining
  with_reducible repeat' first
    | assumption | simp only [Fits.mk_iff, List.length_set] | apply FitsOut.next | apply FitsOut.ite | apply fput_fits

theorem startStream_fits {a s : State} (h : Fits a s) : Fits a (startStream s) := by
  unfold startStream
  with_reducible repeat' first
    | intro _ _ _ | assumption | simp only [Fits.mk_iff] | apply sendEntry_fits | apply Fits.foldl | split

theorem execTrainingComplete_fits {a : State} {link : Fin 6} {peer : BitVec 12} {trained standby : Bool} {s : State}
    (h : Fits a s) :
    FitsOut a (execTrainingComplete link peer trained standby s) := by
  unfold execTrainingComplete
  with_reducible repeat' first
    | assumption | dsimp only | simp only [Fits.mk_iff, List.length_set] | apply FitsOut.next | apply floodDesync_fits
    | apply fput_fits | apply ledgerAdd_fits | apply setEvent_fits | apply startStream_fits | split

theorem execDesync_fits {a : State} {flit : FlitIn} {s : State} (h : Fits a s) : FitsOut a (execDesync flit s) := by
  unfold execDesync
  with_reducible repeat' first
    | assumption | apply FitsOut.next | apply dropFlit_fits | apply flood_fits | apply setEvent_fits | apply setSynced_fits
    | split

theorem countRsvd_fits {a s : State} {page off counted : Nat} (h : Fits a s) : Fits a (countRsvd s page off counted) := by
  unfold countRsvd
  with_reducible repeat' first | assumption | apply fadd_fits | apply fput_fits | apply setEvent_fits

theorem unflip_fits {a s : State} {page off mask : Nat} (h : Fits a s) : Fits a (unflip s page off mask) := by
  unfold unflip
  with_reducible repeat' first | assumption | dsimp only | simp only [Fits.mk_iff]

theorem writeField_fits {a : State} {deny : DenyRule} {page off cur new mask : Nat} {x : WriteAcc} {r : RegRow × Nat × Nat}
    (h : Fits a x.s) : Fits a (writeField deny page off cur new mask x r).s := by
  unfold writeField
  repeat' first
    | with_reducible assumption
    | dsimp only
    | with_reducible apply Fits.ite
    | with_reducible apply unflip_fits
    | with_reducible apply regPut_fits
    | with_reducible apply setEvent_fits
    | with_reducible intro _ _ _
    | with_reducible apply Fits.foldl
    | split

theorem writeFields_fits {a : State} {deny : DenyRule} {page off cur new mask : Nat} {l : List (RegRow × Nat × Nat)}
    {x : WriteAcc} (h : Fits a x.s) : Fits a (l.foldl (writeField deny page off cur new mask) x).s := by
  induction l generalizing x with
  | nil => exact h
  | cons r l ih => exact ih (writeField_fits h)

theorem badValue_fits {a s : State} {page : Nat} (h : Fits a s) : Fits a (badValue s page) := by
  unfold badValue
  with_reducible repeat' first | assumption | apply setEvent_fits

theorem writeWord_fits {a s : State} {deny : DenyRule} {q : Requester} {page off : Nat} {v : W32} {be : BitVec 4}
    (h : Fits a s) : Fits a (writeWord deny s q page off v be) := by
  unfold writeWord
  repeat' first
    | with_reducible assumption
    | dsimp only
    | with_reducible apply Fits.ite
    | with_reducible apply pageIrq_fits
    | with_reducible apply countRsvd_fits
    | with_reducible apply badValue_fits
    | with_reducible apply writeFields_fits

theorem regWrite_fits {a : State} {deny : DenyRule} {s : State} {q : Requester} {page off : Nat} {v : W32} {be : BitVec 4}
    (h : Fits a s) :
    Fits a (regWrite deny s q page off v be) := by
  unfold regWrite
  with_reducible repeat' first
    | assumption | apply blockedAccess_fits | apply countRsvd_fits | apply noteParity_fits | apply writeWord_fits | split

theorem execResyncGo_fits {a : State} {q : Requester} {v : W32} {be : BitVec 4} {s : State} (h : Fits a s) :
    FitsOut a (execResyncGo q v be s) := by
  unfold execResyncGo
  with_reducible repeat' first
    | assumption | apply FitsOut.next | apply FitsOut.ite | apply flood_fits | apply fput_fits | apply regWrite_fits
    | apply updGroup_fits

theorem execResync_fits {a : State} {flit : FlitIn} {word : W32} {s : State} (h : Fits a s) :
    FitsOut a (execResync flit word s) := by
  unfold execResync
  with_reducible repeat' first
    | assumption | apply FitsOut.next | apply FitsOut.ite | apply dropFlit_fits | apply flood_fits | apply sendTo_fits
    | apply setEvent_fits | apply setSynced_fits | apply updGroup_fits

theorem execResyncComplete_fits {a : State} {flit : FlitIn} {s : State} (h : Fits a s) :
    FitsOut a (execResyncComplete flit s) := by
  unfold execResyncComplete
  with_reducible repeat' first
    | assumption | apply FitsOut.next | apply FitsOut.ite | apply flood_fits | apply fput_fits | apply setSynced_fits
    | apply updGroup_fits | split

theorem updAlign_fits {a s : State} {f : AlignSt → AlignSt} (h : Fits a s)
    (hf : ∀ x, x.sums.length = 6 → (f x).sums.length = 6) : Fits a (updAlign s f) :=
  h.trans ⟨fun k => ⟨k.1, k.2, k.3, k.4, k.5, k.6, k.7, k.8, k.9, k.10, k.11⟩, id, hf _, id, id, id⟩

theorem beginAlign_fits {a s : State} (h : Fits a s) : Fits a (beginAlign s) := by
  unfold beginAlign
  with_reducible repeat' first | assumption | apply fput_fits | apply updAlign_fits | exact fun _ _ => List.length_replicate

theorem execAlignGo_fits {a : State} {q : Requester} {v : W32} {be : BitVec 4} {s : State} (h : Fits a s) :
    FitsOut a (execAlignGo q v be s) := by
  unfold execAlignGo
  with_reducible repeat' first
    | assumption | apply FitsOut.next | apply FitsOut.ite | apply beginAlign_fits | apply fput_fits | apply regWrite_fits

theorem roundDiv_fits {a s : State} {v : Int} {d : Nat} (h : Fits a s) : Fits a (roundDiv s v d).1 := by
  unfold roundDiv
  with_reducible repeat' first | assumption | dsimp only | apply draw_fits | split

theorem alignAdj_fits {a s : State} {behind : Int} (h : Fits a s) : Fits a (alignAdj s behind).1 := by
  unfold alignAdj
  with_reducible repeat' first | assumption | apply roundDiv_fits

theorem setAdj_fits {a s : State} {v : Nat} (h : Fits a s) : Fits a (setAdj s v) := by
  unfold setAdj
  with_reducible repeat' first | assumption | dsimp only | simp only [Fits.mk_iff] | apply fput_fits

theorem finishHop_fits {a s : State} {n : Nat} {theta2 delay2 behind : Int} (h : Fits a s) :
    Fits a (finishHop s n theta2 delay2 behind) := by
  unfold finishHop
  with_reducible repeat' first
    | assumption | apply Fits.ite | apply alignAdj_fits | apply fput_fits | apply roundDiv_fits | apply setAdj_fits
    | apply updAlign_fits | exact fun _ k => k | split

theorem execTimeExchange_fits {a : State} {link : Fin 6} {t1 t2 t3 t4 : W64} {behind : Int} {s : State} (h : Fits a s) :
    FitsOut a (execTimeExchange link t1 t2 t3 t4 behind s) := by
  unfold execTimeExchange
  with_reducible repeat' first
    | assumption | apply FitsOut.next | apply FitsOut.ite | apply beginAlign_fits | apply finishHop_fits | apply updAlign_fits
    | exact fun _ k => List.length_set.trans k | split

theorem execAlignmentComplete_fits {a s : State} (h : Fits a s) : FitsOut a (execAlignmentComplete s) := by
  unfold execAlignmentComplete
  with_reducible repeat' first
    | assumption | apply FitsOut.next | apply fputs_fits | apply updAlign_fits | exact fun _ k => k | split

theorem execTimeDriftCheck_fits {a : State} {link : Fin 6} {theta : Int} {s : State} (h : Fits a s) :
    FitsOut a (execTimeDriftCheck link theta s) := by
  unfold execTimeDriftCheck
  with_reducible repeat' first
    | assumption | apply FitsOut.next | apply FitsOut.ite | apply fadd_fits | apply fput_fits | apply setEvent_fits
    | apply updAlign_fits | exact fun _ k => k

theorem popVersion_fits {a s : State} (h : Fits a s) : Fits a (popVersion s) := by
  unfold popVersion
  with_reducible repeat' first | assumption | dsimp only | simp only [Fits.mk_iff] | split

theorem execJournalWrite_fits {a : State} {res : MramResult} {s : State} (h : Fits a s) : FitsOut a (execJournalWrite res s) := by
  unfold execJournalWrite
  with_reducible repeat' first
    | assumption | apply FitsOut.next | apply commitVersion_fits | apply daybookFail_fits | apply failedSlot_fits
    | apply popVersion_fits | apply slotPut_fits | split

theorem takeCell_fits {a s : State} (h : Fits a s) : Fits a (takeCell s).1 := by
  unfold takeCell
  with_reducible repeat' first | assumption | dsimp only | simp only [Fits.mk_iff] | split

end Sys2Proof.Machine
end

section
/-! SUPPORT. Every operation of the units, the partitions, the Letters and the commands on them keeps the shape. -/

namespace Sys2Proof.Machine

theorem enterWindow_fits {a s : State} {ch seq : Nat} {st : WinSt} (h : Fits a s) : Fits a (enterWindow s ch seq st) := by
  unfold enterWindow
  with_reducible repeat' first | assumption | apply setChan_fits

theorem freeCredit_fits {a s : State} {ch : Nat} {strict : Bool} (h : Fits a s) : Fits a (freeCredit s ch strict) := by
  unfold freeCredit
  with_reducible repeat' first | assumption | apply fput_fits | split

theorem leaveFlight_fits {a s : State} {p : PendReply} (h : Fits a s) : Fits a (leaveFlight s p) := by
  unfold leaveFlight
  with_reducible repeat' first | assumption | simp only [Fits.mk_iff] | apply Fits.ite | apply freeCredit_fits

theorem hostPut_fits {a s : State} {a' : Nat} {bs : List Byte} (h : Fits a s) : Fits a (hostPut s a' bs) := by
  unfold hostPut
  with_reducible repeat' first | assumption | simp only [Fits.mk_iff]

theorem queryDaybook_fits {a s : State} {ch pid start count dst : Nat} (h : Fits a s) :
    Fits a (queryDaybook s ch pid start count dst).1 := by
  unfold queryDaybook
  with_reducible repeat' first | assumption | apply hostPut_fits | apply readDaybook_fits

theorem complete_fits {a s : State} {bs : List Byte} (h : Fits a s) : Fits a (complete s bs) := by
  unfold complete
  with_reducible repeat' first | assumption | simp only [Fits.mk_iff]

theorem poisonCompletion_fits {a s : State} {f n : Nat} (h : Fits a s) : Fits a (poisonCompletion s f n) := by
  unfold poisonCompletion
  with_reducible repeat' first | assumption | apply complete_fits | apply send_fits

theorem cacheRead_fits {a s : State} {pid x2 n sclass : Nat} (h : Fits a s) (hdram : dramBase ≤ x2) :
    Fits a (cacheRead s pid x2 n sclass).1 := by
  have htouch := touchLine_fits (pid := pid) (sclass := sclass) h (line := x2 / 256 * 256) (by unfold dramBase at *; omega)
  unfold cacheRead
  dsimp only
  split
  · exact lineWords_fits htouch
  · exact htouch

/-- A read of a range that begins in LPDDR5X, through the pool. -/
theorem readParts_fits {a : State} {pid x n sclass : Nat} {r : State × List Byte × Bool} (h : Fits a r.1) (hx : dramBase ≤ x) :
    Fits a ((lineParts x n).foldl (fun (r : State × List Byte × Bool) p =>
      ((cacheRead r.1 pid p.1 p.2 sclass).1, r.2.1 ++ (cacheRead r.1 pid p.1 p.2 sclass).2.1,
        r.2.2 || (cacheRead r.1 pid p.1 p.2 sclass).2.2)) r).1 :=
  Fits.foldl1_mem h fun _ p hp k => cacheRead_fits k (hx.trans (lineParts_within p hp).1)

theorem readRaw_fits {a s : State} {x1 n sclass pid : Nat} (h : Fits a s) : Fits a (readRaw s x1 n sclass pid).1 := by
  unfold readRaw
  with_reducible repeat' first | assumption | apply readWord_fits | apply Fits.foldl1

theorem devRead_fits {a s : State} {pid x2 n sclass : Nat} (h : Fits a s) : Fits a (devRead s pid x2 n sclass).1 := by
  unfold devRead
  split
  · exact h
  · split
    · exact blockedAccess_fits (s := noteParity s _) (pid := some pid) (noteParity_fits h)
    · split
      next hp => exact readParts_fits (r := (s, _, _)) h (pooled_dram hp)
      next => exact readRaw_fits h

theorem mramFail_fits {a s : State} {w : Nat} (h : Fits a s) : Fits a (mramFail s w) := by
  unfold mramFail
  with_reducible repeat' first | assumption | apply Fits.ite | apply daybookFail_fits | apply ledgerFail_fits

theorem pidRead_fits {a s : State} {pid x2 n sclass : Nat} (h : Fits a s) : Fits a (pidRead s pid x2 n sclass).1 := by
  unfold pidRead
  with_reducible repeat' first | assumption | dsimp only | apply devRead_fits | apply mramFail_fits | apply Fits.foldl | split

theorem bar2Read_fits {a s : State} {f off len : Nat} (h : Fits a s) : Fits a (bar2Read s f off len) := by
  unfold bar2Read
  with_reducible repeat' first
    | assumption | dsimp only | apply blockedAccess_fits | apply complete_fits | apply noteParity_fits | apply pidRead_fits
    | apply poisonCompletion_fits | apply send_fits | split

theorem pidWrite_fits {a s : State} {pid x2 : Nat} {bs : List Byte} {sclass : Nat} (h : Fits a s) :
    Fits a (pidWrite s pid x2 bs sclass).1 := by
  unfold pidWrite
  with_reducible repeat' first | assumption | dsimp only | apply devWrite_fits | apply mramFail_fits | apply Fits.foldl | split

theorem bar2Write_fits {a s : State} {f off : Nat} {data : List Byte} (h : Fits a s) : Fits a (bar2Write s f off data) := by
  unfold bar2Write
  with_reducible repeat' first | assumption | apply blockedAccess_fits | apply noteParity_fits | apply pidWrite_fits | split

theorem bar2Access_fits {a s : State} {x : HostAccess} (h : Fits a s) : Fits a (bar2Access s x) := by
  unfold bar2Access
  with_reducible repeat' first | assumption | apply bar2Read_fits | apply bar2Write_fits | split

theorem drainList_fits {a s : State} {l : List HostAccess} (h : Fits a s) : Fits a (drainList l s) := by
  induction l generalizing s with
  | nil => exact Fits.trans h (by simp -zeta only [drainList, Fits.mk_iff]; exact .refl s)
  | cons x l ih =>
    unfold drainList
    repeat' with_reducible first
      | assumption | apply ih | apply bar2Access_fits | simp -zeta only [Fits.mk_iff] | split

theorem drainBar2_fits {a s : State} (h : Fits a s) : Fits a (drainBar2 s) := by
  unfold drainBar2
  with_reducible repeat' first | assumption | apply drainList_fits

theorem bar2Arrive_fits {a s : State} {x : HostAccess} (h : Fits a s) : Fits a (bar2Arrive s x) := by
  unfold bar2Arrive
  with_reducible repeat' first | assumption | simp only [Fits.mk_iff] | apply Fits.ite | apply bar2Access_fits

theorem execBar2Read_fits {a : State} {f : Fin 16} {off : W64} {len : Nat} {s : State} (h : Fits a s) :
    FitsOut a (execBar2Read f off len s) := by
  unfold execBar2Read
  with_reducible repeat' first | assumption | apply FitsOut.next | apply bar2Arrive_fits

theorem execBar2Write_fits {a : State} {f : Fin 16} {off : W64} {data : List Byte} {s : State} (h : Fits a s) :
    FitsOut a (execBar2Write f off data s) := by
  unfold execBar2Write
  with_reducible repeat' first | assumption | apply FitsOut.next | apply bar2Arrive_fits

theorem takeMr4_fits {a s : State} {mr4 : W16} (h : Fits a s) : Fits a (takeMr4 s mr4) := by
  unfold takeMr4
  with_reducible repeat' first | assumption | apply accrue_fits | apply fput_fits

theorem issueRefresh_fits {a s : State} (h : Fits a s) : Fits a (issueRefresh s) := by
  unfold issueRefresh
  with_reducible repeat' first
    | intro _ _ _ | assumption | dsimp only | simp only [Fits.mk_iff] | apply fadd_fits | apply Fits.foldl | split

theorem patrolRead_fits {a s : State} (h : Fits a s) : Fits a (patrolRead s) := by
  unfold patrolRead
  with_reducible repeat' first
    | assumption | dsimp only | simp only [Fits.mk_iff] | apply countCorr_fits | apply countUncorr_fits | apply eccSet_fits
    | apply fadd_fits | split

theorem execRefresh_fits {a : State} {mr4 : W16} {s : State} (h : Fits a s) : FitsOut a (execRefresh mr4 s) := by
  unfold execRefresh
  with_reducible repeat' first
    | assumption | apply FitsOut.next | apply issueRefresh_fits | apply patrolRead_fits | apply takeMr4_fits | apply Fits.iter
    | split

theorem execRefreshSlot_fits {a : State} {slot : Nat} {mr4 : W16} {s : State} (h : Fits a s) :
    FitsOut a (execRefreshSlot slot mr4 s) := by
  unfold execRefreshSlot
  with_reducible repeat' first
    | assumption | simp only [Fits.mk_iff] | apply FitsOut.next | apply issueRefresh_fits | apply patrolRead_fits
    | apply takeMr4_fits | apply Fits.iter | split

theorem mapTasks_fits {a s : State} {f : Task → Task} (h : Fits a s) : Fits a (mapTasks s f) := by
  unfold mapTasks
  with_reducible repeat' first | assumption | simp only [Fits.mk_iff]

theorem execRefreshOverrun_fits {a : State} {mr4 : W16} {delayed : List Nat} {s : State} (h : Fits a s) :
    FitsOut a (execRefreshOverrun mr4 delayed s) := by
  unfold execRefreshOverrun
  with_reducible repeat' first
    | assumption | dsimp only | apply FitsOut.next | apply fadd_fits | apply issueRefresh_fits | apply lifeAdd_fits
    | apply mapTasks_fits | apply raise_fits | apply takeMr4_fits | split

theorem localWrite_fits {a s : State} {t : Task} {x2 : Nat} {bs : List Byte} (h : Fits a s) : Fits a (localWrite s t x2 bs) := by
  unfold localWrite
  with_reducible repeat' first | intro _ _ | assumption | apply writeRaw_fits | apply Fits.foldl

theorem addPort_fits {a : State} {t : Task} {isOut : Bool} {base : Nat} {x3 : CallAcc} {x : Nat × PortRef × Nat}
    (h : Fits a x3.s) :
    Fits a (addPort t isOut base x3 x).s := by
  unfold addPort
  with_reducible repeat' first | assumption | apply Fits.ite | apply draw_fits

theorem addPorts_fits {a : State} {t : Task} {isOut : Bool} {base : Nat} {l : List (Nat × PortRef × Nat)} {x : CallAcc}
    (h : Fits a x.s) : Fits a (l.foldl (addPort t isOut base) x).s := by
  induction l generalizing x with
  | nil => exact h
  | cons r l ih => exact ih (addPort_fits h)

theorem CallAcc_pad_fits {a : State} {x0 : CallAcc} {n : Nat} (h : Fits a x0.s) : Fits a (CallAcc.pad x0 n).s := by
  unfold CallAcc.pad
  exact h

theorem freeBytes_fits {a s : State} {n : Nat} (h : Fits a s) : Fits a (freeBytes s n).1 := by
  unfold freeBytes
  with_reducible repeat' first | assumption | apply draw_fits

theorem outBuffers_fits {a s : State} {t : Task} (h : Fits a s) : Fits a (outBuffers s t).1 := by
  unfold outBuffers
  with_reducible repeat' first | intro _ _ _ | assumption | apply freeBytes_fits | apply Fits.foldl1 | split

theorem prologue_fits {a s : State} {t : Task} {p : PlanSt} {o : OpDesc} (h : Fits a s) : Fits a (prologue s t p o) := by
  unfold prologue
  with_reducible repeat' first
    | intro _ _ _ | assumption | apply Fits.ite | apply CallAcc_pad_fits | apply addPorts_fits | apply localWrite_fits
    | apply outBuffers_fits | apply putTask_fits | apply setCore_fits | simp only [CoreFits.mk_iff] | apply wx_fits
    | exact CoreSt.fresh_fits | apply zeroRange_fits | apply Fits.foldl

theorem countDispatch_fits {a s : State} {t : Task} (h : Fits a s) : Fits a (countDispatch s t) := by
  unfold countDispatch
  with_reducible repeat' first | assumption | apply obsInc_fits

theorem markStarted_fits {a s : State} {ch seq : Nat} (h : Fits a s) : Fits a (markStarted s ch seq) := by
  unfold markStarted
  with_reducible repeat' first | assumption | apply queueVersion_fits | apply updLetter_fits | split

theorem looseTag_fits {a s : State} {t : Task} (h : Fits a s) : Fits a (looseTag s t).1 := by
  unfold looseTag
  with_reducible repeat' first | assumption | apply draw_fits | split

theorem takeArea_fits {a s : State} {t : Task} {n : Nat} (h : Fits a s) : Fits a (takeArea s t n).1 := by
  unfold takeArea
  with_reducible repeat' first | intro _ _ _ | assumption | apply draw_fits | apply writeRaw_fits | apply Fits.foldl

theorem takeScratch_fits {a s : State} {t : Task} (h : Fits a s) : Fits a (takeScratch s t).1 := by
  unfold takeScratch
  with_reducible repeat' first | assumption | dsimp only | apply takeArea_fits | split

theorem countMisses_fits {a s : State} {u : Nat} {f : State → State} (h : Fits a s) (hk : ∀ s, Fits a s → Fits a (f s)) :
    Fits a (countMisses s u f) := by
  unfold countMisses
  with_reducible repeat' first | apply hk | assumption | apply fadd_fits

theorem poolReads_fits {a s : State} {t : Task} {p : List W32} {o : OpDesc} {m : Macro} {reads : List (Nat × List Nat)}
    (h : Fits a s) : Fits a (poolReads s t p o m reads) := by
  unfold poolReads
  refine Fits.foldl h fun s r hs => ?_
  split
  · split
    next hp =>
      rw [Bool.and_eq_true] at hp
      exact Fits.foldl hs fun _ l k => cacheRead_fits k ((pooled_dram hp.1).trans (Nat.le_max_left _ _))
    next => exact hs
  · exact hs

theorem walkIn_fits {a s : State} {t : Task} (h : Fits a s) : Fits a (walkIn s t).1 := by
  unfold walkIn
  with_reducible repeat' first
    | intro _ _ _ | intro _ _ | assumption | apply countMisses_fits | apply poolReads_fits | apply takeArea_fits
    | apply Fits.foldl | split

theorem readRange_fits {a s : State} {t : Task} {x2 n : Nat} (h : Fits a s) : Fits a (readRange s t x2 n).1 := by
  unfold readRange
  with_reducible repeat' first | assumption | apply Fits.ite | apply devRead_fits

theorem readPort_fits {a s : State} {t : Task} {port : PortRef} (h : Fits a s) : Fits a (readPort s t port).1 := by
  unfold readPort
  with_reducible repeat' first | assumption | apply readRange_fits | split

theorem noteTaken_fits {a s : State} {fs : List FrameRef} (h : Fits a s) : Fits a (noteTaken s fs) := by
  unfold noteTaken
  refine h.filters List.length_mapIdx fun ho f hf => ?_
  obtain ⟨i, hi, rfl⟩ := List.mem_mapIdx.1 hf
  have hold := ho _ (List.getElem_mem hi)
  split <;> exact hold

theorem loadTask_fits {a s : State} {t : Task} (h : Fits a s) : Fits a (loadTask s t).1 := by
  unfold loadTask
  with_reducible repeat' first
    | intro _ _ _ | assumption | apply Fits.ite | apply noteStatus_fits | apply noteTaken_fits | apply readPort_fits
    | apply takeRead_fits | apply Fits.foldl1

theorem startTask_fits {a s : State} {t : Task} {units : List Nat} {budgetEnd : Nat} (h : Fits a s) :
    Fits a (startTask s t units budgetEnd) := by
  unfold startTask
  with_reducible repeat' first
    | assumption | dsimp only | apply countDispatch_fits | apply loadTask_fits | apply looseTag_fits | apply markStarted_fits
    | apply prologue_fits | apply putTask_fits | apply takeScratch_fits | apply updRun_fits | apply walkIn_fits | split

theorem discard_fits {a s : State} {i : Nat} {count : Fld} {struct_ : Bool} (h : Fits a s) :
    Fits a (discard s i count struct_) := by
  unfold discard
  with_reducible repeat' first | assumption | apply fadd_fits | apply raise_fits | apply setEvent_fits

theorem discardStruct_fits {a s : State} {i : Nat} (h : Fits a s) : Fits a (discardStruct s i) := by
  unfold discardStruct
  with_reducible repeat' first | assumption | apply discard_fits

theorem discardSensor_fits {a s : State} {i : Nat} (h : Fits a s) : Fits a (discardSensor s i) := by
  unfold discardSensor
  with_reducible repeat' first | assumption | apply discard_fits

theorem startFrame_fits {a s : State} {i fnum pm : Nat} (h : Fits a s) : Fits a (startFrame s i fnum pm) := by
  unfold startFrame
  with_reducible repeat' first
    | assumption | apply discard_fits | apply discardStruct_fits | apply setFilter_fits | simp only [FilterFits.mk_iff]
    | apply filterAt_fits | split

theorem breakFrame_fits {a s : State} {i : Nat} (h : Fits a s) : Fits a (breakFrame s i) := by
  unfold breakFrame
  with_reducible repeat' first | assumption | apply setFilter_fits | simp only [FilterFits.mk_iff] | apply filterAt_fits

theorem takeLine_fits {a : State} {payload : List Byte} {s : State} {i : Nat} (h : Fits a s) : Fits a (takeLine payload s i) := by
  unfold takeLine
  with_reducible repeat' first
    | assumption | apply devWrite_fits | apply setFilter_fits | simp only [FilterFits.mk_iff] | apply filterAt_fits | split

theorem takeTag_fits {a : State} {payload : List Byte} {s : State} {i : Nat} (h : Fits a s) : Fits a (takeTag payload s i) := by
  unfold takeTag
  with_reducible repeat' first | assumption | apply setFilter_fits | simp only [FilterFits.mk_iff] | apply filterAt_fits

theorem passFrame_fits {a s : State} {i : Nat} {c : FrameSt} (h : Fits a s) : Fits a (passFrame s i c) := by
  unfold passFrame
  with_reducible repeat' first
    | assumption | apply Fits.ite | apply devWrite_fits | apply discardStruct_fits | apply setFilter_fits
    | simp only [FilterFits.mk_iff] | apply filterAt_fits

theorem checkFrame_fits {a s : State} {i : Nat} {c : FrameSt} (h : Fits a s) : Fits a (checkFrame s i c) := by
  unfold checkFrame
  with_reducible repeat' first
    | assumption | apply Fits.ite | apply discard_fits | apply discardSensor_fits | apply fadd_fits | apply passFrame_fits
    | apply setFilter_fits | simp only [FilterFits.mk_iff] | apply filterAt_fits

theorem endFrame_fits {a s : State} {i fnum : Nat} (h : Fits a s) : Fits a (endFrame s i fnum) := by
  unfold endFrame
  with_reducible repeat' first
    | assumption | apply checkFrame_fits | apply discardSensor_fits | apply discardStruct_fits | apply passFrame_fits
    | apply setFilter_fits | simp only [FilterFits.mk_iff] | apply filterAt_fits | split

theorem setFifo_fits {a s : State} {port : Nat} {l : List FifoItem} (h : Fits a s) : Fits a (setFifo s port l) := by
  unfold setFifo
  with_reducible repeat' first | assumption | simp only [Fits.mk_iff, List.length_set]

theorem takeItem_fits {a s : State} {x1 : FifoItem} (h : Fits a s) : Fits a (takeItem s x1) := by
  unfold takeItem
  with_reducible repeat' first
    | assumption | apply breakFrame_fits | apply endFrame_fits | apply startFrame_fits | apply takeLine_fits
    | apply takeTag_fits | split

theorem drainFifo_fits {a s : State} {port n : Nat} (h : Fits a s) : Fits a (drainFifo port n s) := by
  induction n generalizing s with
  | zero => exact h
  | succ n ih =>
    unfold drainFifo
    repeat' with_reducible first | assumption | apply ih | apply takeItem_fits | apply setFifo_fits | split

theorem drainPort_fits {a s : State} {port : Nat} (h : Fits a s) : Fits a (drainPort s port) := by
  unfold drainPort
  with_reducible repeat' first | assumption | apply drainFifo_fits

theorem drainPorts_fits {a s : State} (h : Fits a s) : Fits a (drainPorts s) := by
  unfold drainPorts
  with_reducible repeat' first | assumption | apply drainPort_fits | apply Fits.foldl

theorem notePeak_fits {a s : State} {port : Nat} (h : Fits a s) : Fits a (notePeak s port) := by
  unfold notePeak
  with_reducible repeat' first | assumption | apply fput_fits

theorem overflow_fits {a s : State} {port i : Nat} (h : Fits a s) : Fits a (overflow s port i) := by
  unfold overflow
  with_reducible repeat' first
    | assumption | apply discard_fits | apply setFifo_fits | apply setFilter_fits | simp only [FilterFits.mk_iff]
    | apply filterAt_fits

theorem pushItem_fits {a : State} {port : Nat} {s : State} {x : FifoItem} (h : Fits a s) : Fits a (pushItem port s x) := by
  unfold pushItem
  with_reducible repeat' first
    | assumption | apply Fits.ite | apply drainPort_fits | apply notePeak_fits | apply overflow_fits | apply setFifo_fits

theorem countUnknown_fits {a s : State} {port : Nat} (h : Fits a s) : Fits a (countUnknown s port) := by
  unfold countUnknown
  with_reducible repeat' first | assumption | apply fadd_fits

theorem takePhy_fits {a s : State} {port : Nat} {x : PhyIn} (h : Fits a s) : Fits a (takePhy s port x) := by
  unfold takePhy
  with_reducible repeat' first | assumption | apply fput_fits | split

theorem takeHeader_fits {a s : State} {port : Nat} {x : PhyIn} {k : State → State} (h : Fits a s)
    (hk : ∀ s, Fits a s → Fits a (k s)) :
    FitsOut a (takeHeader s port x k) := by
  unfold takeHeader
  with_reducible repeat' first
    | apply hk | assumption | apply FitsOut.next | apply fadd_fits | apply pushItem_fits | apply takePhy_fits | apply Fits.foldl
    | split

theorem arriveStart_fits {a : State} {port fnum : Nat} {s : State} {i : Nat} (h : Fits a s) :
    Fits a (arriveStart port fnum s i) := by
  unfold arriveStart
  with_reducible repeat' first
    | assumption | apply Fits.ite | apply fadd_fits | apply pushItem_fits | apply setFilter_fits | simp only [FilterFits.mk_iff]
    | apply filterAt_fits

theorem frameStart_fits {a s : State} {port vc fnum : Nat} (h : Fits a s) : Fits a (frameStart s port vc fnum) := by
  unfold frameStart
  with_reducible repeat' first | assumption | apply Fits.ite | apply arriveStart_fits | apply countUnknown_fits | apply Fits.foldl

theorem execFrameStart_fits {a : State} {port : Fin 8} {phy : PhyIn} {vc : Fin 16} {fnum : W16} {s : State} (h : Fits a s) :
    FitsOut a (execFrameStart port phy vc fnum s) := by
  unfold execFrameStart
  with_reducible repeat' first | intro _ _ | assumption | apply frameStart_fits | apply takeHeader_fits

theorem longPacket_fits {a s : State} {port : Nat} {pk : LongPacket} (h : Fits a s) : Fits a (longPacket s port pk) := by
  unfold longPacket
  with_reducible repeat' first
    | assumption | apply Fits.ite | apply countUnknown_fits | apply fadd_fits | apply pushItem_fits | apply Fits.foldl

theorem execLongPacket_fits {a : State} {port : Fin 8} {phy : PhyIn} {pk : LongPacket} {s : State} (h : Fits a s) :
    FitsOut a (execLongPacket port phy pk s) := by
  unfold execLongPacket
  with_reducible repeat' first | intro _ _ | assumption | apply longPacket_fits | apply takeHeader_fits

theorem execUnknownPacket_fits {a : State} {port : Fin 8} {phy : PhyIn} {vc : Fin 16} {dt : BitVec 6} {s : State}
    (h : Fits a s) :
    FitsOut a (execUnknownPacket port phy vc dt s) := by
  unfold execUnknownPacket
  with_reducible repeat' first | intro _ _ | assumption | apply Fits.ite | apply countUnknown_fits | apply takeHeader_fits

theorem arriveEnd_fits {a : State} {port fnum : Nat} {s : State} {i : Nat} (h : Fits a s) : Fits a (arriveEnd port fnum s i) := by
  unfold arriveEnd
  with_reducible repeat' first
    | assumption | apply discardStruct_fits | apply pushItem_fits | apply setFilter_fits | simp only [FilterFits.mk_iff]
    | apply filterAt_fits | split

theorem frameEnd_fits {a s : State} {port vc fnum : Nat} (h : Fits a s) : Fits a (frameEnd s port vc fnum) := by
  unfold frameEnd
  with_reducible repeat' first | assumption | apply Fits.ite | apply arriveEnd_fits | apply countUnknown_fits | apply Fits.foldl

theorem execFrameEnd_fits {a : State} {port : Fin 8} {phy : PhyIn} {vc : Fin 16} {fnum : W16} {s : State} (h : Fits a s) :
    FitsOut a (execFrameEnd port phy vc fnum s) := by
  unfold execFrameEnd
  with_reducible repeat' first | intro _ _ | assumption | apply frameEnd_fits | apply takeHeader_fits

theorem publishFrame_fits {a s : State} {i : Nat} {c : FrameSt} (h : Fits a s) : Fits a (publishFrame s i c) := by
  unfold publishFrame
  dsimp only
  apply noteWatch_fits
  apply putItem_fits
  refine setFilter_fits ?_ fun ha => List.length_set.trans (filterAt_fits h ha)
  with_reducible repeat' first | assumption | apply Fits.ite | apply fadd_fits

theorem execFramePublish_fits {a : State} {port : Fin 8} {f : Fin 4} {slot : Nat} {s : State} (h : Fits a s) :
    FitsOut a (execFramePublish port f slot s) := by
  unfold execFramePublish
  with_reducible repeat' first
    | assumption | apply FitsOut.next | apply devWrite_fits | apply discardStruct_fits | apply drainPort_fits
    | apply publishFrame_fits | apply setFilter_fits | simp only [FilterFits.mk_iff] | apply filterAt_fits | split

theorem dropFrame_fits {a s : State} {i : Nat} (h : Fits a s) : Fits a (dropFrame s i) := by
  unfold dropFrame
  with_reducible repeat' first
    | assumption | apply setFifo_fits | apply setFilter_fits | simp only [FilterFits.mk_iff] | apply filterAt_fits

theorem execFEnableWrite_fits {a : State} {q : Requester} {port : Fin 8} {f : Fin 4} {v : W32} {be : BitVec 4} {s : State}
    (h : Fits a s) :
    FitsOut a (execFEnableWrite q port f v be s) := by
  unfold execFEnableWrite
  with_reducible repeat' first
    | assumption | apply FitsOut.next | apply dropFrame_fits | apply regWrite_fits | apply setFilter_fits
    | simp only [FilterFits.mk_iff] | apply filterAt_fits | split

theorem dropFilters_fits {a s : State} {pid newRegions : Nat} (h : Fits a s) : Fits a (dropFilters s pid newRegions) := by
  unfold dropFilters
  with_reducible repeat' first
    | intro _ _ _ | assumption | apply Fits.ite | apply badValue_fits | apply dropFrame_fits | apply fput_fits
    | apply Fits.foldl

theorem execFaultReport_fits {a : State} {extra : List FaultIn} {s : State} (h : Fits a s) :
    FitsOut a (execFaultReport extra s) := by
  unfold execFaultReport
  with_reducible repeat' first | assumption | simp only [Fits.mk_iff] | apply FitsOut.next | apply recordAll_fits | split

theorem execPwrKill_fits {a s : State} (h : Fits a s) : FitsOut a (execPwrKill s) := by
  unfold execPwrKill
  with_reducible repeat' first | assumption | simp only [Fits.mk_iff] | apply FitsOut.next | split

theorem execSafeInNLow_fits {a s : State} (h : Fits a s) : FitsOut a (execSafeInNLow s) := by
  unfold execSafeInNLow
  with_reducible repeat' first | assumption | simp only [Fits.mk_iff] | apply FitsOut.next | apply raise_fits | split

theorem execSafeInNHigh_fits {a s : State} (h : Fits a s) : FitsOut a (execSafeInNHigh s) := by
  unfold execSafeInNHigh
  with_reducible repeat' first | assumption | simp only [Fits.mk_iff] | apply FitsOut.next

theorem execSafeHbToggle_fits {a : State} {requested : Bool} {s : State} (h : Fits a s) :
    FitsOut a (execSafeHbToggle requested s) := by
  unfold execSafeHbToggle
  with_reducible repeat' first | assumption | simp only [Fits.mk_iff] | apply FitsOut.next | split

theorem leaveSafe_fits {a s : State} (h : Fits a s) : Fits a (leaveSafe s).1 := by
  unfold leaveSafe
  with_reducible repeat' first | assumption | simp only [Fits.mk_iff] | apply canDue_fits | apply fputs_fits | split

theorem execStreamGap_fits {a : State} {w : Fin 16} {s : State} (h : Fits a s) : FitsOut a (execStreamGap w s) := by
  unfold execStreamGap
  with_reducible repeat' first
    | assumption | simp only [Fits.mk_iff, List.length_set] | apply FitsOut.next | apply FitsOut.ite | apply fadd_fits
    | apply fput_fits | apply raise_fits | apply setEvent_fits

theorem kick_fits {a s : State} {v : Nat} (h : Fits a s) : Fits a (kick s v) := by
  unfold kick
  with_reducible repeat' first | assumption | simp only [Fits.mk_iff] | apply Fits.ite | apply openWindow_fits | apply raise_fits

theorem execWdgKick_fits {a : State} {q : Requester} {v : W32} {be : BitVec 4} {s : State} (h : Fits a s) :
    FitsOut a (execWdgKick q v be s) := by
  unfold execWdgKick
  with_reducible repeat' first | assumption | apply FitsOut.next | apply kick_fits | apply regWrite_fits | split

theorem execWatchdogExpiry_fits {a s : State} (h : Fits a s) : FitsOut a (execWatchdogExpiry s) := by
  unfold execWatchdogExpiry
  with_reducible repeat' first | assumption | simp only [Fits.mk_iff] | apply FitsOut.next | apply raise_fits | split

theorem execConfigSignatureWalk_fits {a s : State} (h : Fits a s) : FitsOut a (execConfigSignatureWalk s) := by
  unfold execConfigSignatureWalk
  with_reducible repeat' first
    | intro _ _ | assumption | simp only [Fits.mk_iff] | apply FitsOut.next | apply raise_fits | apply Fits.foldl | split

theorem scheduleInjection_fits {a s : State} {bus : Bool} (h : Fits a s) : Fits a (scheduleInjection s bus) := by
  unfold scheduleInjection
  with_reducible repeat' first | assumption | dsimp only | simp only [Fits.mk_iff]

theorem execCheckerInjection_fits {a : State} {bus detected : Bool} {s : State} (h : Fits a s) :
    FitsOut a (execCheckerInjection bus detected s) := by
  unfold execCheckerInjection
  with_reducible repeat' first | assumption | apply FitsOut.next | apply raise_fits | apply scheduleInjection_fits | split

theorem setLocks_fits {a s : State} {v : Nat} (h : Fits a s) : Fits a (setLocks s v) := by
  unfold setLocks
  with_reducible repeat' first | intro _ _ | assumption | apply fput_fits | apply Fits.foldl

theorem injectFault_fits {a s : State} {cls source : Nat} (h : Fits a s) : Fits a (injectFault s cls source) := by
  unfold injectFault
  with_reducible repeat' first | assumption | apply recordAll_fits

theorem clearSuspect_fits {a s : State} {k u : Nat} (h : Fits a s) : Fits a (clearSuspect s k u) := by
  unfold clearSuspect
  with_reducible repeat' first | assumption | simp only [Fits.mk_iff]

theorem changeRole_fits {a s : State} {k u role logical : Nat} (h : Fits a s) : Fits a (changeRole s k u role logical) := by
  unfold changeRole
  with_reducible repeat' first | assumption | apply setRole_fits | apply writeSpareMap_fits

theorem beginTest_fits {a s : State} {k u : Nat} {spare : Option Nat} {returning : Bool} (h : Fits a s) :
    Fits a (beginTest s k u spare returning) := by
  unfold beginTest
  with_reducible repeat' first | assumption | dsimp only | simp only [Fits.mk_iff] | apply changeRole_fits

theorem beginCopy_fits {a s : State} {b dst reason : Nat} (h : Fits a s) : Fits a (beginCopy s b dst reason) := by
  unfold beginCopy
  with_reducible repeat' first | assumption | dsimp only | simp only [Fits.mk_iff] | apply fput_fits

theorem startTest_fits {a s : State} {k u : Nat} (h : Fits a s) : Fits a (startTest s k u) := by
  unfold startTest
  with_reducible repeat' first
    | assumption | simp only [Fits.mk_iff] | apply askTakeover_fits | apply beginCopy_fits | apply beginTest_fits
    | apply deferTest_fits | split

theorem rotateUnit_fits {a s : State} {k u : Nat} (h : Fits a s) : Fits a (rotateUnit s k u).1 := by
  unfold rotateUnit
  with_reducible repeat' first | assumption | dsimp only | simp only [Fits.mk_iff] | apply startTest_fits | split

theorem windowLoad_fits {a s : State} {c : Nat} {t : Task} {x n : Nat} (h : Fits a s) : FitsAcc a (windowLoad s c t x n) := by
  unfold windowLoad
  generalize x - windowBase = y
  split
  · exact FitsAcc.ite (FitsAcc.trap h) (FitsAcc.ok h)
  · exact FitsAcc.ite FitsAcc.wait (FitsAcc.ite (FitsAcc.ok (pidRead_fits h)) (FitsAcc.trap (pidRead_fits h)))

theorem coreLoad_fits {a s : State} {c : Nat} {t : Task} {x3 n : Nat} (h : Fits a s) : FitsAcc a (coreLoad s c t x3 n) := by
  unfold coreLoad
  with_reducible repeat' first
    | assumption | apply FitsAcc.ok | apply FitsAcc.trap | apply FitsAcc.ite | apply readRaw_fits | apply windowLoad_fits

theorem windowStore_fits {a s : State} {c : Nat} {t : Task} {x : Nat} {bs : List Byte} (h : Fits a s) :
    FitsAcc a (windowStore s c t x bs) := by
  unfold windowStore
  generalize x - windowBase = y
  split
  · exact FitsAcc.ite (FitsAcc.trap h)
      (FitsAcc.ok (putTask_fits (Fits.foldl h fun _ _ k => setCore_fits k (cleanPois_fits (coreAt_fits k)))))
  · exact FitsAcc.ite FitsAcc.wait (FitsAcc.ite (FitsAcc.ok (pidWrite_fits h)) (FitsAcc.trap (pidWrite_fits h)))

theorem coreStore_fits {a s : State} {c : Nat} {t : Task} {x3 : Nat} {bs : List Byte} (h : Fits a s) :
    FitsAcc a (coreStore s c t x3 bs) := by
  unfold coreStore
  with_reducible repeat' first
    | assumption | apply FitsAcc.ok | apply FitsAcc.trap | apply FitsAcc.ite | apply localWrite_fits | apply windowStore_fits

theorem codeBytes_fits {a s : State} {c : Nat} {t : Task} {pc n : Nat} (h : Fits a s) : Fits a (codeBytes s c t pc n).1 := by
  unfold codeBytes
  with_reducible repeat' first | assumption | apply readRaw_fits | split

theorem csrRead_fits {a s : State} {c : Nat} {t : Task} {k : CoreSt} {x4 : Nat} (h : Fits a s) :
    Fits a (csrRead s c t k x4).1 := by
  unfold csrRead
  with_reducible repeat' first | assumption | apply draw_fits | split

/-- A control and status register instruction leaves the shape, and a core with its registers. -/
theorem csrOp_fits {a s : State} {c : Nat} {t : Task} {k : CoreSt} {w : Nat} {r : State × CoreSt} (h : Fits a s)
    (hk : CoreFits a k) (hr : csrOp s c t k w = some r) : Fits a r.1 ∧ CoreFits a r.2 := by
  unfold csrOp at hr
  dsimp only at hr
  split at hr
  · cases hr
  · cases hr
    refine ⟨csrRead_fits h, wx_fits ?_⟩
    split
    · exact csrWrite_fits hk
    · exact hk

theorem mret_fits {a s : State} {t : Task} {k : CoreSt} (h : Fits a s) (hk : CoreFits a k) : Fits a (mret s t k) := by
  unfold mret
  with_reducible repeat' first | assumption | apply retire_fits | simp only [CoreFits.mk_iff] | apply wc_fits

theorem takeMei_fits {a s : State} (h : Fits a s) : Fits a (takeMei s) := by
  unfold takeMei
  with_reducible repeat' first
    | intro _ _ _ | assumption | apply Fits.ite | apply setCore_fits | apply coreAt_fits | apply takeInterrupt_fits
    | apply Fits.foldl

theorem coreAmo_fits {a s : State} {c : Nat} {t : Task} {k : CoreSt} {w next : Nat} (h : Fits a s) (hk : CoreFits a k) :
    FitsRun a (coreAmo s c t k w next) := by
  unfold coreAmo
  with_reducible repeat' first
    | intro _ _ _ | assumption | apply FitsRun.go | apply FitsRun.exc | exact FitsRun.wait | apply FitsAcc.andThen
    | apply coreLoad_fits | apply coreStore_fits | apply retire_fits | simp only [CoreFits.mk_iff] | apply wx_fits
    | exact FitsAcc.of_ok (by assumption) (coreLoad_fits (by assumption))
    | exact FitsAcc.of_trap (by assumption) (coreLoad_fits (by assumption)) | split

theorem coreLoadOp_fits {a s : State} {c : Nat} {t : Task} {k : CoreSt} {w next : Nat} (h : Fits a s) (hk : CoreFits a k) :
    FitsRun a (coreLoadOp s c t k w next) := by
  unfold coreLoadOp
  with_reducible repeat' first
    | intro _ _ _ | assumption | apply FitsRun.go | apply FitsAcc.andThen | apply coreLoad_fits | apply retire_fits
    | apply wx_fits | apply wf_fits | split

theorem coreStoreOp_fits {a s : State} {c : Nat} {t : Task} {k : CoreSt} {w next : Nat} (h : Fits a s) (hk : CoreFits a k) :
    FitsRun a (coreStoreOp s c t k w next) := by
  unfold coreStoreOp
  with_reducible repeat' first
    | intro _ _ _ | assumption | apply FitsRun.go | apply FitsAcc.andThen | apply coreStore_fits | apply retire_fits
    | simp only [CoreFits.mk_iff]

theorem coreFp_fits {a s : State} {t : Task} {k : CoreSt} {w next : Nat} (h : Fits a s) (hk : CoreFits a k) :
    FitsRun a (coreFp s t k w next) := by
  unfold coreFp
  with_reducible repeat' first
    | assumption | dsimp only | apply FitsRun.go | apply FitsRun.exc | apply retire_fits | apply opMadd_fits | apply opFp_fits
    | split

theorem coreSystem_fits {a s : State} {c : Nat} {t : Task} {k : CoreSt} {w next : Nat} (h : Fits a s) (hk : CoreFits a k) :
    FitsRun a (coreSystem s c t k w next) := by
  unfold coreSystem
  split
  · with_reducible repeat' first
      | apply FitsRun.go | apply FitsRun.exc | apply FitsRun.ecall | apply FitsRun.ite | apply mret_fits | apply retire_fits
      | assumption
  · split
    next r hr =>
      obtain ⟨hs, hk'⟩ := csrOp_fits h hk hr
      exact FitsRun.go (retire_fits hs hk')
    next => exact FitsRun.exc h

theorem coreVendor_fits {a s : State} {t : Task} {k : CoreSt} {w : Nat} (h : Fits a s) : FitsRun a (coreVendor s t k w) := by
  unfold coreVendor
  with_reducible repeat' first | assumption | apply FitsRun.exc | apply FitsRun.vendor | apply FitsRun.ite

theorem fetchAt_fits {a s : State} {c : Nat} {t : Task} {pc : Nat} (h : Fits a s) : FitsFetch a (fetchAt s c t pc) := by
  unfold fetchAt
  repeat' with_reducible first
    | assumption | dsimp only | apply FitsFetch.ok | apply FitsFetch.undefined | apply FitsFetch.fault
    | apply FitsFetch.ite | apply codeBytes_fits | split

theorem rvStep_fits {a s : State} {c : Nat} {t : Task} (h : Fits a s) : FitsRun a (rvStep s c t) := by
  unfold rvStep
  with_reducible repeat' first
    | assumption | dsimp only | apply FitsRun.go | apply FitsRun.exc | apply coreAmo_fits | apply coreFp_fits
    | apply coreLoadOp_fits | apply coreStoreOp_fits | apply coreSystem_fits | apply coreVendor_fits | apply retire_fits
    | apply wx_fits | apply coreAt_fits | exact FitsFetch.of_ok (by assumption) (fetchAt_fits (by assumption))
    | exact FitsFetch.of_undefined (by assumption) (fetchAt_fits (by assumption))
    | exact FitsFetch.of_fault (by assumption) (fetchAt_fits (by assumption)) | split

theorem runCore_fits {a s : State} {n c id : Nat} (h : Fits a s) : Fits a (runCore n s c id) := by
  induction n generalizing s with
  | zero => exact h
  | succ n ih =>
    unfold runCore
    split
    · exact h
    · split
      · rename_i e
        exact ih (FitsRun.of_go e (rvStep_fits h))
      · exact h

theorem reshapeRule_fits {a s : State} {ws : List W32} {o : OpDesc} {t : Task} (h : Fits a s) :
    Fits a (reshapeRule s ws o t).1 := by
  unfold reshapeRule
  exact h

theorem formOuts_fits {a : State} {code : Nat} {rule : OpRule} {task : Nat} {s : State}
    (hk : ∀ s p o t, Fits a s → Fits a (rule s p o t).1) (hs : Fits a s) :
    FitsOut a (formOuts code rule task s) := by
  unfold formOuts
  with_reducible repeat' first | assumption | apply hk | apply FitsOut.next | apply putTask_fits | split

theorem execReshape_fits {a : State} {task : Nat} {s : State} (h : Fits a s) : FitsOut a (execReshape task s) := by
  unfold execReshape
  with_reducible repeat' first | assumption | apply formOuts_fits | apply reshapeRule_fits

theorem sliceRule_fits {a s : State} {ws : List W32} {o : OpDesc} {t : Task} (h : Fits a s) : Fits a (sliceRule s ws o t).1 := by
  unfold sliceRule
  exact h

theorem execSlice_fits {a : State} {task : Nat} {s : State} (h : Fits a s) : FitsOut a (execSlice task s) := by
  unfold execSlice
  with_reducible repeat' first | assumption | apply formOuts_fits | apply sliceRule_fits

theorem concatRule_fits {a s : State} {ws : List W32} {o : OpDesc} {t : Task} (h : Fits a s) :
    Fits a (concatRule s ws o t).1 := by
  unfold concatRule
  exact h

theorem execConcat_fits {a : State} {task : Nat} {s : State} (h : Fits a s) : FitsOut a (execConcat task s) := by
  unfold execConcat
  with_reducible repeat' first | assumption | apply concatRule_fits | apply formOuts_fits

theorem padRule_fits {a s : State} {w : List W32} {o : OpDesc} {t : Task} (h : Fits a s) : Fits a (padRule s w o t).1 := by
  unfold padRule
  exact h

theorem execPad_fits {a : State} {task : Nat} {s : State} (h : Fits a s) : FitsOut a (execPad task s) := by
  unfold execPad
  with_reducible repeat' first | assumption | apply formOuts_fits | apply padRule_fits

theorem execGather_fits {a : State} {task : Nat} {s : State} (h : Fits a s) : FitsOut a (execGather task s) := by
  unfold execGather
  with_reducible repeat' first | assumption | apply FitsOut.next | apply putTask_fits | split

theorem publishCutEpoch_fits {a s : State} {t : Task} (h : Fits a s) : Fits a (publishCutEpoch s t) := by
  unfold publishCutEpoch
  with_reducible repeat' first
    | assumption | simp only [Fits.mk_iff] | apply countTags_fits | apply fput_fits | apply freeBytes_fits | apply originOf_fits
    | apply putStream_fits | apply updLetter_fits

theorem publishCut_fits {a s : State} {t : Task} (h : Fits a s) : Fits a (publishCut s t) := by
  unfold publishCut
  with_reducible repeat' first
    | intro _ _ _ | assumption | apply freeBytes_fits | apply noteSummary_fits | apply publishCutEpoch_fits
    | apply publishOut_fits | apply Fits.foldl | split

theorem instrFault_fits {a s : State} {t : Task} (h : Fits a s) : Fits a (instrFault s t) := by
  unfold instrFault
  with_reducible repeat' first
    | assumption | apply noteStatus_fits | apply raise_fits | apply setEvent_fits | apply updRun_fits | split

theorem countTrap_fits {a s : State} {t : Task} (h : Fits a s) : Fits a (countTrap s t) := by
  unfold countTrap
  with_reducible repeat' first | assumption | apply Fits.ite | apply fadd_fits | apply setEvent_fits

theorem abortTask_fits {a s : State} {t : Task} (h : Fits a s) : Fits a (abortTask s t) := by
  unfold abortTask
  with_reducible repeat' first
    | assumption | apply completeTask_fits | apply countTrap_fits | apply instrFault_fits | apply publishCut_fits

theorem execUnpackFrame_fits {a : State} {task : Nat} {s : State} (h : Fits a s) : FitsOut a (execUnpackFrame task s) := by
  unfold execUnpackFrame
  with_reducible repeat' first
    | assumption | apply FitsOut.next | apply FitsOut.ite | apply abortTask_fits | apply putTask_fits | split

theorem execJoinerCall_fits {a : State} {task : Nat} {s : State} (h : Fits a s) : FitsOut a (execJoinerCall task s) := by
  unfold execJoinerCall
  with_reducible repeat' first | assumption | apply FitsOut.next | apply runCore_fits | split

theorem execEcall_fits {a : State} {core : Fin 34} {s : State} (h : Fits a s) : FitsOut a (execEcall core s) := by
  unfold execEcall
  with_reducible repeat' first
    | assumption | dsimp only | apply FitsOut.next | apply completeTask_fits | apply publishAll_fits
    | exact FitsRun.of_ecall (by assumption) (rvStep_fits (by assumption)) | split

theorem endInvalid_fits {a s : State} {t : Task} (h : Fits a s) : Fits a (endInvalid s t) := by
  unfold endInvalid
  with_reducible repeat' first | assumption | apply completeTask_fits | apply publishAll_fits | apply publishCut_fits | split

theorem lockMismatch_fits {a s : State} {t : Task} {c : Nat} (h : Fits a s) : Fits a (lockMismatch s t c) := by
  unfold lockMismatch
  with_reducible repeat' first | assumption | apply fadd_fits | apply noteStatus_fits | apply raise_fits | apply setEvent_fits

theorem execJoinerTrap_fits {a : State} {core : Fin 34} {cause : JoinerCause} {s : State} (h : Fits a s) :
    FitsOut a (execJoinerTrap core cause s) := by
  unfold execJoinerTrap
  with_reducible repeat' first
    | assumption | apply FitsOut.next | apply countTrap_fits | apply endInvalid_fits | apply instrFault_fits
    | apply lockMismatch_fits | apply noteStatus_fits | exact FitsRun.of_exc (by assumption) (rvStep_fits (by assumption))
    | split

theorem atVendor_fits {a s : State} {c w : Nat} (h : Fits a s) : FitsSome a (atVendor s c w) := by
  unfold atVendor
  cases headTask s c with
  | none => exact FitsSome.none
  | some t =>
    simp only [Option.bind_some]
    repeat' with_reducible first
      | exact FitsSome.none | apply FitsSome.some
      | exact FitsRun.of_vendor (by assumption) (rvStep_fits (by assumption)) | split

theorem vendorRetire_fits {a s : State} {t : Task} {c rd v : Nat} (h : Fits a s) : Fits a (vendorRetire s t c rd v) := by
  unfold vendorRetire
  with_reducible repeat' first | assumption | apply retire_fits | apply wx_fits | apply coreAt_fits

theorem setQueue_fits {a s : State} {t : Task} {q : Nat} {l : List Tile} (h : Fits a s) : Fits a (setQueue s t q l) := by
  unfold setQueue
  exact Fits.foldl h fun s c k => setCore_fits k
    (CoreFits.congr (k := coreAt s c) rfl rfl List.length_set (coreAt_fits k))

theorem execTqPush_fits {a : State} {core : Fin 34} {rd rs1 rs2 : Fin 32} {s : State} (h : Fits a s) :
    FitsOut a (execTqPush core rd rs1 rs2 s) := by
  unfold execTqPush
  with_reducible repeat' first
    | assumption | dsimp only | apply FitsOut.next | apply countTrap_fits | apply endInvalid_fits | apply noteStatus_fits
    | apply readRaw_fits | apply setQueue_fits | apply vendorRetire_fits
    | exact FitsSome.of_some (by assumption) (atVendor_fits (by assumption)) | split

theorem popTile_fits {a s : State} {t : Task} {c q rd v : Nat} (h : Fits a s) : Fits a (popTile s t c q rd v) := by
  unfold popTile
  with_reducible repeat' first | assumption | apply setQueue_fits | apply vendorRetire_fits

theorem execTqPop_fits {a : State} {core : Fin 34} {rd rs1 : Fin 32} {s : State} (h : Fits a s) :
    FitsOut a (execTqPop core rd rs1 s) := by
  unfold execTqPop
  with_reducible repeat' first
    | intro _ _ _ | assumption | apply FitsOut.next | apply popTile_fits | apply setCore_fits | simp only [CoreFits.mk_iff]
    | apply coreAt_fits | apply vendorRetire_fits | apply Fits.foldl
    | exact FitsSome.of_some (by assumption) (atVendor_fits (by assumption)) | split

theorem execTqLen_fits {a : State} {core : Fin 34} {rd rs1 : Fin 32} {s : State} (h : Fits a s) :
    FitsOut a (execTqLen core rd rs1 s) := by
  unfold execTqLen
  with_reducible repeat' first
    | assumption | apply FitsOut.next | apply vendorRetire_fits
    | exact FitsSome.of_some (by assumption) (atVendor_fits (by assumption)) | split

theorem execDkRd_fits {a : State} {core : Fin 34} {rd rs1 : Fin 32} {w : Fin 4} {s : State} (h : Fits a s) :
    FitsOut a (execDkRd core rd rs1 w s) := by
  unfold execDkRd
  with_reducible repeat' first
    | assumption | dsimp only | apply FitsOut.next | apply draw_fits | apply vendorRetire_fits
    | exact FitsSome.of_some (by assumption) (atVendor_fits (by assumption)) | split

theorem execDkInv_fits {a : State} {core : Fin 34} {rs1 : Fin 32} {s : State} (h : Fits a s) :
    FitsOut a (execDkInv core rs1 s) := by
  unfold execDkInv
  with_reducible repeat' first
    | assumption | apply FitsOut.next | apply retire_fits | simp only [CoreFits.mk_iff] | apply coreAt_fits
    | exact FitsSome.of_some (by assumption) (atVendor_fits (by assumption)) | split

theorem poisonWord_fits {a s : State} {pid x2 : Nat} (h : Fits a s) : Fits a (poisonWord s pid x2) := by
  unfold poisonWord
  split
  · exact h.cacheMap fun _ => by split <;> rfl
  · exact eccSet_fits h

theorem rowRead_fits {a s : State} {c : Nat} {t : Task} {x3 n : Nat} (h : Fits a s) : Fits a (rowRead s c t x3 n).1 := by
  unfold rowRead
  with_reducible repeat' first | assumption | apply pidRead_fits | apply readRaw_fits | split

theorem rowWrite_fits {a s : State} {c : Nat} {t : Task} {x3 : Nat} {bs : List Byte} {bad : List Nat} (h : Fits a s) :
    Fits a (rowWrite s c t x3 bs bad).1 := by
  unfold rowWrite
  with_reducible repeat' first
    | intro _ _ _ | assumption | apply localWrite_fits | apply poisonWord_fits | apply setCore_fits | apply coreAt_fits
    | apply markPois_fits | apply Fits.foldl | exact FitsAcc.of_ok (by assumption) (windowStore_fits (by assumption))
    | exact FitsAcc.of_trap (by assumption) (windowStore_fits (by assumption)) | split

theorem moveTile_fits {a s : State} {c : Nat} {t : Task} {x : Tile} (h : Fits a s) : Fits a (moveTile s c t x).1 := by
  unfold moveTile
  with_reducible repeat' first
    | intro _ _ _ | assumption | dsimp only | apply blockedAccess_fits | apply rowRead_fits | apply rowWrite_fits
    | apply Fits.foldl1 | split

theorem endPop_fits {a s : State} {t : Task} {c : Nat} (h : Fits a s) : Fits a (endPop s t c) := by
  unfold endPop
  with_reducible repeat' first
    | intro _ _ _ | assumption | apply popTile_fits | apply setCore_fits | simp only [CoreFits.mk_iff] | apply coreAt_fits
    | apply Fits.foldl | split

theorem execTileTransferComplete_fits {a : State} {core : Fin 34} {queue : Fin 4} {s : State} (h : Fits a s) :
    FitsOut a (execTileTransferComplete core queue s) := by
  unfold execTileTransferComplete
  with_reducible repeat' first
    | assumption | apply FitsOut.next | apply endPop_fits | apply moveTile_fits | apply setQueue_fits | split

theorem execTqPopWaitLimit_fits {a : State} {core : Fin 34} {s : State} (h : Fits a s) :
    FitsOut a (execTqPopWaitLimit core s) := by
  unfold execTqPopWaitLimit
  with_reducible repeat' first
    | intro _ _ _ | assumption | apply FitsOut.next | apply obsInc_fits | apply setCore_fits | simp only [CoreFits.mk_iff]
    | apply coreAt_fits | apply vendorRetire_fits | apply Fits.foldl | split

theorem latticeStart_fits {a s : State} (h : Fits a s) : Fits a (latticeStart s) := by
  unfold latticeStart
  with_reducible repeat' first | assumption | dsimp only | simp only [Fits.mk_iff] | apply fputs_fits

theorem dropBuild_fits {a s : State} {x1 : BuildSrc} (h : Fits a s) : Fits a (dropBuild s x1) := by
  unfold dropBuild
  with_reducible repeat' first | assumption | apply completeTask_fits | apply finishLetter_fits | split

theorem latticeStop_fits {a s : State} (h : Fits a s) : Fits a (latticeStop s) := by
  unfold latticeStop
  with_reducible repeat' first | assumption | simp only [Fits.mk_iff] | apply dropBuild_fits | apply fput_fits | apply Fits.foldl

theorem execLatEnWrite_fits {a : State} {q : Requester} {v : W32} {be : BitVec 4} {s : State} (h : Fits a s) :
    FitsOut a (execLatEnWrite q v be s) := by
  unfold execLatEnWrite
  with_reducible repeat' first
    | assumption | apply FitsOut.next | apply latticeStart_fits | apply latticeStop_fits | apply regWrite_fits | split

theorem dropLattice_fits {a s : State} {pid newBanks : Nat} (h : Fits a s) : Fits a (dropLattice s pid newBanks) := by
  unfold dropLattice
  with_reducible repeat' first | assumption | apply Fits.ite | apply badValue_fits | apply fput_fits | apply latticeStop_fits

theorem requestBuild_fits {a s : State} {src : BuildSrc} (h : Fits a s) : Fits a (requestBuild s src) := by
  unfold requestBuild
  with_reducible repeat' first | assumption | dsimp only | simp only [Fits.mk_iff] | apply fadd_fits | split

theorem execWorldBuild_fits {a : State} {task : Nat} {s : State} (h : Fits a s) : FitsOut a (execWorldBuild task s) := by
  unfold execWorldBuild
  with_reducible repeat' first
    | assumption | apply FitsOut.next | apply completeTask_fits | apply putTask_fits | apply requestBuild_fits | split

theorem execBuildStart_fits {a s : State} (h : Fits a s) : FitsOut a (execBuildStart s) := by
  unfold execBuildStart
  with_reducible repeat' first
    | assumption | simp only [Fits.mk_iff] | apply FitsOut.next | apply FitsOut.ite | apply finishLetter_fits
    | apply markStarted_fits | split

theorem copyPart_fits {a s : State} {src dst n sclass pid : Nat} (h : Fits a s) : Fits a (copyPart s src dst n sclass pid).1 := by
  unfold copyPart
  with_reducible repeat' first
    | intro _ _ | assumption | apply eccSet_fits | apply readRaw_fits | apply writeRaw_fits | apply Fits.foldl

theorem publishEpoch_fits {a s : State} {b : BuildIn} {limit : Option Nat} {safeOwner : Bool} {owner : Nat} (h : Fits a s) :
    Fits a (publishEpoch s b limit safeOwner owner).1 := by
  unfold publishEpoch
  with_reducible repeat' first
    | intro _ _ _ | assumption | simp only [Fits.mk_iff] | apply copyPart_fits | apply countTags_fits | apply fadd_fits
    | apply fputs_fits | apply noteWatch_fits | apply putItem_fits | apply setEvent_fits | apply writeRaw_fits
    | apply Fits.foldl | split

theorem noteEpoch_fits {a s : State} {ch seq pid : Nat} {aged : Bool} {d : Docket} (h : Fits a s) :
    Fits a (noteEpoch s ch seq pid aged d) := by
  unfold noteEpoch
  with_reducible repeat' first
    | assumption | apply Fits.ite | apply fadd_fits | apply noteStatus_fits | apply raise_fits | apply setEvent_fits

theorem execEpochPublish_fits {a s : State} (h : Fits a s) : FitsOut a (execEpochPublish s) := by
  unfold execEpochPublish
  with_reducible repeat' first
    | assumption | simp only [Fits.mk_iff] | apply FitsOut.next | apply completeTask_fits | apply finishLetter_fits
    | apply noteEpoch_fits | apply noteStatus_fits | apply originOf_fits | apply publishEpoch_fits | apply updLetter_fits
    | split

theorem setLedgerQueue_fits {a s : State} {q : List LedgerVer} (h : Fits a s) : Fits a (setLedgerQueue s q) := by
  unfold setLedgerQueue
  with_reducible repeat' first | assumption | simp only [Fits.mk_iff] | split

theorem commitLedger_fits {a s : State} {v : LedgerVer} (h : Fits a s) : Fits a (commitLedger s v) := by
  unfold commitLedger
  with_reducible repeat' first | assumption | dsimp only | simp only [Fits.mk_iff] | apply slotPut_fits

theorem execLedgerSlotWrite_fits {a : State} {res : MramResult} {s : State} (h : Fits a s) :
    FitsOut a (execLedgerSlotWrite res s) := by
  unfold execLedgerSlotWrite
  with_reducible repeat' first
    | assumption | apply FitsOut.next | apply commitLedger_fits | apply failedSlot_fits | apply ledgerFail_fits
    | apply setLedgerQueue_fits | split

theorem execLedgerPeriodicCommit_fits {a s : State} (h : Fits a s) : FitsOut a (execLedgerPeriodicCommit s) := by
  unfold execLedgerPeriodicCommit
  with_reducible repeat' first
    | assumption | simp only [Fits.mk_iff] | apply FitsOut.next | apply FitsOut.ite | apply commitChanged_fits | apply fput_fits

theorem readCell_fits {a s : State} {cls i : Nat} (h : Fits a s) : Fits a (readCell s cls i) := by
  unfold readCell
  with_reducible repeat' first | assumption | apply mramFail_fits | apply readRaw_fits | apply Fits.foldl | split

theorem ledgerRecord_fits {a s : State} {cls i : Nat} (h : Fits a s) : Fits a (ledgerRecord s cls i).1 := by
  unfold ledgerRecord
  with_reducible repeat' first | assumption | dsimp only | apply draw_fits | split

theorem ledgerRecords_fits {a s : State} {cls start count : Nat} (h : Fits a s) : Fits a (ledgerRecords s cls start count).1 := by
  unfold ledgerRecords
  with_reducible repeat' first | intro _ _ _ | assumption | apply ledgerRecord_fits | apply readCell_fits | apply Fits.foldl1

theorem ledgerAddPt_fits {a s : State} {cls idx word pt : Nat} (h : Fits a s) : Fits a (ledgerAddPt s cls idx word pt) := by
  unfold ledgerAddPt
  with_reducible repeat' first | assumption | simp only [Fits.mk_iff] | apply Fits.ite | apply ledgerAdd_fits

theorem finishSafe_fits {a s : State} {l : Letter} {r : Result} (h : Fits a s) : Fits a (finishSafe s l r) := by
  unfold finishSafe
  with_reducible repeat' first | assumption | apply finishLetter_fits

theorem begin_fits {a s : State} {l : Letter} (h : Fits a s) : Fits a (begin_ s l) := by
  unfold begin_
  with_reducible repeat' first | assumption | apply markStarted_fits

theorem bindStreams_fits {a s : State} {pid : Nat} {p : List W32} (h : Fits a s) : Fits a (bindStreams s pid p) := by
  unfold bindStreams
  with_reducible repeat' first | intro _ _ _ | assumption | simp only [Fits.mk_iff] | apply Fits.foldl | split

theorem emptySlot_fits {a s : State} {slot : Nat} (h : Fits a s) : Fits a (emptySlot s slot) := by
  unfold emptySlot
  with_reducible repeat' first | assumption | dsimp only | simp only [Fits.mk_iff] | apply freeFlow_fits

theorem putPlan_fits {a s : State} {l : Letter} {flow : Option Nat} (h : Fits a s) : Fits a (putPlan s l flow) := by
  unfold putPlan
  with_reducible repeat' first | assumption | simp only [Fits.mk_iff] | apply bindStreams_fits | apply finishSafe_fits | split

theorem installPlan_fits {a s : State} {l : Letter} (h : Fits a s) : Fits a (installPlan s l) := by
  unfold installPlan
  with_reducible repeat' first
    | assumption | apply Fits.ite | apply emptySlot_fits | apply finishLetter_fits | apply putPlan_fits | split

theorem startLoad_fits {a s : State} {l : Letter} (h : Fits a s) : Fits a (startLoad s l) := by
  unfold startLoad
  with_reducible repeat' first
    | assumption | dsimp only | apply begin_fits | apply finishLetter_fits | apply installPlan_fits | split

theorem unload_fits {a s : State} {l : Letter} (h : Fits a s) : Fits a (unload s l) := by
  unfold unload
  with_reducible repeat' first | assumption | apply emptySlot_fits | apply finishSafe_fits

theorem startUnload_fits {a s : State} {l : Letter} (h : Fits a s) : Fits a (startUnload s l) := by
  unfold startUnload
  with_reducible repeat' first | assumption | apply Fits.ite | apply begin_fits | apply unload_fits

theorem beginRun_fits {a s : State} {l : Letter} {p : PlanSt} (h : Fits a s) : Fits a (beginRun s l p) := by
  unfold beginRun
  with_reducible repeat' first
    | assumption | simp only [Fits.mk_iff] | apply advanceRun_fits | apply finishLetter_fits | apply raise_fits
    | apply updLetter_fits | apply updPlan_fits | split

theorem startRun_fits {a s : State} {l : Letter} {p : PlanSt} (h : Fits a s) : Fits a (startRun s l p) := by
  unfold startRun
  with_reducible repeat' first | assumption | apply beginRun_fits | apply finishLetter_fits | split

theorem startLooseRun_fits {a s : State} {l : Letter} (h : Fits a s) : Fits a (startLooseRun s l) := by
  unfold startLooseRun
  with_reducible repeat' first | assumption | apply startRun_fits | split

theorem writeDocket_fits {a s : State} {l : Letter} {addr : Nat} {blocked : Bool} (h : Fits a s) :
    Fits a (writeDocket s l addr blocked).1 := by
  unfold writeDocket
  with_reducible repeat' first | assumption | apply draw_fits | apply takeSeq_fits

theorem writeTensor_fits {a s : State} {l : Letter} (h : Fits a s) : Fits a (writeTensor s l) := by
  unfold writeTensor
  with_reducible repeat' first
    | assumption | dsimp only | simp only [Fits.mk_iff] | apply countTags_fits | apply devWrite_fits | apply finishSafe_fits
    | apply writeDocket_fits

theorem startWrite_fits {a s : State} {l : Letter} (h : Fits a s) : Fits a (startWrite s l) := by
  unfold startWrite
  with_reducible repeat' first | assumption | apply begin_fits | apply finishLetter_fits | apply writeTensor_fits | split

theorem checkDocket_fits {a s : State} {l : Letter} {dk : Option Docket} (h : Fits a s) : Fits a (checkDocket s l dk).1 := by
  unfold checkDocket
  with_reducible repeat' first | assumption | apply errUncorr_fits | apply raise_fits | split

theorem startRead_fits {a s : State} {l : Letter} (h : Fits a s) : Fits a (startRead s l) := by
  unfold startRead
  with_reducible repeat' first
    | assumption | apply Fits.ite | apply begin_fits | apply checkDocket_fits | apply devRead_fits | apply finishSafe_fits
    | apply hostPut_fits

theorem startUpdate_fits {a s : State} {l : Letter} (h : Fits a s) : Fits a (startUpdate s l) := by
  unfold startUpdate
  with_reducible repeat' first | assumption | apply begin_fits | apply finishLetter_fits | apply requestBuild_fits | split

theorem startDirect_fits {a s : State} {l : Letter} {code : Nat} {kind : UnitKind} (h : Fits a s) :
    Fits a (startDirect s l code kind) := by
  unfold startDirect
  with_reducible repeat' first | assumption | apply enterTask_fits

theorem startPing_fits {a s : State} {l : Letter} (h : Fits a s) : Fits a (startPing s l) := by
  unfold startPing
  with_reducible repeat' first | assumption | apply begin_fits | apply finishSafe_fits

theorem startSetPartition_fits {a s : State} {l : Letter} (h : Fits a s) : Fits a (startSetPartition s l) := by
  unfold startSetPartition
  with_reducible repeat' first | assumption | dsimp only | simp only [Fits.mk_iff, List.length_set] | apply begin_fits | split

theorem startQuery_fits {a s : State} {l : Letter} (h : Fits a s) : Fits a (startQuery s l) := by
  unfold startQuery
  with_reducible repeat' first | assumption | apply begin_fits | apply finishSafe_fits | apply queryDaybook_fits

theorem startLedger_fits {a s : State} {l : Letter} (h : Fits a s) : Fits a (startLedger s l) := by
  unfold startLedger
  with_reducible repeat' first
    | assumption | apply begin_fits | apply finishSafe_fits | apply hostPut_fits | apply ledgerRecords_fits

theorem alignNow_fits {a s : State} {l : Letter} (h : Fits a s) : Fits a (alignNow s l) := by
  unfold alignNow
  with_reducible repeat' first | assumption | apply finishSafe_fits | apply setAdj_fits

theorem startAlign_fits {a s : State} {l : Letter} (h : Fits a s) : Fits a (startAlign s l) := by
  unfold startAlign
  with_reducible repeat' first | assumption | apply Fits.ite | apply alignNow_fits | apply begin_fits

theorem safetyCommand_fits {a s : State} {cmd x2 : Nat} (h : Fits a s) : Fits a (safetyCommand s cmd x2).1 := by
  unfold safetyCommand
  with_reducible repeat' first
    | assumption | simp only [Fits.mk_iff] | apply clearSuspect_fits | apply injectFault_fits | apply leaveSafe_fits
    | apply raise_fits | apply rotateUnit_fits | apply setLocks_fits | split

theorem startSafety_fits {a s : State} {l : Letter} (h : Fits a s) : Fits a (startSafety s l) := by
  unfold startSafety
  with_reducible repeat' first | assumption | apply begin_fits | apply finishSafe_fits | apply safetyCommand_fits

theorem startFence_fits {a s : State} {l : Letter} (h : Fits a s) : Fits a (startFence s l) := by
  unfold startFence
  with_reducible repeat' first | assumption | apply Fits.ite | apply begin_fits | apply finishSafe_fits

theorem withdraw_fits {a s : State} {l : Letter} (h : Fits a s) : Fits a (withdraw s l) := by
  unfold withdraw
  with_reducible repeat' first | assumption | simp only [Fits.mk_iff] | apply freeFlow_fits | apply updLetter_fits

theorem cancelTarget_fits {a s : State} {pid ch seq : Nat} (h : Fits a s) : Fits a (cancelTarget s pid ch seq).1 := by
  unfold cancelTarget
  with_reducible repeat' first | assumption | apply finishLetter_fits | apply withdraw_fits | split

theorem startCancel_fits {a s : State} {l : Letter} (h : Fits a s) : Fits a (startCancel s l) := by
  unfold startCancel
  with_reducible repeat' first | assumption | apply begin_fits | apply cancelTarget_fits | apply finishSafe_fits

theorem startOp_fits {a s : State} {l : Letter} (h : Fits a s) : Fits a (startOp s l) := by
  unfold startOp
  with_reducible repeat' first
    | assumption | apply startAlign_fits | apply startCancel_fits | apply startDirect_fits | apply startFence_fits
    | apply startLedger_fits | apply startLoad_fits | apply startLooseRun_fits | apply startPing_fits | apply startQuery_fits
    | apply startRead_fits | apply startSafety_fits | apply startSetPartition_fits | apply startUnload_fits
    | apply startUpdate_fits | apply startWrite_fits | split

theorem execLetterStart_fits {a : State} {ch : Fin 64} {seq : W32} {s : State} (h : Fits a s) :
    FitsOut a (execLetterStart ch seq s) := by
  unfold execLetterStart
  with_reducible repeat' first
    | assumption | apply FitsOut.next | apply begin_fits | apply finishLetter_fits | apply startOp_fits | split

theorem execFenceComplete_fits {a : State} {ch : Fin 64} {seq : W32} {s : State} (h : Fits a s) :
    FitsOut a (execFenceComplete ch seq s) := by
  unfold execFenceComplete
  with_reducible repeat' first | assumption | apply FitsOut.next | apply finishSafe_fits | split

theorem execUnloadComplete_fits {a : State} {ch : Fin 64} {seq : W32} {s : State} (h : Fits a s) :
    FitsOut a (execUnloadComplete ch seq s) := by
  unfold execUnloadComplete
  with_reducible repeat' first | assumption | apply FitsOut.next | apply unload_fits | split

theorem execPlanReplace_fits {a : State} {ch : Fin 64} {seq : W32} {s : State} (h : Fits a s) :
    FitsOut a (execPlanReplace ch seq s) := by
  unfold execPlanReplace
  with_reducible repeat' first | assumption | apply FitsOut.next | apply installPlan_fits | split

theorem execTimeAlignDeferredWrite_fits {a s : State} (h : Fits a s) : FitsOut a (execTimeAlignDeferredWrite s) := by
  unfold execTimeAlignDeferredWrite
  with_reducible repeat' first | assumption | apply FitsOut.next | apply alignNow_fits | apply Fits.foldl | split

theorem execStrictRunStart_fits {a : State} {ch : Fin 64} {seq : W32} {s : State} (h : Fits a s) :
    FitsOut a (execStrictRunStart ch seq s) := by
  unfold execStrictRunStart
  with_reducible repeat' first | assumption | apply FitsOut.next | apply obsInc_fits | apply startRun_fits | split

theorem installPartition_fits {a s : State} {p : Nat} {l : Letter} (h : Fits a s) : Fits a (installPartition s p l) := by
  unfold installPartition
  with_reducible repeat' first
    | assumption | simp only [Fits.mk_iff, List.length_set] | apply dropFilters_fits | apply dropLattice_fits
    | apply finishLetter_fits | apply finishSafe_fits | apply installBlock_fits | split

theorem execPartitionInstall_fits {a : State} {p : Fin 16} {s : State} (h : Fits a s) : FitsOut a (execPartitionInstall p s) := by
  unfold execPartitionInstall
  with_reducible repeat' first | assumption | apply FitsOut.next | apply installPartition_fits | split

end Sys2Proof.Machine
end

section
/-! SUPPORT. Every remaining operation and every command keeps the shape. -/

namespace Sys2Proof.Machine

theorem takeReply_fits {a s : State} {p : PendReply} (h : Fits a s) : Fits a (takeReply s p) := by
  unfold takeReply
  with_reducible repeat' first | assumption | simp only [Fits.mk_iff]

theorem dropReply_fits {a s : State} {p : PendReply} (h : Fits a s) : Fits a (dropReply s p) := by
  unfold dropReply
  with_reducible repeat' first | assumption | apply leaveFlight_fits | apply takeReply_fits | split

theorem writeReply_fits {a s : State} {p : PendReply} (h : Fits a s) : Fits a (writeReply s p) := by
  unfold writeReply
  with_reducible repeat' first
    | assumption | apply fput_fits | apply hostPut_fits | apply leaveFlight_fits | apply mirrorReply_fits | apply sendMsix_fits
    | apply takeReply_fits | split

theorem execReplyWrite_fits {a : State} {ch : Fin 64} {s : State} (h : Fits a s) : FitsOut a (execReplyWrite ch s) := by
  unfold execReplyWrite
  with_reducible repeat' first | assumption | apply FitsOut.next | apply dropReply_fits | apply writeReply_fits | split

theorem takeTurn_fits {a s : State} {ch : Nat} (h : Fits a s) : Fits a (takeTurn s ch) := by
  unfold takeTurn
  with_reducible repeat' first | assumption | simp only [Fits.mk_iff] | split

theorem answer_fits {a s : State} {ch op : Nat} {l : LetterIn} {rflags : Nat} {r : Result} (h : Fits a s) :
    Fits a (answer s ch op l rflags r) := by
  unfold answer
  with_reducible repeat' first | assumption | dsimp only | simp only [Fits.mk_iff]

theorem refuse_fits {a s : State} {ch op : Nat} {l : LetterIn} {status detail : Nat} (h : Fits a s) :
    Fits a (refuse s ch op l status detail) := by
  unfold refuse
  with_reducible repeat' first | assumption | apply answer_fits

theorem ownRead_fits {a s : State} {x1 n : Nat} (h : Fits a s) : Fits a (ownRead s x1 n).1 := by
  unfold ownRead
  split
  next hp => exact readParts_fits (r := (s, _, _)) h (pooled_dram hp)
  next => exact readRaw_fits h

theorem reissue_fits {a s : State} {ch op : Nat} {l : LetterIn} {peer : Bool} (h : Fits a s) :
    Fits a (reissue s ch op l peer) := by
  unfold reissue
  with_reducible repeat' first
    | assumption | dsimp only | simp only [Fits.mk_iff] | apply answer_fits | apply fadd_fits | apply ownRead_fits | split

theorem reject_fits {a s : State} {ch op pid : Nat} {l : LetterIn} {status detail : Nat} (h : Fits a s) :
    Fits a (reject s ch op pid l status detail) := by
  unfold reject
  with_reducible repeat' first
    | assumption | apply enterWindow_fits | apply noteVolatile_fits | apply queueReply_fits | apply queueVersion_fits
    | apply takeCell_fits

theorem supersede_fits {a s : State} {l : Letter} (h : Fits a s) : Fits a (supersede s l) := by
  unfold supersede
  with_reducible repeat' first
    | assumption | simp only [Fits.mk_iff] | apply fadd_fits | apply finishLetter_fits | apply freeCredit_fits
    | apply withdraw_fits | split

theorem takeCredit_fits {a s : State} {ch : Nat} {strict : Bool} (h : Fits a s) : Fits a (takeCredit s ch strict) := by
  unfold takeCredit
  with_reducible repeat' first | assumption | apply fadd_fits | split

theorem accept_fits {a s : State} {ch op pid : Nat} {l : LetterIn} {data : List Byte} (h : Fits a s) :
    Fits a (accept s ch op pid l data) := by
  unfold accept
  with_reducible repeat' first
    | assumption | dsimp only | simp only [Fits.mk_iff] | apply enterWindow_fits | apply noteVolatile_fits
    | apply queueVersion_fits | apply takeCell_fits | apply takeCredit_fits | split

theorem creditStep_fits {a s : State} {ch op pid : Nat} {l : LetterIn} {data : List Byte} (h : Fits a s) :
    Fits a (creditStep s ch op pid l data) := by
  unfold creditStep
  with_reducible repeat' first
    | assumption | dsimp only | apply accept_fits | apply fadd_fits | apply refuse_fits | apply supersede_fits
    | apply Fits.foldl | split

theorem countKey_fits {a s : State} {l : LetterIn} (h : Fits a s) : Fits a (countKey s l) := by
  unfold countKey
  with_reducible repeat' first | assumption | apply fadd_fits | apply lifeAdd_fits | split

theorem headerRead_fits {a s : State} {op pid : Nat} {l : LetterIn} (h : Fits a s) : Fits a (headerRead s op pid l) := by
  unfold headerRead
  with_reducible repeat' first | assumption | apply devRead_fits | split

theorem judgeFresh_fits {a s : State} {ch op pid : Nat} {l : LetterIn} {data : List Byte} (h : Fits a s) :
    Fits a (judgeFresh s ch op pid l data) := by
  unfold judgeFresh
  with_reducible repeat' first
    | assumption | dsimp only | apply countKey_fits | apply creditStep_fits | apply headerRead_fits | apply refuse_fits
    | apply reject_fits | split

theorem judgeWindow_fits {a s : State} {ch op : Nat} {l : LetterIn} {data : List Byte} (h : Fits a s) :
    Fits a (judgeWindow s ch op l data) := by
  unfold judgeWindow
  with_reducible repeat' first
    | assumption | apply answer_fits | apply fadd_fits | apply judgeFresh_fits | apply refuse_fits | apply reissue_fits | split

theorem readEntry_fits {a s : State} {ch op : Nat} {l : LetterIn} {data : List Byte} (h : Fits a s) :
    Fits a (readEntry s ch op l data) := by
  unfold readEntry
  with_reducible repeat' first
    | assumption | dsimp only | apply fput_fits | apply judgeWindow_fits | apply refuse_fits | apply setChan_fits | split

theorem letterRead_fits {a s : State} {op ch : Nat} {l : LetterIn} {data : List Byte} (h : Fits a s) :
    Fits a (letterRead s op ch l data) := by
  unfold letterRead
  with_reducible repeat' first
    | assumption | apply judgeWindow_fits | apply readEntry_fits | apply setChan_fits | apply takeTurn_fits | split

theorem execPing_fits {a : State} {ch : Fin 64} {l : LetterIn} {s : State} (h : Fits a s) : FitsOut a (execPing ch l s) := by
  unfold execPing
  with_reducible repeat' first | assumption | apply FitsOut.next | apply letterRead_fits

theorem execLoadPlan_fits {a : State} {ch : Fin 64} {l : LetterIn} {data : List Byte} {s : State} (h : Fits a s) :
    FitsOut a (execLoadPlan ch l data s) := by
  unfold execLoadPlan
  with_reducible repeat' first | assumption | apply FitsOut.next | apply letterRead_fits

theorem execUnloadPlan_fits {a : State} {ch : Fin 64} {l : LetterIn} {s : State} (h : Fits a s) :
    FitsOut a (execUnloadPlan ch l s) := by
  unfold execUnloadPlan
  with_reducible repeat' first | assumption | apply FitsOut.next | apply letterRead_fits

theorem execRunPlan_fits {a : State} {ch : Fin 64} {l : LetterIn} {data : List Byte} {s : State} (h : Fits a s) :
    FitsOut a (execRunPlan ch l data s) := by
  unfold execRunPlan
  with_reducible repeat' first | assumption | apply FitsOut.next | apply letterRead_fits

theorem execWriteTensor_fits {a : State} {ch : Fin 64} {l : LetterIn} {data : List Byte} {s : State} (h : Fits a s) :
    FitsOut a (execWriteTensor ch l data s) := by
  unfold execWriteTensor
  with_reducible repeat' first | assumption | apply FitsOut.next | apply letterRead_fits

theorem execReadTensor_fits {a : State} {ch : Fin 64} {l : LetterIn} {s : State} (h : Fits a s) :
    FitsOut a (execReadTensor ch l s) := by
  unfold execReadTensor
  with_reducible repeat' first | assumption | apply FitsOut.next | apply letterRead_fits

theorem execWorldUpdate_fits {a : State} {ch : Fin 64} {l : LetterIn} {data : List Byte} {s : State} (h : Fits a s) :
    FitsOut a (execWorldUpdate ch l data s) := by
  unfold execWorldUpdate
  with_reducible repeat' first | assumption | apply FitsOut.next | apply letterRead_fits

theorem execSweep_fits {a : State} {ch : Fin 64} {l : LetterIn} {s : State} (h : Fits a s) : FitsOut a (execSweep ch l s) := by
  unfold execSweep
  with_reducible repeat' first | assumption | apply FitsOut.next | apply letterRead_fits

theorem execSelect_fits {a : State} {ch : Fin 64} {l : LetterIn} {s : State} (h : Fits a s) : FitsOut a (execSelect ch l s) := by
  unfold execSelect
  with_reducible repeat' first | assumption | apply FitsOut.next | apply letterRead_fits

theorem execSolve_fits {a : State} {ch : Fin 64} {l : LetterIn} {s : State} (h : Fits a s) : FitsOut a (execSolve ch l s) := by
  unfold execSolve
  with_reducible repeat' first | assumption | apply FitsOut.next | apply letterRead_fits

theorem execSetPartition_fits {a : State} {ch : Fin 64} {l : LetterIn} {data : List Byte} {s : State} (h : Fits a s) :
    FitsOut a (execSetPartition ch l data s) := by
  unfold execSetPartition
  with_reducible repeat' first | assumption | apply FitsOut.next | apply letterRead_fits

theorem execQueryDaybook_fits {a : State} {ch : Fin 64} {l : LetterIn} {s : State} (h : Fits a s) :
    FitsOut a (execQueryDaybook ch l s) := by
  unfold execQueryDaybook
  with_reducible repeat' first | assumption | apply FitsOut.next | apply letterRead_fits

theorem execReadLedger_fits {a : State} {ch : Fin 64} {l : LetterIn} {s : State} (h : Fits a s) :
    FitsOut a (execReadLedger ch l s) := by
  unfold execReadLedger
  with_reducible repeat' first | assumption | apply FitsOut.next | apply letterRead_fits

theorem execTimeAlign_fits {a : State} {ch : Fin 64} {l : LetterIn} {s : State} (h : Fits a s) :
    FitsOut a (execTimeAlign ch l s) := by
  unfold execTimeAlign
  with_reducible repeat' first | assumption | apply FitsOut.next | apply letterRead_fits

theorem safetyRead_fits {a s : State} {cmd ch : Nat} {l : LetterIn} (h : Fits a s) : Fits a (safetyRead s cmd ch l) := by
  unfold safetyRead
  with_reducible repeat' first | assumption | apply Fits.ite | apply letterRead_fits

theorem execSeal_fits {a : State} {ch : Fin 64} {l : LetterIn} {s : State} (h : Fits a s) : FitsOut a (execSeal ch l s) := by
  unfold execSeal
  with_reducible repeat' first | assumption | apply FitsOut.next | apply safetyRead_fits

theorem execUnseal_fits {a : State} {ch : Fin 64} {l : LetterIn} {s : State} (h : Fits a s) : FitsOut a (execUnseal ch l s) := by
  unfold execUnseal
  with_reducible repeat' first | assumption | apply FitsOut.next | apply safetyRead_fits

theorem execSetKey_fits {a : State} {ch : Fin 64} {l : LetterIn} {s : State} (h : Fits a s) : FitsOut a (execSetKey ch l s) := by
  unfold execSetKey
  with_reducible repeat' first | assumption | apply FitsOut.next | apply safetyRead_fits

theorem execInject_fits {a : State} {ch : Fin 64} {l : LetterIn} {s : State} (h : Fits a s) : FitsOut a (execInject ch l s) := by
  unfold execInject
  with_reducible repeat' first | assumption | apply FitsOut.next | apply safetyRead_fits

theorem execEnterSafeA_fits {a : State} {ch : Fin 64} {l : LetterIn} {s : State} (h : Fits a s) :
    FitsOut a (execEnterSafeA ch l s) := by
  unfold execEnterSafeA
  with_reducible repeat' first | assumption | apply FitsOut.next | apply safetyRead_fits

theorem execLeaveSafeA_fits {a : State} {ch : Fin 64} {l : LetterIn} {s : State} (h : Fits a s) :
    FitsOut a (execLeaveSafeA ch l s) := by
  unfold execLeaveSafeA
  with_reducible repeat' first | assumption | apply FitsOut.next | apply safetyRead_fits

theorem execRotate_fits {a : State} {ch : Fin 64} {l : LetterIn} {s : State} (h : Fits a s) : FitsOut a (execRotate ch l s) := by
  unfold execRotate
  with_reducible repeat' first | assumption | apply FitsOut.next | apply safetyRead_fits

theorem execSuspectClear_fits {a : State} {ch : Fin 64} {l : LetterIn} {s : State} (h : Fits a s) :
    FitsOut a (execSuspectClear ch l s) := by
  unfold execSuspectClear
  with_reducible repeat' first | assumption | apply FitsOut.next | apply safetyRead_fits

theorem execFence_fits {a : State} {ch : Fin 64} {l : LetterIn} {s : State} (h : Fits a s) : FitsOut a (execFence ch l s) := by
  unfold execFence
  with_reducible repeat' first | assumption | apply FitsOut.next | apply letterRead_fits

theorem execCancel_fits {a : State} {ch : Fin 64} {l : LetterIn} {s : State} (h : Fits a s) : FitsOut a (execCancel ch l s) := by
  unfold execCancel
  with_reducible repeat' first | assumption | apply FitsOut.next | apply letterRead_fits

theorem execUndefinedOpcodeLetter_fits {a : State} {ch : Fin 64} {opcode : Byte} {l : LetterIn} {s : State} (h : Fits a s) :
    FitsOut a (execUndefinedOpcodeLetter ch opcode l s) := by
  unfold execUndefinedOpcodeLetter
  with_reducible repeat' first | assumption | apply FitsOut.next | apply letterRead_fits | split

theorem leaveSelfRefresh_fits {a s : State} (h : Fits a s) : Fits a (leaveSelfRefresh s) := by
  unfold leaveSelfRefresh
  with_reducible repeat' first | assumption | simp only [Fits.mk_iff]

theorem countScrub_fits {a s : State} {arr : ScrubArray} (h : Fits a s) : Fits a (countScrub s arr) := by
  unfold countScrub
  with_reducible repeat' first | assumption | apply fadd_fits | apply ledgerAdd_fits | split

theorem scrubWord_fits {a s : State} {arr : ScrubArray} {w : Nat} (h : Fits a s) : Fits a (scrubWord s arr w) := by
  unfold scrubWord
  with_reducible repeat' first
    | assumption | apply countCorr_fits | apply countScrub_fits | apply countUncorr_fits | apply eccSet_fits | split

theorem scrubPool_fits {a s : State} {arr : ScrubArray} {b pos : Nat} (h : Fits a s) : Fits a (scrubPool s arr b pos) := by
  unfold scrubPool
  split
  · split
    · exact (countScrub_fits (countCorr_fits h)).cacheMap fun _ => by split <;> rfl
    · exact countUncorr_fits h
    · exact h
  · exact h

theorem execScrubCycle_fits {a : State} {array : ScrubArray} {s : State} (h : Fits a s) : FitsOut a (execScrubCycle array s) := by
  unfold execScrubCycle
  with_reducible repeat' first
    | assumption | simp only [Fits.mk_iff] | apply FitsOut.next | apply fadd_fits | apply scrubPool_fits | apply scrubWord_fits
    | split

theorem clearReady_fits {a s : State} (h : Fits a s) : Fits a (clearReady s) := by
  unfold clearReady
  with_reducible repeat' first | assumption | apply fput_fits | apply setEvent_fits | split

theorem promote_fits {a s : State} (h : Fits a s) : Fits a (promote s) := by
  have hrole := setPairRole_fits (r := 1) h
  unfold promote
  dsimp only
  apply lifeAdd_fits
  apply canDue_fits
  apply setEvent_fits
  exact hrole.trans ⟨fun k => { k with chans := by simp }, id, id, id, id, id⟩

theorem execHeartbeatSend_fits {a s : State} (h : Fits a s) : FitsOut a (execHeartbeatSend s) := by
  unfold execHeartbeatSend
  with_reducible repeat' first | assumption | simp only [Fits.mk_iff] | apply FitsOut.next | apply sendTo_fits | split

theorem noteHeartbeat_fits {a s : State} {epoch : Nat} (h : Fits a s) : Fits a (noteHeartbeat s epoch) := by
  unfold noteHeartbeat
  with_reducible repeat' first
    | assumption | dsimp only | simp only [Fits.mk_iff] | apply clearReady_fits | apply fadd_fits | split

theorem execHeartbeat_fits {a : State} {flit : FlitIn} {hb : Heartbeat} {s : State} (h : Fits a s) :
    FitsOut a (execHeartbeat flit hb s) := by
  unfold execHeartbeat
  with_reducible repeat' first | assumption | apply FitsOut.next | apply noteHeartbeat_fits | apply promote_fits | split

theorem execPeerLost_fits {a s : State} (h : Fits a s) : FitsOut a (execPeerLost s) := by
  unfold execPeerLost
  with_reducible repeat' first
    | assumption | simp only [Fits.mk_iff] | apply FitsOut.next | apply clearReady_fits | apply lifeAdd_fits
    | apply promote_fits | apply setEvent_fits | split

theorem execPeerMirrorEntry_fits {a : State} {ch : Fin 64} {seq : W32} {entry : List Byte} {s : State} (h : Fits a s) :
    FitsOut a (execPeerMirrorEntry ch seq entry s) := by
  unfold execPeerMirrorEntry
  with_reducible repeat' first | assumption | simp only [Fits.mk_iff] | apply FitsOut.next | apply ownWrite_fits | split

theorem execPeerCopyDone_fits {a s : State} (h : Fits a s) : FitsOut a (execPeerCopyDone s) := by
  unfold execPeerCopyDone
  with_reducible repeat' first | assumption | apply FitsOut.next | apply fput_fits | split

theorem forcedWrite_fits {a : State} {deny : DenyRule} {s : State} {q : Requester} {page off : Nat} {f : Fld} {v : W32}
    {be : BitVec 4} (h : Fits a s) :
    Fits a (forcedWrite deny s q page off f v be) := by
  unfold forcedWrite
  with_reducible repeat' first | assumption | apply Fits.ite | apply countRsvd_fits | apply regWrite_fits

theorem execPairRoleWrite_fits {a : State} {q : Requester} {v : W32} {be : BitVec 4} {forced : Bool} {s : State}
    (h : Fits a s) :
    FitsOut a (execPairRoleWrite q v be forced s) := by
  unfold execPairRoleWrite
  with_reducible repeat' first
    | assumption | dsimp only | apply FitsOut.next | apply forcedWrite_fits | apply promote_fits | apply regWrite_fits
    | apply setPairRole_fits | split

theorem stopIterate_fits {a s : State} {t : Task} {b : List Byte} {cap : Nat} {due : Option Nat} (h : Fits a s) :
    Fits a (stopIterate s t b cap due).1 := by
  unfold stopIterate
  with_reducible repeat' first | assumption | dsimp only | apply draw_fits | split

theorem runSolve_fits {a s : State} {t : Task} {b : List Byte} {cap : Nat} {due : Option Nat} {kind : Nat}
    {nm : Option (Nat × Nat)} (h : Fits a s) :
    Fits a (runSolve s t b cap due kind nm).1 := by
  unfold runSolve
  with_reducible repeat' first | assumption | apply stopIterate_fits | split

theorem planeTask_fits {a : State} {code task : Nat} {s : State} (h : Fits a s) : FitsOut a (planeTask code task s) := by
  unfold planeTask
  with_reducible repeat' first
    | assumption | apply FitsOut.next | apply freeBytes_fits | apply putTask_fits | apply runSolve_fits | split

theorem execQpSolve_fits {a : State} {task : Nat} {s : State} (h : Fits a s) : FitsOut a (execQpSolve task s) := by
  unfold execQpSolve
  with_reducible repeat' first | assumption | apply planeTask_fits

theorem execCholesky_fits {a : State} {task : Nat} {s : State} (h : Fits a s) : FitsOut a (execCholesky task s) := by
  unfold execCholesky
  with_reducible repeat' first | assumption | apply planeTask_fits

theorem execCg_fits {a : State} {task : Nat} {s : State} (h : Fits a s) : FitsOut a (execCg task s) := by
  unfold execCg
  with_reducible repeat' first | assumption | apply planeTask_fits

theorem solveStatus_fits {a s : State} {t : Task} {state : Nat} (h : Fits a s) : Fits a (solveStatus s t state) := by
  unfold solveStatus
  with_reducible repeat' first | assumption | apply noteStatus_fits | apply updLetter_fits | split

theorem countBusy_fits {a s : State} {t : Task} {rec_ : List Byte} (h : Fits a s) : Fits a (countBusy s t rec_) := by
  unfold countBusy
  with_reducible repeat' first | assumption | apply draw_fits | apply fadd_fits | split

theorem countSolve_fits {a s : State} {t : Task} {rec_ : List Byte} (h : Fits a s) : Fits a (countSolve s t rec_) := by
  unfold countSolve
  with_reducible repeat' first | assumption | apply countBusy_fits | apply fadd_fits | split

theorem planeResidue_fits {a s : State} {t : Task} (h : Fits a s) : Fits a (planeResidue s t) := by
  unfold planeResidue
  with_reducible repeat' first | assumption | apply fadd_fits | apply noteStatus_fits | apply raise_fits | apply setEvent_fits

theorem endSolve_fits {a s : State} {t : Task} {rec_ : List Byte} {ops : List PlaneOp} (h : Fits a s) :
    Fits a (endSolve s t rec_ ops).1 := by
  unfold endSolve
  with_reducible repeat' first | assumption | apply countSolve_fits | apply planeResidue_fits | split

theorem directSolve_fits {a s : State} {t : Task} {l : Letter} (h : Fits a s) : Fits a (directSolve s t l).1 := by
  unfold directSolve
  with_reducible repeat' first | assumption | apply runSolve_fits

theorem endDirect_fits {a s : State} {t : Task} {l : Letter} {ops : List PlaneOp} (h : Fits a s) :
    Fits a (endDirect s t l ops) := by
  unfold endDirect
  with_reducible repeat' first
    | assumption | apply Fits.ite | apply completeDirect_fits | apply directSolve_fits | apply dropTask_fits
    | apply endSolve_fits | apply finishLetter_fits | apply publishAll_fits | apply solveStatus_fits

theorem execPlaneSolveComplete_fits {a : State} {task : Nat} {ops : List PlaneOp} {s : State} (h : Fits a s) :
    FitsOut a (execPlaneSolveComplete task ops s) := by
  unfold execPlaneSolveComplete
  with_reducible repeat' first
    | assumption | apply FitsOut.next | apply completeTask_fits | apply endDirect_fits | apply endSolve_fits
    | apply publishAll_fits | split

theorem idleTick_fits {a s : State} (h : Fits a s) : Fits a (idleTick s) := by
  unfold idleTick
  with_reducible repeat' first | assumption | simp only [Fits.mk_iff]

theorem commandMv_fits {a s : State} {mv : Nat} (h : Fits a s) : Fits a (commandMv s mv) := by
  unfold commandMv
  with_reducible repeat' first | assumption | apply fput_fits | apply send_fits

theorem settleFrom_fits {a s : State} {ph : StepPhase} (h : Fits a s) : Fits a (settleFrom s ph) := by
  unfold settleFrom
  with_reducible repeat' first | assumption | simp only [Fits.mk_iff]

theorem markThermal_fits {a s : State} (h : Fits a s) : Fits a (markThermal s) := by
  unfold markThermal
  with_reducible repeat' first | assumption | apply mapTasks_fits

theorem beginStep_fits {a s : State} {target : Nat} (h : Fits a s) : Fits a (beginStep s target) := by
  unfold beginStep
  with_reducible repeat' first
    | assumption | simp only [Fits.mk_iff] | apply Fits.ite | apply commandMv_fits | apply relockIfFree_fits
    | apply settleFrom_fits

theorem endEmergency_fits {a s : State} (h : Fits a s) : Fits a (endEmergency s) := by
  unfold endEmergency
  with_reducible repeat' first | assumption | dsimp only | simp only [Fits.mk_iff] | apply fput_fits

theorem nextRequest_fits {a s : State} (h : Fits a s) : Fits a (nextRequest s) := by
  unfold nextRequest
  with_reducible repeat' first
    | assumption | simp only [Fits.mk_iff] | apply Fits.ite | apply beginStep_fits | apply endEmergency_fits | apply fput_fits

theorem requestStep_fits {a s : State} (h : Fits a s) : Fits a (requestStep s) := by
  unfold requestStep
  with_reducible repeat' first
    | assumption | simp only [Fits.mk_iff] | apply Fits.ite | apply beginStep_fits | apply commandMv_fits
    | apply endEmergency_fits | apply fput_fits

theorem execStepReqWrite_fits {a : State} {q : Requester} {v : W32} {be : BitVec 4} {s : State} (h : Fits a s) :
    FitsOut a (execStepReqWrite q v be s) := by
  unfold execStepReqWrite
  with_reducible repeat' first | assumption | apply FitsOut.next | apply regWrite_fits | apply requestStep_fits | split

theorem noteRegulator_fits {a s : State} {x1 : RegulatorAnswer} (h : Fits a s) : Fits a (noteRegulator s x1) := by
  unfold noteRegulator
  with_reducible repeat' first | assumption | apply fadd_fits | apply fput_fits | apply setEvent_fits | split

theorem execVoltageSettleEnd_fits {a : State} {ans : RegulatorAnswer} {s : State} (h : Fits a s) :
    FitsOut a (execVoltageSettleEnd ans s) := by
  unfold execVoltageSettleEnd
  with_reducible repeat' first
    | assumption | simp only [Fits.mk_iff] | apply FitsOut.next | apply commandMv_fits | apply fput_fits
    | apply nextRequest_fits | apply noteRegulator_fits | apply relockIfFree_fits | apply setEvent_fits | split

theorem stepInForce_fits {a s : State} (h : Fits a s) : Fits a (stepInForce s) := by
  unfold stepInForce
  with_reducible repeat' first
    | assumption | simp only [Fits.mk_iff] | apply Fits.ite | apply commandMv_fits | apply endEmergency_fits | apply fadd_fits
    | apply fput_fits | apply nextRequest_fits | apply settleFrom_fits

theorem execStepRelockDone_fits {a s : State} (h : Fits a s) : FitsOut a (execStepRelockDone s) := by
  unfold execStepRelockDone
  with_reducible repeat' first
    | assumption | simp only [Fits.mk_iff] | apply FitsOut.next | apply leaveSelfRefresh_fits | apply stepInForce_fits | split

theorem execFastDomainWake_fits {a : State} {d : Fin 4} {s : State} (h : Fits a s) : FitsOut a (execFastDomainWake d s) := by
  unfold execFastDomainWake
  with_reducible repeat' first
    | assumption | apply FitsOut.next | apply beginRelock_fits | apply mapTasks_fits | apply startDomain_fits | split

theorem execFastDomainStop_fits {a : State} {d : Fin 4} {s : State} (h : Fits a s) : FitsOut a (execFastDomainStop d s) := by
  unfold execFastDomainStop
  with_reducible repeat' first | assumption | apply FitsOut.next | apply fput_fits | split

theorem enterEmergency_fits {a s : State} (h : Fits a s) : Fits a (enterEmergency s) := by
  unfold enterEmergency
  with_reducible repeat' first
    | assumption | dsimp only | simp only [Fits.mk_iff] | apply Fits.ite | apply beginRelock_fits | apply commandMv_fits
    | apply fadd_fits | apply fput_fits | apply lifeAdd_fits | apply markThermal_fits | apply setEvent_fits

theorem storeTemps_fits {a s : State} {l : List (BitVec 8)} (h : Fits a s) : Fits a (storeTemps s l) := by
  unfold storeTemps
  with_reducible repeat' first
    | intro _ _ | assumption | dsimp only | simp only [Fits.mk_iff] | apply fput_fits | apply Fits.foldl

theorem judgePairs_fits {a s : State} {l : List (BitVec 8)} (h : Fits a s) : Fits a (judgePairs s l) := by
  unfold judgePairs
  with_reducible repeat' first
    | intro _ _ _ | assumption | simp only [Fits.mk_iff] | apply Fits.ite | apply fadd_fits | apply raise_fits
    | apply setEvent_fits | apply Fits.foldl

theorem addResidency_fits {a s : State} {tj : Int} (h : Fits a s) : Fits a (addResidency s tj) := by
  unfold addResidency
  with_reducible repeat' first | assumption | apply Fits.ite | apply ledgerAddPt_fits

theorem trackCool_fits {a s : State} {tj : Int} (h : Fits a s) : Fits a (trackCool s tj) := by
  unfold trackCool
  with_reducible repeat' first | assumption | simp only [Fits.mk_iff]

theorem takeSample_fits {a s : State} {readings : List (BitVec 8)} {rails : List Nat} (h : Fits a s) :
    Fits a (takeSample s readings rails) := by
  unfold takeSample
  with_reducible repeat' first
    | intro _ _ _ | assumption | simp only [Fits.mk_iff] | apply Fits.ite | apply addResidency_fits | apply enterEmergency_fits
    | apply fput_fits | apply judgePairs_fits | apply raise_fits | apply storeTemps_fits | apply trackCool_fits
    | apply Fits.foldl

theorem execThermalSample_fits {a : State} {readings : List (BitVec 8)} {rails : List Nat} {s : State} (h : Fits a s) :
    FitsOut a (execThermalSample readings rails s) := by
  unfold execThermalSample
  with_reducible repeat' first
    | assumption | dsimp only | simp only [Fits.mk_iff] | apply FitsOut.next | apply takeSample_fits | split

theorem execThermalEmergencyExit_fits {a s : State} (h : Fits a s) : FitsOut a (execThermalEmergencyExit s) := by
  unfold execThermalEmergencyExit
  with_reducible repeat' first
    | assumption | dsimp only | simp only [Fits.mk_iff] | apply FitsOut.next | apply beginStep_fits | apply endEmergency_fits
    | apply fput_fits | split

theorem judgeClocks_fits {a s : State} {counts : List (Option Nat)} (h : Fits a s) : Fits a (judgeClocks s counts) := by
  unfold judgeClocks
  with_reducible repeat' first
    | intro _ _ _ | assumption | dsimp only | simp only [Fits.mk_iff] | apply Fits.ite | apply raise_fits | apply Fits.foldl

theorem execClockMonitorWindow_fits {a : State} {counts : List (Option Nat)} {s : State} (h : Fits a s) :
    FitsOut a (execClockMonitorWindow counts s) := by
  unfold execClockMonitorWindow
  with_reducible repeat' first
    | assumption | dsimp only | simp only [Fits.mk_iff] | apply FitsOut.next | apply judgeClocks_fits | split

theorem turnBit_fits {a s : State} {page off b : Nat} (h : Fits a s) : Fits a (turnBit s page off b) := by
  unfold turnBit
  with_reducible repeat' first | assumption | apply regPut_fits

theorem blockedCompletion_fits {a s : State} {q : Requester} {n : Nat} (h : Fits a s) : Fits a (blockedCompletion s q n) := by
  unfold blockedCompletion
  with_reducible repeat' first | assumption | apply complete_fits | apply poisonCompletion_fits | split

theorem regReadThen_fits {a s : State} {q : Requester} {page off n : Nat} {k : State → State} (h : Fits a s)
    (hk : ∀ s, Fits a s → Fits a (k s)) :
    Fits a (regReadThen s q page off n k) := by
  unfold regReadThen
  with_reducible repeat' first
    | apply hk | assumption | apply blockedAccess_fits | apply blockedCompletion_fits | apply noteParity_fits | split

theorem plainWrite_fits {a s : State} {q : Requester} {page off : Nat} {v : W32} {be : BitVec 4} (h : Fits a s) :
    Fits a (plainWrite s q page off v be) := by
  unfold plainWrite
  with_reducible repeat' first | assumption | apply Fits.ite | apply countRsvd_fits | apply regWrite_fits

theorem doorbellWrite_fits {a s : State} {q : Requester} {ch : Nat} {v : W32} {be : BitVec 4} (h : Fits a s) :
    Fits a (doorbellWrite s q ch v be) := by
  unfold doorbellWrite
  with_reducible repeat' first
    | assumption | apply Fits.ite | apply fadd_fits | apply fput_fits | apply plainWrite_fits | apply setEvent_fits

theorem execDoorbellWrite_fits {a : State} {q : Requester} {ch : Fin 64} {v : W32} {be : BitVec 4} {s : State} (h : Fits a s) :
    FitsOut a (execDoorbellWrite q ch v be s) := by
  unfold execDoorbellWrite
  with_reducible repeat' first | assumption | apply FitsOut.next | apply doorbellWrite_fits

theorem chCtrlWrite_fits {a s : State} {q : Requester} {ch : Nat} {v : W32} {be : BitVec 4} {forced : Bool} (h : Fits a s) :
    Fits a (chCtrlWrite s q ch v be forced) := by
  unfold chCtrlWrite
  with_reducible repeat' first
    | assumption | dsimp only | simp only [Fits.mk_iff] | apply Fits.ite | apply forcedWrite_fits | apply plainWrite_fits

theorem execChCtrlWrite_fits {a : State} {q : Requester} {ch : Fin 64} {v : W32} {be : BitVec 4} {forced : Bool} {s : State}
    (h : Fits a s) :
    FitsOut a (execChCtrlWrite q ch v be forced s) := by
  unfold execChCtrlWrite
  with_reducible repeat' first | assumption | apply FitsOut.next | apply chCtrlWrite_fits

theorem execEventWrite_fits {a : State} {q : Requester} {page : BitVec 12} {v : W32} {be : BitVec 4} {s : State}
    (h : Fits a s) :
    FitsOut a (execEventWrite q page v be s) := by
  unfold execEventWrite
  with_reducible repeat' first | assumption | apply FitsOut.next | apply regWrite_fits

theorem execEventForce_fits {a : State} {q : Requester} {page : BitVec 12} {v : W32} {be : BitVec 4} {s : State}
    (h : Fits a s) :
    FitsOut a (execEventForce q page v be s) := by
  unfold execEventForce
  with_reducible repeat' first | assumption | apply FitsOut.next | apply regWrite_fits

theorem ownerStore_fits {a s : State} {q : Requester} {page : Nat} {v : W32} {be : BitVec 4} (h : Fits a s) :
    Fits a (ownerStore s q page v be) := by
  unfold ownerStore
  with_reducible repeat' first | assumption | simp only [Fits.mk_iff] | apply Fits.ite | apply regWrite_fits

theorem ownerWrite_fits {a s : State} {q : Requester} {page : Nat} {v : W32} {be : BitVec 4} (h : Fits a s) :
    Fits a (ownerWrite s q page v be) := by
  unfold ownerWrite
  with_reducible repeat' first | assumption | apply Fits.ite | apply ownerStore_fits | apply regPut_fits | apply setEvent_fits

theorem execOwnerPidWrite_fits {a : State} {q : Requester} {page : BitVec 12} {v : W32} {be : BitVec 4} {s : State}
    (h : Fits a s) :
    FitsOut a (execOwnerPidWrite q page v be s) := by
  unfold execOwnerPidWrite
  with_reducible repeat' first | assumption | apply FitsOut.next | apply ownerWrite_fits

theorem restartWatch_fits {a s : State} {w : Nat} (h : Fits a s) : Fits a (restartWatch s w) := by
  unfold restartWatch
  with_reducible repeat' first | assumption | dsimp only | simp only [Fits.mk_iff, List.length_set] | apply fput_fits

theorem watchWrite_fits {a s : State} {q : Requester} {w : Nat} {second : Bool} {v : W32} {be : BitVec 4} (h : Fits a s) :
    Fits a (watchWrite s q w second v be) := by
  unfold watchWrite
  with_reducible repeat' first | assumption | apply Fits.ite | apply plainWrite_fits | apply restartWatch_fits

theorem execWatchWrite_fits {a : State} {q : Requester} {w : Fin 16} {second : Bool} {v : W32} {be : BitVec 4} {s : State}
    (h : Fits a s) :
    FitsOut a (execWatchWrite q w second v be s) := by
  unfold execWatchWrite
  with_reducible repeat' first | assumption | apply FitsOut.next | apply watchWrite_fits

theorem execBar2BaseWrite_fits {a : State} {q : Requester} {f : Fin 16} {hi : Bool} {v : W32} {be : BitVec 4} {s : State}
    (h : Fits a s) :
    FitsOut a (execBar2BaseWrite q f hi v be s) := by
  unfold execBar2BaseWrite
  with_reducible repeat' first | assumption | apply FitsOut.next | apply plainWrite_fits

theorem execDbMirrorBaseWrite_fits {a : State} {q : Requester} {hi : Bool} {v : W32} {be : BitVec 4} {s : State}
    (h : Fits a s) :
    FitsOut a (execDbMirrorBaseWrite q hi v be s) := by
  unfold execDbMirrorBaseWrite
  with_reducible repeat' first | assumption | apply FitsOut.next | apply plainWrite_fits

theorem windowRead_fits {a s : State} {q : Requester} {page off : Nat} {idx : Fld} {m : Nat} (h : Fits a s) :
    Fits a (windowRead s q page off idx m) := by
  unfold windowRead
  with_reducible repeat' first | intro _ _ | assumption | apply complete_fits | apply fput_fits | apply regReadThen_fits

theorem execDirData_fits {a : State} {q : Requester} {s : State} (h : Fits a s) : FitsOut a (execDirData q s) := by
  unfold execDirData
  with_reducible repeat' first | assumption | apply FitsOut.next | apply windowRead_fits

theorem execFtData_fits {a : State} {q : Requester} {t : Fin 9} {s : State} (h : Fits a s) : FitsOut a (execFtData q t s) := by
  unfold execFtData
  with_reducible repeat' first | assumption | apply FitsOut.next | apply windowRead_fits

theorem execFlogData_fits {a : State} {q : Requester} {s : State} (h : Fits a s) : FitsOut a (execFlogData q s) := by
  unfold execFlogData
  with_reducible repeat' first | assumption | apply FitsOut.next | apply windowRead_fits

theorem execLwData_fits {a : State} {q : Requester} {s : State} (h : Fits a s) : FitsOut a (execLwData q s) := by
  unfold execLwData
  with_reducible repeat' first | assumption | apply FitsOut.next | apply windowRead_fits

theorem execRxData_fits {a : State} {q : Requester} {n : Fin 2} {s : State} (h : Fits a s) : FitsOut a (execRxData q n s) := by
  unfold execRxData
  with_reducible repeat' first | assumption | apply FitsOut.next | apply windowRead_fits

theorem intakeWrite_fits {a s : State} {q : Requester} {port : Fin 8} {off : Nat} {v : W32} {be : BitVec 4} (h : Fits a s) :
    Fits a (intakeWrite s q port off v be) := by
  unfold intakeWrite
  with_reducible repeat' first
    | assumption | apply execFEnableWrite_fits | apply plainWrite_fits | apply regWrite_fits | apply FitsOut.leaves | split

theorem execPostmarkAdjWrite_fits {a : State} {q : Requester} {v : W32} {be : BitVec 4} {s : State} (h : Fits a s) :
    FitsOut a (execPostmarkAdjWrite q v be s) := by
  unfold execPostmarkAdjWrite
  with_reducible repeat' first
    | assumption | apply FitsOut.next | apply fadd_fits | apply regWrite_fits | apply setAdj_fits | split

theorem execCommitGo_fits {a : State} {q : Requester} {v : W32} {be : BitVec 4} {s : State} (h : Fits a s) :
    FitsOut a (execCommitGo q v be s) := by
  unfold execCommitGo
  with_reducible repeat' first | assumption | apply FitsOut.next | apply regWrite_fits

theorem stepIndex_fits {a s : State} {f : Fld} (h : Fits a s) : Fits a (stepIndex s f) := by
  unfold stepIndex
  with_reducible repeat' first | assumption | apply fadd_fits

theorem execTtData_fits {a : State} {q : Requester} {w : Option W32} {s : State} (h : Fits a s) :
    FitsOut a (execTtData q w s) := by
  unfold execTtData
  with_reducible repeat' first
    | intro _ _ | assumption | simp only [Fits.mk_iff] | apply FitsOut.next | apply badValue_fits | apply complete_fits
    | apply countRsvd_fits | apply regReadThen_fits | apply regWrite_fits | apply stepIndex_fits | split

theorem execObsData_fits {a : State} {q : Requester} {w : Option W32} {s : State} (h : Fits a s) :
    FitsOut a (execObsData q w s) := by
  unfold execObsData
  with_reducible repeat' first
    | intro _ _ | assumption | apply FitsOut.next | apply complete_fits | apply obsPut_fits | apply regReadThen_fits
    | apply regWrite_fits | apply stepIndex_fits | split

theorem writeAny_fits {a s : State} {q : Requester} {page off : Nat} {v : W32} {be : BitVec 4} {forced : Bool} (h : Fits a s) :
    Fits a (writeAny s q page off v be forced) := by
  unfold writeAny
  with_reducible repeat' first
    | assumption | apply Fits.ite | apply FitsOut.leaves | apply chCtrlWrite_fits | apply doorbellWrite_fits
    | apply execAlignGo_fits | apply execCommitGo_fits | apply execLatEnWrite_fits | apply execObsData_fits
    | apply execPairRoleWrite_fits | apply execPostmarkAdjWrite_fits | apply execResyncGo_fits | apply execStepReqWrite_fits
    | apply execTtData_fits | apply execWdgKick_fits | apply intakeWrite_fits | apply ownerWrite_fits | apply plainWrite_fits
    | apply regWrite_fits | apply watchWrite_fits | split

theorem execRegisterWrite_fits {a : State} {q : Requester} {off : BitVec 24} {v : W64} {be : BitVec 8} {forced : Bool}
    {s : State} (h : Fits a s) :
    FitsOut a (execRegisterWrite q off v be forced s) := by
  unfold execRegisterWrite
  with_reducible repeat' first | assumption | apply FitsOut.next | apply Fits.ite | apply writeAny_fits

theorem noteFlip_fits {a s : State} {key : Nat} {v : Bool} (h : Fits a s) : Fits a (noteFlip s key v) := by
  unfold noteFlip
  with_reducible repeat' first | assumption | dsimp only | simp only [Fits.mk_iff]

theorem strike_fits {a s : State} {u : Upset} (h : Fits a s) : Fits a (strike s u) := by
  cases u with
  | word w hard =>
    unfold strike
    with_reducible repeat' first | assumption | dsimp only | apply eccSet_fits | split
  | line i w hard =>
    unfold strike
    dsimp only
    split
    next l hl => exact h.cacheSet hl rfl
    next => exact h
  | entry k =>
    unfold strike
    with_reducible repeat' first | assumption | dsimp only | simp -zeta only [Fits.mk_iff] | split
  | config page off b =>
    unfold strike
    with_reducible repeat' first | assumption | dsimp only | apply noteFlip_fits | apply turnBit_fits | split

theorem countLinks_fits {a s : State} (h : Fits a s) : Fits a (countLinks s) := by
  unfold countLinks
  with_reducible repeat' first | intro _ _ _ | assumption | apply ledgerAddPt_fits | apply Fits.foldl | split

theorem bootVoltage_fits {a s : State} (h : Fits a s) : Fits a (bootVoltage s) := by
  unfold bootVoltage
  with_reducible repeat' first | assumption | simp only [Fits.mk_iff] | apply commandMv_fits | apply settleFrom_fits | split

theorem validate_fits {a s : State} (h : Fits a s) : Fits a (validate s) := by
  unfold validate
  with_reducible repeat' first | assumption | dsimp only | simp only [Fits.mk_iff] | apply fput_fits | apply setEvent_fits | split

theorem endValidation_fits {a s : State} (h : Fits a s) : Fits a (endValidation s) := by
  unfold endValidation
  with_reducible repeat' first | assumption | apply Fits.ite | apply validate_fits

theorem countLoad_fits {a s : State} (h : Fits a s) : Fits a (countLoad s) := by
  unfold countLoad
  with_reducible repeat' first | intro _ _ _ | assumption | dsimp only | simp only [Fits.mk_iff] | apply Fits.foldl | split

theorem countEdge_fits {a s : State} (h : Fits a s) : Fits a (countEdge s) := by
  unfold countEdge
  with_reducible repeat' first
    | assumption | apply bootVoltage_fits | apply countLinks_fits | apply countLoad_fits | apply drainBar2_fits
    | apply drainPorts_fits | apply endValidation_fits | apply idleTick_fits | apply takeMei_fits

theorem advance_fits {a s : State} {n : Nat} (h : Fits a s) : Fits a (advance s n) := by
  unfold advance
  with_reducible repeat' first | assumption | simp only [Fits.mk_iff]

theorem applyStep_fits {a s : State} (h : Fits a s) : Fits a (applyStep s) := by
  unfold applyStep
  with_reducible repeat' first | assumption | apply advance_fits | apply fadd_fits | apply fput_fits

theorem applyHold_fits {a s : State} (h : Fits a s) : Fits a (applyHold s) := by
  unfold applyHold
  with_reducible repeat' first | assumption | simp only [Fits.mk_iff] | apply Fits.ite | apply fadd_fits | apply fput_fits

theorem applyPlain_fits {a s : State} (h : Fits a s) : Fits a (applyPlain s) := by
  unfold applyPlain
  with_reducible repeat' first | assumption | dsimp only | simp only [Fits.mk_iff] | apply advance_fits

theorem pmEdge_fits {a s : State} (h : Fits a s) : Fits a (pmEdge s) := by
  unfold pmEdge
  with_reducible repeat' first | assumption | apply applyHold_fits | apply applyPlain_fits | apply applyStep_fits | split

theorem execPostmarkTick_fits {a : State} {upsets : List Upset} {s : State} (h : Fits a s) :
    FitsOut a (execPostmarkTick upsets s) := by
  unfold execPostmarkTick
  with_reducible repeat' first
    | assumption | apply FitsOut.next | apply countEdge_fits | apply pmEdge_fits | apply strike_fits | apply Fits.foldl | split

theorem execPostmarkStep_fits {a s : State} (h : Fits a s) : FitsOut a (execPostmarkStep s) := by
  unfold execPostmarkStep
  with_reducible repeat' first | assumption | apply FitsOut.next | apply applyStep_fits | apply countEdge_fits | split

theorem execPostmarkSlewHold_fits {a s : State} (h : Fits a s) : FitsOut a (execPostmarkSlewHold s) := by
  unfold execPostmarkSlewHold
  with_reducible repeat' first | assumption | apply FitsOut.next | apply applyHold_fits | apply countEdge_fits | split

theorem cutTask_fits {a s : State} {t : Task} {mark : Nat} (h : Fits a s) : Fits a (cutTask s t mark) := by
  unfold cutTask
  with_reducible repeat' first
    | assumption | dsimp only | apply advanceRun_fits | apply countEnd_fits | apply countTrap_fits | apply dropTask_fits
    | apply finishLetter_fits | apply noteStatus_fits | apply publishCut_fits | apply updRun_fits | split

theorem skipUnserved_fits {a s : State} {t : Task} (h : Fits a s) : Fits a (skipUnserved s t) := by
  unfold skipUnserved
  with_reducible repeat' first
    | assumption | apply advanceRun_fits | apply dropTask_fits | apply noteStatus_fits | apply publishCut_fits
    | apply updRun_fits

theorem setModes_fits {a s : State} {t : Task} {logical : List Nat} (h : Fits a s) : Fits a (setModes s t logical) := by
  unfold setModes
  with_reducible repeat' first | intro _ _ _ | assumption | apply fput_fits | apply Fits.foldl | split

theorem startStrict_fits {a s : State} {t : Task} {logical : List Nat} {stop : Nat} (h : Fits a s) :
    Fits a (startStrict s t logical stop) := by
  unfold startStrict
  with_reducible repeat' first
    | assumption | apply Fits.ite | apply setModes_fits | apply skipUnserved_fits | apply startTask_fits

theorem execStrictOperatorStart_fits {a : State} {ch : Fin 64} {seq : W32} {op : Nat} {s : State} (h : Fits a s) :
    FitsOut a (execStrictOperatorStart ch seq op s) := by
  unfold execStrictOperatorStart
  with_reducible repeat' first
    | assumption | dsimp only | apply FitsOut.next | apply advanceRun_fits | apply enterTask_fits | apply raise_fits
    | apply startStrict_fits | split

theorem missDeadline_fits {a s : State} {t : Task} {l : Letter} (h : Fits a s) : Fits a (missDeadline s t l) := by
  unfold missDeadline
  with_reducible repeat' first | assumption | apply advanceRun_fits | apply dropTask_fits | apply finishLetter_fits | split

theorem execLooseDispatch_fits {a : State} {kind : UnitKind} {s : State} (h : Fits a s) :
    FitsOut a (execLooseDispatch kind s) := by
  unfold execLooseDispatch
  with_reducible repeat' first
    | assumption | simp only [Fits.mk_iff] | apply FitsOut.next | apply dropTask_fits | apply finishLetter_fits
    | apply missDeadline_fits | apply putTask_fits | apply startTask_fits | split

theorem execBudgetOverrun_fits {a : State} {task : Nat} {s : State} (h : Fits a s) : FitsOut a (execBudgetOverrun task s) := by
  unfold execBudgetOverrun
  with_reducible repeat' first
    | assumption | apply FitsOut.next | apply cutTask_fits | apply obsInc_fits | apply raise_fits | split

theorem execWaitTimeout_fits {a : State} {task : Nat} {s : State} (h : Fits a s) : FitsOut a (execWaitTimeout task s) := by
  unfold execWaitTimeout
  with_reducible repeat' first
    | assumption | apply FitsOut.next | apply cutTask_fits | apply obsInc_fits | apply raise_fits | split

theorem execSweepEpochWaitEnd_fits {a : State} {task : Nat} {s : State} (h : Fits a s) :
    FitsOut a (execSweepEpochWaitEnd task s) := by
  unfold execSweepEpochWaitEnd
  with_reducible repeat' first
    | assumption | apply FitsOut.next | apply dropTask_fits | apply finishLetter_fits | apply obsInc_fits | apply putTask_fits
    | split

theorem returnTask_fits {a s : State} {t : Task} (h : Fits a s) : Fits a (returnTask s t) := by
  unfold returnTask
  dsimp only
  apply updRun_fits
  exact (freshCores_fits (putTask_fits h) fun c => c.task == some t.id).congr

theorem execTimetableActivate_fits {a s : State} (h : Fits a s) : FitsOut a (execTimetableActivate s) := by
  unfold execTimetableActivate
  with_reducible repeat' first
    | intro _ _ _ | assumption | simp only [Fits.mk_iff] | apply FitsOut.next | apply fput_fits | apply refit_fits
    | apply returnTask_fits | apply Fits.foldl | split

theorem execMajorFrameStart_fits {a s : State} (h : Fits a s) : FitsOut a (execMajorFrameStart s) := by
  unfold execMajorFrameStart
  with_reducible repeat' first
    | assumption | simp only [Fits.mk_iff] | apply FitsOut.next | apply beginRelock_fits | apply fadd_fits | apply fput_fits
    | split

theorem execTimetableSlotStart_fits {a : State} {slot : Nat} {s : State} (h : Fits a s) :
    FitsOut a (execTimetableSlotStart slot s) := by
  unfold execTimetableSlotStart
  with_reducible repeat' first
    | intro _ _ _ | assumption | dsimp only | apply FitsOut.next | apply fput_fits | apply Fits.foldl | split

theorem execPairModeChange_fits {a : State} {pair : Fin 17} {s : State} (h : Fits a s) :
    FitsOut a (execPairModeChange pair s) := by
  unfold execPairModeChange
  with_reducible repeat' first | assumption | dsimp only | apply FitsOut.next | apply fput_fits | split

theorem execLoadWindowEnd_fits {a s : State} (h : Fits a s) : FitsOut a (execLoadWindowEnd s) := by
  unfold execLoadWindowEnd
  with_reducible repeat' first
    | intro _ _ _ | assumption | simp only [Fits.mk_iff] | apply FitsOut.next | apply FitsOut.ite | apply fput_fits
    | apply obsPut_fits | apply Fits.foldl

theorem execSweepOperator_fits {a : State} {task : Nat} {s : State} (h : Fits a s) : FitsOut a (execSweepOperator task s) := by
  unfold execSweepOperator
  with_reducible repeat' first | intro _ _ _ | intro _ _ | assumption | apply formOuts_fits

theorem countSweep_fits {a s : State} {t : Task} {g : SweepArgs} {recs : List Byte} (h : Fits a s) :
    Fits a (countSweep s t g recs) := by
  unfold countSweep
  with_reducible repeat' first | intro _ _ _ | assumption | apply fadd_fits | apply Fits.foldl

theorem sweepMismatch_fits {a : State} {t : Task} {s : State} {d : Nat × Bool} (h : Fits a s) : Fits a (sweepMismatch t s d) := by
  unfold sweepMismatch
  with_reducible repeat' first | assumption | apply fadd_fits | apply noteStatus_fits | apply raiseAs_fits | apply setEvent_fits

theorem execSweepComplete_fits {a : State} {task : Nat} {faults : List SweepFault} {s : State} (h : Fits a s) :
    FitsOut a (execSweepComplete task faults s) := by
  unfold execSweepComplete
  with_reducible repeat' first
    | assumption | apply FitsOut.next | apply completeAny_fits | apply countSweep_fits | apply publishAll_fits
    | apply sweepMismatch_fits | apply Fits.foldl | split

theorem sortTask_fits {a : State} {code task : Nat} {s : State} (h : Fits a s) : FitsOut a (sortTask code task s) := by
  unfold sortTask
  with_reducible repeat' first | assumption | apply FitsOut.next | apply putTask_fits | split

theorem execTopk_fits {a : State} {task : Nat} {s : State} (h : Fits a s) : FitsOut a (execTopk task s) := by
  unfold execTopk
  with_reducible repeat' first | assumption | apply sortTask_fits

theorem execSort_fits {a : State} {task : Nat} {s : State} (h : Fits a s) : FitsOut a (execSort task s) := by
  unfold execSort
  with_reducible repeat' first | assumption | apply sortTask_fits

theorem execCompact_fits {a : State} {task : Nat} {s : State} (h : Fits a s) : FitsOut a (execCompact task s) := by
  unfold execCompact
  with_reducible repeat' first | assumption | apply sortTask_fits

theorem countSort_fits {a s : State} {t : Task} {w : SortWork} {written : List Nat} (h : Fits a s) :
    Fits a (countSort s t w written) := by
  unfold countSort
  with_reducible repeat' first | intro _ _ _ | assumption | apply fadd_fits | apply Fits.foldl

theorem sortFail_fits {a s : State} {t : Task} {count : Fld} {ev : Nat} (h : Fits a s) : Fits a (sortFail s t count ev) := by
  unfold sortFail
  with_reducible repeat' first | assumption | apply fadd_fits | apply noteStatus_fits | apply raise_fits | apply setEvent_fits

theorem checkRow_fits {a : State} {q : SortAsk} {t : Task} {s : State} {x : List Item × SortedRow} (h : Fits a s) :
    Fits a (checkRow q t s x) := by
  unfold checkRow
  with_reducible repeat' first | assumption | apply Fits.ite | apply sortFail_fits

theorem execSorterTaskComplete_fits {a : State} {task : Nat} {faults : List SortFault} {s : State} (h : Fits a s) :
    FitsOut a (execSorterTaskComplete task faults s) := by
  unfold execSorterTaskComplete
  with_reducible repeat' first
    | assumption | apply FitsOut.next | apply checkRow_fits | apply completeAny_fits | apply countSort_fits
    | apply publishAll_fits | apply Fits.foldl | split

theorem selftestAdd_fits {a s : State} {k u word amount : Nat} (h : Fits a s) : Fits a (selftestAdd s k u word amount) := by
  unfold selftestAdd
  with_reducible repeat' first | assumption | apply ledgerSet_fits

theorem notePass_fits {a s : State} {k u : Nat} (h : Fits a s) : Fits a (notePass s k u) := by
  unfold notePass
  with_reducible repeat' first
    | assumption | dsimp only | simp only [Fits.mk_iff] | apply fadd_fits | apply ledgerQueue_fits | apply ledgerSet_fits
    | apply selftestAdd_fits

theorem noteFail_fits {a s : State} {k u : Nat} (h : Fits a s) : Fits a (noteFail s k u) := by
  unfold noteFail
  with_reducible repeat' first | assumption | apply ledgerQueue_fits | apply selftestAdd_fits

theorem takeover_fits {a s : State} {k u spare reason : Nat} (h : Fits a s) : Fits a (takeover s k u spare reason) := by
  unfold takeover
  with_reducible repeat' first
    | assumption | apply Fits.ite | apply beginTest_fits | apply changeRole_fits | apply mapOut_fits | apply swapIn_fits

theorem execSpareTakeover_fits {a : State} {kind : TestKind} {s : State} (h : Fits a s) :
    FitsOut a (execSpareTakeover kind s) := by
  unfold execSpareTakeover
  with_reducible repeat' first
    | assumption | dsimp only | simp only [Fits.mk_iff] | apply FitsOut.next | apply takeover_fits | split

theorem beamMapOut_fits {a s : State} {b : Nat} (h : Fits a s) : Fits a (beamMapOut s b) := by
  unfold beamMapOut
  with_reducible repeat' first | assumption | apply askTakeover_fits | apply beginCopy_fits | split

theorem nextCopy_fits {a s : State} (h : Fits a s) : Fits a (nextCopy s) := by
  unfold nextCopy
  with_reducible repeat' first | assumption | simp only [Fits.mk_iff] | apply beginCopy_fits | split

theorem execBeamCopyComplete_fits {a s : State} (h : Fits a s) : FitsOut a (execBeamCopyComplete s) := by
  unfold execBeamCopyComplete
  with_reducible repeat' first
    | assumption | simp only [Fits.mk_iff] | apply FitsOut.next | apply fput_fits | apply nextCopy_fits | apply takeover_fits
    | split

theorem judgeRates_fits {a s : State} (h : Fits a s) : Fits a (judgeRates s) := by
  unfold judgeRates
  with_reducible repeat' first
    | intro _ _ _ | assumption | dsimp only | simp only [Fits.mk_iff] | apply beamMapOut_fits | apply ledgerAdd_fits
    | apply raise_fits | apply Fits.foldl

theorem execCorrRateWindowEnd_fits {a s : State} (h : Fits a s) : FitsOut a (execCorrRateWindowEnd s) := by
  unfold execCorrRateWindowEnd
  with_reducible repeat' first
    | assumption | dsimp only | simp only [Fits.mk_iff] | apply FitsOut.next | apply judgeRates_fits | split

theorem execRotatingTestStart_fits {a : State} {kind : TestKind} {s : State} (h : Fits a s) :
    FitsOut a (execRotatingTestStart kind s) := by
  unfold execRotatingTestStart
  with_reducible repeat' first
    | assumption | dsimp only | simp only [Fits.mk_iff] | apply FitsOut.next | apply startTest_fits | split

theorem execDeferredTestRetry_fits {a : State} {kind : TestKind} {s : State} (h : Fits a s) :
    FitsOut a (execDeferredTestRetry kind s) := by
  unfold execDeferredTestRetry
  with_reducible repeat' first | assumption | dsimp only | apply FitsOut.next | apply startTest_fits | split

theorem returnUnit_fits {a s : State} {k u : Nat} (h : Fits a s) : Fits a (returnUnit s k u) := by
  unfold returnUnit
  with_reducible repeat' first
    | assumption | simp only [Fits.mk_iff] | apply askTakeover_fits | apply lifeAdd_fits | apply setRole_fits
    | apply spareEvent_fits | apply writeSpareMap_fits | split

theorem failTest_fits {a s : State} {k : Nat} {t : TestSt} (h : Fits a s) : Fits a (failTest s k t) := by
  unfold failTest
  with_reducible repeat' first
    | assumption | apply Fits.ite | apply changeRole_fits | apply mapOut_fits | apply noteFail_fits | apply raiseAs_fits

theorem endTest_fits {a s : State} {k : Nat} {t : TestSt} {pass : Bool} (h : Fits a s) : Fits a (endTest s k t pass) := by
  unfold endTest
  with_reducible repeat' first
    | assumption | simp only [Fits.mk_iff] | apply Fits.ite | apply changeRole_fits | apply failTest_fits | apply notePass_fits
    | apply returnUnit_fits

theorem execRotatingTestComplete_fits {a : State} {kind : TestKind} {pass : Bool} {s : State} (h : Fits a s) :
    FitsOut a (execRotatingTestComplete kind pass s) := by
  unfold execRotatingTestComplete
  with_reducible repeat' first | assumption | dsimp only | apply FitsOut.next | apply endTest_fits | split

theorem execTestSegment_fits {a : State} {kind : TestKind} {pass : Bool} {s : State} (h : Fits a s) :
    FitsOut a (execTestSegment kind pass s) := by
  unfold execTestSegment
  with_reducible repeat' first
    | assumption | dsimp only | simp only [Fits.mk_iff] | apply FitsOut.next | apply endTest_fits | split

theorem execLatentOverdue_fits {a : State} {kind : TestKind} {unit : Nat} {s : State} (h : Fits a s) :
    FitsOut a (execLatentOverdue kind unit s) := by
  unfold execLatentOverdue
  with_reducible repeat' first | assumption | simp only [Fits.mk_iff] | apply FitsOut.next | apply raiseAs_fits | split

theorem execPostmarkCounterStart_fits {a s : State} (h : Fits a s) : FitsOut a (execPostmarkCounterStart s) := by
  unfold execPostmarkCounterStart
  with_reducible repeat' first | assumption | simp only [Fits.mk_iff] | apply FitsOut.next | apply fput_fits | split

theorem execPmClkLoss_fits {a s : State} (h : Fits a s) : FitsOut a (execPmClkLoss s) := by
  unfold execPmClkLoss
  with_reducible repeat' first | assumption | simp only [Fits.mk_iff] | apply FitsOut.next | apply raise_fits | split

theorem latchTime_fits {a s : State} {q : Requester} (h : Fits a s) : Fits a (latchTime s q) := by
  unfold latchTime
  with_reducible repeat' first | assumption | simp only [Fits.mk_iff]

theorem execPostmarkLoRead_fits {a : State} {q : Requester} {wide : Bool} {s : State} (h : Fits a s) :
    FitsOut a (execPostmarkLoRead q wide s) := by
  unfold execPostmarkLoRead
  with_reducible repeat' first
    | intro _ _ | assumption | apply FitsOut.next | apply complete_fits | apply latchTime_fits | apply regReadThen_fits

theorem execLastEventPmLo_fits {a : State} {q : Requester} {page off : BitVec 12} {wide : Bool} {s : State} (h : Fits a s) :
    FitsOut a (execLastEventPmLo q page off wide s) := by
  unfold execLastEventPmLo
  with_reducible repeat' first
    | intro _ _ | assumption | simp only [Fits.mk_iff] | apply FitsOut.next | apply FitsOut.ite | apply complete_fits
    | apply regReadThen_fits

theorem countNan_fits {a s : State} {t : Task} {p : List W32} {o : OpDesc} {d : TensorDesc} {xs : List Xv} (h : Fits a s) :
    Fits a (countNan s t p o d xs) := by
  unfold countNan
  with_reducible repeat' first | intro _ _ _ | assumption | apply fadd_fits | apply Fits.foldl

theorem valueRule_fits {a : State} {f : State → List W32 → OpDesc → Task → List Xv} {s : State} {w : List W32} {o : OpDesc}
    {t : Task} (h : Fits a s) :
    Fits a (valueRule f s w o t).1 := by
  unfold valueRule
  with_reducible repeat' first | assumption | apply countNan_fits

theorem execMatmul_fits {a : State} {task : Nat} {s : State} (h : Fits a s) : FitsOut a (execMatmul task s) := by
  unfold execMatmul
  with_reducible repeat' first | assumption | apply formOuts_fits | apply valueRule_fits

theorem execBatchMatmul_fits {a : State} {task : Nat} {s : State} (h : Fits a s) : FitsOut a (execBatchMatmul task s) := by
  unfold execBatchMatmul
  with_reducible repeat' first | assumption | apply formOuts_fits | apply valueRule_fits

theorem execConv2d_fits {a : State} {task : Nat} {s : State} (h : Fits a s) : FitsOut a (execConv2d task s) := by
  unfold execConv2d
  with_reducible repeat' first | assumption | apply formOuts_fits | apply valueRule_fits

theorem execDwconv2d_fits {a : State} {task : Nat} {s : State} (h : Fits a s) : FitsOut a (execDwconv2d task s) := by
  unfold execDwconv2d
  with_reducible repeat' first | assumption | apply formOuts_fits | apply valueRule_fits

theorem execAdd_fits {a : State} {task : Nat} {s : State} (h : Fits a s) : FitsOut a (execAdd task s) := by
  unfold execAdd
  with_reducible repeat' first | assumption | apply formOuts_fits | apply valueRule_fits

theorem execMul_fits {a : State} {task : Nat} {s : State} (h : Fits a s) : FitsOut a (execMul task s) := by
  unfold execMul
  with_reducible repeat' first | assumption | apply formOuts_fits | apply valueRule_fits

theorem execConvert_fits {a : State} {task : Nat} {s : State} (h : Fits a s) : FitsOut a (execConvert task s) := by
  unfold execConvert
  with_reducible repeat' first | assumption | apply formOuts_fits | apply valueRule_fits

theorem execClamp_fits {a : State} {task : Nat} {s : State} (h : Fits a s) : FitsOut a (execClamp task s) := by
  unfold execClamp
  with_reducible repeat' first | assumption | apply formOuts_fits | apply valueRule_fits

theorem execFinish_fits {a : State} {task : Nat} {s : State} (h : Fits a s) : FitsOut a (execFinish task s) := by
  unfold execFinish
  with_reducible repeat' first | assumption | apply formOuts_fits | apply valueRule_fits

theorem execSum_fits {a : State} {task : Nat} {s : State} (h : Fits a s) : FitsOut a (execSum task s) := by
  unfold execSum
  with_reducible repeat' first | assumption | apply formOuts_fits | apply valueRule_fits

theorem execMean_fits {a : State} {task : Nat} {s : State} (h : Fits a s) : FitsOut a (execMean task s) := by
  unfold execMean
  with_reducible repeat' first | assumption | apply formOuts_fits | apply valueRule_fits

theorem maxMinRule_fits {a s : State} {w : List W32} {o : OpDesc} {t : Task} (h : Fits a s) : Fits a (maxMinRule s w o t).1 := by
  unfold maxMinRule
  with_reducible repeat' first | assumption | apply countNan_fits

theorem execMaxMin_fits {a : State} {task : Nat} {s : State} (h : Fits a s) : FitsOut a (execMaxMin task s) := by
  unfold execMaxMin
  with_reducible repeat' first | assumption | apply formOuts_fits | apply maxMinRule_fits

theorem execNormalize_fits {a : State} {task : Nat} {s : State} (h : Fits a s) : FitsOut a (execNormalize task s) := by
  unfold execNormalize
  with_reducible repeat' first | assumption | apply formOuts_fits | apply valueRule_fits

theorem softmaxRule_fits {a s : State} {w : List W32} {o : OpDesc} {t : Task} (h : Fits a s) :
    Fits a (softmaxRule s w o t).1 := by
  unfold softmaxRule
  with_reducible repeat' first | assumption | apply countNan_fits

theorem execSoftmax_fits {a : State} {task : Nat} {s : State} (h : Fits a s) : FitsOut a (execSoftmax task s) := by
  unfold execSoftmax
  with_reducible repeat' first | assumption | apply formOuts_fits | apply softmaxRule_fits

theorem transposeRule_fits {a : State} {fs : List LaneFault} {s : State} {w : List W32} {o : OpDesc} {t : Task} (h : Fits a s) :
    Fits a (transposeRule fs s w o t).1 := by
  unfold transposeRule
  exact h

theorem execTranspose_fits {a : State} {task : Nat} {s : State} (h : Fits a s) : FitsOut a (execTranspose task s) := by
  unfold execTranspose
  with_reducible repeat' first | assumption | apply formOuts_fits | apply transposeRule_fits

theorem execRandomUniform_fits {a : State} {task : Nat} {s : State} (h : Fits a s) : FitsOut a (execRandomUniform task s) := by
  unfold execRandomUniform
  with_reducible repeat' first | intro _ _ _ | intro _ _ | assumption | apply formOuts_fits

theorem execRandomNormal_fits {a : State} {task : Nat} {s : State} (h : Fits a s) : FitsOut a (execRandomNormal task s) := by
  unfold execRandomNormal
  with_reducible repeat' first | assumption | apply formOuts_fits | apply valueRule_fits

theorem engineMismatch_fits {a s : State} {t : Task} {u : Nat} {count : Fld} {ev cls : Nat} (h : Fits a s) :
    Fits a (engineMismatch s t u count ev cls) := by
  unfold engineMismatch
  with_reducible repeat' first | assumption | apply fadd_fits | apply noteStatus_fits | apply raise_fits | apply setEvent_fits

theorem checkEngines_fits {a s : State} {t : Task} {p : List W32} {o : OpDesc} {fs : List LaneFault} {rs : List RoundFault}
    (h : Fits a s) :
    Fits a (checkEngines s t p o fs rs).1 := by
  unfold checkEngines
  with_reducible repeat' first | intro _ _ _ | assumption | apply engineMismatch_fits | apply Fits.foldl

theorem countMop_fits {a s : State} {t : Task} {p : List W32} {o : OpDesc} (h : Fits a s) : Fits a (countMop s t p o) := by
  unfold countMop
  with_reducible repeat' first | intro _ _ _ | assumption | apply Fits.ite | apply fadd_fits | apply Fits.foldl

theorem postcardFail_fits {a : State} {t : Task} {s : State} {x : Option Nat × Docket × Bool} (h : Fits a s) :
    Fits a (postcardFail t s x) := by
  unfold postcardFail
  with_reducible repeat' first
    | assumption | apply fadd_fits | apply noteStatus_fits | apply raise_fits | apply setEvent_fits | split

theorem poolWrite_fits {a s : State} {t : Task} {p : List W32} {m : Macro} {out : TensorDesc} {x : Nat} {data : List Byte}
    (h : Fits a s) (hx : dramBase ≤ x) : Fits a (poolWrite s t p m out x data) := by
  unfold poolWrite
  refine Fits.foldl h fun _ _ hs => countMisses_fits hs fun _ ht => ?_
  exact Fits.foldl ht fun _ _ hu => Fits.foldl hu fun _ q hv => writeParts_fits hv (hx.trans (Nat.le_add_right x q.1))

theorem walkOut_fits {a s : State} {t : Task} (h : Fits a s) : Fits a (walkOut s t).1 := by
  unfold walkOut
  with_reducible repeat' first
    | intro _ _ _ | assumption | apply poolWrite_fits | exact pooled_dram (Bool.and_eq_true_iff.1 (by assumption)).1
    | apply Fits.foldl1 | split

theorem execMacroOperationComplete_fits {a : State} {task : Nat} {faults : List LaneFault} {rounds : List RoundFault}
    {s : State} (h : Fits a s) :
    FitsOut a (execMacroOperationComplete task faults rounds s) := by
  unfold execMacroOperationComplete
  with_reducible repeat' first
    | assumption | apply FitsOut.next | apply abortTask_fits | apply checkEngines_fits | apply completeTask_fits
    | apply countMop_fits | apply postcardFail_fits | apply publishPorts_fits | apply putTask_fits | apply walkOut_fits
    | apply Fits.foldl | split

end Sys2Proof.Machine
end

section
/-! SUPPORT. Every command, and with it every step, keeps the machine's shape. -/

namespace Sys2Proof.Machine

/-- The dispatch keeps what each command's own meaning keeps. -/
theorem exec_fits {a s : State} (h : Fits a s) (c : Instr) : FitsOut a (exec c s) :=
  match c with
  | .ping .. => execPing_fits h
  | .loadPlan .. => execLoadPlan_fits h
  | .unloadPlan .. => execUnloadPlan_fits h
  | .runPlan .. => execRunPlan_fits h
  | .writeTensor .. => execWriteTensor_fits h
  | .readTensor .. => execReadTensor_fits h
  | .worldUpdate .. => execWorldUpdate_fits h
  | .sweep .. => execSweep_fits h
  | .select .. => execSelect_fits h
  | .solve .. => execSolve_fits h
  | .setPartition .. => execSetPartition_fits h
  | .partitionInstall .. => execPartitionInstall_fits h
  | .queryDaybook .. => execQueryDaybook_fits h
  | .readLedger .. => execReadLedger_fits h
  | .timeAlign .. => execTimeAlign_fits h
  | .timeAlignDeferredWrite => execTimeAlignDeferredWrite_fits h
  | .seal .. => execSeal_fits h
  | .unseal .. => execUnseal_fits h
  | .setKey .. => execSetKey_fits h
  | .inject .. => execInject_fits h
  | .enterSafeA .. => execEnterSafeA_fits h
  | .leaveSafeA .. => execLeaveSafeA_fits h
  | .rotate .. => execRotate_fits h
  | .suspectClear .. => execSuspectClear_fits h
  | .fence .. => execFence_fits h
  | .fenceComplete .. => execFenceComplete_fits h
  | .unloadComplete .. => execUnloadComplete_fits h
  | .planReplace .. => execPlanReplace_fits h
  | .cancel .. => execCancel_fits h
  | .doorbellWrite .. => execDoorbellWrite_fits h
  | .letterStart .. => execLetterStart_fits h
  | .replyWrite .. => execReplyWrite_fits h
  | .journalWrite .. => execJournalWrite_fits h
  | .ledgerSlotWrite .. => execLedgerSlotWrite_fits h
  | .ledgerPeriodicCommit => execLedgerPeriodicCommit_fits h
  | .looseDispatch .. => execLooseDispatch_fits h
  | .strictRunStart .. => execStrictRunStart_fits h
  | .strictOperatorStart .. => execStrictOperatorStart_fits h
  | .budgetOverrun .. => execBudgetOverrun_fits h
  | .waitTimeout .. => execWaitTimeout_fits h
  | .majorFrameStart => execMajorFrameStart_fits h
  | .timetableSlotStart .. => execTimetableSlotStart_fits h
  | .commitGo .. => execCommitGo_fits h
  | .timetableActivate => execTimetableActivate_fits h
  | .ttData .. => execTtData_fits h
  | .obsData .. => execObsData_fits h
  | .loadWindowEnd => execLoadWindowEnd_fits h
  | .matmul .. => execMatmul_fits h
  | .batchMatmul .. => execBatchMatmul_fits h
  | .conv2d .. => execConv2d_fits h
  | .dwconv2d .. => execDwconv2d_fits h
  | .reshape .. => execReshape_fits h
  | .transpose .. => execTranspose_fits h
  | .slice .. => execSlice_fits h
  | .concat .. => execConcat_fits h
  | .pad .. => execPad_fits h
  | .gather .. => execGather_fits h
  | .unpackFrame .. => execUnpackFrame_fits h
  | .add .. => execAdd_fits h
  | .mul .. => execMul_fits h
  | .convert .. => execConvert_fits h
  | .clamp .. => execClamp_fits h
  | .finish .. => execFinish_fits h
  | .sum .. => execSum_fits h
  | .maxMin .. => execMaxMin_fits h
  | .mean .. => execMean_fits h
  | .normalize .. => execNormalize_fits h
  | .softmax .. => execSoftmax_fits h
  | .topk .. => execTopk_fits h
  | .sort .. => execSort_fits h
  | .compact .. => execCompact_fits h
  | .sweepOperator .. => execSweepOperator_fits h
  | .worldBuild .. => execWorldBuild_fits h
  | .qpSolve .. => execQpSolve_fits h
  | .cholesky .. => execCholesky_fits h
  | .cg .. => execCg_fits h
  | .allreduce .. => execAllreduce_fits h
  | .broadcast .. => execBroadcast_fits h
  | .mergeTopk .. => execMergeTopk_fits h
  | .barrier .. => execBarrier_fits h
  | .randomUniform .. => execRandomUniform_fits h
  | .randomNormal .. => execRandomNormal_fits h
  | .joinerCall .. => execJoinerCall_fits h
  | .macroOperationComplete .. => execMacroOperationComplete_fits h
  | .sweepComplete .. => execSweepComplete_fits h
  | .sweepEpochWaitEnd .. => execSweepEpochWaitEnd_fits h
  | .sorterTaskComplete .. => execSorterTaskComplete_fits h
  | .planeSolveComplete .. => execPlaneSolveComplete_fits h
  | .ecall .. => execEcall_fits h
  | .joinerTrap .. => execJoinerTrap_fits h
  | .tqPush .. => execTqPush_fits h
  | .tqPop .. => execTqPop_fits h
  | .tqLen .. => execTqLen_fits h
  | .dkRd .. => execDkRd_fits h
  | .dkInv .. => execDkInv_fits h
  | .tileTransferComplete .. => execTileTransferComplete_fits h
  | .pairModeChange .. => execPairModeChange_fits h
  | .buildStart => execBuildStart_fits h
  | .epochPublish => execEpochPublish_fits h
  | .latEnWrite .. => execLatEnWrite_fits h
  | .frameStart .. => execFrameStart_fits h
  | .longPacket .. => execLongPacket_fits h
  | .unknownPacket .. => execUnknownPacket_fits h
  | .frameEnd .. => execFrameEnd_fits h
  | .framePublish .. => execFramePublish_fits h
  | .fEnableWrite .. => execFEnableWrite_fits h
  | .flitReceive .. => execFlitReceive_fits h
  | .linkRewind .. => execLinkRewind_fits h
  | .linkDown .. => execLinkDown_fits h
  | .linkTraining .. => execLinkTraining_fits h
  | .trainingComplete .. => execTrainingComplete_fits h
  | .contrib .. => execContrib_fits h
  | .vote .. => execVote_fits h
  | .decide .. => execDecide_fits h
  | .abortReq .. => execAbortReq_fits h
  | .collectiveTimeout .. => execCollectiveTimeout_fits h
  | .heartbeat .. => execHeartbeat_fits h
  | .heartbeatSend => execHeartbeatSend_fits h
  | .peerLost => execPeerLost_fits h
  | .pairRoleWrite .. => execPairRoleWrite_fits h
  | .peerMirrorEntry .. => execPeerMirrorEntry_fits h
  | .peerCopyDone => execPeerCopyDone_fits h
  | .desync .. => execDesync_fits h
  | .resyncGo .. => execResyncGo_fits h
  | .resync .. => execResync_fits h
  | .resyncComplete .. => execResyncComplete_fits h
  | .alignGo .. => execAlignGo_fits h
  | .timeExchange .. => execTimeExchange_fits h
  | .alignmentComplete => execAlignmentComplete_fits h
  | .timeDriftCheck .. => execTimeDriftCheck_fits h
  | .postmarkLoRead .. => execPostmarkLoRead_fits h
  | .postmarkAdjWrite .. => execPostmarkAdjWrite_fits h
  | .postmarkStep => execPostmarkStep_fits h
  | .postmarkSlewHold => execPostmarkSlewHold_fits h
  | .postmarkCounterStart => execPostmarkCounterStart_fits h
  | .pmClkLoss => execPmClkLoss_fits h
  | .fastDomainWake .. => execFastDomainWake_fits h
  | .fastDomainStop .. => execFastDomainStop_fits h
  | .stepReqWrite .. => execStepReqWrite_fits h
  | .voltageSettleEnd .. => execVoltageSettleEnd_fits h
  | .stepRelockDone => execStepRelockDone_fits h
  | .thermalEmergencyExit => execThermalEmergencyExit_fits h
  | .thermalSample .. => execThermalSample_fits h
  | .clockMonitorWindow .. => execClockMonitorWindow_fits h
  | .voltageWindowFault .. => execVoltageWindowFault_fits h
  | .scrubCycle .. => execScrubCycle_fits h
  | .refresh .. => execRefresh_fits h
  | .refreshSlot .. => execRefreshSlot_fits h
  | .refreshOverrun .. => execRefreshOverrun_fits h
  | .corrRateWindowEnd => execCorrRateWindowEnd_fits h
  | .bar2Read .. => execBar2Read_fits h
  | .bar2Write .. => execBar2Write_fits h
  | .faultReport .. => execFaultReport_fits h
  | .pwrKill => execPwrKill_fits h
  | .safeInNLow => execSafeInNLow_fits h
  | .safeHbToggle .. => execSafeHbToggle_fits h
  | .safetyFrameBuild .. => execSafetyFrameBuild_fits h
  | .canFrameTransmit .. => execCanFrameTransmit_fits h
  | .canFrameReceive .. => execCanFrameReceive_fits h
  | .busOff .. => execBusOff_fits h
  | .streamGap .. => execStreamGap_fits h
  | .wdgKick .. => execWdgKick_fits h
  | .watchdogExpiry => execWatchdogExpiry_fits h
  | .configSignatureWalk => execConfigSignatureWalk_fits h
  | .rotatingTestStart .. => execRotatingTestStart_fits h
  | .spareTakeover .. => execSpareTakeover_fits h
  | .rotatingTestComplete .. => execRotatingTestComplete_fits h
  | .beamCopyComplete => execBeamCopyComplete_fits h
  | .testSegment .. => execTestSegment_fits h
  | .checkerInjection .. => execCheckerInjection_fits h
  | .deferredTestRetry .. => execDeferredTestRetry_fits h
  | .latentOverdue .. => execLatentOverdue_fits h
  | .powerGood .. => execPowerGood_fits h
  | .alwaysOnResetComplete => execAlwaysOnResetComplete_fits h
  | .daybookScan => execDaybookScan_fits h
  | .ledgerScan => execLedgerScan_fits h
  | .startupInjection .. => execStartupInjection_fits h
  | .bootImageLoad .. => execBootImageLoad_fits h
  | .bootLayoutInstall => execBootLayoutInstall_fits h
  | .ready => execReady_fits h
  | .mainPowerLoss .. => execMainPowerLoss_fits h
  | .sysRstNFall => execSysRstNFall_fits h
  | .flushComplete => execFlushComplete_fits h
  | .brownOut .. => execBrownOut_fits
  | .perstN => execPerstN_fits h
  | .flr .. => execFlr_fits h
  | .hostLinkLoss => execHostLinkLoss_fits h
  | .configurationRequest .. => execConfigurationRequest_fits h
  | .smbusIdentity => execSmbusIdentity_fits h
  | .smbusState => execSmbusState_fits h
  | .smbusTj => execSmbusTj_fits h
  | .smbusPowerEpoch => execSmbusPowerEpoch_fits h
  | .smbusLwIndex .. => execSmbusLwIndex_fits h
  | .smbusLwData => execSmbusLwData_fits h
  | .chCtrlWrite .. => execChCtrlWrite_fits h
  | .eventWrite .. => execEventWrite_fits h
  | .eventForce .. => execEventForce_fits h
  | .ownerPidWrite .. => execOwnerPidWrite_fits h
  | .watchWrite .. => execWatchWrite_fits h
  | .bar2BaseWrite .. => execBar2BaseWrite_fits h
  | .dbMirrorBaseWrite .. => execDbMirrorBaseWrite_fits h
  | .dirData .. => execDirData_fits h
  | .ftData .. => execFtData_fits h
  | .flogData .. => execFlogData_fits h
  | .lwData .. => execLwData_fits h
  | .rxData .. => execRxData_fits h
  | .lastEventPmLo .. => execLastEventPmLo_fits h
  | .registerWrite .. => execRegisterWrite_fits h
  | .postmarkTick .. => execPostmarkTick_fits h
  | .hostLinkUp => execHostLinkUp_fits h
  | .safeInNHigh => execSafeInNHigh_fits h
  | .undefinedOpcodeLetter .. => execUndefinedOpcodeLetter_fits h
  | .stagingComplete .. => execStagingComplete_fits h
  | .tqPopWaitLimit .. => execTqPopWaitLimit_fits h
  | .lpddr5xInitialised .. => execLpddr5xInitialised_fits h
  | .tapInstruction .. => execTapInstruction_fits h
  | .smbusUndefinedCommand .. => execSmbusUndefinedCommand_fits h

/-- A step takes a command off the queue and does it, or changes nothing: either keeps the shape. -/
theorem step_fits (s : State) : FitsOut s (step s) := by
  cases hq : s.pending with
  | nil =>
    rw [step_of_pending_nil hq]
    exact FitsOut.next (Fits.refl s)
  | cons c rest =>
    rw [step_of_pending_cons hq]
    exact exec_fits (s := s.popFront) ((Fits.refl s).congr) c

/-- Settles O52: `Fits` holds from a state to itself, each operation of the model keeps it, and so does each command and
each step; the state after reset has the shape whatever went before. -/
theorem everyStepKeepsTheMachinesShape : Obligations.EveryStepKeepsTheMachinesShape := by
  unfold Obligations.EveryStepKeepsTheMachinesShape
  refine ⟨⟨reset_shaped, rfl, rfl, reset_orders, reset_linesWhole, reset_linesInDram⟩, fun s t h => ?_⟩
  obtain ⟨hshaped, hwatches, hsums, horders, hwhole, hdram⟩ := step_fits s t h
  exact ⟨hshaped, hwatches, hsums, horders, hwhole, hdram⟩

end Sys2Proof.Machine
end

section
/-! SUPPORT. Exact sums, which take their terms in any order, and the dot product of integers (05 R217; 07 R281-R284, R291). -/

namespace Sys2Proof.Machine

/-! ### Sums of fractions -/

/-- A sum of fractions stands over the least common multiple of their denominators. -/
theorem fracAdd_eq (a : Frac) {b : Frac} (hb : 0 < b.2) :
    fracAdd a b = (a.1 * (a.2.lcm b.2 / a.2 : Nat) + b.1 * (a.2.lcm b.2 / b.2 : Nat), a.2.lcm b.2) := by
  unfold fracAdd
  split
  next h => simp [h, Nat.div_self hb]
  next => rfl

theorem fracAdd_fracAdd (z : Frac) {a b : Frac} (ha : 0 < a.2) (hb : 0 < b.2) :
    fracAdd (fracAdd z a) b = (z.1 * ((z.2.lcm a.2).lcm b.2 / z.2 : Nat) + a.1 * ((z.2.lcm a.2).lcm b.2 / a.2 : Nat) +
      b.1 * ((z.2.lcm a.2).lcm b.2 / b.2 : Nat), (z.2.lcm a.2).lcm b.2) := by
  have hwiden := Nat.dvd_lcm_left (z.2.lcm a.2) b.2
  rw [fracAdd_eq z ha, fracAdd_eq _ hb]
  dsimp only
  rw [add_mul, mul_assoc, mul_assoc, ← Nat.cast_mul, ← Nat.cast_mul, Nat.mul_comm (_ / z.2), Nat.mul_comm (_ / a.2),
    Nat.div_mul_div hwiden (Nat.dvd_lcm_left _ _), Nat.div_mul_div hwiden (Nat.dvd_lcm_right _ _)]

/-- Terms enter a sum of fractions in any order: no partial result is rounded (R281, R284). -/
theorem fracAdd_right_comm (z : Frac) {a b : Frac} (ha : 0 < a.2) (hb : 0 < b.2) :
    fracAdd (fracAdd z a) b = fracAdd (fracAdd z b) a := by
  rw [fracAdd_fracAdd z ha hb, fracAdd_fracAdd z hb ha, Nat.lcm_assoc, Nat.lcm_comm a.2, ← Nat.lcm_assoc, add_right_comm]

/-! ### Exact sums -/

/-- A value whose denominator, where it has one, is not 0. -/
def Xv.Proper (x : Xv) : Prop := ∀ (s : Bool) (n d : Nat), x = .fin s n d → 0 < d

theorem Xv.proper_fin {s : Bool} {n d : Nat} : (Xv.fin s n d).Proper ↔ 0 < d :=
  ⟨fun h => h s n d rfl, fun h _ _ _ e => (Xv.fin.inj e).2.2 ▸ h⟩

theorem Acc.add_right_comm (a : Acc) {x y : Xv} (hx : x.Proper) (hy : y.Proper) : (a.add x).add y = (a.add y).add x := by
  match x, y with
  | .nan, .nan => rfl
  | .nan, .inf _ | .inf _, .nan | .nan, .fin .. | .fin .., .nan | .inf _, .fin .. | .fin .., .inf _ => simp [Acc.add]
  | .inf s, .inf t => simp [Acc.add, Bool.or_right_comm]
  | .fin s n d, .fin t m e =>
    simp [Acc.add, Bool.and_right_comm,
      fracAdd_right_comm a.sum (a := (signed s n, d)) (b := (signed t m, e)) (Xv.proper_fin.1 hx) (Xv.proper_fin.1 hy)]

/-- What an exact sum is built up in does not depend on the order of the terms (R281). -/
theorem foldl_add_perm {xs ys : List Xv} (hperm : xs.Perm ys) (hx : ∀ x ∈ xs, x.Proper) (a : Acc) :
    xs.foldl Acc.add a = ys.foldl Acc.add a :=
  hperm.foldl_eq' (fun _ hm _ hm' z => z.add_right_comm (hx _ hm) (hx _ hm')) a

theorem exactSum_perm {xs ys : List Xv} (hperm : xs.Perm ys) (hx : ∀ x ∈ xs, x.Proper) : exactSum xs = exactSum ys := by
  unfold exactSum
  rw [foldl_add_perm hperm hx, hperm.isEmpty_eq]

/-! ### Products of integers -/

@[simp] theorem signed_ofInt (i : Int) : signed (decide (i < 0)) i.natAbs = i := by
  unfold signed
  split
  next h =>
    rw [decide_eq_true_eq] at h
    omega
  next h =>
    rw [decide_eq_true_eq] at h
    omega

@[simp] theorem ofInt_isNegZero (i : Int) : (Xv.ofInt i).isNegZero = false := by
  unfold Xv.ofInt Xv.isNegZero
  split
  next h =>
    simp only [Xv.fin.injEq, decide_eq_true_eq] at h
    omega
  next => rfl

/-- A product of two integers is an integer; a zero product is +0 (R283). -/
theorem mulElems_ofInt (a b : Int) : mulElems 1 1 (Xv.ofInt a) (Xv.ofInt b) = Xv.ofInt (a * b) := by
  have hsign : ((decide (a < 0) != decide (b < 0)) && (a.natAbs * b.natAbs != 0)) = decide (a * b < 0) := by
    rw [Bool.eq_iff_iff]
    simp only [Bool.and_eq_true, bne_iff_ne, ne_eq, decide_eq_decide, decide_eq_true_eq, Nat.mul_eq_zero, Int.natAbs_eq_zero,
      mul_neg_iff]
    omega
  simp only [mulElems, Xv.mul, Xv.ofInt, fmtFloat, Int.natAbs_mul]
  simpa using hsign

/-- Integers add up exactly, and leave a sum that is no −0. -/
theorem foldl_add_ofInt (is : List Int) (i : Int) (z : Bool) :
    (is.map Xv.ofInt).foldl Acc.add ⟨(i, 1), false, false, false, z⟩ =
      ⟨(i + is.sum, 1), false, false, false, z && is.isEmpty⟩ := by
  induction is generalizing i z with
  | nil => simp
  | cons j is ih =>
    have hadd : Acc.add ⟨(i, 1), false, false, false, z⟩ (Xv.ofInt j) = ⟨(i + j, 1), false, false, false, false⟩ := by
      have hzero := ofInt_isNegZero j
      unfold Xv.ofInt at *
      simp [Acc.add, fracAdd, hzero]
    rw [List.map_cons, List.foldl_cons, hadd, ih]
    simp [add_assoc]

/-- The exact sum of integers is the integer that is their sum. -/
theorem exactSum_ofInt (is : List Int) : exactSum (is.map Xv.ofInt) = Xv.ofInt is.sum := by
  unfold exactSum
  dsimp only
  rw [foldl_add_ofInt, List.isEmpty_map]
  cases h : is.isEmpty
  · by_cases hsum : is.sum = 0 <;> simp [Xv.ofInt, hsum]
  · simp [List.isEmpty_iff.1 h, Xv.ofInt]

theorem exactSum_intProducts (ps : List (Int × Int)) :
    exactSum (ps.map fun p => mulElems 1 1 (Xv.ofInt p.1) (Xv.ofInt p.2)) = Xv.ofInt (ps.map fun p => p.1 * p.2).sum := by
  simp only [mulElems_ofInt]
  rw [← exactSum_ofInt, List.map_map]
  rfl

/-! ### Rounding of integers -/

@[simp] theorem roundEven_one (n : Nat) : roundEven n 1 = n := by simp [roundEven, Nat.mod_one]

/-- An integer is rounded to an integer format by saturation alone (R217, R291). -/
theorem roundInt_ofInt (f : IntFmt) (i : Int) : roundInt f (Xv.ofInt i) =
    ofSigned f.width (clampInt (if f.signed then -(2 ^ (f.width - 1) : Nat) else 0)
      (if f.signed then (2 ^ (f.width - 1) : Nat) - 1 else (2 ^ f.width : Nat) - 1) i) := by
  simp only [roundInt, Xv.ofInt, roundEven_one, signed_ofInt]

/-- Settles O32: the terms of a sum commute over the least common multiple of their denominators; products of integers are integers,
whose exact sum is an integer that the one rounding only saturates. -/
theorem exactSumsHaveNoOrderAndSaturateOnce : Obligations.ExactSumsHaveNoOrderAndSaturateOnce := by
  unfold Obligations.ExactSumsHaveNoOrderAndSaturateOnce
  refine ⟨fun xs ys hperm hx => exactSum_perm hperm hx, fun f ps => ?_, fun ps => ?_⟩
  · rw [exactSum_intProducts, roundInt_ofInt]
  · rw [exactSum_intProducts, ofInt_isNegZero]

end Sys2Proof.Machine
end

section
/-! SUPPORT. Every encoding that is no NaN rounds to itself (07 R282, R286, R290-R292). -/

namespace Sys2Proof.Machine

/-! ### Integers -/

theorem ofSigned_toSigned {w v : Nat} (hv : v < 2 ^ w) : ofSigned w (toSigned w v) = v := by
  unfold ofSigned toSigned
  dsimp only
  rw [Nat.mod_eq_of_lt hv]
  split
  · rw [Int.emod_eq_of_lt (by omega) (by omega), Int.toNat_natCast]
  · rw [Int.sub_emod_right, Int.emod_eq_of_lt (by omega) (by omega), Int.toNat_natCast]

theorem toSigned_range {w : Nat} (hw : 0 < w) (v : Nat) :
    -(2 ^ (w - 1) : Nat) ≤ toSigned w v ∧ toSigned w v ≤ (2 ^ (w - 1) : Nat) - 1 := by
  have hlt := Nat.mod_lt v (Nat.two_pow_pos w)
  have hpow := Nat.two_pow_pred_add_two_pow_pred hw
  unfold toSigned
  dsimp only
  split <;> omega

theorem clampInt_of_mem {lo hi i : Int} (hlo : lo ≤ i) (hhi : i ≤ hi) : clampInt lo hi i = i := by
  unfold clampInt
  rw [if_neg (not_lt.2 hlo), if_neg (not_lt.2 hhi)]

/-- An integer's encoding rounds to itself: it lies in its format's range. -/
theorem roundInt_value {f : IntFmt} (hw : 0 < f.width) {v : Nat} (hv : v < 2 ^ f.width) :
    roundInt f (.ofInt (if f.signed then toSigned f.width v else (v % 2 ^ f.width : Nat))) = v := by
  rw [roundInt_ofInt]
  cases f.signed
  · simp only [Bool.false_eq_true, if_false, Nat.mod_eq_of_lt hv]
    rw [clampInt_of_mem (by omega) (by omega), ofSigned, Int.emod_eq_of_lt (by omega) (by omega), Int.toNat_natCast]
  · have hrange := toSigned_range hw v
    simp only [if_true]
    rw [clampInt_of_mem hrange.1 hrange.2, ofSigned_toSigned hv]

/-! ### Scaled magnitudes

A magnitude `n · 2 ^ e`, as its fraction: of the two powers one is 1. -/

theorem log2_mul_two_pow {n : Nat} (hn : n ≠ 0) (k : Nat) : Nat.log2 (n * 2 ^ k) = Nat.log2 n + k := by
  rw [Nat.log2_eq_iff (by positivity), Nat.pow_add, Nat.add_right_comm, Nat.pow_add _ _ k]
  exact ⟨Nat.mul_le_mul_right _ (Nat.log2_self_le hn), Nat.mul_lt_mul_of_pos_right Nat.lt_log2_self (Nat.two_pow_pos k)⟩

theorem log2Frac_scaled {n : Nat} (hn : n ≠ 0) (e : Int) :
    log2Frac (n * 2 ^ e.toNat) (2 ^ (-e).toNat) = Nat.log2 n + e := by
  have hself (k : Nat) : 2 ^ (Nat.log2 n + k) ≤ n * 2 ^ k := by
    rw [Nat.pow_add]
    exact Nat.mul_le_mul_right _ (Nat.log2_self_le hn)
  have hexp : ((Nat.log2 n + e.toNat : Nat) : Int) - ((-e).toNat : Nat) = Nat.log2 n + e := by omega
  unfold log2Frac
  dsimp only
  rw [log2_mul_two_pow hn, Nat.log2_two_pow, hexp, if_pos]
  split
  next h =>
    rw [decide_eq_true_eq, ← Nat.pow_add, show (-e).toNat + (Nat.log2 n + e).toNat = Nat.log2 n + e.toNat by omega]
    exact hself _
  next h =>
    rw [decide_eq_true_eq, mul_assoc, ← Nat.pow_add,
      show (-e).toNat = Nat.log2 n + (e.toNat + (-(Nat.log2 n + e)).toNat) by omega]
    exact hself _

/-- A quotient that is whole is not rounded. -/
theorem roundEven_mul (n : Nat) {d : Nat} (hd : 0 < d) : roundEven (n * d) d = n := by
  simp [roundEven, Nat.mul_div_cancel n hd, hd]

/-- A magnitude whose last bit has the weight of its binade's last place is not rounded (R282, R286). -/
theorem roundMag_scaled (f : FloatFmt) {n : Nat} (hn : n ≠ 0) {e : Int}
    (hplace : max (Nat.log2 n + e) (1 - f.bias) - f.mbits = e) :
    roundMag f (n * 2 ^ e.toNat) (2 ^ (-e).toNat) =
      if overBits f ≤ (e + f.mbits - (1 - f.bias)).toNat * 2 ^ f.mbits + n then overflowBits f
      else (e + f.mbits - (1 - f.bias)).toNat * 2 ^ f.mbits + n := by
  have hmax : max (Nat.log2 n + e) (1 - f.bias) = e + f.mbits := by omega
  have hround : (if 0 ≤ e then roundEven (n * 2 ^ e.toNat) (2 ^ (-e).toNat * 2 ^ e.toNat)
      else roundEven (n * 2 ^ e.toNat * 2 ^ (-e).toNat) (2 ^ (-e).toNat)) = n := by
    split
    next h => rw [show (-e).toNat = 0 by omega, pow_zero, one_mul, roundEven_mul n (Nat.two_pow_pos _)]
    next h => rw [roundEven_mul _ (Nat.two_pow_pos _), show e.toNat = 0 by omega, pow_zero, mul_one]
  unfold roundMag
  dsimp only
  rw [if_neg (by positivity), log2Frac_scaled hn, hmax, add_sub_cancel_right, hround]

/-! ### Floating-point encodings -/

/-- The significand of an encoding, with its hidden bit (R286). -/
def FloatFmt.significand (f : FloatFmt) (e m : Nat) : Nat := if e = 0 then m else m + 2 ^ f.mbits

/-- The exponent of a significand's last bit. -/
def FloatFmt.scale (f : FloatFmt) (e : Nat) : Int := (if e = 0 then 1 else e : Nat) - (f.bias : Int) - (f.mbits : Int)

/-- A finite magnitude's exponent and fraction fields are what it rounds to: no input is flushed (R282, R286). -/
theorem roundMag_encoding (f : FloatFmt) {e m : Nat} (hm : m < 2 ^ f.mbits) (hrange : e * 2 ^ f.mbits + m < overBits f) :
    roundMag f (f.significand e m * 2 ^ (f.scale e).toNat) (2 ^ (-f.scale e).toNat) = e * 2 ^ f.mbits + m := by
  by_cases hn : f.significand e m = 0
  · unfold FloatFmt.significand at hn
    split at hn
    next he => simp [FloatFmt.significand, he, hn, roundMag]
    next => exact absurd hn (by positivity)
  · have hplace : max (Nat.log2 (f.significand e m) + f.scale e) (1 - f.bias) - f.mbits = f.scale e ∧
        (f.scale e + f.mbits - (1 - f.bias)).toNat * 2 ^ f.mbits + f.significand e m = e * 2 ^ f.mbits + m := by
      unfold FloatFmt.significand FloatFmt.scale at *
      by_cases he : e = 0
      · rw [if_pos he] at hn
        have hlog := (Nat.log2_lt hn).2 hm
        simp only [he, if_true]
        exact ⟨by omega, by simp⟩
      · have hlog : Nat.log2 (m + 2 ^ f.mbits) = f.mbits :=
          (Nat.log2_eq_iff (by positivity)).2 ⟨Nat.le_add_left _ _, by rw [Nat.pow_succ]; omega⟩
        simp only [he, if_false, hlog]
        refine ⟨by omega, ?_⟩
        rw [show (((e : Nat) : Int) - f.bias - f.mbits + f.mbits - (1 - f.bias)).toNat = e - 1 by omega, Nat.sub_mul]
        have hle := Nat.mul_le_mul_right (2 ^ f.mbits) (Nat.one_le_iff_ne_zero.2 he)
        omega
    rw [roundMag_scaled f hn hplace.1, hplace.2, if_neg (not_le.2 hrange)]

/-- The exponent field of an encoding. -/
def FloatFmt.expo (f : FloatFmt) (v : Nat) : Nat := bits v (f.ebits + f.mbits - 1) f.mbits

/-- The fraction field of an encoding. -/
def FloatFmt.frac (f : FloatFmt) (v : Nat) : Nat := v % 2 ^ f.mbits

/-- A floating-point format of the spec: it has an exponent, and E4M3, which has no infinity, is FP8 (R290, R292). -/
structure FloatFmt.Sound (f : FloatFmt) : Prop where
  ebits : 0 < f.ebits
  e4m3 : f.e4m3 = true → (2 ^ f.ebits - 1) * 2 ^ f.mbits + (2 ^ f.mbits - 1) = 0x7F

theorem FloatFmt.frac_lt (f : FloatFmt) (v : Nat) : f.frac v < 2 ^ f.mbits := Nat.mod_lt _ (Nat.two_pow_pos _)

theorem FloatFmt.expo_eq {f : FloatFmt} (hf : f.Sound) (v : Nat) : f.expo v = v / 2 ^ f.mbits % 2 ^ f.ebits := by
  have hebits := hf.ebits
  rw [FloatFmt.expo, bits, show f.ebits + f.mbits - 1 + 1 - f.mbits = f.ebits by omega]

/-- An encoding is its sign, its exponent field and its fraction field. -/
theorem FloatFmt.encoding_eq {f : FloatFmt} (hf : f.Sound) {v : Nat} (hv : v < 2 ^ (1 + f.ebits + f.mbits)) :
    b2n (bit v (f.ebits + f.mbits)) * 2 ^ (f.ebits + f.mbits) + (f.expo v * 2 ^ f.mbits + f.frac v) = v := by
  have hsign : b2n (bit v (f.ebits + f.mbits)) = v / 2 ^ f.mbits / 2 ^ f.ebits := by
    have hlt : v / 2 ^ f.mbits / 2 ^ f.ebits < 2 := by
      rw [Nat.div_div_eq_div_mul, ← Nat.pow_add, Nat.div_lt_iff_lt_mul (Nat.two_pow_pos _), ← Nat.pow_succ']
      rwa [show (f.mbits + f.ebits).succ = 1 + f.ebits + f.mbits by omega]
    rw [bit, Nat.add_comm, Nat.pow_add, ← Nat.div_div_eq_div_mul, Nat.mod_eq_of_lt hlt]
    generalize v / 2 ^ f.mbits / 2 ^ f.ebits = q at hlt ⊢
    interval_cases q <;> rfl
  rw [hsign, FloatFmt.expo_eq hf, FloatFmt.frac, Nat.pow_add, ← mul_assoc, ← add_assoc, ← add_mul, Nat.div_add_mod',
    Nat.div_add_mod']

/-- What a floating-point encoding stands for (R286, R290, R292). -/
theorem floatValue_eq (f : FloatFmt) (v : Nat) : floatValue f v =
    if f.e4m3 = true ∧ f.expo v = 2 ^ f.ebits - 1 ∧ f.frac v = 2 ^ f.mbits - 1 then .nan
    else if f.e4m3 = false ∧ f.expo v = 2 ^ f.ebits - 1 then
      if f.frac v = 0 then .inf (bit v (f.ebits + f.mbits)) else .nan
    else .fin (bit v (f.ebits + f.mbits)) (f.significand (f.expo v) (f.frac v) * 2 ^ (f.scale (f.expo v)).toNat)
      (2 ^ (-f.scale (f.expo v)).toNat) := by
  have hscaled (neg : Bool) (n : Nat) (e : Int) :
      (if 0 ≤ e then Xv.fin neg (n * 2 ^ e.toNat) 1 else .fin neg n (2 ^ (-e).toNat)) =
        .fin neg (n * 2 ^ e.toNat) (2 ^ (-e).toNat) := by
    split
    next h => rw [show (-e).toNat = 0 by omega, pow_zero]
    next h => rw [show e.toNat = 0 by omega, pow_zero, mul_one]
  have hfin := hscaled (bit v (f.ebits + f.mbits)) (f.significand (f.expo v) (f.frac v)) (f.scale (f.expo v))
  rw [← hfin]
  simp only [floatValue, FloatFmt.expo, FloatFmt.frac, FloatFmt.significand, FloatFmt.scale, Bool.and_eq_true, beq_iff_eq,
    Bool.not_eq_true', and_assoc]
  rfl

/-- The fields of a finite encoding lie below those of the first that stands for no number (R290, R292). -/
theorem FloatFmt.fields_lt_overBits {f : FloatFmt} (hf : f.Sound) {v : Nat}
    (hlast : ¬ (f.e4m3 = true ∧ f.expo v = 2 ^ f.ebits - 1 ∧ f.frac v = 2 ^ f.mbits - 1))
    (htop : ¬ (f.e4m3 = false ∧ f.expo v = 2 ^ f.ebits - 1)) : f.expo v * 2 ^ f.mbits + f.frac v < overBits f := by
  have hm := f.frac_lt v
  have he : f.expo v ≤ 2 ^ f.ebits - 1 := by
    rw [FloatFmt.expo_eq hf]
    exact Nat.le_sub_one_of_lt (Nat.mod_lt _ (Nat.two_pow_pos _))
  have hbelow (h : f.expo v ≠ 2 ^ f.ebits - 1) : f.expo v * 2 ^ f.mbits + 2 ^ f.mbits ≤ (2 ^ f.ebits - 1) * 2 ^ f.mbits := by
    rw [← Nat.succ_mul]
    exact Nat.mul_le_mul_right _ (Nat.lt_of_le_of_ne he h)
  unfold overBits
  split
  next hkind =>
    have hnan := hf.e4m3 hkind
    by_cases heq : f.expo v = 2 ^ f.ebits - 1
    · have hne : f.frac v ≠ 2 ^ f.mbits - 1 := fun h => hlast ⟨hkind, heq, h⟩
      rw [heq]
      omega
    · have hle := hbelow heq
      omega
  next hkind =>
    have hle := hbelow fun h => htop ⟨Bool.eq_false_iff.2 hkind, h⟩
    omega

/-- A floating-point encoding that is no NaN rounds to itself (R282, R286, R290). -/
theorem roundFloat_floatValue {f : FloatFmt} (hf : f.Sound) {v : Nat} (hv : v < 2 ^ (1 + f.ebits + f.mbits))
    (hnan : (floatValue f v).isNan = false) : roundFloat f (floatValue f v) = v := by
  have henc := FloatFmt.encoding_eq hf hv
  rw [floatValue_eq] at hnan ⊢
  split at hnan
  next => cases hnan
  next hlast =>
    rw [if_neg hlast]
    split at hnan
    next hinf =>
      rw [if_pos hinf]
      split at hnan
      next hzero =>
        rw [hinf.2, hzero, add_zero] at henc
        rw [if_pos hzero, roundFloat]
        simpa [overflowBits, overBits, hinf.1] using henc
      next => cases hnan
    next htop =>
      rw [if_neg htop, roundFloat, roundMag_encoding f (f.frac_lt v) (FloatFmt.fields_lt_overBits hf hlast htop)]
      exact henc

/-! ### Every format -/

/-- The numeric formats (05, element formats): integers of some width and floating-point formats of the spec. -/
theorem elemFmt_numeric {code : Nat} (hcode : fmtNumeric code = true) :
    (∃ f, elemFmt code = some (.int f) ∧ 0 < f.width) ∨ ∃ f, elemFmt code = some (.float f) ∧ f.Sound := by
  obtain ⟨hlo, hhi⟩ : 1 ≤ code ∧ code ≤ 0x0D := by simpa [fmtNumeric] using hcode
  by_cases hint : code ≤ 7
  · left
    interval_cases code
    all_goals exact ⟨_, rfl, by decide⟩
  · right
    interval_cases code
    all_goals exact ⟨_, rfl, by decide, by decide⟩

/-- Settles O33: an integer lies in its format's range, and a floating-point magnitude's last bit has the weight of its binade's last
place, so neither is rounded. -/
theorem encodingsRoundToThemselves : Obligations.EncodingsRoundToThemselves := by
  unfold Obligations.EncodingsRoundToThemselves
  intro code v hcode hv hnan
  obtain ⟨f, hf, hsound⟩ | ⟨f, hf, hsound⟩ := elemFmt_numeric hcode
  · simp only [fmtBits, elemValue, roundTo, hf] at *
    exact roundInt_value hsound hv
  · simp only [fmtBits, elemValue, roundTo, hf] at *
    exact roundFloat_floatValue hsound hv hnan

end Sys2Proof.Machine
end

section
/-! SUPPORT. A macro-instruction that names another output than its operator's entry does: pass 6 of R205 refuses such a plan (07 R298), but
the checks of R309 are functions of any plan. -/

namespace Sys2Proof.Machine

/-- The words of three INT8 tensors of one, one and two elements (R197), and of an XPOSE from the first into the third (R297). No
section is listed, so each table stands at word 0. -/
def strayTranspose : List W32 :=
  [0x102, 1, 0, 0, 0, 0, 0, 0,  0x102, 1, 0, 0, 0, 0, 0, 0,  0x102, 2, 0, 0, 0, 0, 0, 0,  0x09, 0, 0, 2, 0, 0, 0, 0]

/-- A TRANSPOSE from the first tensor into the second (R202). -/
def strayEntry : OpDesc := ⟨0, 0x021, [0], [1], [], false, false, false, 0, 24, 8⟩

/-- A task of it that has read the one byte of its input. -/
def strayTask : Task :=
  { id := 0, ch := 0, seq := 0, pid := 0, op := 0, code := 0x021, kind := .truss, level := 0, sclass := 0, strict := false, enter := 0
    disp := some 0, budgetEnd := 0, units := [0], ins := [], fins := [], inData := [[1]], flags := 0, outs := [], computed := true
    res := Result.plain 0 0, hold := none, epochSel := none, frames := [], stage := [] }

/-- The walker cuts its blocks from the macro-instruction's output of two elements, of which the entry's output holds one: the block
holds 1, and comes from 1 + 1 (R304, R309). -/
theorem strayTranspose_fails : tallyFails [] State.reset strayTranspose strayEntry strayTask 0 = true := by decide +kernel

/-- Refutes O53: the statement is about every plan and every operator's entry. At `strayTranspose`, whose macro-instruction names another
output than its entry, the block sums of a TRANSPOSE without faults differ (R309). -/
theorem not_faultFreeMacroOperationsAndSweepsPassTheirChecks :
    ¬ Obligations.FaultFreeMacroOperationsAndSweepsPassTheirChecks := by
  unfold Obligations.FaultFreeMacroOperationsAndSweepsPassTheirChecks
  intro h
  obtain ⟨hpass, -⟩ := h.1 State.reset strayTask strayTranspose strayEntry
  exact Bool.false_ne_true ((hpass 0).symm.trans strayTranspose_fails)

end Sys2Proof.Machine
end

section
/-! SUPPORT. What an operator's outputs leave as it was (07 R291, R303), and counts that a run over a list adds up. -/

namespace Sys2Proof.Machine

/-! ### Counts over a list -/

/-- What a list's elements of a kind add up to. -/
theorem sum_map_ite {α : Type} (p : α → Bool) (w : α → Nat) (l : List α) :
    (l.map fun e => if p e then w e else 0).sum = ((l.filter p).map w).sum := by
  induction l with
  | nil => rfl
  | cons a l ih => cases h : p a <;> simp [h, ih]

/-- Steps that each add to a count add up (R737). -/
theorem fget_foldl_add {α : Type} {g : Fld} {f : State → α → State} {w : α → Nat} {m : Nat} {l : List α}
    (h : ∀ s, ∀ a ∈ l, fget (f s a) g = (fget s g + w a) % m) {s : State} (hlt : fget s g < m) :
    fget (l.foldl f s) g = (fget s g + (l.map w).sum) % m := by
  induction l generalizing s with
  | nil => simp [Nat.mod_eq_of_lt hlt]
  | cons a l ih =>
    have hstep := h s a List.mem_cons_self
    rw [List.foldl_cons, ih (fun s b hb => h s b (List.mem_cons_of_mem _ hb)) (by
      rw [hstep]
      exact Nat.mod_lt _ (Nat.zero_lt_of_lt hlt)), hstep, List.map_cons, List.sum_cons, Nat.mod_add_mod, Nat.add_assoc]

theorem WordsBut.foldl {α : Type} {ws : List (Nat × Nat)} {f : State → α → State} {l : List α}
    (h : ∀ s, ∀ a ∈ l, WordsBut ws s (f s a)) (s : State) : WordsBut ws s (l.foldl f s) := by
  induction l generalizing s with
  | nil => exact .refl ws s
  | cons a l ih => exact (h s a List.mem_cons_self).trans (ih (fun s b hb => h s b (List.mem_cons_of_mem _ hb)) _)

/-- A count of one word of each unit's page: it takes what is added on its own unit. -/
theorem fget_fadd_unit (s : State) {F : Nat → Fld} (hok : ∀ u, (F u).ok) (hoff : ∀ u, (F u).off < 0x1000)
    (hword : ∀ u v, (F u).word = (F v).word → u = v) (u v n : Nat) :
    fget (fadd s (F v) n) (F u) = (fget s (F u) + if v = u then n else 0) % (F u).card := by
  split
  next h =>
    subst h
    rw [fget_fadd_same _ _ _ (hok v)]
  next h =>
    rw [fget_fadd_other _ _ _ _ (hok v) (hok u) (Fld.apart_of_word (hoff v) (hoff u) fun e => h (hword u v e).symm), Nat.add_zero,
      Nat.mod_eq_of_lt (fget_lt_card s _)]

/-! ### Tasks in their places -/

theorem taskOf_id {s : State} {k : Nat} {x : Task} (h : taskOf s k = some x) : x.id = k := by
  simpa using List.find?_some h

/-- A task that is put in its place leaves every other. -/
theorem taskOf_putTask_other (s : State) (x : Task) {j : Nat} (hj : j ≠ x.id) : taskOf (putTask s x) j = taskOf s j := by
  have hcomp : (fun y : Task => y.id == j) ∘ (fun y : Task => if y.id == x.id then x else y) = fun y => y.id == j := by
    funext y
    rw [Function.comp_apply]
    by_cases hy : y.id = x.id <;> simp [hy]
  unfold taskOf putTask
  rw [List.find?_map, hcomp]
  cases hfind : s.sched.tasks.find? fun y => y.id == j with
  | none => rfl
  | some y =>
    have hy : y.id = j := by simpa using List.find?_some hfind
    simp [hy, hj]

/-! ### Registers alone -/

/-- All but the register file is as before. -/
def RegsOnly (s t : State) : Prop := t = { s with regs := t.regs }

namespace RegsOnly

theorem refl (s : State) : RegsOnly s s := rfl

theorem trans {a b c : State} (h : RegsOnly a b) (k : RegsOnly b c) : RegsOnly a c := by
  unfold RegsOnly at *
  rw [k, h]

theorem foldl {α : Type} {f : State → α → State} (h : ∀ s a, RegsOnly s (f s a)) (l : List α) (s : State) :
    RegsOnly s (l.foldl f s) := by
  induction l generalizing s with
  | nil => exact .refl s
  | cons a l ih => exact (h s a).trans (ih _)

end RegsOnly

theorem fadd_regsOnly (s : State) (f : Fld) (n : Nat) : RegsOnly s (fadd s f n) := rfl

/-! ### The outputs of an operator -/

/-- A running task forms the outputs that its operator's rule gives. -/
theorem formOuts_eq {s : State} {k code : Nat} {x : Task} {p : PlanSt} {o : OpDesc} (h : RunsOperator s k code x p o)
    (rule : OpRule) : formOuts code rule k s =
      .next (putTask (rule s p.words o x).1 { x with outs := (rule s p.words o x).2, computed := true }) := by
  obtain ⟨htask, hdisp, hcomputed, hcode, hop⟩ := h
  simp [formOuts, htask, hdisp, hcomputed, hcode, hop]

/-- A task's outputs are formed; the rule's state may differ from the one before in registers alone. -/
theorem formOuts_forms {c : Instr} {rule : OpRule} {s : State} {k code : Nat} {x : Task} {p : PlanSt} {o : OpDesc}
    (hc : exec c s = formOuts code rule k s) (h : RunsOperator s k code x p o)
    (hstate : RegsOnly s (rule s p.words o x).1) :
    Runs c s fun t => Formed k x (rule s p.words o x).2 s t ∧ t.freeCount = s.freeCount ∧ t.regs = (rule s p.words o x).1.regs := by
  have hid := taskOf_id h.1
  unfold RegsOnly at hstate
  have htasks : (rule s p.words o x).1.sched.tasks = s.sched.tasks := by rw [hstate]
  refine ⟨_, hc.trans (formOuts_eq h rule), ⟨?_, fun j hj => ?_, ?_⟩, ?_, rfl⟩
  · rw [← hid]
    exact taskOf_putTask (x := { x with outs := (rule s p.words o x).2, computed := true }) (by
      rw [taskOf_of_tasks htasks, hid, h.1, Option.isSome_some])
  · rw [taskOf_putTask_other _ _ (hid ▸ hj), taskOf_of_tasks htasks]
  · rw [hstate]
    rfl
  · rw [hstate]
    rfl

/-! ### NaNs that became integers -/

theorem countNan_regsOnly (s : State) (x : Task) (p : List W32) (o : OpDesc) (d : TensorDesc) (xs : List Xv) :
    RegsOnly s (countNan s x p o d xs) := .foldl (fun _ _ => fadd_regsOnly _ _ _) _ s

theorem truss_NAN_word_inj (u v : Nat) (h : (Fd.truss_NAN_TO_INT_COUNT u).word = (Fd.truss_NAN_TO_INT_COUNT v).word) : u = v :=
  Nat.add_left_cancel (Prod.mk.inj h).1

/-- Each engine counts the NaNs of its own tiles and blocks (R291, R303). -/
theorem countNan_counts (s : State) (x : Task) (p : List W32) (o : OpDesc) (d : TensorDesc) (xs : List Xv) :
    CountedNans x p o d xs s (countNan s x p o d xs) := by
  refine ⟨WordsBut.foldl (fun s e he => ?_) s, fun u _ => ?_⟩
  · have he := List.mem_range.1 he
    refine (WordsBut.refl _ s).fadd _ _ (show (0x054 : Nat) < 0x1000 by decide) (List.mem_map.2 ⟨x.units.getD e 0, ?_, rfl⟩)
    rw [List.getD_eq_getElem _ _ he]
    exact List.getElem_mem he
  · rw [nansOf, ← sum_map_ite]
    refine fget_foldl_add (fun s e _ => ?_) (fget_lt_card s _)
    rw [fget_fadd_unit s (fun _ => ⟨Nat.zero_le _, show (31 : Nat) < 32 by decide⟩) (fun _ => show (0x054 : Nat) < 0x1000 by decide)
      truss_NAN_word_inj]
    simp only [beq_iff_eq]
    rfl

/-- Words and fields follow the registers. -/
theorem CountedNans.of_regs {x : Task} {p : List W32} {o : OpDesc} {d : TensorDesc} {xs : List Xv} {s t u : State}
    (h : CountedNans x p o d xs s t) (hregs : u.regs = t.regs) : CountedNans x p o d xs s u :=
  ⟨h.1.of_regs hregs, fun v hv => (fget_of_regs hregs _).trans (h.2 v hv)⟩

/-- A task has formed the outputs of a rule that counts NaNs. -/
theorem formOuts_counts {c : Instr} {rule : OpRule} {s : State} {k code : Nat} {x : Task} {p : PlanSt} {o : OpDesc}
    (hc : exec c s = formOuts code rule k s) (h : RunsOperator s k code x p o) {d : TensorDesc} {xs : List Xv}
    (hrule : (rule s p.words o x).1 = countNan s x p.words o d xs) :
    Runs c s fun t => Formed k x (rule s p.words o x).2 s t ∧ t.freeCount = s.freeCount ∧ CountedNans x p.words o d xs s t := by
  obtain ⟨t, hstep, hformed, hfree, hregs⟩ := formOuts_forms hc h (by
    rw [hrule]
    exact countNan_regsOnly _ _ _ _ _ _)
  exact ⟨t, hstep, hformed, hfree, (countNan_counts s x p.words o d xs).of_regs (by rw [hregs, hrule])⟩

/-- An operator of one output forms it from its values, each rounded once (R217). -/
theorem formOuts_values {c : Instr} {f : State → List W32 → OpDesc → Task → List Xv} {s : State} {k code : Nat} {x : Task}
    {p : PlanSt} {o : OpDesc} (hc : exec c s = formOuts code (valueRule f) k s) (h : RunsOperator s k code x p o) :
    Runs c s fun t => FormedValues k x p o (f s p.words o x) s t :=
  formOuts_counts hc h rfl

end Sys2Proof.Machine
end

section
/-! SUPPORT. The Truss operators form their outputs (05 R217; 07 R281-R299; 14 R558, R559): without faults no accumulator, lane or
moved element takes any further term. -/

namespace Sys2Proof.Machine

/-! ### No fault adds no term -/

@[simp] theorem cellTerms_nil (den steps : Nat) (tiles : List L0Tile) (b i j : Nat) : cellTerms [] den steps tiles b i j = [] := rfl

@[simp] theorem blockTerms_nil (s : State) (p : List W32) (o : OpDesc) (x : Task) (i : Nat) : blockTerms [] s p o x i = [] := rfl

theorem denseVals_nil (s : State) (p : List W32) (o : OpDesc) (x : Task) : denseVals [] s p o x = denseResult s p o x := by
  simp only [denseVals, denseResult, cellTerms_nil, List.append_nil]

theorem addVals_nil (s : State) (p : List W32) (o : OpDesc) (x : Task) :
    addVals [] s p o x = pairVals (fun _ a b => exactSum [a, b]) s p o x := by
  simp only [addVals, blockTerms_nil]

theorem partials_nil (s : State) (p : List W32) (o : OpDesc) (x : Task) :
    partials [] s p o x = (groups (macroOf p o).p0 (macVal p o x 0)).map exactSum := by
  simp only [partials, blockTerms_nil, List.append_nil]
  refine List.ext_getElem (by simp) fun i hi _ => ?_
  have hi' : i < (groups (macroOf p o).p0 (macVal p o x 0)).length := by simpa using hi
  simp [List.getElem?_eq_getElem hi']

theorem transposeRaw_nil (s : State) (p : List W32) (o : OpDesc) (x : Task) : transposeRaw [] s p o x =
    (List.range (volume (outDesc p o 0).dims)).map fun i => (macVal p o x 0).raw.getD (transposeFrom p o x i) 0 := rfl

/-! ### Operators -/

/-- The four dense operators are one rule (R299). -/
theorem dense_forms {c : Instr} {s : State} {k code : Nat} {x : Task} {p : PlanSt} {o : OpDesc}
    (hc : exec c s = formOuts code (valueRule (denseVals [])) k s) (h : RunsOperator s k code x p o) :
    Runs c s fun t => FormedValues k x p o (denseResult s p.words o x) s t := by
  rw [← denseVals_nil]
  exact formOuts_values hc h

/-- The values of CONVERT and FINISH: the elements, through the entry's Finish function (R217, R293). -/
def fusedVals (s : State) (p : List W32) (o : OpDesc) (x : Task) : List Xv := (macVal p o x 0).vals.map (fused s o x)

/-- The values of CLAMP: the elements within the macro-instruction's bounds (R297). -/
def clampVals (s : State) (p : List W32) (o : OpDesc) (x : Task) : List Xv :=
  let lo := clampBound (outDesc p o 0).fmt (macroOf p o).p0
  let hi := clampBound (outDesc p o 0).fmt (macroOf p o).p1
  (macVal p o x 0).vals.map fun v => fused s o x (if v.lt lo then lo else if hi.lt v then hi else v)

/-- Settles O29: each operator is one rule on its values, to which no fault adds a term. -/
theorem denseAndPointwiseOperatorsRoundOnce : Obligations.DenseAndPointwiseOperatorsRoundOnce := by
  unfold Obligations.DenseAndPointwiseOperatorsRoundOnce
  refine ⟨fun k x p o s h => dense_forms rfl h, fun k x p o s h => dense_forms rfl h, fun k x p o s h => dense_forms rfl h,
    fun k x p o s h => dense_forms rfl h, fun k x p o s h => ?_, fun k x p o s h => formOuts_values (f := mulVals) rfl h,
    fun k x p o s h => formOuts_values (f := fusedVals) rfl h, fun k x p o s h => formOuts_values (f := clampVals) rfl h,
    fun k x p o s h => formOuts_values (f := fusedVals) rfl h⟩
  rw [← addVals_nil]
  exact formOuts_values (f := addVals []) rfl h

/-- Settles O30: each reduction is one rule on its groups; MAX, MIN and SOFTMAX count the NaNs of values of their own. -/
theorem reductionsFormEachGroup : Obligations.ReductionsFormEachGroup := by
  unfold Obligations.ReductionsFormEachGroup
  refine ⟨fun k x p o s h => ?_, fun k x p o s h => ?_, fun k x p o s h => ?_, fun k x p o s h => formOuts_values (f := normVals) rfl h,
    fun k x p o s h => ?_⟩
  · rw [← partials_nil]
    exact formOuts_values (f := partials []) rfl h
  · have hmean := formOuts_values (f := meanVals []) (c := .mean k) rfl h
    rw [meanVals, partials_nil, List.map_map] at hmean
    exact hmean
  · obtain ⟨t, hstep, hformed, hfree, hwords, -⟩ := formOuts_counts (c := .maxMin k) (rule := maxMinRule) rfl h rfl
    exact ⟨t, hstep, hformed, hfree, hwords⟩
  · obtain ⟨t, hstep, hformed, hfree, hwords, -⟩ := formOuts_counts (c := .softmax k) (rule := softmaxRule) rfl h rfl
    exact ⟨t, hstep, hformed, hfree, hwords⟩

/-! ### Moves and draws -/

/-- An operator that writes no register leaves every one (R297). -/
theorem formOuts_plain {c : Instr} {rule : OpRule} {s : State} {k code : Nat} {x : Task} {p : PlanSt} {o : OpDesc}
    {outs : List (List Byte)} (hc : exec c s = formOuts code rule k s) (h : RunsOperator s k code x p o)
    (hrule : rule s p.words o x = (s, outs)) :
    Runs c s fun t => Formed k x outs s t ∧ t.regs = s.regs ∧ t.freeCount = s.freeCount := by
  obtain ⟨t, hstep, hformed, hfree, hregs⟩ := formOuts_forms hc h (by
    rw [hrule]
    exact .refl s)
  rw [hrule] at hformed hregs
  exact ⟨t, hstep, hformed, hregs, hfree⟩

/-- TRANSPOSE moves its elements as they are (R297). -/
theorem transpose_forms {s : State} {k : Nat} {x : Task} {p : PlanSt} {o : OpDesc} (h : RunsOperator s k 0x021 x p o) :
    Runs (.transpose k) s fun t => Formed k x [packRaw (outDesc p.words o 0) ((List.range (volume (outDesc p.words o 0).dims)).map fun i =>
      (macVal p.words o x 0).raw.getD (transposeFrom p.words o x i) 0)] s t ∧ t.regs = s.regs ∧ t.freeCount = s.freeCount :=
  formOuts_plain (rule := transposeRule []) rfl h (by rw [transposeRule, transposeRaw_nil])

/-- What RANDOM_UNIFORM computes (R558, R559). -/
def uniformRule : OpRule := fun s p o _ =>
  let d := outDesc p o 0
  let us := (List.range (volume d.dims)).map (randWord (macroOf p o))
  (s, [packRaw d (if d.fmt = 0x07 then us else us.map fun u => roundTo d.fmt (randP u))])

/-- RANDOM_UNIFORM packs the generator's words, or its numbers rounded to the output's format (R558, R559). -/
theorem randomUniform_forms {s : State} {k : Nat} {x : Task} {p : PlanSt} {o : OpDesc} (h : RunsOperator s k 0x090 x p o) :
    Runs (.randomUniform k) s fun t => Formed k x [packRaw (outDesc p.words o 0)
      (if (outDesc p.words o 0).fmt = 0x07 then
        (List.range (volume (outDesc p.words o 0).dims)).map (randWord (macroOf p.words o))
      else (List.range (volume (outDesc p.words o 0).dims)).map fun e =>
        roundTo (outDesc p.words o 0).fmt (randP (randWord (macroOf p.words o) e)))] s t ∧
      t.regs = s.regs ∧ t.freeCount = s.freeCount :=
  formOuts_plain (rule := uniformRule) rfl h (by
    simp only [uniformRule, List.map_map]
    rfl)

end Sys2Proof.Machine
end

section
/-! SUPPORT. What the end of a task leaves (08 R337, R357; 05 R64, R79): reports stay, no task of an earlier number returns, and words of
the Truss engines' pages stay. -/

namespace Sys2Proof.Machine

/-! ### The relation -/

/-- What publication, completion and their reports leave of a state: reports stay, everything beyond a task's reach stays, no task
number is used again, and the words of the Truss pages at the offsets listed read as before. -/
structure Ended (offs : List Nat) (s t : State) : Prop where
  reported : Reported s t
  frame : TaskFrame s t
  nextId : s.sched.nextId ≤ t.sched.nextId
  gone : ∀ k < s.sched.nextId, taskOf s k = none → taskOf t k = none
  words : ∀ page off, 0x010 ≤ page → page < 0x019 → off ∈ offs → 0x040 ≤ off → off < 0x1000 → regGet t page off = regGet s page off

namespace Ended

theorem refl (offs : List Nat) (s : State) : Ended offs s s :=
  ⟨.refl s, .refl s, Nat.le_refl _, fun _ _ h => h, fun _ _ _ _ _ _ _ => rfl⟩

theorem trans {offs : List Nat} {a b c : State} (h : Ended offs a b) (k : Ended offs b c) : Ended offs a c :=
  ⟨h.reported.trans k.reported, h.frame.trans k.frame, h.nextId.trans k.nextId,
    fun n hn hnone => k.gone n (hn.trans_le h.nextId) (h.gone n hn hnone),
    fun p o hp hq ho hl hu => (k.words p o hp hq ho hl hu).trans (h.words p o hp hq ho hl hu)⟩

theorem mono {offs keep : List Nat} {s t : State} (h : Ended offs s t) (hsub : ∀ o ∈ keep, o ∈ offs) : Ended keep s t :=
  { h with words := fun p o hp hq ho => h.words p o hp hq (hsub o ho) }

theorem gone_of_sched {s t : State} (h : t.sched = s.sched) {k : Nat} (hk : taskOf s k = none) : taskOf t k = none :=
  (taskOf_of_tasks (congrArg SchedSt.tasks h) k).trans hk

/-- A field of a Truss page's word that stays. -/
theorem fget {offs : List Nat} {s t : State} (h : Ended offs s t) (g : Fld) (hp : 0x010 ≤ g.page ∧ g.page < 0x019)
    (ho : g.off ∈ offs) (hl : 0x040 ≤ g.off ∧ g.off < 0x1000) : fget t g = fget s g := by
  unfold Machine.fget
  rw [h.words _ _ hp.1 hp.2 ho hl.1 hl.2]

section
variable {offs : List Nat} {a s t : State} (h : Ended offs a s)
include h

/-- Registers and scheduler stay. -/
theorem of_same (hr : Reported s t) (hf : TaskFrame s t) (hregs : t.regs = s.regs) (hsched : t.sched = s.sched) : Ended offs a t :=
  h.trans ⟨hr, hf, by rw [hsched], fun k _ hk => gone_of_sched hsched hk,
    fun _ _ _ _ _ _ _ => by unfold regGet; rw [hregs]⟩

/-- Registers, fault bus, Ledger and scheduler stay. -/
theorem quiet (hf : TaskFrame s t) (hregs : t.regs = s.regs) (hbus : t.safety.bus = s.safety.bus) (hledger : t.ledger = s.ledger)
    (hsched : t.sched = s.sched) : Ended offs a t :=
  h.of_same (.of_same hregs hbus hledger) hf hregs hsched

/-- The scheduler changes, but no task of an earlier number comes. -/
theorem moved (hf : TaskFrame s t) (hregs : t.regs = s.regs) (hbus : t.safety.bus = s.safety.bus) (hledger : t.ledger = s.ledger)
    (hnext : s.sched.nextId ≤ t.sched.nextId) (hgone : ∀ k < s.sched.nextId, taskOf s k = none → taskOf t k = none) :
    Ended offs a t :=
  h.trans ⟨.of_same hregs hbus hledger, hf, hnext, hgone, fun _ _ _ _ _ _ _ => by unfold regGet; rw [hregs]⟩

/-- An access to device memory. -/
theorem storage (k : StorageFrame s t) (hr : Reported s t) : Ended offs a t := by
  have hsched : t.sched = s.sched := by rw [k.rest]
  refine h.trans ⟨hr, k.task, by rw [hsched], fun n _ hn => gone_of_sched hsched hn, fun p o hp hq _ hl hu => ?_⟩
  exact k.words p o hu (by simp only [storageWord]; omega)

/-- Registers alone change, and no EVENT word. -/
theorem registers {ws : List (Nat × Nat)} (k : RegsOnly s t) (hw : WordsBut ws s t)
    (hoff : ∀ w ∈ ws, w.2 ≠ 0x010 ∧ (0x010 ≤ w.1 → w.1 < 0x019 → w.2 ∉ offs)) : Ended offs a t := by
  have hevent (q : Nat) : Machine.fget t (Fd.hdr_EVENT q) = Machine.fget s (Fd.hdr_EVENT q) :=
    hw.fget _ (Nat.le_of_ble_eq_true rfl) fun hm => (hoff _ hm).1 rfl
  have hstate : t = { s with regs := t.regs } := k
  refine h.trans ⟨⟨fun q c hq => ?_, fun f hf => ?_, ?_⟩, ?_, ?_, fun n _ hn => ?_, fun p o hp hq ho _ hu => ?_⟩
  · unfold HasEvent at *
    rwa [hevent]
  · rw [hstate]
    exact hf
  · rw [hstate]
  · unfold TaskFrame
    rw [hstate]
  · rw [hstate]
  · exact gone_of_sched (by rw [hstate]) hn
  · exact hw p o hu fun hm => (hoff _ hm).2 hp hq ho

theorem fput (f : Fld) (v : Nat) (hu : f.off < 0x1000) (hne : f.off ≠ 0x010) (hoff : 0x010 ≤ f.page → f.page < 0x019 → f.off ∉ offs) :
    Ended offs a (Machine.fput s f v) :=
  h.registers rfl ((WordsBut.refl [f.word] s).fput f v hu List.mem_cons_self) (by
    simp only [List.mem_singleton, forall_eq]
    exact ⟨hne, hoff⟩)

theorem fadd (f : Fld) (n : Nat) (hu : f.off < 0x1000) (hne : f.off ≠ 0x010) (hoff : 0x010 ≤ f.page → f.page < 0x019 → f.off ∉ offs) :
    Ended offs a (Machine.fadd s f n) :=
  h.fput f _ hu hne hoff

/-- A count of a page past those of the Truss engines. -/
theorem count {q u o hi lo : Nat} (n : Nat) (hfar : 0x019 ≤ q ∧ o < 0x1000 ∧ o ≠ 0x010) :
    Ended offs a (Machine.fadd s ⟨q + u, o, hi, lo⟩ n) :=
  h.fadd _ n hfar.2.1 hfar.2.2 fun _ hlt => absurd (hfar.1.trans (Nat.le_add_right q u)) (Nat.not_le.2 hlt)

theorem setEvent (p b : Nat) : Ended offs a (Machine.setEvent s p b) := by
  have hsched : (Machine.setEvent s p b).sched = s.sched := by rw [setEvent_state]
  refine h.trans ⟨setEvent_reported s p b, ?_, by rw [hsched], fun n _ hn => gone_of_sched hsched hn,
    fun q o _ _ _ hl hu => ?_⟩
  · unfold TaskFrame
    rw [setEvent_state]
  · refine (WordsBut.refl (eventWords p) s).setEvent p b (fun _ hw => hw) q o hu fun hm => ?_
    simp only [eventWords, List.mem_cons, Prod.mk.injEq, List.not_mem_nil, or_false] at hm
    omega

theorem raise (cls source sclass pid detail : Nat) : Ended offs a (Machine.raise s cls source sclass pid detail) :=
  h.of_same (raise_reported _ _ _ _ _ _) rfl rfl rfl

/-- One of two ways on. -/
theorem ite {c : Prop} [Decidable c] (k : Ended offs a t) : Ended offs a (if c then s else t) := by
  split
  · exact h
  · exact k

theorem foldl {α : Type} {f : State → α → State} (hf : ∀ s x, Ended offs a s → Ended offs a (f s x)) (l : List α) :
    Ended offs a (l.foldl f s) := by
  induction l generalizing s with
  | nil => exact h
  | cons x l ih => exact ih (hf s x h)

/-- Another lattice on both sides. -/
theorem lattice (x : LatticeSt) : Ended offs { a with lattice := x } { s with lattice := x } where
  reported := ⟨h.reported.events, h.reported.bus, h.reported.ledger⟩
  frame := by
    unfold TaskFrame
    conv_lhs => rw [show s = _ from h.frame]
  nextId := h.nextId
  gone := h.gone
  words := h.words

end

theorem foldlFst {offs : List Nat} {α β : Type} {a : State} {f : State × β → α → State × β}
    (hf : ∀ p x, Ended offs a p.1 → Ended offs a (f p x).1) (l : List α) {p : State × β} (h : Ended offs a p.1) :
    Ended offs a (l.foldl f p).1 := by
  induction l generalizing p with
  | nil => exact h
  | cons x l ih => exact ih (hf p x h)

end Ended

/-! ### Letters, plans and free values -/

section
variable {offs : List Nat} {a s : State} (h : Ended offs a s)
include h

theorem updLetter_ended (ch seq : Nat) (f : Letter → Letter) : Ended offs a (updLetter s ch seq f) := h.quiet rfl rfl rfl rfl rfl

theorem noteStatus_ended (ch seq status detail : Nat) : Ended offs a (noteStatus s ch seq status detail) := updLetter_ended h _ _ _

theorem updRun_ended (ch seq : Nat) (f : RunSt → RunSt) : Ended offs a (updRun s ch seq f) := updLetter_ended h _ _ _

theorem updPlan_ended (slot : Nat) (f : PlanSt → PlanSt) : Ended offs a (updPlan s slot f) := h.quiet rfl rfl rfl rfl rfl

theorem draw_ended : Ended offs a (draw s).1 := h.quiet rfl rfl rfl rfl rfl

theorem takeSeq_ended (pid stream : Nat) : Ended offs a (takeSeq s pid stream).1 := h.quiet rfl rfl rfl rfl rfl

theorem putItem_ended (key : Nat) (p : StreamPub) : Ended offs a (putItem s key p) := h.quiet rfl rfl rfl rfl rfl

theorem freeFlow_ended (k : Option Nat) : Ended offs a (freeFlow s k) := by
  unfold freeFlow
  split
  · exact h.quiet rfl rfl rfl rfl rfl
  · exact h

theorem originOf_ended (t : Task) : Ended offs a (originOf s t).1 := by
  unfold originOf
  dsimp only
  split
  · exact h
  · exact draw_ended (draw_ended h)

/-! ### Writes -/

theorem ownWrite_ended (x : Nat) (bs : List Byte) : Ended offs a (ownWrite s x bs) :=
  h.storage (ownWrite_storage s x bs) (ownWrite_reported s x bs)

theorem errUncorr_ended (p : Nat) : Ended offs a (errUncorr s p) :=
  h.storage (.of_marks (errUncorr_marks s p) (.errUncorr s p)) (errUncorr_reported s p)

theorem noteParity_ended (ks : List Nat) : Ended offs a (noteParity s ks) := h.foldl (fun _ _ h => errUncorr_ended h _) _

theorem blockedAccess_ended (pid sclass : Nat) (write : Bool) : Ended offs a (blockedAccess s (some pid) sclass write) := by
  refine Ended.raise (Ended.setEvent ?_ _ _) _ _ _ _ _
  split
  · exact h.count 1 (by decide)
  · exact h.count 1 (by decide)

theorem devWrite_ended (pid x : Nat) (bs : List Byte) (sclass : Nat) : Ended offs a (devWrite s pid x bs sclass).1 := by
  unfold devWrite
  split
  · exact h
  · split
    · exact blockedAccess_ended (noteParity_ended h _) _ _ _
    · split
      · exact h.storage (writeLines_storage _ _ _ _ _) (writeLines_reported _ _ _ _ _)
      · exact h.storage (writeRaw_storage _ _ _ _ _) (writeRaw_reported _ _ _ _ _)

end

end Sys2Proof.Machine
end

section
/-! SUPPORT. Publication and completion, operation by operation (05 R64, R79, R201; 07 R306; 08 R337, R357). -/

namespace Sys2Proof.Machine

/-! ### Tasks -/

theorem taskOf_eq_none {s : State} {k : Nat} : taskOf s k = none ↔ ∀ x ∈ s.sched.tasks, x.id ≠ k := by
  unfold taskOf
  simp

theorem mem_insertTask {s : State} {t x : Task} {l : List Task} (h : x ∈ insertTask s t l) : x = t ∨ x ∈ l := by
  induction l with
  | nil => exact .inl (List.mem_singleton.1 h)
  | cons y ys ih =>
    unfold insertTask at h
    split at h
    · exact List.mem_cons.1 h
    · rcases List.mem_cons.1 h with rfl | h
      · exact .inr List.mem_cons_self
      · exact (ih h).imp_right (List.mem_cons_of_mem y)

section
variable {offs : List Nat} {a s : State} (h : Ended offs a s)
include h

theorem obsPut_ended (i v : Nat) : Ended offs a (obsPut s i v) :=
  h.moved rfl rfl rfl rfl (Nat.le_refl _) fun _ _ hk => hk

theorem obsInc_ended (i : Nat) : Ended offs a (obsInc s i) := obsPut_ended h _ _

/-- A task whose number has not been given away enters its pigeonhole. -/
theorem enterTask_ended {t : Task} (hid : s.sched.nextId ≤ t.id) : Ended offs a (enterTask s t) := by
  have hin : Ended offs a { s with sched := { s.sched with
      tasks := insertTask s t s.sched.tasks, nextId := s.sched.nextId + 1 } } := by
    refine h.moved rfl rfl rfl rfl (Nat.le_succ _) fun k hk hnone => taskOf_eq_none.2 fun x hx => ?_
    rcases mem_insertTask hx with rfl | hx
    · omega
    · exact taskOf_eq_none.1 hnone x hx
  exact obsPut_ended hin _ _

/-- Tasks that stay are some of those before. -/
theorem filterTasks_ended (p : Task → Bool) : Ended offs a { s with sched := { s.sched with tasks := s.sched.tasks.filter p } } :=
  h.moved rfl rfl rfl rfl (Nat.le_refl _) fun _ _ hnone => taskOf_eq_none.2 fun x hx =>
    taskOf_eq_none.1 hnone x (List.mem_filter.1 hx).1

theorem dropTask_ended (k : Nat) : Ended offs a (dropTask s k) := (filterTasks_ended h _).quiet rfl rfl rfl rfl rfl

theorem putTask_ended (t : Task) : Ended offs a (putTask s t) := by
  refine h.moved rfl rfl rfl rfl (Nat.le_refl _) fun k _ hnone => taskOf_eq_none.2 fun x hx => ?_
  obtain ⟨y, hy, rfl⟩ := List.mem_map.1 hx
  have hne := taskOf_eq_none.1 hnone y hy
  split
  next hid => rwa [← beq_iff_eq.1 hid]
  next => exact hne

/-! ### Counts of a task's end -/

theorem countEnd_ended (t : Task) : Ended offs a (countEnd s t) := Ended.ite (h.count 1 (by decide)) h

theorem countTrap_ended (t : Task) : Ended offs a (countTrap s t) :=
  Ended.ite (Ended.setEvent (h.count 1 (by decide)) _ _) h

theorem countTags_ended (pid flags : Nat) : Ended offs a (countTags s pid flags) := by
  have hretry : Ended offs a (if flags &&& flagRetry != 0 then fadd s (Fd.part_TAG_RETRY_COUNT pid) 1 else s) :=
    Ended.ite (h.count 1 (by decide)) h
  have hthermal {x : State} (hx : Ended offs a x) :
      Ended offs a (if flags &&& flagThermal != 0 then fadd x (Fd.part_TAG_THERMAL_COUNT pid) 1 else x) :=
    Ended.ite (hx.count 1 (by decide)) hx
  have hloose {x : State} (hx : Ended offs a x) :
      Ended offs a (if flags &&& flagLoose != 0 then fadd x (Fd.part_TAG_LOOSE_COUNT pid) 1 else x) :=
    Ended.ite (hx.count 1 (by decide)) hx
  exact hloose (hthermal hretry)

/-! ### Versions and Replies -/

theorem withLists_ended (l : List Letter) (r : List PendReply) : Ended offs a (withLists s l r) := h.quiet rfl rfl rfl rfl rfl

theorem withOutbox_ended (o : List Out) : Ended offs a { s with outbox := o } := h.quiet rfl rfl rfl rfl rfl

theorem withChans_ended (c : List Chan) : Ended offs a { s with chans := c } := h.quiet rfl rfl rfl rfl rfl

theorem withReplies_ended (r : List PendReply) : Ended offs a { s with replies := r } := h.quiet rfl rfl rfl rfl rfl

theorem nextJno_ended : Ended offs a (nextJno s) := h.quiet rfl rfl rfl rfl rfl

theorem commitVersion_ended (v : Version) : Ended offs a (commitVersion s v) := by
  rw [commitVersion_state]
  exact withOutbox_ended (withLists_ended ((nextJno_ended h).storage (recordMirrored_storage s v) (recordMirrored_reported s v)) _ _) _

theorem queueVersion_ended (v : Version) : Ended offs a (queueVersion s v) := by
  unfold queueVersion
  split
  · exact commitVersion_ended h v
  · repeat' split
    all_goals exact h.quiet rfl rfl rfl rfl rfl

theorem queueReply_ended (p : PendReply) : Ended offs a (queueReply s p) := by
  have hhalf : Ended offs a (queuedHalf s p) := ownWrite_ended (draw_ended h) _ _
  have hwindow : Ended offs a (markWindow (queuedHalf s p) p.ch p.seq .finished) := by
    rw [markWindow_state]
    exact withChans_ended hhalf _
  exact withReplies_ended hwindow _

theorem finishLetter_ended (ch seq : Nat) (r : Result) : Ended offs a (finishLetter s ch seq r) := by
  unfold finishLetter
  split
  · exact h
  · exact Ended.ite h (queueVersion_ended (queueReply_ended (updLetter_ended h _ _ _) _) _)

/-! ### Runs -/

theorem stopRun_ended (ch seq : Nat) : Ended offs a (stopRun s ch seq) := filterTasks_ended (updRun_ended h _ _ _) _

theorem enterReady_ended (ch seq : Nat) : Ended offs a (enterReady s ch seq) := by
  unfold enterReady
  split
  · exact h
  · split
    · refine h.foldl (fun u k hu => ?_) _
      split
      · exact Ended.ite (enterTask_ended (updRun_ended hu _ _ _) (Nat.le_refl _)) hu
      · exact hu
    · exact h

theorem finishRun_ended (l : Letter) (r : RunSt) (p : PlanSt) : Ended offs a (finishRun s l r p) := by
  have hnoted := Ended.ite (c := safeLetter s l = true) (noteStatus_ended h l.ch l.l.seq.toNat 0x42 0) h
  exact finishLetter_ended (freeFlow_ended (Ended.ite (hnoted.raise _ _ _ _ _) hnoted) _) _ _ _

theorem advanceRun_ended (ch seq : Nat) : Ended offs a (advanceRun s ch seq) := by
  unfold advanceRun
  split
  · exact h
  · split
    next r p _ _ =>
      have hon (c d : Prop) [Decidable c] [Decidable d] : Ended offs a
          (if c then stopRun (noteStatus s ch seq 0x21 0) ch seq else if d then stopRun s ch seq else enterReady s ch seq) :=
        Ended.ite (stopRun_ended (noteStatus_ended h _ _ _ _) _ _) (Ended.ite (stopRun_ended h _ _) (enterReady_ended h _ _))
      dsimp only
      split
      · split
        · exact Ended.ite (finishRun_ended (hon _ _) _ _ _) (hon _ _)
        · exact hon _ _
      · exact hon _ _
    · exact h

theorem completeTask_ended (t : Task) : Ended offs a (completeTask s t) :=
  advanceRun_ended (updRun_ended (obsInc_ended (dropTask_ended (countEnd_ended h t) _) _) _ _ _) _ _

end

/-- A task that has completed is gone (R337). -/
theorem taskOf_completeTask {s : State} {t : Task} (h : t.id < s.sched.nextId) : taskOf (completeTask s t) t.id = none := by
  have hcount : Ended [] s (countEnd s t) := countEnd_ended (.refl [] s) t
  have hrest : Ended [] (dropTask (countEnd s t) t.id) (completeTask s t) :=
    advanceRun_ended (updRun_ended (obsInc_ended (.refl [] _) _) _ _ _) _ _
  exact hrest.gone t.id (h.trans_le hcount.nextId) (taskOf_dropTask _ _)

/-! ### Publication -/

section
variable {offs : List Nat} {a s : State} (h : Ended offs a s)
include h

theorem noteWatch_ended (pid stream sclass flags : Nat) : Ended offs a (noteWatch s pid stream sclass flags) := by
  refine h.foldl (fun u w hu => ?_) _
  have hclass : Ended offs a { u with safety := { u.safety with watchSclass := mapIns u.safety.watchSclass w sclass } } :=
    hu.quiet rfl rfl rfl rfl rfl
  have hgap (v : Nat) := hclass.fput Fd.age_GAP_ACTIVE v (by decide) (by decide) fun hlow => absurd hlow (by decide)
  dsimp only
  split
  · split
    · exact (hgap _).quiet rfl rfl rfl rfl rfl
    · exact hclass
  · exact hu

theorem putStream_ended (pid stream : Nat) (data : List Byte) (d : Docket) (derived : Bool) :
    Ended offs a (putStream s pid stream data d derived) := noteWatch_ended (putItem_ended h _ _) _ _ _ _

theorem storePort_ended (pid : Nat) (port : PortRef) (data : List Byte) (d : Docket) (derived : Bool) :
    Ended offs a (storePort s pid port data d derived).1 := by
  cases port with
  | const _ => exact h
  | inner slot i n =>
    unfold storePort
    dsimp only
    exact updPlan_ended h _ _
  | dev id x n =>
    have hwrite := devWrite_ended h pid x (data.take n) d.sclass.toNat
    unfold storePort
    dsimp only
    split
    · exact hwrite.quiet rfl rfl rfl rfl rfl
    · exact hwrite
  | stream n size _ _ => exact putStream_ended h _ _ _ _ _
  | placed id => exact h.quiet rfl rfl rfl rfl rfl

theorem publishOut_ended (t : Task) (port : PortRef) (epoch : Option Nat) (data : List Byte) (flags : Nat) :
    Ended offs a (publishOut s t port epoch data flags) := by
  have hseq := takeSeq_ended (originOf_ended h t) t.pid (outKind s t port).stream
  unfold publishOut
  dsimp only
  refine updLetter_ended (countTags_ended ?_ _ _) _ _ _
  have haged {x : State} (c : Prop) [Decidable c] (hx : Ended offs a x) : Ended offs a (if c then
      noteStatus (raise (setEvent (setEvent (fadd x (Fd.part_AGED_COUNT t.pid) 1) (0x060 + t.pid) 9) 0x005 8) 0x0C 0x005
        (outKind s t port).sclass t.pid 0) t.ch t.seq 0x22 0 else x) :=
    Ended.ite (noteStatus_ended (Ended.raise (Ended.setEvent (Ended.setEvent (hx.count 1 (by decide)) _ _) _ _) _ _ _ _ _) _ _ _ _) hx
  have hnoted {x : State} (c : Prop) [Decidable c] (st : Nat) (hx : Ended offs a x) :
      Ended offs a (if c then noteStatus x t.ch t.seq st 0 else x) := Ended.ite (noteStatus_ended hx _ _ _ _) hx
  have hwatched {x : State} (c : Prop) [Decidable c] (st cl f : Nat) (hx : Ended offs a x) :
      Ended offs a (if c then noteWatch x t.pid st cl f else x) := Ended.ite (noteWatch_ended hx _ _ _ _) hx
  exact haged _ (hnoted _ _ (hwatched _ _ _ _ (hnoted _ _ (storePort_ended hseq _ _ _ _ _))))

theorem noteSummary_ended (t : Task) (i : Nat) (port : PortRef) (data : List Byte) :
    Ended offs a (noteSummary s t i port data) := by
  unfold noteSummary
  split
  · dsimp only
    split
    · split
      · exact h.quiet rfl rfl rfl rfl rfl
      · exact h
    · exact h
  · exact h

theorem publishPorts_ended (t : Task) (ps : List PortRef) (epoch : Option Nat) (own : List Nat) :
    Ended offs a (publishPorts s t ps epoch own) := by
  refine h.foldl (fun u i hu => ?_) _
  split
  · exact noteSummary_ended (publishOut_ended hu _ _ _ _ _) _ _ _ _
  · exact hu

/-- The lattice's next sequence number and newest item (R411). -/
theorem latticeItem_ended (q : Nat) (n : Option Docket) : Ended offs { a with lattice := { a.lattice with seq := q, newest := n } }
    { s with lattice := { s.lattice with seq := q, newest := n } } := by
  have hsame : s.lattice = a.lattice := by rw [show s = _ from h.frame]
  rw [hsame]
  exact h.lattice _

/-- A cut world build takes the next sequence number of the lattice and publishes its newest item (R357, R411). -/
theorem publishCutEpoch_ended (t : Task) :
    ∃ q n, Ended offs { a with lattice := { a.lattice with seq := q, newest := n } } (publishCutEpoch s t) := by
  have hepoch (v : Nat) := Ended.fput (draw_ended (originOf_ended h t)) Fd.lattice_NEWEST_EPOCH v (by decide) (by decide)
    fun _ hhigh => absurd hhigh (by decide)
  exact ⟨_, _, updLetter_ended (countTags_ended (putStream_ended (latticeItem_ended (hepoch _) _ _) _ _ _ _ _) _ _) _ _ _⟩

theorem publishCut_ended (t : Task) :
    ∃ q n, Ended offs { a with lattice := { a.lattice with seq := q, newest := n } } (publishCut s t) := by
  unfold publishCut
  split
  · exact publishCutEpoch_ended h t
  · refine ⟨a.lattice.seq, a.lattice.newest, h.foldl (fun u i hu => ?_) _⟩
    split
    · exact noteSummary_ended (publishOut_ended (draw_ended hu) _ _ _ _ _) _ _ _ _
    · exact hu

theorem instrFault_ended (t : Task) : Ended offs a (instrFault s t) :=
  updRun_ended (noteStatus_ended (Ended.raise (Ended.ite (h.setEvent _ _) h) _ _ _ _ _) _ _ _ _) _ _ _

theorem postcardFail_ended (t : Task) (x : Option Nat × Docket × Bool) : Ended offs a (postcardFail t s x) := by
  refine noteStatus_ended (s := ?_) ?_ _ _ _ _
  split
  · exact Ended.raise (Ended.setEvent (h.count 1 (by decide)) _ _) _ _ _ _ _
  · exact h.raise _ _ _ _ _

end

/-! ### Writes of the engines (R306) -/

section
variable {offs : List Nat} (hmiss : 0x058 ∉ offs) {a s : State}
include hmiss

theorem countMisses_ended (u : Nat) {f : State → State} (hf : Ended offs a (f s)) : Ended offs a (countMisses s u f) :=
  hf.fadd _ _ (show (0x058 : Nat) < 0x1000 by decide) (show (0x058 : Nat) ≠ 0x010 by decide) fun _ _ => hmiss

theorem poolWrite_ended (h : Ended offs a s) (t : Task) (p : List W32) (m : Macro) (out : TensorDesc) (x : Nat) (data : List Byte) :
    Ended offs a (poolWrite s t p m out x data) :=
  h.foldl (fun _ _ hu => countMisses_ended hmiss _ (hu.foldl (fun _ _ hv => hv.foldl (fun _ _ hw =>
    hw.storage (writeLines_storage _ _ _ _ _) (writeLines_reported _ _ _ _ _)) _) _)) _

theorem walkOut_ended (h : Ended offs a s) (t : Task) : Ended offs a (walkOut s t).1 := by
  unfold walkOut
  dsimp only
  split
  · exact h
  · refine Ended.foldlFst (fun u i hu => ?_) _ h
    split
    · split
      · exact poolWrite_ended hmiss hu _ _ _ _ _ _
      · exact hu
    · exact hu
    · exact hu

end

end Sys2Proof.Machine
end

section
/-! SUPPORT. A macro-operation ends (07 R302-R312; 14 R558, R559): what its engines count and report, and what a task that an undefined
case aborts leaves. -/

namespace Sys2Proof.Machine

/-! ### Tiles follow partitions and ports -/

/-- A state whose registers past the Truss pages read as before gives a task the same ports (R70, R201). -/
theorem inPorts_of_regs {s t : State} (h : RegsOnly s t) (hstream : fget t Fd.lattice_STREAM = fget s Fd.lattice_STREAM) (x : Task) :
    inPorts t x = inPorts s x := by
  have hsweep (l : Letter) : sweepPorts t x l = sweepPorts s x l := by
    unfold sweepPorts
    rw [hstream, show t = _ from h]
    rfl
  unfold inPorts
  simp only [hsweep]
  rw [show t = _ from h]
  rfl

/-- What a macro-operation's arithmetic takes from the state: the tiles of its walk and its engine's FINISH_REV (R296, R300). -/
structure SameWalk (x : Task) (s t : State) : Prop where
  tiles : ∀ p m, walkTiles t x p m = walkTiles s x p m
  finish : finishRev t x = finishRev s x

namespace SameWalk

/-- Counts on Truss pages leave the walk as it is. -/
theorem of_words {s t : State} {x : Task} {ws : List (Nat × Nat)} (h : RegsOnly s t) (k : WordsBut ws s t)
    (hws : ∀ w ∈ ws, w.1 < 0x019 ∧ w.2 ≠ 0x060) : SameWalk x s t := by
  have hfar (g : Fld) (hu : g.off < 0x1000) (hp : 0x019 ≤ g.page) : fget t g = fget s g :=
    k.fget g hu fun hm => absurd (hws _ hm).1 (Nat.not_lt.2 hp)
  have hpage : 0x019 ≤ 0x060 + x.pid := Nat.le_add_right_of_le (by decide)
  have hways : fget t (Fd.part_CACHE_WAYS x.pid) = fget s (Fd.part_CACHE_WAYS x.pid) :=
    hfar _ (show (0x04C : Nat) < 0x1000 by decide) hpage
  have hmortise : fget t (Fd.part_MORTISE_KIB x.pid) = fget s (Fd.part_MORTISE_KIB x.pid) :=
    hfar _ (show (0x05C : Nat) < 0x1000 by decide) hpage
  have hports := inPorts_of_regs h (hfar Fd.lattice_STREAM (by decide) (by decide)) x
  have hL2 (m : Macro) : usesL2 t x m = usesL2 s x m := by
    unfold usesL2
    rw [hports, hways]
  refine ⟨fun p m => ?_, k.fget _ (show (0x060 : Nat) < 0x1000 by decide) fun hm => (hws _ hm).2 rfl⟩
  have htaken : taskTiles t x p m = taskTiles s x p m := by
    unfold taskTiles
    rw [hL2, hmortise]
  unfold walkTiles
  rw [htaken]

section
variable {x : Task} {s t : State} (h : SameWalk x s t)
include h

theorem blockTerms (fs : List LaneFault) (p : List W32) (o : OpDesc) :
    Machine.blockTerms fs t p o x = Machine.blockTerms fs s p o x := by
  funext i
  unfold Machine.blockTerms
  rw [h.tiles]

theorem transposeRaw (fs : List LaneFault) (p : List W32) (o : OpDesc) :
    Machine.transposeRaw fs t p o x = Machine.transposeRaw fs s p o x := by
  unfold Machine.transposeRaw
  rw [h.blockTerms]

theorem fused (o : OpDesc) : Machine.fused t o x = Machine.fused s o x := by
  funext v
  unfold Machine.fused
  rw [h.finish]

theorem partials (fs : List LaneFault) (p : List W32) (o : OpDesc) : Machine.partials fs t p o x = Machine.partials fs s p o x := by
  unfold Machine.partials
  rw [h.blockTerms]

theorem denseVals (fs : List LaneFault) (p : List W32) (o : OpDesc) :
    Machine.denseVals fs t p o x = Machine.denseVals fs s p o x := by
  unfold Machine.denseVals
  dsimp only
  rw [h.tiles, h.fused]

theorem addVals (fs : List LaneFault) (p : List W32) (o : OpDesc) : Machine.addVals fs t p o x = Machine.addVals fs s p o x := by
  unfold Machine.addVals pairVals
  rw [h.blockTerms, h.fused]

theorem faultyOuts (fs : List LaneFault) (p : List W32) (o : OpDesc) :
    Machine.faultyOuts fs t p o x = Machine.faultyOuts fs s p o x := by
  simp only [Machine.faultyOuts, valueRule, meanVals, transposeRule, h.denseVals, h.addVals, h.partials, h.transposeRaw]

theorem tallyFails (fs : List LaneFault) (p : List W32) (o : OpDesc) (n : Nat) :
    Machine.tallyFails fs t p o x n = Machine.tallyFails fs s p o x n := by
  have hsums : blockSums fs t p o x = blockSums fs s p o x := by
    unfold blockSums
    rw [h.blockTerms, h.transposeRaw]
  unfold Machine.tallyFails
  dsimp only
  rw [h.tiles, hsums]

theorem failingUnits (p : List W32) (o : OpDesc) (bad : Nat → L0Tile → Bool) :
    Machine.failingUnits t x p o bad = Machine.failingUnits s x p o bad := by
  unfold Machine.failingUnits
  rw [h.tiles]

theorem tallyUnits (fs : List LaneFault) (p : List W32) (o : OpDesc) :
    Machine.tallyUnits t x p o fs = Machine.tallyUnits s x p o fs := by
  simp only [Machine.tallyUnits, h.failingUnits, h.tallyFails]

theorem residueUnits (fs : List LaneFault) (rs : List RoundFault) (p : List W32) (o : OpDesc) :
    Machine.residueUnits t x p o fs rs = Machine.residueUnits s x p o fs rs := by
  simp only [Machine.residueUnits, h.failingUnits, h.faultyOuts]

end

end SameWalk

/-! ### The counters of a completed macro-operation (R302, R304, R312) -/

/-- The words that a completed macro-operation counts in. -/
def mopWords (x : Task) : List (Nat × Nat) :=
  (Fd.truss_HINT_IGNORED_COUNT (x.units.headD 0)).word ::
    x.units.flatMap fun u => [(Fd.truss_MOP_COUNT u).word, (Fd.truss_BUSY_CYCLES u).word]

/-- One engine of a task counts a macro-operation, when it took a tile of it. -/
def mopCounted (x : Task) (p : List W32) (o : OpDesc) (tiles : List L0Tile) (s : State) (e : Nat) : State :=
  let u := x.units.getD e 0
  let n := (engineTiles tiles x.units e).length
  if n = 0 then s
  else if denseMop (macroOf p o) then
    fadd (fadd s (Fd.truss_MOP_COUNT u) 1) (Fd.truss_BUSY_CYCLES u)
      (n * tileCycles (roleDesc p (macroOf p o) 0).fmt (denseOf p (macroOf p o)).k)
  else fadd s (Fd.truss_MOP_COUNT u) 1

theorem countMop_eq (s : State) (x : Task) (p : List W32) (o : OpDesc) : countMop s x p o =
    (List.range x.units.length).foldl (mopCounted x p o (walkTiles s x p (macroOf p o)))
      (fadd s (Fd.truss_HINT_IGNORED_COUNT (x.units.headD 0)) (hintsIgnored s p x (macroOf p o))) := rfl

theorem mopCounted_regsOnly (x : Task) (p : List W32) (o : OpDesc) (tiles : List L0Tile) (s : State) (e : Nat) :
    RegsOnly s (mopCounted x p o tiles s e) := by
  unfold mopCounted
  dsimp only
  repeat' split
  all_goals rfl

theorem countMop_regsOnly (s : State) (x : Task) (p : List W32) (o : OpDesc) : RegsOnly s (countMop s x p o) :=
  (fadd_regsOnly _ _ _).trans (.foldl (mopCounted_regsOnly x p o _) _ _)

theorem mopCounted_words {x : Task} {e : Nat} (he : e < x.units.length) (p : List W32) (o : OpDesc) (tiles : List L0Tile) (s : State) :
    WordsBut (mopWords x) s (mopCounted x p o tiles s e) := by
  have hunit : x.units.getD e 0 ∈ x.units := by
    rw [List.getD_eq_getElem _ _ he]
    exact List.getElem_mem he
  have hmem (w : Nat × Nat) (hw : w ∈ [(Fd.truss_MOP_COUNT (x.units.getD e 0)).word, (Fd.truss_BUSY_CYCLES (x.units.getD e 0)).word]) :
      w ∈ mopWords x := List.mem_cons_of_mem _ (List.mem_flatMap.2 ⟨_, hunit, hw⟩)
  have hmop := (WordsBut.refl (mopWords x) s).fadd (Fd.truss_MOP_COUNT (x.units.getD e 0)) 1 (show (0x044 : Nat) < 0x1000 by decide)
    (hmem _ List.mem_cons_self)
  unfold mopCounted
  dsimp only
  split
  · exact .refl _ s
  · split
    · exact hmop.fadd _ _ (show (0x05C : Nat) < 0x1000 by decide) (hmem _ (List.mem_cons_of_mem _ List.mem_cons_self))
    · exact hmop

theorem countMop_words (s : State) (x : Task) (p : List W32) (o : OpDesc) : WordsBut (mopWords x) s (countMop s x p o) :=
  ((WordsBut.refl (mopWords x) s).fadd _ _ (show (0x050 : Nat) < 0x1000 by decide) List.mem_cons_self).trans
    (.foldl (fun u _ he => mopCounted_words (List.mem_range.1 he) p o _ u) _)

/-- They stand on Truss pages, at three offsets. -/
theorem mem_mopWords {x : Task} (h : ∀ u ∈ x.units, u < 9) {w : Nat × Nat} (hw : w ∈ mopWords x) :
    w.1 < 0x019 ∧ (w.2 = 0x044 ∨ w.2 = 0x050 ∨ w.2 = 0x05C) := by
  rcases List.mem_cons.1 hw with rfl | hw
  · have hhead : x.units.headD 0 < 9 := by
      cases hunits : x.units with
      | nil => decide
      | cons u us => exact h u (by rw [hunits]; exact List.mem_cons_self)
    exact ⟨Nat.add_lt_add_left hhead 0x010, .inr (.inl rfl)⟩
  · obtain ⟨u, hu, hw⟩ := List.mem_flatMap.1 hw
    have hpage := Nat.add_lt_add_left (h u hu) 0x010
    rcases List.mem_cons.1 hw with rfl | hw
    · exact ⟨hpage, .inl rfl⟩
    · rw [List.mem_singleton.1 hw]
      exact ⟨hpage, .inr (.inr rfl)⟩

theorem truss_MOP_word_inj (u v : Nat) (h : (Fd.truss_MOP_COUNT u).word = (Fd.truss_MOP_COUNT v).word) : u = v :=
  Nat.add_left_cancel (Prod.mk.inj h).1

theorem mopCounted_counts (x : Task) (p : List W32) (o : OpDesc) (tiles : List L0Tile) (s : State) (e u : Nat) :
    fget (mopCounted x p o tiles s e) (Fd.truss_MOP_COUNT u) = (fget s (Fd.truss_MOP_COUNT u) +
      if x.units.getD e 0 == u && !(engineTiles tiles x.units e).isEmpty then 1 else 0) % 2 ^ 32 := by
  have hmop := fget_fadd_unit s (F := Fd.truss_MOP_COUNT) (fun _ => ⟨Nat.zero_le _, show (31 : Nat) < 32 by decide⟩)
    (fun _ => show (0x044 : Nat) < 0x1000 by decide) truss_MOP_word_inj u (x.units.getD e 0) 1
  have hbusy (y : State) (v n : Nat) : fget (fadd y (Fd.truss_BUSY_CYCLES v) n) (Fd.truss_MOP_COUNT u) = fget y (Fd.truss_MOP_COUNT u) :=
    ((WordsBut.refl [(Fd.truss_BUSY_CYCLES v).word] y).fadd _ n (show (0x05C : Nat) < 0x1000 by decide) List.mem_cons_self).fget _
      (show (0x044 : Nat) < 0x1000 by decide) (by simp [Fd.truss_MOP_COUNT, Fd.truss_BUSY_CYCLES])
  unfold mopCounted
  dsimp only
  split
  next hnone =>
    rw [List.length_eq_zero_iff.1 hnone]
    simp only [List.isEmpty_nil, Bool.not_true, Bool.and_false, Bool.false_eq_true, if_false, Nat.add_zero]
    exact (Nat.mod_eq_of_lt (fget_lt_card s (Fd.truss_MOP_COUNT u))).symm
  next hsome =>
    have hne : (engineTiles tiles x.units e).isEmpty = false := by
      rw [List.isEmpty_eq_false_iff]
      exact fun hnil => hsome (List.length_eq_zero_iff.2 hnil)
    simp only [hne, Bool.not_false, Bool.and_true, beq_iff_eq]
    split
    · rw [hbusy]
      exact hmop
    · exact hmop

/-- MOP_COUNT of each engine takes what it has walked (R312). -/
theorem countMop_counts (s : State) (x : Task) (p : List W32) (o : OpDesc) (u : Nat) :
    fget (countMop s x p o) (Fd.truss_MOP_COUNT u) = (fget s (Fd.truss_MOP_COUNT u) + timesWalked s x p o u) % 2 ^ 32 := by
  have hhint (n : Nat) : fget (fadd s (Fd.truss_HINT_IGNORED_COUNT (x.units.headD 0)) n) (Fd.truss_MOP_COUNT u) =
      fget s (Fd.truss_MOP_COUNT u) :=
    ((WordsBut.refl [(Fd.truss_HINT_IGNORED_COUNT (x.units.headD 0)).word] s).fadd _ n (show (0x050 : Nat) < 0x1000 by decide)
      List.mem_cons_self).fget _ (show (0x044 : Nat) < 0x1000 by decide) (by simp [Fd.truss_MOP_COUNT, Fd.truss_HINT_IGNORED_COUNT])
  rw [countMop_eq, fget_foldl_add (fun y e _ => mopCounted_counts x p o _ y e u) (fget_lt_card _ (Fd.truss_MOP_COUNT u)), hhint,
    sum_map_ite]
  simp [timesWalked]

/-! ### Mismatches (R310) -/

section
variable (x : Task) (F : Nat → Fld) (ev cls : Nat)

/-- The mismatches of a list of engines. -/
def mismatches (l : List Nat) (s : State) : State := l.foldl (fun s u => engineMismatch s x u (F u) ev cls) s

variable {x F ev cls}

theorem engineMismatch_fget (s : State) (u : Nat) {f g : Fld} (hg : 0x040 ≤ g.off ∧ g.off < 0x1000) :
    fget (engineMismatch s x u f ev cls) g = fget (fadd s f 1) g := fget_setEvent (fadd s f 1) (0x010 + u) ev hg.1 hg.2

theorem engineMismatch_ended {offs : List Nat} {a s : State} (h : Ended offs a s) {u : Nat} {f : Fld}
    (hf : 0x040 ≤ f.off ∧ f.off < 0x1000 ∧ f.off ∉ offs) : Ended offs a (engineMismatch s x u f ev cls) :=
  noteStatus_ended (((h.fadd f 1 hf.2.1 (by omega) fun _ _ => hf.2.2).setEvent _ _).raise _ _ _ _ _) _ _ _ _

theorem mismatches_ended {offs : List Nat} {a s : State} (h : Ended offs a s)
    (hF : ∀ u, 0x040 ≤ (F u).off ∧ (F u).off < 0x1000 ∧ (F u).off ∉ offs) (l : List Nat) : Ended offs a (mismatches x F ev cls l s) :=
  h.foldl (fun _ u hy => engineMismatch_ended hy (hF u)) l

theorem mismatches_counts {s : State} (hok : ∀ u, (F u).ok) (hoff : ∀ u, 0x040 ≤ (F u).off ∧ (F u).off < 0x1000)
    (hword : ∀ u v, (F u).word = (F v).word → u = v) (l : List Nat) (u : Nat) :
    fget (mismatches x F ev cls l s) (F u) = (fget s (F u) + l.count u) % (F u).card := by
  unfold mismatches
  rw [fget_foldl_add (w := fun v => if v == u then 1 else 0) (fun y v _ => by
    rw [engineMismatch_fget y v (hoff u), fget_fadd_unit y hok (fun v => (hoff v).2) hword]
    simp only [beq_iff_eq]) (fget_lt_card s (F u)), sum_map_ite]
  simp [List.count_eq_length_filter]

/-- Every engine with a mismatch has its EVENT bit and its fault. -/
theorem mismatches_report (hev : ev < 32) (hF : ∀ u, 0x040 ≤ (F u).off ∧ (F u).off < 0x1000) {l : List Nat} {s : State} {u : Nat}
    (hu : u ∈ l) : HasEvent (mismatches x F ev cls l s) (0x010 + u) ev ∧ OnBus (mismatches x F ev cls l s) cls (0x010 + u) := by
  induction l generalizing s with
  | nil => exact absurd hu List.not_mem_nil
  | cons v l ih =>
    rcases List.mem_cons.1 hu with rfl | hu
    · have hrest : Ended [] (engineMismatch s x u (F u) ev cls) (mismatches x F ev cls (u :: l) s) :=
        mismatches_ended (.refl [] _) (fun v => ⟨(hF v).1, (hF v).2, List.not_mem_nil⟩) l
      have hevent : HasEvent (engineMismatch s x u (F u) ev cls) (0x010 + u) ev := setEvent_hasEvent _ _ hev
      have hbus : OnBus (engineMismatch s x u (F u) ev cls) cls (0x010 + u) := onBus_raise _ _ _ _ _ _
      exact ⟨hrest.reported.events _ _ hevent, hrest.reported.onBus hbus⟩
    · exact ih hu

end

end Sys2Proof.Machine
end

section
/-! SUPPORT. MACRO_OPERATION_COMPLETE (07 R304, R306, R310; 05 R209) and the operators that move and draw. -/

namespace Sys2Proof.Machine

/-! ### A macro-operation that completes -/

section
variable (s : State) (x : Task) (p : List W32) (o : OpDesc) (faults : List LaneFault) (rounds : List RoundFault)

/-- A completed macro-operation is counted, and each engine reports its mismatches (R310, R312). -/
def mopChecked : State :=
  mismatches x Fd.truss_RESIDUE_ERR_COUNT 9 0x05 (residueUnits s x p o faults rounds)
    (mismatches x Fd.truss_TALLY_MISMATCH_COUNT 8 0x04 (tallyUnits s x p o faults) (countMop s x p o))

variable {s x p o faults rounds}

theorem countMop_sameWalk (h : ∀ u ∈ x.units, u < 9) : SameWalk x s (countMop s x p o) :=
  .of_words (countMop_regsOnly s x p o) (countMop_words s x p o) fun w hw => by
    obtain ⟨hpage, hoff⟩ := mem_mopWords h hw
    exact ⟨hpage, by omega⟩

theorem countMop_ended (h : ∀ u ∈ x.units, u < 9) : Ended [0x048, 0x04C] s (countMop s x p o) :=
  (Ended.refl _ s).registers (countMop_regsOnly s x p o) (countMop_words s x p o) fun w hw => by
    obtain ⟨-, hoff⟩ := mem_mopWords h hw
    simp only [List.mem_cons, List.not_mem_nil, or_false]
    omega

/-- The checks find what they find in the state before the counts. -/
theorem checkEngines_state (h : ∀ u ∈ x.units, u < 9) :
    (checkEngines (countMop s x p o) x p o faults rounds).1 = mopChecked s x p o faults rounds := by
  have hwalk : SameWalk x s (countMop s x p o) := countMop_sameWalk h
  unfold mopChecked
  rw [← hwalk.tallyUnits, ← hwalk.residueUnits]
  rfl

theorem truss_TALLY_word_inj (u v : Nat) (h : (Fd.truss_TALLY_MISMATCH_COUNT u).word = (Fd.truss_TALLY_MISMATCH_COUNT v).word) :
    u = v := Nat.add_left_cancel (Prod.mk.inj h).1

theorem truss_RESIDUE_word_inj (u v : Nat) (h : (Fd.truss_RESIDUE_ERR_COUNT u).word = (Fd.truss_RESIDUE_ERR_COUNT v).word) :
    u = v := Nat.add_left_cancel (Prod.mk.inj h).1

theorem tally_ended {offs : List Nat} (hoffs : 0x048 ∉ offs) {a y : State} (h : Ended offs a y) (l : List Nat) :
    Ended offs a (mismatches x Fd.truss_TALLY_MISMATCH_COUNT 8 0x04 l y) :=
  mismatches_ended h (fun _ => ⟨show 0x040 ≤ 0x048 by decide, show 0x048 < 0x1000 by decide, hoffs⟩) l

theorem residue_ended {offs : List Nat} (hoffs : 0x04C ∉ offs) {a y : State} (h : Ended offs a y) (l : List Nat) :
    Ended offs a (mismatches x Fd.truss_RESIDUE_ERR_COUNT 9 0x05 l y) :=
  mismatches_ended h (fun _ => ⟨show 0x040 ≤ 0x04C by decide, show 0x04C < 0x1000 by decide, hoffs⟩) l

/-- A counter of a Truss engine that stays. -/
theorem Ended.fgetTruss {offs : List Nat} {a b : State} (h : Ended offs a b) {u off : Nat} (hu : u < 9)
    (hoff : off ∈ offs ∧ 0x040 ≤ off ∧ off < 0x1000) :
    Machine.fget b ⟨0x010 + u, off, 31, 0⟩ = Machine.fget a ⟨0x010 + u, off, 31, 0⟩ :=
  h.fget _ ⟨Nat.le_add_right 0x010 u, Nat.add_lt_add_left hu 0x010⟩ hoff.1 hoff.2

/-- What the counts and checks of a macro-operation leave. -/
theorem mopChecked_ended (h : ∀ u ∈ x.units, u < 9) : Ended [] s (mopChecked s x p o faults rounds) :=
  residue_ended List.not_mem_nil (tally_ended List.not_mem_nil ((countMop_ended h).mono (by simp)) _) _

theorem mopChecked_MOP_COUNT {u : Nat} (hu : u < 9) : fget (mopChecked s x p o faults rounds) (Fd.truss_MOP_COUNT u) =
    (fget s (Fd.truss_MOP_COUNT u) + timesWalked s x p o u) % 2 ^ 32 := by
  have hrest : Ended [0x044] (countMop s x p o) (mopChecked s x p o faults rounds) :=
    residue_ended (by decide) (tally_ended (by decide) (.refl _ _) _) _
  exact (hrest.fgetTruss hu (by decide)).trans (countMop_counts s x p o u)

theorem mopChecked_TALLY {u : Nat} (hunits : ∀ u ∈ x.units, u < 9) (hu : u < 9) :
    fget (mopChecked s x p o faults rounds) (Fd.truss_TALLY_MISMATCH_COUNT u) =
      (fget s (Fd.truss_TALLY_MISMATCH_COUNT u) + (tallyUnits s x p o faults).count u) % 2 ^ 32 := by
  have hafter : Ended [0x048] (mismatches x Fd.truss_TALLY_MISMATCH_COUNT 8 0x04 (tallyUnits s x p o faults) (countMop s x p o))
      (mopChecked s x p o faults rounds) := residue_ended (by decide) (.refl _ _) _
  have hbefore : fget (countMop s x p o) (Fd.truss_TALLY_MISMATCH_COUNT u) = fget s (Fd.truss_TALLY_MISMATCH_COUNT u) :=
    (countMop_ended hunits).fgetTruss hu (by decide)
  rw [← hbefore]
  exact (hafter.fgetTruss hu (by decide)).trans (mismatches_counts (fun _ => ⟨Nat.zero_le _, show (31 : Nat) < 32 by decide⟩)
    (fun _ => ⟨show 0x040 ≤ 0x048 by decide, show 0x048 < 0x1000 by decide⟩) truss_TALLY_word_inj _ u)

theorem mopChecked_RESIDUE {u : Nat} (hunits : ∀ u ∈ x.units, u < 9) (hu : u < 9) :
    fget (mopChecked s x p o faults rounds) (Fd.truss_RESIDUE_ERR_COUNT u) =
      (fget s (Fd.truss_RESIDUE_ERR_COUNT u) + (residueUnits s x p o faults rounds).count u) % 2 ^ 32 := by
  have hcounted : Ended [0x04C] s (countMop s x p o) := (countMop_ended hunits).mono (by simp)
  have hbefore : fget (mismatches x Fd.truss_TALLY_MISMATCH_COUNT 8 0x04 (tallyUnits s x p o faults) (countMop s x p o))
      (Fd.truss_RESIDUE_ERR_COUNT u) = fget s (Fd.truss_RESIDUE_ERR_COUNT u) :=
    (tally_ended (by decide) hcounted _).fgetTruss hu (by decide)
  rw [← hbefore]
  exact mismatches_counts (fun _ => ⟨Nat.zero_le _, show (31 : Nat) < 32 by decide⟩)
    (fun _ => ⟨show 0x040 ≤ 0x04C by decide, show 0x04C < 0x1000 by decide⟩) truss_RESIDUE_word_inj _ u

theorem mopChecked_tally_reports {u : Nat} (hu : u ∈ tallyUnits s x p o faults) :
    HasEvent (mopChecked s x p o faults rounds) (0x010 + u) 8 ∧ OnBus (mopChecked s x p o faults rounds) 0x04 (0x010 + u) := by
  obtain ⟨hevent, hbus⟩ := mismatches_report (x := x) (F := Fd.truss_TALLY_MISMATCH_COUNT) (ev := 8) (cls := 0x04)
    (s := countMop s x p o) (by decide) (fun _ => ⟨show 0x040 ≤ 0x048 by decide, show 0x048 < 0x1000 by decide⟩) hu
  have hrest := (residue_ended (x := x) (offs := []) List.not_mem_nil (.refl _ (mismatches x Fd.truss_TALLY_MISMATCH_COUNT 8 0x04
    (tallyUnits s x p o faults) (countMop s x p o))) (residueUnits s x p o faults rounds)).reported
  exact ⟨hrest.events _ _ hevent, hrest.onBus hbus⟩

theorem mopChecked_residue_reports {u : Nat} (hu : u ∈ residueUnits s x p o faults rounds) :
    HasEvent (mopChecked s x p o faults rounds) (0x010 + u) 9 ∧ OnBus (mopChecked s x p o faults rounds) 0x05 (0x010 + u) :=
  mismatches_report (by decide) (fun _ => ⟨show 0x040 ≤ 0x04C by decide, show 0x04C < 0x1000 by decide⟩) hu

/-- What follows the checks: trailers, writes, publication, and the end of the task (R306, R390). -/
def mopEnded (x : Task) (r : State × Task) : State :=
  let cards := badTrailers r.1 x
  let y := { r.2 with flags := r.2.flags ||| if cards.isEmpty then 0 else flagInvalid }
  let w := walkOut (putTask (cards.foldl (postcardFail x) r.1) y) y
  completeTask (publishPorts w.1 y w.2 none []) y

theorem mopEnded_ended {offs : List Nat} (hmiss : 0x058 ∉ offs) (x : Task) (r : State × Task) : Ended offs r.1 (mopEnded x r) :=
  completeTask_ended (publishPorts_ended (walkOut_ended hmiss (putTask_ended
    ((Ended.refl offs r.1).foldl (fun _ c hu => postcardFail_ended hu x c) _) _) _) _ _ _ _) _

theorem taskOf_mopEnded (x : Task) {r : State × Task} (h : r.2.id < r.1.sched.nextId) : taskOf (mopEnded x r) r.2.id = none :=
  taskOf_completeTask (h.trans_le (publishPorts_ended (walkOut_ended List.not_mem_nil (putTask_ended
    ((Ended.refl [] r.1).foldl (fun _ c hu => postcardFail_ended hu x c) _) _) _) _ _ _ _).nextId)

theorem macroOperationComplete_eq {k : Nat} {q : PlanSt} (htask : taskOf s k = some x) (hkind : x.kind = .truss)
    (hdisp : x.disp.isSome = true) (hcomputed : x.computed = true) (hop : opOf s x = some (q, o))
    (hdefined : undefinedMacro q.words o = false) (hready : dramReady s x = true) :
    exec (.macroOperationComplete k faults rounds) s =
      .next (mopEnded x (checkEngines (countMop s x q.words o) x q.words o faults rounds)) := by
  change execMacroOperationComplete k faults rounds s = _
  simp only [execMacroOperationComplete, htask, hkind, hdisp, hop, hdefined, hcomputed, hready, beq_self_eq_true, Bool.and_self, if_true,
    Bool.false_eq_true, if_false]
  rfl

theorem TaskFrame.fuses {s t : State} (h : TaskFrame s t) : t.fuses = s.fuses := by rw [show t = _ from h]

theorem TaskFrame.nvm {s t : State} (h : TaskFrame s t) : t.nvm = s.nvm := by rw [show t = _ from h]

/-- The end of a macro-operation (R304, R310, R312). -/
theorem macroOperationComplete_ends {k : Nat} {q : PlanSt} (htask : taskOf s k = some x) (hkind : x.kind = .truss)
    (hdisp : x.disp.isSome = true) (hcomputed : x.computed = true) (hop : opOf s x = some (q, o))
    (hdefined : undefinedMacro q.words o = false) (hready : dramReady s x = true) (hunits : ∀ u ∈ x.units, u < 9)
    (hk : k < s.sched.nextId) : Runs (.macroOperationComplete k faults rounds) s fun t =>
      taskOf t k = none ∧
      (∀ u < 9, fget t (Fd.truss_MOP_COUNT u) = (fget s (Fd.truss_MOP_COUNT u) + timesWalked s x q.words o u) % 2 ^ 32) ∧
      (∀ u < 9, fget t (Fd.truss_TALLY_MISMATCH_COUNT u) =
        (fget s (Fd.truss_TALLY_MISMATCH_COUNT u) + (tallyUnits s x q.words o faults).count u) % 2 ^ 32) ∧
      (∀ u < 9, fget t (Fd.truss_RESIDUE_ERR_COUNT u) =
        (fget s (Fd.truss_RESIDUE_ERR_COUNT u) + (residueUnits s x q.words o faults rounds).count u) % 2 ^ 32) ∧
      (∀ u ∈ tallyUnits s x q.words o faults, HasEvent t (0x010 + u) 8 ∧ OnBus t 0x04 (0x010 + u)) ∧
      (∀ u ∈ residueUnits s x q.words o faults rounds, HasEvent t (0x010 + u) 9 ∧ OnBus t 0x05 (0x010 + u)) ∧
      t.fuses = s.fuses ∧ t.nvm = s.nvm ∧ TaskFrame s t := by
  have hstate := checkEngines_state (s := s) (p := q.words) (o := o) (faults := faults) (rounds := rounds) hunits
  have hrest := mopEnded_ended (offs := [0x044, 0x048, 0x04C]) (by decide) x
    (checkEngines (countMop s x q.words o) x q.words o faults rounds)
  rw [hstate] at hrest
  have hframe := (mopChecked_ended hunits).frame.trans hrest.frame
  refine ⟨_, macroOperationComplete_eq htask hkind hdisp hcomputed hop hdefined hready, ?_,
    fun u hu => (hrest.fgetTruss hu (by decide)).trans (mopChecked_MOP_COUNT hu),
    fun u hu => (hrest.fgetTruss hu (by decide)).trans (mopChecked_TALLY hunits hu),
    fun u hu => (hrest.fgetTruss hu (by decide)).trans (mopChecked_RESIDUE hunits hu), fun u hu => ?_, fun u hu => ?_, ?_, ?_, hframe⟩
  · have hid : (checkEngines (countMop s x q.words o) x q.words o faults rounds).2.id = k :=
      (show x.id = k from taskOf_id htask)
    rw [← hid]
    refine taskOf_mopEnded x ?_
    rw [hid, hstate]
    exact hk.trans_le (mopChecked_ended hunits).nextId
  · obtain ⟨hevent, hbus⟩ := mopChecked_tally_reports (rounds := rounds) hu
    exact ⟨hrest.reported.events _ _ hevent, hrest.reported.onBus hbus⟩
  · obtain ⟨hevent, hbus⟩ := mopChecked_residue_reports hu
    exact ⟨hrest.reported.events _ _ hevent, hrest.reported.onBus hbus⟩
  · exact hframe.fuses
  · exact hframe.nvm

end

/-! ### An undefined macro-instruction -/

/-- A Truss task's undefined instruction is reported (R209). -/
theorem instrFault_reports {s : State} {x : Task} (h : x.kind = .truss) :
    HasEvent (instrFault s x) (taskPage x) 11 ∧ OnBus (instrFault s x) 0x12 (taskPage x) := by
  have hraised : Ended [] (setEvent s (taskPage x) 11) (raise (setEvent s (taskPage x) 11) 0x12 (taskPage x) x.sclass x.pid 0) :=
    Ended.raise (.refl [] _) _ _ _ _ _
  have hrest : Ended [] (raise (setEvent s (taskPage x) 11) 0x12 (taskPage x) x.sclass x.pid 0) (instrFault s x) := by
    unfold instrFault
    simp only [h, beq_self_eq_true, if_true]
    exact updRun_ended (noteStatus_ended (.refl [] _) _ _ _ _) _ _ _
  exact ⟨(hraised.trans hrest).reported.events _ _ (setEvent_hasEvent s (taskPage x) (by decide)),
    hrest.reported.onBus (onBus_raise _ _ _ _ _ _)⟩

/-- A task's reach, and the lattice's next item. -/
theorem Ended.cutFrame {offs : List Nat} {s t : State} {q : Nat} {n : Option Docket}
    (h : Ended offs { s with lattice := { s.lattice with seq := q, newest := n } } t) : CutFrame s t := by
  have hlattice : t.lattice = { s.lattice with seq := q, newest := n } := by rw [show t = _ from h.frame]
  unfold CutFrame
  rw [hlattice]
  exact h.frame

/-- A task that an undefined case aborts is gone; its reports stand (R209). -/
theorem abortTask_ends {s : State} {x : Task} (hkind : x.kind = .truss) (hid : x.id < s.sched.nextId) :
    taskOf (abortTask s x) x.id = none ∧ HasEvent (abortTask s x) (taskPage x) 11 ∧ OnBus (abortTask s x) 0x12 (taskPage x) ∧
      CutFrame s (abortTask s x) := by
  have hfault : Ended [] s (instrFault (countTrap s x) x) := instrFault_ended (countTrap_ended (.refl [] s) x) x
  obtain ⟨q, n, hcut⟩ := publishCut_ended hfault x
  obtain ⟨q', n', hrest⟩ := publishCut_ended (.refl [] (instrFault (countTrap s x) x)) x
  have hreported := (completeTask_ended hrest x).reported
  obtain ⟨hevent, hbus⟩ := instrFault_reports (s := countTrap s x) hkind
  exact ⟨taskOf_completeTask (hid.trans_le hcut.nextId), hreported.events _ _ hevent, hreported.onBus hbus,
    (completeTask_ended hcut x).cutFrame⟩

theorem macroOperationComplete_aborts {s : State} {k : Nat} {x : Task} {p : PlanSt} {o : OpDesc} (htask : taskOf s k = some x)
    (hkind : x.kind = .truss) (hdisp : x.disp.isSome = true) (hop : opOf s x = some (p, o)) (hundef : undefinedMacro p.words o = true)
    (faults : List LaneFault) (rounds : List RoundFault) :
    exec (.macroOperationComplete k faults rounds) s = .next (abortTask s x) := by
  change execMacroOperationComplete k faults rounds s = _
  simp [execMacroOperationComplete, htask, hkind, hdisp, hop, hundef]

/-! ### The statement -/

/-- What RANDOM_NORMAL computes (R558, R559). -/
def normalVals (s : State) (p : List W32) (o : OpDesc) (x : Task) : List Xv :=
  (List.range (volume (outDesc p o 0).dims)).map fun e =>
    finishValue (finishRev s x) 11 (roundFloat fp32 (randP (randWord (macroOf p o) e)))

/-- Settles O31: the operators by their rules; the end of a macro-operation by its counts and checks, after which publication and
completion keep the engines' counters and reports. -/
theorem macroOperationsMoveDrawAndComplete : Obligations.MacroOperationsMoveDrawAndComplete := by
  unfold Obligations.MacroOperationsMoveDrawAndComplete
  refine ⟨fun k x p o s h => transpose_forms h, fun k x p o s h hfmt => ?_, fun k x p o s h hfmt => ?_,
    fun k x p o s h => formOuts_values (f := normalVals) rfl h,
    fun k faults rounds x p o s htask hkind hdisp hcomputed hop hdefined hready hunits hk =>
      macroOperationComplete_ends htask hkind hdisp hcomputed hop hdefined hready hunits hk,
    fun k faults rounds x p o s htask hkind hdisp hop hundef hk => ?_⟩
  · have hforms := randomUniform_forms h
    rwa [if_pos hfmt] at hforms
  · have hforms := randomUniform_forms h
    rwa [if_neg hfmt] at hforms
  · have hid := taskOf_id htask
    rw [← hid] at hk
    obtain ⟨hgone, hreports⟩ := abortTask_ends hkind hk
    rw [hid] at hgone
    exact ⟨_, macroOperationComplete_aborts htask hkind hdisp hop hundef faults rounds, hgone, hreports⟩

end Sys2Proof.Machine
end
